-- ==== Sys2Proof/Word.lean ====
section
/-! DEFINITION.
The word types of the UZV-6450 model. -/

namespace Sys2Proof

/-- One byte of a slot, a record, a frame or a table. -/
abbrev Byte := BitVec 8

/-- One 32-bit direct register. -/
abbrev Word := BitVec 32

/-- A table keyed by an index: the entries that differ from the table's default, in
rising order of the index. -/
abbrev Tbl (α : Type) := List (Nat × α)

end Sys2Proof
end

