-- ==== Sys2Proof/Syntax.lean ====
section
/-! DEFINITION.
The commands of the block: one constructor of `Instr` for each row of the opcode table,
with what the outside world supplies to it as operands. -/

namespace Sys2Proof

/-- A posted write of the main host over PCIe (R37, R59, R85), and the PCIe-facing
settings that host software makes in BAR4 and in configuration space (R34, R41). -/
inductive PostedWrite where
  /-- one DWORD at a BAR0 offset, with its byte enables [3:0] and the Requester ID -/
  | bar0 (tag off : Nat) (data : Word) (be : Nat)
  /-- two DWORDs from a BAR0 offset on, low one first, with their byte enables [7:0] -/
  | bar0Pair (tag off : Nat) (lo hi : Word) (be : Nat)
  /-- one DWORD at a BAR2 offset -/
  | bar2 (tag off : Nat) (data : Word) (be : Nat)
  /-- an MSI-X table entry of BAR4: vector, message address, message data, mask -/
  | msixEntry (vec addr : Nat) (data : Word) (masked : Bool)
  /-- one DWORD at a BAR4 offset -/
  | bar4 (off : Nat) (data : Word) (be : Nat)
  /-- configuration space: Max Payload Size and Max Read Request Size, in bytes -/
  | sizes (payload readRequest : Nat)
  /-- configuration space: Bus Master Enable, MSI-X enable, MSI-X function mask -/
  | config (bme msixEn funcMask : Bool)
  deriving DecidableEq, Repr

/-- The three PCIe AtomicOps of R56. -/
inductive AtomicKind where
  | fetchAdd | swap | cas
  deriving DecidableEq, Repr

/-- What an ingress MAC found at the end of a frame (R218, R240, R498). -/
inductive FcsStatus where
  | good | bad | complement
  deriving DecidableEq, Repr

/-- The end of a frame as the ingress MAC saw it. -/
structure FrameEnd where
  fcs : FcsStatus
  /-- ended by a PCS error or a loss of link (cause 3 of R222) -/
  pcsError : Bool
  /-- not a whole number of octets (R82 row 4) -/
  alignError : Bool
  /-- mPackets that the MAC merge sublayer put it together from, 0 for an express frame, and
  whether it found a reassembly error or an SMD error (R297) -/
  frags : Nat := 0
  assemblyError : Bool := false
  smdError : Bool := false
  deriving DecidableEq, Repr

/-- The SecTAG and ICV removed from a received frame (R396). -/
structure SecTag where
  /-- the SCI the tag carries, or the port's implicit SCI -/
  sci : Nat
  an : Nat
  pn : Nat
  /-- bytes of SecTAG and ICV together, which the receive octet counts include -/
  extra : Nat
  deriving DecidableEq, Repr

/-- A received MAC control frame (R263, R265). -/
inductive PauseKind where
  | pause (quanta : Nat)
  | pfc (enable : Nat) (quanta : List Nat)
  deriving DecidableEq, Repr

/-- The formats of R314. -/
inductive CanFormat where
  | classicData | classicRemote | fd | xl
  deriving DecidableEq, Repr

/-- One CAN frame on the wire or in a buffer (R314, R321, R354). -/
structure CanFrame where
  format : CanFormat
  /-- 29-bit identifier format -/
  ext : Bool
  /-- identifier, or the XL priority ID -/
  id : Nat
  brs : Bool
  esi : Bool
  /-- CAN XL: SDU type, SEC, RRS, VCID and acceptance field -/
  sdt : Nat
  sec : Bool
  rrs : Bool
  vcid : Nat
  af : Nat
  data : List Byte
  /-- the DLC of a remote frame -/
  dlc : Nat
  deriving DecidableEq, Repr

/-- How a transmission attempt of a CAN channel ended (R325, R327, R329). -/
inductive CanTxResult where
  | sent
  | arbLost
  /-- it failed with the error code of R329; `eight`: the transmit error count rises by 8 -/
  | error (code : Nat) (eight : Bool)
  deriving DecidableEq, Repr

/-- How a LIN response ended (R341). -/
inductive LinResult where
  | ok | noResponse | checksum | bitError | framing | overlap
  deriving DecidableEq, Repr

/-- What the 802.1AS instance learns from one PTP frame (R447, R449, R452). -/
inductive PtpMsg where
  /-- a Sync of the selected source: measured offset, and rate correction in 10⁻¹² -/
  | sync (offset rate : Int)
  /-- BMCA selects another grandmaster, reached through a port (none: this device) -/
  | newMaster (gm : Nat) (port : Option Nat)
  /-- the common mean link delay service measured the port's delay -/
  | pdelay (ns : Nat)
  | other
  deriving DecidableEq, Repr

/-- A unit that arrives on the Tongs link and is no forwarded frame (R496, R500). -/
inductive MirrorMsg where
  /-- a journal entry of the partner, 128 bytes -/
  | journal (bytes : List Byte)
  /-- the partner's ring is missing entries before this one -/
  | journalGap (count : Nat)
  /-- a freshness entry's new last value -/
  | freshness (entry last : Nat)
  /-- the committed history of a recovery function: sequence numbers accepted -/
  | recovery (fn : Nat) (seqs : List Nat)
  /-- the next number of a generation function -/
  | generation (fn next : Nat)
  /-- the partner's network-management state and requests -/
  | nm (state pnReq : Nat) (request : Bool)
  /-- a calendar command that the smith executes on both devices (R511): its opcode and body, and the
  image of a `CAL_LOAD` -/
  | calendar (opcode : Nat) (body image : List Byte)
  deriving DecidableEq, Repr

/-- One item of the resynchronisation of R512. -/
inductive SyncItem where
  /-- a handle, its state (R151), T of a pending one in ns of its domain, and its image -/
  | handle (h state t : Nat) (image : List Byte)
  | mirror (m : MirrorMsg)
  /-- the last item has been sent; the active image's activation boundary, in ns of its
  domain -/
  | finish (boundary : Nat)
  /-- the partner has missed an activation and asks for the calendar state (R165) -/
  | request
  deriving DecidableEq, Repr

/-- A heartbeat of either kind (R503). -/
structure Heartbeat where
  /-- true on the Tongs link, false on a backbone port -/
  tongs : Bool
  role : Nat
  strapped : Bool
  yields : Bool
  forgeId : Nat
  count : Nat
  nmState : Nat
  /-- the sleep commit instant of R508, as local time of this device, when one is set -/
  commitAt : Option Nat
  /-- per domain: the partner's value, minus its own here, plus half the loop delay -/
  offsets : List Int
  deriving DecidableEq, Repr

/-- A hello unit of R497. -/
structure Hello where
  forgeId : Nat
  strapSmith : Bool
  claims : Nat
  fwVersion : Nat
  nonce : Nat
  /-- the first secured unit that follows verified -/
  verified : Bool
  deriving DecidableEq, Repr

/-- A zone's vote frame (R509). -/
structure Vote where
  zone : Nat
  id0 : Nat
  role0 : Nat
  id1 : Nat
  role1 : Nat
  heard : Nat
  deriving DecidableEq, Repr

/-- The commands of the block. A mailbox command names the host and the queue whose
oldest waiting command it runs, and carries the bytes that its DMA reads from host
memory. -/
inductive Instr where
  -- host bridge
  | registerWrite (w : PostedWrite)
  | guardedValueWrite (host tag off : Nat) (v : Word)
  | guardedComplementWrite (host tag off : Nat) (v : Word)
  | guardWindowExpiry (off : Nat)
  | bitAliasWrite (host tag off bit : Nat) (v : Word)
  | atomicOp (kind : AtomicKind) (bar2 wide : Bool) (off operand compare : Nat)
  | functionLevelReset
  | hotReset
  | pcieLinkDown
  | pciePerst
  | irqHoldoffExpiry (vec : Nat)
  | msixPendingSend (vec : Nat)
  | spiRead (addr count : Nat) (crc : Byte) (ready : Bool)
  | spiWrite (addr count : Nat) (data : List Word) (crc : Byte)
  | spiGuardedWrite (addr : Nat) (v comp : Word) (crc : Byte)
  | spiStatus
  | spiUnknownInstruction (op : Byte)
  | spiCsCutShort
  | parityScrub (off : Nat)
  | evqConsWrite (host tag q : Nat) (v : Word)
  | rxRingDeliver (ring : Nat)
  | rxRingConsWrite (host tag ring : Nat) (v : Word)
  | txRingProdWrite (host tag ring : Nat) (v : Word)
  | txRecordFetch (ring : Nat) (hdr frame : List Byte)
  | tsqCtrlWrite (host tag g : Nat) (v : Word)
  | tsqConsWrite (host tag g : Nat) (v : Word)
  | evqConfig (host queue : Nat)
  | ringConfig (host queue : Nat)
  | devHeartbeatTick
  -- mailbox and journal
  | mbxDoorbell (host tag q : Nat) (v : Word)
  | slotTake (host queue : Nat)
  | mbxCqConsWrite (host tag q : Nat) (v : Word)
  | mbxQueueEnable (host tag q : Nat) (irqEn : Bool)
  | mbxQueueDisable (host tag q : Nat) (irqEn : Bool)
  | journalPersist (index failures : Nat)
  | flashSectorEraseDone
  | mirrorAck (index : Nat)
  | mirrorAckTimeout (index : Nat)
  | completionRelease (host queue : Nat)
  | devInfo (host queue : Nat)
  | devStateGet (host queue : Nat)
  | hostResync (host queue : Nat)
  | journalRead (host queue : Nat)
  | journalMark (host queue : Nat)
  -- calendar
  -- `partner`: the status of the striker's execution, where R511 has both devices execute
  | calLoad (host queue : Nat) (dma : List Byte) (partner : Nat)
  | calAdmit (host queue partner : Nat)
  | calActivateAt (host queue partner : Nat)
  | calAbort (host queue partner : Nat)
  | calStatus (host queue : Nat)
  | calLimpSelect (host queue : Nat)
  | pipelineIssue (pipe bePick : Nat)
  | hypercycleBoundary
  | activationCommit
  | calTakeover
  | overlapEnd
  | gateEntryStart (port : Nat)
  | macHoldAssert (port : Nat)
  | edgeSlotOpen (slot : Nat)
  | edgeSlotEnd (slot : Nat) (busIdleSeen : Bool)
  | routerJobRelease (job : Nat)
  | tunnelWindowOpen (win : Nat)
  | tunnelWindowClose (win : Nat)
  | streamDeadlineExpiry (fid egress : Nat)
  -- forwarding
  | fwdTxnBegin (host queue : Nat)
  | fwdEntryAdd (host queue : Nat)
  | fwdEntryDel (host queue : Nat)
  | fwdTxnCommit (host queue : Nat)
  | fwdEpochDrain (host queue : Nat)
  | epochDrainComplete (host queue : Nat)
  | epochDrainTimeout (host queue : Nat)
  | epochStorageReclaim
  | fwdLpmAdd (host queue : Nat)
  | fwdFlushPort (host queue : Nat)
  | fwdAgeConfig (host queue : Nat)
  | learnEngineCommit
  | relocationInvalidate
  | ageingScan
  | connectionTimeoutScan
  | frameArrival (src : Nat) (head : List Byte) (sec : Option SecTag)
  | frameLastByte (src : Nat) (rest : List Byte) (fin : FrameEnd)
  | macsecIcvVerdict (src : Nat) (ok : Bool)
  | verdictTimeout (src : Nat)
  | egressSelect (port : Nat)
  | egressCopyEnd (port : Nat)
  -- buffers
  | spillFrame
  | drainBack (queue : Nat)
  | drainReadComplete (queue : Nat) (ok : Bool)
  | schedPartitionApply
  | ovfRegionApply
  | xoffRepeat (port pri : Nat)
  | pauseFrameReceived (port : Nat) (kind : PauseKind)
  | pauseExpiry (port queue : Nat)
  | portLinkDown (port : Nat)
  | portLinkUp (port rateCode : Nat)
  | drainHoldEnd (port : Nat) (scheduled : Bool)
  | slagAuditPass (orphans badRefs : List Nat)
  | fairnessAuditWindow
  -- traffic
  | trfQueueConfig (host queue : Nat)
  | trfPolicerSet (host queue : Nat)
  | trfShaperSet (host queue : Nat) (dma : List Byte)
  | trfStreamFilter (host queue : Nat) (dma : List Byte)
  | trfFrerConfig (host queue : Nat)
  | hostGclChange (streamGate : Bool) (index : Nat)
  | streamGateEntry (gate : Nat)
  | preemptVerifyTimer (port : Nat)
  | frerResetTimeout (fn : Nat)
  | frerLatentPeriod (fn : Nat)
  -- edge buses
  -- `ago`: ns since the edge of SOF or the break was seen at RXD
  | canFrameReceived (ch : Nat) (f : CanFrame) (ago : Nat)
  | canTxAttempt (ch : Nat) (r : CanTxResult)
  | canBusError (ch code : Nat) (transmitting eight : Bool)
  | busOffRecoverDelay (ch : Nat)
  | busOffRecoveryDone (ch : Nat)
  | edgCanConfig (host queue : Nat) (dma : List Byte)
  | edgLinConfig (host queue : Nat) (dma : List Byte)
  | edgT1sConfig (host queue : Nat)
  | edgXcvrMode (host queue : Nat)
  | edgBusOffRecover (host queue : Nat)
  | configApplyAtIdle (ch : Nat)
  | xcvrModeApply (ch : Nat)
  | xcvrModeForced (ch : Nat)
  | xcvrSettleEnd (ch : Nat)
  | linScheduleSlot (ch : Nat)
  | linHeaderReceived (ch id rate : Nat) (parityOk : Bool) (ago : Nat)
  | linResponseEnd (ch : Nat) (r : LinResult) (data : List Byte)
  | linBusIdleTimeout (ch : Nat)
  | linWakeDetect (ch : Nat)
  | plcaStatusChange (m : Nat) (ok : Bool)
  | t1sDupCoordinator (m : Nat)
  | t1sCollision (m : Nat)
  -- tunnels, signals, E2E; `reached`: templates emitted before the deadline
  | tunEncapTake (ch : Nat)
  | batchTimeout (ch : Nat)
  | xPortInject (x : Nat)
  | tunDecapsulate (x : Nat)
  | presentationHoldEnd (ch : Nat)
  | sigExtraction (seq : Nat)
  | sigJobRun (seq : Nat)
  | jobDeadlineMiss (seq reached : Nat)
  | mappingTimeout (m : Nat)
  | tunChannelSet (host queue : Nat)
  | sigMapLoad (host queue : Nat) (dma : List Byte)
  | e2eContextSet (host queue : Nat)
  -- security and keys
  | secFwRule (host queue : Nat) (dma : List Byte)
  | portConfig (host queue : Nat)
  | scConfig (host queue : Nat)
  | saInstall (host queue : Nat)
  | saDelete (host queue : Nat)
  | txSwitch (host queue : Nat)
  | cipherDispatch
  | cipherRequestComplete (n : Nat)
  | secFvWrite (host tag : Nat) (v : Word)
  | keyDerive (host queue : Nat)
  | keyDeriveRebuild (host queue : Nat)
  | keyUnwrap (host queue : Nat)
  | keyErase (host queue : Nat)
  | lcAdvance (host queue : Nat) (readBack : Option Nat)
  | keyAlarm (sources : Nat) (ember : Bool)
  -- time
  | timeDomainConfig (host queue : Nat)
  | timeAdjust (host queue : Nat)
  | timeJumpAccept (host queue : Nat)
  | timSnap (host tag : Nat) (v : Word)
  | ptpFrameReceived (port domainNumber : Nat) (msg : PtpMsg)
  | syncReceiptTimeout (dom : Nat)
  | hostSourceTimeout (dom : Nat)
  | ptpSyncTransmit (dom port : Nat)
  -- power and network management
  -- `restoreMib`, `residentMib`: size of the warm image's parts; `above`: VBAT is past 4.5 V;
  -- `sealOk`: the warm image's header and blocks verify
  | pwrStateRequest (host queue : Nat)
  | nmConfig (host queue : Nat) (dma : List Byte)
  | wakeSourceConfig (host queue : Nat) (dma : List Byte)
  | nmAwakeLogRead (host queue : Nat)
  | nmMessageReceived (cluster : Nat) (payload : List Byte)
  | nmRepeatTimeout
  | readySleepTimeout
  | nmCommitPoint
  | sleepEntry (restoreMib residentMib : Nat)
  | nmCycleTransmit
  | stayAwakeDetect (cluster node : Nat)
  | wakePin (pin : Nat) (rising : Bool)
  | canWakePattern (ch : Nat)
  | swOscillatorStart (ch : Nat)
  | selectiveWakeFrame (ch : Nat) (f : CanFrame)
  | swIdleTimeout
  | linWake (ch : Nat)
  | wakeTimer
  | vbatRise (above : Bool)
  | vbatFall
  | pwrGoodRise
  | forgeResetRelease (sealOk : Bool)
  | pgTimeout
  | pwrGoodFall
  | junctionOvertemp
  | kindleTimeout
  | kindleRetry
  | firmwareReady
  | bankedDecay
  | emberDecay
  | residentVerifyDone (ok : Bool)
  | dieLinkFailure
  -- the redundant pair
  | pairConfig (host queue : Nat)
  | pairRole (host queue : Nat)
  | pairStatus (host queue : Nat)
  | tongsLinkUp
  | tongsLinkDown (lane : Nat)
  | helloUnitReceived (h : Hello)
  | helloTimeout
  | keyingRetry
  | mirrorMessageReceived (m : MirrorMsg) (tagOk : Bool)
  | syncBlockReceived (item : SyncItem)
  | tongsHeartbeatSend
  | backboneHeartbeatSend
  | heartbeatReceived (h : Heartbeat)
  | partnerLoss
  | voteReceived (v : Vote)
  | clashComparison
  -- fault containment
  | faultReport (domain source : Nat)
  | recoveryStart (domain : Nat)
  | recoveryDone (domain : Nat) (ok : Bool)
  | recoveryBudgetExpiry (domain : Nat)
  | probationEnd (domain : Nat)
  | correctableEcc
  | fenceStatus (host queue : Nat)
  | fenceRelease (host queue : Nat)
  | captureStart (host queue : Nat)
  -- boot, service and update
  /-- the OTP steps and the revoke bits (a mask) that fail their read-back -/
  | autoConfirmTimeout (stepsFail revokeFail : Nat)
  | svcHello (nonce : List Byte) (broadcast : Bool)
  | svcProof (session : Nat) (body : List Byte)
  | svcData (session seq : Nat) (encrypted : Bool) (body tag : List Byte)
  | svcCommand (session seq : Nat) (body tag : List Byte)
  | svcClose (session seq : Nat) (tag : List Byte)
  | svcSessionTimeout
  | svcLockoutEnd
  | updSessionOpen (host queue : Nat) (flashOk : Bool)
  | updBlock (host queue : Nat) (flashOk : Bool)
  | updVerify (host queue : Nat)
  | updActivate (host queue stepsFail revokeFail : Nat)
  | alarmDeasserted (sources : Nat)
  | slewEnd (dom : Nat)
  | preemptVerifyResponse (port : Nat)
  | swDecodeError (ch : Nat) (error : Bool)
  | minimumOffTimeEnd
  | nodeRecordAged (cluster node : Nat)
  | vbatAboveOperatingMin
  | voteDisagreement (off : Nat)
  | protocolExceptionEnd (ch : Nat)
  deriving DecidableEq, Repr

end Sys2Proof
end

