-- ==== Sys2Proof/Decode.lean ====
section
/-! DEFINITION.
The commands that the opcode table spells by bits. The table gives no row any bits: a
command reaches the block as a register access, a slot, a frame or an event, not as a
word. -/

namespace Sys2Proof

/-- The command a word spells by the table's bits: none, since no row has bits. -/
def decodeTableWord (_nbits _w : Nat) : Option Instr := none

end Sys2Proof
end

