-- ==== Sys2Proof/Config.lean ====
section
/-! DEFINITION.
What one implementation fixes, and the values the spec leaves open. None of the opaque
constants has a value that Lean can see: a claim that mentions one holds for every value. -/

namespace Sys2Proof.Config

/-- Identity of the part (R2, R81): silicon stepping, Forge and Ember die identifiers,
set at manufacture. -/
opaque stepping : BitVec 16
opaque forgeId : BitVec 32
opaque emberId : BitVec 32

/-- A free value: the spec states no value for the `n`-th one (log entry 1). -/
opaque freeValue (n : Nat) : BitVec 64

/-- The levels of the straps at reset release (R536): strapped smith, recovery mode. -/
opaque strapSmith : Bool
opaque strapRecovery : Bool

/-- DRAM in GiB and flash in MiB of the board (R550, R538). -/
opaque dramGib : BitVec 4
opaque flashMib : BitVec 12

/-- What the OTP holds when the part leaves manufacture (R543): the four image-key digests and
which of them are programmed. -/
opaque otpKeyDigest (i : Nat) : BitVec 384
opaque otpProgrammed : BitVec 4

/-- What the flash holds when it is mounted, by kind × 2 + slot (R538). -/
opaque flashFactory (i : Nat) : List Byte

/-- The `n`-th draw of the TRNG, 64 bits (R420, R437, R497, R552). -/
opaque trng (n : Nat) : BitVec 64

/-- Whether a P-384 signature verifies: public key, message digest, signature (R150). -/
opaque ecdsaVerify (key digest sig : List Byte) : Bool

/-- Whether an ML-DSA-65 signature verifies over a SHA-384 pre-hash (R150). -/
opaque mldsaVerify (key digest sig : List Byte) : Bool

/-- Severity of an event whose severity the spec does not state (R63), by its code. -/
opaque severity (code : Nat) : BitVec 3

end Sys2Proof.Config
end

