-- ==== Sys2Proof/Machine/State.lean ====
section
/-! DEFINITION.
The state of the UZV-6450: its direct registers in one register file, and the memories,
queues, tables and engines behind them. Numbers without wrapping are naturals; their
widths stand in INVENTORY.md. -/

namespace Sys2Proof.Machine

/-- Faults of the block. No command of this model ends in a fault: every refusal the
spec describes (a refused write, a rejected or failing mailbox command, a quench) is
state, and the block goes on. -/
inductive Fault where
  /-- raised by no command; it exists because the interface wants a type of faults.
  Safe: nothing is concluded from it. -/
  | none
  deriving DecidableEq, Repr

/-- Refusals of the model. -/
inductive Refusal where
  /-- raised by the dispatch for a row whose meaning is not written, by its mnemonic.
  Safe: a refusal proves nothing about the hardware. -/
  | notModelled (mnemonic : String)
  deriving DecidableEq, Repr

/-- The attributes of a PCIe request. -/
structure PcieAttr where
  relaxedOrdering : Bool := false
  noSnoop : Bool := false
  idOrdering : Bool := false
  deriving DecidableEq, Repr

/-- What the block does towards the outside, in the order it does it. It is the model's
own record of outputs: nothing in the block reads it back. -/
inductive Output where
  /-- a DMA write request to main-host memory -/
  | hostWrite (addr : Nat) (bytes : List Byte) (attr : PcieAttr)
  /-- a DMA read request to main-host memory: its address and its length -/
  | hostRead (addr len : Nat) (attr : PcieAttr)
  /-- an MSI-X message -/
  | msix (vec : Nat)
  /-- the completion of an AtomicOp: the old value, or Completer Abort -/
  | atomicDone (ok : Bool) (old : Nat)
  /-- the bytes the SPI target drives -/
  | spi (bytes : List Byte)
  /-- the first byte of an egress copy on a lane: port, queue, frame, bytes after
  rewriting, and the MACsec packet number assigned -/
  | laneStart (port queue fid : Nat) (bytes : List Byte) (pn : Option Nat)
  /-- an egress copy ended whole -/
  | laneEnd (port fid : Nat)
  /-- an egress copy ended under R238: the bytes of the copy up to the abort, padded, and the
  complemented CRC-32 over them; none over the protected bytes of a MACsec port (log entry 54) -/
  | tailAbort (port fid : Nat) (bytes : List Byte) (crc : Option Word)
  /-- a forwarded-frame unit of the Tongs link ended with the abort marker (R238, R498) -/
  | tongsAbort (fid : Nat) (bytes : List Byte)
  /-- a pause or PFC frame sent: port, priority (8 for 802.3x), quanta -/
  | pauseSent (port pri quanta : Nat)
  /-- a verify or response mPacket -/
  | mPacket (port : Nat)
  /-- a unit of the Tongs link: TYPE and payload -/
  | tongsUnit (type : Nat) (payload : List Byte)
  /-- a backbone heartbeat frame on a port -/
  | heartbeat (port : Nat) (bytes : List Byte)
  /-- bytes programmed into the flash device at an address (R116) -/
  | flash (addr : Nat) (bytes : List Byte)
  /-- a service frame on S0 -/
  | s0 (bytes : List Byte)
  /-- a CAN frame sent on a channel -/
  | can (ch : Nat) (f : CanFrame)
  /-- a LIN header sent, or a response published -/
  | linHeader (ch id : Nat)
  | linResponse (ch : Nat) (data : List Byte)
  /-- a network-management message on a cluster -/
  | nm (cluster : Nat) (bytes : List Byte)
  /-- an 802.1AS frame of the device's own instance -/
  | ptp (dom port : Nat)
  /-- a mirror message is due to the partner -/
  | mirror (m : MirrorMsg)
  deriving DecidableEq, Repr

/-! ### Host bridge -/

/-- A value waiting for its complement (R50). -/
structure GuardPair where
  off : Nat
  data : Word
  host : Nat
  tag : Nat
  /-- local clock in ns when the value was written -/
  since : Nat
  deriving DecidableEq, Repr

/-- What a ring has besides its registers (R68 to R74). -/
structure Ring where
  base : Nat := 0
  /-- write-back address (transmit rings) -/
  wb : Nat := 0
  /-- lost count of the gap rule (R70) -/
  lost : Nat := 0
  /-- the frame that holds the ring until its record is finished (R73), and the pad record
  that its record stands behind -/
  busy : Option Nat := none
  pad : Nat := 0
  /-- bytes of the frame already taken for writing -/
  wrote : Nat := 0
  /-- write requests of the record in progress that have not gone out, in order (R73) -/
  todo : List (Nat × List Byte) := []
  /-- the record in progress is written in commit mode (R72) -/
  late : Bool := false
  deriving DecidableEq, Repr

/-- An MSI-X table entry of BAR4. -/
structure MsixEntry where
  addr : Nat := 0
  data : Word := 0
  masked : Bool := true
  deriving DecidableEq, Repr

/-- The configuration space of the PCIe function (R34, R36): what it reports, and the two sizes
that the host programs (log entry 53). -/
structure PcieFn where
  vendorId : Nat := 0x1E5D
  deviceId : Nat := 0x6450
  /-- the highest link speed, as `HIF_LINK_STATUS` codes it, and width -/
  maxSpeed : Nat := 4
  maxWidth : Nat := 4
  aer : Bool := true
  functionReset : Bool := true
  aspmL1 : Bool := true
  aspmL0s : Bool := false
  l1Substates : Bool := false
  /-- the Max Payload Size advertised -/
  maxPayloadCap : Nat := 256
  maxPayload : Nat := 128
  maxReadRequest : Nat := 512
  deriving DecidableEq, Repr

/-- The host bridge beyond its registers. -/
structure Hif where
  fn : PcieFn := {}
  /-- writes to main-host memory that wait until it can be written again (R41, R65): the MSI-X
  vector of the queue or ring that they belong to, address and bytes, oldest first -/
  held : List (Nat × Nat × List Byte) := []
  /-- PCIe link in L0 or L1, and what it trained to -/
  linkUp : Bool := false
  speed : Nat := 0
  width : Nat := 0
  /-- Bus Master Enable -/
  bme : Bool := false
  msixEn : Bool := false
  funcMask : Bool := false
  msix : Tbl MsixEntry := []
  /-- pending bits of BAR4 -/
  pba : List Nat := []
  /-- vectors with a change waiting for the end of the holdoff spacing (R41) -/
  heldOff : List Nat := []
  /-- local clock of each vector's last message -/
  lastMsg : Tbl Nat := []
  /-- values that wait for their complements (R50) -/
  guards : List GuardPair := []
  /-- STATUS of the most recent SPI transaction (R46) -/
  spiStatus : Nat := 0
  /-- SPI transactions, low 16 bits are the TAG of R61 -/
  spiCount : Nat := 0
  rx : Tbl Ring := []
  tx : Tbl Ring := []
  /-- lost counts of the event queues (R65) and of the timestamp queues (R77) -/
  evqLost : Tbl Nat := []
  tsqLost : Tbl Nat := []
  /-- words discarded per host while the host domain is quenched (R525) -/
  discarded : Tbl Nat := []
  deriving DecidableEq, Repr

/-! ### Mailbox and journal -/

/-- The stages of a command taken from a slot (R104 to R106). -/
inductive CmdPhase where
  /-- accepted, execution not ended -/
  | accepted
  /-- begun, and waiting for the event that ends it -/
  | running
  /-- a duplicate that waits for the original's completion (R100) -/
  | replayWait
  /-- execution ended; its journal, mirror and completion steps remain -/
  | ended
  deriving DecidableEq, Repr

/-- One command taken from a slot whose completion has not been posted. -/
structure Cmd where
  /-- journal index; `noIndex` when the command is not journaled -/
  index : Nat
  host : Nat
  queue : Nat
  slot : Nat
  seq : Nat
  opcode : Nat
  flags : Nat
  tag : Nat
  hostTime : Nat
  expectEpoch : Nat
  session : Nat
  body : List Byte
  acceptTime : Nat
  /-- the times of the four domains at acceptance, in ns (R155) -/
  acceptDom : List Nat := []
  phase : CmdPhase
  status : Nat := 0
  result : Nat := 0
  data : List Byte := []
  doneTime : Nat := 0
  cfgEpoch : Nat := 0
  replayed : Bool := false
  stalled : Bool := false
  unmirrored : Bool := false
  /-- waits for the flash record of a class C command -/
  waitFlash : Bool := false
  /-- waits for the partner's acknowledgement (R105) -/
  waitMirror : Bool := false
  /-- a deadline that the running command set, local ns -/
  deadline : Nat := 0
  /-- the host's highest accepted sequence number before this command (R122) -/
  hBefore : Nat := 0
  /-- the core pair that runs it, 0 to 3 (R106) -/
  pair : Nat := 0
  /-- its record stands in flash -/
  persisted : Bool := false
  deriving DecidableEq, Repr

/-- A journal entry (R111) as the DRAM ring, the retention SRAM or the flash holds it. -/
structure JEntry where
  index : Nat
  seq : Nat
  opcode : Nat
  host : Nat
  classC : Bool
  persisted : Bool
  status : Nat
  session : Nat
  acceptTime : Nat
  doneTime : Nat
  hostTime : Nat
  cfgEpoch : Nat
  tag : Nat
  result : Nat
  queue : Nat
  bodyLen : Nat
  bodyCrc : Nat
  bodyHead : List Byte
  deriving DecidableEq, Repr

/-- One written sector of the flash journal region (R116). -/
structure FlashSector where
  /-- its number in the region -/
  place : Nat
  seq : Nat
  firstIndex : Nat
  eraseCount : Nat
  records : List (JEntry × List Byte)
  /-- record positions used up, failed programs included -/
  used : Nat
  deriving DecidableEq, Repr

/-- Queues, sequence sessions and journal. The indices and epochs that host software
reads are in the register file. -/
structure Mbx where
  /-- taken commands, in the order in which they were taken -/
  cmds : List Cmd := []
  /-- DWORDs of slot memory written since their slot was last taken (R90) -/
  written : List Nat := []
  /-- queues stopped by a queue fault (R88), as host × 16 + queue -/
  faults : List Nat := []
  /-- doorbells not yet taken up to, in the order of the writes (R96): queue as
  host × 16 + queue, and the count written -/
  bells : List (Nat × Nat) := []
  /-- commands of the service queue that S0 carried in and that are not taken -/
  svc : List (List Byte) := []
  /-- service-queue counts: taken, completions posted -/
  svcAccept : Nat := 0
  svcPosted : Nat := 0
  /-- DRAM entry ring and body store (R114) -/
  dram : List JEntry := []
  bodies : Tbl (List Byte) := []
  dramOk : Bool := true
  /-- retention SRAM, newest first (R115) -/
  retention : List JEntry := []
  /-- flash region: written sectors, oldest first, and the erased sectors ahead: their numbers
  and erase counts -/
  sectors : List FlashSector := []
  erased : List (Nat × Nat) := [(0, 0), (1, 0), (2, 0), (3, 0)]
  flashFault : Bool := false
  /-- a warm start's resident part is not yet verified (R486) -/
  residentWait : Bool := false
  deriving DecidableEq, Repr

/-! ### Calendar -/

/-- The states of an image handle (R151). -/
inductive HandleState where
  | empty | loaded | admitted | pending | active | draining
  deriving DecidableEq, Repr

/-- A wheel entry (R141). -/
structure WheelEntry where
  off : Nat
  stride : Nat
  count : Nat
  owner : Nat
  deriving DecidableEq, Repr

/-- An entry of a gate list (R143). -/
structure GateEntry where
  interval : Nat
  gates : Nat
  op : Nat
  deriving DecidableEq, Repr

/-- A gate list of an image (R143). -/
structure GateList where
  port : Nat
  rate : Nat
  cycle : Nat
  entries : List GateEntry
  deriving DecidableEq, Repr

structure EdgeSlot where
  ch : Nat
  kind : Nat
  index : Nat
  off : Nat
  window : Nat
  deriving DecidableEq, Repr

structure RouterJob where
  seq : Nat
  job : Nat
  off : Nat
  deadline : Nat
  deriving DecidableEq, Repr

structure TunWindow where
  ch : Nat
  opens : Nat
  closes : Nat
  deriving DecidableEq, Repr

structure Weight where
  port : Nat
  queue : Nat
  quantum : Nat
  deriving DecidableEq, Repr

/-- A guarantee entry (R149). -/
structure Guarantee where
  handle : Nat
  flags : Nat
  source : Nat
  queue : Nat
  origin : Nat
  mac : Nat
  vid : Nat
  egress : Nat
  egressX : Nat
  lMax : Nat
  interval : Nat
  burst : Nat
  phase : Nat
  width : Nat
  bound : Nat
  warn : Nat
  deriving DecidableEq, Repr

/-- A calendar image taken apart (R137 to R150). -/
structure Image where
  id : Nat
  pred : Nat
  hyper : Nat
  baseSec : Nat
  baseNs : Nat
  overlap : Nat
  domain : Nat
  flags : Nat
  signer : Nat
  macsecNs : Nat
  cipherNs : Nat
  size : Nat
  wheel0 : List WheelEntry
  wheel1 : List WheelEntry
  gates : List GateList
  slots : List EdgeSlot
  jobs : List RouterJob
  windows : List TunWindow
  reserve : List (Nat × Nat)
  weights : List Weight
  guarantees : List Guarantee
  /-- the signed bytes and the signature block -/
  bytes : List Byte
  deriving DecidableEq, Repr

/-- An image handle. -/
structure Handle where
  state : HandleState := .empty
  img : Option Image := none
  deriving DecidableEq, Repr

/-- Counts of a guarantee handle (R158) and its interval window (R133). -/
structure GCount where
  frames : Nat := 0
  nonconf : Nat := 0
  maxLat : Nat := 0
  breaches : Nat := 0
  margins : Nat := 0
  /-- the interval window the last frame arrived in, and frames counted in it -/
  window : Nat := 0
  inWindow : Nat := 0
  /-- cells of the reservation in use (R254) -/
  cells : Nat := 0
  /-- local ns of the last EV_CAL_MARGIN (R171) -/
  marginAt : Option Nat := none
  deriving DecidableEq, Repr

/-- A deadline of the contract monitor (R166): frame, egress, handle, bound. -/
structure Deadline where
  fid : Nat
  egress : Nat
  image : Nat
  handle : Nat
  start : Nat
  bound : Nat
  warn : Nat
  /-- its frame started in a window in which no breach counts (R156, R163) -/
  waived : Bool := false
  deriving DecidableEq, Repr

/-- A frame in a transmit buffer or in the transmit FIFO. -/
structure TxItem where
  frame : CanFrame
  single : Bool
  /-- who wrote it: 0 the tunnel engine, 1 the signal router, 2 the control cluster -/
  writer : Nat
  /-- an attempt of it has begun and it waits for its retransmission -/
  begun : Bool := false
  deriving DecidableEq, Repr

/-- An edge slot in progress (R144, R326, R327), and the image that it belongs to (R161). -/
structure OpenSlot where
  slot : Nat
  image : Nat
  ch : Nat
  kind : Nat
  index : Nat
  /-- local ns of OFFSET_NS + WINDOW_NS -/
  ends : Nat
  /-- KIND 1: the frame that the signal router held for the template -/
  frame : Option TxItem
  /-- an attempt of its frame has begun; it has been sent -/
  begun : Bool
  done : Bool
  deriving DecidableEq, Repr

/-- What the sequencer executes. -/
inductive Running where
  | noCalendar | image (handle : Nat) | limp
  deriving DecidableEq, Repr

structure Cal where
  handles : Tbl Handle := []
  running : Running := .noCalendar
  limp : Option Image := none
  /-- T of the pending activation, in ns of its domain -/
  pendingT : Nat := 0
  /-- committed to the sequencer (R159) -/
  committed : Bool := false
  /-- domain time in ns at which the overlap window ends -/
  overlapEnd : Option Nat := none
  /-- re-phasing (R163), and stopped ahead of a T in another domain (R156) -/
  rephase : Bool := false
  stop : Bool := false
  /-- a switch to the limp calendar is due, with its cause of R173; 0 none -/
  limpDue : Nat := 0
  /-- while it re-phases: local ns at which the hypercycle in progress ends (R163) -/
  cycleEnd : Nat := 0
  /-- the next boundary of the running image, in ns of its domain -/
  nextB : Nat := 0
  /-- the image that drains in its successor's overlap window -/
  old : Option Image := none
  /-- counts of the running and of the draining image's handles -/
  active : Tbl GCount := []
  draining : Tbl GCount := []
  deadlines : List Deadline := []
  openSlots : List OpenSlot := []
  /-- tunnel windows open now, by channel -/
  openWindows : List Nat := []
  /-- per port: index of the gate-list entry in force -/
  gateAt : Tbl Nat := []
  /-- local ns of the last time change and of the boundary that ended its re-phasing, and
  of the last release of the calendar domain (R163, R523) -/
  rephaseAt : Nat := 0
  /-- while it re-phases: local ns at which the hypercycle of the draining image ends (R163) -/
  oldEnd : Option Nat := none
  resumeAt : Nat := 0
  /-- local ns at which the running image was switched to (R29) -/
  changeAt : Option Nat := none
  /-- local ns of the boundary at which the wheels last began or resumed -/
  wheelAt : Nat := 0
  /-- local ns at which the running image last stopped for a T in another domain, and at which
  that stop ended (R156) -/
  stopAt : Nat := 0
  stopEnd : Nat := 0
  monitorFrom : Nat := 0
  deriving DecidableEq, Repr

/-! ### Forwarding -/

/-- A table entry under transactions: content, epoch added, epoch deleted (R204). -/
structure Versioned (α : Type) where
  added : Nat
  deleted : Option Nat
  value : α
  deriving DecidableEq, Repr

/-- The place of an exact-match entry. -/
inductive EmPlace where
  | bucket (b slot : Nat)
  | overflow (i : Nat)
  deriving DecidableEq, Repr

/-- An exact-match entry (R184, R188, R195, R202). -/
structure EmEntry where
  place : EmPlace
  key : List Byte
  data : List Byte
  /-- none: a dynamic entry; otherwise the epochs of its range -/
  range : Option (Nat × Option Nat)
  hit : Bool
  age : Nat
  /-- number of its insertion -/
  serial : Nat := 0
  /-- LEARN_TIME, local ns (R199) -/
  learnTime : Nat
  /-- local ns of the last EV_MOVE_CONFLICT of the entry (R201) -/
  conflictAt : Option Nat
  deriving DecidableEq, Repr

/-- A TCAM prefix (R193). -/
structure LpmEntry where
  vrf : Nat
  family : Nat
  len : Nat
  addr : Nat
  result : List Byte
  added : Nat
  deleted : Option Nat
  /-- its TCAM index; an IPv6 prefix takes the next one too -/
  index : Nat := 0
  deriving DecidableEq, Repr

/-- A staged operation (R207). -/
inductive TxnOp where
  | add (table : Nat) (replace : Bool) (index : Nat) (key data : List Byte)
  | del (table : Nat) (index : Nat) (key : List Byte)
  | lpmAdd (replace : Bool) (vrf family len addr : Nat) (result : List Byte)
  | lpmDel (vrf family len addr : Nat)
  deriving DecidableEq, Repr

/-- A request in the learn queue (R198). -/
inductive LearnReq where
  | learn (src fid : Nat) (mac : List Byte)
  | connect (key : List Byte) (data : List Byte)
  deriving DecidableEq, Repr

structure Fwd where
  em : List EmEntry := []
  /-- copies of relocated entries that are still held valid (R191) -/
  moving : List EmEntry := []
  /-- local ns of the last relocation (R191), and of the learn engine's last commit (R198) -/
  movedAt : Nat := 0
  learntAt : Option Nat := none
  lpm : List LpmEntry := []
  vlans : Tbl (List (Versioned (List Byte))) := []
  lists : Tbl (List (Versioned (List Byte))) := []
  ports : Tbl (List (Versioned (List Byte))) := []
  /-- number of the next insertion into the exact-match table -/
  serial : Nat := 0
  /-- local ns of the last epoch advance (R29) -/
  changeAt : Option Nat := none
  txn : Option Nat := none
  txnNext : Nat := 1
  staged : List TxnOp := []
  learnQ : List LearnReq := []
  /-- local ns of the last request put into it, and how many of pipeline 1 stand at its end that
  were put there then (R198) -/
  learnPutAt : Nat := 0
  learnTail : Nat := 0
  ageTime : Nat := 300
  /-- a configuration that waits for the next ageing scan: AGE_TIME_S, MOVE_HOLD_MS,
  CONN_EST_S, CONN_OPEN_S (R214) -/
  ageNext : Option (Nat × Nat × Nat × Nat) := none
  /-- local ns of the last ageing scan -/
  scanAt : Nat := 0
  moveHold : Nat := 100
  connEst : Nat := 600
  connOpen : Nat := 30
  /-- local ns of rate-limited events: EV_LEARN_LIMIT per source, EV_FWD_TABLE_FULL -/
  limitAt : Tbl Nat := []
  fullAt : Option Nat := none
  deriving DecidableEq, Repr

/-! ### Frames -/

/-- A verdict that a frame waits for. -/
inductive Verdict where
  | none | waiting | passed | failed
  deriving DecidableEq, Repr

/-- The outcome of a frame (R217, R221). -/
inductive FrameOutcome where
  /-- not decided, or speculative, or stored and forwarded with conditions open -/
  | pending
  | committed
  | aborted (cause : Nat)
  deriving DecidableEq, Repr

/-- The partition a frame's cells are taken from (R249). -/
inductive Partition where
  | shared | scheduled | control | headroom
  deriving DecidableEq, Repr

/-- What a frame changes once it commits (R231). -/
structure Effects where
  /-- policer, the bytes charged, and its overhead as they were charged (R230, R231) -/
  policer : Option (Nat × Nat × Int) := none
  /-- learn or move request -/
  learn : Option LearnReq := none
  /-- the source entry whose hit bit is set: its key, and the number of its insertion (R233) -/
  hit : Option (List Byte × Nat) := none
  /-- connection key, from the initiator, TCP flags -/
  conn : Option (List Byte × Bool × Nat) := none
  /-- connection-create request -/
  create : Option LearnReq := none
  /-- recovery function and sequence number -/
  recovery : Option (Nat × Nat) := none
  /-- counters of stream filters and stream gates: kind, index and view of R310 -/
  counts : List (Nat × Nat × Nat) := []
  deriving DecidableEq, Repr

/-- A frame inside the device: its descriptor and its bytes. -/
structure Frame where
  fid : Nat
  /-- R67 coding; 67 for H0 -/
  src : Nat
  origin : Nat := 0
  /-- ingress timestamp, local ns; start point of R136 -/
  tIn : Nat
  start : Nat
  /-- local ns at which its first byte entered the ingress FIFO, or its injection -/
  inAt : Nat := 0
  /-- bytes from DA to FCS, after MACsec removal -/
  bytes : List Byte
  complete : Bool
  lastAt : Nat := 0
  fin : FrameEnd := ⟨.good, false, false, 0, false, false⟩
  oversize : Bool := false
  tagInfo : Option SecTag := none
  icv : Verdict := .none
  /-- its PN is pending in its SA since its first bytes (R396) -/
  pnHeld : Bool := false
  edge : Verdict := .none
  /-- a MACsec fail is passed on because STRICT is clear (R396) -/
  lenient : Bool := false
  decided : Bool := false
  outcome : FrameOutcome := .pending
  record : Option Nat := none
  epoch : Nat := 0
  image : Nat := 0
  vid : Nat := 0
  pri : Nat := 0
  pcp : Nat := 0
  deiMark : Bool := false
  handle : Option Nat := none
  /-- the interval window of its guarantee entry that it takes a place of (R133) -/
  window : Nat := 0
  /-- D of R230 -/
  dlen : Nat := 0
  eff : Effects := {}
  genSeq : Option Nat := none
  popRtag : Bool := false
  nextMac : Option (List Byte) := none
  vidOut : Option Nat := none
  /-- holds back behind a pending duplicate (R234) -/
  heldDup : Bool := false
  cells : Nat := 0
  part : Partition := .shared
  resCells : Nat := 0
  /-- how far its reference count stands above its copies and its writer (R272) -/
  refExtra : Nat := 0
  writer : Bool := false
  tsReq : Option Nat := none
  fromControl : Bool := false
  /-- the stream filter it matched, with the max SDU and BLOCK_ON_OVERSIZE it had then -/
  filter : Option Nat := none
  sdu : Nat := 0
  sduBlock : Bool := false
  filterSerial : Nat := 0
  /-- the number of its decision (R224) -/
  order : Nat := 0
  /-- local ns at which the verdict that a bound of R167 limits was posted -/
  verdictAt : Option Nat := none
  /-- dropped by a stage or eliminated: it has no copies and its conditions still decide
  its statistics -/
  dropped : Bool := false
  /-- an egress byte or a host write of it has gone out -/
  started : Bool := false
  /-- the cipher request whose verdict decides the edge authentication tag -/
  ticket : Option Nat := none
  deriving DecidableEq, Repr

/-- Where the bytes of a queued copy are (R256 to R260). -/
inductive SpillState where
  | onChip | spillFirst | inDram | draining
  deriving DecidableEq, Repr

/-- One egress copy in a queue, or on the lane (R253, R262). -/
structure Copy where
  fid : Nat
  /-- R67 coding; 67 for H0 -/
  port : Nat
  queue : Nat
  onLane : Bool := false
  preempted : Bool := false
  /-- local ns at which the fragment on the lane began, and bytes sent in earlier ones -/
  startAt : Nat := 0
  sent : Nat := 0
  /-- local ns at which its first fragment began -/
  firstAt : Nat := 0
  /-- preempted, and its frame has aborted since: bytes of the copy held then (R241) -/
  abortLen : Option Nat := none
  /-- fragments it has been cut into so far -/
  frags : Nat := 0
  spill : SpillState := .onChip
  /-- it has been counted as stalling its queue (R259) -/
  stalled : Bool := false
  /-- the port's SA number and packet number assigned at its start -/
  pn : Option Nat := none
  deriving DecidableEq, Repr

/-- A verdict that an engine owes (R167, R221, R223): the frame, the cipher request where the
engine is the cipher pool, and what the bound of R167 is measured by once the frame is gone. -/
structure Owed where
  src : Nat
  fid : Nat
  ticket : Option Nat
  /-- image, handle, and the start point, ingress and last-byte instants, once the frame has
  been released -/
  gone : Option (Nat × Option Nat × Nat × Nat × Nat) := none
  deriving DecidableEq, Repr

structure Frames where
  next : Nat := 0
  /-- number of the next decision -/
  order : Nat := 0
  /-- verdicts that have not been posted, oldest first -/
  owed : List Owed := []
  frames : List Frame := []
  copies : List Copy := []
  /-- fids per source that have been ingressed and not looked up, oldest first -/
  heads : List (Nat × Nat) := []
  /-- record numbers in use, per pipeline -/
  used0 : List Nat := []
  used1 : List Nat := []
  /-- local ns of the rate-limited events of the speculation units -/
  exhaustedAt : Tbl Nat := []
  timeoutAt : Tbl Nat := []
  lateAt : Tbl Nat := []
  /-- per pipeline and port group: the port served last (R141) -/
  robin : Tbl Nat := []
  /-- per pipeline: owners of slots that fell due and took no cycle yet (R142) -/
  slipped : Tbl (List Nat) := []
  /-- per pipeline: the pipeline cycle up to which the wheel has been run, in ns of the local
  clock -/
  issued : Tbl Nat := []
  /-- per pipeline: EXHAUSTED and the records in use as its quench found them (R592) -/
  spcHeld : Tbl (Bool × Nat) := []
  deriving DecidableEq, Repr

/-! ### Buffers and traffic -/

structure BufPort where
  linkUp : Bool := false
  rate : Nat := 0
  /-- drain holds in progress: end times of scheduled and other queues, local ns -/
  schedHold : Option Nat := none
  beHold : Option Nat := none
  /-- priorities with XOFF in force; bit 8 is the 802.3x XOFF -/
  xoff : List Nat := []
  /-- local ns at which the last XOFF of a priority was sent -/
  xoffAt : Tbl Nat := []
  /-- queues stopped by a received pause, and when each pause ends -/
  paused : Tbl Nat := []
  deriving DecidableEq, Repr

structure Buf where
  sched : Nat := 8192
  ports : Tbl BufPort := []
  spilling : Bool := false
  ovfBase : Nat := 0
  ovfSize : Nat := 0
  /-- suspects of the last completed audit pass -/
  suspectCells : List Nat := []
  suspectRefs : List Nat := []
  /-- slag that AUDIT_RECLAIM clear leaves in place, and orphaned cells -/
  slag : List Nat := []
  auditNo : Nat := 0
  /-- local ns of the start and of the end of the last audit pass, and its generation -/
  auditStart : Nat := 0
  auditEnd : Nat := 0
  gen : Bool := false
  /-- frames whose drain is due and lacks cells (R259) -/
  drainDue : List Nat := []
  /-- local ns of EV_DRAIN_STALL per queue -/
  stallAt : Tbl Nat := []
  ovfFull : Bool := false
  deriving DecidableEq, Repr

/-- `TRF_QUEUE_CONFIG` of a port (R310), its preemption state (R295) and its arbiter. -/
structure TrfPort where
  dscpEn : Bool := false
  preemptEn : Bool := false
  verifyEn : Bool := false
  remap : Nat := 0
  addFrag : Nat := 0
  strict : Nat := 0xFFFFFFFF
  pcpMap : Nat := 0xFAC688
  express : Nat := 0
  verifyMs : Nat := 10
  holdAdvance : Nat := 0
  meters : List Nat := []
  dscpMap : Nat := 0
  quanta : List Nat := []
  /-- 0 off, 1 verifying, 2 succeeded, 3 failed -/
  verify : Nat := 0
  verifySent : Nat := 0
  verifyAt : Nat := 0
  hold : Bool := false
  /-- local ns from which the lane may take its next frame -/
  freeAt : Nat := 0
  pointer : Nat := 0
  deficit : Tbl Int := []
  /-- queues that held a copy at every instant of the audit window so far, the gate states
  that it saw, and the charges served in it (R284) -/
  full : List Nat := []
  gatesSeen : List Nat := []
  served : Tbl Nat := []
  tooLongAt : Option Nat := none
  fairAt : Option Nat := none
  deriving DecidableEq, Repr

structure Shaper where
  slope : Nat
  /-- in millionths of a bit -/
  credit : Int
  suspended : Bool
  /-- local ns up to which the credit has been worked out -/
  at_ : Nat
  deriving DecidableEq, Repr

/-- A list written by a host: gate list of a port or a stream gate (R292, R301). -/
structure HostList where
  domain : Nat
  base : Nat
  cycle : Nat
  entries : List GateEntry
  change : Nat
  deriving DecidableEq, Repr

structure GateCtl where
  cur : Option HostList := none
  pend : Option HostList := none
  retained : Bool := false
  /-- index of the entry in force -/
  pos : Nat := 0
  /-- while the list re-phases: local ns at which the cycle in progress ends (R294) -/
  rephase : Option Nat := none
  /-- stream gates only: CLOSE_ON_INVALID, closed by it, and the counts of R310 -/
  enabled : Bool := false
  closeOnInvalid : Bool := false
  blocked : Bool := false
  passed : Word := 0
  dropped : Word := 0
  ipvUsed : Word := 0
  deriving DecidableEq, Repr

structure Filter where
  enabled : Bool
  blockOnOversize : Bool
  idType : Nat
  prioSpec : Nat
  vid : Nat
  mac : Nat
  l4dst : Nat
  ip : Nat
  proto : Nat
  family : Nat
  source : Nat
  maxSdu : Nat
  gate : Nat
  meter : Nat
  recovery : Nat
  generation : Nat
  blocked : Bool := false
  cnt : List Word := [0, 0, 0, 0, 0, 0]
  /-- number of the command that wrote it -/
  serial : Nat := 0
  deriving DecidableEq, Repr

structure Policer where
  enabled : Bool := false
  action : Nat := 0
  rate : Nat := 0
  burst : Nat := 0
  overhead : Int := 20
  prio : Nat := 0
  /-- bucket in units of 10⁻⁹ bytes -/
  bucket : Int := 0
  at_ : Nat := 0
  green : Word := 0
  red : Word := 0
  deriving DecidableEq, Repr

structure Frer where
  enabled : Bool := false
  matchAlg : Bool := false
  popRtag : Bool := false
  takeNoSeq : Bool := false
  latentEn : Bool := false
  mirror : Bool := false
  history : Nat := 2
  latentPaths : Nat := 2
  resetMs : Nat := 0
  latentDiff : Nat := 0
  latentMs : Nat := 0
  /-- recovery: highest accepted number, accepted numbers in the window, pending marks -/
  top : Option Nat := none
  seen : List Nat := []
  pend : List Nat := []
  lastAccept : Nat := 0
  /-- counts of the current latent period: passed, discarded -/
  perPassed : Nat := 0
  perDup : Nat := 0
  /-- local ns at which the period began -/
  perAt : Nat := 0
  resetAt : Option Nat := none
  /-- generation: next number -/
  next : Nat := 0
  cnt : List Word := [0, 0, 0, 0, 0, 0, 0]
  deriving DecidableEq, Repr

structure Trf where
  ports : Tbl TrfPort := []
  shapers : Tbl Shaper := []
  gcl : Tbl GateCtl := []
  gates : Tbl GateCtl := []
  filters : Tbl Filter := []
  /-- number of the next write of a filter -/
  filterSerial : Nat := 0
  policers : Tbl Policer := []
  recov : Tbl Frer := []
  gen : Tbl Frer := []
  deriving DecidableEq, Repr

/-! ### Edge buses -/

inductive CanState where
  | stopped | errorActive | errorPassive | busOff
  deriving DecidableEq, Repr

/-- The transceiver modes of R333. -/
inductive XcvrMode where
  | normal | listenOnly | standby | sleep
  deriving DecidableEq, Repr

/-- A frame stored in a receive FIFO: its number, SOF and end of frame in local ns, and who
still must take it. -/
structure RxItem where
  seq : Nat
  frame : CanFrame
  sof : Nat
  eof : Nat
  /-- time in ns of each domain at its SOF (R454) -/
  doms : List Nat
  tunnels : List Nat
  /-- bit s: sequencer s -/
  router : Nat
  deriving DecidableEq, Repr

/-- An acceptance filter (R321), as its 32 bytes. -/
abbrev CanFilter := List Byte

structure CanCfg where
  enable : Bool := false
  fdEn : Bool := false
  xlEn : Bool := false
  pexEn : Bool := false
  xlTms : Bool := false
  autoRecover : Bool := false
  xlLimit : Nat := 0
  nbt : Word := 0
  dbt : Word := 0
  xbt : Word := 0
  tdc : Word := 0
  pwm : Word := 0
  recoverMs : Nat := 0
  recoverLimit : Nat := 0
  rxDelay : Nat := 0
  settle : Nat := 0
  filters : List CanFilter := []
  deriving DecidableEq, Repr

structure CanCh where
  cfg : CanCfg := {}
  /-- a configuration that waits for bus idle (R347) -/
  newCfg : Option CanCfg := none
  state : CanState := .stopped
  mode : XcvrMode := .normal
  pn : Bool := false
  /-- mode and PN ordered, the latest time for it, and the time the settle ends -/
  newMode : Option (XcvrMode × Bool) := none
  modeBy : Nat := 0
  settleAt : Option Nat := none
  stbHigh : Bool := false
  recovering : Bool := false
  latched : Bool := false
  offsInRow : Nat := 0
  busOffAt : Nat := 0
  pex : Bool := false
  tec : Nat := 0
  rec_ : Nat := 0
  lec : Nat := 0
  tdcFd : Nat := 0
  tdcXl : Nat := 0
  rx : List RxItem := []
  /-- transmit buffers, and the next content held for them -/
  bufs : Tbl TxItem := []
  held : Tbl TxItem := []
  fifo : List TxItem := []
  stateEvAt : Option Nat := none
  dropEvAt : Option Nat := none
  deriving DecidableEq, Repr

/-- A frame entry of a LIN channel (R338) with the data published for it. -/
structure LinEntry where
  id : Nat
  type : Nat
  dir : Nat
  length : Nat
  flags : Nat
  coll : Nat
  data : List Byte := []
  changed : Bool := false
  deriving DecidableEq, Repr

structure LinCfg where
  enable : Bool := false
  commander : Bool := false
  rate : Nat := 0
  breakBits : Nat := 0
  delimBits : Nat := 0
  ibsBits : Nat := 0
  respErrEntry : Nat := 0xFF
  respErrPos : Nat := 0
  idleMs : Nat := 4000
  wakeUs : Nat := 250
  startTable : Nat := 0
  entries : List LinEntry := []
  tables : List (List (Nat × Nat)) := []
  deriving DecidableEq, Repr

structure LinCh where
  cfg : LinCfg := {}
  newCfg : Option LinCfg := none
  operational : Bool := false
  mode : XcvrMode := .normal
  newMode : Option XcvrMode := none
  modeBy : Nat := 0
  /-- schedule table and slot that run, and those that start next -/
  table : Nat := 0
  slot : Nat := 0
  next : Nat × Nat := (0, 0)
  /-- where the table that a collision interrupted goes on (R340) -/
  resume : Option (Nat × Nat) := none
  /-- local ns at which the slot in progress ends -/
  slotEnd : Nat := 0
  rate : Nat := 0
  /-- frame entry whose response is awaited, and local ns of its break -/
  current : Option Nat := none
  breakAt : Nat := 0
  /-- local ns of the last valid header, and whether its absence has been reported -/
  lastHeader : Nat := 0
  idle : Bool := false
  rx : List RxItem := []
  deriving DecidableEq, Repr

structure T1sCfg where
  enable : Bool := false
  plcaEn : Bool := false
  nodeId : Nat := 0
  nodeCount : Nat := 0
  toTimer : Nat := 32
  burstCount : Nat := 0
  burstTimer : Nat := 128
  deriving DecidableEq, Repr

structure T1s where
  cfg : T1sCfg := {}
  newCfg : Option T1sCfg := none
  plcaOk : Bool := false
  evAt : Option Nat := none
  deriving DecidableEq, Repr

structure Edg where
  can : Tbl CanCh := []
  lin : Tbl LinCh := []
  t1s : Tbl T1s := []
  /-- number of the next frame stored in a receive FIFO -/
  rxSeq : Nat := 0
  /-- frames that each writer counted as emptied from a transmit buffer or FIFO, or as
  finding the FIFO full; no register shows these counts -/
  lost : Tbl Nat := []
  /-- modes that the channels had before the commit point (R474, R485) -/
  saved : Tbl (XcvrMode × Bool) := []
  /-- modes that the channels, 0 to 95, were last put into, before a striker's hold (R494) -/
  asked : Tbl (XcvrMode × Bool) := []
  /-- modes that the channels had when the last `EDG_XCVR_MODE` that names them began (R106) -/
  before : Tbl (XcvrMode × Bool) := []
  deriving DecidableEq, Repr

/-! ### Tunnels, signal router, E2E -/

structure BusMapEntry where
  bus : Nat
  edge : Nat
  target : Nat
  flags : Nat
  deriving DecidableEq, Repr

/-- One edge frame as its ACF message (R353 to R355): its SOF in the channel's domain, and its
end of frame in local ns. -/
structure TunMsg where
  bytes : List Byte
  stamp : Nat
  eof : Nat
  deriving DecidableEq, Repr

/-- A valid message of a received tunnel frame (R361): 0 CAN, 1 LIN or 2 CAN XL, its bus ID
and its edge frame. -/
structure DecMsg where
  kind : Nat
  bus : Nat
  frame : CanFrame
  deriving DecidableEq, Repr

structure TunCh where
  flags : Nat := 0
  domain : Nat := 0
  maxBytes : Nat := 0
  maxMsgs : Nat := 0
  router : Nat := 0
  stream : Nat := 0
  da : List Byte := []
  tci : Nat := 0
  profile : Nat := 0xFFFF
  keySlot : Nat := 0
  presOffset : Nat := 0
  batchUs : Nat := 0
  busMap : List BusMapEntry := []
  /-- sequence_num last sent or received, and whether one has been since enabling -/
  seq : Nat := 0
  started : Bool := false
  batch : List TunMsg := []
  batchAt : Nat := 0
  /-- messages that wait for the next window or for the batch to move on -/
  waiting : List TunMsg := []
  /-- a closed batch that found the injection queue full -/
  closed : Option (List TunMsg) := none
  /-- encapsulating: messages whose verdict decides whether they join the batch, by their
  cipher requests -/
  auth : Tbl TunMsg := []
  /-- decapsulating: messages that wait for their verdicts -/
  check : Tbl DecMsg := []
  /-- frames whose messages are held for presentation, and until when (local ns) -/
  pres : List (List DecMsg × Nat) := []
  evAt : Option Nat := none
  deriving DecidableEq, Repr

/-- A frame built for an X port (R352, R374). -/
structure XFrame where
  bytes : List Byte
  origin : Nat
  start : Nat
  edge : Verdict
  ticket : Option Nat := none
  deriving DecidableEq, Repr

structure Tun where
  ch : Tbl TunCh := []
  /-- local ns from which X0 and X1 may inject again (R22) -/
  free0 : Nat := 0
  free1 : Nat := 0
  x0 : List XFrame := []
  x1 : List XFrame := []
  /-- committed frames handed over by X0 and X1 -/
  in0 : List (List Byte) := []
  in1 : List (List Byte) := []
  deriving DecidableEq, Repr

/-- An arrival of a source PDU (R366, R368). -/
structure Arrival where
  kind : Nat
  channel : Nat
  tunnel : Nat
  id : Nat
  data : List Byte
  /-- the stored frame it came from, by its number -/
  item : Option Nat
  deriving DecidableEq, Repr

structure SrcPdu where
  kind : Nat
  channel : Nat
  tunnel : Nat
  id : Nat
  firstMap : Nat
  mapCount : Nat
  e2e : Nat
  trigger : Nat
  deriving DecidableEq, Repr

structure Mapping where
  srcBit : Nat
  length : Nat
  flags : Nat
  template : Nat
  dstBit : Nat
  timeout : Nat
  updateBit : Nat
  subst : Nat
  /-- local ns of its last write or of its load, and timed out since -/
  at_ : Nat := 0
  stale : Bool := false
  deriving DecidableEq, Repr

structure Template where
  kind : Nat
  channel : Nat
  mode : Nat
  flags : Nat
  id : Nat
  length : Nat
  target : Nat
  e2e : Nat
  profile : Nat
  keySlot : Nat
  stream : Nat
  da : List Byte
  tci : Nat
  default_ : List Byte
  work : List Byte
  last : Option (List Byte) := none
  /-- frame held for an edge slot, and taken already -/
  heldFrame : Option (List Byte) := none
  heldTaken : Bool := false
  seq : Nat := 0
  deriving DecidableEq, Repr

/-- What a sequencer runs next or runs now. -/
structure Sequencer where
  /-- jobs that the calendar released: the job, its deadline and its release, both local ns -/
  calJobs : List (Nat × Nat × Nat) := []
  /-- jobs that triggers released: the job and its release -/
  jobs : List (Nat × Nat) := []
  arrivals : List Arrival := []
  /-- frames that wait for room at the injection port (R22) -/
  outbox : List XFrame := []
  dropEvAt : Option Nat := none
  deriving DecidableEq, Repr

structure Sig where
  seqs : Tbl Sequencer := []
  pdus : Tbl SrcPdu := []
  maps : Tbl Mapping := []
  tpls : Tbl Template := []
  jobs : Tbl (Nat × Nat) := []
  deriving DecidableEq, Repr

structure E2eCtx where
  flags : Nat := 0
  poly : Nat := 0
  dataId : Nat := 0
  idMode : Nat := 0
  ctrWidth : Nat := 8
  maxDelta : Nat := 1
  crcPos : Nat := 0
  ctrPos : Nat := 0
  length : Nat := 0
  counter : Nat := 0
  /-- the next good PDU gives INITIAL -/
  fresh : Bool := true
  lastResult : Nat := 0xF
  cnt : List Word := [0, 0, 0, 0, 0, 0, 0]
  evAt : Option Nat := none
  deriving DecidableEq, Repr

/-! ### Security and keys -/

structure FwRule where
  flags : Nat
  action : Nat
  hq : Nat
  srcLo : Nat
  srcHi : Nat
  dstLo : Nat
  dstHi : Nat
  value : List Byte
  mask : List Byte
  deriving DecidableEq, Repr

structure Sa where
  keySlot : Nat
  nextPn : Nat
  ssci : Nat
  salt : Nat
  /-- stopped by an erase of its slot (R415) -/
  stopped : Bool
  /-- receive: highest committed PN, pending PNs, first PN accepted -/
  highPn : Nat
  firstPn : Nat
  pend : List Nat
  /-- transmit: the threshold event has been raised -/
  warned : Bool
  deriving DecidableEq, Repr

structure Sc where
  enable : Bool := false
  xpn : Bool := false
  conf : Bool := false
  inclSci : Bool := false
  replay : Bool := false
  autoSwitch : Bool := false
  sci : Nat := 0
  confOff : Nat := 0
  window : Nat := 0
  sas : Tbl Sa := []
  deriving DecidableEq, Repr

structure MsPort where
  rxEn : Bool := false
  txEn : Bool := false
  strict : Bool := false
  exemptPtp : Bool := false
  tx : Sc := {}
  rx : Tbl Sc := []
  txAn : Option Nat := none
  exhausted : Bool := false
  deriving DecidableEq, Repr

/-- How a cipher request ends, once it has been dispatched (R404, R410 to R413, R415). -/
inductive CipherEnd where
  /-- the MAC matches; the freshness entry and the value that it takes -/
  | pass (fv : Option (Nat × Nat))
  /-- it fails without computation and without a count -/
  | unfit
  /-- its freshness value is not accepted -/
  | stale
  | mismatch
  /-- the key is refused at dispatch -/
  | refused
  /-- its slot has been erased -/
  | erased
  deriving DecidableEq, Repr

/-- A verify request of the cipher pool (R403). The other operations do not wait: they end
within the command that makes them. -/
structure CipherReq where
  /-- its own number, by which its requester knows it -/
  ticket : Nat
  keySlot : Nat
  /-- the tunnel channel that made it -/
  source : Nat
  profile : Nat
  msg : List Byte
  /-- none while it is not dispatched -/
  fate : Option CipherEnd
  deriving DecidableEq, Repr

structure Sec where
  rules : Tbl (List (Versioned FwRule)) := []
  hits : Tbl Word := []
  ms : Tbl MsPort := []
  queue : List CipherReq := []
  ticket : Nat := 0
  fv : Tbl Nat := []
  conformAt : Tbl Nat := []
  authAt : Tbl Nat := []
  overloadAt : Option Nat := none
  deriving DecidableEq, Repr

inductive SlotState where
  | empty | loaded | erased
  deriving DecidableEq, Repr

inductive Recipe where
  | derive (label ctx : List Byte)
  | blob (method : Nat) (bytes : List Byte)
  deriving DecidableEq, Repr

structure KeySlot where
  state : SlotState := .empty
  key : List Byte := []
  bits : Nat := 0
  usage : Nat := 0
  dest : Nat := 0
  level : Nat := 0
  /-- none: the root -/
  parent : Option Nat := none
  recipe : Recipe := .derive [] []
  deriving DecidableEq, Repr

/-- The life-cycle states of R419, coded as in `DEV_INFO`. -/
inductive LifeCycle where
  | blank | provision | field | service | retired
  deriving DecidableEq, Repr

structure Key where
  slots : Tbl KeySlot := []
  root : Option (List Byte) := none
  /-- OTP root set in force: P, F, S, and whether its positions are programmed out -/
  rootP : List Byte := []
  rootF : List Byte := []
  rootS : List Byte := []
  inForce : LifeCycle := .blank
  burned : LifeCycle := .blank
  lcPending : Bool := false
  rootFault : Bool := false
  /-- root-set positions used up by a failed programming (R420) -/
  rootUsed : Nat := 0
  serviceEntries : Nat := 0
  rootLost : Bool := false
  asserted : Nat := 0
  /-- nonce of the warm-image seal in retention SRAM (R437) -/
  sealNonce : Option Nat := none
  deriving DecidableEq, Repr

/-! ### Time -/

inductive DomState where
  | disabled | unset | locked | holdover | held
  deriving DecidableEq, Repr

structure Domain where
  state : DomState := .disabled
  /-- domain time in units of 2⁻³² ns -/
  value : Nat := 0
  source : Nat := 0
  bmca : Bool := false
  gmCapable : Bool := false
  number : Nat := 0
  pri1 : Nat := 0
  pri2 : Nat := 0
  logSync : Int := 0
  syncTimeout : Nat := 0
  threshold : Nat := 1000
  slewPpm : Nat := 100
  resumeMs : Nat := 10
  hostTimeout : Nat := 0
  cfgSlave : Nat := 0xFF
  ports : Nat := 0
  /-- rate correction, 10⁻¹² -/
  rate : Int := 0
  /-- offset still to be slewed, in units of 2⁻³² ns -/
  slew : Int := 0
  heldStep : Int := 0
  heldSeq : Nat := 0
  resumed : Bool := false
  newSource : Bool := false
  master : Option Nat := none
  slave : Option Nat := none
  offset : Int := 0
  refusedAt : Option Nat := none
  /-- local ns of the last Sync or `TIME_ADJUST`, from which the timeouts of R453 run -/
  lastAt : Nat := 0
  deriving DecidableEq, Repr

/-! ### Power and network management -/

inductive PwrState where
  | off | dormant | ember | banked | kindle | run
  deriving DecidableEq, Repr

structure Pwr where
  state : PwrState := .kindle
  target : PwrState := .banked
  warm : Bool := false
  demoted : Bool := false
  pmicFault : Bool := false
  pwrEn : Bool := true
  pwrGood : Bool := true
  /-- reset is released and the boot ROM runs -/
  released : Bool := true
  fwReady : Bool := false
  failures : Nat := 0
  /-- PWR_EN fell at this local time; the minimum off time runs (R482) -/
  offAt : Nat := 0
  minOff : Bool := false
  retryAt : Option Nat := none
  sleepAt : Nat := 0
  vbatOk : Bool := true
  /-- VBAT is below the operating minimum of R571 and no wake starts the Forge die -/
  vbatLow : Bool := false
  lateLatch : Nat := 0
  lateFirst : Option (Nat × Nat) := none
  /-- the wake that waits for the minimum off time or for VBAT -/
  wakeWaits : Bool := false
  /-- wake configuration in force on the Ember die -/
  pins : List Byte := []
  wup : Nat := 0
  sw : Nat := 0
  linWake : Nat := 0
  busFilter : Nat := 500
  wupTimeout : Nat := 1
  fecLimit : Nat := 32
  timerS : Nat := 0
  linFilter : Nat := 150
  swIdle : Nat := 1000
  wakeFilters : List (List Byte) := []
  /-- selective wake: channels decoding, frame error counts, oscillator -/
  decoding : List Nat := []
  fec : Tbl Nat := []
  oscOn : Bool := false
  dieLinkFailed : Bool := false
  dieLinkCount : Nat := 0
  /-- events to raise at RUN: cold-start cause of R486, PMIC fault, late wake, fallback -/
  warmFail : Option Nat := none
  pmicEvent : Nat := 0
  fallbacks : List Nat := []
  runAt : Nat := 0
  /-- local ns of the entry to the state, of the start of KINDLE, of the rises of PWR_EN and
  PWR_GOOD, and of the last dominant edge on a decoding channel -/
  since : Nat := 0
  kindleAt : Nat := 0
  enAt : Nat := 0
  goodAt : Nat := 0
  swAt : Nat := 0
  /-- the boot ROM has chosen what runs in this start -/
  booted : Bool := false
  deriving DecidableEq, Repr

inductive NmState where
  | busSleep | repeat_ | normal | readySleep | prepare | committed
  deriving DecidableEq, Repr

structure NodeRec where
  cluster : Nat
  node : Nat
  last : Nat
  start : Nat
  msgs : Nat
  pn : Nat
  pni : Bool
  logged : Option Nat
  deriving DecidableEq, Repr

structure AwakeEntry where
  cluster : Nat
  node : Nat
  startMs : Nat
  duration : Nat
  msgs : Nat
  deriving DecidableEq, Repr

structure Nm where
  state : NmState := .busSleep
  enteredAt : Nat := 0
  en : Bool := false
  ext : Bool := false
  nodeId : Nat := 0
  localMask : Nat := 0
  repeatMs : Nat := 1000
  readyMs : Nat := 1500
  pbsMs : Nat := 2000
  cycleMs : Nat := 200
  stayS : Nat := 30
  udpPort : Nat := 0
  nmId : Nat := 0
  nmIdMask : Nat := 0
  canMask : Nat := 0
  txMask : Nat := 0
  linSleep : Nat := 0
  ethVid : List Nat := []
  pnMask : List Nat := []
  /-- hosts that have released their request (R465) -/
  released : Nat := 0
  partnerReq : Bool := false
  localPn : Nat := 0
  committed : Bool := false
  forced : Bool := false
  /-- the REPEAT in progress follows a wake by a local source -/
  activeWake : Bool := false
  records : List NodeRec := []
  /-- last NM message of each cluster, local ns -/
  clusterAt : Tbl Nat := []
  /-- entries of the stay-awake log still retained, by their number, from 1 -/
  log : Tbl AwakeEntry := []
  commitAt : Option Nat := none
  /-- local ns at which the next own message is due -/
  txAt : Nat := 0
  /-- per CAN channel: whether one of its partial networks was requested when last applied -/
  pnLast : Tbl Bool := []
  /-- a striker asks its smith to abort (R508) -/
  askAbort : Bool := false
  deriving DecidableEq, Repr

/-! ### Pair -/

inductive Role where
  | single | smith | striker
  deriving DecidableEq, Repr

structure Pair where
  role : Role := .single
  /-- the role has been settled by a hello, a takeover, a command or a clash: until then the
  device has its strapped role and does not act as smith (log entry 24) -/
  settled : Bool := false
  strapSmith : Bool := false
  acting : Bool := false
  linkState : Nat := 0
  /-- lanes that are aligned -/
  lanes : Nat := 0
  alive : Bool := false
  /-- LINK_STATE when the last heartbeat arrived -/
  linkAtBeat : Nat := 0
  strapConflict : Bool := false
  /-- successive comparisons that have found the clash in progress, and the last one -/
  clashes : Nat := 0
  clashAt : Nat := 0
  partnerFw : Nat := 0
  partnerStrap : Bool := false
  /-- NM state of the partner's latest heartbeat -/
  partnerNm : Nat := 0
  /-- local ns of the last heartbeat; 0 before the first -/
  lastBeat : Nat := 0
  /-- local ns up to which missed Tongs heartbeats have been counted -/
  missAt : Nat := 0
  /-- partner ring: entries of the partner's journal by index, newest first -/
  partnerRing : List (Nat × List Byte) := []
  /-- latest vote of each zone, and its arrival -/
  zoneVotes : Tbl (Vote × Nat) := []
  /-- heartbeats sent, and local ns of the last one of each kind -/
  hbCount : Nat := 0
  tongsAt : Nat := 0
  backboneAt : Nat := 0
  offsets : List Int := []
  /-- nonce and local ns of the device's last hello, and whether its exchange has failed -/
  helloNonce : Nat := 0
  helloAt : Nat := 0
  helloFailed : Bool := false
  /-- planned handover: the role to take at the next heartbeat; 0 once taken, until the
  partner's heartbeat shows the other role -/
  handover : Option Nat := none
  /-- the body of the last `PAIR_CONFIG` -/
  cfg : List Byte := []
  /-- PAIR_KEY_SLOT of this link-up -/
  linkKey : Nat := 0
  /-- next numbers of the partner's generation functions -/
  mirrorGen : Tbl Nat := []
  /-- a smith has sent its sync blocks -/
  syncSent : Bool := false
  /-- a joining device: the handle to activate, the handle to restore with its T, the last
  activation is under way, the resynchronisation has failed -/
  syncActive : Option Nat := none
  syncPending : Option (Nat × Nat) := none
  joining : Bool := false
  syncFailed : Bool := false
  /-- local ns of the last correction by following, per domain -/
  followAt : Tbl Nat := []
  deriving DecidableEq, Repr

/-! ### Fence controller -/

inductive FenceState where
  | running | quenched | recovering | probation | stuck
  deriving DecidableEq, Repr

structure FDomain where
  state : FenceState := .running
  /-- the domain or unit a report quenched, not a descendant of one -/
  own : Bool := false
  source : Nat := 0
  quenches : Nat := 0
  time : Nat := 0
  recent : List Nat := []
  byCommand : Bool := false
  /-- core pair that runs the recovery -/
  runner : Option Nat := none
  probEnd : Nat := 0
  /-- local ns from which its budget runs -/
  budgetAt : Nat := 0
  /-- its recovery has failed: it waits for FENCE_RELEASE -/
  waits : Bool := false
  /-- what a running `FENCE_RELEASE` found: whether it was STUCK, whether it waited, and its
  last quenches (R106) -/
  before : Option (Bool × Bool × List Nat) := none
  deriving DecidableEq, Repr

structure Capture where
  src : Nat
  egress : Bool
  stopOnQuench : Bool
  left : Nat
  size : Nat
  written : Nat
  dest : Nat
  host : Nat
  deriving DecidableEq, Repr

structure Fnc where
  doms : Tbl FDomain := []
  /-- reports made inside the device and not yet taken up: domain and source code (R521) -/
  reports : List (Nat × Nat) := []
  capture : Option Capture := none
  captureBuf : List Byte := []
  deriving DecidableEq, Repr

/-! ### Boot and update -/

structure Descriptor where
  seq : Nat := 0
  active : Nat := 0
  trial : Nat := 0
  trialLeft : Nat := 0
  deriving DecidableEq, Repr

structure Session where
  id : Nat
  nonceT : List Byte
  nonceD : List Byte
  /-- the PROOF exchange is over -/
  open_ : Bool
  secured : Bool
  rxSeq : Nat
  txSeq : Nat
  lastAt : Nat
  /-- DATA bytes received since the last update command, by offset -/
  data : List (Nat × List Byte)
  deriving DecidableEq, Repr

structure Update where
  kind : Nat
  size : Nat
  slot : Nat
  chunks : List (List Byte)
  verified : Bool
  deriving DecidableEq, Repr

structure Boot where
  /-- 0 normal, 1 trial, 2 recovery -/
  mode : Nat := 0
  slot : Nat := 0
  /-- FW_VERSION of the image that runs (R81, R542) -/
  fwVer : Nat := 0
  strapRole : Bool := false
  strapRecovery : Bool := false
  recoveryCause : Nat := 0
  desc : Descriptor := {}
  slotA : Nat := 0xF
  slotB : Nat := 0xF
  /-- flash images by kind × 2 + slot -/
  images : Tbl (List Byte) := []
  rollback : Nat := 0
  revoked : Nat := 0
  /-- installed calendar signer slots, as the last cold start read them: both public keys -/
  signers : Tbl (List Byte × List Byte) := []
  session : Option Session := none
  sessionNext : Nat := 1
  update : Option Update := none
  authFails : Nat := 0
  lockoutAt : Option Nat := none
  /-- steps and revoke bits of a confirmation that the OTP does not hold yet (R547) -/
  otpGoal : Option (Nat × Nat) := none
  /-- a restart waits for its completion to be posted (R559) -/
  restartDue : Bool := false
  deriving DecidableEq, Repr

/-! ### The block -/

/-- The state of the block. -/
structure State where
  /-- the direct registers that differ from their reset value, by BAR0 offset -/
  regs : List (Nat × Word)
  /-- device-side memory: BAR2 slots at 0x4000_0000 plus their offset, and the SPI
  address space from 0x0200_0000; bytes that differ from 0 -/
  mem : List Host.Cell
  /-- local clock, ns (R442) -/
  clk : Nat
  hif : Hif
  mbx : Mbx
  cal : Cal
  fwd : Fwd
  fr : Frames
  buf : Buf
  trf : Trf
  edg : Edg
  tun : Tun
  sig : Sig
  e2e : Tbl E2eCtx
  sec : Sec
  key : Key
  dom : Tbl Domain
  pwr : Pwr
  nm : Nm
  pair : Pair
  fnc : Fnc
  boot : Boot
  /-- the model's own: commands that wait, first in, first out -/
  pending : List Instr
  /-- the model's own: what the block has sent -/
  out : List Output
  /-- the model's own: index of the next free value -/
  freeCtr : Nat
  deriving DecidableEq, Repr

/-- The block right after the reset of a start: in KINDLE, every register at its reset
value, every table at its reset content and no command waiting (R462, R464). -/
def State.reset : State where
  regs := []
  mem := []
  clk := 0
  hif := {}
  mbx := {}
  cal := {}
  fwd := {}
  fr := {}
  buf := {}
  trf := {}
  edg := {}
  tun := {}
  sig := {}
  e2e := []
  sec := {}
  key := {}
  dom := []
  pwr := {}
  nm := {}
  pair := {}
  fnc := {}
  boot := {}
  pending := []
  out := []
  freeCtr := 0

end Sys2Proof.Machine
end

