-- ==== Sys2Proof/Machine/Regs.lean ====
section
/-! DEFINITION.
The direct register file: the offset of every register, and the table of the access
codes of R9 with the reset values. It follows the register tables of the chapters. -/

namespace Sys2Proof.Machine

/-- One register, or an array of registers of one layout: BAR0 offset of the first,
number, spacing, and the bits of each access code of R9. `ro` holds the bits of RO and
of LVL fields; `wide` marks the low word of a 48-bit counter. -/
structure RegRow where
  base : Nat
  count : Nat
  stride : Nat
  rw : Nat
  rwg : Nat
  cnt : Nat
  ack : Nat
  wo : Nat
  ro : Nat
  reset : Nat
  wide : Bool
  deriving DecidableEq, Repr

namespace Reg

/-- `HIF_ID` -/
abbrev hifId : Nat := 0x8000
/-- `HIF_LINK_STATUS` -/
abbrev hifLinkStatus : Nat := 0x8004
/-- `HIF_HOST_CTRL` -/
abbrev hifHostCtrl : Nat := 0x8008
/-- `HIF_IRQ_HOLDOFF` -/
abbrev hifIrqHoldoff : Nat := 0x800C
/-- `HIF_GUARD_FAULT_CNT` -/
abbrev hifGuardFaultCnt : Nat := 0x8010
/-- `HIF_GUARD_FAULT_ACK` -/
abbrev hifGuardFaultAck : Nat := 0x8014
/-- `HIF_PWF_CNT` -/
abbrev hifPwfCnt : Nat := 0x8018
/-- `HIF_PWF_ACK` -/
abbrev hifPwfAck : Nat := 0x801C
/-- `HIF_PARITY_CNT` -/
abbrev hifParityCnt : Nat := 0x8020
/-- `HIF_PARITY_ACK` -/
abbrev hifParityAck : Nat := 0x8024
/-- `HIF_SPI_CRC_CNT` -/
abbrev hifSpiCrcCnt : Nat := 0x8028
/-- `HIF_SPI_CRC_ACK` -/
abbrev hifSpiCrcAck : Nat := 0x802C
/-- `HIF_RXR_CFG` -/
abbrev hifRxrCfg (i : Nat) : Nat := 0x9000 + 0x40 * i
/-- `HIF_RXR_PROD` -/
abbrev hifRxrProd (i : Nat) : Nat := 0x9004 + 0x40 * i
/-- `HIF_RXR_CONS` -/
abbrev hifRxrCons (i : Nat) : Nat := 0x9008 + 0x40 * i
/-- `HIF_RXR_DROP_CNT` -/
abbrev hifRxrDropCnt (i : Nat) : Nat := 0x900C + 0x40 * i
/-- `HIF_RXR_DROP_ACK` -/
abbrev hifRxrDropAck (i : Nat) : Nat := 0x9010 + 0x40 * i
/-- `HIF_TXR_CFG` -/
abbrev hifTxrCfg (i : Nat) : Nat := 0xA000 + 0x40 * i
/-- `HIF_TXR_PROD` -/
abbrev hifTxrProd (i : Nat) : Nat := 0xA004 + 0x40 * i
/-- `HIF_TXR_CONS` -/
abbrev hifTxrCons (i : Nat) : Nat := 0xA008 + 0x40 * i
/-- `HIF_TXR_BAD_CNT` -/
abbrev hifTxrBadCnt (i : Nat) : Nat := 0xA00C + 0x40 * i
/-- `HIF_TXR_BAD_ACK` -/
abbrev hifTxrBadAck (i : Nat) : Nat := 0xA010 + 0x40 * i
/-- `HIF_TXR_FAULT` -/
abbrev hifTxrFault (i : Nat) : Nat := 0xA014 + 0x40 * i
/-- `HIF_TSQ_BASE_LO` -/
abbrev hifTsqBaseLo (i : Nat) : Nat := 0xB000 + 0x20 * i
/-- `HIF_TSQ_BASE_HI` -/
abbrev hifTsqBaseHi (i : Nat) : Nat := 0xB004 + 0x20 * i
/-- `HIF_TSQ_PROD` -/
abbrev hifTsqProd (i : Nat) : Nat := 0xB008 + 0x20 * i
/-- `HIF_TSQ_CONS` -/
abbrev hifTsqCons (i : Nat) : Nat := 0xB00C + 0x20 * i
/-- `HIF_TSQ_LOST_CNT` -/
abbrev hifTsqLostCnt (i : Nat) : Nat := 0xB010 + 0x20 * i
/-- `HIF_TSQ_LOST_ACK` -/
abbrev hifTsqLostAck (i : Nat) : Nat := 0xB014 + 0x20 * i
/-- `HIF_TSQ_CTRL` -/
abbrev hifTsqCtrl (i : Nat) : Nat := 0xB018 + 0x20 * i
/-- `EVQ_CFG` -/
abbrev evqCfg (i : Nat) : Nat := 0x14000 + 0x40 * i
/-- `EVQ_PROD` -/
abbrev evqProd (i : Nat) : Nat := 0x14004 + 0x40 * i
/-- `EVQ_CONS` -/
abbrev evqCons (i : Nat) : Nat := 0x14008 + 0x40 * i
/-- `EVQ_LOST_CNT` -/
abbrev evqLostCnt (i : Nat) : Nat := 0x1400C + 0x40 * i
/-- `EVQ_LOST_ACK` -/
abbrev evqLostAck (i : Nat) : Nat := 0x14010 + 0x40 * i
/-- `EVQ_BASE_LO` -/
abbrev evqBaseLo (i : Nat) : Nat := 0x14014 + 0x40 * i
/-- `EVQ_BASE_HI` -/
abbrev evqBaseHi (i : Nat) : Nat := 0x14018 + 0x40 * i
/-- `DEV_ID` -/
abbrev devId : Nat := 0x0
/-- `DEV_FORGE_ID` -/
abbrev devForgeId : Nat := 0x4
/-- `DEV_EMBER_ID` -/
abbrev devEmberId : Nat := 0x8
/-- `DEV_FW_VERSION` -/
abbrev devFwVersion : Nat := 0xC
/-- `DEV_STATE` -/
abbrev devState : Nat := 0x10
/-- `DEV_HEARTBEAT` -/
abbrev devHeartbeat : Nat := 0x14
/-- `DEV_SCRATCH0` -/
abbrev devScratch0 : Nat := 0x20
/-- `DEV_SCRATCH1` -/
abbrev devScratch1 : Nat := 0x24
/-- `STAT_RX_OCT_LO`: offset within the counter block of a port. -/
abbrev statRxOctLo : Nat := 0x0
/-- `STAT_RX_OCT_HI`: offset within the counter block of a port. -/
abbrev statRxOctHi : Nat := 0x4
/-- `STAT_RX_BAD_OCT_LO`: offset within the counter block of a port. -/
abbrev statRxBadOctLo : Nat := 0x8
/-- `STAT_RX_BAD_OCT_HI`: offset within the counter block of a port. -/
abbrev statRxBadOctHi : Nat := 0xC
/-- `STAT_RX_FRAMES`: offset within the counter block of a port. -/
abbrev statRxFrames : Nat := 0x10
/-- `STAT_RX_64`: offset within the counter block of a port. -/
abbrev statRx64 : Nat := 0x14
/-- `STAT_RX_65_127`: offset within the counter block of a port. -/
abbrev statRx65127 : Nat := 0x18
/-- `STAT_RX_128_255`: offset within the counter block of a port. -/
abbrev statRx128255 : Nat := 0x1C
/-- `STAT_RX_256_511`: offset within the counter block of a port. -/
abbrev statRx256511 : Nat := 0x20
/-- `STAT_RX_512_1023`: offset within the counter block of a port. -/
abbrev statRx5121023 : Nat := 0x24
/-- `STAT_RX_1024_1518`: offset within the counter block of a port. -/
abbrev statRx10241518 : Nat := 0x28
/-- `STAT_RX_1519_MAX`: offset within the counter block of a port. -/
abbrev statRx1519Max : Nat := 0x2C
/-- `STAT_RX_UCAST`: offset within the counter block of a port. -/
abbrev statRxUcast : Nat := 0x30
/-- `STAT_RX_MCAST`: offset within the counter block of a port. -/
abbrev statRxMcast : Nat := 0x34
/-- `STAT_RX_BCAST`: offset within the counter block of a port. -/
abbrev statRxBcast : Nat := 0x38
/-- `STAT_RX_PAUSE`: offset within the counter block of a port. -/
abbrev statRxPause : Nat := 0x3C
/-- `STAT_RX_CONTROL`: offset within the counter block of a port. -/
abbrev statRxControl : Nat := 0x40
/-- `STAT_RX_FCS_ERR`: offset within the counter block of a port. -/
abbrev statRxFcsErr : Nat := 0x44
/-- `STAT_RX_ALIGN_ERR`: offset within the counter block of a port. -/
abbrev statRxAlignErr : Nat := 0x48
/-- `STAT_RX_OVERSIZE`: offset within the counter block of a port. -/
abbrev statRxOversize : Nat := 0x4C
/-- `STAT_RX_UNDERSIZE`: offset within the counter block of a port. -/
abbrev statRxUndersize : Nat := 0x50
/-- `STAT_RX_FRAGMENT`: offset within the counter block of a port. -/
abbrev statRxFragment : Nat := 0x54
/-- `STAT_RX_TAIL_ABORT`: offset within the counter block of a port. -/
abbrev statRxTailAbort : Nat := 0x58
/-- `STAT_RX_PREEMPT_ERR`: offset within the counter block of a port. -/
abbrev statRxPreemptErr : Nat := 0x5C
/-- `STAT_TX_OCT_LO`: offset within the counter block of a port. -/
abbrev statTxOctLo : Nat := 0x80
/-- `STAT_TX_OCT_HI`: offset within the counter block of a port. -/
abbrev statTxOctHi : Nat := 0x84
/-- `STAT_TX_FRAMES`: offset within the counter block of a port. -/
abbrev statTxFrames : Nat := 0x88
/-- `STAT_TX_64`: offset within the counter block of a port. -/
abbrev statTx64 : Nat := 0x8C
/-- `STAT_TX_65_127`: offset within the counter block of a port. -/
abbrev statTx65127 : Nat := 0x90
/-- `STAT_TX_128_255`: offset within the counter block of a port. -/
abbrev statTx128255 : Nat := 0x94
/-- `STAT_TX_256_511`: offset within the counter block of a port. -/
abbrev statTx256511 : Nat := 0x98
/-- `STAT_TX_512_1023`: offset within the counter block of a port. -/
abbrev statTx5121023 : Nat := 0x9C
/-- `STAT_TX_1024_1518`: offset within the counter block of a port. -/
abbrev statTx10241518 : Nat := 0xA0
/-- `STAT_TX_1519_MAX`: offset within the counter block of a port. -/
abbrev statTx1519Max : Nat := 0xA4
/-- `STAT_TX_UCAST`: offset within the counter block of a port. -/
abbrev statTxUcast : Nat := 0xA8
/-- `STAT_TX_MCAST`: offset within the counter block of a port. -/
abbrev statTxMcast : Nat := 0xAC
/-- `STAT_TX_BCAST`: offset within the counter block of a port. -/
abbrev statTxBcast : Nat := 0xB0
/-- `STAT_TX_PAUSE`: offset within the counter block of a port. -/
abbrev statTxPause : Nat := 0xB4
/-- `STAT_TX_CONTROL`: offset within the counter block of a port. -/
abbrev statTxControl : Nat := 0xB8
/-- `STAT_TX_TAIL_ABORT`: offset within the counter block of a port. -/
abbrev statTxTailAbort : Nat := 0xBC
/-- `STAT_TX_OVERSIZE`: offset within the counter block of a port. -/
abbrev statTxOversize : Nat := 0xC0
/-- `STAT_TX_DROP`: offset within the counter block of a port. -/
abbrev statTxDrop : Nat := 0xC4
/-- `MBX_JOURNAL_HEAD` -/
abbrev mbxJournalHead : Nat := 0x10000
/-- `MBX_CFG_EPOCH` -/
abbrev mbxCfgEpoch : Nat := 0x10004
/-- `MBX_JOURNAL_PERSIST` -/
abbrev mbxJournalPersist : Nat := 0x10008
/-- `MBX_REJECT_CNT` -/
abbrev mbxRejectCnt : Nat := 0x10010
/-- `MBX_REJECT_ACK` -/
abbrev mbxRejectAck : Nat := 0x10014
/-- `MBX_STALL_CNT` -/
abbrev mbxStallCnt : Nat := 0x10018
/-- `MBX_STALL_ACK` -/
abbrev mbxStallAck : Nat := 0x1001C
/-- `MBX_JOURNAL_STATUS` -/
abbrev mbxJournalStatus : Nat := 0x1000C
/-- `MBX_HOST_SEQ` -/
abbrev mbxHostSeq (i : Nat) : Nat := 0x10100 + 0x20 * i
/-- `MBX_HOST_SESSION` -/
abbrev mbxHostSession (i : Nat) : Nat := 0x10104 + 0x20 * i
/-- `MBX_HOST_INFLIGHT` -/
abbrev mbxHostInflight (i : Nat) : Nat := 0x10108 + 0x20 * i
/-- `MBX_SQ_PROD` -/
abbrev mbxSqProd (i : Nat) : Nat := 0x11000 + 0x40 * i
/-- `MBX_SQ_ACCEPT` -/
abbrev mbxSqAccept (i : Nat) : Nat := 0x11004 + 0x40 * i
/-- `MBX_CQ_BASE_LO` -/
abbrev mbxCqBaseLo (i : Nat) : Nat := 0x11008 + 0x40 * i
/-- `MBX_CQ_BASE_HI` -/
abbrev mbxCqBaseHi (i : Nat) : Nat := 0x1100C + 0x40 * i
/-- `MBX_CQ_PROD` -/
abbrev mbxCqProd (i : Nat) : Nat := 0x11010 + 0x40 * i
/-- `MBX_CQ_CONS` -/
abbrev mbxCqCons (i : Nat) : Nat := 0x11014 + 0x40 * i
/-- `MBX_Q_CTRL` -/
abbrev mbxQCtrl (i : Nat) : Nat := 0x11018 + 0x40 * i
/-- `MBX_Q_STATUS` -/
abbrev mbxQStatus (i : Nat) : Nat := 0x1101C + 0x40 * i
/-- `CAL_STATE` -/
abbrev calState : Nat := 0x18000
/-- `CAL_ACTIVE_ID` -/
abbrev calActiveId : Nat := 0x18004
/-- `CAL_PENDING_ID` -/
abbrev calPendingId : Nat := 0x18008
/-- `CAL_LIMP_ID` -/
abbrev calLimpId : Nat := 0x1800C
/-- `CAL_PENDING_T_NS` -/
abbrev calPendingTNs : Nat := 0x18010
/-- `CAL_PENDING_T_SEC_LO` -/
abbrev calPendingTSecLo : Nat := 0x18014
/-- `CAL_PENDING_T_SEC_HI` -/
abbrev calPendingTSecHi : Nat := 0x18018
/-- `CAL_HANDLE_STATE` -/
abbrev calHandleState : Nat := 0x1801C
/-- `CAL_HYPERCYCLE_CNT` -/
abbrev calHypercycleCnt : Nat := 0x18020
/-- `CAL_BREACH_CNT` -/
abbrev calBreachCnt : Nat := 0x18024
/-- `CAL_BREACH_ACK` -/
abbrev calBreachAck : Nat := 0x18028
/-- `CAL_MARGIN_CNT` -/
abbrev calMarginCnt : Nat := 0x1802C
/-- `CAL_NONCONF_CNT` -/
abbrev calNonconfCnt : Nat := 0x18030
/-- `CAL_SLOT_SLIP_CNT` -/
abbrev calSlotSlipCnt : Nat := 0x18034
/-- `CAL_EDGE_MISS_CNT` -/
abbrev calEdgeMissCnt : Nat := 0x18038
/-- `CAL_VERDICT_LATE_CNT` -/
abbrev calVerdictLateCnt : Nat := 0x1803C
/-- `CAL_PATH_LOST_CNT` -/
abbrev calPathLostCnt : Nat := 0x18040
/-- `CAL_PATH_LOST_ACK` -/
abbrev calPathLostAck : Nat := 0x18044
/-- `CAL_MON_CTRL` -/
abbrev calMonCtrl : Nat := 0x18048
/-- `FWD_CTRL` -/
abbrev fwdCtrl : Nat := 0x20000
/-- `FWD_EPOCH` -/
abbrev fwdEpoch : Nat := 0x20004
/-- `FWD_INFLIGHT0` -/
abbrev fwdInflight0 (i : Nat) : Nat := 0x20008 + 0x4 * i
/-- `FWD_TXN_STATE` -/
abbrev fwdTxnState : Nat := 0x20018
/-- `FWD_ROUTER_MAC_LO` -/
abbrev fwdRouterMacLo : Nat := 0x2001C
/-- `FWD_ROUTER_MAC_HI` -/
abbrev fwdRouterMacHi : Nat := 0x20020
/-- `FWD_EM_USED` -/
abbrev fwdEmUsed : Nat := 0x20030
/-- `FWD_OVF_USED` -/
abbrev fwdOvfUsed : Nat := 0x20034
/-- `FWD_LPM_USED` -/
abbrev fwdLpmUsed : Nat := 0x20038
/-- `FWD_CONN_USED` -/
abbrev fwdConnUsed : Nat := 0x2003C
/-- `FWD_DYN_USED` -/
abbrev fwdDynUsed : Nat := 0x20040
/-- `FWD_LEARN_CNT` -/
abbrev fwdLearnCnt : Nat := 0x20050
/-- `FWD_LEARN_DROP_CNT` -/
abbrev fwdLearnDropCnt : Nat := 0x20054
/-- `FWD_LEARN_DROP_ACK` -/
abbrev fwdLearnDropAck : Nat := 0x20058
/-- `FWD_MOVE_CNT` -/
abbrev fwdMoveCnt : Nat := 0x2005C
/-- `FWD_MOVE_CONFLICT_CNT` -/
abbrev fwdMoveConflictCnt : Nat := 0x20060
/-- `FWD_MOVE_CONFLICT_ACK` -/
abbrev fwdMoveConflictAck : Nat := 0x20064
/-- `FWD_RELOCATE_CNT` -/
abbrev fwdRelocateCnt : Nat := 0x20068
/-- `FWD_AGED_CNT` -/
abbrev fwdAgedCnt : Nat := 0x2006C
/-- `FWD_INGRESS_DROP_CNT` -/
abbrev fwdIngressDropCnt : Nat := 0x20070
/-- `FWD_EMPTY_DROP_CNT` -/
abbrev fwdEmptyDropCnt : Nat := 0x20074
/-- `FWD_FLOOD_CNT` -/
abbrev fwdFloodCnt : Nat := 0x20078
/-- `FWD_LAST_CONFLICT_PORTS` -/
abbrev fwdLastConflictPorts : Nat := 0x20080
/-- `FWD_LAST_CONFLICT_MAC` -/
abbrev fwdLastConflictMac : Nat := 0x20084
/-- `FWD_LAST_CONFLICT_MAC_HI` -/
abbrev fwdLastConflictMacHi : Nat := 0x20088
/-- `SPC_CTRL` -/
abbrev spcCtrl : Nat := 0x24000
/-- `SPC_SRC_EN_LO` -/
abbrev spcSrcEnLo : Nat := 0x24004
/-- `SPC_SRC_EN_HI` -/
abbrev spcSrcEnHi : Nat := 0x24008
/-- `SPC_SRC_EN_X` -/
abbrev spcSrcEnX : Nat := 0x2400C
/-- `SPC_RESERVE` -/
abbrev spcReserve : Nat := 0x24010
/-- `SPC_LEAD_MACSEC_NS` -/
abbrev spcLeadMacsecNs : Nat := 0x24014
/-- `SPC_LEAD_CIPHER_NS` -/
abbrev spcLeadCipherNs : Nat := 0x24018
/-- `SPC_VERDICT_TIMEOUT_US` -/
abbrev spcVerdictTimeoutUs : Nat := 0x2401C
/-- `SPC_STATUS` -/
abbrev spcStatus : Nat := 0x24020
/-- `SPC_PER_USED` -/
abbrev spcPerUsed : Nat := 0x24024
/-- `SPC_SPEC_CNT` -/
abbrev spcSpecCnt (i : Nat) : Nat := 0x24100 + 0x40 * i
/-- `SPC_COMMIT_CNT` -/
abbrev spcCommitCnt (i : Nat) : Nat := 0x24104 + 0x40 * i
/-- `SPC_ABORT_CNT` -/
abbrev spcAbortCnt (i : Nat) : Nat := 0x24108 + 0x40 * i
/-- `SPC_ABORT_ACK` -/
abbrev spcAbortAck (i : Nat) : Nat := 0x2410C + 0x40 * i
/-- `SPC_QUIET_ABORT_CNT` -/
abbrev spcQuietAbortCnt (i : Nat) : Nat := 0x24110 + 0x40 * i
/-- `SPC_TAIL_ABORT_CNT` -/
abbrev spcTailAbortCnt (i : Nat) : Nat := 0x24114 + 0x40 * i
/-- `SPC_FALLBACK_CNT` -/
abbrev spcFallbackCnt (i : Nat) : Nat := 0x24118 + 0x40 * i
/-- `SPC_FALLBACK_ACK` -/
abbrev spcFallbackAck (i : Nat) : Nat := 0x2411C + 0x40 * i
/-- `SPC_TIMEOUT_CNT` -/
abbrev spcTimeoutCnt (i : Nat) : Nat := 0x24120 + 0x40 * i
/-- `SPC_TIMEOUT_ACK` -/
abbrev spcTimeoutAck (i : Nat) : Nat := 0x24124 + 0x40 * i
/-- `SPC_LATE_VERDICT_CNT` -/
abbrev spcLateVerdictCnt (i : Nat) : Nat := 0x24128 + 0x40 * i
/-- `SPC_LATE_EGRESS_CNT` -/
abbrev spcLateEgressCnt (i : Nat) : Nat := 0x2412C + 0x40 * i
/-- `SPC_LATE_EGRESS_ACK` -/
abbrev spcLateEgressAck (i : Nat) : Nat := 0x24130 + 0x40 * i
/-- `SPC_DUP_HELD_CNT` -/
abbrev spcDupHeldCnt (i : Nat) : Nat := 0x24134 + 0x40 * i
/-- `BUF_CTRL` -/
abbrev bufCtrl : Nat := 0x28000
/-- `BUF_SCHED_CELLS` -/
abbrev bufSchedCells : Nat := 0x28004
/-- `BUF_SCHED_EFFECTIVE` -/
abbrev bufSchedEffective : Nat := 0x28008
/-- `BUF_PART_STATUS` -/
abbrev bufPartStatus : Nat := 0x2800C
/-- `BUF_SHARED_FREE` -/
abbrev bufSharedFree : Nat := 0x28010
/-- `BUF_SCHED_USED` -/
abbrev bufSchedUsed : Nat := 0x28014
/-- `BUF_HEADROOM_USED` -/
abbrev bufHeadroomUsed : Nat := 0x28018
/-- `BUF_CONTROL_USED` -/
abbrev bufControlUsed : Nat := 0x2801C
/-- `BUF_OVF_REGION` -/
abbrev bufOvfRegion : Nat := 0x28020
/-- `BUF_OVF_USED` -/
abbrev bufOvfUsed : Nat := 0x28024
/-- `BUF_SPILL_ON` -/
abbrev bufSpillOn : Nat := 0x28028
/-- `BUF_SPILL_OFF` -/
abbrev bufSpillOff : Nat := 0x2802C
/-- `BUF_SPILL_FLOOR` -/
abbrev bufSpillFloor : Nat := 0x28030
/-- `BUF_AUDIT_PERIOD_MS` -/
abbrev bufAuditPeriodMs : Nat := 0x28034
/-- `BUF_ADMIT_DROP_CNT` -/
abbrev bufAdmitDropCnt : Nat := 0x28040
/-- `BUF_ADMIT_DROP_ACK` -/
abbrev bufAdmitDropAck : Nat := 0x28044
/-- `BUF_SPILL_CNT` -/
abbrev bufSpillCnt : Nat := 0x28048
/-- `BUF_DRAIN_STALL_CNT` -/
abbrev bufDrainStallCnt : Nat := 0x2804C
/-- `BUF_RES_OVERRUN_CNT` -/
abbrev bufResOverrunCnt : Nat := 0x28050
/-- `BUF_RES_OVERRUN_ACK` -/
abbrev bufResOverrunAck : Nat := 0x28054
/-- `BUF_LINKDOWN_DROP_CNT` -/
abbrev bufLinkdownDropCnt : Nat := 0x28058
/-- `BUF_HOLD_DISCARD_CNT` -/
abbrev bufHoldDiscardCnt : Nat := 0x2805C
/-- `BUF_PAUSE_IGNORED_CNT` -/
abbrev bufPauseIgnoredCnt : Nat := 0x28060
/-- `BUF_SLAG_CNT` -/
abbrev bufSlagCnt : Nat := 0x28064
/-- `BUF_SLAG_ACK` -/
abbrev bufSlagAck : Nat := 0x28068
/-- `BUF_AUDIT_PASS_CNT` -/
abbrev bufAuditPassCnt : Nat := 0x2806C
/-- `BUF_PORT_MAXFRAME` -/
abbrev bufPortMaxframe (i : Nat) : Nat := 0x28400 + 0x20 * i
/-- `BUF_PORT_HOLD` -/
abbrev bufPortHold (i : Nat) : Nat := 0x28404 + 0x20 * i
/-- `BUF_PORT_FC` -/
abbrev bufPortFc (i : Nat) : Nat := 0x28408 + 0x20 * i
/-- `BUF_PORT_FC_THR` -/
abbrev bufPortFcThr (i : Nat) : Nat := 0x2840C + 0x20 * i
/-- `BUF_PORT_HEADROOM` -/
abbrev bufPortHeadroom (i : Nat) : Nat := 0x28410 + 0x20 * i
/-- `BUF_PORT_STATUS` -/
abbrev bufPortStatus (i : Nat) : Nat := 0x28414 + 0x20 * i
/-- `BUF_QCFG` -/
abbrev bufQcfg (i : Nat) : Nat := 0x29000 + 0x4 * i
/-- `BUF_QOVF_LIMIT` -/
abbrev bufQovfLimit (i : Nat) : Nat := 0x2A000 + 0x4 * i
/-- `BUF_QUSED` -/
abbrev bufQused (i : Nat) : Nat := 0x2B000 + 0x4 * i
/-- `BUF_QOVF_USED` -/
abbrev bufQovfUsed (i : Nat) : Nat := 0x2C000 + 0x4 * i
/-- `TRF_CTRL` -/
abbrev trfCtrl : Nat := 0x30000
/-- `TRF_AUDIT_WINDOW_US` -/
abbrev trfAuditWindowUs : Nat := 0x30004
/-- `TRF_AUDIT_TOL` -/
abbrev trfAuditTol : Nat := 0x30008
/-- `TRF_REMAP_CNT` -/
abbrev trfRemapCnt : Nat := 0x30010
/-- `TRF_GATE_TOO_LONG_CNT` -/
abbrev trfGateTooLongCnt : Nat := 0x30014
/-- `TRF_GATE_TOO_LONG_ACK` -/
abbrev trfGateTooLongAck : Nat := 0x30018
/-- `TRF_FAIR_DEV_CNT` -/
abbrev trfFairDevCnt : Nat := 0x3001C
/-- `TRF_FAIR_DEV_ACK` -/
abbrev trfFairDevAck : Nat := 0x30020
/-- `TRF_AUDIT_PASS_CNT` -/
abbrev trfAuditPassCnt : Nat := 0x30024
/-- `TRF_FAIR_LAST` -/
abbrev trfFairLast : Nat := 0x30030
/-- `TRF_FAIR_LAST_SERVED` -/
abbrev trfFairLastServed : Nat := 0x30034
/-- `TRF_FAIR_LAST_EXPECT` -/
abbrev trfFairLastExpect : Nat := 0x30038
/-- `TRF_CNT_SEL` -/
abbrev trfCntSel : Nat := 0x30100
/-- `TRF_CNT_VIEW0` -/
abbrev trfCntView0 (i : Nat) : Nat := 0x30104 + 0x4 * i
/-- `TRF_PORT_GCL` -/
abbrev trfPortGcl (i : Nat) : Nat := 0x30400 + 0x40 * i
/-- `TRF_PORT_MM` -/
abbrev trfPortMm (i : Nat) : Nat := 0x30404 + 0x40 * i
/-- `TRF_PORT_CBS_SUSP` -/
abbrev trfPortCbsSusp (i : Nat) : Nat := 0x30408 + 0x40 * i
/-- `TRF_PORT_WSRC` -/
abbrev trfPortWsrc (i : Nat) : Nat := 0x3040C + 0x40 * i
/-- `TRF_PORT_GROUP` -/
abbrev trfPortGroup (i : Nat) : Nat := 0x30410 + 0x40 * i
/-- `TRF_MM_FRAG_TX_CNT` -/
abbrev trfMmFragTxCnt (i : Nat) : Nat := 0x30414 + 0x40 * i
/-- `TRF_MM_FRAG_RX_CNT` -/
abbrev trfMmFragRxCnt (i : Nat) : Nat := 0x30418 + 0x40 * i
/-- `TRF_MM_ASSY_OK_CNT` -/
abbrev trfMmAssyOkCnt (i : Nat) : Nat := 0x3041C + 0x40 * i
/-- `TRF_MM_ASSY_ERR_CNT` -/
abbrev trfMmAssyErrCnt (i : Nat) : Nat := 0x30420 + 0x40 * i
/-- `TRF_MM_SMD_ERR_CNT` -/
abbrev trfMmSmdErrCnt (i : Nat) : Nat := 0x30424 + 0x40 * i
/-- `TRF_MM_HOLD_CNT` -/
abbrev trfMmHoldCnt (i : Nat) : Nat := 0x30428 + 0x40 * i
/-- `TRF_Q_SVC_LO` -/
abbrev trfQSvcLo (i : Nat) : Nat := 0x32000 + 0x8 * i
/-- `TRF_Q_SVC_HI` -/
abbrev trfQSvcHi (i : Nat) : Nat := 0x32004 + 0x8 * i
/-- `TRF_Q_FRAMES` -/
abbrev trfQFrames (i : Nat) : Nat := 0x33200 + 0x4 * i
/-- `TRF_Q_STATE` -/
abbrev trfQState (i : Nat) : Nat := 0x34000 + 0x4 * i
/-- `TRF_Q_CREDIT` -/
abbrev trfQCredit (i : Nat) : Nat := 0x35000 + 0x4 * i
/-- `TRF_Q_DEFICIT` -/
abbrev trfQDeficit (i : Nat) : Nat := 0x36000 + 0x4 * i
/-- `EDG_CTRL` -/
abbrev edgCtrl : Nat := 0x38000
/-- `EDG_CAN_NBT` -/
abbrev edgCanNbt (i : Nat) : Nat := 0x39000 + 0x80 * i
/-- `EDG_CAN_DBT` -/
abbrev edgCanDbt (i : Nat) : Nat := 0x39004 + 0x80 * i
/-- `EDG_CAN_XBT` -/
abbrev edgCanXbt (i : Nat) : Nat := 0x39008 + 0x80 * i
/-- `EDG_CAN_TDC` -/
abbrev edgCanTdc (i : Nat) : Nat := 0x3900C + 0x80 * i
/-- `EDG_CAN_PWM` -/
abbrev edgCanPwm (i : Nat) : Nat := 0x39010 + 0x80 * i
/-- `EDG_CAN_STATUS` -/
abbrev edgCanStatus (i : Nat) : Nat := 0x39014 + 0x80 * i
/-- `EDG_CAN_TDC_MEAS` -/
abbrev edgCanTdcMeas (i : Nat) : Nat := 0x39018 + 0x80 * i
/-- `EDG_CAN_ERR` -/
abbrev edgCanErr (i : Nat) : Nat := 0x3901C + 0x80 * i
/-- `EDG_CAN_RX_OK_CNT` -/
abbrev edgCanRxOkCnt (i : Nat) : Nat := 0x39020 + 0x80 * i
/-- `EDG_CAN_TX_OK_CNT` -/
abbrev edgCanTxOkCnt (i : Nat) : Nat := 0x39024 + 0x80 * i
/-- `EDG_CAN_BUS_ERR_CNT` -/
abbrev edgCanBusErrCnt (i : Nat) : Nat := 0x39028 + 0x80 * i
/-- `EDG_CAN_BUS_OFF_CNT` -/
abbrev edgCanBusOffCnt (i : Nat) : Nat := 0x3902C + 0x80 * i
/-- `EDG_CAN_BUS_OFF_ACK` -/
abbrev edgCanBusOffAck (i : Nat) : Nat := 0x39030 + 0x80 * i
/-- `EDG_CAN_RX_OVERSIZE_CNT` -/
abbrev edgCanRxOversizeCnt (i : Nat) : Nat := 0x39034 + 0x80 * i
/-- `EDG_CAN_RX_DROP_CNT` -/
abbrev edgCanRxDropCnt (i : Nat) : Nat := 0x39038 + 0x80 * i
/-- `EDG_CAN_RX_DROP_ACK` -/
abbrev edgCanRxDropAck (i : Nat) : Nat := 0x3903C + 0x80 * i
/-- `EDG_CAN_TX_REPLACE_CNT` -/
abbrev edgCanTxReplaceCnt (i : Nat) : Nat := 0x39040 + 0x80 * i
/-- `EDG_CAN_SLOT_ABANDON_CNT` -/
abbrev edgCanSlotAbandonCnt (i : Nat) : Nat := 0x39044 + 0x80 * i
/-- `EDG_CAN_PN_IGNORED_CNT` -/
abbrev edgCanPnIgnoredCnt (i : Nat) : Nat := 0x39048 + 0x80 * i
/-- `EDG_CAN_PEX_CNT` -/
abbrev edgCanPexCnt (i : Nat) : Nat := 0x3904C + 0x80 * i
/-- `EDG_CAN_ARB_LOST_CNT` -/
abbrev edgCanArbLostCnt (i : Nat) : Nat := 0x39050 + 0x80 * i
/-- `EDG_LIN_STATUS` -/
abbrev edgLinStatus (i : Nat) : Nat := 0x3B000 + 0x40 * i
/-- `EDG_LIN_RATE` -/
abbrev edgLinRate (i : Nat) : Nat := 0x3B004 + 0x40 * i
/-- `EDG_LIN_FRAME_OK_CNT` -/
abbrev edgLinFrameOkCnt (i : Nat) : Nat := 0x3B008 + 0x40 * i
/-- `EDG_LIN_NO_RESP_CNT` -/
abbrev edgLinNoRespCnt (i : Nat) : Nat := 0x3B00C + 0x40 * i
/-- `EDG_LIN_CHECKSUM_CNT` -/
abbrev edgLinChecksumCnt (i : Nat) : Nat := 0x3B010 + 0x40 * i
/-- `EDG_LIN_BIT_ERR_CNT` -/
abbrev edgLinBitErrCnt (i : Nat) : Nat := 0x3B014 + 0x40 * i
/-- `EDG_LIN_FRAMING_CNT` -/
abbrev edgLinFramingCnt (i : Nat) : Nat := 0x3B018 + 0x40 * i
/-- `EDG_LIN_SYNC_ERR_CNT` -/
abbrev edgLinSyncErrCnt (i : Nat) : Nat := 0x3B01C + 0x40 * i
/-- `EDG_LIN_COLLISION_CNT` -/
abbrev edgLinCollisionCnt (i : Nat) : Nat := 0x3B020 + 0x40 * i
/-- `EDG_LIN_ERR_CNT` -/
abbrev edgLinErrCnt (i : Nat) : Nat := 0x3B024 + 0x40 * i
/-- `EDG_LIN_ERR_ACK` -/
abbrev edgLinErrAck (i : Nat) : Nat := 0x3B028 + 0x40 * i
/-- `EDG_T1S_STATUS` -/
abbrev edgT1sStatus (i : Nat) : Nat := 0x3B800 + 0x40 * i
/-- `EDG_T1S_COLL_CNT` -/
abbrev edgT1sCollCnt (i : Nat) : Nat := 0x3B804 + 0x40 * i
/-- `EDG_T1S_COLL_ACK` -/
abbrev edgT1sCollAck (i : Nat) : Nat := 0x3B808 + 0x40 * i
/-- `EDG_T1S_BEACON_LOSS_CNT` -/
abbrev edgT1sBeaconLossCnt (i : Nat) : Nat := 0x3B80C + 0x40 * i
/-- `EDG_T1S_DUP_COORD_CNT` -/
abbrev edgT1sDupCoordCnt (i : Nat) : Nat := 0x3B810 + 0x40 * i
/-- `TUN_CTRL` -/
abbrev tunCtrl : Nat := 0x40000
/-- `TUN_SRC_MAC_LO` -/
abbrev tunSrcMacLo : Nat := 0x40004
/-- `TUN_SRC_MAC_HI` -/
abbrev tunSrcMacHi : Nat := 0x40008
/-- `TUN_XL_TYPE` -/
abbrev tunXlType : Nat := 0x4000C
/-- `TUN_ENC_FRAME_CNT` -/
abbrev tunEncFrameCnt : Nat := 0x40010
/-- `TUN_ENC_DROP_CNT` -/
abbrev tunEncDropCnt : Nat := 0x40014
/-- `TUN_ENC_DROP_ACK` -/
abbrev tunEncDropAck : Nat := 0x40018
/-- `TUN_DEC_FRAME_CNT` -/
abbrev tunDecFrameCnt : Nat := 0x4001C
/-- `TUN_DEC_DISCARD_CNT` -/
abbrev tunDecDiscardCnt : Nat := 0x40020
/-- `TUN_DEC_DISCARD_ACK` -/
abbrev tunDecDiscardAck : Nat := 0x40024
/-- `TUN_SEQ_GAP_CNT` -/
abbrev tunSeqGapCnt : Nat := 0x40028
/-- `TUN_LATE_PRES_CNT` -/
abbrev tunLatePresCnt : Nat := 0x4002C
/-- `TUN_NOMATCH_CNT` -/
abbrev tunNomatchCnt : Nat := 0x40030
/-- `TUN_AUTH_FAIL_CNT` -/
abbrev tunAuthFailCnt : Nat := 0x40034
/-- `TUN_AUTH_FAIL_ACK` -/
abbrev tunAuthFailAck : Nat := 0x40038
/-- `TUN_LAST_DISCARD` -/
abbrev tunLastDiscard : Nat := 0x40040
/-- `TUN_CH_STATE` -/
abbrev tunChState (i : Nat) : Nat := 0x41000 + 0x4 * i
/-- `SIG_CTRL` -/
abbrev sigCtrl : Nat := 0x42000
/-- `SIG_SEQ_BUSY` -/
abbrev sigSeqBusy : Nat := 0x42004
/-- `SIG_QDEPTH0` -/
abbrev sigQdepth0 (i : Nat) : Nat := 0x42008 + 0x4 * i
/-- `SIG_EXTRACT_CNT` -/
abbrev sigExtractCnt : Nat := 0x42020
/-- `SIG_EMIT_CNT` -/
abbrev sigEmitCnt : Nat := 0x42024
/-- `SIG_NOMATCH_CNT` -/
abbrev sigNomatchCnt : Nat := 0x42028
/-- `SIG_QUEUE_DROP_CNT` -/
abbrev sigQueueDropCnt : Nat := 0x4202C
/-- `SIG_QUEUE_DROP_ACK` -/
abbrev sigQueueDropAck : Nat := 0x42030
/-- `SIG_DEADLINE_CNT` -/
abbrev sigDeadlineCnt : Nat := 0x42034
/-- `SIG_DEADLINE_ACK` -/
abbrev sigDeadlineAck : Nat := 0x42038
/-- `SIG_TIMEOUT_CNT` -/
abbrev sigTimeoutCnt : Nat := 0x4203C
/-- `SIG_TIMEOUT_ACK` -/
abbrev sigTimeoutAck : Nat := 0x42040
/-- `SIG_STALE` -/
abbrev sigStale (i : Nat) : Nat := 0x44000 + 0x4 * i
/-- `E2E_FAIL_CNT` -/
abbrev e2eFailCnt : Nat := 0x46000
/-- `E2E_FAIL_ACK` -/
abbrev e2eFailAck : Nat := 0x46004
/-- `E2E_CNT_SEL` -/
abbrev e2eCntSel : Nat := 0x46010
/-- `E2E_CNT_VIEW0` -/
abbrev e2eCntView0 (i : Nat) : Nat := 0x46014 + 0x4 * i
/-- `E2E_CTX_STATE` -/
abbrev e2eCtxState (i : Nat) : Nat := 0x47000 + 0x4 * i
/-- `SEC_CTRL` -/
abbrev secCtrl : Nat := 0x48000
/-- `SEC_PN_MARGIN` -/
abbrev secPnMargin : Nat := 0x48004
/-- `SEC_CP_CFG` -/
abbrev secCpCfg : Nat := 0x48008
/-- `SEC_CP_STATUS` -/
abbrev secCpStatus : Nat := 0x4800C
/-- `SEC_FW_RULES_VALID` -/
abbrev secFwRulesValid : Nat := 0x48010
/-- `SEC_FW_PERMIT_CNT` -/
abbrev secFwPermitCnt : Nat := 0x48020
/-- `SEC_FW_DENY_CNT` -/
abbrev secFwDenyCnt : Nat := 0x48024
/-- `SEC_FW_DENY_ACK` -/
abbrev secFwDenyAck : Nat := 0x48028
/-- `SEC_FW_TRAP_CNT` -/
abbrev secFwTrapCnt : Nat := 0x4802C
/-- `SEC_FW_STATE_MISS_CNT` -/
abbrev secFwStateMissCnt : Nat := 0x48030
/-- `SEC_FW_CONFORM_DENY_CNT` -/
abbrev secFwConformDenyCnt : Nat := 0x48034
/-- `SEC_FW_CONFORM_DENY_ACK` -/
abbrev secFwConformDenyAck : Nat := 0x48038
/-- `SEC_CP_REQ_CNT` -/
abbrev secCpReqCnt : Nat := 0x4803C
/-- `SEC_CP_KEY_REFUSED_CNT` -/
abbrev secCpKeyRefusedCnt : Nat := 0x48040
/-- `SEC_CP_KEY_REFUSED_ACK` -/
abbrev secCpKeyRefusedAck : Nat := 0x48044
/-- `SEC_CP_OVERLOAD_CNT` -/
abbrev secCpOverloadCnt : Nat := 0x48048
/-- `SEC_CP_ABORT_CNT` -/
abbrev secCpAbortCnt : Nat := 0x4804C
/-- `SEC_EA_PASS_CNT` -/
abbrev secEaPassCnt : Nat := 0x48050
/-- `SEC_EA_MAC_FAIL_CNT` -/
abbrev secEaMacFailCnt : Nat := 0x48054
/-- `SEC_EA_MAC_FAIL_ACK` -/
abbrev secEaMacFailAck : Nat := 0x48058
/-- `SEC_EA_FV_FAIL_CNT` -/
abbrev secEaFvFailCnt : Nat := 0x4805C
/-- `SEC_EA_FV_FAIL_ACK` -/
abbrev secEaFvFailAck : Nat := 0x48060
/-- `SEC_EA_GEN_CNT` -/
abbrev secEaGenCnt : Nat := 0x48064
/-- `SEC_EA_LAST_FAIL` -/
abbrev secEaLastFail : Nat := 0x48068
/-- `SEC_FW_HIT_SEL` -/
abbrev secFwHitSel : Nat := 0x48100
/-- `SEC_FW_HIT_VIEW` -/
abbrev secFwHitView : Nat := 0x48104
/-- `SEC_FV_SEL` -/
abbrev secFvSel : Nat := 0x48200
/-- `SEC_FV_VIEW_LO` -/
abbrev secFvViewLo : Nat := 0x48204
/-- `SEC_FV_VIEW_HI` -/
abbrev secFvViewHi : Nat := 0x48208
/-- `SEC_FV_WRITE_LO` -/
abbrev secFvWriteLo : Nat := 0x4820C
/-- `SEC_FV_WRITE_HI` -/
abbrev secFvWriteHi : Nat := 0x48210
/-- `SEC_FV_WRITE` -/
abbrev secFvWrite : Nat := 0x48214
/-- `SEC_EA_PROF_CFG` -/
abbrev secEaProfCfg (i : Nat) : Nat := 0x48800 + 0x10 * i
/-- `SEC_EA_PROF_ID` -/
abbrev secEaProfId (i : Nat) : Nat := 0x48804 + 0x10 * i
/-- `SEC_EA_PROF_WINDOW` -/
abbrev secEaProfWindow (i : Nat) : Nat := 0x48808 + 0x10 * i
/-- `SEC_EA_PROF_LEN` -/
abbrev secEaProfLen (i : Nat) : Nat := 0x4880C + 0x10 * i
/-- `SEC_MS_PORT_STATUS` -/
abbrev secMsPortStatus (i : Nat) : Nat := 0x49000 + 0x40 * i
/-- `SEC_MS_TX_PN_LO` -/
abbrev secMsTxPnLo (i : Nat) : Nat := 0x49004 + 0x40 * i
/-- `SEC_MS_TX_PN_HI` -/
abbrev secMsTxPnHi (i : Nat) : Nat := 0x49008 + 0x40 * i
/-- `SEC_MS_TX_PROT_CNT` -/
abbrev secMsTxProtCnt (i : Nat) : Nat := 0x4900C + 0x40 * i
/-- `SEC_MS_TX_DISCARD_CNT` -/
abbrev secMsTxDiscardCnt (i : Nat) : Nat := 0x49010 + 0x40 * i
/-- `SEC_MS_TX_DISCARD_ACK` -/
abbrev secMsTxDiscardAck (i : Nat) : Nat := 0x49014 + 0x40 * i
/-- `SEC_MS_RX_OK_CNT` -/
abbrev secMsRxOkCnt (i : Nat) : Nat := 0x49018 + 0x40 * i
/-- `SEC_MS_RX_INVALID_CNT` -/
abbrev secMsRxInvalidCnt (i : Nat) : Nat := 0x4901C + 0x40 * i
/-- `SEC_MS_RX_INVALID_ACK` -/
abbrev secMsRxInvalidAck (i : Nat) : Nat := 0x49020 + 0x40 * i
/-- `SEC_MS_RX_LATE_CNT` -/
abbrev secMsRxLateCnt (i : Nat) : Nat := 0x49024 + 0x40 * i
/-- `SEC_MS_RX_NO_SC_CNT` -/
abbrev secMsRxNoScCnt (i : Nat) : Nat := 0x49028 + 0x40 * i
/-- `SEC_MS_RX_UNTAGGED_CNT` -/
abbrev secMsRxUntaggedCnt (i : Nat) : Nat := 0x4902C + 0x40 * i
/-- `SEC_MS_RX_EXEMPT_CNT` -/
abbrev secMsRxExemptCnt (i : Nat) : Nat := 0x49030 + 0x40 * i
/-- `KEY_LC` -/
abbrev keyLc : Nat := 0x4C000
/-- `KEY_ALARM_STATUS` -/
abbrev keyAlarmStatus : Nat := 0x4C004
/-- `KEY_ALARM_CNT` -/
abbrev keyAlarmCnt : Nat := 0x4C008
/-- `KEY_ALARM_ACK` -/
abbrev keyAlarmAck : Nat := 0x4C00C
/-- `KEY_SLOTS_LOADED` -/
abbrev keySlotsLoaded : Nat := 0x4C010
/-- `KEY_SLOTS_ERASED` -/
abbrev keySlotsErased : Nat := 0x4C014
/-- `KEY_SLOT_SEL` -/
abbrev keySlotSel : Nat := 0x4C020
/-- `KEY_SLOT_VIEW` -/
abbrev keySlotView : Nat := 0x4C024
/-- `KEY_SLOT_PARENT` -/
abbrev keySlotParent : Nat := 0x4C028
/-- `KEY_SLOT_KCV` -/
abbrev keySlotKcv : Nat := 0x4C02C
/-- `TIM_CTRL` -/
abbrev timCtrl : Nat := 0x50000
/-- `TIM_SNAP` -/
abbrev timSnap : Nat := 0x50004
/-- `TIM_SNAP_LOCAL_LO` -/
abbrev timSnapLocalLo : Nat := 0x50008
/-- `TIM_SNAP_LOCAL_HI` -/
abbrev timSnapLocalHi : Nat := 0x5000C
/-- `TIM_SNAP_NS0` -/
abbrev timSnapNs0 (i : Nat) : Nat := 0x50010 + 0x4 * i
/-- `TIM_SNAP_SEC_LO0` -/
abbrev timSnapSecLo0 (i : Nat) : Nat := 0x50020 + 0x4 * i
/-- `TIM_PTP_DROP_CNT` -/
abbrev timPtpDropCnt : Nat := 0x50030
/-- `TIM_DOM_STATE` -/
abbrev timDomState (i : Nat) : Nat := 0x50100 + 0x40 * i
/-- `TIM_DOM_INC_LO` -/
abbrev timDomIncLo (i : Nat) : Nat := 0x50104 + 0x40 * i
/-- `TIM_DOM_INC_HI` -/
abbrev timDomIncHi (i : Nat) : Nat := 0x50108 + 0x40 * i
/-- `TIM_DOM_SEC_HI` -/
abbrev timDomSecHi (i : Nat) : Nat := 0x5010C + 0x40 * i
/-- `TIM_DOM_HELD_LO` -/
abbrev timDomHeldLo (i : Nat) : Nat := 0x50110 + 0x40 * i
/-- `TIM_DOM_HELD_HI` -/
abbrev timDomHeldHi (i : Nat) : Nat := 0x50114 + 0x40 * i
/-- `TIM_DOM_OFFSET` -/
abbrev timDomOffset (i : Nat) : Nat := 0x50118 + 0x40 * i
/-- `TIM_DOM_JUMP_REFUSED_CNT` -/
abbrev timDomJumpRefusedCnt (i : Nat) : Nat := 0x5011C + 0x40 * i
/-- `TIM_DOM_JUMP_REFUSED_ACK` -/
abbrev timDomJumpRefusedAck (i : Nat) : Nat := 0x50120 + 0x40 * i
/-- `TIM_DOM_SOURCE_LOST_CNT` -/
abbrev timDomSourceLostCnt (i : Nat) : Nat := 0x50124 + 0x40 * i
/-- `TIM_DOM_SOURCE_LOST_ACK` -/
abbrev timDomSourceLostAck (i : Nat) : Nat := 0x50128 + 0x40 * i
/-- `TIM_PORT_CFG` -/
abbrev timPortCfg (i : Nat) : Nat := 0x51000 + 0x10 * i
/-- `TIM_PORT_DELAY` -/
abbrev timPortDelay (i : Nat) : Nat := 0x51004 + 0x10 * i
/-- `TIM_PORT_PDELAY` -/
abbrev timPortPdelay (i : Nat) : Nat := 0x51008 + 0x10 * i
/-- `PWR_CTRL` -/
abbrev pwrCtrl : Nat := 0x58000
/-- `PWR_STATE` -/
abbrev pwrState : Nat := 0x58004
/-- `PWR_WAKE_REASON` -/
abbrev pwrWakeReason : Nat := 0x58008
/-- `PWR_WAKE_FIRST` -/
abbrev pwrWakeFirst : Nat := 0x5800C
/-- `PWR_WAKE_TIME_LO` -/
abbrev pwrWakeTimeLo : Nat := 0x58010
/-- `PWR_WAKE_TIME_HI` -/
abbrev pwrWakeTimeHi : Nat := 0x58014
/-- `PWR_SLEEP_MS` -/
abbrev pwrSleepMs : Nat := 0x58018
/-- `PWR_WAKE_CNT` -/
abbrev pwrWakeCnt : Nat := 0x5801C
/-- `PWR_LATE_WAKE_CNT` -/
abbrev pwrLateWakeCnt : Nat := 0x58020
/-- `PWR_COLD_CNT` -/
abbrev pwrColdCnt : Nat := 0x58024
/-- `PWR_KINDLE_FAIL_CNT` -/
abbrev pwrKindleFailCnt : Nat := 0x58028
/-- `PWR_KINDLE_FAIL_ACK` -/
abbrev pwrKindleFailAck : Nat := 0x5802C
/-- `PWR_INH_CFG0` -/
abbrev pwrInhCfg0 (i : Nat) : Nat := 0x58100 + 0x4 * i
/-- `PWR_INH_STATUS` -/
abbrev pwrInhStatus : Nat := 0x58120
/-- `PWR_PMIC` -/
abbrev pwrPmic : Nat := 0x58130
/-- `PWR_PMIC_STATUS` -/
abbrev pwrPmicStatus : Nat := 0x58134
/-- `PWR_DECAY` -/
abbrev pwrDecay : Nat := 0x58140
/-- `PWR_WAKE_PIN0` -/
abbrev pwrWakePin0 (i : Nat) : Nat := 0x58200 + 0x4 * i
/-- `PWR_WAKE_WUP_LO` -/
abbrev pwrWakeWupLo : Nat := 0x58220
/-- `PWR_WAKE_WUP_HI` -/
abbrev pwrWakeWupHi : Nat := 0x58224
/-- `PWR_WAKE_SW_LO` -/
abbrev pwrWakeSwLo : Nat := 0x58228
/-- `PWR_WAKE_SW_HI` -/
abbrev pwrWakeSwHi : Nat := 0x5822C
/-- `PWR_WAKE_LIN` -/
abbrev pwrWakeLin : Nat := 0x58230
/-- `NM_STATE` -/
abbrev nmState : Nat := 0x5C000
/-- `NM_TIMER_MS` -/
abbrev nmTimerMs : Nat := 0x5C004
/-- `NM_RECORDS` -/
abbrev nmRecords : Nat := 0x5C008
/-- `NM_PN_REQ` -/
abbrev nmPnReq : Nat := 0x5C00C
/-- `NM_RX_CNT` -/
abbrev nmRxCnt : Nat := 0x5C010
/-- `NM_RECORD_FULL_CNT` -/
abbrev nmRecordFullCnt : Nat := 0x5C014
/-- `NM_SLEEP_ABORT_CNT` -/
abbrev nmSleepAbortCnt : Nat := 0x5C018
/-- `NM_STAY_AWAKE_CNT` -/
abbrev nmStayAwakeCnt : Nat := 0x5C01C
/-- `NM_STAY_AWAKE_ACK` -/
abbrev nmStayAwakeAck : Nat := 0x5C020
/-- `NM_LOG_HEAD` -/
abbrev nmLogHead : Nat := 0x5C024
/-- `NM_CLUSTER_QUIET_LO` -/
abbrev nmClusterQuietLo : Nat := 0x5C028
/-- `NM_CLUSTER_QUIET_HI` -/
abbrev nmClusterQuietHi : Nat := 0x5C02C
/-- `PAIR_CTRL` -/
abbrev pairCtrl : Nat := 0x60000
/-- `PAIR_STATE` -/
abbrev pairState : Nat := 0x60004
/-- `PAIR_PARTNER_ID` -/
abbrev pairPartnerId : Nat := 0x60008
/-- `PAIR_MIRROR_ACKED` -/
abbrev pairMirrorAcked : Nat := 0x6000C
/-- `PAIR_PARTNER_HEAD` -/
abbrev pairPartnerHead : Nat := 0x60010
/-- `PAIR_VOTES` -/
abbrev pairVotes : Nat := 0x60014
/-- `PAIR_TIME_OFFSET0` -/
abbrev pairTimeOffset0 (i : Nat) : Nat := 0x60020 + 0x4 * i
/-- `PAIR_HB_MISS_CNT` -/
abbrev pairHbMissCnt : Nat := 0x60040
/-- `PAIR_TAKEOVER_CNT` -/
abbrev pairTakeoverCnt : Nat := 0x60044
/-- `PAIR_TAKEOVER_ACK` -/
abbrev pairTakeoverAck : Nat := 0x60048
/-- `PAIR_CLASH_CNT` -/
abbrev pairClashCnt : Nat := 0x6004C
/-- `PAIR_UNMIRRORED_CNT` -/
abbrev pairUnmirroredCnt : Nat := 0x60050
/-- `PAIR_UNIT_ERR_CNT` -/
abbrev pairUnitErrCnt : Nat := 0x60054
/-- `PAIR_UNIT_ERR_ACK` -/
abbrev pairUnitErrAck : Nat := 0x60058
/-- `PAIR_STANDBY_DISCARD_CNT` -/
abbrev pairStandbyDiscardCnt : Nat := 0x6005C
/-- `PAIR_RESYNC_CNT` -/
abbrev pairResyncCnt : Nat := 0x60060
/-- `PAIR_ABORT_RX_CNT` -/
abbrev pairAbortRxCnt : Nat := 0x60064
/-- `FNC_CTRL` -/
abbrev fncCtrl : Nat := 0x68000
/-- `FNC_MANUAL` -/
abbrev fncManual : Nat := 0x68004
/-- `FNC_QUENCHED` -/
abbrev fncQuenched : Nat := 0x68008
/-- `FNC_RECOVERING` -/
abbrev fncRecovering : Nat := 0x6800C
/-- `FNC_PROBATION` -/
abbrev fncProbation : Nat := 0x68010
/-- `FNC_STUCK` -/
abbrev fncStuck : Nat := 0x68014
/-- `FNC_LEVEL` -/
abbrev fncLevel : Nat := 0x68018
/-- `FNC_LAST` -/
abbrev fncLast : Nat := 0x6801C
/-- `FNC_QUENCH_CNT` -/
abbrev fncQuenchCnt : Nat := 0x68020
/-- `FNC_QUENCH_ACK` -/
abbrev fncQuenchAck : Nat := 0x68024
/-- `FNC_ESCALATE_CNT` -/
abbrev fncEscalateCnt : Nat := 0x68028
/-- `FNC_ESCALATE_ACK` -/
abbrev fncEscalateAck : Nat := 0x6802C
/-- `FNC_CE_CNT` -/
abbrev fncCeCnt : Nat := 0x68030
/-- `FNC_VOTE_CNT` -/
abbrev fncVoteCnt : Nat := 0x68034
/-- `BOOT_CTRL` -/
abbrev bootCtrl : Nat := 0x70000
/-- `BOOT_STATE` -/
abbrev bootState : Nat := 0x70004
/-- `BOOT_DESC` -/
abbrev bootDesc : Nat := 0x70008
/-- `BOOT_SLOT_STATUS` -/
abbrev bootSlotStatus : Nat := 0x7000C
/-- `BOOT_FW_VERSION_A` -/
abbrev bootFwVersionA : Nat := 0x70010
/-- `BOOT_FW_VERSION_B` -/
abbrev bootFwVersionB : Nat := 0x70014
/-- `BOOT_ROLLBACK` -/
abbrev bootRollback : Nat := 0x70018
/-- `BOOT_KEYS` -/
abbrev bootKeys : Nat := 0x7001C
/-- `BOOT_START_US` -/
abbrev bootStartUs : Nat := 0x70020
/-- `BOOT_MEM` -/
abbrev bootMem : Nat := 0x70024
/-- `BOOT_S0_MAC_LO` -/
abbrev bootS0MacLo : Nat := 0x70028
/-- `BOOT_S0_MAC_HI` -/
abbrev bootS0MacHi : Nat := 0x7002C
/-- `BOOT_FALLBACK_CNT` -/
abbrev bootFallbackCnt : Nat := 0x70040
/-- `BOOT_FALLBACK_ACK` -/
abbrev bootFallbackAck : Nat := 0x70044
/-- `BOOT_SVC_AUTH_FAIL_CNT` -/
abbrev bootSvcAuthFailCnt : Nat := 0x70048
/-- `BOOT_SVC_AUTH_FAIL_ACK` -/
abbrev bootSvcAuthFailAck : Nat := 0x7004C
/-- `BOOT_SVC_BAD_CNT` -/
abbrev bootSvcBadCnt : Nat := 0x70050
/-- `SPC_ABORT_CAUSE_CNT` -/
abbrev spcAbortCauseCnt (i : Nat) : Nat := 0x24204 + 0x4 * i
/-- `SPC_ABORT_CAUSE_CNT_P1` -/
abbrev spcAbortCauseCntP1 (i : Nat) : Nat := 0x24244 + 0x4 * i
/-- `HIF_PWF_LOG` -/
abbrev hifPwfLog (i : Nat) : Nat := 0x8400 + 0x4 * i
/-- `CAL_BREACH_LOG` -/
abbrev calBreachLog (i : Nat) : Nat := 0x18400 + 0x4 * i

/-- The counter block of a port in the STAT_ window (R82): fabric ports 0 to 63, the
Tongs link 64. -/
abbrev stat (port field : Nat) : Nat := 0x78000 + 0x100 * port + field

/-- A register of mailbox queue `q` of host 0 or 1, from that of queue 0 of host 0. -/
abbrev mbxQ (base host q : Nat) : Nat := base + 0x400 * host + 0x40 * q

end Reg

/-- The registers of the DEV_ window, part 1. -/
def devRows1 : List RegRow := [
  ⟨0x0, 1, 0x4, 0x0, 0x0, 0x0, 0x0, 0x0, 0xFFFFFFFF, 0x64500000, false⟩,
  ⟨0x4, 1, 0x4, 0x0, 0x0, 0x0, 0x0, 0x0, 0xFFFFFFFF, 0x0, false⟩,
  ⟨0x8, 1, 0x4, 0x0, 0x0, 0x0, 0x0, 0x0, 0xFFFFFFFF, 0x0, false⟩,
  ⟨0xC, 1, 0x4, 0x0, 0x0, 0x0, 0x0, 0x0, 0xFFFFFFFF, 0x0, false⟩,
  ⟨0x10, 1, 0x4, 0x0, 0x0, 0x0, 0x0, 0x0, 0x7FF, 0x4, false⟩,
  ⟨0x14, 1, 0x4, 0x0, 0x0, 0xFFFFFFFF, 0x0, 0x0, 0x0, 0x0, false⟩,
  ⟨0x20, 1, 0x4, 0xFFFFFFFF, 0x0, 0x0, 0x0, 0x0, 0x0, 0x0, false⟩,
  ⟨0x24, 1, 0x4, 0xFFFFFFFF, 0x0, 0x0, 0x0, 0x0, 0x0, 0x0, false⟩]

/-- The registers of the HIF_ window, part 1. -/
def hifRows1 : List RegRow := [
  ⟨0x8000, 1, 0x4, 0x0, 0x0, 0x0, 0x0, 0x0, 0xFFFFFF00, 0x64500100, false⟩,
  ⟨0x8004, 1, 0x4, 0x0, 0x0, 0x0, 0x0, 0x0, 0xFF, 0x0, false⟩,
  ⟨0x8008, 1, 0x4, 0x0, 0x101, 0x0, 0x0, 0x0, 0x0, 0x101, false⟩,
  ⟨0x800C, 1, 0x4, 0x3FF, 0x0, 0x0, 0x0, 0x0, 0x0, 0x0, false⟩,
  ⟨0x8010, 1, 0x4, 0x0, 0x0, 0xFFFFFFFF, 0x0, 0x0, 0x0, 0x0, false⟩,
  ⟨0x8014, 1, 0x4, 0x0, 0x0, 0x0, 0xFFFFFFFF, 0x0, 0x0, 0x0, false⟩,
  ⟨0x8018, 1, 0x4, 0x0, 0x0, 0xFFFFFFFF, 0x0, 0x0, 0x0, 0x0, false⟩,
  ⟨0x801C, 1, 0x4, 0x0, 0x0, 0x0, 0xFFFFFFFF, 0x0, 0x0, 0x0, false⟩,
  ⟨0x8020, 1, 0x4, 0x0, 0x0, 0xFFFFFFFF, 0x0, 0x0, 0x0, 0x0, false⟩,
  ⟨0x8024, 1, 0x4, 0x0, 0x0, 0x0, 0xFFFFFFFF, 0x0, 0x0, 0x0, false⟩,
  ⟨0x8028, 1, 0x4, 0x0, 0x0, 0xFFFFFFFF, 0x0, 0x0, 0x0, 0x0, false⟩,
  ⟨0x802C, 1, 0x4, 0x0, 0x0, 0x0, 0xFFFFFFFF, 0x0, 0x0, 0x0, false⟩,
  ⟨0x8400, 256, 0x4, 0x0, 0x0, 0x0, 0x0, 0x0, 0xFFFFFFFF, 0x0, false⟩,
  ⟨0x9000, 32, 0x40, 0x0, 0x0, 0x0, 0x0, 0x0, 0x1F07, 0x0, false⟩,
  ⟨0x9004, 32, 0x40, 0x0, 0x0, 0x0, 0x0, 0x0, 0xFFFFFFFF, 0x0, false⟩,
  ⟨0x9008, 32, 0x40, 0xFFFFFFFF, 0x0, 0x0, 0x0, 0x0, 0x0, 0x0, false⟩]
/-- The registers of the HIF_ window, part 2. -/
def hifRows2 : List RegRow := [
  ⟨0x900C, 32, 0x40, 0x0, 0x0, 0xFFFFFFFF, 0x0, 0x0, 0x0, 0x0, false⟩,
  ⟨0x9010, 32, 0x40, 0x0, 0x0, 0x0, 0xFFFFFFFF, 0x0, 0x0, 0x0, false⟩,
  ⟨0xA000, 32, 0x40, 0x0, 0x0, 0x0, 0x0, 0x0, 0x1F03, 0x0, false⟩,
  ⟨0xA004, 32, 0x40, 0xFFFFFFFF, 0x0, 0x0, 0x0, 0x0, 0x0, 0x0, false⟩,
  ⟨0xA008, 32, 0x40, 0x0, 0x0, 0x0, 0x0, 0x0, 0xFFFFFFFF, 0x0, false⟩,
  ⟨0xA00C, 32, 0x40, 0x0, 0x0, 0xFFFFFFFF, 0x0, 0x0, 0x0, 0x0, false⟩,
  ⟨0xA010, 32, 0x40, 0x0, 0x0, 0x0, 0xFFFFFFFF, 0x0, 0x0, 0x0, false⟩,
  ⟨0xA014, 32, 0x40, 0x0, 0x0, 0x0, 0x0, 0x0, 0x1, 0x0, false⟩,
  ⟨0xB000, 4, 0x20, 0xFFFFFFFF, 0x0, 0x0, 0x0, 0x0, 0x0, 0x0, false⟩,
  ⟨0xB004, 4, 0x20, 0xFFFFFFFF, 0x0, 0x0, 0x0, 0x0, 0x0, 0x0, false⟩,
  ⟨0xB008, 4, 0x20, 0x0, 0x0, 0x0, 0x0, 0x0, 0xFFFFFFFF, 0x0, false⟩,
  ⟨0xB00C, 4, 0x20, 0xFFFFFFFF, 0x0, 0x0, 0x0, 0x0, 0x0, 0x0, false⟩,
  ⟨0xB010, 4, 0x20, 0x0, 0x0, 0xFFFFFFFF, 0x0, 0x0, 0x0, 0x0, false⟩,
  ⟨0xB014, 4, 0x20, 0x0, 0x0, 0x0, 0xFFFFFFFF, 0x0, 0x0, 0x0, false⟩,
  ⟨0xB018, 4, 0x20, 0x3, 0x0, 0x0, 0x0, 0x0, 0x0, 0x0, false⟩]

/-- The registers of the MBX_ window, part 1. -/
def mbxRows1 : List RegRow := [
  ⟨0x10000, 1, 0x4, 0x0, 0x0, 0x0, 0x0, 0x0, 0xFFFFFFFF, 0x0, false⟩,
  ⟨0x10004, 1, 0x4, 0x0, 0x0, 0x0, 0x0, 0x0, 0xFFFFFFFF, 0x0, false⟩,
  ⟨0x10008, 1, 0x4, 0x0, 0x0, 0x0, 0x0, 0x0, 0xFFFFFFFF, 0x0, false⟩,
  ⟨0x1000C, 1, 0x4, 0x0, 0x0, 0x0, 0x0, 0x0, 0xF, 0x0, false⟩,
  ⟨0x10010, 1, 0x4, 0x0, 0x0, 0xFFFFFFFF, 0x0, 0x0, 0x0, 0x0, false⟩,
  ⟨0x10014, 1, 0x4, 0x0, 0x0, 0x0, 0xFFFFFFFF, 0x0, 0x0, 0x0, false⟩,
  ⟨0x10018, 1, 0x4, 0x0, 0x0, 0xFFFFFFFF, 0x0, 0x0, 0x0, 0x0, false⟩,
  ⟨0x1001C, 1, 0x4, 0x0, 0x0, 0x0, 0xFFFFFFFF, 0x0, 0x0, 0x0, false⟩,
  ⟨0x10100, 3, 0x20, 0x0, 0x0, 0x0, 0x0, 0x0, 0xFFFFFFFF, 0x0, false⟩,
  ⟨0x10104, 3, 0x20, 0x0, 0x0, 0x0, 0x0, 0x0, 0xFFFF, 0x0, false⟩,
  ⟨0x10108, 3, 0x20, 0x0, 0x0, 0x0, 0x0, 0x0, 0xFFFFFFFF, 0x0, false⟩,
  ⟨0x11000, 8, 0x40, 0xFFFFFFFF, 0x0, 0x0, 0x0, 0x0, 0x0, 0x0, false⟩,
  ⟨0x11004, 8, 0x40, 0x0, 0x0, 0x0, 0x0, 0x0, 0xFFFFFFFF, 0x0, false⟩,
  ⟨0x11008, 8, 0x40, 0xFFFFFFFF, 0x0, 0x0, 0x0, 0x0, 0x0, 0x0, false⟩,
  ⟨0x1100C, 8, 0x40, 0xFFFFFFFF, 0x0, 0x0, 0x0, 0x0, 0x0, 0x0, false⟩,
  ⟨0x11010, 8, 0x40, 0x0, 0x0, 0x0, 0x0, 0x0, 0xFFFFFFFF, 0x0, false⟩]
/-- The registers of the MBX_ window, part 2. -/
def mbxRows2 : List RegRow := [
  ⟨0x11014, 8, 0x40, 0xFFFFFFFF, 0x0, 0x0, 0x0, 0x0, 0x0, 0x0, false⟩,
  ⟨0x11018, 8, 0x40, 0x3, 0x0, 0x0, 0x0, 0x0, 0x0, 0x0, false⟩,
  ⟨0x1101C, 8, 0x40, 0x0, 0x0, 0x0, 0x0, 0x0, 0x3, 0x0, false⟩,
  ⟨0x11400, 2, 0x40, 0xFFFFFFFF, 0x0, 0x0, 0x0, 0x0, 0x0, 0x0, false⟩,
  ⟨0x11404, 2, 0x40, 0x0, 0x0, 0x0, 0x0, 0x0, 0xFFFFFFFF, 0x0, false⟩,
  ⟨0x11408, 2, 0x40, 0xFFFFFFFF, 0x0, 0x0, 0x0, 0x0, 0x0, 0x0, false⟩,
  ⟨0x1140C, 2, 0x40, 0xFFFFFFFF, 0x0, 0x0, 0x0, 0x0, 0x0, 0x0, false⟩,
  ⟨0x11410, 2, 0x40, 0x0, 0x0, 0x0, 0x0, 0x0, 0xFFFFFFFF, 0x0, false⟩,
  ⟨0x11414, 2, 0x40, 0xFFFFFFFF, 0x0, 0x0, 0x0, 0x0, 0x0, 0x0, false⟩,
  ⟨0x11418, 2, 0x40, 0x3, 0x0, 0x0, 0x0, 0x0, 0x0, 0x0, false⟩,
  ⟨0x1141C, 2, 0x40, 0x0, 0x0, 0x0, 0x0, 0x0, 0x3, 0x0, false⟩,
  ⟨0x14000, 2, 0x40, 0x0, 0x0, 0x0, 0x0, 0x0, 0x1F03, 0x0, false⟩,
  ⟨0x14004, 2, 0x40, 0x0, 0x0, 0x0, 0x0, 0x0, 0xFFFFFFFF, 0x0, false⟩,
  ⟨0x14008, 2, 0x40, 0xFFFFFFFF, 0x0, 0x0, 0x0, 0x0, 0x0, 0x0, false⟩,
  ⟨0x1400C, 2, 0x40, 0x0, 0x0, 0xFFFFFFFF, 0x0, 0x0, 0x0, 0x0, false⟩,
  ⟨0x14010, 2, 0x40, 0x0, 0x0, 0x0, 0xFFFFFFFF, 0x0, 0x0, 0x0, false⟩]
/-- The registers of the MBX_ window, part 3. -/
def mbxRows3 : List RegRow := [
  ⟨0x14014, 2, 0x40, 0x0, 0x0, 0x0, 0x0, 0x0, 0xFFFFFFFF, 0x0, false⟩,
  ⟨0x14018, 2, 0x40, 0x0, 0x0, 0x0, 0x0, 0x0, 0xFFFFFFFF, 0x0, false⟩]

/-- The registers of the CAL_ window, part 1. -/
def calRows1 : List RegRow := [
  ⟨0x18000, 1, 0x4, 0x0, 0x0, 0x0, 0x0, 0x0, 0x3F, 0x0, false⟩,
  ⟨0x18004, 1, 0x4, 0x0, 0x0, 0x0, 0x0, 0x0, 0xFFFFFFFF, 0x0, false⟩,
  ⟨0x18008, 1, 0x4, 0x0, 0x0, 0x0, 0x0, 0x0, 0xFFFFFFFF, 0x0, false⟩,
  ⟨0x1800C, 1, 0x4, 0x0, 0x0, 0x0, 0x0, 0x0, 0xFFFFFFFF, 0x0, false⟩,
  ⟨0x18010, 1, 0x4, 0x0, 0x0, 0x0, 0x0, 0x0, 0xFFFFFFFF, 0x0, false⟩,
  ⟨0x18014, 1, 0x4, 0x0, 0x0, 0x0, 0x0, 0x0, 0xFFFFFFFF, 0x0, false⟩,
  ⟨0x18018, 1, 0x4, 0x0, 0x0, 0x0, 0x0, 0x0, 0xFFFF, 0x0, false⟩,
  ⟨0x1801C, 1, 0x4, 0x0, 0x0, 0x0, 0x0, 0x0, 0xFFFF, 0x0, false⟩,
  ⟨0x18020, 1, 0x4, 0x0, 0x0, 0xFFFFFFFF, 0x0, 0x0, 0x0, 0x0, false⟩,
  ⟨0x18024, 1, 0x4, 0x0, 0x0, 0xFFFFFFFF, 0x0, 0x0, 0x0, 0x0, false⟩,
  ⟨0x18028, 1, 0x4, 0x0, 0x0, 0x0, 0xFFFFFFFF, 0x0, 0x0, 0x0, false⟩,
  ⟨0x1802C, 1, 0x4, 0x0, 0x0, 0xFFFFFFFF, 0x0, 0x0, 0x0, 0x0, false⟩,
  ⟨0x18030, 1, 0x4, 0x0, 0x0, 0xFFFFFFFF, 0x0, 0x0, 0x0, 0x0, false⟩,
  ⟨0x18034, 1, 0x4, 0x0, 0x0, 0xFFFFFFFF, 0x0, 0x0, 0x0, 0x0, false⟩,
  ⟨0x18038, 1, 0x4, 0x0, 0x0, 0xFFFFFFFF, 0x0, 0x0, 0x0, 0x0, false⟩,
  ⟨0x1803C, 1, 0x4, 0x0, 0x0, 0xFFFFFFFF, 0x0, 0x0, 0x0, 0x0, false⟩]
/-- The registers of the CAL_ window, part 2. -/
def calRows2 : List RegRow := [
  ⟨0x18040, 1, 0x4, 0x0, 0x0, 0xFFFFFFFF, 0x0, 0x0, 0x0, 0x0, false⟩,
  ⟨0x18044, 1, 0x4, 0x0, 0x0, 0x0, 0xFFFFFFFF, 0x0, 0x0, 0x0, false⟩,
  ⟨0x18048, 1, 0x4, 0x0, 0x1, 0x0, 0x0, 0x0, 0x0, 0x1, false⟩,
  ⟨0x18400, 512, 0x4, 0x0, 0x0, 0x0, 0x0, 0x0, 0xFFFFFFFF, 0x0, false⟩]

/-- The registers of the FWD_ window, part 1. -/
def fwdRows1 : List RegRow := [
  ⟨0x20000, 1, 0x4, 0x0, 0x3, 0x0, 0x0, 0x0, 0x0, 0x1, false⟩,
  ⟨0x20004, 1, 0x4, 0x0, 0x0, 0x0, 0x0, 0x0, 0xFFFFFFFF, 0x0, false⟩,
  ⟨0x20008, 4, 0x4, 0x0, 0x0, 0x0, 0x0, 0x0, 0xFFFFFFFF, 0x0, false⟩,
  ⟨0x20018, 1, 0x4, 0x0, 0x0, 0x0, 0x0, 0x0, 0x1FFF0001, 0x0, false⟩,
  ⟨0x2001C, 1, 0x4, 0xFFFFFFFF, 0x0, 0x0, 0x0, 0x0, 0x0, 0x0, false⟩,
  ⟨0x20020, 1, 0x4, 0xFFFF, 0x0, 0x0, 0x0, 0x0, 0x0, 0x0, false⟩,
  ⟨0x20030, 1, 0x4, 0x0, 0x0, 0x0, 0x0, 0x0, 0x7FFFF, 0x0, false⟩,
  ⟨0x20034, 1, 0x4, 0x0, 0x0, 0x0, 0x0, 0x0, 0x3FFF, 0x0, false⟩,
  ⟨0x20038, 1, 0x4, 0x0, 0x0, 0x0, 0x0, 0x0, 0xFFFF, 0x0, false⟩,
  ⟨0x2003C, 1, 0x4, 0x0, 0x0, 0x0, 0x0, 0x0, 0x1FFFF, 0x0, false⟩,
  ⟨0x20040, 1, 0x4, 0x0, 0x0, 0x0, 0x0, 0x0, 0x7FFFF, 0x0, false⟩,
  ⟨0x20050, 1, 0x4, 0x0, 0x0, 0xFFFFFFFF, 0x0, 0x0, 0x0, 0x0, false⟩,
  ⟨0x20054, 1, 0x4, 0x0, 0x0, 0xFFFFFFFF, 0x0, 0x0, 0x0, 0x0, false⟩,
  ⟨0x20058, 1, 0x4, 0x0, 0x0, 0x0, 0xFFFFFFFF, 0x0, 0x0, 0x0, false⟩,
  ⟨0x2005C, 1, 0x4, 0x0, 0x0, 0xFFFFFFFF, 0x0, 0x0, 0x0, 0x0, false⟩,
  ⟨0x20060, 1, 0x4, 0x0, 0x0, 0xFFFFFFFF, 0x0, 0x0, 0x0, 0x0, false⟩]
/-- The registers of the FWD_ window, part 2. -/
def fwdRows2 : List RegRow := [
  ⟨0x20064, 1, 0x4, 0x0, 0x0, 0x0, 0xFFFFFFFF, 0x0, 0x0, 0x0, false⟩,
  ⟨0x20068, 1, 0x4, 0x0, 0x0, 0xFFFFFFFF, 0x0, 0x0, 0x0, 0x0, false⟩,
  ⟨0x2006C, 1, 0x4, 0x0, 0x0, 0xFFFFFFFF, 0x0, 0x0, 0x0, 0x0, false⟩,
  ⟨0x20070, 1, 0x4, 0x0, 0x0, 0xFFFFFFFF, 0x0, 0x0, 0x0, 0x0, false⟩,
  ⟨0x20074, 1, 0x4, 0x0, 0x0, 0xFFFFFFFF, 0x0, 0x0, 0x0, 0x0, false⟩,
  ⟨0x20078, 1, 0x4, 0x0, 0x0, 0xFFFFFFFF, 0x0, 0x0, 0x0, 0x0, false⟩,
  ⟨0x20080, 1, 0x4, 0x0, 0x0, 0x0, 0x0, 0x0, 0xFFFFFFF, 0x0, false⟩,
  ⟨0x20084, 1, 0x4, 0x0, 0x0, 0x0, 0x0, 0x0, 0xFFFFFFFF, 0x0, false⟩,
  ⟨0x20088, 1, 0x4, 0x0, 0x0, 0x0, 0x0, 0x0, 0xFFFF, 0x0, false⟩,
  ⟨0x24000, 1, 0x4, 0x0, 0x1, 0x0, 0x0, 0x0, 0x0, 0x1, false⟩,
  ⟨0x24004, 1, 0x4, 0xFFFFFFFF, 0x0, 0x0, 0x0, 0x0, 0x0, 0xFFFFFFFF, false⟩,
  ⟨0x24008, 1, 0x4, 0xFFFFFFFF, 0x0, 0x0, 0x0, 0x0, 0x0, 0xFFFFFFFF, false⟩,
  ⟨0x2400C, 1, 0x4, 0x7, 0x0, 0x0, 0x0, 0x0, 0x0, 0x7, false⟩,
  ⟨0x24010, 1, 0x4, 0xFF, 0x0, 0x0, 0x0, 0x0, 0x0, 0x20, false⟩,
  ⟨0x24014, 1, 0x4, 0x3FFF, 0x0, 0x0, 0x0, 0x0, 0x0, 0x64, false⟩,
  ⟨0x24018, 1, 0x4, 0x3FFF, 0x0, 0x0, 0x0, 0x0, 0x0, 0x7D0, false⟩]
/-- The registers of the FWD_ window, part 3. -/
def fwdRows3 : List RegRow := [
  ⟨0x2401C, 1, 0x4, 0x3FFF, 0x0, 0x0, 0x0, 0x0, 0x0, 0x64, false⟩,
  ⟨0x24020, 1, 0x4, 0x0, 0x0, 0x0, 0x0, 0x0, 0x3, 0x0, false⟩,
  ⟨0x24024, 1, 0x4, 0x0, 0x0, 0x0, 0x0, 0x0, 0x1FF01FF, 0x0, false⟩,
  ⟨0x24100, 2, 0x40, 0x0, 0x0, 0xFFFFFFFF, 0x0, 0x0, 0x0, 0x0, false⟩,
  ⟨0x24104, 2, 0x40, 0x0, 0x0, 0xFFFFFFFF, 0x0, 0x0, 0x0, 0x0, false⟩,
  ⟨0x24108, 2, 0x40, 0x0, 0x0, 0xFFFFFFFF, 0x0, 0x0, 0x0, 0x0, false⟩,
  ⟨0x2410C, 2, 0x40, 0x0, 0x0, 0x0, 0xFFFFFFFF, 0x0, 0x0, 0x0, false⟩,
  ⟨0x24110, 2, 0x40, 0x0, 0x0, 0xFFFFFFFF, 0x0, 0x0, 0x0, 0x0, false⟩,
  ⟨0x24114, 2, 0x40, 0x0, 0x0, 0xFFFFFFFF, 0x0, 0x0, 0x0, 0x0, false⟩,
  ⟨0x24118, 2, 0x40, 0x0, 0x0, 0xFFFFFFFF, 0x0, 0x0, 0x0, 0x0, false⟩,
  ⟨0x2411C, 2, 0x40, 0x0, 0x0, 0x0, 0xFFFFFFFF, 0x0, 0x0, 0x0, false⟩,
  ⟨0x24120, 2, 0x40, 0x0, 0x0, 0xFFFFFFFF, 0x0, 0x0, 0x0, 0x0, false⟩,
  ⟨0x24124, 2, 0x40, 0x0, 0x0, 0x0, 0xFFFFFFFF, 0x0, 0x0, 0x0, false⟩,
  ⟨0x24128, 2, 0x40, 0x0, 0x0, 0xFFFFFFFF, 0x0, 0x0, 0x0, 0x0, false⟩,
  ⟨0x2412C, 2, 0x40, 0x0, 0x0, 0xFFFFFFFF, 0x0, 0x0, 0x0, 0x0, false⟩,
  ⟨0x24130, 2, 0x40, 0x0, 0x0, 0x0, 0xFFFFFFFF, 0x0, 0x0, 0x0, false⟩]
/-- The registers of the FWD_ window, part 4. -/
def fwdRows4 : List RegRow := [
  ⟨0x24134, 2, 0x40, 0x0, 0x0, 0xFFFFFFFF, 0x0, 0x0, 0x0, 0x0, false⟩,
  ⟨0x24204, 10, 0x4, 0x0, 0x0, 0xFFFFFFFF, 0x0, 0x0, 0x0, 0x0, false⟩,
  ⟨0x24244, 10, 0x4, 0x0, 0x0, 0xFFFFFFFF, 0x0, 0x0, 0x0, 0x0, false⟩]

/-- The registers of the BUF_ window, part 1. -/
def bufRows1 : List RegRow := [
  ⟨0x28000, 1, 0x4, 0x0, 0x3, 0x0, 0x0, 0x0, 0x0, 0x2, false⟩,
  ⟨0x28004, 1, 0x4, 0x0, 0x1FFFF, 0x0, 0x0, 0x0, 0x0, 0x2000, false⟩,
  ⟨0x28008, 1, 0x4, 0x0, 0x0, 0x0, 0x0, 0x0, 0x1FFFF, 0x2000, false⟩,
  ⟨0x2800C, 1, 0x4, 0x0, 0x0, 0x0, 0x0, 0x0, 0x1F, 0x0, false⟩,
  ⟨0x28010, 1, 0x4, 0x0, 0x0, 0x0, 0x0, 0x0, 0x3FFFF, 0x2D800, false⟩,
  ⟨0x28014, 1, 0x4, 0x0, 0x0, 0x0, 0x0, 0x0, 0x1FFFF, 0x0, false⟩,
  ⟨0x28018, 1, 0x4, 0x0, 0x0, 0x0, 0x0, 0x0, 0x7FFF, 0x0, false⟩,
  ⟨0x2801C, 1, 0x4, 0x0, 0x0, 0x0, 0x0, 0x0, 0xFFF, 0x0, false⟩,
  ⟨0x28020, 1, 0x4, 0x0, 0x1FF01FF, 0x0, 0x0, 0x0, 0x0, 0x0, false⟩,
  ⟨0x28024, 1, 0x4, 0x0, 0x0, 0x0, 0x0, 0x0, 0x1FFFFFF, 0x0, false⟩,
  ⟨0x28028, 1, 0x4, 0x3FFFF, 0x0, 0x0, 0x0, 0x0, 0x0, 0x4000, false⟩,
  ⟨0x2802C, 1, 0x4, 0x3FFFF, 0x0, 0x0, 0x0, 0x0, 0x0, 0x8000, false⟩,
  ⟨0x28030, 1, 0x4, 0x3FFFF, 0x0, 0x0, 0x0, 0x0, 0x0, 0x1000, false⟩,
  ⟨0x28034, 1, 0x4, 0x3FFF, 0x0, 0x0, 0x0, 0x0, 0x0, 0x64, false⟩,
  ⟨0x28040, 1, 0x4, 0x0, 0x0, 0xFFFFFFFF, 0x0, 0x0, 0x0, 0x0, false⟩,
  ⟨0x28044, 1, 0x4, 0x0, 0x0, 0x0, 0xFFFFFFFF, 0x0, 0x0, 0x0, false⟩]
/-- The registers of the BUF_ window, part 2. -/
def bufRows2 : List RegRow := [
  ⟨0x28048, 1, 0x4, 0x0, 0x0, 0xFFFFFFFF, 0x0, 0x0, 0x0, 0x0, false⟩,
  ⟨0x2804C, 1, 0x4, 0x0, 0x0, 0xFFFFFFFF, 0x0, 0x0, 0x0, 0x0, false⟩,
  ⟨0x28050, 1, 0x4, 0x0, 0x0, 0xFFFFFFFF, 0x0, 0x0, 0x0, 0x0, false⟩,
  ⟨0x28054, 1, 0x4, 0x0, 0x0, 0x0, 0xFFFFFFFF, 0x0, 0x0, 0x0, false⟩,
  ⟨0x28058, 1, 0x4, 0x0, 0x0, 0xFFFFFFFF, 0x0, 0x0, 0x0, 0x0, false⟩,
  ⟨0x2805C, 1, 0x4, 0x0, 0x0, 0xFFFFFFFF, 0x0, 0x0, 0x0, 0x0, false⟩,
  ⟨0x28060, 1, 0x4, 0x0, 0x0, 0xFFFFFFFF, 0x0, 0x0, 0x0, 0x0, false⟩,
  ⟨0x28064, 1, 0x4, 0x0, 0x0, 0xFFFFFFFF, 0x0, 0x0, 0x0, 0x0, false⟩,
  ⟨0x28068, 1, 0x4, 0x0, 0x0, 0x0, 0xFFFFFFFF, 0x0, 0x0, 0x0, false⟩,
  ⟨0x2806C, 1, 0x4, 0x0, 0x0, 0xFFFFFFFF, 0x0, 0x0, 0x0, 0x0, false⟩,
  ⟨0x28400, 64, 0x20, 0x3FFF, 0x0, 0x0, 0x0, 0x0, 0x0, 0x2400, false⟩,
  ⟨0x28404, 64, 0x20, 0x7F0F, 0x0, 0x0, 0x0, 0x0, 0x0, 0xA00, false⟩,
  ⟨0x28408, 64, 0x20, 0xFFFFFF03, 0x0, 0x0, 0x0, 0x0, 0x0, 0xFFFF0000, false⟩,
  ⟨0x2840C, 64, 0x20, 0xFFFFFFFF, 0x0, 0x0, 0x0, 0x0, 0x0, 0x2000400, false⟩,
  ⟨0x28410, 64, 0x20, 0x3FFF, 0x0, 0x0, 0x0, 0x0, 0x0, 0x0, false⟩,
  ⟨0x28414, 65, 0x20, 0x0, 0x0, 0x0, 0x0, 0x0, 0xFFFF07, 0x0, false⟩]
/-- The registers of the BUF_ window, part 3. -/
def bufRows3 : List RegRow := [
  ⟨0x29000, 544, 0x4, 0x1F3FFF, 0x0, 0x0, 0x0, 0x0, 0x0, 0x40010, false⟩,
  ⟨0x2A000, 544, 0x4, 0x1FFFFFF, 0x0, 0x0, 0x0, 0x0, 0x0, 0x0, false⟩,
  ⟨0x2B000, 544, 0x4, 0x0, 0x0, 0x0, 0x0, 0x0, 0x3FFFF, 0x0, false⟩,
  ⟨0x2C000, 544, 0x4, 0x0, 0x0, 0x0, 0x0, 0x0, 0x1FFFFFF, 0x0, false⟩]

/-- The registers of the TRF_ window, part 1. -/
def trfRows1 : List RegRow := [
  ⟨0x30000, 1, 0x4, 0x0, 0x1, 0x0, 0x0, 0x0, 0x0, 0x1, false⟩,
  ⟨0x30004, 1, 0x4, 0xFFFFF, 0x0, 0x0, 0x0, 0x0, 0x0, 0x2710, false⟩,
  ⟨0x30008, 1, 0x4, 0x3FF, 0x0, 0x0, 0x0, 0x0, 0x0, 0x14, false⟩,
  ⟨0x30010, 1, 0x4, 0x0, 0x0, 0xFFFFFFFF, 0x0, 0x0, 0x0, 0x0, false⟩,
  ⟨0x30014, 1, 0x4, 0x0, 0x0, 0xFFFFFFFF, 0x0, 0x0, 0x0, 0x0, false⟩,
  ⟨0x30018, 1, 0x4, 0x0, 0x0, 0x0, 0xFFFFFFFF, 0x0, 0x0, 0x0, false⟩,
  ⟨0x3001C, 1, 0x4, 0x0, 0x0, 0xFFFFFFFF, 0x0, 0x0, 0x0, 0x0, false⟩,
  ⟨0x30020, 1, 0x4, 0x0, 0x0, 0x0, 0xFFFFFFFF, 0x0, 0x0, 0x0, false⟩,
  ⟨0x30024, 1, 0x4, 0x0, 0x0, 0xFFFFFFFF, 0x0, 0x0, 0x0, 0x0, false⟩,
  ⟨0x30030, 1, 0x4, 0x0, 0x0, 0x0, 0x0, 0x0, 0x1F7F, 0x0, false⟩,
  ⟨0x30034, 1, 0x4, 0x0, 0x0, 0x0, 0x0, 0x0, 0xFFFFFFFF, 0x0, false⟩,
  ⟨0x30038, 1, 0x4, 0x0, 0x0, 0x0, 0x0, 0x0, 0xFFFFFFFF, 0x0, false⟩,
  ⟨0x30100, 1, 0x4, 0x71FFF, 0x0, 0x0, 0x0, 0x0, 0x0, 0x0, false⟩,
  ⟨0x30104, 7, 0x4, 0x0, 0x0, 0xFFFFFFFF, 0x0, 0x0, 0x0, 0x0, false⟩,
  ⟨0x30400, 65, 0x40, 0x0, 0x0, 0x0, 0x0, 0x0, 0xFF0F, 0xFF00, false⟩,
  ⟨0x30404, 65, 0x40, 0x0, 0x0, 0x0, 0x0, 0x0, 0xFF0F, 0xFF00, false⟩]
/-- The registers of the TRF_ window, part 2. -/
def trfRows2 : List RegRow := [
  ⟨0x30408, 65, 0x40, 0x0, 0x0, 0x0, 0x0, 0x0, 0xFF, 0x0, false⟩,
  ⟨0x3040C, 65, 0x40, 0x0, 0x0, 0x0, 0x0, 0x0, 0x1, 0x0, false⟩,
  ⟨0x30410, 65, 0x40, 0x0, 0x0, 0x0, 0x0, 0x0, 0xFFFFFFFF, 0x0, false⟩,
  ⟨0x30414, 65, 0x40, 0x0, 0x0, 0xFFFFFFFF, 0x0, 0x0, 0x0, 0x0, false⟩,
  ⟨0x30418, 65, 0x40, 0x0, 0x0, 0xFFFFFFFF, 0x0, 0x0, 0x0, 0x0, false⟩,
  ⟨0x3041C, 65, 0x40, 0x0, 0x0, 0xFFFFFFFF, 0x0, 0x0, 0x0, 0x0, false⟩,
  ⟨0x30420, 65, 0x40, 0x0, 0x0, 0xFFFFFFFF, 0x0, 0x0, 0x0, 0x0, false⟩,
  ⟨0x30424, 65, 0x40, 0x0, 0x0, 0xFFFFFFFF, 0x0, 0x0, 0x0, 0x0, false⟩,
  ⟨0x30428, 65, 0x40, 0x0, 0x0, 0xFFFFFFFF, 0x0, 0x0, 0x0, 0x0, false⟩,
  ⟨0x32000, 544, 0x8, 0x0, 0x0, 0xFFFFFFFF, 0x0, 0x0, 0x0, 0x0, true⟩,
  ⟨0x32004, 544, 0x8, 0x0, 0x0, 0xFFFF, 0x0, 0x0, 0x0, 0x0, false⟩,
  ⟨0x33200, 544, 0x4, 0x0, 0x0, 0xFFFFFFFF, 0x0, 0x0, 0x0, 0x0, false⟩,
  ⟨0x34000, 544, 0x4, 0x0, 0x0, 0x0, 0x0, 0x0, 0x7F, 0x2, false⟩,
  ⟨0x35000, 544, 0x4, 0x0, 0x0, 0x0, 0x0, 0x0, 0xFFFFFFFF, 0x0, false⟩,
  ⟨0x36000, 544, 0x4, 0x0, 0x0, 0x0, 0x0, 0x0, 0x1FFFFFF, 0x0, false⟩]

/-- The registers of the EDG_ window, part 1. -/
def edgRows1 : List RegRow := [
  ⟨0x38000, 1, 0x4, 0x0, 0x1, 0x0, 0x0, 0x0, 0x0, 0x1, false⟩,
  ⟨0x39000, 64, 0x80, 0x0, 0x0, 0x0, 0x0, 0x0, 0xFFFFFFFF, 0x0, false⟩,
  ⟨0x39004, 64, 0x80, 0x0, 0x0, 0x0, 0x0, 0x0, 0xFFFFFFFF, 0x0, false⟩,
  ⟨0x39008, 64, 0x80, 0x0, 0x0, 0x0, 0x0, 0x0, 0xFFFFFFFF, 0x0, false⟩,
  ⟨0x3900C, 64, 0x80, 0x0, 0x0, 0x0, 0x0, 0x0, 0x1FF01FF, 0x0, false⟩,
  ⟨0x39010, 64, 0x80, 0x0, 0x0, 0x0, 0x0, 0x0, 0x3F3F3F, 0x0, false⟩,
  ⟨0x39014, 64, 0x80, 0x0, 0x0, 0x0, 0x0, 0x0, 0x1FF, 0x0, false⟩,
  ⟨0x39018, 64, 0x80, 0x0, 0x0, 0x0, 0x0, 0x0, 0xFF00FF, 0x0, false⟩,
  ⟨0x3901C, 64, 0x80, 0x0, 0x0, 0x0, 0x0, 0x0, 0x7FF01FF, 0x0, false⟩,
  ⟨0x39020, 64, 0x80, 0x0, 0x0, 0xFFFFFFFF, 0x0, 0x0, 0x0, 0x0, false⟩,
  ⟨0x39024, 64, 0x80, 0x0, 0x0, 0xFFFFFFFF, 0x0, 0x0, 0x0, 0x0, false⟩,
  ⟨0x39028, 64, 0x80, 0x0, 0x0, 0xFFFFFFFF, 0x0, 0x0, 0x0, 0x0, false⟩,
  ⟨0x3902C, 64, 0x80, 0x0, 0x0, 0xFFFFFFFF, 0x0, 0x0, 0x0, 0x0, false⟩,
  ⟨0x39030, 64, 0x80, 0x0, 0x0, 0x0, 0xFFFFFFFF, 0x0, 0x0, 0x0, false⟩,
  ⟨0x39034, 64, 0x80, 0x0, 0x0, 0xFFFFFFFF, 0x0, 0x0, 0x0, 0x0, false⟩,
  ⟨0x39038, 64, 0x80, 0x0, 0x0, 0xFFFFFFFF, 0x0, 0x0, 0x0, 0x0, false⟩]
/-- The registers of the EDG_ window, part 2. -/
def edgRows2 : List RegRow := [
  ⟨0x3903C, 64, 0x80, 0x0, 0x0, 0x0, 0xFFFFFFFF, 0x0, 0x0, 0x0, false⟩,
  ⟨0x39040, 64, 0x80, 0x0, 0x0, 0xFFFFFFFF, 0x0, 0x0, 0x0, 0x0, false⟩,
  ⟨0x39044, 64, 0x80, 0x0, 0x0, 0xFFFFFFFF, 0x0, 0x0, 0x0, 0x0, false⟩,
  ⟨0x39048, 64, 0x80, 0x0, 0x0, 0xFFFFFFFF, 0x0, 0x0, 0x0, 0x0, false⟩,
  ⟨0x3904C, 64, 0x80, 0x0, 0x0, 0xFFFFFFFF, 0x0, 0x0, 0x0, 0x0, false⟩,
  ⟨0x39050, 64, 0x80, 0x0, 0x0, 0xFFFFFFFF, 0x0, 0x0, 0x0, 0x0, false⟩,
  ⟨0x3B000, 32, 0x40, 0x0, 0x0, 0x0, 0x0, 0x0, 0x7FFF, 0x0, false⟩,
  ⟨0x3B004, 32, 0x40, 0x0, 0x0, 0x0, 0x0, 0x0, 0xFFFF, 0x0, false⟩,
  ⟨0x3B008, 32, 0x40, 0x0, 0x0, 0xFFFFFFFF, 0x0, 0x0, 0x0, 0x0, false⟩,
  ⟨0x3B00C, 32, 0x40, 0x0, 0x0, 0xFFFFFFFF, 0x0, 0x0, 0x0, 0x0, false⟩,
  ⟨0x3B010, 32, 0x40, 0x0, 0x0, 0xFFFFFFFF, 0x0, 0x0, 0x0, 0x0, false⟩,
  ⟨0x3B014, 32, 0x40, 0x0, 0x0, 0xFFFFFFFF, 0x0, 0x0, 0x0, 0x0, false⟩,
  ⟨0x3B018, 32, 0x40, 0x0, 0x0, 0xFFFFFFFF, 0x0, 0x0, 0x0, 0x0, false⟩,
  ⟨0x3B01C, 32, 0x40, 0x0, 0x0, 0xFFFFFFFF, 0x0, 0x0, 0x0, 0x0, false⟩,
  ⟨0x3B020, 32, 0x40, 0x0, 0x0, 0xFFFFFFFF, 0x0, 0x0, 0x0, 0x0, false⟩,
  ⟨0x3B024, 32, 0x40, 0x0, 0x0, 0xFFFFFFFF, 0x0, 0x0, 0x0, 0x0, false⟩]
/-- The registers of the EDG_ window, part 3. -/
def edgRows3 : List RegRow := [
  ⟨0x3B028, 32, 0x40, 0x0, 0x0, 0x0, 0xFFFFFFFF, 0x0, 0x0, 0x0, false⟩,
  ⟨0x3B800, 16, 0x40, 0x0, 0x0, 0x0, 0x0, 0x0, 0xF07, 0x0, false⟩,
  ⟨0x3B804, 16, 0x40, 0x0, 0x0, 0xFFFFFFFF, 0x0, 0x0, 0x0, 0x0, false⟩,
  ⟨0x3B808, 16, 0x40, 0x0, 0x0, 0x0, 0xFFFFFFFF, 0x0, 0x0, 0x0, false⟩,
  ⟨0x3B80C, 16, 0x40, 0x0, 0x0, 0xFFFFFFFF, 0x0, 0x0, 0x0, 0x0, false⟩,
  ⟨0x3B810, 16, 0x40, 0x0, 0x0, 0xFFFFFFFF, 0x0, 0x0, 0x0, 0x0, false⟩]

/-- The registers of the TUN_ window, part 1. -/
def tunRows1 : List RegRow := [
  ⟨0x40000, 1, 0x4, 0x0, 0x3, 0x0, 0x0, 0x0, 0x0, 0x3, false⟩,
  ⟨0x40004, 1, 0x4, 0xFFFFFFFF, 0x0, 0x0, 0x0, 0x0, 0x0, 0x0, false⟩,
  ⟨0x40008, 1, 0x4, 0xFFFF, 0x0, 0x0, 0x0, 0x0, 0x0, 0x0, false⟩,
  ⟨0x4000C, 1, 0x4, 0x7F, 0x0, 0x0, 0x0, 0x0, 0x0, 0x7A, false⟩,
  ⟨0x40010, 1, 0x4, 0x0, 0x0, 0xFFFFFFFF, 0x0, 0x0, 0x0, 0x0, false⟩,
  ⟨0x40014, 1, 0x4, 0x0, 0x0, 0xFFFFFFFF, 0x0, 0x0, 0x0, 0x0, false⟩,
  ⟨0x40018, 1, 0x4, 0x0, 0x0, 0x0, 0xFFFFFFFF, 0x0, 0x0, 0x0, false⟩,
  ⟨0x4001C, 1, 0x4, 0x0, 0x0, 0xFFFFFFFF, 0x0, 0x0, 0x0, 0x0, false⟩,
  ⟨0x40020, 1, 0x4, 0x0, 0x0, 0xFFFFFFFF, 0x0, 0x0, 0x0, 0x0, false⟩,
  ⟨0x40024, 1, 0x4, 0x0, 0x0, 0x0, 0xFFFFFFFF, 0x0, 0x0, 0x0, false⟩,
  ⟨0x40028, 1, 0x4, 0x0, 0x0, 0xFFFFFFFF, 0x0, 0x0, 0x0, 0x0, false⟩,
  ⟨0x4002C, 1, 0x4, 0x0, 0x0, 0xFFFFFFFF, 0x0, 0x0, 0x0, 0x0, false⟩,
  ⟨0x40030, 1, 0x4, 0x0, 0x0, 0xFFFFFFFF, 0x0, 0x0, 0x0, 0x0, false⟩,
  ⟨0x40034, 1, 0x4, 0x0, 0x0, 0xFFFFFFFF, 0x0, 0x0, 0x0, 0x0, false⟩,
  ⟨0x40038, 1, 0x4, 0x0, 0x0, 0x0, 0xFFFFFFFF, 0x0, 0x0, 0x0, false⟩,
  ⟨0x40040, 1, 0x4, 0x0, 0x0, 0x0, 0x0, 0x0, 0xF01FF, 0x0, false⟩]
/-- The registers of the TUN_ window, part 2. -/
def tunRows2 : List RegRow := [
  ⟨0x41000, 512, 0x4, 0x0, 0x0, 0x0, 0x0, 0x0, 0x7FFF07, 0x0, false⟩,
  ⟨0x42000, 1, 0x4, 0x0, 0x1, 0x0, 0x0, 0x0, 0x0, 0x1, false⟩,
  ⟨0x42004, 1, 0x4, 0x0, 0x0, 0x0, 0x0, 0x0, 0xF, 0x0, false⟩,
  ⟨0x42008, 4, 0x4, 0x0, 0x0, 0x0, 0x0, 0x0, 0x1FF, 0x0, false⟩,
  ⟨0x42020, 1, 0x4, 0x0, 0x0, 0xFFFFFFFF, 0x0, 0x0, 0x0, 0x0, false⟩,
  ⟨0x42024, 1, 0x4, 0x0, 0x0, 0xFFFFFFFF, 0x0, 0x0, 0x0, 0x0, false⟩,
  ⟨0x42028, 1, 0x4, 0x0, 0x0, 0xFFFFFFFF, 0x0, 0x0, 0x0, 0x0, false⟩,
  ⟨0x4202C, 1, 0x4, 0x0, 0x0, 0xFFFFFFFF, 0x0, 0x0, 0x0, 0x0, false⟩,
  ⟨0x42030, 1, 0x4, 0x0, 0x0, 0x0, 0xFFFFFFFF, 0x0, 0x0, 0x0, false⟩,
  ⟨0x42034, 1, 0x4, 0x0, 0x0, 0xFFFFFFFF, 0x0, 0x0, 0x0, 0x0, false⟩,
  ⟨0x42038, 1, 0x4, 0x0, 0x0, 0x0, 0xFFFFFFFF, 0x0, 0x0, 0x0, false⟩,
  ⟨0x4203C, 1, 0x4, 0x0, 0x0, 0xFFFFFFFF, 0x0, 0x0, 0x0, 0x0, false⟩,
  ⟨0x42040, 1, 0x4, 0x0, 0x0, 0x0, 0xFFFFFFFF, 0x0, 0x0, 0x0, false⟩,
  ⟨0x44000, 512, 0x4, 0x0, 0x0, 0x0, 0x0, 0x0, 0xFFFFFFFF, 0x0, false⟩,
  ⟨0x46000, 1, 0x4, 0x0, 0x0, 0xFFFFFFFF, 0x0, 0x0, 0x0, 0x0, false⟩,
  ⟨0x46004, 1, 0x4, 0x0, 0x0, 0x0, 0xFFFFFFFF, 0x0, 0x0, 0x0, false⟩]
/-- The registers of the TUN_ window, part 3. -/
def tunRows3 : List RegRow := [
  ⟨0x46010, 1, 0x4, 0x3FF, 0x0, 0x0, 0x0, 0x0, 0x0, 0x0, false⟩,
  ⟨0x46014, 7, 0x4, 0x0, 0x0, 0xFFFFFFFF, 0x0, 0x0, 0x0, 0x0, false⟩,
  ⟨0x47000, 1024, 0x4, 0x0, 0x0, 0x0, 0x0, 0x0, 0xFFFF001F, 0xF, false⟩]

/-- The registers of the SEC_ window, part 1. -/
def secRows1 : List RegRow := [
  ⟨0x48000, 1, 0x4, 0x0, 0x3, 0x0, 0x0, 0x0, 0x0, 0x0, false⟩,
  ⟨0x48004, 1, 0x4, 0xFFFFFFFF, 0x0, 0x0, 0x0, 0x0, 0x0, 0x1000000, false⟩,
  ⟨0x48008, 1, 0x4, 0x7F, 0x0, 0x0, 0x0, 0x0, 0x0, 0x60, false⟩,
  ⟨0x4800C, 1, 0x4, 0x0, 0x0, 0x0, 0x0, 0x0, 0x7F1FFF, 0x0, false⟩,
  ⟨0x48010, 1, 0x4, 0x0, 0x0, 0x0, 0x0, 0x0, 0x7FFF, 0x0, false⟩,
  ⟨0x48020, 1, 0x4, 0x0, 0x0, 0xFFFFFFFF, 0x0, 0x0, 0x0, 0x0, false⟩,
  ⟨0x48024, 1, 0x4, 0x0, 0x0, 0xFFFFFFFF, 0x0, 0x0, 0x0, 0x0, false⟩,
  ⟨0x48028, 1, 0x4, 0x0, 0x0, 0x0, 0xFFFFFFFF, 0x0, 0x0, 0x0, false⟩,
  ⟨0x4802C, 1, 0x4, 0x0, 0x0, 0xFFFFFFFF, 0x0, 0x0, 0x0, 0x0, false⟩,
  ⟨0x48030, 1, 0x4, 0x0, 0x0, 0xFFFFFFFF, 0x0, 0x0, 0x0, 0x0, false⟩,
  ⟨0x48034, 1, 0x4, 0x0, 0x0, 0xFFFFFFFF, 0x0, 0x0, 0x0, 0x0, false⟩,
  ⟨0x48038, 1, 0x4, 0x0, 0x0, 0x0, 0xFFFFFFFF, 0x0, 0x0, 0x0, false⟩,
  ⟨0x4803C, 1, 0x4, 0x0, 0x0, 0xFFFFFFFF, 0x0, 0x0, 0x0, 0x0, false⟩,
  ⟨0x48040, 1, 0x4, 0x0, 0x0, 0xFFFFFFFF, 0x0, 0x0, 0x0, 0x0, false⟩,
  ⟨0x48044, 1, 0x4, 0x0, 0x0, 0x0, 0xFFFFFFFF, 0x0, 0x0, 0x0, false⟩,
  ⟨0x48048, 1, 0x4, 0x0, 0x0, 0xFFFFFFFF, 0x0, 0x0, 0x0, 0x0, false⟩]
/-- The registers of the SEC_ window, part 2. -/
def secRows2 : List RegRow := [
  ⟨0x4804C, 1, 0x4, 0x0, 0x0, 0xFFFFFFFF, 0x0, 0x0, 0x0, 0x0, false⟩,
  ⟨0x48050, 1, 0x4, 0x0, 0x0, 0xFFFFFFFF, 0x0, 0x0, 0x0, 0x0, false⟩,
  ⟨0x48054, 1, 0x4, 0x0, 0x0, 0xFFFFFFFF, 0x0, 0x0, 0x0, 0x0, false⟩,
  ⟨0x48058, 1, 0x4, 0x0, 0x0, 0x0, 0xFFFFFFFF, 0x0, 0x0, 0x0, false⟩,
  ⟨0x4805C, 1, 0x4, 0x0, 0x0, 0xFFFFFFFF, 0x0, 0x0, 0x0, 0x0, false⟩,
  ⟨0x48060, 1, 0x4, 0x0, 0x0, 0x0, 0xFFFFFFFF, 0x0, 0x0, 0x0, false⟩,
  ⟨0x48064, 1, 0x4, 0x0, 0x0, 0xFFFFFFFF, 0x0, 0x0, 0x0, 0x0, false⟩,
  ⟨0x48068, 1, 0x4, 0x0, 0x0, 0x0, 0x0, 0x0, 0xFFFF003F, 0x0, false⟩,
  ⟨0x48100, 1, 0x4, 0x3FFF, 0x0, 0x0, 0x0, 0x0, 0x0, 0x0, false⟩,
  ⟨0x48104, 1, 0x4, 0x0, 0x0, 0xFFFFFFFF, 0x0, 0x0, 0x0, 0x0, false⟩,
  ⟨0x48200, 1, 0x4, 0x3FF, 0x0, 0x0, 0x0, 0x0, 0x0, 0x0, false⟩,
  ⟨0x48204, 1, 0x4, 0x0, 0x0, 0x0, 0x0, 0x0, 0xFFFFFFFF, 0x0, false⟩,
  ⟨0x48208, 1, 0x4, 0x0, 0x0, 0x0, 0x0, 0x0, 0xFFFFFFFF, 0x0, false⟩,
  ⟨0x4820C, 1, 0x4, 0xFFFFFFFF, 0x0, 0x0, 0x0, 0x0, 0x0, 0x0, false⟩,
  ⟨0x48210, 1, 0x4, 0xFFFFFFFF, 0x0, 0x0, 0x0, 0x0, 0x0, 0x0, false⟩,
  ⟨0x48214, 1, 0x4, 0x0, 0x0, 0x0, 0x0, 0x1, 0x0, 0x0, false⟩]
/-- The registers of the SEC_ window, part 3. -/
def secRows3 : List RegRow := [
  ⟨0x48800, 64, 0x10, 0x807FFFFF, 0x0, 0x0, 0x0, 0x0, 0x0, 0x0, false⟩,
  ⟨0x48804, 64, 0x10, 0x3FFFFFF, 0x0, 0x0, 0x0, 0x0, 0x0, 0x0, false⟩,
  ⟨0x48808, 64, 0x10, 0xFFFFFFFF, 0x0, 0x0, 0x0, 0x0, 0x0, 0x0, false⟩,
  ⟨0x4880C, 64, 0x10, 0xFFF, 0x0, 0x0, 0x0, 0x0, 0x0, 0x0, false⟩,
  ⟨0x49000, 64, 0x40, 0x0, 0x0, 0x0, 0x0, 0x0, 0xFF7F, 0x0, false⟩,
  ⟨0x49004, 64, 0x40, 0x0, 0x0, 0x0, 0x0, 0x0, 0xFFFFFFFF, 0x0, false⟩,
  ⟨0x49008, 64, 0x40, 0x0, 0x0, 0x0, 0x0, 0x0, 0xFFFFFFFF, 0x0, false⟩,
  ⟨0x4900C, 64, 0x40, 0x0, 0x0, 0xFFFFFFFF, 0x0, 0x0, 0x0, 0x0, false⟩,
  ⟨0x49010, 64, 0x40, 0x0, 0x0, 0xFFFFFFFF, 0x0, 0x0, 0x0, 0x0, false⟩,
  ⟨0x49014, 64, 0x40, 0x0, 0x0, 0x0, 0xFFFFFFFF, 0x0, 0x0, 0x0, false⟩,
  ⟨0x49018, 64, 0x40, 0x0, 0x0, 0xFFFFFFFF, 0x0, 0x0, 0x0, 0x0, false⟩,
  ⟨0x4901C, 64, 0x40, 0x0, 0x0, 0xFFFFFFFF, 0x0, 0x0, 0x0, 0x0, false⟩,
  ⟨0x49020, 64, 0x40, 0x0, 0x0, 0x0, 0xFFFFFFFF, 0x0, 0x0, 0x0, false⟩,
  ⟨0x49024, 64, 0x40, 0x0, 0x0, 0xFFFFFFFF, 0x0, 0x0, 0x0, 0x0, false⟩,
  ⟨0x49028, 64, 0x40, 0x0, 0x0, 0xFFFFFFFF, 0x0, 0x0, 0x0, 0x0, false⟩,
  ⟨0x4902C, 64, 0x40, 0x0, 0x0, 0xFFFFFFFF, 0x0, 0x0, 0x0, 0x0, false⟩]
/-- The registers of the SEC_ window, part 4. -/
def secRows4 : List RegRow := [
  ⟨0x49030, 64, 0x40, 0x0, 0x0, 0xFFFFFFFF, 0x0, 0x0, 0x0, 0x0, false⟩,
  ⟨0x4C000, 1, 0x4, 0x0, 0x0, 0x0, 0x0, 0x0, 0x33FFF, 0x0, false⟩,
  ⟨0x4C004, 1, 0x4, 0x0, 0x0, 0x0, 0x0, 0x0, 0x1F0F, 0x0, false⟩,
  ⟨0x4C008, 1, 0x4, 0x0, 0x0, 0xFFFFFFFF, 0x0, 0x0, 0x0, 0x0, false⟩,
  ⟨0x4C00C, 1, 0x4, 0x0, 0x0, 0x0, 0xFFFFFFFF, 0x0, 0x0, 0x0, false⟩,
  ⟨0x4C010, 1, 0x4, 0x0, 0x0, 0x0, 0x0, 0x0, 0x7FF, 0x0, false⟩,
  ⟨0x4C014, 1, 0x4, 0x0, 0x0, 0x0, 0x0, 0x0, 0x7FF, 0x0, false⟩,
  ⟨0x4C020, 1, 0x4, 0x3FF, 0x0, 0x0, 0x0, 0x0, 0x0, 0x0, false⟩,
  ⟨0x4C024, 1, 0x4, 0x0, 0x0, 0x0, 0x0, 0x0, 0xFFFFFF, 0x0, false⟩,
  ⟨0x4C028, 1, 0x4, 0x0, 0x0, 0x0, 0x0, 0x0, 0x7FF, 0x0, false⟩,
  ⟨0x4C02C, 1, 0x4, 0x0, 0x0, 0x0, 0x0, 0x0, 0xFFFFFF, 0x0, false⟩]

/-- The registers of the TIM_ window, part 1. -/
def timRows1 : List RegRow := [
  ⟨0x50000, 1, 0x4, 0x0, 0x3, 0x0, 0x0, 0x0, 0x0, 0x1, false⟩,
  ⟨0x50004, 1, 0x4, 0x0, 0x0, 0x0, 0x0, 0x1, 0x0, 0x0, false⟩,
  ⟨0x50008, 1, 0x4, 0x0, 0x0, 0x0, 0x0, 0x0, 0xFFFFFFFF, 0x0, false⟩,
  ⟨0x5000C, 1, 0x4, 0x0, 0x0, 0x0, 0x0, 0x0, 0xFFFFFFFF, 0x0, false⟩,
  ⟨0x50010, 4, 0x4, 0x0, 0x0, 0x0, 0x0, 0x0, 0x3FFFFFFF, 0x0, false⟩,
  ⟨0x50020, 4, 0x4, 0x0, 0x0, 0x0, 0x0, 0x0, 0xFFFFFFFF, 0x0, false⟩,
  ⟨0x50030, 1, 0x4, 0x0, 0x0, 0xFFFFFFFF, 0x0, 0x0, 0x0, 0x0, false⟩,
  ⟨0x50100, 4, 0x40, 0x0, 0x0, 0x0, 0x0, 0x0, 0xFFFFFF7F, 0xFF00, false⟩,
  ⟨0x50104, 4, 0x40, 0x0, 0x0, 0x0, 0x0, 0x0, 0xFFFFFFFF, 0x0, false⟩,
  ⟨0x50108, 4, 0x40, 0x0, 0x0, 0x0, 0x0, 0x0, 0xFF, 0x2, false⟩,
  ⟨0x5010C, 4, 0x40, 0x0, 0x0, 0x0, 0x0, 0x0, 0xFFFF, 0x0, false⟩,
  ⟨0x50110, 4, 0x40, 0x0, 0x0, 0x0, 0x0, 0x0, 0xFFFFFFFF, 0x0, false⟩,
  ⟨0x50114, 4, 0x40, 0x0, 0x0, 0x0, 0x0, 0x0, 0xFFFFFFFF, 0x0, false⟩,
  ⟨0x50118, 4, 0x40, 0x0, 0x0, 0x0, 0x0, 0x0, 0xFFFFFFFF, 0x0, false⟩,
  ⟨0x5011C, 4, 0x40, 0x0, 0x0, 0xFFFFFFFF, 0x0, 0x0, 0x0, 0x0, false⟩,
  ⟨0x50120, 4, 0x40, 0x0, 0x0, 0x0, 0xFFFFFFFF, 0x0, 0x0, 0x0, false⟩]
/-- The registers of the TIM_ window, part 2. -/
def timRows2 : List RegRow := [
  ⟨0x50124, 4, 0x40, 0x0, 0x0, 0xFFFFFFFF, 0x0, 0x0, 0x0, 0x0, false⟩,
  ⟨0x50128, 4, 0x40, 0x0, 0x0, 0x0, 0xFFFFFFFF, 0x0, 0x0, 0x0, false⟩,
  ⟨0x51000, 64, 0x10, 0x3, 0x0, 0x0, 0x0, 0x0, 0x0, 0x0, false⟩,
  ⟨0x51004, 64, 0x10, 0xFFFFFFFF, 0x0, 0x0, 0x0, 0x0, 0x0, 0x0, false⟩,
  ⟨0x51008, 64, 0x10, 0x0, 0x0, 0x0, 0x0, 0x0, 0xFFFFFFFF, 0x0, false⟩]

/-- The registers of the PWR_ window, part 1. -/
def pwrRows1 : List RegRow := [
  ⟨0x58000, 1, 0x4, 0x0, 0x1, 0x0, 0x0, 0x0, 0x0, 0x1, false⟩,
  ⟨0x58004, 1, 0x4, 0x0, 0x0, 0x0, 0x0, 0x0, 0x1FF, 0x1C, false⟩,
  ⟨0x58008, 1, 0x4, 0x0, 0x0, 0x0, 0x0, 0x0, 0x1FF, 0x0, false⟩,
  ⟨0x5800C, 1, 0x4, 0x0, 0x0, 0x0, 0x0, 0x0, 0x7FF0F, 0x0, false⟩,
  ⟨0x58010, 1, 0x4, 0x0, 0x0, 0x0, 0x0, 0x0, 0xFFFFFFFF, 0x0, false⟩,
  ⟨0x58014, 1, 0x4, 0x0, 0x0, 0x0, 0x0, 0x0, 0xFFFFFFFF, 0x0, false⟩,
  ⟨0x58018, 1, 0x4, 0x0, 0x0, 0x0, 0x0, 0x0, 0xFFFFFFFF, 0x0, false⟩,
  ⟨0x5801C, 1, 0x4, 0x0, 0x0, 0xFFFFFFFF, 0x0, 0x0, 0x0, 0x0, false⟩,
  ⟨0x58020, 1, 0x4, 0x0, 0x0, 0xFFFFFFFF, 0x0, 0x0, 0x0, 0x0, false⟩,
  ⟨0x58024, 1, 0x4, 0x0, 0x0, 0xFFFFFFFF, 0x0, 0x0, 0x0, 0x0, false⟩,
  ⟨0x58028, 1, 0x4, 0x0, 0x0, 0xFFFFFFFF, 0x0, 0x0, 0x0, 0x0, false⟩,
  ⟨0x5802C, 1, 0x4, 0x0, 0x0, 0x0, 0xFFFFFFFF, 0x0, 0x0, 0x0, false⟩,
  ⟨0x58100, 8, 0x4, 0x0, 0x3E, 0x0, 0x0, 0x0, 0x0, 0x38, false⟩,
  ⟨0x58120, 1, 0x4, 0x0, 0x0, 0x0, 0x0, 0x0, 0xFF, 0x0, false⟩,
  ⟨0x58130, 1, 0x4, 0x0, 0x1F03FF, 0x0, 0x0, 0x0, 0x0, 0x50014, false⟩,
  ⟨0x58134, 1, 0x4, 0x0, 0x0, 0x0, 0x0, 0x0, 0x3, 0x0, false⟩]
/-- The registers of the PWR_ window, part 2. -/
def pwrRows2 : List RegRow := [
  ⟨0x58140, 1, 0x4, 0xFFFFFFFF, 0x0, 0x0, 0x0, 0x0, 0x0, 0x0, false⟩,
  ⟨0x58200, 8, 0x4, 0x0, 0x0, 0x0, 0x0, 0x0, 0xFFFFFFFF, 0x0, false⟩,
  ⟨0x58220, 1, 0x4, 0x0, 0x0, 0x0, 0x0, 0x0, 0xFFFFFFFF, 0x0, false⟩,
  ⟨0x58224, 1, 0x4, 0x0, 0x0, 0x0, 0x0, 0x0, 0xFFFFFFFF, 0x0, false⟩,
  ⟨0x58228, 1, 0x4, 0x0, 0x0, 0x0, 0x0, 0x0, 0xFFFFFFFF, 0x0, false⟩,
  ⟨0x5822C, 1, 0x4, 0x0, 0x0, 0x0, 0x0, 0x0, 0xFFFFFFFF, 0x0, false⟩,
  ⟨0x58230, 1, 0x4, 0x0, 0x0, 0x0, 0x0, 0x0, 0xFFFFFFFF, 0x0, false⟩,
  ⟨0x5C000, 1, 0x4, 0x0, 0x0, 0x0, 0x0, 0x0, 0x10707, 0x0, false⟩,
  ⟨0x5C004, 1, 0x4, 0x0, 0x0, 0x0, 0x0, 0x0, 0xFFFF, 0x0, false⟩,
  ⟨0x5C008, 1, 0x4, 0x0, 0x0, 0x0, 0x0, 0x0, 0xFFF, 0x0, false⟩,
  ⟨0x5C00C, 1, 0x4, 0x0, 0x0, 0x0, 0x0, 0x0, 0xFFFFFFFF, 0x0, false⟩,
  ⟨0x5C010, 1, 0x4, 0x0, 0x0, 0xFFFFFFFF, 0x0, 0x0, 0x0, 0x0, false⟩,
  ⟨0x5C014, 1, 0x4, 0x0, 0x0, 0xFFFFFFFF, 0x0, 0x0, 0x0, 0x0, false⟩,
  ⟨0x5C018, 1, 0x4, 0x0, 0x0, 0xFFFFFFFF, 0x0, 0x0, 0x0, 0x0, false⟩,
  ⟨0x5C01C, 1, 0x4, 0x0, 0x0, 0xFFFFFFFF, 0x0, 0x0, 0x0, 0x0, false⟩,
  ⟨0x5C020, 1, 0x4, 0x0, 0x0, 0x0, 0xFFFFFFFF, 0x0, 0x0, 0x0, false⟩]
/-- The registers of the PWR_ window, part 3. -/
def pwrRows3 : List RegRow := [
  ⟨0x5C024, 1, 0x4, 0x0, 0x0, 0x0, 0x0, 0x0, 0xFFFFFFFF, 0x0, false⟩,
  ⟨0x5C028, 1, 0x4, 0x0, 0x0, 0x0, 0x0, 0x0, 0xFFFFFFFF, 0x0, false⟩,
  ⟨0x5C02C, 1, 0x4, 0x0, 0x0, 0x0, 0x0, 0x0, 0xFFFFFFFF, 0x0, false⟩]

/-- The registers of the PAIR_ window, part 1. -/
def pairRows1 : List RegRow := [
  ⟨0x60000, 1, 0x4, 0x0, 0x1, 0x0, 0x0, 0x0, 0x0, 0x1, false⟩,
  ⟨0x60004, 1, 0x4, 0x0, 0x0, 0x0, 0x0, 0x0, 0xF77F, 0x0, false⟩,
  ⟨0x60008, 1, 0x4, 0x0, 0x0, 0x0, 0x0, 0x0, 0xFFFFFFFF, 0x0, false⟩,
  ⟨0x6000C, 1, 0x4, 0x0, 0x0, 0x0, 0x0, 0x0, 0xFFFFFFFF, 0x0, false⟩,
  ⟨0x60010, 1, 0x4, 0x0, 0x0, 0x0, 0x0, 0x0, 0xFFFFFFFF, 0x0, false⟩,
  ⟨0x60014, 1, 0x4, 0x0, 0x0, 0x0, 0x0, 0x0, 0xF0F, 0x0, false⟩,
  ⟨0x60020, 4, 0x4, 0x0, 0x0, 0x0, 0x0, 0x0, 0xFFFFFFFF, 0x0, false⟩,
  ⟨0x60040, 1, 0x4, 0x0, 0x0, 0xFFFFFFFF, 0x0, 0x0, 0x0, 0x0, false⟩,
  ⟨0x60044, 1, 0x4, 0x0, 0x0, 0xFFFFFFFF, 0x0, 0x0, 0x0, 0x0, false⟩,
  ⟨0x60048, 1, 0x4, 0x0, 0x0, 0x0, 0xFFFFFFFF, 0x0, 0x0, 0x0, false⟩,
  ⟨0x6004C, 1, 0x4, 0x0, 0x0, 0xFFFFFFFF, 0x0, 0x0, 0x0, 0x0, false⟩,
  ⟨0x60050, 1, 0x4, 0x0, 0x0, 0xFFFFFFFF, 0x0, 0x0, 0x0, 0x0, false⟩,
  ⟨0x60054, 1, 0x4, 0x0, 0x0, 0xFFFFFFFF, 0x0, 0x0, 0x0, 0x0, false⟩,
  ⟨0x60058, 1, 0x4, 0x0, 0x0, 0x0, 0xFFFFFFFF, 0x0, 0x0, 0x0, false⟩,
  ⟨0x6005C, 1, 0x4, 0x0, 0x0, 0xFFFFFFFF, 0x0, 0x0, 0x0, 0x0, false⟩,
  ⟨0x60060, 1, 0x4, 0x0, 0x0, 0xFFFFFFFF, 0x0, 0x0, 0x0, 0x0, false⟩]
/-- The registers of the PAIR_ window, part 2. -/
def pairRows2 : List RegRow := [
  ⟨0x60064, 1, 0x4, 0x0, 0x0, 0xFFFFFFFF, 0x0, 0x0, 0x0, 0x0, false⟩]

/-- The registers of the FNC_ window, part 1. -/
def fncRows1 : List RegRow := [
  ⟨0x68000, 1, 0x4, 0x0, 0x1, 0x0, 0x0, 0x0, 0x0, 0x1, false⟩,
  ⟨0x68004, 1, 0x4, 0x0, 0x1FFFFFE, 0x0, 0x0, 0x0, 0x0, 0x0, false⟩,
  ⟨0x68008, 1, 0x4, 0x0, 0x0, 0x0, 0x0, 0x0, 0x1FFFFFF, 0x0, false⟩,
  ⟨0x6800C, 1, 0x4, 0x0, 0x0, 0x0, 0x0, 0x0, 0x1FFFFFF, 0x0, false⟩,
  ⟨0x68010, 1, 0x4, 0x0, 0x0, 0x0, 0x0, 0x0, 0x1FFFFFF, 0x0, false⟩,
  ⟨0x68014, 1, 0x4, 0x0, 0x0, 0x0, 0x0, 0x0, 0x1FFFFFF, 0x0, false⟩,
  ⟨0x68018, 1, 0x4, 0x0, 0x0, 0x0, 0x0, 0x0, 0x7FF00FF, 0xFF, false⟩,
  ⟨0x6801C, 1, 0x4, 0x0, 0x0, 0x0, 0x0, 0x0, 0xFFFFFF, 0x0, false⟩,
  ⟨0x68020, 1, 0x4, 0x0, 0x0, 0xFFFFFFFF, 0x0, 0x0, 0x0, 0x0, false⟩,
  ⟨0x68024, 1, 0x4, 0x0, 0x0, 0x0, 0xFFFFFFFF, 0x0, 0x0, 0x0, false⟩,
  ⟨0x68028, 1, 0x4, 0x0, 0x0, 0xFFFFFFFF, 0x0, 0x0, 0x0, 0x0, false⟩,
  ⟨0x6802C, 1, 0x4, 0x0, 0x0, 0x0, 0xFFFFFFFF, 0x0, 0x0, 0x0, false⟩,
  ⟨0x68030, 1, 0x4, 0x0, 0x0, 0xFFFFFFFF, 0x0, 0x0, 0x0, 0x0, false⟩,
  ⟨0x68034, 1, 0x4, 0x0, 0x0, 0xFFFFFFFF, 0x0, 0x0, 0x0, 0x0, false⟩]

/-- The registers of the BOOT_ window, part 1. -/
def bootRows1 : List RegRow := [
  ⟨0x70000, 1, 0x4, 0x0, 0x3FFFFFF, 0x0, 0x0, 0x0, 0x0, 0x3FF003C, false⟩,
  ⟨0x70004, 1, 0x4, 0x0, 0x0, 0x0, 0x0, 0x0, 0xFFF, 0x0, false⟩,
  ⟨0x70008, 1, 0x4, 0x0, 0x0, 0x0, 0x0, 0x0, 0x337, 0x0, false⟩,
  ⟨0x7000C, 1, 0x4, 0x0, 0x0, 0x0, 0x0, 0x0, 0xFF, 0xFF, false⟩,
  ⟨0x70010, 1, 0x4, 0x0, 0x0, 0x0, 0x0, 0x0, 0xFFFFFFFF, 0x0, false⟩,
  ⟨0x70014, 1, 0x4, 0x0, 0x0, 0x0, 0x0, 0x0, 0xFFFFFFFF, 0x0, false⟩,
  ⟨0x70018, 1, 0x4, 0x0, 0x0, 0x0, 0x0, 0x0, 0x1FF, 0x0, false⟩,
  ⟨0x7001C, 1, 0x4, 0x0, 0x0, 0x0, 0x0, 0x0, 0xFF, 0x0, false⟩,
  ⟨0x70020, 1, 0x4, 0x0, 0x0, 0x0, 0x0, 0x0, 0xFFFFFFFF, 0x0, false⟩,
  ⟨0x70024, 1, 0x4, 0x0, 0x0, 0x0, 0x0, 0x0, 0xFFF000F, 0x0, false⟩,
  ⟨0x70028, 1, 0x4, 0x0, 0x0, 0x0, 0x0, 0x0, 0xFFFFFFFF, 0x0, false⟩,
  ⟨0x7002C, 1, 0x4, 0x0, 0x0, 0x0, 0x0, 0x0, 0xFFFF, 0x0, false⟩,
  ⟨0x70040, 1, 0x4, 0x0, 0x0, 0xFFFFFFFF, 0x0, 0x0, 0x0, 0x0, false⟩,
  ⟨0x70044, 1, 0x4, 0x0, 0x0, 0x0, 0xFFFFFFFF, 0x0, 0x0, 0x0, false⟩,
  ⟨0x70048, 1, 0x4, 0x0, 0x0, 0xFFFFFFFF, 0x0, 0x0, 0x0, 0x0, false⟩,
  ⟨0x7004C, 1, 0x4, 0x0, 0x0, 0x0, 0xFFFFFFFF, 0x0, 0x0, 0x0, false⟩]
/-- The registers of the BOOT_ window, part 2. -/
def bootRows2 : List RegRow := [
  ⟨0x70050, 1, 0x4, 0x0, 0x0, 0xFFFFFFFF, 0x0, 0x0, 0x0, 0x0, false⟩]

/-- The registers of the STAT_ window, part 1. -/
def statRows1 : List RegRow := [
  ⟨0x78000, 65, 0x100, 0x0, 0x0, 0xFFFFFFFF, 0x0, 0x0, 0x0, 0x0, true⟩,
  ⟨0x78004, 65, 0x100, 0x0, 0x0, 0xFFFF, 0x0, 0x0, 0x0, 0x0, false⟩,
  ⟨0x78008, 65, 0x100, 0x0, 0x0, 0xFFFFFFFF, 0x0, 0x0, 0x0, 0x0, true⟩,
  ⟨0x7800C, 65, 0x100, 0x0, 0x0, 0xFFFF, 0x0, 0x0, 0x0, 0x0, false⟩,
  ⟨0x78010, 65, 0x100, 0x0, 0x0, 0xFFFFFFFF, 0x0, 0x0, 0x0, 0x0, false⟩,
  ⟨0x78014, 65, 0x100, 0x0, 0x0, 0xFFFFFFFF, 0x0, 0x0, 0x0, 0x0, false⟩,
  ⟨0x78018, 65, 0x100, 0x0, 0x0, 0xFFFFFFFF, 0x0, 0x0, 0x0, 0x0, false⟩,
  ⟨0x7801C, 65, 0x100, 0x0, 0x0, 0xFFFFFFFF, 0x0, 0x0, 0x0, 0x0, false⟩,
  ⟨0x78020, 65, 0x100, 0x0, 0x0, 0xFFFFFFFF, 0x0, 0x0, 0x0, 0x0, false⟩,
  ⟨0x78024, 65, 0x100, 0x0, 0x0, 0xFFFFFFFF, 0x0, 0x0, 0x0, 0x0, false⟩,
  ⟨0x78028, 65, 0x100, 0x0, 0x0, 0xFFFFFFFF, 0x0, 0x0, 0x0, 0x0, false⟩,
  ⟨0x7802C, 65, 0x100, 0x0, 0x0, 0xFFFFFFFF, 0x0, 0x0, 0x0, 0x0, false⟩,
  ⟨0x78030, 65, 0x100, 0x0, 0x0, 0xFFFFFFFF, 0x0, 0x0, 0x0, 0x0, false⟩,
  ⟨0x78034, 65, 0x100, 0x0, 0x0, 0xFFFFFFFF, 0x0, 0x0, 0x0, 0x0, false⟩,
  ⟨0x78038, 65, 0x100, 0x0, 0x0, 0xFFFFFFFF, 0x0, 0x0, 0x0, 0x0, false⟩,
  ⟨0x7803C, 65, 0x100, 0x0, 0x0, 0xFFFFFFFF, 0x0, 0x0, 0x0, 0x0, false⟩]
/-- The registers of the STAT_ window, part 2. -/
def statRows2 : List RegRow := [
  ⟨0x78040, 65, 0x100, 0x0, 0x0, 0xFFFFFFFF, 0x0, 0x0, 0x0, 0x0, false⟩,
  ⟨0x78044, 65, 0x100, 0x0, 0x0, 0xFFFFFFFF, 0x0, 0x0, 0x0, 0x0, false⟩,
  ⟨0x78048, 65, 0x100, 0x0, 0x0, 0xFFFFFFFF, 0x0, 0x0, 0x0, 0x0, false⟩,
  ⟨0x7804C, 65, 0x100, 0x0, 0x0, 0xFFFFFFFF, 0x0, 0x0, 0x0, 0x0, false⟩,
  ⟨0x78050, 65, 0x100, 0x0, 0x0, 0xFFFFFFFF, 0x0, 0x0, 0x0, 0x0, false⟩,
  ⟨0x78054, 65, 0x100, 0x0, 0x0, 0xFFFFFFFF, 0x0, 0x0, 0x0, 0x0, false⟩,
  ⟨0x78058, 65, 0x100, 0x0, 0x0, 0xFFFFFFFF, 0x0, 0x0, 0x0, 0x0, false⟩,
  ⟨0x7805C, 65, 0x100, 0x0, 0x0, 0xFFFFFFFF, 0x0, 0x0, 0x0, 0x0, false⟩,
  ⟨0x78080, 65, 0x100, 0x0, 0x0, 0xFFFFFFFF, 0x0, 0x0, 0x0, 0x0, true⟩,
  ⟨0x78084, 65, 0x100, 0x0, 0x0, 0xFFFF, 0x0, 0x0, 0x0, 0x0, false⟩,
  ⟨0x78088, 65, 0x100, 0x0, 0x0, 0xFFFFFFFF, 0x0, 0x0, 0x0, 0x0, false⟩,
  ⟨0x7808C, 65, 0x100, 0x0, 0x0, 0xFFFFFFFF, 0x0, 0x0, 0x0, 0x0, false⟩,
  ⟨0x78090, 65, 0x100, 0x0, 0x0, 0xFFFFFFFF, 0x0, 0x0, 0x0, 0x0, false⟩,
  ⟨0x78094, 65, 0x100, 0x0, 0x0, 0xFFFFFFFF, 0x0, 0x0, 0x0, 0x0, false⟩,
  ⟨0x78098, 65, 0x100, 0x0, 0x0, 0xFFFFFFFF, 0x0, 0x0, 0x0, 0x0, false⟩,
  ⟨0x7809C, 65, 0x100, 0x0, 0x0, 0xFFFFFFFF, 0x0, 0x0, 0x0, 0x0, false⟩]
/-- The registers of the STAT_ window, part 3. -/
def statRows3 : List RegRow := [
  ⟨0x780A0, 65, 0x100, 0x0, 0x0, 0xFFFFFFFF, 0x0, 0x0, 0x0, 0x0, false⟩,
  ⟨0x780A4, 65, 0x100, 0x0, 0x0, 0xFFFFFFFF, 0x0, 0x0, 0x0, 0x0, false⟩,
  ⟨0x780A8, 65, 0x100, 0x0, 0x0, 0xFFFFFFFF, 0x0, 0x0, 0x0, 0x0, false⟩,
  ⟨0x780AC, 65, 0x100, 0x0, 0x0, 0xFFFFFFFF, 0x0, 0x0, 0x0, 0x0, false⟩,
  ⟨0x780B0, 65, 0x100, 0x0, 0x0, 0xFFFFFFFF, 0x0, 0x0, 0x0, 0x0, false⟩,
  ⟨0x780B4, 65, 0x100, 0x0, 0x0, 0xFFFFFFFF, 0x0, 0x0, 0x0, 0x0, false⟩,
  ⟨0x780B8, 65, 0x100, 0x0, 0x0, 0xFFFFFFFF, 0x0, 0x0, 0x0, 0x0, false⟩,
  ⟨0x780BC, 65, 0x100, 0x0, 0x0, 0xFFFFFFFF, 0x0, 0x0, 0x0, 0x0, false⟩,
  ⟨0x780C0, 65, 0x100, 0x0, 0x0, 0xFFFFFFFF, 0x0, 0x0, 0x0, 0x0, false⟩,
  ⟨0x780C4, 65, 0x100, 0x0, 0x0, 0xFFFFFFFF, 0x0, 0x0, 0x0, 0x0, false⟩]

/-- The registers of each 32 KiB window, in the order of R49. -/
def winRows (w : Nat) : List RegRow :=
  match w with
  | 0 => devRows1
  | 1 => hifRows1 ++ hifRows2
  | 2 => mbxRows1 ++ mbxRows2 ++ mbxRows3
  | 3 => calRows1 ++ calRows2
  | 4 => fwdRows1 ++ fwdRows2 ++ fwdRows3 ++ fwdRows4
  | 5 => bufRows1 ++ bufRows2 ++ bufRows3
  | 6 => trfRows1 ++ trfRows2
  | 7 => edgRows1 ++ edgRows2 ++ edgRows3
  | 8 => tunRows1 ++ tunRows2 ++ tunRows3
  | 9 => secRows1 ++ secRows2 ++ secRows3 ++ secRows4
  | 10 => timRows1 ++ timRows2
  | 11 => pwrRows1 ++ pwrRows2 ++ pwrRows3
  | 12 => pairRows1 ++ pairRows2
  | 13 => fncRows1
  | 14 => bootRows1 ++ bootRows2
  | 15 => statRows1 ++ statRows2 ++ statRows3
  | _ => []

/-- Whether a row holds the register at an offset. -/
def RegRow.holds (r : RegRow) (off : Nat) : Bool :=
  r.base ≤ off && (off - r.base) % r.stride == 0 && (off - r.base) / r.stride < r.count

/-- The row of the register at a BAR0 offset; none for a reserved address (R6). -/
def regRow (off : Nat) : Option RegRow :=
  if off % 4 = 0 then (winRows (off / 0x8000)).find? (·.holds off) else none

/-- The reset value of the register at an offset. -/
def regReset (off : Nat) : Word :=
  match regRow off with
  | some r => BitVec.ofNat 32 r.reset
  | none => 0

end Sys2Proof.Machine
end

