-- ==== Sys2Proof/Machine/Ops.lean ====
section
/-! DEFINITION.
The shared operations of the block: keyed tables, the register file, device-side memory,
the fence tree, counters, events, interrupt messages and time. -/

namespace Sys2Proof.Machine

/-! ### Bits, bytes and keyed tables -/

/-- Bits [lo + n - 1 : lo] of a number. -/
def bits (v lo n : Nat) : Nat := v / 2 ^ lo % 2 ^ n

/-- Bit `i` of a number. -/
def bit (v i : Nat) : Bool := v / 2 ^ i % 2 == 1

/-- A number with bits [lo + n - 1 : lo] replaced. -/
def setBits (v lo n x : Nat) : Nat :=
  v - bits v lo n * 2 ^ lo + x % 2 ^ n * 2 ^ lo

/-- A truth value as a bit. -/
def b2n (b : Bool) : Nat := if b then 1 else 0

/-- Ceiling of a quotient. -/
def ceilDiv (a b : Nat) : Nat := (a + b - 1) / b

/-- Put an item into a list ordered by a key, ahead of the items with an equal key. -/
def insertOn {α : Type} (key : α → Nat) (x : α) : List α → List α
  | [] => [x]
  | y :: r => if key x ≤ key y then x :: y :: r else y :: insertOn key x r

/-- A list ordered by a key; items with equal keys keep their order. -/
def sortOn {α : Type} (key : α → Nat) (l : List α) : List α := l.foldr (insertOn key) []

/-- The `n` bytes of a number, low byte first (R3). -/
def leBytes (n v : Nat) : List Byte :=
  (List.range n).map fun i => BitVec.ofNat 8 (v / 256 ^ i)

/-- A number from its bytes, low byte first. -/
def leNat : List Byte → Nat
  | [] => 0
  | b :: t => b.toNat + 256 * leNat t

/-- A number from its bytes, high byte first. -/
def beNat (l : List Byte) : Nat := leNat l.reverse

/-- The `n` bytes of a number, high byte first. -/
def beBytes (n v : Nat) : List Byte := (leBytes n v).reverse

/-- A list cut or zero-padded to `n` bytes. -/
def fit (n : Nat) (l : List Byte) : List Byte := (l ++ List.replicate n 0).take n

/-- A signed number from `n` bits. -/
def toSigned (n v : Nat) : Int := if v % 2 ^ n < 2 ^ (n - 1) then (v % 2 ^ n : Nat) else (v % 2 ^ n : Nat) - (2 ^ n : Nat)

/-- The low `n` bits of a signed number, two's complement. -/
def ofSigned (n : Nat) (i : Int) : Nat := (i % (2 ^ n : Nat)).toNat

/-- A number saturated to a signed field of `n` bits. -/
def satSigned (n : Nat) (i : Int) : Int :=
  max (-(2 ^ (n - 1) : Nat)) (min ((2 ^ (n - 1) : Nat) - 1) i)

/-- The entry of a table at a key. -/
def aget {α : Type} (t : List (Nat × α)) (k : Nat) : Option α :=
  match t with
  | [] => none
  | (j, v) :: r => if j = k then some v else aget r k

/-- The entry of a table at a key, or its default. -/
def agetD {α : Type} (t : List (Nat × α)) (k : Nat) (d : α) : α := (aget t k).getD d

/-- A table with the entry at a key set. -/
def aset {α : Type} (t : List (Nat × α)) (k : Nat) (v : α) : List (Nat × α) :=
  match t with
  | [] => [(k, v)]
  | (j, w) :: r =>
    if k < j then (k, v) :: (j, w) :: r
    else if k = j then (k, v) :: r
    else (j, w) :: aset r k v

/-- A table without the entry at a key. -/
def adel {α : Type} (t : List (Nat × α)) (k : Nat) : List (Nat × α) := t.filter (·.1 ≠ k)

/-- A table with the entry at a key changed, from its default where it has none. -/
def amod {α : Type} (t : List (Nat × α)) (k : Nat) (d : α) (f : α → α) : List (Nat × α) :=
  aset t k (f (agetD t k d))

/-! ### The register file -/

namespace State

/-- The value held for a register. -/
def rget (s : State) (off : Nat) : Word := agetD s.regs off (regReset off)

/-- Hold a value for a register. -/
def rset (s : State) (off : Nat) (v : Word) : State :=
  { s with regs := if v = regReset off then adel s.regs off else aset s.regs off v }

/-- A field of a register. -/
def rfld (s : State) (off lo n : Nat) : Nat := bits (s.rget off).toNat lo n

/-- Set a field of a register. -/
def rsetF (s : State) (off lo n x : Nat) : State :=
  s.rset off (BitVec.ofNat 32 (setBits (s.rget off).toNat lo n x))

/-- A 64-bit value held in two registers, low word first. -/
def rget64 (s : State) (lo : Nat) : Nat := (s.rget lo).toNat + 2 ^ 32 * (s.rget (lo + 4)).toNat

/-- Set two registers, low word first, from one 64-bit value. -/
def rset64 (s : State) (lo v : Nat) : State :=
  (s.rset lo (BitVec.ofNat 32 v)).rset (lo + 4) (BitVec.ofNat 32 (v / 2 ^ 32))

/-! ### Device-side memory -/

/-- One byte of device-side memory. -/
def mget (s : State) (a : Nat) : Byte := agetD s.mem a 0

/-- Store one byte of device-side memory. -/
def mset (s : State) (a : Nat) (b : Byte) : State :=
  { s with mem := if b = 0 then adel s.mem a else aset s.mem a b }

/-- Store bytes at rising addresses. -/
def mwrite (s : State) (a : Nat) : List Byte → State
  | [] => s
  | b :: t => (s.mset a b).mwrite (a + 1) t

/-- Bytes at rising addresses. -/
def mread (s : State) (a n : Nat) : List Byte := (List.range n).map fun i => s.mget (a + i)

/-- Record an output. -/
def emit (s : State) (o : Output) : State := { s with out := s.out ++ [o] }

/-- A free value, and the state whose next one differs (log entry 1). -/
def free (s : State) : Nat × State :=
  ((Config.freeValue s.freeCtr).toNat, { s with freeCtr := s.freeCtr + 1 })

end State

/-! ### The fence tree (R519, R520) -/

/-- The parent of a domain or unit. -/
def parentOf (d : Nat) : Option Nat :=
  if d = 0 then none
  else if d ≤ 4 then some 0
  else if d ≤ 12 then some 3
  else if d ≤ 24 then some 4
  else
    let i := d % 0x1000
    let group (p : Nat) : Nat :=
      if p < 8 then 20 else if p < 24 then 21 else if p < 48 then 22 else if p < 64 then 23 else 24
    match d / 0x1000 with
    | 1 => some (if 48 ≤ i ∧ i < 64 then 17 else group i)
    | 2 => some 17
    | 3 => some 18
    | 4 => some 18
    | 5 => some (group (i % 128))
    | 6 => some 10
    | _ => none

/-- Whether an identifier names a domain or unit (R519, R520). -/
def domainExists (d : Nat) : Bool :=
  d ≤ 24 ||
    (let i := d % 0x1000
     match d / 0x1000 with
     | 1 => i ≤ 64
     | 2 => i < 96
     | 3 => i < 512
     | 4 => i < 1024
     | 5 => i < 256 && i % 128 < 64
     | 6 => i == 0
     | _ => false)

/-- The level of a domain or unit. -/
def levelOf (d : Nat) : Nat := if d = 0 then 0 else if d ≤ 4 then 1 else if d ≤ 24 then 2 else 3

/-- A domain or unit with its ancestors. -/
def lineage (d : Nat) : List Nat :=
  d :: (match parentOf d with
    | none => []
    | some p => p :: (match parentOf p with
      | none => []
      | some q => q :: (parentOf q).toList))

/-- The proper ancestors of a domain or unit. -/
def ancestors (d : Nat) : List Nat := (lineage d).tail

namespace FenceState

/-- Whether a domain in this state is isolated (R524 to R527). -/
def isolated : FenceState → Bool
  | .quenched | .recovering | .stuck => true
  | .running | .probation => false

end FenceState

namespace State

/-- What the fence controller holds of a domain. -/
def fdom (s : State) (d : Nat) : FDomain := agetD s.fnc.doms d {}

/-- FW_VERSION of the running image: 0 in recovery mode (R81, R121). -/
def fwVersion (s : State) : Nat := if s.boot.mode = 2 then 0 else s.boot.fwVer

/-- Whether a domain is quenched, itself or with an ancestor (R524). -/
def quenched (s : State) (d : Nat) : Bool := (lineage d).any fun a => (s.fdom a).state.isolated

end State

/-- The fence units of a port, of a CAN or LIN channel, of a tunnel channel, of an E2E
context and of a MACsec engine (R520). -/
def portUnit (p : Nat) : Nat := 0x1000 + p
def busUnit (c : Nat) : Nat := 0x2000 + c
def tunUnit (c : Nat) : Nat := 0x3000 + c
def e2eUnit (c : Nat) : Nat := 0x4000 + c
def macsecUnit (p : Nat) (egress : Bool) : Nat := 0x5000 + p + if egress then 128 else 0

namespace State

/-- The fault domain that owns the register at an offset (R521 code 3). -/
def ownerOf (off : Nat) : Nat :=
  match off / 0x8000 with
  | 0 => 3
  | 1 => 9
  | 2 => 9
  | 3 => 16
  | 4 => 13
  | 5 =>
    if 0x28400 ≤ off ∧ off < 0x28400 + 65 * 0x20 then portUnit ((off - 0x28400) / 0x20)
    else if 0x29000 ≤ off ∧ off < 0x29000 + 512 * 4 then portUnit ((off - 0x29000) / 32)
    else if 0x2A000 ≤ off ∧ off < 0x2A000 + 512 * 4 then portUnit ((off - 0x2A000) / 32)
    else 15
  | 6 => 15
  | 7 => 17
  | 8 => 18
  | 9 => if off < 0x4C000 then 19 else 12
  | 10 => if 0x51000 ≤ off then portUnit ((off - 0x51000) / 0x10) else 11
  | 11 => 1
  | 12 => 24
  | 13 => 2
  | 14 => 3
  | _ => (parentOf (portUnit ((off - 0x78000) / 0x100))).getD 4

/-- The domains whose quench refuses a write to the register at an offset (R524, R592). -/
def writeDomains (off : Nat) : List Nat :=
  if off / 0x8000 = 4 then (if 0x24100 ≤ off then [13 + off / 0x40 % 2] else [13, 14]) else if off / 0x8000 = 13 then [] else [ownerOf off]

/-- Whether the counter at an offset stands still (R524, R592). The counters of the FNC_
window never stop. -/
def stopped (s : State) (off : Nat) : Bool :=
  if off / 0x8000 = 13 then false
  else if off / 0x8000 = 4 then
    if 0x24100 ≤ off then s.quenched (if off / 0x40 % 2 = 0 then 13 else 14)
    else s.quenched 13 && s.quenched 14
  else s.quenched (ownerOf off)

/-! ### Interrupt messages (R40, R41) -/

/-- Whether the device may write main-host memory (R41, R109). -/
def canDma (s : State) : Bool :=
  s.hif.bme && s.rfld Reg.hifHostCtrl 0 1 == 1 && !s.quenched 9

/-- The parts of `n` bytes in requests of at most `m`: where each begins, and its length. -/
def spans (m n : Nat) : List (Nat × Nat) := (List.range (ceilDiv n m)).map fun i => (m * i, min m (n - m * i))

/-- The largest write request (R36). -/
def maxPayload (s : State) : Nat := max 1 (min s.hif.fn.maxPayload s.hif.fn.maxPayloadCap)

/-- Write bytes to main-host memory, in requests of at most the Max Payload Size (R36). -/
def hostOut (s : State) (a : Nat) (b : List Byte) : State :=
  (spans s.maxPayload b.length).foldl (fun s x => s.emit (.hostWrite (a + x.1) ((b.drop x.1).take x.2) {})) s

/-- Read bytes of main-host memory, in requests of at most the Max Read Request Size (R36). -/
def hostIn (s : State) (a n : Nat) : State :=
  (spans (max 1 s.hif.fn.maxReadRequest) n).foldl (fun s x => s.emit (.hostRead (a + x.1) x.2 {})) s

/-- A write of the queue or ring of a vector to main-host memory: while the memory cannot be
written it waits (R41, R65). -/
def hostMem (s : State) (vec a : Nat) (b : List Byte) : State :=
  if s.canDma then s.hostOut a b else { s with hif := { s.hif with held := s.hif.held ++ [(vec, a, b)] } }

/-- The writes that waited go out, oldest first. -/
def hostFlush (s : State) : State :=
  s.hif.held.foldl (fun s x => s.hostOut x.2.1 x.2.2) { s with hif := { s.hif with held := [] } }

/-- The queue or ring of a vector is disabled: its writes that wait are not made any more. -/
def heldDrop (s : State) (vec : Nat) : State :=
  { s with hif := { s.hif with held := s.hif.held.filter (·.1 ≠ vec) } }

/-- Whether a vector is masked in the MSI-X table or by the function mask. -/
def vecMasked (s : State) (v : Nat) : Bool :=
  s.hif.funcMask || !s.hif.msixEn || (agetD s.hif.msix v {}).masked

/-- The holdoff spacing in ns. -/
def holdoff (s : State) : Nat := 1000 * s.rfld Reg.hifIrqHoldoff 0 10

/-- The spacing after a vector's last message has passed. -/
def spaced (s : State) (v : Nat) : Bool :=
  match aget s.hif.lastMsg v with
  | none => true
  | some t => t + s.holdoff ≤ s.clk

/-- Send a vector's message now. -/
def sendMsix (s : State) (v : Nat) : State :=
  { s.emit (.msix v) with hif := { s.hif with
      lastMsg := aset s.hif.lastMsg v s.clk
      pba := s.hif.pba.filter (· ≠ v)
      heldOff := s.hif.heldOff.filter (· ≠ v) } }

/-- A source of a vector has gained an entry (R41). -/
def signal (s : State) (v : Nat) : State :=
  if !s.canDma || s.vecMasked v then
    { s with hif := { s.hif with pba := v :: s.hif.pba.filter (· ≠ v) } }
  else if s.spaced v then s.sendMsix v
  else { s with hif := { s.hif with heldOff := v :: s.hif.heldOff.filter (· ≠ v) } }

/-! ### Events (R62 to R65) -/

/-- PHASE of count `k` in a queue of `n` slots (R64). -/
def phase (k n : Nat) : Nat := if k / n % 2 = 0 then 1 else 0

/-- The 16 bytes of an event record (R63). -/
def evBytes (code ph sev unit arg time : Nat) : List Byte :=
  leBytes 2 code ++ leBytes 1 (ph + 2 * sev) ++ leBytes 1 unit ++ leBytes 4 arg ++ leBytes 8 time

/-- Slots of host `h`'s event queue. -/
def evqSize (s : State) (h : Nat) : Nat := 2 ^ s.rfld (Reg.evqCfg h) 8 5

/-- Records in host `h`'s event queue that it has not consumed. -/
def evqFill (s : State) (h : Nat) : Nat :=
  (s.rget (Reg.evqProd h) - s.rget (Reg.evqCons h)).toNat

/-- Whether host `h`'s event queue takes records: it is enabled, and the host domain runs (R53,
R65). -/
def evqTakes (s : State) (h : Nat) : Bool := s.rfld (Reg.evqCfg h) 0 1 == 1 && !s.quenched 9

/-- Write the next record of host `h`'s event queue, and signal it. -/
def evqWrite (s : State) (h code sev unit arg : Nat) : State :=
  let k := (s.rget (Reg.evqProd h)).toNat
  let n := s.evqSize h
  let rec_ := evBytes code (phase k n) sev unit arg s.clk
  let s := s.rset (Reg.evqProd h) (s.rget (Reg.evqProd h) + 1)
  if h = 0 then
    let s := s.hostMem 0 (s.rget64 (Reg.evqBaseLo 0) + 16 * (k % n)) rec_
    if s.rfld (Reg.evqCfg 0) 1 1 = 1 then s.signal 0 else s
  else s.mwrite (0x02010000 + 16 * (k % n)) rec_

/-- Write the held-back `EV_GAP` once a slot is free (R65). -/
def evqGap (s : State) (h : Nat) : State :=
  let lost := agetD s.hif.evqLost h 0
  if s.evqTakes h && 0 < lost && s.evqFill h < s.evqSize h then
    let s := s.evqWrite h 0x1001 (Config.severity 0x1001).toNat 0 (lost % 2 ^ 32)
    { s with hif := { s.hif with evqLost := adel s.hif.evqLost h } }
  else s

/-- Offer an event to host `h`'s queue (R65). -/
def evqPut (s : State) (h code sev unit arg : Nat) : State :=
  let lost := agetD s.hif.evqLost h 0
  let s' :=
    if !s.evqTakes h || 0 < lost || s.evqSize h - 1 ≤ s.evqFill h then
      let s := { s with hif := { s.hif with evqLost := aset s.hif.evqLost h (lost + 1) } }
      if s.stopped (Reg.evqLostCnt h) then s
      else s.rset (Reg.evqLostCnt h) (s.rget (Reg.evqLostCnt h) + 1)
    else s.evqWrite h code sev unit arg
  s'.evqGap h

/-- Offer an event to both hosts' queues. -/
def evBoth (s : State) (code sev unit arg : Nat) : State :=
  (s.evqPut 0 code sev unit arg).evqPut 1 code sev unit arg

/-- A 32-bit count that went from `a` to `b` crossed its top-bit boundary (R12). -/
def crossed (a b : Word) : Bool := a.msb != b.msb

/-- The hosts whose count of lost events crossed its boundary from one state to another. -/
def lostCrossed (s t : State) : List Nat :=
  [0, 1].filter fun h => crossed (s.rget (Reg.evqLostCnt h)) (t.rget (Reg.evqLostCnt h))

/-- `EV_COUNTER_HALF` for every count of lost events that crossed from `s` to `t` (R12, R83).
The record may be lost in its turn and drive the other host's count across its boundary: one
round more covers that. -/
def lostHalf : Nat → State → State → State
  | 0, _, t => t
  | n + 1, s, t => (lostCrossed s t).foldl (fun u h =>
      lostHalf n u (u.evBoth 0xF001 (Config.severity 0xF001).toNat 0 (Reg.evqLostCnt h))) t

/-- Raise an event of a stated severity in every host event queue; a count of lost
events that crosses its boundary by it raises `EV_COUNTER_HALF` in its turn (R83). -/
def raiseSev (s : State) (code sev unit arg : Nat) : State := lostHalf 2 s (s.evBoth code sev unit arg)

/-- Raise an event whose severity the spec does not state. -/
def raise (s : State) (code arg : Nat) : State :=
  s.raiseSev code (Config.severity code).toNat 0 (arg % 2 ^ 32)

/-- Raise an event, unless the last one of its kind lies less than `period` ns back. -/
def raiseLimited (s : State) (last : Option Nat) (period code arg : Nat) : State × Option Nat :=
  match last with
  | some t => if s.clk < t + period then (s, last) else (s.raise code arg, some s.clk)
  | none => (s.raise code arg, some s.clk)

/-! ### Counters (R9, R11, R12, R83) -/

/-- Advance a 32-bit counter by `n`. -/
def bumpBy (s : State) (off n : Nat) : State :=
  if s.stopped off then s
  else
    let a := s.rget off
    let b := a + BitVec.ofNat 32 n
    let s := s.rset off b
    if crossed a b then s.raiseSev 0xF001 (Config.severity 0xF001).toNat 0 off else s

/-- Advance a 32-bit counter by one. -/
def bump (s : State) (off : Nat) : State := s.bumpBy off 1

/-- Advance a 48-bit counter, low word at `lo`, by `n`. -/
def bump48 (s : State) (lo n : Nat) : State :=
  if s.stopped lo then s
  else
    let a := s.rget64 lo % 2 ^ 48
    let b := (a + n) % 2 ^ 48
    let s := s.rset64 lo b
    if bit a 47 != bit b 47 then s.raiseSev 0xF001 (Config.severity 0xF001).toNat 0 lo else s

/-- Advance several counters. -/
def bumpAll (s : State) (l : List Nat) : State := l.foldl bump s

/-- Advance a counter of a selection view, which lives outside the register file: its new
value, and the state in which its half-range event has been raised (R83). -/
def bumpView (s : State) (dom view index unit : Nat) (c : Word) : State × Word :=
  if s.quenched dom then (s, c)
  else if crossed c (c + 1) then
    (s.raiseSev 0xF001 (Config.severity 0xF001).toNat unit (view + 2 ^ 19 * (index % 2 ^ 13)), c + 1)
  else (s, c + 1)

/-! ### Time (R441 to R444) -/

/-- The increment per tick of a relative rate in units of 10⁻¹², in 2⁻³² ns (R444). -/
def increment (ppt : Int) : Int :=
  2 ^ 33 + (2 ^ 33 * ppt * 2 + 10 ^ 12) / (2 * 10 ^ 12)

/-- Rate of the slew of a domain in units of 10⁻¹². -/
def slewPpt (d : Domain) : Int :=
  if d.slew = 0 then 0
  else if 0 < d.slew then 10 ^ 6 * (d.slewPpm : Int) else -(10 ^ 6 * (d.slewPpm : Int))

/-- The 40-bit increment in force of a domain. -/
def domInc (d : Domain) : Int := increment (d.rate + slewPpt d)

/-- A domain `k` ticks later. The slew ends on the tick that has removed it. -/
def domTick (k : Nat) (d : Domain) : Domain :=
  if d.state = .disabled then d
  else
    let base := increment d.rate * k
    let gone := (domInc d - increment d.rate) * k
    if gone.natAbs < d.slew.natAbs then
      { d with value := (d.value + base + gone).toNat, slew := d.slew - gone }
    else { d with value := (d.value + base + d.slew).toNat, slew := 0 }

/-- `k` ticks of the time counter pass. With its oscillators stopped the device keeps no time,
and the network clocks run on the Forge die in RUN (log entry 22). -/
def tick (s : State) (k : Nat) : State :=
  if s.pwr.state = .off ∨ s.pwr.state = .dormant then s
  else if s.pwr.state = .run then { s with clk := s.clk + 2 * k, dom := s.dom.map fun (i, d) => (i, domTick k d) }
  else { s with clk := s.clk + 2 * k }

/-- Time passes until the local clock has reached `t`, at least. -/
def waitUntil (s : State) (t : Nat) : State := s.tick ((t - s.clk + 1) / 2)

/-- What the block does while no command waits: one tick of the time counter (log
entry 2). -/
def idle (s : State) : State := s.tick 1

/-- A domain's parts. -/
def domain (s : State) (i : Nat) : Domain := agetD s.dom i {}

/-- A domain's time in whole ns. -/
def domNs (s : State) (i : Nat) : Nat := (s.domain i).value / 2 ^ 32

/-- Ticks until a domain's slew ends. -/
def slewTicks (d : Domain) : Nat := ceilDiv d.slew.natAbs (max 1 (domInc d - increment d.rate).natAbs)

/-- Ticks until a domain's time reaches `t` ns, or until its slew ends, whichever comes
first. -/
def domTicks (d : Domain) (t : Nat) : Nat :=
  let k := ceilDiv (2 ^ 32 * t - d.value) (max 1 (domInc d).toNat)
  if d.slew = 0 then k
  else min k (slewTicks d)

/-- Time passes until the first tick at which a domain's time has reached `t` ns. A disabled
domain has no time to wait for. -/
def waitDom (s : State) (i t : Nat) : State :=
  let go (s : State) : State :=
    if (s.domain i).state = .disabled then s else s.tick (domTicks (s.domain i) t)
  go (go s)

/-- The local clock's low word in ms or in µs, as the records of the spec hold it. -/
def clkMs (s : State) : Nat := s.clk / 1000000 % 2 ^ 32
def clkUs (s : State) : Nat := s.clk / 1000 % 2 ^ 32

/-! ### Updates of one group -/

def setHif (s : State) (x : Hif) : State := { s with hif := x }
def setMbx (s : State) (x : Mbx) : State := { s with mbx := x }
def setCal (s : State) (x : Cal) : State := { s with cal := x }
def setFwd (s : State) (x : Fwd) : State := { s with fwd := x }
def setFr (s : State) (x : Frames) : State := { s with fr := x }
def setBuf (s : State) (x : Buf) : State := { s with buf := x }
def setTrf (s : State) (x : Trf) : State := { s with trf := x }
def setEdg (s : State) (x : Edg) : State := { s with edg := x }
def setTun (s : State) (x : Tun) : State := { s with tun := x }
def setSig (s : State) (x : Sig) : State := { s with sig := x }
def setSec (s : State) (x : Sec) : State := { s with sec := x }
def setKey (s : State) (x : Key) : State := { s with key := x }
def setPwr (s : State) (x : Pwr) : State := { s with pwr := x }
def setNm (s : State) (x : Nm) : State := { s with nm := x }
def setPair (s : State) (x : Pair) : State := { s with pair := x }
def setFnc (s : State) (x : Fnc) : State := { s with fnc := x }
def setBoot (s : State) (x : Boot) : State := { s with boot := x }

end State

end Sys2Proof.Machine
end

