-- ==== Sys2Proof/Machine/Monitor.lean ====
section
/-! DEFINITION.
The images that run, and the contract monitor (R166 to R171, R523): deadlines, margins,
breaches and lost paths. -/

namespace Sys2Proof.Machine

/-! Fault domains by name (R519). -/
namespace Dom

abbrev device : Nat := 0
abbrev ember : Nat := 1
abbrev monitor : Nat := 2
abbrev control : Nat := 3
abbrev datapath : Nat := 4
abbrev host : Nat := 9
abbrev memory : Nat := 10
abbrev time : Nat := 11
abbrev keyStore : Nat := 12
abbrev pipe0 : Nat := 13
abbrev pipe1 : Nat := 14
abbrev buffer : Nat := 15
abbrev calendar : Nat := 16
abbrev edge : Nat := 17
abbrev services : Nat := 18
abbrev security : Nat := 19
abbrev flash : Nat := 0x6000

end Dom

namespace State

/-- A field of a register taken within the range its table states (log entry 12). -/
def inRange (v lo hi : Nat) : Nat := max lo (min hi v)

/-- Whether the datapath island has clock and power (R15). -/
def datapathUp (s : State) : Bool := s.pwr.state == .run && s.boot.mode != 2

/-- What an image handle holds. -/
def handle (s : State) (h : Nat) : Handle := agetD s.cal.handles h {}

/-- The image that the sequencer executes, the limp image included. -/
def runningImage (s : State) : Option Image :=
  match s.cal.running with
  | .noCalendar => none
  | .image h => (s.handle h).img
  | .limp => s.cal.limp

/-- The identity bound to a frame at its lookup (R29); 0 with no calendar. -/
def runningId (s : State) : Nat := (s.runningImage.map (·.id)).getD 0

/-- The handle in a state. -/
def handleIn (s : State) (st : HandleState) : Option Nat :=
  (List.range 4).find? fun h => (s.handle h).state == st

/-- The image inside its successor's overlap window (R160). -/
def drainingImage (s : State) : Option Image :=
  if s.cal.overlapEnd.isSome then s.cal.old else none

/-- Every image that drains: the one inside its successor's overlap window, and those of handles
in DRAINING (R151, R173). -/
def drainingImages (s : State) : List Image :=
  (s.drainingImage.toList ++ (s.cal.handles.filter fun x => x.2.state == .draining).filterMap (·.2.img)).dedup

/-- The image of an identity: the running one or a draining one. -/
def imageOf (s : State) (id : Nat) : Option Image :=
  match s.runningImage.filter (·.id == id) with
  | some i => some i
  | none => s.drainingImages.find? (·.id == id)

/-- Whether an egress in SOURCE coding is in an entry's EGRESS and EGRESS_X. -/
def egressOf (g : Guarantee) (p : Nat) : Bool :=
  if p < 64 then bit g.egress p
  else if p = 67 then bit g.egressX 0
  else if p = 64 then bit g.egressX 1
  else if p = 65 then bit g.egressX 2
  else p == 66 && bit g.egressX 3

/-- Whether a queue of a fabric port is a scheduled queue (R266, R277). -/
def isScheduled (s : State) (port queue : Nat) : Bool :=
  (s.runningImage.toList ++ s.drainingImages).any fun i =>
    i.guarantees.any fun g => g.queue == queue && port < 64 && bit g.egress port

/-- The cells that an image reserves. -/
def imageCells (i : Image) : Nat := (i.reserve.map (·.2)).sum

/-- Cells reserved by the active, draining and pending images together (R250). -/
def reservedCells (s : State) : Nat :=
  let pending := (s.handleIn .pending).bind fun h => (s.handle h).img
  ((s.runningImage.toList ++ s.drainingImages ++ pending.toList).map imageCells).sum

/-- A frame. -/
def frame? (s : State) (fid : Nat) : Option Frame := s.fr.frames.find? (·.fid == fid)

/-- Cells of a frame, by its number. -/
def fcells (s : State) (fid : Nat) : Nat := ((s.frame? fid).map (·.cells)).getD 0

/-- Cells that no descriptor owns, as the audit has found them: on chip, or with bit 31 in the
overflow region. They withhold space until they are reclaimed (R273; log entry 28). -/
def orphans (s : State) (dram : Bool) : Nat :=
  ((s.buf.suspectCells ++ s.buf.slag).dedup.filter fun c => bit c 31 == dram).length

/-- DRAM cells held. -/
def ovfUsed (s : State) : Nat :=
  ((s.fr.copies.filter fun c => c.spill == .inDram || c.spill == .draining).map fun c => s.fcells c.fid).sum +
    s.orphans true

/-- The overflow region requested lies outside the DRAM assigned to packet overflow (R256,
R550). -/
def ovfInvalid (s : State) : Bool :=
  let base := s.rfld Reg.bufOvfRegion 0 9
  let size := s.rfld Reg.bufOvfRegion 16 9
  let dram := Config.dramGib.toNat * 64
  0 < size && !(32 ≤ base && base + size ≤ 32 + min 256 (dram - 32))

/-- Put the requested overflow region in force, when it may take effect (R256). -/
def ovfApply (s : State) : State :=
  if s.rfld Reg.bufCtrl 0 1 = 0 ∧ s.ovfUsed = 0 ∧ !s.ovfInvalid then
    s.setBuf { s.buf with ovfBase := s.rfld Reg.bufOvfRegion 0 9, ovfSize := s.rfld Reg.bufOvfRegion 16 9 }
  else s

/-- The requested size of the scheduled partition (log entry 12). -/
def schedRequest (s : State) : Nat := min 98304 (s.rfld Reg.bufSchedCells 0 17)

/-- A request for the scheduled partition takes effect when it covers the reservations
(R250). -/
def schedApply (s : State) : State :=
  if s.reservedCells ≤ s.schedRequest then s.setBuf { s.buf with sched := s.schedRequest } else s

/-- The guarantee entry of a handle in an image. -/
def guarantee (s : State) (id h : Nat) : Option Guarantee :=
  (s.imageOf id).bind fun i => i.guarantees.find? (·.handle == h)

/-- Whether the contract monitor measures: the calendar domain runs (R523). -/
def monitoring (s : State) : Bool := !s.quenched Dom.calendar

/-- The counts of a guarantee handle of an image. -/
def gcount (s : State) (id h : Nat) : GCount :=
  agetD (if id = s.runningId then s.cal.active else s.cal.draining) h {}

/-- Change the counts of a guarantee handle. -/
def gmod (s : State) (id h : Nat) (f : GCount → GCount) : State :=
  if id = s.runningId then s.setCal { s.cal with active := amod s.cal.active h {} f }
  else s.setCal { s.cal with draining := amod s.cal.draining h {} f }

/-- A fault report to the fence controller, from inside the device. -/
def report (s : State) (domain source : Nat) : State :=
  s.setFnc { s.fnc with reports := s.fnc.reports ++ [(domain, source)] }

/-- A breach (R169). `dest` is the domain that the report names; a breach of a frame that a
quench has discarded quenches nothing further. -/
def breach (s : State) (id h kind port value : Nat) (dest : Option Nat) : State :=
  if !s.monitoring then s
  else
    let s := s.bump Reg.calBreachCnt
    let e := 8 * (((s.rget Reg.calBreachCnt).toNat + 2 ^ 32 - 1) % 64)
    let w (s : State) (i v : Nat) : State := s.rset (Reg.calBreachLog (e + i)) (BitVec.ofNat 32 v)
    let s := w (w s 0 s.clk) 1 (s.clk / 2 ^ 32)
    let s := w (w s 2 id) 3 (h + 2 ^ 16 * kind + 2 ^ 24 * port)
    let s := w (w (w (w s 4 value) 5 0) 6 0) 7 0
    let s := if h < 4096 then s.gmod id h fun g => { g with breaches := g.breaches + 1 } else s
    let s := s.raiseSev 0x3003 7 0 (h + 2 ^ 16 * kind)
    match dest with
    | none => s
    | some d => s.report d 7

/-- Forget the deadline of a frame at an egress. -/
def dropDeadline (s : State) (fid egress : Nat) : State :=
  s.setCal { s.cal with deadlines := s.cal.deadlines.filter fun d => !(d.fid == fid && d.egress == egress) }

/-- The deadline of a frame at an egress. -/
def deadline (s : State) (fid egress : Nat) : Option Deadline :=
  s.cal.deadlines.find? fun d => d.fid == fid && d.egress == egress

/-- A margin crossing (R166, R171). -/
def margin (s : State) (id h : Nat) : State :=
  let s := s.bump Reg.calMarginCnt
  let last := (s.gcount id h).marginAt
  let s := s.gmod id h fun g => { g with margins := g.margins + 1 }
  if s.rfld Reg.calMonCtrl 0 1 = 1 then
    let (s, t) := s.raiseLimited last 100000000 0x3004 h
    s.gmod id h fun g => { g with marginAt := t }
  else s

/-- A frame departs at an egress. -/
def depart (s : State) (fid egress : Nat) : State :=
  match s.deadline fid egress with
  | none => s
  | some d =>
    let s := s.dropDeadline fid egress
    if !s.monitoring then s
    else
      let lat := s.clk - d.start
      let s := s.gmod d.image d.handle fun g => { g with maxLat := max g.maxLat lat }
      if d.bound < lat then (if d.waived then s else s.breach d.image d.handle 1 egress lat (some Dom.calendar))
      else if d.warn < lat then s.margin d.image d.handle
      else s

/-- A guaranteed frame is lost inside the device, with a drop cause of R170. -/
def lose (s : State) (fid egress cause : Nat) : State :=
  match s.deadline fid egress with
  | none => s
  | some d =>
    let s := s.dropDeadline fid egress
    if d.waived then s
    else s.breach d.image d.handle 2 egress cause (if cause = 3 then none else some Dom.calendar)

/-- The deadline of a frame at an egress passes with no departure: late (R166). -/
def late (s : State) (d : Deadline) : State :=
  let s := s.dropDeadline d.fid d.egress
  if d.waived then s else s.breach d.image d.handle 1 d.egress (s.clk - d.start) (some Dom.calendar)

/-- A guaranteed frame is discarded because its path is gone: kind 5. -/
def pathLost (s : State) (fid egress : Nat) : State :=
  match s.deadline fid egress with
  | none => s
  | some d =>
    let s := s.dropDeadline fid egress
    if s.monitoring then (s.bump Reg.calPathLostCnt).raise 0x3008 (d.handle + 2 ^ 16 * egress) else s

/-- Whether no breach counts for a frame of an image that started at `start`: between a time
change and the resume boundary (R163), or between the boundary at which its image stopped and
T (R156). -/
def waived (s : State) (id start : Nat) : Bool :=
  (s.cal.rephaseAt ≤ start && (s.cal.rephase || start < s.cal.resumeAt)) ||
    (s.cal.stopAt ≤ start && (if id = s.runningId then s.cal.stop else start < s.cal.stopEnd))

/-- Whether the monitor measures a frame of this start point (R523). -/
def measured (s : State) (start : Nat) : Bool := s.monitoring && s.cal.monitorFrom ≤ start

/-- Start the deadlines of a conforming frame, one for each egress (R166). -/
def startDeadlines (s : State) (fid id start : Nat) (g : Guarantee) (egresses : List Nat) : State :=
  if s.measured start then
    s.setCal { s.cal with deadlines := s.cal.deadlines ++ egresses.map fun p =>
      { fid := fid, egress := p, image := id, handle := g.handle, start := start,
        bound := g.bound, warn := g.warn, waived := s.waived id start } }
  else s

/-! ### Pending effect records (R228, R229) -/

/-- Record numbers in use in a pipeline. -/
def recordsUsed (s : State) (p : Nat) : List Nat := if p = 0 then s.fr.used0 else s.fr.used1

/-- Hold the record numbers of a pipeline. -/
def setRecords (s : State) (p : Nat) (l : List Nat) : State :=
  s.setFr (if p = 0 then { s.fr with used0 := l } else { s.fr with used1 := l })

/-- Records held for conforming frames. -/
def reserve (s : State) : Nat := inRange (s.rfld Reg.spcReserve 0 8) 0 128

/-- EXHAUSTED of a pipeline (R229). -/
def exhausted (s : State) (p : Nat) : Bool := 256 - (s.recordsUsed p).length ≤ s.reserve

/-- `EV_SPC_EXHAUSTED` on a rising edge of EXHAUSTED. -/
def exhaustEdge (s : State) (p : Nat) (before : Bool) : State :=
  if !before && s.exhausted p then
    let (s, t) := s.raiseLimited (aget s.fr.exhaustedAt p) 100000000 0x4101 p
    match t with
    | none => s
    | some t => s.setFr { s.fr with exhaustedAt := aset s.fr.exhaustedAt p t }
  else s

end State

end Sys2Proof.Machine
end

