-- ==== Sys2Proof/Machine/Crypto.lean ====
section
/-! DEFINITION.
The standard algorithms the spec names by reference: the CRCs of R44, R112, R186 and R378,
AES (FIPS 197), CMAC (RFC 4493), key unwrapping (RFC 3394, RFC 5649), SHA-384 (FIPS 180-4). -/

namespace Sys2Proof.Crypto

/-! ### CRCs -/

/-- One step of an unreflected CRC. -/
def crcStep {w : Nat} (poly c : BitVec w) : BitVec w := if c.msb then (c <<< 1) ^^^ poly else c <<< 1

/-- One step of a reflected CRC, its polynomial bit-reversed. -/
def crcStepR {w : Nat} (poly c : BitVec w) : BitVec w :=
  if c.getLsbD 0 then (c >>> 1) ^^^ poly else c >>> 1

/-- An unreflected CRC, before the final XOR. -/
def crcRun {w : Nat} (poly init : BitVec w) (l : List Byte) : BitVec w :=
  l.foldl (fun c b =>
    (List.range 8).foldl (fun c _ => crcStep poly c) (c ^^^ (BitVec.ofNat w b.toNat <<< (w - 8)))) init

/-- A reflected CRC, before the final XOR. -/
def crcRunR {w : Nat} (poly init : BitVec w) (l : List Byte) : BitVec w :=
  l.foldl (fun c b =>
    (List.range 8).foldl (fun c _ => crcStepR poly c) (c ^^^ BitVec.ofNat w b.toNat)) init

/-- CRC-32C (R112). -/
def crc32c (l : List Byte) : BitVec 32 := crcRunR 0x82F63B78 0xFFFFFFFF l ^^^ 0xFFFFFFFF

/-- The IEEE 802.3 CRC-32 (R186). -/
def crc32 (l : List Byte) : BitVec 32 := crcRunR 0xEDB88320 0xFFFFFFFF l ^^^ 0xFFFFFFFF

/-- The CRC-8 of the SPI target (R44). -/
def crc8Spi (l : List Byte) : BitVec 8 := crcRun 0x2F 0xFF l ^^^ 0xFF

/-! ### AES -/

def xtime (a : Byte) : Byte := (a <<< 1) ^^^ (if a.msb then 0x1B else 0)

/-- Product in GF(2⁸) of AES. -/
def gmul (a b : Byte) : Byte :=
  ((List.range 8).foldl (fun (p : Byte × Byte) i =>
    (if b.getLsbD i then p.1 ^^^ p.2 else p.1, xtime p.2)) (0, a)).1

/-- Inverse in GF(2⁸), 0 for 0. -/
def ginv (a : Byte) : Byte :=
  ((List.range 7).foldl (fun (p : Byte × Byte) _ =>
    let q := gmul p.2 p.2
    (gmul p.1 q, q)) (1, a)).1

def sbox (a : Byte) : Byte :=
  let i := ginv a
  i ^^^ i.rotateLeft 1 ^^^ i.rotateLeft 2 ^^^ i.rotateLeft 3 ^^^ i.rotateLeft 4 ^^^ 0x63

def invSbox (b : Byte) : Byte :=
  ginv (b.rotateLeft 1 ^^^ b.rotateLeft 3 ^^^ b.rotateLeft 6 ^^^ 0x05)

def xorBytes (a b : List Byte) : List Byte := (a.zip b).map fun (x, y) => x ^^^ y

/-- The words of the key schedule after the first, newest first. -/
def keyWords (nk : Nat) : Nat → List (List Byte) → List (List Byte)
  | 0, ws => ws
  | k + 1, ws =>
    let i := ws.length
    let t := ws.headD []
    let t :=
      if i % nk = 0 then
        let r := (t.drop 1 ++ t.take 1).map sbox
        let rc := (List.range (i / nk - 1)).foldl (fun c _ => xtime c) (1 : Byte)
        xorBytes r [rc, 0, 0, 0]
      else if 6 < nk ∧ i % nk = 4 then t.map sbox
      else t
    keyWords nk k (xorBytes (ws.getD (nk - 1) []) t :: ws)

/-- A list in chunks of `n`. -/
def chunks (n : Nat) (l : List Byte) : List (List Byte) :=
  (List.range ((l.length + n - 1) / n)).map fun i => (l.drop (n * i)).take n

/-- The round keys, 16 bytes each. -/
def roundKeys (key : List Byte) : List (List Byte) :=
  let nk := key.length / 4
  let ws := keyWords nk (4 * (nk + 7) - nk) (chunks 4 key).reverse
  chunks 16 ws.reverse.flatten

def shiftRows (l : List Byte) : List Byte :=
  (List.range 16).map fun i => l.getD ((i + 4 * (i % 4)) % 16) 0

def invShiftRows (l : List Byte) : List Byte :=
  (List.range 16).map fun i => l.getD ((i + 16 - 4 * (i % 4)) % 16) 0

/-- The columns times the circulant matrix whose first row is given. -/
def mixColumns (row l : List Byte) : List Byte :=
  (List.range 16).map fun i =>
    (List.range 4).foldl (fun a j =>
      a ^^^ gmul (row.getD ((j + 4 - i % 4) % 4) 0) (l.getD (i / 4 * 4 + j) 0)) 0

/-- Encipher one block. -/
def aesEnc (key block : List Byte) : List Byte :=
  let ks := roundKeys key
  let n := ks.length - 1
  let st := xorBytes block (ks.getD 0 [])
  let st := (List.range (n - 1)).foldl (fun st i =>
    xorBytes (mixColumns [2, 3, 1, 1] (shiftRows (st.map sbox))) (ks.getD (i + 1) [])) st
  xorBytes (shiftRows (st.map sbox)) (ks.getD n [])

/-- Decipher one block. -/
def aesDec (key block : List Byte) : List Byte :=
  let ks := roundKeys key
  let n := ks.length - 1
  let st := (invShiftRows (xorBytes block (ks.getD n []))).map invSbox
  let st := (List.range (n - 1)).foldl (fun st i =>
    (invShiftRows (mixColumns [14, 11, 13, 9] (xorBytes st (ks.getD (n - 1 - i) [])))).map invSbox) st
  xorBytes st (ks.getD 0 [])

/-! ### CMAC and key unwrapping -/

/-- Doubling in GF(2¹²⁸). -/
def dbl (l : List Byte) : List Byte :=
  let s := (l.zip (l.drop 1 ++ [(0 : Byte)])).map fun (a, b) => (a <<< 1) ||| (b >>> 7)
  if (l.headD 0).msb then s.take 15 ++ [s.getD 15 0 ^^^ 0x87] else s

def zeros (n : Nat) : List Byte := List.replicate n 0

/-- CMAC of a message, 16 bytes. -/
def cmac (key msg : List Byte) : List Byte :=
  let k1 := dbl (aesEnc key (zeros 16))
  let n := max 1 ((msg.length + 15) / 16)
  let last := msg.drop (16 * (n - 1))
  let tail :=
    if last.length = 16 then xorBytes last k1
    else xorBytes (last ++ [0x80] ++ zeros (15 - last.length)) (dbl k1)
  ((chunks 16 (msg.take (16 * (n - 1)))) ++ [tail]).foldl (fun c b => aesEnc key (xorBytes c b)) (zeros 16)

/-- The unwrapping of RFC 3394: the integrity block and the data. -/
def unwrap (key blob : List Byte) : List Byte × List Byte :=
  let n := blob.length / 8 - 1
  let r := (List.range (6 * n)).foldl (fun (p : List Byte × List (List Byte)) i =>
    let t := 6 * n - i
    let j := (t - 1) % n
    let a := xorBytes p.1 ((List.range 8).map fun k => BitVec.ofNat 8 (t / 256 ^ (7 - k)))
    let b := aesDec key (a ++ p.2.getD j [])
    (b.take 8, p.2.set j (b.drop 8))) (blob.take 8, chunks 8 (blob.drop 8))
  (r.1, r.2.flatten)

/-- AES-CTR with a counter that increments in the last 4 bytes. -/
def aesCtr (key ctr msg : List Byte) : List Byte :=
  ((chunks 16 msg).zipIdx.map fun (b, i) =>
    let c := ((ctr.drop 12).foldl (fun a x => 256 * a + x.toNat) 0 + i) % 2 ^ 32
    let blk : List Byte := ctr.take 12 ++ (List.range 4).map fun k => BitVec.ofNat 8 (c / 256 ^ (3 - k))
    xorBytes b (aesEnc key blk)).flatten

/-! ### SHA-384 -/

/-- The integer `n`-th root of `x`, one bit at a time from bit `k - 1` down, onto `r`. -/
def rootBits (n x : Nat) : Nat → Nat → Nat
  | 0, r => r
  | k + 1, r => rootBits n x k (if (r + 2 ^ k) ^ n ≤ x then r + 2 ^ k else r)

/-- The first 64 bits of the fractional part of the `n`-th root of `p`. -/
def rootFraction (n p : Nat) : BitVec 64 := BitVec.ofNat 64 (rootBits n (p * 2 ^ (64 * n)) 70 0)

/-- The primes below 410, 80 of them. -/
def shaPrimes : List Nat :=
  (List.range 410).filter fun p => decide (2 ≤ p) && (List.range 21).all fun d => d < 2 || p ≤ d || p % d != 0

/-- The 80 round constants (FIPS 180-4, 4.2.3): the cube roots of the first 80 primes. -/
def shaK : List (BitVec 64) := shaPrimes.map (rootFraction 3)

/-- The initial hash value of SHA-384 (FIPS 180-4, 5.3.4): the square roots of the ninth to
sixteenth primes. -/
def shaInit : List (BitVec 64) := ((shaPrimes.drop 8).take 8).map (rootFraction 2)

/-- The exclusive or of a word rotated right by each of some distances. -/
def xorRotations (x : BitVec 64) (l : List Nat) : BitVec 64 := l.foldl (fun a n => a ^^^ x.rotateRight n) 0

/-- The next word of the message schedule, from the words before it, newest first. -/
def shaNext (w : List (BitVec 64)) : BitVec 64 :=
  let s x n l := xorRotations x l ^^^ (x >>> n)
  s (w.getD 1 0) (6 : Nat) [19, 61] + w.getD 6 0 + s (w.getD 14 0) (7 : Nat) [1, 8] + w.getD 15 0

/-- A 64-bit word from 8 bytes, high byte first. -/
def word64 (l : List Byte) : BitVec 64 := l.foldl (fun a b => 256 * a + BitVec.ofNat 64 b.toNat) 0

/-- The eight working variables. -/
structure ShaVars where
  a : BitVec 64
  b : BitVec 64
  c : BitVec 64
  d : BitVec 64
  e : BitVec 64
  f : BitVec 64
  g : BitVec 64
  h : BitVec 64
  deriving DecidableEq, Repr

/-- One round, on the sum of its round constant and its schedule word. -/
def ShaVars.round (v : ShaVars) (kw : BitVec 64) : ShaVars :=
  let choice := v.g ^^^ (v.e &&& (v.f ^^^ v.g))
  let major := (v.a &&& (v.b ||| v.c)) ||| (v.b &&& v.c)
  let t := kw + choice + v.h + xorRotations v.e [14, 18, 41]
  ⟨t + major + xorRotations v.a [28, 34, 39], v.a, v.b, v.c, v.d + t, v.e, v.f, v.g⟩

/-- The sum of two states, word by word. -/
def ShaVars.add (x y : ShaVars) : ShaVars :=
  ⟨x.a + y.a, x.b + y.b, x.c + y.c, x.d + y.d, x.e + y.e, x.f + y.f, x.g + y.g, x.h + y.h⟩

/-- One block of the compression function: a window of the last 16 schedule words, newest first,
moves along with the rounds. -/
def shaBlock (k : List (BitVec 64)) (v : ShaVars) (block : List Byte) : ShaVars :=
  let run := k.foldl (fun (x : ShaVars × List (BitVec 64)) c =>
    (x.1.round (c + x.2.getLastD 0), (shaNext x.2 :: x.2).take 16)) (v, ((chunks 8 block).map word64).reverse)
  v.add run.1

/-- The padding of a message: one bit, zeros, and its length in bits in the last 16 of 128 bytes. -/
def shaPad (n : Nat) : List Byte :=
  0x80 :: zeros ((239 - n % 128) % 128) ++ (List.range 16).map fun k => BitVec.ofNat 8 (8 * n / 256 ^ (15 - k))

/-- SHA-384, 48 bytes. -/
def sha384 (msg : List Byte) : List Byte :=
  let start : ShaVars := match shaInit with
    | [a, b, c, d, e, f, g, h] => ⟨a, b, c, d, e, f, g, h⟩
    | _ => ⟨0, 0, 0, 0, 0, 0, 0, 0⟩
  let v := (chunks 128 (msg ++ shaPad msg.length)).foldl (shaBlock shaK) start
  ([v.a, v.b, v.c, v.d, v.e, v.f].map fun w => (List.range 8).map fun k => BitVec.ofNat 8 (w.toNat / 256 ^ (7 - k))).flatten

end Sys2Proof.Crypto
end

