-- ==== Sys2Proof/Machine/Flags.lean ====
section
/-! DEFINITION.
The flags of the mailbox: those that a slot carries (R91 to R93) and those of a completion
(R107). The block has no processor's condition flags. -/

namespace Sys2Proof.Machine

/-- The index of a command that is not journaled: no 32-bit index is this one, so that every
index of the journal can be given (R96). -/
def noIndex : Nat := 2 ^ 32

/-- JOURNAL_INDEX of a completion (R95, R107). -/
def Cmd.shownIndex (c : Cmd) : Nat := if c.index = noIndex then 0xFFFFFFFF else c.index

/-- IF_EPOCH of a slot (R92). -/
def Cmd.ifEpoch (c : Cmd) : Bool := bit c.flags 0

/-- FENCE of a slot (R93). -/
def Cmd.fence (c : Cmd) : Bool := bit c.flags 1

/-- The FLAGS byte of a completion (R107), with its PHASE. -/
def Cmd.flagByte (c : Cmd) (ph : Nat) : Nat :=
  ph + 2 * b2n c.replayed + 4 * b2n (c.index == noIndex) + 8 * b2n c.stalled + 16 * b2n c.unmirrored

end Sys2Proof.Machine
end

