-- ==== Sys2Proof/Machine/MbxOps.lean ====
section
/-! DEFINITION.
The path of a command (R91 to R120): taking a slot, what lets a command execute, its
journal entry, its record in flash, its completion, and what cuts it off. -/

namespace Sys2Proof.Machine

/-! ### Status codes (R110) -/

namespace St

abbrev ok : Nat := 0
abbrev unknownOpcode : Nat := 1
abbrev malformed : Nat := 2
abbrev lengthUnwritten : Nat := 3
abbrev hostMismatch : Nat := 4
abbrev notPermitted : Nat := 5
abbrev seqStale : Nat := 6
abbrev seqConflict : Nat := 7
abbrev resyncRequired : Nat := 8
abbrev epochMismatch : Nat := 9
abbrev badParam : Nat := 10
abbrev domainQuenched : Nat := 11
abbrev powerState : Nat := 12
abbrev aborted : Nat := 13
abbrev unpersisted : Nat := 14
abbrev journalUnavailable : Nat := 15

end St

/-! ### The opcode catalogue (R126) -/

/-- A row of the catalogue: class C, permitted hosts as a bit map, body lengths. -/
structure OpInfo where
  classC : Bool
  hosts : Nat
  lens : List Nat
  deriving DecidableEq, Repr

/-- The catalogue. The lengths of the bodies are those of the owning chapters. -/
def catalogue (op : Nat) : Option OpInfo :=
  match op with
  | 0x0100 => some ⟨false, 7, [0]⟩
  | 0x0101 => some ⟨false, 7, [0]⟩
  | 0x0102 => some ⟨false, 7, [16]⟩
  | 0x0103 => some ⟨false, 7, [24]⟩
  | 0x0104 => some ⟨true, 7, (List.range 61).map (· + 4)⟩
  | 0x0110 => some ⟨false, 3, [16]⟩
  | 0x0111 => some ⟨false, 1, [24]⟩
  | 0x0200 => some ⟨false, 1, [16]⟩
  | 0x0201 => some ⟨false, 1, [8]⟩
  | 0x0202 => some ⟨true, 1, [16]⟩
  | 0x0203 => some ⟨true, 3, [8]⟩
  | 0x0204 => some ⟨false, 3, [8]⟩
  | 0x0205 => some ⟨true, 3, [8]⟩
  | 0x0300 => some ⟨false, 1, [8]⟩
  | 0x0301 => some ⟨false, 1, [64]⟩
  | 0x0302 => some ⟨false, 1, [48]⟩
  | 0x0303 => some ⟨true, 1, [8]⟩
  | 0x0304 => some ⟨false, 1, [8]⟩
  | 0x0305 => some ⟨false, 1, [48]⟩
  | 0x0306 => some ⟨false, 1, [8]⟩
  | 0x0307 => some ⟨true, 1, [16]⟩
  | 0x0400 => some ⟨true, 1, [192]⟩
  | 0x0401 => some ⟨true, 1, [16]⟩
  | 0x0402 => some ⟨true, 1, [16, 40]⟩
  | 0x0403 => some ⟨true, 1, [56, 32]⟩
  | 0x0404 => some ⟨true, 1, [16]⟩
  | 0x0500 => some ⟨true, 1, [48]⟩
  | 0x0501 => some ⟨true, 1, [32]⟩
  | 0x0502 => some ⟨true, 1, [8]⟩
  | 0x0503 => some ⟨false, 3, [24]⟩
  | 0x0504 => some ⟨false, 3, [8]⟩
  | 0x0600 => some ⟨true, 1, [72]⟩
  | 0x0601 => some ⟨true, 1, [16]⟩
  | 0x0602 => some ⟨true, 1, [24]⟩
  | 0x0700 => some ⟨true, 1, [16]⟩
  | 0x0701 => some ⟨true, 1, [56]⟩
  | 0x0702 => some ⟨true, 1, [64]⟩
  | 0x0703 => some ⟨true, 1, [56]⟩
  | 0x0704 => some ⟨true, 3, [8]⟩
  | 0x0705 => some ⟨true, 4, [8]⟩
  | 0x0800 => some ⟨true, 1, [40]⟩
  | 0x0801 => some ⟨false, 1, [32]⟩
  | 0x0802 => some ⟨true, 3, [8]⟩
  | 0x0900 => some ⟨false, 3, [16]⟩
  | 0x0901 => some ⟨true, 1, [72]⟩
  | 0x0902 => some ⟨true, 1, [80]⟩
  | 0x0903 => some ⟨false, 3, [8]⟩
  | 0x0A00 => some ⟨true, 1, [48]⟩
  | 0x0A01 => some ⟨true, 3, [8]⟩
  | 0x0A02 => some ⟨false, 3, [16]⟩
  | 0x0B00 => some ⟨false, 7, [8]⟩
  | 0x0B01 => some ⟨true, 3, [8]⟩
  | 0x0B02 => some ⟨false, 5, [24]⟩
  | 0x0C00 => some ⟨false, 4, [16]⟩
  | 0x0C01 => some ⟨false, 4, [8]⟩
  | 0x0C02 => some ⟨false, 4, [8]⟩
  | 0x0C03 => some ⟨true, 4, [8]⟩
  | _ => none

/-! ### Fields of a body -/

/-- The number in `n` bytes of a body at an offset, low byte first. -/
def Cmd.u (c : Cmd) (off n : Nat) : Nat := leNat ((c.body.drop off).take n)

/-- The time of a domain at a command's acceptance (R155). -/
def Cmd.domAt (c : Cmd) (d : Nat) : Nat := c.acceptDom.getD d 0

/-- Bytes of a body. -/
def Cmd.bytes (c : Cmd) (off n : Nat) : List Byte := (c.body.drop off).take n

/-- Whether a command is of class C. -/
def isClassC (op : Nat) : Bool := ((catalogue op).map (·.classC)).getD false

/-- A command that was accepted, in contrast to a rejected one and to a duplicate. -/
def Cmd.accepted (c : Cmd) : Bool := c.index != noIndex && !c.replayed

/-- Whether a command's completion waits for nothing but a place to write it. -/
def Cmd.ready (c : Cmd) : Bool := c.phase == .ended && !c.waitFlash && !c.waitMirror

/-! ### The journal entry (R111) -/

/-- The 128 bytes of an entry. -/
def JEntry.bytes (e : JEntry) : List Byte :=
  let b := leBytes 4 e.index ++ leBytes 4 e.seq ++ leBytes 2 e.opcode ++ leBytes 1 e.host ++
    leBytes 1 (b2n e.classC + 2 * b2n e.persisted) ++ leBytes 2 e.status ++ leBytes 2 e.session ++
    leBytes 8 e.acceptTime ++ leBytes 8 e.doneTime ++ leBytes 8 e.hostTime ++ leBytes 4 e.cfgEpoch ++
    leBytes 4 e.tag ++ leBytes 8 e.result ++ leBytes 2 e.bodyLen ++ leBytes 1 e.queue ++
    leBytes 1 0 ++ leBytes 4 e.bodyCrc ++ fit 60 e.bodyHead
  b ++ leBytes 4 (Crypto.crc32c b).toNat

/-- The entry of a command whose execution has ended. -/
def Cmd.entry (c : Cmd) : JEntry :=
  { index := c.index, seq := c.seq, opcode := c.opcode, host := c.host,
    classC := isClassC c.opcode, persisted := c.persisted, status := c.status, session := c.session,
    acceptTime := c.acceptTime, doneTime := c.doneTime, hostTime := c.hostTime,
    cfgEpoch := c.cfgEpoch, tag := c.tag, result := c.result, queue := c.queue,
    bodyLen := c.body.length, bodyCrc := (Crypto.crc32c c.body).toNat, bodyHead := c.body.take 60 }

/-! ### The flash record (R116) -/

/-- Where the flash journal region begins (R538), and the size of a sector. -/
def journalBase : Nat := 0x02800000
def sectorBytes : Nat := 0x10000

/-- The 384 bytes of a record: the entry, and the body padded with zeros. -/
def recordBytes (e : JEntry) (body : List Byte) : List Byte := e.bytes ++ fit 256 body

/-- The last 256 bytes of a sector: its header. -/
def FlashSector.header (x : FlashSector) : List Byte :=
  let b := leBytes 4 0x4A524E4C ++ leBytes 4 x.seq ++ leBytes 4 x.firstIndex ++ leBytes 4 x.eraseCount ++
    List.replicate 236 0xFF
  b ++ leBytes 4 (Crypto.crc32c b).toNat

/-- Where a sector's record position lies. -/
def FlashSector.recordAt (x : FlashSector) (k : Nat) : Nat := journalBase + sectorBytes * x.place + 384 * k

/-- Where its header lies. -/
def FlashSector.headerAt (x : FlashSector) : Nat := journalBase + sectorBytes * x.place + 65280

/-- An entry table with an entry put in place of the one of its position (R114). -/
def ringPut (n : Nat) (l : List JEntry) (e : JEntry) : List JEntry :=
  e :: l.filter fun x => x.index % n ≠ e.index % n

namespace State

/-! ### Hosts and queues -/

/-- Slots of a command queue of a host (R84). -/
def sqDepth (host : Nat) : Nat := if host = 0 then 256 else 32

/-- Offset of a queue register, given the one of main-host queue 0. -/
def sqReg (first host q : Nat) : Nat := first + (if host = 0 then 0 else 0x400) + 0x40 * q

/-- Where slot `p` of a queue lies in device-side memory (R84). -/
def slotAddr (host q p : Nat) : Nat :=
  if host = 0 then 0x40000000 + 0x10000 * q + 0x100 * (p % 256)
  else 0x02000000 + 0x2000 * q + 0x100 * (p % 32)

/-- Whether the device can write the completions of a host (R109, R525). -/
def canPost (s : State) (host : Nat) : Bool :=
  if host = 0 then s.canDma else if host = 1 then !s.quenched 9 else true

/-- Whether EN of a queue is set; the service queue has no EN. -/
def queueEn (s : State) (host q : Nat) : Bool :=
  host == 2 || s.rfld (sqReg (Reg.mbxQCtrl 0) host q) 0 1 == 1

/-- The memory that the DRAM journal lies in (R525). -/
def dramJournalOk (s : State) : Bool := s.mbx.dramOk && !s.quenched 10

/-- Whether the flash journal is writable (R120). -/
def flashOk (s : State) : Bool :=
  !s.mbx.flashFault && !s.quenched 0x6000 && !s.quenched 10

/-- The entries that the journal retains, by source, first source first (R124; log entry 18 for
retention SRAM). -/
def retained (s : State) : List JEntry :=
  (if s.dramJournalOk then s.mbx.dram else []) ++ s.mbx.retention ++
    (if s.quenched 10 || s.quenched 0x6000 then [] else (s.mbx.sectors.flatMap (·.records)).map (·.1))

/-- The retained entry of an index. -/
def entryOf (s : State) (i : Nat) : Option JEntry := s.retained.find? (·.index == i)

/-- Whether mirroring is in force: a pair at LINK_STATE 4 (R105, R500). -/
def mirroring (s : State) : Bool := s.pair.role != .single && s.pair.linkState == 4

/-- A free core pair to run a command: the lowest-numbered one that is not quenched. -/
def corePair (s : State) : Option Nat := (List.range 4).find? fun n => !s.quenched (5 + n)

/-! ### Completions (R107 to R109) -/

/-- A frame of the service session (R551). A session whose MAC key is gone sends none that
carries a TAG. -/
def svcSend (s : State) (type : Nat) (body : List Byte) : State :=
  match s.boot.session with
  | none => s
  | some x =>
    let h := leBytes 1 type ++ leBytes 1 0 ++ leBytes 2 body.length ++ leBytes 4 x.id ++
      leBytes 4 x.txSeq ++ body
    let k := agetD s.key.slots 1009 {}
    let tagged := x.secured && decide (4 ≤ type)
    if tagged && k.state != .loaded then s
    else
      (s.emit (.s0 (h ++ if tagged then Crypto.cmac k.key h else []))).setBoot
        { s.boot with session := some { x with txSeq := x.txSeq + 1 } }

/-- The completion of a command (R107). -/
def completionBytes (c : Cmd) (ph : Nat) : List Byte :=
  leBytes 4 c.seq ++ leBytes 2 c.opcode ++ leBytes 2 c.status ++
    leBytes 1 (c.flagByte ph) ++
    leBytes 1 c.queue ++ leBytes 1 c.slot ++ leBytes 1 c.data.length ++ leBytes 4 c.tag ++
    leBytes 4 c.cfgEpoch ++ leBytes 4 c.shownIndex ++ leBytes 8 c.result

/-- Write a completion, its result data first, and signal it. -/
def writeCompletion (s : State) (c : Cmd) : State :=
  if c.host = 2 then
    let k := s.mbx.svcPosted
    let t := s.svcSend 5 (completionBytes c (phase k 32) ++ c.data)
    t.setMbx { t.mbx with svcPosted := k + 1 }
  else
    let prod := sqReg (Reg.mbxCqProd 0) c.host c.queue
    let k := (s.rget prod).toNat
    let n := sqDepth c.host
    let b := completionBytes c (phase k n)
    let s := s.mwrite (slotAddr c.host c.queue c.slot + 32) c.data
    let s := s.rset prod (s.rget prod + 1)
    if c.host = 0 then
      let s := s.hostMem (1 + c.queue) (s.rget64 (Reg.mbxCqBaseLo c.queue) + 32 * (k % n)) b
      if s.rfld (Reg.mbxQCtrl c.queue) 1 1 = 1 then s.signal (1 + c.queue) else s
    else s.mwrite (0x02004000 + 0x400 * c.queue + 32 * (k % n)) b

/-- Take a finished command out: its entry counts as completed and stands in retention
SRAM, and its duplicates are answered from it (R99, R100, R113, R115). -/
def retire (s : State) (c : Cmd) : State :=
  let answer (d : Cmd) : Cmd :=
    if d.phase == .replayWait && d.index == c.index then
      { d with phase := .ended, status := c.status, result := c.result, cfgEpoch := c.cfgEpoch }
    else d
  let drop := s.mbx.cmds.filter fun d => !(d.host == c.host && d.queue == c.queue &&
    d.slot == c.slot && d.phase == .ended)
  let m := s.mbx
  if c.accepted then
    s.setMbx { m with
      cmds := drop.map answer
      retention := (c.entry :: m.retention.filter (·.index ≠ c.index)).take 1024 }
  else s.setMbx { m with cmds := drop }

/-- Whether a command is a `HOST_RESYNC` with RESTART (R101, R122). -/
def isRestart (op : Nat) (body : List Byte) : Bool := op == 0x0102 && bit (body.getD 4 0).toNat 0

/-- On the completion of a `HOST_RESYNC` with RESTART the session of its host rises by one, and
its highest accepted sequence number becomes 0 (R101). -/
def sessionRestart (s : State) (c : Cmd) : State :=
  if c.accepted && isRestart c.opcode c.body && c.status == St.ok then
    let r := Reg.mbxHostSession c.host
    (s.rset r (BitVec.ofNat 32 (((s.rget r).toNat + 1) % 2 ^ 16))).rset (Reg.mbxHostSeq c.host) 0
  else s

/-- The command whose completion may be written next, among those of some queues: the oldest
one of its queue, ready, and its host's memory writable; a disabled queue's completions are
discarded instead of held. While the control domain is quenched none is (R106). -/
def nextPost (s : State) (sel : Cmd → Bool) : Option Cmd :=
  let first (l : List Cmd) (c : Cmd) : Bool :=
    (l.find? fun d => d.host == c.host && d.queue == c.queue) == some c
  if s.quenched 3 then none
  else s.mbx.cmds.find? fun c => sel c && c.ready && first s.mbx.cmds c &&
    (s.canPost c.host || !s.queueEn c.host c.queue)

/-- Post every completion that may be posted, in slot order (R102). -/
def postLoop (sel : Cmd → Bool) : Nat → State → State
  | 0, s => s
  | n + 1, s =>
    match s.nextPost sel with
    | none => s
    | some c =>
      let t := if s.canPost c.host then s.writeCompletion c else s
      let t := (t.retire c).sessionRestart c
      let due := c.accepted && c.opcode == 0x0C03 && (c.status == St.ok || c.status == St.unpersisted) && bit (c.body.getD 1 0).toNat 1
      postLoop sel n (t.setBoot { t.boot with restartDue := t.boot.restartDue || due })

/-- Post every completion that may be posted. -/
def postAll (s : State) : State := postLoop (fun _ => true) s.mbx.cmds.length s

/-! ### Ending an execution (R103 to R106) -/

/-- Change the accepted command of an index. -/
def cmdMod (s : State) (i : Nat) (f : Cmd → Cmd) : State :=
  s.setMbx { s.mbx with cmds := s.mbx.cmds.map fun c => if c.accepted && c.index == i then f c else c }

/-- The accepted command of an index. -/
def cmdOf (s : State) (i : Nat) : Option Cmd := s.mbx.cmds.find? fun c => c.accepted && c.index == i

/-- Erased record positions: those left in the newest sector, and the erased sectors (R116,
R117). -/
def recordsFree (s : State) : Nat :=
  170 * s.mbx.erased.length + ((s.mbx.sectors.getLast?).map fun x => 170 - x.used).getD 0

/-- Whether a record position is left for one more command. -/
def recordFree (s : State) : Bool :=
  (s.mbx.cmds.filter (·.waitFlash)).length < s.recordsFree

/-- Execution of the command of index `i` ends with a status, a result and data. -/
def finishCmd (s : State) (i status result : Nat) (data : List Byte) : State :=
  match s.cmdOf i with
  | none => s
  | some c =>
    let cc := isClassC c.opcode
    let s := if cc && status == St.ok then s.rset Reg.mbxCfgEpoch (s.rget Reg.mbxCfgEpoch + 1) else s
    let flash := cc && status != St.journalUnavailable
    let late := flash && !s.flashOk
    let status' := if late && status == St.ok then St.unpersisted else status
    let stall := flash && !late && !s.recordFree
    let alone := s.pair.role != .single && !s.mirroring
    let c' := { c with phase := .ended, status := status', result := result % 2 ^ 64,
                       data := data.take 224, doneTime := s.clk,
                       cfgEpoch := (s.rget Reg.mbxCfgEpoch).toNat,
                       waitFlash := flash && !late, waitMirror := s.mirroring, unmirrored := alone, stalled := stall,
                       deadline := s.clk + 50000 }
    let m := s.mbx
    let s := s.setMbx { m with
      cmds := m.cmds.map fun d => if d.accepted && d.index == i then c' else d
      dram := if s.dramJournalOk then ringPut 262144 m.dram c'.entry else m.dram
      bodies := if s.dramJournalOk && cc then aset m.bodies (i % 65536) c.body else m.bodies }
    let s := if s.mirroring then s.emit (.mirror (.journal c'.entry.bytes)) else s
    let s := if alone then s.bump Reg.pairUnmirroredCnt else s
    let s := if stall then (s.bump Reg.mbxStallCnt).raise 0x2003 i else s
    s.postAll

/-- Mirroring ends: the completions that wait for the partner do so no longer. They carry UNMIRRORED
(R502). -/
def mirrorOff (s : State) : State :=
  let n := (s.mbx.cmds.filter (·.waitMirror)).length
  let f (c : Cmd) : Cmd := if c.waitMirror then { c with waitMirror := false, unmirrored := true } else c
  if n = 0 then s else ((s.setMbx { s.mbx with cmds := s.mbx.cmds.map f }).bumpBy Reg.pairUnmirroredCnt n).postAll

/-- A command that had ended and waits for flash completes without its record, since the
flash journal stopped being writable (R120). -/
def unpersistAll (s : State) : State :=
  let f (c : Cmd) : Cmd :=
    if c.waitFlash then
      { c with waitFlash := false, status := if c.status == St.ok then St.unpersisted else c.status }
    else c
  let g (e : JEntry) : JEntry :=
    if e.status == St.ok && s.mbx.cmds.any (fun c => c.accepted && c.index == e.index && c.waitFlash)
    then { e with status := St.unpersisted } else e
  (s.setMbx { s.mbx with cmds := s.mbx.cmds.map f, dram := s.mbx.dram.map g }).postAll

/-- The slot data of a `CAL_LOAD` or `CAL_ADMIT` that no numbered check ended: no check, no
handle, no port (R154; log entry 57). -/
def noCheck : List Byte := leBytes 2 0 ++ leBytes 2 0xFFFF ++ leBytes 8 0 ++ leBytes 1 0xFF ++ leBytes 3 0

/-- Execution ends with a status for which no RESULT is stated (log entry 1). -/
def failCmd (s : State) (i status : Nat) : State := s.free.2.finishCmd i status s.free.1 []

/-- Execution of a command of an opcode never begins, or is cut off. `CAL_LOAD` and `CAL_ADMIT`
return their slot data on every completion (R154). -/
def failOp (s : State) (op i status : Nat) : State :=
  s.free.2.finishCmd i status s.free.1 (if op = 0x0200 ∨ op = 0x0201 then noCheck else [])

/-! ### Taking a slot (R94 to R101) -/

/-- The SEQ verdict of R98. -/
inductive SeqVerdict where
  | accept
  | reject (status : Nat)
  /-- a duplicate of a command that has not completed -/
  | wait (index : Nat)
  /-- a duplicate of a completed one -/
  | replay (e : JEntry)
  deriving DecidableEq, Repr

/-- Judge a sequence number. -/
def judgeSeq (s : State) (host op seq : Nat) (body : List Byte) (restart : Bool) : SeqVerdict :=
  let h := (s.rget (Reg.mbxHostSeq host)).toNat
  let session := (s.rget (Reg.mbxHostSession host)).toNat
  if restart then .accept
  else if h = 0xFFFFFFFF then .reject St.resyncRequired
  else if h < seq then .accept
  else
    match s.mbx.cmds.find? fun c => c.accepted && c.host == host && c.session == session && c.seq == seq with
    | some c => if c.opcode = op ∧ c.body = body then .wait c.index else .reject St.seqConflict
    | none =>
      match s.retained.find? fun e => e.host == host && e.session == session && e.seq == seq with
      | some e =>
        if e.opcode = op ∧ e.bodyCrc = (Crypto.crc32c body).toNat then .replay e
        else .reject St.seqConflict
      | none => .reject St.seqStale

/-- The opcodes that recovery mode permits (R549). -/
def recoveryPermits (op : Nat) : Bool :=
  op == 0x0100 || op == 0x0101 || (0x0C00 ≤ op && op ≤ 0x0C03)

/-- Checks 1 to 6 of R94, given the slot and which of its DWORDs were written. -/
def slotCheck (s : State) (host : Nat) (slot : List Byte) (written : Nat → Bool) : Option Nat :=
  let len := leNat ((slot.drop 6).take 2)
  let op := leNat (slot.take 2)
  let body := (slot.drop 32).take len
  let restart := isRestart op body
  if 224 < len then some St.malformed
  else if !((List.range (8 + (len + 3) / 4)).all written) then some St.lengthUnwritten
  else if leNat ((slot.drop 4).take 1) ≠ host then some St.hostMismatch
  else match catalogue op with
  | none => some St.unknownOpcode
  | some r =>
    if !bit r.hosts host || (s.boot.mode == 2 && !recoveryPermits op) then some St.notPermitted
    else if !r.lens.contains len then some St.malformed
    else if restart ∧ leNat ((slot.drop 8).take 4) ≠ 0 then some St.malformed
    else none

/-- Take a slot: answer it at once, or put it among the accepted commands. -/
def takeSlot (s : State) (host q p : Nat) (slot : List Byte) (written : Nat → Bool) : State :=
  let f (o n : Nat) : Nat := leNat ((slot.drop o).take n)
  let body := (slot.drop 32).take (f 6 2)
  let c : Cmd :=
    { index := noIndex, host := host, queue := q, slot := p, seq := f 8 4, opcode := f 0 2,
      flags := f 2 2, tag := f 12 4, hostTime := f 16 8, expectEpoch := f 24 4,
      session := (s.rget (Reg.mbxHostSession host)).toNat, body := body, acceptTime := s.clk,
      acceptDom := (List.range 4).map s.domNs,
      phase := .ended, cfgEpoch := (s.rget Reg.mbxCfgEpoch).toNat, doneTime := s.clk }
  let add (s : State) (c : Cmd) : State := s.setMbx { s.mbx with cmds := s.mbx.cmds ++ [c] }
  let reject (st : Nat) : State :=
    (add (s.free.2.bump Reg.mbxRejectCnt) { c with status := st, result := s.free.1 }).postAll
  match s.slotCheck host slot written with
  | some st => reject st
  | none =>
    let restart := isRestart c.opcode body
    match s.judgeSeq host c.opcode c.seq body restart with
    | .reject st => reject st
    | .wait i => add s { c with index := i, phase := .replayWait, replayed := true }
    | .replay e =>
      (add s { c with index := e.index, replayed := true, status := e.status, result := e.result,
                      cfgEpoch := e.cfgEpoch }).postAll
    | .accept =>
      let i := (s.rget Reg.mbxJournalHead).toNat
      let h := (s.rget (Reg.mbxHostSeq host)).toNat
      let s := s.rset Reg.mbxJournalHead (s.rget Reg.mbxJournalHead + 1)
      let s := if restart then s else s.rset (Reg.mbxHostSeq host) (BitVec.ofNat 32 c.seq)
      add s { c with index := i, phase := .accepted, hBefore := h }

/-! ### What lets a command execute (R92, R93, R102, R120) -/

/-- How an execution goes on. -/
inductive Exec where
  /-- it ends now -/
  | done (s : State) (status result : Nat) (data : List Byte)
  /-- it has begun and ends by an event of its own, at a deadline where it has one -/
  | run (s : State) (deadline : Nat)
  /-- it does not begin yet -/
  | wait
  deriving DecidableEq, Repr

/-- The command that a queue executes next: the oldest accepted one whose execution has
not ended. -/
def headCmd (s : State) (host q : Nat) : Option Cmd :=
  s.mbx.cmds.find? fun c => c.accepted && c.host == host && c.queue == q && c.phase != .ended

/-- Whether an earlier accepted command of the host has not completed (R93). -/
def earlierOpen (s : State) (c : Cmd) : Bool :=
  (s.mbx.cmds.takeWhile (· ≠ c)).any fun d => d.accepted && d.host == c.host

/-- Whether an earlier class C command has not ended its execution (R102). -/
def earlierClassC (s : State) (c : Cmd) : Bool :=
  (s.mbx.cmds.takeWhile (· ≠ c)).any fun d => d.accepted && isClassC d.opcode && d.phase != .ended

/-- Whether commands of an opcode are taken and executed: a core pair runs and the control
domain is not quenched. A device that waits in a quench at device level takes the `FENCE_RELEASE`
that R529 asks for (log entry 26). -/
def commandsRun (s : State) (op : Nat) : Bool :=
  (s.corePair.isSome && !s.quenched 3) || (op == 0x0B01 && (s.fdom 0).state.isolated)

/-- Whether a command may begin. -/
def mayBegin (s : State) (c : Cmd) : Bool :=
  c.phase == .accepted && s.commandsRun c.opcode &&
    !((c.fence || c.opcode == 0x0102) && s.earlierOpen c) &&
    !(isClassC c.opcode && s.earlierClassC c) &&
    !(s.mbx.residentWait && (c.opcode == 0x0103 || c.opcode / 256 == 2))

/-- Execute the next command of a queue, when it has the opcode and may begin. -/
def runCmd (s : State) (host q op : Nat) (f : Cmd → State → Exec) : State :=
  match s.headCmd host q with
  | none => s
  | some c =>
    if c.opcode ≠ op ∨ !s.mayBegin c then s
    else if c.ifEpoch ∧ (s.rget Reg.mbxCfgEpoch).toNat ≠ c.expectEpoch then
      s.failOp op c.index St.epochMismatch
    else if isClassC op ∧ !s.flashOk then s.failOp op c.index St.journalUnavailable
    else
      match f c s with
      | .wait => s
      | .run s' t =>
        s'.cmdMod c.index fun c => { c with phase := .running, deadline := t, pair := (s.corePair).getD 0 }
      | .done s' st r d => s'.finishCmd c.index st r d

/-- Execute the next command of a queue, whose table is read by DMA: where it lies, and its
length (R36). -/
def runDma (s : State) (host q op : Nat) (at_ len : Cmd → Nat) (f : Cmd → State → Exec) : State :=
  s.runCmd host q op fun c s =>
    match f c s with
    | .done t 0 r d => .done (if c.host = 0 then t.hostIn (at_ c) (len c) else t) 0 r d
    | x => x

/-- A running command of an opcode at the head of a queue. -/
def runningCmd (s : State) (host q op : Nat) : Option Cmd :=
  (s.headCmd host q).filter fun c => c.opcode == op && c.phase == .running

end State

/-- An execution that fails with slot data: no effect. Where a chapter states no RESULT for a
failure, RESULT is a free value (log entry 1). -/
def State.Exec.failData (s : State) (status : Nat) (data : List Byte) : State.Exec :=
  .done s.free.2 status s.free.1 data

/-- An execution that fails: no effect, and no data. -/
def State.Exec.fail (s : State) (status : Nat) : State.Exec := State.Exec.failData s status []

/-- A check at the head of an execution: the first one that fails gives the status. -/
def State.Exec.check (ok : Bool) (s : State) (status : Nat) (rest : State.Exec) : State.Exec :=
  if ok then rest else State.Exec.fail s status

end Sys2Proof.Machine
end

