-- ==== Sys2Proof/Machine/Parse.lean ====
section
/-! DEFINITION.
The parser of the forwarding pipelines (R178, R179), and the keys formed from what it
finds: the firewall key (R183), the exact-match keys (R184, R185) and their hashes (R186). -/

namespace Sys2Proof.Machine

/-- What the parser takes from a frame (R178). -/
structure Hdr where
  da : List Byte := Crypto.zeros 6
  sa : List Byte := Crypto.zeros 6
  tagged : Bool := false
  /-- VID, PCP and DEI of the first tag -/
  tagVid : Nat := 0
  pcp : Nat := 0
  dei : Bool := false
  rtag : Option Nat := none
  etherType : Nat := 0
  secTag : Bool := false
  v4 : Bool := false
  v6 : Bool := false
  srcIp : List Byte := Crypto.zeros 16
  dstIp : List Byte := Crypto.zeros 16
  proto : Nat := 0
  tos : Nat := 0
  ttl : Nat := 0
  frag : Bool := false
  l4 : Bool := false
  sport : List Byte := Crypto.zeros 2
  dport : List Byte := Crypto.zeros 2
  tcpFlags : Nat := 0
  icmpType : Nat := 0
  truncated : Bool := false
  /-- bytes of DA, SA, tags, R-TAG and EtherType -/
  l3 : Nat := 14
  /-- IPv4 total length, or 40 and the IPv6 payload length -/
  ipLen : Option Nat := none
  /-- AVTP: subtype, and the stream ID where it is valid -/
  avtp : Option (Nat × Option (List Byte)) := none
  /-- PTP message type -/
  ptp : Option Nat := none
  /-- ARP: opcode and target protocol address -/
  arp : Option (Nat × List Byte) := none
  deriving DecidableEq, Repr

/-- `n` bytes at an offset, as a number in network order. -/
def be (w : List Byte) (off n : Nat) : Nat := beNat ((w.drop off).take n)

/-- The L4 header at an offset (R178): TCP with its options, UDP, ICMP and ICMPv6. -/
def parseL4 (w : List Byte) (off : Nat) (h : Hdr) : Hdr :=
  let len := if h.proto = 6 then max 20 (4 * (be w (off + 12) 1 / 16)) else if h.proto = 17 then 8 else if h.proto = 1 ∨ h.proto = 58 then 4 else 0
  if len = 0 then h
  else if w.length < off + len then { h with truncated := true }
  else if len = 4 then { h with l4 := true, icmpType := be w off 1 }
  else { h with l4 := true, sport := (w.drop off).take 2, dport := (w.drop (off + 2)).take 2,
                tcpFlags := if h.proto = 6 then be w (off + 13) 1 else 0 }

/-- The IPv6 extension headers at an offset: at most four of the types listed in R178. -/
def parseExt (w : List Byte) : Nat → Nat → Nat → Bool → Hdr → Hdr
  | left, next, off, later, h =>
    let ext := next == 0 || next == 43 || next == 44 || next == 60
    match left with
    | 0 => if ext then { h with proto := next } else
        if later then { h with proto := next } else parseL4 w off { h with proto := next }
    | k + 1 =>
      if !ext then
        if later then { h with proto := next } else parseL4 w off { h with proto := next }
      else if w.length < off + 8 then { h with proto := next, truncated := true }
      else if next = 44 then
        parseExt w k (be w off 1) (off + 8) (later || be w (off + 2) 2 / 8 ≠ 0) { h with frag := true }
      else
        let len := (be w (off + 1) 1 + 1) * 8
        if w.length < off + len then { h with proto := next, truncated := true }
        else parseExt w k (be w off 1) (off + len) later h

/-- AVTP, PTP and ARP after the EtherType (R178; log entry 56 for their layouts). -/
def parseOther (w : List Byte) (h : Hdr) : Hdr :=
  let off := h.l3
  let long (n : Nat) (g : Hdr) : Hdr := if w.length < off + n then { h with truncated := true } else g
  if h.etherType = 0x22F0 then
    let sv := bit (be w (off + 1) 1) 7
    long (if sv then 12 else 4)
      { h with avtp := some (be w off 1, if sv then some ((w.drop (off + 4)).take 8) else none) }
  else if h.etherType = 0x88F7 then long 34 { h with ptp := some (be w off 1 % 16) }
  else if h.etherType = 0x0806 then
    let hl := be w (off + 4) 1
    let pl := be w (off + 5) 1
    long (8 + 2 * (hl + pl)) { h with arp := some (be w (off + 6) 2, (w.drop (off + 8 + 2 * hl + pl)).take pl) }
  else h

/-- The IP header after the EtherType, in the parser window. -/
def parseIp (w : List Byte) (h : Hdr) : Hdr :=
  let off := h.l3
  if h.etherType = 0x0800 then
    let ihl := be w off 1 % 16
    if w.length < off + 20 ∨ w.length < off + 4 * ihl then { h with truncated := true }
    else if ihl < 5 then h
    else
      let ff := be w (off + 6) 2
      let h := { h with v4 := true, tos := be w (off + 1) 1, ipLen := some (be w (off + 2) 2),
                        ttl := be w (off + 8) 1, proto := be w (off + 9) 1,
                        srcIp := fit 16 ((w.drop (off + 12)).take 4),
                        dstIp := fit 16 ((w.drop (off + 16)).take 4),
                        frag := decide (ff % 0x4000 ≠ 0) }
      if ff % 0x2000 ≠ 0 then h else parseL4 w (off + 4 * ihl) h
  else if h.etherType = 0x86DD then
    if w.length < off + 40 then { h with truncated := true }
    else
      parseExt w 4 (be w (off + 6) 1) (off + 40) false
        { h with v6 := true, tos := be w off 2 / 16 % 256, ipLen := some (40 + be w (off + 4) 2),
                 ttl := be w (off + 7) 1, srcIp := (w.drop (off + 8)).take 16,
                 dstIp := (w.drop (off + 24)).take 16 }
  else parseOther w h

/-- Parse the first 512 bytes of a frame. -/
def parse (frame : List Byte) : Hdr :=
  let w := frame.take 512
  let tag (o : Nat) : Bool := be w o 2 == 0x8100 || be w o 2 == 0x88A8
  let t1 := tag 12
  let t2 := t1 && tag 16
  let o := if t2 then 20 else if t1 then 16 else 12
  let r := be w o 2 == 0xF1C1
  let o' := if r then o + 6 else o
  let h : Hdr :=
    { da := fit 6 w, sa := fit 6 (w.drop 6), tagged := t1,
      tagVid := if t1 then be w 14 2 % 4096 else 0, pcp := if t1 then be w 14 2 / 8192 else 0,
      dei := t1 && bit (be w 14 2) 12, rtag := if r then some (be w (o + 4) 2) else none,
      etherType := be w o' 2, secTag := be w o' 2 == 0x88E5, l3 := o' + 2 }
  if h.secTag then h else parseIp w h

/-- Whether an address is a group address. -/
def groupAddr (a : List Byte) : Bool := bit (a.headD 0).toNat 0

/-- Whether an address is broadcast. -/
def broadcast (a : List Byte) : Bool := a == List.replicate 6 0xFF

/-- Whether an address lies in 01-80-C2-00-00-00 to 01-80-C2-00-00-0F (R182). -/
def reservedDa (a : List Byte) : Bool := beNat a / 16 == 0x0180C2000000 / 16

/-- The firewall key (R183). -/
def fwKey (h : Hdr) (src vid pcp : Nat) (routed : Bool) (handle : Option Nat) (vrf : Nat) : List Byte :=
  leBytes 1 src ++
  leBytes 1 (b2n h.tagged + 2 * b2n h.v4 + 4 * b2n h.v6 + 8 * b2n h.frag + 16 * b2n h.l4 +
    32 * b2n routed + 64 * b2n handle.isSome + 128 * b2n (groupAddr h.da)) ++
  leBytes 2 (vid + 4096 * b2n h.dei + 8192 * pcp) ++ beBytes 2 h.etherType ++ leBytes 1 h.proto ++
  leBytes 1 h.tos ++ h.da ++ h.sa ++ h.srcIp ++ h.dstIp ++ h.sport ++ h.dport ++
  leBytes 1 h.tcpFlags ++ leBytes 1 h.icmpType ++ leBytes 2 (handle.getD 0xFFFF) ++
  leBytes 1 vrf ++ leBytes 3 0

/-- An L2 key (R184). -/
def l2Key (fid : Nat) (mac : List Byte) : List Byte :=
  fit 40 (leBytes 2 1 ++ leBytes 2 (fid % 4096) ++ mac)

/-- A host key of a routed frame (R184, R194). -/
def hostKey (h : Hdr) (vrf : Nat) : List Byte :=
  if h.v6 then fit 40 (leBytes 1 3 ++ leBytes 1 vrf ++ leBytes 2 0 ++ h.dstIp)
  else fit 40 (leBytes 1 2 ++ leBytes 1 vrf ++ leBytes 2 0 ++ h.dstIp.take 4)

/-- Whether the sender of a frame is the LO endpoint of its connection (R185). -/
def senderLo (h : Hdr) : Bool :=
  beNat h.srcIp < beNat h.dstIp || (h.srcIp == h.dstIp && beNat h.sport ≤ beNat h.dport)

/-- The normalised connection key of a frame (R185). -/
def connKey (h : Hdr) (vrf : Nat) : List Byte :=
  let ports := h.l4 && (h.proto == 6 || h.proto == 17)
  let sp := if ports then h.sport else leBytes 2 0
  let dp := if ports then h.dport else leBytes 2 0
  let head := leBytes 1 (if h.v6 then 5 else 4) ++ leBytes 1 vrf ++ leBytes 1 h.proto ++ leBytes 1 0
  if senderLo h then head ++ h.srcIp ++ h.dstIp ++ sp ++ dp else head ++ h.dstIp ++ h.srcIp ++ dp ++ sp

/-- The two candidate buckets of a key (R186). -/
def buckets (key : List Byte) : Nat × Nat :=
  let h0 := (Crypto.crc32c key).toNat % 65536
  let h1 := (Crypto.crc32 key).toNat % 65536
  (h0, if h1 = h0 then Nat.xor h0 0xFFFF else h1)

/-- Whether a key of a command is valid (R184). -/
def keyValid (k : List Byte) : Bool :=
  let z (a n : Nat) : Bool := ((k.drop a).take n).all (· == 0)
  match (k.headD 0).toNat with
  | 1 => z 1 1 && be k 3 1 < 16 && z 10 30
  | 2 => z 2 2 && z 8 32
  | 3 => z 2 2 && z 20 20
  | 4 => z 3 1 && z 8 12 && z 24 12
  | 5 => z 3 1
  | _ => false

/-- Whether a key names a connection. -/
def isConn (k : List Byte) : Bool := (k.headD 0).toNat == 4 || (k.headD 0).toNat == 5

end Sys2Proof.Machine
end

