-- ==== Sys2Proof/Machine/Tables.lean ====
section
/-! DEFINITION.
The tables of the forwarding pipelines under epochs (R184 to R195, R204 to R213): lookup,
insertion with relocation, and the application of a transaction. -/

namespace Sys2Proof.Machine

/-- The number in `n` bytes of a record at an offset, low byte first. -/
def le (l : List Byte) (off n : Nat) : Nat := leNat ((l.drop off).take n)

/-- The epoch mark of an entry that every frame in the four-epoch window sees. -/
def settled : Nat := 65536

/-- How many epochs `e` lies behind the epoch `cur`. -/
def epochAge (cur e : Nat) : Nat := (cur + 65536 - e) % 65536

/-- Whether a frame bound to `e` sees an entry of the range added, deleted (R204). -/
def visible (cur added : Nat) (deleted : Option Nat) (e : Nat) : Bool :=
  (added == settled || epochAge cur e ≤ epochAge cur added) &&
    (match deleted with
     | none => true
     | some d => epochAge cur d < epochAge cur e)

/-- The content that a frame bound to `e` sees of a versioned place. -/
def versionAt {α : Type} (cur : Nat) (l : List (Versioned α)) (e : Nat) : Option α :=
  (l.find? fun v => visible cur v.added v.deleted e).map (·.value)

/-- A versioned place whose content is replaced, or removed, from epoch `e` on. -/
def versionSet {α : Type} (l : List (Versioned α)) (e : Nat) (v : Option α) : List (Versioned α) :=
  let old := l.filterMap fun x =>
    if x.deleted.isSome then some x
    else if x.added = e then none
    else some { x with deleted := some e }
  match v with
  | none => old
  | some c => ⟨e, none, c⟩ :: old

/-- Marks that leave the window as the epoch becomes `cur`: old additions are settled, and
content deleted more than three epochs ago is gone. -/
def versionsSettle {α : Type} (cur : Nat) (l : List (Versioned α)) : List (Versioned α) :=
  (l.filter fun v => match v.deleted with
    | none => true
    | some d => epochAge cur d ≤ 3).map fun v =>
      if 3 < epochAge cur v.added then { v with added := settled } else v

/-- Bytes of the content at reset of a VLAN entry and of a port attribute set (R213). -/
def vlanDefault (vid : Nat) : List Byte :=
  if vid = 1 then leBytes 8 (2 ^ 64 - 1) ++ leBytes 1 0 ++ leBytes 1 7 ++ leBytes 2 1 ++ leBytes 4 0
  else leBytes 16 0

def portDefault (p : Nat) : List Byte :=
  leBytes 2 1 ++ leBytes 2 (if p < 64 then 0x7F else 0x76) ++ leBytes 12 0

namespace State

/-- The current forwarding epoch. -/
def epoch (s : State) : Nat := s.rfld Reg.fwdEpoch 0 16

/-- The VLAN entry of a VID, the attributes of a port and a replication list, as a frame
bound to epoch `e` sees them. -/
def vlanAt (s : State) (e vid : Nat) : List Byte :=
  match aget s.fwd.vlans vid with
  | none => vlanDefault vid
  | some l => (versionAt s.epoch l e).getD (vlanDefault vid)

def portAttr (s : State) (e p : Nat) : List Byte :=
  match aget s.fwd.ports p with
  | none => portDefault p
  | some l => (versionAt s.epoch l e).getD (portDefault p)

def listAt (s : State) (e i : Nat) : Option (List Byte) :=
  versionAt s.epoch (agetD s.fwd.lists i []) e

/-! ### Exact match (R184 to R191) -/

/-- Where a place stands in the order of a probe for a key (R187). -/
def placeRank (key : List Byte) (p : EmPlace) : Nat :=
  match p with
  | .bucket b slot => if b = (buckets key).1 then slot else 4 + slot
  | .overflow i => 8 + i

/-- Whether a frame bound to `e` sees an entry. -/
def emVisible (s : State) (e : Nat) (x : EmEntry) : Bool :=
  match x.range with
  | none => true
  | some (a, d) => visible s.epoch a d e

/-- The first entry of a list in the order of the probe. -/
def emFirst (key : List Byte) (l : List EmEntry) : Option EmEntry :=
  l.foldl (fun best x => match best with
    | none => some x
    | some y => if placeRank key x.place < placeRank key y.place then some x else best) none

/-- A probe (R187). A relocated entry and its old copy are both valid for a while (R191). -/
def emProbe (s : State) (e : Nat) (key : List Byte) : Option EmEntry :=
  emFirst key ((s.fwd.em ++ s.fwd.moving).filter fun x => x.key == key && s.emVisible e x)

/-- Whether a place is held, by an entry or by the old copy of one that moves. -/
def placeHeld (s : State) (p : EmPlace) : Bool :=
  (s.fwd.em ++ s.fwd.moving).any (·.place == p)

/-- The lowest free slot of a bucket. -/
def freeSlot (s : State) (b : Nat) : Option Nat := (List.range 4).find? fun i => !s.placeHeld (.bucket b i)

/-- The other candidate bucket of the entry at a place. -/
def otherBucket (s : State) (b slot : Nat) : Option Nat :=
  (s.fwd.em.find? (·.place == .bucket b slot)).map fun x =>
    let (h0, h1) := buckets x.key
    if h0 = b then h1 else h0

/-- Relocation paths of `n + 1` moves that start in a bucket, near end first: the bucket
and slot that each move empties (R190). -/
def paths (s : State) : Nat → Nat → List (List (Nat × Nat))
  | 0, b => (List.range 4).map fun i => [(b, i)]
  | n + 1, b => (List.range 4).flatMap fun i =>
      match s.otherBucket b i with
      | none => []
      | some o => (s.paths n o).map fun p => (b, i) :: p

/-- Whether the far end of a path moves into a free slot. -/
def pathEnds (s : State) (p : List (Nat × Nat)) : Option EmPlace :=
  (p.getLast?).bind fun (b, i) => (s.otherBucket b i).bind fun o => (s.freeSlot o).map (.bucket o ·)

/-- The first relocation path of at most three moves, breadth first. -/
def findPath (s : State) (key : List Byte) : Option (List (Nat × Nat) × EmPlace) :=
  let (h0, h1) := buckets key
  ((List.range 3).flatMap fun n => s.paths n h0 ++ s.paths n h1).findSome? fun p =>
    if p.Nodup then (s.pathEnds p).map fun t => (p, t) else none

/-- Copy the entry at a place to another: the old copy stays valid (R191). -/
def moveEntry (s : State) (src dst : EmPlace) : State :=
  let f := s.fwd
  (s.setFwd { f with
    em := f.em.map fun x => if x.place == src then { x with place := dst } else x
    moving := f.moving ++ f.em.filter (·.place == src)
    movedAt := s.clk }).bump Reg.fwdRelocateCnt

/-- Eight pipeline cycles after the last relocation the old copies are invalidated, and their
hit bits pass to the new ones (R191). -/
def invalidateOld (s : State) : State :=
  if s.fwd.moving.isEmpty then s
  else
    let s := s.waitUntil (s.fwd.movedAt + 8)
    let f := s.fwd
    s.setFwd { f with
      moving := []
      em := f.em.map fun x => if f.moving.any fun o => o.serial == x.serial && o.hit then { x with hit := true } else x }

/-- Apply the moves of a path from its far end (R190); each is over before the next. -/
def applyPath (s : State) : List (Nat × Nat) → EmPlace → State
  | [], _ => s
  | (b, i) :: r, t =>
    match r with
    | [] => (s.moveEntry (.bucket b i) t).invalidateOld
    | (b', i') :: _ => ((s.applyPath r t).moveEntry (.bucket b i) (.bucket b' i')).invalidateOld

/-- The lowest free overflow entry. -/
def freeOverflow (s : State) : Option Nat :=
  (List.range ((s.fwd.em ++ s.fwd.moving).length + 1)).find? fun i =>
    !s.placeHeld (.overflow i) && i < 8192

/-- The place of a new entry, with the moves applied that free it (R190). -/
def emPlaceFor (s : State) (key : List Byte) : Option (State × EmPlace) :=
  let (h0, h1) := buckets key
  match s.freeSlot h0 with
  | some i => some (s, .bucket h0 i)
  | none =>
    match s.freeSlot h1 with
    | some i => some (s, .bucket h1 i)
    | none =>
      match s.findPath key with
      | some ((b, i) :: r, t) => some (s.applyPath ((b, i) :: r) t, .bucket b i)
      | _ => s.freeOverflow.map fun i => (s, .overflow i)

/-- Insert an entry; none when no place is found. -/
def emInsert (s : State) (key data : List Byte) (range : Option (Nat × Option Nat)) : Option State :=
  (s.emPlaceFor key).map fun (t, p) =>
    let x : EmEntry := { place := p, key := key, data := data, range := range, hit := false, age := 0,
                         learnTime := t.clk, conflictAt := none, serial := t.fwd.serial }
    t.setFwd { t.fwd with em := t.fwd.em ++ [x], serial := t.fwd.serial + 1 }

/-- Move overflow entries back into buckets that have a free slot (R190). -/
def pullBack : Nat → State → State
  | 0, s => s
  | n + 1, s =>
    let cand := s.fwd.em.findSome? fun x =>
      match x.place with
      | .bucket _ _ => none
      | .overflow _ =>
        let (h0, h1) := buckets x.key
        match s.freeSlot h0, s.freeSlot h1 with
        | some i, _ => some (x, EmPlace.bucket h0 i)
        | none, some i => some (x, EmPlace.bucket h1 i)
        | none, none => none
    match cand with
    | none => s
    | some (x, p) => pullBack n (s.moveEntry x.place p)

/-- Overflow entries move into whatever a deletion has freed. -/
def emFreed (s : State) : State := pullBack s.fwd.em.length s

/-- Remove exact-match entries, and move overflow entries into what that frees. -/
def emRemove (s : State) (gone : EmEntry → Bool) : State :=
  let keep (l : List EmEntry) : List EmEntry := l.filter fun x => !gone x
  let t := s.setFwd { s.fwd with em := keep s.fwd.em, moving := keep s.fwd.moving }
  if t.fwd.em.length = s.fwd.em.length then t else t.emFreed

/-- Change the entries that a test picks, with the old copies of those that move (R191). -/
def emChange (s : State) (p : EmEntry → Bool) (f : EmEntry → EmEntry) : State :=
  let g (x : EmEntry) : EmEntry := if p x then f x else x
  s.setFwd { s.fwd with em := s.fwd.em.map g, moving := s.fwd.moving.map g }

/-- Change the entries of a key that a new frame sees. -/
def emMod (s : State) (key : List Byte) (f : EmEntry → EmEntry) : State :=
  s.emChange (fun x => x.key == key && s.emVisible s.epoch x) f

/-- The hit bit of an entry is set, wherever it stands now (R233). -/
def emHit (s : State) (key : List Byte) (serial : Nat) : State :=
  s.emChange (fun x => x.key == key && x.serial == serial) fun x => { x with hit := true }

/-! ### LPM (R193, R194) -/

/-- TCAM entries of a prefix. -/
def lpmSize (x : LpmEntry) : Nat := if x.family = 6 then 2 else 1

/-- TCAM entries in use. -/
def lpmUsed (s : State) : Nat := (s.fwd.lpm.map lpmSize).sum

/-- Whether a prefix of a family can stand at an index: in the TCAM, at an even index for IPv6,
and on no entry in use. -/
def lpmFree (l : List LpmEntry) (family i : Nat) : Bool :=
  let n := if family = 6 then 2 else 1
  i % n == 0 && i + n ≤ 32768 && l.all fun y => i + n ≤ y.index || y.index + lpmSize y ≤ i

/-- The lowest index for a prefix above every longer and below every shorter one of its VRF and
family, when one is free. -/
def lpmGap (l : List LpmEntry) (x : LpmEntry) : Option Nat :=
  let peers := l.filter fun y => y.vrf == x.vrf && y.family == x.family
  let lo := ((peers.filter fun y => x.len < y.len).map fun y => y.index + lpmSize y).foldl max 0
  let hi := ((peers.filter fun y => y.len < x.len).map (·.index)).foldl min 32768
  (lo :: l.map fun y => let e := y.index + lpmSize y; e + e % lpmSize x).filter
    (fun i => lo ≤ i && i + lpmSize x ≤ hi && lpmFree l x.family i) |>.min?

/-- Put a prefix into the sorted TCAM (R193): into a gap, or in the place of the first shorter
prefix of its VRF and family, which moves on in its turn. The answer counts the moves. -/
def lpmPut : Nat → List LpmEntry → LpmEntry → Option (List LpmEntry × Nat)
  | 0, _, _ => none
  | n + 1, l, x =>
    match lpmGap l x with
    | some i => some (l ++ [{ x with index := i }], 0)
    | none =>
      let shorter := l.filter fun y => y.vrf == x.vrf && y.family == x.family && y.len < x.len
      match shorter.foldl (fun b y => match b with
        | none => some y
        | some z => if y.index < z.index then some y else b) (none : Option LpmEntry) with
      | none => none
      | some v =>
        (lpmPut n (l.filter (· ≠ v) ++ [{ x with index := v.index }]) v).map fun r => (r.1, r.2 + 1)

/-- All prefixes packed together: IPv6 first, and the longer before the shorter. -/
def lpmPack (l : List LpmEntry) : List LpmEntry :=
  let key (x : LpmEntry) : Nat := (if x.family = 6 then 0 else 256) + (128 - x.len)
  ((sortOn key l).foldl (fun (r, i) x => (r ++ [{ x with index := i }], i + lpmSize x)) ([], 0)).1

/-- A new prefix finds its place in a TCAM that has room for it, and each prefix that moves for
it counts as a relocation (R193). Where sorting alone frees no place, the whole TCAM is packed
(log entry 19). -/
def lpmInsert (s : State) (x : LpmEntry) : State :=
  let l := s.fwd.lpm
  let (m, n) := (lpmPut (l.length + 1) l x).getD (
    let p := lpmPack l
    let moved := (p.filter fun y => !l.contains y).length
    let q := (lpmPut (l.length + 1) p x).getD (p ++ [x], 0)
    (q.1, q.2 + moved))
  (List.range n).foldl (fun s _ => s.bump Reg.fwdRelocateCnt) (s.setFwd { s.fwd with lpm := m })

/-- Whether an address of a family has a prefix. -/
def prefixHit (family len pre addr : Nat) : Bool :=
  let w := if family = 6 then 128 else 32
  pre / 2 ^ (w - len) == addr / 2 ^ (w - len)

/-- The longest prefix of an address. -/
def lpmFind (s : State) (e vrf family addr : Nat) : Option LpmEntry :=
  (s.fwd.lpm.filter fun x => x.vrf == vrf && x.family == family && prefixHit family x.len x.addr addr &&
    visible s.epoch x.added x.deleted e).foldl
    (fun best x => match best with
      | none => some x
      | some y => if y.len < x.len then some x else best) none

/-! ### Epochs and transactions (R204 to R209) -/

/-- The forwarding epoch advances by one on both pipelines. -/
def advanceEpoch (s : State) : State :=
  let cur := (s.epoch + 1) % 65536
  let s := s.rsetF Reg.fwdEpoch 0 16 cur
  let old (a : Nat) : Nat := if a ≠ settled ∧ 3 < epochAge cur a then settled else a
  let live (d : Option Nat) : Bool := match d with
    | none => true
    | some d => epochAge cur d ≤ 3
  let f := s.fwd
  let settle (l : List EmEntry) : List EmEntry :=
    (l.filter fun x => match x.range with
      | none => true
      | some (_, d) => live d).map fun x => { x with range := x.range.map fun (a, d) => (old a, d) }
  let s := s.setFwd { f with
    em := settle f.em
    moving := settle f.moving
    changeAt := some s.clk
    lpm := (f.lpm.filter fun x => live x.deleted).map fun x => { x with added := old x.added }
    vlans := f.vlans.map fun (i, l) => (i, versionsSettle cur l)
    lists := f.lists.map fun (i, l) => (i, versionsSettle cur l)
    ports := f.ports.map fun (i, l) => (i, versionsSettle cur l) }
  (s.setSec { s.sec with rules := s.sec.rules.map fun (i, l) => (i, versionsSettle cur l) }).emFreed

/-- Frames that are bound to an epoch before `e`, which lies in the window (R209). -/
def boundBefore (s : State) (e : Nat) : Nat :=
  (s.fr.frames.filter fun f => f.decided && epochAge s.epoch e < epochAge s.epoch f.epoch).length

/-- Frames bound to an epoch. -/
def boundTo (s : State) (e : Nat) : Nat := (s.fr.frames.filter fun f => f.decided && f.epoch == e).length

/-- Whether R206 refuses a further epoch. -/
def epochLimit (s : State) : Bool := 0 < s.boundTo ((s.epoch + 65536 - 3) % 65536)

/-- Give back the storage that no bound frame can read (R205). -/
def reclaim (s : State) : State :=
  let cur := s.epoch
  let keep (d : Option Nat) : Bool := match d with
    | none => true
    | some d => s.fr.frames.any fun f => f.decided && epochAge cur d < epochAge cur f.epoch
  let f := s.fwd
  let vs (l : List (Versioned (List Byte))) := l.filter fun v => keep v.deleted
  let t := s.setFwd { f with
    lpm := f.lpm.filter fun x => keep x.deleted
    vlans := f.vlans.map fun (i, l) => (i, vs l)
    lists := f.lists.map fun (i, l) => (i, vs l)
    ports := f.ports.map fun (i, l) => (i, vs l) }
  let t := t.setSec { t.sec with rules := t.sec.rules.map fun (i, l) =>
    (i, l.filter fun v => keep v.deleted) }
  t.emRemove fun x => match x.range with
    | none => false
    | some (_, d) => !keep d

/-- The replication list that an entry's result names, if any (R188). -/
def namesList (res : List Byte) : Option Nat :=
  let action := le res 0 1
  if action = 1 ∨ (action = 4 ∧ bit (le res 6 2) 7) then some (le res 2 2) else none

/-- Whether an entry that stands names a replication list. -/
def listInUse (s : State) (i : Nat) : Bool :=
  (s.fwd.em.any fun x => !isConn x.key && s.emVisible s.epoch x && x.range.isSome && namesList x.data == some i) ||
    (s.fwd.lpm.any fun x => x.deleted.isNone && namesList x.result == some i)

/-- A standing entry once it is deleted at epoch `e`; an entry added at `e` leaves no
trace, and a dynamic one gives way at once. -/
def emDeleted (e : Nat) (x : EmEntry) : Option EmEntry :=
  match x.range with
  | none => none
  | some (a, none) => if a = e then none else some { x with range := some (a, some e) }
  | some (_, some _) => some x

/-- The same for a prefix. -/
def lpmDeleted (e : Nat) (x : LpmEntry) : Option LpmEntry :=
  if x.deleted.isSome then some x else if x.added = e then none else some { x with deleted := some e }

/-- Delete the prefixes that a test picks. -/
def lpmKill (s : State) (e : Nat) (p : LpmEntry → Bool) : State :=
  s.setFwd { s.fwd with lpm := s.fwd.lpm.filterMap fun x => if p x then lpmDeleted e x else some x }

/-- Delete the exact-match entries of a key. -/
def emKill (s : State) (e : Nat) (key : List Byte) : State :=
  let kill (l : List EmEntry) : List EmEntry := l.filterMap fun x => if x.key == key then emDeleted e x else some x
  s.setFwd { s.fwd with em := kill s.fwd.em, moving := kill s.fwd.moving }

/-- The data of an entry of a host: a connection entry of a host has no firewall rule (R195). -/
def hostData (key data : List Byte) : List Byte :=
  if isConn key then data.take 2 ++ leBytes 2 0xFFFF ++ data.drop 4 else data

/-- Apply one staged operation at the epoch that has begun: a status, or the tables after
it (R208, R215). -/
def applyOp (s : State) (op : TxnOp) : Nat × State :=
  let e := s.epoch
  match op with
  | .add 0 replace _ key data =>
    let have_ := (s.fwd.em.find? fun x => x.key == key && x.range.isSome && s.emVisible e x)
    if have_.isSome && !replace then (0x0306, s)
    else if have_.isNone && replace then (0x0307, s)
    else if isConn key && 65536 ≤ (s.fwd.em.filter fun x => isConn x.key && s.emVisible e x).length -
        b2n have_.isSome then (0x0305, s)
    else if !isConn key && ((namesList data).any fun i => (s.listAt e i).isNone) then (0x030B, s)
    else
      let t := s.emKill e key
      match t.emInsert key (hostData key data) (some (e, none)) with
      | none => (0x0305, s)
      | some t => (0, t.emFreed)
  | .add 2 replace i _ data =>
    let have_ := (s.listAt e i).isSome
    if have_ && !replace then (0x0306, s)
    else if !have_ && replace then (0x0307, s)
    else (0, s.setFwd { s.fwd with lists := amod s.fwd.lists i [] fun l => versionSet l e (some data) })
  | .add 1 _ i _ data =>
    (0, s.setFwd { s.fwd with
      vlans := amod s.fwd.vlans i [⟨settled, none, vlanDefault i⟩] fun l => versionSet l e (some data) })
  | .add _ _ i _ data =>
    (0, s.setFwd { s.fwd with
      ports := amod s.fwd.ports i [⟨settled, none, portDefault i⟩] fun l => versionSet l e (some data) })
  | .del 0 _ key =>
    if (s.fwd.em.any fun x => x.key == key && x.range.isSome && s.emVisible e x) then
      (0, (s.emKill e key).emFreed)
    else (0x0307, s)
  | .del _ i _ =>
    if (s.listAt e i).isNone then (0x0307, s)
    else if s.listInUse i then (0x030C, s)
    else (0, s.setFwd { s.fwd with lists := amod s.fwd.lists i [] fun l => versionSet l e none })
  | .lpmAdd replace vrf family len addr result =>
    let same (x : LpmEntry) : Bool := x.vrf == vrf && x.family == family && x.len == len && x.addr == addr
    let have_ := s.fwd.lpm.any fun x => same x && x.deleted.isNone
    if have_ && !replace then (0x0306, s)
    else if !have_ && replace then (0x0307, s)
    else if (namesList result).any fun i => (s.listAt e i).isNone then (0x030B, s)
    else
      let t := s.lpmKill e same
      if 32768 < t.lpmUsed + (if family = 6 then 2 else 1) then (0x0305, s)
      else (0, t.lpmInsert ⟨vrf, family, len, addr, result, e, none, 0⟩)
  | .lpmDel vrf family len addr =>
    let same (x : LpmEntry) : Bool := x.vrf == vrf && x.family == family && x.len == len && x.addr == addr
    if (s.fwd.lpm.any fun x => same x && x.deleted.isNone) then
      (0, s.lpmKill e same)
    else (0x0307, s)

/-- Apply staged operations in order: the tables after all of them, or the status and the
index of the first that fails. -/
def applyOps (s : State) : Nat → List TxnOp → (Nat × Nat) ⊕ State
  | _, [] => .inr s
  | i, op :: r =>
    match s.applyOp op with
    | (0, t) => t.applyOps (i + 1) r
    | (st, _) => .inl (st, i)

end State

end Sys2Proof.Machine
end

