-- ==== Sys2Proof/Machine/Write.lean ====
section
/-! DEFINITION.
Posted writes (R37, R43, R50 to R52, R59 to R61): where a write goes, what refuses it, and
what a register does when it is written. Beside it stand the records that a write can let
out: the gap records of the receive rings and of the timestamp queues. -/

namespace Sys2Proof.Machine

namespace State

/-! ### Receive rings and timestamp queues (R65, R67 to R70, R77) -/

/-- A receive ring beyond its registers. -/
def rxRing (s : State) (n : Nat) : Ring := agetD s.hif.rx n {}

/-- Change a receive ring. -/
def rxMod (s : State) (n : Nat) (f : Ring → Ring) : State :=
  s.setHif { s.hif with rx := amod s.hif.rx n {} f }

def rxSize (s : State) (n : Nat) : Nat := 2 ^ s.rfld (Reg.hifRxrCfg n) 8 5
def rxEn (s : State) (n : Nat) : Bool := s.rfld (Reg.hifRxrCfg n) 0 1 == 1

/-- Bytes of a receive ring that the host has not consumed. -/
def rxUsed (s : State) (n : Nat) : Nat :=
  (s.rget (Reg.hifRxrProd n) - s.rget (Reg.hifRxrCons n)).toNat

/-- LAP of a record at byte count `p` (R68). -/
def rxLap (s : State) (n p : Nat) : Nat := phase p (s.rxSize n)

/-- Write bytes into a receive ring at byte count `p`. -/
def rxWrite (s : State) (n p : Nat) (b : List Byte) : State :=
  s.hostMem (9 + n) ((s.rxRing n).base + p % s.rxSize n) b

/-- The bytes of a receive header (R67) at byte count `p`. -/
def rxHeaderBytes (s : State) (n p len flags source time : Nat) : List Byte :=
  leBytes 2 len ++ leBytes 1 (s.rxLap n p + flags) ++ leBytes 1 source ++ leBytes 4 time

/-- Write a receive header (R67) at byte count `p`. -/
def rxHeader (s : State) (n p len flags source time : Nat) : State :=
  s.rxWrite n p (s.rxHeaderBytes n p len flags source time)

/-- A receive ring has gained a record that covers `k` bytes. -/
def rxFinish (s : State) (n k : Nat) : State :=
  let s := s.rset (Reg.hifRxrProd n) (s.rget (Reg.hifRxrProd n) + BitVec.ofNat 32 k)
  if s.rfld (Reg.hifRxrCfg n) 1 1 = 1 then s.signal (9 + n) else s

/-- Write the gap record of a receive ring once 8 bytes are free (R70). -/
def rxGap (s : State) (n : Nat) : State :=
  let r := s.rxRing n
  if s.rxEn n && 0 < r.lost && r.busy.isNone && s.rxUsed n + 8 ≤ s.rxSize n then
    let s := s.rxHeader n (s.rget (Reg.hifRxrProd n)).toNat 0 8 0 (r.lost % 2 ^ 32)
    (s.rxMod n fun r => { r with lost := 0 }).rxFinish n 8
  else s

/-- Entries of a timestamp queue that the host has not consumed. -/
def tsqFill (s : State) (g : Nat) : Nat :=
  (s.rget (Reg.hifTsqProd g) - s.rget (Reg.hifTsqCons g)).toNat

/-- Write the next entry of a timestamp queue (R77). -/
def tsqWrite (s : State) (g frameId port flags ns sec : Nat) : State :=
  let k := (s.rget (Reg.hifTsqProd g)).toNat
  let s := s.hostMem (73 + g) (s.rget64 (Reg.hifTsqBaseLo g) + 16 * (k % 64))
    (leBytes 2 frameId ++ leBytes 1 port ++ leBytes 1 (phase k 64 + flags) ++ leBytes 4 ns ++
      leBytes 6 sec ++ leBytes 2 0)
  let s := s.rset (Reg.hifTsqProd g) (s.rget (Reg.hifTsqProd g) + 1)
  if s.rfld (Reg.hifTsqCtrl g) 1 1 = 1 then s.signal (73 + g) else s

/-- Whether a timestamp queue takes entries. -/
def tsqTakes (s : State) (g : Nat) : Bool := s.rfld (Reg.hifTsqCtrl g) 0 1 == 1 && !s.quenched 9

/-- Write the gap entry of a timestamp queue once an entry is free. -/
def tsqGap (s : State) (g : Nat) : State :=
  let lost := agetD s.hif.tsqLost g 0
  if s.tsqTakes g && 0 < lost && s.tsqFill g < 64 then
    let t := s.tsqWrite g 0xFFFF 0 2 (lost % 2 ^ 32) 0
    t.setHif { t.hif with tsqLost := adel t.hif.tsqLost g }
  else s

/-- Offer an entry to a timestamp queue. -/
def tsqPut (s : State) (g frameId port flags ns sec : Nat) : State :=
  let lost := agetD s.hif.tsqLost g 0
  let s' :=
    if !s.tsqTakes g || 0 < lost || 63 ≤ s.tsqFill g then
      (s.setHif { s.hif with tsqLost := aset s.hif.tsqLost g (lost + 1) }).bump (Reg.hifTsqLostCnt g)
    else s.tsqWrite g frameId port flags ns sec
  s'.tsqGap g

/-- Main-host memory can be written again: the writes that waited go out, and every gap record
that is due is written (R41, R65, R70). -/
def dmaBack (s : State) : State :=
  let s := if s.canDma then s.hostFlush else s
  let s := s.evqGap 0
  let s := (List.range 32).foldl (fun s n => s.rxGap n) s
  (List.range 4).foldl (fun s g => s.tsqGap g) s

/-! ### The posted-write failure log (R59 to R61) -/

/-- Record a posted-write failure. The counters of the host domain stop with it. -/
def pwfFail (s : State) (host tag addr : Nat) (data : Word) (timeUs cause : Nat) : State :=
  if s.quenched 9 then s
  else
    let s := if cause = 3 then s.bump Reg.hifGuardFaultCnt else s
    let s := s.bump Reg.hifPwfCnt
    let n := (s.rget Reg.hifPwfCnt).toNat
    let e := 4 * ((n + 2 ^ 32 - 1) % 64)
    let s := s.rset (Reg.hifPwfLog e) (BitVec.ofNat 32 addr)
    let s := s.rset (Reg.hifPwfLog (e + 1)) data
    let s := s.rset (Reg.hifPwfLog (e + 2)) (BitVec.ofNat 32 timeUs)
    let s := s.rset (Reg.hifPwfLog (e + 3))
      (BitVec.ofNat 32 (tag % 2 ^ 16 + 2 ^ 16 * (host % 256) + 2 ^ 24 * cause))
    s.raise 0x1002 n

/-- Record a failure now. -/
def pwfNow (s : State) (host tag addr : Nat) (data : Word) (cause : Nat) : State :=
  s.pwfFail host tag addr data s.clkUs cause

/-- A word is discarded while the host domain is quenched (R525). -/
def discardWord (s : State) (host n : Nat) : State :=
  s.setHif { s.hif with discarded := amod s.hif.discarded host 0 (· + n) }

/-! ### Guarded pairs (R50) -/

/-- The pending value of a guarded register. -/
def guardOf (s : State) (off : Nat) : Option GuardPair := s.hif.guards.find? (·.off == off)

/-- Discard the pending value of a guarded register. -/
def guardDrop (s : State) (off : Nat) : State :=
  s.setHif { s.hif with guards := s.hif.guards.filter (·.off != off) }

/-- Refuse a pending pair at a moment, in µs of the local clock. -/
def guardRefuse (s : State) (g : GuardPair) (timeUs : Nat) : State :=
  (s.guardDrop g.off).pwfFail g.host g.tag g.off g.data timeUs 3

/-- Refuse the pairs whose window has ended. -/
def guardExpire (s : State) : State :=
  s.hif.guards.foldl (fun t g =>
    if g.since + 1000 < s.clk then t.guardRefuse g ((g.since + 1000) / 1000 % 2 ^ 32) else t) s

/-! ### What a register does when it is written -/

/-- The index of an offset in an array of registers. -/
def regIdx (first count stride off : Nat) : Option Nat :=
  if first ≤ off ∧ (off - first) % stride = 0 ∧ (off - first) / stride < count then
    some ((off - first) / stride)
  else none

/-- The queue that an offset belongs to, given the register's offset for main-host queue 0. -/
def sqIdx (first off : Nat) : Option (Nat × Nat) :=
  match regIdx first 8 0x40 off with
  | some q => some (0, q)
  | none => (regIdx (first + 0x400) 2 0x40 off).map fun q => (1, q)

/-- The doorbell (R88, R96). -/
def doorbell (s : State) (host q : Nat) : State :=
  let prod := (s.rget (sqReg (Reg.mbxSqProd 0) host q)).toNat
  let acc := (s.rget (sqReg (Reg.mbxSqAccept 0) host q)).toNat
  let key := 16 * host + q
  if sqDepth host < (prod + 2 ^ 32 - acc) % 2 ^ 32 then
    let s := s.setMbx { s.mbx with
      faults := key :: s.mbx.faults.filter (· ≠ key)
      bells := s.mbx.bells.filter (·.1 ≠ key) }
    s.raise 0x2001 (host + 256 * q)
  else if s.rfld (sqReg (Reg.mbxQCtrl 0) host q) 0 1 = 1 && !s.mbx.faults.contains key then
    s.setMbx { s.mbx with bells := s.mbx.bells ++ [(key, prod)] }
  else s

/-- EN of a command queue rises: only this zeroes its four counts (R127). -/
def queueEnable (s : State) (host q : Nat) : State :=
  let key := 16 * host + q
  let s := s.rset (sqReg (Reg.mbxSqProd 0) host q) 0
  let s := s.rset (sqReg (Reg.mbxSqAccept 0) host q) 0
  let s := s.rset (sqReg (Reg.mbxCqProd 0) host q) 0
  let s := s.rset (sqReg (Reg.mbxCqCons 0) host q) 0
  s.setMbx { s.mbx with
    faults := s.mbx.faults.filter (· ≠ key)
    bells := s.mbx.bells.filter (·.1 ≠ key) }

/-- EN of a command queue falls: no slot is taken, the queue fault clears and held
completions are discarded (R88, R109, R127). -/
def queueDisable (s : State) (host q : Nat) : State :=
  let key := 16 * host + q
  (s.setMbx { s.mbx with
    faults := s.mbx.faults.filter (· ≠ key)
    bells := s.mbx.bells.filter (·.1 ≠ key) }).postAll

/-- Whether a domain follows a source that it can lose (R446, R453). -/
def follows (s : State) (i : Nat) : Bool := (s.domain i).state == .locked || (s.domain i).state == .held

/-- A domain enters HOLDOVER, and drops its slew and its held step (R446, R453). -/
def sourceLost (s : State) (i : Nat) : State :=
  if s.follows i then
    let s := { s with dom := aset s.dom i { s.domain i with state := .holdover, slew := 0, heldStep := 0 } }
    s.raise 0xA003 i
  else s

/-- A domain's source is lost, and the loss is counted (R453). -/
def holdover (s : State) (i : Nat) : State :=
  (if s.follows i then s.bump (Reg.timDomSourceLostCnt i) else s).sourceLost i

/-- GPTP_EN falls: every network domain loses its source. -/
def gptpStop (s : State) : State :=
  (List.range 4).foldl (fun s i => if (s.domain i).source = 1 then s.holdover i else s) s

/-- `SPC_RESERVE` changes: EXHAUSTED may rise with it (R229). -/
def reserveChanged (s : State) (old : Word) : State :=
  (List.range 2).foldl (fun t p => t.exhaustEdge p ((s.rset Reg.spcReserve old).exhausted p)) s

/-- `TIM_SNAP`: latch the local clock and all four domains on one tick (R454). -/
def snapshot (s : State) : State :=
  let s' := s.rset64 Reg.timSnapLocalLo s.clk
  (List.range 4).foldl (fun t d =>
    let ns := s.domNs d
    let sec := ns / 10 ^ 9
    let t := t.rset (Reg.timSnapNs0 d) (BitVec.ofNat 32 (ns % 10 ^ 9))
    let t := t.rset (Reg.timSnapSecLo0 d) (BitVec.ofNat 32 sec)
    t.rset (Reg.timDomSecHi d) (BitVec.ofNat 32 (sec / 2 ^ 32 % 2 ^ 16))) s'

/-- `SEC_FV_WRITE`: set the selected freshness entry (R414). -/
def freshnessSet (s : State) : State :=
  s.setSec { s.sec with fv := aset s.sec.fv (s.rfld Reg.secFvSel 0 10) (s.rget64 Reg.secFvWriteLo) }

/-- The fairness audit is enabled: what the ports noted before tells nothing of the window in
progress (R284). -/
def auditBegin (s : State) : State :=
  s.setTrf { s.trf with ports := s.trf.ports.map fun (p, x) => (p, { x with full := [], gatesSeen := [], served := [] }) }

/-- The effects of a register write beyond the value held. -/
def afterWrite (s : State) (off : Nat) (old new v : Word) : State :=
  let rise := old.toNat % 2 = 0 ∧ new.toNat % 2 = 1
  let fall := old.toNat % 2 = 1 ∧ new.toNat % 2 = 0
  if off = Reg.timSnap then if v.toNat % 2 = 1 then s.snapshot else s
  else if off = Reg.secFvWrite then if v.toNat % 2 = 1 then s.freshnessSet else s
  else if off = Reg.timCtrl then if fall then s.gptpStop else s
  else if off = Reg.spcReserve then s.reserveChanged old
  else if off = Reg.hifHostCtrl then if rise then s.dmaBack else s
  else if off = Reg.trfCtrl then if rise then s.auditBegin else s
  else if off = Reg.bufSchedCells then
    if s.reservedCells ≤ s.schedRequest then s.schedApply else s.raise 0x5002 s.schedRequest
  else if off = Reg.bufOvfRegion ∨ off = Reg.bufCtrl then s.ovfApply
  else match regIdx (Reg.evqCons 0) 2 0x40 off with
  | some h => s.evqGap h
  | none =>
  match regIdx (Reg.hifRxrCons 0) 32 0x40 off with
  | some n => s.rxGap n
  | none =>
  match regIdx (Reg.hifTsqCons 0) 4 0x20 off with
  | some g => s.tsqGap g
  | none =>
  match regIdx (Reg.hifTsqCtrl 0) 4 0x20 off with
  | some g =>
    if rise then ((s.rset (Reg.hifTsqProd g) 0).rset (Reg.hifTsqCons g) 0).tsqGap g
    else if fall then s.heldDrop (73 + g)
    else s
  | none =>
  match sqIdx (Reg.mbxSqProd 0) off with
  | some (h, q) => s.doorbell h q
  | none =>
  match sqIdx (Reg.mbxQCtrl 0) off with
  | some (h, q) => if rise then s.queueEnable h q else if fall then s.queueDisable h q else s
  | none => s

/-- Give a register the bits of a value that its access codes let a host write. -/
def storeReg (s : State) (r : RegRow) (off : Nat) (v : Word) : State :=
  let m : Word := BitVec.ofNat 32 (r.rw ||| r.rwg ||| r.ack)
  let old := s.rget off
  let new := (old &&& ~~~m) ||| (v &&& m)
  (s.rset off new).afterWrite off old new v

/-! ### Where a write goes -/

/-- Whether the host bridge is there to take a write: the Forge die is out of reset. -/
def bridgeUp (s : State) : Bool :=
  (s.pwr.state == .kindle || s.pwr.state == .run) && s.pwr.released

/-- The register row at an offset, as the window is served: recovery mode serves the
`DEV_` and `BOOT_` windows alone (R549). -/
def servedRow (s : State) (off : Nat) : Option RegRow :=
  if s.boot.mode = 2 ∧ off / 0x8000 ≠ 0 ∧ off / 0x8000 ≠ 14 then none else regRow off

/-- Whether the bridge answers reads: the boot ROM has loaded the identity fields (R81). -/
def answersReads (s : State) : Bool := s.bridgeUp && s.pwr.booted

/-- The host that alone may write the register at an offset (R79, R591; MBX_, EVQ_). -/
def regOwner (off : Nat) : Option Nat :=
  if off = Reg.hifHostCtrl ∨ (0x9000 ≤ off ∧ off < 0xC000) then some 0
  else if 0x11000 ≤ off ∧ off < 0x11400 then some 0
  else if 0x11400 ≤ off ∧ off < 0x11800 then some 1
  else if off = Reg.evqCons 0 then some 0
  else if off = Reg.evqCons 1 then some 1
  else none

/-- Whether the block of a register is without clock and power: the datapath island is
held in reset below RUN (R15; log entry 3). -/
def blockDown (s : State) (off : Nat) : Bool :=
  s.pwr.state != .run &&
    (match off / 0x8000 with
     | 3 | 4 | 5 | 6 | 7 | 8 | 15 => true
     | 9 => decide (off < 0x4C000)
     | _ => false)

/-- The cause that refuses a write to a register whatever is written, if any (R59). -/
def refuseCause (s : State) (host off : Nat) : Option Nat :=
  if (regOwner off).any (· ≠ host) then some 8
  else if s.blockDown off then some 1
  else if (writeDomains off).any s.quenched then some 2
  else if off / 0x8000 = 11 && s.pwr.dieLinkFailed then some 5
  else none

/-- A write to the direct register file. -/
def writeDirect (s : State) (host tag off : Nat) (v : Word) : State :=
  match s.servedRow off with
  | none => s.pwfNow host tag off v 4
  | some r =>
    match s.refuseCause host off with
    | some c => s.pwfNow host tag off v c
    | none =>
      if r.rwg ≠ 0 then
        let s := match s.guardOf off with
          | some g => s.guardRefuse g s.clkUs
          | none => s
        s.setHif { s.hif with guards := s.hif.guards ++ [⟨off, v, host, tag, s.clk⟩] }
      else if r.rw ||| r.ack ||| r.wo = 0 then s.pwfNow host tag off v 6
      else s.storeReg r off v

/-- A write to the guard companion window. -/
def writeCompanion (s : State) (host tag off : Nat) (v : Word) : State :=
  match s.servedRow off with
  | none => s.pwfNow host tag (off + 0x80000) v 4
  | some r =>
    if r.rwg = 0 then s.pwfNow host tag (off + 0x80000) v 4
    else match s.refuseCause host off with
    | some c => s.pwfNow host tag (off + 0x80000) v c
    | none =>
      match s.guardOf off with
      | none => s.pwfNow host tag (off + 0x80000) v 3
      | some g =>
        if v = ~~~g.data then (s.guardDrop off).storeReg r off g.data
        else s.guardRefuse g s.clkUs

/-- A write to the alias of bit `b` of the register at `off` (R52). -/
def writeAlias (s : State) (host tag off b : Nat) (v : Word) : State :=
  let addr := 0x01000000 + off * 32 + b * 4
  match s.servedRow off with
  | none => s.pwfNow host tag addr v 6
  | some r =>
    match s.refuseCause host off with
    | some c => s.pwfNow host tag addr v c
    | none =>
      if bit r.rw b then
        s.storeReg { r with rwg := 0, ack := 0 } off
          (BitVec.ofNat 32 (setBits (s.rget off).toNat b 1 v.toNat))
      else s.pwfNow host tag addr v (if r.rwg ≠ 0 then 3 else 6)

/-- A write to a BAR0 offset, which is the SPI address too (R35, R43). -/
def writeReg (s : State) (host tag addr : Nat) (v : Word) : State :=
  let s := s.guardExpire
  if addr < 0x80000 then s.writeDirect host tag addr v
  else if addr < 0x100000 then s.writeCompanion host tag (addr - 0x80000) v
  else if 0x01000000 ≤ addr ∧ addr < 0x02000000 then
    s.writeAlias host tag ((addr - 0x01000000) / 128 * 4) ((addr - 0x01000000) / 4 % 32) v
  else s.pwfNow host tag addr v 4

/-- A posted write of either host to a register: it reaches nothing while the bridge is
off, and it is discarded while the host domain is quenched. -/
def postReg (s : State) (host tag addr : Nat) (v : Word) : State :=
  if !s.bridgeUp then s
  else if s.quenched 9 then s.discardWord host 1
  else s.writeReg host tag addr v

/-- Store a DWORD of slot memory and mark it written (R90). -/
def slotWrite (s : State) (addr : Nat) (b : List Byte) : State :=
  let s := s.mwrite addr b
  s.setMbx { s.mbx with written := addr :: s.mbx.written.filter (· ≠ addr) }

/-- The bytes of a DWORD after a write with byte enables. -/
def mergeBytes (old new : List Byte) (be : Nat) : List Byte :=
  (old.zip new).zipIdx.map fun ((a, b), i) => if bit be i then b else a

/-- A DWORD write to BAR2 (R84, R85). -/
def writeBar2 (s : State) (tag off : Nat) (v : Word) (be : Nat) : State :=
  if !s.bridgeUp || s.quenched 9 then s
  else if 0x80000 ≤ off then s.pwfNow 0 tag (0x40000000 + off) v 4
  else
    let a := 0x40000000 + off / 4 * 4
    s.slotWrite a (mergeBytes (s.mread a 4) (leBytes 4 v.toNat) be)

/-- A word written to the SPI address space (R43). -/
def writeSpi (s : State) (tag addr : Nat) (v : Word) : State :=
  if 0x02000000 ≤ addr ∧ addr < 0x02004000 then s.slotWrite addr (leBytes 4 v.toNat)
  else if (0x02004000 ≤ addr ∧ addr < 0x02004800) ∨ (0x02010000 ≤ addr ∧ addr < 0x02020000) then
    s.mwrite addr (leBytes 4 v.toNat)
  else s.writeReg 1 tag addr v

end State

end Sys2Proof.Machine
end

