-- ==== Sys2Proof/Machine/FrameOps.lean ====
section
/-! DEFINITION.
Frames inside the device: cells and partitions (R248 to R255), queues and their gates and
shapers (R275 to R293), rewriting at egress (R189, R278, R306), statistics (R82), and the
end of a copy and of a frame (R262). -/

namespace Sys2Proof.Machine

/-- The bytes of a frame from DA up to, not including, the FCS, as far as they arrived. -/
def Frame.body (f : Frame) : List Byte := if f.complete then f.bytes.take (f.bytes.length - 4) else f.bytes

/-- The body of a frame as it left the pipeline: without the R-TAG that sequence recovery took
away (R307). -/
def Frame.out (f : Frame) : List Byte :=
  let h := parse f.bytes
  if f.popRtag && h.rtag.isSome then
    let second := if h.tagged && (be f.body 16 2 == 0x8100 || be f.body 16 2 == 0x88A8) then 4 else 0
    let at_ := (if h.tagged then 16 else 12) + second
    f.body.take at_ ++ f.body.drop (at_ + 6)
  else f.body

/-- Whether a frame is speculative: undecided outcome with a record (R217). -/
def Frame.speculative (f : Frame) : Bool := f.record.isSome && f.outcome == .pending

/-- Length of a frame on its ingress lane, with SecTAG and ICV. -/
def Frame.wireLen (f : Frame) : Nat := f.bytes.length + (f.tagInfo.map (·.extra)).getD 0

namespace State

/-! ### Ports -/

/-- The pipeline that serves a source (R21). -/
def pipeOf (src : Nat) : Nat :=
  if src < 4 ∨ (8 ≤ src ∧ src < 16) ∨ (24 ≤ src ∧ src < 36) ∨ (48 ≤ src ∧ src < 56) ∨ src = 65 ∨ src = 67
  then 0 else 1

/-- The fault domain of a pipeline. -/
def pipeDom (p : Nat) : Nat := Dom.pipe0 + p

/-- MAXFRAME of a port; 9,216 for the Tongs link, H0, X0 and X1 (R270, R271). -/
def maxFrame (s : State) (p : Nat) : Nat :=
  if p < 64 then inRange (s.rfld (Reg.bufPortMaxframe p) 0 14) 64 9216 else 9216

/-- What the buffer and the MAC hold of a port. -/
def bport (s : State) (p : Nat) : BufPort := agetD s.buf.ports p {}

/-- Change what they hold. -/
def bportMod (s : State) (p : Nat) (f : BufPort → BufPort) : State :=
  s.setBuf { s.buf with ports := amod s.buf.ports p {} f }

/-- Whether an egress accepts no copy under row 1 of R253: link down, quenched, or the
Tongs link below LINK_STATE 2 (R499, R524). -/
def portDown (s : State) (p : Nat) : Bool :=
  if p < 64 then !(s.bport p).linkUp || s.quenched (portUnit p) || (decide (48 ≤ p) && s.quenched 23)
  else if p = 64 then s.pair.linkState < 2 || s.quenched (portUnit 64)
  else if p = 67 then s.quenched Dom.host
  else s.quenched Dom.services

/-- Whether a port is in drain hold. -/
def inHold (s : State) (p : Nat) : Bool := (s.bport p).schedHold.isSome || (s.bport p).beHold.isSome

/-- Line rate in kb/s of a RATE_CODE (R143). -/
def rateKbps (code : Nat) : Nat :=
  match code with
  | 0 => 10000
  | 1 => 100000
  | 2 => 1000000
  | 3 => 2500000
  | 4 => 5000000
  | 5 => 10000000
  | _ => 25000000

/-- Line rate of a source or an egress in kb/s. -/
def portRate (s : State) (p : Nat) : Nat :=
  if p < 64 then rateKbps (s.bport p).rate else if p = 64 then 100000000 else 2000000

/-- An external PHY's delay in ns from a field of `TIM_PORT_DELAY` (R455). -/
def phyDelay (s : State) (p lo : Nat) : Int :=
  if p < 64 then toSigned 16 (s.rfld (Reg.timPortDelay p) lo 16) / 4 else 0

/-- Time in ns that `n` bytes take at a rate. -/
def bytesNs (kbps n : Nat) : Nat := ceilDiv (8000000 * n) kbps

/-- Queuing state of a port (0 to 63, 64 for H0). -/
def tport (s : State) (p : Nat) : TrfPort := agetD s.trf.ports p {}

/-- Change it. -/
def tportMod (s : State) (p : Nat) (f : TrfPort → TrfPort) : State :=
  s.setTrf { s.trf with ports := amod s.trf.ports p {} f }

/-- The TRF_ port number of an egress in SOURCE coding, where it has one. -/
def trfPort (p : Nat) : Option Nat := if p < 64 then some p else if p = 67 then some 64 else none

/-- The index of a queue in the queue arrays, where it has one. -/
def queueIndex (port queue : Nat) : Option Nat :=
  if port < 64 then some (port * 8 + queue) else if port = 67 then some (512 + queue) else none

/-! ### Frames and copies -/

/-- Change a frame. -/
def fmod (s : State) (fid : Nat) (f : Frame → Frame) : State :=
  s.setFr { s.fr with frames := s.fr.frames.map fun x => if x.fid == fid then f x else x }

/-- The copies of a frame. -/
def copiesOf (s : State) (fid : Nat) : List Copy := s.fr.copies.filter (·.fid == fid)

/-- Change a copy. -/
def cmod (s : State) (fid port : Nat) (f : Copy → Copy) : State :=
  s.setFr { s.fr with copies := s.fr.copies.map fun c => if c.fid == fid && c.port == port then f c else c }

/-- The copies of a queue, oldest first. -/
def queueOf (s : State) (port queue : Nat) : List Copy :=
  s.fr.copies.filter fun c => c.port == port && c.queue == queue

/-- Cells of `n` stored bytes (R248). -/
def cellsOf (n : Nat) : Nat := ceilDiv n 256

/-- On-chip and DRAM cells of a queue. -/
def qCells (s : State) (port queue : Nat) : Nat :=
  (((s.queueOf port queue).filter (·.spill != .inDram)).map fun c => s.fcells c.fid).sum

def qDram (s : State) (port queue : Nat) : Nat :=
  (((s.queueOf port queue).filter fun c => c.spill == .inDram || c.spill == .draining).map
    fun c => s.fcells c.fid).sum

/-- Whether the bytes of a frame are in DRAM alone. -/
def inDram (s : State) (fid : Nat) : Bool := (s.copiesOf fid).any (·.spill == .inDram)

/-- On-chip cells held of a partition (R249). -/
def partUsed (s : State) (p : Partition) : Nat :=
  ((s.fr.frames.filter fun f => f.part == p && !s.inDram f.fid).map (·.cells)).sum

/-- Size of the headroom partition (R249). -/
def headroom (s : State) : Nat := min 16384 ((List.range 64).map fun p => s.rfld (Reg.bufPortHeadroom p) 0 14).sum

/-- Free cells of the shared partition (R249, R251). -/
def sharedFree (s : State) : Nat := 196608 - 2048 - s.headroom - s.buf.sched - s.partUsed .shared - s.orphans false

/-- Shared cells that drains which are due wait for: no admission takes them first (R259). -/
def drainNeed (s : State) : Nat :=
  (s.buf.drainDue.map fun fid => if (s.inDram fid : Bool) then s.fcells fid else 0).sum

/-- DRAM cells that the overflow region holds; none while the requested region is invalid. -/
def ovfCapacity (s : State) : Nat := if s.ovfInvalid then 0 else min 16777216 (65536 * s.buf.ovfSize)

/-- SPILLING with its two thresholds (R257). -/
def spillUpdate (s : State) : State :=
  let on := if s.rfld Reg.bufCtrl 0 1 = 0 then false
    else if s.sharedFree < s.rfld Reg.bufSpillOn 0 18 then true
    else if s.rfld Reg.bufSpillOff 0 18 < s.sharedFree then false
    else s.buf.spilling
  if on = s.buf.spilling then s else s.setBuf { s.buf with spilling := on }

/-- The full overflow region raises `EV_OVF_FULL` once (R260). -/
def ovfFullCheck (s : State) : State :=
  let full := 0 < s.ovfCapacity && decide (s.ovfCapacity ≤ s.ovfUsed)
  if full && !s.buf.ovfFull then (s.setBuf { s.buf with ovfFull := true }).raise 0x5003 s.ovfUsed
  else if !full && s.buf.ovfFull then s.setBuf { s.buf with ovfFull := false }
  else s

/-- A counter of a port's statistics block; the internal ports have none. -/
def stat (s : State) (p fld : Nat) : State := if p ≤ 64 then s.bump (Reg.stat p fld) else s

/-- Add octets to a 48-bit count of a port. -/
def statOct (s : State) (p fld n : Nat) : State := if p ≤ 64 then s.bump48 (Reg.stat p fld) n else s

/-! ### Gates (R288 to R293) -/

/-- The gate list of the running image or limp calendar that names a port. -/
def imageList (s : State) (p : Nat) : Option GateList := s.runningImage.bind fun i => i.gates.find? (·.port == p)

/-- What a port holds of host gate lists. -/
def hostGates (s : State) (p : Nat) : GateCtl := agetD s.trf.gcl p {}

/-- Base time of an image in ns of its domain. -/
def imageBase (i : Image) : Nat := 10 ^ 9 * i.baseSec + i.baseNs

/-- Position of a time in a cycle that started at a base. -/
def cyclePos (t base cycle : Nat) : Nat := (t + base * cycle - base) % cycle

/-- Time in ns from a time to the next start of a cycle, at or after it. -/
def toBoundary (t base cycle : Nat) : Nat := (cycle - cyclePos t base cycle) % cycle

/-- Time in ns that the entry `i` of a list has left at a position of the cycle; 0 when the
entry has ended already. -/
def entryLeft (es : List GateEntry) (i pos : Nat) : Nat :=
  let end_ := ((es.take (i + 1)).map (·.interval)).sum
  if pos ≤ end_ ∧ end_ ≤ pos + ((es[i]?).map (·.interval)).getD 0 then end_ - pos else 0

/-- Whether the hypercycle in progress at a re-phasing has ended (R163). -/
def cycleOver (s : State) : Bool := s.cal.rephase && decide (s.cal.cycleEnd ≤ s.clk)

/-! ### The slot wheels (R27, R140 to R142) -/

/-- The image whose wheels run now: none while every slot is open. -/
def wheelImage (s : State) : Option Image :=
  s.runningImage.filter fun _ => !s.quenched Dom.calendar && !s.cal.stop

/-- How far the image's time moves in one pipeline cycle, and its place in the hypercycle at the
end of the present tick, in 2⁻³² ns. Two cycles stand in one tick. While it re-phases the wheel
is timed in elapsed local time from the last boundary (R163). -/
def wheelClock (s : State) (i : Image) : Nat × Int :=
  let d := s.domain i.domain
  if s.cal.rephase then (2 ^ 32, 2 ^ 32 * ((i.hyper + s.clk : Nat) - s.cal.cycleEnd : Int))
  else (max 1 ((domInc d).toNat / 2),
    ((d.value + 2 ^ 32 * (imageBase i * i.hyper) - 2 ^ 32 * imageBase i) % (2 ^ 32 * i.hyper) : Nat))

/-- The offsets of a wheel entry that lie after `lo` ns and up to `hi` ns. -/
def entryDue (e : WheelEntry) (lo hi : Int) : List Int :=
  let stride : Int := max 1 e.stride
  let first := ((lo - e.off) / stride + 1).toNat
  let last := ((hi - e.off) / stride + 1).toNat
  (List.range (min e.count last - first)).map fun k => (e.off : Int) + (first + k : Nat) * stride

/-- The owned slots of a wheel that lie after `lo` and up to `hi`, both in ns from the boundary,
with their owners, earliest first. -/
def wheelDue (wheel : List WheelEntry) (hyper : Nat) (lo hi : Int) : List (Int × Nat) :=
  let back := (-lo).toNat / max 1 hyper + 1
  let l := (List.range (back + 1)).flatMap fun k =>
    let h : Int := k * hyper
    wheel.flatMap fun e => (entryDue e (max (-1) (lo + h)) (min (hyper - 1) (hi + h))).map fun o => (o - h, e.owner)
  sortOn (fun x => (x.1 - lo).toNat) l

/-- Run a pipeline's wheel up to a pipeline cycle: each owned slot takes the first free cycle from
the one in which it falls due, and one that takes a later cycle counts as a slip, whether or not
its owner has anything waiting (R142). The answer is the owner of the cycle. -/
def wheelTo (s : State) (pipe c : Nat) : Option Nat × State :=
  let next := agetD s.fr.issued pipe 0
  if c < next then (none, s)
  else match s.wheelImage with
  | none => (none, s.setFr { s.fr with slipped := aset s.fr.slipped pipe [], issued := aset s.fr.issued pipe (c + 1) })
  | some i =>
    let (inc, v) := s.wheelClock i
    let at_ (n : Nat) : Int := v - ((s.clk + 1 : Nat) - (n : Int)) * inc
    let hi := at_ c
    let old := agetD s.fr.slipped pipe []
    let first : List (Nat × Nat) := (List.range old.length).zip old |>.map fun x => (next + x.1, x.2)
    let lo := (at_ next - inc) / 2 ^ 32
    let begun := at_ (s.cal.wheelAt + 1) / (2 ^ 32 * i.hyper) * i.hyper - 1
    let due := wheelDue (if pipe = 0 then i.wheel0 else i.wheel1) i.hyper
      (if next ≤ s.cal.wheelAt + 1 then max begun lo else lo) (hi / 2 ^ 32)
    let (_, late, all) := due.foldl (fun (free, late, l) (o, owner) =>
      let d := c - ((hi - 2 ^ 32 * o) / inc).toNat
      let t := max d free
      (t + 1, late + b2n (d < t), l ++ [(t, owner)])) (next + old.length, 0, first)
    let s := s.setFr { s.fr with
      slipped := aset s.fr.slipped pipe ((all.filter fun x => c < x.1).map (·.2))
      issued := aset s.fr.issued pipe (c + 1) }
    let s := if late = 0 then s else s.bumpBy Reg.calSlotSlipCnt late
    ((all.find? (·.1 == c)).map (·.2), s)

/-- Run both wheels up to the present tick: their timing is about to change. -/
def wheelsNow (s : State) : State := ((s.wheelTo 0 (s.clk - 1)).2.wheelTo 1 (s.clk - 1)).2

/-- The wheels begin at the present tick: no slot before it falls due. -/
def wheelsBegin (s : State) : State :=
  (s.setFr { s.fr with slipped := [], issued := [(0, s.clk), (1, s.clk)] }).setCal { s.cal with wheelAt := s.clk }

/-- Time left in ns of the entry in force of an image's list. -/
def imageLeft (s : State) (i : Image) (l : GateList) : Nat :=
  let k := agetD s.cal.gateAt l.port 0
  if s.cal.rephase && !s.cycleOver then entryLeft l.entries k ((i.hyper + s.clk - s.cal.cycleEnd) % l.cycle)
  else if s.cal.rephase || s.cal.stop then toBoundary (s.domNs i.domain) (imageBase i) i.hyper
  else entryLeft l.entries k (cyclePos (s.domNs i.domain) (imageBase i) l.cycle)

/-- Time left in ns of the entry in force of a host's list. -/
def hostLeft (s : State) (g : GateCtl) (l : HostList) : Nat :=
  match g.rephase with
  | none => entryLeft l.entries g.pos (cyclePos (s.domNs l.domain) l.base l.cycle)
  | some e =>
    let rest := e - ((l.entries.drop (g.pos + 1)).map (·.interval)).sum - s.clk
    if g.pos + 1 < l.entries.length then rest
    else rest + toBoundary (s.domNs l.domain + rest) l.base l.cycle

/-- The list in force at a port: cycle, entries, index of the entry in force, and the time in
ns that it has left (R288). A list of the limp image runs only at its own rate (R173). -/
def listInForce (s : State) (p : Nat) : Option (Nat × List GateEntry × Nat × Nat) :=
  match s.runningImage, s.imageList p with
  | some i, some l =>
    if s.cal.running = .limp ∧ l.rate ≠ (s.bport p).rate then none
    else some (l.cycle, l.entries, agetD s.cal.gateAt p 0, s.imageLeft i l)
  | _, _ =>
    let g := s.hostGates p
    if g.retained then none else g.cur.map fun l => (l.cycle, l.entries, g.pos, s.hostLeft g l)

/-- The entry of a list at a position in its cycle. -/
def entryAt : List GateEntry → Nat → Option GateEntry
  | [], _ => none
  | e :: r, t => if t < e.interval then some e else entryAt r (t - e.interval)

/-- The draining image with its list for a port (R161). -/
def drainingList (s : State) (p : Nat) : Option (Image × GateList) :=
  s.drainingImage.bind fun i => (i.gates.find? (·.port == p)).map fun l => (i, l)

/-- Local ns that the overlap window still lasts. -/
def overlapLeft (s : State) (i : Image) : Nat := (s.cal.overlapEnd.getD 0) - s.domNs i.domain

/-- Whether the draining image's list has a new phase to take on since a time change in its domain:
the hypercycle of the change is in progress, or no boundary in the new time has passed since its
end `e` (R163). -/
def drainingHeld (s : State) (i : Image) (e : Nat) : Bool :=
  decide (s.clk < e) || decide (s.clk - e < cyclePos (s.domNs i.domain) (imageBase i) i.hyper)

/-- The entries of the draining image's list as they follow one another in the overlap window, and
where among them it stands now. After a time change the list runs to the end of its hypercycle by
elapsed local time, its last entry stands until the first boundary in the new time, and it starts
again there (R163). -/
def drainingView (s : State) (i : Image) (l : GateList) : List GateEntry × Nat :=
  match s.cal.oldEnd.filter (s.drainingHeld i) with
  | none => (l.entries, cyclePos (s.domNs i.domain) (imageBase i) l.cycle)
  | some e =>
    let left := e - s.clk
    let hold := i.hyper - cyclePos (s.domNs i.domain + left) (imageBase i) i.hyper
    let cycles (n : Nat) : List GateEntry := (List.replicate n l.entries).flatten
    let stands := (l.entries.getLast?.map fun x => { x with interval := hold }).toList
    (cycles (ceilDiv left (max 1 l.cycle)) ++ stands ++ cycles (s.overlapLeft i / max 1 l.cycle + 1),
      ceilDiv left (max 1 l.cycle) * l.cycle - left)

/-- Gates that the draining image's list opens for scheduled queues (R161). -/
def drainingGates (s : State) (p : Nat) : Nat :=
  match s.drainingList p with
  | none => 0
  | some (i, l) => ((entryAt (s.drainingView i l).1 (s.drainingView i l).2).map (·.gates)).getD 0

/-- Whether the gate of a queue is open now. -/
def gateOpen (s : State) (p q : Nat) : Bool :=
  match s.listInForce p with
  | none => true
  | some (_, es, i, _) =>
    ((es[i]?).map fun e => bit e.gates q).getD true || (s.isScheduled p q && bit (s.drainingGates p) q)

/-- The open time that follows an entry's end, entry by entry, until one closes the queue. -/
def openAfter (q : Nat) : List GateEntry → Nat
  | [] => 0
  | e :: r => if bit e.gates q then e.interval + openAfter q r else 0

/-- Time for which a list that stands at a position of its cycle holds a queue open. -/
def openFor (q : Nat) : List GateEntry → List GateEntry → Nat → Nat
  | [], _, _ => 0
  | e :: r, before, t =>
    if t < e.interval then
      (if bit e.gates q then e.interval - t + openAfter q (r ++ before) else 0)
    else openFor q r (before ++ [e]) (t - e.interval)

/-- The open time of a queue under two merged lists, from `t` ns after now on: the one in force,
and for `ovl` ns the draining one (R161). -/
def mergedOpen (q : Nat) (new old : List GateEntry) (cn co pn po ovl : Nat) : Nat → Nat → Nat
  | 0, t => t
  | n + 1, t =>
    let a := openFor q new [] ((pn + t) % max 1 cn)
    let b := if t < ovl then min (openFor q old [] ((po + t) % max 1 co)) (ovl - t) else 0
    if max a b = 0 then t else mergedOpen q new old cn co pn po ovl n (t + max a b)

/-- Time in ns until the gate of an open queue closes; none when it never does (R290). -/
def gateLeft (s : State) (p q : Nat) : Option Nat :=
  let byList := match s.listInForce p with
    | none => none
    | some (cycle, es, i, left) =>
      if es.all fun e => bit e.gates q then none
      else match (s.drainingList p).filter fun _ => s.isScheduled p q with
      | none => some (left + openAfter q (es.drop (i + 1) ++ es.take i))
      | some (d, l) =>
        let pos := ((es.take (i + 1)).map (·.interval)).sum - left
        let (old, at_) := s.drainingView d l
        some (mergedOpen q es old cycle (old.map (·.interval)).sum pos at_ (s.overlapLeft d) (es.length + old.length + 1) 0)
  let change := match (s.hostGates p).pend with
    | some l => if (s.imageList p).isNone && !(s.hostGates p).retained then some (l.change - s.domNs l.domain) else none
    | none => none
  let act := match s.handleIn .pending with
    | some h =>
      (s.handle h).img.bind fun i =>
        if i.gates.any (·.port == p) then some (s.cal.pendingT - s.domNs i.domain) else none
    | none => none
  [byList, change, act].foldl (fun a b => match a, b with
    | none, x => x
    | x, none => x
    | some x, some y => some (min x y)) none

/-- The longest open interval of a queue in the list in force; none without a limit (R291). In
an overlap window one of the draining list may join it. -/
def longestOpen (s : State) (p q : Nat) : Option Nat :=
  match s.listInForce p with
  | none => none
  | some (_, es, _, _) =>
    if es.all fun e => bit e.gates q then none
    else
      let longest (es : List GateEntry) : Nat := ((List.range es.length).map fun i => openAfter q (es.drop i ++ es.take i)).foldl max 0
      let old := ((s.drainingList p).filter fun _ => s.isScheduled p q).map fun x =>
        if x.2.entries.all fun e => bit e.gates q then s.overlapLeft x.1 else longest x.2.entries
      some (longest es + old.getD 0)

/-! ### Shapers (R285 to R287) -/

/-- The shaper of a queue. -/
def shaper (s : State) (p q : Nat) : Option Shaper := if p < 64 then aget s.trf.shapers (p * 8 + q) else none

/-- The operational idle slope in kb/s (R285), as a quotient. -/
def opSlope (s : State) (p q slope : Nat) : Nat × Nat :=
  match s.listInForce p with
  | none => (slope, 1)
  | some (cycle, es, _, _) =>
    let g := ((es.filter fun e => bit e.gates q).map (·.interval)).sum
    if g = 0 ∨ (es.all fun e => bit e.gates q) then (slope, 1) else (slope * cycle, g)

/-- Whether a shaper is suspended: its queue is scheduled (R286). -/
def shaperSuspended (s : State) (p q : Nat) : Bool := s.isScheduled p q

/-- The credit of a shaper worked out up to now, before something changes (R285). -/
def cbsNow (s : State) (p q : Nat) (x : Shaper) : Shaper :=
  let dt := s.clk - x.at_
  let i := s.opSlope p q x.slope
  let gain : Int := (i.1 * dt / i.2 : Nat)
  let cs := s.queueOf p q
  let onLane := cs.any fun c => c.onLane && !c.preempted
  let lim : Int := 2 ^ 31 * 10 ^ 6
  if s.shaperSuspended p q then { x with credit := 0, at_ := s.clk }
  else
    let c := if onLane then x.credit - (s.portRate p * dt : Nat) + gain
      else if cs.isEmpty then (if 0 < x.credit then 0 else min 0 (x.credit + gain))
      else if s.gateOpen p q then x.credit + gain
      else x.credit
    { x with credit := max (-lim) (min lim c), at_ := max x.at_ s.clk }

/-- Bring the shapers of a port up to date. -/
def cbsUpdate (s : State) (p : Nat) : State :=
  s.setTrf { s.trf with shapers := s.trf.shapers.map fun (k, x) =>
    if k / 8 = p then (k, s.cbsNow p (k % 8) x) else (k, x) }

/-- The 20 bytes that follow a copy on its lane: the lane takes no other frame meanwhile, and the
credit of the copy's queue falls on (R281, R285). -/
def laneGap (s : State) (c : Copy) : State :=
  if 64 ≤ c.port then s
  else
    let g := bytesNs (s.portRate c.port) 20
    let s := s.tportMod c.port fun x => { x with freeAt := s.clk + g }
    let k := c.port * 8 + c.queue
    match aget s.trf.shapers k with
    | none => s
    | some x =>
      if s.shaperSuspended c.port c.queue then s
      else
        let i := s.opSlope c.port c.queue x.slope
        let credit : Int := x.credit - (s.portRate c.port * g : Nat) + (i.1 * g / i.2 : Nat)
        s.setTrf { s.trf with shapers := aset s.trf.shapers k { x with credit := max (-(2 ^ 31 * 10 ^ 6)) credit, at_ := s.clk + g } }

/-- Whether the shaper of a queue lets it go; one whose slope reaches the link rate always
does. -/
def shaperOpen (s : State) (p q : Nat) : Bool :=
  match s.shaper p q with
  | none => true
  | some x =>
    let i := s.opSlope p q x.slope
    s.shaperSuspended p q || decide (s.portRate p * i.2 ≤ i.1) || 0 ≤ x.credit

/-! ### Gate states that change (R284, R285, R289, R293, R294) -/

/-- Gate states of a port now: eight queues, or the 32 of H0. -/
def gateMask (s : State) (p : Nat) : Nat :=
  ((List.range (if p = 67 then 32 else 8)).map fun q => if s.gateOpen p q then 2 ^ q else 0).sum

/-- The audit window of a port has seen the gate states of now. -/
def gateSeen (s : State) (p : Nat) : State :=
  if (s.tport p).full.isEmpty then s
  else
    let m := s.gateMask p
    s.tportMod p fun x => { x with gatesSeen := x.gatesSeen.filter (· ≠ m) ++ [m] }

/-- Start of a cycle of a host's list, at or after `t` ns of its domain. -/
def cycleFrom (base cycle t : Nat) : Nat := if t ≤ base then base else base + ceilDiv (t - base) cycle * cycle

/-- Row 1 of R288 has changed for a port: a retained list that is free to run now enters at
its first cycle start after this moment, and a list that runs again is at its place. -/
def hostResync (s : State) (p : Nat) : State :=
  match aget s.trf.gcl p with
  | none => s
  | some g =>
    if (s.imageList p).isSome then s
    else
      let g :=
        if g.retained then
          { g with retained := false, cur := none
                   pend := g.pend.map fun l => { l with change := cycleFrom l.base l.cycle (s.domNs l.domain + 1) } }
        else g
      let g := match g.cur, g.rephase with
        | some l, none =>
          let at_ := cyclePos (s.domNs l.domain) l.base l.cycle
          { g with pos := ((List.range l.entries.length).find? fun i =>
              at_ < ((l.entries.take (i + 1)).map (·.interval)).sum).getD 0 }
        | _, _ => g
      s.setTrf { s.trf with gcl := aset s.trf.gcl p g }

/-- Every port's list after such a change. -/
def hostResyncAll (s : State) : State := (s.trf.gcl.map (·.1)).foldl hostResync s

/-- The lists of hosts in a domain keep their phase from now, since the domain's time is about
to change (R294). -/
def listsRephase (s : State) (d : Nat) : State :=
  let f (g : GateCtl) : GateCtl :=
    match g.cur with
    | none => g
    | some l =>
      if l.domain = d ∧ g.rephase = none then
        { g with rephase := some (s.clk + l.cycle - cyclePos (s.domNs d) l.base l.cycle) }
      else g
  s.setTrf { s.trf with gcl := s.trf.gcl.map (fun (k, g) => (k, f g)), gates := s.trf.gates.map fun (k, g) => (k, f g) }

/-! ### The bytes that leave (R189, R213, R278, R306, R307) -/

/-- The one's complement sum of an IPv4 header, as its checksum field. -/
def ipSum (h : List Byte) : Nat :=
  let t := ((Crypto.chunks 2 h).map beNat).sum
  let t := t % 65536 + t / 65536
  let t := t % 65536 + t / 65536
  65535 - t

/-- An IP header with its hop count lowered by one, and its checksum corrected. -/
def hopDown (h : Hdr) (l : List Byte) : List Byte :=
  if h.v4 then
    let n := 4 * (be l 0 1 % 16)
    let hd := l.take 8 ++ [l.getD 8 0 - 1] ++ (l.drop 9).take 1 ++ leBytes 2 0 ++ (l.drop 12).take (n - 12)
    hd.take 10 ++ beBytes 2 (ipSum hd) ++ l.drop 12
  else if h.v6 then l.take 7 ++ [l.getD 7 0 - 1] ++ l.drop 8
  else l

/-- The router MAC (R189). -/
def routerMac (s : State) : List Byte :=
  leBytes 4 (s.rget Reg.fwdRouterMacLo).toNat ++ leBytes 2 (s.rfld Reg.fwdRouterMacHi 0 16)

/-- A frame as it leaves a fabric port or the Tongs link, without its FCS. -/
def rewrite (s : State) (f : Frame) (port : Nat) : List Byte :=
  let h := parse f.bytes
  let b := f.body
  let afterTags := b.drop (if h.tagged then 16 else 12)
  let (da, sa) := match f.nextMac with
    | some m => (m, s.routerMac)
    | none => (h.da, h.sa)
  let afterTags := match f.nextMac with
    | some _ =>
      let k := h.l3 - (if h.tagged then 16 else 12)
      afterTags.take k ++ hopDown h (afterTags.drop k)
    | none => afterTags
  let vid := f.vidOut.getD f.vid
  let attr := s.portAttr f.epoch port
  let untag := bit (le attr 2 2) 3 && vid == le attr 0 2 % 4096
  let tci := vid + (if h.dei || f.deiMark then 4096 else 0) + 8192 * (if h.tagged then h.pcp else f.pcp)
  let tag := if untag then []
    else beBytes 2 (if h.tagged then be b 12 2 else 0x8100) ++ beBytes 2 tci
  let second := if h.tagged && (be b 16 2 == 0x8100 || be b 16 2 == 0x88A8) then 4 else 0
  let rest := match f.genSeq with
    | some n => afterTags.take second ++ beBytes 2 0xF1C1 ++ leBytes 2 0 ++ beBytes 2 n ++ afterTags.drop second
    | none =>
      if f.popRtag && h.rtag.isSome then afterTags.take second ++ afterTags.drop (second + 6) else afterTags
  da ++ sa ++ tag ++ rest

/-- A frame's length from DA to FCS as it leaves an egress, before MACsec (R271, R281). -/
def egressLen (s : State) (f : Frame) (port : Nat) : Nat :=
  if port ≤ 64 then (s.rewrite f port).length + 4 else f.bytes.length

/-- MACsec state of a port. -/
def msPort (s : State) (p : Nat) : MsPort := agetD s.sec.ms p {}

/-- Bytes that SecTAG and ICV add to a protected frame. -/
def macsecExtra (s : State) (p : Nat) : Nat := if (s.msPort p).tx.inclSci then 32 else 24

/-- The charge of `n` bytes at an egress (R281). -/
def charge (s : State) (p n : Nat) : Nat := n + (if p < 64 ∧ (s.msPort p).txEn then 32 else 0) + 20

/-- The length that the scheduler takes a frame for: D for a speculative one (R227). -/
def selectLen (s : State) (f : Frame) (p : Nat) : Nat := if f.speculative then f.dlen else s.egressLen f p

/-- The charge that selection compares (R281). -/
def selectCharge (s : State) (f : Frame) (p : Nat) : Nat := s.charge p (s.selectLen f p)

/-! ### Statistics (R82) -/

/-- Offset of the size bucket of a length, in the receive block; the transmit block adds
0x84. -/
def bucketOf (n : Nat) : Nat :=
  if n ≤ 64 then Reg.statRx64
  else if n ≤ 127 then Reg.statRx65127
  else if n ≤ 255 then Reg.statRx128255
  else if n ≤ 511 then Reg.statRx256511
  else if n ≤ 1023 then Reg.statRx5121023
  else if n ≤ 1518 then Reg.statRx10241518
  else Reg.statRx1519Max

/-- A pause or PFC frame, by its EtherType and opcode (R182, R263). -/
def isPause (b : List Byte) : Bool :=
  let h := parse b
  h.etherType == 0x8808 && (be b h.l3 2 == 0x0001 || be b h.l3 2 == 0x0101)

/-- The counters of a good received frame. -/
def rxGood (s : State) (f : Frame) : State :=
  let h := parse f.bytes
  let s := s.statOct f.src Reg.statRxOctLo f.wireLen
  let s := (s.stat f.src Reg.statRxFrames).stat f.src (bucketOf f.wireLen)
  let s := s.stat f.src
    (if broadcast h.da then Reg.statRxBcast else if groupAddr h.da then Reg.statRxMcast else Reg.statRxUcast)
  if h.etherType = 0x8808 ∧ !isPause f.bytes ∧ f.src < 64 then s.stat f.src Reg.statRxControl else s

/-- The one receive error counter of a frame that failed at its own port. -/
def rxError (s : State) (f : Frame) : State :=
  let n := f.wireLen
  s.stat f.src (
    if f.src = 64 then (if f.fin.fcs = .complement ∧ !f.fin.pcsError then Reg.statRxTailAbort else Reg.statRxFcsErr)
    else if n < 64 ∧ f.fin.fcs = .good ∧ !f.fin.pcsError then Reg.statRxUndersize
    else if n < 64 then Reg.statRxFragment
    else if f.oversize then Reg.statRxOversize
    else if f.fin.alignError ∧ f.fin.fcs = .bad ∧ (s.bport f.src).rate ≤ 1 then Reg.statRxAlignErr
    else if f.fin.fcs = .complement ∧ !f.fin.pcsError then Reg.statRxTailAbort
    else Reg.statRxFcsErr)

/-- The counters of a failed frame that the cause of R222 names, apart from those that the
verdict itself has advanced; cause 0 stands for a frame shorter than 64 bytes. -/
def rxFailed (s : State) (f : Frame) (cause : Nat) : State :=
  let s := s.statOct f.src Reg.statRxBadOctLo f.wireLen
  if cause ≤ 4 then s.rxError f else s

/-- The counters of a good copy sent. -/
def txGood (s : State) (p n : Nat) (da : List Byte) (control : Bool) : State :=
  let s := s.statOct p Reg.statTxOctLo n
  let s := if control then s.stat p Reg.statTxControl else s
  let s := (s.stat p Reg.statTxFrames).stat p (bucketOf n + (Reg.statTx64 - Reg.statRx64))
  s.stat p (if broadcast da then Reg.statTxBcast else if groupAddr da then Reg.statTxMcast else Reg.statTxUcast)

/-- Advance a counter that a selection view of TRF_ shows: kind, index and view (R310). -/
def trfCount (s : State) (kind index view : Nat) : State :=
  let go (c : Word) (put : State → Word → State) : State :=
    let (t, c) := s.bumpView Dom.buffer (Reg.trfCntView0 view) index kind c
    put t c
  match kind with
  | 0 =>
    match aget s.trf.filters index with
    | none => s
    | some x => go (x.cnt.getD view 0) fun t c =>
        t.setTrf { t.trf with filters := aset t.trf.filters index { x with cnt := x.cnt.set view c } }
  | 1 =>
    let x := agetD s.trf.policers index {}
    if view = 0 then go x.green fun t c =>
      t.setTrf { t.trf with policers := aset t.trf.policers index { x with green := c } }
    else go x.red fun t c =>
      t.setTrf { t.trf with policers := aset t.trf.policers index { x with red := c } }
  | 2 =>
    let x := agetD s.trf.gates index {}
    go (if view = 0 then x.passed else if view = 1 then x.dropped else x.ipvUsed) fun t c =>
      let y := if view = 0 then { x with passed := c } else if view = 1 then { x with dropped := c }
        else { x with ipvUsed := c }
      t.setTrf { t.trf with gates := aset t.trf.gates index y }
  | 3 =>
    let x := agetD s.trf.recov index {}
    go (x.cnt.getD view 0) fun t c =>
      t.setTrf { t.trf with recov := aset t.trf.recov index { x with cnt := x.cnt.set view c } }
  | _ =>
    let x := agetD s.trf.gen index {}
    go (x.cnt.getD view 0) fun t c =>
      t.setTrf { t.trf with gen := aset t.trf.gen index { x with cnt := x.cnt.set view c } }

/-! ### Flow control towards the source (R264) -/

/-- On-chip cells that count against a source port, or one of its priorities. -/
def ingressCells (s : State) (p : Nat) (pri : Option Nat) : Nat :=
  ((s.fr.frames.filter fun f => f.src == p && f.handle.isNone && !s.inDram f.fid &&
    (match pri with
     | none => true
     | some x => f.pcp == x)).map (·.cells)).sum

/-- Send one pause frame. -/
def sendPause (s : State) (p pri quanta : Nat) : State :=
  (s.emit (.pauseSent p pri quanta)).stat p Reg.statTxPause

/-- XOFF or XON of one count of a port: `pri` is 8 for 802.3x. -/
def flowOne (s : State) (p pri : Nat) : State :=
  let n := s.ingressCells p (if pri = 8 then none else some pri)
  let xoff := s.rfld (Reg.bufPortFcThr p) 0 16
  let xon := s.rfld (Reg.bufPortFcThr p) 16 16
  let on := (s.bport p).xoff.contains pri
  if !on && xoff ≤ n then
    (s.bportMod p fun b => { b with xoff := pri :: b.xoff, xoffAt := aset b.xoffAt pri s.clk }).sendPause p pri
      (s.rfld (Reg.bufPortFc p) 16 16)
  else if on && n < xon then
    (s.bportMod p fun b => { b with xoff := b.xoff.filter (· ≠ pri) }).sendPause p pri 0
  else s

/-- Compare the ingress accounts of a port with its thresholds. -/
def flowCheck (s : State) (p : Nat) : State :=
  if 48 ≤ p || !(s.bport p).linkUp then s
  else match s.rfld (Reg.bufPortFc p) 0 2 with
  | 1 => s.flowOne p 8
  | 2 => ((List.range 8).filter fun i => bit (s.rfld (Reg.bufPortFc p) 8 8) i).foldl (fun s i => s.flowOne p i) s
  | _ => s

/-! ### The end of a copy and of a frame (R262) -/

/-- A TX timestamp entry of a discarded request, with the port's time domain (R78, R456). -/
def tsDiscard (s : State) (f : Frame) (port : Nat) : State :=
  match f.tsReq with
  | none => s
  | some id =>
    if port < 64 then
      s.tsqPut (if port < 8 then 0 else if port < 24 then 1 else if port < 48 then 2 else 3) id port
        (0x10 + 4 * s.rfld (Reg.timPortCfg port) 0 2) 0 0
    else s

/-- A requested frame that never got an egress: the spec names no queue and no PORT for its
entry, which are free values (log entry 1). -/
def tsNowhere (s : State) (f : Frame) : State :=
  match f.tsReq with
  | none => s
  | some id => let (v, s) := s.free; s.tsqPut (v % 4) id (v / 4 % 256) 0x10 0 0

/-- Take a copy out of its queue or off its lane. A queue that is empty then has not held a
copy throughout the audit window (R284). -/
def takeCopy (s : State) (fid port : Nat) : State :=
  let t := s.setFr { s.fr with copies := s.fr.copies.filter fun c => !(c.fid == fid && c.port == port) }
  match trfPort port with
  | none => t
  | some p =>
    if (s.tport p).full.isEmpty then t
    else t.tportMod p fun x => { x with full := x.full.filter fun q => !(t.queueOf port q).isEmpty }

/-- A handle that drains after a switch to the limp calendar is empty once no frame is bound
to its image (R173). -/
def drainGone (s : State) : State :=
  let overlaps (x : Handle) : Bool := s.drainingImage.isSome && x.img == s.drainingImage
  let f (x : Nat × Handle) : Nat × Handle :=
    if x.2.state == .draining && !overlaps x.2 && !(s.fr.frames.any fun f => some f.image == x.2.img.map (·.id)) then
      (x.1, {}) else x
  s.setCal { s.cal with handles := s.cal.handles.map f }

/-- Free the record of a frame. -/
def freeRecord (s : State) (f : Frame) : State :=
  match f.record with
  | none => s
  | some i => s.setRecords (pipeOf f.src) ((s.recordsUsed (pipeOf f.src)).filter (· ≠ i))

/-- The records of aborted frames are free once every copy has ended (R228). -/
def freeEnded (s : State) : State :=
  (s.fr.frames.filter fun f =>
      f.record.isSome && f.outcome != .pending && !(s.fr.copies.any (·.fid == f.fid))).foldl
    (fun s f => (s.freeRecord f).fmod f.fid fun x => { x with record := none }) s

/-- The reference count of a frame (R262): its copies, and the writer while its bytes arrive. -/
def refCount (s : State) (f : Frame) : Nat := (s.copiesOf f.fid).length + b2n (!f.complete) + f.refExtra

/-- The frames that no reference is left to give their cells back, an outstanding verdict
notwithstanding (R262). -/
def freeCells (s : State) : State :=
  let free (f : Frame) : Bool := f.decided && f.cells != 0 && s.refCount f == 0
  let gone := s.fr.frames.filter free
  if gone.isEmpty then s
  else
    let t := s.setFr { s.fr with frames := s.fr.frames.map fun f => if free f then { f with cells := 0 } else f }
    gone.foldl (fun t f => t.flowCheck f.src) t.spillUpdate

/-- What a verdict that is still owed needs of its frame after the frame's release, for the
bound of R167. -/
def owedKeep (gone : List Frame) (o : Owed) : Owed :=
  match List.find? (fun (f : Frame) => f.fid == o.fid) gone with
  | none => o
  | some f => { o with gone := some (f.image, f.handle, f.start, f.tIn, f.lastAt) }

/-- Frames leave the device while verdicts of theirs are still owed. -/
def owedGone (s : State) (gone : List Frame) : State :=
  s.setFr { s.fr with owed := s.fr.owed.map (owedKeep gone) }

/-- Release the frames that nothing refers to any more: their bytes have all arrived, their
outcome is known and no copy is left. -/
def gc (s : State) : State :=
  let s := s.freeEnded.freeCells
  let dead (f : Frame) : Bool :=
    f.decided && f.outcome != .pending && !f.heldDup && s.refCount f == 0
  let gone := s.fr.frames.filter dead
  if gone.isEmpty then s
  else ((s.setFr { s.fr with frames := s.fr.frames.filter fun f => !dead f }).owedGone gone).drainGone

/-- Cells of a guarantee handle's reservation in use (R254). -/
def resUsed (s : State) (image h : Nat) : Nat :=
  ((s.fr.frames.filter fun f => f.part == .scheduled && f.image == image && f.handle == some h).map (·.cells)).sum

/-- Discard a copy that is not sent. -/
def discardCopy (s : State) (c : Copy) : State :=
  match s.frame? c.fid with
  | none => s.takeCopy c.fid c.port
  | some f => (s.takeCopy c.fid c.port).tsDiscard f c.port

/-- The capture buffer goes out to the service tool, 1,024 bytes a frame (R555). -/
def captureSend (s : State) (written : Nat) : State :=
  let parts := (List.range (ceilDiv s.fnc.captureBuf.length 1024)).map fun i =>
    leBytes 4 (1024 * i) ++ (s.fnc.captureBuf.drop (1024 * i)).take 1024
  (parts ++ [leBytes 4 written]).foldl (fun s b => s.svcSend 6 b) s

/-- A capture stops: the event carries the bytes written (R532). -/
def captureStop (s : State) : State :=
  match s.fnc.capture with
  | none => s
  | some c =>
    let s := (s.setFnc { s.fnc with capture := none }).raise 0xD005 c.written
    if c.host = 2 then s.captureSend c.written else s

/-- A committed frame of the captured port is written as the next record (R532). -/
def capturePut (s : State) (f : Frame) (port : Nat) (egress : Bool) : State :=
  match s.fnc.capture with
  | none => s
  | some c =>
    if c.src ≠ port ∨ c.egress ≠ egress then s
    else
      let b := f.body
      let n := ceilDiv (8 + b.length) 8 * 8
      if c.size < c.written + n then s.captureStop
      else
        let rec_ := fit n (leBytes 2 b.length ++ leBytes 1 1 ++ leBytes 1 f.src ++ leBytes 4 f.tIn ++ b)
        let s := if c.host = 0 then s.hostMem 256 (c.dest + c.written) rec_
          else s.setFnc { s.fnc with captureBuf := s.fnc.captureBuf ++ rec_ }
        let s := s.setFnc { s.fnc with capture := some { c with written := c.written + n, left := c.left - 1 } }
        if c.left ≤ 1 then s.captureStop else s

/-- Bytes of a copy that have gone out by now, earlier fragments included. -/
def sentBytes (s : State) (c : Copy) : Nat :=
  c.sent + (if c.preempted || !c.onLane then 0 else (s.clk - c.startAt) * s.portRate c.port / 8000000)

/-- Take a charge from the deficit of a group queue (R281). -/
def deficitTake (s : State) (c : Copy) (n : Nat) : State :=
  match trfPort c.port with
  | none => s
  | some p =>
    match aget (s.tport p).deficit c.queue with
    | none => s
    | some d => s.tportMod p fun x => { x with deficit := aset x.deficit c.queue (d - n) }

/-- The bytes of a copy of which `n` lane bytes have gone out, padded to 60 lane bytes (R239);
a SecTAG takes some of them. -/
def abortBytes (s : State) (c : Copy) (n : Nat) : List Byte :=
  let plain := ((s.frame? c.fid).map fun f => s.rewrite f c.port).getD []
  let tag := if c.pn.isSome then s.macsecExtra c.port - 16 else 0
  let b := plain.take (if n ≤ 12 then n else max 12 (n - tag))
  fit (max (max (60 - tag) (n - tag)) b.length) b

/-- A copy on a lane ends under R238 with a complemented CRC right after the last byte sent
(R242), or on the Tongs link with the abort marker. The deficit is charged for the bytes sent
(R237), and a requested timestamp entry says that the frame was given up (R78). -/
def tailAbort (s : State) (c : Copy) (pipe : Nat) : State :=
  let n := s.sentBytes c
  let b := s.abortBytes c n
  let s := s.deficitTake c (max 64 (n + 4) + 20)
  let s := if 0 < c.frags then s.bump (Reg.trfMmFragTxCnt c.port) else s
  let s := ((s.cbsUpdate c.port).takeCopy c.fid c.port).laneGap c
  let s := s.emit (if c.port = 64 then .tongsAbort c.fid b
    else .tailAbort c.port c.fid b (if c.pn.isSome then none else some (~~~Crypto.crc32 b)))
  let s := match s.frame? c.fid with
    | none => s
    | some f => s.tsDiscard f c.port
  (s.stat c.port Reg.statTxTailAbort).bump (Reg.spcTailAbortCnt pipe)

/-- Count a copy that was sent whole, or delivered to a receive ring (R231, R283). -/
def sentCounts (s : State) (c : Copy) (f : Frame) (n : Nat) : State :=
  let ms := if c.pn.isSome then s.macsecExtra c.port else 0
  let s := s.txGood c.port (n + ms) (if f.nextMac.isSome then f.nextMac.getD [] else (parse f.bytes).da)
    ((parse f.bytes).etherType == 0x8808 && !isPause f.bytes && decide (c.port < 64))
  match queueIndex c.port c.queue with
  | none => s
  | some i =>
    let g := s.charge c.port n
    let s := (s.bump48 (Reg.trfQSvcLo i) g).bump (Reg.trfQFrames i)
    match trfPort c.port with
    | none => s
    | some t =>
      if s.rfld Reg.trfCtrl 0 1 = 0 then s
      else s.tportMod t fun x => { x with served := aset x.served c.queue (agetD x.served c.queue 0 + g) }

end State

end Sys2Proof.Machine
end

