-- ==== Sys2Proof/Machine/Speculation.lean ====
section
/-! DEFINITION.
The speculation units (R217 to R246): the commit conditions of a frame, its provisional
effects, commit and abort. Policers (R302), sequence recovery (R234, R307) and the learn
queue (R198) stand here too, since commit and abort act on them. -/

namespace Sys2Proof.Machine

namespace State

/-! ### Policers (R230, R302, R303) -/

/-- A policer with its bucket filled up to now. -/
def policer (s : State) (i : Nat) : Policer :=
  let p := agetD s.trf.policers i {}
  { p with bucket := min (10 ^ 9 * p.burst) (p.bucket + 125 * ((s.clk - p.at_) * p.rate)), at_ := s.clk }

/-- Hold a policer. -/
def setPolicer (s : State) (i : Nat) (p : Policer) : State :=
  s.setTrf { s.trf with policers := aset s.trf.policers i p }

/-- Charge a policer with `d` bytes: whether the frame is green. -/
def meter (s : State) (i d : Nat) : Bool × State :=
  let p := s.policer i
  let green := decide ((10 ^ 9 * d : Nat) ≤ p.bucket)
  (green, (s.setPolicer i (if green then { p with bucket := p.bucket - 10 ^ 9 * d } else p)).trfCount 1 i (b2n (!green)))

/-- Put bytes back into a bucket, or take more out, up to its burst (R231, R232). -/
def meterFix (s : State) (i : Nat) (bytes : Int) : State :=
  let p := s.policer i
  s.setPolicer i { p with bucket := min (10 ^ 9 * p.burst) (p.bucket + 10 ^ 9 * bytes) }

/-! ### Sequence recovery (R234, R307) -/

/-- A recovery function. -/
def recovery (s : State) (i : Nat) : Frer := agetD s.trf.recov i {}

/-- Change it. -/
def recovMod (s : State) (i : Nat) (f : Frer → Frer) : State :=
  s.setTrf { s.trf with recov := amod s.trf.recov i {} f }

/-- The difference of two sequence numbers, from -32768 to 32767. -/
def seqDiff (a b : Nat) : Int := ((a + 98304 - b) % 65536 : Nat) - 32768

/-- What a recovery function makes of a sequence number. -/
inductive SeqFate where
  | accept | duplicate | rogue | held
  deriving DecidableEq, Repr

/-- Judge a sequence number against accepted and pending ones. -/
def seqFate (r : Frer) (n : Nat) : SeqFate :=
  let fate : SeqFate := match r.top with
    | none => .accept
    | some t =>
      if r.matchAlg then (if n = t then .duplicate else .accept)
      else if r.history ≤ (seqDiff n t).natAbs then .rogue
      else if 0 < seqDiff n t then .accept
      else if r.seen.contains n then .duplicate
      else .accept
  if fate == .accept && r.pend.contains n then .held else fate

/-- Numbers shifted out of the history unseen, when the window moves by `d`. -/
def lostBy (r : Frer) (t d : Nat) : Nat :=
  ((List.range d).filter fun k => !r.seen.contains ((t + 65536 + 1 + k - r.history) % 65536)).length

/-- Accept a sequence number for good, at commit. -/
def seqAccept (s : State) (i n : Nat) : State :=
  let r := s.recovery i
  let s := s.trfCount 3 i 0
  let s := match r.top with
    | none => s
    | some t =>
      let d := seqDiff n t
      let s := if d ≠ 1 then s.trfCount 3 i 3 else s
      if r.matchAlg ∨ d ≤ 0 then s else (List.range (lostBy r t d.toNat)).foldl (fun s _ => s.trfCount 3 i 4) s
  let s := s.recovMod i fun r =>
    let top' := match r.top with
      | none => n
      | some t => if r.matchAlg ∨ 0 < seqDiff n t then n else t
    { r with top := some top', seen := (n :: r.seen).filter (fun m => (seqDiff top' m).natAbs < r.history),
             pend := r.pend.filter (· ≠ n), lastAccept := s.clk, perPassed := r.perPassed + 1 }
  if r.mirror && s.mirroring then s.emit (.mirror (.recovery i [n])) else s

/-! ### Learn queue and connections (R195 to R198, R235) -/

/-- Put a request of a pipeline into the learn queue. Of the requests of one clock cycle those of
pipeline 0 come first (R198). -/
def learnPut (s : State) (pipe : Nat) (q : LearnReq) : State :=
  let f := s.fwd
  let n := f.learnQ.length
  let tail := if f.learnPutAt = s.clk then min f.learnTail n else 0
  if 4096 ≤ n then s.bump Reg.fwdLearnDropCnt
  else if pipe = 0 then
    s.setFwd { f with learnQ := f.learnQ.take (n - tail) ++ [q] ++ f.learnQ.drop (n - tail)
                      learnPutAt := s.clk, learnTail := tail }
  else s.setFwd { f with learnQ := f.learnQ ++ [q], learnPutAt := s.clk, learnTail := tail + 1 }

/-- A request for a connection carries the time of its commit as LAST_SEEN (R195, R235). -/
def stampReq (q : LearnReq) (ms : Nat) : LearnReq :=
  match q with
  | .connect key d => .connect key (d.take 4 ++ leBytes 4 ms ++ d.drop 8)
  | .learn src fid mac => .learn src fid mac

/-- A connection entry after a committed frame (R196): `lo` says that LO sent it. -/
def connNext (d : List Byte) (lo : Bool) (tcp : Nat) (ms : Nat) : List Byte :=
  let st := le d 0 1
  let initiator := bit (le d 1 1) 0 == lo
  let st' := if st = 1 ∧ !initiator then 2 else if st = 2 ∧ (bit tcp 0 || bit tcp 2) then 3 else st
  leBytes 1 st' ++ (d.drop 1).take 3 ++ leBytes 4 ms ++ leBytes 4 (le d 8 4 + 1) ++ d.drop 12

/-! ### Commit conditions (R217, R218) -/

/-- The guarantee entry that a frame conforms to. -/
def frameGuarantee (s : State) (f : Frame) : Option Guarantee := f.handle.bind fun h => s.guarantee f.image h

/-- The cause of R222 of the failed condition of a frame, if one has failed; 0 stands for a
whole frame of fewer than 64 bytes (R82 row 1). Log entry 13 gives the order. A frame whose ICV
fails on a port with STRICT clear is passed on, but conforms to no guarantee (R133, R134). -/
def frameFail (s : State) (f : Frame) : Option Nat :=
  if f.oversize then some 4
  else if f.complete && f.fin.pcsError then some 3
  else if f.complete && f.fin.fcs == .complement then some 2
  else if f.complete && f.fin.fcs == .bad then some 1
  else if f.complete && f.src < 64 && f.wireLen < 64 then some 0
  else if f.icv == .failed && (!f.lenient || f.handle.isSome) then some 5
  else if f.edge == .failed then some 6
  else if f.complete && 0 < f.sdu && f.sdu < f.bytes.length then some 8
  else if f.complete && ((s.frameGuarantee f).any fun g => g.lMax < f.bytes.length) then some 9
  else none

/-- Whether a condition of a frame is outstanding. -/
def frameOpen (f : Frame) : Bool := !f.complete || f.icv == .waiting || f.edge == .waiting

/-! ### Records (R228, R229) -/

/-- Allocate a record of a pipeline, when the frame may take one. -/
def takeRecord (s : State) (p : Nat) (conforming : Bool) : Option (Nat × State) :=
  let used := s.recordsUsed p
  if 256 ≤ used.length || (!conforming && s.exhausted p) then none
  else ((List.range 256).find? fun i => !used.contains i).map fun i =>
    (i, (s.setRecords p (i :: used)).exhaustEdge p (s.exhausted p))

/-! ### MACsec verdicts at the outcome (R231, R396) -/

/-- The receive SC of an SCI on a port: the lowest-numbered enabled one. -/
def rxSc (s : State) (p sci : Nat) : Option Nat :=
  (List.range 8).find? fun i => let c := agetD (s.msPort p).rx i {}; c.enable && c.sci == sci

/-- Change a receive SA. -/
def rxSaMod (s : State) (p sc an : Nat) (f : Sa → Sa) : State :=
  let m := s.msPort p
  let c := agetD m.rx sc {}
  match aget c.sas an with
  | none => s
  | some a =>
    let m := { m with rx := aset m.rx sc { c with sas := aset c.sas an (f a) } }
    s.setSec { s.sec with ms := aset s.sec.ms p m }

/-- The PN of a frame stops being pending, and at commit it moves the window. -/
def pnDone (s : State) (f : Frame) (commit : Bool) : State :=
  if !f.pnHeld then s else
  match f.tagInfo with
  | none => s
  | some t =>
    match s.rxSc f.src t.sci with
    | none => s
    | some sc =>
      let s := s.rxSaMod f.src sc t.an fun a =>
        let high := if commit && !f.lenient then max a.highPn t.pn else a.highPn
        { a with pend := a.pend.filter (· ≠ t.pn), highPn := high }
      if commit && f.icv == .passed && !f.lenient then s.bump (Reg.secMsRxOkCnt f.src) else s

/-! ### Receive rings in commit mode (R72, R243) -/

/-- What a ring still has to write goes out. -/
def ringFlush (s : State) (hq : Nat) : State :=
  (s.rxRing hq).todo.foldl (fun s x => s.hostMem (9 + hq) x.1 x.2) (s.rxMod hq fun r => { r with todo := [] })

/-- The rest of a frame and its header go into the ring that it holds, and the record is
finished. -/
def ringCommit (s : State) (f : Frame) (hq flags : Nat) : State :=
  let s := s.ringFlush hq
  let r := s.rxRing hq
  let p := (s.rget (Reg.hifRxrProd hq)).toNat + r.pad
  let b := f.out
  let s := if r.wrote < b.length then s.rxWrite hq (p + 8 + r.wrote) (b.drop r.wrote) else s
  let s := s.rxHeader hq p b.length flags f.src (f.tIn % 2 ^ 32)
  let s := s.rxMod hq fun r => { r with busy := none, pad := 0, wrote := 0, late := false }
  (s.rxFinish hq (r.pad + ceilDiv (8 + b.length) 8 * 8)).depart f.fid 67

/-- A ring gives the record in progress up: nothing of it is finished, and the next record
starts where it did, its pad header included (R72; log entry 55). -/
def ringRewind (s : State) (hq : Nat) : State :=
  s.rxMod hq fun r => { r with busy := none, pad := 0, wrote := 0, todo := [], late := false }

/-! ### Verdicts that come late (R167) -/

/-- A verdict of a frame bound to a handle of an image, `took` ns after the instant from which
its bound runs. The egress that the log entry of a kind 3 names is a free value (log entry 1). -/
def verdictLate (s : State) (image h start took : Nat) (cipher : Bool) : State :=
  match s.imageOf image with
  | none => s
  | some i =>
    if s.measured start && !s.waived image start && (if cipher then i.cipherNs else i.macsecNs) < took then
      let s := s.bump Reg.calVerdictLateCnt
      let (v, s) := s.free
      s.breach image h 3 (v % 256) took (some Dom.security)
    else s

/-- An engine posts the verdict that it owes: how late it is, whether its frame is still there or
not (R167, R223). The bound runs from the last byte, or, for a frame of the internal ports, from
its injection. -/
def owedLate (s : State) (o : Owed) : State :=
  let cipher := o.ticket.isSome
  let x := match s.frame? o.fid with
    | some f => if f.complete then some (f.image, f.handle, f.start, f.tIn, f.lastAt) else none
    | none => o.gone
  match x with
  | some (image, some h, start, tIn, last) => s.verdictLate image h start (s.clk - (if cipher then tIn else last)) cipher
  | _ => s

/-- The verdict that an engine owes is taken from the list of those outstanding. -/
def owedTake (s : State) (o : Owed) : State := s.setFr { s.fr with owed := s.fr.owed.erase o }

/-! ### Commit (R221, R231, R244) -/

/-- A count of a filter, gate or recovery function that a frame carries to its commit. -/
def applyCount (s : State) (c : Nat × Nat × Nat) : State :=
  let s := s.trfCount c.1 c.2.1 c.2.2
  if c.1 = 3 ∧ c.2.2 = 1 then s.recovMod c.2.1 fun r => { r with perDup := r.perDup + 1 } else s

/-- Drop every copy of a frame that has not started, and its guarantee with it: eliminated
as a duplicate (R166, R234). -/
def eliminate (s : State) (f : Frame) : State :=
  let frer := (s.frameGuarantee f).any fun g => bit g.flags 2
  let s := (s.copiesOf f.fid).foldl (fun s c =>
    let s := s.discardCopy c
    if frer then s.dropDeadline f.fid c.port else s.lose f.fid c.port 15) s
  s.fmod f.fid fun x =>
    let dup := (x.eff.recovery.map fun r => (3, r.1, 1)).toList
    { x with heldDup := false, dropped := true, eff := { counts := x.eff.counts ++ dup, policer := x.eff.policer } }

/-- Apply the provisional effects of a frame in the order of R231. -/
def applyEffects (s : State) (f : Frame) : State :=
  let e := f.eff
  let pipe := pipeOf f.src
  let s := s.rxGood f
  let s := e.counts.foldl applyCount s
  let s := match f.handle with
    | some h => if s.monitoring then s.gmod f.image h fun g => { g with frames := g.frames + 1 } else s
    | none => s
  let s := match e.policer with
    | none => s
    | some (i, d, o) => s.meterFix i ((d : Int) - max 0 ((f.bytes.length : Int) + o))
  let s := match e.learn with
    | none => s
    | some q => s.learnPut pipe q
  let s := match e.hit with
    | none => s
    | some (k, n) => s.emHit k n
  let s := match e.recovery with
    | none => s
    | some (i, n) => s.seqAccept i n
  let s := match e.conn with
    | none => s
    | some (k, lo, tcp) => s.emMod k fun x => { x with data := connNext x.data lo tcp s.clkMs }
  let s := match e.create with
    | none => s
    | some q => s.learnPut pipe (stampReq q s.clkMs)
  s.pnDone f true

/-- Copies to X0 and X1 are handed over once their frame has committed (R244). -/
def handOver (s : State) (f : Frame) : State :=
  ((s.copiesOf f.fid).filter fun c => c.port == 65 || c.port == 66).foldl (fun s c =>
    let s := if c.port = 65 then s.setTun { s.tun with in0 := s.tun.in0 ++ [f.out] }
      else s.setTun { s.tun with in1 := s.tun.in1 ++ [f.out] }
    (s.takeCopy f.fid c.port).depart f.fid c.port) s

/-- A frame commits. The answer names the copies that were held behind it: they are eliminated,
and their own conditions decide what they count (R234). -/
def commit (s : State) (f : Frame) : List Nat × State :=
  let s := s.fmod f.fid fun x => { x with outcome := .committed, record := none }
  let s := if f.record.isSome then (s.freeRecord f).bump (Reg.spcCommitCnt (pipeOf f.src)) else s
  let s := (s.applyEffects f).capturePut f f.src false
  let s := s.handOver f
  let s := ((s.copiesOf f.fid).filter fun c => c.port == 67 && c.onLane).foldl (fun s c =>
    ((s.ringCommit f c.queue 16).sentCounts c f f.bytes.length).takeCopy f.fid 67) s
  let held := match f.eff.recovery with
    | none => []
    | some r => s.fr.frames.filter fun (x : Frame) => x.heldDup && x.eff.recovery == some r
  let s := held.foldl eliminate s
  (held.map (·.fid), s.gc)

/-! ### Abort and drop (R222, R236 to R242) -/

/-- The counters that the cause of a failed frame names (R222). -/
def failErrors (s : State) (f : Frame) (cause : Nat) : State :=
  let s := s.rxFailed f cause
  if cause ≠ 8 then s
  else match f.filter with
  | none => s
  | some i =>
    let s := s.trfCount 0 i 2
    match aget s.trf.filters i with
    | none => s
    | some x => if f.sduBlock && x.serial == f.filterSerial && !x.blocked then
        (s.setTrf { s.trf with filters := aset s.trf.filters i { x with blocked := true } }).raise 0x6005 i
      else s

/-- What a failed frame is to its guarantee: lost by a timeout or a quench, not conforming
otherwise (R134). -/
def failGuarantee (s : State) (f : Frame) (cause : Nat) : State :=
  match f.handle with
  | none => s
  | some h =>
    let ports := (s.cal.deadlines.filter (·.fid == f.fid)).map (·.egress)
    if cause = 7 ∨ cause = 10 then
      ports.foldl (fun s p => s.lose f.fid p (if cause = 10 then 3 else 15)) s
    else
      let s := ports.foldl (fun s p => s.dropDeadline f.fid p) s
      let s := s.gmod f.image h fun g => if g.window = f.window then { g with inWindow := g.inWindow - 1 } else g
      if s.monitoring then (s.gmod f.image h fun g => { g with nonconf := g.nonconf + 1 }).bump Reg.calNonconfCnt
      else s

/-- The counters and the guarantee of a failed frame, whether it aborts or is dropped. -/
def failCounts (s : State) (f : Frame) (cause : Nat) : State := (s.failErrors f cause).failGuarantee f cause

/-- What both an abort and a drop undo: the policer's debit and the pending marks. -/
def undoEffects (s : State) (f : Frame) : State :=
  let s := match f.eff.policer with
    | none => s
    | some (i, d, _) => s.meterFix i d
  let s := match f.eff.recovery with
    | none => s
    | some (i, n) => if f.heldDup then s else s.recovMod i fun r => { r with pend := r.pend.filter (· ≠ n) }
  s.pnDone f false

/-- The copies of a failed frame: those not started are dropped, one on a lane ends with a
complemented CRC, a preempted one waits for its resume with the bytes that the MAC holds now
(R241), and a receive ring in commit mode rewinds (R72). -/
def endCopies (s : State) (f : Frame) : State :=
  (s.copiesOf f.fid).foldl (fun s c =>
    if c.port = 67 then
      let s := if c.onLane then s.ringRewind c.queue else s
      s.discardCopy c
    else if c.preempted then s.cmod c.fid c.port fun c => { c with abortLen := some (s.rewrite f c.port).length }
    else if c.onLane then s.tailAbort c (pipeOf f.src)
    else s.discardCopy c) s

/-- The oldest copy held behind a failed one takes its place (R234). -/
def nextHeld (s : State) (f : Frame) : Option Nat × State :=
  match f.eff.recovery with
  | none => (none, s)
  | some (i, n) =>
    if f.heldDup then (none, s)
    else match s.fr.frames.find? fun x => x.heldDup && x.eff.recovery == some (i, n) with
      | none => (none, s)
      | some x =>
        (some x.fid, (s.fmod x.fid fun x => { x with heldDup := false }).recovMod i fun r =>
          { r with pend := n :: r.pend })

/-- A frame fails: an abort when it has a record, otherwise a drop at its decision. -/
def failFrame (s : State) (f : Frame) (cause : Nat) : Option Nat × State :=
  let p := pipeOf f.src
  let s := s.failCounts f cause
  let s := if f.record.isSome then
      let s := (s.bump (Reg.spcAbortCnt p)).bump
        (if p = 0 then Reg.spcAbortCauseCnt (cause - 1) else Reg.spcAbortCauseCntP1 (cause - 1))
      if f.started then s else s.bump (Reg.spcQuietAbortCnt p)
    else s
  let s := s.undoEffects f
  let s := s.endCopies f
  let s := s.fmod f.fid fun x => { x with outcome := .aborted cause, heldDup := false }
  let (h, s) := s.nextHeld f
  (h, s.gc)

/-- Judge decided frames whose outcome is open: commit each, fail it, or leave it. What a frame
held back is judged in its turn. -/
def judgeLoop : Nat → List Nat → State → State
  | 0, _, s => s
  | _, [], s => s
  | n + 1, fid :: r, s =>
    match s.frame? fid with
    | none => judgeLoop n r s
    | some f =>
      if !f.decided || f.outcome != .pending then judgeLoop n r s
      else match s.frameFail f with
      | some c =>
        let x := s.failFrame f c
        judgeLoop n (x.1.toList ++ r) x.2
      | none =>
        if frameOpen f || f.heldDup then judgeLoop n r s
        else
          let x := s.commit f
          judgeLoop n (x.1 ++ r) x.2

def judge (s : State) (fid : Nat) : State := judgeLoop (2 * s.fr.frames.length + 1) [fid] s

/-- Abort a frame by a cause that is no failed condition of its own: a verdict timeout or
a quench. -/
def abortFrame (s : State) (fid cause : Nat) : State :=
  match s.frame? fid with
  | none => s
  | some f =>
    if f.outcome != .pending then s
    else match s.failFrame f cause with
    | (none, t) => t
    | (some h, t) => t.judge h

/-- The bytes of a frame have all arrived: cells that it does not fill go back (R255). -/
def storeEnd (s : State) (fid : Nat) : State :=
  s.fmod fid fun f =>
    if f.cells = 0 then f
    else { f with cells := min f.cells (cellsOf f.bytes.length) }

end State

end Sys2Proof.Machine
end

