-- ==== Sys2Proof/Machine/Lookup.lean ====
section
/-! DEFINITION.
The stages of a forwarding pipeline (R176 to R183, R194 to R197, R210, R211, R275 to R277,
R298 to R302, R306, R307, R385 to R391), the conformance of a frame (R133 to R135), and
admission to the egress queues (R253 to R255). -/

namespace Sys2Proof.Machine

/-- What the stages work out about one frame. -/
structure Lk where
  h : Hdr
  src : Nat
  epoch : Nat
  vid : Nat := 0
  vlan : List Byte := []
  /-- priority by rows 3 to 5 of R275, and p -/
  base : Nat := 0
  p : Nat := 0
  g : Option Guarantee := none
  red : Bool := false
  eff : Effects := {}
  filter : Option Nat := none
  routed : Bool := false
  /-- host queue of a firewall trap -/
  trap : Option Nat := none
  /-- rule and action of a stateful verdict -/
  state : Option (Nat × FwRule) := none
  /-- per-frame overhead of the policer that it met (R230) -/
  overhead : Int := 0
  deriving DecidableEq, Repr

/-- How a stage ends: the frame goes on, or it is dropped there. -/
inductive Stage where
  | go (k : Lk) (s : State)
  | drop (e : Effects) (s : State)
  deriving DecidableEq, Repr

namespace State

/-- Whether a source or an egress is a member of a VLAN entry (R213). -/
def memberOf (vlan : List Byte) (p : Nat) : Bool :=
  if p < 64 then bit (le vlan 0 8) p
  else if p = 67 then bit (le vlan 8 1) 0
  else if p = 64 then bit (le vlan 8 1) 1
  else if p = 65 then bit (le vlan 8 1) 2
  else bit (le vlan 8 1) 3

/-- Whether a VLAN entry has any member (R180). -/
def vlanConfigured (vlan : List Byte) : Bool := le vlan 0 8 ≠ 0 || le vlan 8 1 % 16 ≠ 0

/-! ### Stage 2 (R180 to R182, R275) -/

/-- Classification. A frame for the reserved group addresses skips every VLAN check but
that of an unconfigured VID. -/
def stageClassify (s : State) (f : Frame) : Stage :=
  let h := parse f.bytes
  let e := s.epoch
  let attr := s.portAttr e f.src
  let fl := le attr 2 2
  let prio := h.tagged && h.tagVid ≠ 0
  let vid := if prio then h.tagVid else le attr 0 2 % 4096
  let vlan := s.vlanAt e vid
  let bad := !vlanConfigured vlan || (!reservedDa h.da &&
    ((!prio && !bit fl 1) || (prio && !bit fl 2) || (bit fl 7 && !memberOf vlan f.src)))
  let pcp := if h.tagged then h.pcp else le attr 6 1 % 8
  let t := (trfPort f.src).map s.tport
  let base := match t with
    | some t => if t.dscpEn && (h.v4 || h.v6) then bits t.dscpMap (3 * (h.tos / 4)) 3 else pcp
    | none => pcp
  if bad then .drop {} (s.bump Reg.fwdIngressDropCnt)
  else .go { h := h, src := f.src, epoch := e, vid := vid, vlan := vlan, base := base, p := base } s

/-! ### Stage 3: conformance and stream filters (R133 to R135, R298) -/

/-- The guarantee entry whose source and stream key a frame matches. -/
def matchGuarantee (s : State) (f : Frame) (k : Lk) : Option (Image × Guarantee) :=
  s.runningImage.bind fun i =>
    (i.guarantees.find? fun g => g.source == f.src &&
      (if f.src = 65 ∨ f.src = 66 then g.origin == f.origin
       else g.mac == leNat k.h.da && g.vid == k.vid)).map fun g => (i, g)

/-- A non-conforming frame is counted (R135). -/
def nonconform (s : State) (id h : Nat) : State :=
  if s.monitoring then (s.gmod id h fun g => { g with nonconf := g.nonconf + 1 }).bump Reg.calNonconfCnt else s

/-- Whether a frame from a protected port has no good ICV (R133): none verifies it, or one has
failed it. -/
def icvBad (s : State) (f : Frame) : Bool :=
  f.src < 64 && (s.msPort f.src).rxEn && (f.icv == .none || f.icv == .failed)

/-- Conformance, as far as it is known at the lookup. -/
def stageConform (s : State) (f : Frame) (k : Lk) : Stage :=
  match s.matchGuarantee f k with
  | none => .go k s
  | some (i, g) =>
    let base := (10 ^ 9 * i.baseSec + i.baseNs) % g.interval
    let arrived := s.domNs i.domain + 2 ^ 64 * g.interval - (s.clk - f.start) - base
    let win := arrived / g.interval
    let off := arrived % g.interval
    let c := s.gcount i.id g.handle
    let n := if c.window = win then c.inWindow else 0
    let ok := n < g.burst && (!bit g.flags 0 || (g.phase ≤ off && off < g.phase + g.width)) &&
      (!f.complete || f.bytes.length ≤ g.lMax) && !s.icvBad f
    if ok then
      .go { k with g := some g } (s.gmod i.id g.handle fun c => { c with window := win, inWindow := n + 1 })
    else
      let s := s.nonconform i.id g.handle
      if bit g.flags 1 then .go k s else .drop {} s

/-- Whether a stream filter matches a frame (R298). -/
def filterHit (x : Filter) (k : Lk) : Bool :=
  let h := k.h
  x.enabled && (x.source == 0xFF || x.source == k.src) && (x.prioSpec == 0xFF || x.prioSpec == k.base) &&
    (match x.idType with
     | 0 => x.mac == leNat h.da && x.vid == k.vid
     | 1 => x.mac == leNat h.sa && x.vid == k.vid
     | _ => (if x.family = 4 then h.v4 && leNat (h.dstIp.take 4) == x.ip % 2 ^ 32
             else h.v6 && leNat h.dstIp == x.ip) &&
        x.proto == h.proto && (x.l4dst == 0 || (h.l4 && beNat h.dport == x.l4dst)))

/-! ### Stage 4 (R299 to R302) -/

/-- The state of a stream gate: open, IPV (R301). A gate without a list is open. -/
def gateState (s : State) (i : Nat) : Bool × Option Nat :=
  let g := agetD s.trf.gates i {}
  if g.blocked then (false, none)
  else match g.cur with
    | none => (true, none)
    | some l =>
      match l.entries[g.pos]? with
      | none => (true, none)
      | some e => (bit e.gates 0, if bit e.op 3 then some (e.op % 8) else none)

/-- The declared length D of a frame (R230), without a policer's overhead. -/
def declared (s : State) (f : Frame) (k : Lk) : Nat :=
  match k.h.ipLen with
  | some n => k.h.l3 + n + 4
  | none => match k.g with
    | some g => g.lMax
    | none => s.maxFrame f.src

/-- A meter at a frame's head. -/
def stageMeter (s : State) (f : Frame) (k : Lk) (i : Nat) (flt : Option Nat) : Stage :=
  let pol := s.policer i
  let d := ((s.declared f k : Nat) + pol.overhead).toNat
  let k := { k with overhead := pol.overhead }
  match s.meter i d with
  | (true, t) => .go { k with eff := { k.eff with policer := some (i, d, pol.overhead) } } t
  | (false, t) =>
    let e := { k.eff with counts := k.eff.counts ++ (flt.map fun j => (0, j, 4)).toList }
    if k.g.isSome then .go { k with eff := e } t
    else match pol.action with
    | 0 => .drop e t
    | 1 => .go { k with eff := e, red := true } t
    | _ => .go { k with eff := e, p := pol.prio } t

/-- The stream filter, its gate and its meter; a frame matching no filter meets the port's
meter. A conforming frame is counted and charged, and never dropped here (R300). A frame keeps
the max SDU of the filter that it matched; a whole frame beyond it fails by it (R304). -/
def stageFilter (s : State) (f : Frame) (k : Lk) : Stage :=
  match s.trf.filters.find? fun x => filterHit x.2 k with
  | none =>
    let m := ((trfPort f.src).map fun p => (s.tport p).meters.getD k.base 0xFFFF).getD 0xFFFF
    if m = 0xFFFF ∨ !(s.policer m).enabled then .go k s else s.stageMeter f k m none
  | some (i, x) =>
    let conf := k.g.isSome
    let cnt (k : Lk) (c : Nat × Nat × Nat) : Lk := { k with eff := { k.eff with counts := k.eff.counts ++ [c] } }
    let k := cnt { k with filter := some i } (0, i, 0)
    let s := s.fmod f.fid fun f => { f with filter := some i, sdu := x.maxSdu, sduBlock := x.blockOnOversize, filterSerial := x.serial }
    if x.blocked && !conf then .drop (cnt k (0, i, 5)).eff s
    else if !conf && f.complete && 0 < x.maxSdu && x.maxSdu < f.bytes.length then .drop k.eff s
    else
      let gate := if x.gate = 0xFFFF then none else some x.gate
      let shut := gate.any fun g => !(s.gateState g).1
      if shut && !conf then
        let g := x.gate
        let ctl := agetD s.trf.gates g {}
        let s := if ctl.closeOnInvalid && !ctl.blocked then
            (s.setTrf { s.trf with gates := aset s.trf.gates g { ctl with blocked := true } }).raise 0x6005
              (g + 65536)
          else s
        .drop (cnt (cnt k (2, g, 1)) (0, i, 3)).eff s
      else
        let ipv := gate.bind fun g => (s.gateState g).2
        let k := match gate with
          | none => k
          | some g => if shut then k else
              let k := cnt k (2, g, 0)
              match ipv with
              | none => k
              | some v => if conf then k else { cnt k (2, g, 2) with p := v }
        let m := if x.meter = 0xFFFF then .go k s else s.stageMeter f k x.meter (some i)
        match m with
        | .drop e s => .drop e s
        | .go k s => .go (cnt k (0, i, 1)) s

/-! ### Stage 5 (R183, R385 to R391) -/

/-- Whether a firewall rule matches a key (R387). -/
def ruleHit (r : FwRule) (key : List Byte) (l4 : Bool) : Bool :=
  let sp := be key 52 2
  let dp := be key 54 2
  bit r.flags 0 && ((key.zip (r.value.zip r.mask)).all fun (k, v, m) => (k ^^^ v) &&& m == 0) &&
    ((r.srcLo == 0 && r.srcHi == 0xFFFF) || (l4 && r.srcLo ≤ sp && sp ≤ r.srcHi)) &&
    ((r.dstLo == 0 && r.dstHi == 0xFFFF) || (l4 && r.dstLo ≤ dp && dp ≤ r.dstHi))

/-- The rules that a frame bound to epoch `e` sees, lowest index first. -/
def rulesAt (s : State) (e : Nat) : List (Nat × FwRule) :=
  s.sec.rules.filterMap fun (i, l) => (versionAt s.epoch l e).map fun r => (i, r)

/-- The hit count of a rule advances (R391). -/
def ruleCount (s : State) (i : Nat) : State :=
  let (t, c) := s.bumpView Dom.security Reg.secFwHitView i (i / 8192) (agetD s.sec.hits i 0)
  t.setSec { t.sec with hits := aset t.sec.hits i c }

/-- A verdict against a conforming frame is not enforced (R390). -/
def conformDeny (s : State) (h rule : Nat) : State :=
  let s := (s.bump Reg.secFwConformDenyCnt).bump Reg.secFwPermitCnt
  let (s, t) := s.raiseLimited (aget s.sec.conformAt h) (10 ^ 9) 0x9001 (h + 65536 * rule)
  match t with
  | none => s
  | some t => s.setSec { s.sec with conformAt := aset s.sec.conformAt h t }

/-- The firewall. -/
def stageFirewall (s : State) (k : Lk) : Stage :=
  let h := k.h
  let routed := h.da == s.routerMac && bit (le k.vlan 9 1) 3 && (h.v4 || h.v6) && s.rfld Reg.fwdCtrl 1 1 == 1
  let k := { k with routed := routed }
  if s.rfld Reg.secCtrl 0 1 = 0 then .go k s
  else
    let key := fwKey h k.src k.vid (if h.tagged then h.pcp else le (s.portAttr k.epoch k.src) 6 1 % 8) routed (k.g.map (·.handle)) (le k.vlan 12 1)
    let deny (s : State) (rule : Nat) : Stage := match k.g with
      | some g => .go k (s.conformDeny g.handle rule)
      | none => .drop k.eff (s.bump Reg.secFwDenyCnt)
    match (s.rulesAt k.epoch).find? fun x => ruleHit x.2 key h.l4 with
    | none =>
      if s.rfld Reg.secCtrl 1 1 = 1 then deny s 0xFFFF else .go k (s.bump Reg.secFwPermitCnt)
    | some (i, r) =>
      let s := s.ruleCount i
      match r.action with
      | 0 => .go k (s.bump Reg.secFwPermitCnt)
      | 1 => deny s i
      | 2 => .go { k with state := some (i, r) } s
      | 3 => .go { k with state := some (i, r) } s
      | _ => match k.g with
        | some g => .go k (s.conformDeny g.handle i)
        | none => .go { k with trap := some r.hq } (s.bump Reg.secFwTrapCnt)

/-! ### Stage 6: connection and source probes (R195 to R197, R389) -/

/-- Resolve a stateful verdict. -/
def stageState (s : State) (k : Lk) : Stage :=
  match k.state with
  | none => .go k s
  | some (i, r) =>
    let h := k.h
    let key := connKey h (le k.vlan 12 1)
    let ip := h.v4 || h.v6
    match if ip then s.emProbe k.epoch key else none with
    | some _ =>
      .go { k with eff := { k.eff with conn := some (key, senderLo h, h.tcpFlags) } } (s.bump Reg.secFwPermitCnt)
    | none =>
      let syn := h.l4 && h.proto == 6 && bit h.tcpFlags 1 && !bit h.tcpFlags 4
      let udp := h.l4 && h.proto == 17
      if ip && r.action == 3 && (syn || udp) then
        let d := leBytes 1 (if syn then 1 else 4) ++ leBytes 1 (b2n (senderLo h)) ++ leBytes 2 i ++
          leBytes 4 s.clkMs ++ leBytes 4 1 ++ leBytes 4 0
        .go { k with eff := { k.eff with create := some (.connect key d) } } (s.bump Reg.secFwPermitCnt)
      else if h.frag && !h.l4 && bit r.flags 1 then .go k (s.bump Reg.secFwPermitCnt)
      else match k.g with
      | some g => .go k (s.conformDeny g.handle i)
      | none => .drop { k.eff with conn := none } (s.bump Reg.secFwStateMissCnt)

/-- The source probe, and the learn or move request that it gives. -/
def stageSource (s : State) (k : Lk) : Stage :=
  let h := k.h
  if groupAddr h.sa then .drop { k.eff with conn := none, create := none } (s.bump Reg.fwdIngressDropCnt)
  else
    let fid := le k.vlan 10 2 % 4096
    let key := l2Key fid h.sa
    match s.emProbe k.epoch key with
    | some x =>
      if bit (le x.data 6 2) 1 then .drop { k.eff with conn := none, create := none } s
      else if le x.data 1 1 = k.src then .go { k with eff := { k.eff with hit := some (key, x.serial) } } s
      else .go { k with eff := { k.eff with learn := some (.learn k.src fid h.sa) } } s
    | none =>
      let on := bit (le (s.portAttr k.epoch k.src) 2 2) 0 && bit (le k.vlan 9 1) 0 && s.rfld Reg.fwdCtrl 0 1 == 1
      .go (if on then { k with eff := { k.eff with learn := some (.learn k.src fid h.sa) } } else k) s

/-! ### Decision (R188, R189, R194, R210, R211, R276) -/

/-- A destination set: egresses in SOURCE coding with the host queue of H0, and what the
result does to the frame. -/
structure Dest where
  ports : List Nat := []
  hq : Nat := 0
  /-- egress queue by OVERRIDE -/
  tc : Option Nat := none
  vidOut : Option Nat := none
  nextMac : Option (List Byte) := none
  /-- rows 1 and 2 of R210 and firewall traps skip the filter of R211 -/
  exact : Bool := false
  /-- row 2: the entry's own egresses and queue -/
  guaranteed : Bool := false
  flood : Bool := false
  deriving DecidableEq, Repr

/-- The egresses of a bit map of fabric ports and one of H0, Tongs link, X0 and X1. -/
def portsOf (map x : Nat) : List Nat :=
  (List.range 64).filter (bit map) ++
    ([(1, 64), (2, 65), (3, 66), (0, 67)].filter fun b => bit x b.1).map (·.2)

/-- The set that a result names (R188). -/
def resultDest (s : State) (e : Nat) (r : List Byte) : Dest :=
  let action := le r 0 1
  let list := s.listAt e (le r 2 2)
  let byList : Dest := match list with
    | none => {}
    | some l => { ports := portsOf (le l 0 8) (le l 8 1), hq := le l 9 1 }
  let byPort : Dest := { ports := [le r 1 1], hq := le r 4 1 }
  let d : Dest :=
    match action with
    | 0 => byPort
    | 1 => byList
    | 2 => {}
    | 3 => { ports := [67], hq := le r 4 1 }
    | _ =>
      let b := if bit (le r 6 2) 7 then byList else byPort
      { ports := b.ports.filter (· ≠ 67) ++ [67], hq := le r 4 1 }
  { d with
    tc := if bit (le r 5 1) 3 then some (le r 5 1 % 8) else none
    vidOut := if bit (le r 8 2) 15 then some (le r 8 2 % 4096) else none
    nextMac := if bit (le r 6 2) 3 then some ((r.drop 10).take 6) else none }

/-- The flood set of a VLAN entry: members whose port attributes have a FLOOD flag. -/
def floodDest (s : State) (e : Nat) (vlan : List Byte) (on : Bool) (attrBit : Nat) : Dest :=
  if !on then { hq := le vlan 13 1, flood := true }
  else
    { ports := (portsOf (le vlan 0 8) (le vlan 8 1)).filter fun p => bit (le (s.portAttr e p) 2 2) attrBit
      hq := le vlan 13 1
      flood := true }

/-- The rows of R210. -/
def destOf (s : State) (k : Lk) : Dest :=
  let h := k.h
  let fl := le k.vlan 9 1
  if reservedDa h.da then { ports := [67], hq := 31, exact := true }
  else match k.trap with
  | some q => { ports := [67], hq := q, exact := true }
  | none =>
    let trap30 : Dest := { ports := [67], hq := 30, exact := true }
    if k.routed && h.ttl ≤ 1 then trap30
    else match k.g with
    | some g => { ports := portsOf g.egress g.egressX, hq := g.queue, tc := some g.queue, exact := true, guaranteed := true }
    | none =>
      if k.routed then
        match s.emProbe k.epoch (hostKey h (le k.vlan 12 1)) with
        | some x => s.resultDest k.epoch x.data
        | none =>
          match s.lpmFind k.epoch (le k.vlan 12 1) (if h.v6 then 6 else 4)
              (if h.v6 then beNat h.dstIp else beNat (h.dstIp.take 4)) with
          | some x => s.resultDest k.epoch x.result
          | none => trap30
      else if broadcast h.da then s.floodDest k.epoch k.vlan true 6
      else match s.emProbe k.epoch (l2Key (le k.vlan 10 2) h.da) with
      | some x => s.resultDest k.epoch x.data
      | none =>
        if groupAddr h.da then s.floodDest k.epoch k.vlan (bit fl 2) 5
        else s.floodDest k.epoch k.vlan (bit fl 1) 4

/-- The set after R211: members of the egress VID, not the frame's own source, and not from
the Tongs link to the Tongs link. -/
def destFilter (s : State) (k : Lk) (d : Dest) : Dest :=
  if d.exact then (if d.guaranteed then { d with ports := d.ports.filter (· ≠ k.src) } else d)
  else
    let vlan := s.vlanAt k.epoch (d.vidOut.getD k.vid)
    { d with ports := d.ports.filter fun p => memberOf vlan p && p ≠ k.src && !(k.src == 64 && p == 64) }

/-- The queue of a copy (R276, R277): none when REMAP_QUEUE is scheduled too. -/
def copyQueue (s : State) (k : Lk) (d : Dest) (p : Nat) : Option Nat × State :=
  if d.guaranteed then (some (d.tc.getD 0), s)
  else if p = 67 then (some d.hq, s)
  else
    let q := match d.tc with
      | some q => q
      | none => if p < 64 then bits (s.tport p).pcpMap (3 * k.p) 3 else k.p
    if s.isScheduled p q then
      let r := (s.tport p).remap
      let s := s.bump Reg.trfRemapCnt
      (if s.isScheduled p r then none else some r, s)
    else (some q, s)

/-! ### Admission (R253 to R255, R264, R271) -/

/-- MIN_CELLS, ALPHA, SPILL_EN and OVF_LIMIT of a queue (R253, R499; log entry 14). -/
def queueCfg (s : State) (p q : Nat) : Nat × Nat × Bool × Nat :=
  match queueIndex p q with
  | some i => (s.rfld (Reg.bufQcfg i) 0 14, inRange (s.rfld (Reg.bufQcfg i) 16 4) 0 9,
      s.rfld (Reg.bufQcfg i) 20 1 == 1, s.rfld (Reg.bufQovfLimit i) 0 25)
  | none => (64, 4, false, 0)

/-- The shared test: refused, or admitted with the spill-first mark or without. -/
def sharedTest (s : State) (p q c : Nat) : Option Bool :=
  let (minC, alpha, spill, limit) := s.queueCfg p q
  let free := s.sharedFree - s.drainNeed
  let used := s.qCells p q
  if (used + c ≤ minC ∨ (used + c) * 64 ≤ free * 2 ^ alpha) ∧ c ≤ free then some false
  else if spill ∧ used + s.qDram p q + c ≤ limit ∧ s.ovfUsed + c ≤ s.ovfCapacity ∧
      inRange (s.rfld Reg.bufSpillFloor 0 18) 0 196608 + c ≤ free then some true
  else none

/-- Whether headroom takes a copy of a frame whose source has been sent XOFF (R264). -/
def headroomTakes (s : State) (f : Frame) (pcp c : Nat) : Bool :=
  let x := (s.bport f.src).xoff
  f.src < 48 &&
    (if s.rfld (Reg.bufPortFc f.src) 0 2 = 1 then x.contains 8 else x.contains pcp) &&
    s.partUsed .headroom + c ≤ s.headroom &&
    (((s.fr.frames.filter fun g => g.part == .headroom && !s.inDram g.fid && g.src == f.src &&
      (s.rfld (Reg.bufPortFc f.src) 0 2 == 1 || g.pcp == pcp)).map (·.cells)).sum + c ≤
        s.rfld (Reg.bufPortHeadroom f.src) 0 14)

/-- A copy is refused (R253). -/
def refuseCopy (s : State) (f : Frame) (p : Nat) (down : Bool) : State :=
  let s := if down then s.bump Reg.bufLinkdownDropCnt else s
  ((s.bump Reg.bufAdmitDropCnt).stat p Reg.statTxDrop).tsDiscard f p

/-- Admit the copies of a frame, given its destination set with the queue of each egress:
the frame's partition and cells, the copies, and the state in which the refused ones are
counted. -/
def admission (s : State) (f : Frame) (pcp : Nat) (dests : List (Nat × Nat)) (g : Option Guarantee) :
    Option Partition × Nat × List Copy × State :=
  let m := s.maxFrame f.src
  let c := if f.complete then cellsOf f.bytes.length else cellsOf (m + 4)
  let c := match g with
    | some g => min c (cellsOf g.lMax)
    | none => c
  let start := s
  let cells := ((s.imageOf f.image).bind fun i => g.bind fun g =>
    i.reserve.find? fun r => r.1 == g.handle).map (·.2)
  dests.foldl (fun (part, c, l, s) (p, q) =>
    let n := s.egressLen f p
    if start.portDown p || start.inHold p then
      (part, c, l, (s.refuseCopy f p true).pathLost f.fid p)
    else if p = 67 && !start.rxEn q then (part, c, l, (s.bump (Reg.hifRxrDropCnt q)).lose f.fid p 7)
    else if start.quenched Dom.buffer then (part, c, l, (s.refuseCopy f p false).lose f.fid p 3)
    else if f.complete && p ≤ 64 && s.maxFrame p < n then
      (part, c, l, ((s.stat p Reg.statTxOversize).tsDiscard f p).lose f.fid p 4)
    else
      let ok (x : Partition) (spill : SpillState) :=
        (part.or (some x), c, l ++ [{ fid := f.fid, port := p, queue := q, spill := spill : Copy }], s)
      match g with
      | some g =>
        if part.isSome then ok .scheduled .onChip
        else if s.resUsed f.image g.handle + c ≤ cells.getD 0 then ok .scheduled .onChip
        else if c + start.drainNeed ≤ start.sharedFree then
          let s := (s.bump Reg.bufResOverrunCnt).raise 0x5006 g.handle
          (some .shared, c, l ++ [{ fid := f.fid, port := p, queue := q : Copy }], s)
        else (part, c, l, (s.refuseCopy f p false).lose f.fid p 1)
      | none =>
        let ctl := (p == 67 && (q == 30 || q == 31)) || f.fromControl
        if ctl && start.partUsed .control + c ≤ 2048 then ok .control .onChip
        else match start.sharedTest p q c with
        | some false => ok .shared .onChip
        | some true => ok .shared .spillFirst
        | none =>
          if start.headroomTakes f pcp c then ok .headroom .onChip
          else (part, c, l, s.refuseCopy f p false)) (none, c, [], s)

/-! ### Replication and elimination at decision (R306, R307) -/

/-- Sequence generation: the number that the frame carries, or none; false when a striker
discards the frame in its place (R494). -/
def generate (s : State) (k : Lk) : Bool × Option Nat × State :=
  match (k.filter.bind fun i => aget s.trf.filters i).map (·.generation) with
  | none => (true, none, s)
  | some i =>
    let x := agetD s.trf.gen i {}
    if i = 0xFFFF ∨ !x.enabled ∨ k.h.rtag.isSome then (true, none, s)
    else if x.mirror && s.pair.role == .striker && !s.pair.acting then
      (false, none, s.bump Reg.pairStandbyDiscardCnt)
    else
      let s := s.setTrf { s.trf with gen := aset s.trf.gen i { x with next := (x.next + 1) % 65536 } }
      let s := s.trfCount 4 i 0
      let s := if x.mirror && s.mirroring then s.emit (.mirror (.generation i ((x.next + 1) % 65536))) else s
      (true, some x.next, s)

/-- What sequence recovery makes of a frame. -/
inductive Recov where
  | pass (k : Lk) (pop held : Bool) (s : State)
  | stop (e : Effects) (s : State) (duplicate : Bool)
  deriving DecidableEq, Repr

/-- Sequence recovery at decision. -/
def recover (s : State) (k : Lk) : Recov :=
  match (k.filter.bind fun i => aget s.trf.filters i).map (·.recovery) with
  | none => .pass k false false s
  | some i =>
    let r := s.recovery i
    if i = 0xFFFF ∨ !r.enabled then .pass k false false s
    else match k.h.rtag with
    | none =>
      let e := { k.eff with counts := k.eff.counts ++ [(3, i, 6)] }
      if r.takeNoSeq then .pass { k with eff := e } false false s else .stop e s false
    | some n =>
      match seqFate r n with
      | .accept => .pass { k with eff := { k.eff with recovery := some (i, n) } } r.popRtag false
          (s.recovMod i fun r => { r with pend := n :: r.pend })
      | .held => .pass { k with eff := { k.eff with recovery := some (i, n) } } r.popRtag true s
      | .duplicate => .stop { k.eff with counts := k.eff.counts ++ [(3, i, 1)] } s true
      | .rogue => .stop { k.eff with counts := k.eff.counts ++ [(3, i, 2)] } s false

/-! ### The lookup of one frame (R29, R176, R217, R220, R229) -/

/-- A frame is dropped by a stage: it keeps its bindings, its effects and no copy, and its
conditions decide its statistics. -/
def dropAtStage (s : State) (f : Frame) (e : Effects) : State :=
  let s := s.fmod f.fid fun x => { x with dropped := true, eff := e }
  let s := (s.cal.deadlines.filter (·.fid == f.fid)).foldl (fun s d => s.lose f.fid d.egress 15) s
  (s.tsNowhere f).judge f.fid

/-- Whether the source of a frame may speculate (R220). -/
def maySpeculate (s : State) (src : Nat) : Bool :=
  s.rfld Reg.spcCtrl 0 1 == 1 &&
    (if src < 32 then s.rfld Reg.spcSrcEnLo src 1 == 1
     else if src < 64 then s.rfld Reg.spcSrcEnHi (src - 32) 1 == 1
     else s.rfld Reg.spcSrcEnX (src - 64) 1 == 1)

/-- Place the admitted copies of a decided frame, and let it speculate, commit or wait. -/
def enqueue (s : State) (f : Frame) (pcp : Nat) (dests : List (Nat × Nat)) (g : Option Guarantee) (held : Bool) :
    State :=
  let pipe := pipeOf f.src
  let (part, c, copies, s) := s.admission f pcp dests g
  let s := match part with
    | none => s
    | some pt => s.fmod f.fid fun x => { x with part := pt, cells := c }
  let s := copies.foldl (fun s (c : Copy) => (s.cbsUpdate c.port).setFr
    { s.fr with copies := s.fr.copies ++ [c] }) s
  let s := (s.flowCheck f.src).spillUpdate
  let s := if held then s.bump (Reg.spcDupHeldCnt pipe) else s
  let s :=
    if !frameOpen f || !s.maySpeculate f.src then s
    else match s.takeRecord pipe g.isSome with
    | none => s.bump (Reg.spcFallbackCnt pipe)
    | some (i, s) =>
      (s.fmod f.fid fun x => { x with record := some i }).bump (Reg.spcSpecCnt pipe)
  s.judge f.fid

/-- A frame with a failed condition is dropped at its decision: the state is the one before its
stages, apart from the count that its cause carries (R217), the end of the guarantee that it does
not conform to (R135), and the timestamp entries of the egresses that it is given up for (R78). -/
def dropDecision (s : State) (f : Frame) (entry : Option (Nat × Nat)) (ports : List Nat) (cause : Nat) : State :=
  let s := s.failErrors f cause
  let s := match entry with
    | none => s
    | some (id, h) => s.nonconform id h
  let fabric := ports.filter (· < 64)
  let s := if fabric.isEmpty then s.tsNowhere f else fabric.foldl (fun s p => s.tsDiscard f p) s
  ((s.pnDone f false).fmod f.fid fun x => { x with outcome := .aborted cause, dropped := true }).gc

/-- The decision of a frame: one with a failed condition is dropped, which leaves the state
before its stages, `start`; another takes its sequence number, is admitted, and then commits,
speculates or waits. -/
def decideFrame (s start : State) (f : Frame) (k : Lk) (pop held : Bool) : State :=
  let d := s.destFilter k (s.destOf k)
  let pcp := if k.h.tagged then k.h.pcp else le (s.portAttr k.epoch f.src) 6 1 % 8
  let s := s.fmod f.fid fun x =>
    { x with vid := k.vid, pri := k.p, pcp := pcp, deiMark := k.red, dlen := ((s.declared f k : Nat) + k.overhead).toNat,
             eff := k.eff, popRtag := pop, nextMac := d.nextMac, vidOut := d.vidOut, heldDup := held }
  match s.frame? f.fid with
  | none => s
  | some f =>
    match s.frameFail f with
    | some c =>
      let entry := (start.matchGuarantee f k).map fun x => (x.1.id, x.2.handle)
      State.dropDecision { start with freeCtr := s.freeCtr } f entry d.ports c
    | none =>
      match s.generate k with
      | (false, _, s) =>
        let fabric := d.ports.filter (· < 64)
        if fabric.isEmpty then s.dropAtStage f k.eff
        else ((fabric.foldl (fun s p => s.tsDiscard f p) s).fmod f.fid fun x => { x with tsReq := none }).dropAtStage
          { f with tsReq := none } k.eff
      | (true, seq, s) =>
        let s := if d.flood then s.bump Reg.fwdFloodCnt else s
        let s := s.fmod f.fid fun x => { x with genSeq := seq }
        let f := { f with genSeq := seq }
        let s := (s.cal.deadlines.filter fun x => x.fid == f.fid && !d.ports.contains x.egress).foldl
          (fun s x => s.lose x.fid x.egress 15) s
        if d.ports.isEmpty then (s.bump Reg.fwdEmptyDropCnt).dropAtStage f k.eff
        else
          let (dests, s) := d.ports.foldl (fun (l, s) p =>
            match s.copyQueue k d p with
            | (some q, s) => (l ++ [(p, q)], s)
            | (none, s) => (l, s.refuseCopy f p false)) ([], s)
          s.enqueue f pcp dests k.g held

/-- The verdict on a frame came before its lookup bound it to a guarantee: how late it was
(R167). -/
def boundLate (s : State) (f : Frame) (id h : Nat) : State :=
  match f.verdictAt with
  | none => s
  | some t =>
    let cipher := f.ticket.isSome
    s.verdictLate id h f.start (t - (if cipher then f.tIn else f.lastAt)) cipher

/-- Give a frame its lookup. -/
def lookup (s : State) (f : Frame) : State :=
  let id := s.runningId
  let n := s.fr.order
  let s := s.setFr { s.fr with order := n + 1 }
  let s := s.fmod f.fid fun x => { x with decided := true, epoch := s.epoch, image := id, order := n }
  let f := { f with decided := true, epoch := s.epoch, image := id, order := n }
  let start := s
  let h := parse f.bytes
  if isPause f.bytes && f.src < 64 then s.dropAtStage f {}
  else if h.etherType = 0x88F7 ∧ h.da = beBytes 6 0x0180C200000E then
    if s.rfld Reg.timCtrl 1 1 = 0 then s.dropAtStage f {}
    else match s.frameFail f with
    | some c => s.dropDecision f none [67] c
    | none => s.enqueue f 0 [(67, 29)] none false
  else match s.stageClassify f with
  | .drop e s => s.dropAtStage f e
  | .go k s =>
  match s.stageConform f k with
  | .drop e s => s.dropAtStage f e
  | .go k s =>
  let (f, s) := match k.g with
    | none => (f, s)
    | some g =>
      let win := (s.gcount id g.handle).window
      let s := s.fmod f.fid fun x => { x with handle := some g.handle, window := win }
      let ends := (portsOf g.egress g.egressX).filter (· ≠ f.src)
      ({ f with handle := some g.handle }, (s.startDeadlines f.fid id f.start g ends).boundLate f id g.handle)
  match s.stageFilter f k with
  | .drop e s => s.dropAtStage f e
  | .go k s =>
  match s.stageFirewall k with
  | .drop e s => s.dropAtStage f e
  | .go k s =>
  match s.stageState k with
  | .drop e s => s.dropAtStage f e
  | .go k s =>
  match s.stageSource k with
  | .drop e s => s.dropAtStage f e
  | .go k s =>
  match s.recover k with
  | .stop e s dup =>
    let frer := dup && k.g.any fun g => bit g.flags 2
    let s := if frer then s.setCal { s.cal with deadlines := s.cal.deadlines.filter (·.fid != f.fid) } else s
    s.dropAtStage f e
  | .pass k pop held s => s.decideFrame start f k pop held

end State

end Sys2Proof.Machine
end

