-- ==== Sys2Proof/Machine/Egress.lean ====
section
/-! DEFINITION.
Rows of the egress side: `EGRESS_SELECT` (R225 to R227, R271, R279 to R291, R296, R398,
R399), `EGRESS_COPY_END` (R78, R226, R262), `RX_RING_DELIVER` (R67 to R73, R243),
`MAC_HOLD_ASSERT`, `PREEMPT_VERIFY_TIMER`, `PREEMPT_VERIFY_RESPONSE` and
`FAIRNESS_AUDIT_WINDOW`. -/

namespace Sys2Proof.Machine

namespace State

/-! ### Frame preemption (R295, R296) -/

/-- Whether a port has a MAC merge sublayer. -/
def hasMerge (p : Nat) : Bool := p < 48

/-- Whether preemption is active on a port. -/
def mmActive (s : State) (p : Nat) : Bool :=
  hasMerge p && (s.tport p).preemptEn && (s.bport p).linkUp && (!(s.tport p).verifyEn || (s.tport p).verify == 2)

/-- Whether a queue is express. -/
def isExpress (s : State) (p q : Nat) : Bool :=
  !s.mmActive p || bit (s.tport p).express q || s.isScheduled p q

/-- Bytes of the smallest fragment that is not the last one, with its check. -/
def minFragment (s : State) (p : Nat) : Nat := 64 * (1 + (s.tport p).addFrag)

/-! ### The head of a queue -/

/-- The first copy of a queue that has not started. -/
def head? (s : State) (p q : Nat) : Option (Copy × Frame) :=
  ((s.queueOf p q).find? fun c => !c.onLane && !c.preempted).bind fun c => (s.frame? c.fid).map fun f => (c, f)

/-- The lead of R225. -/
def lead (s : State) (f : Frame) : Nat :=
  if f.icv = .waiting then inRange (s.rfld Reg.spcLeadMacsecNs 0 14) 0 10000
  else if f.edge = .waiting then inRange (s.rfld Reg.spcLeadCipherNs 0 14) 0 10000
  else 0

/-- Whether R225 lets a copy of a speculative frame start now. -/
def horizonPassed (s : State) (f : Frame) (p : Nat) : Bool :=
  let l := s.lead f
  let n := if f.complete then s.charge p (s.egressLen f p) else s.selectCharge f p
  let lane := bytesNs (s.portRate p) (n - 20)
  if f.src = 65 ∨ f.src = 66 then decide (f.inAt + l ≤ s.clk + lane)
  else if s.portRate p ≤ s.portRate f.src then decide (f.inAt + l + bytesNs (s.portRate f.src) 40 ≤ s.clk)
  else f.complete && decide (f.lastAt + l ≤ s.clk + lane)

/-- Whether a frame may start at an egress (R220, R225, R234, R271). -/
def mayStart (s : State) (f : Frame) (p : Nat) : Bool :=
  f.outcome == .committed ||
    (f.speculative && !f.heldDup && s.horizonPassed f p &&
      (f.complete || decide (s.maxFrame f.src + 8 ≤ s.maxFrame p)))

/-- Whether the gate of a queue is open for a head (R290). -/
def gateFits (s : State) (f : Frame) (p q : Nat) : Bool :=
  s.gateOpen p q &&
    (match s.gateLeft p q with
     | none => true
     | some left => decide (bytesNs (s.portRate p) (s.selectCharge f p) ≤ left))

/-- Whether a preempted copy waits on a port. -/
def preemptedCopy (s : State) (p : Nat) : Option Copy := s.fr.copies.find? fun c => c.port == p && c.preempted

/-- The copy on a port's lane. -/
def laneCopy (s : State) (p : Nat) : Option Copy := s.fr.copies.find? fun c => c.port == p && c.onLane && !c.preempted

/-- Whether a received pause stops a queue; a scheduled one is never stopped (R265). -/
def pausedQueue (s : State) (p q : Nat) : Bool := (aget (s.bport p).paused q).isSome && !s.isScheduled p q

/-- Whether a queue is eligible (R279). -/
def eligible (s : State) (p q : Nat) : Bool :=
  match s.head? p q with
  | none => false
  | some (c, f) =>
    (c.spill == .onChip || c.spill == .spillFirst) && !s.pausedQueue p q && s.mayStart f p &&
      s.gateFits f p q && s.shaperOpen p q &&
      (s.isExpress p q || (!(s.tport p).hold && (s.preemptedCopy p).isNone))

/-! ### Heads that are discarded before selection -/

/-- Whether the gate list bound to a guaranteed frame was compiled for another rate (R166). -/
def rateWrong (s : State) (f : Frame) (p : Nat) : Bool :=
  f.handle.isSome && (s.imageOf f.image).any fun i => i.gates.any fun l => l.port == p && l.rate != (s.bport p).rate

/-- Discard a head that cannot be sent: a guaranteed frame on a port at another rate, a
frame longer than the port's MAXFRAME (R271), a frame longer than its queue's longest open
interval (R291). -/
def pruneHead (s : State) (p q : Nat) : Option State :=
  match s.head? p q with
  | none => none
  | some (c, f) =>
    if s.rateWrong f p then some ((s.discardCopy c).pathLost f.fid p)
    else if f.complete && s.mayStart f p && s.maxFrame p < s.egressLen f p then
      some (((s.discardCopy c).stat p Reg.statTxOversize).lose f.fid p 4)
    else if s.mayStart f p && ((s.longestOpen p q).any fun n => n < bytesNs (s.portRate p) (s.selectCharge f p)) then
      let s := (s.discardCopy c).bump Reg.trfGateTooLongCnt
      let (s, t) := s.raiseLimited (s.tport p).tooLongAt 100000000 0x6002 (p + 256 * q)
      some (((s.tportMod p fun x => { x with tooLongAt := t }).stat p Reg.statTxDrop).lose f.fid p 5)
    else none

/-- Discard such heads of a queue until its head may stay. -/
def pruneQueue : Nat → Nat → Nat → State → State
  | 0, _, _, s => s
  | n + 1, p, q, s =>
    match s.pruneHead p q with
    | none => s
    | some t => pruneQueue n p q t

/-- A spilled head stalls its queue (R259). -/
def stallCheck (s : State) (p q : Nat) : State :=
  match s.head? p q, queueIndex p q with
  | some (c, _), some i =>
    if (c.spill == .inDram || c.spill == .draining) && !c.stalled then
      let s := (s.cmod c.fid p fun c => { c with stalled := true }).bump Reg.bufDrainStallCnt
      let (s, t) := s.raiseLimited (aget s.buf.stallAt i) 100000000 0x5004 i
      match t with
      | none => s
      | some t => s.setBuf { s.buf with stallAt := aset s.buf.stallAt i t }
    else s
  | _, _ => s

/-! ### The weighted group (R148, R280 to R282) -/

/-- The weighted group of a port by its TRF_ number, with the quanta, in ascending queue. -/
def group (s : State) (p : Nat) : List (Nat × Nat) :=
  let w := ((s.runningImage.map (·.weights)).getD []).filter fun w => w.port == p
  if w.isEmpty then
    ((List.range (if p = 64 then 32 else 8)).filter fun q => !bit (s.tport p).strict q).map fun q =>
      (q, (s.tport p).quanta.getD q 0)
  else sortOn (·.1) (w.map fun w => (w.queue, w.quantum))

/-- The group of an egress in SOURCE coding; the Tongs link has none (R499). -/
def egressGroup (s : State) (p : Nat) : List (Nat × Nat) :=
  match trfPort p with
  | some t => s.group t
  | none => []

/-- The next member of a group after queue `q`. -/
def nextMember (g : List (Nat × Nat)) (q : Nat) : Option (Nat × Nat) :=
  (g.find? fun x => q < x.1).or g.head?

/-- Some steps of the deficit round robin of R281: the queue served, and the port's arbiter. `cost`
gives the charge of the head of each eligible queue. -/
def drrPass (g : List (Nat × Nat)) (cost : Nat → Option Nat) (empty : Nat → Bool) :
    Nat → TrfPort → Option Nat × TrfPort
  | 0, x => (none, x)
  | n + 1, x =>
    let q := x.pointer
    if (cost q).any fun c => decide ((c : Int) ≤ agetD x.deficit q 0) then (some q, x)
    else
      let x := if empty q then { x with deficit := aset x.deficit q 0 } else x
      match nextMember g q with
      | none => (none, x)
      | some (m, quantum) =>
        let x := { x with pointer := m }
        drrPass g cost empty n
          (if (cost m).isSome then { x with deficit := aset x.deficit m (agetD x.deficit m 0 + quantum) } else x)

/-- The rounds that an eligible queue of the group still needs before its head is served. -/
def drrRounds (cost : Nat → Option Nat) (x : TrfPort) (y : Nat × Nat) : Option Nat :=
  (cost y.1).bind fun c => if y.2 = 0 then none else some (ceilDiv ((c : Int) - agetD x.deficit y.1 0).toNat y.2)

/-- The deficit round robin of R281. Whole rounds in which no queue can be served are taken at
once. -/
def drr (g : List (Nat × Nat)) (cost : Nat → Option Nat) (empty : Nat → Bool) (x : TrfPort) : Option Nat × TrfPort :=
  match drrPass g cost empty (g.length + 1) x with
  | (some q, x) => (some q, x)
  | (none, x) =>
    match (g.filterMap (drrRounds cost x)).min? with
    | none => (none, x)
    | some k =>
      let add (d : Tbl Int) (y : Nat × Nat) : Tbl Int :=
        if (cost y.1).isSome then aset d y.1 (agetD d y.1 0 + ((k - 1) * y.2 : Nat)) else d
      drrPass g cost empty (g.length + 1) { x with deficit := g.foldl add x.deficit }

/-- Deficits of queues outside the group are 0, and the pointer names a member (R282). -/
def regroup (g : List (Nat × Nat)) (x : TrfPort) : TrfPort :=
  let inG (q : Nat) : Bool := g.any (·.1 == q)
  { x with deficit := g.map fun y => (y.1, agetD x.deficit y.1 0)
           pointer := if inG x.pointer then x.pointer else ((g.head?).map (·.1)).getD x.pointer }

/-- The groups of all ports may have changed: a queue that joins or leaves one has deficit 0
(R282). -/
def regroupAll (s : State) : State :=
  s.setTrf { s.trf with ports := s.trf.ports.map fun (p, x) => (p, regroup (s.group p) x) }

/-- The queue that is served next among eligible ones, in ascending order (R280): strict ones
first, the highest first, then the group. -/
def serveNext (g : List (Nat × Nat)) (elig : List Nat) (cost : Nat → Nat) (empty : Nat → Bool) (x : TrfPort) :
    Option Nat × TrfPort :=
  match (elig.filter fun q => !g.any (·.1 == q)).getLast? with
  | some q => (some q, x)
  | none =>
    if elig.isEmpty then (none, x)
    else drr g (fun q => if elig.contains q then some (cost q) else none) empty (regroup g x)

/-- The queue that a port serves next (R280), among queues of a kind. -/
def serve (s : State) (p : Nat) (ok : Nat → Bool) : Option Nat × State :=
  let elig := (List.range 8).filter fun q => ok q && s.eligible p q
  let g := s.egressGroup p
  let cost (q : Nat) : Nat := ((s.head? p q).map fun x => s.selectCharge x.2 p).getD 0
  let (q, x) := serveNext g elig cost (fun q => (s.queueOf p q).isEmpty) (s.tport p)
  (q, if g.isEmpty then s else s.tportMod p fun _ => x)

/-! ### The start of a copy -/

/-- What MACsec egress makes of a frame at its start (R398, R399). -/
inductive Protect where
  | plain
  | sa (an : Nat) (pn : Nat) (s : State)
  | discard
  deriving DecidableEq, Repr

/-- Change the transmit side of a MACsec port. -/
def msMod (s : State) (p : Nat) (f : MsPort → MsPort) : State :=
  s.setSec { s.sec with ms := amod s.sec.ms p {} f }

/-- The threshold event of an SA whose next PN is near the highest usable one, once. -/
def pnWarn (s : State) (p an : Nat) : State :=
  let m := s.msPort p
  match aget m.tx.sas an with
  | none => s
  | some a =>
    let top := if m.tx.xpn then 2 ^ 64 - 1 else 2 ^ 32 - 1
    if !a.warned && decide (top < a.nextPn + (s.rget Reg.secPnMargin).toNat + 1) then
      (s.msMod p fun m => { m with tx := { m.tx with sas := aset m.tx.sas an { a with warned := true } } }).raise
        0x9002 (p + 256 * an)
    else s

/-- The active transmit SA of a port is exhausted. -/
def pnExhausted (s : State) (p an : Nat) : State :=
  let m := s.msPort p
  let next := (an + 1) % 4
  let top := if m.tx.xpn then 2 ^ 64 - 1 else 2 ^ 32 - 1
  if m.tx.autoSwitch && (aget m.tx.sas next).any fun a => !a.stopped && decide (a.nextPn ≤ top) then
    ((s.msMod p fun m => { m with txAn := some next }).raise 0x9004 (p + 256 * next)).pnWarn p next
  else (s.msMod p fun m => { m with exhausted := true }).raise 0x9003 (p + 256 * an)

/-- Assign the packet number of a frame that starts on a port's lane. -/
def protect (s : State) (f : Frame) (p : Nat) : Protect :=
  let m := s.msPort p
  if 64 ≤ p ∨ !m.txEn then .plain
  else if f.src = 67 ∧ (parse f.bytes).etherType = 0x888E then .plain
  else if m.exhausted || s.quenched Dom.security || s.quenched (macsecUnit p true) then .discard
  else match m.txAn with
  | none => .discard
  | some an =>
    match aget m.tx.sas an with
    | none => .discard
    | some a =>
      if a.stopped then .discard
      else
        let top := if m.tx.xpn then 2 ^ 64 - 1 else 2 ^ 32 - 1
        let s := s.msMod p fun m => { m with tx := { m.tx with sas := aset m.tx.sas an { a with nextPn := a.nextPn + 1 } } }
        let s := (s.bump (Reg.secMsTxProtCnt p)).pnWarn p an
        .sa an a.nextPn (if a.nextPn = top then s.pnExhausted p an else s)

/-- The first byte of a copy goes on the lane. -/
def startCopy (s : State) (c : Copy) (f : Frame) (pn : Option Nat) : State :=
  let s := s.cmod c.fid c.port fun c => { c with onLane := true, startAt := s.clk, firstAt := s.clk, pn := pn }
  let s := s.fmod f.fid fun x => { x with started := true }
  (s.emit (.laneStart c.port c.queue f.fid (s.rewrite f c.port) pn)).depart f.fid c.port

/-- Lane bytes of the final fragment that ends a copy which aborted while it was preempted: those
that the MAC held at the abort, padded to the smallest fragment with its check (R241). -/
def finalFragment (s : State) (c : Copy) : Nat := max (c.abortLen.getD c.sent - c.sent) (s.minFragment c.port - 4)

/-- Resume the preempted copy of a port: its next fragment, or, if its frame has aborted, the
final fragment of R241. -/
def resumeCopy (s : State) (c : Copy) : State :=
  match s.frame? c.fid with
  | none => s.takeCopy c.fid c.port
  | some f =>
    match f.outcome with
    | .aborted _ =>
      let n := s.finalFragment c
      let s := s.waitUntil (s.clk + bytesNs (s.portRate c.port) (n + 4))
      (s.tailAbort { c with sent := c.sent + n } (pipeOf f.src)).gc
    | _ => s.cmod c.fid c.port fun c => { c with preempted := false, startAt := s.clk }

/-- Select and start. A frame that MACsec discards leaves the lane free for the next one. -/
def selectLoop : Nat → Nat → (Nat → Bool) → State → State
  | 0, _, _, s => s
  | n + 1, p, ok, s =>
    match s.serve p ok with
    | (none, s) =>
      match s.preemptedCopy p with
      | some c => if (s.laneCopy p).isNone && !(s.tport p).hold then s.resumeCopy c else s
      | none => s
    | (some q, s) =>
      match s.head? p q with
      | none => s
      | some (c, f) =>
        match s.protect f p with
        | .plain => s.startCopy c f none
        | .sa _ pn t => t.startCopy c f (some pn)
        | .discard =>
          selectLoop n p ok (((((s.discardCopy c).bump (Reg.secMsTxDiscardCnt p)).stat p Reg.statTxDrop).lose
            f.fid p 6).gc)

/-- Cut the copy on the lane short for an express frame, when 802.3br permits it: the
fragment sent is long enough, and what is left makes a fragment too. -/
def preempt (s : State) (c : Copy) (f : Frame) : Option State :=
  let n := s.sentBytes c
  let frag := s.minFragment c.port
  let len := s.selectLen f c.port + (if c.pn.isSome then s.macsecExtra c.port else 0)
  if c.sent + frag ≤ n + 4 ∧ n + 64 ≤ len then
    some ((s.cmod c.fid c.port fun c =>
      { c with preempted := true, sent := n, frags := c.frags + 1 }).bump (Reg.trfMmFragTxCnt c.port))
  else none

/-- `EGRESS_SELECT` -/
def doEgressSelect (s : State) (p : Nat) : State :=
  if 64 < p || !s.datapathUp || s.portDown p || s.quenched Dom.buffer then s
  else
    let s := s.cbsUpdate p
    let n := s.fr.copies.length
    let s := (List.range 8).foldl (fun s q => (pruneQueue n p q s).stallCheck p q) s
    match s.laneCopy p with
    | none =>
      let s := if p < 64 then s.waitUntil (s.tport p).freeAt else s
      (selectLoop (n + 1) p (fun _ => true) s).gc
    | some c =>
      match s.frame? c.fid with
      | none => s.gc
      | some f =>
        let ready := (List.range 8).any fun q => s.isExpress p q && s.eligible p q
        if s.mmActive p && !s.isExpress p c.queue && (s.preemptedCopy p).isNone && ready then
          match s.preempt c f with
          | none => s.gc
          | some t => (selectLoop (n + 1) p (fun q => t.isExpress p q) (t.cbsUpdate p)).gc
        else s.gc

/-! ### The end of a copy (R226, R262) -/

/-- Bytes of the cells that are stored of a conforming frame (R254). -/
def storedBytes (g : Guarantee) : Nat := 256 * cellsOf g.lMax

/-- Whether the copy of a frame without an outcome ends because no more of it is stored: a
conforming frame still arrives, or has arrived, beyond its cells (R254). -/
def storedOut (s : State) (f : Frame) : Bool :=
  (s.frameGuarantee f).any fun g => !f.complete || decide (storedBytes g < f.bytes.length)

/-- Lane bytes at which the copy on a lane ends, apart from MACsec's: all of a whole frame, D of one
that still arrives (R226, R227), or the stored bytes of a conforming one (R254). -/
def endLen (s : State) (f : Frame) (p : Nat) : Nat :=
  let n := if f.complete then s.egressLen f p else f.dlen
  if f.outcome == .committed then n
  else match s.frameGuarantee f with
  | none => n
  | some g => if f.complete then min n (storedBytes g) else storedBytes g

/-- The TX timestamp entry of a copy that was sent (R77, R78, R456). -/
def tsSent (s : State) (f : Frame) (c : Copy) : State :=
  match f.tsReq with
  | none => s
  | some id =>
    if 64 ≤ c.port then s
    else
      let d := s.rfld (Reg.timPortCfg c.port) 0 2
      let dom := s.domain d
      let ns := if dom.state = .disabled then 0
        else ((s.domNs d : Int) - (s.clk - c.firstAt : Nat) + s.phyDelay c.port 16).toNat
      s.tsqPut (if c.port < 8 then 0 else if c.port < 24 then 1 else if c.port < 48 then 2 else 3) id c.port (4 * d)
        (ns % 10 ^ 9) (ns / 10 ^ 9)

/-- `EGRESS_COPY_END`: the last byte of the copy on a port's lane leaves. -/
def doEgressCopyEnd (s : State) (p : Nat) : State :=
  match s.laneCopy p with
  | none => s
  | some c =>
    match s.frame? c.fid with
    | none => s.takeCopy c.fid p
    | some f =>
      let n := s.endLen f p
      let ms := if c.pn.isSome then s.macsecExtra p else 0
      let s := s.waitUntil (c.startAt + bytesNs (s.portRate p) (n + ms - c.sent))
      let pipe := pipeOf f.src
      if f.outcome != .committed then
        let s := if s.storedOut f then s
          else
            let s := s.bump (Reg.spcLateEgressCnt pipe)
            let (s, t) := s.raiseLimited (aget s.fr.lateAt pipe) 100000000 0x4103 (pipe + 256 * p)
            match t with
            | none => s
            | some t => s.setFr { s.fr with lateAt := aset s.fr.lateAt pipe t }
        (s.tailAbort c pipe).gc
      else
        let s := s.deficitTake c (s.charge p n)
        let s := if 0 < c.frags then s.bump (Reg.trfMmFragTxCnt p) else s
        let s := ((s.cbsUpdate p).emit (.laneEnd p f.fid)).sentCounts c f n
        let s := (s.tsSent f c).capturePut f p true
        ((s.takeCopy c.fid p).laneGap c).gc

/-! ### Delivery to the host (R67 to R73, R243) -/

/-- Bytes of a frame for the space test: its own, or the most that its source may bring
while it is still arriving. -/
def ringBytes (s : State) (f : Frame) : Nat :=
  if f.complete then f.bytes.length - 4 else s.maxFrame f.src - 4

/-- A copy that a ring does not take. -/
def ringDrop (s : State) (c : Copy) (ring : Nat) (gap : Bool) : State :=
  let s := s.bump (Reg.hifRxrDropCnt ring)
  let s := if gap then s.rxMod ring fun r => { r with lost := r.lost + 1 } else s
  (((s.discardCopy c).lose c.fid 67 7).gc).rxGap ring

/-- The write requests of a record, from the pad header before it to its last header, each at most
Max Payload Size long (R36, R68, R71). A record in commit mode has its bytes alone (R72). -/
def ringRequests (s : State) (ring pad : Nat) (late : Bool) (f : Frame) : List (Nat × List Byte) :=
  let p := (s.rget (Reg.hifRxrProd ring)).toNat
  let q := p + pad
  let at_ (n : Nat) : Nat := (s.rxRing ring).base + n % s.rxSize ring
  let b := f.out
  let cut (n : Nat) (b : List Byte) : List (Nat × List Byte) :=
    (spans s.maxPayload b.length).map fun x => (at_ n + x.1, (b.drop x.1).take x.2)
  let header (n len flags source time : Nat) : List (Nat × List Byte) := cut n (s.rxHeaderBytes ring n len flags source time)
  let mine (flags : Nat) : List (Nat × List Byte) := header q b.length flags f.src (f.tIn % 2 ^ 32)
  (if pad = 0 then [] else header p (pad - 8) 4 0 0) ++
    (if late then cut (q + 8) b
     else if s.rfld (Reg.hifRxrCfg ring) 2 1 = 1 ∧ 512 < b.length then
      cut (q + 8) (b.take 512) ++ mine 2 ++ cut (q + 8 + 512) (b.drop 512) ++ mine 0
     else cut (q + 8) b ++ mine 0)

/-- A receive ring takes the next frame of its host queue, when it can: what the record writes waits
for the link (R70, R73). The pad header of a record in commit mode goes out with it (log
entry 55). -/
def ringTake (s : State) (ring : Nat) : State :=
  match s.head? 67 ring with
  | none => s
  | some (c, f) =>
    if !s.rxEn ring then s.ringDrop c ring false
    else if !s.canDma || (s.rxRing ring).busy.isSome || !(c.spill == .onChip || c.spill == .spillFirst) ||
        !(f.outcome == .committed || (f.speculative && !f.heldDup)) then s
    else
      let s := s.rxGap ring
      let size := s.rxSize ring
      let need := ceilDiv (8 + s.ringBytes f) 8 * 8
      let p := (s.rget (Reg.hifRxrProd ring)).toNat
      let pad := if size < p % size + need then size - p % size else 0
      if 0 < (s.rxRing ring).lost || size < s.rxUsed ring + pad + need + 8 then s.ringDrop c ring true
      else
        let late := f.outcome != .committed
        let todo := s.ringRequests ring pad late f
        let s := s.rxMod ring fun r => { r with
          busy := some f.fid, pad := pad, late := late, wrote := f.out.length, todo := todo }
        (s.fmod f.fid fun x => { x with started := true }).cmod f.fid 67 fun c => { c with onLane := true, startAt := s.clk }

/-- The last write request of a record has gone out: it is finished (R73), the frame departs and
its copy ends. -/
def ringDone (s : State) (ring : Nat) : State :=
  let r := s.rxRing ring
  match s.fr.copies.find? fun c => c.port == 67 && c.queue == ring && some c.fid == r.busy with
  | none => s.ringRewind ring
  | some c =>
    match s.frame? c.fid with
    | none => s.ringRewind ring
    | some f =>
      let s := ((s.ringRewind ring).rxFinish ring (r.pad + ceilDiv (8 + f.out.length) 8 * 8)).depart f.fid 67
      ((s.sentCounts c f f.bytes.length).takeCopy f.fid 67).gc

/-- The next write request of a ring goes on the link. -/
def ringSend (s : State) (ring : Nat) : State :=
  match (s.rxRing ring).todo with
  | [] => s
  | (a, b) :: rest =>
    let s := (s.hostMem (9 + ring) a b).rxMod ring fun r => { r with todo := rest }
    if rest.isEmpty && !(s.rxRing ring).late then s.ringDone ring else s

/-- The ring whose next write request goes on the link: the order of the host queues (R73, R280,
R281). A request is charged with its bytes (log entry 61). -/
def ringNext (s : State) : Option Nat × State :=
  let g := s.group 64
  let cost (r : Nat) : Nat := ((s.rxRing r).todo.head?.map (·.2.length)).getD 0
  let ready := (List.range 32).filter fun r => !(s.rxRing r).todo.isEmpty
  let (r, x) := serveNext g ready cost (fun q => (s.queueOf 67 q).isEmpty) (s.tport 64)
  let paid (r : Nat) : TrfPort :=
    if g.any (·.1 == r) then { x with deficit := aset x.deficit r (agetD x.deficit r 0 - cost r) } else x
  (r, if g.isEmpty then s else s.tportMod 64 fun _ => (r.map paid).getD x)

/-- Write requests go out until a ring has none left. -/
def ringLoop : Nat → Nat → State → State
  | 0, _, s => s
  | n + 1, ring, s =>
    if (s.rxRing ring).todo.isEmpty then s
    else match s.ringNext with
    | (none, s) => s
    | (some r, s) => ringLoop n ring (s.ringSend r)

/-- `RX_RING_DELIVER`: a receive ring takes the next frame of its host queue and writes it. The
other rings that have one take theirs too, and contend for the link meanwhile (R73). -/
def doRxRingDeliver (s : State) (ring : Nat) : State :=
  if 31 < ring || !s.datapathUp || s.quenched Dom.host || s.quenched Dom.buffer then s
  else
    let s := s.ringTake ring
    if (s.rxRing ring).todo.isEmpty then s
    else
      let s := ((List.range 32).filter fun r => r != ring && s.rxEn r).foldl ringTake s
      ringLoop ((List.range 32).map fun r => (s.rxRing r).todo.length).sum ring s

/-! ### MAC merge: hold and verify (R289, R295) -/

/-- The gate entries that may begin next at a port, with the time in ns to each: the next one of the
list in force, and the first of a list that is to take its place, a host's (R293) or the pending
image's. -/
def entriesAhead (s : State) (p : Nat) : List (Nat × GateEntry) :=
  let next := match s.listInForce p with
    | none => []
    | some (_, es, i, left) => (es[(i + 1) % max 1 es.length]?.map fun e => (left, e)).toList
  let g := s.hostGates p
  let host := if (s.imageList p).isSome || g.retained then [] else match g.pend with
    | none => []
    | some l => (l.entries.head?.map fun e => (l.change - s.domNs l.domain, e)).toList
  let image := match (s.handleIn .pending).bind fun h => (s.handle h).img with
    | none => []
    | some i => (((i.gates.find? (·.port == p)).bind fun l => l.entries.head?).map fun e =>
        (s.cal.pendingT - s.domNs i.domain, e)).toList
  next ++ host ++ image

/-- `MAC_HOLD_ASSERT`: the next gate entry asserts hold, HOLD_ADVANCE_NS ahead of its start. -/
def doMacHoldAssert (s : State) (p : Nat) : State :=
  if !hasMerge p || !s.mmActive p then s
  else match (sortOn (·.1) (s.entriesAhead p)).head? with
  | none => s
  | some (left, e) =>
    if e.op % 4 = 1 ∧ !(s.tport p).hold then
      let s := s.waitUntil (s.clk + (left - (s.tport p).holdAdvance))
      (s.tportMod p fun x => { x with hold := true }).bump (Reg.trfMmHoldCnt p)
    else s

/-- The OP of a gate entry at its start; on a port where preemption is not active it is OP 0
(R289). -/
def enterEntry (s : State) (p : Nat) (e : GateEntry) : State :=
  if !s.mmActive p then s
  else if e.op % 4 = 1 ∧ !(s.tport p).hold then
    (s.tportMod p fun x => { x with hold := true }).bump (Reg.trfMmHoldCnt p)
  else if e.op % 4 = 2 then s.tportMod p fun x => { x with hold := false }
  else s

/-- Begin verification on a port, where it is asked for. -/
def verifyStart (s : State) (p : Nat) : State :=
  let x := s.tport p
  if hasMerge p && x.preemptEn && x.verifyEn && (s.bport p).linkUp then
    (s.emit (.mPacket p)).tportMod p fun x => { x with verify := 1, verifySent := 1, verifyAt := s.clk }
  else s.tportMod p fun x => { x with verify := 0, verifySent := 0 }

/-- `PREEMPT_VERIFY_TIMER`: the time for a response has passed. -/
def doPreemptVerifyTimer (s : State) (p : Nat) : State :=
  let x := s.tport p
  if !hasMerge p || x.verify ≠ 1 then s
  else
    let s := s.waitUntil (x.verifyAt + 1000000 * x.verifyMs)
    if x.verifySent < 3 then
      (s.emit (.mPacket p)).tportMod p fun x => { x with verifySent := x.verifySent + 1, verifyAt := s.clk }
    else (s.tportMod p fun x => { x with verify := 3 }).raise 0x6004 p

/-- `PREEMPT_VERIFY_RESPONSE` -/
def doPreemptVerifyResponse (s : State) (p : Nat) : State :=
  if !hasMerge p || (s.tport p).verify ≠ 1 || s.portDown p then s
  else s.tportMod p fun x => { x with verify := 2 }

/-! ### The fairness audit (R284) -/

/-- The deviating queues of a port with their service and their expected service; the sets S
are the backlogged group queues of one gate pattern. -/
def deviations (s : State) (t : Nat) : List (Nat × Nat × Nat) :=
  let x := s.tport t
  let p := if t = 64 then 67 else t
  let g := (s.group t).filter fun y => x.full.contains y.1
  let pat (q : Nat) : List Bool := x.gatesSeen.map fun m => bit m q
  let tol := inRange (s.rfld Reg.trfAuditTol 0 10) 1 1000
  g.filterMap fun y =>
    let set := g.filter fun z => pat z.1 == pat y.1
    let b := (set.map fun z => agetD x.served z.1 0).sum
    let w := (set.map (·.2)).sum
    let bq := agetD x.served y.1 0
    let d := ((bq * w : Nat) : Int) - (b * y.2 : Nat)
    if 2 ≤ set.length ∧ (b * tol + 1000 * (s.maxFrame p + 52 + y.2)) * w < 1000 * d.natAbs then
      some (y.1, bq, b * y.2 / w)
    else none

/-- Audit one port and begin its next window. -/
def auditPort (s : State) (t : Nat) : State :=
  let dev := s.deviations t
  let s := dev.foldl (fun s (q, b, e) =>
    let s := (s.bump Reg.trfFairDevCnt).rset Reg.trfFairLast (BitVec.ofNat 32 (t + 256 * q))
    let s := (s.rset Reg.trfFairLastServed (BitVec.ofNat 32 b)).rset Reg.trfFairLastExpect (BitVec.ofNat 32 e)
    let (s, at_) := s.raiseLimited (s.tport t).fairAt (10 ^ 9) 0x6001 (t + 256 * q)
    s.tportMod t fun x => { x with fairAt := at_ }) s
  let p := if t = 64 then 67 else t
  let full := (s.group t).filter fun y => !(s.queueOf p y.1).isEmpty
  if dev.isEmpty && full.isEmpty && (s.tport t).full.isEmpty && (s.tport t).served.isEmpty then s
  else s.tportMod t fun x => { x with full := full.map (·.1), gatesSeen := [s.gateMask p], served := [] }

/-- `FAIRNESS_AUDIT_WINDOW`: a window ends on every port. -/
def doFairnessAuditWindow (s : State) : State :=
  if s.rfld Reg.trfCtrl 0 1 = 0 || !s.datapathUp || s.quenched Dom.buffer then s
  else
    let w := 1000 * inRange (s.rfld Reg.trfAuditWindowUs 0 20) 1000 1000000
    let s := s.waitUntil (ceilDiv s.clk w * w)
    ((List.range 65).foldl auditPort s).bump Reg.trfAuditPassCnt

end State

/-- `EGRESS_SELECT` -/
def execEgressSelect (port : Nat) (s : State) : Host.Outcome State Fault Refusal := .next (s.doEgressSelect port)

/-- `EGRESS_COPY_END` -/
def execEgressCopyEnd (port : Nat) (s : State) : Host.Outcome State Fault Refusal := .next (s.doEgressCopyEnd port)

/-- `RX_RING_DELIVER` -/
def execRxRingDeliver (ring : Nat) (s : State) : Host.Outcome State Fault Refusal := .next (s.doRxRingDeliver ring)

/-- `MAC_HOLD_ASSERT` -/
def execMacHoldAssert (port : Nat) (s : State) : Host.Outcome State Fault Refusal := .next (s.doMacHoldAssert port)

/-- `PREEMPT_VERIFY_TIMER` -/
def execPreemptVerifyTimer (port : Nat) (s : State) : Host.Outcome State Fault Refusal :=
  .next (s.doPreemptVerifyTimer port)

/-- `PREEMPT_VERIFY_RESPONSE` -/
def execPreemptVerifyResponse (port : Nat) (s : State) : Host.Outcome State Fault Refusal :=
  .next (s.doPreemptVerifyResponse port)

/-- `FAIRNESS_AUDIT_WINDOW` -/
def execFairnessAuditWindow (s : State) : Host.Outcome State Fault Refusal := .next s.doFairnessAuditWindow

end Sys2Proof.Machine
end

