-- ==== Sys2Proof/Machine/Envelope.lean ====
section
/-! DEFINITION.
Signed images: the envelope and its checks (R542, R544), the signature block (R150), the
image-key entries (R543) and the calendar signer slots. -/

namespace Sys2Proof.Machine

/-- Bytes of a signature block (R150). -/
def sigBytes : Nat := 3416

/-- Whether the ECDSA signature of a block verifies over bytes. -/
def ecdsaOk (pub bytes block : List Byte) : Bool := Config.ecdsaVerify pub (Crypto.sha384 bytes) (block.take 96)

/-- Whether the ML-DSA signature of a block verifies over bytes. -/
def mldsaOk (pub bytes block : List Byte) : Bool :=
  Config.mldsaVerify pub (Crypto.sha384 bytes) ((block.drop 96).take 3309)

/-- The keys of a key block, which is laid out as bytes 128 to 2,207 of an envelope. -/
def blockKeys (block : List Byte) : List Byte × List Byte := (block.take 97, (block.drop 128).take 1952)

namespace State

/-- The image-key entries of the OTP: digest of entry `k`, and whether the entry may be used. -/
def keyDigest (k : Nat) : List Byte := beBytes 48 (Config.otpKeyDigest k).toNat

def keyUsable (s : State) (k : Nat) : Bool :=
  k < 4 && bit Config.otpProgrammed.toNat k && !bit s.boot.revoked k

/-- Bytes of a flash slot of an image kind (R538). -/
def slotSize (kind : Nat) : Nat := if kind = 1 then 0x1000000 else if kind = 2 then 0x40000 else 0x100000

/-- The check code of R544 that an envelope image of a kind fails first; 0 when it passes. -/
def envCheck (s : State) (kind : Nat) (img : List Byte) : Nat :=
  let blocks := le img 12 2
  let sigAt := 0x10000 * (blocks + 1)
  let key := (img.drop 128).take 2080
  let (ec, ml) := blockKeys key
  let signed := img.take sigAt
  let block := (img.drop sigAt).take sigBytes
  let crcOk (i : Nat) : Bool :=
    (Crypto.crc32c ((img.drop (0x10000 * (i + 1))).take 0x10000)).toNat == le img (2304 + 4 * i) 4
  if !(le img 0 4 == 0x4957464E && le img 4 2 == 1 && le img 6 1 == kind &&
      (Crypto.crc32c (img.take 124)).toNat == le img 124 4 && 1 ≤ blocks && blocks ≤ (if kind = 2 then 1 else 254) &&
      le img 8 4 == sigAt + sigBytes && le img 8 4 ≤ slotSize kind && le img 14 2 ≤ 256 &&
      le img 8 4 ≤ img.length) then 1
  else if Config.stepping.toNat < le img 20 2 then 2
  else if !(s.keyUsable (le img 7 1) && keyDigest (le img 7 1) == Crypto.sha384 key) then 3
  else if le img 14 2 < s.boot.rollback then 4
  else if !(List.range blocks).all crcOk then 5
  else if !ecdsaOk ec signed block then 6
  else if !mldsaOk ml signed block then 7
  else 0

/-- The image in a flash slot. -/
def flashImage (s : State) (kind slot : Nat) : List Byte := agetD s.boot.images (kind * 2 + slot) (Config.flashFactory (kind * 2 + slot))

/-- Bytes of a flash region with `b` programmed into the erased sector at an offset. -/
def sectorPut (l : List Byte) (off : Nat) (b : List Byte) : List Byte :=
  let ones (n : Nat) : List Byte := List.replicate n 0xFF
  (l ++ ones off).take off ++ (b ++ ones 0x10000).take 0x10000 ++ l.drop (off + 0x10000)

/-- Erase sector `i` of a flash slot and program it. -/
def flashPut (s : State) (kind slot i : Nat) (b : List Byte) : State :=
  s.setBoot { s.boot with images := aset s.boot.images (kind * 2 + slot) (sectorPut (s.flashImage kind slot) (0x10000 * i) b) }

/-- An open update is abandoned; its target no longer verifies (R560). -/
def updAbandon (s : State) : State :=
  match s.boot.update with
  | none => s
  | some u => let s := s.flashPut u.kind u.slot 0 []
              s.setBoot { s.boot with update := none }

/-- The service session ends; slots that it carried in and that are not taken are gone (R554). -/
def sessionEnd (s : State) : State :=
  let s := s.updAbandon
  (s.setBoot { s.boot with session := none }).setMbx { s.mbx with svc := [] }

/-- The ACTIVE slot of a kind (R540). -/
def activeSlot (s : State) (kind : Nat) : Nat := s.boot.desc.active / 2 ^ (kind - 1) % 2

/-- The keys that entry `i` of a signer set installs (R543). -/
def signerEntry (img : List Byte) (i : Nat) : Option (Nat × List Byte × List Byte) :=
  let e := (img.drop (0x10000 + 2304 * i)).take 2304
  if bit (le e 0 1) 0 then some (i, (e.drop 8).take 97, (e.drop 128).take 1952) else none

/-- A cold start reads the active signer set; one that fails its checks installs no slot
(R546). -/
def readSigners (s : State) : State :=
  let img := s.flashImage 2 (s.activeSlot 2)
  let l := if s.envCheck 2 img = 0 then (List.range 4).filterMap (signerEntry img) else []
  s.setBoot { s.boot with signers := l }

end State

end Sys2Proof.Machine
end

