-- ==== Sys2Proof/Machine/CalImage.lean ====
section
/-! DEFINITION.
Calendar images: their layout (R137 to R149), the checks on load (R152), on admission (R153,
R593) and of the limp image (R172). Where several items of an image fail one check, the
report of R154 names the first one in the order below (log entry 17). -/

namespace Sys2Proof.Machine

/-- What a failed check reports (R154). -/
structure CalFail where
  check : Nat
  type : Nat := 0
  handle : Nat := 0xFFFF
  entry : Nat := 0
  value : Nat := 0
  port : Nat := 0xFF
  deriving DecidableEq, Repr

/-- The 16 bytes of slot data of a report. -/
def CalFail.bytes (f : CalFail) : List Byte :=
  leBytes 1 f.check ++ leBytes 1 f.type ++ leBytes 2 f.handle ++ leBytes 4 f.entry ++ leBytes 4 f.value ++
    leBytes 1 f.port ++ leBytes 3 0

/-- A condition, and what is reported where it fails. -/
abbrev Cond := Bool × CalFail

/-- The first condition of a list that fails. -/
def firstFail (l : List Cond) : Option CalFail := (l.find? fun c => !c.1).map (·.2)

/-! ### Section table (R139, R152) -/

/-- An entry of the section table. -/
structure Sect where
  type : Nat
  esize : Nat
  count : Nat
  off : Nat
  size : Nat
  crc : Nat
  deriving DecidableEq, Repr

/-- The section table of an image. -/
def sects (b : List Byte) : List Sect :=
  (List.range (le b 6 2)).map fun i =>
    let e := (b.drop (128 + 24 * i)).take 24
    ⟨le e 0 2, le e 2 2, le e 4 4, le e 8 4, le e 12 4, le e 16 4⟩

/-- Entry size and largest COUNT of a section type; none for an unknown type. -/
def sectInfo (type : Nat) : Option (Nat × Nat) :=
  match type with
  | 1 => some (16, 4096)
  | 2 => some (16, 4096)
  | 3 => some (0, 64)
  | 4 => some (16, 8192)
  | 5 => some (16, 16384)
  | 6 => some (16, 4096)
  | 7 => some (4, 4096)
  | 8 => some (8, 544)
  | 9 => some (64, 4096)
  | _ => none

/-- The mandatory section types. -/
def mandatory : List Nat := [1, 2, 3, 7, 9]

/-- A gate-list entry. -/
def gateEntryOf (e : List Byte) : GateEntry := ⟨le e 0 4, le e 4 1, le e 5 1⟩

/-- Read `n` gate lists: the lists, and the bytes that they take. -/
def gateWalk : Nat → List Byte → List GateList × Nat
  | 0, _ => ([], 0)
  | n + 1, b =>
    let k := le b 2 2
    let l : GateList := ⟨le b 0 1, le b 1 1, le b 4 4,
      ((Crypto.chunks 8 ((b.drop 16).take (8 * k))).map gateEntryOf)⟩
    let (r, m) := gateWalk n (b.drop (16 + 8 * k))
    (l :: r, 16 + 8 * k + m)

/-- Bytes of a section. -/
def sectBytes (b : List Byte) (x : Sect) : List Byte := (b.drop x.off).take x.size

/-- Sections laid one after the other from `pos` to `last`, without overlap and without a gap
of 8 bytes or more. A section of no bytes overlaps nothing. -/
def laidOut (last : Nat) : Nat → List Sect → Bool
  | pos, [] => pos ≤ last && last < pos + 8
  | pos, x :: r => pos ≤ x.off && x.off < pos + 8 && laidOut last (x.off + x.size) r

/-- The two checks of `CAL_LOAD`. -/
def loadChecks (b : List Byte) (length : Nat) : Option CalFail :=
  let sigAt := le b 44 4
  let n := le b 6 2
  let f1 (off value : Nat) : CalFail := { check := 1, entry := off, value := value }
  let one := firstFail [
    (le b 0 4 == 0x4C435A55, f1 0 (le b 0 4)),
    (le b 4 2 == 1, f1 4 (le b 4 2)),
    ((Crypto.crc32c (b.take 124)).toNat == le b 124 4, f1 124 (Crypto.crc32c (b.take 124)).toNat),
    (le b 8 4 == length && length ≤ 0x800000, f1 8 (le b 8 4)),
    (sigAt % 8 == 0 && sigAt + sigBytes == le b 8 4, f1 44 sigAt),
    (5 ≤ n && n ≤ 10, f1 6 n),
    (128 + 24 * n ≤ sigAt, f1 6 n)]
  one.or <|
    let l := sects b
    let perSect := l.zipIdx.flatMap fun (x, i) =>
      let f (o value : Nat) : CalFail := { check := 2, type := x.type, entry := 128 + 24 * i + o, value := value }
      let notes := x.type == 0xFF
      let inf := (sectInfo x.type).getD (x.esize, x.count)
      let want := if x.type = 3 then (gateWalk x.count (sectBytes b x)).2 else x.count * x.esize
      [((sectInfo x.type).isSome || notes, f 0 x.type),
       (((l.take i).all fun y => y.type ≠ x.type), f 0 x.type),
       (x.esize == inf.1, f 2 x.esize),
       (x.count ≤ inf.2, f 4 x.count),
       (x.size == want, f 12 x.size),
       (x.off % 8 == 0, f 8 x.off),
       (128 + 24 * n ≤ x.off && x.off + x.size ≤ sigAt, f 8 x.off),
       ((Crypto.crc32c (sectBytes b x)).toNat == x.crc, f 16 (Crypto.crc32c (sectBytes b x)).toNat)]
    let sorted := sortOn (·.off) (l.filter (·.size ≠ 0))
    firstFail (perSect ++ [(laidOut sigAt (128 + 24 * n) sorted, { check := 2, entry := 128 + 24 * n, value := sigAt })] ++
      mandatory.map fun t => (l.any (·.type == t), { check := 2, type := t, entry := 128 }))

/-! ### The image (R138, R141 to R149) -/

/-- The entries of a section, cut by its entry size. -/
def sectEntries (b : List Byte) (type esize : Nat) : List (List Byte) :=
  match (sects b).find? (·.type == type) with
  | none => []
  | some x => (Crypto.chunks esize (sectBytes b x)).take x.count

/-- An image from its bytes. -/
def parseImage (b : List Byte) : Image :=
  let wheel (t : Nat) : List WheelEntry :=
    (sectEntries b t 16).map fun e => ⟨le e 0 4, le e 4 4, le e 8 4, le e 12 1⟩
  { id := le b 12 4, pred := le b 16 4, hyper := le b 20 4, baseSec := le b 24 8, baseNs := le b 32 4
    overlap := le b 36 4, domain := le b 40 1, flags := le b 41 1, signer := le b 42 1
    macsecNs := le b 48 4, cipherNs := le b 52 4, size := le b 8 4
    wheel0 := wheel 1, wheel1 := wheel 2
    gates := match (sects b).find? (·.type == 3) with
      | none => []
      | some x => (gateWalk x.count (sectBytes b x)).1
    slots := (sectEntries b 4 16).map fun e => ⟨le e 0 1, le e 1 1, le e 2 2, le e 4 4, le e 8 4⟩
    jobs := (sectEntries b 5 16).map fun e => ⟨le e 0 1, le e 2 2, le e 4 4, le e 8 4⟩
    windows := (sectEntries b 6 16).map fun e => ⟨le e 0 2, le e 4 4, le e 8 4⟩
    reserve := (sectEntries b 7 4).map fun e => (le e 0 2, le e 2 2)
    weights := (sectEntries b 8 8).map fun e => ⟨le e 0 1, le e 1 1, le e 4 4⟩
    guarantees := (sectEntries b 9 64).map fun e =>
      { handle := le e 0 2, flags := le e 2 2, source := le e 4 1, queue := le e 5 1, origin := le e 6 2
        mac := le e 8 6, vid := le e 14 2 % 4096, egress := le e 16 8, egressX := le e 24 1 % 16
        lMax := le e 26 2, interval := le e 28 4, burst := le e 32 2, phase := le e 36 4, width := le e 40 4
        bound := le e 44 4, warn := le e 48 4 }
    bytes := b.take (le b 8 4) }

/-! ### Admission, check by check (R153) -/

/-- A list with the index of each item. -/
def items {α : Type} (l : List α) (f : Nat → α → List Cond) : List Cond := l.zipIdx.flatMap fun (x, i) => f i x

/-- Check 2 on one wheel. -/
def wheelLimits (hyper type : Nat) (w : List WheelEntry) : List Cond :=
  items w fun i e =>
    let f (v : Nat) : CalFail := { check := 2, type := type, entry := i, value := v }
    [(e.off < hyper, f e.off), (e.count == 1 || 1 ≤ e.stride, f e.stride), (1 ≤ e.count, f e.count),
     (e.owner ≤ 67 || (0x80 ≤ e.owner && e.owner ≤ 0x83), f e.owner)]

/-- Check 2 on the sections other than the wheels and the guarantees. -/
def sectionLimits (i : Image) : List Cond :=
  let fail (t n v : Nat) (port : Nat := 0xFF) : CalFail := { check := 2, type := t, entry := n, value := v, port := port }
  items i.gates (fun n l =>
    ([(l.port ≤ 63, fail 3 n l.port l.port), (l.rate ≤ 6, fail 3 n l.rate l.port),
     (1 ≤ l.entries.length && l.entries.length ≤ 1024, fail 3 n l.entries.length l.port)] : List Cond) ++
    l.entries.flatMap fun e =>
      ([(16 ≤ e.interval, fail 3 n e.interval l.port), (e.op ≤ 2, fail 3 n e.op l.port)] : List Cond)) ++
  items i.slots (fun n e =>
    let top := if e.kind = 1 then 4095 else if e.ch < 64 then 23 else 63
    [(e.ch ≤ 95, fail 4 n e.ch), (e.kind ≤ 1, fail 4 n e.kind), (e.index ≤ top, fail 4 n e.index),
     (e.off < i.hyper, fail 4 n e.off), (1000 ≤ e.window, fail 4 n e.window)]) ++
  items i.jobs (fun n e =>
    [(e.seq ≤ 3, fail 5 n e.seq), (1024 * e.seq ≤ e.job && e.job ≤ 1024 * e.seq + 1023, fail 5 n e.job),
     (e.off < i.hyper, fail 5 n e.off)]) ++
  items i.windows (fun n e =>
    [(e.ch ≤ 511, fail 6 n e.ch), (e.opens < i.hyper, fail 6 n e.opens),
     (e.opens < e.closes && e.closes < i.hyper, fail 6 n e.closes)]) ++
  items i.reserve (fun n e =>
    [(e.1 ≤ 4095, { fail 7 n e.1 with handle := e.1 }),
     (1 ≤ e.2 && e.2 ≤ 36864, { fail 7 n e.2 with handle := e.1 })]) ++
  items i.weights (fun n e =>
    [(e.port ≤ 64, fail 8 n e.port e.port), (e.queue ≤ (if e.port = 64 then 31 else 7), fail 8 n e.queue e.port),
     (64 ≤ e.quantum && e.quantum ≤ 16777216, fail 8 n e.quantum e.port)])

/-- Whether a source is an injection port. -/
def isX (src : Nat) : Bool := src == 65 || src == 66

/-- The injection port that feeds an ORIGIN (R21). -/
def originPort (o : Nat) : Nat := if o ≤ 255 ∨ o = 0x400 ∨ o = 0x401 then 65 else 66

/-- Whether two guarantee entries share their source and its stream key. -/
def sameStream (a b : Guarantee) : Bool :=
  a.source == b.source && (if isX a.source then a.origin == b.origin else a.mac == b.mac && a.vid == b.vid)

/-- Check 2 on the guarantees. -/
def guaranteeLimits (i : Image) : List Cond :=
  items i.guarantees fun n g =>
    let f (v : Nat) : CalFail := { check := 2, type := 9, handle := g.handle, entry := n, value := v }
    [(g.handle ≤ 4095 && (i.guarantees.take n).all (·.handle ≠ g.handle), f g.handle),
     (g.source ≤ 67, f g.source), (g.queue ≤ 7, f g.queue),
     (if isX g.source then g.origin ≤ 511 || (0x400 ≤ g.origin && g.origin ≤ 0x403) else g.origin == 0, f g.origin),
     (64 ≤ g.lMax && g.lMax ≤ 9216, f g.lMax), (1 ≤ g.burst && g.burst ≤ 1024, f g.burst),
     (g.warn ≤ g.bound, f g.warn),
     (!isX g.source || g.source == originPort g.origin, f g.source),
     ((i.guarantees.take n).all (fun h => !sameStream h g), f n)]

/-- Check 2: limits. For the limp image LIMP is required set, PAIR is ignored, DOMAIN need
not be enabled and the hypercycle is at most 10 ms. -/
def limitChecks (s : State) (i : Image) (limp : Bool) : List Cond :=
  let f (off v : Nat) : CalFail := { check := 2, entry := off, value := v }
  ([(1000 ≤ i.hyper && i.hyper ≤ (if limp then 10000000 else 1000000000), f 20 i.hyper),
   (i.baseSec < 2 ^ 48, f 24 i.baseSec), (i.baseNs < 10 ^ 9, f 32 i.baseNs), (i.overlap ≤ 10 ^ 9, f 36 i.overlap),
   (i.domain ≤ 3, f 40 i.domain), (i.signer ≤ 3, f 42 i.signer), (i.id ≠ 0, f 12 i.id),
   (bit i.flags 0 == limp, f 41 i.flags),
   (limp || bit i.flags 1 == (s.pair.role != .single), f 41 i.flags),
   (limp || (s.domain i.domain).state != .disabled, f 40 i.domain)] : List Cond) ++
  wheelLimits i.hyper 1 i.wheel0 ++ wheelLimits i.hyper 2 i.wheel1 ++ sectionLimits i ++ guaranteeLimits i

/-- Check 3: periodicity. -/
def periodChecks (i : Image) : List Cond :=
  let divides (n : Nat) : Bool := 0 < n && i.hyper % n == 0
  items i.guarantees (fun n g =>
    [(divides g.interval, { check := 3, type := 9, handle := g.handle, entry := n, value := g.interval })]) ++
  items i.gates (fun n l => [(divides l.cycle, { check := 3, type := 3, entry := n, value := l.cycle, port := l.port })]) ++
  items i.guarantees fun n g =>
    [(g.phase + g.width ≤ g.interval,
      { check := 3, type := 9, handle := g.handle, entry := n, value := g.phase + g.width })]

/-- The slots of a wheel entry. -/
def slotsOf (e : WheelEntry) : List Nat := (List.range e.count).map fun k => e.off + k * (if e.count = 1 then 0 else e.stride)

/-- Whether an owner feeds a pipeline (R21, R141). -/
def feeds (pipe owner : Nat) : Bool := 0x80 ≤ owner || State.pipeOf owner == pipe

/-- Check 4 on one wheel. -/
def wheelChecks (i : Image) (pipe : Nat) (w : List WheelEntry) : List Cond :=
  let f (n v : Nat) : CalFail := { check := 4, type := pipe + 1, entry := n, value := v }
  let last (e : WheelEntry) : Nat := e.off + (e.count - 1) * (if e.count = 1 then 0 else e.stride)
  let all := sortOn (·.1) (w.zipIdx.flatMap fun (e, n) => (slotsOf e).map fun t => (t, n))
  let wrapped := all ++ all.map fun x => (x.1 + i.hyper, x.2)
  items w (fun n e => [(last e < i.hyper, f n (last e))]) ++
  items w (fun n e => [(feeds pipe e.owner, { f n e.owner with port := if e.owner ≤ 67 then e.owner else 0xFF })]) ++
  ((all.zip all.tail).map fun (a, b) => ((a.1 != b.1, f b.2 b.1) : Cond)) ++
  ((all.zip (wrapped.drop 990)).map fun (a, b) => ((decide (a.1 + 1000 ≤ b.1), f b.2 991) : Cond))

/-- Check 5: gates. -/
def gateChecks (i : Image) : List Cond :=
  items i.gates (fun n l =>
    [((i.gates.take n).all (·.port ≠ l.port), { check := 5, type := 3, entry := n, value := l.port, port := l.port })]) ++
  items i.gates fun n l =>
    let sum := (l.entries.map (·.interval)).sum
    [(sum == l.cycle, { check := 5, type := 3, entry := n, value := sum, port := l.port })]

/-- The spans in which a list opens a queue, from the start of its cycle. -/
def openSpans (q : Nat) : Nat → List GateEntry → List (Nat × Nat)
  | _, [] => []
  | t, e :: r => (if bit e.gates q then [(t, t + e.interval)] else []) ++ openSpans q (t + e.interval) r

/-- Whether a list opens a queue at some point of every window of an interval. -/
def coversAll (hyper : Nat) (l : GateList) (q interval : Nat) : Bool :=
  let spans := openSpans q 0 l.entries
  (List.range (hyper / max 1 interval)).all fun k =>
    (List.range (hyper / max 1 l.cycle)).any fun r =>
      spans.any fun (a, b) => decide (a + r * l.cycle < (k + 1) * interval ∧ k * interval < b + r * l.cycle)

/-- The list of an image for a port. -/
def listOf (i : Image) (p : Nat) : Option GateList := i.gates.find? (·.port == p)

/-- The fabric ports of an entry's EGRESS. -/
def egressPorts (g : Guarantee) : List Nat := (List.range 64).filter fun p => bit g.egress p

/-- Whether a wheel owner stands for a source: the source, or its group (R153 check 6). -/
def ownsFor (owner src : Nat) : Bool :=
  owner == src || (owner == 0x80 && src < 8) || (owner == 0x81 && 8 ≤ src && src < 24) ||
    (owner == 0x82 && 24 ≤ src && src < 48) || (owner == 0x83 && 48 ≤ src && src < 64)

/-- Check 6: coverage. -/
def coverageChecks (i : Image) : List Cond :=
  items i.guarantees (fun n g =>
    let p := State.pipeOf g.source
    [((if p = 0 then i.wheel0 else i.wheel1).any (fun e => ownsFor e.owner g.source),
      { check := 6, type := p + 1, handle := g.handle, entry := n, value := g.source, port := g.source })]) ++
  items i.guarantees (fun n g => (egressPorts g).map fun p =>
    ((listOf i p).any fun l => coversAll i.hyper l g.queue g.interval,
      { check := 6, type := 3, handle := g.handle, entry := n, value := g.queue, port := p })) ++
  items i.guarantees (fun n g =>
    let k := (i.reserve.filter (·.1 == g.handle)).length
    [(k == 1, { check := 6, type := 7, handle := g.handle, entry := n, value := k })]) ++
  items i.reserve (fun n r =>
    [(i.guarantees.any (·.handle == r.1), { check := 6, type := 7, handle := r.1, entry := n, value := r.1 })]) ++
  items i.guarantees fun n g =>
    [(!isX g.source || (if g.origin ≤ 511 then i.windows.any (·.ch == g.origin)
       else i.jobs.any fun j => j.seq + 0x400 == g.origin),
      { check := 6, type := 9, handle := g.handle, entry := n, value := g.origin })]

/-- Bits of an entry in a hypercycle, with `extra` bytes for each frame. -/
def entryBits (i : Image) (g : Guarantee) (extra : Nat) : Nat :=
  (g.lMax + extra) * 8 * g.burst * (i.hyper / max 1 g.interval)

/-- Open time of a queue in a hypercycle, in ns. -/
def openTime (i : Image) (l : GateList) (q : Nat) : Nat :=
  ((openSpans q 0 l.entries).map fun x => x.2 - x.1).sum * (i.hyper / max 1 l.cycle)

/-- Check 7: rate. -/
def rateChecks (i : Image) : List Cond :=
  (List.range 64).flatMap (fun p => (List.range 8).filterMap fun q =>
    let using_ := i.guarantees.filter fun g => bit g.egress p && g.queue == q
    match listOf i p with
    | none => none
    | some l =>
      let need := (using_.map fun g => entryBits i g 52).sum
      if using_.isEmpty then none
      else some (decide (10 ^ 6 * need ≤ openTime i l q * State.rateKbps l.rate),
        { check := 7, type := 3, entry := (i.gates.findIdx? (·.port == p)).getD 0, value := need, port := p })) ++
  [65, 66].map fun x =>
    let need := ((i.guarantees.filter (·.source == x)).map fun g => entryBits i g 0).sum
    (decide (need ≤ 2 * i.hyper), { check := 7, type := 9, value := need, port := x })

/-- Check 8: reservation. -/
def reservationChecks (i : Image) : List Cond :=
  items i.reserve (fun n r =>
    let want := (((i.guarantees.find? (·.handle == r.1)).map fun g => State.cellsOf g.lMax * g.burst)).getD 0
    [(want ≤ r.2, { check := 8, type := 7, handle := r.1, entry := n, value := want })]) ++
  ([((i.reserve.map (·.2)).sum ≤ 98304, { check := 8, type := 7, value := (i.reserve.map (·.2)).sum }),
   ((i.guarantees.map (·.burst)).sum ≤ 16384,
    { check := 8, type := 9, value := (i.guarantees.map (·.burst)).sum })] : List Cond)

/-- Check 9 on one kind of window: owner, start, end. -/
def spanChecks (i : Image) (type : Nat) (l : List (Nat × Nat × Nat)) : List Cond :=
  items l (fun n (x : Nat × Nat × Nat) =>
    [((l.take n).all (fun y => y.1 ≠ x.1 || decide (y.2.2 ≤ x.2.1 ∨ x.2.2 ≤ y.2.1)),
      { check := 9, type := type, entry := n, value := x.2.1 })]) ++
  items l fun n (x : Nat × Nat × Nat) =>
    [(decide (x.2.2 ≤ i.hyper), { check := 9, type := type, entry := n, value := x.2.2 })]

/-- Check 9: edge timing. -/
def edgeChecks (i : Image) : List Cond :=
  spanChecks i 4 (i.slots.map fun e => (e.ch, e.off, e.off + e.window)) ++
  spanChecks i 5 (i.jobs.map fun e => (e.seq, e.off, e.off + e.deadline)) ++
  spanChecks i 6 (i.windows.map fun e => (e.ch, e.opens, e.closes))

/-- Nominal rate of a source's group in kb/s, for the header accumulation of R593. -/
def groupRate (src : Nat) : Nat :=
  if src < 8 then 25000000 else if src < 24 then 10000000 else if src < 48 then 1000000 else if src < 64 then 10000
  else 100000000

/-- The path sum of R593 for one egress. -/
def pathSum (src egress : Nat) : Nat :=
  (if src ≤ 64 then 150 + State.bytesNs (groupRate src) 512 else 0) + (if src < 64 then 100 else 0) +
    250 + 150 + 100 + (if egress < 64 then 100 else 0) + (if egress ≤ 64 then 150 else 0)

/-- The egresses of an entry in SOURCE coding. -/
def allEgresses (g : Guarantee) : List Nat :=
  egressPorts g ++ [67, 64, 65, 66].filter fun p => State.egressOf g p

/-- The authentication profiles that the channels and templates of an image name (R407). -/
def imageProfiles (s : State) (i : Image) : List Nat :=
  let chans := i.windows.map (·.ch) ++ (i.guarantees.filter fun g => isX g.source && g.origin ≤ 511).map (·.origin)
  let tpls := (i.slots.filter (·.kind == 1)).map (·.index) ++ i.jobs.flatMap fun j =>
    let r := agetD s.sig.jobs j.job (0, 0)
    (List.range r.2).map (r.1 + ·)
  (chans.map (fun c => (agetD s.tun.ch c {}).profile) ++
    tpls.filterMap fun t => (aget s.sig.tpls t).map (·.profile)).filter (· < 64)

/-- The largest number of blocks of a profile (R409, R411). -/
def profileBlocks (s : State) (p : Nat) : Nat :=
  ceilDiv (2 + State.inRange (s.rfld (Reg.secEaProfLen p) 0 12) 1 2048 +
    ceilDiv (s.rfld (Reg.secEaProfCfg p) 9 7) 8) 16

/-- The cipher verdict bound of an image (R407); 0 where it names no profile. -/
def cipherBound (s : State) (i : Image) : Nat :=
  match ((imageProfiles s i).map (profileBlocks s)).max? with
  | none => 0
  | some n => 400 + 176 * n

/-- Check 10: bounds. -/
def boundChecks (s : State) (i : Image) : List Cond :=
  items i.guarantees (fun n g => (allEgresses g).map fun p =>
    (decide (pathSum g.source p ≤ g.bound),
      { check := 10, type := 9, handle := g.handle, entry := n, value := pathSum g.source p, port := p })) ++
  ([(100 ≤ i.macsecNs, { check := 10, entry := 48, value := 100 }),
   (cipherBound s i ≤ i.cipherNs, { check := 10, entry := 52, value := cipherBound s i })] : List Cond)

/-- Check 1: both signatures of R150 verify under the image's signer slot. -/
def signatureOk (s : State) (i : Image) : Bool :=
  match aget s.boot.signers i.signer with
  | none => false
  | some (ec, ml) =>
    let signed := i.bytes.take (i.size - sigBytes)
    let block := i.bytes.drop (i.size - sigBytes)
    ecdsaOk ec signed block && mldsaOk ml signed block

/-- The checks of admission in order; the limp image meets the variant of R172. -/
def admitChecks (s : State) (i : Image) (limp : Bool) : Option CalFail :=
  firstFail ([(signatureOk s i, { check := 1, entry := 42, value := i.signer })] ++ limitChecks s i limp) |>.or <|
  (firstFail (periodChecks i)).or <|
  (firstFail (wheelChecks i 0 i.wheel0 ++ wheelChecks i 1 i.wheel1)).or <|
  (firstFail (gateChecks i ++ coverageChecks i)).or <|
  (firstFail (rateChecks i ++ reservationChecks i)).or <|
  firstFail (edgeChecks i ++ boundChecks s i)

/-- The limp calendar that flash bytes hold, when it is valid (R172). -/
def limpImage (s : State) (b : List Byte) : Option Image :=
  match loadChecks b (le b 8 4) with
  | some _ => none
  | none =>
    let i := parseImage b
    match admitChecks s i true with
    | some _ => none
    | none => some i

end Sys2Proof.Machine
end

