-- ==== Sys2Proof/Machine/Forwarding.lean ====
section
/-! DEFINITION.
Rows of the forwarding tables: the forwarding commands (R207 to R209, R214, R215), the learn
engine (R198 to R201), relocation (R191), ageing and timeouts (R196, R202). -/

namespace Sys2Proof.Machine

namespace State

/-- A command needs domains: quenched, it completes with `DOMAIN_QUENCHED` (R524). -/
def Exec.need (s : State) (doms : List Nat) (rest : Exec) : Exec :=
  Exec.check (!doms.any s.quenched) s St.domainQuenched rest

/-- A command needs the datapath island, which is held in reset below RUN (R15). -/
def Exec.datapath (s : State) (rest : Exec) : Exec := Exec.check s.datapathUp s St.powerState rest

/-! ### Transactions -/

/-- `FWD_TXN_BEGIN` -/
def fwdTxnBegin (c : Cmd) (s : State) : Exec :=
  if s.fwd.txn.isSome ∧ !bit (c.u 0 1) 0 then Exec.fail s 0x0302
  else
    let n := s.fwd.txnNext
    .done (s.setFwd { s.fwd with txn := some n, txnNext := (n + 1) % 2 ^ 32, staged := [] }) St.ok n []

/-- Stage an operation whose fields have a status. -/
def stage (s : State) (bad : Nat) (op : TxnOp) : Exec :=
  Exec.check s.fwd.txn.isSome s 0x0301 <|
  Exec.check (s.fwd.staged.length < 4096) s 0x0303 <|
  Exec.check (bad == St.ok) s bad <|
  .done (s.setFwd { s.fwd with staged := s.fwd.staged ++ [op] }) St.ok s.fwd.staged.length []

/-- Whether the fields of a result lie in their ranges (R188). -/
def resultValid (r : List Byte) : Bool :=
  le r 0 1 ≤ 4 && le r 1 1 ≤ 67 && le r 2 2 ≤ 8191 && le r 4 1 ≤ 31

/-- Whether a staged key and its data are right. -/
def emFields (key data : List Byte) : Nat :=
  if !keyValid key then 0x030A
  else if isConn key then
    if le data 0 1 = 5 ∧ le data 4 4 = 0 ∧ le data 8 4 = 0 then St.ok else 0x030A
  else if resultValid data then St.ok else St.badParam

/-- `FWD_ENTRY_ADD` -/
def fwdEntryAdd (c : Cmd) (s : State) : Exec :=
  let t := c.u 0 1
  let i := c.u 4 4
  let key := c.bytes 8 40
  let data := c.bytes 48 16
  let bad := match t with
    | 0 => if i ≠ 0 then St.badParam else emFields key data
    | 1 => if 4095 < i ∨ leNat key ≠ 0 ∨ 31 < le data 13 1 then St.badParam else St.ok
    | 2 => if 8191 < i ∨ leNat key ≠ 0 ∨ 31 < le data 9 1 then St.badParam else St.ok
    | 3 => if 67 < i ∨ leNat key ≠ 0 then St.badParam else St.ok
    | _ => St.badParam
  s.stage bad (.add t (bit (c.u 1 1) 0) i key data)

/-- Whether a prefix is well formed: its family, its length and no bit beyond it (R214). -/
def prefixValid (family len : Nat) (addr : List Byte) : Bool :=
  let w := if family = 6 then 128 else 32
  (family == 4 || family == 6) && len ≤ w && (beNat (addr.take (w / 8)) % 2 ^ (w - len) == 0)

/-- The address of a prefix as a number. -/
def prefixAddr (family : Nat) (addr : List Byte) : Nat := beNat (addr.take (if family = 6 then 16 else 4))

/-- `FWD_ENTRY_DEL` -/
def fwdEntryDel (c : Cmd) (s : State) : Exec :=
  let key := c.bytes 8 40
  match c.u 0 1 with
  | 0 => s.stage (if keyValid key then St.ok else 0x030A) (.del 0 0 key)
  | 2 => s.stage (if 8191 < c.u 4 4 then St.badParam else St.ok) (.del 2 (c.u 4 4) key)
  | 4 =>
    let addr := c.bytes 12 16
    s.stage (if prefixValid (c.u 9 1) (c.u 10 1) addr then St.ok else St.badParam)
      (.lpmDel (c.u 8 1) (c.u 9 1) (c.u 10 1) (prefixAddr (c.u 9 1) addr))
  | _ => s.stage St.badParam (.del 0 0 key)

/-- `FWD_LPM_ADD` -/
def fwdLpmAdd (c : Cmd) (s : State) : Exec :=
  let addr := c.bytes 8 16
  let r := c.bytes 24 16
  s.stage (if prefixValid (c.u 1 1) (c.u 2 1) addr && resultValid r then St.ok else St.badParam)
    (.lpmAdd (bit (c.u 3 1) 0) (c.u 0 1) (c.u 1 1) (c.u 2 1) (prefixAddr (c.u 1 1) addr) r)

/-- `FWD_TXN_COMMIT`: all the staged operations at one epoch advance, or none (R206, R208). -/
def fwdTxnCommit (c : Cmd) (s : State) : Exec :=
  match s.fwd.txn with
  | none => Exec.fail s 0x0301
  | some id =>
    Exec.check (id == c.u 0 4) s 0x0304 <|
    Exec.datapath s <|
    Exec.need s [Dom.pipe0, Dom.pipe1] <|
    Exec.check (!s.epochLimit) s 0x0308 <|
    match s.advanceEpoch.applyOps 0 s.fwd.staged with
    | .inl (st, i) => .done s st i []
    | .inr t =>
      let n := s.fwd.staged.length
      .done (t.setFwd { t.fwd with txn := none, staged := [] }) St.ok (t.epoch + 65536 * n) []

/-- `FWD_EPOCH_DRAIN` (R209) -/
def fwdEpochDrain (c : Cmd) (s : State) : Exec :=
  Exec.check (epochAge s.epoch (c.u 0 2) ≤ 3 && 1 ≤ c.u 4 4 && c.u 4 4 ≤ 10000) s St.badParam <|
  if s.boundBefore (c.u 0 2) = 0 then .done s St.ok 0 [] else .run s (s.clk + 1000000 * c.u 4 4)

/-- `EPOCH_DRAIN_COMPLETE` -/
def doEpochDrainComplete (s : State) (host queue : Nat) : State :=
  match s.runningCmd host queue 0x0304 with
  | none => s
  | some c => if s.boundBefore (c.u 0 2) = 0 then s.finishCmd c.index St.ok 0 [] else s

/-- `EPOCH_DRAIN_TIMEOUT` -/
def doEpochDrainTimeout (s : State) (host queue : Nat) : State :=
  match s.runningCmd host queue 0x0304 with
  | none => s
  | some c =>
    let s := s.waitUntil c.deadline
    let n := s.boundBefore (c.u 0 2)
    if n = 0 then s.finishCmd c.index St.ok 0 [] else s.finishCmd c.index 0x0309 n []

/-- `EPOCH_STORAGE_RECLAIM` (R205) -/
def doEpochStorageReclaim (s : State) : State := if s.datapathUp then s.reclaim else s

/-! ### Flushing, ageing and timeouts -/

/-- `FWD_FLUSH_PORT` -/
def fwdFlushPort (c : Cmd) (s : State) : Exec :=
  let p := c.u 0 1
  let fl := c.u 1 1
  Exec.check (p ≤ 67 || p == 0xFF) s St.badParam <|
  Exec.datapath s <|
  Exec.need s [Dom.pipe0, Dom.pipe1] <|
  let gone (x : EmEntry) : Bool := x.range.isNone &&
    (if isConn x.key then bit fl 1
     else (p == 0xFF || le x.data 1 1 == p) && (!bit fl 0 || le x.key 2 2 == c.u 2 2 % 4096))
  .done (s.emRemove gone) St.ok (s.fwd.em.filter gone).length []

/-- Put an ageing configuration in force. -/
def ageSet (s : State) (v : Nat × Nat × Nat × Nat) : State :=
  s.setFwd { s.fwd with ageTime := v.1, moveHold := v.2.1, connEst := v.2.2.1, connOpen := v.2.2.2, ageNext := none }

/-- `FWD_AGE_CONFIG`: it takes effect on the next ageing scan, or at once while no scan
comes. -/
def fwdAgeConfig (c : Cmd) (s : State) : Exec :=
  let v := (c.u 0 4, c.u 4 4, c.u 8 4, c.u 12 2)
  Exec.check ((v.1 == 0 || (10 ≤ v.1 && v.1 ≤ 1000000)) && v.2.1 ≤ 10000 && 1 ≤ v.2.2.1 && v.2.2.1 ≤ 86400 &&
    1 ≤ v.2.2.2 && v.2.2.2 ≤ 600) s St.badParam <|
  .done (if s.fwd.ageTime = 0 then s.ageSet v else s.setFwd { s.fwd with ageNext := some v }) St.ok 0 []

/-- Advance a counter `n` times. -/
def bumpTimes (s : State) (off n : Nat) : State := (List.range n).foldl (fun s _ => s.bump off) s

/-- A learned entry, as the ageing scan sees it. -/
def ages (x : EmEntry) : Bool := x.range.isNone && !isConn x.key

/-- `AGEING_SCAN` (R202) -/
def doAgeingScan (s : State) : State :=
  if !s.datapathUp then s
  else
    let s := if s.fwd.ageTime = 0 then s else s.waitUntil (s.fwd.scanAt + 250000000 * s.fwd.ageTime)
    let s := match s.fwd.ageNext with
      | none => s
      | some v => s.ageSet v
    let s := s.setFwd { s.fwd with scanAt := s.clk }
    if s.fwd.ageTime = 0 then s
    else
      let gone (x : EmEntry) : Bool := ages x && !x.hit && x.age == 3
      let n := (s.fwd.em.filter gone).length
      let s := s.emRemove gone
      let older (x : EmEntry) : EmEntry :=
        if !ages x then x
        else if x.hit then { x with hit := false, age := 0 }
        else { x with age := x.age + 1 }
      let s := s.emChange (fun _ => true) older
      s.bumpTimes Reg.fwdAgedCnt n

/-- `CONNECTION_TIMEOUT_SCAN` (R196) -/
def doConnectionTimeoutScan (s : State) : State :=
  if !s.datapathUp then s
  else
    let s := s.waitUntil (1000000000 * ceilDiv s.clk 1000000000)
    let gone (x : EmEntry) : Bool :=
      let idle := (s.clkMs + 2 ^ 32 - le x.data 4 4) % 2 ^ 32
      let st := le x.data 0 1
      x.range.isNone && isConn x.key &&
        (if st = 1 ∨ st = 3 then 1000 * s.fwd.connOpen ≤ idle
         else (st = 2 ∨ st = 4) && decide (1000 * s.fwd.connEst ≤ idle))
    let n := (s.fwd.em.filter gone).length
    (s.emRemove gone).bumpTimes Reg.fwdAgedCnt n

/-! ### The learn engine -/

/-- Valid entries in buckets. -/
def emUsed (s : State) : Nat :=
  (s.fwd.em.filter fun x => match x.place with
    | .bucket _ _ => true
    | .overflow _ => false).length

/-- Whether R200 refuses a further dynamic entry of a source. -/
def learnLimit (s : State) (src : Nat) : Bool :=
  let m := le (s.portAttr s.epoch src) 4 2
  0 < m && m ≤ (s.fwd.em.filter fun x => ages x && le x.data 1 1 == src).length

/-- A request refused by R200. -/
def learnRefuse (s : State) (src : Nat) : State :=
  let (s, t) := (s.bump Reg.fwdLearnDropCnt).raiseLimited (aget s.fwd.limitAt src) (10 ^ 9) 0x4002 src
  match t with
  | none => s
  | some t => s.setFwd { s.fwd with limitAt := aset s.fwd.limitAt src t }

/-- An insertion that finds no place. -/
def learnFull (s : State) : State :=
  let (s, t) := (s.bump Reg.fwdLearnDropCnt).raiseLimited s.fwd.fullAt (10 ^ 9) 0x4003 s.emUsed
  s.setFwd { s.fwd with fullAt := t }

/-- A request in conflict with an entry (R199, R201). -/
def learnConflict (s : State) (x : EmEntry) (src fid : Nat) (mac : List Byte) (fixed : Bool) : State :=
  let held := le x.data 1 1
  let s := s.bump Reg.fwdMoveConflictCnt
  let s := s.rset Reg.fwdLastConflictPorts (BitVec.ofNat 32 (held % 256 + 2 ^ 8 * (src % 256) + 2 ^ 16 * (fid % 4096)))
  let s := s.rset Reg.fwdLastConflictMac (BitVec.ofNat 32 (le mac 0 4))
  let s := s.rset (Reg.fwdLastConflictMac + 4) (BitVec.ofNat 32 (le mac 4 2))
  let (s, t) := s.raiseLimited x.conflictAt 100000000 0x4001 (held + 2 ^ 8 * src + 2 ^ 16 * b2n fixed)
  s.setFwd { s.fwd with em := s.fwd.em.map fun y => if y.place == x.place then { y with conflictAt := t } else y }

/-- Commit a learn or move request. -/
def learnCommit (s : State) (src fid : Nat) (mac : List Byte) : State :=
  let key := l2Key fid mac
  match s.emProbe s.epoch key with
  | none =>
    if s.learnLimit src then s.learnRefuse src
    else
      match s.emInsert key (fit 16 (leBytes 1 0 ++ leBytes 1 src)) none with
      | none => s.learnFull
      | some t => t.bump Reg.fwdLearnCnt
  | some x =>
    if le x.data 1 1 = src then s
    else if x.range.isSome || bit (le x.data 6 2) 0 || bit (le x.data 6 2) 2 then s.learnConflict x src fid mac true
    else if s.clk < x.learnTime + 1000000 * s.fwd.moveHold then s.learnConflict x src fid mac false
    else if s.learnLimit src then s.learnRefuse src
    else (s.emMod key fun y => { y with data := y.data.take 1 ++ leBytes 1 src ++ y.data.drop 2,
                                        learnTime := s.clk }).bump Reg.fwdMoveCnt

/-- Commit a connection-create request. -/
def connCommit (s : State) (key data : List Byte) : State :=
  match s.emProbe s.epoch key with
  | some _ => s
  | none =>
    if 65536 ≤ (s.fwd.em.filter fun x => isConn x.key).length then s.learnFull
    else match s.emInsert key data none with
    | none => s.learnFull
    | some t => t

/-- `LEARN_ENGINE_COMMIT`: the next request of the learn queue, one every 40 ns (R198). -/
def doLearnEngineCommit (s : State) : State :=
  if !s.datapathUp then s
  else match s.fwd.learnQ with
  | [] => s
  | q :: r =>
    let s := match s.fwd.learntAt with
      | none => s
      | some t => s.waitUntil (t + 40)
    let s := s.setFwd { s.fwd with learnQ := r, learntAt := some s.clk }
    match q with
    | .learn src fid mac => s.learnCommit src fid mac
    | .connect key data => s.connCommit key data

/-- `RELOCATION_INVALIDATE`: the old copies of moved entries are invalidated (R191), which may
free what overflow entries wait for (R190). -/
def doRelocationInvalidate (s : State) : State := s.invalidateOld.emFreed

end State

/-- `FWD_TXN_BEGIN` -/
def execFwdTxnBegin (host queue : Nat) (s : State) : Host.Outcome State Fault Refusal :=
  .next (s.runCmd host queue 0x0300 State.fwdTxnBegin)

/-- `FWD_ENTRY_ADD` -/
def execFwdEntryAdd (host queue : Nat) (s : State) : Host.Outcome State Fault Refusal :=
  .next (s.runCmd host queue 0x0301 State.fwdEntryAdd)

/-- `FWD_ENTRY_DEL` -/
def execFwdEntryDel (host queue : Nat) (s : State) : Host.Outcome State Fault Refusal :=
  .next (s.runCmd host queue 0x0302 State.fwdEntryDel)

/-- `FWD_TXN_COMMIT` -/
def execFwdTxnCommit (host queue : Nat) (s : State) : Host.Outcome State Fault Refusal :=
  .next (s.runCmd host queue 0x0303 State.fwdTxnCommit)

/-- `FWD_EPOCH_DRAIN` -/
def execFwdEpochDrain (host queue : Nat) (s : State) : Host.Outcome State Fault Refusal :=
  .next (s.runCmd host queue 0x0304 State.fwdEpochDrain)

/-- `EPOCH_DRAIN_COMPLETE` -/
def execEpochDrainComplete (host queue : Nat) (s : State) : Host.Outcome State Fault Refusal :=
  .next (s.doEpochDrainComplete host queue)

/-- `EPOCH_DRAIN_TIMEOUT` -/
def execEpochDrainTimeout (host queue : Nat) (s : State) : Host.Outcome State Fault Refusal :=
  .next (s.doEpochDrainTimeout host queue)

/-- `EPOCH_STORAGE_RECLAIM` -/
def execEpochStorageReclaim (s : State) : Host.Outcome State Fault Refusal := .next s.doEpochStorageReclaim

/-- `FWD_LPM_ADD` -/
def execFwdLpmAdd (host queue : Nat) (s : State) : Host.Outcome State Fault Refusal :=
  .next (s.runCmd host queue 0x0305 State.fwdLpmAdd)

/-- `FWD_FLUSH_PORT` -/
def execFwdFlushPort (host queue : Nat) (s : State) : Host.Outcome State Fault Refusal :=
  .next (s.runCmd host queue 0x0306 State.fwdFlushPort)

/-- `FWD_AGE_CONFIG` -/
def execFwdAgeConfig (host queue : Nat) (s : State) : Host.Outcome State Fault Refusal :=
  .next (s.runCmd host queue 0x0307 State.fwdAgeConfig)

/-- `LEARN_ENGINE_COMMIT` -/
def execLearnEngineCommit (s : State) : Host.Outcome State Fault Refusal := .next s.doLearnEngineCommit

/-- `RELOCATION_INVALIDATE` -/
def execRelocationInvalidate (s : State) : Host.Outcome State Fault Refusal := .next s.doRelocationInvalidate

/-- `AGEING_SCAN` -/
def execAgeingScan (s : State) : Host.Outcome State Fault Refusal := .next s.doAgeingScan

/-- `CONNECTION_TIMEOUT_SCAN` -/
def execConnectionTimeoutScan (s : State) : Host.Outcome State Fault Refusal := .next s.doConnectionTimeoutScan

end Sys2Proof.Machine
end

