-- ==== Sys2Proof/Machine/Cipher.lean ====
section
/-! DEFINITION.
The cipher pool (R402 to R408): its queue, the keys it may use (R427), and edge
authentication (R409 to R413). -/

namespace Sys2Proof.Machine

namespace State

/-! ### Keys (R424 to R427) -/

def keySlot (s : State) (n : Nat) : KeySlot := agetD s.key.slots n {}

/-- The key of a slot, when it is LOADED and its attributes hold what a use needs. -/
def keyFor (s : State) (n usage dest : Nat) : Option (List Byte) :=
  let k := s.keySlot n
  if k.state == .loaded && k.usage &&& usage == usage && k.dest &&& dest == dest then some k.key else none

/-! ### Edge authentication profiles (R409, R410) -/

/-- A profile as its registers hold it (log entry 12). A profile without freshness carries and
authenticates no freshness bytes. -/
structure EaProf where
  enable : Bool
  kind : Nat
  domain : Nat
  macBytes : Nat
  fvBits : Nat
  fvTx : Nat
  dataId : Nat
  entry : Nat
  window : Nat
  maxLen : Nat
  deriving DecidableEq, Repr

def eaProf (s : State) (p : Nat) : EaProf :=
  let c (lo n : Nat) : Nat := s.rfld (Reg.secEaProfCfg p) lo n
  let kind := inRange (c 0 2) 0 2
  let fv := if kind = 0 then 0 else inRange (c 9 7) 0 64
  { enable := c 31 1 == 1, kind := kind, domain := c 2 2, macBytes := inRange (c 4 5) 3 16, fvBits := fv,
    fvTx := inRange (c 16 7) 0 fv, dataId := s.rfld (Reg.secEaProfId p) 0 16, entry := s.rfld (Reg.secEaProfId p) 16 10,
    window := (s.rget (Reg.secEaProfWindow p)).toNat, maxLen := inRange (s.rfld (Reg.secEaProfLen p) 0 12) 1 2048 }

/-- Bytes of the carried freshness value. -/
def EaProf.fvBytes (x : EaProf) : Nat := ceilDiv x.fvTx 8

/-- P of a payload, when it is 1 to MAX_LEN. -/
def EaProf.plain (x : EaProf) (msg : List Byte) : Option Nat :=
  let extra := x.fvBytes + x.macBytes
  if extra < msg.length ∧ msg.length ≤ x.maxLen + extra then some (msg.length - extra) else none

/-- The leading bytes of the CMAC over DATA_ID, the payload and the full freshness value
(R411). -/
def EaProf.mac (x : EaProf) (key payload : List Byte) (v : Nat) : List Byte :=
  (Crypto.cmac key (leBytes 2 x.dataId ++ payload ++ leBytes (ceilDiv x.fvBits 8) (v % 2 ^ x.fvBits))).take x.macBytes

/-! ### Freshness (R412) -/

/-- The last value of a freshness entry. -/
def fvLast (s : State) (e : Nat) : Nat := agetD s.sec.fv e 0

/-- Set the last value of a freshness entry. -/
def fvSet (s : State) (e v : Nat) : State :=
  s.setSec { s.sec with fv := if v = 0 then adel s.sec.fv e else aset s.sec.fv e v }

/-- The smallest value above `last` whose low `k` bits are `c`. -/
def fvAbove (last k c : Nat) : Nat :=
  let v := (last + 1) / 2 ^ k * 2 ^ k + c % 2 ^ k
  if last < v then v else v + 2 ^ k

/-- The value nearest to `t` whose low `k` bits are `c`. Of two at the same distance, which the
spec does not order, `tie` picks the upper one. -/
def fvNear (t k c : Nat) (tie : Bool) : Nat :=
  let up := if t % 2 ^ k ≤ c % 2 ^ k then t / 2 ^ k * 2 ^ k + c % 2 ^ k else t / 2 ^ k * 2 ^ k + c % 2 ^ k + 2 ^ k
  if up < t + 2 ^ k ∧ up < 2 ^ k then up
  else
    let down := up - 2 ^ k
    if up - t < t - down ∨ (up - t = t - down ∧ tie) then up else down

/-- The full freshness value of a verify request, when it is accepted. -/
def fvAccept (s : State) (x : EaProf) (carried : Nat) : Option Nat × State :=
  match x.kind with
  | 0 => (some 0, s)
  | 1 =>
    let last := s.fvLast x.entry
    let v := fvAbove last x.fvTx carried
    (if v - last ≤ x.window ∧ v < 2 ^ x.fvBits then some v else none, s)
  | _ =>
    let t := s.domNs x.domain / 1000
    let (r, s) := s.free
    let v := fvNear t x.fvTx carried (r % 2 == 1)
    (if (if v < t then t - v else v - t) ≤ x.window then some v else none, s)

/-! ### The queue (R402 to R406) -/

/-- Engines that serve only verdict requests. -/
def verdictEngines (s : State) : Nat := inRange (s.rfld Reg.secCpCfg 0 7) 32 127

/-- Requests queued, and requests in an engine. -/
def cpQueued (s : State) : Nat := (s.sec.queue.filter (·.fate.isNone)).length
def cpBusy (s : State) : Nat := (s.sec.queue.filter (·.fate.isSome)).length

/-- A verdict request enters and finds every verdict engine busy (R406). `depth`: requests
queued then. -/
def cpOverload (s : State) (depth : Nat) : State :=
  if s.cpBusy < s.verdictEngines then s
  else
    let s := s.bump Reg.secCpOverloadCnt
    let (s, t) := s.raiseLimited s.sec.overloadAt 100000000 0x9006 depth
    s.setSec { s.sec with overloadAt := t }

/-- Enter a verify request for a tunnel channel. While the security domain is quenched there is
no pool to take it, and it fails at once (R408). -/
def cipherEnter (s : State) (source profile slot : Nat) (msg : List Byte) : Option Nat × State :=
  if s.quenched Dom.security then (none, s)
  else
    let n := s.sec.ticket
    let r : CipherReq := { ticket := n, keySlot := slot, source := source, profile := profile, msg := msg, fate := none }
    let s := s.cpOverload (s.cpQueued + 1)
    (some n, s.setSec { s.sec with ticket := n + 1, queue := s.sec.queue ++ [r] })

/-- What a verify request comes to, as its key, profile and freshness entry stand at its
dispatch. -/
def cipherJudge (s : State) (r : CipherReq) : CipherEnd × State :=
  match s.keyFor r.keySlot 8 4 with
  | none => (.refused, s)
  | some key =>
    let x := s.eaProf r.profile
    match (x.plain r.msg).filter fun _ => x.enable with
    | none => (.unfit, s)
    | some p =>
      let (v, s) := s.fvAccept x (le r.msg p x.fvBytes)
      match v with
      | none => (.stale, s)
      | some v =>
        if x.mac key (r.msg.take p) v = r.msg.drop (p + x.fvBytes) then
          (.pass (if x.kind = 1 then some (x.entry, v) else none), s)
        else (.mismatch, s)

/-- `CIPHER_DISPATCH`: an engine takes the oldest request that waits (R404). -/
def doCipherDispatch (s : State) : State :=
  if !s.datapathUp || s.quenched Dom.security || 128 ≤ s.cpBusy then s
  else match s.sec.queue.find? (·.fate.isNone) with
  | none => s
  | some r =>
    let (e, s) := s.cipherJudge r
    s.setSec { s.sec with queue := s.sec.queue.map fun q => if q.ticket == r.ticket then { q with fate := some e } else q }

/-- The counts of a request that completes, and whether it has passed (R404, R412, R413). A
value that another source's request has overtaken since makes it fail. -/
def cipherEnds (s : State) (r : CipherReq) (e : CipherEnd) : Bool × State :=
  let s := s.bump Reg.secCpReqCnt
  match e with
  | .pass none => (true, s.bump Reg.secEaPassCnt)
  | .pass (some (entry, v)) =>
    if v ≤ s.fvLast entry then (false, s)
    else
      let s := (s.bump Reg.secEaPassCnt).fvSet entry v
      (true, if s.mirroring then s.emit (.mirror (.freshness entry v)) else s)
  | .unfit => (false, s)
  | .stale => (false, s.bump Reg.secEaFvFailCnt)
  | .mismatch =>
    let s := (s.bump Reg.secEaMacFailCnt).rset Reg.secEaLastFail (BitVec.ofNat 32 (r.profile + 2 ^ 16 * r.source))
    let (s, t) := s.raiseLimited (aget s.sec.authAt r.profile) 100000000 0x9005 r.profile
    (false, match t with
      | none => s
      | some t => s.setSec { s.sec with authAt := aset s.sec.authAt r.profile t })
  | .refused => (false, s.bump Reg.secCpKeyRefusedCnt)
  | .erased => (false, s)

/-! ### Generating (R410 to R413) -/

/-- A generate request of a sequencer: the freshness value and the tag are placed in the last
bytes of the payload. None: it fails, and there is no frame. -/
def cipherGenerate (s : State) (profile slot : Nat) (msg : List Byte) : Option (List Byte) × State :=
  if s.quenched Dom.security then (none, s)
  else
    let s := (s.cpOverload (s.cpQueued + 1)).bump Reg.secCpReqCnt
    match s.keyFor slot 4 4 with
    | none => (none, s.bump Reg.secCpKeyRefusedCnt)
    | some key =>
      let x := s.eaProf profile
      match (x.plain msg).filter fun _ => x.enable with
      | none => (none, s)
      | some p =>
        let out (v : Nat) : List Byte :=
          msg.take p ++ leBytes x.fvBytes (v % 2 ^ x.fvTx) ++ x.mac key (msg.take p) v
        match x.kind with
        | 0 => (some (out 0), s.bump Reg.secEaGenCnt)
        | 1 =>
          let v := s.fvLast x.entry + 1
          if 2 ^ x.fvBits ≤ v then (none, s.raise 0x9005 (profile + 2 ^ 16))
          else
            let s := (s.bump Reg.secEaGenCnt).fvSet x.entry v
            (some (out v), if s.mirroring then s.emit (.mirror (.freshness x.entry v)) else s)
        | _ => (some (out (s.domNs x.domain / 1000 % 2 ^ x.fvBits)), s.bump Reg.secEaGenCnt)

end State

/-- `CIPHER_DISPATCH` -/
def execCipherDispatch (s : State) : Host.Outcome State Fault Refusal := .next s.doCipherDispatch

end Sys2Proof.Machine
end

