-- ==== Sys2Proof/Machine/Buffers.lean ====
section
/-! DEFINITION.
Rows of the packet buffers: the overflow engine (R256 to R260), the partitions (R250), flow
control (R263 to R265), port down and drain hold (R266 to R269), and the slag audit (R272,
R273). -/

namespace Sys2Proof.Machine

namespace State

/-! ### Overflow memory -/

/-- The egress and the queue of a queue index. -/
def ofQueueIndex (i : Nat) : Nat × Nat := if i < 512 then (i / 8, i % 8) else (67, i - 512)

/-- On-chip cells of a queue that lie ahead of a copy. -/
def cellsAhead (s : State) (c : Copy) : Nat :=
  ((((s.queueOf c.port c.queue).takeWhile (· ≠ c)).filter (·.spill != .inDram)).map fun d => s.fcells d.fid).sum

/-- Whether a copy's frame may be spilled (R258). -/
def maySpill (s : State) (c : Copy) : Bool :=
  match s.frame? c.fid, queueIndex c.port c.queue with
  | some f, some i =>
    f.outcome == .committed && f.complete && f.handle.isNone && !c.onLane && !c.preempted &&
      (c.spill == .onChip || c.spill == .spillFirst) && (s.copiesOf c.fid).length == 1 &&
      s.rfld (Reg.bufQcfg i) 20 1 == 1 && 64 ≤ s.cellsAhead c && s.ovfUsed + f.cells ≤ s.ovfCapacity
  | _, _ => false

/-- The copy that the overflow engine takes next. -/
def spillPick (s : State) : Option Copy :=
  let may := s.fr.copies.filter s.maySpill
  match may.find? (·.spill == .spillFirst) with
  | some c => some c
  | none =>
    match (may.map fun c => s.qCells c.port c.queue).max? with
    | none => none
    | some m => (may.filter fun c => s.qCells c.port c.queue == m).getLast?

/-- `SPILL_FRAME`: the overflow engine writes one frame to DRAM. -/
def doSpillFrame (s : State) : State :=
  let s := s.spillUpdate
  if !s.datapathUp || !s.buf.spilling || s.quenched Dom.buffer || s.quenched Dom.memory then s
  else match s.spillPick with
  | none => s
  | some c =>
    let s := (s.cmod c.fid c.port fun c => { c with spill := .inDram }).bump Reg.bufSpillCnt
    let s := s.ovfFullCheck.spillUpdate
    match s.frame? c.fid with
    | none => s
    | some f => s.flowCheck f.src

/-- `DRAIN_BACK`: the read of the first spilled frame of a queue begins (R259). One that lacks shared
cells waits for them, ahead of every admission. The frames of a port that is down stay in DRAM
(R267). -/
def doDrainBack (s : State) (i : Nat) : State :=
  let (p, q) := ofQueueIndex i
  if !s.datapathUp || s.quenched Dom.buffer || s.quenched Dom.memory || s.portDown p then s
  else match (s.queueOf p q).find? (·.spill == .inDram) with
  | none => s
  | some c =>
    let due (l : List Nat) : State := s.setBuf { s.buf with drainDue := l }
    let others := s.buf.drainDue.filter (· ≠ c.fid)
    if 128 ≤ s.cellsAhead c then s
    else if s.sharedFree < s.fcells c.fid then (if s.buf.drainDue.contains c.fid then s else due (others ++ [c.fid]))
    else
      let s := ((due others).stallCheck p q).fmod c.fid fun f => { f with part := .shared }
      (s.cmod c.fid p fun c => { c with spill := .draining }).spillUpdate

/-- `DRAIN_READ_COMPLETE`: the read of a draining frame ends; an uncorrectable error discards
the frame (R259, R260). -/
def doDrainReadComplete (s : State) (i : Nat) (ok : Bool) : State :=
  let (p, q) := ofQueueIndex i
  match (s.queueOf p q).find? (·.spill == .draining) with
  | none => s
  | some c =>
    let s := s.stallCheck p q
    let s := if ok then s.cmod c.fid p fun c => { c with spill := if s.portDown p then .inDram else .onChip }
      else
        let s := ((s.discardCopy c).lose c.fid p 2).bump Reg.bufAdmitDropCnt
        (s.report Dom.memory 2).gc
    s.ovfFullCheck.spillUpdate.ovfApply

/-- `SCHED_PARTITION_APPLY`: a refused request takes effect (R250). -/
def doSchedPartitionApply (s : State) : State := s.schedApply.spillUpdate

/-- `OVF_REGION_APPLY`: a pending overflow region takes effect (R256). -/
def doOvfRegionApply (s : State) : State := s.ovfApply

/-! ### Flow control -/

/-- The pause interval of `n` quanta at a port, in ns. -/
def quantaNs (s : State) (p n : Nat) : Nat := bytesNs (s.portRate p) (n * 64)

/-- `XOFF_REPEAT`: an XOFF in force is sent again after half of its interval; `pri` is 8 for
802.3x (R264). -/
def doXoffRepeat (s : State) (p pri : Nat) : State :=
  if 48 ≤ p || s.portDown p || !(s.bport p).xoff.contains pri then s
  else
    let q := s.rfld (Reg.bufPortFc p) 16 16
    let s := s.waitUntil (agetD (s.bport p).xoffAt pri s.clk + s.quantaNs p q / 2)
    let s := s.flowOne p pri
    if (s.bport p).xoff.contains pri then
      (s.bportMod p fun b => { b with xoffAt := aset b.xoffAt pri s.clk }).sendPause p pri q
    else s

/-- Stop a queue, or let it go, for `n` quanta. A scheduled queue is never stopped. -/
def pauseQueue (s : State) (p n q : Nat) : State :=
  if s.isScheduled p q then s.bump Reg.bufPauseIgnoredCnt
  else if n = 0 then s.bportMod p fun b => { b with paused := adel b.paused q }
  else s.bportMod p fun b => { b with paused := aset b.paused q (s.clk + s.quantaNs p n) }

/-- `PAUSE_FRAME_RECEIVED` (R263, R265). -/
def doPauseFrameReceived (s : State) (p : Nat) (k : PauseKind) : State :=
  if 64 ≤ p || s.portDown p then s
  else
    let s := s.stat p Reg.statRxPause
    let mode := if p < 48 then s.rfld (Reg.bufPortFc p) 0 2 else 0
    match k with
    | .pause n => if mode = 1 then (List.range 8).foldl (fun s q => s.pauseQueue p (n % 65536) q) s else s
    | .pfc en qs =>
      if mode ≠ 2 then s
      else (List.range 8).foldl (fun s pri =>
        if bit en pri then
          let q := bits (s.tport p).pcpMap (3 * pri) 3
          s.pauseQueue p (qs.getD pri 0 % 65536) q
        else s) s

/-- `PAUSE_EXPIRY`: the pause of a queue ends. -/
def doPauseExpiry (s : State) (p q : Nat) : State :=
  match aget (s.bport p).paused q with
  | none => s
  | some t =>
    let s := s.waitUntil t
    s.bportMod p fun b => { b with paused := adel b.paused q }

/-! ### Port down and drain hold -/

/-- Discard the copies of a port's scheduled or other queues: the count discarded. -/
def holdDiscard (s : State) (p : Nat) (sched : Bool) : Nat × State :=
  let l := s.fr.copies.filter fun c => c.port == p && s.isScheduled p c.queue == sched
  (l.length, (l.foldl (fun s c => ((s.discardCopy c).bump Reg.bufHoldDiscardCnt).pathLost c.fid p) s).gc)

/-- A hold ends with the link still down (R268). -/
def holdEnd (s : State) (p : Nat) (sched : Bool) : State :=
  let s := s.bportMod p fun b => if sched then { b with schedHold := none } else { b with beHold := none }
  let (n, s) := s.holdDiscard p sched
  s.raise 0x5005 (p + 256 * n)

/-- A port stops: the copy on its lane is lost, and its queues hold (R266). -/
def portStop (s : State) (p : Nat) : State :=
  let s := (s.fr.copies.filter fun c => c.port == p && (c.onLane || c.preempted)).foldl (fun s c =>
    ((s.discardCopy c).bump Reg.bufLinkdownDropCnt).pathLost c.fid p) (s.cbsUpdate p)
  let hs := inRange (s.rfld (Reg.bufPortHold p) 0 4) 0 10
  let hb := inRange (s.rfld (Reg.bufPortHold p) 8 7) 0 100
  let s := s.bportMod p fun b => { b with schedHold := some (s.clk + 1000000 * hs), beHold := some (s.clk + 1000000 * hb) }
  let s := s.tportMod p fun x => { x with verify := 0, verifySent := 0, hold := false }
  let s := if hs = 0 then s.holdEnd p true else s
  let s := if hb = 0 then s.holdEnd p false else s
  s.gc

/-- A frame that was arriving when its source's link went away ends there (cause 3). -/
def cutArriving (s : State) (p : Nat) : State :=
  match s.fr.frames.find? fun f => f.src == p && !f.complete with
  | none => s
  | some f =>
    let s := s.fmod f.fid fun x =>
      { x with complete := true, lastAt := s.clk, writer := false,
               fin := { x.fin with fcs := .bad, pcsError := true } }
    ((s.storeEnd f.fid).spillUpdate.judge f.fid).gc

/-- `PORT_LINK_DOWN` -/
def doPortLinkDown (s : State) (p : Nat) : State :=
  if 64 ≤ p || !(s.bport p).linkUp then s
  else
    let quenched := s.portDown p
    let s := s.bportMod p fun b => { b with linkUp := false }
    let s := s.cutArriving p
    if quenched then s else s.portStop p

/-- The line rates of a port (R587). -/
def rateAllowed (p code : Nat) : Bool :=
  if p < 8 then code == 6 || code == 5 || code == 4 || code == 3
  else if p < 24 then code == 5 || code == 4 || code == 3 || code == 2
  else if p < 48 then code == 2 || code == 1
  else code == 0

/-- The queues of a port resume: every hold ends, and guaranteed frames past their deadline
are discarded as late (R269). -/
def portResume (s : State) (p : Nat) : State :=
  let s := s.bportMod p fun b => { b with schedHold := none, beHold := none }
  let late (c : Copy) : Bool := c.port == p &&
    ((s.frame? c.fid).any fun f => f.handle.isSome &&
      (match s.deadline c.fid p with
       | none => s.measured f.start
       | some d => decide (d.start + d.bound < s.clk)))
  ((s.fr.copies.filter late).foldl (fun s c =>
    ((s.discardCopy c).bump Reg.bufHoldDiscardCnt).pathLost c.fid p) s).gc

/-- `PORT_LINK_UP` -/
def doPortLinkUp (s : State) (p code : Nat) : State :=
  if 64 ≤ p || (s.bport p).linkUp || !rateAllowed p code || !s.datapathUp then s
  else
    let s := ((s.cbsUpdate p).bportMod p fun b => { b with linkUp := true, rate := code }).hostResync p
    if s.quenched (portUnit p) then s else (s.portResume p).verifyStart p

/-- `DRAIN_HOLD_END` -/
def doDrainHoldEnd (s : State) (p : Nat) (sched : Bool) : State :=
  match if sched then (s.bport p).schedHold else (s.bport p).beHold with
  | none => s
  | some t => (s.waitUntil t).holdEnd p sched

/-! ### The slag audit -/

/-- One slag cell or reference found (R273). -/
def slagFound (s : State) (arg : Nat) : State := (s.bump Reg.bufSlagCnt).raise 0x5001 arg

/-- The local ns at which the next audit pass starts: a pass is due at each multiple of the period
after the last start, and waits for the end of one that runs; those due meanwhile are one (R273). A
start that the command comes too late for is the last multiple before it. -/
def auditNext (s : State) : Nat :=
  let period := 1000000 * inRange (s.rfld Reg.bufAuditPeriodMs 0 14) 10 10000
  max (max ((s.buf.auditStart / period + 1) * period) s.buf.auditEnd) (s.clk / period * period)

/-- The audit pass runs to its end: within 1.6 ms, or within 40 ms where it covers the overflow
region too; how long it takes is a free value (log entry 1). Its generation is the other one. -/
def auditRun (s : State) (extended : Bool) : State :=
  let (v, s) := s.free
  let start := s.auditNext
  let s := s.waitUntil (start + v % (if extended then 40000001 else 1600001))
  s.setBuf { s.buf with auditStart := start, auditEnd := s.clk, gen := !s.buf.gen }

/-- A reference count that an audit found too high: at first it is noted, and the second time it is
set to the number of copies and writers (R272). -/
def refFound (s : State) (r : Nat) : State :=
  if s.buf.suspectRefs.contains r then (s.slagFound (2 ^ 31 + r % 2 ^ 31)).fmod r fun f => { f with refExtra := 0 }
  else s.fmod r fun f => { f with refExtra := max 1 f.refExtra }

/-- `SLAG_AUDIT_PASS`: a pass ends. It found these cells in use that no descriptor owns and that were
allocated in an earlier generation (bit 31 set for a DRAM cell), and these frames whose count is too
high. What two passes in a row have found is slag (R272, R273). -/
def doSlagAuditPass (s : State) (orphans badRefs : List Nat) : State :=
  if !s.datapathUp || s.quenched Dom.buffer then s
  else
    let extended := (s.buf.auditNo + 1) % 16 == 0
    let s := s.auditRun extended
    let dram (c : Nat) : Bool := bit c 31
    let cells := (s.buf.slag ++ orphans).dedup.filter fun c => extended || !dram c
    let found := cells.filter s.buf.suspectCells.contains
    let keep := s.buf.suspectCells.filter fun c => dram c && !extended
    let reclaim := s.rfld Reg.bufCtrl 1 1 == 1
    let s := badRefs.dedup.foldl refFound (found.foldl slagFound s)
    let s := s.setBuf { s.buf with
      suspectCells := keep ++ (if reclaim then cells.filter fun c => !found.contains c else cells)
      suspectRefs := badRefs.dedup.filter fun r => !s.buf.suspectRefs.contains r
      slag := if reclaim then s.buf.slag.filter (fun c => dram c && !extended) else (s.buf.slag ++ found).dedup
      auditNo := s.buf.auditNo + 1 }
    let s := (s.bump Reg.bufAuditPassCnt).ovfFullCheck.spillUpdate.gc
    if 64 < found.length then s.report Dom.buffer 8 else s

end State

/-- `SPILL_FRAME` -/
def execSpillFrame (s : State) : Host.Outcome State Fault Refusal := .next s.doSpillFrame

/-- `DRAIN_BACK` -/
def execDrainBack (queue : Nat) (s : State) : Host.Outcome State Fault Refusal := .next (s.doDrainBack queue)

/-- `DRAIN_READ_COMPLETE` -/
def execDrainReadComplete (queue : Nat) (ok : Bool) (s : State) : Host.Outcome State Fault Refusal :=
  .next (s.doDrainReadComplete queue ok)

/-- `SCHED_PARTITION_APPLY` -/
def execSchedPartitionApply (s : State) : Host.Outcome State Fault Refusal := .next s.doSchedPartitionApply

/-- `OVF_REGION_APPLY` -/
def execOvfRegionApply (s : State) : Host.Outcome State Fault Refusal := .next s.doOvfRegionApply

/-- `XOFF_REPEAT` -/
def execXoffRepeat (port pri : Nat) (s : State) : Host.Outcome State Fault Refusal := .next (s.doXoffRepeat port pri)

/-- `PAUSE_FRAME_RECEIVED` -/
def execPauseFrameReceived (port : Nat) (kind : PauseKind) (s : State) : Host.Outcome State Fault Refusal :=
  .next (s.doPauseFrameReceived port kind)

/-- `PAUSE_EXPIRY` -/
def execPauseExpiry (port queue : Nat) (s : State) : Host.Outcome State Fault Refusal :=
  .next (s.doPauseExpiry port queue)

/-- `PORT_LINK_DOWN` -/
def execPortLinkDown (port : Nat) (s : State) : Host.Outcome State Fault Refusal := .next (s.doPortLinkDown port)

/-- `PORT_LINK_UP` -/
def execPortLinkUp (port rateCode : Nat) (s : State) : Host.Outcome State Fault Refusal :=
  .next (s.doPortLinkUp port rateCode)

/-- `DRAIN_HOLD_END` -/
def execDrainHoldEnd (port : Nat) (scheduled : Bool) (s : State) : Host.Outcome State Fault Refusal :=
  .next (s.doDrainHoldEnd port scheduled)

/-- `SLAG_AUDIT_PASS` -/
def execSlagAuditPass (orphans badRefs : List Nat) (s : State) : Host.Outcome State Fault Refusal :=
  .next (s.doSlagAuditPass orphans badRefs)

end Sys2Proof.Machine
end

