-- ==== Sys2Proof/Machine/Traffic.lean ====
section
/-! DEFINITION.
Rows of the traffic chapter: the traffic commands (R302 to R304, R310, R311), lists written
by a host (R292, R293, R301) and the timers of sequence recovery (R307, R308). -/

namespace Sys2Proof.Machine

namespace State

/-- What a traffic command needs (R15, R524; log entry 15). -/
def Exec.traffic (s : State) (rest : Exec) : Exec := Exec.datapath s <| Exec.need s [Dom.buffer] rest

/-! ### References between objects (R311) -/

/-- Whether an enabled filter satisfies a test. -/
def filterAny (s : State) (f : Filter → Bool) : Bool := s.trf.filters.any fun x => x.2.enabled && f x.2

/-- Whether a policer is named by an enabled filter or a port meter. -/
def policerNamed (s : State) (i : Nat) : Bool :=
  s.filterAny (fun x => x.meter == i) || s.trf.ports.any fun x => x.2.meters.contains i

/-- A meter reference: 0xFFFF for none, else a policer. -/
def meterField (m : Nat) : Bool := m == 0xFFFF || m < 8192

/-- Whether every policer of a list of references is enabled. -/
def metersLive (s : State) (l : List Nat) : Bool := l.all fun m => m == 0xFFFF || (s.policer m).enabled

/-! ### `TRF_QUEUE_CONFIG` -/

/-- `TRF_QUEUE_CONFIG` -/
def trfQueueConfig (c : Cmd) (s : State) : Exec :=
  let t := c.u 0 1
  let p := if t = 64 then 67 else t
  let n := if t = 64 then 32 else 8
  let strict := c.u 4 4
  let meters := (List.range 8).map fun i => c.u (16 + 2 * i) 2
  let quanta := (List.range 32).map fun i => c.u (64 + 4 * i) 4
  let quantaOk := (List.range n).all fun q => bit strict q || (64 ≤ quanta.getD q 0 && quanta.getD q 0 ≤ 16777216)
  Exec.traffic s <|
  Exec.check (t ≤ 64 && (c.u 2 1 < n) && c.u 3 1 ≤ 3 && 1 ≤ c.u 13 1 && c.u 13 1 ≤ 128 &&
    meters.all meterField && quantaOk) s St.badParam <|
  Exec.check (!(bit (c.u 1 1) 1 && 48 ≤ t)) s 0x0406 <|
  Exec.check (s.metersLive meters) s 0x0401 <|
  let s := s.cbsUpdate p
  let s := s.tportMod t fun x => { x with
    dscpEn := bit (c.u 1 1) 0, preemptEn := bit (c.u 1 1) 1, verifyEn := bit (c.u 1 1) 2,
    remap := c.u 2 1, addFrag := c.u 3 1, strict := strict, pcpMap := c.u 8 4, express := c.u 12 1,
    verifyMs := c.u 13 1, holdAdvance := c.u 14 2, meters := meters, dscpMap := c.u 32 24, quanta := quanta }
  .done (s.regroupAll.verifyStart t) St.ok 0 []

/-! ### `TRF_POLICER_SET` -/

/-- `TRF_POLICER_SET` -/
def trfPolicerSet (c : Cmd) (s : State) : Exec :=
  let i := c.u 0 2
  let on := bit (c.u 2 1) 0
  let rate := c.u 4 4
  let burst := c.u 8 4
  let ovh := toSigned 8 (c.u 12 1)
  Exec.traffic s <|
  Exec.check (i < 8192 && c.u 3 1 ≤ 2 && 1 ≤ rate && rate ≤ 25000000 && 64 ≤ burst && burst ≤ 16777216 &&
    -64 ≤ ovh && ovh ≤ 63) s St.badParam <|
  Exec.check (on || !s.policerNamed i) s 0x0402 <|
  let x := s.policer i
  let full : Int := 10 ^ 9 * burst
  let fill := bit (c.u 2 1) 1 || (on && !x.enabled)
  .done (s.setPolicer i { x with
    enabled := on, action := c.u 3 1, rate := rate, burst := burst, overhead := ovh, prio := c.u 13 1 % 8,
    bucket := if fill then full else min full x.bucket, at_ := s.clk }) St.ok 0 []

/-! ### Lists written by a host (R292, R293, R301) -/

/-- The entries of a list as DMA brings them. -/
def listEntries (n : Nat) (dma : List Byte) : List GateEntry :=
  (List.range n).map fun i =>
    let e := (dma.drop (8 * i)).take 8
    { interval := le e 0 4, gates := le e 4 1, op := le e 5 1 }

/-- Whether the intervals of a list are right. -/
def listOk (cycle : Nat) (es : List GateEntry) : Bool :=
  (es.map (·.interval)).sum == cycle && es.all fun e => decide (16 ≤ e.interval)

/-- A host's list with its change time. -/
def hostList (s : State) (domain base cycle : Nat) (es : List GateEntry) : HostList :=
  { domain := domain, base := base, cycle := cycle, entries := es
    change := cycleFrom base cycle (s.domNs domain + 1000000) }

/-- RESULT of a command that writes a list. -/
def changeResult (l : HostList) : Nat := l.change % 10 ^ 9 + 2 ^ 32 * (l.change / 10 ^ 9 % 2 ^ 32)

/-- Maximum rate of a port in kb/s (R285, R587). -/
def maxRate (p : Nat) : Nat := if p < 8 then 25000000 else if p < 24 then 10000000 else if p < 48 then 1000000 else 10000

/-- A shaper (KIND 0). -/
def shaperSet (c : Cmd) (s : State) : Exec :=
  let p := c.u 1 1
  let q := c.u 2 1
  let slope := c.u 4 4
  Exec.check (p < 64 && q < 8) s St.badParam <|
  Exec.check (1 ≤ slope && slope ≤ maxRate p) s 0x0405 <|
  let k := p * 8 + q
  let t := if bit (c.u 3 1) 0 then aset s.trf.shapers k ⟨slope, 0, false, s.clk⟩ else adel s.trf.shapers k
  .done (s.setTrf { s.trf with shapers := t }) St.ok 0 []

/-- A port's gate list (KIND 1). -/
def gateListSet (c : Cmd) (dma : List Byte) (s : State) : Exec :=
  let p := c.u 1 1
  let n := c.u 2 2
  let cycle := c.u 8 4
  let es := listEntries n dma
  let on := bit (c.u 5 1) 0
  Exec.check (p < 64 && 1 ≤ n && n ≤ 1024 && c.u 4 1 ≤ 3 && 1000 ≤ cycle && cycle ≤ 1000000000 &&
    c.u 24 8 % 8 == 0) s St.badParam <|
  if !on then
    let s := s.cbsUpdate p
    .done ((s.setTrf { s.trf with gcl := adel s.trf.gcl p }).gateSeen p) St.ok 0 []
  else
    Exec.check (listOk cycle es && es.all fun e => decide (e.op ≤ 2)) s 0x0403 <|
    let l := s.hostList (c.u 4 1) (10 ^ 9 * c.u 16 6 + c.u 12 4) cycle es
    let g := s.hostGates p
    .done (s.setTrf { s.trf with gcl := aset s.trf.gcl p { g with pend := some l, retained := (s.imageList p).isSome } })
      St.ok (changeResult l) []

/-- `TRF_SHAPER_SET` -/
def trfShaperSet (dma : List Byte) (c : Cmd) (s : State) : Exec :=
  Exec.traffic s <|
  match c.u 0 1, c.body.length with
  | 0, 16 => shaperSet c s
  | 1, 40 => gateListSet c dma s
  | _, _ => Exec.fail s St.badParam

/-- Entries of the pool that stream gates other than the pending list of `i` hold. -/
def poolUsed (s : State) (i : Nat) : Nat :=
  let len (l : Option HostList) : Nat := (l.map (·.entries.length)).getD 0
  (s.trf.gates.map fun (k, g) => len g.cur + (if k = i then 0 else len g.pend)).sum

/-- A stream filter (KIND 0). -/
def filterSet (c : Cmd) (s : State) : Exec :=
  let i := c.u 2 2
  let on := bit (c.u 1 1) 0
  let sdu := c.u 36 2
  let gate := c.u 38 2
  let recov := c.u 42 2
  let gen := c.u 44 2
  let src := c.u 34 1
  Exec.check (i < 4096 && c.u 4 1 ≤ 2 && (c.u 5 1 ≤ 7 || c.u 5 1 == 0xFF) && (src ≤ 67 || src == 0xFF) &&
    (c.u 33 1 == 4 || c.u 33 1 == 6 || c.u 4 1 != 2) && (sdu == 0 || (64 ≤ sdu && sdu ≤ 9216)) &&
    (gate < 1024 || gate == 0xFFFF) && meterField (c.u 40 2) && (recov < 2048 || recov == 0xFFFF) &&
    (gen < 1024 || gen == 0xFFFF)) s St.badParam <|
  Exec.check (!on || (s.metersLive [c.u 40 2] && (gate == 0xFFFF || (agetD s.trf.gates gate {}).enabled) &&
    (recov == 0xFFFF || (s.recovery recov).enabled) && (gen == 0xFFFF || (agetD s.trf.gen gen {}).enabled))) s 0x0401 <|
  let cnt := ((aget s.trf.filters i).map (·.cnt)).getD [0, 0, 0, 0, 0, 0]
  let x : Filter :=
    { enabled := on, blockOnOversize := bit (c.u 1 1) 1, idType := c.u 4 1, prioSpec := c.u 5 1,
      vid := c.u 6 2 % 4096, mac := c.u 8 6, l4dst := c.u 14 2, ip := c.u 16 16, proto := c.u 32 1,
      family := c.u 33 1, source := src, maxSdu := sdu, gate := gate, meter := c.u 40 2, recovery := recov,
      generation := gen, cnt := cnt, serial := s.trf.filterSerial + 1 }
  .done (s.setTrf { s.trf with filters := aset s.trf.filters i x, filterSerial := s.trf.filterSerial + 1 }) St.ok 0 []

/-- A stream gate (KIND 1). -/
def streamGateSet (c : Cmd) (dma : List Byte) (s : State) : Exec :=
  let i := c.u 2 2
  let n := c.u 4 2
  let cycle := c.u 8 4
  let on := bit (c.u 1 1) 0
  let es := listEntries n dma
  let g := agetD s.trf.gates i {}
  Exec.check (i < 1024 && 1 ≤ n && n ≤ 256 && c.u 6 1 ≤ 3 && c.u 24 8 % 8 == 0) s St.badParam <|
  if !on then
    Exec.check (!s.filterAny fun x => x.gate == i) s 0x0402 <|
    let g := { g with cur := none, pend := none, enabled := false, blocked := false, closeOnInvalid := bit (c.u 1 1) 1 }
    .done (s.setTrf { s.trf with gates := aset s.trf.gates i g }) St.ok 0 []
  else
    Exec.check (listOk cycle es && es.all fun e => decide (e.gates ≤ 1)) s 0x0403 <|
    Exec.check (s.poolUsed i + n ≤ 16384) s 0x0404 <|
    let l := s.hostList (c.u 6 1) (10 ^ 9 * c.u 16 6 + c.u 12 4) cycle es
    let g := { g with pend := some l, enabled := true, blocked := false, closeOnInvalid := bit (c.u 1 1) 1 }
    .done (s.setTrf { s.trf with gates := aset s.trf.gates i g }) St.ok (changeResult l) []

/-- `TRF_STREAM_FILTER` -/
def trfStreamFilter (dma : List Byte) (c : Cmd) (s : State) : Exec :=
  Exec.traffic s <|
  match c.u 0 1, c.body.length with
  | 0, 56 => filterSet c s
  | 1, 32 => streamGateSet c dma s
  | _, _ => Exec.fail s St.badParam

/-- The list of a host takes over at its change time: entry 0 of it begins. -/
def listChange (g : GateCtl) (l : HostList) : GateCtl :=
  { g with cur := some l, pend := none, pos := 0, rephase := none, retained := false }

/-- `HOST_GCL_CHANGE`: the change time of a port's or a stream gate's pending list. -/
def doHostGclChange (s : State) (stream : Bool) (i : Nat) : State :=
  let g := agetD (if stream then s.trf.gates else s.trf.gcl) i {}
  match g.pend with
  | none => s
  | some l =>
    if g.retained || (s.domain l.domain).state == .disabled || !s.datapathUp then s
    else
      let s := s.waitDom l.domain l.change
      if stream then
        (s.setTrf { s.trf with gates := aset s.trf.gates i (listChange g l) }).raise 0x6003 (65536 + i)
      else if (s.imageList i).isSome then
        s.setTrf { s.trf with gcl := aset s.trf.gcl i { g with retained := true } }
      else
        let s := s.cbsUpdate i
        let s := s.setTrf { s.trf with gcl := aset s.trf.gcl i (listChange g l) }
        let s := match l.entries.head? with
          | none => s
          | some e => s.enterEntry i e
        (s.gateSeen i).raise 0x6003 i

/-- The next entry of a host's list begins; after a re-phasing it is entry 0, at the first
start of the cycle in the domain's new time (R294). -/
def hostNext (s : State) (g : GateCtl) (l : HostList) : State × GateCtl :=
  match g.rephase with
  | none =>
    let s := s.waitDom l.domain (s.domNs l.domain + s.hostLeft g l)
    (s, { g with pos := (g.pos + 1) % max 1 l.entries.length })
  | some e =>
    if g.pos + 1 < l.entries.length then (s.waitUntil (s.clk + s.hostLeft g l), { g with pos := g.pos + 1 })
    else
      let s := s.waitUntil e
      let s := s.waitDom l.domain (s.domNs l.domain + toBoundary (s.domNs l.domain) l.base l.cycle)
      (s, { g with pos := 0, rephase := none })

/-- `STREAM_GATE_ENTRY`: the next entry of a stream gate's list begins. -/
def doStreamGateEntry (s : State) (i : Nat) : State :=
  let g := agetD s.trf.gates i {}
  match g.cur with
  | none => s
  | some l =>
    if (s.domain l.domain).state == .disabled || !s.datapathUp then s
    else
      let (s, g) := s.hostNext g l
      s.setTrf { s.trf with gates := aset s.trf.gates i g }

/-! ### Replication and elimination (R305 to R309) -/

/-- `TRF_FRER_CONFIG` -/
def trfFrerConfig (c : Cmd) (s : State) : Exec :=
  let i := c.u 2 2
  let fl := c.u 1 1
  let on := bit fl 0
  Exec.traffic s <|
  match c.u 0 1 with
  | 0 =>
    Exec.check (i < 2048 && 2 ≤ c.u 4 1 && c.u 4 1 ≤ 64 && 2 ≤ c.u 5 1 && c.u 5 1 ≤ 8 && 1 ≤ c.u 6 2 &&
      10 ≤ c.u 10 2) s St.badParam <|
    Exec.check (on || !s.filterAny fun x => x.recovery == i) s 0x0402 <|
    .done (s.recovMod i fun r => { r with
      enabled := on, matchAlg := bit fl 1, popRtag := bit fl 2, takeNoSeq := bit fl 3, latentEn := bit fl 4,
      mirror := bit fl 5, history := c.u 4 1, latentPaths := c.u 5 1, resetMs := c.u 6 2, latentDiff := c.u 8 2,
      latentMs := c.u 10 2, top := none, seen := [], pend := [], lastAccept := s.clk, perPassed := 0, perDup := 0,
      perAt := s.clk }) St.ok 0 []
  | 1 =>
    Exec.check (i < 1024) s St.badParam <|
    Exec.check (on || !s.filterAny fun x => x.generation == i) s 0x0402 <|
    let f (r : Frer) : Frer := { r with enabled := on, mirror := bit fl 5, next := 0, cnt := r.cnt.set 0 0 }
    .done (s.setTrf { s.trf with gen := amod s.trf.gen i {} f }) St.ok 0 []
  | _ => Exec.fail s St.badParam

/-- `FRER_RESET_TIMEOUT`: RESET_MS has passed with no frame accepted. -/
def doFrerResetTimeout (s : State) (i : Nat) : State :=
  let r := s.recovery i
  if !r.enabled || r.top.isNone || !s.datapathUp then s
  else
    let s := s.waitUntil (r.lastAccept + 1000000 * r.resetMs)
    let s := (s.recovMod i fun r => { r with top := none, seen := [] }).trfCount 3 i 5
    let (s, t) := s.raiseLimited r.resetAt (10 ^ 9) 0x6007 i
    s.recovMod i fun r => { r with resetAt := t }

/-- `FRER_LATENT_PERIOD`: a latent error period ends. -/
def doFrerLatentPeriod (s : State) (i : Nat) : State :=
  let r := s.recovery i
  if !r.enabled || !r.latentEn || !s.datapathUp then s
  else
    let s := s.waitUntil (r.perAt + 1000000 * r.latentMs)
    let d := (r.perDup : Int) - (r.perPassed * (r.latentPaths - 1) : Nat)
    let s := s.recovMod i fun r => { r with perPassed := 0, perDup := 0, perAt := s.clk }
    if r.latentDiff < d.natAbs then s.raise 0x6006 i else s

end State

/-- `TRF_QUEUE_CONFIG` -/
def execTrfQueueConfig (host queue : Nat) (s : State) : Host.Outcome State Fault Refusal :=
  .next (s.runCmd host queue 0x0400 State.trfQueueConfig)

/-- `TRF_POLICER_SET` -/
def execTrfPolicerSet (host queue : Nat) (s : State) : Host.Outcome State Fault Refusal :=
  .next (s.runCmd host queue 0x0401 State.trfPolicerSet)

/-- `TRF_SHAPER_SET` -/
def execTrfShaperSet (host queue : Nat) (dma : List Byte) (s : State) : Host.Outcome State Fault Refusal :=
  .next (s.runDma host queue 0x0402 (fun c => c.u 24 8) (fun c => if c.u 0 1 = 1 ∧ bit (c.u 5 1) 0 then 8 * c.u 2 2 else 0) (State.trfShaperSet dma))

/-- `TRF_STREAM_FILTER` -/
def execTrfStreamFilter (host queue : Nat) (dma : List Byte) (s : State) : Host.Outcome State Fault Refusal :=
  .next (s.runDma host queue 0x0403 (fun c => c.u 24 8) (fun c => if c.u 0 1 = 1 ∧ bit (c.u 1 1) 0 then 8 * c.u 4 2 else 0) (State.trfStreamFilter dma))

/-- `TRF_FRER_CONFIG` -/
def execTrfFrerConfig (host queue : Nat) (s : State) : Host.Outcome State Fault Refusal :=
  .next (s.runCmd host queue 0x0404 State.trfFrerConfig)

/-- `HOST_GCL_CHANGE` -/
def execHostGclChange (streamGate : Bool) (index : Nat) (s : State) : Host.Outcome State Fault Refusal :=
  .next (s.doHostGclChange streamGate index)

/-- `STREAM_GATE_ENTRY` -/
def execStreamGateEntry (gate : Nat) (s : State) : Host.Outcome State Fault Refusal :=
  .next (s.doStreamGateEntry gate)

/-- `FRER_RESET_TIMEOUT` -/
def execFrerResetTimeout (fn : Nat) (s : State) : Host.Outcome State Fault Refusal := .next (s.doFrerResetTimeout fn)

/-- `FRER_LATENT_PERIOD` -/
def execFrerLatentPeriod (fn : Nat) (s : State) : Host.Outcome State Fault Refusal := .next (s.doFrerLatentPeriod fn)

end Sys2Proof.Machine
end

