-- ==== Sys2Proof/Machine/Calendar.lean ====
section
/-! DEFINITION.
The calendar: its commands (R151 to R159, R511, R594), hypercycle boundaries (R140, R163),
takeovers (R156, R160 to R165), the limp calendar (R172 to R174), gate lists (R289) and
deadlines (R166). -/

namespace Sys2Proof.Machine

namespace State

/-! ### Handles and the pending activation -/

/-- Put a handle. -/
def setHandle (s : State) (h : Nat) (x : Handle) : State :=
  s.setCal { s.cal with handles := if x = {} then adel s.cal.handles h else aset s.cal.handles h x }

/-- The PENDING handle with its image. -/
def pendingImage (s : State) : Option (Nat × Image) :=
  (s.handleIn .pending).bind fun h => (s.handle h).img.map fun i => (h, i)

/-- T of the pending activation in its registers; 0 for none. -/
def pendingRegs (s : State) (id t : Nat) : State :=
  let s := s.rset Reg.calPendingId (BitVec.ofNat 32 id)
  let s := s.rset Reg.calPendingTNs (BitVec.ofNat 32 (t % 10 ^ 9))
  let s := s.rset Reg.calPendingTSecLo (BitVec.ofNat 32 (t / 10 ^ 9))
  s.rset Reg.calPendingTSecHi (BitVec.ofNat 32 (t / 10 ^ 9 / 2 ^ 32 % 2 ^ 16))

/-- No activation is pending any more. An image that had stopped for it resumes at its own
next boundary; until then no breach counts, as since its stop (R156, R163). -/
def pendingDrop (s : State) : State :=
  let s := if s.cal.stop then
      (s.setCal { s.cal with
        rephase := true, rephaseAt := s.cal.stopAt, cycleEnd := s.clk, stop := false, stopEnd := s.clk }).wheelsBegin
    else s
  (s.setCal { s.cal with pendingT := 0, committed := false }).pendingRegs 0 0

/-- The resynchronisation of a joining device has failed (R512). -/
def syncFail (s : State) : State :=
  if s.pair.linkState ≠ 3 ∨ s.pair.syncFailed then s
  else (s.setPair { s.pair with syncFailed := true, joining := false }).raise 0xC001 (3 + 3 * 256)

/-- A pending activation does not take place: its handle returns to ADMITTED (R163, R165,
R173). -/
def activationMissed (s : State) : State :=
  match s.pendingImage with
  | none => s
  | some (h, i) =>
    (((s.setHandle h { state := .admitted, img := some i }).pendingDrop).raise 0x3007 i.id).syncFail

/-! ### Switching from one image to another -/

/-- Bring every shaper up to date, before the images change. -/
def cbsAll (s : State) : State := (List.range 64).foldl cbsUpdate s

/-- The audit windows of all ports see the gate states of now. -/
def gateSeenAll (s : State) : State :=
  ((s.trf.ports.map (·.1)).filter (· < 64)).foldl gateSeen s

/-- The first entry of every list of an image begins. -/
def enterLists (s : State) (i : Image) : State :=
  i.gates.foldl (fun s l => match l.entries.head? with
    | none => s
    | some e => if (s.imageList l.port).isSome then s.enterEntry l.port e else s) s

/-- The LIN channels of an image that stops running restart their current table (R342). -/
def linRestart (s : State) : State :=
  let named (l : Nat) : Bool := s.runningImage.any fun i => i.slots.any (·.ch == 64 + l)
  let restart (x : Nat × LinCh) : Nat × LinCh :=
    if named x.1 then (x.1, { x.2 with next := (x.2.table, 0), resume := none, slotEnd := s.clk }) else x
  s.setEdg { s.edg with lin := s.edg.lin.map restart }

/-- The sequencer changes to an image on this tick (R28), whose boundary is `t` in its domain.
`old` is the image that drains until `overlap`. -/
def switchTo (s : State) (run : Running) (i : Image) (t : Nat) (old : Option Image) (overlap : Option Nat) : State :=
  let s := s.wheelsNow.cbsAll.linRestart
  let s := s.setCal { s.cal with
    running := run, overlapEnd := overlap, old := old, rephase := false, stop := false, nextB := t + i.hyper
    oldEnd := if s.cal.rephase && old.isSome then some s.cal.cycleEnd else none
    draining := s.cal.active, active := [], openWindows := [], gateAt := [], changeAt := some s.clk
    resumeAt := if s.cal.rephase then s.clk else s.cal.resumeAt
    stopEnd := if s.cal.stop then s.clk else s.cal.stopEnd }
  let s := s.wheelsBegin.rset Reg.calActiveId (BitVec.ofNat 32 i.id)
  (((s.hostResyncAll).enterLists i).gateSeenAll).regroupAll

/-! ### Time changes (R163) -/

/-- The calendar and the host lists of a domain keep their phase from now: the domain's time
is about to change. A second change while the image re-phases leaves the first one's hypercycle as
it is. The list of an image that drains keeps its phase in the same way. -/
def rephaseNow (s : State) (d : Nat) : State :=
  let s := s.listsRephase d
  let s := match s.drainingImage with
    | none => s
    | some i =>
      if i.domain ≠ d ∨ s.cal.oldEnd.any (s.drainingHeld i) then s
      else s.setCal { s.cal with oldEnd := some (s.clk + i.hyper - cyclePos (s.domNs d) (imageBase i) i.hyper) }
  match s.runningImage with
  | none => s
  | some i =>
    if i.domain ≠ d then s
    else
      let s := s.wheelsNow
      let s := if s.cal.rephase then s
        else s.setCal { s.cal with
          rephase := true, rephaseAt := s.clk
          cycleEnd := s.clk + i.hyper - cyclePos (s.domNs d) (imageBase i) i.hyper }
      s.raise 0x3006 d

/-- A domain's time has been stepped by `step` ns: an overlap window keeps its length, and a T
that now lies in the past is missed. -/
def timeStepped (s : State) (d : Nat) (step : Int) : State :=
  let s := match s.runningImage, s.cal.overlapEnd with
    | some i, some t => if i.domain = d then s.setCal { s.cal with overlapEnd := some ((t : Int) + step).toNat } else s
    | _, _ => s
  match s.pendingImage with
  | none => s
  | some (_, i) => if i.domain = d ∧ s.cal.pendingT < s.domNs d then s.activationMissed else s

/-- The calendar resumes re-phased at the first boundary from now on: after a release of the
calendar domain (R525) and after a return from BANKED (R164). A device of a mirrored pair that
missed an activation joins anew (R165). -/
def calResume (s : State) : State :=
  let s := match s.pendingImage with
    | none => s
    | some (_, i) =>
      if s.cal.pendingT ≤ s.domNs i.domain then
        let t := s.activationMissed
        if t.mirroring then
          ((t.mirrorOff).setPair { t.pair with linkState := 3, joining := false, syncFailed := false }).emit (.tongsUnit 6 [])
        else t
      else s
  match s.runningImage with
  | none => s.setCal { s.cal with monitorFrom := s.clk }
  | some i =>
    (s.setCal { s.cal with rephase := true, stop := false, cycleEnd := s.clk, rephaseAt := s.clk
                           monitorFrom := s.clk }).wheelsBegin.raise 0x3006 i.domain

/-! ### The limp calendar (R172, R173) -/

/-- Enable the limp image's domain, where it is disabled, with SOURCE 0 and the defaults. -/
def limpDomain (s : State) (i : Image) : State :=
  if (s.domain i.domain).state = .disabled then
    { s with dom := amod s.dom i.domain {} fun d =>
        { state := .unset, lastAt := s.clk, heldSeq := d.heldSeq, offset := d.offset, cfgSlave := 0 } }
  else s

/-- The limp calendar is selected, with the cause of R173: it takes over at its own next
boundary. -/
def limpSelect (s : State) (cause : Nat) : State :=
  match s.cal.limp with
  | none => s
  | some i => if s.cal.running = .limp then s else (s.limpDomain i).setCal { (s.limpDomain i).cal with limpDue := cause }

/-- The limp calendar takes over. -/
def limpTakeover (s : State) (i : Image) (t : Nat) : State :=
  let cause := s.cal.limpDue
  let s := s.activationMissed
  let bound (f : Frame) : Bool := f.handle.isSome && f.image ≠ i.id
  let s := s.setFr { s.fr with frames := s.fr.frames.map fun f => if bound f then { f with handle := none } else f }
  let (s, counts) := match s.cal.running with
    | .image h => (s.setHandle h { s.handle h with state := .draining }, s.cal.active)
    | _ => (s, [])
  let s := s.switchTo .limp i t none none
  let s := s.setCal { s.cal with limpDue := 0, draining := counts, deadlines := [] }
  let s := (s.drainGone).bump Reg.calHypercycleCnt
  s.raise 0x3005 cause

/-! ### `HYPERCYCLE_BOUNDARY` -/

/-- The pending image of another domain whose T lies less than one hypercycle of the running
image ahead: the running image stops at its boundary (R156). -/
def stopsFor (s : State) (i : Image) : Option Image :=
  (s.pendingImage.map (·.2)).filter fun n => n.domain != i.domain && decide (s.cal.pendingT < s.domNs n.domain + i.hyper)

/-- The running image resumes at its first boundary after a re-phasing, unless it stops there
(R156). -/
def resumeBoundary (s : State) (i : Image) : State :=
  let s := s.waitUntil s.cal.cycleEnd
  let t := s.domNs i.domain + toBoundary (s.domNs i.domain) (imageBase i) i.hyper
  let s := ((s.waitDom i.domain t).cbsAll.wheelsNow).wheelsBegin
  let s := (s.setCal { s.cal with rephase := false, resumeAt := s.clk, nextB := t + i.hyper }).bump Reg.calHypercycleCnt
  match s.stopsFor i with
  | some n => (s.setCal { s.cal with stop := true, stopAt := s.clk }).raise 0x3006 n.domain
  | none => ((s.setCal { s.cal with gateAt := [] }).enterLists i).gateSeenAll

/-- A boundary passes: ahead of a T in another domain the image stops there (R156). -/
def passBoundary (s : State) (i : Image) : State :=
  let s := (s.waitDom i.domain s.cal.nextB).wheelsNow
  let s := (s.setCal { s.cal with nextB := s.cal.nextB + i.hyper }).bump Reg.calHypercycleCnt
  match s.stopsFor i with
  | none => s
  | some n => (s.setCal { s.cal with stop := true, stopAt := s.clk }).raise 0x3006 n.domain

/-- `HYPERCYCLE_BOUNDARY`: the next boundary of the running image, or of the limp image that
is to take over. -/
def doHypercycleBoundary (s : State) : State :=
  if !s.datapathUp || s.quenched Dom.calendar then s
  else
    let live (i : Image) : Bool := (s.domain i.domain).state != .disabled
    let next (i : Image) : Nat := s.domNs i.domain + toBoundary (s.domNs i.domain) (imageBase i) i.hyper
    let limp := if s.cal.limpDue = 0 then none else s.cal.limp.filter live
    let own := if s.cal.stop then none else s.runningImage.filter live
    match limp, own with
    | none, none => s
    | none, some i => if s.cal.rephase then s.resumeBoundary i else s.passBoundary i
    | some l, none => (s.waitDom l.domain (next l)).limpTakeover l (next l)
    | some l, some i =>
      if domTicks (s.domain l.domain) (next l) ≤ domTicks (s.domain i.domain) s.cal.nextB ∨ s.cal.rephase then
        (s.waitDom l.domain (next l)).limpTakeover l (next l)
      else s.passBoundary i

/-! ### Activation -/

/-- Schedule an image for T. -/
def schedule (s : State) (h : Nat) (i : Image) (t : Nat) : State :=
  let s := s.setHandle h { state := .pending, img := some i }
  (s.setCal { s.cal with pendingT := t, committed := false }).pendingRegs i.id t

/-- The resynchronisation of a joining device has ended well (R512). -/
def syncDone (s : State) : State :=
  let pend := s.pair.syncPending
  let s := s.setPair { s.pair with linkState := 4, joining := false, syncActive := none, syncPending := none }
  let s := match pend with
    | some (h, t) =>
      (match s.handle h with
       | ⟨.admitted, some i⟩ => s.schedule h i t
       | _ => s)
    | none => s
  (s.bump Reg.pairResyncCnt).raise 0xC005 (s.rget Reg.pairPartnerId).toNat

/-- `ACTIVATION_COMMIT`: T - 1 ms of the pending activation (R159). -/
def doActivationCommit (s : State) : State :=
  match s.pendingImage with
  | none => s
  | some (_, i) =>
    if (s.domain i.domain).state = .disabled || s.quenched Dom.memory then s
    else
      let s := s.waitDom i.domain (s.cal.pendingT - 1000000)
      s.setCal { s.cal with committed := true }

/-- `CAL_TAKEOVER`: the tick at which the pending image's domain reaches T (R160). It does not
take place while the calendar, the datapath, the device or the memory domain is quenched
(R165, R525). Without an old image it opens no overlap window (log entry 29). -/
def doCalTakeover (s : State) : State :=
  match s.pendingImage with
  | none => s
  | some (h, i) =>
    if !s.datapathUp || (s.domain i.domain).state = .disabled then s
    else
      let t := s.cal.pendingT
      let s := s.waitDom i.domain t
      if s.quenched Dom.calendar || s.quenched Dom.memory then s
      else
        let old := s.runningImage
        let counted := old.any fun o => o.domain == i.domain && decide (t < s.cal.nextB)
        let s := match s.cal.running with
          | .image k => s.setHandle k { s.handle k with state := .draining }
          | _ => s
        let s := s.switchTo (.image h) i t old (old.map fun _ => t + i.overlap)
        let s := (s.setHandle h { state := .active, img := some i }).setCal
          { (s.setHandle h { state := .active, img := some i }).cal with pendingT := 0, committed := false }
        let s := (s.pendingRegs 0 0).raise 0x3001 i.id
        let s := if counted then s else s.bump Reg.calHypercycleCnt
        if s.pair.joining then s.syncDone else s

/-- A frame of the old image that is still inside at the end of the overlap: late, and
discarded (R162). -/
def overlapLate (s : State) (old : Image) (f : Frame) : State :=
  let s := (s.cal.deadlines.filter fun d => d.fid == f.fid && d.image == old.id).foldl late s
  ((s.copiesOf f.fid).filter fun c => !c.onLane && !c.preempted).foldl (fun s c => s.discardCopy c) s

/-- `OVERLAP_END` -/
def doOverlapEnd (s : State) : State :=
  match s.cal.overlapEnd, s.runningImage, s.cal.old with
  | some t, some i, some old =>
    if (s.domain i.domain).state = .disabled then s
    else
      let s := (s.waitDom i.domain t).cbsAll
      let s := (s.fr.frames.filter fun f => f.image == old.id && f.handle.isSome).foldl
        (fun s f => s.overlapLate old f) s
      let s := match (List.range 4).find? fun h => (s.handle h).state == .draining && (s.handle h).img == some old with
        | none => s
        | some h => s.setHandle h {}
      let s := s.setCal { s.cal with overlapEnd := none, old := none, oldEnd := none, draining := [] }
      (((s.hostResyncAll).gateSeenAll).raise 0x3002 old.id).gc.drainGone
  | _, _, _ => s

/-! ### `GATE_ENTRY_START` (R143, R289) -/

/-- The next entry of an image's list begins. While it re-phases the list runs to the end of
the hypercycle in progress; then, and once the image has stopped, its last entry stands. -/
def imageEntry (s : State) (i : Image) (l : GateList) : State :=
  let k := agetD s.cal.gateAt l.port 0
  let left := s.imageLeft i l
  let held := s.quenched Dom.calendar || s.cal.stop || (s.domain i.domain).state == .disabled ||
    (s.cal.rephase && decide (s.cal.cycleEnd ≤ s.clk + left))
  if held then s
  else
    let s := if s.cal.rephase then s.waitUntil (s.clk + left) else s.waitDom i.domain (s.domNs i.domain + left)
    let n := (k + 1) % max 1 l.entries.length
    let s := s.cbsUpdate l.port
    let s := s.setCal { s.cal with gateAt := aset s.cal.gateAt l.port n }
    let s := match l.entries[n]? with
      | none => s
      | some e => s.enterEntry l.port e
    s.gateSeen l.port

/-- `GATE_ENTRY_START`: the next entry of the list in force at a port begins. -/
def doGateEntryStart (s : State) (p : Nat) : State :=
  if 64 ≤ p || !s.datapathUp then s
  else match s.runningImage, s.imageList p with
  | some i, some l => s.imageEntry i l
  | _, _ =>
    let g := s.hostGates p
    match g.cur with
    | none => s
    | some l =>
      if g.retained || (s.domain l.domain).state == .disabled then s
      else
        let (s, g) := s.hostNext g l
        let s := s.cbsUpdate p
        let s := s.setTrf { s.trf with gcl := aset s.trf.gcl p g }
        let s := match l.entries[g.pos]? with
          | none => s
          | some e => s.enterEntry p e
        s.gateSeen p

/-! ### `STREAM_DEADLINE_EXPIRY` (R166, R267) -/

/-- `STREAM_DEADLINE_EXPIRY`: no departure by BOUND_NS is late; a frame whose port is down is
discarded then, its path lost. -/
def doStreamDeadlineExpiry (s : State) (fid egress : Nat) : State :=
  match s.deadline fid egress with
  | none => s
  | some d =>
    let s := s.waitUntil (d.start + d.bound)
    if egress < 64 && s.portDown egress then
      match (s.copiesOf fid).find? fun c => c.port == egress && !c.onLane with
      | none => s.pathLost fid egress
      | some c => ((s.discardCopy c).pathLost fid egress).gc
    else s.late d

/-! ### The calendar commands -/

/-- The status of a check of R153, R152 or R155. -/
def calStatus (base check : Nat) : Nat := base + check - 1

/-- The role and partner rules of the four commands that a pair executes twice (R494, R511), before
the command's own checks (log entry 15). At LINK_STATE 4 the partner executes the command too: `msg`
carries it there, and `partner` is the status that it answers. A failure on either device leaves the
state as it was. -/
def Exec.both (s : State) (partner : Nat) (data : List Byte) (msg : MirrorMsg) (own : State → Exec) : Exec :=
  if s.pair.role = .single then own s
  else if s.pair.role = .striker ∧ !s.pair.acting then Exec.failData s 0x0A02 data
  else if s.pair.linkState = 4 then
    let s := s.emit (.mirror msg)
    match own s with
    | .done t 0 r d => if partner = 0 then .done t 0 r d else .done s 0x0A07 (2 ^ 32 * (partner % 2 ^ 16)) data
    | .done t st r d => .done { s with freeCtr := t.freeCtr } st r d
    | x => x
  else if s.pair.acting then own s
  else Exec.failData s 0x0A03 data

/-- What this device makes of a `CAL_LOAD`. -/
def calLoadOwn (dma : List Byte) (c : Cmd) (s : State) : Exec :=
  let h := c.u 0 1
  let len := c.u 4 4
  let st := (s.handle h).state
  if s.quenched Dom.memory then Exec.failData s St.domainQuenched noCheck
  else if 3 < h ∨ c.u 8 8 % 8 ≠ 0 then Exec.failData s St.badParam noCheck
  else if st = .pending ∨ st = .active ∨ st = .draining then Exec.failData s 0x0203 noCheck
  else
    let b := dma.take len
    match loadChecks b len with
    | some f => Exec.failData (s.setHandle h {}) (calStatus 0x0201 f.check) f.bytes
    | none => .done (s.setHandle h { state := .loaded, img := some (parseImage b) }) St.ok (parseImage b).id
        (List.replicate 16 0)

/-- What this device makes of a `CAL_ADMIT`. -/
def calAdmitOwn (c : Cmd) (s : State) : Exec :=
  let h := c.u 0 1
  if s.quenched Dom.memory then Exec.failData s St.domainQuenched noCheck
  else if 3 < h then Exec.failData s St.badParam noCheck
  else match s.handle h with
  | ⟨.loaded, some i⟩ =>
    (match admitChecks s i false with
     | some f => Exec.failData s (calStatus 0x0210 f.check) f.bytes
     | none => .done (s.setHandle h { state := .admitted, img := some i }) St.ok i.id (List.replicate 16 0))
  | ⟨st, _⟩ =>
    Exec.failData s (if st = .pending ∨ st = .active ∨ st = .draining then 0x0203 else 0x0204) noCheck

/-- Whether T is a boundary of an image. -/
def isBoundary (i : Image) (t : Nat) : Bool := cyclePos t (imageBase i) i.hyper == 0

/-- The time left to the end of an overlap window, in ns; none without one. -/
def windowLeft (s : State) : Option Nat :=
  match s.cal.overlapEnd, s.runningImage with
  | some t, some i => some (t - s.domNs i.domain)
  | _, _ => none

/-- Check 4 of R155; `accepted` is the domain's time at the command's acceptance. -/
def timeOk (s : State) (i : Image) (t accepted : Nat) : Bool :=
  (s.domain i.domain).state != .disabled && isBoundary i t &&
    (s.runningImage.all fun r => r.domain != i.domain || isBoundary r t) &&
    decide (accepted + 5000000 ≤ t)

/-- The largest BOUND_NS of an image. -/
def maxBound (i : Image) : Nat := (i.guarantees.map (·.bound)).max?.getD 0

/-- Check 5 of R155: the overlap. The reservations and bursts of every image that drains count;
one that drains without an overlap window has no end in time to test (log entry 60). -/
def overlapOk (s : State) (i : Image) (t : Nat) : Bool :=
  let live := s.runningImage.toList ++ s.drainingImages ++ [i]
  (s.runningImage.all fun r => decide (maxBound r ≤ i.overlap)) &&
    decide ((live.map imageCells).sum ≤ s.buf.sched) &&
    decide ((live.map fun x => (x.guarantees.map (·.burst)).sum).sum ≤ 16384) &&
    s.windowLeft.all fun n => decide (n + s.domNs i.domain < t)

/-- Check 6 of R155: the resources that the image names. -/
def resourcesOk (s : State) (i : Image) : Bool :=
  (i.gates.all fun l => (s.bport l.port).linkUp && (s.bport l.port).rate == l.rate) &&
    (i.slots.all fun e => if e.ch < 64 then (agetD s.edg.can e.ch {}).cfg.enable
      else (agetD s.edg.lin (e.ch - 64) {}).cfg.enable) &&
    (i.windows.all fun w => bit (agetD s.tun.ch w.ch {}).flags 0) &&
    i.jobs.all fun j => (aget s.sig.jobs j.job).isSome

/-- What this device makes of a `CAL_ACTIVATE_AT`. -/
def calActivateOwn (c : Cmd) (s : State) : Exec :=
  let h := c.u 0 1
  let t := 10 ^ 9 * c.u 8 6 + c.u 4 4
  Exec.datapath s <|
  Exec.need s [Dom.memory, Dom.calendar] <|
  Exec.check (h ≤ 3) s St.badParam <|
  match s.handle h with
  | ⟨.admitted, some i⟩ =>
    Exec.check (s.handleIn .pending).isNone s 0x0221 <|
    Exec.check (i.pred == s.runningId) s 0x0222 <|
    Exec.check (s.timeOk i t (c.domAt i.domain)) s 0x0223 <|
    Exec.check (s.overlapOk i t) s 0x0224 <|
    Exec.check (s.resourcesOk i) s 0x0225 <|
    .done (s.schedule h i t) St.ok i.id []
  | _ => Exec.fail s 0x0220

/-- What this device makes of a `CAL_ABORT`. -/
def calAbortOwn (c : Cmd) (s : State) : Exec :=
  let h := c.u 0 1
  Exec.need s [Dom.memory, Dom.calendar] <|
  Exec.check (h ≤ 3) s St.badParam <|
  match s.handle h with
  | ⟨.pending, some i⟩ =>
    Exec.check (!s.cal.committed && decide (s.domNs i.domain + 1000000 < s.cal.pendingT)) s 0x0231 <|
    .done ((s.setHandle h { state := .admitted, img := some i }).pendingDrop) St.ok i.id []
  | _ => Exec.fail s 0x0230

/-- Whether another calendar command that names the same handle stands at the head of its own queue
and may have begun (R102, R151). -/
def calBeside (s : State) (c : Cmd) : Bool :=
  decide (c.u 0 1 ≤ 3) && !s.quenched Dom.memory && s.mbx.cmds.any fun x =>
    x.accepted && x.index != c.index && decide (0x0200 ≤ x.opcode ∧ x.opcode ≤ 0x0203) && x.u 0 1 == c.u 0 1 &&
      s.headCmd x.host x.queue == some x && s.mayBegin x

/-- `CAL_HANDLE_BUSY` while another calendar command executes on the handle (R151). The spec gives
executions no length: whether the other one has begun is a free value (log entry 62). -/
def Exec.idle (c : Cmd) (data : List Byte) (own : State → Exec) (s : State) : Exec :=
  if s.calBeside c then
    if s.free.1 % 2 = 1 then Exec.failData s.free.2 0x0203 data else own s.free.2
  else own s

/-- `CAL_LOAD` -/
def calLoad (dma : List Byte) (partner : Nat) (c : Cmd) (s : State) : Exec :=
  Exec.both s partner noCheck (.calendar c.opcode c.body (dma.take (c.u 4 4))) (Exec.idle c noCheck (calLoadOwn dma c))

/-- `CAL_ADMIT` -/
def calAdmit (partner : Nat) (c : Cmd) (s : State) : Exec :=
  Exec.both s partner noCheck (.calendar c.opcode c.body []) (Exec.idle c noCheck (calAdmitOwn c))

/-- `CAL_ACTIVATE_AT` -/
def calActivateAt (partner : Nat) (c : Cmd) (s : State) : Exec :=
  Exec.both s partner [] (.calendar c.opcode c.body []) (Exec.idle c [] (calActivateOwn c))

/-- `CAL_ABORT` -/
def calAbort (partner : Nat) (c : Cmd) (s : State) : Exec :=
  Exec.both s partner [] (.calendar c.opcode c.body []) (Exec.idle c [] (calAbortOwn c))

/-- A striker executes a calendar command of its smith on its own handle, and acknowledges it with
its status (R500, R511). -/
def calFollow (s : State) (op : Nat) (body image : List Byte) : State :=
  let c : Cmd :=
    { index := noIndex, host := 0, queue := 0, slot := 0, seq := 0, opcode := op, flags := 0, tag := 0, hostTime := 0,
      expectEpoch := 0, session := 0, body := body, acceptTime := s.clk, acceptDom := (List.range 4).map s.domNs,
      phase := .running }
  let own : Exec :=
    match op with
    | 0x0200 => calLoadOwn image c s
    | 0x0201 => calAdmitOwn c s
    | 0x0202 => calActivateOwn c s
    | _ => calAbortOwn c s
  match own with
  | .done t 0 _ _ => t.emit (.tongsUnit 4 (leBytes 2 0))
  | .done t st _ _ => { s with freeCtr := t.freeCtr }.emit (.tongsUnit 4 (leBytes 2 st))
  | _ => s

/-- A handle state's code (R151). -/
def handleCode : HandleState → Nat
  | .empty => 0
  | .loaded => 1
  | .admitted => 2
  | .pending => 3
  | .active => 4
  | .draining => 5

/-- The record of a handle (R158, MODE 0). -/
def handleRecord (x : Handle) : List Byte :=
  let f (g : Image → Nat) : Nat := (x.img.map g).getD 0
  leBytes 4 (f (·.id)) ++ leBytes 1 (handleCode x.state) ++ leBytes 1 (f (·.domain)) ++ leBytes 2 0 ++
    leBytes 4 (f (·.hyper)) ++ leBytes 4 (f (·.pred))

/-- The record of a guarantee handle (R158, MODE 1). -/
def countRecord (i : Option Image) (t : Tbl GCount) (h : Nat) : List Byte :=
  let g := if i.any fun i => i.guarantees.any (·.handle == h) then agetD t h {} else {}
  leBytes 2 h ++ leBytes 2 0 ++ leBytes 4 g.frames ++ leBytes 4 g.nonconf ++ leBytes 4 g.maxLat ++
    leBytes 4 g.breaches ++ leBytes 4 g.margins

/-- `CAL_STATUS` -/
def calStatusCmd (c : Cmd) (s : State) : Exec :=
  let img := c.u 1 1
  let n := c.u 4 1
  if c.u 0 1 = 0 then .done s St.ok 0 ((List.range 4).flatMap fun h => handleRecord (s.handle h))
  else
    Exec.check (c.u 0 1 == 1 && img ≤ 1 && 1 ≤ n && n ≤ 8) s St.badParam <|
    .done s St.ok 0 ((List.range n).flatMap fun k =>
      if img = 0 then countRecord s.runningImage s.cal.active (c.u 2 2 + k)
      else countRecord (s.drainingImage.or ((s.handleIn .draining).bind fun h => (s.handle h).img)) s.cal.draining (c.u 2 2 + k))

/-- `CAL_LIMP_SELECT` -/
def calLimpSelect (_c : Cmd) (s : State) : Exec :=
  Exec.datapath s <|
  Exec.need s [Dom.calendar] <|
  match s.cal.limp with
  | none => Exec.fail s 0x0240
  | some i => .done (s.limpSelect 1) St.ok i.id []

end State

/-- `CAL_LOAD` -/
def execCalLoad (host queue : Nat) (dma : List Byte) (partner : Nat) (s : State) : Host.Outcome State Fault Refusal :=
  .next (s.runDma host queue 0x0200 (fun c => c.u 8 8) (fun c => c.u 4 4) (State.calLoad dma partner))

/-- `CAL_ADMIT` -/
def execCalAdmit (host queue partner : Nat) (s : State) : Host.Outcome State Fault Refusal :=
  .next (s.runCmd host queue 0x0201 (State.calAdmit partner))

/-- `CAL_ACTIVATE_AT` -/
def execCalActivateAt (host queue partner : Nat) (s : State) : Host.Outcome State Fault Refusal :=
  .next (s.runCmd host queue 0x0202 (State.calActivateAt partner))

/-- `CAL_ABORT` -/
def execCalAbort (host queue partner : Nat) (s : State) : Host.Outcome State Fault Refusal :=
  .next (s.runCmd host queue 0x0203 (State.calAbort partner))

/-- `CAL_STATUS` -/
def execCalStatus (host queue : Nat) (s : State) : Host.Outcome State Fault Refusal :=
  .next (s.runCmd host queue 0x0204 State.calStatusCmd)

/-- `CAL_LIMP_SELECT` -/
def execCalLimpSelect (host queue : Nat) (s : State) : Host.Outcome State Fault Refusal :=
  .next (s.runCmd host queue 0x0205 State.calLimpSelect)

/-- `HYPERCYCLE_BOUNDARY` -/
def execHypercycleBoundary (s : State) : Host.Outcome State Fault Refusal := .next s.doHypercycleBoundary

/-- `ACTIVATION_COMMIT` -/
def execActivationCommit (s : State) : Host.Outcome State Fault Refusal := .next s.doActivationCommit

/-- `CAL_TAKEOVER` -/
def execCalTakeover (s : State) : Host.Outcome State Fault Refusal := .next s.doCalTakeover

/-- `OVERLAP_END` -/
def execOverlapEnd (s : State) : Host.Outcome State Fault Refusal := .next s.doOverlapEnd

/-- `GATE_ENTRY_START` -/
def execGateEntryStart (port : Nat) (s : State) : Host.Outcome State Fault Refusal := .next (s.doGateEntryStart port)

/-- `STREAM_DEADLINE_EXPIRY` -/
def execStreamDeadlineExpiry (fid egress : Nat) (s : State) : Host.Outcome State Fault Refusal :=
  .next (s.doStreamDeadlineExpiry fid egress)

end Sys2Proof.Machine
end

