-- ==== Sys2Proof/Machine/EdgeOps.lean ====
section
/-! DEFINITION.
What the edge buses share: channels, the calendar's slots, receive FIFOs and their consumers
(R321, R322), transmit buffers (R324), bus-off and error states (R329 to R332), transceiver
modes (R333, R334), and the state of an M port (R345). -/

namespace Sys2Proof.Machine

namespace State

/-! ### Channels -/

def canCh (s : State) (c : Nat) : CanCh := agetD s.edg.can c {}
def linCh (s : State) (l : Nat) : LinCh := agetD s.edg.lin l {}
def t1sCh (s : State) (m : Nat) : T1s := agetD s.edg.t1s m {}

def canMod (s : State) (c : Nat) (f : CanCh → CanCh) : State :=
  s.setEdg { s.edg with can := amod s.edg.can c {} f }

def linMod (s : State) (l : Nat) (f : LinCh → LinCh) : State :=
  s.setEdg { s.edg with lin := amod s.edg.lin l {} f }

def t1sMod (s : State) (m : Nat) (f : T1s → T1s) : State :=
  s.setEdg { s.edg with t1s := amod s.edg.t1s m {} f }

/-- `EDG_CTRL` lets the edge run. -/
def edgeEn (s : State) : Bool := s.rfld Reg.edgCtrl 0 1 == 1

/-- Whether a channel's controller is there and may run: the edge is enabled and the channel
is not quenched. -/
def busUp (s : State) (ch : Nat) : Bool := s.datapathUp && s.edgeEn && !s.quenched (busUnit ch)

/-- This device is a striker: it runs in full, and drives and injects nothing shared (R494). -/
def strikerNow (s : State) : Bool := s.pair.role == .striker && !s.pair.acting

/-- Whether an edge channel (0 to 95) is shared with the partner. -/
def sharedCh (s : State) (ch : Nat) : Bool :=
  if ch < 64 then bit (le s.pair.cfg 16 8) ch else bit (le s.pair.cfg 24 4) (ch - 64)

/-- A striker holds its shared channels in listen-only. -/
def heldMode (s : State) (ch : Nat) (m : XcvrMode) : XcvrMode :=
  if s.strikerNow && s.sharedCh ch && m == .normal then .listenOnly else m

/-- No CAN or LIN channel starts a transmission while the network prepares to sleep (R471). -/
def busQuiet (s : State) : Bool := s.nm.state == .prepare || s.nm.state == .committed

/-- What the tunnel engine keeps of a channel. -/
def tunCh (s : State) (n : Nat) : TunCh := agetD s.tun.ch n {}

/-- Whether an encapsulating tunnel channel takes frames: enabled, not stopped by ENC_EN, and
not quenched. -/
def encTakes (s : State) (n : Nat) : Bool :=
  n < 512 && bit (s.tunCh n).flags 0 && !bit (s.tunCh n).flags 1 && s.rfld Reg.tunCtrl 0 1 == 1 &&
    !s.quenched (tunUnit n)

/-! ### The calendar's hypercycle -/

/-- The running image's place in its hypercycle; none while the sequencer executes nothing. -/
def calPos (s : State) (i : Image) : Option Nat :=
  if s.quenched Dom.calendar || s.cal.stop || (s.domain i.domain).state == .disabled || !s.datapathUp ||
      (s.cal.rephase && decide (s.cal.cycleEnd ≤ s.clk)) then none
  else if s.cal.rephase then some (i.hyper - (s.cal.cycleEnd - s.clk))
  else some (cyclePos (s.domNs i.domain) (imageBase i) i.hyper)

/-- Time passes until an offset of the hypercycle in progress: the state then, and by how many
ns the offset has passed. -/
def calReach (s : State) (i : Image) (off : Nat) : Option (State × Nat) :=
  match s.calPos i with
  | none => none
  | some p =>
    if off < p then some (s, p - off)
    else if s.cal.rephase then
      if s.cal.cycleEnd ≤ s.clk + (off - p) then none else some (s.waitUntil (s.clk + (off - p)), 0)
    else some (s.waitDom i.domain (s.domNs i.domain + (off - p)), 0)

/-- Whether the running image names a channel in EDGE_SLOTS. -/
def inSlots (s : State) (ch : Nat) : Bool := s.runningImage.any fun i => i.slots.any (·.ch == ch)

/-- Nanoseconds until the channel's next slot; none where no slot comes. -/
def slotDist (s : State) (ch : Nat) : Option Nat :=
  s.runningImage.bind fun i => (s.calPos i).bind fun p =>
    ((i.slots.filter (·.ch == ch)).map fun e => (e.off + i.hyper - p) % max 1 i.hyper).min?

/-- The images that are active, draining or pending (R348, R383). -/
def liveImages (s : State) : List Image :=
  s.runningImage.toList ++ s.drainingImage.toList ++
    (s.cal.handles.filterMap fun (h : Nat × Handle) =>
      if h.2.state == .active || h.2.state == .draining || h.2.state == .pending then h.2.img else none)

/-- Whether a live image names a channel (0 to 95) in EDGE_SLOTS. -/
def namesChannel (s : State) (ch : Nat) : Bool := s.liveImages.any fun i => i.slots.any (·.ch == ch)

/-- Whether a live image names a fabric port: it has a gate list or a guaranteed stream. -/
def namesPort (s : State) (p : Nat) : Bool :=
  s.liveImages.any fun i => i.gates.any (·.port == p) ||
    i.guarantees.any fun g => g.source == p || egressOf g p

/-! ### Received frames and their consumers (R322) -/

/-- A domain's time in ns at an earlier local instant, at the rate that it has now (R454). -/
def domAt (s : State) (i t : Nat) : Nat :=
  let d := s.domain i
  if d.state = .disabled then d.value / 2 ^ 32
  else (((d.value : Int) - domInc d * ((s.clk - t : Nat) : Int) / 2) / 2 ^ 32).toNat

/-- What the signal router keeps of a sequencer. -/
def seqOf (s : State) (q : Nat) : Sequencer := agetD s.sig.seqs q {}

def seqMod (s : State) (q : Nat) (f : Sequencer → Sequencer) : State :=
  s.setSig { s.sig with seqs := amod s.sig.seqs q {} f }

/-- Change one stored frame of a channel, and free it when nobody must take it any more. -/
def rxTake (s : State) (ch n : Nat) (f : RxItem → RxItem) : State :=
  let upd (l : List RxItem) : List RxItem :=
    (l.map fun x => if x.seq == n then f x else x).filter fun x => !(x.tunnels.isEmpty && x.router == 0)
  if ch < 64 then s.canMod ch fun c => { c with rx := upd c.rx }
  else s.linMod (ch - 64) fun c => { c with rx := upd c.rx }

/-- Sequencer `q` has taken a stored frame. -/
def rxTakeSeq (s : State) (ch n q : Nat) : State :=
  s.rxTake ch n fun x => { x with router := setBits x.router q 1 0 }

/-- An arrival at a sequencer (R366). -/
def sigArrive (s : State) (q : Nat) (a : Arrival) : State :=
  let free (s : State) : State := match a.item with
    | none => s
    | some n => s.rxTakeSeq a.channel n q
  if s.quenched Dom.services then free s
  else if s.rfld Reg.sigCtrl 0 1 = 0 ∨ 256 ≤ (s.seqOf q).arrivals.length then
    let s := (free s).bump Reg.sigQueueDropCnt
    let (s, t) := s.raiseLimited (s.seqOf q).dropEvAt 100000000 0x8103 q
    s.seqMod q fun x => { x with dropEvAt := t }
  else s.seqMod q fun x => { x with arrivals := x.arrivals ++ [a] }

/-- Stored frames no longer wait for a consumer that is disabled or quenched. -/
def rxPurge (s : State) : State :=
  let f (x : RxItem) : RxItem :=
    { x with tunnels := x.tunnels.filter s.encTakes, router := if s.quenched Dom.services then 0 else x.router }
  let upd (l : List RxItem) : List RxItem := (l.map f).filter fun x => !(x.tunnels.isEmpty && x.router == 0)
  s.setEdg { s.edg with
    can := s.edg.can.map fun (k, c) => (k, { c with rx := upd c.rx })
    lin := s.edg.lin.map fun (k, c) => (k, { c with rx := upd c.rx }) }

/-- Bytes that a frame occupies in a receive FIFO. -/
def rxSize1 (f : CanFrame) : Nat := 32 + ceilDiv f.data.length 16 * 16

/-- Hand a stored frame of a channel to its consumers: tunnel channels, and the sequencers
whose bit is set. -/
def rxDeliver (s : State) (ch kind : Nat) (f : CanFrame) (sof : Nat) (tunnels : List Nat) (router : Nat) : State :=
  let n := s.edg.rxSeq
  let live := if s.quenched Dom.services then 0 else router
  let x : RxItem :=
    { seq := n, frame := f, sof := sof, eof := s.clk, doms := (List.range 4).map fun d => s.domAt d sof, tunnels := tunnels.filter s.encTakes, router := live }
  let s := s.setEdg { s.edg with rxSeq := n + 1 }
  let s := if x.tunnels.isEmpty && live == 0 then s
    else if ch < 64 then s.canMod ch fun c => { c with rx := c.rx ++ [x] }
    else s.linMod (ch - 64) fun c => { c with rx := c.rx ++ [x] }
  let a : Arrival :=
    { kind := kind, channel := ch, tunnel := 0, id := f.id + (if f.ext then 2 ^ 31 else 0), data := f.data, item := some n }
  ((List.range 4).filter (bit live)).foldl (fun s q => s.sigArrive q a) s

/-! ### Transmit buffers (R324) -/

/-- A frame that its writer counts as lost: the FIFO was full, or a buffer was emptied. -/
def txLost (s : State) (l : List TxItem) : State :=
  s.setEdg { s.edg with lost := l.foldl (fun t x => amod t x.writer 0 (· + 1)) s.edg.lost }

/-- Whether a channel has a format enabled (R314). -/
def canFormatOn (c : CanCfg) (f : CanFormat) : Bool :=
  match f with
  | .classicData | .classicRemote => true
  | .fd => c.fdEn
  | .xl => c.xlEn

/-- Write a frame to a CAN channel: `target` 0 to 23 a buffer, otherwise the FIFO. A frame of a
format that the channel has not enabled cannot be sent (R314) and is lost to its writer. -/
def canWrite (s : State) (ch target : Nat) (x : TxItem) : State :=
  let c := s.canCh ch
  if !canFormatOn c.cfg x.frame.format then s.txLost [x]
  else if target < 24 then
    match aget c.bufs target with
    | none => s.canMod ch fun c => { c with bufs := aset c.bufs target x }
    | some y =>
      if y.begun then
        let s := if (aget c.held target).isSome then s.bump (Reg.edgCanTxReplaceCnt ch) else s
        s.canMod ch fun c => { c with held := aset c.held target x }
      else (s.bump (Reg.edgCanTxReplaceCnt ch)).canMod ch fun c => { c with bufs := aset c.bufs target x }
  else if 64 ≤ c.fifo.length then s.txLost [x]
  else s.canMod ch fun c => { c with fifo := c.fifo ++ [x] }

/-- Empty the buffers and the FIFO of a CAN channel. -/
def canFlush (s : State) (ch : Nat) : State :=
  s.canMod ch fun c => { c with bufs := [], held := [], fifo := [] }

/-! ### Error states (R329 to R332) -/

/-- The code of a state in `EDG_CAN_STATUS`. -/
def canCode : CanState → Nat
  | .stopped => 0
  | .errorActive => 1
  | .errorPassive => 2
  | .busOff => 3

/-- The error state that the counts of a controller that runs give. -/
def canOfCounts (tec rec : Nat) : CanState :=
  if 255 < tec then .busOff else if 128 ≤ tec || 128 ≤ rec then .errorPassive else .errorActive

/-- Put a channel into a state, and report the change. -/
def canEnter (s : State) (ch : Nat) (st : CanState) : State :=
  let c := s.canCh ch
  if c.state = st then s
  else
    let s := s.canMod ch fun c => { c with state := st, recovering := false }
    let s := if st = .busOff then
        let n := c.offsInRow + 1
        (s.bump (Reg.edgCanBusOffCnt ch)).canMod ch fun c => { c with
          offsInRow := n, busOffAt := s.clk, latched := c.cfg.recoverLimit != 0 && decide (c.cfg.recoverLimit ≤ n) }
      else s
    let (s, t) := s.raiseLimited c.stateEvAt 100000000 0x7001
      (ch + 256 * canCode st + 1024 * b2n (s.canCh ch).latched)
    s.canMod ch fun c => { c with stateEvAt := t }

/-- Set the error counts of a channel that runs. -/
def canCounts (s : State) (ch tec rec : Nat) : State :=
  (s.canMod ch fun c => { c with tec := tec, rec_ := min 128 rec }).canEnter ch (canOfCounts tec rec)

/-- Whether a channel's error counts stand still (R330). -/
def canFrozen (c : CanCh) : Bool := c.pn || c.mode == .listenOnly || c.pex

/-- Whether a channel hears the bus: it runs and is in no protocol exception. -/
def canHears (s : State) (ch : Nat) : Bool :=
  let c := s.canCh ch
  ch < 64 && s.busUp ch && (c.state == .errorActive || c.state == .errorPassive) && !c.pex

/-- A channel detects an error (R329, R330). -/
def canError (s : State) (ch code : Nat) (transmitting eight : Bool) : State :=
  let c := s.canCh ch
  if c.pn then s.bump (Reg.edgCanPnIgnoredCnt ch)
  else
    let s := (s.bump (Reg.edgCanBusErrCnt ch)).canMod ch fun c => { c with lec := code }
    if canFrozen c then s
    else if transmitting then s.canCounts ch (c.tec + if eight then 8 else 0) c.rec_
    else s.canCounts ch c.tec (c.rec_ + if eight then 8 else 1)

/-- A frame was received whole: the receive error count falls as ISO 11898-1 has it. From 128
it becomes some value of 119 to 127, which is a free one (log entry 1). -/
def canHeard (s : State) (ch : Nat) : State :=
  let c := s.canCh ch
  if canFrozen c then s
  else if 128 ≤ c.rec_ then s.free.2.canCounts ch c.tec (119 + s.free.1 % 9)
  else s.canCounts ch c.tec (c.rec_ - 1)

/-- Recovery from bus-off starts. -/
def canRecover (s : State) (ch : Nat) : State := s.canMod ch fun c => { c with recovering := true }

/-! ### Transceiver modes (R333, R334) -/

/-- A mode from its code. -/
def xcvrOf (m : Nat) : XcvrMode :=
  if m = 0 then .normal else if m = 1 then .listenOnly else if m = 2 then .standby else .sleep

def xcvrCode : XcvrMode → Nat
  | .normal => 0
  | .listenOnly => 1
  | .standby => 2
  | .sleep => 3

/-- Whether STB_N is high, and the controller may run, in a mode. -/
def stbOf (m : XcvrMode) : Bool := m == .normal || m == .listenOnly

/-- The state of a channel's controller in a mode and a configuration. -/
def canRuns (s : State) (ch : Nat) : State :=
  let c := s.canCh ch
  if !(c.cfg.enable && stbOf c.mode) then s.canEnter ch .stopped
  else if c.state = .stopped then s.canEnter ch (canOfCounts c.tec c.rec_)
  else s

/-- A CAN channel takes a mode: STB_N, the settle time after its rise, PN state, and the
controller. -/
def canMode (s : State) (ch : Nat) (m : XcvrMode) (pn : Bool) : State :=
  let c := s.canCh ch
  let s := s.setEdg { s.edg with asked := aset s.edg.asked ch (m, pn) }
  let m := s.heldMode ch m
  let settle := stbOf m && !c.stbHigh && 0 < c.cfg.settle
  (s.canMod ch fun c => { c with
    mode := m, pn := pn && m == .normal, newMode := none, stbHigh := stbOf m
    settleAt := if settle then some (s.clk + 1000 * c.cfg.settle) else if stbOf m then c.settleAt else none }).canRuns ch

/-- A LIN channel takes a mode. -/
def linMode (s : State) (l : Nat) (m : XcvrMode) : State :=
  let s := s.setEdg { s.edg with asked := aset s.edg.asked (64 + l) (m, false) }
  let m := s.heldMode (64 + l) m
  s.linMod l fun c => { c with
    mode := m, newMode := none, operational := c.cfg.enable && stbOf m,
    current := if stbOf m then c.current else none }

/-- Whether a channel has taken its mode and its settle time has passed. -/
def settled (s : State) (ch : Nat) : Bool :=
  if ch < 64 then (s.canCh ch).newMode.isNone && (s.canCh ch).settleAt.isNone
  else (s.linCh (ch - 64)).newMode.isNone

/-- The channels that an `EDG_XCVR_MODE` names. -/
def xcvrNamed (c : Cmd) : List Nat :=
  (List.range 64).filter (bit (c.u 8 8)) ++ ((List.range 32).filter (bit (c.u 16 4))).map (· + 64)

/-- `EDG_XCVR_MODE` commands complete when every channel they name has settled. -/
def xcvrDone (s : State) : State :=
  ((s.mbx.cmds.filter fun c => c.accepted && c.opcode == 0x0503 && c.phase == .running &&
    (xcvrNamed c).all s.settled).map (·.index)).foldl (fun s i => s.finishCmd i St.ok 0 []) s

/-! ### The state of an M port (R345) -/

/-- Whether an M port is up. -/
def t1sUp (s : State) (m : Nat) : Bool :=
  let t := s.t1sCh m
  s.datapathUp && s.edgeEn && !s.quenched Dom.edge && t.cfg.enable && (!t.cfg.plcaEn || t.plcaOk || t.cfg.nodeId == 0)

/-- The link of every M port that has been configured follows its state. -/
def t1sSync (s : State) : State :=
  (s.edg.t1s.map (·.1)).foldl (fun s m =>
    if s.t1sUp m then s.doPortLinkUp (48 + m) 0 else s.doPortLinkDown (48 + m)) s

end State

end Sys2Proof.Machine
end

