-- ==== Sys2Proof/Machine/EdgeCan.lean ====
section
/-! DEFINITION.
The CAN channels: reception and acceptance filters (R319 to R323), transmission and edge
slots (R324 to R328, R168), errors and bus-off (R329 to R332), their commands (R346 to R348),
and the transceiver modes of every edge channel (R334). -/

namespace Sys2Proof.Machine

namespace State

/-! ### Reception -/

/-- A format's bit in FORMATS of a filter. -/
def formatBit : CanFormat → Nat
  | .classicData => 0
  | .classicRemote => 1
  | .fd => 2
  | .xl => 3

/-- Whether two values agree in the bits of a mask. -/
def maskEq (a b m : Nat) : Bool := a &&& m == b &&& m

/-- Whether a filter is valid and all its fields match a frame (R321). -/
def filterHits (x : CanFilter) (f : CanFrame) : Bool :=
  let u (o n : Nat) : Nat := le x o n
  bit (u 0 1) 0 && bit (u 1 1) (formatBit f.format) && bit (u 0 1) 2 == f.ext &&
    maskEq f.id (u 4 4) (u 8 4 % 2 ^ 29) &&
    (f.format != .xl || (maskEq f.sdt (u 12 1) (u 13 1) && maskEq f.vcid (u 14 1) (u 15 1) &&
      maskEq f.af (u 16 4) (u 20 4)))

/-- Store a frame that a filter accepts (R322). -/
def canStore (s : State) (ch : Nat) (x : CanFilter) (f : CanFrame) (ago : Nat) : State :=
  let c := s.canCh ch
  if 16384 < (c.rx.map fun y => rxSize1 y.frame).sum + rxSize1 f then
    let s := s.bump (Reg.edgCanRxDropCnt ch)
    let (s, t) := s.raiseLimited c.dropEvAt 100000000 0x7002 ch
    s.canMod ch fun c => { c with dropEvAt := t }
  else
    let s := s.bump (Reg.edgCanRxOkCnt ch)
    let t := le x 24 2
    s.rxDeliver ch 0 f (s.clk - ago - 25 - c.cfg.rxDelay) (if t = 0xFFFF then [] else [t]) (le x 26 1 % 16)

/-- An error is detected; a channel that it puts into bus-off takes a mode ordered for it
(R334). -/
def canFault (s : State) (ch code : Nat) (transmitting eight : Bool) : State :=
  let s := s.canError ch code transmitting eight
  match (s.canCh ch).newMode with
  | none => s
  | some (m, pn) => if (s.canCh ch).state = .busOff then (s.canMode ch m pn).xcvrDone else s

/-- `CAN_FRAME_RECEIVED`: a frame has become valid for receivers, `ago` ns after the edge of
its SOF. -/
def doCanFrameReceived (s : State) (ch : Nat) (f : CanFrame) (ago : Nat) : State :=
  let c := s.canCh ch
  if !s.canHears ch then s
  else if !canFormatOn c.cfg f.format then
    if c.cfg.pexEn then s.canMod ch fun c => { c with pex := true }
    else s.canFault ch 2 false false
  else
    let s := s.canHeard ch
    let big := f.format == .xl && decide (c.cfg.xlLimit < f.data.length)
    let oversize (s : State) : State := s.bump (Reg.edgCanRxOversizeCnt ch)
    if big && !c.pn then oversize s
    else match c.cfg.filters.find? fun x => filterHits x f with
    | none => s
    | some x =>
      let fl := le x 0 1
      if bit fl 1 || (c.pn && !bit fl 3) then s
      else
        let s := if c.pn then s.canMod ch fun c => { c with pn := false } else s
        if big then oversize s else s.canStore ch x f ago

/-- `PROTOCOL_EXCEPTION_END`: the channel has integrated to bus idle, and then counts the
exception (R315). -/
def doProtocolExceptionEnd (s : State) (ch : Nat) : State :=
  if ch < 64 ∧ (s.canCh ch).pex then (s.canMod ch fun c => { c with pex := false }).bump (Reg.edgCanPexCnt ch) else s

/-- `CAN_BUS_ERROR` -/
def doCanBusError (s : State) (ch code : Nat) (transmitting eight : Bool) : State :=
  if s.canHears ch ∧ 1 ≤ code ∧ code ≤ 7 then s.canFault ch code transmitting eight else s

/-! ### Transmission -/

/-- Protocol clock cycles of one bit of a phase (R316). -/
def bitCycles (t : Word) : Nat := bits t.toNat 0 8 * (1 + bits t.toNat 8 8 + bits t.toNat 16 8)

/-- Longest duration of a frame in ns, with worst-case stuffing and intermission (R328). The
bit counts are those of ISO 11898-1 (log entry 20). -/
def canLongest (c : CanCfg) (f : CanFrame) : Nat :=
  let n := bitCycles c.nbt
  let len := 8 * f.data.length
  let cycles :=
    match f.format with
    | .classicRemote | .classicData =>
      let g := if f.ext then 54 else 34
      (g + len + 13 + (g + len - 1) / 4) * n
    | .fd =>
      let a := if f.ext then 36 else 17
      let d := 5 + len
      let crc := if f.data.length ≤ 16 then 27 else 32
      (a + (a - 1) / 4 + 13) * n + (d + (a + d - 1) / 4 - (a - 1) / 4 + crc) * (if f.brs then bitCycles c.dbt else n)
    | .xl =>
      let d := 108 + len
      (17 + 4 + 1 + 4 + 12) * n + (3 + d + ceilDiv d 10 + 4) * bitCycles c.xbt
  ceilDiv (cycles * 25) 2

/-- What decides arbitration: the lower value wins. -/
def arbKey (f : CanFrame) : Nat :=
  if f.ext then
    2 ^ 22 * (f.id / 2 ^ 18) + 2 ^ 21 + 2 ^ 20 + f.id % 2 ^ 18 * 4 + b2n (f.format == .classicRemote) * 2 +
      b2n (f.format == .fd)
  else
    2 ^ 22 * f.id + 2 ^ 21 * b2n (f.format == .classicRemote || (f.format == .xl && f.rrs)) +
      2 ^ 19 * b2n (f.format == .fd || f.format == .xl) + 2 ^ 18 * b2n (f.format == .xl)

/-- Where an offered frame comes from: a slot, a buffer, or the FIFO. -/
inductive TxFrom where
  | slot (o : OpenSlot)
  | buffer (b : Nat)
  | fifo
  deriving DecidableEq, Repr

/-- Whether a channel may drive the bus. -/
def canDrives (s : State) (ch : Nat) : Bool :=
  let c := s.canCh ch
  s.canHears ch && c.mode == .normal && !c.pn && c.settleAt.isNone && !s.busQuiet

/-- The frame that an open slot offers. -/
def slotFrame (s : State) (o : OpenSlot) : Option TxItem :=
  if o.done || decide (o.ends < s.clk) then none
  else if o.kind = 1 then o.frame.filter fun x => canFormatOn (s.canCh o.ch).cfg x.frame.format
  else aget (s.canCh o.ch).bufs o.index

/-- The contenders of a channel apart from its slots, each with where it comes from; buffers in
rising order, the FIFO last (R325, R326, R328). -/
def contenders (s : State) (ch : Nat) : List (TxFrom × TxItem) :=
  let c := s.canCh ch
  let own (b : Nat) : Bool := s.runningImage.any fun i => i.slots.any fun e => e.ch == ch && e.kind == 0 && e.index == b
  let fits (x : TxItem) : Bool := match s.slotDist ch with
    | none => true
    | some d => decide (canLongest c.cfg x.frame < d)
  let bufs := (c.bufs.filter fun x => !own x.1).map fun x => (TxFrom.buffer x.1, x.2)
  (bufs ++ c.fifo.head?.toList.map fun x => (TxFrom.fifo, x)).filter fun x => fits x.2

/-- The contender that would win arbitration; between equal ones the earlier. -/
def arbWinner : List (TxFrom × TxItem) → Option (TxFrom × TxItem)
  | [] => none
  | x :: r =>
    match arbWinner r with
    | none => some x
    | some y => if arbKey y.2.frame < arbKey x.2.frame then some y else some x

/-- What a channel offers at bus idle. -/
def canOffer (s : State) (ch : Nat) : Option (TxFrom × TxItem) :=
  if !s.canDrives ch then none
  else
    let slots := s.cal.openSlots.filter fun o => o.ch == ch
    match slots.findSome? fun o => (s.slotFrame o).map fun x => (TxFrom.slot o, x) with
    | some x => some x
    | none => arbWinner (s.contenders ch)

/-- The place an offered frame is kept in. -/
def TxFrom.place : TxFrom → TxFrom
  | .slot o => if o.kind = 1 then .slot o else .buffer o.index
  | x => x

/-- Whether two open slots are the same slot of the same image. -/
def sameSlot (a b : OpenSlot) : Bool := a.slot == b.slot && a.image == b.image

/-- Change an open slot. -/
def slotMod (s : State) (x : OpenSlot) (f : OpenSlot → OpenSlot) : State :=
  s.setCal { s.cal with openSlots := s.cal.openSlots.map fun o => if sameSlot o x then f o else o }

/-- A frame leaves its place; the next content held for its buffer moves in. -/
def txRemove (s : State) (ch : Nat) (p : TxFrom) : State :=
  match p with
  | .slot o => s.slotMod o fun o => { o with frame := none }
  | .fifo => s.canMod ch fun c => { c with fifo := c.fifo.tail }
  | .buffer b => s.canMod ch fun c => { c with
      bufs := match aget c.held b with
        | none => adel c.bufs b
        | some x => aset c.bufs b x
      held := adel c.held b }

/-- A frame is marked as begun. -/
def txBegun (s : State) (ch : Nat) (p : TxFrom) : State :=
  match p with
  | .slot _ => s
  | .fifo => s
  | .buffer b => s.canMod ch fun c => { c with
      bufs := c.bufs.map fun x => if x.1 == b then (x.1, { x.2 with begun := true }) else x }

/-- A frame sent with transmitter delay compensation has its loop delay measured (R317): a free
value (log entry 1). -/
def tdcMeasure (s : State) (ch : Nat) (f : CanFrame) : State :=
  let t := (s.canCh ch).cfg.tdc.toNat
  if f.format == .fd && bit t 8 then s.free.2.canMod ch fun c => { c with tdcFd := s.free.1 % 256 }
  else if f.format == .xl && bit t 24 then s.free.2.canMod ch fun c => { c with tdcXl := s.free.1 % 256 }
  else s

/-- `CAN_TX_ATTEMPT`: at bus idle the channel offers a frame, and this is how it went. -/
def doCanTxAttempt (s : State) (ch : Nat) (r : CanTxResult) : State :=
  match s.canOffer ch with
  | none => s
  | some (src, x) =>
    let mark (s : State) (done : Bool) : State := match src with
      | .slot o => s.slotMod o fun o => { o with begun := true, done := done }
      | _ => s
    match r with
    | .arbLost => s.bump (Reg.edgCanArbLostCnt ch)
    | .sent =>
      let s := ((mark s true).bump (Reg.edgCanTxOkCnt ch)).emit (.can ch x.frame)
      let s := ((s.txRemove ch (TxFrom.place src)).canMod ch fun c => { c with offsInRow := 0 }).tdcMeasure ch x.frame
      let c := s.canCh ch
      s.canCounts ch (c.tec - 1) c.rec_
    | .error code eight =>
      let s := mark s false
      let s := if x.single then s.txRemove ch (TxFrom.place src) else s.txBegun ch (TxFrom.place src)
      s.canFault ch code true eight

/-! ### Bus-off -/

/-- `BUS_OFF_RECOVER_DELAY` -/
def doBusOffRecoverDelay (s : State) (ch : Nat) : State :=
  let c := s.canCh ch
  if ch < 64 ∧ s.busUp ch ∧ c.state = .busOff ∧ c.cfg.autoRecover ∧ !c.latched ∧ !c.recovering then
    (s.waitUntil (c.busOffAt + 1000000 * c.cfg.recoverMs)).canRecover ch
  else s

/-- `BUS_OFF_RECOVERY_DONE` -/
def doBusOffRecoveryDone (s : State) (ch : Nat) : State :=
  let c := s.canCh ch
  if ch < 64 ∧ s.busUp ch ∧ c.state = .busOff ∧ c.recovering then s.canCounts ch 0 0 else s

/-! ### Edge slots -/

/-- The frame that a template held for its slots is sent as. -/
def tplFrame (t : Template) (b : List Byte) : TxItem :=
  { frame :=
      { format := if bit t.flags 1 then .fd else .classicData, ext := bit t.flags 3, id := t.id % 2 ^ 29,
        brs := bit t.flags 1 && bit t.flags 2, esi := false, sdt := 0, sec := false, rrs := false, vcid := 0,
        af := 0, data := b, dlc := b.length }
    single := bit t.flags 4, writer := 1 }

/-- A slot takes the frame that the router holds for a template (R375). -/
def takeHeld (s : State) (n : Nat) : Option TxItem × State :=
  match aget s.sig.tpls n with
  | none => (none, s)
  | some t =>
    match t.heldFrame with
    | none => (none, s)
    | some b =>
      if t.heldTaken && !bit t.flags 0 then (none, s)
      else (some (tplFrame t b), s.setSig { s.sig with tpls := aset s.sig.tpls n { t with heldTaken := true } })

/-- A LIN header of a frame entry starts, and the response that the channel publishes. -/
def linHeader (s : State) (l n : Nat) : State :=
  let c := s.linCh l
  match c.cfg.entries[n]? with
  | none => s
  | some e =>
    let s := (s.emit (.linHeader l e.id)).linMod l fun c => { c with
      current := if e.dir = 0 then none else some n, breakAt := s.clk, rate := c.cfg.rate }
    if e.dir = 1 then s.emit (.linResponse l (fit e.length e.data)) else s

/-- A calendar slot of a LIN channel sends its header, once no response is awaited (R342). -/
def linSlotStart (s : State) (l : Nat) : State :=
  let c := s.linCh l
  if !(s.busUp (64 + l) && c.operational && c.cfg.commander && c.mode == .normal && c.current.isNone && !s.busQuiet) then s
  else match s.cal.openSlots.find? fun o => o.ch == 64 + l && !o.begun && decide (s.clk ≤ o.ends) with
  | none => s
  | some o =>
    let begin_ (s : State) (n : Nat) : State :=
      (s.slotMod o fun o => { o with begun := true, done := true }).linHeader l n
    if o.kind = 0 then begin_ s o.index
    else match o.frame with
    | none => s
    | some x =>
      let put (e : LinEntry) : LinEntry := { e with data := x.frame.data, changed := true }
      begin_ (s.linMod l fun c => { c with cfg := { c.cfg with entries := c.cfg.entries.modify x.frame.id put } }) x.frame.id

/-- `EDGE_SLOT_OPEN`: a slot of the running image begins. -/
def doEdgeSlotOpen (s : State) (n : Nat) : State :=
  match s.runningImage.bind fun i => (i.slots[n]?).map fun e => (i, e) with
  | none => s
  | some (i, e) =>
    match s.calReach i e.off with
    | none => s
    | some (s, late) =>
      if e.window < late then s
      else
        let (x, s) := if e.kind = 1 then s.takeHeld e.index else (none, s)
        let o : OpenSlot :=
          { slot := n, image := i.id, ch := e.ch, kind := e.kind, index := e.index, ends := s.clk + (e.window - late), frame := x,
            begun := false, done := false }
        let s := s.setCal { s.cal with openSlots := s.cal.openSlots.filter (fun y => !sameSlot y o) ++ [o] }
        if 64 ≤ e.ch then s.linSlotStart (e.ch - 64) else s

/-- `EDGE_SLOT_END`: a slot ends, the earlier image's first where two images have it open (R161,
R168, R327). `idle`: the bus was idle at a moment of the
window while the channel was error-active. -/
def doEdgeSlotEnd (s : State) (n : Nat) (idle : Bool) : State :=
  match s.cal.openSlots.find? fun o => o.slot == n with
  | none => s
  | some o =>
    let s := s.waitUntil o.ends
    let nothing := !o.begun && (if o.kind = 1 then o.frame.isNone
      else decide (o.ch < 64) && (aget (s.canCh o.ch).bufs o.index).isNone)
    let s := s.setCal { s.cal with openSlots := s.cal.openSlots.filter fun y => !sameSlot y o }
    if o.done || nothing then s
    else if o.begun then
      let s := s.bump (Reg.edgCanSlotAbandonCnt o.ch)
      if o.kind = 0 && ((aget (s.canCh o.ch).bufs o.index).any (·.begun)) then s.txRemove o.ch (.buffer o.index) else s
    else if s.strikerNow && s.sharedCh o.ch then s
    else if idle then
      s.free.2.breach o.image 0xFFFF 4 o.ch s.free.1 (some (busUnit o.ch))
    else s.bump Reg.calEdgeMissCnt

/-! ### `EDG_CAN_CONFIG` -/

/-- Whether a phase's timing lies in a row of R316; rates in cycles per bit. -/
def timingOk (t : Word) (tseg1Lo tseg1Hi tseg2Hi fastest slowest : Nat) : Bool :=
  let brp := bits t.toNat 0 8
  let t1 := bits t.toNat 8 8
  let t2 := bits t.toNat 16 8
  let sjw := bits t.toNat 24 8
  1 ≤ brp && brp ≤ 32 && tseg1Lo ≤ t1 && t1 ≤ tseg1Hi && 1 ≤ t2 && t2 ≤ tseg2Hi && 1 ≤ sjw && sjw ≤ t2 &&
    fastest ≤ bitCycles t && bitCycles t ≤ slowest

/-- The timings of a configuration (R316, R317). A data phase whose format is not enabled may be
left unconfigured, as zero. -/
def canTiming (c : CanCfg) : Bool :=
  let nominal := timingOk c.nbt 2 255 128 80 8000
  let phase (t : Word) (en : Bool) (fastest tdc : Nat) : Bool :=
    (!en && t == 0) || (timingOk t 1 63 32 fastest (bitCycles c.nbt) && (!bit c.tdc.toNat tdc || bits t.toNat 0 8 ≤ 2))
  nominal && phase c.dbt c.fdEn 10 8 && phase c.xbt false 4 24

/-- The formats of a configuration (R348). -/
def canFormats (c : CanCfg) : Bool :=
  (!c.xlEn || (c.xbt != 0 && c.xlLimit % 64 == 0 && 64 ≤ c.xlLimit && c.xlLimit ≤ 2048 && c.fdEn)) && (!c.xlTms || c.xlEn)

/-- The PWM phases that XL_TMS needs (R318). -/
def canPwm (c : CanCfg) : Bool :=
  let ok (lo : Nat) : Bool := 1 ≤ bits c.pwm.toNat lo 6
  !c.xlTms || (ok 0 && ok 8 && ok 16)

/-- The configuration of an `EDG_CAN_CONFIG`. -/
def canCfgOf (c : Cmd) (dma : List Byte) : CanCfg :=
  let w (o m : Nat) : Word := BitVec.ofNat 32 (c.u o 4 &&& m)
  { enable := bit (c.u 1 1) 0, fdEn := bit (c.u 1 1) 1, xlEn := bit (c.u 1 1) 2, pexEn := bit (c.u 1 1) 3,
    xlTms := bit (c.u 1 1) 4, autoRecover := bit (c.u 1 1) 5, xlLimit := c.u 2 2,
    nbt := w 4 0xFFFFFFFF, dbt := w 8 0xFFFFFFFF, xbt := w 12 0xFFFFFFFF, tdc := w 16 0x01FF01FF,
    pwm := w 20 0x003F3F3F, recoverMs := c.u 24 2, recoverLimit := c.u 26 1, rxDelay := c.u 28 2,
    settle := c.u 30 2, filters := (List.range (c.u 27 1)).map fun i => fit 32 (dma.drop (32 * i)) }

/-- The partial networks requested (R470). -/
def pnRequested (s : State) : Nat :=
  let fresh (r : NodeRec) : Bool := r.pni && decide (s.clk ≤ r.last + 1000000 * s.nm.readyMs) && r.node != 0xFFFF
  (s.nm.records.filter fresh).foldl (fun m r => m ||| r.pn) s.nm.localPn

/-- Whether the channels' PN state follows the requests. -/
def pnActive (s : State) : Bool := s.nm.state == .repeat_ || s.nm.state == .normal || s.nm.state == .readySleep

/-- Whether a channel that comes into use belongs to partial networks of which none is
requested. -/
def pnIdle (s : State) (ch : Nat) : Bool :=
  let mask := s.nm.pnMask.getD ch 0
  s.pnActive && mask != 0 && mask &&& s.pnRequested == 0 && (aget s.nm.pnLast ch).isNone

/-- A configuration takes effect on a CAN channel (R347, R470). -/
def canApply (s : State) (ch : Nat) (x : CanCfg) : State :=
  let c := s.canCh ch
  let s := s.txLost (c.bufs.map (·.2) ++ c.held.map (·.2) ++ c.fifo)
  let s := (s.canFlush ch).canMod ch fun c => { c with
    cfg := x, newCfg := none, tec := 0, rec_ := 0, recovering := false, latched := false, offsInRow := 0, pex := false }
  let s := if x.enable then s.canEnter ch (if stbOf c.mode then .errorActive else .stopped) else s.canEnter ch .stopped
  let s := if x.enable && stbOf c.mode && !c.stbHigh then s.canMode ch c.mode c.pn else s
  if x.enable && s.pnIdle ch then s.canMode ch .normal true else s

/-- What an edge command of a channel needs. -/
def Exec.edge (s : State) (unit : Nat) (rest : Exec) : Exec := Exec.datapath s <| Exec.need s [unit] rest

/-- `EDG_CAN_CONFIG` -/
def edgCanConfig (dma : List Byte) (c : Cmd) (s : State) : Exec :=
  let ch := c.u 0 1
  let x := canCfgOf c dma
  let old := ((s.canCh ch).newCfg).getD (s.canCh ch).cfg
  let keeps := x.enable && x.nbt == old.nbt && x.dbt == old.dbt && x.xbt == old.xbt
  Exec.edge s (if ch < 64 then busUnit ch else Dom.edge) <|
  Exec.check (ch < 64 && x.recoverMs ≤ 10000 && c.u 27 1 ≤ 64 && x.rxDelay ≤ 1000 && x.settle ≤ 1000 &&
    c.u 32 8 % 8 == 0 && canPwm x) s St.badParam <|
  Exec.check (canTiming x) s 0x0501 <|
  Exec.check (canFormats x) s 0x0502 <|
  Exec.check (!s.namesChannel ch || !old.enable || keeps) s 0x0503 <|
  let s := (((s.rset (Reg.edgCanNbt ch) x.nbt).rset (Reg.edgCanDbt ch) x.dbt).rset (Reg.edgCanXbt ch) x.xbt)
  let s := (s.rset (Reg.edgCanTdc ch) x.tdc).rset (Reg.edgCanPwm ch) x.pwm
  .done (if (s.canCh ch).state = .stopped ∨ !s.edgeEn then s.canApply ch x
    else s.canMod ch fun c => { c with newCfg := some x }) St.ok 0 []

/-! ### `EDG_XCVR_MODE` and `EDG_BUS_OFF_RECOVER` -/

/-- A mode is ordered on a channel: taken at once when it is stopped or in bus-off, and
otherwise at bus idle, `within` ns at the latest. -/
def xcvrOrder (s : State) (ch : Nat) (m : XcvrMode) (pn : Bool) (within : Nat) : State :=
  if ch < 64 then
    let c := s.canCh ch
    if c.state = .stopped ∨ c.state = .busOff ∨ !s.edgeEn then s.canMode ch m pn
    else s.canMod ch fun c => { c with newMode := some (m, pn), modeBy := s.clk + within }
  else if !(s.linCh (ch - 64)).operational || !s.edgeEn then s.linMode (ch - 64) m
  else s.linMod (ch - 64) fun c => { c with newMode := some m, modeBy := s.clk + within }

/-- The shared channels are ordered into the modes that this device's role gives them (R494,
R506, R510). -/
def roleModes (s : State) : State :=
  let order (s : State) (ch : Nat) (m : XcvrMode) (pn : Bool) : State :=
    let a := agetD s.edg.asked ch (m, pn)
    if s.heldMode ch a.1 = m then s else s.xcvrOrder ch a.1 a.2 100000000
  let s := ((List.range 64).filter fun ch => s.sharedCh ch && (s.canCh ch).cfg.enable).foldl (fun s ch =>
    order s ch (s.canCh ch).mode (s.canCh ch).pn) s
  ((List.range 32).filter fun l => s.sharedCh (64 + l) && (s.linCh l).cfg.enable).foldl (fun s l =>
    order s (64 + l) (s.linCh l).mode false) s

/-- Whether a channel is enabled. -/
def chEnabled (s : State) (ch : Nat) : Bool :=
  if ch < 64 then (s.canCh ch).cfg.enable else (s.linCh (ch - 64)).cfg.enable

/-- The mode of a channel's transceiver. -/
def chMode (s : State) (ch : Nat) : XcvrMode × Bool :=
  if ch < 64 then ((s.canCh ch).mode, (s.canCh ch).pn) else ((s.linCh (ch - 64)).mode, false)

/-- An `EDG_XCVR_MODE` that is cut off has no effect (R106): its orders are dropped, and a channel
that had taken its mode goes back to the one it had. -/
def xcvrUndo (s : State) (c : Cmd) : State :=
  (xcvrNamed c).foldl (fun s ch =>
    let (m, pn) := agetD s.edg.before ch (s.chMode ch)
    let s := if ch < 64 then s.canMod ch fun x => { x with newMode := none }
      else s.linMod (ch - 64) fun x => { x with newMode := none }
    if s.chMode ch = (m, pn) then s else if ch < 64 then s.canMode ch m pn else s.linMode (ch - 64) m) s

/-- `EDG_XCVR_MODE` -/
def edgXcvrMode (c : Cmd) (s : State) : Exec :=
  let m := c.u 0 1
  let pn := bit (c.u 1 1) 0
  let named := xcvrNamed c
  Exec.edge s Dom.edge <|
  Exec.need s (named.map busUnit) <|
  Exec.check (m ≤ 3) s St.badParam <|
  Exec.check (named.all s.chEnabled && (!pn || (m == 0 && c.u 16 4 == 0))) s 0x0507 <|
  let had (s : State) (ch : Nat) : State := s.setEdg { s.edg with before := aset s.edg.before ch (s.chMode ch) }
  let s := named.foldl (fun s ch => (had s ch).xcvrOrder ch (xcvrOf m) pn 100000000) s
  if named.all s.settled then .done s St.ok 0 [] else .run s 0

/-- `EDG_BUS_OFF_RECOVER` -/
def edgBusOffRecover (c : Cmd) (s : State) : Exec :=
  let ch := c.u 0 1
  Exec.edge s (if ch < 64 then busUnit ch else Dom.edge) <|
  Exec.check (ch < 64) s St.badParam <|
  Exec.check ((s.canCh ch).state == .busOff) s 0x0504 <|
  let s := if bit (c.u 1 1) 0 then s.canFlush ch else s
  .done ((s.canMod ch fun c => { c with latched := false }).canRecover ch) St.ok 0 []

/-- `XCVR_MODE_APPLY`: bus idle, and a mode that was ordered is taken. -/
def doXcvrModeApply (s : State) (ch : Nat) : State :=
  if ch < 64 then
    match (s.canCh ch).newMode with
    | none => s
    | some (m, pn) => if s.quenched (busUnit ch) then s else (s.canMode ch m pn).xcvrDone
  else
    match (s.linCh (ch - 64)).newMode with
    | none => s
    | some m => if s.quenched (busUnit ch) then s else (s.linMode (ch - 64) m).xcvrDone

/-- `XCVR_MODE_FORCED`: no bus idle came within 100 ms; a frame in progress is lost. -/
def doXcvrModeForced (s : State) (ch : Nat) : State :=
  if ch < 64 then
    match (s.canCh ch).newMode with
    | none => s
    | some (m, pn) =>
      if s.quenched (busUnit ch) then s
      else (((s.waitUntil (s.canCh ch).modeBy).canMode ch m pn).raise 0x7003 ch).xcvrDone
  else
    match (s.linCh (ch - 64)).newMode with
    | none => s
    | some m =>
      if s.quenched (busUnit ch) then s
      else
        let s := (s.waitUntil (s.linCh (ch - 64)).modeBy).linMode (ch - 64) m
        ((s.linMod (ch - 64) fun c => { c with current := none }).raise 0x7003 ch).xcvrDone

/-- `XCVR_SETTLE_END` -/
def doXcvrSettleEnd (s : State) (ch : Nat) : State :=
  match (s.canCh ch).settleAt with
  | none => s
  | some t => ((s.waitUntil t).canMod ch fun c => { c with settleAt := none }).xcvrDone

end State

/-! ### Meanings -/

/-- `CAN_FRAME_RECEIVED` -/
def execCanFrameReceived (ch : Nat) (f : CanFrame) (ago : Nat) (s : State) : Host.Outcome State Fault Refusal :=
  .next (s.doCanFrameReceived ch f ago)

/-- `CAN_TX_ATTEMPT` -/
def execCanTxAttempt (ch : Nat) (r : CanTxResult) (s : State) : Host.Outcome State Fault Refusal :=
  .next (s.doCanTxAttempt ch r)

/-- `CAN_BUS_ERROR` -/
def execCanBusError (ch code : Nat) (transmitting eight : Bool) (s : State) : Host.Outcome State Fault Refusal :=
  .next (s.doCanBusError ch code transmitting eight)

/-- `BUS_OFF_RECOVER_DELAY` -/
def execBusOffRecoverDelay (ch : Nat) (s : State) : Host.Outcome State Fault Refusal := .next (s.doBusOffRecoverDelay ch)

/-- `BUS_OFF_RECOVERY_DONE` -/
def execBusOffRecoveryDone (ch : Nat) (s : State) : Host.Outcome State Fault Refusal := .next (s.doBusOffRecoveryDone ch)

/-- `EDG_CAN_CONFIG` -/
def execEdgCanConfig (host queue : Nat) (dma : List Byte) (s : State) : Host.Outcome State Fault Refusal :=
  .next (s.runDma host queue 0x0500 (fun c => c.u 32 8) (fun c => 32 * c.u 27 1) (State.edgCanConfig dma))

/-- `EDG_XCVR_MODE` -/
def execEdgXcvrMode (host queue : Nat) (s : State) : Host.Outcome State Fault Refusal :=
  .next (s.runCmd host queue 0x0503 State.edgXcvrMode)

/-- `EDG_BUS_OFF_RECOVER` -/
def execEdgBusOffRecover (host queue : Nat) (s : State) : Host.Outcome State Fault Refusal :=
  .next (s.runCmd host queue 0x0504 State.edgBusOffRecover)

/-- `XCVR_MODE_APPLY` -/
def execXcvrModeApply (ch : Nat) (s : State) : Host.Outcome State Fault Refusal := .next (s.doXcvrModeApply ch)

/-- `XCVR_MODE_FORCED` -/
def execXcvrModeForced (ch : Nat) (s : State) : Host.Outcome State Fault Refusal := .next (s.doXcvrModeForced ch)

/-- `XCVR_SETTLE_END` -/
def execXcvrSettleEnd (ch : Nat) (s : State) : Host.Outcome State Fault Refusal := .next (s.doXcvrSettleEnd ch)

/-- `EDGE_SLOT_OPEN` -/
def execEdgeSlotOpen (slot : Nat) (s : State) : Host.Outcome State Fault Refusal := .next (s.doEdgeSlotOpen slot)

/-- `EDGE_SLOT_END` -/
def execEdgeSlotEnd (slot : Nat) (busIdleSeen : Bool) (s : State) : Host.Outcome State Fault Refusal :=
  .next (s.doEdgeSlotEnd slot busIdleSeen)

/-- `PROTOCOL_EXCEPTION_END` -/
def execProtocolExceptionEnd (ch : Nat) (s : State) : Host.Outcome State Fault Refusal :=
  .next (s.doProtocolExceptionEnd ch)

end Sys2Proof.Machine
end

