-- ==== Sys2Proof/Machine/EdgeLin.lean ====
section
/-! DEFINITION.
The LIN channels (R336 to R343) and the 10BASE-T1S ports (R344, R345) with their commands, and
configurations that wait for bus idle (R347). -/

namespace Sys2Proof.Machine

namespace State

/-! ### LIN schedule and frames -/

/-- A slot of a schedule table: entry and length in units of 100 µs. -/
def linSlot (c : LinCfg) (p : Nat × Nat) : Option (Nat × Nat) := (c.tables[p.1]?).bind fun t => t[p.2]?

/-- What follows a slot: the next of its table, then the interrupted table, then the table
again (R340). -/
def linAfter (c : LinCh) (p : Nat × Nat) : (Nat × Nat) × Option (Nat × Nat) :=
  let n := ((c.cfg.tables[p.1]?).map (·.length)).getD 0
  if p.2 + 1 < n then ((p.1, p.2 + 1), c.resume)
  else match c.resume with
  | some r => (r, none)
  | none => ((p.1, 0), none)

/-- The entry whose header a slot sends; none for a sporadic slot with nothing to send. -/
def linChoice (c : LinCfg) (n : Nat) : Option Nat :=
  match c.entries[n]? with
  | none => none
  | some e =>
    if e.type = 2 then
      c.entries.findIdx? fun x => bit x.flags 1 && x.changed
    else some n

/-- `LIN_SCHEDULE_SLOT`: the next slot of a commander's schedule starts. -/
def doLinScheduleSlot (s : State) (l : Nat) : State :=
  let c := s.linCh l
  if 32 ≤ l || !(s.busUp (64 + l) && c.operational && c.cfg.commander && c.mode == .normal && !s.busQuiet) || s.inSlots (64 + l) then s
  else match linSlot c.cfg c.next with
  | none => s
  | some (n, delay) =>
    let s := s.waitUntil c.slotEnd
    let (next, resume) := linAfter c c.next
    let s := s.linMod l fun c => { c with
      table := c.next.1, slot := c.next.2, next := next, resume := resume, slotEnd := s.clk + 100000 * delay, current := none }
    match linChoice c.cfg n with
    | none => s
    | some k => s.linHeader l k

/-- `LIN_HEADER_RECEIVED`: a responder sees a header, `ago` ns after the edge of its break. -/
def doLinHeaderReceived (s : State) (l id rate : Nat) (parityOk : Bool) (ago : Nat) : State :=
  let c := s.linCh l
  if 32 ≤ l || !(s.busUp (64 + l) && c.operational) || c.cfg.commander then s
  else if 100 * rate < c.cfg.rate * 86 ∨ 114 * c.cfg.rate < 100 * rate then
    (s.bump (Reg.edgLinSyncErrCnt l)).bump (Reg.edgLinErrCnt l)
  else
    let s := s.linMod l fun c => { c with rate := rate }
    if !parityOk then s
    else
      let s := s.linMod l fun c => { c with lastHeader := s.clk, idle := false, breakAt := s.clk - ago, current := none }
      match c.cfg.entries.findIdx? fun e => e.id == id with
      | none => s
      | some n =>
        match c.cfg.entries[n]? with
        | none => s
        | some e =>
          if e.dir = 0 ∨ (e.dir = 1 ∧ (s.busQuiet ∨ c.mode ≠ .normal ∨ (e.type = 1 ∧ !e.changed))) then s
          else
            let s := s.linMod l fun c => { c with current := some n }
            if e.dir = 1 then s.emit (.linResponse l (fit e.length e.data)) else s

/-- Change a frame entry of a LIN channel. -/
def linEntryMod (s : State) (l n : Nat) (f : LinEntry → LinEntry) : State :=
  s.linMod l fun c => { c with cfg := { c.cfg with entries := c.cfg.entries.modify n f } }

/-- Data that the router or the tunnel engine publishes for a frame entry. -/
def linPublish (s : State) (l n : Nat) (data : List Byte) : State :=
  s.linEntryMod l n fun e => { e with data := data, changed := true }

/-- A bit of a byte string set or cleared. -/
def bitIn (data : List Byte) (pos : Nat) (on : Bool) : List Byte :=
  (fit (max data.length (pos / 8 + 1)) data).modify (pos / 8) fun b =>
    BitVec.ofNat 8 (setBits b.toNat (pos % 8) 1 (b2n on))

/-- The configured bit of the RESP_ERR_ENTRY (R341). -/
def linRespErr (s : State) (l : Nat) (on : Bool) : State :=
  let c := (s.linCh l).cfg
  if c.commander ∨ c.respErrEntry = 0xFF then s
  else s.linEntryMod l c.respErrEntry fun e => { e with data := bitIn e.data (c.respErrPos % 64) on }

/-- A received LIN frame goes to the encapsulating channels whose bus map names its channel and
to the sequencers with a record for it (log entry 21). -/
def linDeliver (s : State) (l id sof : Nat) (data : List Byte) : State :=
  let f : CanFrame :=
    { format := .classicData, ext := false, id := id, brs := false, esi := false, sdt := 0, sec := false, rrs := false,
      vcid := 0, af := 0, data := data, dlc := data.length }
  let tuns := (s.tun.ch.filter fun (x : Nat × TunCh) => x.2.busMap.any fun b => bit b.flags 0 && b.edge == 64 + l).map (·.1)
  let wants (q : Nat) : Bool := s.sig.pdus.any fun (x : Nat × SrcPdu) =>
    x.1 / 1024 == q && x.2.kind == 1 && x.2.channel == 64 + l && x.2.id == id
  let router := ((List.range 4).filter wants).foldl (fun m q => m + 2 ^ q) 0
  s.rxDeliver (64 + l) 1 f sof tuns router

/-- The counter of an error of R341. -/
def linErrReg (l : Nat) : LinResult → Option Nat
  | .noResponse => some (Reg.edgLinNoRespCnt l)
  | .checksum => some (Reg.edgLinChecksumCnt l)
  | .bitError => some (Reg.edgLinBitErrCnt l)
  | .framing => some (Reg.edgLinFramingCnt l)
  | .ok | .overlap => none

/-- A collision in an event-triggered slot: its collision table runs once (R340). -/
def linCollision (s : State) (l : Nat) (e : LinEntry) : State :=
  let s := s.bump (Reg.edgLinCollisionCnt l)
  if s.inSlots (64 + l) then s
  else s.linMod l fun c => { c with resume := some c.next, next := (e.coll, 0) }

/-- `LIN_RESPONSE_END`: the response of the frame in progress ends. -/
def doLinResponseEnd (s : State) (l : Nat) (r : LinResult) (data : List Byte) : State :=
  let c := s.linCh l
  match c.current.bind fun n => (c.cfg.entries[n]?).map fun e => (n, e) with
  | none => s
  | some (n, e) =>
    if !(s.busUp (64 + l) && c.operational) then s
    else
      let s := s.linMod l fun c => { c with current := none }
      let s := if r = .ok then
          let s := s.bump (Reg.edgLinFrameOkCnt l)
          if e.dir = 1 then
            let s := s.linEntryMod l n fun e => { e with changed := false }
            if c.cfg.respErrEntry = n then s.linRespErr l false else s
          else
            let s := s.linDeliver l e.id (c.breakAt - 25) (data.take e.length)
            if e.id = 0x3C ∧ data.head? = some 0 then s.raise 0x7005 l else s
        else
          let s := match linErrReg l r with
            | none => s
            | some off => ((s.bump off).bump (Reg.edgLinErrCnt l)).linRespErr l true
          if c.cfg.commander && e.type == 1 && (r == .checksum || r == .framing || r == .overlap) then s.linCollision l e
          else s
      s.linSlotStart l

/-- `LIN_BUS_IDLE_TIMEOUT` -/
def doLinBusIdleTimeout (s : State) (l : Nat) : State :=
  let c := s.linCh l
  if 32 ≤ l || !(s.busUp (64 + l) && c.operational) || c.cfg.commander || c.idle then s
  else ((s.waitUntil (c.lastHeader + 1000000 * c.cfg.idleMs)).linMod l fun c => { c with idle := true }).raise 0x7004 l

/-! ### `EDG_LIN_CONFIG` -/

/-- A frame entry from its 16 bytes. -/
def linEntryOf (b : List Byte) : LinEntry :=
  { id := le b 0 1 % 64, type := le b 1 1, dir := le b 2 1, length := le b 3 1, flags := le b 4 1, coll := le b 5 1 }

/-- The schedule tables that stand one after the other. -/
def linTables : Nat → List Byte → List (List (Nat × Nat))
  | 0, _ => []
  | n + 1, b =>
    let k := le b 0 1
    ((List.range k).map fun i => (le b (4 + 4 * i) 1, le b (6 + 4 * i) 2)) :: linTables n (b.drop (4 + 4 * k))

/-- The configuration of an `EDG_LIN_CONFIG`. -/
def linCfgOf (c : Cmd) (dma : List Byte) : LinCfg :=
  let n := c.u 7 1
  { enable := bit (c.u 1 1) 0, commander := bit (c.u 1 1) 1, rate := c.u 2 2, breakBits := c.u 4 1,
    delimBits := c.u 5 1, ibsBits := c.u 6 1, respErrEntry := c.u 10 1, respErrPos := c.u 11 1, idleMs := c.u 12 2,
    wakeUs := c.u 14 2, startTable := c.u 9 1,
    entries := (List.range n).map fun i => linEntryOf (fit 16 (dma.drop (16 * i)))
    tables := if bit (c.u 1 1) 1 then linTables (c.u 8 1) (dma.drop (16 * n)) else [] }

/-- The ranges of R336, R338 and R346. -/
def linRanges (x : LinCfg) (frames tables : Nat) : Bool :=
  let entry (e : LinEntry) : Bool := e.type ≤ 4 && e.dir ≤ 2 && 1 ≤ e.length && e.length ≤ 8 &&
    (if e.type = 1 then e.coll ≤ 7 else e.coll == 0xFF)
  1000 ≤ x.rate && x.rate ≤ 20000 && (!x.commander || (13 ≤ x.breakBits && x.breakBits ≤ 26 && 1 ≤ x.delimBits &&
    x.delimBits ≤ 4 && x.ibsBits ≤ 4)) && 1 ≤ frames && frames ≤ 64 && tables ≤ 8 &&
    4000 ≤ x.idleMs && x.idleMs ≤ 10000 && 250 ≤ x.wakeUs && x.wakeUs ≤ 5000 &&
    (x.respErrEntry == 0xFF || (x.respErrEntry < frames && x.respErrPos < 64)) && x.entries.all entry &&
    x.tables.all fun t => 1 ≤ t.length && t.length ≤ 64

/-- The tables of R339; a responder has none. -/
def linTablesOk (x : LinCfg) : Bool :=
  let longest := ((x.entries.filter fun e => bit e.flags 1).map (·.length)).foldl max 0
  let slot (t : Nat × Nat) : Bool := match x.entries[t.1]? with
    | none => false
    | some e =>
      let n := if e.type = 2 then longest else e.length
      1000000000 * (14 * (34 + 10 * (n + 1))) ≤ 100000 * t.2 * x.rate * 10
  let event (t : Nat × Nat) : Bool := (x.entries[t.1]?).any (·.type == 1)
  let coll (e : LinEntry) : Bool := e.type != 1 || (match x.tables[e.coll]? with
    | none => false
    | some t => !t.any event)
  !x.commander || (x.tables.all (·.all slot) && x.entries.all coll)

/-- A configuration takes effect on a LIN channel. -/
def linApply (s : State) (l : Nat) (x : LinCfg) : State :=
  s.linMod l fun c => { c with
    cfg := x, newCfg := none, operational := x.enable && stbOf c.mode, table := x.startTable, slot := 0,
    next := (x.startTable, 0), resume := none, slotEnd := s.clk, rate := if x.commander then x.rate else 0,
    current := none, lastHeader := s.clk, idle := false }

/-- `EDG_LIN_CONFIG` -/
def edgLinConfig (dma : List Byte) (c : Cmd) (s : State) : Exec :=
  let l := c.u 0 1
  let x := linCfgOf c dma
  let old := ((s.linCh l).newCfg).getD (s.linCh l).cfg
  Exec.edge s (if l < 32 then busUnit (64 + l) else Dom.edge) <|
  Exec.check (l < 32) s St.badParam <|
  if bit (c.u 1 1) 2 then
    Exec.check (c.u 9 1 < old.tables.length) s 0x0505 <|
    .done (s.linMod l fun c' => match c'.newCfg with
      | some n => { c' with newCfg := some { n with startTable := c.u 9 1 } }
      | none => { c' with next := (c.u 9 1, 0), resume := none }) St.ok 0 []
  else
    Exec.check (c.u 16 8 % 8 == 0) s St.badParam <|
    Exec.check (linRanges x (c.u 7 1) (c.u 8 1)) s 0x0501 <|
    Exec.check (!s.namesChannel (64 + l) || !old.enable || (x.enable && x.commander && x.rate == old.rate)) s 0x0503 <|
    Exec.check (linTablesOk x && (x.tables.isEmpty || x.startTable < x.tables.length)) s 0x0505 <|
    .done (if !(s.linCh l).operational || !s.edgeEn then s.linApply l x
      else s.linMod l fun c => { c with newCfg := some x }) St.ok 0 []

/-! ### 10BASE-T1S -/

/-- Report on a segment, at most once per 100 ms and port. -/
def t1sEvent (s : State) (m arg : Nat) : State :=
  let (s, t) := s.raiseLimited (s.t1sCh m).evAt 100000000 0x7007 arg
  s.t1sMod m fun x => { x with evAt := t }

/-- plca_status of a port changes (R345). -/
def plcaSet (s : State) (m : Nat) (ok : Bool) : State :=
  let s := if ok then s else s.bump (Reg.edgT1sBeaconLossCnt m)
  ((s.t1sMod m fun t => { t with plcaOk := ok }).t1sSync).t1sEvent m (m + 256 * b2n ok)

/-- A configuration takes effect on an M port: a port that it leaves without PLCA has no
plca_status. -/
def t1sApply (s : State) (m : Nat) (x : T1sCfg) : State :=
  let s := if (s.t1sCh m).plcaOk && !(x.enable && x.plcaEn) then s.plcaSet m false else s
  (s.t1sMod m fun t => { t with cfg := x, newCfg := none }).t1sSync

/-- `EDG_T1S_CONFIG` -/
def edgT1sConfig (c : Cmd) (s : State) : Exec :=
  let m := c.u 0 1
  let x : T1sCfg :=
    { enable := bit (c.u 1 1) 0, plcaEn := bit (c.u 1 1) 1, nodeId := c.u 2 1, nodeCount := c.u 3 1,
      toTimer := c.u 4 1, burstCount := c.u 5 1, burstTimer := c.u 6 1 }
  let t := s.t1sCh m
  let old := t.newCfg.getD t.cfg
  Exec.edge s (if m < 16 then portUnit (48 + m) else Dom.edge) <|
  Exec.check (m < 16) s St.badParam <|
  Exec.check (!s.namesPort (48 + m) || !old.enable || x == old) s 0x0503 <|
  Exec.check (x.nodeId ≤ 15 && 2 ≤ x.nodeCount && x.nodeCount ≤ 16 && x.nodeId < x.nodeCount && 1 ≤ x.toTimer) s 0x0506 <|
  let s := s.rsetF (Reg.edgT1sStatus m) 8 4 x.nodeId
  .done (if t.cfg.enable && s.edgeEn then s.t1sMod m fun t => { t with newCfg := some x } else s.t1sApply m x) St.ok 0 []

/-- `CONFIG_APPLY_AT_IDLE`: bus idle on channel 0 to 95 or on M port `ch` − 96. -/
def doConfigApplyAtIdle (s : State) (ch : Nat) : State :=
  if ch < 64 then
    match (s.canCh ch).newCfg with
    | none => s
    | some x => if s.quenched (busUnit ch) then s else s.canApply ch x
  else if ch < 96 then
    match (s.linCh (ch - 64)).newCfg with
    | none => s
    | some x => if s.quenched (busUnit ch) then s else s.linApply (ch - 64) x
  else
    match (s.t1sCh (ch - 96)).newCfg with
    | none => s
    | some x => if s.quenched Dom.edge then s else s.t1sApply (ch - 96) x

/-- Whether an M port's PHY runs. -/
def t1sRuns (s : State) (m : Nat) : Bool :=
  m < 16 && s.datapathUp && s.edgeEn && !s.quenched Dom.edge && (s.t1sCh m).cfg.enable

/-- `PLCA_STATUS_CHANGE` -/
def doPlcaStatusChange (s : State) (m : Nat) (ok : Bool) : State :=
  let t := s.t1sCh m
  if !s.t1sRuns m || !t.cfg.plcaEn || t.plcaOk == ok then s
  else s.plcaSet m ok

/-- `T1S_DUP_COORDINATOR` -/
def doT1sDupCoordinator (s : State) (m : Nat) : State :=
  let t := s.t1sCh m
  if !s.t1sRuns m || !t.cfg.plcaEn || t.cfg.nodeId ≠ 0 then s
  else (s.bump (Reg.edgT1sDupCoordCnt m)).t1sEvent m (m + 256 * b2n t.plcaOk + 512)

/-- `T1S_COLLISION` -/
def doT1sCollision (s : State) (m : Nat) : State :=
  if !s.t1sRuns m || !(s.t1sCh m).cfg.plcaEn then s else s.bump (Reg.edgT1sCollCnt m)

end State

/-! ### Meanings -/

/-- `LIN_SCHEDULE_SLOT` -/
def execLinScheduleSlot (ch : Nat) (s : State) : Host.Outcome State Fault Refusal := .next (s.doLinScheduleSlot ch)

/-- `LIN_HEADER_RECEIVED` -/
def execLinHeaderReceived (ch id rate : Nat) (parityOk : Bool) (ago : Nat) (s : State) :
    Host.Outcome State Fault Refusal :=
  .next (s.doLinHeaderReceived ch id rate parityOk ago)

/-- `LIN_RESPONSE_END` -/
def execLinResponseEnd (ch : Nat) (r : LinResult) (data : List Byte) (s : State) : Host.Outcome State Fault Refusal :=
  .next (s.doLinResponseEnd ch r data)

/-- `LIN_BUS_IDLE_TIMEOUT` -/
def execLinBusIdleTimeout (ch : Nat) (s : State) : Host.Outcome State Fault Refusal := .next (s.doLinBusIdleTimeout ch)

/-- `EDG_LIN_CONFIG` -/
def execEdgLinConfig (host queue : Nat) (dma : List Byte) (s : State) : Host.Outcome State Fault Refusal :=
  .next (s.runDma host queue 0x0501 (fun c => c.u 16 8) (fun c => if bit (c.u 1 1) 2 then 0 else dma.length) (State.edgLinConfig dma))

/-- `EDG_T1S_CONFIG` -/
def execEdgT1sConfig (host queue : Nat) (s : State) : Host.Outcome State Fault Refusal :=
  .next (s.runCmd host queue 0x0502 State.edgT1sConfig)

/-- `CONFIG_APPLY_AT_IDLE` -/
def execConfigApplyAtIdle (ch : Nat) (s : State) : Host.Outcome State Fault Refusal := .next (s.doConfigApplyAtIdle ch)

/-- `PLCA_STATUS_CHANGE` -/
def execPlcaStatusChange (m : Nat) (ok : Bool) (s : State) : Host.Outcome State Fault Refusal :=
  .next (s.doPlcaStatusChange m ok)

/-- `T1S_DUP_COORDINATOR` -/
def execT1sDupCoordinator (m : Nat) (s : State) : Host.Outcome State Fault Refusal := .next (s.doT1sDupCoordinator m)

/-- `T1S_COLLISION` -/
def execT1sCollision (m : Nat) (s : State) : Host.Outcome State Fault Refusal := .next (s.doT1sCollision m)

end Sys2Proof.Machine
end

