-- ==== Sys2Proof/Machine/Pipeline.lean ====
section
/-! DEFINITION.
Rows of the forwarding pipelines and speculation units: `FRAME_ARRIVAL`,
`FRAME_LAST_BYTE`, `MACSEC_ICV_VERDICT`, `VERDICT_TIMEOUT` and `PIPELINE_ISSUE`. -/

namespace Sys2Proof.Machine

namespace State

/-- The next frame number, and a state in which it is taken. -/
def newFid (s : State) : Nat × State := (s.fr.next, s.setFr { s.fr with next := s.fr.next + 1 })

/-! ### MACsec at ingress (R396) -/

/-- The lowest acceptable PN of a receive SA (R396). -/
def lowestPn (c : Sc) (a : Sa) : Nat := max a.firstPn (a.highPn - c.window)

/-- The verdict that the rows before the ICV give a frame, whether a fail is passed on, and
the counters. -/
def macsecHead (s : State) (src : Nat) (head : List Byte) (sec : Option SecTag) : Verdict × Bool × State :=
  let m := s.msPort src
  if 64 ≤ src ∨ !m.rxEn then (.none, false, s)
  else
    let fail (s : State) : Verdict × Bool × State := (.failed, !m.strict, s)
    match sec with
    | none =>
      let et := (parse head).etherType
      if et = 0x888E ∨ (et = 0x88F7 ∧ m.exemptPtp) then (.none, false, s.bump (Reg.secMsRxExemptCnt src))
      else fail (s.bump (Reg.secMsRxUntaggedCnt src))
    | some t =>
      if s.quenched Dom.security || s.quenched (macsecUnit src false) then (.failed, false, s)
      else match s.rxSc src t.sci with
      | none => fail (s.bump (Reg.secMsRxNoScCnt src))
      | some sc =>
        let c := agetD m.rx sc {}
        match (aget c.sas t.an).filter fun a => !a.stopped with
        | none => fail (s.bump (Reg.secMsRxNoScCnt src))
        | some a =>
          if (c.replay && t.pn < lowestPn c a) || a.pend.contains t.pn then
            fail (s.bump (Reg.secMsRxLateCnt src))
          else (.waiting, false, s.rxSaMod src sc t.an fun a => { a with pend := t.pn :: a.pend })

/-! ### Arrival and last byte -/

/-- Whether a source has a frame whose last byte has not arrived. -/
def arriving (s : State) (src : Nat) : Option Frame :=
  s.fr.frames.find? fun f => f.src == src && !f.complete

/-- `FRAME_ARRIVAL`: a frame's first bytes enter an ingress FIFO and it is stamped (R178,
R396, R454, R455). Of a frame beyond the port's maximum four bytes more are taken (R222). -/
def doFrameArrival (s : State) (src : Nat) (head : List Byte) (sec : Option SecTag) : State :=
  if 64 < src || !s.datapathUp || s.portDown src || s.quenched (pipeDom (pipeOf src)) ||
      (s.arriving src).isSome || 512 < head.length then s
  else
    let (v, lenient, s) := s.macsecHead src head sec
    let (fid, s) := s.newFid
    let at_ := ((s.clk : Int) - s.phyDelay src 0).toNat
    let m := s.maxFrame src
    let f : Frame := { fid := fid, src := src, tIn := at_, start := at_, inAt := s.clk, bytes := head.take (m + 4),
                       oversize := decide (m + 4 < head.length), complete := false,
                       tagInfo := sec, icv := v, pnHeld := v == .waiting, lenient := lenient, writer := true }
    let owed : List Owed := if v = .waiting then [⟨src, fid, none, none⟩] else []
    s.setFr { s.fr with frames := s.fr.frames ++ [f], heads := s.fr.heads ++ [(src, fid)], owed := s.fr.owed ++ owed }

/-- The MAC merge counts of a frame (R297). -/
def mergeCounts (s : State) (p : Nat) (e : FrameEnd) : State :=
  if 48 ≤ p ∨ (e.frags = 0 ∧ !e.assemblyError ∧ !e.smdError) then s
  else
    let s := s.bumpBy (Reg.trfMmFragRxCnt p) e.frags
    let s := if e.assemblyError then (s.bump (Reg.trfMmAssyErrCnt p)).stat p Reg.statRxPreemptErr
      else if 0 < e.frags then s.bump (Reg.trfMmAssyOkCnt p) else s
    if e.smdError then (s.bump (Reg.trfMmSmdErrCnt p)).stat p Reg.statRxPreemptErr else s

/-- `FRAME_LAST_BYTE`: the rest of a frame, as its MAC saw the end (R218, R240, R255, R270,
R297, R498). -/
def doFrameLastByte (s : State) (src : Nat) (rest : List Byte) (fin : FrameEnd) : State :=
  match s.arriving src with
  | none => s
  | some f =>
    let m := s.maxFrame src
    let b := f.bytes ++ rest
    let long := f.oversize || decide (m + 4 < b.length)
    let b := if f.oversize then f.bytes else b
    let s := s.mergeCounts src fin
    let s := if src = 64 && fin.fcs == .bad then s.bump Reg.pairUnitErrCnt
      else if src = 64 && fin.fcs == .complement then s.bump Reg.pairAbortRxCnt else s
    let s := s.fmod f.fid fun x =>
      { x with bytes := b.take (m + 4), complete := true, lastAt := s.clk, fin := fin, oversize := long, writer := false }
    (((s.storeEnd f.fid).spillUpdate.flowCheck src).judge f.fid).gc

/-! ### Verdicts -/

/-- `MACSEC_ICV_VERDICT`: the ingress engine posts the verdict that it has owed a source for
longest. A frame whose outcome is known has no more use for it (R396, R397, R221). -/
def doMacsecIcvVerdict (s : State) (src : Nat) (ok : Bool) : State :=
  if 64 ≤ src || !s.datapathUp then s
  else match s.fr.owed.find? fun o => o.src == src && o.ticket.isNone with
  | none => s
  | some o =>
    let s := (s.owedTake o).owedLate o
    match (s.frame? o.fid).filter fun f => f.icv == .waiting && f.outcome == .pending with
    | none => s.bump (Reg.spcLateVerdictCnt (pipeOf src))
    | some f =>
      let lenient := !ok && !(s.msPort src).strict
      let s := if ok then s else s.bump (Reg.secMsRxInvalidCnt src)
      let s := s.fmod f.fid fun x => { x with
        icv := if ok then .passed else .failed, lenient := lenient, verdictAt := if x.complete then some s.clk else none }
      (s.judge f.fid).gc

/-- `VERDICT_TIMEOUT`: the verdict that the oldest decided frame of a source waits for, held
speculatively or not, has not come in time (R223). -/
def doVerdictTimeout (s : State) (src : Nat) : State :=
  match s.fr.frames.find? fun f => f.src == src && f.decided && f.outcome == .pending &&
      f.complete && (f.icv == .waiting || f.edge == .waiting) with
  | none => s
  | some f =>
    let pipe := pipeOf f.src
    let s := s.waitUntil (f.lastAt + 1000 * inRange (s.rfld Reg.spcVerdictTimeoutUs 0 14) 1 10000)
    let s := s.bump (Reg.spcTimeoutCnt pipe)
    let (s, t) := s.raiseLimited (aget s.fr.timeoutAt pipe) 100000000 0x4102
      (pipe + 256 * (if f.icv == .waiting then 1 else 2))
    let s := match t with
      | none => s
      | some t => s.setFr { s.fr with timeoutAt := aset s.fr.timeoutAt pipe t }
    (s.abortFrame f.fid 7).gc

/-! ### Issue slots (R27, R141, R142) -/

/-- The frame head of a source that is ready for its lookup: the parser window is full or
the frame has ended. -/
def headReady (s : State) (src : Nat) : Option Frame :=
  match s.fr.heads.find? (·.1 == src) with
  | none => none
  | some (_, fid) => (s.frame? fid).filter fun f => f.complete || f.oversize || 512 ≤ f.bytes.length

/-- The sources of a group owner that a pipeline serves (R141). -/
def groupPorts (pipe owner : Nat) : List Nat :=
  ((List.range 64).filter fun p => pipeOf p == pipe &&
    (match owner with
     | 0x80 => p < 8
     | 0x81 => 8 ≤ p && p < 24
     | 0x82 => 24 ≤ p && p < 48
     | _ => 48 ≤ p))

/-- The source that a slot's owner gives it to: a group is served in turn among the ports
with a head waiting. -/
def ownerPick (s : State) (pipe owner : Nat) : Option Nat × State :=
  if owner < 0x80 then (if (s.headReady owner).isSome then some owner else none, s)
  else
    let ready := (groupPorts pipe owner).filter fun p => (s.headReady p).isSome
    let key := 256 * pipe + owner
    let last := agetD s.fr.robin key 0
    match (ready.find? fun p => last < p).or ready.head? with
    | none => (none, s)
    | some p => (some p, s.setFr { s.fr with robin := aset s.fr.robin key p })

/-- `PIPELINE_ISSUE`: one issue slot of a pipeline. Its owner has it when it has a frame
head waiting; otherwise best-effort arbitration, whose pick the command brings, has it. An epoch
or an image that changed in this very cycle takes effect after the cycle's lookup (R29), so the
slot is one of the next tick. -/
def doPipelineIssue (s : State) (pipe bePick : Nat) : State :=
  if 1 < pipe || !s.datapathUp || s.quenched (pipeDom pipe) then s
  else
    let s := if s.cal.changeAt = some s.clk ∨ s.fwd.changeAt = some s.clk then s.tick 1 else s
    let c := if agetD s.fr.issued pipe 0 ≤ s.clk then s.clk else s.clk + 1
    let (slot, s) := s.wheelTo pipe c
    let (own, s) := match slot with
      | none => (none, s)
      | some o => s.ownerPick pipe o
    let pick := own.or (if pipeOf bePick = pipe && (s.headReady bePick).isSome then some bePick else none)
    match pick with
    | none => s
    | some src =>
      match s.headReady src with
      | none => s
      | some f =>
        let s := s.setFr { s.fr with heads := s.fr.heads.filter (· ≠ (src, f.fid)) }
        (s.lookup f).gc

end State

/-- `FRAME_ARRIVAL` -/
def execFrameArrival (src : Nat) (head : List Byte) (sec : Option SecTag) (s : State) :
    Host.Outcome State Fault Refusal := .next (s.doFrameArrival src head sec)

/-- `FRAME_LAST_BYTE` -/
def execFrameLastByte (src : Nat) (rest : List Byte) (fin : FrameEnd) (s : State) :
    Host.Outcome State Fault Refusal := .next (s.doFrameLastByte src rest fin)

/-- `MACSEC_ICV_VERDICT` -/
def execMacsecIcvVerdict (src : Nat) (ok : Bool) (s : State) : Host.Outcome State Fault Refusal :=
  .next (s.doMacsecIcvVerdict src ok)

/-- `VERDICT_TIMEOUT` -/
def execVerdictTimeout (src : Nat) (s : State) : Host.Outcome State Fault Refusal :=
  .next (s.doVerdictTimeout src)

/-- `PIPELINE_ISSUE` -/
def execPipelineIssue (pipe bePick : Nat) (s : State) : Host.Outcome State Fault Refusal :=
  .next (s.doPipelineIssue pipe bePick)

end Sys2Proof.Machine
end

