-- ==== Sys2Proof/Machine/Tunnel.lean ====
section
/-! DEFINITION.
The tunnel engine: tunnel frames and ACF messages (R352 to R355), encapsulation and batching
(R356 to R359), injection through X0 and X1 (R22), decapsulation (R360 to R365), and
`TUN_CHANNEL_SET` (R381 to R383). -/

namespace Sys2Proof.Machine

namespace State

def tunMod (s : State) (n : Nat) (f : TunCh → TunCh) : State :=
  s.setTun { s.tun with ch := amod s.tun.ch n {} f }

/-- Whether a tunnel channel's unit runs. -/
def tunRuns (s : State) (n : Nat) : Bool := s.datapathUp && n < 512 && !s.quenched (tunUnit n)

/-! ### Building frames (R352 to R355) -/

/-- An ACF message: its type, bytes 2 and 3, and what follows them, padded to a quadlet. The
number of padding bytes stands in byte 2 where `pads` says so. -/
def acfMsg (type b2 b3 : Nat) (pads : Bool) (rest : List Byte) : List Byte :=
  let pad := (4 - rest.length % 4) % 4
  let len := 1 + ceilDiv rest.length 4
  beBytes 2 (512 * type + len % 512) ++ leBytes 1 (b2 + if pads then pad * 64 else 0) ++ leBytes 1 b3 ++
    fit (rest.length + pad) rest

/-- The ACF_CAN message of a frame (R353). -/
def acfCan (bus : Nat) (f : CanFrame) (stamp : Nat) : List Byte :=
  acfMsg 1 (32 + b2n (f.format == .classicRemote) * 16 + b2n f.ext * 8 + b2n f.brs * 4 + b2n (f.format == .fd) * 2 + b2n f.esi)
    bus true (beBytes 8 stamp ++ beBytes 4 (f.id % 2 ^ 29) ++ f.data)

/-- One XL message (R354). -/
def xlMsg (type bus seg : Nat) (f : CanFrame) (stamp total : Nat) (data : List Byte) : List Byte :=
  acfMsg type (bus + 32 + seg * 64) (b2n f.rrs + 2 * b2n f.sec) false
    (leBytes 2 (f.id % 2048) ++ leBytes 1 f.sdt ++ leBytes 1 f.vcid ++ leBytes 4 f.af ++ leBytes 8 stamp ++
      leBytes 2 data.length ++ leBytes 2 total ++ data)

/-- `TUN_XL_TYPE` (log entry 12). -/
def xlType (s : State) : Nat := inRange (s.rfld Reg.tunXlType 0 7) 0x78 0x7F

/-- The message that an edge frame of a channel (0 to 95) becomes. -/
def acfOf (s : State) (chan bus : Nat) (f : CanFrame) (stamp : Nat) : List Byte :=
  if 64 ≤ chan then acfMsg 3 (32 + bus) (f.id % 64) true (beBytes 8 stamp ++ f.data)
  else if f.format = .xl then
    let n := f.data.length
    if n ≤ 2016 then xlMsg s.xlType bus 0 f stamp n f.data
    else xlMsg s.xlType bus 1 f stamp n (f.data.take 2016) ++ xlMsg s.xlType bus 2 f stamp n (f.data.drop 2016)
  else acfCan bus f stamp

/-- A frame with an Ethernet header, one 802.1Q tag and EtherType 0x22F0, padded and with its
FCS. -/
def avtpFrame (s : State) (da : List Byte) (tci : Nat) (avtp : List Byte) : List Byte :=
  let sa := leBytes 4 (s.rget Reg.tunSrcMacLo).toNat ++ leBytes 2 (s.rfld Reg.tunSrcMacHi 0 16)
  let b := fit 6 da ++ sa ++ [0x81, 0x00] ++ beBytes 2 tci ++ [0x22, 0xF0] ++ avtp
  let b := fit (max 60 b.length) b
  b ++ leBytes 4 (Crypto.crc32 b).toNat

/-- A TSCF header and its messages; `pres`: avtp_timestamp, where tv is set. -/
def tscf (stream seq : Nat) (pres : Option Nat) (acf : List Byte) : List Byte :=
  [0x05] ++ leBytes 1 (128 + b2n pres.isSome) ++ leBytes 1 seq ++ [0] ++ beBytes 8 stream ++
    beBytes 4 ((pres.getD 0) % 2 ^ 32) ++ Crypto.zeros 4 ++ beBytes 2 acf.length ++ Crypto.zeros 2 ++ acf

/-- An NTSCF header and its messages. -/
def ntscf (stream seq : Nat) (acf : List Byte) : List Byte :=
  [0x82] ++ leBytes 1 (128 + acf.length / 256 % 8) ++ leBytes 1 acf.length ++ leBytes 1 seq ++ beBytes 8 stream ++ acf

/-- The next sequence_num of a channel. -/
def nextSeq (t : TunCh) : Nat := if t.started then (t.seq + 1) % 256 else 0

/-- The tunnel frame that carries some messages on a channel. -/
def tunFrame (s : State) (t : TunCh) (l : List TunMsg) : List Byte :=
  let acf := l.flatMap (·.bytes)
  let pres := if bit t.flags 6 then l.head?.map fun m => m.stamp + t.presOffset else none
  s.avtpFrame t.da t.tci (if bit t.flags 2 then ntscf t.stream (nextSeq t) acf else tscf t.stream (nextSeq t) pres acf)

/-! ### Injection queues (R22, R357) -/

/-- Put a frame into the injection queue of X0 (`second` clear) or of X1. -/
def xPush (s : State) (second : Bool) (x : XFrame) : State :=
  if second then s.setTun { s.tun with x1 := s.tun.x1 ++ [x] } else s.setTun { s.tun with x0 := s.tun.x0 ++ [x] }

/-- Whether an injection queue of 64 KiB has room for a frame. -/
def xRoom (s : State) (second : Bool) (n : Nat) : Bool :=
  (((if second then s.tun.x1 else s.tun.x0).map fun x => x.bytes.length).sum + n ≤ 65536)

/-- A frame of a sequencer goes to its injection queue, or waits in the sequencer, behind those
that wait already (R22). -/
def seqInject (s : State) (q : Nat) (x : XFrame) : State :=
  let second := decide (2 ≤ q)
  if (s.seqOf q).outbox.isEmpty && s.xRoom second x.bytes.length then s.xPush second x
  else s.seqMod q fun y => { y with outbox := y.outbox ++ [x] }

/-- Frames that wait in a sequencer move on while their injection queue has room. -/
def seqMoveOn : Nat → Nat → State → State
  | 0, _, s => s
  | n + 1, q, s =>
    match (s.seqOf q).outbox with
    | [] => s
    | x :: r =>
      let second := decide (2 ≤ q)
      if s.xRoom second x.bytes.length then seqMoveOn n q ((s.seqMod q fun y => { y with outbox := r }).xPush second x)
      else s

/-- Whether a channel injects through X1 (R350). -/
def onX1 (n : Nat) : Bool := decide (256 ≤ n)

/-- Build a frame of some messages and queue it. -/
def tunSend (s : State) (n : Nat) (l : List TunMsg) (edge : Verdict) (ticket : Option Nat) : State :=
  let t := s.tunCh n
  let x : XFrame :=
    { bytes := s.tunFrame t l, origin := n, start := (l.head?.map (·.eof)).getD s.clk, edge := edge, ticket := ticket }
  (s.tunMod n fun t => { t with seq := nextSeq t, started := true }).xPush (onX1 n) x

/-! ### Batches (R356, R357) -/

/-- The open batch closes. A batch that finds the injection queue full stays in the channel. -/
def batchClose (s : State) (n : Nat) : State :=
  let t := s.tunCh n
  if t.batch.isEmpty || t.closed.isSome then s
  else
    let s := s.tunMod n fun t => { t with batch := [] }
    if s.xRoom (onX1 n) (s.tunFrame t t.batch).length then s.tunSend n t.batch .none none
    else s.tunMod n fun x => { x with closed := some t.batch }

/-- Whether the running image has a window for a channel. -/
def hasWindow (s : State) (n : Nat) : Bool := s.runningImage.any fun i => i.windows.any (·.ch == n)

/-- Whether a message may join the channel's batch now. -/
def batchTakes (s : State) (n : Nat) : Bool :=
  (s.tunCh n).closed.isNone && (!s.hasWindow n || s.cal.openWindows.contains n)

/-- A message joins the batch, which closes early where it does not fit or is full. -/
def batchAdd (s : State) (n : Nat) (m : TunMsg) : State :=
  let t := s.tunCh n
  let used := (t.batch.map fun x => x.bytes.length).sum
  let s := if t.maxBytes < used + m.bytes.length then s.batchClose n else s
  if !s.batchTakes n then s.tunMod n fun t => { t with waiting := t.waiting ++ [m] }
  else
    let s := s.tunMod n fun t =>
      { t with batchAt := if t.batch.isEmpty then s.clk else t.batchAt, batch := t.batch ++ [m] }
    if t.maxMsgs ≤ (s.tunCh n).batch.length then s.batchClose n else s

/-- A message is ready for the batch. -/
def batchJoin (s : State) (n : Nat) (m : TunMsg) : State :=
  if s.batchTakes n && (s.tunCh n).waiting.isEmpty then s.batchAdd n m
  else s.tunMod n fun t => { t with waiting := t.waiting ++ [m] }

/-- Messages that wait move into the batch, as far as they may. -/
def batchMove : Nat → Nat → State → State
  | 0, _, s => s
  | k + 1, n, s =>
    match (s.tunCh n).waiting with
    | [] => s
    | m :: r =>
      if s.batchTakes n then batchMove k n ((s.tunMod n fun t => { t with waiting := r }).batchAdd n m) else s

def batchFlow (s : State) (n : Nat) : State := batchMove (s.tunCh n).waiting.length n s

/-- `BATCH_TIMEOUT`: BATCH_US after the first message of a batch that no window closes. -/
def doBatchTimeout (s : State) (n : Nat) : State :=
  if !s.tunRuns n || s.hasWindow n then s
  else
    let s := s.batchFlow n
    let t := s.tunCh n
    if t.batch.isEmpty then s else ((s.waitUntil (t.batchAt + 1000 * t.batchUs)).batchClose n)

/-- `TUNNEL_WINDOW_OPEN`: a window of the running image opens. -/
def doTunnelWindowOpen (s : State) (w : Nat) : State :=
  match s.runningImage.bind fun i => (i.windows[w]?).map fun e => (i, e) with
  | none => s
  | some (i, e) =>
    match s.calReach i e.opens with
    | none => s
    | some (s, late) =>
      if e.closes - e.opens ≤ late then s
      else
        let s := s.setCal { s.cal with openWindows := e.ch :: s.cal.openWindows.filter (· ≠ e.ch) }
        if s.tunRuns e.ch then s.batchFlow e.ch else s

/-- `TUNNEL_WINDOW_CLOSE`: a window closes, and the batch with it. -/
def doTunnelWindowClose (s : State) (w : Nat) : State :=
  match s.runningImage.bind fun i => (i.windows[w]?).map fun e => (i, e) with
  | none => s
  | some (i, e) =>
    if !s.cal.openWindows.contains e.ch then s
    else match s.calReach i e.closes with
    | none => s
    | some (s, _) =>
      let s := s.setCal { s.cal with openWindows := s.cal.openWindows.filter (· ≠ e.ch) }
      if s.tunRuns e.ch then s.batchClose e.ch else s

/-! ### Encapsulation (R351, R356, R359) -/

/-- The stored frames that wait for a channel, with the edge channel of each. -/
def rxFor (s : State) (n : Nat) : List (Nat × RxItem) :=
  (s.edg.can.flatMap fun (x : Nat × CanCh) => x.2.rx.map fun i => (x.1, i)) ++
    (s.edg.lin.flatMap fun (x : Nat × LinCh) => x.2.rx.map fun i => (64 + x.1, i)) |>.filter fun x => x.2.tunnels.contains n

/-- The frame that a channel takes next: the one whose end of frame is the earliest. -/
def rxFirst : List (Nat × RxItem) → Option (Nat × RxItem)
  | [] => none
  | x :: r =>
    match rxFirst r with
    | none => some x
    | some y => if x.2.seq ≤ y.2.seq then some x else some y

/-- `TUN_ENCAP_TAKE`: a channel takes its next edge frame. -/
def doTunEncapTake (s : State) (n : Nat) : State :=
  let s := if s.tunRuns n then s.batchFlow n else s
  let t := s.tunCh n
  let batch := bit t.flags 3
  let room := if batch then t.closed.isNone else s.xRoom (onX1 n) (t.maxBytes + 46)
  if !s.tunRuns n || !s.encTakes n || !room || (t.profile < 64 && 4096 ≤ s.sec.queue.length) then s
  else match rxFirst (s.rxFor n) with
  | none => s
  | some (chan, x) =>
    let s := s.rxTake chan x.seq fun y => { y with tunnels := y.tunnels.filter (· ≠ n) }
    match t.busMap.find? fun b => bit b.flags 0 && b.edge == chan with
    | none => s.bump Reg.tunEncDropCnt
    | some b =>
      let stamp := x.doms.getD t.domain 0
      let m : TunMsg := { bytes := s.acfOf chan b.bus x.frame stamp, stamp := stamp, eof := x.eof }
      if t.maxBytes < m.bytes.length then s.bump Reg.tunEncDropCnt
      else if 64 ≤ t.profile then (if batch then s.batchJoin n m else s.tunSend n [m] .none none)
      else
        let (k, s) := s.cipherEnter n t.profile t.keySlot x.frame.data
        match k, batch with
        | none, false => s.tunSend n [m] .failed none
        | some k, false => s.tunSend n [m] .waiting (some k)
        | none, true => s.bump Reg.tunAuthFailCnt
        | some k, true => s.tunMod n fun t => { t with auth := aset t.auth k m }

/-! ### Injection (R22, R357, R494) -/

/-- A channel whose closed batch waited for its injection queue moves it on. -/
def tunMoveOn (s : State) (n : Nat) : State :=
  match (s.tunCh n).closed with
  | none => s
  | some l =>
    if s.tunRuns n && s.xRoom (onX1 n) (s.tunFrame (s.tunCh n) l).length then
      ((s.tunMod n fun t => { t with closed := none }).tunSend n l .none none).batchFlow n
    else s

/-- Whether a striker discards a frame in place of injecting it. -/
def standbyDiscards (s : State) (x : XFrame) : Bool :=
  s.strikerNow && (decide (512 ≤ x.origin) ||
    (s.tunCh x.origin).busMap.any fun b => bit b.flags 0 && s.sharedCh b.edge)

/-- `X_PORT_INJECT`: X0 or X1 injects its next frame, at no more than 2 Gb/s. -/
def doXPortInject (s : State) (x : Nat) : State :=
  let second := decide (x = 1)
  if 1 < x || !s.datapathUp || s.quenched Dom.services || s.quenched (pipeDom x) then s
  else match (if second then s.tun.x1 else s.tun.x0) with
  | [] => s
  | f :: r =>
    let s := s.setTun (if second then { s.tun with x1 := r } else { s.tun with x0 := r })
    let s :=
      if s.standbyDiscards f then s.bump Reg.pairStandbyDiscardCnt
      else
        let s := s.waitUntil (if second then s.tun.free1 else s.tun.free0)
        let free := s.clk + 4 * f.bytes.length
        let s := s.setTun (if second then { s.tun with free1 := free } else { s.tun with free0 := free })
        let s := if f.origin < 512 then s.bump Reg.tunEncFrameCnt else s
        let fid := s.fr.next
        let src := 65 + x
        let g : Frame :=
          { fid := fid, src := src, origin := f.origin, tIn := s.clk, start := f.start, inAt := s.clk, bytes := f.bytes,
            complete := true, lastAt := s.clk, edge := f.edge, ticket := f.ticket }
        let owed : List Owed := if f.edge = .waiting then [⟨src, fid, f.ticket, none⟩] else []
        s.setFr { s.fr with
          next := fid + 1, frames := s.fr.frames ++ [g], heads := s.fr.heads ++ [(src, fid)], owed := s.fr.owed ++ owed }
    let s := ((List.range 4).filter fun q => decide (2 ≤ q) == second).foldl
      (fun s q => seqMoveOn (s.seqOf q).outbox.length q s) s
    ((s.tun.ch.map (·.1)).filter fun n => onX1 n == second).foldl tunMoveOn s

/-! ### Decapsulation (R360 to R365) -/

/-- A frame or message of a channel is discarded, with its cause. -/
def tunDiscard (s : State) (n cause : Nat) : State :=
  let arg := n + 2 ^ 16 * cause
  let s := (s.bump Reg.tunDecDiscardCnt).rset Reg.tunLastDiscard (BitVec.ofNat 32 arg)
  let (s, t) := s.raiseLimited (s.tunCh n).evAt 100000000 0x8001 arg
  s.tunMod n fun x => { x with evAt := t }

/-- What one message of a tunnel frame is. -/
inductive Acf where
  /-- a whole frame -/
  | whole (m : DecMsg)
  /-- a segment of an XL frame: first or continuation, what both must share, and TOTAL_LEN -/
  | segment (first : Bool) (same : List Byte) (m : DecMsg)
  /-- skipped, with its cause -/
  | skip (cause : Nat)
  deriving DecidableEq, Repr

/-- A message whose length tests have passed (R360 tests 5 and 6, R361). -/
def acfParse (xlType : Nat) (m : List Byte) : Acf :=
  let type := be m 0 2 / 512
  let b2 := be m 2 1
  let b3 := be m 3 1
  let base : CanFrame :=
    { format := .classicData, ext := false, id := 0, brs := false, esi := false, sdt := 0, sec := false, rrs := false,
      vcid := 0, af := 0, data := [], dlc := 0 }
  let pad := b2 / 64
  if type = 1 then
    let n := m.length - 16 - pad
    let fd := bit b2 1
    let rtr := bit b2 4
    let ok := 16 + pad ≤ m.length && (if fd then [0, 1, 2, 3, 4, 5, 6, 7, 8, 12, 16, 20, 24, 32, 48, 64].contains n && !rtr
      else decide (n ≤ 8))
    if !ok then .skip 6
    else .whole
      { kind := 0, bus := b3 % 32
        frame := { base with format := if fd then .fd else if rtr then .classicRemote else .classicData
                             ext := bit b2 3, id := be m 12 4 % 2 ^ 29, brs := fd && bit b2 2, esi := fd && bit b2 0
                             data := if rtr then [] else (m.drop 16).take n, dlc := n } }
  else if type = 3 then
    let n := m.length - 12 - pad
    if 12 + pad ≤ m.length ∧ 1 ≤ n ∧ n ≤ 8 then
      .whole { kind := 1, bus := b2 % 32, frame := { base with id := b3 % 64, data := (m.drop 12).take n, dlc := n } }
    else .skip 6
  else if type = xlType then
    let n := le m 20 2 % 4096
    let total := le m 22 2 % 4096
    let seg := b2 / 64
    let fits := 1 ≤ n && n ≤ 2016 && 24 + n ≤ m.length && m.length ≤ 27 + n
    let whole := match seg with
      | 0 => total == n
      | 1 => n == 2016 && 2016 < total && total ≤ 2048
      | 2 => 2016 < total && total ≤ 2048 && n + 2016 == total
      | _ => false
    if !(fits && whole) then .skip 6
    else
      let d : DecMsg :=
        { kind := 2, bus := b2 % 32
          frame := { base with format := .xl, id := le m 4 2 % 2048, sdt := le m 6 1, sec := bit b3 1, rrs := bit b3 0,
                               vcid := le m 7 1, af := le m 8 4, data := (m.drop 24).take n, dlc := 0 } }
      if seg = 0 then .whole d
      else .segment (seg == 1) (leBytes 1 (b2 % 64) ++ (m.drop 3).take 17 ++ leBytes 2 total) d
  else .skip 5

/-- The size of a message's header in quadlets. -/
def acfHeader (xlType type : Nat) : Nat := if type = 1 then 4 else if type = 3 then 3 else if type = xlType then 6 else 1

/-- What a tunnel frame holds, in order: its messages, and the causes of what is skipped. A first
segment that its continuation does not follow at once is skipped before what follows it. -/
def acfList (xlType : Nat) : Nat → Option (List Byte × DecMsg) → List Byte → List (DecMsg ⊕ Nat)
  | 0, p, _ => if p.isSome then [.inr 8] else []
  | k + 1, p, l =>
    let lone : List (DecMsg ⊕ Nat) := if p.isSome then [.inr 8] else []
    if l = [] then lone
    else
      let type := be l 0 2 / 512
      let len := be l 0 2 % 512
      if len = 0 ∨ len = 511 ∨ len < acfHeader xlType type then lone ++ [.inr 3]
      else if l.length < 4 * len then lone ++ [.inr 4]
      else
        let rest := l.drop (4 * len)
        match acfParse xlType (l.take (4 * len)) with
        | .whole m => lone ++ .inl m :: acfList xlType k none rest
        | .skip c => lone ++ .inr c :: acfList xlType k none rest
        | .segment true same m => lone ++ acfList xlType k (some (same, m)) rest
        | .segment false same m =>
          match p with
          | none => .inr 8 :: acfList xlType k none rest
          | some (same', m') =>
            if same = same' then
              .inl { m' with frame := { m'.frame with data := m'.frame.data ++ m.frame.data } } :: acfList xlType k none rest
            else .inr 8 :: .inr 8 :: acfList xlType k none rest

/-- The map entry of a bus ID whose edge channel is of a message's bus kind (test 7). -/
def busEntry (t : TunCh) (m : DecMsg) : Option BusMapEntry :=
  t.busMap.find? fun b => bit b.flags 0 && b.bus == m.bus && ((m.kind == 1) == decide (64 ≤ b.edge))

/-- Write a message to its edge target (R362). -/
def tunPut (s : State) (n : Nat) (m : DecMsg) : State :=
  match busEntry (s.tunCh n) m with
  | none => s.tunDiscard n 7
  | some b =>
    if b.edge < 64 then
      let c := (s.canCh b.edge).cfg
      if !c.enable || !canFormatOn c m.frame.format || (m.frame.format == .xl && decide (c.xlLimit < m.frame.data.length)) then
        s.tunDiscard n 9
      else s.canWrite b.edge b.target { frame := m.frame, single := bit b.flags 1, writer := 0 }
    else
      let l := b.edge - 64
      match (s.linCh l).cfg.entries.findIdx? fun e => e.id == m.frame.id && e.dir == 1 with
      | none => s.tunDiscard n 9
      | some i => if (s.linCh l).cfg.enable then s.linPublish l i m.frame.data else s.tunDiscard n 9

/-- Write a message whose tag, where the channel names a profile, has first to be verified. -/
def tunWrite (s : State) (n : Nat) (m : DecMsg) : State :=
  let t := s.tunCh n
  if bit t.flags 4 then
    let a : Arrival :=
      { kind := 2, channel := m.bus, tunnel := n, id := m.frame.id + (if m.frame.ext then 2 ^ 31 else 0),
        data := m.frame.data, item := none }
    ((List.range 4).filter (bit t.router)).foldl (fun s q => s.sigArrive q a) s
  else if 64 ≤ t.profile then s.tunPut n m
  else
    let (k, s) := s.cipherEnter n t.profile t.keySlot m.frame.data
    match k with
    | none => (s.bump Reg.tunAuthFailCnt).tunDiscard n 10
    | some k => s.tunMod n fun t => { t with check := aset t.check k m }

/-- Write the messages of one frame. -/
def tunWriteAll (s : State) (n : Nat) (l : List DecMsg) : State := l.foldl (fun s m => s.tunWrite n m) s

/-- Test 7 of a frame's messages, and the discards of what its tests skip. -/
def tunSort (s : State) (n : Nat) (l : List (DecMsg ⊕ Nat)) : List DecMsg × State :=
  let t := s.tunCh n
  l.foldl (fun (ms, s) x =>
    match x with
    | .inr c => (ms, s.tunDiscard n c)
    | .inl m =>
      if !bit t.flags 4 && (busEntry t m).isNone then (ms, s.tunDiscard n 7) else (ms ++ [m], s)) ([], s)

/-- A matched frame is taken apart. `a`: its bytes from the AVTP header on. -/
def tunFrameIn (s : State) (n : Nat) (a : List Byte) : State :=
  let t := s.tunCh n
  let nt := bit t.flags 2
  let hdr := if nt then 12 else 24
  if be a 0 1 ≠ (if nt then 0x82 else 0x05) ∨ be a 1 1 / 128 = 0 ∨ be a 1 1 / 16 % 8 ≠ 0 then s.tunDiscard n 1
  else
    let seq := if nt then be a 3 1 else be a 2 1
    let s := if t.started then s.bumpBy Reg.tunSeqGapCnt ((seq + 512 - t.seq - 1) % 256) else s
    let s := s.tunMod n fun t => { t with seq := seq, started := true }
    let len := if nt then be a 1 2 % 2048 else be a 20 2
    if a.length < hdr + len then s.tunDiscard n 2
    else
      let data := (a.drop hdr).take len
      let (ms, s) := s.tunSort n (acfList s.xlType (len + 1) none data)
      let tv := !nt && bit (be a 1 1) 0
      let d := (be a 12 4 + 2 ^ 32 - s.domNs t.domain % 2 ^ 32) % 2 ^ 32
      let hold := bit t.flags 5 && tv
      let s := if hold && decide (2 ^ 31 ≤ d) then s.bump Reg.tunLatePresCnt else s
      let wait := if hold && decide (d < 2 ^ 31) then d else 0
      if wait = 0 && (s.tunCh n).pres.isEmpty then s.tunWriteAll n ms
      else s.tunMod n fun t => { t with pres := t.pres ++ [(ms, s.clk + wait)] }

/-- `TUN_DECAPSULATE`: the next committed frame on X0 or X1. -/
def doTunDecapsulate (s : State) (x : Nat) : State :=
  let second := decide (x = 1)
  if 1 < x || !s.datapathUp || s.quenched Dom.services then s
  else match (if second then s.tun.in1 else s.tun.in0) with
  | [] => s
  | f :: r =>
    let pop (s : State) : State := s.setTun (if second then { s.tun with in1 := r } else { s.tun with in0 := r })
    let h := parse f
    let a := f.drop h.l3
    let hit := s.tun.ch.find? fun (y : Nat × TunCh) => bit y.2.flags 0 && bit y.2.flags 1 && y.2.stream == be a 4 8
    match hit.filter fun _ => h.etherType == 0x22F0 && decide (12 ≤ a.length) with
    | none => (pop s).bump Reg.tunNomatchCnt
    | some (n, t) =>
      if s.quenched (tunUnit n) then pop s
      else if s.rfld Reg.tunCtrl 1 1 = 0 then ((pop s).bump Reg.tunDecFrameCnt).bump Reg.tunDecDiscardCnt
      else if t.profile < 64 ∧ !bit t.flags 4 ∧ 4096 < s.sec.queue.length + a.length / 4 then s
      else ((pop s).bump Reg.tunDecFrameCnt).tunFrameIn n a

/-- Frames behind the one whose hold has ended are written too, up to the next that is held. -/
def presFlow : Nat → Nat → State → State
  | 0, _, s => s
  | k + 1, n, s =>
    match (s.tunCh n).pres with
    | [] => s
    | (ms, t) :: r => if t ≤ s.clk then presFlow k n ((s.tunMod n fun t => { t with pres := r }).tunWriteAll n ms) else s

/-- `PRESENTATION_HOLD_END`: the held frame's messages are written (R363). -/
def doPresentationHoldEnd (s : State) (n : Nat) : State :=
  if !s.tunRuns n then s
  else match (s.tunCh n).pres with
  | [] => s
  | (_, t) :: _ => presFlow (s.tunCh n).pres.length n (s.waitUntil t)

/-! ### Results of the cipher pool (R359, R362, R405) -/

/-- A result reaches what waits for it: a frame that was injected, which may have gone meanwhile
(R221, R223), one in an injection queue, or a message. -/
def cipherDeliver (s : State) (k : Nat) (ok : Bool) : State :=
  let v : Verdict := if ok then .passed else .failed
  match s.fr.owed.find? (·.ticket == some k) with
  | some o =>
    let s := (s.owedTake o).owedLate o
    (match (s.frame? o.fid).filter fun f => f.edge == .waiting && f.outcome == .pending with
     | none => s.bump (Reg.spcLateVerdictCnt (pipeOf o.src))
     | some f => ((s.fmod f.fid fun x => { x with edge := v, verdictAt := some s.clk }).judge f.fid).gc)
  | none =>
    let set (x : XFrame) : XFrame := if x.ticket == some k then { x with edge := v } else x
    let s := s.setTun { s.tun with x0 := s.tun.x0.map set, x1 := s.tun.x1.map set }
    match s.tun.ch.find? fun (y : Nat × TunCh) => (aget y.2.auth k).isSome || (aget y.2.check k).isSome with
    | none => s
    | some (n, t) =>
      let s := s.tunMod n fun t => { t with auth := adel t.auth k, check := adel t.check k }
      match aget t.auth k, aget t.check k with
      | some m, _ => if ok then s.batchJoin n m else s.bump Reg.tunAuthFailCnt
      | none, some m => if ok then s.tunPut n m else (s.bump Reg.tunAuthFailCnt).tunDiscard n 10
      | none, none => s

/-- `CIPHER_REQUEST_COMPLETE`: the `i`-th request of the queue completes, when it has been
computed and its source has no earlier one. -/
def doCipherRequestComplete (s : State) (i : Nat) : State :=
  if !s.datapathUp || s.quenched Dom.security then s
  else match s.sec.queue[i]? with
  | none => s
  | some r =>
    match r.fate with
    | none => s
    | some e =>
      if (s.sec.queue.take i).any (·.source == r.source) then s
      else
        let s := s.setSec { s.sec with queue := s.sec.queue.filter (·.ticket ≠ r.ticket) }
        let (ok, s) := s.cipherEnds r e
        s.cipherDeliver r.ticket ok

/-- A quench of the security domain completes every request with result 3 (R408). -/
def cipherAbort (s : State) : State :=
  let l := s.sec.queue
  let s := (s.setSec { s.sec with queue := [] }).bumpBy Reg.secCpAbortCnt l.length |>.bumpBy Reg.secCpReqCnt l.length
  l.foldl (fun s r => s.cipherDeliver r.ticket false) s

/-! ### `TUN_CHANNEL_SET` (R381 to R383) -/

/-- The channel that a body describes. -/
def tunBody (c : Cmd) : TunCh :=
  { flags := c.u 2 1 % 128, domain := c.u 3 1, maxBytes := c.u 4 2, maxMsgs := c.u 6 1, router := c.u 7 1 % 16,
    stream := c.u 8 8, da := c.bytes 16 6, tci := c.u 22 2, profile := c.u 24 2, keySlot := c.u 26 2,
    presOffset := c.u 28 4, batchUs := c.u 32 2,
    busMap := (List.range 8).map fun i =>
      { bus := c.u (40 + 4 * i) 1, edge := c.u (41 + 4 * i) 1, target := c.u (42 + 4 * i) 1, flags := c.u (43 + 4 * i) 1 } }

/-- The bus map rules of R351. -/
def busMapOk (t : TunCh) : Bool :=
  let l := t.busMap.filter fun b => bit b.flags 0
  (l.map (·.bus)).Nodup && (l.map (·.edge)).Nodup &&
    l.all fun b => b.bus < 32 && b.edge < 96 &&
      (!bit t.flags 1 || b.target == 0xFF || (decide (b.target < 24) && decide (b.edge < 64)))

/-- Whether a live image names a tunnel channel: a window, or a stream that it originates. -/
def namesTunnel (s : State) (n : Nat) : Bool :=
  s.liveImages.any fun i => i.windows.any (·.ch == n) ||
    i.guarantees.any fun g => (g.source == 65 || g.source == 66) && g.origin == n

/-- A channel takes its configuration. -/
def tunApply (s : State) (n : Nat) (x : TunCh) : State :=
  let t := s.tunCh n
  let fresh := !bit x.flags 0 || bit x.flags 1 != bit t.flags 1
  let restart := bit x.flags 0 && !bit t.flags 0
  let s := if !fresh && bit t.flags 3 && !bit x.flags 3 then
      let m : List TunMsg := (s.tunCh n).waiting
      m.foldl (fun s m => s.tunSend n [m] .none none)
        ((s.batchClose n).tunMod n fun t => { t with waiting := [] })
    else s
  let t := s.tunCh n
  let keep : TunCh := if fresh then {} else t
  let y : TunCh := { x with
    seq := if restart then 0 else t.seq, started := !restart && t.started, batch := keep.batch, batchAt := keep.batchAt,
    waiting := keep.waiting, closed := keep.closed, auth := keep.auth, check := keep.check, pres := keep.pres, evAt := t.evAt }
  (s.tunMod n fun _ => y).rxPurge

/-- `TUN_CHANNEL_SET` -/
def tunChannelSet (c : Cmd) (s : State) : Exec :=
  let n := c.u 0 2
  let x := tunBody c
  let on := bit x.flags 0
  let t := s.tunCh n
  Exec.datapath s <| Exec.need s [tunUnit n] <|
  Exec.check (n < 512 && x.domain < 4 && 64 ≤ x.maxBytes && x.maxBytes ≤ 4032 && 1 ≤ x.maxMsgs && x.maxMsgs ≤ 64 &&
    1 ≤ x.batchUs && x.batchUs ≤ 10000 && (x.profile == 0xFFFF || (x.profile < 64 && x.keySlot < 1024)) &&
    !(bit x.flags 2 && (bit x.flags 5 || bit x.flags 6))) s St.badParam <|
  Exec.check (!(on && bit x.flags 1) || !(s.tun.ch.any fun (y : Nat × TunCh) =>
    y.1 != n && bit y.2.flags 0 && bit y.2.flags 1 && y.2.stream == x.stream)) s 0x0601 <|
  Exec.check (busMapOk x) s 0x0602 <|
  Exec.check (!(s.namesTunnel n && bit t.flags 0) ||
    (on && bit x.flags 1 == bit t.flags 1 && bit x.flags 3 == bit t.flags 3)) s 0x0603 <|
  .done (s.tunApply n x) St.ok 0 []

end State

/-- `TUNNEL_WINDOW_OPEN` -/
def execTunnelWindowOpen (win : Nat) (s : State) : Host.Outcome State Fault Refusal := .next (s.doTunnelWindowOpen win)

/-- `TUNNEL_WINDOW_CLOSE` -/
def execTunnelWindowClose (win : Nat) (s : State) : Host.Outcome State Fault Refusal := .next (s.doTunnelWindowClose win)

/-- `TUN_ENCAP_TAKE` -/
def execTunEncapTake (ch : Nat) (s : State) : Host.Outcome State Fault Refusal := .next (s.doTunEncapTake ch)

/-- `BATCH_TIMEOUT` -/
def execBatchTimeout (ch : Nat) (s : State) : Host.Outcome State Fault Refusal := .next (s.doBatchTimeout ch)

/-- `X_PORT_INJECT` -/
def execXPortInject (x : Nat) (s : State) : Host.Outcome State Fault Refusal := .next (s.doXPortInject x)

/-- `TUN_DECAPSULATE` -/
def execTunDecapsulate (x : Nat) (s : State) : Host.Outcome State Fault Refusal := .next (s.doTunDecapsulate x)

/-- `PRESENTATION_HOLD_END` -/
def execPresentationHoldEnd (ch : Nat) (s : State) : Host.Outcome State Fault Refusal := .next (s.doPresentationHoldEnd ch)

/-- `CIPHER_REQUEST_COMPLETE` -/
def execCipherRequestComplete (n : Nat) (s : State) : Host.Outcome State Fault Refusal := .next (s.doCipherRequestComplete n)

/-- `TUN_CHANNEL_SET` -/
def execTunChannelSet (host queue : Nat) (s : State) : Host.Outcome State Fault Refusal :=
  .next (s.runCmd host queue 0x0600 State.tunChannelSet)

end Sys2Proof.Machine
end

