-- ==== Sys2Proof/Machine/Security.lean ====
section
/-! DEFINITION.
Commands of the security domain: firewall rules (R386, R392, R393), MACsec (R395, R399 to
R401), freshness entries (R414), and the loss of keys (R415). -/

namespace Sys2Proof.Machine

namespace State

/-! ### `SEC_FW_RULE` (R386, R392, R393) -/

/-- A rule record taken apart. -/
def fwRec (b : List Byte) : FwRule :=
  { flags := le b 0 1, action := le b 1 1, hq := le b 2 1, srcLo := le b 4 2, srcHi := le b 6 2, dstLo := le b 8 2,
    dstHi := le b 10 2, value := (b.drop 16).take 64, mask := (b.drop 80).take 64 }

/-- What R393 asks of a record. -/
def fwRecOk (b : List Byte) : Bool :=
  let r := fwRec b
  r.action ≤ 4 && r.hq ≤ 31 && r.srcLo ≤ r.srcHi && r.dstLo ≤ r.dstHi && le b 3 1 == 0 && le b 12 4 == 0 &&
    le r.mask 61 3 == 0

/-- Put one rule from an epoch on. -/
def fwPut (s : State) (e n : Nat) (b : List Byte) : State :=
  let r := fwRec b
  let l := versionSet (agetD s.sec.rules n []) e (if bit r.flags 0 then some r else none)
  s.setSec { s.sec with
    rules := if l = [] then adel s.sec.rules n else aset s.sec.rules n l
    hits := adel s.sec.hits n }

/-- `SEC_FW_RULE` -/
def secFwRule (dma : List Byte) (c : Cmd) (s : State) : Exec :=
  let first := c.u 0 2
  let count := c.u 2 2
  let recs := (List.range count).map fun i => fit 144 (dma.drop (144 * i))
  Exec.datapath s <| Exec.need s [Dom.security, Dom.pipe0, Dom.pipe1] <|
  Exec.check (1 ≤ count && count ≤ 16384 && first + count ≤ 16384 && c.u 8 8 % 8 == 0) s St.badParam <|
  Exec.check (!s.epochLimit) s 0x0702 <|
  match recs.findIdx? fun b => !fwRecOk b with
  | some i => .done s 0x0701 i []
  | none =>
    let s := s.advanceEpoch
    .done (recs.zipIdx.foldl (fun s (b, i) => s.fwPut s.epoch (first + i) b) s) St.ok s.epoch []

/-! ### `SEC_MACSEC_SA` (R395, R399 to R401) -/

/-- Run the next command of a queue when it is a `SEC_MACSEC_SA` of an operation. -/
def runMacsec (s : State) (host queue op : Nat) (f : Cmd → State → Exec) : State :=
  if (s.headCmd host queue).any fun c => c.u 1 1 == op || (op == 0 && decide (4 < c.u 1 1)) then s.runCmd host queue 0x0701 f
  else s

/-- What every operation checks first: the port, and whether its engine runs. -/
def Exec.macsec (s : State) (c : Cmd) (dirs : List Bool) (rest : Exec) : Exec :=
  let p := c.u 0 1
  Exec.datapath s <| Exec.need s (dirs.map (macsecUnit p)) <| Exec.check (p < 64 && c.u 1 1 ≤ 4) s St.badParam rest

/-- `SEC_MACSEC_SA`, `PORT_CONFIG` -/
def portConfig (c : Cmd) (s : State) : Exec :=
  let f := c.u 6 2
  Exec.macsec s c [false, true] <|
  .done (s.msMod (c.u 0 1) fun m => { m with rxEn := bit f 0, txEn := bit f 1, strict := bit f 2, exemptPtp := bit f 3 })
    St.ok 0 []

/-- The SC that a body names: the transmit SC, or a receive SC. -/
def scOf (m : MsPort) (c : Cmd) : Sc := if c.u 2 1 = 0 then m.tx else agetD m.rx (c.u 4 2) {}

/-- A port with that SC changed. -/
def scPut (m : MsPort) (c : Cmd) (x : Sc) : MsPort :=
  if c.u 2 1 = 0 then { m with tx := x } else { m with rx := aset m.rx (c.u 4 2) x }

/-- DIR, and RX_SC where DIR is receive. -/
def scNamed (c : Cmd) : Bool := c.u 2 1 == 0 || (c.u 2 1 == 1 && c.u 4 2 < 8)

/-- `SEC_MACSEC_SA`, `SC_CONFIG` -/
def scConfig (c : Cmd) (s : State) : Exec :=
  let f := c.u 6 2
  let old := scOf (s.msPort (c.u 0 1)) c
  let x : Sc :=
    { enable := bit f 0, xpn := bit f 1, conf := bit f 2, inclSci := bit f 3, replay := bit f 4, autoSwitch := bit f 5,
      sci := beNat (c.bytes 8 8), confOff := c.u 18 1, window := c.u 20 4, sas := old.sas }
  let gone := x.xpn != old.xpn || x.confOff != old.confOff
  Exec.macsec s c [c.u 2 1 == 0] <|
  Exec.check (scNamed c && (x.confOff == 0 || x.confOff == 30 || x.confOff == 50)) s St.badParam <|
  .done (s.msMod (c.u 0 1) fun m =>
    let m := scPut m c (if gone then { x with sas := [] } else x)
    if gone ∧ c.u 2 1 = 0 then { m with txAn := none, exhausted := false } else m) St.ok 0 []

/-- Whether an AN is that of the active transmit SA. An SA that an erase has stopped is no longer
in use (R415). -/
def saActive (m : MsPort) (an : Nat) : Bool := m.txAn == some an && (aget m.tx.sas an).any fun a => !a.stopped

/-- `SEC_MACSEC_SA`, `SA_INSTALL` -/
def saInstall (c : Cmd) (s : State) : Exec :=
  let p := c.u 0 1
  let an := c.u 3 1
  let tx := c.u 2 1 == 0
  let m := s.msPort p
  let pn := c.u 24 8
  let a : Sa :=
    { keySlot := c.u 16 2, nextPn := pn, ssci := c.u 32 4, salt := c.u 36 12, stopped := false, highPn := 0, firstPn := pn,
      pend := [], warned := false }
  Exec.macsec s c [tx] <|
  Exec.need s [Dom.keyStore] <|
  Exec.check (scNamed c && an < 4 && c.u 16 2 < 1024 && 1 ≤ pn && ((scOf m c).xpn || pn < 2 ^ 32)) s St.badParam <|
  Exec.check (s.keyFor (c.u 16 2) (if tx then 1 else 2) 1).isSome s 0x0704 <|
  Exec.check (!(tx && saActive m an)) s 0x0703 <|
  Exec.check (scOf m c).enable s 0x0705 <|
  let s := s.msMod p fun m =>
    let x := scOf m c
    let m := scPut m c { x with sas := aset x.sas an a }
    if tx && (m.txAn.isNone || m.txAn == some an) then { m with txAn := some an, exhausted := false } else m
  .done (if (s.msPort p).txAn = some an ∧ tx then s.pnWarn p an else s) St.ok 0 []

/-- `SEC_MACSEC_SA`, `SA_DELETE` -/
def saDelete (c : Cmd) (s : State) : Exec :=
  let p := c.u 0 1
  let an := c.u 3 1
  let tx := c.u 2 1 == 0
  Exec.macsec s c [tx] <|
  Exec.check (scNamed c && an < 4) s St.badParam <|
  Exec.check (!(tx && saActive (s.msPort p) an)) s 0x0703 <|
  .done (s.msMod p fun m =>
    let x := scOf m c
    let m := scPut m c { x with sas := adel x.sas an }
    if tx && m.txAn == some an then { m with txAn := none, exhausted := false } else m) St.ok 0 []

/-- `SEC_MACSEC_SA`, `TX_SWITCH` -/
def txSwitch (c : Cmd) (s : State) : Exec :=
  let p := c.u 0 1
  let an := c.u 3 1
  Exec.macsec s c [true] <|
  Exec.check (an < 4) s St.badParam <|
  match aget (s.msPort p).tx.sas an with
  | none => Exec.fail s 0x0705
  | some a =>
    let top := if (s.msPort p).tx.xpn then 2 ^ 64 - 1 else 2 ^ 32 - 1
    let s := (s.msMod p fun m => { m with txAn := some an, exhausted := false }).pnWarn p an
    .done (if top < a.nextPn then s.pnExhausted p an else s) St.ok 0 []

/-! ### Loss of keys (R415) -/

/-- SAs that name an erased slot stop. -/
def saStop (gone : Nat → Bool) (x : Sc) : Sc :=
  { x with sas := x.sas.map fun (n, a) => (n, if gone a.keySlot then { a with stopped := true } else a) }

/-- Slots have been erased: the engines stop using their keys. A request that has not been
dispatched is refused as R404 refuses it; one in an engine ends with the same result. -/
def keysLost (s : State) (slots : List Nat) : State :=
  if slots.isEmpty then s
  else
    let gone (n : Nat) : Bool := slots.contains n
    let port (m : MsPort) : MsPort := { m with tx := saStop gone m.tx, rx := m.rx.map fun (i, x) => (i, saStop gone x) }
    let req (r : CipherReq) : CipherReq :=
      if gone r.keySlot then { r with fate := some (if r.fate.isNone then .refused else .erased) } else r
    (s.setSec { s.sec with ms := s.sec.ms.map fun (i, m) => (i, port m), queue := s.sec.queue.map req }).raise 0x9007 slots.length

end State

/-- `SEC_FW_RULE` -/
def execSecFwRule (host queue : Nat) (dma : List Byte) (s : State) : Host.Outcome State Fault Refusal :=
  .next (s.runDma host queue 0x0700 (fun c => c.u 8 8) (fun c => 144 * c.u 2 2) (State.secFwRule dma))

/-- `PORT_CONFIG` -/
def execPortConfig (host queue : Nat) (s : State) : Host.Outcome State Fault Refusal :=
  .next (s.runMacsec host queue 0 State.portConfig)

/-- `SC_CONFIG` -/
def execScConfig (host queue : Nat) (s : State) : Host.Outcome State Fault Refusal :=
  .next (s.runMacsec host queue 1 State.scConfig)

/-- `SA_INSTALL` -/
def execSaInstall (host queue : Nat) (s : State) : Host.Outcome State Fault Refusal :=
  .next (s.runMacsec host queue 2 State.saInstall)

/-- `SA_DELETE` -/
def execSaDelete (host queue : Nat) (s : State) : Host.Outcome State Fault Refusal :=
  .next (s.runMacsec host queue 3 State.saDelete)

/-- `TX_SWITCH` -/
def execTxSwitch (host queue : Nat) (s : State) : Host.Outcome State Fault Refusal :=
  .next (s.runMacsec host queue 4 State.txSwitch)

/-- `SEC_FV_WRITE`: a write of its GO bit sets the selected freshness entry (R414). -/
def execSecFvWrite (host tag : Nat) (v : Word) (s : State) : Host.Outcome State Fault Refusal :=
  .next (s.postReg host tag Reg.secFvWrite v)

end Sys2Proof.Machine
end

