-- ==== Sys2Proof/Machine/Keys.lean ====
section
/-! DEFINITION.
The key store: derivation and unwrapping (R428 to R432), erase (R433), alarms (R434, R435),
rebuilding (R436) and the life cycle (R419, R422, R423). -/

namespace Sys2Proof.Machine

/-- A derived key (R428). CONTEXT has 16 bytes; the keys of a service session take the 32 bytes
that R552 gives them (log entry 27). -/
def kdf (parent label : List Byte) (level usage dest : Nat) (ctx : List Byte) (nbits : Nat) : List Byte :=
  let input (i : Nat) : List Byte :=
    beBytes 4 i ++ label ++ [0] ++ leBytes 1 level ++ leBytes 1 usage ++ leBytes 1 dest ++ [0] ++ ctx ++ beBytes 4 nbits
  (Crypto.cmac parent (input 1) ++ Crypto.cmac parent (input 2)).take (nbits / 8)

/-- What a blob unwraps to, when its integrity check and the rules of R432 hold: USAGE, DEST and
the key. -/
def unwrapBlob (key : List Byte) (method : Nat) (blob : List Byte) : Option (Nat × Nat × List Byte) :=
  let (a, p) := Crypto.unwrap key blob
  let intact := if method = 0 then a == List.replicate 8 0xA6
    else a == [0xA6, 0x59, 0x59, 0xA6] ++ beBytes 4 p.length
  let n := p.length - 8
  if intact && (n == 16 || n == 32) && le p 2 2 == 8 * n && le p 4 4 == 0 then some (le p 0 1, le p 1 1, p.drop 8) else none

/-- The KCV of a key (R427), as a number whose low byte is the first byte. -/
def kcv (key : List Byte) : Nat := leNat ((Crypto.aesEnc key (Crypto.zeros 16)).take 3)

namespace State

/-- A slot gets its contents. An alarm that persists erases a key as it enters (R435). -/
def slotPut (s : State) (n : Nat) (k : KeySlot) : State :=
  let k := if s.key.asserted ≠ 0 ∧ k.state = .loaded then { k with state := .erased, key := [] } else k
  s.setKey { s.key with slots := if k = {} then adel s.key.slots n else aset s.key.slots n k }

/-- Whether a slot is the parent of another one. -/
def hasChild (s : State) (n : Nat) : Bool := s.key.slots.any fun x => x.1 != n && x.2.parent == some n && x.2.state != .empty

/-- Attributes that a parent gives at most (R426). -/
def attrMask (s : State) (parent : Option Nat) : Nat × Nat :=
  match parent with
  | none => (0x3F, 0x3F)
  | some p => ((s.keySlot p).usage, (s.keySlot p).dest % 64)

/-- Level of a key below a parent. -/
def levelBelow (s : State) (parent : Option Nat) : Nat :=
  match parent with
  | none => 1
  | some p => (s.keySlot p).level + 1

/-- Checks 1 to 4 of R430. -/
def Exec.keyTarget (s : State) (slot : Nat) (other : Option Nat) (replace : Bool) (rest : Exec) : Exec :=
  Exec.check (s.key.asserted == 0) s 0x0786 <|
  Exec.check (slot < 1008 && other.all (· < 1008)) s 0x0781 <|
  Exec.check ((s.keySlot slot).state == .empty || replace) s 0x0780 <|
  Exec.check (!(replace && s.hasChild slot)) s 0x0784 rest

/-- RESULT of a key that entered a slot (R429). -/
def keyResult (slot level : Nat) (key : List Byte) : Nat := slot + 2 ^ 16 * level + 2 ^ 32 * kcv key

/-- Whether the root is present and may be derived from (R420, R422). -/
def rootUsable (s : State) : Bool := s.key.root.isSome && s.key.inForce != .blank

/-- The key that a derivation starts from, when check 6 of R430 holds for it. -/
def deriveKey (s : State) (parent : Option Nat) : Option (List Byte) :=
  match parent with
  | none => if s.rootUsable then s.key.root else none
  | some p => (s.keyFor p 0x20 2).filter fun k => k.length == 32

/-- Requests that a derivation makes of the cipher pool. -/
def kdfSteps (parent : Option Nat) (nbits : Nat) : Nat := if parent.isNone then 0 else ceilDiv nbits 128

/-- Whether a command is a `KEY_DERIVE` with REBUILD. -/
def isRebuild (c : Cmd) : Bool := bit (c.u 8 1) 1

/-- Run the next `KEY_DERIVE` of a queue, with or without REBUILD. -/
def runDerive (s : State) (host queue : Nat) (rebuild : Bool) (f : Cmd → State → Exec) : State :=
  if (s.headCmd host queue).any fun c => isRebuild c == rebuild then s.runCmd host queue 0x0702 f else s

/-- `KEY_DERIVE` without REBUILD -/
def keyDerive (c : Cmd) (s : State) : Exec :=
  let slot := c.u 0 2
  let parent := if c.u 2 2 = 0xFFFF then none else some (c.u 2 2)
  let usage := c.u 4 1
  let dest := c.u 5 1
  let nbits := c.u 6 2
  let label := c.bytes 16 (c.u 9 1)
  let level := s.levelBelow parent
  let (mu, md) := s.attrMask parent
  Exec.need s [Dom.keyStore, Dom.security] <|
  Exec.check (slot < 1024 && parent.all (· < 1024) && 1 ≤ c.u 9 1 && c.u 9 1 ≤ 32) s St.badParam <|
  Exec.keyTarget s slot parent (bit (c.u 8 1) 0) <|
  Exec.check (parent.isSome || s.rootUsable) s 0x0785 <|
  match (s.deriveKey parent).filter fun _ => level ≤ 8 with
  | none => Exec.fail s 0x0782
  | some pk =>
    Exec.check ((nbits == 128 || nbits == 256) && usage &&& mu == usage && dest &&& md == dest && !bit dest 6) s 0x0783 <|
    let key := kdf pk label level usage dest (c.bytes 48 16) nbits
    let s := s.bumpBy Reg.secCpReqCnt (kdfSteps parent nbits)
    .done (s.slotPut slot
      { state := .loaded, key := key, bits := nbits, usage := usage, dest := dest, level := level, parent := parent,
        recipe := .derive label (c.bytes 48 16) }) St.ok (keyResult slot level key) []

/-- `KEY_UNWRAP` -/
def keyUnwrap (c : Cmd) (s : State) : Exec :=
  let slot := c.u 0 2
  let wrap := c.u 2 2
  let blob := c.bytes 8 (c.u 6 2)
  let level := s.levelBelow (some wrap)
  let (mu, md) := s.attrMask (some wrap)
  Exec.need s [Dom.keyStore, Dom.security] <|
  Exec.check (slot < 1024 && wrap < 1024 && c.u 4 1 ≤ 1 && (c.u 6 2 == 32 || c.u 6 2 == 48)) s St.badParam <|
  Exec.keyTarget s slot (some wrap) (bit (c.u 5 1) 0) <|
  match (s.keyFor wrap 0x10 2).filter fun _ => level ≤ 8 with
  | none => Exec.fail s 0x0782
  | some wk =>
    let s1 := s.bump Reg.secCpReqCnt
    match unwrapBlob wk (c.u 4 1) blob with
    | none => .done s1 0x0787 0 []
    | some (usage, dest, key) =>
      Exec.check (usage &&& mu == usage && dest &&& md == dest && !bit dest 6) s1 0x0783 <|
      .done (s1.slotPut slot
        { state := .loaded, key := key, bits := 8 * key.length, usage := usage, dest := dest, level := level,
          parent := some wrap, recipe := .blob (c.u 4 1) blob }) St.ok (keyResult slot level key) []

/-! ### Rebuilding (R436) -/

/-- The slot that an ERASED slot's recipe gives again. -/
def slotRebuilt (s : State) (k : KeySlot) : Option KeySlot :=
  match k.recipe with
  | .derive label ctx =>
    (s.deriveKey k.parent).map fun pk =>
      { k with state := .loaded, key := kdf pk label k.level k.usage k.dest ctx k.bits }
  | .blob method b =>
    (k.parent.bind fun p => s.keyFor p 0x10 2).bind fun wk =>
      (unwrapBlob wk method b).map fun (_, _, key) => { k with state := .loaded, key := key }

/-- Rebuild one slot, unless its parent has not been rebuilt: the slots rebuilt and failed so
far. -/
def rebuildOne (p : Nat × Nat × State) (n : Nat) : Nat × Nat × State :=
  let (ok, bad, s) := p
  let k := s.keySlot n
  if k.parent.any fun q => (s.keySlot q).state != .loaded then p
  else match s.slotRebuilt k with
  | none => (ok, bad + 1, s)
  | some k =>
    let steps := match k.recipe with
      | .derive _ _ => kdfSteps k.parent k.bits
      | .blob _ _ => 1
    (ok + 1, bad, (s.slotPut n k).bumpBy Reg.secCpReqCnt steps)

/-- The ERASED slots in the order of their rebuilding. -/
def erasedSlots (s : State) : List Nat :=
  (List.range 9).flatMap fun l => (s.key.slots.filter fun x => x.2.state == .erased && x.2.level == l).map (·.1)

/-- `KEY_DERIVE` with REBUILD -/
def keyRebuild (c : Cmd) (s : State) : Exec :=
  Exec.need s [Dom.keyStore, Dom.security] <|
  Exec.check (((c.body.set 8 0).all (· == 0)) && c.u 8 1 == 2) s St.badParam <|
  Exec.check (s.key.asserted == 0) s 0x0786 <|
  Exec.check s.rootUsable s 0x0785 <|
  let (ok, bad, s) := s.erasedSlots.foldl rebuildOne (0, 0, s)
  .done (s.raise 0x9103 (ok + 2 ^ 16 * bad)) St.ok (ok + 2 ^ 16 * bad) []

/-! ### Erase (R433) -/

/-- Slots with every slot below them in the tree, `k` levels down. -/
def subtree (s : State) : Nat → List Nat → List Nat
  | 0, l => l
  | k + 1, l =>
    let more := (s.key.slots.filter fun x => x.1 < 1008 && !l.contains x.1 && x.2.parent.any l.contains).map (·.1)
    if more = [] then l else subtree s k (l ++ more)

/-- `KEY_ERASE` -/
def keyErase (c : Cmd) (s : State) : Exec :=
  let all := bit (c.u 4 1) 0
  let first := if all then 0 else c.u 0 2
  let count := if all then 1008 else c.u 2 2
  Exec.need s [Dom.keyStore] <|
  Exec.check (1 ≤ count && count ≤ 1008 && first + count ≤ 1024) s St.badParam <|
  Exec.check (first + count ≤ 1008) s 0x0781 <|
  let named := (s.key.slots.filter fun x => first ≤ x.1 && x.1 < first + count && x.2.state != .empty).map (·.1)
  let gone := s.subtree 8 named
  let s := s.setKey { s.key with slots := s.key.slots.filter fun x => !gone.contains x.1 }
  .done (s.keysLost gone) St.ok gone.length []

/-! ### Alarms (R434, R435, R437) -/

/-- Every LOADED slot becomes ERASED, its recipe kept: the slots erased. -/
def eraseLoaded (s : State) : List Nat × State :=
  ((s.key.slots.filter fun x => x.2.state == .loaded).map (·.1),
    s.setKey { s.key with slots := s.key.slots.map fun (n, k) =>
      (n, if k.state = .loaded then { k with state := .erased, key := [] } else k) })

/-- Whether the Forge die, and the key store on it, has power. -/
def forgeUp (s : State) : Bool := s.pwr.state == .run || (s.pwr.state == .kindle && s.pwr.released)

/-- `KEY_ALARM`: sensors detect an alarm. -/
def doKeyAlarm (s : State) (sources : Nat) (ember : Bool) : State :=
  let src := sources % 16
  if src = 0 then s
  else if !s.forgeUp then
    if ember && s.pwr.state != .off then
      s.setKey { s.key with
        asserted := s.key.asserted ||| src, sealNonce := if s.pwr.state = .banked then none else s.key.sealNonce }
    else s
  else
    let root := bit src 1 || bit src 3
    let (gone, s) := s.eraseLoaded
    let s := s.setKey { s.key with
      asserted := s.key.asserted ||| src, root := if root then none else s.key.root, rootLost := root || s.key.rootLost }
    let s := s.rsetF Reg.keyAlarmStatus 8 5 (src + 16 * b2n ember)
    ((s.keysLost gone).bump Reg.keyAlarmCnt).raise 0x9101 (src + 16 * b2n root + 256 * b2n ember)

/-- `ALARM_DEASSERTED` -/
def doAlarmDeasserted (s : State) (sources : Nat) : State :=
  s.setKey { s.key with asserted := s.key.asserted &&& (15 - sources % 16) }

/-! ### The life cycle (R419, R422, R423) -/

/-- The life-cycle states by their codes. -/
def lcOf (n : Nat) : Option LifeCycle := [LifeCycle.blank, .provision, .field, .service, .retired][n]?

def lcCode : LifeCycle → Nat
  | .blank => 0
  | .provision => 1
  | .field => 2
  | .service => 3
  | .retired => 4

/-- The transitions that `LC_ADVANCE` makes (R419). -/
def lcStep (a b : LifeCycle) : Bool :=
  match a, b with
  | .provision, .field => true
  | .field, .service => true
  | .service, .field => true
  | .retired, .retired => false
  | _, .retired => true
  | _, _ => false

/-- A state is programmed into OTP. RETIRED takes both root-set positions with it. -/
def lcProgram (s : State) (b : LifeCycle) : State :=
  let k := s.key
  let ones := List.replicate 32 (0xFF : Byte)
  let k := if b = .retired then { k with rootP := ones, rootF := ones, rootS := ones } else k
  s.setKey { k with burned := b, serviceEntries := k.serviceEntries + b2n (b == .service) }

/-- `LC_ADVANCE`; `readBack`: the state that the read-back of the OTP shows, where it is not the
one programmed. -/
def lcAdvance (readBack : Option Nat) (c : Cmd) (s : State) : Exec :=
  Exec.need s [Dom.keyStore, Dom.ember] <|
  Exec.check (s.key.asserted == 0) s 0x0786 <|
  match (lcOf (c.u 1 1)).filter fun b => lcStep s.key.inForce b with
  | none => Exec.fail s 0x0788
  | some b =>
    Exec.check (c.u 0 1 == lcCode s.key.inForce && c.u 2 1 == 255 - c.u 1 1 && !s.key.lcPending) s 0x0788 <|
    Exec.check (!(b == .service && 32 ≤ s.key.serviceEntries)) s 0x0789 <|
    let seen := (readBack.bind lcOf).getD b
    if seen ≠ b then .done (s.setKey { s.key with burned := seen }) 0x078A (lcCode seen) []
    else
      let s := s.lcProgram b
      let gone := (s.key.slots.filter fun x => x.2.state == .loaded).map (·.1)
      let s := s.setKey { s.key with slots := [], root := none, lcPending := true, sealNonce := none }
      .done ((s.keysLost gone).raise 0x9102 (lcCode b)).sessionEnd St.ok (lcCode b) []

end State

/-- `KEY_DERIVE` -/
def execKeyDerive (host queue : Nat) (s : State) : Host.Outcome State Fault Refusal :=
  .next (s.runDerive host queue false State.keyDerive)

/-- `KEY_DERIVE` with REBUILD -/
def execKeyDeriveRebuild (host queue : Nat) (s : State) : Host.Outcome State Fault Refusal :=
  .next (s.runDerive host queue true State.keyRebuild)

/-- `KEY_UNWRAP` -/
def execKeyUnwrap (host queue : Nat) (s : State) : Host.Outcome State Fault Refusal :=
  .next (s.runCmd host queue 0x0703 State.keyUnwrap)

/-- `KEY_ERASE` -/
def execKeyErase (host queue : Nat) (s : State) : Host.Outcome State Fault Refusal :=
  .next (s.runCmd host queue 0x0704 State.keyErase)

/-- `LC_ADVANCE` -/
def execLcAdvance (host queue : Nat) (readBack : Option Nat) (s : State) : Host.Outcome State Fault Refusal :=
  .next (s.runCmd host queue 0x0705 (State.lcAdvance readBack))

/-- `KEY_ALARM` -/
def execKeyAlarm (sources : Nat) (ember : Bool) (s : State) : Host.Outcome State Fault Refusal :=
  .next (s.doKeyAlarm sources ember)

/-- `ALARM_DEASSERTED` -/
def execAlarmDeasserted (sources : Nat) (s : State) : Host.Outcome State Fault Refusal := .next (s.doAlarmDeasserted sources)

end Sys2Proof.Machine
end

