-- ==== Sys2Proof/Machine/Nm.lean ====
section
/-! DEFINITION.
Network management (R465 to R475), the stay-awake log (R487, R488), and the commands of the
chapter that act on them (R489, R490). -/

namespace Sys2Proof.Machine

namespace State

def nmMod (s : State) (f : Nm → Nm) : State := s.setNm (f s.nm)

/-! ### Requests -/

/-- Hosts that hold their local request (R465). -/
def localReq (s : State) : Nat := (List.range 2).foldl (fun m h =>
  if bit s.nm.localMask h && !bit s.nm.released h then m + 2 ^ h else m) 0

/-- Whether the network is locally requested. -/
def requested (s : State) : Bool := s.localReq != 0 || s.nm.partnerReq

/-- Channels whose PN requests changed enter or leave PN state (R470). -/
def pnApply (s : State) : State :=
  if !s.pnActive then s
  else
    let req := s.pnRequested
    (List.range 64).foldl (fun s ch =>
      let mask := s.nm.pnMask.getD ch 0
      let want := (mask &&& req) != 0
      if mask = 0 ∨ !(s.canCh ch).cfg.enable ∨ aget s.nm.pnLast ch = some want then s
      else (s.nmMod fun n => { n with pnLast := aset n.pnLast ch want }).xcvrOrder ch .normal (!want) 100000000) s

/-! ### The stay-awake log -/

/-- Update the log entry of a node whose run has been identified; a later run of the node leaves
it as it stands. -/
def logUpdate (s : State) (r : NodeRec) : State :=
  match r.logged with
  | none => s
  | some k => s.nmMod fun n => { n with log := n.log.map fun (x : Nat × AwakeEntry) =>
      if x.1 == k && x.2.startMs == r.start / 1000000 % 2 ^ 32 then (x.1, { x.2 with duration := (r.last - r.start) / 10 ^ 9, msgs := r.msgs }) else x }

/-- Update every entry of a run in progress. -/
def logUpdateAll (s : State) : State := s.nm.records.foldl logUpdate s

/-! ### NM states (R468) -/

/-- Code of an NM state. -/
def nmCode : NmState → Nat
  | .busSleep => 0
  | .repeat_ => 1
  | .normal => 2
  | .readySleep => 3
  | .prepare => 4
  | .committed => 5

/-- Tell the partner about the NM state and the requests (R500). -/
def nmMirror (s : State) : State :=
  if !s.mirroring then s
  else s.emit (.mirror (.nm (nmCode s.nm.state) s.pnRequested (s.localReq != 0 || s.nm.askAbort)))

/-- The go-to-sleep request of the LIN channels in LIN_SLEEP_MASK (R471). -/
def linGoToSleep (s : State) : State :=
  ((List.range 32).filter fun l => bit s.nm.linSleep l).foldl (fun s l =>
    let c := s.linCh l
    if s.busUp (64 + l) && c.operational && c.cfg.commander && c.mode == .normal then
      (s.emit (.linHeader l 0x3C)).emit (.linResponse l (0 :: List.replicate 7 0xFF))
    else s) s

/-- NM enters a state. -/
def nmEnter (s : State) (st : NmState) : State :=
  let old := s.nm.state
  if old = st then s
  else
    let s := if old = .readySleep then s.logUpdateAll else s
    let clear (r : NodeRec) : NodeRec := { r with logged := none }
    let s := s.nmMod fun n => { n with
      state := st, enteredAt := s.clk, txAt := if st = .repeat_ ∨ old ≠ .repeat_ then s.clk else n.txAt
      forced := n.forced && (st == .prepare || st == .committed)
      askAbort := n.askAbort && st == .repeat_
      activeWake := n.activeWake && st == .repeat_
      records := if st = .readySleep then n.records.map clear else n.records }
    let s := s.raise 0xB005 (nmCode st)
    let s := if st = .prepare then s.linGoToSleep else s
    (s.pnApply).nmMirror

/-- The state that follows from the local request; with NM_EN clear NM stays in NORMAL. -/
def nmAwake (s : State) : State := s.nmEnter (if s.requested || !s.nm.en then .normal else .readySleep)

/-- A request has changed. -/
def nmEval (s : State) : State :=
  match s.nm.state with
  | .normal => if s.requested || !s.nm.en then s.nmMirror else s.nmEnter .readySleep
  | .readySleep => if s.requested then s.nmEnter .normal else s.nmMirror
  | _ => s.nmMirror

/-! ### Aborts and the late-wake latch (R471 to R474) -/

/-- The sleep is aborted, with a cause of `EV_SLEEP_ABORTED`. -/
def sleepAbort (s : State) (cause : Nat) : State :=
  let s := s.nmMod fun n => { n with commitAt := none, askAbort := s.pair.role == .striker }
  ((s.bump Reg.nmSleepAbortCnt).raise 0xB003 cause).nmEnter .repeat_

/-- An event after the commit point is latched: its reason bit (none for an event that has no
bit of its own) and source index. -/
def latch (s : State) (bit_ : Option Nat) (src : Nat) : State :=
  let p := s.pwr
  let m := p.lateLatch ||| 2 ^ 7 ||| (bit_.map (2 ^ ·)).getD 0
  s.setPwr { p with lateLatch := m, lateFirst := if p.lateFirst.isSome then p.lateFirst else some (bit_.getD 7, src) }

/-- An event of R471: it aborts the sleep before the commit point and is latched after it. -/
def nmEvent (s : State) (cause : Nat) (bit_ : Option Nat) (src : Nat) : State :=
  match s.nm.state with
  | .prepare => if cause = 2 ∧ s.nm.forced then s else s.sleepAbort cause
  | .committed => s.latch bit_ src
  | _ => s

/-- The Ember die is lost after the commit point: the device stays awake (R474). -/
def emberLost (s : State) : State :=
  if s.nm.state ≠ .committed then s
  else
    let back := s.edg.saved
    let s := s.nmMod fun n => { n with committed := false, commitAt := none }
    let s := s.setPwr { s.pwr with lateLatch := 0, lateFirst := none }
    let s := back.foldl (fun s (x : Nat × XcvrMode × Bool) => s.xcvrOrder x.1 x.2.1 x.2.2 100000000) s
    ((s.setEdg { s.edg with saved := [] }).raise 0xB003 5).nmEnter .repeat_

/-! ### Messages -/

/-- Whether a cluster takes part in network management. -/
def nmCluster (s : State) (k : Nat) : Bool :=
  if k < 64 then bit s.nm.canMask k else k < 68 && bit (s.nm.ethVid.getD (k - 64) 0) 15

/-- Whether the control cluster runs network management. -/
def nmRuns (s : State) : Bool := s.pwr.state == .run && s.pwr.fwReady && !s.quenched Dom.control

/-- The run of messages of a node goes on, or a new one begins. -/
def recNext (s : State) (r : NodeRec) (pn : Nat) (pni : Bool) : NodeRec :=
  if s.clk ≤ r.last + 1000000 * s.nm.readyMs then
    { r with last := s.clk, msgs := r.msgs + 1, pn := pn, pni := pni }
  else { r with last := s.clk, start := s.clk, msgs := 1, pn := pn, pni := pni, logged := r.logged }

/-- A message updates the record of its node (R467); a node without one shares the record of
its cluster's unknown nodes. -/
def nmRecord (s : State) (k node pn : Nat) (pni : Bool) : State :=
  let new (n : Nat) : NodeRec :=
    { cluster := k, node := n, last := s.clk, start := s.clk, msgs := 1, pn := pn, pni := pni, logged := none }
  let put (s : State) (n : Nat) : State :=
    match s.nm.records.find? fun r => r.cluster == k && r.node == n with
    | some r => s.nmMod fun m => { m with
        records := m.records.map fun x => if x.cluster == k && x.node == n then s.recNext r pn pni else x }
    | none => s.nmMod fun m => { m with records := m.records ++ [new n] }
  let known := s.nm.records.any fun r => r.cluster == k && r.node == node
  if known || (s.nm.records.filter (·.node != 0xFFFF)).length < 2048 then put s node
  else put (s.bump Reg.nmRecordFullCnt) 0xFFFF

/-- `NM_MESSAGE_RECEIVED` -/
def doNmMessageReceived (s : State) (k : Nat) (b : List Byte) : State :=
  if !s.nmRuns || !s.nmCluster k || b.length < 2 then s
  else
    let cbv := le b 1 1
    let s := s.bump Reg.nmRxCnt
    let s := s.nmRecord k (le b 0 1) (le b 2 4) (bit cbv 6)
    let s := s.nmMod fun n => { n with clusterAt := aset n.clusterAt k s.clk }
    let s := s.pnApply
    match s.nm.state with
    | .prepare | .committed => s.nmEvent 2 (if k < 64 then some 2 else none) k
    | .normal | .readySleep => if bit cbv 0 && s.nm.en then s.nmEnter .repeat_ else s.nmMirror
    | _ => s.nmMirror

/-- `NODE_RECORD_AGED`: no message of a node for READY_SLEEP_MS; it no longer requests partial
networks and its run has ended. -/
def doNodeRecordAged (s : State) (k node : Nat) : State :=
  match s.nm.records.find? fun r => r.cluster == k && r.node == node with
  | none => s
  | some r =>
    if !s.nmRuns then s
    else ((s.waitUntil (r.last + 1000000 * s.nm.readyMs + 2)).logUpdate r).pnApply

/-! ### Timers -/

/-- `NM_REPEAT_TIMEOUT` -/
def doNmRepeatTimeout (s : State) : State :=
  if s.nm.state ≠ .repeat_ ∨ !s.nmRuns then s
  else (s.waitUntil (s.nm.enteredAt + 1000000 * s.nm.repeatMs)).nmAwake

/-- Local ns at which READY_SLEEP has lasted READY_SLEEP_MS without a message. -/
def readyEnd (s : State) : Nat :=
  (s.nm.clusterAt.map (·.2)).foldl max s.nm.enteredAt + 1000000 * s.nm.readyMs

/-- Whether a striker still waits for its smith (R508). -/
def waitsForSmith (s : State) : Bool := s.pair.role == .striker && s.pair.alive && s.pair.partnerNm != 4

/-- `READY_SLEEP_TIMEOUT` -/
def doReadySleepTimeout (s : State) : State :=
  if s.nm.state ≠ .readySleep ∨ !s.nmRuns ∨ s.waitsForSmith then s
  else (s.waitUntil s.readyEnd).nmEnter .prepare

/-- Every channel that the wake front end watches is ordered into standby, and every other enabled
one into sleep (R475). -/
def xcvrSleep (s : State) : State :=
  let cans := (List.range 64).filter fun c => (s.canCh c).cfg.enable || bit s.pwr.wup c || bit s.pwr.sw c
  let lins := (List.range 32).filter fun l => (s.linCh l).cfg.enable || bit s.pwr.linWake l
  let saved := cans.map (fun c => (c, (s.canCh c).mode, (s.canCh c).pn)) ++
    lins.map fun l => (64 + l, (s.linCh l).mode, false)
  let s := s.setEdg { s.edg with saved := saved }
  let s := cans.foldl (fun s c => s.xcvrOrder c (if bit s.pwr.wup c || bit s.pwr.sw c then .standby else .sleep) false 2000000) s
  lins.foldl (fun s l => s.xcvrOrder (64 + l) (if bit s.pwr.linWake l then .standby else .sleep) false 2000000) s

/-- `NM_COMMIT_POINT` (R472) -/
def doNmCommitPoint (s : State) : State :=
  if s.nm.state ≠ .prepare ∨ !s.nmRuns then s
  else
    let at_ := s.nm.commitAt.getD (s.nm.enteredAt + 1000000 * s.nm.pbsMs - 2000000)
    let s := s.waitUntil at_
    let s := (s.nmMod fun n => { n with committed := true, commitAt := some at_ }).nmEnter .committed
    let s := s.setPwr { s.pwr with lateLatch := 0, lateFirst := none }
    s.xcvrSleep

/-- Payload of the device's own message (R469). -/
def nmPayload (s : State) : List Byte :=
  leBytes 1 s.nm.nodeId ++ leBytes 1 (b2n s.nm.activeWake * 16 + 64) ++ leBytes 4 s.nm.localPn

/-- `NM_CYCLE_TRANSMIT`: the device's own message goes out on every cluster it sends on. -/
def doNmCycleTransmit (s : State) : State :=
  if !s.nmRuns || !(s.nm.state == .repeat_ || s.nm.state == .normal) then s
  else
    let s := s.waitUntil s.nm.txAt
    let s := s.nmMod fun n => { n with txAt := s.clk + 1000000 * n.cycleMs }
    let f : CanFrame :=
      { format := .classicData, ext := s.nm.ext, id := s.nm.nmId, brs := false, esi := false, sdt := 0, sec := false,
        rrs := false, vcid := 0, af := 0, data := s.nmPayload, dlc := 6 }
    let cans := (List.range 64).filter fun c => bit s.nm.txMask c && bit s.nm.canMask c && !(s.strikerNow && s.sharedCh c)
    let s := cans.foldl (fun s c => s.canWrite c 0xFF { frame := f, single := false, writer := 2 }) s
    let eths := (List.range 4).filter fun i => bit (s.nm.ethVid.getD i 0) 15
    eths.foldl (fun s i => s.emit (.nm (64 + i) s.nmPayload)) s

/-- `STAY_AWAKE_DETECT`: a node has kept the network awake for STAY_AWAKE_S (R487). -/
def doStayAwakeDetect (s : State) (k node : Nat) : State :=
  match s.nm.records.find? fun r => r.cluster == k && r.node == node with
  | none => s
  | some r =>
    let due := max r.start s.nm.enteredAt + 10 ^ 9 * s.nm.stayS
    if !s.nmRuns || s.nm.state != .readySleep || r.logged.isSome || r.last + 1000000 * s.nm.readyMs < due then s
    else
      let s := (s.waitUntil due).bump Reg.nmStayAwakeCnt
      let n := (s.rget Reg.nmLogHead).toNat + 1
      let e : AwakeEntry :=
        { cluster := k, node := node, startMs := r.start / 1000000 % 2 ^ 32, duration := (r.last - r.start) / 10 ^ 9, msgs := r.msgs }
      let s := s.rset Reg.nmLogHead (BitVec.ofNat 32 n)
      let s := s.nmMod fun m => { m with
        log := aset (adel m.log (n - 256)) n e
        records := m.records.map fun x => if x.cluster == k && x.node == node then { x with logged := some n } else x }
      s.raise 0xB004 (k + 65536 * node)

/-! ### `NM_CONFIG` -/

/-- The PN_MASK words of an `NM_CONFIG`. -/
def pnMasks (dma : List Byte) : List Nat := (List.range 64).map fun i => le dma (4 * i) 4

/-- The fields of R489. -/
def nmConfigOk (c : Cmd) (s : State) : Bool :=
  let vids := ((List.range 4).map fun i => c.u (48 + 2 * i) 2).filter (bit · 15)
  let ms (o : Nat) : Bool := 100 ≤ c.u o 2 && c.u o 2 ≤ 10000
  ms 4 && ms 6 && ms 8 && 10 ≤ c.u 10 2 && c.u 10 2 ≤ 5000 && 1 ≤ c.u 12 2 && c.u 12 2 ≤ 3600 &&
    ((List.range 32).all fun l => !bit (c.u 40 4) l || ((s.linCh l).cfg.enable && (s.linCh l).cfg.commander)) &&
    (vids.map (· % 4096)).dedup.length == vids.length

/-- `NM_CONFIG` -/
def nmConfig (dma : List Byte) (c : Cmd) (s : State) : Exec :=
  Exec.check (c.u 56 8 % 8 == 0) s St.badParam <|
  Exec.check (nmConfigOk c s) s 0x0905 <|
  let s := s.nmMod fun n => { n with
    en := bit (c.u 0 1) 0, ext := bit (c.u 0 1) 1, nodeId := c.u 1 1, localMask := c.u 2 1 % 4, repeatMs := c.u 4 2,
    readyMs := c.u 6 2, pbsMs := c.u 8 2, cycleMs := c.u 10 2, stayS := c.u 12 2, udpPort := c.u 14 2,
    nmId := c.u 16 4, nmIdMask := c.u 20 4, canMask := c.u 24 8, txMask := c.u 32 8, linSleep := c.u 40 4,
    ethVid := (List.range 4).map fun i => c.u (48 + 2 * i) 2, pnMask := pnMasks (if c.u 56 8 = 0 then [] else dma) }
  let s := if !s.nm.en && (s.nm.state == .repeat_ || s.nm.state == .readySleep) then s.nmEnter .normal else s
  .done (s.nmEval.pnApply) St.ok 0 []

/-! ### `WAKE_SOURCE_CONFIG` -/

/-- The wake frame filters of a table. -/
def wakeFilters (n : Nat) (dma : List Byte) : List (List Byte) := (List.range n).map fun i => fit 24 (dma.drop (24 * i))

/-- The fields of R478 to R480. -/
def wakeConfigOk (c : Cmd) (fs : List (List Byte)) : Bool :=
  let sw := c.u 40 8
  let pin (i : Nat) : Bool :=
    let fl := c.u (4 * i) 1
    let us := c.u (4 * i + 2) 2
    !bit fl 0 || (bits fl 1 2 != 0 && 10 ≤ us && us ≤ 2000)
  let filter (f : List Byte) : Bool := !bit (le f 0 1) 0 || (le f 1 1 ≤ 63 && bit sw (le f 1 1) && le f 2 1 ≤ 8)
  (List.range 8).all pin && ((List.range 64).filter (bit sw)).length ≤ 16 && (c.u 32 8 &&& sw) == 0 &&
    500 ≤ c.u 52 2 && c.u 52 2 ≤ 5000 && 1 ≤ c.u 54 1 && c.u 54 1 ≤ 10 && 1 ≤ c.u 55 1 && c.u 55 1 ≤ 32 &&
    c.u 56 4 ≤ 604800 && 30 ≤ c.u 60 1 && c.u 60 1 ≤ 150 && c.u 61 1 ≤ 64 && 1 ≤ c.u 62 2 && c.u 62 2 ≤ 1000 && fs.all filter

/-- `WAKE_SOURCE_CONFIG` -/
def wakeSourceConfig (dma : List Byte) (c : Cmd) (s : State) : Exec :=
  let fs := wakeFilters (c.u 61 1) dma
  Exec.need s [Dom.ember] <|
  Exec.check (c.u 64 8 % 8 == 0) s St.badParam <|
  Exec.check (wakeConfigOk c fs) s 0x0906 <|
  let s := s.setPwr { s.pwr with
    pins := c.bytes 0 32, wup := c.u 32 8, sw := c.u 40 8, linWake := c.u 48 4, busFilter := c.u 52 2,
    wupTimeout := c.u 54 1, fecLimit := c.u 55 1, timerS := c.u 56 4, linFilter := c.u 60 1, swIdle := c.u 62 2,
    wakeFilters := fs }
  let w (n : Nat) : Word := BitVec.ofNat 32 n
  let s := (List.range 8).foldl (fun s i => s.rset (Reg.pwrWakePin0 i) (w (c.u (4 * i) 4))) s
  let s := (s.rset Reg.pwrWakeWupLo (w (c.u 32 4))).rset Reg.pwrWakeWupHi (w (c.u 36 4))
  let s := (s.rset Reg.pwrWakeSwLo (w (c.u 40 4))).rset Reg.pwrWakeSwHi (w (c.u 44 4))
  .done (s.rset Reg.pwrWakeLin (w (c.u 48 4))) St.ok 0 []

/-! ### `PWR_STATE_REQUEST` and `NM_AWAKE_LOG_READ` -/

/-- Whether a wake source would be armed in a sleep target (R474, R478). -/
def wakeArmed (s : State) (target : Nat) : Bool :=
  let p := s.pwr
  let pin := (List.range 8).any fun i => bit (le p.pins (4 * i) 1) 0
  pin || p.wup != 0 || p.linWake != 0 || (target != 1 && (p.timerS != 0 || p.sw != 0))

/-- The Ember die is quenched or cannot be reached. -/
def emberDown (s : State) : Bool := s.quenched Dom.ember || s.pwr.dieLinkFailed

/-- A sleep target from its code. -/
def targetOf (t : Nat) : PwrState := if t = 1 then .dormant else if t = 2 then .ember else .banked

/-- `PWR_STATE_REQUEST` -/
def pwrStateRequest (c : Cmd) (s : State) : Exec :=
  let t := c.u 0 1
  let sleep := t ≠ 5
  let nm := nmCode s.nm.state
  Exec.check (t == 1 || t == 2 || t == 3 || t == 5) s 0x0901 <|
  Exec.check (t == 5 || !s.emberDown) s 0x0902 <|
  Exec.check (t == 5 || s.wakeArmed t) s 0x0903 <|
  Exec.check (t == 5 || s.rfld Reg.pwrCtrl 0 1 == 1) s 0x0904 <|
  let s := if bit (c.u 1 1) 1 then (s.nmMod fun n => { n with localPn := c.u 4 4 }).pnApply else s
  if sleep then
    let s := s.nmMod fun n => { n with released := setBits n.released c.host 1 1 }
    let s := s.setPwr { s.pwr with target := targetOf t }
    if bit (c.u 1 1) 0 && s.pnActive then
      .done ((s.nmMod fun n => { n with forced := true }).nmEnter .prepare) St.ok nm []
    else .done s.nmEval St.ok nm []
  else
    let named := bit s.nm.localMask c.host
    let s := s.nmMod fun n => { n with released := setBits n.released c.host 1 0 }
    if s.nm.state = .committed then .done (s.latch none 0) St.ok (nm + 256) []
    else if s.nm.state = .prepare ∧ named then .done (s.sleepAbort 1) St.ok nm []
    else .done s.nmEval St.ok nm []

/-- An entry of the stay-awake log (R488). -/
def awakeBytes (e : AwakeEntry) : List Byte :=
  leBytes 1 e.cluster ++ leBytes 1 0 ++ leBytes 2 e.node ++ leBytes 4 e.startMs ++ leBytes 4 e.duration ++ leBytes 4 e.msgs

/-- `NM_AWAKE_LOG_READ` -/
def nmAwakeLogRead (c : Cmd) (s : State) : Exec :=
  let n := c.u 4 1
  let head := (s.rget Reg.nmLogHead).toNat
  Exec.check (1 ≤ n && n ≤ 13) s St.badParam <|
  let es := (s.nm.log.filter fun x => c.u 0 4 ≤ x.1 && head < x.1 + 256 && x.1 ≤ head).take n
  .done s St.ok (head + 2 ^ 32 * es.length) (es.flatMap fun x => awakeBytes x.2)

/-- `LIN_WAKE_DETECT`: a dominant level of at least 150 µs outside a frame on an operational
channel (R343, R471). -/
def doLinWakeDetect (s : State) (l : Nat) : State :=
  if 32 ≤ l || !(s.busUp (64 + l) && (s.linCh l).operational && (s.linCh l).current.isNone) then s
  else
    let s := s.raise 0x7006 l
    if bit s.pwr.linWake l then s.nmEvent 4 (some 4) (64 + l) else s

end State

/-! ### Meanings -/

/-- `PWR_STATE_REQUEST` -/
def execPwrStateRequest (host queue : Nat) (s : State) : Host.Outcome State Fault Refusal :=
  .next (s.runCmd host queue 0x0900 State.pwrStateRequest)

/-- `NM_CONFIG` -/
def execNmConfig (host queue : Nat) (dma : List Byte) (s : State) : Host.Outcome State Fault Refusal :=
  .next (s.runDma host queue 0x0901 (fun c => c.u 56 8) (fun c => if c.u 56 8 = 0 then 0 else 256) (State.nmConfig dma))

/-- `WAKE_SOURCE_CONFIG` -/
def execWakeSourceConfig (host queue : Nat) (dma : List Byte) (s : State) : Host.Outcome State Fault Refusal :=
  .next (s.runDma host queue 0x0902 (fun c => c.u 64 8) (fun c => 24 * c.u 61 1) (State.wakeSourceConfig dma))

/-- `NM_AWAKE_LOG_READ` -/
def execNmAwakeLogRead (host queue : Nat) (s : State) : Host.Outcome State Fault Refusal :=
  .next (s.runCmd host queue 0x0903 State.nmAwakeLogRead)

/-- `NM_MESSAGE_RECEIVED` -/
def execNmMessageReceived (cluster : Nat) (payload : List Byte) (s : State) : Host.Outcome State Fault Refusal :=
  .next (s.doNmMessageReceived cluster payload)

/-- `NM_REPEAT_TIMEOUT` -/
def execNmRepeatTimeout (s : State) : Host.Outcome State Fault Refusal := .next s.doNmRepeatTimeout

/-- `READY_SLEEP_TIMEOUT` -/
def execReadySleepTimeout (s : State) : Host.Outcome State Fault Refusal := .next s.doReadySleepTimeout

/-- `NM_COMMIT_POINT` -/
def execNmCommitPoint (s : State) : Host.Outcome State Fault Refusal := .next s.doNmCommitPoint

/-- `NM_CYCLE_TRANSMIT` -/
def execNmCycleTransmit (s : State) : Host.Outcome State Fault Refusal := .next s.doNmCycleTransmit

/-- `STAY_AWAKE_DETECT` -/
def execStayAwakeDetect (cluster node : Nat) (s : State) : Host.Outcome State Fault Refusal :=
  .next (s.doStayAwakeDetect cluster node)

/-- `NODE_RECORD_AGED` -/
def execNodeRecordAged (cluster node : Nat) (s : State) : Host.Outcome State Fault Refusal :=
  .next (s.doNodeRecordAged cluster node)

/-- `LIN_WAKE_DETECT` -/
def execLinWakeDetect (ch : Nat) (s : State) : Host.Outcome State Fault Refusal := .next (s.doLinWakeDetect ch)

end Sys2Proof.Machine
end

