-- ==== Sys2Proof/Machine/Time.lean ====
section
/-! DEFINITION.
The time base: corrections and their refusal (R449 to R452), holdover (R453), the time
commands (R457, R458), the 802.1AS instance (R447, R448) and the snapshot (R454). -/

namespace Sys2Proof.Machine

namespace State

/-- Change a time domain. -/
def domMod (s : State) (i : Nat) (f : Domain → Domain) : State := { s with dom := amod s.dom i {} f }

/-- Domain time wraps with its 48-bit seconds. -/
def domWrap : Int := 2 ^ 48 * 10 ^ 9 * 2 ^ 32

/-- Step a domain by `o` ns on one tick, with a cause of R461 (R451). -/
def stepDomain (s : State) (i : Nat) (o : Int) (cause : Nat) : State :=
  let s := (s.raise 0xA002 (i + 256 * cause)).rephaseNow i
  let s := s.domMod i fun d => { d with
    state := .locked, slew := 0, heldStep := 0, value := (((d.value : Int) + 2 ^ 32 * o) % domWrap).toNat }
  s.timeStepped i o

/-- A correction above the threshold is held (R449 row 5, R450). -/
def refuseStep (s : State) (i : Nat) (o : Int) : State :=
  let d := s.domain i
  let s := s.bump (Reg.timDomJumpRefusedCnt i)
  let (s, at_) := s.raiseLimited (if d.state = .held then d.refusedAt else none) 1000000000 0xA001
    (i + 65536 * d.heldSeq)
  s.domMod i fun d => { d with state := .held, heldStep := o, slew := 0, refusedAt := at_ }

/-- A correction of offset `o`: 0 slewed, 1 stepped, 2 held (R449). -/
def correct (s : State) (i : Nat) (o : Int) : Nat × State :=
  let d := s.domain i
  let small : Bool := o.natAbs ≤ d.threshold
  let s := s.domMod i fun d => { d with offset := o, newSource := false, resumed := false }
  if d.state = .unset then (1, s.stepDomain i o 1)
  else if d.resumed ∧ o.natAbs ≤ 1000000 * d.resumeMs then (1, s.stepDomain i o 3)
  else if d.newSource ∧ small then (1, s.stepDomain i o 4)
  else if small then
    (0, s.domMod i fun d => { d with state := .locked, heldStep := 0, slew := 2 ^ 32 * o })
  else (2, s.refuseStep i o)

/-- A change of source (R452, R163). -/
def sourceChanged (s : State) (i : Nat) : State :=
  let s := s.domMod i fun d => { d with heldSeq := (d.heldSeq + 1) % 65536, newSource := true }
  (s.raise 0xA004 (i + 65536 * (s.domain i).heldSeq)).rephaseNow i

/-! ### `TIME_DOMAIN_CONFIG` -/

/-- Whether a calendar image or a list of a host runs, drains or waits in a domain. -/
def domainUsed (s : State) (i : Nat) : Bool :=
  let img (x : Image) : Bool := x.domain == i
  let held (h : Nat × Handle) : Bool :=
    (h.2.state == .active || h.2.state == .draining || h.2.state == .pending) && h.2.img.any img
  let list (x : Nat × GateCtl) : Bool := x.2.cur.any (·.domain == i) || x.2.pend.any (·.domain == i)
  s.runningImage.any img || s.cal.old.any img || s.cal.handles.any held ||
    s.trf.gcl.any list || s.trf.gates.any fun g => g.2.enabled && list g

/-- The settings of a `TIME_DOMAIN_CONFIG`, over what a domain held. -/
def domainSet (c : Cmd) (d : Domain) : Domain :=
  let dflt (v w : Nat) : Nat := if v = 0 then w else v
  { d with
    source := c.u 2 1, bmca := bit (c.u 1 1) 1, gmCapable := bit (c.u 1 1) 2, number := c.u 3 1,
    pri1 := c.u 4 1, pri2 := c.u 5 1, logSync := toSigned 8 (c.u 6 1), syncTimeout := c.u 7 1,
    threshold := dflt (c.u 8 4) 1000, slewPpm := dflt (c.u 12 2) 100, resumeMs := dflt (c.u 14 2) 10,
    hostTimeout := c.u 16 4, cfgSlave := c.u 20 1, ports := c.u 24 8 }

/-- The ranges of R457, as R458 checks them. -/
def domainRanges (d : Domain) : Bool :=
  d.source ≤ 2 && d.number ≤ 127 && d.threshold ≤ 1000000000 && d.slewPpm ≤ 500 && d.resumeMs ≤ 1000 &&
    (d.cfgSlave ≤ 63 || d.cfgSlave == 0xFF) &&
    (!(d.source == 1 || d.gmCapable) || (-5 ≤ d.logSync && d.logSync ≤ 0)) &&
    (d.source != 1 || (2 ≤ d.syncTimeout && d.syncTimeout ≤ 10))

/-- Check of `TIM_PORTS`. -/
def domainPorts (s : State) (i : Nat) (d : Domain) : Bool :=
  d.ports < 2 ^ 48 && (d.cfgSlave == 0xFF || bit d.ports d.cfgSlave) &&
    !s.dom.any fun x => x.1 != i && x.2.state != .disabled && x.2.number == d.number

/-- `TIME_DOMAIN_CONFIG` -/
def timeDomainConfig (c : Cmd) (s : State) : Exec :=
  let i := c.u 0 1
  let old := s.domain i
  let new := domainSet c old
  Exec.need s [Dom.time] <|
  Exec.check (i ≤ 3) s 0x0801 <|
  Exec.check (domainRanges new) s St.badParam <|
  if !bit (c.u 1 1) 0 then
    Exec.check (old.state == .disabled || !s.domainUsed i) s 0x0803 <|
    .done (s.domMod i fun d => { heldSeq := d.heldSeq, offset := d.offset }) St.ok 0 []
  else
    Exec.check (s.domainPorts i new) s 0x0806 <|
    let slave := if new.source = 1 ∧ !new.bmca then (if new.cfgSlave = 0xFF then none else some new.cfgSlave)
      else if new.source = 1 ∧ old.source = 1 ∧ old.bmca then old.slave else none
    if old.state = .disabled then
      .done (s.domMod i fun _ => { new with
        state := .unset, value := 0, lastAt := s.clk, rate := 0, slew := 0, heldStep := 0, resumed := false,
        newSource := false, master := none, slave := slave, refusedAt := none }) St.ok 0 []
    else if old.source ≠ new.source then
      let s := s.domMod i fun _ => { new with master := none, slave := slave, lastAt := s.clk }
      .done (s.sourceChanged i) St.ok 0 []
    else
      let moved := old.source = 1 ∧ !new.bmca ∧ old.slave.isSome ∧ old.slave ≠ slave
      let s := s.domMod i fun _ => { new with slave := slave }
      .done (if moved then s.sourceChanged i else s) St.ok 0 []

/-! ### `TIME_ADJUST` and `TIME_JUMP_ACCEPT` -/

/-- `TIME_ADJUST` -/
def timeAdjust (c : Cmd) (s : State) : Exec :=
  let i := c.u 0 1
  let fl := c.u 1 1
  let rate := toSigned 32 (c.u 4 4)
  Exec.need s [Dom.time] <|
  Exec.check (i ≤ 3 && (s.domain i).state != .disabled) s 0x0801 <|
  Exec.check ((s.domain i).source != 1) s 0x0802 <|
  Exec.check (!(bit fl 1 && bit fl 2) && rate.natAbs ≤ 500000000 && (!bit fl 2 || c.u 16 4 < 10 ^ 9)) s St.badParam <|
  let s := s.domMod i fun d => { d with lastAt := s.clk, rate := if bit fl 0 then rate else d.rate }
  if bit fl 1 then
    let (r, s) := s.correct i (toSigned 64 (c.u 8 8))
    .done s St.ok r []
  else if bit fl 2 then
    let target : Nat := 10 ^ 9 * (c.u 24 8 % 2 ^ 48) + c.u 16 4
    let (r, s) := s.correct i ((target : Int) - (s.domNs i : Int))
    .done s St.ok r []
  else .done s St.ok 3 []

/-- `TIME_JUMP_ACCEPT` -/
def timeJumpAccept (c : Cmd) (s : State) : Exec :=
  let i := c.u 0 1
  let d := s.domain i
  Exec.need s [Dom.time] <|
  Exec.check (i ≤ 3 && d.state != .disabled) s 0x0801 <|
  Exec.check (d.state == .held) s 0x0804 <|
  Exec.check (d.heldSeq == c.u 2 2) s 0x0805 <|
  if bit (c.u 1 1) 0 then .done (s.domMod i fun d => { d with state := .locked, heldStep := 0 }) St.ok 0 []
  else .done (s.stepDomain i d.heldStep 2) St.ok (ofSigned 64 d.heldStep) []

/-! ### The 802.1AS instance -/

/-- Whether the instance runs: GPTP_EN set, and the time domain not quenched. -/
def gptpUp (s : State) : Bool := s.rfld Reg.timCtrl 0 1 == 1 && !s.quenched Dom.time && s.pwr.fwReady

/-- What a PTP frame of a domain tells the instance. -/
def ptpLearn (s : State) (i port : Nat) : PtpMsg → State
  | .sync o rate =>
    let d := s.domain i
    if d.source = 1 ∧ d.slave = some port then
      let s := s.domMod i fun d => { d with lastAt := s.clk, rate := max (-500000000) (min 500000000 rate) }
      (s.correct i o).2
    else s
  | .newMaster gm via =>
    let d := s.domain i
    let to_ := if d.bmca then via else d.slave
    if d.source ≠ 1 ∨ (!d.bmca ∧ via ≠ d.slave) ∨ (d.master = some gm ∧ d.slave = to_) then s
    else
      let s := s.domMod i fun d => { d with master := some gm, slave := to_ }
      if d.master.isNone then s else s.sourceChanged i
  | .pdelay ns => s.rset (Reg.timPortPdelay port) (BitVec.ofNat 32 ns)
  | .other => s

/-- The enabled domain of a number. -/
def domainOf (s : State) (number : Nat) : Option Nat :=
  (List.range 4).find? fun i => (s.domain i).state != .disabled && (s.domain i).number == number

/-- `PTP_FRAME_RECEIVED` (R448) -/
def doPtpFrameReceived (s : State) (port number : Nat) (msg : PtpMsg) : State :=
  match (s.domainOf number).filter fun i => port < 64 && bit (s.domain i).ports port with
  | none => if s.pwr.fwReady then s.bump Reg.timPtpDropCnt else s
  | some i => if s.gptpUp then s.ptpLearn i port msg else s

/-- SYNC_TIMEOUT Sync intervals of a domain, in ns. -/
def syncLimit (d : Domain) : Nat := d.syncTimeout * (10 ^ 9 / 2 ^ (-d.logSync).toNat)

/-- A source's timeout passes without a word from it (R453): the domain enters HOLDOVER. -/
def sourceTimeout (s : State) (i limit : Nat) : State :=
  let d := s.domain i
  if d.state = .locked ∨ d.state = .held then (s.waitUntil (d.lastAt + limit)).holdover i else s

/-- `SYNC_RECEIPT_TIMEOUT` -/
def doSyncReceiptTimeout (s : State) (i : Nat) : State :=
  if (s.domain i).source = 1 ∧ s.gptpUp then s.sourceTimeout i (syncLimit (s.domain i)) else s

/-- `HOST_SOURCE_TIMEOUT` -/
def doHostSourceTimeout (s : State) (i : Nat) : State :=
  let d := s.domain i
  if d.source = 2 ∧ d.hostTimeout ≠ 0 ∧ !s.quenched Dom.time then s.sourceTimeout i (1000000 * d.hostTimeout) else s

/-- `PTP_SYNC_TRANSMIT`: a Sync of the device as grandmaster of the domain, or as relay on the
ports other than the slave port (R445, R447). -/
def doPtpSyncTransmit (s : State) (i port : Nat) : State :=
  let d := s.domain i
  let master := if d.source = 1 then d.master.isSome && d.slave != some port && d.state != .unset else d.gmCapable
  if s.gptpUp && d.state != .disabled && port < 64 && bit d.ports port && master && !s.portDown port then
    s.emit (.ptp i port)
  else s

/-- `SLEW_END`: the slew of a domain has been removed (R449 row 4). -/
def doSlewEnd (s : State) (i : Nat) : State :=
  if (s.domain i).slew = 0 then s else s.tick (slewTicks (s.domain i))

/-! ### Quench of the time domain, and the wake from BANKED -/

/-- Every domain that follows a source loses it, uncounted (R453, R525). -/
def timeQuench (s : State) : State := (List.range 4).foldl sourceLost s

/-- After `gone` ns in BANKED every enabled domain goes on from its value (R453). -/
def timeWake (s : State) (gone : Nat) : State :=
  { s with dom := s.dom.map fun (i, d) => (i,
      if d.state = .disabled then d
      else { d with
        value := d.value + 2 ^ 32 * gone, slew := 0, heldStep := 0,
        state := if d.state = .unset then .unset else .holdover, resumed := d.state != .unset }) }

end State

/-- `TIME_DOMAIN_CONFIG` -/
def execTimeDomainConfig (host queue : Nat) (s : State) : Host.Outcome State Fault Refusal :=
  .next (s.runCmd host queue 0x0800 State.timeDomainConfig)

/-- `TIME_ADJUST` -/
def execTimeAdjust (host queue : Nat) (s : State) : Host.Outcome State Fault Refusal :=
  .next (s.runCmd host queue 0x0801 State.timeAdjust)

/-- `TIME_JUMP_ACCEPT` -/
def execTimeJumpAccept (host queue : Nat) (s : State) : Host.Outcome State Fault Refusal :=
  .next (s.runCmd host queue 0x0802 State.timeJumpAccept)

/-- `TIM_SNAP` -/
def execTimSnap (host tag : Nat) (v : Word) (s : State) : Host.Outcome State Fault Refusal :=
  .next (s.postReg host tag Reg.timSnap v)

/-- `PTP_FRAME_RECEIVED` -/
def execPtpFrameReceived (port domainNumber : Nat) (msg : PtpMsg) (s : State) : Host.Outcome State Fault Refusal :=
  .next (s.doPtpFrameReceived port domainNumber msg)

/-- `SYNC_RECEIPT_TIMEOUT` -/
def execSyncReceiptTimeout (dom : Nat) (s : State) : Host.Outcome State Fault Refusal :=
  .next (s.doSyncReceiptTimeout dom)

/-- `HOST_SOURCE_TIMEOUT` -/
def execHostSourceTimeout (dom : Nat) (s : State) : Host.Outcome State Fault Refusal :=
  .next (s.doHostSourceTimeout dom)

/-- `PTP_SYNC_TRANSMIT` -/
def execPtpSyncTransmit (dom port : Nat) (s : State) : Host.Outcome State Fault Refusal :=
  .next (s.doPtpSyncTransmit dom port)

/-- `SLEW_END` -/
def execSlewEnd (dom : Nat) (s : State) : Host.Outcome State Fault Refusal := .next (s.doSlewEnd dom)

end Sys2Proof.Machine
end

