-- ==== Sys2Proof/Machine/Power.lean ====
section
/-! DEFINITION.
Bellows: what survives a fall of the Forge die (R463, R464, R476, R488), sleep entry (R477),
wake sources (R478 to R481), powering the Forge die (R482, R483, R571), the start of the boot
ROM (R420, R421, R118, R535, R546) and RUN (R463, R484 to R486). -/

namespace Sys2Proof.Machine

namespace State

def pwrMod (s : State) (f : Pwr → Pwr) : State := s.setPwr (f s.pwr)

/-! ### What survives -/

/-- What is kept of network management while the Forge die is off. -/
def nmKept (s : State) : Nm :=
  { s.nm with state := .busSleep, committed := false, forced := false, commitAt := none, records := [], clusterAt := [],
              partnerReq := false, pnLast := [], askAbort := false, activeWake := false }

/-- The Forge die and DRAM are lost: the Ember die, flash, OTP and retention SRAM keep theirs. -/
def forgeLost (s : State) : State :=
  let s := s.updAbandon
  { State.reset with
    regs := s.regs.filter fun r => r.1 / 0x8000 == 11
    clk := s.clk
    mbx := { retention := s.mbx.retention, sectors := s.mbx.sectors, erased := s.mbx.erased }
    key :=
      { burned := s.key.burned, inForce := s.key.inForce, rootP := s.key.rootP, rootF := s.key.rootF, rootS := s.key.rootS,
        rootFault := s.key.rootFault, rootUsed := s.key.rootUsed, lcPending := s.key.lcPending,
        serviceEntries := s.key.serviceEntries, asserted := s.key.asserted, sealNonce := s.key.sealNonce }
    pwr := { s.pwr with fwReady := false, released := false, booted := false, dieLinkFailed := false }
    nm := s.nmKept
    boot :=
      { images := s.boot.images, desc := s.boot.desc, rollback := s.boot.rollback, revoked := s.boot.revoked,
        otpGoal := s.boot.otpGoal }
    pending := s.pending
    out := s.out
    freeCtr := s.freeCtr }

/-- Whether the warm image carries a register (log entry 23), as the bits that it carries. -/
def bankedBits (off : Nat) : Nat :=
  let w := off / 0x8000
  let cfg := ((regRow off).map fun r => r.rw ||| r.rwg).getD 0
  let sess (l : List Nat) : Nat := if l.contains off then 2 ^ 32 - 1 else 0
  if w = 7 then
    if 0x39000 ≤ off ∧ off < 0x3B000 ∧ off % 0x80 ≤ 0x10 then 2 ^ 32 - 1
    else if 0x3B800 ≤ off ∧ off % 0x40 = 0 then 0xF00 else cfg
  else if w = 6 ∨ w = 8 ∨ (w = 4 ∧ off < 0x24000) ∨ (w = 9 ∧ off < 0x4C000) then
    cfg ||| sess [Reg.fwdEpoch]
  else if w = 2 then
    sess [Reg.mbxJournalHead, Reg.mbxCfgEpoch, Reg.mbxHostSeq 0, Reg.mbxHostSeq 1, Reg.mbxHostSeq 2, Reg.mbxHostSession 0,
      Reg.mbxHostSession 1, Reg.mbxHostSession 2]
  else if w = 3 then
    sess [Reg.calActiveId, Reg.calPendingId, Reg.calPendingTNs, Reg.calPendingTSecLo, Reg.calPendingTSecHi]
  else 0

/-- The registers that the warm image carries. -/
def bankedRegs (s : State) : List (Nat × Word) :=
  s.regs.filterMap fun (x : Nat × Word) =>
    let m := BitVec.ofNat 32 (bankedBits x.1)
    let r := regReset x.1
    let v := (x.2 &&& m) ||| (r &&& ~~~m)
    if x.1 / 0x8000 = 11 then some x else if v = r then none else some (x.1, v)

/-- The Forge die is lost and the warm image stays in DRAM (R476): the restore part, and the
journal and calendar handles. No frame is left that a handle could drain for, but an overlap
window goes on (R164). -/
def bankedImage (s : State) : State :=
  let t := s.forgeLost
  let overlaps (x : Handle) : Bool := s.drainingImage.isSome && x.img == s.drainingImage
  let handle (x : Nat × Handle) : Nat × Handle := if x.2.state = .draining && !overlaps x.2 then (x.1, {}) else x
  let can (x : Nat × CanCh) : Nat × CanCh := (x.1, { cfg := x.2.cfg, stbHigh := x.2.stbHigh, mode := x.2.mode, pn := x.2.pn })
  let lin (x : Nat × LinCh) : Nat × LinCh := (x.1, { cfg := x.2.cfg, mode := x.2.mode, table := x.2.table, next := (x.2.table, 0) })
  let tun (x : Nat × TunCh) : Nat × TunCh := (x.1, { x.2 with batch := [], waiting := [], closed := none, pres := [] })
  State.emFreed { t with
    regs := s.bankedRegs
    mbx := { t.mbx with dram := s.mbx.dram, bodies := s.mbx.bodies }
    cal := { handles := s.cal.handles.map handle, running := s.cal.running, limp := s.cal.limp, pendingT := s.cal.pendingT,
             active := s.cal.active, draining := s.cal.draining, old := s.cal.old, overlapEnd := s.cal.overlapEnd }
    fwd := { em := s.fwd.em.filter (·.range.isSome), serial := s.fwd.serial, lpm := s.fwd.lpm, vlans := s.fwd.vlans, lists := s.fwd.lists,
             ports := s.fwd.ports, ageTime := s.fwd.ageTime, moveHold := s.fwd.moveHold, connEst := s.fwd.connEst,
             connOpen := s.fwd.connOpen }
    trf := s.trf
    edg := { can := s.edg.can.map can, lin := s.edg.lin.map lin, t1s := s.edg.t1s.map fun (x : Nat × T1s) => (x.1, { cfg := x.2.cfg }),
             saved := s.edg.saved, asked := s.edg.asked }
    tun := { ch := s.tun.ch.map tun }
    sig := { s.sig with seqs := [] }
    e2e := s.e2e
    sec := { rules := s.sec.rules, ms := s.sec.ms, fv := s.sec.fv }
    key := { t.key with slots := s.key.slots }
    dom := s.dom
    pair := { t.pair with role := s.pair.role, cfg := s.pair.cfg }
    boot := { t.boot with mode := s.boot.mode, slot := s.boot.slot, fwVer := s.boot.fwVer, slotA := s.boot.slotA, slotB := s.boot.slotB,
                          strapRole := s.boot.strapRole, strapRecovery := s.boot.strapRecovery, signers := s.boot.signers } }

/-! ### Powering the Forge die (R482, R483, R571) -/

/-- The state bit of a power state. -/
def pwrCode : PwrState → Nat
  | .off => 0
  | .dormant => 1
  | .ember => 2
  | .banked => 3
  | .kindle => 4
  | .run => 5

/-- Whether INHn is high in a state. -/
def inhHigh (s : State) (n : Nat) (st : PwrState) : Bool :=
  pwrCode st != 0 && bit (s.rget (Reg.pwrInhCfg0 n)).toNat (pwrCode st)

/-- STEP_US and PG_TIMEOUT_MS in ns (log entry 12). -/
def stepNs (s : State) : Nat := 1000 * inRange (s.rfld Reg.pwrPmic 0 10) 0 1000
def pgNs (s : State) : Nat := 1000000 * inRange (s.rfld Reg.pwrPmic 16 5) 1 20

/-- Bellows enters a state. -/
def enterPower (s : State) (st : PwrState) : State := s.pwrMod fun p => { p with state := st, since := s.clk }

/-- A rise to KINDLE: the INH outputs step up, then PWR_EN rises. -/
def startKindle (s : State) (warm : Bool) : State :=
  let rising := ((List.range 8).filter fun n => s.inhHigh n .kindle && !s.inhHigh n s.pwr.state).length
  let s := s.enterPower .kindle
  let s := s.pwrMod fun p => { p with kindleAt := s.clk, warm := warm, retryAt := none, wakeWaits := false, oscOn := false, decoding := [] }
  let s := s.waitUntil (s.clk + rising * s.stepNs)
  s.pwrMod fun p => { p with pwrEn := true, pwrGood := false, enAt := s.clk }

/-- The wake registers of a new start (R481). -/
def wakeRecord (s : State) (reason first src : Nat) : State :=
  let from_ := pwrCode s.pwr.state
  let ms := min (2 ^ 32 - 1) ((s.clk - s.pwr.sleepAt) / 1000000)
  let s := s.rset Reg.pwrWakeReason (BitVec.ofNat 32 reason)
  let s := s.rset Reg.pwrWakeFirst (BitVec.ofNat 32 (first + 2 ^ 8 * src + 2 ^ 16 * from_))
  let s := (s.rset Reg.pwrWakeTimeLo (BitVec.ofNat 32 s.clk)).rset Reg.pwrWakeTimeHi (BitVec.ofNat 32 (s.clk / 2 ^ 32))
  let s := if from_ = 1 ∨ from_ = 2 ∨ from_ = 3 then s.rset Reg.pwrSleepMs (BitVec.ofNat 32 ms) else s
  s.bump Reg.pwrWakeCnt

/-- Whether the Forge die sleeps. -/
def sleeping (s : State) : Bool := s.pwr.state == .dormant || s.pwr.state == .ember || s.pwr.state == .banked

/-- A wake that is due starts, unless PWR_EN must stay low or VBAT holds it back. -/
def wakeStart (s : State) : State :=
  if s.pwr.minOff ∨ s.pwr.vbatLow then s.pwrMod fun p => { p with wakeWaits := true }
  else s.startKindle (s.pwr.state == .banked)

/-- Add a bit to the wake reason. -/
def reasonAdd (s : State) (b : Nat) : State :=
  s.rset Reg.pwrWakeReason (s.rget Reg.pwrWakeReason ||| BitVec.ofNat 32 (2 ^ b))

/-- A wake latched before sleep entry starts (R473). -/
def lateWake (s : State) (b src : Nat) : State :=
  ((s.wakeRecord s.pwr.lateLatch b src).bump Reg.pwrLateWakeCnt).wakeStart

/-- The latched wake that the minimum off time still holds back. -/
def lateHeld (s : State) : Option (Nat × Nat) :=
  if s.sleeping && s.pwr.minOff && !s.pwr.wakeWaits then s.pwr.lateFirst else none

/-- A wake source fires (R481); while the network commits to sleep it is latched. -/
def wakeFire (s : State) (b src : Nat) : State :=
  if s.pwr.state = .kindle ∨ (s.sleeping ∧ s.pwr.wakeWaits) then s.reasonAdd b
  else match s.lateHeld with
  | some (b0, src0) => (s.lateWake b0 src0).reasonAdd b
  | none =>
  if s.sleeping then (s.wakeRecord (2 ^ b) b src).wakeStart
  else if s.nm.state = .committed then s.latch (some b) src
  else s

/-- A start fails (R483). -/
def kindleFail (s : State) : State :=
  let s := s.bump Reg.pwrKindleFailCnt
  let was := s.pwr.state
  let s := s.forgeLost.enterPower .kindle
  let s := if was = .run then (s.rset Reg.pwrWakeReason 0).rset Reg.pwrWakeFirst (BitVec.ofNat 32 (8 + 2 ^ 16 * 5)) else s
  s.pwrMod fun p => { p with
    pwrEn := false, pwrGood := false, failures := p.failures + 1, pmicEvent := p.failures + 1, minOff := true,
    offAt := s.clk, retryAt := some (s.clk + 10000000), warm := false }

/-- `PWR_GOOD_RISE` -/
def doPwrGoodRise (s : State) : State :=
  if s.pwr.state ≠ .kindle ∨ !s.pwr.pwrEn ∨ s.pwr.pwrGood then s
  else if s.pwr.enAt + s.pgNs < s.clk then s.kindleFail
  else s.pwrMod fun p => { p with pwrGood := true, goodAt := s.clk }

/-- `PG_TIMEOUT` -/
def doPgTimeout (s : State) : State :=
  if s.pwr.state ≠ .kindle ∨ !s.pwr.pwrEn ∨ s.pwr.pwrGood then s
  else (s.waitUntil (s.pwr.enAt + s.pgNs)).kindleFail

/-- `PWR_GOOD_FALL`, after its 2 µs, and a Forge junction above 145 °C (R575). -/
def doPwrGoodFall (s : State) : State :=
  if (s.pwr.state = .kindle ∨ s.pwr.state = .run) ∧ s.pwr.pwrGood then s.kindleFail else s

/-- `KINDLE_TIMEOUT` -/
def doKindleTimeout (s : State) : State :=
  if s.pwr.state ≠ .kindle ∨ s.pwr.retryAt.isSome then s
  else (s.waitUntil (s.pwr.kindleAt + 250000000)).kindleFail

/-- `KINDLE_RETRY` -/
def doKindleRetry (s : State) : State :=
  match s.pwr.retryAt with
  | none => s
  | some t =>
    let s := (s.waitUntil t).pwrMod fun p => { p with retryAt := none, minOff := false }
    if 3 ≤ s.pwr.failures then
      (s.enterPower .ember).pwrMod fun p => { p with pmicFault := true, failures := 0, sleepAt := s.clk }
    else
      let s := s.reasonAdd 8
      if s.pwr.vbatLow then s.pwrMod fun p => { p with wakeWaits := true } else s.startKindle false

/-- `MINIMUM_OFF_TIME_END`: a wake that waits, or that is latched, rises to KINDLE. -/
def doMinimumOffTimeEnd (s : State) : State :=
  if !s.pwr.minOff ∨ !s.sleeping then s
  else
    let s := (s.waitUntil (s.pwr.offAt + 1000000)).pwrMod fun p => { p with minOff := false }
    if s.pwr.wakeWaits then s.wakeStart
    else match s.pwr.lateFirst with
    | none => s
    | some (b, src) => s.lateWake b src

/-- VBAT is there again: the first start after OFF. -/
def powerOn (s : State) : State := (s.wakeRecord 1 0 0).wakeStart

/-- `VBAT_RISE` past the undervoltage threshold; `above`: and past 4.5 V. -/
def doVbatRise (s : State) (above : Bool) : State :=
  if s.pwr.state ≠ .off then s
  else (s.pwrMod fun p => { p with vbatOk := true, vbatLow := !above }).powerOn

/-- `VBAT_ABOVE_OPERATING_MIN` -/
def doVbatAboveOperatingMin (s : State) : State :=
  if !s.pwr.vbatLow then s
  else
    let s := s.pwrMod fun p => { p with vbatLow := false }
    if s.pwr.wakeWaits ∧ !s.pwr.minOff then s.startKindle (s.pwr.state == .banked) else s

/-- `VBAT_FALL`: retention SRAM, wake configuration and latched wakes are lost with everything
on the Ember die but its OTP. -/
def doVbatFall (s : State) : State :=
  let t := s.forgeLost
  { t with
    regs := []
    clk := 0
    mbx := { sectors := s.mbx.sectors, erased := s.mbx.erased }
    key := { t.key with sealNonce := none }
    pwr := { state := .off, pwrEn := false, pwrGood := false, released := false, vbatOk := false }
    nm := {} }

/-! ### Sleep entry (R477) -/

/-- A draw of the TRNG. -/
def draw (s : State) : Nat × State := ((Config.trng s.freeCtr).toNat, { s with freeCtr := s.freeCtr + 1 })

/-- Every mode still ordered is taken at the end of the commit window (R475). -/
def xcvrForceAll (s : State) : State :=
  let s := (s.edg.can.map (·.1)).foldl (fun s c => if (s.canCh c).newMode.isSome then s.doXcvrModeForced c else s) s
  (s.edg.lin.map (·.1)).foldl (fun s l => if (s.linCh l).newMode.isSome then s.doXcvrModeForced (64 + l) else s) s

/-- `SLEEP_ENTRY`, with the sizes of the warm image's restore and resident parts. -/
def doSleepEntry (s : State) (restoreMib residentMib : Nat) : State :=
  if s.nm.state ≠ .committed ∨ !s.nmRuns ∨ s.emberDown then s
  else
    let s := ((s.waitUntil (s.nm.commitAt.getD s.clk + 2000000)).xcvrForceAll).logUpdateAll
    let demoted := s.pwr.target == .banked && (64 < restoreMib || s.quenched Dom.memory)
    let target := if demoted then .ember else s.pwr.target
    let sealNs := if target = .banked then 200000 + 26000 * (restoreMib + residentMib) else 0
    let (n, s) := if target = .banked then s.draw else (0, s)
    let s := if target = .banked then s.setKey { s.key with sealNonce := some n } else s
    let s := s.waitUntil (s.clk + sealNs + 200000)
    let at_ := s.clk
    let s := if target = .banked then s.bankedImage else s.forgeLost
    let s := s.pwrMod fun p => { p with
      pwrEn := false, pwrGood := false, offAt := at_, sleepAt := at_, minOff := true, demoted := demoted, oscOn := false,
      decoding := [], fec := [] }
    (s.waitUntil (at_ + 1000000)).enterPower target

/-! ### Wake sources (R478 to R480) -/

/-- `WAKE_PIN`: an edge, with the level held for the pin's filter time. -/
def doWakePin (s : State) (pin : Nat) (rising : Bool) : State :=
  let fl := le s.pwr.pins (4 * pin) 1
  if 8 ≤ pin ∨ !bit fl 0 ∨ !bit fl (if rising then 1 else 2) then s
  else if s.pwr.state = .run then s.nmEvent 3 (some 1) pin
  else s.wakeFire 1 pin

/-- `CAN_WAKE_PATTERN` -/
def doCanWakePattern (s : State) (ch : Nat) : State :=
  if 64 ≤ ch ∨ !bit s.pwr.wup ch then s else s.wakeFire 2 ch

/-- Whether selective wake may decode. -/
def swState (s : State) : Bool := s.pwr.state == .ember || s.pwr.state == .banked

/-- `SW_OSCILLATOR_START`: the first dominant edge on a selective-wake channel. -/
def doSwOscillatorStart (s : State) (ch : Nat) : State :=
  if 64 ≤ ch || !bit s.pwr.sw ch || !s.swState then s
  else s.pwrMod fun p => { p with
    oscOn := true, swAt := s.clk, decoding := ch :: p.decoding.filter (· ≠ ch) }

/-- Whether a wake frame filter matches a frame. -/
def wakeHits (x : List Byte) (ch : Nat) (f : CanFrame) : Bool :=
  let fl := le x 0 1
  let dataEq (k : Nat) : Bool := !bit (le x 20 4) k || f.data.getD k 0 == (x.drop 12).getD k 0
  bit fl 0 && le x 1 1 == ch && bit fl 1 == f.ext && maskEq f.id (le x 4 4) (le x 8 4 % 2 ^ 29) &&
    (!bit fl 2 || (f.dlc == le x 2 1 && (List.range 8).all dataEq))

/-- Whether a channel is being decoded. -/
def swDecodes (s : State) (ch : Nat) : Bool := s.swState && s.pwr.oscOn && s.pwr.decoding.contains ch

/-- A correct frame lowers a channel's frame error count. -/
def swGood (s : State) (ch : Nat) : State :=
  s.pwrMod fun p => { p with swAt := s.clk, fec := amod p.fec ch 0 (· - 1) }

/-- `SELECTIVE_WAKE_FRAME`: a frame correctly received on a decoding channel ends. -/
def doSelectiveWakeFrame (s : State) (ch : Nat) (f : CanFrame) : State :=
  if !s.swDecodes ch then s
  else match f.format with
  | .fd | .xl => s.pwrMod fun p => { p with swAt := s.clk }
  | _ =>
    let s := s.swGood ch
    if s.pwr.wakeFilters.any fun x => wakeHits x ch f then s.wakeFire 3 ch else s

/-- `SW_DECODE_ERROR`: a decode error, or a correct frame that no filter matches. -/
def doSwDecodeError (s : State) (ch : Nat) (error : Bool) : State :=
  if !s.swDecodes ch then s
  else if !error then s.swGood ch
  else
    let s := s.pwrMod fun p => { p with swAt := s.clk, fec := amod p.fec ch 0 (· + 1) }
    if s.pwr.fecLimit ≤ agetD s.pwr.fec ch 0 then s.wakeFire 6 ch else s

/-- `SW_IDLE_TIMEOUT` -/
def doSwIdleTimeout (s : State) : State :=
  if !s.swState || !s.pwr.oscOn then s
  else (s.waitUntil (s.pwr.swAt + 1000000 * s.pwr.swIdle)).pwrMod fun p => { p with oscOn := false, decoding := [] }

/-- `LIN_WAKE` -/
def doLinWake (s : State) (l : Nat) : State :=
  if 32 ≤ l ∨ !bit s.pwr.linWake l then s else s.wakeFire 4 (64 + l)

/-- `WAKE_TIMER` -/
def doWakeTimer (s : State) : State :=
  if s.pwr.timerS = 0 ∨ !s.swState then s
  else (s.waitUntil (s.pwr.sleepAt + 10 ^ 9 * s.pwr.timerS)).wakeFire 5 0

/-! ### Decay (R463) -/

/-- Nanoseconds of a number of hours. -/
def hoursNs (h : Nat) : Nat := 10 ^ 9 * (3600 * h)

/-- `BANKED_DECAY`: the warm image is lost. -/
def doBankedDecay (s : State) : State :=
  let h := s.rfld Reg.pwrDecay 0 16
  if s.pwr.state ≠ .banked ∨ h = 0 then s
  else ((s.waitUntil (s.pwr.since + hoursNs h)).forgeLost).enterPower .ember

/-- `EMBER_DECAY` -/
def doEmberDecay (s : State) : State :=
  let h := s.rfld Reg.pwrDecay 16 16
  if s.pwr.state ≠ .ember ∨ h = 0 then s
  else
    let s := (s.waitUntil (s.pwr.since + hoursNs h)).pwrMod fun p => { p with oscOn := false, decoding := [] }
    s.enterPower .dormant

/-! ### The journal at a start (R118) -/

/-- Whether a value is later than another (R118). -/
def later (w a b : Nat) : Bool := 1 ≤ (a + 2 ^ w - b) % 2 ^ w && (a + 2 ^ w - b) % 2 ^ w < 2 ^ (w - 1)

/-- The latest of some values. -/
def latest (w : Nat) : List Nat → Option Nat
  | [] => none
  | a :: r => match latest w r with
    | none => some a
    | some b => some (if later w a b then a else b)

/-- Give a register a rebuilt value; `keep`: unless its value is later. -/
def rebuilt (s : State) (keep : Bool) (w off : Nat) (v : Option Nat) : State :=
  match v with
  | none => s
  | some v => if keep && !later w v (s.rget off).toNat then s else s.rset off (BitVec.ofNat 32 v)

/-- The session and the highest accepted sequence number that an entry tells of. The entry of a
completed `HOST_RESYNC` with RESTART stands in the session before it, and tells of the next one
(R101). -/
def JEntry.stands (e : JEntry) : Nat × Nat :=
  if isRestart e.opcode e.bodyHead && e.status == St.ok then ((e.session + 1) % 2 ^ 16, 0) else (e.session, e.seq)

/-- Rebuild head, epoch, sessions and sequence numbers from flash and retention SRAM; a start also
finds in flash how far the record goes (log entry 59). -/
def rebuildJournal (s : State) (keep : Bool) : State :=
  let flash := (s.mbx.sectors.flatMap (·.records)).map (·.1)
  let es := s.mbx.retention ++ flash
  let s := s.rebuilt keep 32 Reg.mbxJournalPersist ((latest 32 (flash.map (·.index))).map (· + 1))
  let s := s.rebuilt keep 32 Reg.mbxJournalHead ((latest 32 (es.map (·.index))).map (· + 1))
  let s := s.rebuilt keep 32 Reg.mbxCfgEpoch (latest 32 (es.map (·.cfgEpoch)))
  (List.range 3).foldl (fun s h =>
    let mine := (es.filter (·.host == h)).map JEntry.stands
    match latest 16 (mine.map (·.1)) with
    | none => s
    | some n =>
      let seq := latest 32 ((mine.filter (·.1 == n)).map (·.2))
      let run := (s.rget (Reg.mbxHostSession h)).toNat
      let s' := s.rebuilt keep 16 (Reg.mbxHostSession h) (some n)
      if keep && later 16 run n then s' else s'.rebuilt (keep && run == n) 32 (Reg.mbxHostSeq h) seq) s

/-! ### The boot ROM -/

/-- Eight bytes from each of four draws: one root. -/
def drawRoot (s : State) : List Byte × State :=
  (List.range 4).foldl (fun (x : List Byte × State) _ => (x.1 ++ leBytes 8 x.2.draw.1, x.2.draw.2)) ([], s)

/-- A start in BLANK generates the roots (R420). Whether the health tests and the read-back
succeed is the hardware's: a free value (log entry 1). -/
def rootGenerate (s : State) : State :=
  if s.key.burned ≠ .blank then s
  else
    let (v, s) := s.free
    if 2 ≤ s.key.rootUsed ∨ v % 3 = 1 then s.setKey { s.key with rootFault := true }
    else if v % 3 = 2 then s.setKey { s.key with rootFault := true, rootUsed := s.key.rootUsed + 1 }
    else
      let (p, s) := s.drawRoot
      let (f, s) := s.drawRoot
      let (r, s) := s.drawRoot
      s.setKey { s.key with rootP := p, rootF := f, rootS := r, burned := .provision, rootFault := false }

/-- The root of a life-cycle state (R418, R422). -/
def rootOf (k : Key) : LifeCycle → Option (List Byte)
  | .blank => none
  | .provision => some k.rootP
  | .field => some k.rootF
  | .service => some k.rootS
  | .retired => none

/-- The state in OTP comes into force, and its root crosses to the key store, masked with a value
that both dies draw (R19, R421, R422). -/
def rootTransfer (s : State) : State :=
  let s := s.draw.2
  s.setKey { s.key with inForce := s.key.burned, lcPending := false, root := rootOf s.key s.key.burned, rootLost := false }

/-- Verify a firmware slot, and note what was found. -/
def slotVerify (s : State) (slot : Nat) : Bool × State :=
  let img := s.flashImage 1 slot
  let code := s.envCheck 1 img
  let s := s.setBoot { s.boot with slotA := if slot = 0 then code else s.boot.slotA, slotB := if slot = 1 then code else s.boot.slotB }
  let v := BitVec.ofNat 32 (le img 16 4)
  (code == 0, if code = 1 then s else s.rset (if slot = 0 then Reg.bootFwVersionA else Reg.bootFwVersionB) v)

/-- Write the descriptor (R540). -/
def descWrite (s : State) (f : Descriptor → Descriptor) : State :=
  s.setBoot { s.boot with desc := { f s.boot.desc with seq := s.boot.desc.seq + 1 } }

/-- A fallback of R546. -/
def fallback (s : State) (cause : Nat) : State :=
  (s.bump Reg.bootFallbackCnt).pwrMod fun p => { p with fallbacks := p.fallbacks ++ [cause] }

/-- A firmware slot runs, in a mode. -/
def bootSlot (s : State) (slot mode : Nat) : State := 
  s.setBoot { s.boot with slot := slot, mode := mode, fwVer := le (s.flashImage 1 slot) 16 4 }

/-- Recovery mode (R549). -/
def recoveryMode (s : State) (cause : Nat) : State := s.setBoot { s.boot with mode := 2, recoveryCause := cause }

/-- The active slot, or the other one, or recovery mode. -/
def bootActive (s : State) : State :=
  let a := s.activeSlot 1
  let (ok, s) := s.slotVerify a
  if ok then s.bootSlot a 0
  else
    let (ok, s) := s.slotVerify (1 - a)
    if ok then
      ((s.descWrite fun d => { d with active := setBits d.active 0 1 (1 - a) }).fallback 2).bootSlot (1 - a) 0
    else s.recoveryMode 1

/-- The slot choice of a cold start (R546). -/
def slotChoice (s : State) : State :=
  let valid (s : State) : Bool := bit s.boot.desc.trial 0
  let t := bits s.boot.desc.trial 1 1
  let (ok, s) := if valid s && 0 < s.boot.desc.trialLeft then
      (s.descWrite fun d => { d with trialLeft := d.trialLeft - 1 }).slotVerify t
    else (false, s)
  if ok then s.bootSlot t 1
  else
    let s := if valid s && s.boot.desc.trialLeft == 0 then
        (s.descWrite fun d => { d with trial := setBits d.trial 0 1 0 }).fallback 1
      else s
    s.bootActive

/-- Program the OTP towards the goal of a confirmation: steps up to a count, and revoke bits; some
of them may fail their read-back (R547). -/
def otpProgram (s : State) (steps revoke stepsFail revokeFail : Nat) : State :=
  let n := max s.boot.rollback (steps - stepsFail)
  let r := s.boot.revoked ||| (revoke - (revoke &&& revokeFail))
  s.setBoot { s.boot with
    rollback := n, revoked := r, otpGoal := if n < steps || r &&& revoke != revoke then some (steps, revoke) else none }

/-- What failed its read-back is programmed again at a start; how far that gets is a free value
(log entry 1). -/
def otpRetry (s : State) : State :=
  match s.boot.otpGoal with
  | none => s
  | some (steps, revoke) =>
    let (v, s) := s.free
    s.otpProgram steps revoke (v % 257) (v / 257)

/-- The cold start of the boot ROM once the root has crossed. -/
def coldRest (s : State) : State :=
  let s := s.setBoot { s.boot with strapRole := Config.strapSmith, strapRecovery := Config.strapRecovery }
  let s := s.setPair { s.pair with strapSmith := Config.strapSmith }
  let s := (s.pwrMod fun p => { p with warm := false, booted := true }).rebuildJournal false
  if s.key.inForce = .retired then s.recoveryMode 4
  else if s.boot.strapRecovery then s.recoveryMode 2
  else if Config.flashMib.toNat < 64 ∨ 256 < Config.flashMib.toNat then s.recoveryMode 3
  else (s.slotChoice).readSigners

/-- The cold start of the boot ROM. -/
def coldBoot (s : State) : State := (s.otpRetry.rootGenerate.rootTransfer).coldRest

/-- The warm start: the root, the seal key and the restore part; whatever fails turns it into a
cold start (R486). -/
def warmBoot (s : State) (sealOk : Bool) : State :=
  let s := s.otpRetry.rootTransfer
  if s.key.sealNonce.isSome && s.key.root.isSome && sealOk then
    let s := s.setPair { s.pair with strapSmith := Config.strapSmith }
    let s := s.setBoot { s.boot with strapRole := Config.strapSmith, strapRecovery := Config.strapRecovery }
    s.pwrMod fun p => { p with booted := true }
  else
    let root := s.key.root
    let s := (s.forgeLost).bump Reg.pwrColdCnt
    let s := s.setKey { s.key with root := root }
    (s.pwrMod fun p => { p with released := true, warmFail := some 1 }).coldRest

/-- The local clock starts from the next whole period of the 32.768 kHz crystal (R443). -/
def clockSupply (s : State) : State := { s with clk := ceilDiv (10 ^ 9 * ceilDiv (32768 * s.clk) (10 ^ 9)) 65536 * 2 }

/-- `FORGE_RESET_RELEASE` -/
def doForgeResetRelease (s : State) (sealOk : Bool) : State :=
  if s.pwr.state ≠ .kindle ∨ !s.pwr.pwrGood ∨ s.pwr.released then s
  else
    let s := (s.waitUntil (s.pwr.goodAt + 20000)).clockSupply
    let s := s.pwrMod fun p => { p with released := true }
    if s.pwr.warm then s.warmBoot sealOk else s.coldBoot

/-! ### RUN -/

/-- The limp calendar is verified and, at a cold start, selected (R172, R164). -/
def limpStart (s : State) : State :=
  let s := s.setCal { s.cal with limp := limpImage s (s.flashImage 3 (s.activeSlot 3)) }
  let s := s.rset Reg.calLimpId (BitVec.ofNat 32 ((s.cal.limp.map (·.id)).getD 0))
  if s.pwr.warm then s else s.limpSelect 3

/-- The edge channels return to normal mode at a warm start (R485). -/
def edgeWake (s : State) : State :=
  let s := s.setEdg { s.edg with saved := [] }
  let s := (s.edg.can.map (·.1)).foldl (fun s c => if (s.canCh c).cfg.enable then s.canMode c .normal false else s) s
  let s := (s.edg.lin.map (·.1)).foldl (fun s l => if (s.linCh l).cfg.enable then s.linMode l .normal else s) s
  s.t1sSync

/-- The events of a start (R473, R481, R483, R486, R546, R549). -/
def startEvents (s : State) : State :=
  let reason := (s.rget Reg.pwrWakeReason).toNat
  let first := (s.rget Reg.pwrWakeFirst).toNat
  let p := s.pwr
  let s := s.raise 0xB001 (reason % 2 ^ 9 + 2 ^ 16 * bits first 8 8 + 2 ^ 24 * bits first 16 3)
  let s := if p.lateFirst.isSome then s.raise 0xB002 p.lateLatch else s
  let s := match p.warmFail with
    | none => s
    | some c => s.raise 0xB006 c
  let s := if 0 < p.pmicEvent then s.raise 0xB008 p.pmicEvent else s
  let s : State := p.fallbacks.foldl (fun (s : State) c => s.raise 0xE001 c) s
  if s.boot.mode = 2 then s.raise 0xE003 s.boot.recoveryCause else s

/-- `FIRMWARE_READY`: KINDLE ends in RUN. -/
def doFirmwareReady (s : State) : State :=
  if s.pwr.state ≠ .kindle ∨ !s.pwr.released ∨ s.pwr.fwReady then s
  else
    let s := if s.pwr.booted then s else s.coldBoot
    let warm := s.pwr.warm
    let s := (s.enterPower .run).pwrMod fun p => { p with fwReady := true, runAt := s.clk, pmicFault := false, failures := 0 }
    let s := s.rset Reg.bootStartUs (BitVec.ofNat 32 ((s.clk - s.pwr.kindleAt) / 1000))
    let s := s.startEvents
    let s := s.pwrMod fun p => { p with
      warmFail := none, pmicEvent := 0, fallbacks := [], lateLatch := 0, lateFirst := none }
    if s.boot.mode = 2 then s
    else
      let s := s.limpStart
      let s := if warm then
          let s := (s.timeWake (s.clk - s.pwr.sleepAt)).calResume
          (s.setMbx { s.mbx with residentWait := true }).edgeWake
        else s
      let reason := (s.rget Reg.pwrWakeReason).toNat
      let s := s.nmMod fun n => { n with
        state := .busSleep, released := 0, records := [], clusterAt := [], committed := false, forced := false,
        activeWake := bit reason 1 || bit reason 4 || bit reason 5 }
      s.nmEnter (if s.nm.en then .repeat_ else .normal)

/-- LOADED, ADMITTED and PENDING handles become EMPTY (R525). -/
def handlesRecover (s : State) : State :=
  let s := s.activationMissed
  let keep (x : Nat × Handle) : Bool := x.2.state == .active || x.2.state == .draining
  s.setCal { s.cal with handles := s.cal.handles.filter keep }

/-- `RESIDENT_VERIFY_DONE` (R486). -/
def doResidentVerifyDone (s : State) (ok : Bool) : State :=
  if !s.mbx.residentWait then s
  else
    let s := s.setMbx { s.mbx with residentWait := false }
    if ok then s
    else
      let s := (s.setMbx { s.mbx with dram := [], bodies := [] }).rebuildJournal true
      s.handlesRecover.raise 0xB006 2

/-- `DIE_LINK_FAILURE`: a word has failed four times (R17). -/
def doDieLinkFailure (s : State) : State :=
  if s.pwr.state ≠ .kindle ∧ s.pwr.state ≠ .run then s
  else
    let n := s.pwr.dieLinkCount + 1
    let s := s.pwrMod fun p => { p with dieLinkCount := n, dieLinkFailed := true }
    ((s.raise 0xB007 n).report Dom.ember 9).emberLost

/-! ### A cold start on command (R559) -/

/-- The device goes through a cold start. -/
def coldRestart (s : State) : State :=
  let s := (s.wakeRecord 1 0 0).forgeLost
  let s := s.pwrMod fun p => { p with pwrEn := false, pwrGood := false, offAt := s.clk }
  (s.waitUntil (s.clk + 1000000)).startKindle false

/-- A restart that waited for its completion takes place. -/
def restartIfDue (s : State) : State := if s.boot.restartDue then s.coldRestart else s

end State

/-! ### Meanings -/

/-- `SLEEP_ENTRY` -/
def execSleepEntry (restoreMib residentMib : Nat) (s : State) : Host.Outcome State Fault Refusal :=
  .next (s.doSleepEntry restoreMib residentMib)

/-- `WAKE_PIN` -/
def execWakePin (pin : Nat) (rising : Bool) (s : State) : Host.Outcome State Fault Refusal := .next (s.doWakePin pin rising)

/-- `CAN_WAKE_PATTERN` -/
def execCanWakePattern (ch : Nat) (s : State) : Host.Outcome State Fault Refusal := .next (s.doCanWakePattern ch)

/-- `SW_OSCILLATOR_START` -/
def execSwOscillatorStart (ch : Nat) (s : State) : Host.Outcome State Fault Refusal := .next (s.doSwOscillatorStart ch)

/-- `SELECTIVE_WAKE_FRAME` -/
def execSelectiveWakeFrame (ch : Nat) (f : CanFrame) (s : State) : Host.Outcome State Fault Refusal :=
  .next (s.doSelectiveWakeFrame ch f)

/-- `SW_IDLE_TIMEOUT` -/
def execSwIdleTimeout (s : State) : Host.Outcome State Fault Refusal := .next s.doSwIdleTimeout

/-- `SW_DECODE_ERROR` -/
def execSwDecodeError (ch : Nat) (error : Bool) (s : State) : Host.Outcome State Fault Refusal :=
  .next (s.doSwDecodeError ch error)

/-- `LIN_WAKE` -/
def execLinWake (ch : Nat) (s : State) : Host.Outcome State Fault Refusal := .next (s.doLinWake ch)

/-- `WAKE_TIMER` -/
def execWakeTimer (s : State) : Host.Outcome State Fault Refusal := .next s.doWakeTimer

/-- `VBAT_RISE` -/
def execVbatRise (above : Bool) (s : State) : Host.Outcome State Fault Refusal := .next (s.doVbatRise above)

/-- `VBAT_FALL` -/
def execVbatFall (s : State) : Host.Outcome State Fault Refusal := .next s.doVbatFall

/-- `VBAT_ABOVE_OPERATING_MIN` -/
def execVbatAboveOperatingMin (s : State) : Host.Outcome State Fault Refusal := .next s.doVbatAboveOperatingMin

/-- `PWR_GOOD_RISE` -/
def execPwrGoodRise (s : State) : Host.Outcome State Fault Refusal := .next s.doPwrGoodRise

/-- `FORGE_RESET_RELEASE` -/
def execForgeResetRelease (sealOk : Bool) (s : State) : Host.Outcome State Fault Refusal :=
  .next (s.doForgeResetRelease sealOk)

/-- `PG_TIMEOUT` -/
def execPgTimeout (s : State) : Host.Outcome State Fault Refusal := .next s.doPgTimeout

/-- `PWR_GOOD_FALL` -/
def execPwrGoodFall (s : State) : Host.Outcome State Fault Refusal := .next s.doPwrGoodFall

/-- `JUNCTION_OVERTEMP`: handled as a fall of PWR_GOOD. -/
def execJunctionOvertemp (s : State) : Host.Outcome State Fault Refusal := .next s.doPwrGoodFall

/-- `KINDLE_TIMEOUT` -/
def execKindleTimeout (s : State) : Host.Outcome State Fault Refusal := .next s.doKindleTimeout

/-- `KINDLE_RETRY` -/
def execKindleRetry (s : State) : Host.Outcome State Fault Refusal := .next s.doKindleRetry

/-- `MINIMUM_OFF_TIME_END` -/
def execMinimumOffTimeEnd (s : State) : Host.Outcome State Fault Refusal := .next s.doMinimumOffTimeEnd

/-- `FIRMWARE_READY` -/
def execFirmwareReady (s : State) : Host.Outcome State Fault Refusal := .next s.doFirmwareReady

/-- `BANKED_DECAY` -/
def execBankedDecay (s : State) : Host.Outcome State Fault Refusal := .next s.doBankedDecay

/-- `EMBER_DECAY` -/
def execEmberDecay (s : State) : Host.Outcome State Fault Refusal := .next s.doEmberDecay

/-- `RESIDENT_VERIFY_DONE` -/
def execResidentVerifyDone (ok : Bool) (s : State) : Host.Outcome State Fault Refusal := .next (s.doResidentVerifyDone ok)

/-- `DIE_LINK_FAILURE` -/
def execDieLinkFailure (s : State) : Host.Outcome State Fault Refusal := .next s.doDieLinkFailure

end Sys2Proof.Machine
end

