-- ==== Sys2Proof/Machine/Signal.lean ====
section
/-! DEFINITION.
The signal router (R366 to R376), end-to-end checks (R377 to R380), and the commands
`SIG_MAP_LOAD` and `E2E_CONTEXT_SET` (R381 to R383). -/

namespace Sys2Proof.Machine

namespace State

/-! ### End-to-end checks (R377 to R380) -/

def e2eCtx (s : State) (c : Nat) : E2eCtx := agetD s.e2e c {}

def e2eMod (s : State) (c : Nat) (f : E2eCtx → E2eCtx) : State := { s with e2e := amod s.e2e c {} f }

/-- Bytes of the CRC of a POLY. -/
def crcWidth (poly : Nat) : Nat := if poly < 2 then 1 else if poly < 4 then 2 else if poly < 7 then 4 else 8

/-- The CRCs of R377. -/
def e2eCrc (poly : Nat) (l : List Byte) : Nat :=
  match poly with
  | 0 => (Crypto.crcRun (0x1D : BitVec 8) 0xFF l ^^^ 0xFF).toNat
  | 1 => (Crypto.crcRun (0x2F : BitVec 8) 0xFF l ^^^ 0xFF).toNat
  | 2 => (Crypto.crcRun (0x1021 : BitVec 16) 0xFFFF l).toNat
  | 3 => (Crypto.crcRunR (0xA001 : BitVec 16) 0 l).toNat
  | 4 => (Crypto.crc32 l).toNat
  | 5 => (Crypto.crcRunR (0xC8DF352F : BitVec 32) 0xFFFFFFFF l ^^^ 0xFFFFFFFF).toNat
  | 6 => (Crypto.crc32c l).toNat
  | _ => (Crypto.crcRunR (0xC96C5795D7870F42 : BitVec 64) 0xFFFFFFFFFFFFFFFF l ^^^ 0xFFFFFFFFFFFFFFFF).toNat

/-- A number of `n` bytes in a context's byte order. -/
def ctxBytes (x : E2eCtx) (n v : Nat) : List Byte := if bit x.flags 4 then leBytes n v else beBytes n v

/-- Bytes that a context's fields reach up to. -/
def ctxReach (x : E2eCtx) : Nat := max (x.crcPos / 8 + crcWidth x.poly) (ceilDiv (x.ctrPos + x.ctrWidth) 8)

/-- The counter of a PDU. -/
def ctrRead (x : E2eCtx) (pdu : List Byte) : Nat :=
  let o := x.ctrPos / 8
  if x.ctrWidth = 4 then le pdu o 1 / (if x.ctrPos % 8 = 0 then 1 else 16) % 16
  else if x.ctrWidth = 8 then le pdu o 1
  else if bit x.flags 4 then le pdu o 2 else be pdu o 2

/-- Bytes put over those at an offset, as far as the list reaches. -/
def patch (l : List Byte) (off : Nat) (b : List Byte) : List Byte :=
  (l.take off ++ b ++ l.drop (off + b.length)).take l.length

/-- A PDU with a counter. -/
def ctrWrite (x : E2eCtx) (pdu : List Byte) (v : Nat) : List Byte :=
  let o := x.ctrPos / 8
  if x.ctrWidth = 4 then
    pdu.modify o fun b => BitVec.ofNat 8 (setBits b.toNat (x.ctrPos % 8) 4 v)
  else patch pdu o (ctxBytes x (x.ctrWidth / 8) v)

/-- The CRC of a PDU (R378). -/
def ctxCrc (x : E2eCtx) (pdu : List Byte) : Nat :=
  let d (i : Nat) : List Byte := leBytes 1 (x.dataId / 256 ^ i)
  let id := match x.idMode with
    | 0 => d 0 ++ d 1
    | 1 => d 0
    | 2 => leBytes 4 x.dataId
    | 3 => if ctrRead x pdu % 2 = 0 then d 0 else d 1
    | _ => []
  let len := if bit x.flags 3 then leBytes 2 pdu.length else []
  let o := x.crcPos / 8
  e2eCrc x.poly (id ++ len ++ pdu.take o ++ pdu.drop (o + crcWidth x.poly))

/-- The result that a checking context gives a PDU (R379). -/
def ctxResult (x : E2eCtx) (pdu : List Byte) : Nat :=
  let w := crcWidth x.poly
  let delta := (ctrRead x pdu + 2 ^ x.ctrWidth - x.counter) % 2 ^ x.ctrWidth
  if (x.length ≠ 0 ∧ x.length ≠ pdu.length) ∨ pdu.length < ctxReach x then 6
  else if (pdu.drop (x.crcPos / 8)).take w ≠ ctxBytes x w (ctxCrc x pdu) then 5
  else if x.fresh then 2
  else if delta = 0 then 3
  else if delta = 1 then 0
  else if delta ≤ x.maxDelta then 1
  else 4

/-- A checking context evaluates a PDU. None: the context is not enabled, protects, or is
stopped, and gives no result. -/
def e2eCheck (s : State) (c : Nat) (pdu : List Byte) : Option Nat × State :=
  let x := s.e2eCtx c
  if !bit x.flags 0 || bit x.flags 1 || s.quenched (e2eUnit c) then (none, s)
  else
    let r := ctxResult x pdu
    let moved := r == 0 || r == 1 || r == 2 || r == 4
    let (s, w) := s.bumpView (e2eUnit c) (Reg.e2eCntView0 r) c 0 (x.cnt.getD r 0)
    let s := s.e2eMod c fun y => { y with
      counter := if moved then ctrRead x pdu else y.counter
      fresh := if r = 4 then true else if r = 2 then false else y.fresh
      lastResult := r, cnt := y.cnt.set r w }
    if 3 ≤ r then
      let s := s.bump Reg.e2eFailCnt
      let (s, t) := s.raiseLimited x.evAt 100000000 0x8201 (c + 2 ^ 16 * r)
      (some r, s.e2eMod c fun y => { y with evAt := t })
    else (some r, s)

/-- A protecting context writes its counter and its CRC (R380). One that is not enabled, checks,
or is stopped writes nothing. -/
def e2eProtect (s : State) (c : Nat) (pdu : List Byte) : List Byte × State :=
  let x := s.e2eCtx c
  if !bit x.flags 0 || !bit x.flags 1 || s.quenched (e2eUnit c) then (pdu, s)
  else
    let p := ctrWrite x pdu x.counter
    (patch p (x.crcPos / 8) (ctxBytes x (crcWidth x.poly) (ctxCrc x p)),
      s.e2eMod c fun y => { y with counter := (y.counter + 1) % 2 ^ y.ctrWidth })

/-! ### Signals (R369) -/

/-- The positions of a signal's bits, its least significant first. -/
def sigPos (motorola : Bool) (start len : Nat) : List Nat :=
  if motorola then
    let next (p : Nat) : Nat := if p % 8 = 0 then p + 15 else p - 1
    ((List.range len).map fun i => (List.range i).foldl (fun p _ => next p) start).reverse
  else (List.range len).map (start + ·)

/-- A bit of a byte string. -/
def bitAt (l : List Byte) (p : Nat) : Bool := (l.getD (p / 8) 0).getLsbD (p % 8)

/-- The value of a signal; none where its bits reach past the end. -/
def sigRead (l : List Byte) (ps : List Nat) : Option Nat :=
  if ps.all fun p => p < 8 * l.length then some (ps.foldr (fun p v => 2 * v + b2n (bitAt l p)) 0) else none

/-- A byte string with a signal's value. -/
def sigWrite (l : List Byte) (ps : List Nat) (v : Nat) : List Byte :=
  ps.zipIdx.foldl (fun l (p, i) =>
    l.modify (p / 8) fun b => BitVec.ofNat 8 (setBits b.toNat (p % 8) 1 (v / 2 ^ i % 2))) l

def tplMod (s : State) (n : Nat) (f : Template → Template) : State :=
  match aget s.sig.tpls n with
  | none => s
  | some t => s.setSig { s.sig with tpls := aset s.sig.tpls n (f t) }

def mapMod (s : State) (n : Nat) (f : Mapping → Mapping) : State :=
  match aget s.sig.maps n with
  | none => s
  | some m => s.setSig { s.sig with maps := aset s.sig.maps n (f m) }

/-- Write a mapping's value into its template. -/
def mapWrite (s : State) (m : Mapping) (v : Nat) : State :=
  s.tplMod m.template fun t => { t with work := sigWrite t.work (sigPos (bit m.flags 1) m.dstBit m.length) v }

/-- Set or clear a mapping's update bit. -/
def updateBit (s : State) (m : Mapping) (v : Nat) : State :=
  if m.updateBit = 0xFFFF then s else s.tplMod m.template fun t => { t with work := sigWrite t.work [m.updateBit] v }

/-- A mapping has been written: its timeout restarts. -/
def mapFresh (s : State) (n : Nat) : State := s.mapMod n fun m => { m with at_ := s.clk, stale := false }

/-! ### Emission (R374, R375, R380) -/

/-- Whether a KIND 1 slot of the running image names a template. -/
def inSlotTpl (s : State) (n : Nat) : Bool := s.runningImage.any fun i => i.slots.any fun e => e.kind == 1 && e.index == n

/-- Send a composed PDU where its template says. -/
def tplSend (s : State) (q n start : Nat) (t : Template) (b : List Byte) : State :=
  if t.kind = 2 then
    let f : CanFrame := (tplFrame t b).frame
    let (stamp, s) := s.free
    let seq := t.seq
    let s := s.tplMod n fun t => { t with seq := (t.seq + 1) % 256 }
    s.seqInject q
      { bytes := s.avtpFrame t.da t.tci (tscf t.stream seq none (acfCan 0 f stamp)), origin := 0x400 + q, start := start,
        edge := .none }
  else if s.inSlotTpl n then s.tplMod n fun t => { t with heldFrame := some b, heldTaken := false }
  else if t.channel < 64 then s.canWrite t.channel t.target (tplFrame t b)
  else s.linPublish (t.channel - 64) t.id b

/-- Emit a template. `start`: release of the job that composes it. -/
def emitTpl (s : State) (q start n : Nat) : State :=
  match aget s.sig.tpls n with
  | none => s
  | some t =>
    let (b, s1) := if t.e2e < 1024 then s.e2eProtect t.e2e (t.work.take t.length) else (t.work.take t.length, s)
    let (b, s1) := if t.profile < 64 then s1.cipherGenerate t.profile t.keySlot b else (some b, s1)
    match b with
    | none => { s1 with e2e := s.e2e }
    | some b =>
      let ups := s1.sig.maps.filter fun (x : Nat × Mapping) => x.2.template == n && x.2.updateBit != 0xFFFF
      let s := ups.foldl (fun s x => s.updateBit x.2 0) s1
      let s := (s.tplMod n fun t => { t with last := some t.work }).bump Reg.sigEmitCnt
      s.tplSend q n start t b

/-- A template in a job's run (R373, R376). -/
def jobTpl (s : State) (q start n : Nat) : State :=
  match aget s.sig.tpls n with
  | none => s
  | some t => if t.mode = 2 ∨ (t.mode = 1 ∧ t.last = some t.work) then s else s.emitTpl q start n

/-- The templates of a job, the first `k` of them at most. -/
def jobRun (s : State) (q start j k : Nat) : State :=
  let (first, count) := agetD s.sig.jobs j (0, 0)
  (List.range (min k count)).foldl (fun s i => s.jobTpl q start (first + i)) s

/-! ### Releases and runs (R145, R366, R376) -/

/-- Whether the sequencers execute. -/
def sigRuns (s : State) (q : Nat) : Bool :=
  q < 4 && s.datapathUp && !s.quenched Dom.services && s.rfld Reg.sigCtrl 0 1 == 1

/-- Whether a job is pending on its sequencer. -/
def jobPending (x : Sequencer) (j : Nat) : Bool := x.calJobs.any (·.1 == j) || x.jobs.any (·.1 == j)

/-- Put a released job, with its deadline and its release, behind those released no later (R366). -/
def jobInsert (y : Nat × Nat × Nat) (l : List (Nat × Nat × Nat)) : List (Nat × Nat × Nat) :=
  l.takeWhile (fun x => x.2.2 ≤ y.2.2) ++ y :: l.dropWhile fun x => x.2.2 ≤ y.2.2

/-- `ROUTER_JOB_RELEASE`: an entry of the running image releases its job. -/
def doRouterJobRelease (s : State) (n : Nat) : State :=
  match s.runningImage.bind fun i => (i.jobs[n]?).map fun e => (i, e) with
  | none => s
  | some (i, e) =>
    match s.calReach i e.off with
    | none => s
    | some (s, late) =>
      if 4 ≤ e.seq || s.quenched Dom.services || jobPending (s.seqOf e.seq) e.job then s
      else s.seqMod e.seq fun x => { x with calJobs := jobInsert (e.job, s.clk + e.deadline - late, s.clk - late) x.calJobs }

/-- A calendar job stops at its deadline. -/
def jobMiss (s : State) (q j : Nat) : State := (s.bump Reg.sigDeadlineCnt).raise 0x8102 (j % 4096 + 4096 * q)

/-- `SIG_JOB_RUN`: a sequencer runs its next job to its end. -/
def doSigJobRun (s : State) (q : Nat) : State :=
  if !s.sigRuns q then s
  else
    let x := s.seqOf q
    match x.calJobs with
    | (j, by_, start) :: r =>
      let s := s.seqMod q fun x => { x with calJobs := r }
      if by_ < s.clk ∧ 0 < (agetD s.sig.jobs j (0, 0)).2 then s.jobMiss q j else s.jobRun q start j 256
    | [] =>
      match x.jobs with
      | (j, start) :: r => (s.seqMod q fun x => { x with jobs := r }).jobRun q start j 256
      | [] => s

/-- `JOB_DEADLINE_MISS`: the calendar job that runs has reached `k` of its templates by its
deadline. -/
def doJobDeadlineMiss (s : State) (q k : Nat) : State :=
  match (s.seqOf q).calJobs with
  | [] => s
  | (j, by_, start) :: r =>
    if !s.datapathUp || s.quenched Dom.services || 4 ≤ q || (agetD s.sig.jobs j (0, 0)).2 ≤ k then s
    else
      let s := if s.sigRuns q && s.clk ≤ by_ then s.jobRun q start j k else s
      ((s.waitUntil by_).seqMod q fun x => { x with calJobs := r }).jobMiss q j

/-! ### Extraction (R368, R371) -/

/-- The source PDU record of a sequencer that an arrival matches. -/
def pduOf (s : State) (q : Nat) (a : Arrival) : Option SrcPdu :=
  (s.sig.pdus.find? fun (x : Nat × SrcPdu) => x.1 / 1024 == q && x.2.kind == a.kind && x.2.channel == a.channel &&
    (a.kind != 2 || x.2.tunnel == a.tunnel) && x.2.id == a.id).map (·.2)

/-- The ordinary mappings of a PDU are written: the templates written, too. -/
def mapOrdinary (s : State) (data : List Byte) (p : SrcPdu) : List Nat × State :=
  (List.range p.mapCount).foldl (fun (w, s) i =>
    match aget s.sig.maps (p.firstMap + i) with
    | none => (w, s)
    | some m =>
      if bit m.flags 4 then (w, s)
      else match sigRead data (sigPos (bit m.flags 0) m.srcBit m.length) with
      | none => (w, s.bump Reg.sigNomatchCnt)
      | some v => (w ++ [m.template], ((s.mapWrite m v).updateBit m 1).mapFresh (p.firstMap + i))) ([], s)

/-- The STATUS_SRC mappings of a PDU are written. -/
def mapStatus (s : State) (r : Nat) (p : SrcPdu) : List Nat × State :=
  (List.range p.mapCount).foldl (fun (w, s) i =>
    match aget s.sig.maps (p.firstMap + i) with
    | none => (w, s)
    | some m => if bit m.flags 4 then (w ++ [m.template], (s.mapWrite m r).mapFresh (p.firstMap + i)) else (w, s)) ([], s)

/-- `SIG_EXTRACTION`: a sequencer without a job to run takes its next arrival apart. -/
def doSigExtraction (s : State) (q : Nat) : State :=
  let x := s.seqOf q
  if !s.sigRuns q || !x.calJobs.isEmpty || !x.jobs.isEmpty then s
  else match x.arrivals with
  | [] => s
  | a :: r =>
    let s := s.seqMod q fun x => { x with arrivals := r }
    let s := match a.item with
      | none => s
      | some n => s.rxTakeSeq a.channel n q
    match s.pduOf q a with
    | none => s.bump Reg.sigNomatchCnt
    | some p =>
      let s := s.bump Reg.sigExtractCnt
      let (res, s) := if p.e2e < 1024 then s.e2eCheck p.e2e a.data else (some 0, s)
      let (w1, s) := if res.any (· ≤ 2) then s.mapOrdinary a.data p else ([], s)
      let (w2, s) := match res with
        | none => ([], s)
        | some r => s.mapStatus r p
      let due := (w1 ++ w2).eraseDups.filter fun n => (aget s.sig.tpls n).any (·.mode == 2)
      let s := due.foldl (fun s n => s.emitTpl q s.clk n) s
      if p.trigger = 0xFFFF ∨ jobPending (s.seqOf q) p.trigger then s
      else s.seqMod q fun x => { x with jobs := x.jobs ++ [(p.trigger, s.clk)] }

/-- The STATUS_SRC mappings without a TIMEOUT of their own that stand in one source PDU with a
mapping: they show NO_NEW_DATA when it times out (R372; log entry 32). -/
def quietStatus (s : State) (n : Nat) : List Mapping :=
  (s.sig.pdus.filter fun (x : Nat × SrcPdu) => x.2.firstMap ≤ n && n < x.2.firstMap + x.2.mapCount).flatMap
    fun (x : Nat × SrcPdu) => (List.range x.2.mapCount).filterMap fun i =>
      (aget s.sig.maps (x.2.firstMap + i)).filter fun m => bit m.flags 4 && m.timeout == 0

/-- `MAPPING_TIMEOUT`: TIMEOUT has passed since a mapping was last written (R372). -/
def doMappingTimeout (s : State) (n : Nat) : State :=
  match aget s.sig.maps n with
  | none => s
  | some m =>
    if m.timeout = 0 ∨ m.stale ∨ !s.datapathUp ∨ s.quenched Dom.services then s
    else
      let s := s.waitUntil (m.at_ + 100000 * m.timeout)
      let mode := m.flags / 4 % 4
      let s := if bit m.flags 4 then s.mapWrite m 7 else if mode = 0 then s else s.mapWrite m m.subst
      let s := if !bit m.flags 4 && mode = 2 then s.updateBit m 0 else s
      let s := if bit m.flags 4 then s else (s.quietStatus n).foldl (fun s m => s.mapWrite m 7) s
      ((s.mapMod n fun m => { m with stale := true }).bump Reg.sigTimeoutCnt).raise 0x8101 n

/-! ### `SIG_MAP_LOAD` (R381 to R383) -/

def pduRec (b : List Byte) : SrcPdu :=
  { kind := le b 0 1, channel := le b 1 1, tunnel := le b 2 2, id := le b 4 4 % 2 ^ 29 + 2 ^ 31 * (le b 4 4 / 2 ^ 31),
    firstMap := le b 8 2, mapCount := le b 10 2, e2e := le b 12 2, trigger := le b 14 2 }

def mapRec (now : Nat) (b : List Byte) : Mapping :=
  { srcBit := le b 0 2, length := le b 2 1, flags := le b 3 1 % 32, template := le b 4 2, dstBit := le b 6 2,
    timeout := le b 8 2, updateBit := le b 10 2, subst := le b 16 8, at_ := now }

def tplRec (b : List Byte) : Template :=
  { kind := le b 0 1, channel := le b 1 1, mode := le b 2 1, flags := le b 3 1 % 32, id := le b 4 4, length := le b 8 1,
    target := le b 9 1, e2e := le b 10 2, profile := le b 12 2, keySlot := le b 14 2, stream := le b 16 8,
    da := (b.drop 24).take 6, tci := le b 30 2, default_ := fit 64 (b.drop 32), work := fit 64 (b.drop 32) }

/-- A context number, or none named. -/
def ctxField (n : Nat) : Bool := n < 1024 || n == 0xFFFF

/-- Fields of a source PDU record in range. -/
def pduRange (p : SrcPdu) : Bool :=
  p.kind == 0xFF || (p.kind ≤ 2 && p.mapCount ≤ 256 && ctxField p.e2e &&
    (match p.kind with
     | 0 => decide (p.channel < 64)
     | 1 => 64 ≤ p.channel && p.channel < 96
     | _ => p.channel < 32 && p.tunnel < 512))

/-- Fields of a mapping record in range, and its bits within 512. -/
def mapRange (m : Mapping) : Bool :=
  1 ≤ m.length && m.length ≤ 64 && (!bit m.flags 4 || m.length == 4) && m.srcBit < 16384 && m.dstBit < 512 &&
    m.flags / 4 % 4 ≤ 2 && (m.updateBit < 512 || m.updateBit == 0xFFFF) &&
    (sigPos (bit m.flags 1) m.dstBit m.length).all (· < 512)

/-- Fields of a template record in range. -/
def tplRange (t : Template) : Bool :=
  let fd := bit t.flags 1
  t.kind ≤ 2 && t.mode ≤ 2 && ctxField t.e2e && (t.profile == 0xFFFF || (t.profile < 64 && t.keySlot < 1024)) &&
    (t.target < 24 || t.target == 0xFF) && 1 ≤ t.length &&
    (if t.kind = 1 then 64 ≤ t.channel && t.channel < 96 && t.length ≤ 8 && t.id < 64
     else (t.kind == 2 || t.channel < 64) && t.id < (if bit t.flags 3 then 2 ^ 29 else 2048) &&
       (if fd then [1, 2, 3, 4, 5, 6, 7, 8, 12, 16, 20, 24, 32, 48, 64].contains t.length else t.length ≤ 8))

/-- References to `count` records from `first`, in the quarter `q` of a table of `size` records
per sequencer, all of them loaded. -/
def refsOk (size q first count : Nat) (loaded : Nat → Bool) : Bool :=
  count == 0 || (size * q ≤ first && first + count ≤ size * (q + 1) && (List.range count).all fun i => loaded (first + i))

/-- References of a record of a table. -/
def recRefs (s : State) (table n : Nat) (b : List Byte) : Bool :=
  match table with
  | 0 =>
    let p := pduRec b
    p.kind == 0xFF || (refsOk 4096 (n / 1024) p.firstMap p.mapCount (fun i => (aget s.sig.maps i).isSome) &&
      (p.trigger == 0xFFFF || refsOk 1024 (n / 1024) p.trigger 1 fun i => (aget s.sig.jobs i).isSome))
  | 1 => refsOk 1024 (n / 4096) (le b 4 2) 1 fun i => (aget s.sig.tpls i).isSome
  | 2 => true
  | _ => refsOk 1024 (n / 1024) (le b 0 2) (le b 2 2) fun i => (aget s.sig.tpls i).isSome

/-- Fields of a record of a table. -/
def recRange (table : Nat) (b : List Byte) : Bool :=
  match table with
  | 0 => pduRange (pduRec b)
  | 1 => mapRange (mapRec 0 b)
  | 2 => tplRange (tplRec b)
  | _ => decide (le b 2 2 ≤ 256)

/-- Load one record. -/
def recLoad (s : State) (table n : Nat) (b : List Byte) : State :=
  match table with
  | 0 => s.setSig { s.sig with pdus := if le b 0 1 = 0xFF then adel s.sig.pdus n else aset s.sig.pdus n (pduRec b) }
  | 1 => s.setSig { s.sig with maps := aset s.sig.maps n (mapRec s.clk b) }
  | 2 => s.setSig { s.sig with tpls := aset s.sig.tpls n (tplRec b) }
  | _ => s.setSig { s.sig with jobs := aset s.sig.jobs n (le b 0 2, le b 2 2) }

/-- Records of a table, and bytes of one. -/
def recCount (table : Nat) : Nat := if table = 1 then 16384 else 4096
def recBytes (table : Nat) : Nat := if table = 0 then 16 else if table = 1 then 24 else if table = 2 then 96 else 8

/-- `SIG_MAP_LOAD` -/
def sigMapLoad (dma : List Byte) (c : Cmd) (s : State) : Exec :=
  let table := c.u 0 1
  let first := c.u 2 2
  let count := c.u 4 2
  let w := recBytes table
  let recs := (List.range count).map fun i => (first + i, fit w (dma.drop (w * i)))
  Exec.datapath s <| Exec.need s [Dom.services] <|
  Exec.check (table ≤ 3 && 1 ≤ count && count ≤ 1024 && first + count ≤ recCount table && c.u 8 8 % 8 == 0) s St.badParam <|
  Exec.check (recs.all fun (_, b) => recRange table b) s 0x0604 <|
  Exec.check (recs.all fun (n, b) => s.recRefs table n b) s 0x0605 <|
  Exec.check (table != 3 || !(recs.any fun (n, b) => le b 2 2 == 0 &&
    s.liveImages.any fun i => i.jobs.any (·.job == n))) s 0x0606 <|
  .done (recs.foldl (fun s (n, b) => s.recLoad table n b) s) St.ok 0 []

/-! ### `E2E_CONTEXT_SET` (R378, R381 to R383) -/

/-- The alignment and overlap rules of R378, and the fields within LENGTH. -/
def e2eLayout (x : E2eCtx) : Bool :=
  let crcEnd := x.crcPos + 8 * crcWidth x.poly
  x.crcPos % 8 == 0 && x.ctrPos % (if x.ctrWidth = 4 then 4 else 8) == 0 &&
    (crcEnd ≤ x.ctrPos || x.ctrPos + x.ctrWidth ≤ x.crcPos) && (x.length == 0 || ctxReach x ≤ x.length)

/-- `E2E_CONTEXT_SET` -/
def e2eContextSet (c : Cmd) (s : State) : Exec :=
  let n := c.u 0 2
  let old := s.e2eCtx n
  let fl := c.u 2 1 % 32
  let renew := bit fl 2 || (bit fl 0 && !bit old.flags 0)
  let x : E2eCtx := { old with
    flags := fl, poly := c.u 3 1, dataId := c.u 4 4, idMode := c.u 8 1, ctrWidth := c.u 9 1, maxDelta := c.u 10 2,
    crcPos := c.u 12 2, ctrPos := c.u 14 2, length := c.u 16 2,
    counter := if renew then 0 else old.counter % 2 ^ c.u 9 1, fresh := renew || old.fresh,
    lastResult := if renew then 0xF else old.lastResult }
  Exec.datapath s <| Exec.need s [e2eUnit n] <|
  Exec.check (n < 1024 && x.poly ≤ 7 && x.idMode ≤ 4 && (x.ctrWidth == 4 || x.ctrWidth == 8 || x.ctrWidth == 16) &&
    1 ≤ x.maxDelta && x.maxDelta < 2 ^ x.ctrWidth) s St.badParam <|
  Exec.check (e2eLayout x) s 0x0607 <|
  .done (s.e2eMod n fun _ => x) St.ok 0 []

end State

/-- `ROUTER_JOB_RELEASE` -/
def execRouterJobRelease (job : Nat) (s : State) : Host.Outcome State Fault Refusal := .next (s.doRouterJobRelease job)

/-- `SIG_EXTRACTION` -/
def execSigExtraction (seq : Nat) (s : State) : Host.Outcome State Fault Refusal := .next (s.doSigExtraction seq)

/-- `SIG_JOB_RUN` -/
def execSigJobRun (seq : Nat) (s : State) : Host.Outcome State Fault Refusal := .next (s.doSigJobRun seq)

/-- `JOB_DEADLINE_MISS` -/
def execJobDeadlineMiss (seq reached : Nat) (s : State) : Host.Outcome State Fault Refusal :=
  .next (s.doJobDeadlineMiss seq reached)

/-- `MAPPING_TIMEOUT` -/
def execMappingTimeout (m : Nat) (s : State) : Host.Outcome State Fault Refusal := .next (s.doMappingTimeout m)

/-- `SIG_MAP_LOAD` -/
def execSigMapLoad (host queue : Nat) (dma : List Byte) (s : State) : Host.Outcome State Fault Refusal :=
  .next (s.runDma host queue 0x0601 (fun c => c.u 8 8) (fun c => State.recBytes (c.u 0 1) * c.u 4 2) (State.sigMapLoad dma))

/-- `E2E_CONTEXT_SET` -/
def execE2eContextSet (host queue : Nat) (s : State) : Host.Outcome State Fault Refusal :=
  .next (s.runCmd host queue 0x0602 State.e2eContextSet)

end Sys2Proof.Machine
end

