-- ==== Sys2Proof/Machine/Pair.lean ====
section
/-! DEFINITION.
The redundant pair: roles (R492 to R494), the Tongs link and its keying (R495 to R497), the
mirrored state (R500 to R502), heartbeats, loss and takeover (R503 to R508), split brain (R509,
R510), resynchronisation (R512) and the pair commands (R513 to R517). -/

namespace Sys2Proof.Machine

namespace State

def pairMod (s : State) (f : Pair → Pair) : State := s.setPair (f s.pair)

/-- Whether the pair functions run: ENABLE is set and the datapath island is up. -/
def pairUp (s : State) : Bool := s.pair.role != .single && s.datapathUp

/-- The partner's FORGE_ID; 0 before one is known. -/
def partnerId (s : State) : Nat := (s.rget Reg.pairPartnerId).toNat

def roleCode : Role → Nat
  | .single => 0
  | .smith => 1
  | .striker => 2

/-- The strapped role (R492). -/
def strapRole (s : State) : Role := if s.pair.strapSmith then .smith else .striker

/-! ### The link (R495, R497) -/

/-- Send a hello unit: FORGE_ID, the strapped role, the role claimed, FW_VERSION, the nonce. -/
def helloSend (s : State) : State :=
  let (n, s) := s.draw
  let claims := if s.pair.settled then roleCode s.pair.role else 0
  let s := s.emit (.tongsUnit 5 (leBytes 4 Config.forgeId.toNat ++ leBytes 1 (roleCode s.strapRole) ++ leBytes 1 claims ++
    leBytes 4 s.fwVersion ++ leBytes 8 n))
  s.pairMod fun p => { p with helloNonce := n, helloAt := s.clk, helloFailed := false }

/-- The link of a device in a pair comes up with its lanes: a PAIR_KEY_SLOT set since the last
link-up takes effect (R514). -/
def linkStart (s : State) : State :=
  if !s.pairUp || s.pair.linkState != 0 || s.pair.lanes != 15 || s.quenched (portUnit 64) then s
  else (s.pairMod fun p => { p with
    linkState := 1, linkKey := le p.cfg 2 2, syncSent := false, syncActive := none, syncPending := none,
    joining := false, syncFailed := false }).helloSend

/-- The link goes down: its port ends, and mirroring stops (R502). -/
def linkStop (s : State) : State :=
  let down (s : State) : State := s.mirrorOff.pairMod fun p => { p with
    linkState := 0, handover := none, joining := false, syncActive := none, syncPending := none }
  if s.pair.linkState < 2 || s.quenched (portUnit 64) then down s
  else ((down s).cutArriving 64).portStop 64

/-- `TONGS_LINK_UP` -/
def doTongsLinkUp (s : State) : State :=
  if !s.datapathUp || s.quenched (portUnit 64) then s else (s.pairMod fun p => { p with lanes := 15 }).linkStart

/-- `TONGS_LINK_DOWN` -/
def doTongsLinkDown (s : State) (lane : Nat) : State :=
  let up := s.pair.linkState != 0
  let s := s.pairMod fun p => { p with lanes := setBits p.lanes (lane % 4) 1 0 }
  if up then s.linkStop.raise 0xC001 (1 * 256) else s

/-- The keying fails: the link stays at LINK_STATE 1. -/
def keyingFail (s : State) : State := (s.pairMod fun p => { p with helloFailed := true }).raise 0xC001 (1 + 2 * 256)

/-- `HELLO_TIMEOUT` -/
def doHelloTimeout (s : State) : State :=
  if !s.pairUp || s.pair.linkState != 1 || s.pair.helloFailed then s else (s.waitUntil (s.pair.helloAt + 10000000)).keyingFail

/-- `KEYING_RETRY` -/
def doKeyingRetry (s : State) : State :=
  if !s.pairUp || s.pair.linkState != 1 || !s.pair.helloFailed then s
  else (s.waitUntil (s.pair.helloAt + 100000000)).helloSend

/-- The key in a slot, when the slot is fit to be PAIR_KEY_SLOT (R497). -/
def pairKey (s : State) (slot : Nat) : Option (List Byte) :=
  (s.keyFor slot 0x23 0x22).filter fun k => slot < 1008 && k.length == 32

/-- Derive the session key into slot 1,015 (R428, R497). None: it cannot be derived. -/
def sessionKey (s : State) (h : Hello) : Option State :=
  let slot := s.pair.linkKey
  let level := s.levelBelow (some slot)
  let own := leBytes 8 s.pair.helloNonce
  let their := leBytes 8 h.nonce
  let ctx := if Config.forgeId.toNat < h.forgeId then own ++ their else their ++ own
  if s.quenched Dom.keyStore || s.quenched Dom.security then none
  else ((s.pairKey slot).filter fun _ => level ≤ 8).map fun k =>
    let label : List Byte := [0x74, 0x6F, 0x6E, 0x67, 0x73, 0x2D, 0x73, 0x65, 0x73, 0x73, 0x69, 0x6F, 0x6E]
    (s.bumpBy Reg.secCpReqCnt 2).slotPut 1015
      { state := .loaded, key := kdf k label level 3 0x20 ctx 256, bits := 256, usage := 3, dest := 0x20,
        level := level, parent := some slot, recipe := .derive label ctx }

/-- Settle the roles with a partner (R493). -/
def settle (s : State) (h : Hello) : State :=
  let own := s.pair.settled && s.pair.role == .smith
  let their := h.claims == 1
  let equal := !own && !their && s.pair.strapSmith == h.strapSmith
  let role : Role :=
    if own then .smith
    else if their then .striker
    else if !equal then s.strapRole
    else if Config.forgeId.toNat < h.forgeId then .smith else .striker
  (s.pairMod fun p => { p with role := role, settled := true, strapConflict := equal }).roleModes

/-- `HELLO_UNIT_RECEIVED` -/
def doHelloUnitReceived (s : State) (h : Hello) : State :=
  if !s.pairUp || s.pair.linkState != 1 then s
  else match s.sessionKey h with
  | none => s.keyingFail
  | some t =>
    if !h.verified then t.keyingFail
    else
      let t := t.rset Reg.pairPartnerId (BitVec.ofNat 32 h.forgeId)
      let t := t.pairMod fun p => { p with
        linkState := 2, partnerFw := h.fwVersion, partnerStrap := h.strapSmith, helloFailed := false, missAt := t.clk, tongsAt := 0 }
      (t.portResume 64).settle h

/-! ### Takeover and the change of roles (R506, R515) -/

/-- Steps 2 and 3 of R506: numbers and freshness values skip ahead. The count of numbers issued skips
with the next number, which it gives modulo 2^16 (R309). -/
def skipAhead (s : State) : State :=
  let gskip := le s.pair.cfg 4 2
  let fskip := le s.pair.cfg 8 4
  let gen (x : Nat × Frer) : Nat × Frer :=
    match (aget s.pair.mirrorGen x.1).filter fun _ => x.2.mirror with
    | some n =>
      let next := (n + gskip) % 65536
      (x.1, { x.2 with next := next, cnt := x.2.cnt.set 0 (x.2.cnt.getD 0 0 + BitVec.ofNat 32 ((next + 65536 - x.2.next) % 65536)) })
    | none => x
  let s := s.setTrf { s.trf with gen := s.trf.gen.map gen }
  let used := ((s.sig.tpls.map (·.2.profile)).filter fun p => (p < 256 : Bool)).filter fun p => (s.eaProf p).enable && (s.eaProf p).kind == 1
  ((used.map fun p => (s.eaProf p).entry).dedup).foldl (fun s e => s.fvSet e ((s.fvLast e + fskip) % 2 ^ 64)) s

/-- Takeover, with its cause (R506). Following and injecting go by the role. -/
def takeover (s : State) (cause : Nat) : State :=
  let s := s.pairMod fun p => { p with role := .smith, settled := true, acting := true, handover := none }
  let s := (s.skipAhead).roleModes
  (s.bump Reg.pairTakeoverCnt).raise 0xC003 cause

/-- A planned handover: this device takes the other role (R515). -/
def changeRole (s : State) (r : Role) : State :=
  let s := s.pairMod fun p => { p with role := r, settled := true, acting := false }
  (if r = .smith then s.skipAhead else s).roleModes

/-- `PAIR_ROLE` commands that wait for their handover complete with the role that the device
has then. -/
def roleDone (s : State) : State :=
  ((s.mbx.cmds.filter fun c => c.accepted && c.opcode == 0x0A01 && c.phase == .running).map (·.index)).foldl
    (fun s i => s.finishCmd i St.ok (roleCode s.pair.role) []) s

/-! ### Heartbeats (R503 to R508) -/

/-- Count the Tongs heartbeats that were expected since the last count: one every 10 µs. -/
def missCount (s : State) : State :=
  if s.pair.linkState < 2 then s
  else
    let n := (s.clk - 1 - s.pair.missAt) / 10000
    (s.bumpBy Reg.pairHbMissCnt n).pairMod fun p => { p with missAt := p.missAt + 10000 * n }

/-- The fields that both kinds of heartbeat carry (R503). -/
def beatFields (s : State) (yields : Bool) : List Byte :=
  leBytes 1 1 ++ leBytes 1 (roleCode s.pair.role) ++ leBytes 1 (b2n s.pair.strapSmith + 2 * b2n yields) ++ leBytes 1 0 ++
    leBytes 4 Config.forgeId.toNat ++ leBytes 4 s.pair.hbCount

/-- The payload of a Tongs heartbeat; the widths of what follows the common fields are the
model's (log entry 25). -/
def tongsBeat (s : State) (yields : Bool) : List Byte :=
  s.beatFields yields ++ leBytes 1 (nmCode s.nm.state) ++ ((s.nm.commitAt.map (leBytes 8)).getD []) ++
    (List.range 4).flatMap fun i => if (s.domain i).state = .disabled then [] else leBytes 16 (s.domain i).value

/-- A backbone heartbeat frame, before its FCS. -/
def backboneBeat (s : State) (yields : Bool) : List Byte :=
  let c := s.pair.cfg
  (c.drop 40).take 6 ++ List.replicate 6 0 ++ beBytes 2 0x8100 ++ beBytes 2 (7 * 2 ^ 13 + le c 28 2 % 4096) ++
    beBytes 2 0x88B6 ++ s.beatFields yields

/-- Send one heartbeat on the Tongs link. -/
def tongsSend (s : State) (yields : Bool) : State :=
  let s := s.emit (.tongsUnit 3 (s.tongsBeat yields))
  s.pairMod fun p => { p with hbCount := (p.hbCount + 1) % 2 ^ 32, tongsAt := s.clk }

/-- Send one backbone heartbeat on every port of HB_PORTS that is up. -/
def backboneSend (s : State) (yields : Bool) : State :=
  let ports := (List.range 8).filter fun p => bit (le s.pair.cfg 32 8) p && !s.portDown p
  let s := ports.foldl (fun s p => s.emit (.heartbeat p (s.backboneBeat yields))) s
  s.pairMod fun p => { p with hbCount := (p.hbCount + 1) % 2 ^ 32, backboneAt := s.clk }

/-- `TONGS_HEARTBEAT_SEND`: the heartbeat of a planned handover carries the new role. -/
def doTongsHeartbeatSend (s : State) : State :=
  if !s.pairUp || s.pair.linkState < 2 || s.quenched (portUnit 64) then s
  else
    let s := (s.waitUntil (s.pair.tongsAt + 10000)).missCount
    match s.pair.handover with
    | some (n + 1) =>
      let s := s.changeRole (if n = 0 then .smith else .striker)
      (((s.pairMod fun p => { p with handover := some 0 }).tongsSend false).roleDone)
    | _ => s.tongsSend false

/-- `BACKBONE_HEARTBEAT_SEND` -/
def doBackboneHeartbeatSend (s : State) : State :=
  if !s.pairUp then s else (s.waitUntil (s.pair.backboneAt + 100000)).backboneSend false

/-- A smith at device level sends one heartbeat with YIELD on every path (R505). -/
def yieldSend (s : State) : State :=
  if !s.pairUp || s.pair.role != .smith then s
  else
    let s := if s.pair.linkState < 2 || s.quenched (portUnit 64) then s else s.tongsSend true
    s.backboneSend true

/-- Domain following (R507): once per millisecond, as a host correction. -/
def follow (s : State) (offs : List Int) : State :=
  let due (s : State) (i : Nat) : Bool :=
    s.strikerNow && bit (le s.pair.cfg 12 1) i && (s.domain i).state != .disabled && (s.domain i).source == 2 &&
      !s.quenched Dom.time && ((aget s.pair.followAt i).all fun t => (t + 1000000 ≤ s.clk : Bool))
  (List.range 4).foldl (fun s i =>
    match offs[i]? with
    | none => s
    | some o =>
      if !due s i then s
      else
        let s := s.pairMod fun p => { p with followAt := aset p.followAt i s.clk }
        ((s.domMod i fun d => { d with lastAt := s.clk }).correct i o).2) s

/-- The sync blocks of an acting smith (R512): handles, freshness, recovery histories, the oldest
number first, and next numbers, NM state, and the journal, before whose first entry a gap is told (R502). -/
def syncBlocks (s : State) : State :=
  let head := (s.rget Reg.mbxJournalHead).toNat
  let ents := sortOn (·.index) ((if s.dramJournalOk then s.mbx.dram else []).filter fun e => (head < e.index + 65537 : Bool))
  let gap := (ents.head?.map fun e => e.index - (s.rget Reg.pairMirrorAcked).toNat).getD 0
  let s := (s.cal.handles.filter fun h => h.2.state != .empty).foldl (fun s h =>
    s.emit (.tongsUnit 6 (leBytes 1 h.1 ++ leBytes 1 (handleCode h.2.state) ++ leBytes 8 s.cal.pendingT ++
      (h.2.img.map (·.bytes)).getD []))) s
  let s := s.sec.fv.foldl (fun s x => s.emit (.mirror (.freshness x.1 x.2))) s
  let s := (s.trf.recov.filter fun x => x.2.mirror).foldl (fun s x => s.emit (.mirror (.recovery x.1 x.2.seen.reverse))) s
  let s := (s.trf.gen.filter fun x => x.2.mirror).foldl (fun s x => s.emit (.mirror (.generation x.1 x.2.next))) s
  let s := s.emit (.mirror (.nm (nmCode s.nm.state) s.pnRequested (s.localReq != 0 || s.nm.askAbort)))
  let s := if 0 < gap then s.emit (.mirror (.journalGap gap)) else s
  let s := ents.foldl (fun s e => s.emit (.mirror (.journal e.bytes))) s
  s.pairMod fun p => { p with syncSent := true }

/-- What a Tongs heartbeat says of the partner's role: a striker on a keyed link joins a smith,
a smith starts the resynchronisation, and a heartbeat of this device's own role at LINK_STATE 4
is that of a planned handover (R512, R515). -/
def beatRole (s : State) (role : Nat) : State :=
  let own := roleCode s.pair.role
  if s.pair.linkState = 2 then
    if own = 2 ∧ role = 1 then s.pairMod fun p => { p with linkState := 3 }
    else if own = 1 ∧ role = 2 ∧ !s.pair.syncSent then s.syncBlocks
    else s
  else if s.pair.linkState = 4 then
    if role = own then
      if s.pair.handover = some 0 then s
      else ((s.changeRole (if own = 1 then .striker else .smith)).pairMod fun p => { p with handover := none }).roleDone
    else if s.pair.handover = some 0 then s.pairMod fun p => { p with handover := none }
    else s
  else s

/-- The commit instant of the smith is a striker's own (R508). -/
def beatCommit (s : State) (h : Heartbeat) : State :=
  if s.pair.role = .striker ∧ h.commitAt.isSome ∧ (s.nm.state = .readySleep ∨ s.nm.state = .prepare) then
    s.nmMod fun n => { n with commitAt := h.commitAt }
  else s

/-- What a Tongs heartbeat carries beyond a backbone one. -/
def tongsBeatIn (s : State) (h : Heartbeat) : State :=
  let s := s.missCount
  let offs := (List.range 4).map fun i => if (s.domain i).state = .disabled then 0 else h.offsets.getD i 0
  let s := s.pairMod fun p => { p with missAt := s.clk, partnerNm := h.nmState, offsets := offs.map (satSigned 32) }
  ((s.follow offs).beatCommit h).beatRole h.role

/-- `HEARTBEAT_RECEIVED`: from the partner, or from the first device heard before one is
known. -/
def doHeartbeatReceived (s : State) (h : Heartbeat) : State :=
  if !s.pairUp || h.forgeId == Config.forgeId.toNat || (s.partnerId != 0 && s.partnerId != h.forgeId) ||
      (h.tongs && (s.pair.linkState < 2 || s.quenched (portUnit 64))) then s
  else
    let s := s.rset Reg.pairPartnerId (BitVec.ofNat 32 h.forgeId)
    let s := s.pairMod fun p => { p with alive := true, lastBeat := s.clk, linkAtBeat := p.linkState, partnerStrap := h.strapped }
    let s := if h.tongs then s.tongsBeatIn h else s
    if h.yields && h.role == 1 && s.pair.role == .striker then (s.takeover 3).roleDone else s

/-- `PARTNER_LOSS` (R504) -/
def doPartnerLoss (s : State) : State :=
  if !s.pairUp || !s.pair.alive then s
  else
    let s := (s.waitUntil (s.pair.lastBeat + 150000)).missCount
    let s := (s.pairMod fun p => { p with alive := false, handover := none }).raise 0xC002 s.partnerId
    let s := if s.pair.role = .striker then s.nmMod fun n => { n with commitAt := if n.state = .prepare then none else n.commitAt } else s
    let s :=
      if s.pair.role != .striker then s
      else if s.pair.linkAtBeat != 4 then s.raise 0xC003 4
      else if s.rfld Reg.pairCtrl 0 1 = 1 then s.takeover 1
      else s
    s.roleDone

/-! ### Mirrored state (R500 to R502) -/

/-- Merge sequence numbers that the partner has accepted into a recovery history. -/
def recoveryMerge (s : State) (fn : Nat) (seqs : List Nat) : State :=
  let r := s.recovery fn
  if !r.enabled || !r.mirror then s
  else seqs.foldl (fun s n => s.recovMod fn fun r =>
    let top := match r.top with
      | none => n
      | some t => if r.matchAlg ∨ 0 < seqDiff n t then n else t
    { r with top := some top, seen := (n :: r.seen.filter (· ≠ n)).filter (fun m => (seqDiff top m).natAbs < r.history),
             lastAccept := s.clk }) s

/-- Store an entry in the partner ring, and acknowledge it. -/
def partnerEntry (s : State) (b : List Byte) : State :=
  if s.quenched Dom.memory then s
  else
    let i := le b 0 4
    let ring := (i, b) :: s.pair.partnerRing.filter fun x => x.1 % 65536 ≠ i % 65536
    let head := max (s.rget Reg.pairPartnerHead).toNat ((i + 1) % 2 ^ 32)
    ((s.pairMod fun p => { p with partnerRing := ring }).rset Reg.pairPartnerHead (BitVec.ofNat 32 head)).emit
      (.tongsUnit 4 (leBytes 4 i))

/-- Apply an item of the partner's mirrored state. -/
def applyMirror (s : State) : MirrorMsg → State
  | .journal b => s.partnerEntry b
  | .journalGap n => s.raise 0xC006 n
  | .freshness e v => (s.fvSet (e % 1024) (v % 2 ^ 64)).emit (.tongsUnit 4 [])
  | .recovery fn seqs => (s.recoveryMerge fn seqs).emit (.tongsUnit 4 [])
  | .generation fn n => (s.pairMod fun p => { p with mirrorGen := aset p.mirrorGen fn (n % 65536) }).emit (.tongsUnit 4 [])
  | .nm st _ req =>
    let rose := req && !s.nm.partnerReq
    let s := (s.pairMod fun p => { p with partnerNm := st }).nmMod fun n => { n with partnerReq := req }
    let s := s.emit (.tongsUnit 4 [])
    if rose && (s.nm.state == .prepare || s.nm.state == .committed) then s.nmEvent 1 none 0 else s.nmEval
  | .calendar op b img => if s.pair.role = .striker then s.calFollow op b img else s

/-- `MIRROR_MESSAGE_RECEIVED` -/
def doMirrorMessageReceived (s : State) (m : MirrorMsg) (tagOk : Bool) : State :=
  if !s.pairUp || s.pair.linkState < 2 || s.quenched (portUnit 64) then s
  else if !tagOk then s.bump Reg.pairUnitErrCnt
  else if s.pair.linkState = 4 then s.applyMirror m
  else s

/-! ### Resynchronisation (R512) -/

/-- Admit the image of a handle with this device's own checks. An image that is ACTIVE in the
handle already is in its place. -/
def syncHandle (s : State) (h st t : Nat) (b : List Byte) : State :=
  let same := (s.handle h).state == .active && (s.handle h).img.any (·.bytes == b)
  let live := (s.handle h).state == .pending || (s.handle h).state == .active || (s.handle h).state == .draining
  if same && st == 4 then s
  else if 3 < h || live || s.quenched Dom.memory then s.syncFail
  else match loadChecks b b.length with
  | some _ => s.syncFail
  | none =>
    let i := parseImage b
    if st = 1 then s.setHandle h { state := .loaded, img := some i }
    else match admitChecks s i false with
    | some _ => s.syncFail
    | none => (s.setHandle h { state := .admitted, img := some i }).pairMod fun p => { p with
        syncActive := if st = 4 then some h else p.syncActive
        syncPending := if st = 3 then some (h, t) else p.syncPending }

/-- The last step of a joining device: the acting smith's image is activated at the boundary,
without check 3 of R155. -/
def syncFinish (s : State) (t : Nat) : State :=
  match s.pair.syncActive with
  | none => s.syncDone
  | some h =>
    match s.handle h with
    | ⟨.admitted, some i⟩ =>
      if s.quenched Dom.memory || s.quenched Dom.calendar || (s.handleIn .pending).isSome || !s.timeOk i t (s.domNs i.domain) || !s.overlapOk i t ||
          !s.resourcesOk i then s.syncFail
      else (s.schedule h i t).pairMod fun p => { p with joining := true }
    | _ => s.syncFail

/-- `SYNC_BLOCK_RECEIVED`; at the device that sent the blocks, the joining device's report that
every step has passed. A partner at LINK_STATE 4 that missed an activation asks for the calendar
state, which this device then sends, whichever role it holds (R165; log entry 25). -/
def doSyncBlockReceived (s : State) (i : SyncItem) : State :=
  if !s.pairUp || s.quenched (portUnit 64) then s
  else if s.pair.linkState ≠ 3 then
    (match i with
     | .finish _ => if (s.pair.linkState = 2 ∧ s.pair.role = .smith) ∨ s.pair.linkState = 4 then s.syncDone else s
     | .request => if s.pair.linkState = 4 then s.syncBlocks else s
     | _ => s)
  else if s.pair.syncFailed || s.pair.joining then s
  else match i with
  | .handle h st t b => s.syncHandle h st t b
  | .mirror m => s.applyMirror m
  | .finish t => s.syncFinish t
  | .request => s

/-! ### Split brain (R509, R510) -/

/-- Votes that count: they arrived within 1 ms. -/
def votes (s : State) : List Vote :=
  (s.pair.zoneVotes.filter fun x => (s.clk ≤ x.2.2 + 1000000 : Bool)).map (·.2.1)

/-- Whether a vote lists a device, and the role that it claims there. -/
def listed (v : Vote) (id : Nat) : Option Nat :=
  if 1 ≤ v.heard ∧ v.id0 = id then some v.role0 else if 2 ≤ v.heard ∧ v.id1 = id then some v.role1 else none

/-- Zones that list a device. -/
def votesFor (s : State) (id : Nat) : Nat := (s.votes.filter fun v => (listed v id).isSome).length

/-- Whether a clash exists. -/
def clashNow (s : State) : Bool :=
  s.pair.role == .smith && s.partnerId != 0 && s.votes.any fun v => listed v s.partnerId == some 1

/-- Whether this device keeps the smith role in a clash. -/
def keepsSmith (s : State) : Bool :=
  let a := s.votesFor Config.forgeId.toNat
  let b := s.votesFor s.partnerId
  if a ≠ b then decide (b < a)
  else if s.pair.strapSmith != s.pair.partnerStrap then s.pair.strapSmith
  else decide (Config.forgeId.toNat < s.partnerId)

/-- `VOTE_RECEIVED` -/
def doVoteReceived (s : State) (v : Vote) : State :=
  if !s.pairUp || le s.pair.cfg 1 1 ≤ v.zone then s
  else s.pairMod fun p => { p with zoneVotes := aset p.zoneVotes v.zone (v, s.clk) }

/-- A clash has ended or been decided. -/
def clashReport (s : State) (steps : Bool) : State :=
  (s.bump Reg.pairClashCnt).raise 0xC004
    (s.votesFor Config.forgeId.toNat % 16 + 256 * (s.votesFor s.partnerId % 16) + 65536 * b2n steps)

/-- `CLASH_COMPARISON`: a clash is reported once, when it is decided or when it is over before
that. -/
def doClashComparison (s : State) : State :=
  if !s.pairUp then s
  else
    let s := s.waitUntil (s.pair.clashAt + 100000)
    let n := s.pair.clashes
    let s := s.pairMod fun p => { p with clashAt := s.clk, clashes := if s.clashNow then n + 1 else 0 }
    if !s.clashNow then (if n = 1 then s.clashReport false else s)
    else if n ≠ 1 then s
    else if s.keepsSmith then s.clashReport false
    else
      let s := s.clashReport true
      ((s.pairMod fun p => { p with role := .striker, acting := false, clashes := 0, handover := none }).roleModes).roleDone

/-! ### Commands (R513 to R517) -/

/-- The ranges of a `PAIR_CONFIG`; GEN_SKIP and FV_SKIP take their defaults from 0. -/
def pairCfgOk (c : Cmd) : Bool :=
  1 ≤ c.u 1 1 && c.u 1 1 ≤ 8 && c.u 2 2 < 1008 && c.u 4 2 < 32768 && c.u 8 4 ≤ 2 ^ 31 && c.u 32 8 < 256 && bit (c.u 40 1) 0

/-- The body held for a `PAIR_CONFIG`, with its defaults in place. -/
def pairCfgOf (c : Cmd) : List Byte :=
  let d (v w : Nat) : Nat := if v = 0 then w else v
  c.bytes 0 4 ++ leBytes 2 (d (c.u 4 2) 64) ++ c.bytes 6 2 ++ leBytes 4 (d (c.u 8 4) 256) ++ c.bytes 12 36

/-- `PAIR_CONFIG` -/
def pairConfig (c : Cmd) (s : State) : Exec :=
  let en := bit (c.u 0 1) 0
  let was := s.pair.role != .single
  Exec.check (pairCfgOk c) s St.badParam <|
  Exec.check (en == was || s.liveImages.all fun i => bit i.flags 1 == en) s 0x0A05 <|
  Exec.check (s.pairKey (c.u 2 2)).isSome s 0x0A04 <|
  let s := s.pairMod fun p => { p with cfg := pairCfgOf c }
  if en == was then .done s.roleModes St.ok 0 []
  else if en then
    let s := s.pairMod fun p => { p with role := s.strapRole, settled := false, acting := false, tongsAt := 0, backboneAt := 0 }
    .done (s.roleModes.linkStart) St.ok 0 []
  else
    let s := s.linkStop
    let s := s.pairMod fun p => { p with
      role := .single, settled := false, acting := false, alive := false, strapConflict := false, clashes := 0, zoneVotes := [] }
    .done (s.roleModes) St.ok 0 []

/-- `PAIR_ROLE` -/
def pairRole (c : Cmd) (s : State) : Exec :=
  let target := c.u 0 1
  Exec.check (s.pair.role != .single) s 0x0A01 <|
  Exec.check (target == 1 || target == 2) s St.badParam <|
  if roleCode s.pair.role = target then .done s St.ok target []
  else if !bit (c.u 1 1) 0 then
    Exec.check (s.pair.linkState == 4) s 0x0A06 <|
    .run (s.pairMod fun p => { p with handover := some target }) (s.clk + 1000000)
  else
    Exec.check (!s.pair.alive) s 0x0A06 <|
    if target = 1 then .done (s.takeover 2) St.ok 1 []
    else .done (s.changeRole .striker) St.ok 2 []

/-- The 32 bytes of `PAIR_STATUS` mode 0 (R516). -/
def pairStatusBytes (s : State) : List Byte :=
  let age := if s.pair.lastBeat = 0 then 2 ^ 32 - 1 else min (2 ^ 32 - 1) ((s.clk - s.pair.lastBeat) / 1000)
  leBytes 1 (roleCode s.pair.role) ++ leBytes 1 s.pair.linkState ++ leBytes 1 (s.votesFor Config.forgeId.toNat) ++
    leBytes 1 (if s.partnerId = 0 then 0 else s.votesFor s.partnerId) ++ leBytes 4 s.partnerId ++ leBytes 4 s.pair.partnerFw ++
    leBytes 4 (s.rget Reg.pairMirrorAcked).toNat ++ leBytes 4 (s.rget Reg.pairPartnerHead).toNat ++ leBytes 4 age ++ leBytes 8 0

/-- The entry of the partner ring at an index. -/
def partnerAt (s : State) (i : Nat) : Option (List Byte) :=
  if s.quenched Dom.memory then none else aget s.pair.partnerRing i

/-- Entries of the partner ring from an index on, up to the first that is missing. -/
def partnerRun (s : State) (i : Nat) : Nat → List (List Byte)
  | 0 => []
  | n + 1 => match s.partnerAt (i % 2 ^ 32) with
    | none => []
    | some b => b :: s.partnerRun (i + 1) n

/-- `PAIR_STATUS` -/
def pairStatus (c : Cmd) (s : State) : Exec :=
  let dma := bit (c.u 1 1) 0
  let n := c.u 2 2
  let i := c.u 4 4
  Exec.check (s.pair.role != .single) s 0x0A01 <|
  Exec.check (c.u 0 1 ≤ 1) s St.badParam <|
  if c.u 0 1 = 0 then .done s St.ok 0 s.pairStatusBytes
  else
    Exec.check (1 ≤ n && n ≤ (if dma then 4096 else 1) && (!dma || (c.host == 0 && c.u 8 8 % 128 == 0))) s St.badParam <|
    Exec.check ((i + 2 ^ 32 - (s.rget Reg.pairPartnerHead).toNat) % 2 ^ 32 ≥ 2 ^ 31) s St.badParam <|
    match s.partnerRun i n with
    | [] => Exec.fail s 0x0101
    | e :: r =>
      let res := i + 2 ^ 32 * (r.length + 1)
      if !dma then .done s St.ok res e
      else if !s.canDma then .wait
      else .done (s.hostOut (c.u 8 8) ((e :: r).flatMap id)) St.ok res []

end State

/-- `PAIR_CONFIG` -/
def execPairConfig (host queue : Nat) (s : State) : Host.Outcome State Fault Refusal :=
  .next (s.runCmd host queue 0x0A00 State.pairConfig)

/-- `PAIR_ROLE` -/
def execPairRole (host queue : Nat) (s : State) : Host.Outcome State Fault Refusal :=
  .next (s.runCmd host queue 0x0A01 State.pairRole)

/-- `PAIR_STATUS` -/
def execPairStatus (host queue : Nat) (s : State) : Host.Outcome State Fault Refusal :=
  .next (s.runCmd host queue 0x0A02 State.pairStatus)

/-- `TONGS_LINK_UP` -/
def execTongsLinkUp (s : State) : Host.Outcome State Fault Refusal := .next s.doTongsLinkUp

/-- `TONGS_LINK_DOWN` -/
def execTongsLinkDown (lane : Nat) (s : State) : Host.Outcome State Fault Refusal := .next (s.doTongsLinkDown lane)

/-- `HELLO_UNIT_RECEIVED` -/
def execHelloUnitReceived (h : Hello) (s : State) : Host.Outcome State Fault Refusal := .next (s.doHelloUnitReceived h)

/-- `HELLO_TIMEOUT` -/
def execHelloTimeout (s : State) : Host.Outcome State Fault Refusal := .next s.doHelloTimeout

/-- `KEYING_RETRY` -/
def execKeyingRetry (s : State) : Host.Outcome State Fault Refusal := .next s.doKeyingRetry

/-- `MIRROR_MESSAGE_RECEIVED` -/
def execMirrorMessageReceived (m : MirrorMsg) (tagOk : Bool) (s : State) : Host.Outcome State Fault Refusal :=
  .next (s.doMirrorMessageReceived m tagOk)

/-- `SYNC_BLOCK_RECEIVED` -/
def execSyncBlockReceived (i : SyncItem) (s : State) : Host.Outcome State Fault Refusal := .next (s.doSyncBlockReceived i)

/-- `TONGS_HEARTBEAT_SEND` -/
def execTongsHeartbeatSend (s : State) : Host.Outcome State Fault Refusal := .next s.doTongsHeartbeatSend

/-- `BACKBONE_HEARTBEAT_SEND` -/
def execBackboneHeartbeatSend (s : State) : Host.Outcome State Fault Refusal := .next s.doBackboneHeartbeatSend

/-- `HEARTBEAT_RECEIVED` -/
def execHeartbeatReceived (h : Heartbeat) (s : State) : Host.Outcome State Fault Refusal := .next (s.doHeartbeatReceived h)

/-- `PARTNER_LOSS` -/
def execPartnerLoss (s : State) : Host.Outcome State Fault Refusal := .next s.doPartnerLoss

/-- `VOTE_RECEIVED` -/
def execVoteReceived (v : Vote) (s : State) : Host.Outcome State Fault Refusal := .next (s.doVoteReceived v)

/-- `CLASH_COMPARISON` -/
def execClashComparison (s : State) : Host.Outcome State Fault Refusal := .next s.doClashComparison

end Sys2Proof.Machine
end

