-- ==== Sys2Proof/Machine/Fence.lean ====
section
/-! DEFINITION.
Fault containment: reports, quench, recovery and release, escalation (R521 to R529), and the
commands of the chapter (R530 to R533). -/

namespace Sys2Proof.Machine

/-- The budget of a domain's recovery in ns (R525). -/
def fenceBudget (d : Nat) : Nat :=
  match d / 0x1000 with
  | 0 =>
    (match d with
     | 0 | 2 | 3 => 50
     | 1 | 4 => 20
     | 5 | 6 | 7 | 8 | 17 | 20 | 21 | 22 | 23 | 24 => 5
     | 9 | 15 => 2
     | 10 => 30
     | 13 | 14 | 18 => 3
     | _ => 1) * 1000000
  | 3 => 50000
  | 4 => 10000
  | 6 => 20000000
  | _ => 100000

/-- The domains of levels 0 to 2 inside a domain, itself included, and the unit that it is. -/
def fenceScope (d : Nat) : List Nat :=
  ((List.range 25).filter fun x => (lineage x).contains d) ++ (if 24 < d then [d] else [])

/-- Every domain and unit, in the order of the identifiers. -/
def allDomains : List Nat :=
  let units (kind n : Nat) : List Nat := (List.range n).map (· + 0x1000 * kind)
  List.range 25 ++ units 1 65 ++ units 2 96 ++ units 3 512 ++ units 4 1024 ++ units 5 64 ++ (units 5 64).map (· + 128) ++ [0x6000]

namespace State

def fmodDom (s : State) (d : Nat) (f : FDomain → FDomain) : State :=
  s.setFnc { s.fnc with doms := amod s.fnc.doms d {} f }

/-- Raise an event of the chapter about a domain: those of levels 0 and 1 carry severity 7
(R534). -/
def fenceEvent (s : State) (code d arg : Nat) : State :=
  if levelOf d ≤ 1 then s.raiseSev code 7 0 (arg % 2 ^ 32) else s.raise code arg

/-! ### Host-side queues (R39, R80) -/

/-- Disable a receive ring: every frame bound for it is dropped. -/
def rxDisable (s : State) (n : Nat) : State :=
  let s := s.rsetF (Reg.hifRxrCfg n) 0 1 0
  let s := ((s.ringRewind n).rxMod n fun r => { r with lost := 0 }).heldDrop (9 + n)
  (s.fr.copies.filter fun c => c.port == 67 && c.queue == n).foldl (fun s c => s.ringDrop c n false) s

/-- Disable a transmit ring. -/
def txDisable (s : State) (n : Nat) : State := (s.rsetF (Reg.hifTxrCfg n) 0 1 0).heldDrop (41 + n)

/-- Disable an event queue. -/
def evqDisable (s : State) (h : Nat) : State :=
  let s := s.rsetF (Reg.evqCfg h) 0 1 0
  if h = 0 then s.heldDrop 0 else s

/-- Disable the main host's event queue, rings and timestamp queues (R39). -/
def hostQueuesOff (s : State) : State :=
  let s := s.evqDisable 0
  let s := (List.range 32).foldl rxDisable s
  let s := (List.range 32).foldl txDisable s
  (List.range 4).foldl (fun s g => (s.rsetF (Reg.hifTsqCtrl g) 0 1 0).heldDrop (73 + g)) s

/-! ### What a quench does (R524, R525) -/

/-- Frames in the order in which a quench aborts them: those held behind a pending copy first, so
that none of them takes its place, and the others in the order of their decisions (R224, R246). -/
def abortOrder (l : List Frame) : List Nat := (sortOn (fun (f : Frame) => if f.heldDup then 0 else f.order + 1) l).map (·.fid)

/-- Abort frames that a quench takes away. -/
def abortAll (s : State) (l : List Frame) : State := (abortOrder l).foldl (fun s i => s.abortFrame i 10) s

/-- Frames that a source of a pipeline has brought in and that are not decided leave the device, a
host's with its timestamp entry (R78); decided ones abort (R246). -/
def pipeQuench (s : State) (n : Nat) : State :=
  let mine (f : Frame) : Bool := pipeOf f.src == n
  let gone := s.fr.frames.filter fun f => mine f && !f.decided
  let s := s.setFr { s.fr with
    frames := s.fr.frames.filter fun f => !(mine f && !f.decided)
    heads := s.fr.heads.filter fun (x : Nat × Nat) => pipeOf x.1 != n
    owed := s.fr.owed.filter fun o => !gone.any (·.fid == o.fid) }
  let s := gone.foldl (fun s f => if f.src = 67 then s.tsNowhere f else s) s
  s.abortAll (s.fr.frames.filter fun f => mine f && f.outcome == .pending)

/-- One copy is discarded: on a lane it ends under R238. -/
def copyQuench (s : State) (c : Copy) : State :=
  let pipe := pipeOf (((s.frame? c.fid).map (·.src)).getD 0)
  let s := if c.port ≤ 64 && (c.onLane || c.preempted) then s.tailAbort c pipe else s.discardCopy c
  s.lose c.fid c.port 3

/-- Every stored frame is discarded. -/
def bufferQuench (s : State) : State :=
  let s := s.abortAll (s.fr.frames.filter fun f => f.decided && f.outcome == .pending)
  let s := (List.range 32).foldl ringRewind s
  (s.fr.copies.foldl copyQuench s).gc

/-- Spilled frames are discarded. -/
def memoryQuench (s : State) : State :=
  ((s.fr.copies.filter fun c => c.spill == .inDram || c.spill == .draining).foldl copyQuench s).gc

/-- A port is quenched: the copy on its lane and the frame that arrives end, and it counts as
down. -/
def portQuench (s : State) (p : Nat) : State :=
  let was := s.portDown p
  let s := (s.fr.copies.filter fun c => c.port == p && (c.onLane || c.preempted)).foldl (fun s c =>
    ((s.tailAbort c (pipeOf (((s.frame? c.fid).map (·.src)).getD 0))).pathLost c.fid p).bump Reg.bufLinkdownDropCnt) s
  let s := s.cutArriving p
  if was then s else if p = 64 then s.linkStop else s.portStop p

/-- The ports of a port group. -/
def fencePorts (d : Nat) : List Nat :=
  match d with
  | 20 => List.range 8
  | 21 => (List.range 16).map (· + 8)
  | 22 => (List.range 24).map (· + 24)
  | 23 => (List.range 16).map (· + 48)
  | _ => [64]

/-- The lanes of a port group lose their power. -/
def groupQuench (s : State) (d : Nat) : State :=
  let s := (fencePorts d).foldl portQuench s
  if d = 24 then
    let up := s.pair.lanes != 0
    let s := s.pairMod fun p => { p with lanes := 0, linkState := 0 }
    if up then s.raise 0xC001 (1 * 256) else s
  else (fencePorts d).foldl (fun s p => s.bportMod p fun b => { b with linkUp := false }) s

/-- The frames held for a CAN or LIN channel are discarded. -/
def busQuench (s : State) (ch : Nat) : State :=
  if ch < 64 then
    if (aget s.edg.can ch).isSome then (s.canFlush ch).canMod ch fun c => { c with rx := [] } else s
  else if (aget s.edg.lin (ch - 64)).isSome then s.linMod (ch - 64) fun c => { c with rx := [], current := none }
  else s

/-- What a tunnel channel holds is discarded. -/
def tunQuench (t : TunCh) : TunCh :=
  { t with batch := [], waiting := [], closed := none, auth := [], check := [], pres := [] }

/-- What the edge services hold is discarded. -/
def servicesQuench (s : State) : State :=
  let s := s.setTun { s.tun with ch := s.tun.ch.map fun (n, t) => (n, tunQuench t), x0 := [], x1 := [], in0 := [], in1 := [] }
  s.setSig { s.sig with seqs := [] }

/-- The verdicts of some sources will not come any more: decided frames that wait for one abort
(R246), and one that is not decided yet fails at its decision. -/
def verdictsGone (s : State) (mine : Frame → Bool) : State :=
  let waits (f : Frame) : Bool := mine f && f.outcome == .pending && (f.icv == .waiting || f.edge == .waiting)
  let fail (v : Verdict) : Verdict := if v = .waiting then .failed else v
  let s := s.setFr { s.fr with
    owed := s.fr.owed.filter fun o => !s.fr.frames.any fun f => f.fid == o.fid && mine f
    frames := s.fr.frames.map fun f =>
      if waits f && !f.decided then { f with icv := fail f.icv, edge := fail f.edge, lenient := false } else f }
  s.abortAll (s.fr.frames.filter fun f => waits f && f.decided)

/-- The security domain's verdicts are gone, and its requests end (R408). -/
def securityQuench (s : State) : State :=
  let s := s.verdictsGone fun _ => true
  (s.setFr { s.fr with owed := [] }).cipherAbort

/-- What happens inside a domain as it is quenched. -/
def quenchEffect (s : State) (d : Nat) : State :=
  match d with
  | 1 => s.emberLost
  | 9 => s.setHif { s.hif with guards := [] }
  | 10 => s.memoryQuench
  | 11 => s.timeQuench
  | 12 => let (gone, s) := s.eraseLoaded; s.keysLost gone
  | 13 => s.pipeQuench 0
  | 14 => s.pipeQuench 1
  | 15 => s.bufferQuench
  | 16 => s.setCal { s.cal with deadlines := [], openSlots := [], openWindows := [] }
  | 17 => ((List.range 96).foldl busQuench s |> fun s => ((List.range 16).map (· + 48)).foldl portQuench s)
  | 18 => s.servicesQuench
  | 19 => s.securityQuench
  | 20 | 21 | 22 | 23 | 24 => s.groupQuench d
  | _ =>
    match d / 0x1000 with
    | 1 => s.portQuench (d % 0x1000)
    | 2 => s.busQuench (d % 0x1000)
    | 3 => s.tunMod (d % 0x1000) tunQuench
    | 5 =>
      let p := d % 128
      if 128 ≤ d % 0x1000 then s
      else
        let s := s.verdictsGone fun f => f.src == p && f.icv == .waiting
        s.setFr { s.fr with owed := s.fr.owed.filter fun o => !(o.src == p && o.ticket.isNone) }
    | _ => s

/-- The order in which the parts of a quench take effect: the contract monitor stops first. -/
def effectOrder : List Nat := [16, 19, 13, 14, 15, 10, 20, 21, 22, 23, 24, 17, 18, 11, 12, 9, 1]

/-- `FENCE_RELEASE` commands of a domain that are running. -/
def releaseCmds (s : State) (d : Nat) : List Nat :=
  (s.mbx.cmds.filter fun c => c.accepted && c.opcode == 0x0B01 && c.phase == .running && c.u 0 2 == d).map (·.index)

/-- A `FENCE_RELEASE` that is cut off has no effect (R106): the domain that it was recovering is as
it found it, unless another command recovers it too. -/
def releaseUndo (s : State) (c : Cmd) : State :=
  let d := c.u 0 2
  let x := s.fdom d
  if x.state != .recovering || !x.byCommand || (s.releaseCmds d).any (· != c.index) then s
  else match x.before with
  | none => s
  | some (stuck, waits, recent) => s.fmodDom d fun x => { x with
      state := if stuck then .stuck else .quenched, waits := waits, recent := recent, byCommand := false, runner := none
      before := none }

/-- What a running command had begun is taken back. -/
def undoCmd (s : State) (c : Cmd) : State :=
  if c.phase ≠ .running then s
  else if c.opcode = 0x0503 then s.xcvrUndo c
  else if c.opcode = 0x0B01 then s.releaseUndo c
  else if c.opcode = 0x0A01 ∧ s.pair.handover = some (c.u 0 1) then s.pairMod fun p => { p with handover := none }
  else s

/-- Commands that are cut off are taken back and completed with `ABORTED` (R106). -/
def cutCmds (s : State) (hit : Cmd → Bool) : State :=
  (s.mbx.cmds.filter fun c => c.accepted && (c.phase == .accepted || c.phase == .running) && hit c).foldl
    (fun s c => (s.undoCmd c).failOp c.opcode c.index St.aborted) s

/-- Commands that a quench cuts off, and steps of ended ones that it takes away (R106, R120). -/
def quenchCommands (s : State) (gone : List Nat) : State :=
  let s := if gone.contains 3 then s.cutCmds fun _ => true
    else s.cutCmds fun c => c.phase == .running && gone.contains (5 + c.pair)
  if gone.contains 10 || gone.contains Dom.flash then s.unpersistAll else s

/-- Recoveries and releases inside a domain end with its quench; STUCK domains stay so. -/
def replaceInside (s : State) (d : Nat) : State :=
  let inside (x : Nat) : Bool := x != d && (lineage x).contains d
  let ended := (s.fnc.doms.filter fun x => inside x.1 && x.2.state == .recovering).map (·.1)
  let s := s.setFnc { s.fnc with doms := s.fnc.doms.map fun (x, r) =>
    (x, if inside x && r.state != .stuck then { r with state := .running, own := false, byCommand := false, runner := none, waits := false } else r) }
  (ended.flatMap s.releaseCmds).foldl (fun s i => s.failCmd i 0x0B07) s

/-- Count a quench, or a report that is absorbed into one (R528). -/
def countQuench (s : State) (d src : Nat) : State :=
  let s := s.fmodDom d fun x => { x with quenches := (x.quenches + 1) % 2 ^ 32 }
  let s := (s.rset Reg.fncLast (BitVec.ofNat 32 (d % 2 ^ 16 + 2 ^ 16 * (src % 256)))).bump Reg.fncQuenchCnt
  s.fenceEvent 0xD001 d (d % 2 ^ 16 + 2 ^ 16 * (src % 256))

/-- What the SPC_ window shows of a pipeline stands still from its quench on (R592). -/
def spcFreeze (s : State) (p : Nat) : State :=
  s.setFr { s.fr with spcHeld := aset s.fr.spcHeld p (s.exhausted p, (s.recordsUsed p).length) }

/-- A domain is quenched (R524, R527). One that is STUCK or waits for `FENCE_RELEASE` stays so. -/
def quench (s : State) (d src : Nat) : State :=
  let s := if d = 0 then s.yieldSend else s
  let s := if s.fnc.capture.any (·.stopOnQuench) then s.captureStop else s
  let gone := (fenceScope d).filter fun x => !s.quenched x
  let s := ((List.range 2).filter fun p => gone.contains (pipeDom p)).foldl spcFreeze s
  let s := ((effectOrder ++ [d]).dedup.filter gone.contains).foldl quenchEffect s
  let recent := (((s.fdom d).recent.filter fun (t : Nat) => (s.clk ≤ t + 60 * 10 ^ 9 : Bool)) ++ [s.clk])
  let was := (s.fdom d).state == .stuck
  let stuck := !was && decide (8 ≤ recent.length)
  let s := s.fmodDom d fun x => { x with
    state := if was || stuck then .stuck else .quenched, own := true, source := src, time := s.clk, recent := recent,
    byCommand := false, runner := none, waits := x.state == .quenched && x.waits, budgetAt := s.clk }
  let s := (s.replaceInside d).countQuench d src
  let s := if stuck then s.fenceEvent 0xD004 d d else s
  let s := (s.quenchCommands gone).rxPurge
  if d = 0 ∧ s.pair.role = .single then s.limpSelect 2 else s

/-- Escalate from a domain to its parent, and past one that is itself recovering or on probation
(R528). The device restarts (R529). -/
def escalate : Nat → Nat → State → State
  | 0, _, s => s
  | n + 1, d, s =>
    match parentOf d with
    | none => s.kindleFail
    | some p =>
      let busy := (s.fdom p).state == .recovering || (s.fdom p).state == .probation
      let s := (s.releaseCmds d).foldl (fun s i => s.failCmd i 0x0B07) s
      if busy then escalate n p s
      else ((s.quench p 12).bump Reg.fncEscalateCnt).fenceEvent 0xD003 d (d % 2 ^ 16 + 2 ^ 16 * p)

/-- Whether a domain is recovering or on probation. -/
def fenceBusy (s : State) (d : Nat) : Bool := (s.fdom d).state == .recovering || (s.fdom d).state == .probation

/-- One report, by the rows of R528; one in the monitor domain is one at device level (R31). -/
def fenceReport (s : State) (d src : Nat) : State :=
  let kids := (s.fnc.doms.map (·.1)).filter fun x => parentOf x == some d && s.fenceBusy x
  if d = 2 then (if s.fenceBusy 0 || (s.fdom 0).state.isolated then escalate 5 0 s else s.quench 0 src)
  else if (ancestors d).any fun a => (s.fdom a).state.isolated then s.countQuench d src
  else if s.fenceBusy d || (d == 0 && (s.fdom 0).state.isolated) then escalate 5 d s
  else if !kids.isEmpty then escalate 5 d s
  else
    let runs := (s.fnc.doms.filter fun x => x.2.state == .recovering && x.2.runner.any (5 + · == d)).map (·.1)
    let s := s.quench d src
    runs.foldl (fun s x => if (s.fdom x).state = .recovering then escalate 5 x s else s) s

/-- An uncorrectable error in the buffer memory: the frame that the bad cell, descriptor or queue
entry held, where there was one, is lost by cause 2 of R170. Which frame that is depends on the place
of the error, a free value (log entry 1). -/
def cellError (s : State) : State :=
  let (v, s) := s.free
  match s.fr.frames[v % (s.fr.frames.length + 1)]? with
  | none => s
  | some f => (s.cal.deadlines.filter (·.fid == f.fid)).foldl (fun s d => s.lose f.fid d.egress 2) s

/-- `FAULT_REPORT`: a report, one that a unit of the device has made included. -/
def doFaultReport (s : State) (d src : Nat) : State :=
  let s := s.setFnc { s.fnc with reports := s.fnc.reports.erase (d, src) }
  if !domainExists d || !s.forgeUp then s
  else (if d = Dom.buffer ∧ src = 2 ∧ !s.quenched Dom.buffer then s.cellError else s).fenceReport d src

/-! ### Recovery and release (R525 to R527) -/

/-- The core pair that may run the recovery of a domain. -/
def runnerFor (s : State) (d : Nat) : Option Nat := (List.range 4).find? fun n => !s.quenched (5 + n) && 5 + n != d

/-- A recovery begins. -/
def recoveryBegin (s : State) (d : Nat) (cmd : Bool) (budgetAt : Nat) : State :=
  s.fmodDom d fun x => { x with
    state := .recovering, byCommand := cmd, waits := false, budgetAt := budgetAt
    runner := if d = 0 ∨ d = 3 then none else s.runnerFor d }

/-- Whether the bit of a domain in `FNC_MANUAL` is set. -/
def fenceManual (s : State) (d : Nat) : Bool := 1 ≤ d && d ≤ 24 && s.rfld Reg.fncManual d 1 == 1

/-- `RECOVERY_START`: the automatic recovery of a quenched domain (R526). One that had to wait
for a core pair does not pay for the wait. -/
def doRecoveryStart (s : State) (d : Nat) : State :=
  let x := s.fdom d
  if x.state ≠ .quenched ∨ x.waits ∨ !s.forgeUp ∨ s.rfld Reg.fncCtrl 0 1 = 0 ∨ s.fenceManual d ∨
      (ancestors d).any (fun a => (s.fdom a).state.isolated) ∨ (d = 0 ∧ s.pair.role ≠ .single) then s
  else if d = 0 ∨ d = 3 ∨ (s.runnerFor d).isSome then s.recoveryBegin d false (max x.time (s.clk - 10000))
  else if s.quenched Dom.control then s
  else if s.fenceBusy Dom.control then escalate 5 Dom.control s
  else (((s.quench Dom.control 12).bump Reg.fncEscalateCnt).fenceEvent 0xD003 d (d % 2 ^ 16 + 2 ^ 16 * Dom.control))

/-- Dynamic entries are removed. -/
def dynamicsOff (s : State) : State :=
  (s.setFwd { s.fwd with em := s.fwd.em.filter (·.range.isSome), moving := s.fwd.moving.filter (·.range.isSome) }).emFreed

/-- A CAN or LIN channel is reset and reconfigured; it integrates to its bus. -/
def busRecover (s : State) (ch : Nat) : State :=
  if ch < 64 then
    if (aget s.edg.can ch).isNone then s
    else (s.canMod ch fun c => { c with
      state := .stopped, recovering := false, latched := false, offsInRow := 0, pex := false, tec := 0, rec_ := 0, lec := 0,
      tdcFd := 0, tdcXl := 0, rx := [], bufs := [], held := [], fifo := [] }).canRuns ch
  else if (aget s.edg.lin (ch - 64)).isNone then s
  else (s.linApply (ch - 64) (s.linCh (ch - 64)).cfg)

/-- A template restarts from DEFAULT. -/
def tplReset (t : Template) : Template :=
  { t with work := t.default_, last := none, heldFrame := none, heldTaken := false, seq := 0 }

/-- An E2E context as under RESET_STATE (R380). -/
def e2eReset (x : E2eCtx) : E2eCtx := { x with counter := 0, fresh := true, lastResult := 0xF }

/-- A tunnel channel as it was enabled. -/
def tunReset (t : TunCh) : TunCh := { tunQuench t with started := false, seq := 0 }

/-- What the recovery of the host domain does at its release. -/
def hostRecover (s : State) : State :=
  let words := s.hif.discarded
  let s := s.hostQueuesOff.evqDisable 1
  let s := s.setHif { s.hif with discarded := [] }
  words.foldl (fun s x => s.pwfNow x.1 0 0xFFFFFFFF (BitVec.ofNat 32 x.2) 2) s

/-- What the recovery of a domain has done by its release. -/
def recoverEffect (s : State) (d : Nat) : State :=
  match d with
  | 1 => s.pwrMod fun p => { p with dieLinkFailed := false }
  | 9 => s.hostRecover
  | 10 =>
    let s := s.setMbx { s.mbx with dram := [], bodies := [], flashFault := false }
    let s := (s.pairMod fun p => { p with partnerRing := [] }).setFnc { s.fnc with captureBuf := [] }
    (s.rebuildJournal true).handlesRecover
  | 13 => if s.quenched Dom.pipe1 then s.dynamicsOff else s
  | 14 => if s.quenched Dom.pipe0 then s.dynamicsOff else s
  | 15 => s.setBuf { s.buf with suspectCells := [], suspectRefs := [], slag := [], spilling := false }
  | 16 => s.calResume
  | 17 =>
    let s := (List.range 96).foldl busRecover s
    let s := s.setEdg { s.edg with t1s := s.edg.t1s.map fun (m, t) => (m, { t with plcaOk := false }) }
    s.t1sSync
  | 18 =>
    let s := s.setTun { s.tun with ch := s.tun.ch.map fun (n, t) => (n, tunReset t) }
    let s := s.setSig { s.sig with tpls := s.sig.tpls.map fun (n, t) => (n, tplReset t) }
    { s with e2e := s.e2e.map fun (n, x) => (n, e2eReset x) }
  | 0x6000 => s.setMbx { s.mbx with flashFault := false }
  | _ =>
    match d / 0x1000 with
    | 1 => if d = portUnit 64 then s.linkStart else if s.portDown (d % 0x1000) then s else s.portResume (d % 0x1000)
    | 2 => s.busRecover (d % 0x1000)
    | 3 => s.tunMod (d % 0x1000) tunReset
    | 4 => s.e2eMod (d % 0x1000) e2eReset
    | _ => s

/-- Fabric ports whose link is up resume, after a quench that did not take the link. -/
def portsBack (s : State) (ps : List Nat) : State :=
  ps.foldl (fun s p => if s.portDown p then s else s.portResume p) s

/-- A domain is released on probation (R526, R527). -/
def release (s : State) (d : Nat) : State :=
  let cmd := (s.fdom d).byCommand
  let scope := (fenceScope d).filter s.quenched
  let cmds := s.releaseCmds d
  let s := s.fmodDom d fun x => { x with
    state := .probation, probEnd := s.clk + fenceBudget d, byCommand := false, runner := none, waits := false }
  let back := scope.filter fun x => !s.quenched x
  let s := if back.contains Dom.pipe0 ∧ back.contains Dom.pipe1 then s.dynamicsOff else s
  let s := back.foldl recoverEffect s
  let s := if back.contains Dom.edge then s.portsBack ((List.range 16).map (· + 48)) else s
  let s := s.fenceEvent 0xD002 d (d % 2 ^ 16 + 2 ^ 16 * b2n cmd)
  (cmds.foldl (fun s i => s.finishCmd i St.ok d []) s).postAll

/-- `RECOVERY_DONE`: a recovery ends, well or not. One that fails leaves the domain to
`FENCE_RELEASE`. -/
def doRecoveryDone (s : State) (d : Nat) (ok : Bool) : State :=
  if (s.fdom d).state ≠ .recovering then s
  else if ok then s.release d
  else s.fmodDom d fun x => { x with state := .quenched, waits := true, byCommand := false, runner := none }

/-- `RECOVERY_BUDGET_EXPIRY` -/
def doRecoveryBudgetExpiry (s : State) (d : Nat) : State :=
  if (s.fdom d).state ≠ .recovering then s else escalate 5 d (s.waitUntil ((s.fdom d).budgetAt + fenceBudget d))

/-- `PROBATION_END` -/
def doProbationEnd (s : State) (d : Nat) : State :=
  if (s.fdom d).state ≠ .probation then s
  else (s.waitUntil (s.fdom d).probEnd).fmodDom d fun x => { x with state := .running, own := false }

/-! ### Commands (R530 to R533) -/

/-- The state of a domain, its ancestors' quench included (R530). -/
def fenceCode (s : State) (d : Nat) : Nat :=
  match (s.fdom d).state with
  | .stuck => 4
  | .recovering => 2
  | .quenched => 1
  | .probation => if s.quenched d then 1 else 3
  | .running => if s.quenched d then 1 else 0

/-- The domains and units that are quenched, their ancestors' quench included. -/
def allQuenched (s : State) : List Nat :=
  if s.fnc.doms.all fun x => !x.2.state.isolated then [] else allDomains.filter s.quenched

/-- The level-3 units that are quenched. -/
def unitsQuenched (s : State) : List Nat := s.allQuenched.filter (24 < ·)

/-- The record of a domain. -/
def fenceRecord (s : State) (d : Nat) : List Byte :=
  let x := s.fdom d
  leBytes 2 d ++ leBytes 1 (s.fenceCode d) ++ leBytes 1 x.source ++ leBytes 4 x.quenches ++ leBytes 8 x.time

/-- `FENCE_STATUS` -/
def fenceStatus (c : Cmd) (s : State) : Exec :=
  let d := c.u 0 2
  if d = 0xFFFF then
    let l := s.allQuenched
    .done s St.ok (min 14 l.length + 256 * min 255 l.length) ((l.take 14).flatMap s.fenceRecord)
  else
    Exec.check (domainExists d) s 0x0B01 <|
    .done s St.ok (1 + 256) (s.fenceRecord d)

/-- `FENCE_RELEASE` -/
def fenceRelease (c : Cmd) (s : State) : Exec :=
  let d := c.u 0 2
  let x := s.fdom d
  Exec.check (c.u 2 2 == 0xFFFF - d) s 0x0B04 <|
  Exec.check (domainExists d) s 0x0B01 <|
  Exec.check (s.quenched d) s 0x0B02 <|
  Exec.check (!(ancestors d).any s.quenched) s 0x0B07 <|
  Exec.check (x.state != .recovering || x.byCommand) s 0x0B03 <|
  Exec.check (x.state != .stuck || bit (c.u 4 1) 0) s 0x0B05 <|
  if d = 0 ∧ s.pair.role ≠ .single then .run s.kindleFail s.clk
  else if x.state = .recovering then .run s s.clk
  else
    let stuck := x.state == .stuck
    let s := s.fmodDom d fun x => { x with
      before := some (stuck, x.waits, x.recent), recent := if stuck then [] else x.recent }
    .run (s.recoveryBegin d true s.clk) s.clk

/-- `CAPTURE_START` -/
def captureStart (c : Cmd) (s : State) : Exec :=
  let size := c.u 8 4
  Exec.datapath s <|
  Exec.need s (if c.host = 2 then [Dom.memory] else []) <|
  Exec.check (c.u 0 1 ≤ 67 && c.u 1 1 ≤ 1 && 4096 ≤ size && size ≤ 16777216 && (c.host == 2 || c.u 16 8 % 4096 == 0)) s St.badParam <|
  Exec.check s.fnc.capture.isNone s 0x0B06 <|
  let s := s.setFnc { s.fnc with
    captureBuf := if c.host = 2 then [] else s.fnc.captureBuf
    capture := some { src := c.u 0 1, egress := c.u 1 1 == 1, stopOnQuench := bit (c.u 2 1) 0, left := c.u 4 4, size := size,
                      written := 0, dest := c.u 16 8, host := c.host } }
  .done (if c.u 4 4 = 0 then s.captureStop else s) St.ok 0 []

/-- `CORRECTABLE_ECC` (R522) -/
def doCorrectableEcc (s : State) : State := if s.forgeUp then s.bump Reg.fncCeCnt else s

/-- `VOTE_DISAGREEMENT` (R521): the copy is corrected, so that the register keeps its value. -/
def doVoteDisagreement (s : State) (off : Nat) : State :=
  if s.forgeUp && off / 0x8000 == 13 then s.bump Reg.fncVoteCnt else s

end State

/-- `FAULT_REPORT` -/
def execFaultReport (domain source : Nat) (s : State) : Host.Outcome State Fault Refusal := .next (s.doFaultReport domain source).restartIfDue

/-- `RECOVERY_START` -/
def execRecoveryStart (domain : Nat) (s : State) : Host.Outcome State Fault Refusal := .next (s.doRecoveryStart domain)

/-- `RECOVERY_DONE` -/
def execRecoveryDone (domain : Nat) (ok : Bool) (s : State) : Host.Outcome State Fault Refusal := .next (s.doRecoveryDone domain ok).restartIfDue

/-- `RECOVERY_BUDGET_EXPIRY` -/
def execRecoveryBudgetExpiry (domain : Nat) (s : State) : Host.Outcome State Fault Refusal :=
  .next (s.doRecoveryBudgetExpiry domain).restartIfDue

/-- `PROBATION_END` -/
def execProbationEnd (domain : Nat) (s : State) : Host.Outcome State Fault Refusal := .next (s.doProbationEnd domain)

/-- `CORRECTABLE_ECC` -/
def execCorrectableEcc (s : State) : Host.Outcome State Fault Refusal := .next s.doCorrectableEcc

/-- `VOTE_DISAGREEMENT` -/
def execVoteDisagreement (off : Nat) (s : State) : Host.Outcome State Fault Refusal := .next (s.doVoteDisagreement off)

/-- `FENCE_STATUS` -/
def execFenceStatus (host queue : Nat) (s : State) : Host.Outcome State Fault Refusal :=
  .next (s.runCmd host queue 0x0B00 State.fenceStatus)

/-- `FENCE_RELEASE` -/
def execFenceRelease (host queue : Nat) (s : State) : Host.Outcome State Fault Refusal :=
  .next (s.runCmd host queue 0x0B01 State.fenceRelease)

/-- `CAPTURE_START` -/
def execCaptureStart (host queue : Nat) (s : State) : Host.Outcome State Fault Refusal :=
  .next (s.runCmd host queue 0x0B02 State.captureStart)

end Sys2Proof.Machine
end

