-- ==== Sys2Proof/Machine/Mailbox.lean ====
section
/-! DEFINITION.
Rows of the mailbox: doorbells and slots (R84 to R96), the journal's record in flash and at the
partner (R104, R105, R116 to R120), held completions (R109), and the device and journal commands
(R121 to R125). -/

namespace Sys2Proof.Machine

namespace State

/-! ### Slots -/

/-- The slot that a queue's next command stands in. -/
def nextSlot (s : State) (host q : Nat) : Nat × List Byte :=
  let p := (s.rget (sqReg (Reg.mbxSqAccept 0) host q)).toNat
  (p, s.mread (slotAddr host q p) 256)

/-- Doorbells of a host that have been taken up to are forgotten, so that the front one names
the queue whose slot comes next (R96). -/
def bellsDone (s : State) (host : Nat) : State :=
  let reached (b : Nat × Nat) : Bool :=
    let q := b.1 % 16
    let left := (b.2 + 2 ^ 32 - (s.rget (sqReg (Reg.mbxSqAccept 0) host q)).toNat) % 2 ^ 32
    b.1 / 16 == host && (left == 0 || decide (sqDepth host < left))
  let mine (b : Nat × Nat) : Bool := b.1 / 16 == host
  let rest := (s.mbx.bells.filter mine).dropWhile reached
  s.setMbx { s.mbx with bells := s.mbx.bells.filter (fun b => !mine b) ++ rest }

/-- Take the next slot of a queue of the main or of the safety host. -/
def takeHost (s : State) (host q : Nat) : State :=
  let s := s.bellsDone host
  let key := 16 * host + q
  let (p, slot) := s.nextSlot host q
  let room := (p + 2 ^ 32 - (s.rget (sqReg (Reg.mbxCqCons 0) host q)).toNat) % 2 ^ 32
  let front := s.mbx.bells.find? fun b => b.1 / 16 == host
  if !s.queueEn host q || s.mbx.faults.contains key || (host == 0 && !s.canDma) || !front.any (·.1 == key) ||
      !decide (room < sqDepth host) || !s.commandsRun (leNat (slot.take 2)) then s
  else
    let a := slotAddr host q p
    let written (i : Nat) : Bool := s.mbx.written.contains (a + 4 * i)
    let t := s.rset (sqReg (Reg.mbxSqAccept 0) host q) (BitVec.ofNat 32 (p + 1))
    let t := t.setMbx { t.mbx with written := t.mbx.written.filter fun (w : Nat) => !(decide (a ≤ w) && decide (w < a + 256)) }
    t.takeSlot host q (p % sqDepth host) slot written

/-- Take the next command that the service session has carried in. -/
def takeService (s : State) : State :=
  match s.mbx.svc with
  | [] => s
  | b :: r =>
    if s.mbx.faults.contains 32 || !decide (s.mbx.svcAccept - s.mbx.svcPosted < 32) || !s.commandsRun (leNat (b.take 2)) then s
    else
      let p := s.mbx.svcAccept
      let t := s.setMbx { s.mbx with svc := r, svcAccept := p + 1 }
      t.takeSlot 2 0 (p % 32) b fun i => decide (4 * i < b.length)

/-- `SLOT_TAKE` -/
def doSlotTake (s : State) (host q : Nat) : State :=
  if !s.pwr.fwReady then s
  else if host = 2 then s.takeService
  else if (host = 0 ∧ q < 8) ∨ (host = 1 ∧ q < 2) then s.takeHost host q
  else s

/-! ### The flash record (R104, R116 to R120) -/

/-- The record of a command goes into a sector at its next position; a program that failed uses
the position up. A sector's header is written with its first record (R117). -/
def recordInto (s : State) (x : FlashSector) (r : Option (JEntry × List Byte)) : State × FlashSector :=
  let x' := { x with records := x.records ++ r.toList, used := x.used + 1 }
  match r with
  | none => (s, x')
  | some (e, b) =>
    let s := s.emit (.flash (x.recordAt x.used) (recordBytes e b))
    (if x.records.isEmpty then s.emit (.flash x.headerAt x.header) else s, x')

/-- Use the next record position; a record that is programmed there stays. -/
def recordPut (s : State) (index : Nat) (r : Option (JEntry × List Byte)) : State :=
  let m := s.mbx
  match m.sectors.getLast?.filter fun x => decide (x.used < 170) with
  | some x =>
    let (s, x) := s.recordInto x r
    s.setMbx { m with sectors := m.sectors.dropLast ++ [x] }
  | none =>
    match m.erased with
    | [] => s
    | (place, e) :: rest =>
      let seq := (m.sectors.getLast?.map fun x => (x.seq + 1) % 2 ^ 32).getD 0
      let (s, x) := s.recordInto { place := place, seq := seq, firstIndex := index, eraseCount := e, records := [], used := 0 } r
      s.setMbx { m with erased := rest, sectors := m.sectors ++ [x] }

/-- The record of a command stands in flash: its journal entry says so, and its completion may
go on. -/
def recordDone (s : State) (c : Cmd) : State :=
  let i := c.index
  let s := s.cmdMod i fun c => { c with waitFlash := false, persisted := true }
  let s := s.setMbx { s.mbx with dram := s.mbx.dram.map fun e => if e.index = i then { e with persisted := true } else e }
  if (s.rget Reg.mbxJournalPersist).toNat ≤ i then s.rset Reg.mbxJournalPersist (BitVec.ofNat 32 (i + 1)) else s

/-- Three record programs in a row have failed (R120). -/
def recordFault (s : State) (i : Nat) : State :=
  let s := (s.setMbx { s.mbx with flashFault := true }).raise 0x2002 i
  (s.report Dom.flash 10).unpersistAll

/-- A command finds no erased record position and waits for an erase (R119). -/
def stallCmd (s : State) (c : Cmd) : State :=
  if c.stalled then s
  else ((s.cmdMod c.index fun c => { c with stalled := true }).bump Reg.mbxStallCnt).raise 0x2003 c.index

/-- `JOURNAL_PERSIST`: the record of an ended class C command is programmed, after some failed
programs at the positions before. -/
def doJournalPersist (s : State) (index failures : Nat) : State :=
  match (s.cmdOf index).filter (·.waitFlash) with
  | none => s
  | some c =>
    if !s.flashOk || s.quenched Dom.control then s
    else if s.recordsFree < min 3 (failures + 1) then s.stallCmd c
    else
      let s := (List.range (min 3 failures)).foldl (fun s _ => s.recordPut index none) s
      let s := if 3 ≤ failures then s.recordFault index
        else ((s.recordPut index (some ({ c with persisted := true }.entry, c.body))).recordDone c).postAll
      s.restartIfDue

/-- Sectors of the journal region (R116, R538). -/
def journalSectors : Nat := max 16 (Config.flashMib.toNat * 16 - 640)

/-- `FLASH_SECTOR_ERASE_DONE`: one more erased sector stands ahead of the write position: a
sector that was never used, the lowest-numbered first (log entry 18), or the one with the lowest
SECTOR_SEQ (R117). -/
def doFlashSectorEraseDone (s : State) : State :=
  let m := s.mbx
  let n := m.sectors.length + m.erased.length
  if 4 ≤ m.erased.length || s.quenched Dom.flash then s
  else if n < journalSectors then s.setMbx { m with erased := m.erased ++ [(n, 1)] }
  else match m.sectors with
  | [] => s
  | x :: r => s.setMbx { m with sectors := r, erased := m.erased ++ [(x.place, (x.eraseCount + 1) % 2 ^ 32)] }

/-! ### The partner's acknowledgement (R105, R502) -/

/-- `MIRROR_ACK` -/
def doMirrorAck (s : State) (index : Nat) : State :=
  if s.pair.role = .single ∨ s.pair.linkState < 2 ∨ s.quenched (portUnit 64) then s
  else
    let s := if (s.rget Reg.pairMirrorAcked).toNat ≤ index then s.rset Reg.pairMirrorAcked (BitVec.ofNat 32 (index + 1)) else s
    ((s.cmdMod index fun c => { c with waitMirror := false }).postAll).restartIfDue

/-- `MIRROR_ACK_TIMEOUT` -/
def doMirrorAckTimeout (s : State) (index : Nat) : State :=
  match (s.cmdOf index).filter (·.waitMirror) with
  | none => s
  | some c =>
    let s := s.waitUntil c.deadline
    let s := (s.cmdMod index fun c => { c with waitMirror := false, unmirrored := true }).raise 0x2005 index
    s.postAll.restartIfDue

/-- `COMPLETION_RELEASE`: held completions of a queue are written (R109). -/
def doCompletionRelease (s : State) (host q : Nat) : State :=
  (postLoop (fun c => c.host == host && c.queue == q) s.mbx.cmds.length s).restartIfDue

/-! ### Device and journal commands (R121 to R125) -/

/-- The shallowest level with a quenched domain or unit; 0xFF without one. -/
def fenceLevel (s : State) : Nat :=
  ((s.fnc.doms.filter fun x => x.2.state.isolated).map fun x => levelOf x.1).foldl min 0xFF

/-- `DEV_INFO` -/
def devInfo (_c : Cmd) (s : State) : Exec :=
  .done s St.ok 0 (leBytes 2 Config.stepping.toNat ++ leBytes 1 s.boot.slot ++ leBytes 1 (lcCode s.key.inForce) ++
    leBytes 4 Config.forgeId.toNat ++ leBytes 4 Config.emberId.toNat ++ leBytes 4 s.fwVersion ++
    leBytes 4 s.boot.rollback ++ leBytes 4 0)

/-- `DEV_STATE_GET` -/
def devStateGet (_c : Cmd) (s : State) : Exec :=
  .done s St.ok 0 (leBytes 1 (pwrCode s.pwr.state) ++ leBytes 1 (roleCode s.pair.role) ++ leBytes 1 s.fenceLevel ++ leBytes 1 0 ++
    leBytes 4 (s.rget Reg.mbxCfgEpoch).toNat ++ leBytes 4 (s.rget Reg.mbxJournalHead).toNat ++
    leBytes 2 (s.rget Reg.fwdEpoch).toNat ++ leBytes 2 0 ++ leBytes 8 s.clk)

/-- The first retained entry of a host's session with a sequence number above `n`. -/
def firstAfter (s : State) (host session n : Nat) : Option JEntry :=
  (s.retained.filter fun e => e.host == host && e.session == session && decide (n < e.seq)).foldl
    (fun (a : Option JEntry) e => match a with
      | none => some e
      | some x => if e.seq < x.seq then some e else some x) none

/-- `HOST_RESYNC`. FIRST_AFTER is looked for in the session before a restart, and SESSION and the
event give the one after it (log entry 58); the restart itself is on completion (R101). -/
def hostResyncCmd (c : Cmd) (s : State) : Exec :=
  let cur := (s.rget (Reg.mbxHostSession c.host)).toNat
  let first := ((s.firstAfter c.host cur (c.u 0 4)).map (·.index)).getD 0xFFFFFFFF
  let restart := isRestart c.opcode c.body
  let session := if restart then (cur + 1) % 2 ^ 16 else cur
  let s := if restart && c.host == 0 then s.setFwd { s.fwd with txn := none, staged := [] } else s
  .done (s.raise 0x2004 (c.host + 2 ^ 16 * session)) St.ok 0
    (leBytes 4 c.hBefore ++ leBytes 4 first ++ leBytes 2 session ++ leBytes 6 0)

/-- An entry that counts as completed: its completion has been posted (R113). -/
def completedEntry (s : State) (i : Nat) : Option JEntry := if (s.cmdOf i).isSome then none else s.entryOf i

/-- The body of an entry, where the body store or flash still holds it. -/
def bodyOf (s : State) (e : JEntry) : Option (List Byte) :=
  let fits (b : List Byte) : Bool := b.length == e.bodyLen && (Crypto.crc32c b).toNat == e.bodyCrc
  let store := if s.dramJournalOk then (aget s.mbx.bodies (e.index % 65536)).filter fits else none
  let flash := if s.quenched Dom.memory || s.quenched Dom.flash then none
    else (((s.mbx.sectors.flatMap (·.records)).find? fun r => r.1.index == e.index).map (·.2)).filter fits
  if !e.classC then none else store.or flash

/-- Completed entries from an index on, up to the first that is missing. -/
def entryRun (s : State) (i : Nat) : Nat → List JEntry
  | 0 => []
  | n + 1 => match s.completedEntry (i % 2 ^ 32) with
    | none => []
    | some e => e :: s.entryRun (i + 1) n

/-- `JOURNAL_READ`; log entry 18 for mode 1 without an entry to begin with, and for DMA that cannot
be done now. -/
def journalRead (c : Cmd) (s : State) : Exec :=
  let mode := c.u 0 1
  let body := bit (c.u 1 1) 0
  let dma := bit (c.u 1 1) 1
  let n := c.u 8 2
  let who := c.u 2 1
  let start := if mode = 0 then some (c.u 4 4)
    else (s.firstAfter who (s.rget (Reg.mbxHostSession who)).toNat (c.u 4 4)).map (·.index)
  Exec.check (mode ≤ 1 && (mode == 0 || who ≤ 2) && 1 ≤ n && n ≤ (if dma then 4096 else 1) &&
    (!dma || (!body && c.host == 0 && c.u 16 8 % 128 == 0))) s St.badParam <|
  match start with
  | none => Exec.fail s 0x0101
  | some i =>
    Exec.check ((i + 2 ^ 32 - (s.rget Reg.mbxJournalHead).toNat) % 2 ^ 32 ≥ 2 ^ 31) s St.badParam <|
    Exec.check (s.cmdOf i).isNone s 0x0102 <|
    match s.entryRun i n with
    | [] => Exec.fail s 0x0101
    | e :: r =>
      let res := i + 2 ^ 32 * (r.length + 1)
      if dma then
        (if s.canDma then .done (s.hostOut (c.u 16 8) ((e :: r).flatMap JEntry.bytes)) St.ok res [] else .wait)
      else if !body then .done s St.ok res e.bytes
      else match s.bodyOf e with
      | none => Exec.fail s 0x0103
      | some b => .done s St.ok res b

/-- `JOURNAL_MARK` -/
def journalMark (c : Cmd) (s : State) : Exec := .done s St.ok c.index []

end State

/-- `MBX_DOORBELL` -/
def execMbxDoorbell (host tag q : Nat) (v : Word) (s : State) : Host.Outcome State Fault Refusal :=
  .next (s.postReg host tag (State.sqReg (Reg.mbxSqProd 0) host q) v)

/-- `MBX_CQ_CONS_WRITE` -/
def execMbxCqConsWrite (host tag q : Nat) (v : Word) (s : State) : Host.Outcome State Fault Refusal :=
  .next (s.postReg host tag (State.sqReg (Reg.mbxCqCons 0) host q) v)

/-- `MBX_QUEUE_ENABLE` -/
def execMbxQueueEnable (host tag q : Nat) (irqEn : Bool) (s : State) : Host.Outcome State Fault Refusal :=
  .next (s.postReg host tag (State.sqReg (Reg.mbxQCtrl 0) host q) (BitVec.ofNat 32 (1 + 2 * b2n irqEn)))

/-- `MBX_QUEUE_DISABLE` -/
def execMbxQueueDisable (host tag q : Nat) (irqEn : Bool) (s : State) : Host.Outcome State Fault Refusal :=
  .next (s.postReg host tag (State.sqReg (Reg.mbxQCtrl 0) host q) (BitVec.ofNat 32 (2 * b2n irqEn)))

/-- `SLOT_TAKE` -/
def execSlotTake (host queue : Nat) (s : State) : Host.Outcome State Fault Refusal := .next (s.doSlotTake host queue)

/-- `JOURNAL_PERSIST` -/
def execJournalPersist (index failures : Nat) (s : State) : Host.Outcome State Fault Refusal :=
  .next (s.doJournalPersist index failures)

/-- `FLASH_SECTOR_ERASE_DONE` -/
def execFlashSectorEraseDone (s : State) : Host.Outcome State Fault Refusal := .next s.doFlashSectorEraseDone

/-- `MIRROR_ACK` -/
def execMirrorAck (index : Nat) (s : State) : Host.Outcome State Fault Refusal := .next (s.doMirrorAck index)

/-- `MIRROR_ACK_TIMEOUT` -/
def execMirrorAckTimeout (index : Nat) (s : State) : Host.Outcome State Fault Refusal := .next (s.doMirrorAckTimeout index)

/-- `COMPLETION_RELEASE` -/
def execCompletionRelease (host queue : Nat) (s : State) : Host.Outcome State Fault Refusal :=
  .next (s.doCompletionRelease host queue)

/-- `DEV_INFO` -/
def execDevInfo (host queue : Nat) (s : State) : Host.Outcome State Fault Refusal :=
  .next (s.runCmd host queue 0x0100 State.devInfo)

/-- `DEV_STATE_GET` -/
def execDevStateGet (host queue : Nat) (s : State) : Host.Outcome State Fault Refusal :=
  .next (s.runCmd host queue 0x0101 State.devStateGet)

/-- `HOST_RESYNC` -/
def execHostResync (host queue : Nat) (s : State) : Host.Outcome State Fault Refusal :=
  .next (s.runCmd host queue 0x0102 State.hostResyncCmd)

/-- `JOURNAL_READ` -/
def execJournalRead (host queue : Nat) (s : State) : Host.Outcome State Fault Refusal :=
  .next (s.runCmd host queue 0x0103 State.journalRead)

/-- `JOURNAL_MARK` -/
def execJournalMark (host queue : Nat) (s : State) : Host.Outcome State Fault Refusal :=
  .next (s.runCmd host queue 0x0104 State.journalMark)

end Sys2Proof.Machine
end

