-- ==== Sys2Proof/Machine/Boot.lean ====
section
/-! DEFINITION.
Confirmation of a trial (R547), the service session on S0 (R551 to R555) and the update commands
(R556 to R560). -/

namespace Sys2Proof.Machine

/-- ASCII labels of R552. -/
def txtTool : List Byte := [0x74, 0x6F, 0x6F, 0x6C]
def txtDev : List Byte := [0x64, 0x65, 0x76]
def txtMac : List Byte := [0x73, 0x76, 0x63, 0x2D, 0x6D, 0x61, 0x63]
def txtEnc : List Byte := [0x73, 0x76, 0x63, 0x2D, 0x65, 0x6E, 0x63]

/-- Place bytes at an offset among bytes of which some are present. -/
def placeBytes (l : List (Option Byte)) (off : Nat) (b : List Byte) : List (Option Byte) :=
  l.take off ++ (b.take (l.length - off)).map some ++ l.drop (off + b.length)

/-- The first `n` bytes that some DATA frames carry, when every one is present. -/
def gather (data : List (Nat × List Byte)) (n : Nat) : Option (List Byte) :=
  (data.foldl (fun l (x : Nat × List Byte) => placeBytes l x.1 x.2) (List.replicate n none)).mapM id

namespace State

/-! ### Confirmation (R547) -/

/-- A trial firmware is confirmed; some OTP steps and revoke bits may fail their read-back. -/
def confirm (s : State) (stepsFail revokeFail : Nat) : State :=
  let t := bits s.boot.desc.trial 1 1
  let img := s.flashImage 1 t
  let key := le img 7 1
  let revoke := setBits (le img 22 1 % 16) key 1 0
  let s := s.descWrite fun d => { d with active := setBits d.active 0 1 t, trial := 0, trialLeft := 0 }
  let s := s.otpProgram (le img 14 2) (if key < 4 then revoke else le img 22 1 % 16) stepsFail revokeFail
  (s.setBoot { s.boot with mode := 0 }).raise 0xE002 (le img 16 4)

/-- Since when RUN goes on without a quench at level 0 or 1. -/
def runSince (s : State) : Nat :=
  (s.fnc.doms.filter fun x => decide (levelOf x.1 ≤ 1)).foldl (fun t x => max t x.2.time) s.pwr.runAt

/-- `AUTO_CONFIRM_TIMEOUT` -/
def doAutoConfirmTimeout (s : State) (stepsFail revokeFail : Nat) : State :=
  let down := s.fnc.doms.any fun x => decide (levelOf x.1 ≤ 1) && x.2.state.isolated
  if s.boot.mode ≠ 1 || !bit s.boot.desc.trial 2 || s.pwr.state != .run || down then s
  else (s.waitUntil (s.runSince + 10 ^ 9 * inRange (s.rfld Reg.bootCtrl 0 16) 10 65535)).confirm stepsFail revokeFail

/-! ### The service session (R551 to R555) -/

def sessMod (s : State) (f : Session → Session) : State := s.setBoot { s.boot with session := s.boot.session.map f }

/-- Whether the control cluster, or the boot ROM in recovery mode, serves S0. -/
def s0Up (s : State) : Bool := s.pwr.state == .run && s.pwr.fwReady && !s.quenched Dom.control

/-- The slot that SVC_KEY_SLOT names. -/
def svcSlot (s : State) : Option Nat :=
  let n := s.rfld Reg.bootCtrl 16 10
  if n < 1008 then some n else none

/-- LEVEL of a CHALLENGE. With no service key slot it is a free value (log entry 1). -/
def svcLevel (s : State) : Nat × State :=
  if s.key.inForce = .blank ∨ s.key.inForce = .provision then (0, s)
  else if s.boot.mode = 2 ∧ s.key.inForce ≠ .retired then (0xFF, s)
  else match s.svcSlot with
  | some n => ((s.keySlot n).level + 1, s)
  | none => (s.free.1 % 256, s.free.2)

/-- A nonce of 16 bytes. -/
def nonce16 (s : State) : List Byte × State :=
  let (a, s) := s.draw
  let (b, s) := s.draw
  (leBytes 8 a ++ leBytes 8 b, s)

/-- `SVC_HELLO` -/
def doSvcHello (s : State) (nonce : List Byte) : State :=
  let locked := s.boot.lockoutAt.any fun (t : Nat) => decide (s.clk < t)
  if !s.s0Up || locked || s.boot.session.any (·.open_) then s
  else
    let (nd, s) := s.nonce16
    let (level, s) := s.svcLevel
    let free := s.key.inForce == .blank || s.key.inForce == .provision
    let x : Session :=
      { id := s.boot.sessionNext, nonceT := fit 16 nonce, nonceD := nd, open_ := free, secured := false, rxSeq := 0, txSeq := 0,
        lastAt := s.clk, data := [] }
    let s := s.setBoot { s.boot with session := some x, sessionNext := x.id % (2 ^ 32 - 1) + 1 }
    let s := s.setMbx { s.mbx with svc := [], faults := s.mbx.faults.filter (· ≠ 32) }
    let body := nd ++ leBytes 4 Config.forgeId.toNat ++ leBytes 1 (lcCode s.key.inForce) ++ leBytes 1 level ++ leBytes 2 0
    let s := (s.svcSend 2 body).sessMod fun x => { x with txSeq := 0 }
    if s.key.inForce = .retired then s.sessionEnd else s

/-- The service key, when its slot is fit (R552). -/
def svcKey (s : State) : Option (Nat × List Byte) :=
  match s.svcSlot with
  | none => none
  | some n => ((s.keyFor n 0x2E 0x1A).filter fun k => k.length == 32 && s.levelBelow (some n) ≤ 8).map fun k => (n, k)

/-- A PROOF fails (R554). -/
def proofFail (s : State) : State :=
  let n := s.boot.authFails + 1
  let s := (s.bump Reg.bootSvcAuthFailCnt).sessionEnd
  let s := s.setBoot { s.boot with authFails := n, lockoutAt := if 3 ≤ n then some (s.clk + 60 * 10 ^ 9) else s.boot.lockoutAt }
  s.raise 0xE004 n

/-- The PROOF exchange is over; the device's PROOF goes out. -/
def proofDone (s : State) (secured : Bool) (body : List Byte) : State :=
  let s := s.setBoot { s.boot with authFails := 0 }
  (s.svcSend 3 body).sessMod fun x => { x with open_ := true, secured := secured, rxSeq := 0, txSeq := 0, lastAt := s.clk, data := [] }

/-- Derive the two session keys into their firmware slots (log entry 27). -/
def sessionKeys (s : State) (slot : Nat) (key ctx : List Byte) : State :=
  let level := s.levelBelow (some slot)
  let put (s : State) (n usage dest : Nat) (label : List Byte) : State := s.slotPut n
    { state := .loaded, key := kdf key label level usage dest ctx 256, bits := 256, usage := usage, dest := dest, level := level,
      parent := some slot, recipe := .derive label ctx }
  (put (put (s.bumpBy Reg.secCpReqCnt 4) 1009 0x0C 0x08 txtMac) 1010 0x02 0x10 txtEnc)

/-- Whether the hybrid signature of R553 holds. -/
def recoveryProof (s : State) (x : Session) (body : List Byte) : Bool :=
  match gather x.data (2080 + sigBytes) with
  | none => false
  | some b =>
    let k := le body 0 1
    let block := b.take 2080
    let sig := b.drop 2080
    let (ec, ml) := blockKeys block
    let msg := txtTool ++ x.nonceD ++ x.nonceT ++ leBytes 4 Config.forgeId.toNat
    s.keyUsable k && keyDigest k == Crypto.sha384 block && ecdsaOk ec msg sig && mldsaOk ml msg sig

/-- `SVC_PROOF` -/
def doSvcProof (s : State) (session : Nat) (body : List Byte) : State :=
  match s.boot.session.filter fun x => x.id == session && !x.open_ && s.s0Up with
  | none => s
  | some x =>
    if s.boot.mode = 2 then (if s.recoveryProof x body then s.proofDone false [] else s.proofFail)
    else match s.svcKey.filter fun _ => !s.quenched Dom.keyStore && !s.quenched Dom.security with
    | none => s.proofFail
    | some (slot, key) =>
      let id := leBytes 4 Config.forgeId.toNat
      if body ≠ Crypto.cmac key (txtTool ++ x.nonceD ++ x.nonceT ++ id) then s.proofFail
      else (s.sessionKeys slot key (x.nonceT ++ x.nonceD)).proofDone true
        (Crypto.cmac key (txtDev ++ x.nonceT ++ x.nonceD ++ id))

/-- Whether a frame of types 4 to 7 belongs to the session and carries the right SEQ and TAG. -/
def svcFrameOk (s : State) (x : Session) (type flags session seq : Nat) (body tag : List Byte) : Bool :=
  let h := leBytes 1 type ++ leBytes 1 flags ++ leBytes 2 body.length ++ leBytes 4 session ++ leBytes 4 seq ++ body
  let early := s.boot.mode == 2 && type == 6
  x.id == session && x.rxSeq == seq && (x.open_ || early) && body.length ≤ 1280 &&
    (!x.secured || match s.keyFor 1009 0x08 0x08 with
     | some k => tag == Crypto.cmac k h
     | none => false)

/-- A valid frame is taken in, any other one is discarded (R554). -/
def svcFrame (s : State) (type flags session seq : Nat) (body tag : List Byte) (f : Session → State → State) : State :=
  match s.boot.session.filter fun _ => s.s0Up with
  | none => s
  | some x =>
    if !s.svcFrameOk x type flags session seq body tag then s.bump Reg.bootSvcBadCnt
    else f x (s.sessMod fun x => { x with rxSeq := (x.rxSeq + 1) % 2 ^ 32, lastAt := s.clk })

/-- The plain body of a DATA frame; an encrypted one is a request of the cipher pool (R552). -/
def dataPlain (s : State) (x : Session) (seq : Nat) (encrypted : Bool) (body : List Byte) : Option (List Byte) :=
  if !encrypted then some body
  else if !x.secured || s.quenched Dom.security then none
  else (s.keyFor 1010 0x02 0x10).map fun k => Crypto.aesCtr k (beBytes 4 x.id ++ beBytes 4 seq ++ beBytes 4 0 ++ beBytes 4 1) body

/-- `SVC_DATA` -/
def doSvcData (s : State) (session seq : Nat) (encrypted : Bool) (body tag : List Byte) : State :=
  s.svcFrame 6 (b2n encrypted) session seq body tag fun x t =>
    match s.dataPlain x seq encrypted body with
    | none => s.bump Reg.bootSvcBadCnt
    | some b =>
      let t := if encrypted then t.bump Reg.secCpReqCnt else t
      if b.length < 4 then t else t.sessMod fun x => { x with data := x.data ++ [(le b 0 4, b.drop 4)] }

/-- `SVC_COMMAND` -/
def doSvcCommand (s : State) (session seq : Nat) (body tag : List Byte) : State :=
  s.svcFrame 4 0 session seq body tag fun _ t =>
    let waiting := t.mbx.svc.length + (t.mbx.svcAccept - t.mbx.svcPosted)
    if body.length < 32 || 256 < body.length || t.mbx.faults.contains 32 then t
    else if 32 ≤ waiting then (t.setMbx { t.mbx with faults := 32 :: t.mbx.faults, svc := [] }).raise 0x2001 2
    else t.setMbx { t.mbx with svc := t.mbx.svc ++ [body] }

/-- `SVC_CLOSE` -/
def doSvcClose (s : State) (session seq : Nat) (tag : List Byte) : State :=
  s.svcFrame 7 0 session seq [] tag fun _ t => t.sessionEnd

/-- `SVC_SESSION_TIMEOUT` -/
def doSvcSessionTimeout (s : State) : State :=
  match s.boot.session with
  | none => s
  | some x => (s.waitUntil (x.lastAt + 30 * 10 ^ 9)).sessionEnd

/-- `SVC_LOCKOUT_END` -/
def doSvcLockoutEnd (s : State) : State :=
  match s.boot.lockoutAt with
  | none => s
  | some t => let s := s.waitUntil t
              s.setBoot { s.boot with lockoutAt := none }

/-! ### Update commands (R556 to R560) -/

/-- The DATA frames since the last update command are used up by the next one. -/
def Exec.update (s : State) (f : State → Exec) : Exec :=
  f (s.sessMod fun x => { x with data := [] })

/-- `UPD_SESSION_OPEN` -/
def updSessionOpen (flashOk : Bool) (c : Cmd) (s : State) : Exec :=
  Exec.need s [Dom.memory, Dom.flash] <| Exec.update s fun s =>
  let kind := c.u 0 1
  let size := c.u 4 4
  Exec.check s.boot.update.isNone s 0x0C02 <|
  Exec.check (1 ≤ kind && kind ≤ 3) s 0x0C04 <|
  Exec.check (!(kind == 1 && bit s.boot.desc.trial 0)) s 0x0C03 <|
  Exec.check (size ≤ slotSize kind) s 0x0C04 <|
  Exec.check flashOk s 0x0C09 <|
  let slot := 1 - s.activeSlot kind
  let s := s.flashPut kind slot 0 []
  .done (s.setBoot { s.boot with update := some { kind := kind, size := size, slot := slot, chunks := [], verified := false } })
    St.ok slot []

/-- Chunks of an image. -/
def Update.count (u : Update) : Nat := ceilDiv u.size 0x10000

/-- `UPD_BLOCK`; `flashOk`: erase, program and read-back succeed. -/
def updBlock (flashOk : Bool) (c : Cmd) (s : State) : Exec :=
  let data := (s.boot.session.map (·.data)).getD []
  Exec.need s [Dom.memory, Dom.flash] <| Exec.update s fun s =>
  match s.boot.update with
  | none => Exec.fail s 0x0C01
  | some u =>
    let i := c.u 0 2
    let crc := c.u 4 4
    let n := u.chunks.length
    let same := i + 1 == n && (u.chunks.getLast?.any fun b => (Crypto.crc32c b).toNat == crc)
    Exec.check ((i == n && n < Update.count u) || i + 1 == n) s 0x0C05 <|
    if same then .done s St.ok i []
    else match gather data (min 0x10000 (u.size - 0x10000 * i)) with
    | none => Exec.fail s 0x0C06
    | some b =>
      Exec.check ((Crypto.crc32c b).toNat == crc) s 0x0C07 <|
      let write (s : State) (chunks : List (List Byte)) (b : List Byte) : State :=
        let s := s.flashPut u.kind u.slot i b
        s.setBoot { s.boot with update := some { u with chunks := chunks, verified := false } }
      if flashOk then .done (write s (u.chunks.take i ++ [b]) b) St.ok i []
      else Exec.fail (write s (u.chunks.take i) []) 0x0C09

/-- The status and the check code of `UPD_VERIFY`; 0 and 0 when the target passes. -/
def updCheck (s : State) (u : Update) : Nat × Nat :=
  let img := s.flashImage u.kind u.slot
  if u.kind = 3 then
    let b := img.take (le img 8 4)
    match loadChecks b (le b 8 4) with
    | some f => (calStatus 0x0201 f.check, f.check)
    | none => match admitChecks s (parseImage b) true with
      | some f => (calStatus 0x0210 f.check, f.check)
      | none => (0, 0)
  else
    let code := s.envCheck u.kind img
    (if code = 0 then 0 else 0x0C08, code)

/-- `UPD_VERIFY` -/
def updVerify (_c : Cmd) (s : State) : Exec :=
  Exec.need s [Dom.memory, Dom.flash] <| Exec.update s fun s =>
  match s.boot.update with
  | none => Exec.fail s 0x0C01
  | some u =>
    Exec.check (u.chunks.length == Update.count u) s 0x0C06 <|
    let (status, code) := s.updCheck u
    if status ≠ 0 then .done s status code []
    else .done (s.setBoot { s.boot with update := some { u with verified := true } }) St.ok 0 []

/-- A VERIFIED update takes effect at the next cold start. -/
def updArm (s : State) (u : Update) (auto : Bool) : State :=
  let s := s.descWrite fun d =>
    if u.kind = 1 then { d with trial := 1 + 2 * u.slot + 4 * b2n auto, trialLeft := 2 }
    else { d with active := setBits d.active (u.kind - 1) 1 u.slot }
  s.setBoot { s.boot with update := none }

/-- `UPD_ACTIVATE`. The RESTART of a successful one follows its completion. -/
def updActivate (stepsFail revokeFail : Nat) (c : Cmd) (s : State) : Exec :=
  Exec.need s [Dom.memory, Dom.flash] <| Exec.update s fun s =>
  let kind := c.u 0 1
  if bit (c.u 1 1) 0 then
    Exec.check (kind == 1) s St.badParam <|
    Exec.check (s.boot.mode == 1 && bit s.boot.desc.trial 0) s 0x0C0A <|
    .done (s.confirm stepsFail revokeFail) St.ok 0 []
  else match s.boot.update.filter fun u => u.kind == kind && u.verified with
  | none => Exec.fail s 0x0C01
  | some u => .done (s.updArm u (bit (c.u 1 1) 2)) St.ok 0 []

end State

/-! ### Meanings -/

/-- `AUTO_CONFIRM_TIMEOUT` -/
def execAutoConfirmTimeout (stepsFail revokeFail : Nat) (s : State) : Host.Outcome State Fault Refusal :=
  .next (s.doAutoConfirmTimeout stepsFail revokeFail)

/-- `SVC_HELLO`, sent to the device's S0 address or to broadcast. -/
def execSvcHello (nonce : List Byte) (_broadcast : Bool) (s : State) : Host.Outcome State Fault Refusal := .next (s.doSvcHello nonce)

/-- `SVC_PROOF` -/
def execSvcProof (session : Nat) (body : List Byte) (s : State) : Host.Outcome State Fault Refusal :=
  .next (s.doSvcProof session body)

/-- `SVC_DATA` -/
def execSvcData (session seq : Nat) (encrypted : Bool) (body tag : List Byte) (s : State) : Host.Outcome State Fault Refusal :=
  .next (s.doSvcData session seq encrypted body tag)

/-- `SVC_COMMAND` -/
def execSvcCommand (session seq : Nat) (body tag : List Byte) (s : State) : Host.Outcome State Fault Refusal :=
  .next (s.doSvcCommand session seq body tag)

/-- `SVC_CLOSE` -/
def execSvcClose (session seq : Nat) (tag : List Byte) (s : State) : Host.Outcome State Fault Refusal :=
  .next (s.doSvcClose session seq tag)

/-- `SVC_SESSION_TIMEOUT` -/
def execSvcSessionTimeout (s : State) : Host.Outcome State Fault Refusal := .next s.doSvcSessionTimeout

/-- `SVC_LOCKOUT_END` -/
def execSvcLockoutEnd (s : State) : Host.Outcome State Fault Refusal := .next s.doSvcLockoutEnd

/-- `UPD_SESSION_OPEN`; `flashOk`: the sector erase succeeds. -/
def execUpdSessionOpen (host queue : Nat) (flashOk : Bool) (s : State) : Host.Outcome State Fault Refusal :=
  .next (s.runCmd host queue 0x0C00 (State.updSessionOpen flashOk))

/-- `UPD_BLOCK` -/
def execUpdBlock (host queue : Nat) (flashOk : Bool) (s : State) : Host.Outcome State Fault Refusal :=
  .next (s.runCmd host queue 0x0C01 (State.updBlock flashOk))

/-- `UPD_VERIFY` -/
def execUpdVerify (host queue : Nat) (s : State) : Host.Outcome State Fault Refusal :=
  .next (s.runCmd host queue 0x0C02 State.updVerify)

/-- `UPD_ACTIVATE` -/
def execUpdActivate (host queue stepsFail revokeFail : Nat) (s : State) : Host.Outcome State Fault Refusal :=
  .next (s.runCmd host queue 0x0C03 (State.updActivate stepsFail revokeFail)).restartIfDue

end Sys2Proof.Machine
end

