-- ==== Sys2Proof/Machine/Views.lean ====
section
/-! DEFINITION.
Reading a direct register: what its status fields and its views show (the LVL fields of the
register tables, and the RO fields that no rule stores), and the read of the register file, the
companion window and the bit aliases (R6, R18, R51, R52, R525). -/

namespace Sys2Proof.Machine

/-- Fields put together, each at its lowest bit. -/
def pack (l : List (Nat × Nat)) : Nat := l.foldl (fun n x => n + x.2 * 2 ^ x.1) 0

/-- The bits below `n` for which something holds. -/
def bitMap (n : Nat) (f : Nat → Bool) : Nat := pack ((List.range n).map fun i => (i, b2n (f i)))

namespace State

/-- A view of one of an array of registers. -/
def viewAt (first count stride off : Nat) (f : Nat → Nat) : Option Nat := (regIdx first count stride off).map f

/-- A view of a single register. -/
def viewOf (reg off : Nat) (f : Nat) : Option Nat := if off = reg then some f else none

/-! ### Host bridge, mailbox and calendar -/

/-- FW_READY (R81). -/
def fwReadyNow (s : State) : Bool := s.pwr.fwReady && s.boot.mode != 2 && !s.quenched Dom.control

def viewDev (s : State) (off : Nat) : Option Nat :=
  if off = Reg.devId then some (Config.stepping.toNat + 2 ^ 16 * 0x6450)
  else if off = Reg.devForgeId then some Config.forgeId.toNat
  else if off = Reg.devEmberId then some Config.emberId.toNat
  else if off = Reg.devFwVersion then some s.fwVersion
  else if off = Reg.devState then
    some (pack [(0, pwrCode s.pwr.state), (3, lcCode s.key.inForce), (6, s.boot.slot), (7, roleCode s.pair.role),
      (9, b2n s.fwReadyNow), (10, b2n (s.boot.mode == 2))])
  else none

def viewHost (s : State) (off : Nat) : Option Nat :=
  viewOf Reg.hifLinkStatus off (pack [(0, b2n s.hif.linkUp), (1, s.hif.speed), (4, s.hif.width), (7, b2n s.hif.bme)])

def viewMbx (s : State) (off : Nat) : Option Nat :=
  let open_ (c : Cmd) : Bool := c.accepted
  (viewOf Reg.mbxJournalStatus off (pack [(0, b2n (s.pwr.fwReady && s.flashOk)), (1, b2n (decide (s.mbx.erased.length < 4))),
    (2, b2n s.mbx.flashFault), (3, b2n (s.pwr.fwReady && s.dramJournalOk))])).or <|
  (viewAt (Reg.mbxHostInflight 0) 3 0x20 off fun h => (s.mbx.cmds.filter fun c => open_ c && c.host == h).length).or <|
  (sqIdx (Reg.mbxQStatus 0) off).map fun (h, q) =>
    pack [(0, b2n (s.mbx.faults.contains (16 * h + q))),
      (1, b2n (s.queueEn h q || s.mbx.cmds.any fun c => open_ c && c.host == h && c.queue == q))]

def viewCal (s : State) (off : Nat) : Option Nat :=
  let run := match s.cal.running with
    | .noCalendar => 0
    | .image _ => 1
    | .limp => 2
  (viewOf Reg.calState off (pack [(0, run), (2, b2n (s.handleIn .pending).isSome), (3, b2n s.cal.overlapEnd.isSome),
    (4, b2n s.cal.limp.isSome), (5, b2n (s.cal.rephase || s.cal.stop))])).or <|
  viewOf Reg.calHandleState off (pack ((List.range 4).map fun h => (4 * h, handleCode (s.handle h).state)))

/-! ### Forwarding, speculation, buffers -/

/-- The oldest epoch that a frame is bound to (R206). -/
def oldestEpoch (s : State) : Nat :=
  (s.fr.frames.filter (·.decided)).foldl (fun e f => if epochAge s.epoch e < epochAge s.epoch f.epoch then f.epoch else e) s.epoch

def viewFwd (s : State) (off : Nat) : Option Nat :=
  let inOverflow (x : EmEntry) : Bool := match x.place with
    | .bucket _ _ => false
    | .overflow _ => true
  let n (f : EmEntry → Bool) : Nat := (s.fwd.em.filter f).length
  (viewOf Reg.fwdEpoch off (s.epoch + 2 ^ 16 * s.oldestEpoch)).or <|
  (viewAt (Reg.fwdInflight0 0) 4 4 off fun i => s.boundTo ((s.epoch + 65536 - i) % 65536)).or <|
  (viewOf Reg.fwdTxnState off (pack [(0, b2n s.fwd.txn.isSome), (16, s.fwd.staged.length)])).or <|
  (viewOf Reg.fwdEmUsed off s.emUsed).or <|
  (viewOf Reg.fwdOvfUsed off (n inOverflow)).or <|
  (viewOf Reg.fwdLpmUsed off s.lpmUsed).or <|
  (viewOf Reg.fwdConnUsed off (n fun x => isConn x.key)).or <|
  viewOf Reg.fwdDynUsed off (n ages)

/-- EXHAUSTED of a pipeline and its records in use, which stand still while it is quenched (R592). -/
def spcShown (s : State) (p : Nat) : Bool × Nat :=
  if s.quenched (pipeDom p) then agetD s.fr.spcHeld p (false, 0) else (s.exhausted p, (s.recordsUsed p).length)

def viewSpc (s : State) (off : Nat) : Option Nat :=
  (viewOf Reg.spcStatus off (bitMap 2 fun p => (s.spcShown p).1)).or <|
  viewOf Reg.spcPerUsed off (pack [(0, (s.spcShown 0).2), (16, (s.spcShown 1).2)])

/-- Whether a request for the overflow region waits (R256). -/
def ovfPending (s : State) : Bool :=
  !s.ovfInvalid && (s.rfld Reg.bufOvfRegion 0 9 != s.buf.ovfBase || s.rfld Reg.bufOvfRegion 16 9 != s.buf.ovfSize)

def viewBuf (s : State) (off : Nat) : Option Nat :=
  let queue (f : Nat → Nat → Nat) (i : Nat) : Nat := f (ofQueueIndex i).1 (ofQueueIndex i).2
  (viewOf Reg.bufSchedEffective off s.buf.sched).or <|
  (viewOf Reg.bufPartStatus off (pack [(0, b2n (s.schedRequest != s.buf.sched)), (1, b2n s.buf.spilling), (2, b2n s.buf.ovfFull),
    (3, b2n s.ovfPending), (4, b2n s.ovfInvalid)])).or <|
  (viewOf Reg.bufSharedFree off s.sharedFree).or <|
  (viewOf Reg.bufSchedUsed off (s.partUsed .scheduled)).or <|
  (viewOf Reg.bufHeadroomUsed off (s.partUsed .headroom)).or <|
  (viewOf Reg.bufControlUsed off (s.partUsed .control)).or <|
  (viewOf Reg.bufOvfUsed off s.ovfUsed).or <|
  (viewAt (Reg.bufPortStatus 0) 65 0x20 off fun p =>
    let x := s.bport p
    pack [(0, b2n (if p = 64 then decide (2 ≤ s.pair.linkState) else x.linkUp)), (1, b2n (s.inHold p)),
      (2, b2n (x.xoff.contains 8)), (8, bitMap 8 x.xoff.contains), (16, bitMap 8 fun q => (aget x.paused q).isSome)]).or <|
  (viewAt (Reg.bufQused 0) 544 4 off (queue s.qCells)).or <|
  viewAt (Reg.bufQovfUsed 0) 544 4 off (queue s.qDram)

/-! ### Traffic -/

/-- The SOURCE coding of a port of the TRF_ registers. -/
def ofTrfPort (t : Nat) : Nat := if t = 64 then 67 else t

/-- The counter that a view of TRF_ shows (R310). -/
def trfShown (s : State) (view : Nat) : Word :=
  let i := s.rfld Reg.trfCntSel 0 13
  match s.rfld Reg.trfCntSel 16 3 with
  | 0 => ((aget s.trf.filters i).map fun x => x.cnt.getD view 0).getD 0
  | 1 =>
    let x := agetD s.trf.policers i {}
    if view = 0 then x.green else if view = 1 then x.red else 0
  | 2 =>
    let x := agetD s.trf.gates i {}
    if view = 0 then x.passed else if view = 1 then x.dropped else if view = 2 then x.ipvUsed else 0
  | 3 => (agetD s.trf.recov i {}).cnt.getD view 0
  | 4 => (agetD s.trf.gen i {}).cnt.getD view 0
  | _ => 0

/-- `TRF_Q_STATE` of a queue. Bit 2 is shown for a queue with a shaper, and bit 6 as the first
sentence of R296 gives it: so the reset value has it. -/
def queueState (s : State) (p q : Nat) : Nat :=
  let stall := (s.queueOf p q).head?.any fun c => c.stalled && (c.spill == .inDram || c.spill == .draining)
  let credit := (s.shaper p q).any fun x => decide (0 ≤ (s.cbsNow p q x).credit)
  pack [(0, b2n (!(s.queueOf p q).isEmpty)), (1, b2n (s.gateOpen p q)), (2, b2n credit),
    (3, b2n (aget (s.bport p).paused q).isSome), (4, b2n stall), (5, b2n (s.isScheduled p q)),
    (6, b2n (bit (s.tport p).express q || s.isScheduled p q))]

def viewTrf (s : State) (off : Nat) : Option Nat :=
  let queue (f : Nat → Nat → Nat) (i : Nat) : Nat := f (ofQueueIndex i).1 (ofQueueIndex i).2
  (viewAt (Reg.trfCntView0 0) 7 4 off fun v => (s.trfShown v).toNat).or <|
  (viewAt (Reg.trfPortGcl 0) 65 0x40 off fun t =>
    let g := s.hostGates t
    let owner := if (s.imageList t).isSome then 2 else if g.cur.isSome then 1 else 0
    pack [(0, if t = 64 then 0 else owner), (2, b2n (g.pend.isSome && !g.retained)), (3, b2n g.retained),
      (8, s.gateMask (ofTrfPort t))]).or <|
  (viewAt (Reg.trfPortMm 0) 65 0x40 off fun t => pack [(0, b2n (s.mmActive t)), (1, (s.tport t).verify), (3, b2n (s.tport t).hold),
    (8, bitMap 8 (s.isExpress t))]).or <|
  (viewAt (Reg.trfPortCbsSusp 0) 65 0x40 off fun t =>
    bitMap 8 fun q => t < 64 && (s.shaper t q).isSome && s.shaperSuspended t q).or <|
  (viewAt (Reg.trfPortWsrc 0) 65 0x40 off fun t => b2n (((s.runningImage.map (·.weights)).getD []).any (·.port == t))).or <|
  (viewAt (Reg.trfPortGroup 0) 65 0x40 off fun t => bitMap 32 fun q => (s.group t).any (·.1 == q)).or <|
  (viewAt (Reg.trfQState 0) 544 4 off (queue s.queueState)).or <|
  (viewAt (Reg.trfQCredit 0) 544 4 off (queue fun p q =>
    ofSigned 32 (((s.shaper p q).map fun x => (s.cbsNow p q x).credit / 10 ^ 6).getD 0))).or <|
  viewAt (Reg.trfQDeficit 0) 544 4 off fun i =>
    ofSigned 25 (agetD (s.tport (if i < 512 then i / 8 else 64)).deficit (if i < 512 then i % 8 else i - 512) 0)

/-! ### Edge buses, tunnels, signals -/

def viewEdg (s : State) (off : Nat) : Option Nat :=
  (viewAt (Reg.edgCanStatus 0) 64 0x80 off fun n =>
    let c := s.canCh n
    pack [(0, if s.edgeEn then canCode c.state else 0), (2, b2n c.recovering), (3, b2n c.latched), (4, xcvrCode c.mode),
      (6, b2n c.pn), (7, b2n (canFrozen c)), (8, b2n c.pex)]).or <|
  (viewAt (Reg.edgCanTdcMeas 0) 64 0x80 off fun n => pack [(0, (s.canCh n).tdcFd % 256), (16, (s.canCh n).tdcXl % 256)]).or <|
  (viewAt (Reg.edgCanErr 0) 64 0x80 off fun n =>
    let c := s.canCh n
    pack [(0, c.tec % 512), (16, min 127 c.rec_), (23, b2n (decide (128 ≤ c.rec_))), (24, c.lec)]).or <|
  (viewAt (Reg.edgLinStatus 0) 32 0x40 off fun l =>
    let c := s.linCh l
    pack [(0, b2n (c.operational && s.edgeEn)), (2, b2n c.cfg.commander), (3, c.table), (6, c.slot), (12, xcvrCode c.mode),
      (14, b2n (s.inSlots (64 + l)))]).or <|
  (viewAt (Reg.edgLinRate 0) 32 0x40 off fun l =>
    let c := s.linCh l
    (if c.cfg.commander then c.cfg.rate else c.rate) % 65536).or <|
  viewAt (Reg.edgT1sStatus 0) 16 0x40 off fun m =>
    let c := s.t1sCh m
    pack [(0, b2n c.plcaOk), (1, b2n (c.cfg.enable && c.cfg.nodeId == 0)), (2, b2n (s.t1sUp m)), (8, c.cfg.nodeId)]

def viewTun (s : State) (off : Nat) : Option Nat :=
  (viewAt (Reg.tunChState 0) 512 4 off fun n =>
    let t := s.tunCh n
    pack [(0, b2n (bit t.flags 0)), (1, b2n (bit t.flags 1)), (2, b2n (!t.batch.isEmpty)), (8, t.seq), (16, t.batch.length)]).or <|
  (viewOf Reg.sigSeqBusy off 0).or <|
  (viewAt (Reg.sigQdepth0 0) 4 4 off fun q => (s.seqOf q).arrivals.length).or <|
  (viewAt (Reg.sigStale 0) 512 4 off fun w => bitMap 32 fun b => (aget s.sig.maps (32 * w + b)).any (·.stale)).or <|
  (viewAt (Reg.e2eCntView0 0) 7 4 off fun v => ((s.e2eCtx (s.rfld Reg.e2eCntSel 0 10)).cnt.getD v 0).toNat).or <|
  viewAt (Reg.e2eCtxState 0) 1024 4 off fun c =>
    let x := s.e2eCtx c
    pack [(0, x.lastResult), (4, b2n (bit x.flags 1)), (16, x.counter % 65536)]

/-! ### Security, keys, time -/

/-- The transmit SA in use on a port. -/
def txSa (s : State) (p : Nat) : Option Sa := (s.msPort p).txAn.bind fun an => aget (s.msPort p).tx.sas an

def viewSec (s : State) (off : Nat) : Option Nat :=
  (viewOf Reg.secCpStatus off (pack [(0, s.cpQueued), (16, min s.cpBusy s.verdictEngines)])).or <|
  (viewOf Reg.secFwRulesValid off (s.rulesAt s.epoch).length).or <|
  (viewOf Reg.secFwHitView off (agetD s.sec.hits (s.rfld Reg.secFwHitSel 0 14) 0).toNat).or <|
  (viewOf Reg.secFvViewLo off (s.fvLast (s.rfld Reg.secFvSel 0 10))).or <|
  (viewOf Reg.secFvViewHi off (s.fvLast (s.rfld Reg.secFvSel 0 10) / 2 ^ 32)).or <|
  (viewAt (Reg.secMsPortStatus 0) 64 0x40 off fun p =>
    let m := s.msPort p
    pack [(0, b2n m.rxEn), (1, b2n m.txEn), (2, b2n m.strict), (3, m.txAn.getD 0), (5, b2n ((s.txSa p).any fun a => !a.stopped)),
      (6, b2n m.exhausted), (8, bitMap 8 fun i => (aget m.rx i).any (·.enable))]).or <|
  (viewAt (Reg.secMsTxPnLo 0) 64 0x40 off fun p => ((s.txSa p).map (·.nextPn)).getD 0).or <|
  viewAt (Reg.secMsTxPnHi 0) 64 0x40 off fun p => ((s.txSa p).map (·.nextPn)).getD 0 / 2 ^ 32

def viewKey (s : State) (off : Nat) : Option Nat :=
  let k := s.key
  let x := s.keySlot (s.rfld Reg.keySlotSel 0 10)
  let slots (st : SlotState) : Nat := (k.slots.filter fun y => y.2.state == st).length
  let code := match x.state with
    | .empty => 0
    | .loaded => 1
    | .erased => 2
  let blob := match x.recipe with
    | .derive _ _ => false
    | .blob _ _ => true
  let used := x.state != .empty
  (viewOf Reg.keyLc off (pack [(0, lcCode k.inForce), (3, lcCode k.burned), (6, b2n k.lcPending), (7, b2n k.rootFault),
    (8, k.serviceEntries), (16, b2n k.root.isSome), (17, b2n k.rootLost)])).or <|
  (viewOf Reg.keyAlarmStatus off (setBits (s.rget Reg.keyAlarmStatus).toNat 0 4 k.asserted)).or <|
  (viewOf Reg.keySlotsLoaded off (slots .loaded)).or <|
  (viewOf Reg.keySlotsErased off (slots .erased)).or <|
  (viewOf Reg.keySlotView off (pack [(0, code), (2, x.level), (6, b2n (x.bits == 256)), (7, b2n (used && blob)), (8, x.usage),
    (16, x.dest)])).or <|
  (viewOf Reg.keySlotParent off (if used then pack [(0, x.parent.getD 0), (10, b2n x.parent.isNone)] else 0)).or <|
  viewOf Reg.keySlotKcv off (if x.state = .loaded then kcv x.key else 0)

def domCode : DomState → Nat
  | .disabled => 0
  | .unset => 1
  | .locked => 2
  | .holdover => 3
  | .held => 4

def viewTim (s : State) (off : Nat) : Option Nat :=
  (viewAt (Reg.timDomState 0) 4 0x40 off fun i =>
    let d := s.domain i
    pack [(0, domCode d.state), (3, b2n (d.slew != 0)), (4, b2n d.resumed), (5, d.source), (8, d.slave.getD 0xFF), (16, d.heldSeq)]).or <|
  (viewAt (Reg.timDomIncLo 0) 4 0x40 off fun i => ofSigned 32 (domInc (s.domain i))).or <|
  (viewAt (Reg.timDomIncHi 0) 4 0x40 off fun i => (domInc (s.domain i)).toNat / 2 ^ 32 % 256).or <|
  (viewAt (Reg.timDomHeldLo 0) 4 0x40 off fun i => ofSigned 32 (s.domain i).heldStep).or <|
  (viewAt (Reg.timDomHeldHi 0) 4 0x40 off fun i => ofSigned 64 (s.domain i).heldStep / 2 ^ 32).or <|
  viewAt (Reg.timDomOffset 0) 4 0x40 off fun i => ofSigned 32 (satSigned 32 (s.domain i).offset)

/-! ### Power, pair, fence, boot -/

/-- Milliseconds left in a timed NM state. -/
def nmLeft (s : State) : Nat :=
  let upTo (t : Nat) : Nat := min 65535 (ceilDiv (t - s.clk) 1000000)
  match s.nm.state with
  | .repeat_ => upTo (s.nm.enteredAt + 1000000 * s.nm.repeatMs)
  | .readySleep => upTo s.readyEnd
  | .prepare => upTo (s.nm.enteredAt + 1000000 * s.nm.pbsMs)
  | .committed => upTo (s.nm.commitAt.getD s.clk + 2000000)
  | .busSleep | .normal => 0

/-- Whether a CAN cluster has been quiet for READY_SLEEP_MS. -/
def clusterQuiet (s : State) (c : Nat) : Bool :=
  s.pwr.state == .run && bit s.nm.canMask c && decide (agetD s.nm.clusterAt c s.pwr.runAt + 1000000 * s.nm.readyMs ≤ s.clk)

def viewPwr (s : State) (off : Nat) : Option Nat :=
  let p := s.pwr
  (viewOf Reg.pwrState off (pack [(0, pwrCode p.state), (3, pwrCode p.target), (6, b2n p.warm), (7, b2n p.demoted), (8, b2n p.pmicFault)])).or <|
  (viewOf Reg.pwrInhStatus off (bitMap 8 fun n => s.inhHigh n p.state)).or <|
  (viewOf Reg.pwrPmicStatus off (pack [(0, b2n p.pwrEn), (1, b2n p.pwrGood)])).or <|
  (viewOf Reg.nmState off (pack [(0, nmCode s.nm.state), (8, s.localReq), (10, b2n s.nm.partnerReq), (16, b2n s.nm.committed)])).or <|
  (viewOf Reg.nmTimerMs off s.nmLeft).or <|
  (viewOf Reg.nmRecords off s.nm.records.length).or <|
  (viewOf Reg.nmPnReq off s.pnRequested).or <|
  (viewOf Reg.nmClusterQuietLo off (bitMap 32 s.clusterQuiet)).or <|
  viewOf Reg.nmClusterQuietHi off (bitMap 32 fun c => s.clusterQuiet (32 + c))

def viewPair (s : State) (off : Nat) : Option Nat :=
  let p := s.pair
  (viewOf Reg.pairState off (pack [(0, roleCode p.role), (2, b2n p.strapSmith), (3, b2n p.acting), (4, p.linkState), (8, b2n p.alive),
    (9, b2n p.strapConflict), (10, b2n s.clashNow), (12, p.lanes)])).or <|
  (viewOf Reg.pairVotes off (pack [(0, s.votesFor Config.forgeId.toNat), (8, if s.partnerId = 0 then 0 else s.votesFor s.partnerId)])).or <|
  viewAt (Reg.pairTimeOffset0 0) 4 4 off fun i => ofSigned 32 (satSigned 32 (p.offsets.getD i 0))

def viewFnc (s : State) (off : Nat) : Option Nat :=
  let inState (st : FenceState) : Nat := bitMap 25 fun d => (s.fdom d).state == st
  (viewOf Reg.fncQuenched off (bitMap 25 s.quenched)).or <|
  (viewOf Reg.fncRecovering off (inState .recovering)).or <|
  (viewOf Reg.fncProbation off (inState .probation)).or <|
  (viewOf Reg.fncStuck off (inState .stuck)).or <|
  viewOf Reg.fncLevel off (pack [(0, s.fenceLevel),
    (16, s.unitsQuenched.length)])

/-- The device's address on S0 (R551), octet 0 lowest. -/
def s0Mac : Nat :=
  let f := Config.forgeId.toNat
  leNat [0x02, 0x55, 0x5A, BitVec.ofNat 8 (f / 2 ^ 16), BitVec.ofNat 8 (f / 2 ^ 8), BitVec.ofNat 8 f]

def viewBoot (s : State) (off : Nat) : Option Nat :=
  let b := s.boot
  let upd := match b.update with
    | none => 0
    | some u => if u.verified then 2 else 1
  (viewOf Reg.bootState off (pack [(0, b.mode), (2, b.slot), (3, b2n b.strapRole), (4, b2n b.strapRecovery),
    (5, b2n (b.session.any (·.open_))), (6, upd), (8, b.recoveryCause)])).or <|
  (viewOf Reg.bootDesc off (pack [(0, b.desc.active % 8), (4, b.desc.trial % 4), (8, b.desc.trialLeft)])).or <|
  (viewOf Reg.bootSlotStatus off (pack [(0, b.slotA), (4, b.slotB)])).or <|
  (viewOf Reg.bootRollback off b.rollback).or <|
  (viewOf Reg.bootKeys off (pack [(0, Config.otpProgrammed.toNat), (4, b.revoked % 16)])).or <|
  (viewOf Reg.bootMem off (pack [(0, Config.dramGib.toNat), (16, Config.flashMib.toNat)])).or <|
  (viewOf Reg.bootS0MacLo off (s0Mac % 2 ^ 32)).or <|
  viewOf Reg.bootS0MacHi off (s0Mac / 2 ^ 32)

/-! ### The read -/

/-- What a register shows that is not held in the register file, by the window it stands in. -/
def view (s : State) (off : Nat) : Option Nat :=
  match off / 0x8000 with
  | 0 => s.viewDev off
  | 1 => s.viewHost off
  | 2 => s.viewMbx off
  | 3 => s.viewCal off
  | 4 => (s.viewFwd off).or (s.viewSpc off)
  | 5 => s.viewBuf off
  | 6 => s.viewTrf off
  | 7 => s.viewEdg off
  | 8 => s.viewTun off
  | 9 => (s.viewSec off).or (s.viewKey off)
  | 10 => s.viewTim off
  | 11 => s.viewPwr off
  | 12 => s.viewPair off
  | 13 => s.viewFnc off
  | 14 => s.viewBoot off
  | _ => none

/-- The value that a register reads as. A reserved address, the `PWR_` and `NM_` window after a
link failure, and every register while the host domain is quenched read as zero. -/
def readReg (s : State) (off : Nat) : Word :=
  if (s.servedRow off).isNone || s.quenched Dom.host || (off / 0x8000 == 11 && s.pwr.dieLinkFailed) then 0
  else match s.view off with
  | some v => BitVec.ofNat 32 v
  | none => s.rget off

/-- The word at a BAR0 offset, or at the SPI address of the same number. -/
def readBar0 (s : State) (addr : Nat) : Word :=
  if addr < 0x80000 then s.readReg addr
  else if 0x01000000 ≤ addr ∧ addr < 0x02000000 then
    let off := (addr - 0x01000000) / 128 * 4
    BitVec.ofNat 32 (b2n ((s.readReg off).getLsbD ((addr - 0x01000000) / 4 % 32)))
  else 0

/-- How the bridge answers a read request of the main host. -/
inductive ReadReply where
  | data (l : List Word)
  /-- completed with Unsupported Request -/
  | unsupported
  /-- not answered: the Forge die is in reset, or its boot ROM is not done (R81) -/
  | silent
  deriving DecidableEq, Repr

/-- The DWORD at a BAR2 offset: the slot memory, and zero in the reserved range (R85). -/
def readBar2 (s : State) (off : Nat) : Word :=
  if 0x80000 ≤ off then 0 else BitVec.ofNat 32 (leNat (s.mread (0x40000000 + off / 4 * 4) 4))

/-- The DWORD at a BAR4 offset: the MSI-X table, the pending bit array from 0x8000 on (R35), and
zero elsewhere. -/
def readBar4 (s : State) (off : Nat) : Word :=
  if off < 0x1000 then
    let x := agetD s.hif.msix (off / 16) {}
    match off / 4 % 4 with
    | 0 => BitVec.ofNat 32 x.addr
    | 1 => BitVec.ofNat 32 (x.addr / 2 ^ 32)
    | 2 => x.data
    | _ => BitVec.ofNat 32 (b2n x.masked)
  else if 0x8000 ≤ off ∧ off < 0x8020 then
    BitVec.ofNat 32 (bitMap 32 fun b => s.hif.pba.contains (8 * (off - 0x8000) / 32 * 32 + b))
  else 0

/-- A memory read request of the main host of `n` DWORDs from an aligned offset of a BAR; BAR0
answers one or two (R37), and byte enables do not matter. It changes no state (R58). -/
def hostRead (s : State) (bar off n : Nat) : ReadReply :=
  let words (f : Nat → Word) : ReadReply := .data ((List.range n).map fun i => f (off + 4 * i))
  if !s.answersReads then .silent
  else match bar with
  | 0 => if 2 < n then .unsupported else words s.readBar0
  | 2 => words s.readBar2
  | 4 => words s.readBar4
  | _ => .unsupported

/-- The word at an SPI address (R43). -/
def readSpi (s : State) (addr : Nat) : Word :=
  if s.quenched Dom.host then 0
  else if (0x02000000 ≤ addr ∧ addr < 0x02004800) ∨ (0x02010000 ≤ addr ∧ addr < 0x02020000) then
    BitVec.ofNat 32 (leNat (s.mread addr 4))
  else s.readBar0 addr

end State

end Sys2Proof.Machine
end

