-- ==== Sys2Proof/Machine/Host.lean ====
section
/-! DEFINITION.
Rows of the host bridge: posted writes and AtomicOps (R37, R50 to R56, R59), resets of the PCIe
side (R39, R579), MSI-X (R41), the SPI target (R42 to R48), the parity scrub (R53), transmit
rings (R74 to R76) and the queue commands (R79, R80). -/

namespace Sys2Proof.Machine

namespace State

/-! ### Posted writes -/

/-- The register that a BAR0 offset acts on. -/
def regOfAddr (addr : Nat) : Nat :=
  if addr < 0x80000 then addr else if addr < 0x100000 then addr - 0x80000 else (addr - 0x01000000) / 128 * 4

/-- What follows from a register beyond its own window: M ports and receive FIFOs follow the
enables of the edge and of the tunnels, and SPILLING its thresholds. -/
def regHook (s : State) (addr : Nat) : State :=
  match regOfAddr addr / 0x8000 with
  | 5 => s.spillUpdate
  | 7 => s.t1sSync.rxPurge
  | 8 => s.rxPurge
  | _ => s

/-- A PCIe transaction shows that the link is up. What it trained to is a free value (log entry
1). -/
def linkSeen (s : State) : State :=
  if s.hif.linkUp then s
  else
    let (v, s) := s.free
    s.setHif { s.hif with linkUp := true, speed := 1 + v % 4, width := 2 ^ (v / 4 % 3) }

/-- A posted register write of a host. -/
def hostPost (s : State) (host tag addr : Nat) (v : Word) : State :=
  if !s.bridgeUp then s
  else
    let s := if host = 0 then s.linkSeen else s
    (s.postReg host tag addr v).regHook addr

/-- A DWORD written to BAR4: the MSI-X table takes it, the pending bit array and the rest do not
(R35; the layout of an entry is PCI's, log entry 53). -/
def writeBar4 (s : State) (off : Nat) (v : Word) (be : Nat) : State :=
  if 0x1000 ≤ off then s
  else
    let x := agetD s.hif.msix (off / 16) {}
    let put (old : Nat) : Nat := leNat (mergeBytes (leBytes 4 old) (leBytes 4 v.toNat) be)
    let x : MsixEntry := match off / 4 % 4 with
      | 0 => { x with addr := x.addr / 2 ^ 32 * 2 ^ 32 + put (x.addr % 2 ^ 32) }
      | 1 => { x with addr := x.addr % 2 ^ 32 + 2 ^ 32 * put (x.addr / 2 ^ 32) }
      | 2 => { x with data := BitVec.ofNat 32 (put x.data.toNat) }
      | _ => { x with masked := bit (put (b2n x.masked)) 0 }
    s.setHif { s.hif with msix := aset s.hif.msix (off / 16) x }

/-- `REGISTER_WRITE` -/
def doRegisterWrite (s : State) (w : PostedWrite) : State :=
  if !s.bridgeUp then s
  else
    let s := s.linkSeen
    match w with
    | .bar0 tag off v be =>
      if s.quenched Dom.host then s.discardWord 0 1
      else if be % 16 ≠ 15 then s.guardExpire.pwfNow 0 tag off v 7
      else s.hostPost 0 tag off v
    | .bar0Pair tag off lo hi be =>
      if s.quenched Dom.host then s.discardWord 0 2
      else
        let one (s : State) (off : Nat) (v : Word) (be : Nat) : State :=
          if be % 16 ≠ 15 then s.guardExpire.pwfNow 0 tag off v 7 else s.hostPost 0 tag off v
        one (one s off lo be) (off + 4) hi (be / 16)
    | .bar2 tag off v be => s.writeBar2 tag off v be
    | .bar4 off v be => s.writeBar4 off v be
    | .msixEntry vec addr v masked =>
      if 256 ≤ vec then s
      else s.setHif { s.hif with msix := aset s.hif.msix vec { addr := addr, data := v, masked := masked } }
    | .sizes payload readRequest =>
      s.setHif { s.hif with fn := { s.hif.fn with maxPayload := min payload s.hif.fn.maxPayloadCap, maxReadRequest := readRequest } }
    | .config bme msixEn funcMask =>
      let rise := bme && !s.hif.bme
      let s := s.setHif { s.hif with bme := bme, msixEn := msixEn, funcMask := funcMask }
      if rise then s.dmaBack else s

/-- `GUARD_WINDOW_EXPIRY` -/
def doGuardWindowExpiry (s : State) (off : Nat) : State :=
  match s.guardOf off with
  | none => s
  | some g => (s.waitUntil (g.since + 1000)).guardRefuse g ((g.since + 1000) / 1000 % 2 ^ 32)

/-! ### AtomicOps (R56) -/

/-- The value that an AtomicOp leaves, at a width in bits. -/
def atomicNew (kind : AtomicKind) (w old operand compare : Nat) : Nat :=
  match kind with
  | .fetchAdd => (old + operand) % 2 ^ w
  | .swap => operand % 2 ^ w
  | .cas => if old = compare % 2 ^ w then operand % 2 ^ w else old

/-- Whether an AtomicOp may act on the register at an offset. -/
def atomicReg (s : State) (off : Nat) : Bool :=
  off / 0x8000 != 11 &&
    match s.servedRow off with
    | none => false
    | some r => r.rw != 0 && r.rwg ||| r.cnt ||| r.ack ||| r.wo ||| r.ro == 0 && (s.refuseCause 0 off).isNone

/-- `ATOMIC_OP` of the main host -/
def doAtomicOp (s : State) (kind : AtomicKind) (bar2 wide : Bool) (off operand compare : Nat) : State :=
  if !s.bridgeUp then s
  else
    let s := s.linkSeen.guardExpire
    let n := if wide then 8 else 4
    let ok := s.rfld Reg.hifHostCtrl 8 1 == 1 && !s.quenched Dom.host && off % n == 0 &&
      (if bar2 then decide (off + n ≤ 0x80000) else s.atomicReg off && (!wide || s.atomicReg (off + 4)))
    if !ok then s.emit (.atomicDone false 0)
    else if bar2 then
      let a := 0x40000000 + off
      let old := leNat (s.mread a n)
      let b := leBytes n (atomicNew kind (8 * n) old operand compare)
      let s := s.slotWrite a (b.take 4)
      let s := if wide then s.slotWrite (a + 4) (b.drop 4) else s
      s.emit (.atomicDone true old)
    else
      let old := (s.rget off).toNat + if wide then 2 ^ 32 * (s.rget (off + 4)).toNat else 0
      let v := atomicNew kind (8 * n) old operand compare
      let s := (s.writeDirect 0 0 off (BitVec.ofNat 32 v)).regHook off
      let s := if wide then (s.writeDirect 0 0 (off + 4) (BitVec.ofNat 32 (v / 2 ^ 32))).regHook (off + 4) else s
      s.emit (.atomicDone true old)

/-! ### Resets of the PCIe side (R39, R579) -/

/-- The PCIe-facing state of the bridge, and the main host's queues. -/
def pcieReset (s : State) (linkUp : Bool) : State :=
  if !s.bridgeUp then s
  else
    let s := s.hostQueuesOff
    let h := s.hif
    s.setHif { h with
      fn := {}, held := [], bme := false, msixEn := false, funcMask := false, msix := [], pba := [], heldOff := [], lastMsg := []
      linkUp := linkUp && h.linkUp, speed := if linkUp then h.speed else 0, width := if linkUp then h.width else 0 }

/-! ### MSI-X (R41) -/

/-- A vector's message goes out, or turns into its pending bit. -/
def messageDue (s : State) (v : Nat) : State :=
  if !s.canDma || s.vecMasked v then
    s.setHif { s.hif with heldOff := s.hif.heldOff.filter (· ≠ v), pba := v :: s.hif.pba.filter (· ≠ v) }
  else s.sendMsix v

/-- Local ns from which the next message of a vector may go. -/
def nextMessage (s : State) (v : Nat) : Nat :=
  match aget s.hif.lastMsg v with
  | none => s.clk
  | some t => t + s.holdoff

/-- `IRQ_HOLDOFF_EXPIRY` -/
def doIrqHoldoffExpiry (s : State) (v : Nat) : State :=
  if !s.hif.heldOff.contains v then s else (s.waitUntil (s.nextMessage v)).messageDue v

/-- `MSIX_PENDING_SEND` -/
def doMsixPendingSend (s : State) (v : Nat) : State :=
  if !s.hif.pba.contains v || !s.canDma || s.vecMasked v then s else (s.waitUntil (s.nextMessage v)).sendMsix v

/-! ### The SPI target (R42 to R48) -/

/-- The row of R43 that an SPI address stands in. -/
def spiRow (a : Nat) : Nat :=
  if a < 0x100000 then 0
  else if 0x01000000 ≤ a ∧ a < 0x02000000 then 1
  else if 0x02000000 ≤ a ∧ a < 0x02004000 then 2
  else if 0x02004000 ≤ a ∧ a < 0x02004800 then 3
  else if 0x02010000 ≤ a ∧ a < 0x02020000 then 4
  else 5

/-- STATUS of a transaction by the order of R46; a quenched host domain answers 0x02 (R525). -/
def spiJudge (s : State) (sent : List Byte) (crc : Byte) (malformed refused : Bool) : Nat :=
  if crc ≠ Crypto.crc8Spi sent then 1 else if malformed then 3 else if refused || s.quenched Dom.host then 2 else 0

/-- A transaction is over: its STATUS is kept, and a CRC mismatch counted. -/
def spiDone (s : State) (status : Nat) (answer : List Byte) : State :=
  let s := if status = 1 then s.bump Reg.hifSpiCrcCnt else s
  (s.setHif { s.hif with spiStatus := status }).emit (.spi answer)

/-- One more transaction; its number is the TAG of R61. -/
def spiBegin (s : State) : State := s.setHif { s.hif with spiCount := s.hif.spiCount + 1 }

/-- STATUS and its complement. -/
def statusPair (status : Nat) : List Byte := [BitVec.ofNat 8 status, ~~~BitVec.ofNat 8 status]

/-- A transaction cut short (R46). -/
def doSpiCsCutShort (s : State) : State := if s.bridgeUp then s.bump Reg.hifSpiCrcCnt else s

/-- `SPI_READ`; `ready`: the data came within 512 wait bytes. -/
def doSpiRead (s : State) (addr count : Nat) (crc : Byte) (ready : Bool) : State :=
  if !s.bridgeUp then s
  else
    let s := s.spiBegin
    let n := count % 256
    let judged := s.spiJudge (leBytes 4 addr ++ leBytes 1 n) crc (addr % 4 != 0 || decide (63 < n))
      (spiRow addr != spiRow (addr + 4 * n))
    let status := if judged = 0 ∧ (!ready || !s.pwr.booted) then 4 else judged
    let b := BitVec.ofNat 8 status :: ((List.range (n + 1)).flatMap fun i => leBytes 4 (s.readSpi (addr + 4 * i)).toNat)
    s.spiDone status (if status = 0 then (0xA5 :: b) ++ [Crypto.crc8Spi b] else [0xA5, BitVec.ofNat 8 status])

/-- `SPI_WRITE`; data of another length than COUNT says is cut short, and is no transaction of the
count (log entry 39). -/
def doSpiWrite (s : State) (addr count : Nat) (data : List Word) (crc : Byte) : State :=
  if !s.bridgeUp then s
  else
    let n := count % 256
    let bytes := data.flatMap fun w => leBytes 4 w.toNat
    let status := s.spiJudge (leBytes 4 addr ++ leBytes 1 n ++ bytes) crc (addr % 4 != 0 || decide (63 < n))
      (spiRow addr != spiRow (addr + 4 * n))
    if data.length ≠ n + 1 then s.doSpiCsCutShort
    else
      let s := s.spiBegin
      let s :=
        if status = 0 then
          data.zipIdx.foldl (fun s (x : Word × Nat) => (s.writeSpi s.hif.spiCount (addr + 4 * x.2) x.1).regHook (addr + 4 * x.2)) s
        else if s.quenched Dom.host && status == 2 then s.discardWord 1 data.length
        else s
      s.spiDone status (statusPair status)

/-- Whether an address is a register with an RWG field. -/
def guardedReg (s : State) (addr : Nat) : Bool := addr < 0x80000 && (s.servedRow addr).any fun r => r.rwg != 0

/-- `SPI_GUARDED_WRITE` -/
def doSpiGuardedWrite (s : State) (addr : Nat) (v comp : Word) (crc : Byte) : State :=
  if !s.bridgeUp then s
  else
    let s := s.spiBegin
    let status := s.spiJudge (leBytes 4 addr ++ leBytes 4 v.toNat ++ leBytes 4 comp.toNat) crc (addr % 4 != 0) (!s.guardedReg addr)
    let s :=
      if status = 0 then
        ((s.postReg 1 s.hif.spiCount addr v).postReg 1 s.hif.spiCount (addr + 0x80000) comp).regHook addr
      else if s.quenched Dom.host && status == 2 then s.discardWord 1 2
      else s
    s.spiDone status (statusPair status)

/-- `SPI_STATUS` -/
def doSpiStatus (s : State) : State :=
  if !s.bridgeUp then s
  else
    let b := leBytes 1 s.hif.spiStatus ++ leBytes 2 (s.rget Reg.hifSpiCrcCnt).toNat
    s.spiBegin.emit (.spi (b ++ [Crypto.crc8Spi b]))

/-- `SPI_UNKNOWN_INSTRUCTION`: the target drives 0x00 until CS_N rises. -/
def doSpiUnknownInstruction (s : State) (op : Byte) : State :=
  if !s.bridgeUp || op == 0x0B || op == 0x02 || op == 0x12 || op == 0x05 then s
  else
    let s := s.spiBegin.bump Reg.hifSpiCrcCnt
    (s.setHif { s.hif with spiStatus := 3 }).emit (.spi [0x00])

/-- Whether SAFE_IRQ_N is asserted, low (R48). -/
def safeIrq (s : State) : Bool :=
  (s.rfld (Reg.evqCfg 1) 1 1 == 1 && s.evqFill 1 != 0) ||
    (List.range 2).any fun q => s.rfld (sqReg (Reg.mbxQCtrl 0) 1 q) 1 1 == 1 &&
      s.rget (sqReg (Reg.mbxCqProd 0) 1 q) != s.rget (sqReg (Reg.mbxCqCons 0) 1 q)

/-! ### The parity scrub (R53) -/

/-- Quench the owner of a register. The FWD_ and SPC_ registers belong to both pipelines. -/
def parityQuench (s : State) (off : Nat) : State :=
  if off / 0x8000 = 4 then (s.fenceReport Dom.pipe0 3).fenceReport Dom.pipe1 3 else s.fenceReport (ownerOf off) 3

/-- `PARITY_SCRUB` finds a mismatch in the register at an offset. The counter is advanced in the
cycle of the quench, before the counters of a quenched host domain stop; the register gets its
value back from the shadow copy. -/
def doParityScrub (s : State) (off : Nat) : State :=
  if !s.forgeUp then s
  else match regRow off with
  | none => s
  | some r =>
    if r.rw ||| r.rwg = 0 then s
    else ((s.bump Reg.hifParityCnt).parityQuench off).raise 0x1003 off

/-! ### Transmit rings (R74 to R76) -/

def txRing (s : State) (n : Nat) : Ring := agetD s.hif.tx n {}

/-- The device needs the bytes of `k` bytes of a transmit ring no longer. -/
def txRelease (s : State) (n k : Nat) : State :=
  let cons := s.rget (Reg.hifTxrCons n) + BitVec.ofNat 32 k
  let s := (s.rset (Reg.hifTxrCons n) cons).hostMem (41 + n) (s.txRing n).wb (leBytes 8 cons.toNat)
  if s.rfld (Reg.hifTxrCfg n) 1 1 = 1 then s.signal (41 + n) else s

/-- A frame of a transmit ring enters pipeline 0 as source H0, padded and with its FCS. -/
def txInject (s : State) (b : List Byte) (tsReq : Option Nat) : State :=
  let b := fit (max 60 b.length) b
  let fid := s.fr.next
  let f : Frame :=
    { fid := fid, src := 67, tIn := s.clk, start := s.clk, inAt := s.clk, bytes := b ++ leBytes 4 (Crypto.crc32 b).toNat,
      complete := true, lastAt := s.clk, tsReq := tsReq }
  s.setFr { s.fr with next := fid + 1, frames := s.fr.frames ++ [f], heads := s.fr.heads ++ [(67, fid)] }

/-- `TX_RECORD_FETCH`: the header at the ring's consume count, and the frame bytes behind it. -/
def doTxRecordFetch (s : State) (n : Nat) (hdr frame : List Byte) : State :=
  let left := (s.rget (Reg.hifTxrProd n) - s.rget (Reg.hifTxrCons n)).toNat
  if 32 ≤ n || s.rfld (Reg.hifTxrCfg n) 0 1 != 1 || s.rfld (Reg.hifTxrFault n) 0 1 == 1 || !s.canDma || !s.datapathUp ||
      s.quenched Dom.pipe0 || left == 0 then s
  else
    let at_ := (s.rget (Reg.hifTxrCons n)).toNat % 2 ^ s.rfld (Reg.hifTxrCfg n) 8 5
    let s := s.hostIn ((s.txRing n).base + at_) 8
    let len := le hdr 0 2
    let pad := bit (le hdr 2 1) 1
    let size := if pad then 8 + len else ceilDiv (8 + len) 8 * 8
    if left < size then (s.rset (Reg.hifTxrFault n) 1).raise 0x1004 (n + 256)
    else if pad then s.txRelease n size
    else if len < 14 then (s.bump (Reg.hifTxrBadCnt n)).txRelease n size
    else ((s.hostIn ((s.txRing n).base + at_ + 8) len).txInject (fit len frame) (if bit (le hdr 2 1) 0 then some (le hdr 4 2) else none)).txRelease n size

/-! ### Queue commands (R79, R80) -/

/-- The configuration register of a queue or ring. -/
def cfgWord (flags size : Nat) : Word := BitVec.ofNat 32 (flags + 256 * size)

/-- `EVQ_CONFIG` of the host's own queue -/
def evqConfig (c : Cmd) (s : State) : Exec :=
  let h := c.host
  let base := if h = 0 then c.u 8 8 else 0x02010000
  Exec.need s [Dom.host] <|
  if !bit (c.u 1 1) 0 then .done (s.evqDisable h) St.ok 0 []
  else
    Exec.check (s.rfld (Reg.evqCfg h) 0 1 == 0 && 8 ≤ c.u 0 1 && c.u 0 1 ≤ (if h = 0 then 16 else 12) && base % 4096 == 0)
      s St.badParam <|
    let s := s.rset (Reg.evqCfg h) (cfgWord (c.u 1 1 % 4) (c.u 0 1))
    let s := (s.rset (Reg.evqProd h) 0).rset (Reg.evqCons h) 0
    .done ((s.rset64 (Reg.evqBaseLo h) base).evqGap h) St.ok 0 []

/-- Enable a ring with both counts at zero. -/
def ringEnable (s : State) (tx : Bool) (n flags size base wb : Nat) : State :=
  if tx then
    let s := s.rset (Reg.hifTxrCfg n) (cfgWord (flags % 4) size)
    let s := ((s.rset (Reg.hifTxrProd n) 0).rset (Reg.hifTxrCons n) 0).rset (Reg.hifTxrFault n) 0
    s.setHif { s.hif with tx := aset s.hif.tx n { base := base, wb := wb } }
  else
    let s := s.rset (Reg.hifRxrCfg n) (cfgWord (flags % 8) size)
    let s := (s.rset (Reg.hifRxrProd n) 0).rset (Reg.hifRxrCons n) 0
    s.setHif { s.hif with rx := aset s.hif.rx n { base := base } }

/-- `RING_CONFIG` -/
def ringConfig (c : Cmd) (s : State) : Exec :=
  let n := c.u 0 1 % 32
  let tx := bit (c.u 0 1) 7
  let en := s.rfld (if tx then Reg.hifTxrCfg n else Reg.hifRxrCfg n) 0 1 == 1
  Exec.need s [Dom.host] <|
  if !bit (c.u 1 1) 0 then
    .done (if !en then s else if tx then s.txDisable n else s.rxDisable n) St.ok 0 []
  else
    Exec.check (!en && 16 ≤ c.u 2 1 && c.u 2 1 ≤ 24 && c.u 8 8 % 4096 == 0 && (!tx || c.u 16 8 % 8 == 0)) s St.badParam <|
    .done (s.ringEnable tx n (c.u 1 1) (c.u 2 1) (c.u 8 8) (c.u 16 8)) St.ok 0 []

/-! ### The heartbeat (R81) -/

/-- `DEV_HEARTBEAT_TICK`: the next whole millisecond of RUN. -/
def doDevHeartbeatTick (s : State) : State :=
  if !s.fwReadyNow || s.pwr.state != .run then s
  else (s.waitUntil (s.pwr.runAt + 1000000 * (((s.clk - s.pwr.runAt) / 1000000 + 1)))).bump Reg.devHeartbeat

end State

/-! ### Meanings -/

/-- `REGISTER_WRITE` -/
def execRegisterWrite (w : PostedWrite) (s : State) : Host.Outcome State Fault Refusal := .next (s.doRegisterWrite w)

/-- `GUARDED_VALUE_WRITE` -/
def execGuardedValueWrite (host tag off : Nat) (v : Word) (s : State) : Host.Outcome State Fault Refusal :=
  .next (s.hostPost host tag off v)

/-- `GUARDED_COMPLEMENT_WRITE` -/
def execGuardedComplementWrite (host tag off : Nat) (v : Word) (s : State) : Host.Outcome State Fault Refusal :=
  .next (s.hostPost host tag (off + 0x80000) v)

/-- `GUARD_WINDOW_EXPIRY` -/
def execGuardWindowExpiry (off : Nat) (s : State) : Host.Outcome State Fault Refusal := .next (s.doGuardWindowExpiry off)

/-- `BIT_ALIAS_WRITE` -/
def execBitAliasWrite (host tag off bit : Nat) (v : Word) (s : State) : Host.Outcome State Fault Refusal :=
  .next (s.hostPost host tag (0x01000000 + off * 32 + bit * 4) v)

/-- `ATOMIC_OP` -/
def execAtomicOp (kind : AtomicKind) (bar2 wide : Bool) (off operand compare : Nat) (s : State) :
    Host.Outcome State Fault Refusal :=
  .next (s.doAtomicOp kind bar2 wide off operand compare)

/-- `FUNCTION_LEVEL_RESET` -/
def execFunctionLevelReset (s : State) : Host.Outcome State Fault Refusal := .next (s.pcieReset true)

/-- `HOT_RESET` -/
def execHotReset (s : State) : Host.Outcome State Fault Refusal := .next (s.pcieReset false)

/-- `PCIE_LINK_DOWN` -/
def execPcieLinkDown (s : State) : Host.Outcome State Fault Refusal := .next (s.pcieReset false)

/-- `PCIE_PERST`: as a hot reset. -/
def execPciePerst (s : State) : Host.Outcome State Fault Refusal := .next (s.pcieReset false)

/-- `IRQ_HOLDOFF_EXPIRY` -/
def execIrqHoldoffExpiry (vec : Nat) (s : State) : Host.Outcome State Fault Refusal := .next (s.doIrqHoldoffExpiry vec)

/-- `MSIX_PENDING_SEND` -/
def execMsixPendingSend (vec : Nat) (s : State) : Host.Outcome State Fault Refusal := .next (s.doMsixPendingSend vec)

/-- `SPI_READ` -/
def execSpiRead (addr count : Nat) (crc : Byte) (ready : Bool) (s : State) : Host.Outcome State Fault Refusal :=
  .next (s.doSpiRead addr count crc ready)

/-- `SPI_WRITE` -/
def execSpiWrite (addr count : Nat) (data : List Word) (crc : Byte) (s : State) : Host.Outcome State Fault Refusal :=
  .next (s.doSpiWrite addr count data crc)

/-- `SPI_GUARDED_WRITE` -/
def execSpiGuardedWrite (addr : Nat) (v comp : Word) (crc : Byte) (s : State) : Host.Outcome State Fault Refusal :=
  .next (s.doSpiGuardedWrite addr v comp crc)

/-- `SPI_STATUS` -/
def execSpiStatus (s : State) : Host.Outcome State Fault Refusal := .next s.doSpiStatus

/-- `SPI_UNKNOWN_INSTRUCTION` -/
def execSpiUnknownInstruction (op : Byte) (s : State) : Host.Outcome State Fault Refusal := .next (s.doSpiUnknownInstruction op)

/-- `SPI_CS_CUT_SHORT` -/
def execSpiCsCutShort (s : State) : Host.Outcome State Fault Refusal := .next s.doSpiCsCutShort

/-- `PARITY_SCRUB` -/
def execParityScrub (off : Nat) (s : State) : Host.Outcome State Fault Refusal := .next (s.doParityScrub off).restartIfDue

/-- `EVQ_CONS_WRITE`: the event queue of host `q`. -/
def execEvqConsWrite (host tag q : Nat) (v : Word) (s : State) : Host.Outcome State Fault Refusal :=
  .next (s.hostPost host tag (Reg.evqCons q) v)

/-- `RX_RING_CONS_WRITE` -/
def execRxRingConsWrite (host tag ring : Nat) (v : Word) (s : State) : Host.Outcome State Fault Refusal :=
  .next (s.hostPost host tag (Reg.hifRxrCons ring) v)

/-- `TX_RING_PROD_WRITE` -/
def execTxRingProdWrite (host tag ring : Nat) (v : Word) (s : State) : Host.Outcome State Fault Refusal :=
  .next (s.hostPost host tag (Reg.hifTxrProd ring) v)

/-- `TX_RECORD_FETCH` -/
def execTxRecordFetch (ring : Nat) (hdr frame : List Byte) (s : State) : Host.Outcome State Fault Refusal :=
  .next (s.doTxRecordFetch ring hdr frame)

/-- `TSQ_CTRL_WRITE` -/
def execTsqCtrlWrite (host tag g : Nat) (v : Word) (s : State) : Host.Outcome State Fault Refusal :=
  .next (s.hostPost host tag (Reg.hifTsqCtrl g) v)

/-- `TSQ_CONS_WRITE` -/
def execTsqConsWrite (host tag g : Nat) (v : Word) (s : State) : Host.Outcome State Fault Refusal :=
  .next (s.hostPost host tag (Reg.hifTsqCons g) v)

/-- `EVQ_CONFIG` -/
def execEvqConfig (host queue : Nat) (s : State) : Host.Outcome State Fault Refusal :=
  .next (s.runCmd host queue 0x0110 State.evqConfig)

/-- `RING_CONFIG` -/
def execRingConfig (host queue : Nat) (s : State) : Host.Outcome State Fault Refusal :=
  .next (s.runCmd host queue 0x0111 State.ringConfig)

/-- `DEV_HEARTBEAT_TICK` -/
def execDevHeartbeatTick (s : State) : Host.Outcome State Fault Refusal := .next s.doDevHeartbeatTick

end Sys2Proof.Machine
end

