-- ==== Sys2Proof/Machine/Dispatch.lean ====
section
/-! DEFINITION.
The dispatch: one arm for each row of the opcode table. -/

namespace Sys2Proof.Machine

/-- The effect of a command on everything but the queue of waiting commands. -/
def exec (i : Instr) (s : State) : Host.Outcome State Fault Refusal :=
  match i with
  | .registerWrite w => Sys2Proof.Machine.execRegisterWrite w s
  | .guardedValueWrite host tag off v => Sys2Proof.Machine.execGuardedValueWrite host tag off v s
  | .guardedComplementWrite host tag off v => Sys2Proof.Machine.execGuardedComplementWrite host tag off v s
  | .guardWindowExpiry off => Sys2Proof.Machine.execGuardWindowExpiry off s
  | .bitAliasWrite host tag off bit v => Sys2Proof.Machine.execBitAliasWrite host tag off bit v s
  | .atomicOp kind bar2 wide off operand compare => Sys2Proof.Machine.execAtomicOp kind bar2 wide off operand compare s
  | .functionLevelReset => Sys2Proof.Machine.execFunctionLevelReset s
  | .hotReset => Sys2Proof.Machine.execHotReset s
  | .pcieLinkDown => Sys2Proof.Machine.execPcieLinkDown s
  | .pciePerst => Sys2Proof.Machine.execPciePerst s
  | .irqHoldoffExpiry vec => Sys2Proof.Machine.execIrqHoldoffExpiry vec s
  | .msixPendingSend vec => Sys2Proof.Machine.execMsixPendingSend vec s
  | .spiRead addr count crc ready => Sys2Proof.Machine.execSpiRead addr count crc ready s
  | .spiWrite addr count data crc => Sys2Proof.Machine.execSpiWrite addr count data crc s
  | .spiGuardedWrite addr v comp crc => Sys2Proof.Machine.execSpiGuardedWrite addr v comp crc s
  | .spiStatus => Sys2Proof.Machine.execSpiStatus s
  | .spiUnknownInstruction op => Sys2Proof.Machine.execSpiUnknownInstruction op s
  | .spiCsCutShort => Sys2Proof.Machine.execSpiCsCutShort s
  | .parityScrub off => Sys2Proof.Machine.execParityScrub off s
  | .evqConsWrite host tag q v => Sys2Proof.Machine.execEvqConsWrite host tag q v s
  | .rxRingDeliver ring => Sys2Proof.Machine.execRxRingDeliver ring s
  | .rxRingConsWrite host tag ring v => Sys2Proof.Machine.execRxRingConsWrite host tag ring v s
  | .txRingProdWrite host tag ring v => Sys2Proof.Machine.execTxRingProdWrite host tag ring v s
  | .txRecordFetch ring hdr frame => Sys2Proof.Machine.execTxRecordFetch ring hdr frame s
  | .tsqCtrlWrite host tag g v => Sys2Proof.Machine.execTsqCtrlWrite host tag g v s
  | .tsqConsWrite host tag g v => Sys2Proof.Machine.execTsqConsWrite host tag g v s
  | .evqConfig host queue => Sys2Proof.Machine.execEvqConfig host queue s
  | .ringConfig host queue => Sys2Proof.Machine.execRingConfig host queue s
  | .devHeartbeatTick => Sys2Proof.Machine.execDevHeartbeatTick s
  | .mbxDoorbell host tag q v => Sys2Proof.Machine.execMbxDoorbell host tag q v s
  | .slotTake host queue => Sys2Proof.Machine.execSlotTake host queue s
  | .mbxCqConsWrite host tag q v => Sys2Proof.Machine.execMbxCqConsWrite host tag q v s
  | .mbxQueueEnable host tag q irqEn => Sys2Proof.Machine.execMbxQueueEnable host tag q irqEn s
  | .mbxQueueDisable host tag q irqEn => Sys2Proof.Machine.execMbxQueueDisable host tag q irqEn s
  | .journalPersist index failures => Sys2Proof.Machine.execJournalPersist index failures s
  | .flashSectorEraseDone => Sys2Proof.Machine.execFlashSectorEraseDone s
  | .mirrorAck index => Sys2Proof.Machine.execMirrorAck index s
  | .mirrorAckTimeout index => Sys2Proof.Machine.execMirrorAckTimeout index s
  | .completionRelease host queue => Sys2Proof.Machine.execCompletionRelease host queue s
  | .devInfo host queue => Sys2Proof.Machine.execDevInfo host queue s
  | .devStateGet host queue => Sys2Proof.Machine.execDevStateGet host queue s
  | .hostResync host queue => Sys2Proof.Machine.execHostResync host queue s
  | .journalRead host queue => Sys2Proof.Machine.execJournalRead host queue s
  | .journalMark host queue => Sys2Proof.Machine.execJournalMark host queue s
  | .calLoad host queue dma partner => Sys2Proof.Machine.execCalLoad host queue dma partner s
  | .calAdmit host queue partner => Sys2Proof.Machine.execCalAdmit host queue partner s
  | .calActivateAt host queue partner => Sys2Proof.Machine.execCalActivateAt host queue partner s
  | .calAbort host queue partner => Sys2Proof.Machine.execCalAbort host queue partner s
  | .calStatus host queue => Sys2Proof.Machine.execCalStatus host queue s
  | .calLimpSelect host queue => Sys2Proof.Machine.execCalLimpSelect host queue s
  | .pipelineIssue pipe bePick => Sys2Proof.Machine.execPipelineIssue pipe bePick s
  | .hypercycleBoundary => Sys2Proof.Machine.execHypercycleBoundary s
  | .activationCommit => Sys2Proof.Machine.execActivationCommit s
  | .calTakeover => Sys2Proof.Machine.execCalTakeover s
  | .overlapEnd => Sys2Proof.Machine.execOverlapEnd s
  | .gateEntryStart port => Sys2Proof.Machine.execGateEntryStart port s
  | .macHoldAssert port => Sys2Proof.Machine.execMacHoldAssert port s
  | .edgeSlotOpen slot => Sys2Proof.Machine.execEdgeSlotOpen slot s
  | .edgeSlotEnd slot busIdleSeen => Sys2Proof.Machine.execEdgeSlotEnd slot busIdleSeen s
  | .routerJobRelease job => Sys2Proof.Machine.execRouterJobRelease job s
  | .tunnelWindowOpen win => Sys2Proof.Machine.execTunnelWindowOpen win s
  | .tunnelWindowClose win => Sys2Proof.Machine.execTunnelWindowClose win s
  | .streamDeadlineExpiry fid egress => Sys2Proof.Machine.execStreamDeadlineExpiry fid egress s
  | .fwdTxnBegin host queue => Sys2Proof.Machine.execFwdTxnBegin host queue s
  | .fwdEntryAdd host queue => Sys2Proof.Machine.execFwdEntryAdd host queue s
  | .fwdEntryDel host queue => Sys2Proof.Machine.execFwdEntryDel host queue s
  | .fwdTxnCommit host queue => Sys2Proof.Machine.execFwdTxnCommit host queue s
  | .fwdEpochDrain host queue => Sys2Proof.Machine.execFwdEpochDrain host queue s
  | .epochDrainComplete host queue => Sys2Proof.Machine.execEpochDrainComplete host queue s
  | .epochDrainTimeout host queue => Sys2Proof.Machine.execEpochDrainTimeout host queue s
  | .epochStorageReclaim => Sys2Proof.Machine.execEpochStorageReclaim s
  | .fwdLpmAdd host queue => Sys2Proof.Machine.execFwdLpmAdd host queue s
  | .fwdFlushPort host queue => Sys2Proof.Machine.execFwdFlushPort host queue s
  | .fwdAgeConfig host queue => Sys2Proof.Machine.execFwdAgeConfig host queue s
  | .learnEngineCommit => Sys2Proof.Machine.execLearnEngineCommit s
  | .relocationInvalidate => Sys2Proof.Machine.execRelocationInvalidate s
  | .ageingScan => Sys2Proof.Machine.execAgeingScan s
  | .connectionTimeoutScan => Sys2Proof.Machine.execConnectionTimeoutScan s
  | .frameArrival src head sec => Sys2Proof.Machine.execFrameArrival src head sec s
  | .frameLastByte src rest fin => Sys2Proof.Machine.execFrameLastByte src rest fin s
  | .macsecIcvVerdict src ok => Sys2Proof.Machine.execMacsecIcvVerdict src ok s
  | .verdictTimeout src => Sys2Proof.Machine.execVerdictTimeout src s
  | .egressSelect port => Sys2Proof.Machine.execEgressSelect port s
  | .egressCopyEnd port => Sys2Proof.Machine.execEgressCopyEnd port s
  | .spillFrame => Sys2Proof.Machine.execSpillFrame s
  | .drainBack queue => Sys2Proof.Machine.execDrainBack queue s
  | .drainReadComplete queue ok => Sys2Proof.Machine.execDrainReadComplete queue ok s
  | .schedPartitionApply => Sys2Proof.Machine.execSchedPartitionApply s
  | .ovfRegionApply => Sys2Proof.Machine.execOvfRegionApply s
  | .xoffRepeat port pri => Sys2Proof.Machine.execXoffRepeat port pri s
  | .pauseFrameReceived port kind => Sys2Proof.Machine.execPauseFrameReceived port kind s
  | .pauseExpiry port queue => Sys2Proof.Machine.execPauseExpiry port queue s
  | .portLinkDown port => Sys2Proof.Machine.execPortLinkDown port s
  | .portLinkUp port rateCode => Sys2Proof.Machine.execPortLinkUp port rateCode s
  | .drainHoldEnd port scheduled => Sys2Proof.Machine.execDrainHoldEnd port scheduled s
  | .slagAuditPass orphans badRefs => Sys2Proof.Machine.execSlagAuditPass orphans badRefs s
  | .fairnessAuditWindow => Sys2Proof.Machine.execFairnessAuditWindow s
  | .trfQueueConfig host queue => Sys2Proof.Machine.execTrfQueueConfig host queue s
  | .trfPolicerSet host queue => Sys2Proof.Machine.execTrfPolicerSet host queue s
  | .trfShaperSet host queue dma => Sys2Proof.Machine.execTrfShaperSet host queue dma s
  | .trfStreamFilter host queue dma => Sys2Proof.Machine.execTrfStreamFilter host queue dma s
  | .trfFrerConfig host queue => Sys2Proof.Machine.execTrfFrerConfig host queue s
  | .hostGclChange streamGate index => Sys2Proof.Machine.execHostGclChange streamGate index s
  | .streamGateEntry gate => Sys2Proof.Machine.execStreamGateEntry gate s
  | .preemptVerifyTimer port => Sys2Proof.Machine.execPreemptVerifyTimer port s
  | .frerResetTimeout fn => Sys2Proof.Machine.execFrerResetTimeout fn s
  | .frerLatentPeriod fn => Sys2Proof.Machine.execFrerLatentPeriod fn s
  | .canFrameReceived ch f ago => Sys2Proof.Machine.execCanFrameReceived ch f ago s
  | .canTxAttempt ch r => Sys2Proof.Machine.execCanTxAttempt ch r s
  | .canBusError ch code transmitting eight => Sys2Proof.Machine.execCanBusError ch code transmitting eight s
  | .busOffRecoverDelay ch => Sys2Proof.Machine.execBusOffRecoverDelay ch s
  | .busOffRecoveryDone ch => Sys2Proof.Machine.execBusOffRecoveryDone ch s
  | .edgCanConfig host queue dma => Sys2Proof.Machine.execEdgCanConfig host queue dma s
  | .edgLinConfig host queue dma => Sys2Proof.Machine.execEdgLinConfig host queue dma s
  | .edgT1sConfig host queue => Sys2Proof.Machine.execEdgT1sConfig host queue s
  | .edgXcvrMode host queue => Sys2Proof.Machine.execEdgXcvrMode host queue s
  | .edgBusOffRecover host queue => Sys2Proof.Machine.execEdgBusOffRecover host queue s
  | .configApplyAtIdle ch => Sys2Proof.Machine.execConfigApplyAtIdle ch s
  | .xcvrModeApply ch => Sys2Proof.Machine.execXcvrModeApply ch s
  | .xcvrModeForced ch => Sys2Proof.Machine.execXcvrModeForced ch s
  | .xcvrSettleEnd ch => Sys2Proof.Machine.execXcvrSettleEnd ch s
  | .linScheduleSlot ch => Sys2Proof.Machine.execLinScheduleSlot ch s
  | .linHeaderReceived ch id rate parityOk ago => Sys2Proof.Machine.execLinHeaderReceived ch id rate parityOk ago s
  | .linResponseEnd ch r data => Sys2Proof.Machine.execLinResponseEnd ch r data s
  | .linBusIdleTimeout ch => Sys2Proof.Machine.execLinBusIdleTimeout ch s
  | .linWakeDetect ch => Sys2Proof.Machine.execLinWakeDetect ch s
  | .plcaStatusChange m ok => Sys2Proof.Machine.execPlcaStatusChange m ok s
  | .t1sDupCoordinator m => Sys2Proof.Machine.execT1sDupCoordinator m s
  | .t1sCollision m => Sys2Proof.Machine.execT1sCollision m s
  | .tunEncapTake ch => Sys2Proof.Machine.execTunEncapTake ch s
  | .batchTimeout ch => Sys2Proof.Machine.execBatchTimeout ch s
  | .xPortInject x => Sys2Proof.Machine.execXPortInject x s
  | .tunDecapsulate x => Sys2Proof.Machine.execTunDecapsulate x s
  | .presentationHoldEnd ch => Sys2Proof.Machine.execPresentationHoldEnd ch s
  | .sigExtraction seq => Sys2Proof.Machine.execSigExtraction seq s
  | .sigJobRun seq => Sys2Proof.Machine.execSigJobRun seq s
  | .jobDeadlineMiss seq reached => Sys2Proof.Machine.execJobDeadlineMiss seq reached s
  | .mappingTimeout m => Sys2Proof.Machine.execMappingTimeout m s
  | .tunChannelSet host queue => Sys2Proof.Machine.execTunChannelSet host queue s
  | .sigMapLoad host queue dma => Sys2Proof.Machine.execSigMapLoad host queue dma s
  | .e2eContextSet host queue => Sys2Proof.Machine.execE2eContextSet host queue s
  | .secFwRule host queue dma => Sys2Proof.Machine.execSecFwRule host queue dma s
  | .portConfig host queue => Sys2Proof.Machine.execPortConfig host queue s
  | .scConfig host queue => Sys2Proof.Machine.execScConfig host queue s
  | .saInstall host queue => Sys2Proof.Machine.execSaInstall host queue s
  | .saDelete host queue => Sys2Proof.Machine.execSaDelete host queue s
  | .txSwitch host queue => Sys2Proof.Machine.execTxSwitch host queue s
  | .cipherDispatch => Sys2Proof.Machine.execCipherDispatch s
  | .cipherRequestComplete n => Sys2Proof.Machine.execCipherRequestComplete n s
  | .secFvWrite host tag v => Sys2Proof.Machine.execSecFvWrite host tag v s
  | .keyDerive host queue => Sys2Proof.Machine.execKeyDerive host queue s
  | .keyDeriveRebuild host queue => Sys2Proof.Machine.execKeyDeriveRebuild host queue s
  | .keyUnwrap host queue => Sys2Proof.Machine.execKeyUnwrap host queue s
  | .keyErase host queue => Sys2Proof.Machine.execKeyErase host queue s
  | .lcAdvance host queue readBack => Sys2Proof.Machine.execLcAdvance host queue readBack s
  | .keyAlarm sources ember => Sys2Proof.Machine.execKeyAlarm sources ember s
  | .timeDomainConfig host queue => Sys2Proof.Machine.execTimeDomainConfig host queue s
  | .timeAdjust host queue => Sys2Proof.Machine.execTimeAdjust host queue s
  | .timeJumpAccept host queue => Sys2Proof.Machine.execTimeJumpAccept host queue s
  | .timSnap host tag v => Sys2Proof.Machine.execTimSnap host tag v s
  | .ptpFrameReceived port domainNumber msg => Sys2Proof.Machine.execPtpFrameReceived port domainNumber msg s
  | .syncReceiptTimeout dom => Sys2Proof.Machine.execSyncReceiptTimeout dom s
  | .hostSourceTimeout dom => Sys2Proof.Machine.execHostSourceTimeout dom s
  | .ptpSyncTransmit dom port => Sys2Proof.Machine.execPtpSyncTransmit dom port s
  | .pwrStateRequest host queue => Sys2Proof.Machine.execPwrStateRequest host queue s
  | .nmConfig host queue dma => Sys2Proof.Machine.execNmConfig host queue dma s
  | .wakeSourceConfig host queue dma => Sys2Proof.Machine.execWakeSourceConfig host queue dma s
  | .nmAwakeLogRead host queue => Sys2Proof.Machine.execNmAwakeLogRead host queue s
  | .nmMessageReceived cluster payload => Sys2Proof.Machine.execNmMessageReceived cluster payload s
  | .nmRepeatTimeout => Sys2Proof.Machine.execNmRepeatTimeout s
  | .readySleepTimeout => Sys2Proof.Machine.execReadySleepTimeout s
  | .nmCommitPoint => Sys2Proof.Machine.execNmCommitPoint s
  | .sleepEntry restoreMib residentMib => Sys2Proof.Machine.execSleepEntry restoreMib residentMib s
  | .nmCycleTransmit => Sys2Proof.Machine.execNmCycleTransmit s
  | .stayAwakeDetect cluster node => Sys2Proof.Machine.execStayAwakeDetect cluster node s
  | .wakePin pin rising => Sys2Proof.Machine.execWakePin pin rising s
  | .canWakePattern ch => Sys2Proof.Machine.execCanWakePattern ch s
  | .swOscillatorStart ch => Sys2Proof.Machine.execSwOscillatorStart ch s
  | .selectiveWakeFrame ch f => Sys2Proof.Machine.execSelectiveWakeFrame ch f s
  | .swIdleTimeout => Sys2Proof.Machine.execSwIdleTimeout s
  | .linWake ch => Sys2Proof.Machine.execLinWake ch s
  | .wakeTimer => Sys2Proof.Machine.execWakeTimer s
  | .vbatRise above => Sys2Proof.Machine.execVbatRise above s
  | .vbatFall => Sys2Proof.Machine.execVbatFall s
  | .pwrGoodRise => Sys2Proof.Machine.execPwrGoodRise s
  | .forgeResetRelease sealOk => Sys2Proof.Machine.execForgeResetRelease sealOk s
  | .pgTimeout => Sys2Proof.Machine.execPgTimeout s
  | .pwrGoodFall => Sys2Proof.Machine.execPwrGoodFall s
  | .junctionOvertemp => Sys2Proof.Machine.execJunctionOvertemp s
  | .kindleTimeout => Sys2Proof.Machine.execKindleTimeout s
  | .kindleRetry => Sys2Proof.Machine.execKindleRetry s
  | .firmwareReady => Sys2Proof.Machine.execFirmwareReady s
  | .bankedDecay => Sys2Proof.Machine.execBankedDecay s
  | .emberDecay => Sys2Proof.Machine.execEmberDecay s
  | .residentVerifyDone ok => Sys2Proof.Machine.execResidentVerifyDone ok s
  | .dieLinkFailure => Sys2Proof.Machine.execDieLinkFailure s
  | .pairConfig host queue => Sys2Proof.Machine.execPairConfig host queue s
  | .pairRole host queue => Sys2Proof.Machine.execPairRole host queue s
  | .pairStatus host queue => Sys2Proof.Machine.execPairStatus host queue s
  | .tongsLinkUp => Sys2Proof.Machine.execTongsLinkUp s
  | .tongsLinkDown lane => Sys2Proof.Machine.execTongsLinkDown lane s
  | .helloUnitReceived h => Sys2Proof.Machine.execHelloUnitReceived h s
  | .helloTimeout => Sys2Proof.Machine.execHelloTimeout s
  | .keyingRetry => Sys2Proof.Machine.execKeyingRetry s
  | .mirrorMessageReceived m tagOk => Sys2Proof.Machine.execMirrorMessageReceived m tagOk s
  | .syncBlockReceived item => Sys2Proof.Machine.execSyncBlockReceived item s
  | .tongsHeartbeatSend => Sys2Proof.Machine.execTongsHeartbeatSend s
  | .backboneHeartbeatSend => Sys2Proof.Machine.execBackboneHeartbeatSend s
  | .heartbeatReceived h => Sys2Proof.Machine.execHeartbeatReceived h s
  | .partnerLoss => Sys2Proof.Machine.execPartnerLoss s
  | .voteReceived v => Sys2Proof.Machine.execVoteReceived v s
  | .clashComparison => Sys2Proof.Machine.execClashComparison s
  | .faultReport domain source => Sys2Proof.Machine.execFaultReport domain source s
  | .recoveryStart domain => Sys2Proof.Machine.execRecoveryStart domain s
  | .recoveryDone domain ok => Sys2Proof.Machine.execRecoveryDone domain ok s
  | .recoveryBudgetExpiry domain => Sys2Proof.Machine.execRecoveryBudgetExpiry domain s
  | .probationEnd domain => Sys2Proof.Machine.execProbationEnd domain s
  | .correctableEcc => Sys2Proof.Machine.execCorrectableEcc s
  | .fenceStatus host queue => Sys2Proof.Machine.execFenceStatus host queue s
  | .fenceRelease host queue => Sys2Proof.Machine.execFenceRelease host queue s
  | .captureStart host queue => Sys2Proof.Machine.execCaptureStart host queue s
  | .autoConfirmTimeout stepsFail revokeFail => Sys2Proof.Machine.execAutoConfirmTimeout stepsFail revokeFail s
  | .svcHello nonce broadcast => Sys2Proof.Machine.execSvcHello nonce broadcast s
  | .svcProof session body => Sys2Proof.Machine.execSvcProof session body s
  | .svcData session seq encrypted body tag => Sys2Proof.Machine.execSvcData session seq encrypted body tag s
  | .svcCommand session seq body tag => Sys2Proof.Machine.execSvcCommand session seq body tag s
  | .svcClose session seq tag => Sys2Proof.Machine.execSvcClose session seq tag s
  | .svcSessionTimeout => Sys2Proof.Machine.execSvcSessionTimeout s
  | .svcLockoutEnd => Sys2Proof.Machine.execSvcLockoutEnd s
  | .updSessionOpen host queue flashOk => Sys2Proof.Machine.execUpdSessionOpen host queue flashOk s
  | .updBlock host queue flashOk => Sys2Proof.Machine.execUpdBlock host queue flashOk s
  | .updVerify host queue => Sys2Proof.Machine.execUpdVerify host queue s
  | .updActivate host queue stepsFail revokeFail => Sys2Proof.Machine.execUpdActivate host queue stepsFail revokeFail s
  | .alarmDeasserted sources => Sys2Proof.Machine.execAlarmDeasserted sources s
  | .slewEnd dom => Sys2Proof.Machine.execSlewEnd dom s
  | .preemptVerifyResponse port => Sys2Proof.Machine.execPreemptVerifyResponse port s
  | .swDecodeError ch error => Sys2Proof.Machine.execSwDecodeError ch error s
  | .minimumOffTimeEnd => Sys2Proof.Machine.execMinimumOffTimeEnd s
  | .nodeRecordAged cluster node => Sys2Proof.Machine.execNodeRecordAged cluster node s
  | .vbatAboveOperatingMin => Sys2Proof.Machine.execVbatAboveOperatingMin s
  | .voteDisagreement off => Sys2Proof.Machine.execVoteDisagreement off s
  | .protocolExceptionEnd ch => Sys2Proof.Machine.execProtocolExceptionEnd ch s

end Sys2Proof.Machine
end

