-- ==== Sys2Proof/Machine/Step.lean ====
section
/-! DEFINITION.
One step of the block: the command at the front of the queue, or one tick of the time
counter while nothing waits. -/

namespace Sys2Proof.Machine

/-- Run the command at the front of the queue on the state with the queue's rest. -/
def step (s : State) : Host.Outcome State Fault Refusal :=
  match s.pending with
  | [] => .next s.idle
  | c :: rest => exec c { s with pending := rest }

/-- A state with the command that a table word spells put at the front of its queue. -/
def State.withFetchWord (s : State) (nbits w : Nat) : State :=
  match decodeTableWord nbits w with
  | none => s
  | some c => { s with pending := c :: s.pending }

end Sys2Proof.Machine
end

