-- ==== Sys2Proof/Machine/Operands.lean ====
section
/-! DEFINITION.
The operands of a mailbox row: the command that it runs, and when that command executes
normally. A mailbox row names a host and a queue; its other operands stand in the body of the
oldest command of that queue (R84, R91). -/

namespace Sys2Proof.Machine

namespace State

/-- A host, a queue and the queue's next command `c`, of opcode `op`, which nothing keeps from
executing: it may begin (R93, R102, R106), its IF_EPOCH holds (R92), and a class C command finds
the flash journal writable (R120). -/
structure Ready (s : State) (host q op : Nat) (c : Cmd) : Prop where
  head : s.headCmd host q = some c
  opcode : c.opcode = op
  begins : s.mayBegin c = true
  epoch : c.ifEpoch = true → (s.rget Reg.mbxCfgEpoch).toNat = c.expectEpoch
  flash : isClassC op = true → s.flashOk = true

/-- The body of a command from its fields, each a width in bytes and a value. -/
def body (fields : List (Nat × Nat)) : List Byte := fields.flatMap fun x => leBytes x.1 x.2

end State

/-- The rows that execute the next command of a queue whatever its body holds: the host, the queue and the
opcode (R126). `SEC_MACSEC_SA` and `KEY_DERIVE` have several rows each, told apart by their bodies. -/
def mailboxRow (i : Instr) : Option (Nat × Nat × Nat) :=
  match i with
  | .evqConfig h q => some (h, q, 0x0110)
  | .ringConfig h q => some (h, q, 0x0111)
  | .devInfo h q => some (h, q, 0x0100)
  | .devStateGet h q => some (h, q, 0x0101)
  | .hostResync h q => some (h, q, 0x0102)
  | .journalRead h q => some (h, q, 0x0103)
  | .journalMark h q => some (h, q, 0x0104)
  | .calLoad h q _ _ => some (h, q, 0x0200)
  | .calAdmit h q _ => some (h, q, 0x0201)
  | .calActivateAt h q _ => some (h, q, 0x0202)
  | .calAbort h q _ => some (h, q, 0x0203)
  | .calStatus h q => some (h, q, 0x0204)
  | .calLimpSelect h q => some (h, q, 0x0205)
  | .fwdTxnBegin h q => some (h, q, 0x0300)
  | .fwdEntryAdd h q => some (h, q, 0x0301)
  | .fwdEntryDel h q => some (h, q, 0x0302)
  | .fwdTxnCommit h q => some (h, q, 0x0303)
  | .fwdEpochDrain h q => some (h, q, 0x0304)
  | .fwdLpmAdd h q => some (h, q, 0x0305)
  | .fwdFlushPort h q => some (h, q, 0x0306)
  | .fwdAgeConfig h q => some (h, q, 0x0307)
  | .trfQueueConfig h q => some (h, q, 0x0400)
  | .trfPolicerSet h q => some (h, q, 0x0401)
  | .trfShaperSet h q _ => some (h, q, 0x0402)
  | .trfStreamFilter h q _ => some (h, q, 0x0403)
  | .trfFrerConfig h q => some (h, q, 0x0404)
  | .edgCanConfig h q _ => some (h, q, 0x0500)
  | .edgLinConfig h q _ => some (h, q, 0x0501)
  | .edgT1sConfig h q => some (h, q, 0x0502)
  | .edgXcvrMode h q => some (h, q, 0x0503)
  | .edgBusOffRecover h q => some (h, q, 0x0504)
  | .tunChannelSet h q => some (h, q, 0x0600)
  | .sigMapLoad h q _ => some (h, q, 0x0601)
  | .e2eContextSet h q => some (h, q, 0x0602)
  | .secFwRule h q _ => some (h, q, 0x0700)
  | .keyUnwrap h q => some (h, q, 0x0703)
  | .keyErase h q => some (h, q, 0x0704)
  | .lcAdvance h q _ => some (h, q, 0x0705)
  | .timeDomainConfig h q => some (h, q, 0x0800)
  | .timeAdjust h q => some (h, q, 0x0801)
  | .timeJumpAccept h q => some (h, q, 0x0802)
  | .pwrStateRequest h q => some (h, q, 0x0900)
  | .nmConfig h q _ => some (h, q, 0x0901)
  | .wakeSourceConfig h q _ => some (h, q, 0x0902)
  | .nmAwakeLogRead h q => some (h, q, 0x0903)
  | .pairConfig h q => some (h, q, 0x0A00)
  | .pairRole h q => some (h, q, 0x0A01)
  | .pairStatus h q => some (h, q, 0x0A02)
  | .fenceStatus h q => some (h, q, 0x0B00)
  | .fenceRelease h q => some (h, q, 0x0B01)
  | .captureStart h q => some (h, q, 0x0B02)
  | .updSessionOpen h q _ => some (h, q, 0x0C00)
  | .updBlock h q _ => some (h, q, 0x0C01)
  | .updVerify h q => some (h, q, 0x0C02)
  | .updActivate h q _ _ => some (h, q, 0x0C03)
  | _ => none

end Sys2Proof.Machine
end

