-- ==== Sys2Proof/WellFormed.lean ====
section
/-! DEFINITION.
Which commands are well formed: operands inside the ranges that the spec gives the thing they
name. The meanings are total and do not rest on these checks. -/

namespace Sys2Proof

/-! ### Ranges -/

/-- A host and its TAG: a Requester ID or a transaction number (R61). -/
def hostTag (host tag : Nat) : Bool := decide (host < 2) && decide (tag < 2 ^ 16)

/-- The offset of a direct register (R49). -/
def regOff (off : Nat) : Bool := decide (off < 0x80000) && decide (off % 4 = 0)

/-- A host and one of its command queues (R84): eight of the main host, two of the safety host,
and the service queue. -/
def slotRef (host queue : Nat) : Bool :=
  match host with
  | 0 => decide (queue < 8)
  | 1 => decide (queue < 2)
  | 2 => decide (queue = 0)
  | _ => false

/-- A status code (R110). -/
def statusOk (status : Nat) : Bool := decide (status < 2 ^ 16)

/-- Bytes that one command reads from host memory. -/
def dmaOk (dma : List Byte) : Bool := decide (dma.length ≤ 2 ^ 16)

/-- A port with an egress lane in the coding of R67: a fabric port, the Tongs link, X0, X1, or
H0 as 67. -/
def egressPort (port : Nat) : Bool := decide (port ≤ 67)

/-- A source of frames: a fabric port, the Tongs link, X0, X1 or H0. -/
def source (src : Nat) : Bool := decide (src ≤ 67)

/-- A CAN channel, a LIN channel, and a channel of either kind with LIN from 64 (R313). -/
def canCh (ch : Nat) : Bool := decide (ch < 64)
def linCh (ch : Nat) : Bool := decide (ch < 32)
def busCh (ch : Nat) : Bool := decide (ch < 96)

/-- Fields of a SecTAG (R396). -/
def SecTag.wf (t : SecTag) : Bool :=
  decide (t.sci < 2 ^ 64) && decide (t.an < 4) && decide (t.pn < 2 ^ 64) && decide (t.extra ≤ 32)

/-- A posted write (R37): an aligned offset of its BAR, and four byte enables. -/
def PostedWrite.wf : PostedWrite → Bool
  | .bar0 tag off _ be => decide (tag < 2 ^ 16) && decide (off < 2 ^ 26) && decide (off % 4 = 0) && decide (be < 16)
  | .bar0Pair tag off _ _ be =>
    decide (tag < 2 ^ 16) && decide (off + 4 < 2 ^ 26) && decide (off % 4 = 0) && decide (be < 256)
  | .bar4 off _ be => decide (off < 2 ^ 16) && decide (off % 4 = 0) && decide (be < 16)
  | .sizes payload readRequest =>
    [128, 256, 512, 1024, 2048, 4096].contains payload && [128, 256, 512, 1024, 2048, 4096].contains readRequest
  | .bar2 tag off _ be => decide (tag < 2 ^ 16) && decide (off < 2 ^ 24) && decide (off % 4 = 0) && decide (be < 16)
  | .msixEntry vec addr _ _ => decide (vec < 256) && decide (addr < 2 ^ 64)
  | .config _ _ _ => true

/-- A pause frame (R263, R265): quanta of 16 bits, and eight of them for PFC. -/
def PauseKind.wf : PauseKind → Bool
  | .pause q => decide (q < 2 ^ 16)
  | .pfc en qs => decide (en < 256) && decide (qs.length = 8) && qs.all fun q => decide (q < 2 ^ 16)

/-- A CAN frame (R314): an identifier of its format, and no more data than its format carries. -/
def CanFrame.wf (f : CanFrame) : Bool :=
  decide (f.id < if f.ext then 2 ^ 29 else 2 ^ 11) && decide (f.dlc < 16) && decide (f.sdt < 256) &&
    decide (f.vcid < 256) && decide (f.af < 2 ^ 32) &&
    match f.format with
    | .classicData => decide (f.data.length ≤ 8)
    | .classicRemote => f.data.isEmpty
    | .fd => [0, 1, 2, 3, 4, 5, 6, 7, 8, 12, 16, 20, 24, 32, 48, 64].contains f.data.length
    | .xl => !f.ext && decide (1 ≤ f.data.length) && decide (f.data.length ≤ 2048)

/-- The error codes of R329. -/
def CanTxResult.wf : CanTxResult → Bool
  | .error code _ => decide (code < 8)
  | _ => true

/-- A mirror message (R500): a journal entry has 128 bytes. -/
def MirrorMsg.wf : MirrorMsg → Bool
  | .journal b => decide (b.length = 128)
  | .freshness e l => decide (e < 1024) && decide (l < 2 ^ 64)
  | .recovery f _ => decide (f < 2048)
  | .generation f n => decide (f < 1024) && decide (n < 2 ^ 16)
  | .nm st _ _ => decide (st < 8)
  | .journalGap n => decide (n < 2 ^ 32)
  | .calendar op b img => decide (0x200 ≤ op) && decide (op ≤ 0x203) && decide (b.length ≤ 224) && decide (img.length ≤ 2 ^ 23)

/-- A sync block (R512). -/
def SyncItem.wf : SyncItem → Bool
  | .handle h st _ img => decide (h < 4) && decide (st < 6) && decide (img.length ≤ 2 ^ 23)
  | .mirror m => m.wf
  | .finish _ => true
  | .request => true

/-- A heartbeat (R503). -/
def Heartbeat.wf (h : Heartbeat) : Bool :=
  decide (h.role < 4) && decide (h.forgeId < 2 ^ 32) && decide (h.count < 2 ^ 32) && decide (h.nmState < 8) &&
    decide (h.offsets.length ≤ 4)

/-- A hello unit (R497). -/
def Hello.wf (h : Hello) : Bool :=
  decide (h.forgeId < 2 ^ 32) && decide (h.claims < 4) && decide (h.fwVersion < 2 ^ 32) && decide (h.nonce < 2 ^ 64)

/-- A vote frame (R509). -/
def Vote.wf (v : Vote) : Bool :=
  decide (v.zone < 8) && decide (v.id0 < 2 ^ 32) && decide (v.role0 < 4) && decide (v.id1 < 2 ^ 32) && decide (v.role1 < 4)

/-- Well-formed commands. -/
def Instr.wf (i : Instr) : Bool :=
  match i with
  | .registerWrite w => w.wf
  | .guardedValueWrite host tag off _ => hostTag host tag && regOff off
  | .guardedComplementWrite host tag off _ => hostTag host tag && regOff off
  | .guardWindowExpiry off => regOff off
  | .bitAliasWrite host tag off bit _ => hostTag host tag && regOff off && decide (bit < 32)
  | .atomicOp _ _ _ off operand compare => decide (off < 2 ^ 26) && decide (operand < 2 ^ 64) && decide (compare < 2 ^ 64)
  | .functionLevelReset => true
  | .hotReset => true
  | .pcieLinkDown => true
  | .pciePerst => true
  | .irqHoldoffExpiry vec => decide (vec < 256)
  | .msixPendingSend vec => decide (vec < 256)
  | .spiRead addr count _ _ => decide (addr < 2 ^ 32) && decide (count < 256)
  | .spiWrite addr count data _ => decide (addr < 2 ^ 32) && decide (count < 256) && decide (data.length ≤ count + 1)
  | .spiGuardedWrite addr _ _ _ => decide (addr < 2 ^ 32)
  | .spiStatus => true
  | .spiUnknownInstruction op => !(op == 0x0B || op == 0x02 || op == 0x12 || op == 0x05)
  | .spiCsCutShort => true
  | .parityScrub off => regOff off
  | .evqConsWrite host tag q _ => hostTag host tag && decide (q < 2)
  | .rxRingDeliver ring => decide (ring < 32)
  | .rxRingConsWrite host tag ring _ => hostTag host tag && decide (ring < 32)
  | .txRingProdWrite host tag ring _ => hostTag host tag && decide (ring < 32)
  | .txRecordFetch ring hdr frame => decide (ring < 32) && decide (hdr.length = 8) && decide (frame.length < 2 ^ 16)
  | .tsqCtrlWrite host tag g _ => hostTag host tag && decide (g < 4)
  | .tsqConsWrite host tag g _ => hostTag host tag && decide (g < 4)
  | .evqConfig host queue => slotRef host queue
  | .ringConfig host queue => slotRef host queue
  | .devHeartbeatTick => true
  | .mbxDoorbell host tag q _ => hostTag host tag && slotRef host q
  | .slotTake host queue => slotRef host queue
  | .mbxCqConsWrite host tag q _ => hostTag host tag && slotRef host q
  | .mbxQueueEnable host tag q _ => hostTag host tag && slotRef host q
  | .mbxQueueDisable host tag q _ => hostTag host tag && slotRef host q
  | .journalPersist index failures => decide (index < 2 ^ 32) && decide (failures ≤ 3)
  | .flashSectorEraseDone => true
  | .mirrorAck index => decide (index < 2 ^ 32)
  | .mirrorAckTimeout index => decide (index < 2 ^ 32)
  | .completionRelease host queue => slotRef host queue
  | .devInfo host queue => slotRef host queue
  | .devStateGet host queue => slotRef host queue
  | .hostResync host queue => slotRef host queue
  | .journalRead host queue => slotRef host queue
  | .journalMark host queue => slotRef host queue
  | .calLoad host queue dma partner => slotRef host queue && statusOk partner && decide (dma.length ≤ 2 ^ 18)
  | .calAdmit host queue partner => slotRef host queue && statusOk partner
  | .calActivateAt host queue partner => slotRef host queue && statusOk partner
  | .calAbort host queue partner => slotRef host queue && statusOk partner
  | .calStatus host queue => slotRef host queue
  | .calLimpSelect host queue => slotRef host queue
  | .pipelineIssue pipe bePick => decide (pipe < 2) && source bePick
  | .hypercycleBoundary => true
  | .activationCommit => true
  | .calTakeover => true
  | .overlapEnd => true
  | .gateEntryStart port => egressPort port
  | .macHoldAssert port => egressPort port
  | .edgeSlotOpen slot => decide (slot < 8192)
  | .edgeSlotEnd slot _ => decide (slot < 8192)
  | .routerJobRelease job => decide (job < 4096)
  | .tunnelWindowOpen win => decide (win < 4096)
  | .tunnelWindowClose win => decide (win < 4096)
  | .streamDeadlineExpiry _ egress => egressPort egress
  | .fwdTxnBegin host queue => slotRef host queue
  | .fwdEntryAdd host queue => slotRef host queue
  | .fwdEntryDel host queue => slotRef host queue
  | .fwdTxnCommit host queue => slotRef host queue
  | .fwdEpochDrain host queue => slotRef host queue
  | .epochDrainComplete host queue => slotRef host queue
  | .epochDrainTimeout host queue => slotRef host queue
  | .epochStorageReclaim => true
  | .fwdLpmAdd host queue => slotRef host queue
  | .fwdFlushPort host queue => slotRef host queue
  | .fwdAgeConfig host queue => slotRef host queue
  | .learnEngineCommit => true
  | .relocationInvalidate => true
  | .ageingScan => true
  | .connectionTimeoutScan => true
  | .frameArrival src head sec => source src && decide (14 ≤ head.length) && decide (head.length ≤ 512) && sec.all SecTag.wf
  | .frameLastByte src rest _ => source src && decide (rest.length < 2 ^ 16)
  | .macsecIcvVerdict src _ => source src
  | .verdictTimeout src => source src
  | .egressSelect port => egressPort port
  | .egressCopyEnd port => egressPort port
  | .spillFrame => true
  | .drainBack queue => decide (queue < 520)
  | .drainReadComplete queue _ => decide (queue < 520)
  | .schedPartitionApply => true
  | .ovfRegionApply => true
  | .xoffRepeat port pri => decide (port < 64) && decide (pri ≤ 8)
  | .pauseFrameReceived port kind => decide (port < 64) && kind.wf
  | .pauseExpiry port queue => decide (port < 64) && decide (queue < 8)
  | .portLinkDown port => decide (port ≤ 64)
  | .portLinkUp port rateCode => decide (port ≤ 64) && decide (rateCode < 8)
  | .drainHoldEnd port _ => decide (port ≤ 64)
  | .slagAuditPass orphans badRefs => orphans.all (fun c => decide (c < 2 ^ 32)) && badRefs.all fun c => decide (c < 2 ^ 32)
  | .fairnessAuditWindow => true
  | .trfQueueConfig host queue => slotRef host queue
  | .trfPolicerSet host queue => slotRef host queue
  | .trfShaperSet host queue dma => slotRef host queue && dmaOk dma
  | .trfStreamFilter host queue dma => slotRef host queue && dmaOk dma
  | .trfFrerConfig host queue => slotRef host queue
  | .hostGclChange streamGate index => decide (index < if streamGate then 1024 else 65)
  | .streamGateEntry gate => decide (gate < 1024)
  | .preemptVerifyTimer port => egressPort port
  | .frerResetTimeout fn => decide (fn < 2048)
  | .frerLatentPeriod fn => decide (fn < 2048)
  | .canFrameReceived ch f _ => canCh ch && f.wf
  | .canTxAttempt ch r => canCh ch && r.wf
  | .canBusError ch code _ _ => canCh ch && decide (code < 8)
  | .busOffRecoverDelay ch => canCh ch
  | .busOffRecoveryDone ch => canCh ch
  | .edgCanConfig host queue dma => slotRef host queue && dmaOk dma
  | .edgLinConfig host queue dma => slotRef host queue && dmaOk dma
  | .edgT1sConfig host queue => slotRef host queue
  | .edgXcvrMode host queue => slotRef host queue
  | .edgBusOffRecover host queue => slotRef host queue
  | .configApplyAtIdle ch => decide (ch < 112)
  | .xcvrModeApply ch => busCh ch
  | .xcvrModeForced ch => busCh ch
  | .xcvrSettleEnd ch => canCh ch
  | .linScheduleSlot ch => linCh ch
  | .linHeaderReceived ch id _ _ _ => linCh ch && decide (id < 64)
  | .linResponseEnd ch _ data => linCh ch && decide (data.length ≤ 8)
  | .linBusIdleTimeout ch => linCh ch
  | .linWakeDetect ch => linCh ch
  | .plcaStatusChange m _ => decide (m < 16)
  | .t1sDupCoordinator m => decide (m < 16)
  | .t1sCollision m => decide (m < 16)
  | .tunEncapTake ch => decide (ch < 512)
  | .batchTimeout ch => decide (ch < 512)
  | .xPortInject x => decide (x < 2)
  | .tunDecapsulate x => decide (x < 2)
  | .presentationHoldEnd ch => decide (ch < 512)
  | .sigExtraction seq => decide (seq < 4)
  | .sigJobRun seq => decide (seq < 4)
  | .jobDeadlineMiss seq _ => decide (seq < 4)
  | .mappingTimeout m => decide (m < 16384)
  | .tunChannelSet host queue => slotRef host queue
  | .sigMapLoad host queue dma => slotRef host queue && dmaOk dma
  | .e2eContextSet host queue => slotRef host queue
  | .secFwRule host queue dma => slotRef host queue && dmaOk dma
  | .portConfig host queue => slotRef host queue
  | .scConfig host queue => slotRef host queue
  | .saInstall host queue => slotRef host queue
  | .saDelete host queue => slotRef host queue
  | .txSwitch host queue => slotRef host queue
  | .cipherDispatch => true
  | .cipherRequestComplete n => decide (n < 256)
  | .secFvWrite host tag _ => hostTag host tag
  | .keyDerive host queue => slotRef host queue
  | .keyDeriveRebuild host queue => slotRef host queue
  | .keyUnwrap host queue => slotRef host queue
  | .keyErase host queue => slotRef host queue
  | .lcAdvance host queue readBack => slotRef host queue && readBack.all fun v => decide (v < 5)
  | .keyAlarm sources _ => decide (sources < 16)
  | .timeDomainConfig host queue => slotRef host queue
  | .timeAdjust host queue => slotRef host queue
  | .timeJumpAccept host queue => slotRef host queue
  | .timSnap host tag _ => hostTag host tag
  | .ptpFrameReceived port domainNumber _ => decide (port < 64) && decide (domainNumber < 256)
  | .syncReceiptTimeout dom => decide (dom < 4)
  | .hostSourceTimeout dom => decide (dom < 4)
  | .ptpSyncTransmit dom port => decide (dom < 4) && decide (port < 64)
  | .pwrStateRequest host queue => slotRef host queue
  | .nmConfig host queue dma => slotRef host queue && dmaOk dma
  | .wakeSourceConfig host queue dma => slotRef host queue && dmaOk dma
  | .nmAwakeLogRead host queue => slotRef host queue
  | .nmMessageReceived cluster payload => decide (cluster < 68) && decide (payload.length ≤ 64)
  | .nmRepeatTimeout => true
  | .readySleepTimeout => true
  | .nmCommitPoint => true
  | .sleepEntry restoreMib residentMib => decide (restoreMib < 2 ^ 16) && decide (residentMib < 2 ^ 16)
  | .nmCycleTransmit => true
  | .stayAwakeDetect cluster node => decide (cluster < 68) && decide (node < 256)
  | .wakePin pin _ => decide (pin < 8)
  | .canWakePattern ch => canCh ch
  | .swOscillatorStart ch => canCh ch
  | .selectiveWakeFrame ch f => canCh ch && f.wf
  | .swIdleTimeout => true
  | .linWake ch => linCh ch
  | .wakeTimer => true
  | .vbatRise _ => true
  | .vbatFall => true
  | .pwrGoodRise => true
  | .forgeResetRelease _ => true
  | .pgTimeout => true
  | .pwrGoodFall => true
  | .junctionOvertemp => true
  | .kindleTimeout => true
  | .kindleRetry => true
  | .firmwareReady => true
  | .bankedDecay => true
  | .emberDecay => true
  | .residentVerifyDone _ => true
  | .dieLinkFailure => true
  | .pairConfig host queue => slotRef host queue
  | .pairRole host queue => slotRef host queue
  | .pairStatus host queue => slotRef host queue
  | .tongsLinkUp => true
  | .tongsLinkDown lane => decide (lane < 4)
  | .helloUnitReceived h => h.wf
  | .helloTimeout => true
  | .keyingRetry => true
  | .mirrorMessageReceived m _ => m.wf
  | .syncBlockReceived item => item.wf
  | .tongsHeartbeatSend => true
  | .backboneHeartbeatSend => true
  | .heartbeatReceived h => h.wf
  | .partnerLoss => true
  | .voteReceived v => v.wf
  | .clashComparison => true
  | .faultReport domain source => decide (domain < 0x7000) && decide (source < 256)
  | .recoveryStart domain => decide (domain < 0x7000)
  | .recoveryDone domain _ => decide (domain < 0x7000)
  | .recoveryBudgetExpiry domain => decide (domain < 0x7000)
  | .probationEnd domain => decide (domain < 0x7000)
  | .correctableEcc => true
  | .fenceStatus host queue => slotRef host queue
  | .fenceRelease host queue => slotRef host queue
  | .captureStart host queue => slotRef host queue
  | .autoConfirmTimeout stepsFail revokeFail => decide (stepsFail < 2 ^ 16) && decide (revokeFail < 16)
  | .svcHello nonce _ => decide (nonce.length = 16)
  | .svcProof session _ => decide (session < 2 ^ 32)
  | .svcData session seq _ _ _ => decide (session < 2 ^ 32) && decide (seq < 2 ^ 32)
  | .svcCommand session seq _ _ => decide (session < 2 ^ 32) && decide (seq < 2 ^ 32)
  | .svcClose session seq _ => decide (session < 2 ^ 32) && decide (seq < 2 ^ 32)
  | .svcSessionTimeout => true
  | .svcLockoutEnd => true
  | .updSessionOpen host queue _ => slotRef host queue
  | .updBlock host queue _ => slotRef host queue
  | .updVerify host queue => slotRef host queue
  | .updActivate host queue stepsFail revokeFail => slotRef host queue && decide (stepsFail < 2 ^ 16) && decide (revokeFail < 16)
  | .alarmDeasserted sources => decide (sources < 16)
  | .slewEnd dom => decide (dom < 4)
  | .preemptVerifyResponse port => egressPort port
  | .swDecodeError ch _ => canCh ch
  | .minimumOffTimeEnd => true
  | .nodeRecordAged cluster node => decide (cluster < 68) && decide (node < 256)
  | .vbatAboveOperatingMin => true
  | .voteDisagreement off => regOff off
  | .protocolExceptionEnd ch => canCh ch

end Sys2Proof
end

