-- ==== Sys2Proof/Safety.lean ====
section
/-! DEFINITION.
What holds of every state of a run: the register store and the device-side memory stand in
their one canonical form, so that equal machines are equal data. -/

namespace Sys2Proof.Machine

/-- The keys of a table rise strictly. -/
def Tbl.rising {α : Type} : List (Nat × α) → Bool
  | [] => true
  | [_] => true
  | a :: b :: t => decide (a.1 < b.1) && Tbl.rising (b :: t)

/-- Device-side memory in its canonical form: addresses rise strictly, and no entry equals what
an unlisted address reads as. -/
def Memory.wf (m : List Host.Cell) : Bool := Tbl.rising m && m.all fun c => c.2 != 0

/-- The register store in its canonical form: offsets rise strictly, and no entry equals the
reset value of its register. -/
def Registers.wf (r : List (Nat × Word)) : Bool := Tbl.rising r && r.all fun x => x.2 != regReset x.1

/-- Memory and register store are in canonical form. -/
def State.Canonical (s : State) : Prop := Memory.wf s.mem = true ∧ Registers.wf s.regs = true


/-! ### Frames -/

/-! The groups of the state, one bit each. -/
namespace Group

abbrev regs : Nat := 0x1
abbrev mem : Nat := 0x2
abbrev clk : Nat := 0x4
abbrev hif : Nat := 0x8
abbrev mbx : Nat := 0x10
abbrev cal : Nat := 0x20
abbrev fwd : Nat := 0x40
abbrev fr : Nat := 0x80
abbrev buf : Nat := 0x100
abbrev trf : Nat := 0x200
abbrev edg : Nat := 0x400
abbrev tun : Nat := 0x800
abbrev sig : Nat := 0x1000
abbrev e2e : Nat := 0x2000
abbrev sec : Nat := 0x4000
abbrev key : Nat := 0x8000
abbrev dom : Nat := 0x10000
abbrev pwr : Nat := 0x20000
abbrev nm : Nat := 0x40000
abbrev pair : Nat := 0x80000
abbrev fnc : Nat := 0x100000
abbrev boot : Nat := 0x200000

/-- What a counter, an event or an interrupt may touch. -/
abbrev seen : Nat := regs ||| mem ||| hif
/-- What a mailbox command touches besides its own effect: its record, journal, completion, and the end of
an update that its completion may bring. -/
abbrev cmd : Nat := seen ||| mbx ||| boot
abbrev all : Nat := 0x3FFFFF

end Group

/-- `t` is what `s` becomes when no more than the groups in `m` change. Whatever is in `m`, the queue of
waiting commands stays, outputs are only added, and the canonical form is kept. -/
structure Only (m : Nat) (s t : State) : Prop where
  regs : m.testBit 0 = false → t.regs = s.regs
  mem : m.testBit 1 = false → t.mem = s.mem
  clk : m.testBit 2 = false → t.clk = s.clk
  hif : m.testBit 3 = false → t.hif = s.hif
  mbx : m.testBit 4 = false → t.mbx = s.mbx
  cal : m.testBit 5 = false → t.cal = s.cal
  fwd : m.testBit 6 = false → t.fwd = s.fwd
  fr : m.testBit 7 = false → t.fr = s.fr
  buf : m.testBit 8 = false → t.buf = s.buf
  trf : m.testBit 9 = false → t.trf = s.trf
  edg : m.testBit 10 = false → t.edg = s.edg
  tun : m.testBit 11 = false → t.tun = s.tun
  sig : m.testBit 12 = false → t.sig = s.sig
  e2e : m.testBit 13 = false → t.e2e = s.e2e
  sec : m.testBit 14 = false → t.sec = s.sec
  key : m.testBit 15 = false → t.key = s.key
  dom : m.testBit 16 = false → t.dom = s.dom
  pwr : m.testBit 17 = false → t.pwr = s.pwr
  nm : m.testBit 18 = false → t.nm = s.nm
  pair : m.testBit 19 = false → t.pair = s.pair
  fnc : m.testBit 20 = false → t.fnc = s.fnc
  boot : m.testBit 21 = false → t.boot = s.boot
  pending : t.pending = s.pending
  out : s.out <+: t.out
  free : s.freeCtr ≤ t.freeCtr
  canonical : s.Canonical → t.Canonical

/-- Host software reaches the registers: the bridge is up, the PCIe link has been seen, the host
domain runs, and no value whose window has ended waits for its complement. -/
structure State.Reached (s : State) : Prop where
  up : s.bridgeUp = true
  link : s.hif.linkUp = true
  runs : s.quenched 9 = false
  fresh : ∀ g ∈ s.hif.guards, s.clk ≤ g.since + 1000

/-- A register that a host may write now: its row, and no cause that refuses a write. -/
structure State.Writable (s : State) (host off : Nat) (r : RegRow) : Prop where
  window : off < 0x80000
  row : s.servedRow off = some r
  allowed : s.refuseCause host off = none

/-- A register whose writes do nothing but change its own value: no window with consumers that
follow it, and none of the registers of `State.afterWrite`. -/
def plainReg (off : Nat) : Bool :=
  decide (off / 0x8000 ∉ [5, 7, 8]) &&
    decide (off ∉ [Reg.timSnap, Reg.secFvWrite, Reg.timCtrl, Reg.spcReserve, Reg.hifHostCtrl, Reg.trfCtrl]) &&
    (State.regIdx (Reg.evqCons 0) 2 0x40 off).isNone && (State.regIdx (Reg.hifRxrCons 0) 32 0x40 off).isNone &&
    (State.regIdx (Reg.hifTsqCons 0) 4 0x20 off).isNone && (State.regIdx (Reg.hifTsqCtrl 0) 4 0x20 off).isNone &&
    (State.sqIdx (Reg.mbxSqProd 0) off).isNone && (State.sqIdx (Reg.mbxQCtrl 0) off).isNone

/-- The bits of a register that a direct write of a host sets (R9). -/
def RegRow.mask (r : RegRow) : Word := BitVec.ofNat 32 (r.rw ||| r.rwg ||| r.ack)

/-- What a register holds after a direct write of `v`. -/
def State.stored (s : State) (r : RegRow) (off : Nat) (v : Word) : Word := (s.rget off &&& ~~~r.mask) ||| (v &&& r.mask)

/-- What a command changes at most, by the groups of the state. -/
def frameMask : Instr → Nat
  | .registerWrite .. | .guardedValueWrite .. | .guardedComplementWrite .. | .bitAliasWrite .. | .atomicOp ..
  | .spiWrite .. | .spiGuardedWrite .. | .evqConsWrite .. | .rxRingConsWrite .. | .txRingProdWrite ..
  | .tsqCtrlWrite .. | .tsqConsWrite .. =>
    Group.cmd ||| Group.cal ||| Group.fwd ||| Group.fr ||| Group.buf ||| Group.trf ||| Group.edg ||| Group.tun |||
      Group.sec ||| Group.dom ||| Group.fnc
  | .guardWindowExpiry .. | .devHeartbeatTick | .syncReceiptTimeout .. | .hostSourceTimeout .. =>
    Group.seen ||| Group.clk ||| Group.dom
  | .functionLevelReset | .hotReset | .pcieLinkDown | .pciePerst | .rxRingDeliver .. | .drainReadComplete .. =>
    Group.seen ||| Group.cal ||| Group.fr ||| Group.buf ||| Group.trf ||| Group.fnc
  | .irqHoldoffExpiry .. | .msixPendingSend .. =>
    Group.clk ||| Group.hif ||| Group.dom
  | .spiRead .. | .spiUnknownInstruction .. | .spiCsCutShort | .t1sCollision .. | .correctableEcc
  | .voteDisagreement .. =>
    Group.seen
  | .spiStatus =>
    Group.hif
  | .parityScrub .. | .journalPersist .. | .mirrorAck .. | .mirrorAckTimeout .. | .completionRelease ..
  | .sleepEntry .. | .vbatFall | .pwrGoodRise | .forgeResetRelease .. | .pgTimeout | .pwrGoodFall | .junctionOvertemp
  | .kindleTimeout | .bankedDecay | .faultReport .. | .recoveryStart .. | .recoveryDone .. | .recoveryBudgetExpiry ..
  | .fenceRelease .. | .updActivate .. =>
    Group.all
  | .txRecordFetch .. =>
    Group.seen ||| Group.fr
  | .evqConfig .. | .slotTake .. | .devInfo .. | .devStateGet .. | .journalRead .. | .journalMark .. | .calStatus ..
  | .fwdEpochDrain .. | .epochDrainComplete .. | .nmAwakeLogRead .. | .pairStatus .. | .fenceStatus .. | .svcCommand ..
  | .svcClose .. | .updSessionOpen .. | .updBlock .. | .updVerify .. =>
    Group.cmd
  | .ringConfig .. =>
    Group.cmd ||| Group.cal ||| Group.fr ||| Group.buf ||| Group.trf ||| Group.fnc
  | .mbxDoorbell .. | .mbxCqConsWrite .. | .mbxQueueEnable .. | .mbxQueueDisable .. | .secFvWrite .. | .timSnap .. =>
    Group.cmd ||| Group.fr ||| Group.buf ||| Group.trf ||| Group.sec ||| Group.dom
  | .flashSectorEraseDone =>
    Group.mbx
  | .hostResync .. | .fwdTxnBegin .. | .fwdEntryAdd .. | .fwdEntryDel .. | .fwdLpmAdd .. | .fwdFlushPort ..
  | .fwdAgeConfig .. =>
    Group.cmd ||| Group.fwd
  | .calLoad .. | .calAdmit .. | .calActivateAt .. =>
    Group.cmd ||| Group.cal
  | .calAbort .. =>
    Group.cmd ||| Group.cal ||| Group.fr
  | .calLimpSelect .. =>
    Group.cmd ||| Group.cal ||| Group.dom
  | .pipelineIssue .. | .verdictTimeout .. =>
    Group.seen ||| Group.clk ||| Group.cal ||| Group.fwd ||| Group.fr ||| Group.buf ||| Group.trf ||| Group.tun |||
      Group.sec ||| Group.dom ||| Group.fnc ||| Group.boot
  | .hypercycleBoundary | .calTakeover =>
    Group.seen ||| Group.clk ||| Group.cal ||| Group.fr ||| Group.trf ||| Group.edg ||| Group.dom ||| Group.pair
  | .activationCommit =>
    Group.clk ||| Group.cal ||| Group.dom
  | .overlapEnd | .streamDeadlineExpiry .. =>
    Group.seen ||| Group.clk ||| Group.cal ||| Group.fr ||| Group.buf ||| Group.trf ||| Group.dom ||| Group.fnc
  | .gateEntryStart .. =>
    Group.seen ||| Group.clk ||| Group.cal ||| Group.trf ||| Group.dom
  | .macHoldAssert .. | .fairnessAuditWindow | .hostGclChange .. | .preemptVerifyTimer .. | .frerResetTimeout ..
  | .frerLatentPeriod .. =>
    Group.seen ||| Group.clk ||| Group.trf ||| Group.dom
  | .edgeSlotOpen .. =>
    Group.clk ||| Group.cal ||| Group.edg ||| Group.sig ||| Group.dom
  | .edgeSlotEnd .. =>
    Group.seen ||| Group.clk ||| Group.cal ||| Group.edg ||| Group.dom ||| Group.fnc
  | .routerJobRelease .. =>
    Group.clk ||| Group.sig ||| Group.dom
  | .tunnelWindowOpen .. | .tunnelWindowClose .. =>
    Group.clk ||| Group.cal ||| Group.tun ||| Group.dom
  | .fwdTxnCommit .. =>
    Group.cmd ||| Group.clk ||| Group.fwd ||| Group.sec ||| Group.dom
  | .epochDrainTimeout .. =>
    Group.cmd ||| Group.clk ||| Group.dom
  | .epochStorageReclaim =>
    Group.seen ||| Group.fwd ||| Group.sec
  | .learnEngineCommit | .relocationInvalidate | .ageingScan | .connectionTimeoutScan =>
    Group.seen ||| Group.clk ||| Group.fwd ||| Group.dom
  | .frameArrival .. =>
    Group.seen ||| Group.fr ||| Group.sec
  | .frameLastByte .. | .macsecIcvVerdict .. | .portLinkDown .. =>
    Group.seen ||| Group.cal ||| Group.fwd ||| Group.fr ||| Group.buf ||| Group.trf ||| Group.tun ||| Group.sec |||
      Group.fnc ||| Group.boot
  | .egressSelect .. =>
    Group.seen ||| Group.clk ||| Group.cal ||| Group.fr ||| Group.buf ||| Group.trf ||| Group.sec ||| Group.dom |||
      Group.fnc
  | .egressCopyEnd .. =>
    Group.seen ||| Group.clk ||| Group.cal ||| Group.fr ||| Group.buf ||| Group.trf ||| Group.dom ||| Group.fnc |||
      Group.boot
  | .spillFrame | .drainBack .. =>
    Group.seen ||| Group.fr ||| Group.buf
  | .schedPartitionApply | .ovfRegionApply =>
    Group.buf
  | .xoffRepeat .. =>
    Group.seen ||| Group.clk ||| Group.buf ||| Group.dom
  | .pauseFrameReceived .. =>
    Group.seen ||| Group.buf
  | .pauseExpiry .. =>
    Group.clk ||| Group.buf ||| Group.dom
  | .portLinkUp .. =>
    Group.seen ||| Group.cal ||| Group.fr ||| Group.buf ||| Group.trf
  | .drainHoldEnd .. =>
    Group.seen ||| Group.clk ||| Group.cal ||| Group.fr ||| Group.buf ||| Group.trf ||| Group.dom
  | .slagAuditPass .. =>
    Group.seen ||| Group.clk ||| Group.cal ||| Group.fr ||| Group.buf ||| Group.dom ||| Group.fnc
  | .trfQueueConfig .. | .trfPolicerSet .. | .trfShaperSet .. | .trfStreamFilter .. | .trfFrerConfig .. =>
    Group.cmd ||| Group.trf
  | .streamGateEntry .. =>
    Group.clk ||| Group.trf ||| Group.dom
  | .canFrameReceived .. =>
    Group.cmd ||| Group.edg ||| Group.sig
  | .canTxAttempt .. =>
    Group.cmd ||| Group.cal ||| Group.edg
  | .canBusError .. | .edgCanConfig .. | .edgLinConfig .. | .edgXcvrMode .. | .edgBusOffRecover .. | .xcvrModeApply .. =>
    Group.cmd ||| Group.edg
  | .busOffRecoverDelay .. | .linScheduleSlot .. =>
    Group.clk ||| Group.edg ||| Group.dom
  | .busOffRecoveryDone .. | .linHeaderReceived .. | .t1sDupCoordinator .. | .protocolExceptionEnd .. =>
    Group.seen ||| Group.edg
  | .edgT1sConfig .. =>
    Group.cmd ||| Group.cal ||| Group.fwd ||| Group.fr ||| Group.buf ||| Group.trf ||| Group.edg ||| Group.tun |||
      Group.sec ||| Group.fnc
  | .configApplyAtIdle .. | .plcaStatusChange .. | .cipherRequestComplete .. =>
    Group.seen ||| Group.cal ||| Group.fwd ||| Group.fr ||| Group.buf ||| Group.trf ||| Group.edg ||| Group.tun |||
      Group.sec ||| Group.fnc ||| Group.boot
  | .xcvrModeForced .. | .xcvrSettleEnd .. =>
    Group.cmd ||| Group.clk ||| Group.edg ||| Group.dom
  | .linResponseEnd .. =>
    Group.seen ||| Group.cal ||| Group.edg ||| Group.sig
  | .linBusIdleTimeout .. =>
    Group.seen ||| Group.clk ||| Group.edg ||| Group.dom
  | .linWakeDetect .. | .nmMessageReceived .. =>
    Group.seen ||| Group.edg ||| Group.pwr ||| Group.nm
  | .tunEncapTake .. =>
    Group.seen ||| Group.edg ||| Group.tun ||| Group.sec
  | .batchTimeout .. =>
    Group.clk ||| Group.tun ||| Group.dom
  | .xPortInject .. =>
    Group.seen ||| Group.clk ||| Group.fr ||| Group.tun ||| Group.sig ||| Group.dom
  | .tunDecapsulate .. =>
    Group.seen ||| Group.edg ||| Group.tun ||| Group.sig ||| Group.sec
  | .presentationHoldEnd .. =>
    Group.seen ||| Group.clk ||| Group.edg ||| Group.tun ||| Group.sig ||| Group.sec ||| Group.dom
  | .sigExtraction .. | .sigJobRun .. =>
    Group.seen ||| Group.edg ||| Group.tun ||| Group.sig ||| Group.e2e ||| Group.sec
  | .jobDeadlineMiss .. =>
    Group.seen ||| Group.clk ||| Group.edg ||| Group.tun ||| Group.sig ||| Group.e2e ||| Group.sec ||| Group.dom
  | .mappingTimeout .. =>
    Group.seen ||| Group.clk ||| Group.sig ||| Group.dom
  | .tunChannelSet .. =>
    Group.cmd ||| Group.edg ||| Group.tun
  | .sigMapLoad .. =>
    Group.cmd ||| Group.sig
  | .e2eContextSet .. =>
    Group.cmd ||| Group.e2e
  | .secFwRule .. =>
    Group.cmd ||| Group.fwd ||| Group.sec
  | .portConfig .. | .scConfig .. | .saInstall .. | .saDelete .. | .txSwitch .. =>
    Group.cmd ||| Group.sec
  | .cipherDispatch =>
    Group.sec
  | .keyDerive .. | .keyDeriveRebuild .. | .keyUnwrap .. | .svcProof .. =>
    Group.cmd ||| Group.key
  | .keyErase .. | .lcAdvance .. =>
    Group.cmd ||| Group.sec ||| Group.key
  | .keyAlarm .. =>
    Group.seen ||| Group.sec ||| Group.key
  | .timeDomainConfig .. =>
    Group.cmd ||| Group.cal ||| Group.fr ||| Group.trf ||| Group.dom
  | .timeAdjust .. | .timeJumpAccept .. =>
    Group.cmd ||| Group.cal ||| Group.fr ||| Group.trf ||| Group.dom ||| Group.pair
  | .ptpFrameReceived .. =>
    Group.seen ||| Group.cal ||| Group.fr ||| Group.trf ||| Group.dom ||| Group.pair
  | .ptpSyncTransmit .. =>
    0
  | .pwrStateRequest .. =>
    Group.cmd ||| Group.edg ||| Group.pwr ||| Group.nm
  | .nmConfig .. =>
    Group.cmd ||| Group.edg ||| Group.nm
  | .wakeSourceConfig .. =>
    Group.cmd ||| Group.pwr
  | .nmRepeatTimeout | .readySleepTimeout | .nmCycleTransmit | .nodeRecordAged .. =>
    Group.seen ||| Group.clk ||| Group.edg ||| Group.dom ||| Group.nm
  | .nmCommitPoint | .wakePin .. =>
    Group.seen ||| Group.clk ||| Group.edg ||| Group.dom ||| Group.pwr ||| Group.nm
  | .stayAwakeDetect .. =>
    Group.seen ||| Group.clk ||| Group.dom ||| Group.nm
  | .canWakePattern .. | .selectiveWakeFrame .. | .linWake .. | .wakeTimer | .vbatRise .. | .swDecodeError ..
  | .minimumOffTimeEnd =>
    Group.seen ||| Group.clk ||| Group.dom ||| Group.pwr
  | .swOscillatorStart .. =>
    Group.pwr
  | .swIdleTimeout | .emberDecay | .vbatAboveOperatingMin =>
    Group.clk ||| Group.dom ||| Group.pwr
  | .kindleRetry =>
    Group.regs ||| Group.clk ||| Group.dom ||| Group.pwr
  | .firmwareReady =>
    Group.cmd ||| Group.clk ||| Group.cal ||| Group.fwd ||| Group.fr ||| Group.buf ||| Group.trf ||| Group.edg |||
      Group.tun ||| Group.sec ||| Group.key ||| Group.dom ||| Group.pwr ||| Group.nm ||| Group.pair ||| Group.fnc
  | .residentVerifyDone .. =>
    Group.seen ||| Group.mbx ||| Group.cal ||| Group.fr ||| Group.pair
  | .dieLinkFailure =>
    Group.seen ||| Group.edg ||| Group.pwr ||| Group.nm ||| Group.fnc
  | .pairConfig .. =>
    Group.cmd ||| Group.cal ||| Group.fwd ||| Group.fr ||| Group.buf ||| Group.trf ||| Group.edg ||| Group.tun |||
      Group.sec ||| Group.pair ||| Group.fnc
  | .pairRole .. =>
    Group.cmd ||| Group.trf ||| Group.edg ||| Group.sec ||| Group.pair
  | .tongsLinkUp | .voteReceived .. =>
    Group.pair
  | .tongsLinkDown .. =>
    Group.cmd ||| Group.cal ||| Group.fwd ||| Group.fr ||| Group.buf ||| Group.trf ||| Group.tun ||| Group.sec |||
      Group.pair ||| Group.fnc
  | .helloUnitReceived .. =>
    Group.seen ||| Group.cal ||| Group.fr ||| Group.buf ||| Group.trf ||| Group.edg ||| Group.key ||| Group.pair
  | .helloTimeout =>
    Group.seen ||| Group.clk ||| Group.dom ||| Group.pair
  | .keyingRetry | .backboneHeartbeatSend =>
    Group.clk ||| Group.dom ||| Group.pair
  | .mirrorMessageReceived .. | .syncBlockReceived .. =>
    Group.seen ||| Group.cal ||| Group.fr ||| Group.trf ||| Group.edg ||| Group.sec ||| Group.pwr ||| Group.nm |||
      Group.pair
  | .tongsHeartbeatSend =>
    Group.cmd ||| Group.clk ||| Group.trf ||| Group.edg ||| Group.sec ||| Group.dom ||| Group.pair
  | .heartbeatReceived .. =>
    Group.cmd ||| Group.cal ||| Group.fr ||| Group.trf ||| Group.edg ||| Group.sec ||| Group.dom ||| Group.nm |||
      Group.pair
  | .partnerLoss =>
    Group.cmd ||| Group.clk ||| Group.trf ||| Group.edg ||| Group.sec ||| Group.dom ||| Group.nm ||| Group.pair
  | .clashComparison =>
    Group.cmd ||| Group.clk ||| Group.edg ||| Group.dom ||| Group.pair
  | .probationEnd .. =>
    Group.clk ||| Group.dom ||| Group.fnc
  | .captureStart .. =>
    Group.cmd ||| Group.fnc
  | .autoConfirmTimeout .. =>
    Group.seen ||| Group.clk ||| Group.dom ||| Group.boot
  | .svcHello .. =>
    Group.mbx ||| Group.boot
  | .svcData .. =>
    Group.seen ||| Group.boot
  | .svcSessionTimeout =>
    Group.clk ||| Group.mbx ||| Group.dom ||| Group.boot
  | .svcLockoutEnd =>
    Group.clk ||| Group.dom ||| Group.boot
  | .alarmDeasserted .. =>
    Group.key
  | .slewEnd .. =>
    Group.clk ||| Group.dom
  | .preemptVerifyResponse .. =>
    Group.trf

/-- A step is safe: it answers a next state. -/
def Safe (s : State) : Prop := ∃ t, step s = .next t

end Sys2Proof.Machine
end

