-- ==== Sys2Proof/Certificates/Slice0/Obligations.lean ====
section
/-! DEFINITION.
The statements for the provers, family by family. -/

open Sys2Proof Sys2Proof.Machine

/-- A step is exec of the command at the front of the queue, on the state with the queue's rest
(95_what_each_step_holds.md; 98_reader.md). For every state whose queue is c followed by rest, one step is
exec of c on that state with rest as its queue. -/
def Obligations.StepRunsFront : Prop :=
  ∀ (s : State) (c : Instr) (rest : List Instr), s.pending = c :: rest → step s = exec c { s with pending := rest }

/-- With no command waiting, one tick of 2 ns passes and nothing else happens (13_time.md, R442 and R443). The
model's choice (log entry 2): on an empty queue a step lets one tick of 2 ns pass. In OFF and DORMANT no time
passes; in RUN every time domain advances by one tick; in the other states the local clock alone. -/
def Obligations.IdleTick : Prop :=
  ∀ s : State, s.pending = [] →
    ((s.pwr.state = .off ∨ s.pwr.state = .dormant) → step s = .next s) ∧
    (s.pwr.state = .run →
      step s = .next { s with clk := s.clk + 2, dom := s.dom.map fun (x : Nat × Domain) => (x.1, State.domTick 1 x.2) }) ∧
    (s.pwr.state ≠ .off → s.pwr.state ≠ .dormant → s.pwr.state ≠ .run → step s = .next { s with clk := s.clk + 2 })

/-- Registers and forwarding tables right after reset hold what the register tables state
(02_host_interface.md, register tables; 05_forwarding.md, port attributes; 07_buffers.md; 13_time.md;
16_faults.md; 17_boot_update.md). What host software reads right after reset, for a register of each chapter
whose reset value is not 0, and the default VLAN and port attributes. The block stands in KINDLE with an empty
queue, with no domain quenched and no calendar. -/
def Obligations.ResetValues : Prop :=
  State.reset.pending = [] ∧ State.reset.pwr.state = .kindle ∧ State.reset.cal.running = .noCalendar ∧
  (∀ d, d < 32 → State.reset.quenched d = false) ∧
  (∀ x ∈ [(Reg.hifId, 0x64500100), (Reg.hifHostCtrl, 0x101), (Reg.devState, 4), (Reg.fwdCtrl, 1), (Reg.spcReserve, 0x20),
      (Reg.spcVerdictTimeoutUs, 100), (Reg.bufSchedCells, 8192), (Reg.bufSpillOn, 0x4000), (Reg.trfAuditTol, 20), (Reg.edgCtrl, 1),
      (Reg.tunXlType, 0x7A), (Reg.sigCtrl, 1), (Reg.secPnMargin, 0x1000000), (Reg.timCtrl, 1), (Reg.pwrPmic, 0x50014),
      (Reg.pairCtrl, 1), (Reg.fncLevel, 0xFF), (Reg.bootCtrl, 0x3FF003C)],
    State.reset.readBar0 x.1 = BitVec.ofNat 32 x.2) ∧
  State.reset.vlanAt 0 1 = leBytes 8 (2 ^ 64 - 1) ++ leBytes 1 0 ++ leBytes 1 7 ++ leBytes 2 1 ++ leBytes 4 0 ∧
  (∀ v, v < 4096 → v ≠ 1 → State.reset.vlanAt 0 v = leBytes 16 0) ∧
  (∀ p, p < 68 → State.reset.portAttr 0 p = leBytes 2 1 ++ leBytes 2 (if p < 64 then 0x7F else 0x76) ++ leBytes 12 0)

/-- After reset the register store and the device-side memory are in canonical form (02_host_interface.md, the
register file and device-side memory). The reset state meets the invariant of the next statement. -/
def Obligations.ResetCanonical : Prop := State.reset.Canonical

/-- Every step keeps the register store and the device-side memory in canonical form (02_host_interface.md,
the register file and device-side memory). From every state in canonical form, whatever command stands in
front, a step that answers a next state answers one in canonical form: register offsets and memory addresses
rise strictly, no register entry equals its reset value and no memory entry is 0. Equal machines are therefore
equal data. -/
def Obligations.StepKeepsCanonical : Prop :=
  ∀ s t : State, s.Canonical → step s = .next t → t.Canonical

/-- A step takes one command from the queue, keeps what was sent, and never reuses a free value
(95_what_each_step_holds.md; 02_host_interface.md). Every step that answers a next state leaves the queue's
rest as it was, adds outputs behind those already sent, and moves the index of the next free value upwards or
leaves it. -/
def Obligations.StepKeepsOrder : Prop :=
  ∀ s t : State, step s = .next t → t.pending = s.pending.tail ∧ s.out <+: t.out ∧ s.freeCtr ≤ t.freeCtr

/-- No command stops the block (95_what_each_step_holds.md). Every step answers a next state: no command ends
in a fault or in a refusal, whatever its operands and whatever the state. -/
def Obligations.EveryStepIsSafe : Prop := ∀ s : State, Safe s

/-- A guarded register changes by a value and its complement within the window, and by nothing else
(02_host_interface.md, R50, R51, R59). Completion of GUARDED_VALUE_WRITE, GUARDED_COMPLEMENT_WRITE and
GUARD_WINDOW_EXPIRY: for a register with RWG fields that the host may write now: a value alone becomes the
pending value; a second value refuses the pending pair and takes its place; the right complement stores the
pending value; a wrong one refuses the pair (cause 3); a complement with no pending value is refused (cause
3); and 1 us after the value the pair is refused by itself. -/
def Obligations.GuardedPair : Prop :=
  ∀ (s : State) (host tag off : Nat) (v : Word) (r : RegRow), s.Reached → s.Writable host off r → r.rwg ≠ 0 →
    (s.guardOf off = none →
      exec (.guardedValueWrite host tag off v) s =
        .next ((s.setHif { s.hif with guards := s.hif.guards ++ [⟨off, v, host, tag, s.clk⟩] }).regHook off)) ∧
    (∀ g, s.guardOf off = some g →
      exec (.guardedValueWrite host tag off v) s =
        .next (((s.guardRefuse g s.clkUs).setHif { (s.guardRefuse g s.clkUs).hif with
          guards := (s.guardRefuse g s.clkUs).hif.guards ++ [⟨off, v, host, tag, (s.guardRefuse g s.clkUs).clk⟩] }).regHook off)) ∧
    (∀ g, s.guardOf off = some g → v = ~~~g.data →
      exec (.guardedComplementWrite host tag off v) s =
        .next (((s.guardDrop off).storeReg r off g.data).regHook (off + 0x80000))) ∧
    (∀ g, s.guardOf off = some g → v ≠ ~~~g.data →
      exec (.guardedComplementWrite host tag off v) s = .next ((s.guardRefuse g s.clkUs).regHook (off + 0x80000))) ∧
    (s.guardOf off = none →
      exec (.guardedComplementWrite host tag off v) s =
        .next ((s.pwfNow host tag (off + 0x80000) v 3).regHook (off + 0x80000))) ∧
    (∀ g, s.guardOf off = some g →
      exec (.guardWindowExpiry off) s =
        .next ((s.waitUntil (g.since + 1000)).guardRefuse g ((g.since + 1000) / 1000 % 2 ^ 32)))

/-- A write of a plain register sets the bits that its access codes allow, and a bit alias sets one bit
(02_host_interface.md, R9, R37, R52). Completion of REGISTER_WRITE and BIT_ALIAS_WRITE: for a register whose
writes have no effect beyond its own value, a posted write sets its RW and ACK bits to those of the data and
leaves every other bit; a write to the alias of an RW bit sets that bit to bit 0 of the data and leaves every
other bit. Nothing else changes. -/
def Obligations.PlainWrite : Prop :=
  ∀ (s : State) (host tag off : Nat) (v : Word) (r : RegRow), s.Reached → plainReg off = true →
    (s.Writable 0 off r → r.rwg = 0 → r.rw ||| r.ack ||| r.wo ≠ 0 →
      exec (.registerWrite (.bar0 tag off v 15)) s = .next (s.rset off (s.stored r off v))) ∧
    (∀ b, s.Writable host off r → off % 4 = 0 → b < 32 → bit r.rw b = true →
      ∃ w : Word, exec (.bitAliasWrite host tag off b v) s = .next (s.rset off w) ∧
        ∀ i, i < 32 → w.getLsbD i = if i = b then v.getLsbD 0 else (s.rget off).getLsbD i)

/-- A write that a cause of R59 refuses is logged with that cause and has no other effect
(02_host_interface.md, R37, R52, R59). Partial byte enables give cause 7; an offset with no register gives
cause 4; the causes 8, 1, 2 and 5 stand in the model's order (log entry 11); a register with nothing to write
gives cause 6; the alias of a bit that is not RW gives cause 3 in a guarded register and 6 in any other. -/
def Obligations.WriteRefused : Prop :=
  ∀ (s : State) (host tag off b : Nat) (v : Word) (be cause : Nat), s.Reached → off < 0x80000 →
    (be % 16 ≠ 15 → exec (.registerWrite (.bar0 tag off v be)) s = .next (s.pwfNow 0 tag off v 7)) ∧
    (s.servedRow off = none →
      exec (.registerWrite (.bar0 tag off v 15)) s = .next ((s.pwfNow 0 tag off v 4).regHook off)) ∧
    (∀ r, s.servedRow off = some r → s.refuseCause 0 off = some cause →
      exec (.registerWrite (.bar0 tag off v 15)) s = .next ((s.pwfNow 0 tag off v cause).regHook off)) ∧
    (∀ r, s.servedRow off = some r → s.refuseCause 0 off = none → r.rwg ||| r.rw ||| r.ack ||| r.wo = 0 →
      exec (.registerWrite (.bar0 tag off v 15)) s = .next ((s.pwfNow 0 tag off v 6).regHook off)) ∧
    (∀ r, s.servedRow off = some r → s.refuseCause host off = none → off % 4 = 0 → b < 32 → bit r.rw b = false →
      exec (.bitAliasWrite host tag off b v) s =
        .next ((s.pwfNow host tag (0x01000000 + off * 32 + b * 4) v (if r.rwg ≠ 0 then 3 else 6)).regHook
          (0x01000000 + off * 32 + b * 4)))

/-- A posted-write failure is counted, logged in entry (n - 1) mod 64 and raised as an event (R60). While the
host domain runs, failure number n advances HIF_PWF_CNT to n, fills the four registers of log entry (n - 1)
mod 64 with the address, the data, the time in us and the tag, host and cause, and raises EV_POSTED_WRITE_FAIL
with the new count in ARG; a guard failure advances HIF_GUARD_FAULT_CNT too. The registers of the log are
given after the event has been raised. -/
def Obligations.FailureLogged : Prop :=
  ∀ (s : State) (host tag addr cause : Nat) (data : Word), s.quenched 9 = false →
    ∃ (n : Word) (e : Nat) (u t : State), n = s.rget Reg.hifPwfCnt + 1 ∧ e = 4 * ((n.toNat + 2 ^ 32 - 1) % 64) ∧
      t = s.pwfNow host tag addr data cause ∧ t = u.raise 0x1002 n.toNat ∧
      t.rget Reg.hifPwfCnt = n ∧ t.rget (Reg.hifPwfLog e) = BitVec.ofNat 32 addr ∧ t.rget (Reg.hifPwfLog (e + 1)) = data ∧
      t.rget (Reg.hifPwfLog (e + 2)) = BitVec.ofNat 32 s.clkUs ∧
      t.rget (Reg.hifPwfLog (e + 3)) = BitVec.ofNat 32 (tag % 2 ^ 16 + 2 ^ 16 * (host % 256) + 2 ^ 24 * cause) ∧
      t.rget Reg.hifGuardFaultCnt = s.rget Reg.hifGuardFaultCnt + (if cause = 3 then 1 else 0) ∧
      (∀ k, k < 256 → k / 4 ≠ e / 4 → t.rget (Reg.hifPwfLog k) = s.rget (Reg.hifPwfLog k))

/-- An AtomicOp answers the old value and leaves the new one, or is refused (02_host_interface.md, R56).
Completion of ATOMIC_OP: with ATOMIC_EN clear an AtomicOp is refused. Otherwise one in BAR2 answers the old
bytes, leaves the new value in them, low byte first, and changes no other byte of memory; one on a plain
register answers the old value and sets the register's writable bits from the new one. -/
def Obligations.AtomicOps : Prop :=
  ∀ (s : State) (kind : AtomicKind) (wide : Bool) (off operand compare : Nat), s.Reached →
    (s.rfld Reg.hifHostCtrl 8 1 = 0 →
      ∀ bar2, exec (.atomicOp kind bar2 wide off operand compare) s = .next (s.emit (.atomicDone false 0))) ∧
    (s.rfld Reg.hifHostCtrl 8 1 = 1 → off % (if wide then 8 else 4) = 0 → off + (if wide then 8 else 4) ≤ 0x80000 →
      ∃ t old new, exec (.atomicOp kind true wide off operand compare) s = .next t ∧
        old = leNat (s.mread (0x40000000 + off) (if wide then 8 else 4)) ∧
        new = State.atomicNew kind (8 * if wide then 8 else 4) old operand compare ∧
        t.out = s.out ++ [.atomicDone true old] ∧
        (∀ i, i < (if wide then 8 else 4) → t.mget (0x40000000 + off + i) = BitVec.ofNat 8 (new / 256 ^ i)) ∧
        (∀ a, (a < 0x40000000 + off ∨ 0x40000000 + off + (if wide then 8 else 4) ≤ a) → t.mget a = s.mget a) ∧
        Only (Group.mem ||| Group.mbx) s t) ∧
    (∀ r, s.rfld Reg.hifHostCtrl 8 1 = 1 → off % 4 = 0 → off < 0x80000 → plainReg off = true → s.servedRow off = some r →
      s.atomicReg off = true →
      exec (.atomicOp kind false false off operand compare) s =
        .next ((s.rset off (s.stored r off (BitVec.ofNat 32 (State.atomicNew kind 32 (s.rget off).toNat operand compare)))).emit
          (.atomicDone true (s.rget off).toNat)))

/-- A reset of the PCIe side clears the PCIe-facing state and disables the main host's queues, and nothing
behind them (02_host_interface.md, R39; 18_electrical.md, R579). Completion of FUNCTION_LEVEL_RESET,
HOT_RESET, PCIE_LINK_DOWN and PCIE_PERST: a function-level reset, a hot reset, a loss of link and PERST_N
clear bus mastering, the MSI-X enable, mask, table and pending bits, and disable the event queue of host 0,
every ring and every timestamp queue; all but the first also drop the link. Forwarding tables, security, keys,
power and time stand. -/
def Obligations.PcieResets : Prop :=
  ∀ (s : State) (c : Instr), s.bridgeUp = true → c ∈ [Instr.functionLevelReset, .hotReset, .pcieLinkDown, .pciePerst] →
    ∃ t, exec c s = .next t ∧ t.hif.bme = false ∧ t.hif.msixEn = false ∧ t.hif.funcMask = false ∧ t.hif.msix = [] ∧
      t.hif.pba = [] ∧ t.hif.heldOff = [] ∧ t.hif.linkUp = (s.hif.linkUp && c == .functionLevelReset) ∧
      t.rfld (Reg.evqCfg 0) 0 1 = 0 ∧ (∀ g, g < 4 → t.rfld (Reg.hifTsqCtrl g) 0 1 = 0) ∧
      (∀ n, n < 32 → t.rfld (Reg.hifRxrCfg n) 0 1 = 0 ∧ t.rfld (Reg.hifTxrCfg n) 0 1 = 0) ∧
      Only (Group.regs ||| Group.mem ||| Group.hif ||| Group.cal ||| Group.fr ||| Group.buf ||| Group.trf ||| Group.fnc) s t

/-- A vector's message goes out after its holdoff, or turns into its pending bit while it is masked
(02_host_interface.md, R41). Completion of IRQ_HOLDOFF_EXPIRY and MSIX_PENDING_SEND: an MSI-X table entry
holds what is written to it; at the end of the holdoff an interrupt that may be sent goes out and one that may
not sets its pending bit; a pending vector that may be sent goes out. Registers and memory stand. -/
def Obligations.InterruptMessages : Prop :=
  ∀ (s : State) (v : Nat),
    (∀ addr data masked, s.bridgeUp = true → s.hif.linkUp = true → v < 256 →
      exec (.registerWrite (.msixEntry v addr data masked)) s =
        .next (s.setHif { s.hif with msix := aset s.hif.msix v { addr := addr, data := data, masked := masked } })) ∧
    (v ∈ s.hif.heldOff → s.canDma = true → s.vecMasked v = false →
      ∃ t, exec (.irqHoldoffExpiry v) s = .next t ∧ t = (s.waitUntil (s.nextMessage v)).sendMsix v ∧ t.out = s.out ++ [.msix v] ∧
        v ∉ t.hif.heldOff ∧ v ∉ t.hif.pba ∧ aget t.hif.lastMsg v = some t.clk ∧
        Only (Group.clk ||| Group.hif ||| Group.dom) s t) ∧
    (v ∈ s.hif.heldOff → (s.canDma = false ∨ s.vecMasked v = true) →
      ∃ t, exec (.irqHoldoffExpiry v) s = .next t ∧ t.out = s.out ∧ v ∉ t.hif.heldOff ∧ v ∈ t.hif.pba ∧
        Only (Group.clk ||| Group.hif ||| Group.dom) s t) ∧
    (v ∈ s.hif.pba → s.canDma = true → s.vecMasked v = false →
      ∃ t, exec (.msixPendingSend v) s = .next t ∧ t.out = s.out ++ [.msix v] ∧ v ∉ t.hif.pba ∧
        aget t.hif.lastMsg v = some t.clk ∧ Only (Group.clk ||| Group.hif ||| Group.dom) s t)

/-- Every SPI transaction is answered by its STATUS, with the CRC first and the address after it
(02_host_interface.md, R42 to R46). Completion of SPI_READ, SPI_WRITE, SPI_GUARDED_WRITE, SPI_STATUS,
SPI_UNKNOWN_INSTRUCTION and SPI_CS_CUT_SHORT: a read answers STATUS 1 for a wrong CRC, 3 for a malformed one,
2 for a burst across two rows of the map, 4 when the data is not ready or the start has not loaded it yet
(R45, R81), and otherwise 0 with its words and their CRC; a write whose words are not those of its COUNT is
one cut short (log entry 39), one with a wrong CRC changes nothing; a write into slot memory stores the word
and marks it written; a guarded write is a value and its complement; the status instruction answers the last
STATUS and the CRC count; an unknown instruction and a transaction cut short are counted. -/
def Obligations.SpiTransactions : Prop :=
  ∀ (s : State), s.bridgeUp = true →
    (∀ addr count crc ready, s.quenched 9 = false →
      exec (.spiRead addr count crc ready) s =
        .next (if crc ≠ Crypto.crc8Spi (leBytes 4 addr ++ leBytes 1 (count % 256)) then
            s.spiBegin.spiDone 1 [0xA5, 1]
          else if addr % 4 ≠ 0 ∨ 63 < count % 256 then s.spiBegin.spiDone 3 [0xA5, 3]
          else if State.spiRow addr ≠ State.spiRow (addr + 4 * (count % 256)) then s.spiBegin.spiDone 2 [0xA5, 2]
          else if ready = false ∨ s.pwr.booted = false then s.spiBegin.spiDone 4 [0xA5, 4]
          else s.spiBegin.spiDone 0
            (0xA5 :: 0 :: ((List.range (count % 256 + 1)).flatMap fun i => leBytes 4 (s.spiBegin.readSpi (addr + 4 * i)).toNat) ++
              [Crypto.crc8Spi (0 :: ((List.range (count % 256 + 1)).flatMap
                fun i => leBytes 4 (s.spiBegin.readSpi (addr + 4 * i)).toNat))]))) ∧
    (∀ addr count data crc, data.length ≠ count % 256 + 1 →
      exec (.spiWrite addr count data crc) s = .next (s.bump Reg.hifSpiCrcCnt)) ∧
    (∀ addr count data crc, data.length = count % 256 + 1 →
      crc ≠ Crypto.crc8Spi (leBytes 4 addr ++ leBytes 1 (count % 256) ++ data.flatMap fun w => leBytes 4 w.toNat) →
      exec (.spiWrite addr count data crc) s = .next (s.spiBegin.spiDone 1 [1, 0xFE])) ∧
    (∀ addr w, s.quenched 9 = false → addr % 4 = 0 → 0x02000000 ≤ addr → addr < 0x02004000 →
      exec (.spiWrite addr 0 [w] (Crypto.crc8Spi (leBytes 4 addr ++ leBytes 1 0 ++ leBytes 4 w.toNat))) s =
        .next (((s.spiBegin.slotWrite addr (leBytes 4 w.toNat)).regHook addr).spiDone 0 [0, 0xFF])) ∧
    (∀ addr v comp, s.quenched 9 = false → addr % 4 = 0 → s.guardedReg addr = true →
      exec (.spiGuardedWrite addr v comp (Crypto.crc8Spi (leBytes 4 addr ++ leBytes 4 v.toNat ++ leBytes 4 comp.toNat))) s =
        .next ((((s.spiBegin.postReg 1 (s.hif.spiCount + 1) addr v).postReg 1 (s.hif.spiCount + 1) (addr + 0x80000) comp).regHook
          addr).spiDone 0 [0, 0xFF])) ∧
    exec .spiStatus s =
      .next (s.spiBegin.emit (.spi (leBytes 1 s.hif.spiStatus ++ leBytes 2 (s.rget Reg.hifSpiCrcCnt).toNat ++
        [Crypto.crc8Spi (leBytes 1 s.hif.spiStatus ++ leBytes 2 (s.rget Reg.hifSpiCrcCnt).toNat)]))) ∧
    (∀ op, op ≠ 0x0B → op ≠ 0x02 → op ≠ 0x12 → op ≠ 0x05 →
      ∃ t, exec (.spiUnknownInstruction op) s = .next t ∧
        t = ((s.spiBegin.bump Reg.hifSpiCrcCnt).setHif { (s.spiBegin.bump Reg.hifSpiCrcCnt).hif with spiStatus := 3 }).emit
          (.spi [0x00])) ∧
    exec .spiCsCutShort s = .next (s.bump Reg.hifSpiCrcCnt)

/-- A write of a ring's or queue's count stores it, and lets out the record of what was lost meanwhile
(02_host_interface.md, R64, R65, R70, R75, R77). Completion of EVQ_CONS_WRITE, RX_RING_CONS_WRITE,
TX_RING_PROD_WRITE, TSQ_CONS_WRITE and TSQ_CTRL_WRITE: the consume count of an event queue, of a receive ring
and of a timestamp queue is stored, and a gap record that waited for room is written; the produce count of a
transmit ring is stored; enabling a timestamp queue puts both its counts at 0. -/
def Obligations.QueueWrites : Prop :=
  ∀ (s : State) (tag n : Nat) (v : Word) (r : RegRow), s.Reached →
    (n < 2 → s.Writable n (Reg.evqCons n) r →
      exec (.evqConsWrite n tag n v) s = .next ((s.rset (Reg.evqCons n) (s.stored r (Reg.evqCons n) v)).evqGap n)) ∧
    (n < 32 → s.Writable 0 (Reg.hifRxrCons n) r →
      exec (.rxRingConsWrite 0 tag n v) s = .next ((s.rset (Reg.hifRxrCons n) (s.stored r (Reg.hifRxrCons n) v)).rxGap n)) ∧
    (n < 32 → s.Writable 0 (Reg.hifTxrProd n) r →
      exec (.txRingProdWrite 0 tag n v) s = .next (s.rset (Reg.hifTxrProd n) (s.stored r (Reg.hifTxrProd n) v))) ∧
    (n < 4 → s.Writable 0 (Reg.hifTsqCons n) r →
      exec (.tsqConsWrite 0 tag n v) s = .next ((s.rset (Reg.hifTsqCons n) (s.stored r (Reg.hifTsqCons n) v)).tsqGap n)) ∧
    (n < 4 → s.Writable 0 (Reg.hifTsqCtrl n) r → (s.rget (Reg.hifTsqCtrl n)).toNat % 2 = 0 →
      (s.stored r (Reg.hifTsqCtrl n) v).toNat % 2 = 1 →
      exec (.tsqCtrlWrite 0 tag n v) s =
        .next ((((s.rset (Reg.hifTsqCtrl n) (s.stored r (Reg.hifTsqCtrl n) v)).rset (Reg.hifTsqProd n) 0).rset
          (Reg.hifTsqCons n) 0).tsqGap n)) ∧
    (n < 4 → s.Writable 0 (Reg.hifTsqCtrl n) r → ¬((s.rget (Reg.hifTsqCtrl n)).toNat % 2 = 0 ∧
      (s.stored r (Reg.hifTsqCtrl n) v).toNat % 2 = 1) →
      exec (.tsqCtrlWrite 0 tag n v) s = .next (s.rset (Reg.hifTsqCtrl n) (s.stored r (Reg.hifTsqCtrl n) v)))

/-- EVQ_CONFIG and RING_CONFIG put a queue or ring into use with both counts at 0, take it out of use, or
change nothing (02_host_interface.md, R79, R80). Completion of EVQ_CONFIG and RING_CONFIG: it is stated for a
ready command of host c.host with the host domain not quenched. EVQ_CONFIG with ENABLE clear completes with
OK, the queue of c.host disabled and, for the main host, its writes that wait for memory dropped. With ENABLE
set, a disabled queue, a size of 2^8 to 2^16 records (2^12 for another host) and a base on a 4 KiB boundary
(its fixed place for another host) it completes with OK, the configuration and the base stored and both counts
at 0. In every other case it completes with BAD_PARAM and changes nothing. RING_CONFIG likewise: a legal
enabling stores flags and size, the base, and both counts at 0; a disabling clears EN of a transmit ring and
drops its writes that wait, disables a receive ring with the frames bound for it, and changes nothing of a
ring that is disabled; a size outside 2^16 to 2^24, a base or a write-back address off its boundary, or a ring
already enabled completes with BAD_PARAM and changes nothing. -/
def Obligations.QueueCommands : Prop :=
  ∀ (s : State) (host q : Nat) (c : Cmd), s.quenched 9 = false →
    (s.Ready host q 0x0110 c → bit (c.u 1 1) 0 = false →
      exec (.evqConfig host q) s = .next ((if c.host = 0 then (s.rsetF (Reg.evqCfg 0) 0 1 0).heldDrop 0
        else s.rsetF (Reg.evqCfg c.host) 0 1 0).finishCmd c.index 0 0 [])) ∧
    (∀ base, s.Ready host q 0x0110 c → base = (if c.host = 0 then c.u 8 8 else 0x02010000) → bit (c.u 1 1) 0 = true →
      exec (.evqConfig host q) s = .next (
        if s.rfld (Reg.evqCfg c.host) 0 1 = 0 ∧ 8 ≤ c.u 0 1 ∧ c.u 0 1 ≤ (if c.host = 0 then 16 else 12) ∧ base % 4096 = 0 then
          (((((s.rset (Reg.evqCfg c.host) (BitVec.ofNat 32 (c.u 1 1 % 4 + 256 * c.u 0 1))).rset (Reg.evqProd c.host) 0).rset
            (Reg.evqCons c.host) 0).rset64 (Reg.evqBaseLo c.host) base).evqGap c.host).finishCmd c.index 0 0 []
        else s.failCmd c.index 10)) ∧
    (∀ n, s.Ready host q 0x0111 c → n = c.u 0 1 % 32 → bit (c.u 1 1) 0 = true →
      (bit (c.u 0 1) 7 = true → exec (.ringConfig host q) s = .next (
        if s.rfld (Reg.hifTxrCfg n) 0 1 ≠ 1 ∧ 16 ≤ c.u 2 1 ∧ c.u 2 1 ≤ 24 ∧ c.u 8 8 % 4096 = 0 ∧ c.u 16 8 % 8 = 0 then
          (((((s.rset (Reg.hifTxrCfg n) (BitVec.ofNat 32 (c.u 1 1 % 4 + 256 * c.u 2 1))).rset (Reg.hifTxrProd n) 0).rset
            (Reg.hifTxrCons n) 0).rset (Reg.hifTxrFault n) 0).setHif { s.hif with
              tx := aset s.hif.tx n { base := c.u 8 8, wb := c.u 16 8 } }).finishCmd c.index 0 0 []
        else s.failCmd c.index 10)) ∧
      (bit (c.u 0 1) 7 = false → exec (.ringConfig host q) s = .next (
        if s.rfld (Reg.hifRxrCfg n) 0 1 ≠ 1 ∧ 16 ≤ c.u 2 1 ∧ c.u 2 1 ≤ 24 ∧ c.u 8 8 % 4096 = 0 then
          ((((s.rset (Reg.hifRxrCfg n) (BitVec.ofNat 32 (c.u 1 1 % 8 + 256 * c.u 2 1))).rset (Reg.hifRxrProd n) 0).rset
            (Reg.hifRxrCons n) 0).setHif { s.hif with rx := aset s.hif.rx n { base := c.u 8 8 } }).finishCmd c.index 0 0 []
        else s.failCmd c.index 10))) ∧
    (∀ n, s.Ready host q 0x0111 c → n = c.u 0 1 % 32 → bit (c.u 1 1) 0 = false →
      (bit (c.u 0 1) 7 = true → exec (.ringConfig host q) s = .next ((if s.rfld (Reg.hifTxrCfg n) 0 1 = 1 then
        (s.rsetF (Reg.hifTxrCfg n) 0 1 0).heldDrop (41 + n) else s).finishCmd c.index 0 0 [])) ∧
      (bit (c.u 0 1) 7 = false → exec (.ringConfig host q) s = .next ((if s.rfld (Reg.hifRxrCfg n) 0 1 = 1 then s.rxDisable n
        else s).finishCmd c.index 0 0 [])))

/-- A receive ring writes a committed frame behind its header, and transmit records become frames of source H0
(02_host_interface.md, R67 to R76). Completion of RX_RING_DELIVER and TX_RECORD_FETCH: a disabled receive ring
drops the frame at its head. An enabled one with room takes a committed frame, writes its requests in order,
the header last, advances the produce count by the record's length and ends the copy; here no other ring is
enabled, so that the requests of no other contend, and the host queues are strict. A transmit record is read
by DMA: one with a frame injects it padded and with its FCS, a pad record and a record that is too short are
only released, the latter counted; a record that reaches past the produce count faults the ring. -/
def Obligations.RingTraffic : Prop :=
  ∀ (s : State) (n : Nat),
    (∀ c f, n ≤ 31 → s.datapathUp = true → s.quenched 9 = false → s.quenched Dom.buffer = false → s.head? 67 n = some (c, f) →
      s.rxEn n = false → ((s.ringDrop c n false).rxRing n).todo = [] →
      exec (.rxRingDeliver n) s = .next (s.ringDrop c n false)) ∧
    (∀ c f p need todo (x : Ring) (u v : State), n ≤ 31 → s.datapathUp = true → s.quenched 9 = false → s.quenched Dom.buffer = false →
      s.head? 67 n = some (c, f) → s.rxEn n = true → s.canDma = true → x = s.rxRing n → x.busy = none → x.lost = 0 →
      c.spill = .onChip → f.outcome = .committed → p = (s.rget (Reg.hifRxrProd n)).toNat →
      need = ceilDiv (8 + s.ringBytes f) 8 * 8 → p % s.rxSize n + need ≤ s.rxSize n → s.rxUsed n + need + 8 ≤ s.rxSize n →
      s.rfld (Reg.hifRxrCfg n) 2 1 = 0 → s.group 64 = [] → (∀ m, m < 32 → m ≠ n → s.rxEn m = false ∧ (s.rxRing m).todo = []) →
      todo = ((State.spans s.maxPayload f.out.length).map fun y => (x.base + (p + 8) % s.rxSize n + y.1, (f.out.drop y.1).take y.2)) ++
        ((State.spans s.maxPayload 8).map fun y => (x.base + p % s.rxSize n + y.1,
          ((s.rxHeaderBytes n p f.out.length 0 f.src (f.tIn % 2 ^ 32)).drop y.1).take y.2)) →
      u = ((s.rxMod n fun r => { r with busy := some f.fid, pad := 0, late := false, wrote := f.out.length, todo := [] }).fmod f.fid
        fun y => { y with started := true }).cmod f.fid 67 (fun y => { y with onLane := true, startAt := s.clk }) →
      v = todo.foldl (fun w y => w.hostOut y.1 y.2) u →
      exec (.rxRingDeliver n) s = .next (v.ringDone n)) ∧
    (∀ hdr frame left len (u : State), n < 32 → s.rfld (Reg.hifTxrCfg n) 0 1 = 1 → s.rfld (Reg.hifTxrFault n) 0 1 = 0 →
      s.canDma = true → s.datapathUp = true → s.quenched Dom.pipe0 = false →
      left = (s.rget (Reg.hifTxrProd n) - s.rget (Reg.hifTxrCons n)).toNat → left ≠ 0 → len = le hdr 0 2 →
      u = s.hostIn ((s.txRing n).base + (s.rget (Reg.hifTxrCons n)).toNat % 2 ^ s.rfld (Reg.hifTxrCfg n) 8 5) 8 →
      (bit (le hdr 2 1) 1 = true → 8 + len ≤ left → exec (.txRecordFetch n hdr frame) s = .next (u.txRelease n (8 + len))) ∧
      (bit (le hdr 2 1) 1 = false → left < ceilDiv (8 + len) 8 * 8 →
        exec (.txRecordFetch n hdr frame) s = .next ((u.rset (Reg.hifTxrFault n) 1).raise 0x1004 (n + 256))) ∧
      (bit (le hdr 2 1) 1 = false → ceilDiv (8 + len) 8 * 8 ≤ left → len < 14 →
        exec (.txRecordFetch n hdr frame) s = .next ((u.bump (Reg.hifTxrBadCnt n)).txRelease n (ceilDiv (8 + len) 8 * 8))) ∧
      (bit (le hdr 2 1) 1 = false → ceilDiv (8 + len) 8 * 8 ≤ left → 14 ≤ len →
        exec (.txRecordFetch n hdr frame) s =
          .next (((u.hostIn ((u.txRing n).base + (s.rget (Reg.hifTxrCons n)).toNat % 2 ^ s.rfld (Reg.hifTxrCfg n) 8 5 + 8) len).txInject
            (fit len frame) (if bit (le hdr 2 1) 0 then some (le hdr 4 2) else none)).txRelease n
            (ceilDiv (8 + len) 8 * 8))))

/-- The heartbeat counts each millisecond of RUN, and a parity mismatch quenches the owner of the register
(02_host_interface.md, R53, R81). Completion of DEV_HEARTBEAT_TICK and PARITY_SCRUB: in RUN with firmware
ready, time passes to the next whole millisecond since the entry into RUN and DEV_HEARTBEAT advances. A parity
mismatch in a register with RW or RWG bits advances HIF_PARITY_CNT, reports the owning domain by source 3 and
raises EV_CFG_PARITY with the offset; a register without such bits has no parity to mismatch. -/
def Obligations.HeartbeatAndParity : Prop :=
  ∀ s : State,
    (s.fwReadyNow = true → s.pwr.state = .run →
      exec .devHeartbeatTick s =
        .next ((s.waitUntil (s.pwr.runAt + 1000000 * ((s.clk - s.pwr.runAt) / 1000000 + 1))).bump Reg.devHeartbeat)) ∧
    (∀ off r, s.forgeUp = true → regRow off = some r → r.rw ||| r.rwg ≠ 0 → off / 0x8000 ≠ 4 →
      exec (.parityScrub off) s =
        .next (((s.bump Reg.hifParityCnt).fenceReport (State.ownerOf off) 3).raise 0x1003 off).restartIfDue) ∧
    (∀ off r, s.forgeUp = true → regRow off = some r → r.rw ||| r.rwg = 0 → exec (.parityScrub off) s = .next s.restartIfDue)

/-- A doorbell is remembered or faults the queue, and a queue is enabled with its counts at 0
(03_mailbox_journal.md, R86, R88, R96, R109, R127). Completion of MBX_DOORBELL, MBX_CQ_CONS_WRITE,
MBX_QUEUE_ENABLE and MBX_QUEUE_DISABLE: a doorbell stores the produce count; one that claims more slots than
the queue has faults the queue and raises EV_MBX_QUEUE_FAULT, and one on an enabled queue without a fault is
remembered behind the others. A consume count is stored. Enabling puts the four counts at 0 and clears the
fault; disabling clears the fault and the doorbells, and the completions that were held are discarded. -/
def Obligations.MailboxQueues : Prop :=
  ∀ (s : State) (host tag q : Nat) (v : Word) (r : RegRow), s.bridgeUp = true → s.quenched 9 = false →
    (∀ g ∈ s.hif.guards, s.clk ≤ g.since + 1000) → ((host = 0 ∧ q < 8) ∨ (host = 1 ∧ q < 2)) →
    (∀ u n, s.Writable host (State.sqReg (Reg.mbxSqProd 0) host q) r → u = s.rset (State.sqReg (Reg.mbxSqProd 0) host q) v →
      n = (v - s.rget (State.sqReg (Reg.mbxSqAccept 0) host q)).toNat →
      exec (.mbxDoorbell host tag q v) s =
        .next (if State.sqDepth host < n then
            (u.setMbx { u.mbx with
              faults := (16 * host + q) :: u.mbx.faults.filter (· ≠ 16 * host + q)
              bells := u.mbx.bells.filter (·.1 ≠ 16 * host + q) }).raise 0x2001 (host + 256 * q)
          else if s.queueEn host q = true ∧ 16 * host + q ∉ s.mbx.faults then
            u.setMbx { u.mbx with bells := u.mbx.bells ++ [(16 * host + q, v.toNat)] }
          else u)) ∧
    (s.Writable host (State.sqReg (Reg.mbxCqCons 0) host q) r →
      exec (.mbxCqConsWrite host tag q v) s = .next (s.rset (State.sqReg (Reg.mbxCqCons 0) host q) v)) ∧
    (∀ irq, s.Writable host (State.sqReg (Reg.mbxQCtrl 0) host q) r → s.rfld (State.sqReg (Reg.mbxQCtrl 0) host q) 0 1 = 0 →
      ∃ t, exec (.mbxQueueEnable host tag q irq) s = .next t ∧ t.queueEn host q = true ∧
        t.rfld (State.sqReg (Reg.mbxQCtrl 0) host q) 1 1 = b2n irq ∧
        t.rget (State.sqReg (Reg.mbxSqProd 0) host q) = 0 ∧ t.rget (State.sqReg (Reg.mbxSqAccept 0) host q) = 0 ∧
        t.rget (State.sqReg (Reg.mbxCqProd 0) host q) = 0 ∧ t.rget (State.sqReg (Reg.mbxCqCons 0) host q) = 0 ∧
        16 * host + q ∉ t.mbx.faults ∧ t.mbx.cmds = s.mbx.cmds ∧ Only (Group.regs ||| Group.mbx) s t) ∧
    (∀ irq, s.Writable host (State.sqReg (Reg.mbxQCtrl 0) host q) r → s.rfld (State.sqReg (Reg.mbxQCtrl 0) host q) 0 1 = 1 →
      ∃ u : State, exec (.mbxQueueDisable host tag q irq) s = .next u.postAll ∧ u.queueEn host q = false ∧
        16 * host + q ∉ u.mbx.faults ∧ (∀ b ∈ u.mbx.bells, b.1 ≠ 16 * host + q) ∧ u.mbx.cmds = s.mbx.cmds ∧
        Only (Group.regs ||| Group.mbx) s u)

/-- The slot at the front doorbell is taken, and is accepted with the next journal index, rejected, or
answered as a duplicate (03_mailbox_journal.md, R87, R94, R95, R96, R98). Completion of SLOT_TAKE: while
firmware is ready, an enabled queue of a host without a fault whose doorbell is the front one, with room for
the completion, gives up its next slot: MBX_SQ_ACCEPT advances and the slot's map of written DWORDs clears,
and the slot is judged; a command that the service session has carried in is judged in the same way. A slot
that passes every check becomes a command with index MBX_JOURNAL_HEAD, which advances, and the host's highest
sequence number becomes its SEQ, but for a HOST_RESYNC with RESTART, which leaves it; one that fails a check
is answered with that check's status, counted, and leaves both as they were; a duplicate gets the index of the
command it repeats, and a completed one the status and RESULT of its entry. -/
def Obligations.SlotTaking : Prop :=
  (∀ (s v : State) (host q p : Nat) (slot : List Byte), s.pwr.fwReady = true → ((host = 0 ∧ q < 8) ∨ (host = 1 ∧ q < 2)) →
    v = s.bellsDone host → s.queueEn host q = true → 16 * host + q ∉ s.mbx.faults → (host = 0 → s.canDma = true) →
    (∃ b, (v.mbx.bells.find? fun b => b.1 / 16 == host) = some b ∧ b.1 = 16 * host + q) →
    p = (s.rget (State.sqReg (Reg.mbxSqAccept 0) host q)).toNat →
    (p + 2 ^ 32 - (s.rget (State.sqReg (Reg.mbxCqCons 0) host q)).toNat) % 2 ^ 32 < State.sqDepth host →
    slot = s.mread (State.slotAddr host q p) 256 → s.commandsRun (leNat (slot.take 2)) = true →
    ∃ t, t.rget (State.sqReg (Reg.mbxSqAccept 0) host q) = s.rget (State.sqReg (Reg.mbxSqAccept 0) host q) + 1 ∧
      (∀ w ∈ t.mbx.written, w < State.slotAddr host q p ∨ State.slotAddr host q p + 256 ≤ w) ∧
      Only (Group.regs ||| Group.mbx) s t ∧
      exec (.slotTake host q) s = .next (t.takeSlot host q (p % State.sqDepth host) slot
        fun i => s.mbx.written.contains (State.slotAddr host q p + 4 * i))) ∧
  (∀ (s : State) (q : Nat) (b : List Byte) (r : List (List Byte)), s.pwr.fwReady = true → s.mbx.svc = b :: r → 32 ∉ s.mbx.faults →
    s.mbx.svcAccept < s.mbx.svcPosted + 32 → s.commandsRun (leNat (b.take 2)) = true →
    exec (.slotTake 2 q) s = .next ((s.setMbx { s.mbx with svc := r, svcAccept := s.mbx.svcAccept + 1 }).takeSlot 2 0
      (s.mbx.svcAccept % 32) b fun i => decide (4 * i < b.length))) ∧
  (∀ (t : State) (host q p op seq : Nat) (slot body : List Byte) (written : Nat → Bool), op = leNat (slot.take 2) →
    seq = leNat ((slot.drop 8).take 4) → body = (slot.drop 32).take (leNat ((slot.drop 6).take 2)) →
    (∀ st, (t.slotCheck host slot written = some st ∨ (t.slotCheck host slot written = none ∧
        t.judgeSeq host op seq body (State.isRestart op body) = .reject st)) →
      ∃ (u : State) (c : Cmd), t.takeSlot host q p slot written = u.postAll ∧ u.mbx.cmds = t.mbx.cmds ++ [c] ∧ c.index = noIndex ∧
        c.status = st ∧ c.phase = .ended ∧ u.rget (Reg.mbxHostSeq host) = t.rget (Reg.mbxHostSeq host) ∧
        u.rget Reg.mbxJournalHead = t.rget Reg.mbxJournalHead ∧ (t.stopped Reg.mbxRejectCnt = false → u.rget Reg.mbxRejectCnt = t.rget Reg.mbxRejectCnt + 1)) ∧
    (host < 3 → t.slotCheck host slot written = none → t.judgeSeq host op seq body (State.isRestart op body) = .accept →
      ∃ c : Cmd, (t.takeSlot host q p slot written).mbx.cmds = t.mbx.cmds ++ [c] ∧
        c.index = (t.rget Reg.mbxJournalHead).toNat ∧ c.host = host ∧ c.queue = q ∧ c.slot = p ∧ c.phase = .accepted ∧
        c.opcode = op ∧ c.seq = seq ∧ c.body = body ∧ c.acceptTime = t.clk ∧
        (t.takeSlot host q p slot written).rget Reg.mbxJournalHead = t.rget Reg.mbxJournalHead + 1 ∧
        (t.takeSlot host q p slot written).rget (Reg.mbxHostSeq host) =
          (if State.isRestart op body then t.rget (Reg.mbxHostSeq host) else BitVec.ofNat 32 seq) ∧
        Only (Group.regs ||| Group.mbx) t (t.takeSlot host q p slot written)) ∧
    (∀ i, t.slotCheck host slot written = none → t.judgeSeq host op seq body (State.isRestart op body) = .wait i →
      ∃ c : Cmd, t.takeSlot host q p slot written = t.setMbx { t.mbx with cmds := t.mbx.cmds ++ [c] } ∧ c.index = i ∧
        c.phase = .replayWait ∧ c.replayed = true ∧ c.host = host ∧ c.queue = q ∧ c.slot = p) ∧
    (∀ e, t.slotCheck host slot written = none → t.judgeSeq host op seq body (State.isRestart op body) = .replay e →
      ∃ c : Cmd, t.takeSlot host q p slot written = (t.setMbx { t.mbx with cmds := t.mbx.cmds ++ [c] }).postAll ∧ c.index = e.index ∧
        c.phase = .ended ∧ c.replayed = true ∧ c.status = e.status ∧ c.result = e.result ∧ c.cfgEpoch = e.cfgEpoch ∧
        c.host = host ∧ c.queue = q ∧ c.slot = p))

/-- A command whose configuration epoch does not match completes with EPOCH_MISMATCH and has no effect (R92).
For the next command of a queue, when it may begin and has IF_EPOCH set: with an epoch other than
EXPECT_EPOCH, running it does nothing but complete it with EPOCH_MISMATCH, whatever the command would do; with
an equal epoch it executes. Every mailbox row is such a run of its own opcode; UPD_ACTIVATE ends with the
restart where one is due. -/
def Obligations.EpochCondition : Prop :=
  (∀ (s : State) (host q op : Nat) (c : Cmd) (f : Cmd → State → State.Exec), s.headCmd host q = some c → c.opcode = op →
    s.mayBegin c = true → c.ifEpoch = true →
    ((s.rget Reg.mbxCfgEpoch).toNat ≠ c.expectEpoch → s.runCmd host q op f = s.failOp op c.index 9) ∧
    ((s.rget Reg.mbxCfgEpoch).toNat = c.expectEpoch → (isClassC op = true → s.flashOk = true) →
      s.runCmd host q op f = match f c s with
        | .wait => s
        | .run t x => t.cmdMod c.index fun c => { c with phase := .running, deadline := x, pair := (s.corePair).getD 0 }
        | .done t st r d => t.finishCmd c.index st r d)) ∧
  (∀ (i : Instr) (host q op : Nat), mailboxRow i = some (host, q, op) →
    ∃ f : Cmd → State → State.Exec, ∀ s : State, exec i s =
      .next (if op = 0x0C03 then (s.runCmd host q op f).restartIfDue else s.runCmd host q op f))

/-- A mailbox row runs only the next command of its queue, when that may begin, and class C only with a
writable flash journal (03_mailbox_journal.md, R93, R102, R120). A row of another opcode than that of the
queue's next command, and a row whose command may not begin yet, leave the whole machine as it was. A class C
command that finds the flash journal not writable completes with JOURNAL_UNAVAILABLE and does nothing else.
After UPD_ACTIVATE a restart that is due follows. -/
def Obligations.CommandRowsWait : Prop :=
  ∀ (s : State) (i : Instr) (host q op : Nat), mailboxRow i = some (host, q, op) →
    ((∀ c, s.headCmd host q = some c → c.opcode ≠ op ∨ s.mayBegin c = false) →
      exec i s = .next (if op = 0x0C03 then s.restartIfDue else s)) ∧
    (∀ c, s.headCmd host q = some c → c.opcode = op → s.mayBegin c = true → c.ifEpoch = false → isClassC op = true →
      s.flashOk = false →
      exec i s = .next (if op = 0x0C03 then (s.failOp op c.index 15).restartIfDue else s.failOp op c.index 15))

/-- The end of an execution is recorded in the journal, advances the epoch for class C alone, and opens the
way to the completion (03_mailbox_journal.md, R103, R104, R105, R111, R120). When the execution of an accepted
command ends, its entry carries the status, the result, the time and the epoch; the epoch has advanced by one
for a class C command that ended with OK and for no other. A class C command waits for its record in flash
while flash is writable, else OK becomes UNPERSISTED; the entry stands in the DRAM journal where that memory
runs, and goes to the partner while mirroring is in force. Then every completion that may be posted is posted.
-/
def Obligations.CommandEnds : Prop :=
  ∀ (s : State) (i st r : Nat) (d : List Byte) (c : Cmd), s.cmdOf i = some c →
    ∃ (u : State) (c' : Cmd), s.finishCmd i st r d = u.postAll ∧ u.cmdOf i = some c' ∧ c'.phase = .ended ∧ c'.result = r % 2 ^ 64 ∧
      c'.data = d.take 224 ∧ c'.doneTime = s.clk ∧ c'.body = c.body ∧ c'.opcode = c.opcode ∧ c'.seq = c.seq ∧
      c'.status = (if isClassC c.opcode = true ∧ s.flashOk = false ∧ st = 0 then 14 else st) ∧
      c'.waitFlash = (isClassC c.opcode && st != 15 && s.flashOk) ∧ c'.waitMirror = s.mirroring ∧
      c'.unmirrored = (s.pair.role != .single && !s.mirroring) ∧
      c'.cfgEpoch = (s.rget Reg.mbxCfgEpoch + (if isClassC c.opcode = true ∧ st = 0 then 1 else 0)).toNat ∧
      (u.rget Reg.mbxCfgEpoch).toNat = c'.cfgEpoch ∧
      (s.dramJournalOk = true → c'.entry ∈ u.mbx.dram) ∧
      (s.mirroring = true → Output.mirror (.journal c'.entry.bytes) ∈ u.out) ∧
      (∀ a ∈ s.mbx.cmds, a.index ≠ i → a ∈ u.mbx.cmds)

/-- A class C command's record is programmed, its partner acknowledges or does not, and its completion goes on
(03_mailbox_journal.md, R104, R105, R109, R116, R117, R119, R120). Completion of JOURNAL_PERSIST: the record
is programmed at the next free position after the failed ones, and the command no longer waits for flash;
after three failures the journal is unwritable, EV_JOURNAL_FAULT is raised and the flash domain reported; with
fewer positions than it takes the command stalls, once. Completion of FLASH_SECTOR_ERASE_DONE: an erased
sector is added while fewer than four stand ahead, a never used one or else the oldest. Completion of
MIRROR_ACK: it advances PAIR_MIRROR_ACKED and lets the command go on. Completion of MIRROR_ACK_TIMEOUT: at its
deadline the command goes on UNMIRRORED. Completion of COMPLETION_RELEASE: held completions of the queue are
posted when they may be. -/
def Obligations.JournalRecords : Prop :=
  ∀ (s : State) (i : Nat),
    (∀ failures c u, s.cmdOf i = some c → c.waitFlash = true → s.flashOk = true → s.quenched Dom.control = false →
      u = (List.range (min 3 failures)).foldl (fun s _ => s.recordPut i none) s →
      exec (.journalPersist i failures) s =
        .next (if s.recordsFree < min 3 (failures + 1) then s.stallCmd c
          else if 3 ≤ failures then ((((u.setMbx { u.mbx with flashFault := true }).raise 0x2002 i).report Dom.flash 10).unpersistAll).restartIfDue
          else ((u.recordPut i (some ({ c with persisted := true }.entry, c.body))).recordDone c).postAll.restartIfDue)) ∧
    (∀ n, s.quenched Dom.flash = false → s.mbx.erased.length < 4 → n = s.mbx.sectors.length + s.mbx.erased.length →
      exec .flashSectorEraseDone s = .next (if n < State.journalSectors then s.setMbx { s.mbx with erased := s.mbx.erased ++ [(n, 1)] }
        else s.setMbx { s.mbx with
          sectors := s.mbx.sectors.drop 1
          erased := s.mbx.erased ++ (s.mbx.sectors.take 1).map fun x => (x.place, (x.eraseCount + 1) % 2 ^ 32) })) ∧
    (∀ u, s.pair.role ≠ .single → 2 ≤ s.pair.linkState → s.quenched (portUnit 64) = false →
      u = (if (s.rget Reg.pairMirrorAcked).toNat ≤ i then s.rset Reg.pairMirrorAcked (BitVec.ofNat 32 (i + 1)) else s) →
      exec (.mirrorAck i) s = .next (u.cmdMod i fun c => { c with waitMirror := false }).postAll.restartIfDue) ∧
    (∀ c, s.cmdOf i = some c → c.waitMirror = true →
      exec (.mirrorAckTimeout i) s =
        .next ((((s.waitUntil c.deadline).cmdMod i fun c => { c with waitMirror := false, unmirrored := true }).raise 0x2005 i).postAll.restartIfDue)) ∧
    (∀ host q,
      exec (.completionRelease host q) s =
        .next ((State.postLoop (fun c => c.host == host && c.queue == q) s.mbx.cmds.length s).restartIfDue) ∧
      ((∀ c ∈ s.mbx.cmds, c.host = host → c.queue = q → c.ready = false) →
        exec (.completionRelease host q) s = .next s.restartIfDue))

/-- The device and journal commands answer the identity, the state, the session and the journal
(03_mailbox_journal.md, R101, R121 to R125). Completion of DEV_INFO, DEV_STATE_GET and JOURNAL_MARK: they
answer their blocks and the command's own index, and change nothing else. Completion of HOST_RESYNC: it
answers the highest sequence number, the first later entry and the session, the next one where RESTART is set,
and raises EV_HOST_RESYNC; a RESTART of the main host abandons its open forwarding transaction, and its
completion begins the next session at sequence number 0. Completion of JOURNAL_READ with permitted parameters:
from the entry it names, or in mode 1 from the first of the host's session above START, the run of completed
entries goes to slot memory or, with DMA, to host memory, or the body of one entry; of an entry still open
0x0102, of one not kept 0x0101, of a body not kept 0x0103, of an index not yet given out BAD_PARAM. Which
session the search of a RESTART and its event use, and a mode 1 without an entry, are the model's choices (log
entries 58 and 18). -/
def Obligations.DeviceCommands : Prop :=
  ∀ (s : State) (host q : Nat) (c : Cmd),
    (s.Ready host q 0x0100 c →
      exec (.devInfo host q) s = .next (s.finishCmd c.index 0 0 (leBytes 2 Config.stepping.toNat ++ leBytes 1 s.boot.slot ++
        leBytes 1 (State.lcCode s.key.inForce) ++ leBytes 4 Config.forgeId.toNat ++ leBytes 4 Config.emberId.toNat ++
        leBytes 4 s.fwVersion ++ leBytes 4 s.boot.rollback ++ leBytes 4 0))) ∧
    (s.Ready host q 0x0101 c →
      exec (.devStateGet host q) s = .next (s.finishCmd c.index 0 0 (leBytes 1 (State.pwrCode s.pwr.state) ++
        leBytes 1 (State.roleCode s.pair.role) ++ leBytes 1 s.fenceLevel ++ leBytes 1 0 ++ leBytes 4 (s.rget Reg.mbxCfgEpoch).toNat ++
        leBytes 4 (s.rget Reg.mbxJournalHead).toNat ++ leBytes 2 (s.rget Reg.fwdEpoch).toNat ++ leBytes 2 0 ++ leBytes 8 s.clk))) ∧
    (s.Ready host q 0x0104 c → exec (.journalMark host q) s = .next (s.finishCmd c.index 0 c.index [])) ∧
    (∀ first u cur next, s.Ready host q 0x0102 c → cur = (s.rget (Reg.mbxHostSession c.host)).toNat →
      next = (if bit (c.u 4 1) 0 then (cur + 1) % 2 ^ 16 else cur) →
      first = ((s.firstAfter c.host cur (c.u 0 4)).map (·.index)).getD 0xFFFFFFFF →
      u = (if bit (c.u 4 1) 0 = true ∧ c.host = 0 then s.setFwd { s.fwd with txn := none, staged := [] } else s) →
      exec (.hostResync host q) s = .next ((u.raise 0x2004 (c.host + 2 ^ 16 * next)).finishCmd c.index 0 0
          (leBytes 4 c.hBefore ++ leBytes 4 first ++ leBytes 2 next ++ leBytes 6 0))) ∧
    (c.accepted = true → c.opcode = 0x0102 → bit (c.u 4 1) 0 = true → c.status = 0 → c.host < 3 →
      ((s.sessionRestart c).rget (Reg.mbxHostSession c.host)).toNat = ((s.rget (Reg.mbxHostSession c.host)).toNat + 1) % 2 ^ 16 ∧
      (s.sessionRestart c).rget (Reg.mbxHostSeq c.host) = 0 ∧ Only Group.regs s (s.sessionRestart c)) ∧
    (∀ i body dma mode n, s.Ready host q 0x0103 c → mode = c.u 0 1 → n = c.u 8 2 → body = bit (c.u 1 1) 0 → dma = bit (c.u 1 1) 1 →
      mode ≤ 1 → (mode = 1 → c.u 2 1 ≤ 2) → 1 ≤ n → n ≤ (if dma then 4096 else 1) →
      (dma = true → body = false ∧ c.host = 0 ∧ c.u 16 8 % 128 = 0) →
      i = (if mode = 0 then some (c.u 4 4)
        else (s.firstAfter (c.u 2 1) (s.rget (Reg.mbxHostSession (c.u 2 1))).toNat (c.u 4 4)).map (·.index)) →
      (i = none → exec (.journalRead host q) s = .next (s.failCmd c.index 0x0101)) ∧
      (∀ k, i = some k → (k + 2 ^ 32 - (s.rget Reg.mbxJournalHead).toNat) % 2 ^ 32 < 2 ^ 31 →
        exec (.journalRead host q) s = .next (s.failCmd c.index 10)) ∧
      (∀ k, i = some k → 2 ^ 31 ≤ (k + 2 ^ 32 - (s.rget Reg.mbxJournalHead).toNat) % 2 ^ 32 →
        ((∃ d, s.cmdOf k = some d) → exec (.journalRead host q) s = .next (s.failCmd c.index 0x0102)) ∧
        (s.cmdOf k = none → s.entryRun k n = [] → exec (.journalRead host q) s = .next (s.failCmd c.index 0x0101)) ∧
        (∀ e r, s.cmdOf k = none → s.entryRun k n = e :: r →
          (dma = true → s.canDma = true → exec (.journalRead host q) s =
            .next ((s.hostOut (c.u 16 8) ((e :: r).flatMap JEntry.bytes)).finishCmd c.index 0 (k + 2 ^ 32 * (r.length + 1)) [])) ∧
          (dma = false → body = false → exec (.journalRead host q) s =
            .next (s.finishCmd c.index 0 (k + 2 ^ 32 * (r.length + 1)) e.bytes)) ∧
          (dma = false → body = true → s.bodyOf e = none → exec (.journalRead host q) s = .next (s.failCmd c.index 0x0103)) ∧
          (∀ b, dma = false → body = true → s.bodyOf e = some b → exec (.journalRead host q) s =
            .next (s.finishCmd c.index 0 (k + 2 ^ 32 * (r.length + 1)) b)))))

/-- A calendar image is loaded, admitted, made pending and aborted by its checks, and CAL_STATUS and
CAL_LIMP_SELECT answer (04_schedule_contract.md, R151 to R159, R158, R172, R173). On a single device: CAL_LOAD
puts an image that passes its checks into an EMPTY, LOADED or ADMITTED handle as LOADED, and one that fails
leaves the handle EMPTY with the failing check in the status; CAL_ADMIT makes a LOADED image ADMITTED or
leaves it; CAL_ACTIVATE_AT makes an ADMITTED one PENDING at T or fails with the first check that does;
CAL_ABORT returns a PENDING one to ADMITTED until it is committed or within 1 ms of T. Other handles stand.
Each ends so while no other calendar command names the handle; beside one the answer may be CAL_HANDLE_BUSY
(log entry 62). Completion of CAL_LOAD, CAL_ADMIT, CAL_ACTIVATE_AT and CAL_ABORT is the passing case of each.
Completion of CAL_STATUS and CAL_LIMP_SELECT: CAL_STATUS in MODE 0 answers the record of each of the four
handles, in MODE 1 the counts of up to eight guarantee handles, and changes nothing. CAL_LIMP_SELECT with a
limp image that is not running makes it due with cause 1 and enables its domain, one that runs stays; without
a limp image it fails with 0x0240. -/
def Obligations.CalendarCommands : Prop :=
  (∀ (s : State) (host q partner h : Nat) (c : Cmd), s.pair.role = .single → s.quenched Dom.memory = false → h = c.u 0 1 → h ≤ 3 →
    (s.calBeside c = true → s.free.1 % 2 = 1 → ∀ dma : List Byte,
      (s.Ready host q 0x0200 c → ∃ t r, exec (.calLoad host q dma partner) s = .next (t.finishCmd c.index 0x0203 r State.noCheck) ∧ Only 0 s t) ∧
      (s.Ready host q 0x0201 c → ∃ t r, exec (.calAdmit host q partner) s = .next (t.finishCmd c.index 0x0203 r State.noCheck) ∧ Only 0 s t) ∧
      (s.Ready host q 0x0202 c → ∃ t r, exec (.calActivateAt host q partner) s = .next (t.finishCmd c.index 0x0203 r []) ∧ Only 0 s t) ∧
      (s.Ready host q 0x0203 c → ∃ t r, exec (.calAbort host q partner) s = .next (t.finishCmd c.index 0x0203 r []) ∧ Only 0 s t)) ∧
    (s.calBeside c = false →
    (∀ dma : List Byte, s.Ready host q 0x0200 c → c.u 8 8 % 8 = 0 →
      (s.handle h).state ≠ .pending → (s.handle h).state ≠ .active → (s.handle h).state ≠ .draining →
      (loadChecks (dma.take (c.u 4 4)) (c.u 4 4) = none →
        ∃ t, exec (.calLoad host q dma partner) s =
            .next (t.finishCmd c.index 0 (parseImage (dma.take (c.u 4 4))).id (List.replicate 16 0)) ∧
          t.handle h = ⟨.loaded, some (parseImage (dma.take (c.u 4 4)))⟩ ∧ (∀ k, k ≠ h → t.handle k = s.handle k) ∧
          Only Group.cal s t) ∧
      (∀ f, loadChecks (dma.take (c.u 4 4)) (c.u 4 4) = some f →
        ∃ t r, exec (.calLoad host q dma partner) s = .next (t.finishCmd c.index (State.calStatus 0x0201 f.check) r f.bytes) ∧
          t.handle h = ⟨.empty, none⟩ ∧ (∀ k, k ≠ h → t.handle k = s.handle k) ∧ Only Group.cal s t)) ∧
    (∀ dma : List Byte, s.Ready host q 0x0200 c → c.u 8 8 % 8 = 0 →
      (s.handle h).state = .pending ∨ (s.handle h).state = .active ∨ (s.handle h).state = .draining →
      ∃ t r, exec (.calLoad host q dma partner) s = .next (t.finishCmd c.index 0x0203 r State.noCheck) ∧ Only 0 s t) ∧
    (∀ i, s.Ready host q 0x0201 c → s.handle h = ⟨.loaded, some i⟩ →
      (admitChecks s i false = none →
        exec (.calAdmit host q partner) s = .next ((s.setHandle h { state := .admitted, img := some i }).finishCmd c.index 0 i.id
          (List.replicate 16 0))) ∧
      (∀ f, admitChecks s i false = some f →
        ∃ t r, exec (.calAdmit host q partner) s = .next (t.finishCmd c.index (State.calStatus 0x0210 f.check) r f.bytes) ∧ Only 0 s t)) ∧
    (∀ i t, s.Ready host q 0x0202 c → s.datapathUp = true → s.quenched Dom.calendar = false →
      s.handle h = ⟨.admitted, some i⟩ → t = 10 ^ 9 * c.u 8 6 + c.u 4 4 →
      (s.handleIn .pending ≠ none → exec (.calActivateAt host q partner) s = .next (s.failCmd c.index 0x0221)) ∧
      (s.handleIn .pending = none → i.pred ≠ s.runningId →
        exec (.calActivateAt host q partner) s = .next (s.failCmd c.index 0x0222)) ∧
      (s.handleIn .pending = none → i.pred = s.runningId → s.timeOk i t (c.domAt i.domain) = false →
        exec (.calActivateAt host q partner) s = .next (s.failCmd c.index 0x0223)) ∧
      (s.handleIn .pending = none → i.pred = s.runningId → s.timeOk i t (c.domAt i.domain) = true → s.overlapOk i t = false →
        exec (.calActivateAt host q partner) s = .next (s.failCmd c.index 0x0224)) ∧
      (s.handleIn .pending = none → i.pred = s.runningId → s.timeOk i t (c.domAt i.domain) = true → s.overlapOk i t = true →
        s.resourcesOk i = false → exec (.calActivateAt host q partner) s = .next (s.failCmd c.index 0x0225)) ∧
      (s.handleIn .pending = none → i.pred = s.runningId → s.timeOk i t (c.domAt i.domain) = true → s.overlapOk i t = true →
        s.resourcesOk i = true →
        ∃ u : State, exec (.calActivateAt host q partner) s = .next (u.finishCmd c.index 0 i.id []) ∧
          u.handle h = ⟨.pending, some i⟩ ∧ (∀ k, k ≠ h → u.handle k = s.handle k) ∧ u.cal.pendingT = t ∧ u.cal.committed = false ∧
          u.rget Reg.calPendingId = BitVec.ofNat 32 i.id ∧ u.rget Reg.calPendingTNs = BitVec.ofNat 32 (t % 10 ^ 9) ∧
          u.rget Reg.calPendingTSecLo = BitVec.ofNat 32 (t / 10 ^ 9) ∧ Only (Group.regs ||| Group.cal) s u)) ∧
    (∀ i, s.Ready host q 0x0203 c → s.quenched Dom.calendar = false → s.handle h = ⟨.pending, some i⟩ →
      (s.cal.committed = false → s.domNs i.domain + 1000000 < s.cal.pendingT →
        ∃ u : State, exec (.calAbort host q partner) s = .next (u.finishCmd c.index 0 i.id []) ∧
          u.handle h = ⟨.admitted, some i⟩ ∧ (∀ k, k ≠ h → u.handle k = s.handle k) ∧ u.cal.pendingT = 0 ∧
          u.rget Reg.calPendingId = 0 ∧ Only (Group.regs ||| Group.cal) s u) ∧
      (s.cal.committed = true ∨ s.cal.pendingT ≤ s.domNs i.domain + 1000000 →
        exec (.calAbort host q partner) s = .next (s.failCmd c.index 0x0231))))) ∧
  (∀ (s : State) (host q : Nat) (c : Cmd),
    (s.Ready host q 0x0204 c → c.u 0 1 = 0 →
      exec (.calStatus host q) s =
        .next (s.finishCmd c.index 0 0 ((List.range 4).flatMap fun h => State.handleRecord (s.handle h)))) ∧
    (∀ n, s.Ready host q 0x0204 c → c.u 0 1 = 1 → c.u 1 1 ≤ 1 → n = c.u 4 1 → 1 ≤ n → n ≤ 8 →
      exec (.calStatus host q) s =
        .next (s.finishCmd c.index 0 0 ((List.range n).flatMap fun k => if c.u 1 1 = 0 then State.countRecord s.runningImage s.cal.active (c.u 2 2 + k)
          else State.countRecord (s.drainingImage.or ((s.handleIn .draining).bind fun h => (s.handle h).img)) s.cal.draining (c.u 2 2 + k)))) ∧
    (∀ i, s.Ready host q 0x0205 c → s.datapathUp = true → s.quenched Dom.calendar = false → s.cal.limp = some i →
      s.cal.running = .limp → exec (.calLimpSelect host q) s = .next (s.finishCmd c.index 0 i.id [])) ∧
    (s.Ready host q 0x0205 c → s.datapathUp = true → s.quenched Dom.calendar = false → s.cal.limp = none →
      exec (.calLimpSelect host q) s = .next (s.failCmd c.index 0x0240)) ∧
    (∀ i, s.Ready host q 0x0205 c → s.datapathUp = true → s.quenched Dom.calendar = false → s.cal.limp = some i →
      s.cal.running ≠ .limp →
      ∃ u : State, exec (.calLimpSelect host q) s = .next (u.finishCmd c.index 0 i.id []) ∧ u.cal.limpDue = 1 ∧
        u.cal.running = s.cal.running ∧ (u.domain i.domain).state ≠ .disabled ∧
        ((s.domain i.domain).state ≠ .disabled → u.dom = s.dom) ∧ Only (Group.cal ||| Group.dom) s u))

/-- The sequencer counts boundaries, takes a pending image over at T, and drains the old one
(04_schedule_contract.md, R140, R156, R159 to R163, R173). Completion of HYPERCYCLE_BOUNDARY: a boundary of
the running image advances the hypercycle count and the next boundary, and the image stops there when a
pending image of another domain takes over before the next one; an image that re-phases resumes at its first
boundary after it; a due limp calendar takes over at its own next boundary, and frames of another image lose
their guarantee. Completion of ACTIVATION_COMMIT: a pending image is committed 1 ms before T. Completion of
CAL_TAKEOVER: at T it becomes ACTIVE and runs, the old image DRAINING for the new one's overlap; without an
old image there is no overlap window (the model's choice, log entry 29). Completion of OVERLAP_END: at the
overlap's end the old image is gone. -/
def Obligations.CalendarRuns : Prop :=
  ∀ s : State,
    (∀ i v u, s.datapathUp = true → s.quenched Dom.calendar = false → s.cal.limpDue = 0 → s.cal.stop = false →
      s.cal.rephase = false → s.runningImage = some i → (s.domain i.domain).state ≠ .disabled →
      v = (s.waitDom i.domain s.cal.nextB).wheelsNow →
      u = (v.setCal { v.cal with nextB := s.cal.nextB + i.hyper }).bump Reg.calHypercycleCnt →
      exec .hypercycleBoundary s = .next (match u.stopsFor i with
        | none => u
        | some n => (u.setCal { u.cal with stop := true, stopAt := u.clk }).raise 0x3006 n.domain)) ∧
    (∀ i, s.datapathUp = true → s.quenched Dom.calendar = false → s.cal.limpDue = 0 → s.cal.stop = false →
      s.cal.rephase = true → s.runningImage = some i → (s.domain i.domain).state ≠ .disabled →
      ∃ t, exec .hypercycleBoundary s = .next t ∧ t.cal.rephase = false ∧ t.cal.running = s.cal.running ∧
        (s.pendingImage = none → t.cal.stop = false)) ∧
    (∀ l next, s.datapathUp = true → s.quenched Dom.calendar = false → s.cal.limpDue ≠ 0 → s.cal.limp = some l →
      (s.domain l.domain).state ≠ .disabled → s.runningImage = none ∨ s.cal.stop = true ∨ s.cal.rephase = true →
      next = s.domNs l.domain + State.toBoundary (s.domNs l.domain) (State.imageBase l) l.hyper →
      ∃ t, exec .hypercycleBoundary s = .next t ∧ t.cal.running = .limp ∧ t.cal.limpDue = 0 ∧ t.cal.nextB = next + l.hyper ∧
        t.cal.deadlines = [] ∧ (∀ f ∈ t.fr.frames, f.handle ≠ none → f.image = l.id) ∧
        t.rget Reg.calActiveId = BitVec.ofNat 32 l.id) ∧
    (∀ h i, s.pendingImage = some (h, i) → (s.domain i.domain).state ≠ .disabled → s.quenched Dom.memory = false →
      exec .activationCommit s =
        .next ((s.waitDom i.domain (s.cal.pendingT - 1000000)).setCal { s.cal with committed := true })) ∧
    (∀ h i, s.pendingImage = some (h, i) → (s.domain i.domain).state ≠ .disabled → s.datapathUp = true →
      s.quenched Dom.calendar = false → s.quenched Dom.memory = false →
      ∃ t, exec .calTakeover s = .next t ∧ t.cal.running = .image h ∧ t.cal.nextB = s.cal.pendingT + i.hyper ∧
        t.cal.old = s.runningImage ∧ t.cal.overlapEnd = s.runningImage.map (fun _ => s.cal.pendingT + i.overlap) ∧
        t.cal.draining = s.cal.active ∧ t.cal.active = [] ∧ t.rget Reg.calActiveId = BitVec.ofNat 32 i.id ∧
        (s.pair.joining = false → t.handle h = ⟨.active, some i⟩ ∧
          (∀ k, s.cal.running = .image k → k ≠ h → (t.handle k).state = .draining) ∧
          t.cal.pendingT = 0 ∧ t.cal.committed = false ∧ t.rget Reg.calPendingId = 0 ∧
          Only (Group.regs ||| Group.mem ||| Group.clk ||| Group.hif ||| Group.cal ||| Group.fr ||| Group.trf ||| Group.edg |||
            Group.dom) s t) ∧
        (s.pair.joining = true → t.pair.joining = false ∧ t.pair.linkState = 4)) ∧
    (∀ t i old, s.cal.overlapEnd = some t → s.runningImage = some i → s.cal.old = some old →
      (s.domain i.domain).state ≠ .disabled →
      ∃ u, exec .overlapEnd s = .next u ∧ u.cal.overlapEnd = none ∧ u.cal.old = none ∧ u.cal.draining = [] ∧
        u.cal.running = s.cal.running ∧ u.rget Reg.calActiveId = s.rget Reg.calActiveId)

/-- The next gate entry begins when the one in force has run its interval, and a frame that misses its bound
is a breach (04_schedule_contract.md, R143, R163, R166; 07_buffers.md, R267; 08_traffic.md, R289). Completion
of GATE_ENTRY_START: while an image runs unstopped, and also while it re-phases up to the end of its
hypercycle, the next entry of its list at a port begins, in the list's order and round again; a host's list in
force moves on the same way. Completion of STREAM_DEADLINE_EXPIRY: a deadline passes at the frame's start plus
BOUND_NS: it is dropped, and, unless R163 waives it, the breach of kind 1 recorded with the time taken and
reported to the calendar; on a port that is down the path counts as lost instead, and a copy that still waits
there is discarded. An expiry that no deadline waits for changes nothing. -/
def Obligations.GatesAndDeadlines : Prop :=
  ∀ (s : State) (p : Nat),
    (∀ i l, p < 64 → s.datapathUp = true → s.runningImage = some i → s.imageList p = some l → l.port = p →
      s.quenched Dom.calendar = false → s.cal.stop = false → (s.domain i.domain).state ≠ .disabled →
      (s.cal.rephase = true → s.clk + s.imageLeft i l < s.cal.cycleEnd) →
      ∃ t, exec (.gateEntryStart p) s = .next t ∧
        t.cal = { s.cal with gateAt := aset s.cal.gateAt p ((agetD s.cal.gateAt p 0 + 1) % max 1 l.entries.length) } ∧
        t.clk = (if s.cal.rephase then s.waitUntil (s.clk + s.imageLeft i l)
          else s.waitDom i.domain (s.domNs i.domain + s.imageLeft i l)).clk ∧
        Only (Group.regs ||| Group.mem ||| Group.clk ||| Group.hif ||| Group.cal ||| Group.trf ||| Group.dom) s t) ∧
    (∀ l, p < 64 → s.datapathUp = true → s.runningImage = none ∨ s.imageList p = none → (s.hostGates p).cur = some l →
      (s.hostGates p).retained = false → (s.domain l.domain).state ≠ .disabled → (s.hostGates p).rephase = none →
      ∃ t, exec (.gateEntryStart p) s = .next t ∧
        t.hostGates p = { s.hostGates p with pos := ((s.hostGates p).pos + 1) % max 1 l.entries.length } ∧
        (∀ k, k ≠ p → t.hostGates k = s.hostGates k) ∧ t.cal = s.cal ∧
        t.clk = (s.waitDom l.domain (s.domNs l.domain + s.hostLeft (s.hostGates p) l)).clk) ∧
    (∀ fid e d u, s.deadline fid e = some d → u = (s.waitUntil (d.start + d.bound)).dropDeadline fid e → (e < 64 → s.portDown e = false) →
      exec (.streamDeadlineExpiry fid e) s = .next (if d.waived then u
        else u.breach d.image d.handle 1 e (u.clk - d.start) (some Dom.calendar))) ∧
    (∀ fid e d u, s.deadline fid e = some d → u = s.waitUntil (d.start + d.bound) → e < 64 → s.portDown e = true →
      ((∀ c ∈ s.copiesOf fid, c.port = e → c.onLane = true) → exec (.streamDeadlineExpiry fid e) s = .next (u.pathLost fid e)) ∧
      (∀ c, ((s.copiesOf fid).find? fun c => c.port == e && !c.onLane) = some c →
        exec (.streamDeadlineExpiry fid e) s = .next ((u.discardCopy c).pathLost fid e).gc)) ∧
    (∀ fid e, s.deadline fid e = none → exec (.streamDeadlineExpiry fid e) s = .next s)

/-- Forwarding operations are staged in an open transaction and committed all at once or not at all
(05_forwarding.md, R206, R207, R208, R214). Completion of FWD_TXN_BEGIN: it opens the next transaction with
nothing staged, and fails while one is open unless forced. Completion of FWD_ENTRY_ADD, FWD_ENTRY_DEL and
FWD_LPM_ADD: an operation is staged at the end and answers its number; it fails with no transaction, with 4096
staged, or with the status of its first illegal field, in this order. Completion of FWD_TXN_COMMIT: it applies
all staged operations at one epoch advance and closes the transaction; it fails with no transaction or another
one than it names, and where the oldest epoch still binds frames; where one of the operations fails it answers
that one's status and number and changes nothing. -/
def Obligations.ForwardingTransactions : Prop :=
  ∀ (s : State) (host q : Nat) (c : Cmd),
    (s.Ready host q 0x0300 c → (s.fwd.txn = none ∨ bit (c.u 0 1) 0 = true) →
      exec (.fwdTxnBegin host q) s =
        .next ((s.setFwd { s.fwd with txn := some s.fwd.txnNext, txnNext := (s.fwd.txnNext + 1) % 2 ^ 32, staged := [] }).finishCmd
          c.index 0 s.fwd.txnNext [])) ∧
    (s.Ready host q 0x0300 c → s.fwd.txn ≠ none → bit (c.u 0 1) 0 = false →
      exec (.fwdTxnBegin host q) s = .next (s.failCmd c.index 0x0302)) ∧
    (∀ (i : Instr) (op : TxnOp) (bad : Nat), s.Ready host q ((mailboxRow i).elim 0 fun x => x.2.2) c →
      ((i = .fwdEntryAdd host q ∧ op = .add (c.u 0 1) (bit (c.u 1 1) 0) (c.u 4 4) (c.bytes 8 40) (c.bytes 48 16) ∧
          bad = (if c.u 0 1 = 0 ∧ c.u 4 4 = 0 then State.emFields (c.bytes 8 40) (c.bytes 48 16)
            else if c.u 0 1 = 1 ∧ c.u 4 4 ≤ 4095 ∧ leNat (c.bytes 8 40) = 0 ∧ le (c.bytes 48 16) 13 1 ≤ 31 then 0
            else if c.u 0 1 = 2 ∧ c.u 4 4 ≤ 8191 ∧ leNat (c.bytes 8 40) = 0 ∧ le (c.bytes 48 16) 9 1 ≤ 31 then 0
            else if c.u 0 1 = 3 ∧ c.u 4 4 ≤ 67 ∧ leNat (c.bytes 8 40) = 0 then 0 else 10)) ∨
       (i = .fwdEntryDel host q ∧ c.u 0 1 = 0 ∧ op = .del 0 0 (c.bytes 8 40) ∧
          bad = (if keyValid (c.bytes 8 40) then 0 else 0x030A)) ∨
       (i = .fwdEntryDel host q ∧ c.u 0 1 = 2 ∧ op = .del 2 (c.u 4 4) (c.bytes 8 40) ∧ bad = (if c.u 4 4 ≤ 8191 then 0 else 10)) ∨
       (i = .fwdEntryDel host q ∧ c.u 0 1 = 4 ∧
          op = .lpmDel (c.u 8 1) (c.u 9 1) (c.u 10 1) (State.prefixAddr (c.u 9 1) (c.bytes 12 16)) ∧
          bad = (if State.prefixValid (c.u 9 1) (c.u 10 1) (c.bytes 12 16) then 0 else 10)) ∨
       (i = .fwdEntryDel host q ∧ c.u 0 1 ≠ 0 ∧ c.u 0 1 ≠ 2 ∧ c.u 0 1 ≠ 4 ∧ bad = 10) ∨
       (i = .fwdLpmAdd host q ∧
          op = .lpmAdd (bit (c.u 3 1) 0) (c.u 0 1) (c.u 1 1) (c.u 2 1) (State.prefixAddr (c.u 1 1) (c.bytes 8 16)) (c.bytes 24 16) ∧
          bad = (if State.prefixValid (c.u 1 1) (c.u 2 1) (c.bytes 8 16) && State.resultValid (c.bytes 24 16) then 0 else 10))) →
      exec i s = .next (if s.fwd.txn = none then s.failCmd c.index 0x0301
        else if 4096 ≤ s.fwd.staged.length then s.failCmd c.index 0x0303
        else if bad ≠ 0 then s.failCmd c.index bad
        else (s.setFwd { s.fwd with staged := s.fwd.staged ++ [op] }).finishCmd c.index 0 s.fwd.staged.length [])) ∧
    (s.Ready host q 0x0303 c → s.fwd.txn = none → exec (.fwdTxnCommit host q) s = .next (s.failCmd c.index 0x0301)) ∧
    (∀ id, s.Ready host q 0x0303 c → s.fwd.txn = some id → id ≠ c.u 0 4 →
      exec (.fwdTxnCommit host q) s = .next (s.failCmd c.index 0x0304)) ∧
    (∀ id, s.Ready host q 0x0303 c → s.fwd.txn = some id → id = c.u 0 4 → s.datapathUp = true → s.quenched Dom.pipe0 = false →
      s.quenched Dom.pipe1 = false →
      (s.epochLimit = true → exec (.fwdTxnCommit host q) s = .next (s.failCmd c.index 0x0308)) ∧
      (∀ st k, s.epochLimit = false → s.advanceEpoch.applyOps 0 s.fwd.staged = .inl (st, k) →
        exec (.fwdTxnCommit host q) s = .next (s.finishCmd c.index st k [])) ∧
      (∀ t, s.epochLimit = false → s.advanceEpoch.applyOps 0 s.fwd.staged = .inr t →
        ∃ u : State, exec (.fwdTxnCommit host q) s =
            .next (u.finishCmd c.index 0 (u.epoch + 65536 * s.fwd.staged.length) []) ∧
          u.epoch = (s.epoch + 1) % 65536 ∧ u.fwd.txn = none ∧ u.fwd.staged = [] ∧ u.fwd.em = t.fwd.em ∧ u.fwd.lpm = t.fwd.lpm ∧
          u.fwd.vlans = t.fwd.vlans ∧ u.fwd.lists = t.fwd.lists ∧ u.fwd.ports = t.fwd.ports))

/-- Old epochs drain, are waited for, and give their storage back (05_forwarding.md, R205, R209, R215, R202).
Completion of FWD_EPOCH_DRAIN with legal parameters: it ends at once when no frame is bound before the epoch,
and otherwise runs until none is, which EPOCH_DRAIN_COMPLETE ends with OK, or its time is over, where
EPOCH_DRAIN_TIMEOUT answers the number left with 0x0309. So EPOCH_DRAIN_COMPLETE and EPOCH_DRAIN_TIMEOUT
complete too. Completion of EPOCH_STORAGE_RECLAIM: deleted content that no bound frame can read is gone, and
no other prefix or exact-match entry. Completion of FWD_FLUSH_PORT: it removes the dynamic entries that its
port, VLAN and connection flags pick and answers how many. Completion of FWD_AGE_CONFIG with legal parameters:
it takes effect at the next scan, or at once while ageing is off. -/
def Obligations.EpochDraining : Prop :=
  ∀ (s : State) (host q : Nat) (c : Cmd),
    (s.Ready host q 0x0304 c → epochAge s.epoch (c.u 0 2) ≤ 3 → 1 ≤ c.u 4 4 → c.u 4 4 ≤ 10000 →
      exec (.fwdEpochDrain host q) s =
        .next (if s.boundBefore (c.u 0 2) = 0 then s.finishCmd c.index 0 0 []
          else s.cmdMod c.index fun x =>
            { x with phase := .running, deadline := s.clk + 1000000 * c.u 4 4, pair := (s.corePair).getD 0 })) ∧
    (s.runningCmd host q 0x0304 = some c →
      (exec (.epochDrainComplete host q) s = .next (if s.boundBefore (c.u 0 2) = 0 then s.finishCmd c.index 0 0 [] else s)) ∧
      exec (.epochDrainTimeout host q) s = .next (if s.boundBefore (c.u 0 2) = 0 then (s.waitUntil c.deadline).finishCmd c.index 0 0 []
        else (s.waitUntil c.deadline).finishCmd c.index 0x0309 (s.boundBefore (c.u 0 2)) [])) ∧
    (s.datapathUp = true →
      ∃ t, exec .epochStorageReclaim s = .next t ∧ Only (Group.regs ||| Group.mem ||| Group.hif ||| Group.fwd ||| Group.sec) s t ∧
        (∀ x ∈ s.fwd.lpm, x.deleted = none → x ∈ t.fwd.lpm) ∧
        (∀ x ∈ t.fwd.lpm, x ∈ s.fwd.lpm ∧ ∀ d, x.deleted = some d →
          ∃ f ∈ s.fr.frames, f.decided = true ∧ epochAge s.epoch d < epochAge s.epoch f.epoch) ∧
        (∀ x ∈ s.fwd.em, (∀ a d, x.range ≠ some (a, some d)) → ∃ y ∈ t.fwd.em, y.key = x.key ∧ y.range = x.range ∧ y.data = x.data) ∧
        (∀ y ∈ t.fwd.em, ∀ a d, y.range = some (a, some d) →
          ∃ f ∈ s.fr.frames, f.decided = true ∧ epochAge s.epoch d < epochAge s.epoch f.epoch)) ∧
    (∀ (p fl vid : Nat) (gone : EmEntry → Bool), s.Ready host q 0x0306 c → p = c.u 0 1 → fl = c.u 1 1 → vid = c.u 2 2 % 4096 → (p ≤ 67 ∨ p = 0xFF) →
      s.datapathUp = true → s.quenched Dom.pipe0 = false → s.quenched Dom.pipe1 = false →
      gone = (fun x => x.range.isNone && (if isConn x.key then bit fl 1
        else (p == 0xFF || le x.data 1 1 == p) && (!bit fl 0 || le x.key 2 2 == vid))) →
      exec (.fwdFlushPort host q) s = .next ((s.emRemove gone).finishCmd c.index 0 (s.fwd.em.filter gone).length [])) ∧
    (∀ v, s.Ready host q 0x0307 c → v = (c.u 0 4, c.u 4 4, c.u 8 4, c.u 12 2) → (v.1 = 0 ∨ (10 ≤ v.1 ∧ v.1 ≤ 1000000)) →
      v.2.1 ≤ 10000 → 1 ≤ v.2.2.1 → v.2.2.1 ≤ 86400 → 1 ≤ v.2.2.2 → v.2.2.2 ≤ 600 →
      exec (.fwdAgeConfig host q) s =
        .next ((s.setFwd (if s.fwd.ageTime = 0 then
            { s.fwd with ageTime := v.1, moveHold := v.2.1, connEst := v.2.2.1, connOpen := v.2.2.2, ageNext := none }
          else { s.fwd with ageNext := some v })).finishCmd c.index 0 0 []))

/-- The learn engine commits the front request, scans age dynamic entries out, and relocation retires old
copies (05_forwarding.md, R191, R196, R198 to R202). Completion of LEARN_ENGINE_COMMIT: 40 ns after the one
before at the earliest, the front request is taken: a learn request of an unknown address is inserted and
counted, refused at the port's limit, and reported where no place is found; it does nothing for an address
known at the port; one known at another port moves after MOVE_HOLD unless it is static or fixed, and is a
conflict otherwise. A connection request inserts an entry unless the key stands, and is reported at the limit
of connections or without a place. Completion of AGEING_SCAN: it removes dynamic entries of age 3 without a
hit, and gives the rest their new age. Completion of CONNECTION_TIMEOUT_SCAN: it removes connections idle past
their time. No scan removes an entry that a host added. Completion of RELOCATION_INVALIDATE: the old copies
are gone, and overflow entries then move into what is free. -/
def Obligations.LearningAndAgeing : Prop :=
  ∀ s : State,
    (∀ v, s.datapathUp = true → v = (match s.fwd.learntAt with
        | none => s
        | some t => s.waitUntil (t + 40)) →
      (∀ src f mac r u, s.fwd.learnQ = .learn src f mac :: r → u = v.setFwd { v.fwd with learnQ := r, learntAt := some v.clk } →
        (∀ t, u.emProbe u.epoch (l2Key f mac) = none → u.learnLimit src = false →
          u.emInsert (l2Key f mac) (fit 16 (leBytes 1 0 ++ leBytes 1 src)) none = some t →
          exec .learnEngineCommit s = .next (t.bump Reg.fwdLearnCnt)) ∧
        (u.emProbe u.epoch (l2Key f mac) = none → u.learnLimit src = false →
          u.emInsert (l2Key f mac) (fit 16 (leBytes 1 0 ++ leBytes 1 src)) none = none →
          exec .learnEngineCommit s = .next u.learnFull) ∧
        (u.emProbe u.epoch (l2Key f mac) = none → u.learnLimit src = true →
          exec .learnEngineCommit s = .next (u.learnRefuse src)) ∧
        (∀ x, u.emProbe u.epoch (l2Key f mac) = some x → le x.data 1 1 = src → exec .learnEngineCommit s = .next u) ∧
        (∀ x, u.emProbe u.epoch (l2Key f mac) = some x → le x.data 1 1 ≠ src →
          (x.range.isSome = true ∨ bit (le x.data 6 2) 0 = true ∨ bit (le x.data 6 2) 2 = true) →
          exec .learnEngineCommit s = .next (u.learnConflict x src f mac true)) ∧
        (∀ x, u.emProbe u.epoch (l2Key f mac) = some x → le x.data 1 1 ≠ src → x.range = none → bit (le x.data 6 2) 0 = false →
          bit (le x.data 6 2) 2 = false →
          exec .learnEngineCommit s = .next (if u.clk < x.learnTime + 1000000 * s.fwd.moveHold then u.learnConflict x src f mac false
            else if u.learnLimit src then u.learnRefuse src
            else (u.emMod (l2Key f mac) fun y =>
              { y with data := y.data.take 1 ++ leBytes 1 src ++ y.data.drop 2, learnTime := u.clk }).bump Reg.fwdMoveCnt))) ∧
      (∀ key data r u, s.fwd.learnQ = .connect key data :: r → u = v.setFwd { v.fwd with learnQ := r, learntAt := some v.clk } →
        exec .learnEngineCommit s = .next (if (u.emProbe u.epoch key).isSome then u
          else if 65536 ≤ (s.fwd.em.filter fun x => isConn x.key).length then u.learnFull
          else (u.emInsert key data none).getD u.learnFull))) ∧
    (s.datapathUp = true → s.fwd.ageTime ≠ 0 → (∀ v, s.fwd.ageNext = some v → v.1 ≠ 0) →
      ∃ t, exec .ageingScan s = .next t ∧ t.clk = (s.waitUntil (s.fwd.scanAt + 250000000 * s.fwd.ageTime)).clk ∧
        (∀ x ∈ s.fwd.em, (x.range.isSome = true ∨ isConn x.key = true) → ∃ y ∈ t.fwd.em, y.key = x.key ∧ y.range = x.range) ∧
        (∀ y ∈ t.fwd.em, ∃ x ∈ s.fwd.em, x.key = y.key ∧ x.range = y.range ∧ (State.ages x = true →
          (x.hit = true ∨ x.age ≠ 3) ∧ y.hit = false ∧ y.age = if x.hit then 0 else x.age + 1)) ∧
        Only (Group.regs ||| Group.mem ||| Group.clk ||| Group.hif ||| Group.fwd ||| Group.dom) s t) ∧
    (s.datapathUp = true → ∃ t, exec .connectionTimeoutScan s = .next t ∧
      t.clk = (s.waitUntil (1000000000 * ceilDiv s.clk 1000000000)).clk ∧
      (∀ x ∈ s.fwd.em, x.range.isSome = true ∨ isConn x.key = false → ∃ y ∈ t.fwd.em, y.key = x.key ∧ y.range = x.range) ∧
      (∀ y ∈ t.fwd.em, y.range = none → isConn y.key = true →
        ((le y.data 0 1 = 1 ∨ le y.data 0 1 = 3) → (t.clkMs + 2 ^ 32 - le y.data 4 4) % 2 ^ 32 < 1000 * s.fwd.connOpen) ∧
        ((le y.data 0 1 = 2 ∨ le y.data 0 1 = 4) → (t.clkMs + 2 ^ 32 - le y.data 4 4) % 2 ^ 32 < 1000 * s.fwd.connEst)) ∧
      Only (Group.regs ||| Group.mem ||| Group.clk ||| Group.hif ||| Group.fwd ||| Group.dom) s t) ∧
    (∃ t : State, exec .relocationInvalidate s = .next t.emFreed ∧ t.fwd.moving = [] ∧ t.fwd.em.length = s.fwd.em.length ∧
      (∀ x ∈ s.fwd.em, ∃ y ∈ t.fwd.em, y.place = x.place ∧ y.key = x.key ∧ y.range = x.range ∧ y.data = x.data ∧
        (x.hit = true ∨ (∃ o ∈ s.fwd.moving, o.serial = x.serial ∧ o.hit = true) → y.hit = true)) ∧
      Only (Group.clk ||| Group.fwd ||| Group.dom) s t)

/-- A frame arrives, is stamped and numbered, ends, and takes an issue slot (05_forwarding.md, R29, R178,
R218; 11_security.md, R396; 04_schedule_contract.md, R142; 07_buffers.md, R270). Completion of FRAME_ARRIVAL:
a frame that arrives at a running port is put behind the others with the next number, its time stamp and its
first bytes, no more than four beyond the port's maximum, and waits as its source's head; without MACsec it
needs no verdict; with MACsec a tagged frame with a known SA and a fresh PN waits for its ICV. Completion of
FRAME_LAST_BYTE: the last byte completes the frame with all its bytes, is counted as its MAC saw it, and has
the frame judged. Completion of PIPELINE_ISSUE: the wheel's owner of the slot, or else the best-effort pick,
has the lookup of its head; after a change of image or epoch in this very cycle the slot is one of the next.
-/
def Obligations.FramesArrive : Prop :=
  ∀ s : State, s.datapathUp = true →
    (∀ src head sec, src ≤ 64 → s.portDown src = false → s.quenched (State.pipeDom (State.pipeOf src)) = false → s.arriving src = none →
      head.length ≤ 512 →
      ∃ t f, exec (.frameArrival src head sec) s = .next t ∧ t.fr.frames = s.fr.frames ++ [f] ∧ f.fid = s.fr.next ∧ f.src = src ∧
        f.bytes = head.take (s.maxFrame src + 4) ∧ f.complete = false ∧ f.outcome = .pending ∧ f.decided = false ∧
        f.tIn = ((s.clk : Int) - s.phyDelay src 0).toNat ∧ t.fr.heads = s.fr.heads ++ [(src, s.fr.next)] ∧
        t.fr.next = s.fr.next + 1 ∧ t.fr.copies = s.fr.copies ∧
        ((src = 64 ∨ (s.msPort src).rxEn = false) → f.icv = .none ∧ Only Group.fr s t)) ∧
    (∀ src head tag sc a, src < 64 → s.portDown src = false → s.quenched (State.pipeDom (State.pipeOf src)) = false → s.arriving src = none →
      head.length ≤ 512 → (s.msPort src).rxEn = true → s.quenched Dom.security = false → s.quenched (macsecUnit src false) = false →
      s.rxSc src tag.sci = some sc → aget (agetD (s.msPort src).rx sc {}).sas tag.an = some a → a.stopped = false →
      ((agetD (s.msPort src).rx sc {}).replay = false ∨ State.lowestPn (agetD (s.msPort src).rx sc {}) a ≤ tag.pn) →
      tag.pn ∉ a.pend →
      ∃ t f, exec (.frameArrival src head (some tag)) s = .next t ∧ t.fr.frames = s.fr.frames ++ [f] ∧ f.fid = s.fr.next ∧
        f.icv = .waiting ∧ f.tagInfo = some tag ∧
        (∃ b, aget (agetD (t.msPort src).rx sc {}).sas tag.an = some b ∧ b.pend = tag.pn :: a.pend ∧ b.highPn = a.highPn) ∧
        Only (Group.fr ||| Group.sec) s t) ∧
    (∀ src rest fin f u b long, s.arriving src = some f →
      u = (if src = 64 ∧ fin.fcs = .bad then (s.mergeCounts src fin).bump Reg.pairUnitErrCnt
        else if src = 64 ∧ fin.fcs = .complement then (s.mergeCounts src fin).bump Reg.pairAbortRxCnt else s.mergeCounts src fin) →
      b = (if f.oversize then f.bytes else f.bytes ++ rest) →
      long = (f.oversize || decide (s.maxFrame src + 4 < (f.bytes ++ rest).length)) →
      exec (.frameLastByte src rest fin) s =
        .next ((((u.fmod f.fid fun x =>
            { x with bytes := b.take (s.maxFrame src + 4), complete := true, lastAt := u.clk, fin := fin,
                     oversize := long, writer := false }).storeEnd f.fid).spillUpdate.flowCheck src |>.judge f.fid).gc)) ∧
    (∀ pipe pick src f v k slot w own x, pipe ≤ 1 → s.quenched (State.pipeDom pipe) = false →
      v = (if s.cal.changeAt = some s.clk ∨ s.fwd.changeAt = some s.clk then s.tick 1 else s) →
      k = (if agetD v.fr.issued pipe 0 ≤ v.clk then v.clk else v.clk + 1) → v.wheelTo pipe k = (slot, w) →
      slot.elim ((none, w) : Option Nat × State) (fun o => w.ownerPick pipe o) = (own, x) →
      (own = some src ∨ (own = none ∧ src = pick ∧ State.pipeOf pick = pipe)) → x.headReady src = some f →
      exec (.pipelineIssue pipe pick) s =
        .next ((x.setFr { x.fr with heads := x.fr.heads.filter (· ≠ (src, f.fid)) }).lookup f).gc)

/-- Every condition of a frame passed commits it, a failed one aborts it, and a verdict that does not come
times out (06_speculation.md, R217, R221, R222, R223; 11_security.md, R396; 04_schedule_contract.md, R167). A
decided frame with an open outcome commits once it is complete and no condition waits or failed, and fails
with the first failed condition's cause; a copy that it held back is judged next. Completion of
MACSEC_ICV_VERDICT: the verdict is that of the frame its source's engine owes one for longest, and how late it
comes is measured; it is put on the frame, or counts as late when the frame needs it no more. Completion of
VERDICT_TIMEOUT: it waits for the verdict's time, is counted, and aborts the frame with cause 7. -/
def Obligations.FrameOutcomes : Prop :=
  ∀ s : State,
    (∀ fid f, s.frame? fid = some f → f.decided = true → f.outcome = .pending →
      (s.frameFail f = none → f.complete = true → f.icv ≠ .waiting → f.edge ≠ .waiting → f.heldDup = false →
        (s.commit f).1 = [] → s.judge fid = (s.commit f).2) ∧
      (s.frameFail f = none → (f.complete = false ∨ f.icv = .waiting ∨ f.edge = .waiting ∨ f.heldDup = true) → s.judge fid = s) ∧
      (∀ c, s.frameFail f = some c → (s.failFrame f c).1 = none → s.judge fid = (s.failFrame f c).2)) ∧
    (∀ src ok o u, src < 64 → s.datapathUp = true →
      (s.fr.owed.find? fun o => o.src == src && o.ticket.isNone) = some o → u = (s.owedTake o).owedLate o →
      (((u.frame? o.fid).filter fun f => f.icv == .waiting && f.outcome == .pending) = none →
        exec (.macsecIcvVerdict src ok) s = .next (u.bump (Reg.spcLateVerdictCnt (State.pipeOf src)))) ∧
      (∀ f, ((u.frame? o.fid).filter fun f => f.icv == .waiting && f.outcome == .pending) = some f →
        exec (.macsecIcvVerdict src ok) s =
          .next ((((if ok then u else u.bump (Reg.secMsRxInvalidCnt src)).fmod f.fid fun x =>
            { x with icv := if ok then .passed else .failed, lenient := !ok && !(u.msPort src).strict,
                     verdictAt := if x.complete then some u.clk else none }).judge f.fid).gc))) ∧
    (∀ src ok, (s.fr.owed.find? fun o => o.src == src && o.ticket.isNone) = none → exec (.macsecIcvVerdict src ok) s = .next s) ∧
    (∀ src f, (s.fr.frames.find? fun f => f.src == src && f.decided && f.outcome == .pending && f.complete &&
        (f.icv == .waiting || f.edge == .waiting)) = some f →
      ∃ u : State, exec (.verdictTimeout src) s = .next (u.abortFrame f.fid 7).gc ∧
        u.clk = (s.waitUntil (f.lastAt + 1000 * State.inRange (s.rfld Reg.spcVerdictTimeoutUs 0 14) 1 10000)).clk ∧
        u.fr.frames = s.fr.frames ∧ u.fr.copies = s.fr.copies)

/-- A port starts the copy its arbiter picks, and a copy ends as sent when its frame has committed and cut
short otherwise (06_speculation.md, R226, R241; 08_traffic.md, R279 to R281, R296; 07_buffers.md, R254, R262;
11_security.md, R398, R399). Completion of EGRESS_SELECT: with its lane free a port prunes its queues, waits
for the gap after the last copy and asks the arbiter; the queue it picks starts its head, with the packet
number of its SA where MACsec protects it; one that MACsec cannot protect is discarded and the next one asked
for; with no pick a preempted copy resumes unless hold stands, and without one nothing starts. With its lane
taken it preempts a preemptable copy for an express head where 802.3br permits it, and else nothing changes
but the pruning. A started copy stands on the lane from now and its frame counts as started. Completion of
EGRESS_COPY_END: the last byte of a committed frame's copy leaves after the bytes' time and the copy is gone;
the copy of a frame not committed is cut short at the bytes stored of it. -/
def Obligations.EgressCopies : Prop :=
  ∀ (s : State) (p : Nat),
    (∀ u w : State, p ≤ 64 → s.datapathUp = true → s.portDown p = false → s.quenched Dom.buffer = false →
      u = (List.range 8).foldl (fun t q => (State.pruneQueue s.fr.copies.length p q t).stallCheck p q) (s.cbsUpdate p) →
      w = (if p < 64 then u.waitUntil (u.tport p).freeAt else u) →
      (u.laneCopy p = none →
        (∀ v : State, w.serve p (fun _ => true) = (none, v) →
          (v.preemptedCopy p = none → exec (.egressSelect p) s = .next v.gc) ∧
          (∀ c, v.preemptedCopy p = some c → v.laneCopy p = none →
            exec (.egressSelect p) s = .next (if (v.tport p).hold then v.gc else (v.resumeCopy c).gc))) ∧
        (∀ (v : State) k c f, w.serve p (fun _ => true) = (some k, v) → v.head? p k = some (c, f) →
          (v.protect f p = .plain → exec (.egressSelect p) s = .next (v.startCopy c f none).gc) ∧
          (∀ an pn t, v.protect f p = .sa an pn t → exec (.egressSelect p) s = .next (t.startCopy c f (some pn)).gc) ∧
          (v.protect f p = .discard → exec (.egressSelect p) s =
            .next (State.selectLoop s.fr.copies.length p (fun _ => true)
              (((((v.discardCopy c).bump (Reg.secMsTxDiscardCnt p)).stat p Reg.statTxDrop).lose f.fid p 6).gc)).gc))) ∧
      (∀ c f, u.laneCopy p = some c → u.frame? c.fid = some f →
        (∀ t, u.mmActive p = true → u.isExpress p c.queue = false → u.preemptedCopy p = none →
          (∃ q < 8, u.isExpress p q = true ∧ u.eligible p q = true) → u.preempt c f = some t →
          exec (.egressSelect p) s =
            .next (State.selectLoop (s.fr.copies.length + 1) p (fun q => t.isExpress p q) (t.cbsUpdate p)).gc) ∧
        (u.mmActive p = false ∨ u.isExpress p c.queue = true ∨ u.preempt c f = none → exec (.egressSelect p) s = .next u.gc))) ∧
    (∀ (c : Copy) (f : Frame) pn, s.frame? f.fid = some f → c ∈ s.fr.copies → c.fid = f.fid →
      (∃ d ∈ (s.startCopy c f pn).fr.copies, d.fid = f.fid ∧ d.port = c.port ∧ d.onLane = true ∧ d.startAt = s.clk ∧ d.pn = pn) ∧
      (∃ g, (s.startCopy c f pn).frame? f.fid = some g ∧ g.started = true) ∧
      Output.laneStart c.port c.queue f.fid (s.rewrite f c.port) pn ∈ (s.startCopy c f pn).out) ∧
    (∀ c f, s.laneCopy p = some c → s.frame? c.fid = some f → f.outcome = .committed →
      ∃ t, exec (.egressCopyEnd p) s = .next t ∧
        t.clk = (s.waitUntil (c.startAt + State.bytesNs (s.portRate p)
          (s.endLen f p + (if c.pn.isSome then s.macsecExtra p else 0) - c.sent))).clk ∧
        (∀ d ∈ t.fr.copies, ¬(d.fid = c.fid ∧ d.port = p)) ∧ Output.laneEnd p f.fid ∈ t.out) ∧
    (∀ c f, s.laneCopy p = some c → s.frame? c.fid = some f → f.outcome ≠ .committed →
      ∃ u : State, exec (.egressCopyEnd p) s = .next (u.tailAbort c (State.pipeOf f.src)).gc ∧
        u.clk = (s.waitUntil (c.startAt + State.bytesNs (s.portRate p)
          (s.endLen f p + (if c.pn.isSome then s.macsecExtra p else 0) - c.sent))).clk ∧
        u.fr.frames = s.fr.frames ∧ u.fr.copies = s.fr.copies ∧
        (s.storedOut f = true → Only (Group.clk ||| Group.dom) s u) ∧
        (s.storedOut f = false → s.stopped (Reg.spcLateEgressCnt (State.pipeOf f.src)) = false →
          u.rget (Reg.spcLateEgressCnt (State.pipeOf f.src)) = s.rget (Reg.spcLateEgressCnt (State.pipeOf f.src)) + 1)) ∧
    (s.laneCopy p = none → exec (.egressCopyEnd p) s = .next s)

/-- Hold is asserted ahead of its gate entry, preemption is verified in at most three attempts, and the audit
closes its window (08_traffic.md, R284, R289, R295). Completion of MAC_HOLD_ASSERT: on a port with preemption
active, of the entries that may begin next, of the list in force and of a list that is to take its place, the
nearest one asserts hold its HOLD_ADVANCE_NS ahead of its start when it is a hold entry, unless hold stands
already. Completion of PREEMPT_VERIFY_TIMER: a verification that waits sends again at its time until three
were sent and then fails with EV_PREEMPT_VERIFY_FAIL. Completion of PREEMPT_VERIFY_RESPONSE: a response in
time verifies the port. Completion of FAIRNESS_AUDIT_WINDOW: at the end of an audit window every port is
audited and the pass counted. -/
def Obligations.PreemptionAndAudit : Prop :=
  ∀ (s : State) (p : Nat),
    (∀ left e, s.mmActive p = true → (sortOn (·.1) (s.entriesAhead p)).head? = some (left, e) →
      exec (.macHoldAssert p) s = .next (if e.op % 4 = 1 ∧ !(s.tport p).hold then
        ((s.waitUntil (s.clk + (left - (s.tport p).holdAdvance))).tportMod p fun x => { x with hold := true }).bump
          (Reg.trfMmHoldCnt p) else s)) ∧
    (∀ u, p < 48 → (s.tport p).verify = 1 → u = s.waitUntil ((s.tport p).verifyAt + 1000000 * (s.tport p).verifyMs) →
      exec (.preemptVerifyTimer p) s = .next (if (s.tport p).verifySent < 3 then
          (u.emit (.mPacket p)).tportMod p fun x => { x with verifySent := x.verifySent + 1, verifyAt := u.clk }
        else (u.tportMod p fun x => { x with verify := 3 }).raise 0x6004 p)) ∧
    (p < 48 → (s.tport p).verify = 1 → s.portDown p = false →
      ∃ t, exec (.preemptVerifyResponse p) s = .next t ∧ t.tport p = { s.tport p with verify := 2 } ∧
        (∀ k, k ≠ p → t.tport k = s.tport k) ∧ Only Group.trf s t) ∧
    (∀ w, s.rfld Reg.trfCtrl 0 1 = 1 → s.datapathUp = true → s.quenched Dom.buffer = false →
      w = 1000 * State.inRange (s.rfld Reg.trfAuditWindowUs 0 20) 1000 1000000 →
      exec .fairnessAuditWindow s =
        .next (((List.range 65).foldl State.auditPort (s.waitUntil (ceilDiv s.clk w * w))).bump Reg.trfAuditPassCnt))

/-- Spilled frames move between chip and DRAM one at a time, partitions change when they may, and slag found
twice is counted (07_buffers.md, R250, R256 to R260, R267, R272, R273). Completion of SPILL_FRAME: while the
overflow engine spills it marks the copy that it picks as being in DRAM and counts it, and the source's flow
control is looked at anew. Completion of DRAIN_BACK: a spilled frame's read begins when few cells stand ahead
and it fits in shared cells; where it does not fit it is noted as due. Completion of DRAIN_READ_COMPLETE: the
frame is on chip again, but stays in DRAM while its port is down; at an uncorrectable error it is discarded as
lost with cause 2, counted and reported. Completion of SCHED_PARTITION_APPLY and OVF_REGION_APPLY: a scheduled
partition and an overflow region that were asked for take effect when they fit. Completion of SLAG_AUDIT_PASS:
the pass runs for its time, is counted and numbered, and remembers what it finds for the first time; a cell
found the second time is counted as slag and, unless it is reclaimed, stays slag; a reference count found too
high the second time is counted and put right. More than 64 cells found in one pass are reported as a fault of
the buffer domain. How long a pass takes is a free value (log entry 1). -/
def Obligations.OverflowMemory : Prop :=
  (∀ s : State, s.datapathUp = true → s.quenched Dom.buffer = false → s.quenched Dom.memory = false →
    (∀ w c f, w = s.spillUpdate → w.buf.spilling = true → w.spillPick = some c → s.frame? c.fid = some f →
      exec .spillFrame s =
        .next (((((w.cmod c.fid c.port fun c => { c with spill := .inDram }).bump Reg.bufSpillCnt).ovfFullCheck).spillUpdate).flowCheck
          f.src)) ∧
    (∀ i p k c, State.ofQueueIndex i = (p, k) → s.portDown p = false →
      ((s.queueOf p k).find? fun c => c.spill == .inDram) = some c → s.cellsAhead c < 128 →
      exec (.drainBack i) s = .next (if s.fcells c.fid ≤ s.sharedFree then
          (((((s.setBuf { s.buf with drainDue := s.buf.drainDue.filter (· ≠ c.fid) }).stallCheck p k).fmod c.fid fun f =>
            { f with part := .shared }).cmod c.fid p fun c => { c with spill := .draining }).spillUpdate)
        else if s.buf.drainDue.contains c.fid then s
        else s.setBuf { s.buf with drainDue := s.buf.drainDue.filter (· ≠ c.fid) ++ [c.fid] })) ∧
    (∀ i p k c u, State.ofQueueIndex i = (p, k) → ((s.queueOf p k).find? fun c => c.spill == .draining) = some c →
      u = s.stallCheck p k →
      exec (.drainReadComplete i true) s =
        .next ((((u.cmod c.fid p fun c => { c with spill := if u.portDown p then .inDram else .onChip }).ovfFullCheck).spillUpdate).ovfApply) ∧
      exec (.drainReadComplete i false) s =
        .next (((((((u.discardCopy c).lose c.fid p 2).bump Reg.bufAdmitDropCnt).report Dom.memory 2).gc).ovfFullCheck).spillUpdate).ovfApply) ∧
    (exec .schedPartitionApply s = .next s.schedApply.spillUpdate ∧
      (s.reservedCells ≤ s.schedRequest → s.schedApply.buf.sched = s.schedRequest) ∧
      (s.schedRequest < s.reservedCells → s.schedApply = s)) ∧
    (exec .ovfRegionApply s = .next s.ovfApply ∧
      (s.rfld Reg.bufCtrl 0 1 = 0 → s.ovfUsed = 0 → s.ovfInvalid = false →
        s.ovfApply.buf.ovfBase = s.rfld Reg.bufOvfRegion 0 9 ∧ s.ovfApply.buf.ovfSize = s.rfld Reg.bufOvfRegion 16 9) ∧
      (s.rfld Reg.bufCtrl 0 1 ≠ 0 ∨ s.ovfUsed ≠ 0 ∨ s.ovfInvalid = true → s.ovfApply = s))) ∧
  (∀ s : State, s.datapathUp = true → s.quenched Dom.buffer = false → s.buf.slag = [] →
    (∀ u cells, s.buf.suspectCells = [] → s.buf.suspectRefs = [] → u = s.auditRun ((s.buf.auditNo + 1) % 16 == 0) →
      (∀ c ∈ cells, c < 2 ^ 31) → cells.Nodup →
      exec (.slagAuditPass cells []) s =
        .next ((((u.setBuf { u.buf with suspectCells := cells, suspectRefs := [], slag := [], auditNo := s.buf.auditNo + 1 }).bump
          Reg.bufAuditPassCnt).ovfFullCheck).spillUpdate).gc) ∧
    (∀ c, s.buf.suspectCells = [c] → s.buf.suspectRefs = [] → c < 2 ^ 31 →
      ∃ t, exec (.slagAuditPass [c] []) s = .next t ∧ t.buf.slag = (if s.rfld Reg.bufCtrl 1 1 = 1 then [] else [c]) ∧
        t.buf.suspectCells = (if s.rfld Reg.bufCtrl 1 1 = 1 then [] else [c]) ∧ t.buf.auditNo = s.buf.auditNo + 1 ∧
        t.rget Reg.bufSlagCnt = s.rget Reg.bufSlagCnt + 1 ∧ t.fnc.reports = s.fnc.reports) ∧
    (∀ r f, s.buf.suspectCells = [] → s.buf.suspectRefs = [r] → s.frame? r = some f →
      ∃ t, exec (.slagAuditPass [] [r]) s = .next t ∧ (∀ g ∈ t.fr.frames, g.fid = r → g.refExtra = 0) ∧
        t.rget Reg.bufSlagCnt = s.rget Reg.bufSlagCnt + 1) ∧
    (∀ cells, s.buf.suspectCells = cells → (∀ c ∈ cells, c < 2 ^ 31) → cells.Nodup → 64 < cells.length →
      ∃ w : State, exec (.slagAuditPass cells []) s = .next (w.report Dom.buffer 8)))

/-- Pause frames stop the queues they name but never a scheduled one, and an XOFF in force is repeated at half
its interval (07_buffers.md, R263, R264, R265). Completion of PAUSE_FRAME_RECEIVED: an 802.3x pause stops
every unscheduled queue of a port in mode 1 for its quanta, or lets them go with quanta 0; a PFC frame does so
in mode 2 for the queue of each enabled priority; in another mode, and on a port without flow control, the
frame is only counted. Completion of PAUSE_EXPIRY: the pause of a queue ends at its time and that queue alone
goes on. Completion of XOFF_REPEAT: an XOFF in force is sent again after half its interval when it still is,
and its time taken anew. -/
def Obligations.FlowControl : Prop :=
  ∀ (s : State) (p : Nat), s.portDown p = false →
    (∀ n, p < 48 → s.rfld (Reg.bufPortFc p) 0 2 = 1 → (∀ k, k < 8 → s.isScheduled p k = false) →
      ∃ t, exec (.pauseFrameReceived p (.pause n)) s = .next t ∧
        (∀ k, k < 8 → aget (t.bport p).paused k = if n % 65536 = 0 then none else some (s.clk + s.quantaNs p (n % 65536))) ∧
        (∀ k, k ≠ p → t.bport k = s.bport k) ∧ t.clk = s.clk ∧ t.fr = s.fr) ∧
    (∀ k, p < 48 → s.rfld (Reg.bufPortFc p) 0 2 = 1 → k < 8 → s.isScheduled p k = true →
      ∀ n, ∃ t, exec (.pauseFrameReceived p (.pause n)) s = .next t ∧ aget (t.bport p).paused k = aget (s.bport p).paused k) ∧
    (∀ n, p < 64 → (48 ≤ p ∨ s.rfld (Reg.bufPortFc p) 0 2 ≠ 1) →
      exec (.pauseFrameReceived p (.pause n)) s = .next (s.stat p Reg.statRxPause)) ∧
    (∀ en qs, p < 64 → (48 ≤ p ∨ s.rfld (Reg.bufPortFc p) 0 2 ≠ 2) →
      exec (.pauseFrameReceived p (.pfc en qs)) s = .next (s.stat p Reg.statRxPause)) ∧
    (∀ en qs, p < 48 → s.rfld (Reg.bufPortFc p) 0 2 = 2 →
      exec (.pauseFrameReceived p (.pfc en qs)) s = .next ((List.range 8).foldl (fun t pri =>
        if bit en pri then t.pauseQueue p (qs.getD pri 0 % 65536) (bits (t.tport p).pcpMap (3 * pri) 3) else t)
        (s.stat p Reg.statRxPause))) ∧
    (∀ k t, aget (s.bport p).paused k = some t →
      ∃ u, exec (.pauseExpiry p k) s = .next u ∧ u.clk = (s.waitUntil t).clk ∧ aget (u.bport p).paused k = none ∧
        (∀ j, j ≠ k → aget (u.bport p).paused j = aget (s.bport p).paused j) ∧ (∀ j, j ≠ p → u.bport j = s.bport j) ∧
        Only (Group.clk ||| Group.buf ||| Group.dom) s u) ∧
    (∀ pri n u, p < 48 → pri ∈ (s.bport p).xoff → n = s.rfld (Reg.bufPortFc p) 16 16 →
      u = (s.waitUntil (agetD (s.bport p).xoffAt pri s.clk + s.quantaNs p n / 2)).flowOne p pri →
      exec (.xoffRepeat p pri) s = .next (if (u.bport p).xoff.contains pri then
        (u.bportMod p fun b => { b with xoffAt := aset b.xoffAt pri u.clk }).sendPause p pri n else u))

/-- A port that goes down loses what is on its lane and holds its queues, and comes up at one of its own rates
(07_buffers.md, R266 to R269; 18_electrical.md, R587). Completion of PORT_LINK_DOWN: the port is down, a frame
still arriving there ends with an error, the copies on its lane are gone, and its queues hold for the two
times of BUF_PORT_HOLD; a port whose unit is quenched has stopped already. Completion of DRAIN_HOLD_END: at
the end of a hold that class of queues is discarded and EV_PORT_HOLD_END raised. Completion of PORT_LINK_UP: a
link that comes up at a rate of R587 sets the rate and, unless the port's unit is quenched, ends both holds; a
rate that the port does not have changes nothing. -/
def Obligations.PortLinks : Prop :=
  ∀ (s : State) (p : Nat), p < 64 →
    ((s.bport p).linkUp = true → exec (.portLinkDown p) s =
      .next (if s.portDown p then (s.bportMod p fun b => { b with linkUp := false }).cutArriving p
        else ((s.bportMod p fun b => { b with linkUp := false }).cutArriving p).portStop p)) ∧
    ((s.bport p).linkUp = true → s.portDown p = false → (∀ f ∈ s.fr.frames, f.src = p → f.complete = true) →
      1 ≤ s.rfld (Reg.bufPortHold p) 0 4 → s.rfld (Reg.bufPortHold p) 0 4 ≤ 10 → 1 ≤ s.rfld (Reg.bufPortHold p) 8 7 →
      s.rfld (Reg.bufPortHold p) 8 7 ≤ 100 →
      ∃ t, exec (.portLinkDown p) s = .next t ∧ (t.bport p).linkUp = false ∧
        (t.bport p).schedHold = some (s.clk + 1000000 * s.rfld (Reg.bufPortHold p) 0 4) ∧
        (t.bport p).beHold = some (s.clk + 1000000 * s.rfld (Reg.bufPortHold p) 8 7) ∧
        (∀ c ∈ t.fr.copies, c ∈ s.fr.copies ∧ ¬(c.port = p ∧ (c.onLane = true ∨ c.preempted = true))) ∧
        (∀ c ∈ s.fr.copies, c.port ≠ p → c ∈ t.fr.copies) ∧ t.clk = s.clk) ∧
    (∀ sched t u, (if sched then (s.bport p).schedHold else (s.bport p).beHold) = some t → u = s.waitUntil t →
      exec (.drainHoldEnd p sched) s = .next (u.holdEnd p sched) ∧
      (∀ c ∈ (u.holdEnd p sched).fr.copies, ¬(c.port = p ∧ u.isScheduled p c.queue = sched)) ∧
      (if sched then ((u.holdEnd p sched).bport p).schedHold else ((u.holdEnd p sched).bport p).beHold) = none) ∧
    (∀ code u, (s.bport p).linkUp = false → State.rateAllowed p code = true → s.datapathUp = true →
      u = ((s.cbsUpdate p).bportMod p fun b => { b with linkUp := true, rate := code }).hostResync p →
      exec (.portLinkUp p code) s = .next (if s.quenched (portUnit p) then u else (u.portResume p).verifyStart p) ∧
      (u.bport p).linkUp = true ∧ (u.bport p).rate = code ∧ ((u.portResume p).bport p).linkUp = true ∧
      ((u.portResume p).bport p).rate = code ∧ ((u.portResume p).bport p).schedHold = none ∧
      ((u.portResume p).bport p).beHold = none ∧ (∀ k, k ≠ p → u.bport k = s.bport k)) ∧
    (∀ code, State.rateAllowed p code = false → exec (.portLinkUp p code) s = .next s) ∧
    ((s.bport p).linkUp = false → exec (.portLinkDown p) s = .next s)

/-- Queue, policer, shaper and sequence commands set what their fields say, or refuse an object that is
missing or in use (08_traffic.md, R302, R303, R310, R311, R285). Completion of TRF_QUEUE_CONFIG with legal
fields: it sets the port's configuration and starts verification where it is asked for, and refuses a meter
that is not enabled. Completion of TRF_POLICER_SET: it sets the policer and fills its bucket when asked or
newly enabled, and will not disable one in use. Completion of TRF_SHAPER_SET for a shaper: it starts with
credit 0 or goes, and refuses a rate beyond the port's. Completion of TRF_FRER_CONFIG: it resets the function
that it sets, and will not disable one in use. -/
def Obligations.TrafficCommands : Prop :=
  ∀ (s : State) (host q : Nat) (c : Cmd), s.datapathUp = true → s.quenched Dom.buffer = false →
    (∀ t p n meters quanta, s.Ready host q 0x0400 c → t = c.u 0 1 → p = (if t = 64 then 67 else t) → n = (if t = 64 then 32 else 8) →
      meters = (List.range 8).map (fun i => c.u (16 + 2 * i) 2) → quanta = (List.range 32).map (fun i => c.u (64 + 4 * i) 4) →
      t ≤ 64 → c.u 2 1 < n → c.u 3 1 ≤ 3 → 1 ≤ c.u 13 1 → c.u 13 1 ≤ 128 → (∀ m ∈ meters, m = 0xFFFF ∨ m < 8192) →
      (∀ k, k < n → bit (c.u 4 4) k = true ∨ (64 ≤ quanta.getD k 0 ∧ quanta.getD k 0 ≤ 16777216)) →
      (bit (c.u 1 1) 1 = true → t < 48) →
      (s.metersLive meters = false → exec (.trfQueueConfig host q) s = .next (s.failCmd c.index 0x0401)) ∧
      (s.metersLive meters = true → exec (.trfQueueConfig host q) s =
        .next ((((s.cbsUpdate p).tportMod t fun x => { x with
          dscpEn := bit (c.u 1 1) 0, preemptEn := bit (c.u 1 1) 1, verifyEn := bit (c.u 1 1) 2,
          remap := c.u 2 1, addFrag := c.u 3 1, strict := c.u 4 4, pcpMap := c.u 8 4, express := c.u 12 1,
          verifyMs := c.u 13 1, holdAdvance := c.u 14 2, meters := meters, dscpMap := c.u 32 24, quanta := quanta }).regroupAll.verifyStart
            t).finishCmd c.index 0 0 []))) ∧
    (∀ i ovh, s.Ready host q 0x0401 c → i = c.u 0 2 → ovh = toSigned 8 (c.u 12 1) → i < 8192 → c.u 3 1 ≤ 2 → 1 ≤ c.u 4 4 →
      c.u 4 4 ≤ 25000000 → 64 ≤ c.u 8 4 → c.u 8 4 ≤ 16777216 → -64 ≤ ovh → ovh ≤ 63 →
      (bit (c.u 2 1) 0 = false → s.policerNamed i = true → exec (.trfPolicerSet host q) s = .next (s.failCmd c.index 0x0402)) ∧
      ((bit (c.u 2 1) 0 = true ∨ s.policerNamed i = false) →
        ∃ t : State, exec (.trfPolicerSet host q) s = .next (t.finishCmd c.index 0 0 []) ∧
          (∃ x, aget t.trf.policers i = some x ∧ x.enabled = bit (c.u 2 1) 0 ∧ x.action = c.u 3 1 ∧ x.rate = c.u 4 4 ∧
            x.burst = c.u 8 4 ∧ x.overhead = ovh ∧ x.bucket ≤ 10 ^ 9 * c.u 8 4 ∧
            (bit (c.u 2 1) 1 = true → x.bucket = 10 ^ 9 * c.u 8 4)) ∧
          (∀ k, k ≠ i → aget t.trf.policers k = aget s.trf.policers k) ∧ Only Group.trf s t)) ∧
    (∀ k dma, s.Ready host q 0x0402 c → c.u 0 1 = 0 → c.body.length = 16 → c.u 1 1 < 64 → c.u 2 1 < 8 →
      k = c.u 1 1 * 8 + c.u 2 1 →
      (1 ≤ c.u 4 4 → c.u 4 4 ≤ State.maxRate (c.u 1 1) →
        exec (.trfShaperSet host q dma) s = .next ((s.setTrf { s.trf with
          shapers := if bit (c.u 3 1) 0 then aset s.trf.shapers k ⟨c.u 4 4, 0, false, s.clk⟩ else adel s.trf.shapers k }).finishCmd
            c.index 0 0 [])) ∧
      (c.u 4 4 = 0 ∨ State.maxRate (c.u 1 1) < c.u 4 4 →
        exec (.trfShaperSet host q dma) s = .next (s.failCmd c.index 0x0405))) ∧
    (∀ i, s.Ready host q 0x0404 c → i = c.u 2 2 → c.u 0 1 = 0 → i < 2048 → 2 ≤ c.u 4 1 → c.u 4 1 ≤ 64 → 2 ≤ c.u 5 1 → c.u 5 1 ≤ 8 →
      1 ≤ c.u 6 2 → 10 ≤ c.u 10 2 →
      (bit (c.u 1 1) 0 = false → s.filterAny (fun x => x.recovery == i) = true →
        exec (.trfFrerConfig host q) s = .next (s.failCmd c.index 0x0402)) ∧
      ((bit (c.u 1 1) 0 = true ∨ s.filterAny (fun x => x.recovery == i) = false) →
      ∃ t : State, exec (.trfFrerConfig host q) s = .next (t.finishCmd c.index 0 0 []) ∧
        (∃ r, aget t.trf.recov i = some r ∧ r.enabled = bit (c.u 1 1) 0 ∧ r.matchAlg = bit (c.u 1 1) 1 ∧ r.history = c.u 4 1 ∧
          r.resetMs = c.u 6 2 ∧ r.top = none ∧ r.seen = [] ∧ r.pend = []) ∧
        (∀ k, k ≠ i → aget t.trf.recov k = aget s.trf.recov k) ∧ Only Group.trf s t)) ∧
    (∀ i, s.Ready host q 0x0404 c → i = c.u 2 2 → c.u 0 1 = 1 → i < 1024 →
      (bit (c.u 1 1) 0 = false → s.filterAny (fun x => x.generation == i) = true →
        exec (.trfFrerConfig host q) s = .next (s.failCmd c.index 0x0402)) ∧
      ((bit (c.u 1 1) 0 = true ∨ s.filterAny (fun x => x.generation == i) = false) →
      ∃ t : State, exec (.trfFrerConfig host q) s = .next (t.finishCmd c.index 0 0 []) ∧
        (∃ r, aget t.trf.gen i = some r ∧ r.enabled = bit (c.u 1 1) 0 ∧ r.next = 0) ∧ Only Group.trf s t))

/-- Gate lists, stream gates and stream filters take effect when their rules say, and sequence recovery
forgets after its time (08_traffic.md, R292, R293, R301, R304, R307, R308). Completion of TRF_SHAPER_SET for a
gate list and of TRF_STREAM_FILTER for a stream gate: a list with a sum of intervals equal to its cycle is
read by DMA and waits as the pending list, and RESULT gives its change time, at least 1 ms ahead; other sums
fail with 0x0403; with EN clear the lists go, but a stream gate in use stays with 0x0402. Completion of
TRF_STREAM_FILTER for a filter: it is stored when every object that it names is enabled, and fails with 0x0401
otherwise. Completion of HOST_GCL_CHANGE: at its change time a list replaces the list in force from entry 0
and EV_GCL_CHANGED is raised; behind an image's list it is retained. Completion of STREAM_GATE_ENTRY: the next
entry of a gate's list begins. Completion of FRER_RESET_TIMEOUT: after RESET_MS without an accepted frame an
enabled recovery function takes any number again, counts the reset and raises EV_FRER_RESET at most once a
second. Completion of FRER_LATENT_PERIOD: at the end of a latent-error period the counts start anew, and
EV_FRER_LATENT is raised when duplicates and passed frames differ by more than LATENT_DIFF. -/
def Obligations.StreamFiltersAndLists : Prop :=
  (∀ (s : State) (host q : Nat) (c : Cmd), s.datapathUp = true → s.quenched Dom.buffer = false →
    (∀ dma es l u, s.Ready host q 0x0402 c → c.u 0 1 = 1 → c.body.length = 40 → c.u 1 1 < 64 → 1 ≤ c.u 2 2 → c.u 2 2 ≤ 1024 →
      c.u 4 1 ≤ 3 → 1000 ≤ c.u 8 4 → c.u 8 4 ≤ 1000000000 → c.u 24 8 % 8 = 0 →
      es = State.listEntries (c.u 2 2) dma → l = s.hostList (c.u 4 1) (10 ^ 9 * c.u 16 6 + c.u 12 4) (c.u 8 4) es →
      u = s.setTrf { s.trf with
        gcl := aset s.trf.gcl (c.u 1 1) { s.hostGates (c.u 1 1) with pend := some l, retained := (s.imageList (c.u 1 1)).isSome } } →
      (bit (c.u 5 1) 0 = true → exec (.trfShaperSet host q dma) s =
        .next (if State.listOk (c.u 8 4) es = true ∧ (∀ e ∈ es, e.op ≤ 2) then
          (if c.host = 0 then u.hostIn (c.u 24 8) (8 * c.u 2 2) else u).finishCmd c.index 0 (State.changeResult l) []
        else s.failCmd c.index 0x0403)) ∧
      (∀ v, bit (c.u 5 1) 0 = false → v = s.cbsUpdate (c.u 1 1) → exec (.trfShaperSet host q dma) s =
        .next (((v.setTrf { v.trf with gcl := adel v.trf.gcl (c.u 1 1) }).gateSeen (c.u 1 1)).finishCmd c.index 0 0 [])) ∧
      s.domNs (c.u 4 1) + 1000000 ≤ l.change) ∧
    (∀ dma es i, s.Ready host q 0x0403 c → c.u 0 1 = 1 → c.body.length = 32 → i = c.u 2 2 → i < 1024 → 1 ≤ c.u 4 2 → c.u 4 2 ≤ 256 →
      c.u 6 1 ≤ 3 → c.u 24 8 % 8 = 0 → es = State.listEntries (c.u 4 2) dma →
      (bit (c.u 1 1) 0 = true → (State.listOk (c.u 8 4) es = false ∨ (∃ e ∈ es, 1 < e.gates)) →
        exec (.trfStreamFilter host q dma) s = .next (s.failCmd c.index 0x0403)) ∧
      (bit (c.u 1 1) 0 = true → State.listOk (c.u 8 4) es = true → (∀ e ∈ es, e.gates ≤ 1) →
        (16384 < s.poolUsed i + c.u 4 2 → exec (.trfStreamFilter host q dma) s = .next (s.failCmd c.index 0x0404)) ∧
        (s.poolUsed i + c.u 4 2 ≤ 16384 →
          ∃ t l, exec (.trfStreamFilter host q dma) s = .next (State.finishCmd t c.index 0 (State.changeResult l) []) ∧
            l.entries = es ∧ (∃ g, aget t.trf.gates i = some g ∧ g.pend = some l ∧ g.enabled = true ∧ g.blocked = false ∧
              g.cur = (agetD s.trf.gates i {}).cur) ∧ Only Group.trf s t)) ∧
      (bit (c.u 1 1) 0 = false →
        (s.filterAny (fun x => x.gate == i) = true → exec (.trfStreamFilter host q dma) s = .next (s.failCmd c.index 0x0402)) ∧
        (s.filterAny (fun x => x.gate == i) = false →
          ∃ t : State, exec (.trfStreamFilter host q dma) s = .next (t.finishCmd c.index 0 0 []) ∧
            (∃ g, aget t.trf.gates i = some g ∧ g.pend = none ∧ g.cur = none ∧ g.enabled = false) ∧ Only Group.trf s t))) ∧
    (∀ dma i live, s.Ready host q 0x0403 c → c.u 0 1 = 0 → c.body.length = 56 → i = c.u 2 2 → i < 4096 → c.u 4 1 ≤ 2 →
      (c.u 5 1 ≤ 7 ∨ c.u 5 1 = 0xFF) → (c.u 34 1 ≤ 67 ∨ c.u 34 1 = 0xFF) → (c.u 33 1 = 4 ∨ c.u 33 1 = 6 ∨ c.u 4 1 ≠ 2) →
      (c.u 36 2 = 0 ∨ (64 ≤ c.u 36 2 ∧ c.u 36 2 ≤ 9216)) → (c.u 38 2 < 1024 ∨ c.u 38 2 = 0xFFFF) →
      (c.u 40 2 < 8192 ∨ c.u 40 2 = 0xFFFF) → (c.u 42 2 < 2048 ∨ c.u 42 2 = 0xFFFF) → (c.u 44 2 < 1024 ∨ c.u 44 2 = 0xFFFF) →
      live = (s.metersLive [c.u 40 2] && (c.u 38 2 == 0xFFFF || (agetD s.trf.gates (c.u 38 2) {}).enabled) &&
        (c.u 42 2 == 0xFFFF || (s.recovery (c.u 42 2)).enabled) && (c.u 44 2 == 0xFFFF || (agetD s.trf.gen (c.u 44 2) {}).enabled)) →
      (bit (c.u 1 1) 0 = true → live = false → exec (.trfStreamFilter host q dma) s = .next (s.failCmd c.index 0x0401)) ∧
      ((bit (c.u 1 1) 0 = false ∨ live = true) →
        ∃ t : State, exec (.trfStreamFilter host q dma) s = .next (t.finishCmd c.index 0 0 []) ∧
          (∃ x, aget t.trf.filters i = some x ∧ x.enabled = bit (c.u 1 1) 0 ∧ x.gate = c.u 38 2 ∧ x.meter = c.u 40 2 ∧
            x.recovery = c.u 42 2 ∧ x.generation = c.u 44 2 ∧ x.maxSdu = c.u 36 2 ∧ x.vid = c.u 6 2 % 4096 ∧ x.mac = c.u 8 6 ∧
            x.source = c.u 34 1) ∧
          (∀ k, k ≠ i → aget t.trf.filters k = aget s.trf.filters k) ∧ Only Group.trf s t)) ∧
    (∀ stream i l, (agetD (if stream then s.trf.gates else s.trf.gcl) i {}).pend = some l →
      (agetD (if stream then s.trf.gates else s.trf.gcl) i {}).retained = false → (s.domain l.domain).state ≠ .disabled →
      (stream = false → s.imageList i = none) →
      ∃ t, exec (.hostGclChange stream i) s = .next t ∧ t.clk = (s.waitDom l.domain l.change).clk ∧
        (∃ g, aget (if stream then t.trf.gates else t.trf.gcl) i = some g ∧ g.cur = some l ∧ g.pend = none ∧ g.pos = 0)) ∧
    (∀ i l, (agetD s.trf.gcl i {}).pend = some l → (agetD s.trf.gcl i {}).retained = false → (s.domain l.domain).state ≠ .disabled →
      s.imageList i ≠ none →
      ∃ t, exec (.hostGclChange false i) s = .next t ∧ t.clk = (s.waitDom l.domain l.change).clk ∧
        aget t.trf.gcl i = some { agetD s.trf.gcl i {} with retained := true }) ∧
    (∀ i l, (agetD s.trf.gates i {}).cur = some l → (s.domain l.domain).state ≠ .disabled →
      ∃ t, exec (.streamGateEntry i) s = .next t ∧
        ((agetD s.trf.gates i {}).rephase = none → aget t.trf.gates i = some { agetD s.trf.gates i {} with
          pos := ((agetD s.trf.gates i {}).pos + 1) % max 1 l.entries.length }) ∧
        (∀ e, (agetD s.trf.gates i {}).rephase = some e → aget t.trf.gates i = some { agetD s.trf.gates i {} with
          pos := if (agetD s.trf.gates i {}).pos + 1 < l.entries.length then (agetD s.trf.gates i {}).pos + 1 else 0
          rephase := if (agetD s.trf.gates i {}).pos + 1 < l.entries.length then some e else none }) ∧
        Only (Group.clk ||| Group.trf ||| Group.dom) s t)) ∧
  (∀ (s : State) (i : Nat) (r : Frer), s.datapathUp = true → r = s.recovery i → r.enabled = true →
    (r.top ≠ none →
      ∃ t, exec (.frerResetTimeout i) s = .next t ∧ (t.recovery i).top = none ∧ (t.recovery i).seen = [] ∧
        (t.recovery i).pend = r.pend ∧ t.clk = (s.waitUntil (r.lastAccept + 1000000 * r.resetMs)).clk ∧
        (∀ k, k ≠ i → t.recovery k = s.recovery k) ∧
        Only (Group.regs ||| Group.mem ||| Group.clk ||| Group.hif ||| Group.trf ||| Group.dom) s t) ∧
    (r.top = none → exec (.frerResetTimeout i) s = .next s) ∧
    (∀ u d, r.latentEn = true → d = (r.perDup : Int) - (r.perPassed * (r.latentPaths - 1) : Nat) →
      u = (s.waitUntil (r.perAt + 1000000 * r.latentMs)) →
      exec (.frerLatentPeriod i) s = .next (if r.latentDiff < d.natAbs then
          (u.recovMod i fun r => { r with perPassed := 0, perDup := 0, perAt := u.clk }).raise 0x6006 i
        else u.recovMod i fun r => { r with perPassed := 0, perDup := 0, perAt := u.clk })))

/-- A domain is enabled UNSET, a correction is slewed, stepped or held by its size, and a held step waits to
be accepted (13_time.md, R449, R450, R451, R457, R458). Completion of TIME_DOMAIN_CONFIG: with legal settings
it enables a disabled domain UNSET at value 0, and disables one that nothing uses; one in use fails with
0x0803, a domain above 3 with 0x0801. Completion of TIME_ADJUST: with an offset it steps an UNSET domain,
slews by an offset within the threshold and holds a larger one, whose RESULT says which; a network domain
fails with 0x0802. Completion of TIME_JUMP_ACCEPT: it applies the held step of the sequence number that it
names, or drops it; another number fails with 0x0805, a domain that holds none with 0x0804. -/
def Obligations.TimeCommands : Prop :=
  ∀ (s : State) (host q i : Nat) (c : Cmd), s.quenched Dom.time = false → i = c.u 0 1 →
    (∀ new, s.Ready host q 0x0800 c → i ≤ 3 → new = State.domainSet c (s.domain i) → State.domainRanges new = true →
      bit (c.u 1 1) 0 = true → s.domainPorts i new = true → (s.domain i).state = .disabled →
      ∃ t : State, exec (.timeDomainConfig host q) s = .next (t.finishCmd c.index 0 0 []) ∧
        (t.domain i).state = .unset ∧ (t.domain i).value = 0 ∧ (t.domain i).source = c.u 2 1 ∧ (t.domain i).slew = 0 ∧
        (t.domain i).rate = 0 ∧ (∀ k, k ≠ i → t.domain k = s.domain k) ∧ Only Group.dom s t) ∧
    (s.Ready host q 0x0800 c → i ≤ 3 → State.domainRanges (State.domainSet c (s.domain i)) = true → bit (c.u 1 1) 0 = false →
      ((s.domain i).state ≠ .disabled → s.domainUsed i = true →
        exec (.timeDomainConfig host q) s = .next (s.failCmd c.index 0x0803)) ∧
      (((s.domain i).state = .disabled ∨ s.domainUsed i = false) →
        ∃ t : State, exec (.timeDomainConfig host q) s = .next (t.finishCmd c.index 0 0 []) ∧ (t.domain i).state = .disabled ∧
          (∀ k, k ≠ i → t.domain k = s.domain k) ∧ Only Group.dom s t)) ∧
    (s.Ready host q 0x0800 c → 3 < i → exec (.timeDomainConfig host q) s = .next (s.failCmd c.index 0x0801)) ∧
    (∀ o d, s.Ready host q 0x0801 c → i ≤ 3 → d = s.domain i → d.state ≠ .disabled → d.source ≠ 1 → c.u 1 1 = 2 →
      (toSigned 32 (c.u 4 4)).natAbs ≤ 500000000 → o = toSigned 64 (c.u 8 8) →
      (d.state = .unset →
        ∃ t : State, exec (.timeAdjust host q) s = .next (t.finishCmd c.index 0 1 []) ∧ (t.domain i).state = .locked ∧
          (t.domain i).slew = 0 ∧ (t.domain i).value = (((d.value : Int) + 2 ^ 32 * o) % State.domWrap).toNat) ∧
      (d.state ≠ .unset → d.resumed = false → d.newSource = false → o.natAbs ≤ d.threshold →
        ∃ t : State, exec (.timeAdjust host q) s = .next (t.finishCmd c.index 0 0 []) ∧ (t.domain i).state = .locked ∧
          (t.domain i).slew = 2 ^ 32 * o ∧ (t.domain i).value = d.value ∧ (t.domain i).offset = o ∧ Only Group.dom s t) ∧
      (d.state ≠ .unset → d.resumed = false → d.threshold < o.natAbs →
        ∃ t : State, exec (.timeAdjust host q) s = .next (t.finishCmd c.index 0 2 []) ∧ (t.domain i).state = .held ∧
          (t.domain i).heldStep = o ∧ (t.domain i).slew = 0 ∧ (t.domain i).value = d.value)) ∧
    (s.Ready host q 0x0801 c → i ≤ 3 → (s.domain i).state ≠ .disabled → (s.domain i).source = 1 →
      exec (.timeAdjust host q) s = .next (s.failCmd c.index 0x0802)) ∧
    (∀ d, s.Ready host q 0x0802 c → i ≤ 3 → d = s.domain i → d.state = .held →
      (d.heldSeq ≠ c.u 2 2 → exec (.timeJumpAccept host q) s = .next (s.failCmd c.index 0x0805)) ∧
      (d.heldSeq = c.u 2 2 → bit (c.u 1 1) 0 = false →
        exec (.timeJumpAccept host q) s = .next ((s.stepDomain i d.heldStep 2).finishCmd c.index 0 (ofSigned 64 d.heldStep) [])) ∧
      (d.heldSeq = c.u 2 2 → bit (c.u 1 1) 0 = true →
        ∃ t : State, exec (.timeJumpAccept host q) s = .next (t.finishCmd c.index 0 0 []) ∧ (t.domain i).state = .locked ∧
          (t.domain i).heldStep = 0 ∧ (t.domain i).value = d.value ∧ Only Group.dom s t)) ∧
    (s.Ready host q 0x0802 c → i ≤ 3 → (s.domain i).state ≠ .disabled → (s.domain i).state ≠ .held →
      exec (.timeJumpAccept host q) s = .next (s.failCmd c.index 0x0804))

/-- A Sync corrects its domain, a silent source leaves it in HOLDOVER, and a snapshot latches all clocks on
one tick (13_time.md, R447, R448, R449, R453, R454). Completion of PTP_FRAME_RECEIVED: a Sync of a domain's
slave port sets the rate and corrects the domain; a PTP frame of no domain is counted. Completion of
SYNC_RECEIPT_TIMEOUT and HOST_SOURCE_TIMEOUT: a source that is silent past its timeout leaves a locked network
domain, or a held host domain, in HOLDOVER without its slew or step. Completion of PTP_SYNC_TRANSMIT: a Sync
goes out on a port of a domain whose grandmaster the device is. Completion of SLEW_END: a slew ends after its
ticks. Completion of TIM_SNAP: a snapshot latches the local clock and each domain's time; a write with bit 0
clear latches nothing. -/
def Obligations.TimeEvents : Prop :=
  ∀ (s : State) (i : Nat),
    (∀ port n o rate, s.domainOf n = some i → port < 64 → bit (s.domain i).ports port = true → s.gptpUp = true →
      (s.domain i).source = 1 → (s.domain i).slave = some port → i < 4 →
      exec (.ptpFrameReceived port n (.sync o rate)) s =
        .next ((s.domMod i fun d => { d with lastAt := s.clk, rate := max (-500000000) (min 500000000 rate) }).correct i o).2) ∧
    (∀ port n m, s.domainOf n = none → s.pwr.fwReady = true →
      exec (.ptpFrameReceived port n m) s = .next (s.bump Reg.timPtpDropCnt)) ∧
    ((s.domain i).source = 1 → s.gptpUp = true → (s.domain i).state = .locked →
      ∃ t, exec (.syncReceiptTimeout i) s = .next t ∧ (t.domain i).state = .holdover ∧ (t.domain i).slew = 0 ∧
        (t.domain i).heldStep = 0 ∧ t.clk = (s.waitUntil ((s.domain i).lastAt + State.syncLimit (s.domain i))).clk) ∧
    ((s.domain i).source = 2 → (s.domain i).hostTimeout ≠ 0 → s.quenched Dom.time = false → (s.domain i).state = .held →
      ∃ t, exec (.hostSourceTimeout i) s = .next t ∧ (t.domain i).state = .holdover ∧ (t.domain i).heldStep = 0 ∧
        t.clk = (s.waitUntil ((s.domain i).lastAt + 1000000 * (s.domain i).hostTimeout)).clk) ∧
    (∀ port, s.gptpUp = true → (s.domain i).state ≠ .disabled → port < 64 → bit (s.domain i).ports port = true →
      s.portDown port = false → (s.domain i).source ≠ 1 →
      exec (.ptpSyncTransmit i port) s = .next (if (s.domain i).gmCapable then s.emit (.ptp i port) else s)) ∧
    ((s.domain i).slew ≠ 0 → exec (.slewEnd i) s = .next (s.tick (State.slewTicks (s.domain i)))) ∧
    (∀ host tag v r, s.Reached → s.Writable host Reg.timSnap r →
      ∃ t, exec (.timSnap host tag v) s = .next t ∧
        (v.toNat % 2 = 0 → (∀ k, t.rget k = s.rget k) ∧ Only Group.regs s t) ∧
        (v.toNat % 2 = 1 → t.rget Reg.timSnapLocalLo = BitVec.ofNat 32 s.clk ∧
          (∀ d, d < 4 → t.rget (Reg.timSnapNs0 d) = BitVec.ofNat 32 (s.domNs d % 10 ^ 9) ∧
            t.rget (Reg.timSnapSecLo0 d) = BitVec.ofNat 32 (s.domNs d / 10 ^ 9)) ∧ Only Group.regs s t))

/-- A CAN channel counts errors, stores what a filter accepts, sends its best frame and leaves bus-off after
recovery (09_edge_buses.md, R319 to R322, R324 to R332). Completion of CAN_BUS_ERROR: an error of a running
channel sets LEC and raises TEC by 8 when transmitting and the error is such, or REC by 1 or 8, and the state
follows from the counts; in partial networking it is only counted; a channel that hears nothing is unchanged.
Completion of CAN_FRAME_RECEIVED: a received frame goes by the first filter that matches; without one, or with
one that rejects, it is only heard; an XL frame longer than the limit is counted as oversize; in partial
networking a frame is stored only if its filter wakes, and then ends partial networking; a frame of a format
that is not enabled starts a protocol exception, or is a form error where PEX_EN is clear. Completion of
CAN_TX_ATTEMPT: the frame offered is sent, leaves its buffer or the FIFO and lowers TEC; a lost arbitration is
only counted; a buffer's frame that failed and may be repeated stays, begun; a channel that offers nothing is
unchanged. Completion of BUS_OFF_RECOVER_DELAY: after its delay automatic recovery begins. Completion of
BUS_OFF_RECOVERY_DONE: recovery ends error-active with both counts 0. Completion of PROTOCOL_EXCEPTION_END:
the exception ends and is counted. -/
def Obligations.CanTraffic : Prop :=
  ∀ (s : State) (ch : Nat) (c : CanCh), c = s.canCh ch →
    (∀ code tr eight tec rec, s.canHears ch = true → 1 ≤ code → code ≤ 7 → c.pn = false → c.mode ≠ .listenOnly →
      c.newMode = none → tec = c.tec + (if tr && eight then 8 else 0) →
      rec = c.rec_ + (if tr then 0 else if eight then 8 else 1) →
      ∃ t, exec (.canBusError ch code tr eight) s = .next t ∧ (t.canCh ch).lec = code ∧ (t.canCh ch).tec = tec ∧
        (t.canCh ch).rec_ = min 128 rec ∧ (t.canCh ch).state = State.canOfCounts tec rec ∧ (t.canCh ch).bufs = c.bufs ∧
        (∀ k, k ≠ ch → t.canCh k = s.canCh k)) ∧
    (∀ code tr eight, s.canHears ch = true → 1 ≤ code → code ≤ 7 → c.pn = true → c.newMode = none →
      exec (.canBusError ch code tr eight) s = .next (s.bump (Reg.edgCanPnIgnoredCnt ch))) ∧
    (∀ code tr eight, s.canHears ch = false → exec (.canBusError ch code tr eight) s = .next s) ∧
    (∀ (f : CanFrame) ago, s.canHears ch = true → State.canFormatOn c.cfg f.format = true →
      (f.format = .xl → f.data.length ≤ c.cfg.xlLimit) →
      ((∀ x ∈ c.cfg.filters, State.filterHits x f = false) →
        exec (.canFrameReceived ch f ago) s = .next (s.canHeard ch)) ∧
      (∀ x, c.cfg.filters.find? (fun x => State.filterHits x f) = some x → bit (le x 0 1) 1 = true →
        exec (.canFrameReceived ch f ago) s = .next (s.canHeard ch)) ∧
      (∀ x, c.cfg.filters.find? (fun x => State.filterHits x f) = some x → bit (le x 0 1) 1 = false → c.pn = false →
        exec (.canFrameReceived ch f ago) s = .next ((s.canHeard ch).canStore ch x f ago)) ∧
      (∀ x, c.cfg.filters.find? (fun x => State.filterHits x f) = some x → bit (le x 0 1) 1 = false → c.pn = true →
        exec (.canFrameReceived ch f ago) s = .next (if bit (le x 0 1) 3 then
          ((s.canHeard ch).canMod ch fun c => { c with pn := false }).canStore ch x f ago else s.canHeard ch))) ∧
    (∀ (f : CanFrame) ago, s.canHears ch = true → State.canFormatOn c.cfg f.format = true → f.format = .xl →
      c.cfg.xlLimit < f.data.length → c.pn = false →
      exec (.canFrameReceived ch f ago) s = .next ((s.canHeard ch).bump (Reg.edgCanRxOversizeCnt ch))) ∧
    (∀ (f : CanFrame) ago, s.canHears ch = true → State.canFormatOn c.cfg f.format = false →
      exec (.canFrameReceived ch f ago) s = .next (if c.cfg.pexEn then s.canMod ch fun c => { c with pex := true }
        else s.canFault ch 2 false false)) ∧
    (∀ (f : CanFrame) ago, s.canHears ch = false → exec (.canFrameReceived ch f ago) s = .next s) ∧
    (∀ src x, s.canOffer ch = some (src, x) →
      exec (.canTxAttempt ch .arbLost) s = .next (s.bump (Reg.edgCanArbLostCnt ch)) ∧
      ∃ t, exec (.canTxAttempt ch .sent) s = .next t ∧ Output.can ch x.frame ∈ t.out) ∧
    (∀ x, s.canOffer ch = some (.fifo, x) → c.tec ≤ 255 → c.rec_ ≤ 128 →
      ∃ t, exec (.canTxAttempt ch .sent) s = .next t ∧ (t.canCh ch).fifo = c.fifo.tail ∧ (t.canCh ch).bufs = c.bufs ∧
        (t.canCh ch).tec = c.tec - 1) ∧
    (∀ b x, s.canOffer ch = some (.buffer b, x) → aget c.held b = none → c.tec ≤ 255 → c.rec_ ≤ 128 →
      (∃ t, exec (.canTxAttempt ch .sent) s = .next t ∧ Output.can ch x.frame ∈ t.out ∧ aget (t.canCh ch).bufs b = none ∧
        (t.canCh ch).tec = c.tec - 1 ∧ (t.canCh ch).rec_ = c.rec_ ∧ (t.canCh ch).fifo = c.fifo) ∧
      (∀ code eight, x.single = false → exec (.canTxAttempt ch (.error code eight)) s = .next ((s.canMod ch fun c =>
        { c with bufs := c.bufs.map fun y => if y.1 == b then (y.1, { y.2 with begun := true }) else y }).canFault ch code true
          eight))) ∧
    (∀ r, s.canOffer ch = none → exec (.canTxAttempt ch r) s = .next s) ∧
    (ch < 64 → s.busUp ch = true → c.state = .busOff → c.cfg.autoRecover = true → c.latched = false → c.recovering = false →
      exec (.busOffRecoverDelay ch) s =
        .next ((s.waitUntil (c.busOffAt + 1000000 * c.cfg.recoverMs)).canMod ch fun c => { c with recovering := true })) ∧
    (ch < 64 → s.busUp ch = true → c.state = .busOff → c.recovering = true →
      ∃ t, exec (.busOffRecoveryDone ch) s = .next t ∧ (t.canCh ch).state = .errorActive ∧ (t.canCh ch).tec = 0 ∧
        (t.canCh ch).rec_ = 0 ∧ (t.canCh ch).recovering = false ∧ (∀ k, k ≠ ch → t.canCh k = s.canCh k)) ∧
    (ch < 64 → c.pex = true → exec (.protocolExceptionEnd ch) s =
      .next ((s.canMod ch fun c => { c with pex := false }).bump (Reg.edgCanPexCnt ch)))

/-- An edge channel takes a configuration or a mode at once when it is stopped and at bus idle otherwise
(09_edge_buses.md, R316, R334, R344, R346 to R348, R330). Completion of EDG_CAN_CONFIG, EDG_LIN_CONFIG and
EDG_T1S_CONFIG: a legal configuration of a channel that no running image names is applied to a stopped channel
and waits for bus idle on a running one; the filters or entries of a main host's command are read from its
memory; illegal CAN timing fails with 0x0501, illegal formats with 0x0502, a node setting of a segment outside
R344 with 0x0506. Completion of CONFIG_APPLY_AT_IDLE: at bus idle the waiting configuration is applied.
Completion of EDG_XCVR_MODE: the mode is ordered on every channel named, whose mode before is kept, and the
command ends when each of them has settled, running until then. Completion of XCVR_MODE_APPLY and
XCVR_MODE_FORCED: a mode that was ordered is taken at bus idle, or after its time, which loses a LIN frame in
progress and is reported. Completion of XCVR_SETTLE_END: the settling time of a channel ends. Completion of
EDG_BUS_OFF_RECOVER: in bus-off recovery begins, with the channel's frames flushed if asked; otherwise it
fails with 0x0504. -/
def Obligations.EdgeConfiguration : Prop :=
  ∀ (s : State) (host q : Nat) (c : Cmd), s.datapathUp = true → s.quenched Dom.edge = false →
    (∀ dma ch x u w, s.Ready host q 0x0500 c → ch = c.u 0 1 → ch < 64 → s.quenched (busUnit ch) = false → x = State.canCfgOf c dma →
      x.recoverMs ≤ 10000 → c.u 27 1 ≤ 64 → x.rxDelay ≤ 1000 → x.settle ≤ 1000 → c.u 32 8 % 8 = 0 → State.canPwm x = true →
      w = ((((s.rset (Reg.edgCanNbt ch) x.nbt).rset (Reg.edgCanDbt ch) x.dbt).rset (Reg.edgCanXbt ch) x.xbt).rset
        (Reg.edgCanTdc ch) x.tdc).rset (Reg.edgCanPwm ch) x.pwm →
      u = (if (s.canCh ch).state = .stopped ∨ s.edgeEn = false then w.canApply ch x
        else w.canMod ch fun c => { c with newCfg := some x }) →
      (State.canTiming x = false → exec (.edgCanConfig host q dma) s = .next (s.failCmd c.index 0x0501)) ∧
      (State.canTiming x = true → State.canFormats x = false →
        exec (.edgCanConfig host q dma) s = .next (s.failCmd c.index 0x0502)) ∧
      (State.canTiming x = true → State.canFormats x = true → s.namesChannel ch = false →
        exec (.edgCanConfig host q dma) s =
          .next ((if c.host = 0 then u.hostIn (c.u 32 8) (32 * c.u 27 1) else u).finishCmd c.index 0 0 []))) ∧
    (∀ dma l x u, s.Ready host q 0x0501 c → l = c.u 0 1 → l < 32 → s.quenched (busUnit (64 + l)) = false → bit (c.u 1 1) 2 = false →
      c.u 16 8 % 8 = 0 → x = State.linCfgOf c dma → State.linRanges x (c.u 7 1) (c.u 8 1) = true → s.namesChannel (64 + l) = false →
      State.linTablesOk x = true → (x.tables = [] ∨ x.startTable < x.tables.length) →
      u = (if (s.linCh l).operational && s.edgeEn then s.linMod l fun c => { c with newCfg := some x } else s.linApply l x) →
      exec (.edgLinConfig host q dma) s =
        .next ((if c.host = 0 then u.hostIn (c.u 16 8) dma.length else u).finishCmd c.index 0 0 [])) ∧
    (∀ m (x : T1sCfg) u, s.Ready host q 0x0502 c → m = c.u 0 1 → m < 16 → s.quenched (portUnit (48 + m)) = false →
      x = { enable := bit (c.u 1 1) 0, plcaEn := bit (c.u 1 1) 1, nodeId := c.u 2 1, nodeCount := c.u 3 1,
            toTimer := c.u 4 1, burstCount := c.u 5 1, burstTimer := c.u 6 1 } → s.namesPort (48 + m) = false →
      u = s.rsetF (Reg.edgT1sStatus m) 8 4 x.nodeId →
      exec (.edgT1sConfig host q) s = .next (if x.nodeId < x.nodeCount ∧ 2 ≤ x.nodeCount ∧ x.nodeCount ≤ 16 ∧ 1 ≤ x.toTimer then
          (if (s.t1sCh m).cfg.enable && u.edgeEn then u.t1sMod m fun t => { t with newCfg := some x }
            else u.t1sApply m x).finishCmd c.index 0 0 []
        else s.failCmd c.index 0x0506)) ∧
    (∀ ch x, ch < 64 → (s.canCh ch).newCfg = some x → s.quenched (busUnit ch) = false →
      exec (.configApplyAtIdle ch) s = .next (s.canApply ch x)) ∧
    (∀ l x, l < 32 → (s.linCh l).newCfg = some x → s.quenched (busUnit (64 + l)) = false →
      ∃ t, exec (.configApplyAtIdle (64 + l)) s = .next t ∧ (t.linCh l).cfg = x ∧ (t.linCh l).newCfg = none ∧
        (t.linCh l).current = none ∧ (∀ k, k ≠ l → t.linCh k = s.linCh k) ∧ Only Group.edg s t) ∧
    (∀ m x, m < 16 → (s.t1sCh m).newCfg = some x → exec (.configApplyAtIdle (96 + m)) s = .next (s.t1sApply m x)) ∧
    (∀ m pn u, s.Ready host q 0x0503 c → m = c.u 0 1 → pn = bit (c.u 1 1) 0 → m ≤ 3 → State.xcvrNamed c ≠ [] →
      (∀ ch ∈ State.xcvrNamed c, s.quenched (busUnit ch) = false ∧ s.chEnabled ch = true) → (pn = true → m = 0 ∧ c.u 16 4 = 0) →
      u = (State.xcvrNamed c).foldl (fun s ch => (s.setEdg { s.edg with before := aset s.edg.before ch (s.chMode ch) }).xcvrOrder
        ch (State.xcvrOf m) pn 100000000) s →
      exec (.edgXcvrMode host q) s = .next (if (State.xcvrNamed c).all u.settled then u.finishCmd c.index 0 0 []
        else u.cmdMod c.index fun x => { x with phase := .running, deadline := 0, pair := (s.corePair).getD 0 })) ∧
    (∀ ch, s.Ready host q 0x0504 c → ch = c.u 0 1 → ch < 64 → s.quenched (busUnit ch) = false →
      ((s.canCh ch).state ≠ .busOff → exec (.edgBusOffRecover host q) s = .next (s.failCmd c.index 0x0504)) ∧
      ((s.canCh ch).state = .busOff →
        ∃ t : State, exec (.edgBusOffRecover host q) s = .next (t.finishCmd c.index 0 0 []) ∧ (t.canCh ch).recovering = true ∧
          (t.canCh ch).latched = false ∧ (bit (c.u 1 1) 0 = true → (t.canCh ch).bufs = [] ∧ (t.canCh ch).fifo = []) ∧
          (bit (c.u 1 1) 0 = false → (t.canCh ch).bufs = (s.canCh ch).bufs ∧ (t.canCh ch).fifo = (s.canCh ch).fifo) ∧
          Only Group.edg s t)) ∧
    (∀ ch m pn, ch < 64 → (s.canCh ch).newMode = some (m, pn) → s.quenched (busUnit ch) = false →
      exec (.xcvrModeApply ch) s = .next (s.canMode ch m pn).xcvrDone ∧
      exec (.xcvrModeForced ch) s = .next (((s.waitUntil (s.canCh ch).modeBy).canMode ch m pn).raise 0x7003 ch).xcvrDone) ∧
    (∀ l m, l < 32 → (s.linCh l).newMode = some m → s.quenched (busUnit (64 + l)) = false →
      exec (.xcvrModeApply (64 + l)) s = .next (s.linMode l m).xcvrDone ∧
      exec (.xcvrModeForced (64 + l)) s = .next (((((s.waitUntil (s.linCh l).modeBy).linMode l m).linMod l fun c =>
        { c with current := none }).raise 0x7003 (64 + l)).xcvrDone)) ∧
    (∀ ch t, (s.canCh ch).settleAt = some t →
      exec (.xcvrSettleEnd ch) s = .next (((s.waitUntil t).canMod ch fun c => { c with settleAt := none }).xcvrDone))

/-- LIN schedules run in order, a header is answered by its entry, and a 10BASE-T1S segment reports what it
sees (09_edge_buses.md, R327, R337 to R345; 04_schedule_contract.md, R168). Completion of LIN_SCHEDULE_SLOT: a
commander's next slot starts when the one before ends, and sends its entry's header. Completion of
LIN_HEADER_RECEIVED: a responder answers a header with right parity and rate by the entry of its identifier; a
rate outside 14 percent is only counted. Completion of LIN_RESPONSE_END: a responder's own response that ends
well is no longer changed; without a response in progress nothing changes. Completion of LIN_BUS_IDLE_TIMEOUT:
bus idle is reported once. Completion of EDGE_SLOT_OPEN: a slot of the running image, on a CAN or a LIN
channel and of either kind, opens until its window ends, with the frame held for its template if it is of kind
1; a slot whose window has passed, and one without a running image, opens nothing. Completion of
EDGE_SLOT_END: the earliest open slot of the number ends; one that is done or had nothing to send ends without
more; one begun and not finished is abandoned, counted, and its begun frame leaves its buffer; one not begun
on a channel idle for a moment is a breach of kind 4 of its own image's calendar, with a time that is a free
value, and otherwise counts as a missed slot; the striker of a pair does neither on a shared channel.
Completion of PLCA_STATUS_CHANGE, T1S_DUP_COORDINATOR and T1S_COLLISION: on a running port with PLCA each is
reported or counted as its rule says. -/
def Obligations.LinAndSegments : Prop :=
  ∀ (s : State) (l : Nat) (c : LinCh), c = s.linCh l →
    (∀ n d k, l < 32 → s.busUp (64 + l) = true → c.operational = true → c.cfg.commander = true → c.mode = .normal →
      s.busQuiet = false → s.inSlots (64 + l) = false → State.linSlot c.cfg c.next = some (n, d) → State.linChoice c.cfg n = some k →
      ∃ u, exec (.linScheduleSlot l) s = .next (State.linHeader u l k) ∧ u.clk = (s.waitUntil c.slotEnd).clk ∧
        (u.linCh l).slotEnd = u.clk + 100000 * d ∧ (u.linCh l).next = (State.linAfter c c.next).1 ∧
        (u.linCh l).cfg = c.cfg ∧ u.out = s.out) ∧
    (∀ id rate par ago, l < 32 → s.busUp (64 + l) = true → c.operational = true → c.cfg.commander = false →
      (100 * rate < c.cfg.rate * 86 ∨ 114 * c.cfg.rate < 100 * rate) →
      exec (.linHeaderReceived l id rate par ago) s =
        .next ((s.bump (Reg.edgLinSyncErrCnt l)).bump (Reg.edgLinErrCnt l))) ∧
    (∀ id rate ago n e, l < 32 → s.busUp (64 + l) = true → c.operational = true → c.cfg.commander = false →
      c.cfg.rate * 86 ≤ 100 * rate → 100 * rate ≤ 114 * c.cfg.rate → c.cfg.entries.findIdx? (fun e => e.id == id) = some n →
      c.cfg.entries[n]? = some e → e.dir = 1 → e.type = 0 → s.busQuiet = false → c.mode = .normal →
      ∃ t, exec (.linHeaderReceived l id rate true ago) s = .next t ∧ t.out = s.out ++ [.linResponse l (fit e.length e.data)] ∧
        (t.linCh l).current = some n ∧ (t.linCh l).rate = rate ∧ (t.linCh l).lastHeader = s.clk ∧ (t.linCh l).idle = false ∧
        Only Group.edg s t) ∧
    (∀ r data, c.current = none → exec (.linResponseEnd l r data) s = .next s) ∧
    (∀ n e data, c.current = some n → c.cfg.entries[n]? = some e → s.busUp (64 + l) = true → c.operational = true → e.dir = 1 →
      c.cfg.respErrEntry ≠ n → c.cfg.commander = false →
      ∃ t, exec (.linResponseEnd l .ok data) s = .next t ∧ (t.linCh l).current = none ∧ (∀ k, k ≠ l → t.linCh k = s.linCh k) ∧
        (t.linCh l).cfg.entries = c.cfg.entries.modify n fun e => { e with changed := false }) ∧
    (l < 32 → s.busUp (64 + l) = true → c.operational = true → c.cfg.commander = false → c.idle = false →
      exec (.linBusIdleTimeout l) s =
        .next (((s.waitUntil (c.lastHeader + 1000000 * c.cfg.idleMs)).linMod l fun c => { c with idle := true }).raise 0x7004 l)) ∧
    (∀ n i e u late, s.runningImage = some i → i.slots[n]? = some e → s.calReach i e.off = some (u, late) →
      (e.window < late → exec (.edgeSlotOpen n) s = .next u) ∧
      (∀ (p : Option TxItem × State) (o : OpenSlot), late ≤ e.window → p = (if e.kind = 1 then u.takeHeld e.index else (none, u)) →
        o = { slot := n, image := i.id, ch := e.ch, kind := e.kind, index := e.index, ends := u.clk + (e.window - late),
              frame := p.1, begun := false, done := false } →
        (e.ch < 64 → exec (.edgeSlotOpen n) s =
          .next (p.2.setCal { u.cal with openSlots := u.cal.openSlots.filter (fun y => !State.sameSlot y o) ++ [o] })) ∧
        (64 ≤ e.ch → ∃ t, exec (.edgeSlotOpen n) s = .next t ∧ t.cal.openSlots.map (fun y => (y.slot, y.image, y.ends)) =
          ((u.cal.openSlots.filter fun y => !State.sameSlot y o) ++ [o]).map (fun y => (y.slot, y.image, y.ends))))) ∧
    (∀ n, s.runningImage = none → exec (.edgeSlotOpen n) s = .next s) ∧
    (∀ n idle, s.cal.openSlots.find? (fun o => o.slot == n) = none → exec (.edgeSlotEnd n idle) s = .next s) ∧
    (∀ n (o : OpenSlot) u (empty : Bool), s.cal.openSlots.find? (fun o => o.slot == n) = some o →
      u = (s.waitUntil o.ends).setCal { s.cal with openSlots := s.cal.openSlots.filter fun y => !State.sameSlot y o } →
      empty = (if o.kind = 1 then o.frame.isNone else decide (o.ch < 64) && (aget (s.canCh o.ch).bufs o.index).isNone) →
      (∀ idle, o.done = true → exec (.edgeSlotEnd n idle) s = .next u) ∧
      (∀ idle, o.begun = false → empty = true → exec (.edgeSlotEnd n idle) s = .next u) ∧
      (∀ idle v, o.done = false → o.begun = true → v = u.bump (Reg.edgCanSlotAbandonCnt o.ch) →
        exec (.edgeSlotEnd n idle) s = .next (if o.kind = 0 && ((aget (s.canCh o.ch).bufs o.index).any (·.begun)) then
          v.txRemove o.ch (.buffer o.index) else v)) ∧
      (o.done = false → o.begun = false → empty = false → (s.strikerNow && s.sharedCh o.ch) = false →
        exec (.edgeSlotEnd n true) s = .next (u.free.2.breach o.image 0xFFFF 4 o.ch u.free.1 (some (busUnit o.ch))) ∧
        exec (.edgeSlotEnd n false) s = .next (u.bump Reg.calEdgeMissCnt)) ∧
      (∀ idle, o.begun = false → (s.strikerNow && s.sharedCh o.ch) = true → exec (.edgeSlotEnd n idle) s = .next u)) ∧
    (∀ m, s.t1sRuns m = true → (s.t1sCh m).cfg.plcaEn = true →
      (∀ ok, (s.t1sCh m).plcaOk = ok → exec (.plcaStatusChange m ok) s = .next s) ∧
      (∀ ok, (s.t1sCh m).plcaOk ≠ ok →
        exec (.plcaStatusChange m ok) s = .next ((((if ok then s else s.bump (Reg.edgT1sBeaconLossCnt m)).t1sMod m fun t =>
          { t with plcaOk := ok }).t1sSync).t1sEvent m (m + 256 * b2n ok))) ∧
      ((s.t1sCh m).cfg.nodeId = 0 →
        exec (.t1sDupCoordinator m) s =
          .next ((s.bump (Reg.edgT1sDupCoordCnt m)).t1sEvent m (m + 256 * b2n (s.t1sCh m).plcaOk + 512))) ∧
      exec (.t1sCollision m) s = .next (s.bump (Reg.edgT1sCollCnt m)))

/-- The tunnel engine takes edge frames, batches them, injects its frames one at a time and takes tunnel
frames apart (10_tunnels_signals.md, R351, R356 to R365, R381 to R383; 11_security.md, R402). Completion of
TUN_ENCAP_TAKE: an encapsulating channel takes the frame with the earliest end: one with no map entry or too
long is dropped and counted, and one without batching or profile is sent at once. Completion of BATCH_TIMEOUT:
a batch closes at its time, and an empty one leaves all as it was. Completion of TUNNEL_WINDOW_OPEN and
TUNNEL_WINDOW_CLOSE: a window of the running image opens and closes its channel's, and its batch closes with
it. Completion of X_PORT_INJECT: port X0 or X1 injects its first frame as a whole frame of its source and
takes 4 ns per byte; a striker discards a shared one and counts it. Completion of TUN_DECAPSULATE: a frame of
no AVTP type counts as no match; one of a channel is counted and taken apart, only counted as discarded while
decapsulation is off, and lost when the channel is quenched. Completion of PRESENTATION_HOLD_END: a held frame
is written when its time has come, and those behind it keep waiting for theirs. Completion of TUN_CHANNEL_SET:
a legal configuration is taken; a stream that another decapsulating channel has fails with 0x0601, a bad bus
map with 0x0602. -/
def Obligations.TunnelEngine : Prop :=
  ∀ (s : State) (n : Nat), s.datapathUp = true →
    (∀ chan (x : RxItem), s.tunRuns n = true → s.batchFlow n = s → s.encTakes n = true → bit (s.tunCh n).flags 3 = false →
      s.xRoom (State.onX1 n) ((s.tunCh n).maxBytes + 46) = true → 64 ≤ (s.tunCh n).profile →
      State.rxFirst (s.rxFor n) = some (chan, x) →
      ∃ u, u = s.rxTake chan x.seq (fun y => { y with tunnels := y.tunnels.filter (· ≠ n) }) ∧
        ((s.tunCh n).busMap.find? (fun b => bit b.flags 0 && b.edge == chan) = none →
          exec (.tunEncapTake n) s = .next (u.bump Reg.tunEncDropCnt)) ∧
        (∀ b (m : TunMsg), (s.tunCh n).busMap.find? (fun b => bit b.flags 0 && b.edge == chan) = some b →
          m = { bytes := u.acfOf chan b.bus x.frame (x.doms.getD (s.tunCh n).domain 0),
                stamp := x.doms.getD (s.tunCh n).domain 0, eof := x.eof } →
          exec (.tunEncapTake n) s = .next (if (s.tunCh n).maxBytes < m.bytes.length then u.bump Reg.tunEncDropCnt
            else u.tunSend n [m] .none none))) ∧
    (s.tunRuns n = true → s.hasWindow n = false → s.batchFlow n = s →
      exec (.batchTimeout n) s = .next (if (s.tunCh n).batch.isEmpty then s
        else (s.waitUntil ((s.tunCh n).batchAt + 1000 * (s.tunCh n).batchUs)).batchClose n)) ∧
    (∀ w i e u late, s.runningImage = some i → i.windows[w]? = some e →
      (s.calReach i e.opens = some (u, late) → late < e.closes - e.opens → u.tunRuns e.ch = false →
        exec (.tunnelWindowOpen w) s = .next (u.setCal { u.cal with openWindows := e.ch :: u.cal.openWindows.filter (· ≠ e.ch) })) ∧
      (s.calReach i e.closes = some (u, late) → e.ch ∈ s.cal.openWindows →
        ∃ v, v = u.setCal { u.cal with openWindows := u.cal.openWindows.filter (· ≠ e.ch) } ∧ e.ch ∉ v.cal.openWindows ∧
          exec (.tunnelWindowClose w) s = .next (if v.tunRuns e.ch then v.batchClose e.ch else v))) ∧
    (∀ x (f : XFrame) r, x < 2 → s.quenched Dom.services = false → s.quenched (State.pipeDom x) = false →
      (if x = 1 then s.tun.x1 else s.tun.x0) = f :: r → s.standbyDiscards f = false →
      ∃ t g, exec (.xPortInject x) s = .next t ∧
        t.clk = (s.waitUntil (if x = 1 then s.tun.free1 else s.tun.free0)).clk ∧ t.fr.frames = s.fr.frames ++ [g] ∧
        g.fid = s.fr.next ∧ g.src = 65 + x ∧ g.bytes = f.bytes ∧ g.complete = true ∧ g.start = f.start ∧ g.edge = f.edge ∧
        t.fr.heads = s.fr.heads ++ [(65 + x, s.fr.next)] ∧
        ((∀ k, (s.tunCh k).closed = none) → (∀ k, (s.seqOf k).outbox = []) →
          (if x = 1 then t.tun.x1 = r ∧ t.tun.free1 = t.clk + 4 * f.bytes.length ∧ t.tun.x0 = s.tun.x0
            else t.tun.x0 = r ∧ t.tun.free0 = t.clk + 4 * f.bytes.length ∧ t.tun.x1 = s.tun.x1))) ∧
    (∀ x (f : XFrame) r, x < 2 → s.quenched Dom.services = false → s.quenched (State.pipeDom x) = false →
      (if x = 1 then s.tun.x1 else s.tun.x0) = f :: r → s.standbyDiscards f = true → (∀ k, (s.tunCh k).closed = none) →
      (∀ k, (s.seqOf k).outbox = []) → exec (.xPortInject x) s =
        .next ((s.setTun (if x = 1 then { s.tun with x1 := r } else { s.tun with x0 := r })).bump Reg.pairStandbyDiscardCnt)) ∧
    (∀ x (f : List Byte) r (u : State), x < 2 → s.quenched Dom.services = false → (if x = 1 then s.tun.in1 else s.tun.in0) = f :: r →
      u = s.setTun (if x = 1 then { s.tun with in1 := r } else { s.tun with in0 := r }) →
      ((parse f).etherType ≠ 0x22F0 → exec (.tunDecapsulate x) s = .next (u.bump Reg.tunNomatchCnt)) ∧
      (∀ k (t : TunCh), (parse f).etherType = 0x22F0 → 12 ≤ (f.drop (parse f).l3).length →
        (s.tun.ch.find? fun (y : Nat × TunCh) => bit y.2.flags 0 && bit y.2.flags 1 && y.2.stream == be (f.drop (parse f).l3) 4 8) =
          some (k, t) →
        (s.quenched (tunUnit k) = true → exec (.tunDecapsulate x) s = .next u) ∧
        (s.quenched (tunUnit k) = false → s.rfld Reg.tunCtrl 1 1 = 0 →
          exec (.tunDecapsulate x) s = .next ((u.bump Reg.tunDecFrameCnt).bump Reg.tunDecDiscardCnt)) ∧
        (s.quenched (tunUnit k) = false → s.rfld Reg.tunCtrl 1 1 = 1 → 64 ≤ t.profile →
          exec (.tunDecapsulate x) s = .next ((u.bump Reg.tunDecFrameCnt).tunFrameIn k (f.drop (parse f).l3))))) ∧
    (∀ ms t r, s.tunRuns n = true → (s.tunCh n).pres = (ms, t) :: r → (∀ y ∈ r, (s.waitUntil t).clk < y.2) →
      exec (.presentationHoldEnd n) s =
        .next (((s.waitUntil t).tunMod n fun t => { t with pres := r }).tunWriteAll n ms)) ∧
    (∀ host q (c : Cmd) (x : TunCh), s.Ready host q 0x0600 c → n = c.u 0 2 → n < 512 → s.quenched (tunUnit n) = false →
      x = State.tunBody c → x.domain < 4 → 64 ≤ x.maxBytes → x.maxBytes ≤ 4032 → 1 ≤ x.maxMsgs → x.maxMsgs ≤ 64 → 1 ≤ x.batchUs →
      x.batchUs ≤ 10000 → (x.profile < 64 ∨ x.profile = 0xFFFF) → x.keySlot < 1024 → (bit x.flags 2 = true → bit x.flags 5 = false ∧ bit x.flags 6 = false) →
      s.namesTunnel n = false →
      exec (.tunChannelSet host q) s = .next (if bit x.flags 0 && bit x.flags 1 && (s.tun.ch.any fun (y : Nat × TunCh) =>
            y.1 != n && bit y.2.flags 0 && bit y.2.flags 1 && y.2.stream == x.stream) then s.failCmd c.index 0x0601
        else if State.busMapOk x then (s.tunApply n x).finishCmd c.index 0 0 []
        else s.failCmd c.index 0x0602))

/-- The signal router releases jobs, extracts arrivals, runs one job at a time and loads only records that
hold together (10_tunnels_signals.md, R366 to R376, R378, R381 to R383; 04_schedule_contract.md, R145).
Completion of ROUTER_JOB_RELEASE: an image's job entry puts its job, with its deadline and release, behind the
jobs of its sequencer that were released no later, unless it is pending already; without a running image
nothing changes. Completion of SIG_JOB_RUN: a sequencer runs its calendar jobs first, and then its others; a
calendar job past its deadline is missed. Completion of JOB_DEADLINE_MISS: a job reaches some of its
templates, and at its deadline is counted as missed with EV_SIG_DEADLINE. Completion of SIG_EXTRACTION: an
arrival that no record matches counts as no match, one with a record is counted and starts its trigger job.
Completion of MAPPING_TIMEOUT: a mapping that times out is stale, and its templates stand unless its mode or
status has something written. Completion of SIG_MAP_LOAD and E2E_CONTEXT_SET: records, read from a main host's
memory, and contexts are loaded when their ranges and references hold, and otherwise fail with nothing loaded.
-/
def Obligations.SignalRouter : Prop :=
  ∀ (s : State) (q : Nat), s.datapathUp = true → s.quenched Dom.services = false → q < 4 →
    (∀ n i e u late, s.runningImage = some i → i.jobs[n]? = some e → s.calReach i e.off = some (u, late) → e.seq = q →
      u.quenched Dom.services = false →
      exec (.routerJobRelease n) s = .next (if State.jobPending (u.seqOf q) e.job then u
        else u.seqMod q fun x => { x with
          calJobs := x.calJobs.takeWhile (fun y => y.2.2 ≤ u.clk - late) ++
            (e.job, u.clk + e.deadline - late, u.clk - late) :: x.calJobs.dropWhile (fun y => y.2.2 ≤ u.clk - late) })) ∧
    (∀ n, s.runningImage = none → exec (.routerJobRelease n) s = .next s) ∧
    (s.sigRuns q = true → (s.seqOf q).calJobs = [] → (s.seqOf q).jobs = [] →
      ∀ a r, (s.seqOf q).arrivals = a :: r → a.item = none → s.pduOf q a = none →
      exec (.sigExtraction q) s = .next ((s.seqMod q fun x => { x with arrivals := r }).bump Reg.sigNomatchCnt)) ∧
    (∀ a r p (u : State), s.sigRuns q = true → (s.seqOf q).calJobs = [] → (s.seqOf q).jobs = [] →
      (s.seqOf q).arrivals = a :: r → a.item = none → s.pduOf q a = some p → p.e2e = 0xFFFF → p.mapCount = 0 →
      u = (s.seqMod q fun x => { x with arrivals := r }).bump Reg.sigExtractCnt →
      exec (.sigExtraction q) s = .next (if p.trigger = 0xFFFF then u
        else u.seqMod q fun x => { x with jobs := x.jobs ++ [(p.trigger, s.clk)] })) ∧
    (∀ j by_ start r u, s.sigRuns q = true → (s.seqOf q).calJobs = (j, by_, start) :: r →
      u = s.seqMod q (fun x => { x with calJobs := r }) →
      exec (.sigJobRun q) s = .next (if by_ < s.clk ∧ 0 < (agetD s.sig.jobs j (0, 0)).2 then u.jobMiss q j
        else u.jobRun q start j 256)) ∧
    (∀ j start r, s.sigRuns q = true → (s.seqOf q).calJobs = [] → (s.seqOf q).jobs = (j, start) :: r →
      exec (.sigJobRun q) s = .next ((s.seqMod q fun x => { x with jobs := r }).jobRun q start j 256)) ∧
    (∀ j by_ start r k, (s.seqOf q).calJobs = (j, by_, start) :: r → k < (agetD s.sig.jobs j (0, 0)).2 → by_ < s.clk →
      exec (.jobDeadlineMiss q k) s =
        .next (((s.seqMod q fun x => { x with calJobs := r }).bump Reg.sigDeadlineCnt).raise 0x8102 (j % 4096 + 4096 * q))) ∧
    (∀ j by_ start r k, (s.seqOf q).calJobs = (j, by_, start) :: r → k < (agetD s.sig.jobs j (0, 0)).2 → s.sigRuns q = true →
      s.clk ≤ by_ → exec (.jobDeadlineMiss q k) s = .next (((((s.jobRun q start j k).waitUntil by_).seqMod q fun x =>
        { x with calJobs := r }).bump Reg.sigDeadlineCnt).raise 0x8102 (j % 4096 + 4096 * q))) ∧
    (∀ n m, aget s.sig.maps n = some m → m.timeout ≠ 0 → m.stale = false →
      ∃ t, exec (.mappingTimeout n) s = .next t ∧ t.clk = (s.waitUntil (m.at_ + 100000 * m.timeout)).clk ∧
        (∃ x, aget t.sig.maps n = some x ∧ x.stale = true ∧ x.at_ = m.at_) ∧
        (bit m.flags 4 = false → m.flags / 4 % 4 = 0 → s.quietStatus n = [] → t.sig.tpls = s.sig.tpls) ∧
        (∀ k, k ≠ n → aget t.sig.maps k = aget s.sig.maps k)) ∧
    (∀ host qq (c : Cmd) dma recs u, s.Ready host qq 0x0601 c → c.u 0 1 ≤ 3 → 1 ≤ c.u 4 2 → c.u 4 2 ≤ 1024 →
      c.u 2 2 + c.u 4 2 ≤ State.recCount (c.u 0 1) → c.u 8 8 % 8 = 0 →
      recs = (List.range (c.u 4 2)).map (fun i =>
        (c.u 2 2 + i, fit (State.recBytes (c.u 0 1)) (dma.drop (State.recBytes (c.u 0 1) * i)))) →
      u = recs.foldl (fun s x => s.recLoad (c.u 0 1) x.1 x.2) s →
      exec (.sigMapLoad host qq dma) s = .next (
        if recs.any fun x => !State.recRange (c.u 0 1) x.2 then s.failCmd c.index 0x0604
        else if recs.any fun x => !s.recRefs (c.u 0 1) x.1 x.2 then s.failCmd c.index 0x0605
        else if c.u 0 1 = 3 ∧ (recs.any fun x => le x.2 2 2 == 0 && s.liveImages.any fun i => i.jobs.any (·.job == x.1)) = true then
          s.failCmd c.index 0x0606
        else (if c.host = 0 then u.hostIn (c.u 8 8) (State.recBytes (c.u 0 1) * c.u 4 2) else u).finishCmd c.index 0 0 [])) ∧
    (∀ host qq (c : Cmd) n, s.Ready host qq 0x0602 c → n = c.u 0 2 → n < 1024 → s.quenched (e2eUnit n) = false → c.u 3 1 ≤ 7 →
      c.u 8 1 ≤ 4 → (c.u 9 1 = 4 ∨ c.u 9 1 = 8 ∨ c.u 9 1 = 16) → 1 ≤ c.u 10 2 → c.u 10 2 < 2 ^ c.u 9 1 →
      ∃ x : E2eCtx, x.flags = c.u 2 1 % 32 ∧ x.poly = c.u 3 1 ∧ x.dataId = c.u 4 4 ∧ x.ctrWidth = c.u 9 1 ∧ x.crcPos = c.u 12 2 ∧
        x.ctrPos = c.u 14 2 ∧ x.length = c.u 16 2 ∧ (bit (c.u 2 1) 2 = true → x.counter = 0 ∧ x.lastResult = 0xF) ∧
        exec (.e2eContextSet host qq) s = .next (if State.e2eLayout x then (s.e2eMod n fun _ => x).finishCmd c.index 0 0 []
          else s.failCmd c.index 0x0607))

/-- SEC_MACSEC_SA sets ports, channels and associations, firewall rules load from the next epoch on, and
SEC_FV_WRITE sets an entry (11_security.md, R395, R399 to R401, R386, R392, R393, R414). Completion of
PORT_CONFIG: it sets the four port flags and no other. Completion of SC_CONFIG: it sets the named channel, and
a change of XPN or CONF_OFFSET deletes its associations. Completion of SA_INSTALL: it refuses a slot whose key
may not be used, then the active transmit association, then a channel that is not enabled; otherwise the
association is installed with its first packet number, and the first of a transmit channel becomes the active
one. Completion of SA_DELETE: it refuses the active one, and deletes another. Completion of TX_SWITCH: it
makes an installed association active and none other, while its packet numbers last. Completion of
SEC_FW_RULE: a load of legal records advances the configuration epoch, puts each enabled record at its number
from that epoch on (a cleared flag takes the rule away), zeroes its hit count, and answers the epoch. At the
epoch limit, or with a bad record, whose position is the RESULT, nothing changes. Completion of SEC_FV_WRITE:
a write with GO sets the selected entry; without GO it sets nothing. -/
def Obligations.MacsecCommands : Prop :=
  (∀ (s : State) (host q : Nat) (c : Cmd) (p an : Nat) (tx : Bool), s.Ready host q 0x0701 c → s.datapathUp = true → p = c.u 0 1 → p < 64 →
    an = c.u 3 1 → tx = (c.u 2 1 == 0) →
    (c.u 1 1 = 0 → s.quenched (macsecUnit p false) = false → s.quenched (macsecUnit p true) = false →
      exec (.portConfig host q) s = .next ((s.msMod p fun m => { m with
        rxEn := bit (c.u 6 2) 0, txEn := bit (c.u 6 2) 1, strict := bit (c.u 6 2) 2, exemptPtp := bit (c.u 6 2) 3 }).finishCmd c.index 0 0 [])) ∧
    (∀ old, c.u 1 1 = 1 → s.quenched (macsecUnit p tx) = false → State.scNamed c = true →
      (c.u 18 1 = 0 ∨ c.u 18 1 = 30 ∨ c.u 18 1 = 50) → old = State.scOf (s.msPort p) c →
      ∃ (u : State) (x : Sc), exec (.scConfig host q) s = .next (u.finishCmd c.index 0 0 []) ∧ Only Group.sec s u ∧ State.scOf (u.msPort p) c = x ∧
        x.enable = bit (c.u 6 2) 0 ∧ x.xpn = bit (c.u 6 2) 1 ∧ x.conf = bit (c.u 6 2) 2 ∧ x.inclSci = bit (c.u 6 2) 3 ∧
        x.replay = bit (c.u 6 2) 4 ∧ x.autoSwitch = bit (c.u 6 2) 5 ∧ x.sci = beNat (c.bytes 8 8) ∧ x.confOff = c.u 18 1 ∧
        x.window = c.u 20 4 ∧ x.sas = (if x.xpn = old.xpn ∧ x.confOff = old.confOff then old.sas else []) ∧
        ((tx = true ∧ (x.xpn ≠ old.xpn ∨ x.confOff ≠ old.confOff)) → (u.msPort p).txAn = none) ∧
        (∀ k, k ≠ p → u.msPort k = s.msPort k)) ∧
    (c.u 1 1 = 2 → s.quenched (macsecUnit p tx) = false → s.quenched Dom.keyStore = false → State.scNamed c = true → an < 4 →
      c.u 16 2 < 1024 → 1 ≤ c.u 24 8 → ((State.scOf (s.msPort p) c).xpn = true ∨ c.u 24 8 < 2 ^ 32) →
      (s.keyFor (c.u 16 2) (if tx then 1 else 2) 1 = none → exec (.saInstall host q) s = .next (s.failCmd c.index 0x0704)) ∧
      (∀ k, s.keyFor (c.u 16 2) (if tx then 1 else 2) 1 = some k →
        ((tx && State.saActive (s.msPort p) an) = true → exec (.saInstall host q) s = .next (s.failCmd c.index 0x0703)) ∧
        ((tx && State.saActive (s.msPort p) an) = false → (State.scOf (s.msPort p) c).enable = false →
          exec (.saInstall host q) s = .next (s.failCmd c.index 0x0705)) ∧
        ((tx && State.saActive (s.msPort p) an) = false → (State.scOf (s.msPort p) c).enable = true →
          ∃ (u : State) (a : Sa), exec (.saInstall host q) s = .next (u.finishCmd c.index 0 0 []) ∧
            aget (State.scOf (u.msPort p) c).sas an = some a ∧ a.keySlot = c.u 16 2 ∧ a.nextPn = c.u 24 8 ∧ a.ssci = c.u 32 4 ∧
            a.salt = c.u 36 12 ∧ a.stopped = false ∧
            (u.msPort p).txAn = (if tx ∧ (s.msPort p).txAn = none then some an else (s.msPort p).txAn) ∧
            (∀ b, b ≠ an → aget (State.scOf (u.msPort p) c).sas b = aget (State.scOf (s.msPort p) c).sas b)))) ∧
    (c.u 1 1 = 3 → s.quenched (macsecUnit p tx) = false → State.scNamed c = true → an < 4 →
      ((tx && State.saActive (s.msPort p) an) = true → exec (.saDelete host q) s = .next (s.failCmd c.index 0x0703)) ∧
      ((tx && State.saActive (s.msPort p) an) = false →
        ∃ u : State, exec (.saDelete host q) s = .next (u.finishCmd c.index 0 0 []) ∧ Only Group.sec s u ∧
          aget (State.scOf (u.msPort p) c).sas an = none ∧
          (∀ b, b ≠ an → aget (State.scOf (u.msPort p) c).sas b = aget (State.scOf (s.msPort p) c).sas b))) ∧
    (c.u 1 1 = 4 → s.quenched (macsecUnit p true) = false → an < 4 →
      (aget (s.msPort p).tx.sas an = none → exec (.txSwitch host q) s = .next (s.failCmd c.index 0x0705)) ∧
      (∀ a, aget (s.msPort p).tx.sas an = some a → (a.warned = true ∧ a.nextPn < 2 ^ 32 ∨ a.nextPn + (s.rget Reg.secPnMargin).toNat + 1 < 2 ^ 32) →
        exec (.txSwitch host q) s = .next ((s.msMod p fun m => { m with txAn := some an, exhausted := false }).finishCmd c.index 0 0 [])))) ∧
  ((∀ (s : State) (host q : Nat) (c : Cmd) dma recs, s.Ready host q 0x0700 c → s.datapathUp = true → s.quenched Dom.security = false →
    s.quenched Dom.pipe0 = false → s.quenched Dom.pipe1 = false → 1 ≤ c.u 2 2 → c.u 0 2 + c.u 2 2 ≤ 16384 → c.u 8 8 % 8 = 0 →
    recs = (List.range (c.u 2 2)).map (fun i => fit 144 (dma.drop (144 * i))) →
    (s.epochLimit = true → exec (.secFwRule host q dma) s = .next (s.failCmd c.index 0x0702)) ∧
    (∀ i b, s.epochLimit = false → recs[i]? = some b → State.fwRecOk b = false → (∀ j x, j < i → recs[j]? = some x → State.fwRecOk x = true) →
      exec (.secFwRule host q dma) s = .next (s.finishCmd c.index 0x0701 i [])) ∧
    (s.epochLimit = false → (∀ b ∈ recs, State.fwRecOk b = true) →
      ∃ u : State, exec (.secFwRule host q dma) s = .next (u.finishCmd c.index 0 u.epoch []) ∧ u.epoch = s.advanceEpoch.epoch ∧
        Only Group.sec s.advanceEpoch u ∧
        (∀ i b, recs[i]? = some b → agetD u.sec.rules (c.u 0 2 + i) [] = versionSet (agetD s.advanceEpoch.sec.rules (c.u 0 2 + i) [])
            u.epoch (if bit (le b 0 1) 0 then some (State.fwRec b) else none) ∧
          aget u.sec.hits (c.u 0 2 + i) = none) ∧
        (∀ n, (n < c.u 0 2 ∨ c.u 0 2 + c.u 2 2 ≤ n) → aget u.sec.rules n = aget s.advanceEpoch.sec.rules n ∧
          aget u.sec.hits n = aget s.advanceEpoch.sec.hits n))) ∧
  (∀ (s : State) host tag v r, s.Reached → s.Writable host Reg.secFvWrite r →
    ∃ t, exec (.secFvWrite host tag v) s = .next t ∧ (∀ k, k ≠ Reg.secFvWrite → t.rget k = s.rget k) ∧
      (v.toNat % 2 = 0 → t.sec = s.sec) ∧
      (v.toNat % 2 = 1 → t.fvLast (s.rfld Reg.secFvSel 0 10) = s.rget64 Reg.secFvWriteLo ∧
        (∀ e, e ≠ s.rfld Reg.secFvSel 0 10 → t.fvLast e = s.fvLast e) ∧ Only (Group.regs ||| Group.sec) s t)))

/-- An engine takes the oldest waiting request and reads its key then; results come back in the order of each
source (11_security.md, R402, R404, R405, R408, R412, R413). Completion of CIPHER_DISPATCH: dispatch settles
the oldest waiting request alone, as its key, its profile and its freshness entry stand then: without a usable
key it is refused, an unfit message is unfit, and a MAC without freshness is compared. Completion of
CIPHER_REQUEST_COMPLETE: a completion takes its request out of the queue and counts it, unless an older one of
its source is still there; a refused one, an unfit one and one whose key was erased fail, a MAC that does not
match is counted and recorded, and a pass under a counter entry advances it. -/
def Obligations.CipherPool : Prop :=
  ∀ (s : State), s.datapathUp = true → s.quenched Dom.security = false →
    ((∀ r ∈ s.sec.queue, r.fate ≠ none) → exec .cipherDispatch s = .next s) ∧
    (∀ r, s.cpBusy < 128 → (s.sec.queue.find? (·.fate.isNone)) = some r →
      ∃ (t : State) (e : CipherEnd), exec .cipherDispatch s = .next t ∧ Only Group.sec s t ∧
        t.sec.queue = s.sec.queue.map (fun x => if x.ticket == r.ticket then { x with fate := some e } else x) ∧ t.sec.fv = s.sec.fv ∧
        (s.keyFor r.keySlot 8 4 = none → e = .refused) ∧
        (∀ key, s.keyFor r.keySlot 8 4 = some key →
          (((s.eaProf r.profile).enable = false ∨ (s.eaProf r.profile).plain r.msg = none) → e = .unfit) ∧
          (∀ p, (s.eaProf r.profile).enable = true → (s.eaProf r.profile).plain r.msg = some p → (s.eaProf r.profile).kind = 0 →
            e = (if (s.eaProf r.profile).mac key (r.msg.take p) 0 = r.msg.drop (p + (s.eaProf r.profile).fvBytes) then .pass none
              else .mismatch)))) ∧
    (∀ n r e, s.sec.queue[n]? = some r → r.fate = some e → (∀ x ∈ s.sec.queue.take n, x.source ≠ r.source) →
      ∃ u ok, u = s.setSec { s.sec with queue := s.sec.queue.filter (·.ticket ≠ r.ticket) } ∧
        exec (.cipherRequestComplete n) s = .next ((u.cipherEnds r e).2.cipherDeliver r.ticket ok) ∧
        (e = .pass none → ok = true) ∧
        (e = .refused ∨ e = .unfit ∨ e = .erased ∨ e = .stale ∨ e = .mismatch → ok = false) ∧
        (∀ entry v, e = .pass (some (entry, v)) → s.fvLast entry < v → ok = true ∧ (u.cipherEnds r e).2.fvLast entry = v) ∧
        (u.cipherEnds r e).2.rget Reg.secCpReqCnt = s.rget Reg.secCpReqCnt + 1 ∧
        (e = .mismatch → (u.cipherEnds r e).2.rget Reg.secEaLastFail = BitVec.ofNat 32 (r.profile + 2 ^ 16 * r.source)) ∧
        (e = .refused → (u.cipherEnds r e).2.rget Reg.secCpKeyRefusedCnt = s.rget Reg.secCpKeyRefusedCnt + 1)) ∧
    (∀ n r, s.sec.queue[n]? = some r → (r.fate = none ∨ (s.sec.queue.take n).any (·.source == r.source) = true) →
      exec (.cipherRequestComplete n) s = .next s)

/-- Keys enter slots by R430's checks, leave them by erases and alarms, and LC_ADVANCE makes the life cycle's
transitions alone (12_keys.md, R424, R427 to R433, R436, R419, R422, R423, R434, R435, R437). Completion of
KEY_DERIVE: during an asserted alarm, for a firmware slot, for a slot in use without REPLACE or with a child,
without a root, or with a parent whose use or level forbids it, the command fails with its status; a
derivation within the parent's attributes otherwise loads the KDF's key with its attributes, parent and
recipe, and no other slot changes. Completion of KEY_UNWRAP: it loads the key of a good blob within the
parent's attributes, with one status for every bad blob. Completion of KEY_ERASE: an erase empties the named
slots with their subtrees; a request that names one of them is refused, or ends without a result when an
engine has it. Completion of KEY_DERIVE_REBUILD: a rebuild takes the ERASED slots in order. Completion of
KEY_ALARM: while the Forge die has power an alarm makes every loaded slot ERASED without its key, adds its
sources, clears the root for a clock or glitch alarm, and ends the requests of the keys; without that power an
Ember alarm is kept as asserted, and in BANKED takes the seal nonce. Completion of ALARM_DEASSERTED:
deasserted sources go out of the asserted ones. Completion of LC_ADVANCE: it refuses a transition that R419
does not list or a body that does not agree, reports a read-back that differs, and otherwise programs the
state and erases every slot and the root. -/
def Obligations.KeyStore : Prop :=
  (∀ (s : State) (host q : Nat) (c : Cmd) (slot : Nat) (par : Option Nat), s.quenched Dom.keyStore = false →
    s.quenched Dom.security = false → slot = c.u 0 2 → slot < 1024 → par = (if c.u 2 2 = 0xFFFF then none else some (c.u 2 2)) →
    (∀ key lvl, s.Ready host q 0x0702 c → State.isRebuild c = false → (par = none ∨ c.u 2 2 < 1024) → 1 ≤ c.u 9 1 → c.u 9 1 ≤ 32 →
      lvl = s.levelBelow par →
      (s.key.asserted ≠ 0 → exec (.keyDerive host q) s = .next (s.failCmd c.index 0x0786)) ∧
      (s.key.asserted = 0 → (1008 ≤ slot ∨ (c.u 2 2 ≠ 0xFFFF ∧ 1008 ≤ c.u 2 2)) →
        exec (.keyDerive host q) s = .next (s.failCmd c.index 0x0781)) ∧
      (s.key.asserted = 0 → slot < 1008 → (par = none ∨ c.u 2 2 < 1008) →
        ((s.keySlot slot).state ≠ .empty → bit (c.u 8 1) 0 = false → exec (.keyDerive host q) s = .next (s.failCmd c.index 0x0780)) ∧
        (bit (c.u 8 1) 0 = true → s.hasChild slot = true → exec (.keyDerive host q) s = .next (s.failCmd c.index 0x0784)) ∧
        (((s.keySlot slot).state = .empty ∧ bit (c.u 8 1) 0 = false ∨ bit (c.u 8 1) 0 = true ∧ s.hasChild slot = false) →
          (par = none → s.rootUsable = false → exec (.keyDerive host q) s = .next (s.failCmd c.index 0x0785)) ∧
          ((par ≠ none ∨ s.rootUsable = true) → (s.deriveKey par = none ∨ 8 < lvl) →
            exec (.keyDerive host q) s = .next (s.failCmd c.index 0x0782)) ∧
          (s.deriveKey par = some key → lvl ≤ 8 → (c.u 6 2 = 128 ∨ c.u 6 2 = 256) →
            c.u 4 1 &&& (s.attrMask par).1 = c.u 4 1 → c.u 5 1 &&& (s.attrMask par).2 = c.u 5 1 → bit (c.u 5 1) 6 = false →
            ∃ (u : State) (k : KeySlot), exec (.keyDerive host q) s = .next (u.finishCmd c.index 0 (State.keyResult slot lvl k.key) []) ∧
              u.keySlot slot = k ∧ k.state = .loaded ∧ k.key = kdf key (c.bytes 16 (c.u 9 1)) lvl (c.u 4 1) (c.u 5 1) (c.bytes 48 16) (c.u 6 2) ∧
              k.bits = c.u 6 2 ∧ k.usage = c.u 4 1 ∧ k.dest = c.u 5 1 ∧ k.level = lvl ∧ k.parent = par ∧
              k.recipe = .derive (c.bytes 16 (c.u 9 1)) (c.bytes 48 16) ∧ (∀ n, n ≠ slot → u.keySlot n = s.keySlot n))))) ∧
    (∀ wk, s.Ready host q 0x0703 c → slot < 1008 → c.u 2 2 < 1008 → c.u 4 1 ≤ 1 → (c.u 6 2 = 32 ∨ c.u 6 2 = 48) →
      s.key.asserted = 0 → ((s.keySlot slot).state = .empty ∧ bit (c.u 5 1) 0 = false ∨ bit (c.u 5 1) 0 = true ∧ s.hasChild slot = false) →
      s.keyFor (c.u 2 2) 0x10 2 = some wk → (s.keySlot (c.u 2 2)).level < 8 →
      (unwrapBlob wk (c.u 4 1) (c.bytes 8 (c.u 6 2)) = none →
        exec (.keyUnwrap host q) s = .next ((s.bump Reg.secCpReqCnt).finishCmd c.index 0x0787 0 [])) ∧
      (∀ usage dest key, unwrapBlob wk (c.u 4 1) (c.bytes 8 (c.u 6 2)) = some (usage, dest, key) →
        usage &&& (s.attrMask (some (c.u 2 2))).1 = usage → dest &&& (s.attrMask (some (c.u 2 2))).2 = dest → bit dest 6 = false →
        ∃ (u : State) (k : KeySlot), exec (.keyUnwrap host q) s =
            .next (u.finishCmd c.index 0 (State.keyResult slot ((s.keySlot (c.u 2 2)).level + 1) key) []) ∧
          u.keySlot slot = k ∧ k.state = .loaded ∧ k.key = key ∧ k.bits = 8 * key.length ∧ k.usage = usage ∧ k.dest = dest ∧
          k.level = (s.keySlot (c.u 2 2)).level + 1 ∧ k.parent = some (c.u 2 2) ∧ (∀ n, n ≠ slot → u.keySlot n = s.keySlot n))) ∧
    (∀ first count gone, s.Ready host q 0x0704 c → first = (if bit (c.u 4 1) 0 then 0 else slot) →
      count = (if bit (c.u 4 1) 0 then 1008 else c.u 2 2) → 1 ≤ count → count ≤ 1008 → first + count ≤ 1008 →
      gone = s.subtree 8 ((s.key.slots.filter fun x => first ≤ x.1 && x.1 < first + count && x.2.state != .empty).map (·.1)) →
      ∃ u : State, exec (.keyErase host q) s = .next (u.finishCmd c.index 0 gone.length []) ∧
        u.key.slots = s.key.slots.filter (fun x => !gone.contains x.1) ∧ (∀ n ∈ gone, u.keySlot n = {}) ∧
        u.sec.queue = s.sec.queue.map (fun r => if gone.contains r.keySlot then
          { r with fate := some (if r.fate.isNone then .refused else .erased) } else r)) ∧
    (s.Ready host q 0x0702 c → c.u 8 1 = 2 → (∀ b ∈ c.body.set 8 0, b = 0) → s.key.asserted = 0 → s.rootUsable = true →
      ∃ ok bad u, (ok, bad, u) = s.erasedSlots.foldl State.rebuildOne (0, 0, s) ∧
        exec (.keyDeriveRebuild host q) s = .next ((u.raise 0x9103 (ok + 2 ^ 16 * bad)).finishCmd c.index 0 (ok + 2 ^ 16 * bad) []))) ∧
  (∀ (s : State) (src : Nat),
    (∀ ember, s.forgeUp = true → src % 16 ≠ 0 →
      ∃ t : State, exec (.keyAlarm src ember) s = .next t ∧
        (∀ n, (s.keySlot n).state = .loaded → t.keySlot n = { s.keySlot n with state := .erased, key := [] }) ∧
        (∀ n, (s.keySlot n).state ≠ .loaded → t.keySlot n = s.keySlot n) ∧
        t.key.asserted = s.key.asserted ||| src % 16 ∧
        t.key.root = (if bit src 1 || bit src 3 then none else s.key.root) ∧
        t.key.inForce = s.key.inForce ∧ t.key.sealNonce = s.key.sealNonce ∧
        t.sec.queue.map (·.ticket) = s.sec.queue.map (·.ticket) ∧
        (∀ r ∈ t.sec.queue, (s.keySlot r.keySlot).state = .loaded → r.fate = some .refused ∨ r.fate = some .erased)) ∧
    (exec (.keyAlarm 0 true) s = .next s) ∧
    (s.forgeUp = false → s.pwr.state ≠ .off → src % 16 ≠ 0 → exec (.keyAlarm src true) s =
      .next (s.setKey { s.key with
        sealNonce := if s.pwr.state = .banked then none else s.key.sealNonce, asserted := s.key.asserted ||| src % 16 })) ∧
    (s.forgeUp = false → exec (.keyAlarm src false) s = .next s) ∧
    (exec (.alarmDeasserted src) s = .next (s.setKey { s.key with asserted := s.key.asserted &&& (15 - src % 16) })) ∧
    (∀ host q (c : Cmd) rb, s.Ready host q 0x0705 c → s.quenched Dom.keyStore = false → s.quenched Dom.ember = false →
      (s.key.asserted ≠ 0 → exec (.lcAdvance host q rb) s = .next (s.failCmd c.index 0x0786)) ∧
      (s.key.asserted = 0 → ((∀ b, State.lcOf (c.u 1 1) = some b → State.lcStep s.key.inForce b = false) ∨
          c.u 0 1 ≠ State.lcCode s.key.inForce ∨ c.u 2 1 ≠ 255 - c.u 1 1 ∨ s.key.lcPending = true) →
        exec (.lcAdvance host q rb) s = .next (s.failCmd c.index 0x0788)) ∧
      (∀ b, s.key.asserted = 0 → State.lcOf (c.u 1 1) = some b → State.lcStep s.key.inForce b = true →
        c.u 0 1 = State.lcCode s.key.inForce → c.u 2 1 = 255 - c.u 1 1 → s.key.lcPending = false →
        (b = .service → 32 ≤ s.key.serviceEntries → exec (.lcAdvance host q rb) s = .next (s.failCmd c.index 0x0789)) ∧
        ((b = .service → s.key.serviceEntries < 32) →
          (∀ seen, rb.bind State.lcOf = some seen → seen ≠ b →
            exec (.lcAdvance host q rb) s =
              .next ((s.setKey { s.key with burned := seen }).finishCmd c.index 0x078A (State.lcCode seen) [])) ∧
          (rb = none →
            ∃ u : State, exec (.lcAdvance host q rb) s = .next (u.finishCmd c.index 0 (State.lcCode b) []) ∧
              u.key.burned = b ∧ u.key.inForce = s.key.inForce ∧ u.key.slots = [] ∧ u.key.root = none ∧ u.key.lcPending = true ∧
              u.boot.session = none ∧ u.key.serviceEntries = s.key.serviceEntries + (if b = .service then 1 else 0))))))

/-- Bellows changes state only as its table says, and a failed start is counted, held off and tried again
(14_sleep_wake.md, R462 to R464, R476, R481 to R485; 12_keys.md, R421, R422; 17_boot_update.md, R546, R549).
Completion of PWR_GOOD_RISE: PWR_GOOD in time is noted. Completion of PG_TIMEOUT, PWR_GOOD_FALL,
JUNCTION_OVERTEMP and KINDLE_TIMEOUT: a failed start or run of the Forge die, whatever ends it, and a PWR_GOOD
that comes too late, lowers PWR_EN, counts, and sets a retry. Completion of KINDLE_RETRY: the die starts
again, waits for VBAT, or after the third failure Bellows is in EMBER with a PMIC fault. Completion of
MINIMUM_OFF_TIME_END: a wake that waited, or was latched late, starts the die. Completion of
FORGE_RESET_RELEASE: the release of reset puts the life-cycle state into force and a cold start boots; a warm
one keeps the key slots, or without the seal becomes a cold one. Completion of FIRMWARE_READY: it ends KINDLE
in RUN, with network management begun outside recovery mode. Completion of BANKED_DECAY and EMBER_DECAY: decay
loses the warm image and then the EMBER state. Completion of VBAT_FALL, VBAT_RISE and
VBAT_ABOVE_OPERATING_MIN: VBAT's fall loses all but OTP and flash, its rise starts the die, unless the
operating minimum holds the start back until it is reached. -/
def Obligations.PowerStates : Prop :=
  ∀ (s : State),
    (s.pwr.state = .kindle → s.pwr.pwrEn = true → s.pwr.pwrGood = false → s.clk ≤ s.pwr.enAt + s.pgNs →
      exec .pwrGoodRise s = .next (s.pwrMod fun p => { p with pwrGood := true, goodAt := s.clk })) ∧
    (∀ i (u : State),
      (i = .pwrGoodRise ∧ u = s ∧ s.pwr.state = .kindle ∧ s.pwr.pwrEn = true ∧ s.pwr.pwrGood = false ∧ s.pwr.enAt + s.pgNs < s.clk) ∨
      (i = .pgTimeout ∧ u = s.waitUntil (s.pwr.enAt + s.pgNs) ∧ s.pwr.state = .kindle ∧ s.pwr.pwrEn = true ∧ s.pwr.pwrGood = false) ∨
      ((i = .pwrGoodFall ∨ i = .junctionOvertemp) ∧ u = s ∧ (s.pwr.state = .kindle ∨ s.pwr.state = .run) ∧ s.pwr.pwrGood = true) ∨
      (i = .kindleTimeout ∧ u = s.waitUntil (s.pwr.kindleAt + 250000000) ∧ s.pwr.state = .kindle ∧ s.pwr.retryAt = none) →
      ∃ t, exec i s = .next t ∧ t.pwr.state = .kindle ∧ t.pwr.pwrEn = false ∧ t.pwr.fwReady = false ∧ t.pwr.released = false ∧
        t.pwr.failures = s.pwr.failures + 1 ∧ t.pwr.minOff = true ∧ t.pwr.offAt = u.clk ∧ t.pwr.retryAt = some (u.clk + 10000000) ∧
        t.pwr.warm = false ∧ t.key.slots = [] ∧ t.mbx.retention = s.mbx.retention ∧
        (s.quenched Dom.ember = false → t.rget Reg.pwrKindleFailCnt = s.rget Reg.pwrKindleFailCnt + 1)) ∧
    (∀ at_, s.pwr.state = .kindle → s.pwr.retryAt = some at_ →
      ∃ t, exec .kindleRetry s = .next t ∧ t.pwr.minOff = false ∧ t.pwr.retryAt = none ∧
        (3 ≤ s.pwr.failures → t.pwr.state = .ember ∧ t.pwr.pmicFault = true ∧ t.pwr.failures = 0) ∧
        (s.pwr.failures < 3 → s.pwr.vbatLow = true → t.pwr.wakeWaits = true ∧ t.pwr.state = .kindle ∧ t.pwr.pwrEn = s.pwr.pwrEn) ∧
        (s.pwr.failures < 3 → s.pwr.vbatLow = false → t.pwr.state = .kindle ∧ t.pwr.pwrEn = true ∧ t.pwr.pwrGood = false ∧
          t.pwr.failures = s.pwr.failures ∧ bit (t.rget Reg.pwrWakeReason).toNat 8 = true)) ∧
    (s.sleeping = true → s.pwr.minOff = true → s.pwr.vbatLow = false →
      ∃ t, exec .minimumOffTimeEnd s = .next t ∧ t.pwr.minOff = false ∧
        (s.pwr.wakeWaits = true → t.pwr.state = .kindle ∧ t.pwr.pwrEn = true ∧ t.pwr.warm = (s.pwr.state == .banked)) ∧
        (s.pwr.wakeWaits = false → s.pwr.lateFirst = none → t.pwr.state = s.pwr.state) ∧
        (∀ b src, s.pwr.wakeWaits = false → s.pwr.lateFirst = some (b, src) → t.pwr.state = .kindle ∧ t.pwr.pwrEn = true ∧
          t.rget Reg.pwrWakeReason = BitVec.ofNat 32 s.pwr.lateLatch)) ∧
    (∀ ok, s.pwr.state = .kindle → s.pwr.pwrGood = true → s.pwr.released = false →
      ∃ t, exec (.forgeResetRelease ok) s = .next t ∧ t.pwr.state = .kindle ∧ t.pwr.released = true ∧ t.pwr.booted = true ∧
        t.key.inForce = t.key.burned ∧ t.key.lcPending = false ∧
        (s.pwr.warm = false → t.pwr.warm = false ∧ (t.key.inForce = .retired → t.boot.mode = 2 ∧ t.boot.recoveryCause = 4) ∧
          (s.key.burned = .field → t.key.root = some s.key.rootF)) ∧
        (s.pwr.warm = true → s.boot.otpGoal = none → s.key.burned = .field →
          (s.key.sealNonce ≠ none → ok = true → t.pwr.warm = true ∧ t.key.slots = s.key.slots ∧ t.key.root = some s.key.rootF) ∧
          ((s.key.sealNonce = none ∨ ok = false) → t.pwr.warm = false ∧ t.pwr.warmFail = some 1 ∧ t.key.slots = []))) ∧
    (s.pwr.state = .kindle → s.pwr.released = true → s.pwr.fwReady = false → s.pwr.booted = true →
      ∃ t, exec .firmwareReady s = .next t ∧ t.pwr.state = .run ∧ t.pwr.fwReady = true ∧ t.pwr.runAt = s.clk ∧ t.pwr.failures = 0 ∧
        t.pwr.pmicFault = false ∧ t.pwr.lateFirst = none ∧
        (s.boot.mode = 2 → t.nm = s.nm ∧ t.cal = s.cal) ∧
        (s.boot.mode ≠ 2 → t.nm.released = 0 ∧ t.nm.records = [] ∧ t.nm.state = (if s.nm.en then .repeat_ else .normal))) ∧
    (s.pwr.state = .banked → s.rfld Reg.pwrDecay 0 16 ≠ 0 →
      ∃ t, exec .bankedDecay s = .next t ∧ t.pwr.state = .ember ∧ t.key.slots = [] ∧ t.mbx.dram = [] ∧
        t.mbx.retention = s.mbx.retention ∧ t.boot.desc = s.boot.desc ∧ s.pwr.since + State.hoursNs (s.rfld Reg.pwrDecay 0 16) ≤ t.clk) ∧
    (s.pwr.state = .ember → s.rfld Reg.pwrDecay 16 16 ≠ 0 →
      ∃ t, exec .emberDecay s = .next t ∧ t.pwr.state = .dormant ∧ t.pwr.oscOn = false ∧ t.pwr.decoding = [] ∧
        Only (Group.clk ||| Group.pwr) s t ∧ s.pwr.since + State.hoursNs (s.rfld Reg.pwrDecay 16 16) ≤ t.clk) ∧
    (∀ above, s.pwr.state = .off → s.pwr.minOff = false →
      ∃ t, exec (.vbatRise above) s = .next t ∧ t.rget Reg.pwrWakeReason = 1 ∧ t.pwr.vbatOk = true ∧
        (above = true → t.pwr.state = .kindle ∧ t.pwr.pwrEn = true ∧ t.pwr.warm = false) ∧
        (above = false → t.pwr.state = .off ∧ t.pwr.vbatLow = true ∧ t.pwr.wakeWaits = true)) ∧
    (∃ t, exec .vbatFall s = .next t ∧ t.pwr.state = .off ∧ t.pwr.vbatOk = false ∧ t.pwr.pwrEn = false ∧ t.clk = 0 ∧ t.regs = [] ∧
      t.mbx.retention = [] ∧ t.nm = {} ∧ t.key.slots = [] ∧ t.key.root = none ∧ t.key.sealNonce = none ∧ t.key.burned = s.key.burned ∧
      t.mbx.sectors = s.mbx.sectors ∧ t.boot.desc = s.boot.desc ∧ t.boot.rollback = s.boot.rollback) ∧
    (exec .vbatAboveOperatingMin s = .next (if s.pwr.vbatLow = false then s
      else if s.pwr.wakeWaits = true ∧ s.pwr.minOff = false then
        (s.pwrMod fun p => { p with vbatLow := false }).startKindle (s.pwr.state == .banked)
      else s.pwrMod fun p => { p with vbatLow := false }))

/-- A wake source that is armed wakes the device, selective wake decodes and idles, and sleep entry takes the
target (14_sleep_wake.md, R473, R476 to R482, R486; 01_architecture.md, R17; 11_security.md, R414). Completion
of WAKE_PIN, CAN_WAKE_PATTERN, SELECTIVE_WAKE_FRAME, LIN_WAKE, SW_DECODE_ERROR and WAKE_TIMER: an armed source
starts KINDLE from sleep and records its reason, its index and the state; while the minimum off time or VBAT
holds the start back it waits; in KINDLE it adds its bit, and after the commit point it is latched. A source
that is not armed does nothing. Completion of SW_OSCILLATOR_START and SW_IDLE_TIMEOUT: selective wake's
oscillator starts with an edge of an armed channel and stops when idle; an FD or XL frame only shows activity,
decode errors are counted up and good frames down, and the source fires at the limit. Completion of
SLEEP_ENTRY: sleep entry ends in the target, the warm image carrying the key slots into BANKED alone, and in
EMBER where it cannot be kept. Completion of RESIDENT_VERIFY_DONE and DIE_LINK_FAILURE: a resident part that
does not verify is lost with the handles that were not in force, and a die-link failure is counted. -/
def Obligations.WakeAndSleep : Prop :=
  ∀ (s : State),
    (∀ i b src rising f,
      (i = .wakePin src rising ∧ b = 1 ∧ src < 8 ∧ bit (le s.pwr.pins (4 * src) 1) 0 = true ∧
        bit (le s.pwr.pins (4 * src) 1) (if rising then 1 else 2) = true) ∨
      (i = .canWakePattern src ∧ b = 2 ∧ src < 64 ∧ bit s.pwr.wup src = true) ∨
      (i = .selectiveWakeFrame src f ∧ b = 3 ∧ s.swDecodes src = true ∧ f.format ≠ .fd ∧ f.format ≠ .xl ∧
        (s.pwr.wakeFilters.any fun x => State.wakeHits x src f) = true) ∨
      (∃ ch, i = .linWake ch ∧ b = 4 ∧ src = 64 + ch ∧ ch < 32 ∧ bit s.pwr.linWake ch = true) ∨
      (i = .swDecodeError src true ∧ b = 6 ∧ s.swDecodes src = true ∧ s.pwr.fecLimit ≤ agetD s.pwr.fec src 0 + 1) ∨
      (i = .wakeTimer ∧ b = 5 ∧ src = 0 ∧ s.pwr.timerS ≠ 0 ∧ s.swState = true) →
      (∀ b0 src0, s.lateHeld = some (b0, src0) → ∃ t, exec i s = .next t ∧ t.pwr.wakeWaits = true ∧ t.pwr.state = s.pwr.state ∧
        t.rget Reg.pwrWakeReason = BitVec.ofNat 32 s.pwr.lateLatch ||| BitVec.ofNat 32 (2 ^ b) ∧
        t.rget Reg.pwrWakeFirst = BitVec.ofNat 32 (b0 + 2 ^ 8 * src0 + 2 ^ 16 * State.pwrCode s.pwr.state)) ∧
      (s.sleeping = true → s.pwr.wakeWaits = false → s.lateHeld = none →
        ∃ t, exec i s = .next t ∧ t.rget Reg.pwrWakeReason = BitVec.ofNat 32 (2 ^ b) ∧
          t.rget Reg.pwrWakeFirst = BitVec.ofNat 32 (b + 2 ^ 8 * src + 2 ^ 16 * State.pwrCode s.pwr.state) ∧
          (s.pwr.minOff = false → s.pwr.vbatLow = false → t.pwr.state = .kindle ∧ t.pwr.pwrEn = true ∧ t.pwr.pwrGood = false ∧
            t.pwr.warm = (s.pwr.state == .banked)) ∧
          ((s.pwr.minOff = true ∨ s.pwr.vbatLow = true) → t.pwr.state = s.pwr.state ∧ t.pwr.wakeWaits = true)) ∧
      (s.pwr.state = .kindle → exec i s = .next (s.reasonAdd b)) ∧
      (s.pwr.state = .run → s.nm.state = .committed → exec i s = .next (s.latch (some b) src))) ∧
    (∀ pin rising, (8 ≤ pin ∨ bit (le s.pwr.pins (4 * pin) 1) 0 = false) → exec (.wakePin pin rising) s = .next s) ∧
    (∀ ch, bit s.pwr.wup ch = false → exec (.canWakePattern ch) s = .next s) ∧
    (∀ ch, bit s.pwr.linWake ch = false → exec (.linWake ch) s = .next s) ∧
    (s.pwr.timerS = 0 → exec .wakeTimer s = .next s) ∧
    (∀ ch, ch < 64 → bit s.pwr.sw ch = true → s.swState = true →
      exec (.swOscillatorStart ch) s = .next (s.pwrMod fun p => { p with
        oscOn := true, swAt := s.clk, decoding := ch :: p.decoding.filter (· ≠ ch) })) ∧
    (∀ ch, s.swDecodes ch = false → (∀ f, exec (.selectiveWakeFrame ch f) s = .next s) ∧ ∀ e, exec (.swDecodeError ch e) s = .next s) ∧
    (∀ ch f, s.swDecodes ch = true → (f.format = .fd ∨ f.format = .xl) →
      exec (.selectiveWakeFrame ch f) s = .next (s.pwrMod fun p => { p with swAt := s.clk })) ∧
    (∀ ch e, s.swDecodes ch = true → (e = true → agetD s.pwr.fec ch 0 + 1 < s.pwr.fecLimit) →
      ∃ t, exec (.swDecodeError ch e) s = .next t ∧ Only Group.pwr s t ∧ t.pwr.swAt = s.clk ∧
        agetD t.pwr.fec ch 0 = (if e then agetD s.pwr.fec ch 0 + 1 else agetD s.pwr.fec ch 0 - 1)) ∧
    (s.swState = true → s.pwr.oscOn = true →
      ∃ t, exec .swIdleTimeout s = .next t ∧ t.pwr.oscOn = false ∧ t.pwr.decoding = [] ∧ Only (Group.clk ||| Group.pwr) s t ∧
        s.pwr.swAt + 1000000 * s.pwr.swIdle ≤ t.clk) ∧
    (∀ restore resident, s.nm.state = .committed → s.nmRuns = true → s.emberDown = false →
      ∃ t, exec (.sleepEntry restore resident) s = .next t ∧ t.pwr.pwrEn = false ∧ t.pwr.minOff = true ∧ t.pwr.fwReady = false ∧
        t.pwr.released = false ∧ t.nm.state = .busSleep ∧ t.key.root = none ∧
        ((s.pwr.target = .ember ∨ s.pwr.target = .dormant) → t.pwr.state = s.pwr.target ∧ t.key.slots = [] ∧ t.pwr.demoted = false) ∧
        (s.pwr.target = .banked → restore ≤ 64 → s.quenched Dom.memory = false → t.pwr.state = .banked ∧ t.key.slots = s.key.slots ∧
          t.key.sealNonce ≠ none ∧ t.pwr.demoted = false) ∧
        (s.pwr.target = .banked → (64 < restore ∨ s.quenched Dom.memory = true) → t.pwr.state = .ember ∧ t.key.slots = [] ∧
          t.pwr.demoted = true)) ∧
    (∀ ok, s.mbx.residentWait = true →
      (ok = true → exec (.residentVerifyDone ok) s = .next (s.setMbx { s.mbx with residentWait := false })) ∧
      (ok = false → ∃ t, exec (.residentVerifyDone ok) s = .next t ∧ t.mbx.residentWait = false ∧ t.mbx.dram = [] ∧ t.mbx.bodies = [] ∧
        ∀ x ∈ t.cal.handles, x.2.state = .active ∨ x.2.state = .draining)) ∧
    ((s.pwr.state = .kindle ∨ s.pwr.state = .run) →
      ∃ t, exec .dieLinkFailure s = .next t ∧ t.pwr.dieLinkFailed = true ∧ t.pwr.dieLinkCount = s.pwr.dieLinkCount + 1)

/-- Network management records its nodes, runs its timers, aborts or latches, and its commands answer as the
chapter says (14_sleep_wake.md, R465 to R475, R487 to R490). Completion of NM_MESSAGE_RECEIVED: a message
updates its node's record; it aborts a sleep in preparation, is latched after the commit point, and its repeat
request restarts REPEAT. Completion of NM_REPEAT_TIMEOUT, READY_SLEEP_TIMEOUT and NM_COMMIT_POINT: REPEAT ends
in NORMAL or READY_SLEEP as the local request says, READY_SLEEP in PREPARE unless it waits for the smith, and
PREPARE in the commit point. Completion of NM_CYCLE_TRANSMIT: the device's message goes out each cycle.
Completion of NODE_RECORD_AGED and STAY_AWAKE_DETECT: a record ages, and a node that keeps the network awake
is logged once. Completion of LIN_WAKE_DETECT: a wake on a LIN channel is reported, and tells network
management where it is armed. Completion of PWR_STATE_REQUEST: a request for a sleep state is refused in
R474's cases and else releases; TARGET 5 holds the request, aborts or is latched. Completion of NM_CONFIG,
WAKE_SOURCE_CONFIG and NM_AWAKE_LOG_READ: legal settings are taken and others fail with 0x0905 or 0x0906, and
the log is read from a number on, up to 13 entries. -/
def Obligations.NetworkManagement : Prop :=
  ∀ (s : State), s.nmRuns = true →
    (∀ k (b : List Byte), s.nmCluster k = true → 2 ≤ b.length →
      ∃ (t : State) (r : NodeRec), exec (.nmMessageReceived k b) s = .next t ∧ r ∈ t.nm.records ∧ r.cluster = k ∧ r.last = s.clk ∧ r.pn = le b 2 4 ∧
        r.pni = bit (le b 1 1) 6 ∧
        (((s.nm.records.any fun x => x.cluster == k && x.node == le b 0 1) = true ∨
          (s.nm.records.filter (·.node != 0xFFFF)).length < 2048) → r.node = le b 0 1) ∧
        ((s.nm.state = .normal ∨ s.nm.state = .readySleep) → bit (le b 1 1) 0 = true → s.nm.en = true → t.nm.state = .repeat_) ∧
        (s.nm.state = .prepare → s.nm.forced = false → t.nm.state = .repeat_) ∧
        (s.nm.state = .committed → t.nm.state = .committed ∧ bit t.pwr.lateLatch 7 = true ∧ t.pwr.lateFirst ≠ none)) ∧
    (s.nm.state = .repeat_ → ∃ t, exec .nmRepeatTimeout s = .next t ∧
      t.nm.state = (if s.requested ∨ s.nm.en = false then .normal else .readySleep) ∧ t.nm.enteredAt = t.clk ∧
      s.nm.enteredAt + 1000000 * s.nm.repeatMs ≤ t.clk) ∧
    (s.nm.state = .readySleep → s.waitsForSmith = false → ∃ t, exec .readySleepTimeout s = .next t ∧ t.nm.state = .prepare ∧
      s.readyEnd ≤ t.clk) ∧
    (s.nm.state = .readySleep → s.waitsForSmith = true → exec .readySleepTimeout s = .next s) ∧
    (∀ at_, s.nm.state = .prepare → at_ = s.nm.commitAt.getD (s.nm.enteredAt + 1000000 * s.nm.pbsMs - 2000000) →
      ∃ t, exec .nmCommitPoint s = .next t ∧ t.nm.state = .committed ∧ t.nm.commitAt = some at_ ∧ t.pwr.lateLatch = 0 ∧
        t.pwr.lateFirst = none ∧ at_ ≤ t.clk) ∧
    ((s.nm.state = .repeat_ ∨ s.nm.state = .normal) → ∃ t, exec .nmCycleTransmit s = .next t ∧
      t.nm.txAt = t.clk + 1000000 * s.nm.cycleMs ∧ t.clk = (s.waitUntil s.nm.txAt).clk ∧
      ∀ i, i < 4 → bit (s.nm.ethVid.getD i 0) 15 = true → Output.nm (64 + i) s.nmPayload ∈ t.out) ∧
    (∀ k node r, (s.nm.records.find? fun x => x.cluster == k && x.node == node) = some r →
      (exec (.nodeRecordAged k node) s = .next (((s.waitUntil (r.last + 1000000 * s.nm.readyMs + 2)).logUpdate r).pnApply)) ∧
      (s.nm.state = .readySleep → r.logged = none → max r.start s.nm.enteredAt + 10 ^ 9 * s.nm.stayS ≤ r.last + 1000000 * s.nm.readyMs →
        ∃ (t : State) (e : AwakeEntry), exec (.stayAwakeDetect k node) s = .next t ∧ t.rget Reg.nmLogHead = s.rget Reg.nmLogHead + 1 ∧
          aget t.nm.log ((s.rget Reg.nmLogHead).toNat + 1) = some e ∧ e.cluster = k ∧ e.node = node ∧ e.msgs = r.msgs ∧
          e.duration = (r.last - r.start) / 10 ^ 9 ∧
          (∀ x ∈ t.nm.records, x.cluster = k → x.node = node → x.logged = some ((s.rget Reg.nmLogHead).toNat + 1))) ∧
      (r.logged ≠ none → exec (.stayAwakeDetect k node) s = .next s)) ∧
    (∀ l, l < 32 → s.busUp (64 + l) = true → (s.linCh l).operational = true → (s.linCh l).current = none →
      exec (.linWakeDetect l) s = .next (if bit s.pwr.linWake l then (s.raise 0x7006 l).nmEvent 4 (some 4) (64 + l) else s.raise 0x7006 l)) ∧
    (∀ host q (c : Cmd) tgt, s.Ready host q 0x0900 c → tgt = c.u 0 1 →
      (tgt ≠ 1 → tgt ≠ 2 → tgt ≠ 3 → tgt ≠ 5 → exec (.pwrStateRequest host q) s = .next (s.failCmd c.index 0x0901)) ∧
      ((tgt = 1 ∨ tgt = 2 ∨ tgt = 3) →
        (s.emberDown = true → exec (.pwrStateRequest host q) s = .next (s.failCmd c.index 0x0902)) ∧
        (s.emberDown = false → s.wakeArmed tgt = false → exec (.pwrStateRequest host q) s = .next (s.failCmd c.index 0x0903)) ∧
        (s.emberDown = false → s.wakeArmed tgt = true → s.rfld Reg.pwrCtrl 0 1 ≠ 1 →
          exec (.pwrStateRequest host q) s = .next (s.failCmd c.index 0x0904)) ∧
        (s.emberDown = false → s.wakeArmed tgt = true → s.rfld Reg.pwrCtrl 0 1 = 1 →
          ∃ u : State, exec (.pwrStateRequest host q) s = .next (u.finishCmd c.index 0 (State.nmCode s.nm.state) []) ∧
            u.pwr.target = State.targetOf tgt ∧ u.nm.released = setBits s.nm.released c.host 1 1 ∧
            (bit (c.u 1 1) 0 = true → s.pnActive = true → u.nm.state = .prepare ∧ u.nm.forced = true) ∧
            (bit (c.u 1 1) 1 = true → u.nm.localPn = c.u 4 4))) ∧
      (tgt = 5 → ∃ u : State, u.nm.released = setBits s.nm.released c.host 1 0 ∧ u.pwr.target = s.pwr.target ∧
        exec (.pwrStateRequest host q) s =
          .next (u.finishCmd c.index 0 (State.nmCode s.nm.state + (if s.nm.state = .committed then 256 else 0)) []) ∧
        (s.nm.state = .committed → bit u.pwr.lateLatch 7 = true) ∧
        (s.nm.state = .prepare → bit s.nm.localMask c.host = true → u.nm.state = .repeat_))) ∧
    (∀ host q (c : Cmd) dma, s.Ready host q 0x0901 c → c.u 56 8 % 8 = 0 →
      (State.nmConfigOk c s = false → exec (.nmConfig host q dma) s = .next (s.failCmd c.index 0x0905)) ∧
      (State.nmConfigOk c s = true → ∃ u : State, exec (.nmConfig host q dma) s = .next (u.finishCmd c.index 0 0 []) ∧
        u.nm.en = bit (c.u 0 1) 0 ∧ u.nm.nodeId = c.u 1 1 ∧ u.nm.localMask = c.u 2 1 % 4 ∧ u.nm.repeatMs = c.u 4 2 ∧
        u.nm.readyMs = c.u 6 2 ∧ u.nm.pbsMs = c.u 8 2 ∧ u.nm.cycleMs = c.u 10 2 ∧ u.nm.stayS = c.u 12 2 ∧ u.nm.nmId = c.u 16 4 ∧
        u.nm.canMask = c.u 24 8 ∧ u.nm.txMask = c.u 32 8 ∧ u.nm.linSleep = c.u 40 4 ∧ u.nm.pnMask = State.pnMasks dma)) ∧
    (∀ host q (c : Cmd) dma fs, s.Ready host q 0x0902 c → s.quenched Dom.ember = false → c.u 64 8 % 8 = 0 →
      fs = State.wakeFilters (c.u 61 1) dma →
      (State.wakeConfigOk c fs = false → exec (.wakeSourceConfig host q dma) s = .next (s.failCmd c.index 0x0906)) ∧
      (State.wakeConfigOk c fs = true → ∃ u : State, exec (.wakeSourceConfig host q dma) s = .next (u.finishCmd c.index 0 0 []) ∧
        u.pwr.pins = c.bytes 0 32 ∧ u.pwr.wup = c.u 32 8 ∧ u.pwr.sw = c.u 40 8 ∧ u.pwr.linWake = c.u 48 4 ∧ u.pwr.fecLimit = c.u 55 1 ∧
        u.pwr.timerS = c.u 56 4 ∧ u.pwr.swIdle = c.u 62 2 ∧ u.pwr.wakeFilters = fs ∧ Only (Group.regs ||| Group.pwr) s u)) ∧
    (∀ host q (c : Cmd) head es, s.Ready host q 0x0903 c → 1 ≤ c.u 4 1 → c.u 4 1 ≤ 13 → head = (s.rget Reg.nmLogHead).toNat →
      es = (s.nm.log.filter fun x => c.u 0 4 ≤ x.1 && head < x.1 + 256 && x.1 ≤ head).take (c.u 4 1) →
      exec (.nmAwakeLogRead host q) s =
        .next (s.finishCmd c.index 0 (head + 2 ^ 32 * es.length) (es.flatMap fun x => State.awakeBytes x.2)))

/-- The Tongs link is keyed by hello units, mirrored items are applied on a full link alone, and blocks
rebuild a joining device (15_pair.md, R493, R495, R497, R500 to R502, R512). Completion of TONGS_LINK_UP: a
link with its lanes sends a hello. Completion of TONGS_LINK_DOWN: a lost lane takes the link down. Completion
of HELLO_UNIT_RECEIVED: a verified hello from the partner derives the session key, gives the partner's
identity and settles the roles. Completion of HELLO_TIMEOUT and KEYING_RETRY: a hello that is late or fails
leaves the link unkeyed with EV_PAIR_LINK, and is sent again after 100 ms. Completion of
MIRROR_MESSAGE_RECEIVED: a unit whose tag fails is counted; freshness values, next numbers, recovery
histories, the partner's network state and journal entries are taken at LINK_STATE 4, where a striker follows
the smith's calendar commands, and nowhere else. Completion of SYNC_BLOCK_RECEIVED: at LINK_STATE 3 handles
are loaded or the resynchronisation fails; the joining device's report ends it at the smith; at LINK_STATE 4 a
request for the calendar state has the blocks sent, by either role. -/
def Obligations.PairLinkAndMirror : Prop :=
  ∀ (s : State), s.datapathUp = true →
    (s.quenched (portUnit 64) = false →
      (s.pair.role = .single → exec .tongsLinkUp s = .next (s.pairMod fun p => { p with lanes := 15 })) ∧
      (s.pair.role ≠ .single → s.pair.linkState = 0 → ∃ t, exec .tongsLinkUp s = .next t ∧ t.pair.lanes = 15 ∧ t.pair.linkState = 1 ∧
        t.pair.linkKey = le s.pair.cfg 2 2 ∧ t.pair.helloAt = s.clk ∧ t.pair.helloFailed = false ∧ ∃ b, Output.tongsUnit 5 b ∈ t.out)) ∧
    (∀ lane, ∃ t, exec (.tongsLinkDown lane) s = .next t ∧ t.pair.lanes = setBits s.pair.lanes (lane % 4) 1 0 ∧ t.pair.role = s.pair.role ∧
      t.pair.linkState = 0 ∧ (s.pair.linkState ≠ 0 → t.pair.handover = none ∧ t.pair.joining = false)) ∧
    (s.pair.role ≠ .single → s.pair.linkState = 1 →
      (s.pair.helloFailed = false → exec .helloTimeout s = .next (s.waitUntil (s.pair.helloAt + 10000000)).keyingFail) ∧
      (s.pair.helloFailed = true → ∃ t, exec .keyingRetry s = .next t ∧ t.pair.helloFailed = false ∧ t.pair.helloAt = t.clk ∧
        s.pair.helloAt + 100000000 ≤ t.clk ∧ t.pair.linkState = 1 ∧ ∃ b, Output.tongsUnit 5 b ∈ t.out) ∧
      (∀ h : Hello,
        (s.sessionKey h = none → exec (.helloUnitReceived h) s = .next s.keyingFail) ∧
        (∀ u, s.sessionKey h = some u → h.verified = false → exec (.helloUnitReceived h) s = .next u.keyingFail) ∧
        (∀ u, s.sessionKey h = some u → h.verified = true →
          ∃ t, exec (.helloUnitReceived h) s = .next t ∧ t.pair.linkState = 2 ∧ t.rget Reg.pairPartnerId = BitVec.ofNat 32 h.forgeId ∧
            t.pair.partnerFw = h.fwVersion ∧ t.pair.settled = true ∧ t.keySlot 1015 = u.keySlot 1015 ∧
            t.pair.role = (if s.pair.settled = true ∧ s.pair.role = .smith then .smith else if h.claims = 1 then .striker
              else if s.pair.strapSmith ≠ h.strapSmith then s.strapRole else if Config.forgeId.toNat < h.forgeId then .smith else .striker)))) ∧
    (∀ m, s.pair.role ≠ .single → 2 ≤ s.pair.linkState → s.quenched (portUnit 64) = false →
      (exec (.mirrorMessageReceived m false) s = .next (s.bump Reg.pairUnitErrCnt)) ∧
      (s.pair.linkState ≠ 4 → exec (.mirrorMessageReceived m true) s = .next s) ∧
      (s.pair.linkState = 4 → ∃ t, exec (.mirrorMessageReceived m true) s = .next t ∧
        (∀ e v, m = .freshness e v → t.fvLast (e % 1024) = v % 2 ^ 64 ∧ Output.tongsUnit 4 [] ∈ t.out ∧
          ∀ k, k ≠ e % 1024 → t.fvLast k = s.fvLast k) ∧
        (∀ fn n, m = .generation fn n → aget t.pair.mirrorGen fn = some (n % 65536) ∧ Output.tongsUnit 4 [] ∈ t.out) ∧
        (∀ b, m = .journal b → s.quenched Dom.memory = false → (le b 0 4, b) ∈ t.pair.partnerRing ∧
          Output.tongsUnit 4 (leBytes 4 (le b 0 4)) ∈ t.out) ∧
        (∀ n, m = .journalGap n → t = s.raise 0xC006 n) ∧
        (∀ st pn req, m = .nm st pn req → t.pair.partnerNm = st ∧ t.nm.partnerReq = req) ∧
        (∀ op b img, m = .calendar op b img → t = (if s.pair.role = .striker then s.calFollow op b img else s)) ∧
        (∀ fn seqs, m = .recovery fn seqs → t = (s.recoveryMerge fn seqs).emit (.tongsUnit 4 [])))) ∧
    (s.pair.role ≠ .single → s.quenched (portUnit 64) = false →
      (∀ i, s.pair.linkState ≠ 3 → (∀ t, i ≠ .finish t) → i ≠ .request → exec (.syncBlockReceived i) s = .next s) ∧
      (s.pair.linkState ≠ 4 → exec (.syncBlockReceived .request) s = .next s) ∧
      (s.pair.linkState = 4 → exec (.syncBlockReceived .request) s = .next s.syncBlocks) ∧
      (∀ x, (s.pair.linkState = 2 ∧ s.pair.role = .smith ∨ s.pair.linkState = 4) →
        exec (.syncBlockReceived (.finish x)) s = .next s.syncDone) ∧
      (s.pair.linkState = 3 → s.pair.syncFailed = false → s.pair.joining = false →
        (∀ m, exec (.syncBlockReceived (.mirror m)) s = .next (s.applyMirror m)) ∧
        (∀ h st x b, (loadChecks b b.length ≠ none ∨ 3 < h) → ((s.handle h).state ≠ .active) →
          ∃ t, exec (.syncBlockReceived (.handle h st x b)) s = .next t ∧ t.pair.syncFailed = true ∧ t.cal = s.cal) ∧
        (∀ h x b, h ≤ 3 → ((s.handle h).state = .empty ∨ (s.handle h).state = .loaded ∨ (s.handle h).state = .admitted) →
          s.quenched Dom.memory = false → loadChecks b b.length = none →
          exec (.syncBlockReceived (.handle h 1 x b)) s = .next (s.setHandle h { state := .loaded, img := some (parseImage b) })) ∧
        (∀ x, s.pair.syncActive = none → exec (.syncBlockReceived (.finish x)) s = .next s.syncDone)))

/-- Heartbeats keep a pair alive, its loss makes a striker of a full link take over, votes end a clash, and
commands name the role (15_pair.md, R492, R503 to R508, R509, R510, R513 to R517). Completion of
TONGS_HEARTBEAT_SEND and BACKBONE_HEARTBEAT_SEND: a heartbeat goes out every 10 us on a keyed link, where a
planned handover changes the role, and every 100 us on the backbone. Completion of HEARTBEAT_RECEIVED: one of
the partner notes it alive; a striker joins a smith it hears, and takes over at once at its yield. Completion
of PARTNER_LOSS: without one for 150 us the partner is lost: a striker whose link was full takes over, if
enabled. Completion of VOTE_RECEIVED: a vote of a zone is kept. Completion of CLASH_COMPARISON: in a clash
found twice the device with fewer votes becomes striker. Completion of PAIR_CONFIG, PAIR_ROLE and PAIR_STATUS:
PAIR_CONFIG sets or ends the pair and PAIR_ROLE changes the role, at once or as a handover that runs, each
after its refusals; PAIR_STATUS in MODE 0 reports. -/
def Obligations.PairRolesAndLoss : Prop :=
  ∀ (s : State),
    (s.pairUp = true → 2 ≤ s.pair.linkState → s.quenched (portUnit 64) = false →
      ∃ u : State, u = (s.waitUntil (s.pair.tongsAt + 10000)).missCount ∧ s.pair.tongsAt + 10000 ≤ u.clk ∧
        (s.pair.handover = none ∨ s.pair.handover = some 0 →
          ∃ t, exec .tongsHeartbeatSend s = .next t ∧ Output.tongsUnit 3 (u.tongsBeat false) ∈ t.out ∧ t.pair.tongsAt = u.clk ∧
            t.pair.hbCount = (s.pair.hbCount + 1) % 2 ^ 32 ∧ t.pair.role = s.pair.role) ∧
        (∀ n, s.pair.handover = some (n + 1) →
          ∃ t, exec .tongsHeartbeatSend s = .next t ∧ t.pair.handover = some 0 ∧ t.pair.settled = true ∧
            t.pair.role = (if n = 0 then .smith else .striker) ∧ t.pair.hbCount = (s.pair.hbCount + 1) % 2 ^ 32)) ∧
    (s.pairUp = true →
      ∃ t, exec .backboneHeartbeatSend s = .next t ∧ t.pair.hbCount = (s.pair.hbCount + 1) % 2 ^ 32 ∧ t.pair.backboneAt = t.clk ∧
        s.pair.backboneAt + 100000 ≤ t.clk ∧
        ∀ p, p < 8 → bit (le s.pair.cfg 32 8) p = true → s.portDown p = false → Output.heartbeat p (s.backboneBeat false) ∈ t.out) ∧
    (∀ h : Heartbeat, s.pairUp = true →
      ((h.forgeId = Config.forgeId.toNat ∨ (s.partnerId ≠ 0 ∧ s.partnerId ≠ h.forgeId)) → exec (.heartbeatReceived h) s = .next s) ∧
      (h.forgeId ≠ Config.forgeId.toNat → (s.partnerId = 0 ∨ s.partnerId = h.forgeId) →
        (h.tongs = true → 2 ≤ s.pair.linkState ∧ s.quenched (portUnit 64) = false) →
        ∃ t, exec (.heartbeatReceived h) s = .next t ∧ t.rget Reg.pairPartnerId = BitVec.ofNat 32 h.forgeId ∧ t.pair.lastBeat = s.clk ∧
          t.pair.partnerStrap = h.strapped ∧ t.pair.alive = true ∧
          (h.tongs = true → h.yields = false → s.pair.linkState = 2 → s.pair.role = .striker → h.role = 1 → t.pair.linkState = 3) ∧
          (h.tongs = false → h.yields = true → h.role = 1 → s.pair.role = .striker → t.pair.role = .smith ∧ t.pair.acting = true) ∧
          (h.tongs = false → h.yields = false → t.pair.role = s.pair.role ∧ t.pair.linkState = s.pair.linkState))) ∧
    (s.pairUp = true → s.pair.alive = true →
      ∃ t, exec .partnerLoss s = .next t ∧ t.pair.alive = false ∧ t.pair.handover = none ∧ s.pair.lastBeat + 150000 ≤ t.clk ∧
        (s.pair.role = .striker → s.pair.linkAtBeat = 4 → s.rfld Reg.pairCtrl 0 1 = 1 → t.pair.role = .smith ∧ t.pair.acting = true) ∧
        ((s.pair.role ≠ .striker ∨ s.pair.linkAtBeat ≠ 4 ∨ s.rfld Reg.pairCtrl 0 1 ≠ 1) → t.pair.role = s.pair.role)) ∧
    (∀ v : Vote, s.pairUp = true →
      (v.zone < le s.pair.cfg 1 1 → exec (.voteReceived v) s =
        .next (s.pairMod fun p => { p with zoneVotes := aset p.zoneVotes v.zone (v, s.clk) })) ∧
      (le s.pair.cfg 1 1 ≤ v.zone → exec (.voteReceived v) s = .next s)) ∧
    (∀ u v : State, s.pairUp = true → u = s.waitUntil (s.pair.clashAt + 100000) →
      v = u.pairMod (fun p => { p with clashAt := u.clk, clashes := if u.clashNow then s.pair.clashes + 1 else 0 }) →
      (u.clashNow = false → s.pair.clashes ≠ 1 → exec .clashComparison s = .next v) ∧
      (u.clashNow = false → s.pair.clashes = 1 → exec .clashComparison s = .next (v.clashReport false)) ∧
      (u.clashNow = true → s.pair.clashes ≠ 1 → exec .clashComparison s = .next v) ∧
      (u.clashNow = true → s.pair.clashes = 1 → v.keepsSmith = true → exec .clashComparison s = .next (v.clashReport false)) ∧
      (u.clashNow = true → s.pair.clashes = 1 → v.keepsSmith = false →
        ∃ t, exec .clashComparison s = .next t ∧ t.pair.role = .striker ∧ t.pair.acting = false ∧ t.pair.clashes = 0)) ∧
    (∀ host q (c : Cmd) en, s.Ready host q 0x0A00 c → State.pairCfgOk c = true → en = bit (c.u 0 1) 0 →
      ((en = true ↔ s.pair.role = .single) → (s.liveImages.any fun i => bit i.flags 1 != en) = true →
        exec (.pairConfig host q) s = .next (s.failCmd c.index 0x0A05)) ∧
      (((en = true ↔ s.pair.role ≠ .single) ∨ (s.liveImages.all fun i => bit i.flags 1 == en) = true) →
        (s.pairKey (c.u 2 2) = none → exec (.pairConfig host q) s = .next (s.failCmd c.index 0x0A04)) ∧
        (∀ k, s.pairKey (c.u 2 2) = some k →
          ∃ u : State, exec (.pairConfig host q) s = .next (u.finishCmd c.index 0 0 []) ∧ u.pair.cfg = State.pairCfgOf c ∧
            (en = false → u.pair.role = .single) ∧ (en = true → s.pair.role ≠ .single → u.pair.role = s.pair.role) ∧
            (en = true → s.pair.role = .single → u.pair.role = s.strapRole ∧ u.pair.settled = false)))) ∧
    (∀ host q (c : Cmd) target, s.Ready host q 0x0A01 c → target = c.u 0 1 →
      (s.pair.role = .single → exec (.pairRole host q) s = .next (s.failCmd c.index 0x0A01)) ∧
      (s.pair.role ≠ .single → (target = 1 ∨ target = 2) →
        (State.roleCode s.pair.role = target → exec (.pairRole host q) s = .next (s.finishCmd c.index 0 target [])) ∧
        (State.roleCode s.pair.role ≠ target → bit (c.u 1 1) 0 = false →
          exec (.pairRole host q) s = .next (if s.pair.linkState = 4 then
            (s.pairMod fun p => { p with handover := some target }).cmdMod c.index fun x =>
              { x with phase := .running, deadline := s.clk + 1000000, pair := (s.corePair).getD 0 }
            else s.failCmd c.index 0x0A06)) ∧
        (State.roleCode s.pair.role ≠ target → bit (c.u 1 1) 0 = true → s.pair.alive = true →
          exec (.pairRole host q) s = .next (s.failCmd c.index 0x0A06)) ∧
        (State.roleCode s.pair.role ≠ target → bit (c.u 1 1) 0 = true → s.pair.alive = false →
          ∃ u : State, exec (.pairRole host q) s = .next (u.finishCmd c.index 0 target []) ∧ State.roleCode u.pair.role = target ∧
            (target = 1 → u.pair.acting = true)))) ∧
    (∀ host q (c : Cmd), s.Ready host q 0x0A02 c →
      (s.pair.role = .single → exec (.pairStatus host q) s = .next (s.failCmd c.index 0x0A01)) ∧
      (s.pair.role ≠ .single → c.u 0 1 = 0 → exec (.pairStatus host q) s = .next (s.finishCmd c.index 0 0 s.pairStatusBytes)))

/-- A report quenches its domain once, a domain that fails again escalates to its parent, and recovery ends in
probation (16_faults.md, R521 to R529, R530 to R533). Completion of FAULT_REPORT: a report quenches its
domain, for the eighth time in a minute as STUCK; inside a quenched ancestor it is only counted; on a domain
that recovers or is on probation it quenches the parent; for a domain that does not exist it is dropped.
Completion of RECOVERY_START: automatic recovery starts where it is enabled and a core pair can run it.
Completion of RECOVERY_DONE: a failed recovery leaves the domain quenched, a good one releases it on
probation. Completion of RECOVERY_BUDGET_EXPIRY: a recovery past its budget escalates to the parent.
Completion of PROBATION_END: probation ends in RUNNING. Completion of CORRECTABLE_ECC and VOTE_DISAGREEMENT:
both are counted. Completion of FENCE_STATUS: it answers the record of a domain that exists. Completion of
FENCE_RELEASE: it refuses in order, joins a recovery that another command runs, and else begins one.
Completion of CAPTURE_START: it starts the one capture, of a main host in its memory and of the service host
in the device's. -/
def Obligations.FaultContainment : Prop :=
  ∀ (s : State) (d : Nat),
    (∀ src, (domainExists d = false ∨ s.forgeUp = false) →
      exec (.faultReport d src) s = .next (s.setFnc { s.fnc with reports := s.fnc.reports.erase (d, src) }).restartIfDue) ∧
    (∀ src, domainExists d = true → d ≠ 2 → s.forgeUp = true → ((ancestors d).any fun a => (s.fdom a).state.isolated) = true →
      exec (.faultReport d src) s =
        .next ((s.setFnc { s.fnc with reports := s.fnc.reports.erase (d, src) }).countQuench d src).restartIfDue) ∧
    (∀ src, domainExists d = true → d ≠ 2 → s.forgeUp = true → ((ancestors d).any fun a => (s.fdom a).state.isolated) = false →
      s.fenceBusy d = false → (d = 0 → (s.fdom 0).state.isolated = false) →
      (∀ x ∈ s.fnc.doms, parentOf x.1 = some d → s.fenceBusy x.1 = false) →
      (∀ x ∈ s.fnc.doms, x.2.runner.any (5 + · == d) = false) →
      ∃ u : State, exec (.faultReport d src) s = .next u.restartIfDue ∧ u.quenched d = true ∧ (u.fdom d).own = true ∧
        (u.fdom d).source = src ∧ (u.fdom d).time = s.clk ∧
        (u.fdom d).state = (if (s.fdom d).state = .stuck ∨ 8 ≤ ((s.fdom d).recent.filter fun (x : Nat) => (s.clk ≤ x + 60 * 10 ^ 9 : Bool)).length + 1 then .stuck
          else .quenched) ∧
        (u.fdom d).quenches = ((s.fdom d).quenches + 1) % 2 ^ 32) ∧
    (∀ i (u : State) p, parentOf d = some p → s.fenceBusy p = false →
      (∃ src, i = .faultReport d src ∧ domainExists d = true ∧ d ≠ 2 ∧ s.forgeUp = true ∧ s.fenceBusy d = true ∧
        u = s.setFnc { s.fnc with reports := s.fnc.reports.erase (d, src) } ∧
        ((ancestors d).any fun a => (s.fdom a).state.isolated) = false) ∨
      (i = .recoveryBudgetExpiry d ∧ (s.fdom d).state = .recovering ∧ u = s.waitUntil ((s.fdom d).budgetAt + fenceBudget d)) →
      ∃ t : State, exec i s = .next t.restartIfDue ∧ t.quenched p = true ∧ (t.fdom p).source = 12 ∧ (t.fdom p).time = u.clk ∧
        ((t.fdom p).state = .quenched ∨ (t.fdom p).state = .stuck) ∧ (t.rget Reg.fncEscalateCnt) = s.rget Reg.fncEscalateCnt + 1) ∧
    ((s.fdom d).state = .quenched → (s.fdom d).waits = false → s.forgeUp = true →
      ((s.rfld Reg.fncCtrl 0 1 = 0 ∨ s.fenceManual d = true ∨ ((ancestors d).any fun a => (s.fdom a).state.isolated) = true) →
        exec (.recoveryStart d) s = .next s) ∧
      (s.rfld Reg.fncCtrl 0 1 ≠ 0 → s.fenceManual d = false → ((ancestors d).any fun a => (s.fdom a).state.isolated) = false →
        (d = 0 → s.pair.role = .single) → (d = 0 ∨ d = 3 ∨ (s.runnerFor d).isSome = true) →
        ∃ t, exec (.recoveryStart d) s = .next t ∧ (t.fdom d).state = .recovering ∧ (t.fdom d).byCommand = false ∧
          (t.fdom d).quenches = (s.fdom d).quenches ∧ (∀ k, k ≠ d → t.fdom k = s.fdom k) ∧ Only Group.fnc s t)) ∧
    ((s.fdom d).state = .recovering →
      (exec (.recoveryDone d false) s = .next (s.fmodDom d fun x => { x with
        state := .quenched, waits := true, byCommand := false, runner := none }).restartIfDue) ∧
      (∃ u : State, exec (.recoveryDone d true) s = .next u.restartIfDue ∧ (u.fdom d).state = .probation ∧
        (u.fdom d).probEnd = s.clk + fenceBudget d ∧ (u.fdom d).quenches = (s.fdom d).quenches)) ∧
    ((s.fdom d).state ≠ .recovering → ∀ ok, exec (.recoveryDone d ok) s = .next s.restartIfDue) ∧
    (exec (.probationEnd d) s = .next (if (s.fdom d).state = .probation then
      (s.waitUntil (s.fdom d).probEnd).fmodDom d fun x => { x with state := .running, own := false } else s)) ∧
    (s.forgeUp = true → exec .correctableEcc s = .next (s.bump Reg.fncCeCnt) ∧
      ∀ off, off / 0x8000 = 13 → exec (.voteDisagreement off) s = .next (s.bump Reg.fncVoteCnt)) ∧
    (∀ host q (c : Cmd), s.Ready host q 0x0B00 c → d = c.u 0 2 → d ≠ 0xFFFF →
      exec (.fenceStatus host q) s =
        .next (if domainExists d then s.finishCmd c.index 0 (1 + 256) (leBytes 2 d ++ leBytes 1 (s.fenceCode d) ++
          leBytes 1 (s.fdom d).source ++ leBytes 4 (s.fdom d).quenches ++ leBytes 8 (s.fdom d).time) else s.failCmd c.index 0x0B01)) ∧
    (∀ host q (c : Cmd), s.Ready host q 0x0B01 c → d = c.u 0 2 →
      (c.u 2 2 ≠ 0xFFFF - d → exec (.fenceRelease host q) s = .next (s.failCmd c.index 0x0B04)) ∧
      (c.u 2 2 = 0xFFFF - d → domainExists d = false → exec (.fenceRelease host q) s = .next (s.failCmd c.index 0x0B01)) ∧
      (c.u 2 2 = 0xFFFF - d → domainExists d = true → s.quenched d = false → exec (.fenceRelease host q) s = .next (s.failCmd c.index 0x0B02)) ∧
      (c.u 2 2 = 0xFFFF - d → domainExists d = true → s.quenched d = true → ((ancestors d).any s.quenched) = true →
        exec (.fenceRelease host q) s = .next (s.failCmd c.index 0x0B07)) ∧
      (c.u 2 2 = 0xFFFF - d → domainExists d = true → s.quenched d = true → ((ancestors d).any s.quenched) = false →
        ((s.fdom d).state = .recovering → (s.fdom d).byCommand = true → (d = 0 → s.pair.role = .single) →
          exec (.fenceRelease host q) s =
            .next (s.cmdMod c.index fun x => { x with phase := .running, deadline := s.clk, pair := (s.corePair).getD 0 })) ∧
        ((s.fdom d).state = .recovering → (s.fdom d).byCommand = false → exec (.fenceRelease host q) s = .next (s.failCmd c.index 0x0B03)) ∧
        ((s.fdom d).state = .stuck → bit (c.u 4 1) 0 = false → exec (.fenceRelease host q) s = .next (s.failCmd c.index 0x0B05)) ∧
        ((s.fdom d).state ≠ .recovering → ((s.fdom d).state = .stuck → bit (c.u 4 1) 0 = true) → (d = 0 → s.pair.role = .single) →
          ∃ t, exec (.fenceRelease host q) s = .next t ∧ (t.fdom d).state = .recovering ∧ (t.fdom d).byCommand = true ∧
            ∀ k, k ≠ d → t.fdom k = s.fdom k))) ∧
    (∀ host q (c : Cmd), s.Ready host q 0x0B02 c → s.datapathUp = true → (c.host = 2 → s.quenched Dom.memory = false) → c.u 0 1 ≤ 67 → c.u 1 1 ≤ 1 → 4096 ≤ c.u 8 4 →
      c.u 8 4 ≤ 16777216 → (c.host ≠ 2 → c.u 16 8 % 4096 = 0) →
      (s.fnc.capture ≠ none → exec (.captureStart host q) s = .next (s.failCmd c.index 0x0B06)) ∧
      (s.fnc.capture = none → c.u 4 4 ≠ 0 →
        exec (.captureStart host q) s = .next ((s.setFnc { s.fnc with captureBuf := if c.host = 2 then [] else s.fnc.captureBuf, capture := some {
          src := c.u 0 1, egress := c.u 1 1 == 1, stopOnQuench := bit (c.u 2 1) 0, left := c.u 4 4, size := c.u 8 4,
          written := 0, dest := c.u 16 8, host := c.host } }).finishCmd c.index 0 0 [])))

/-- A service session opens with a challenge and a proof, takes in frames with the right sequence and tag, and
ends at its close or timeout (17_boot_update.md, R551 to R555). Completion of SVC_HELLO: a HELLO draws a nonce
and sends a CHALLENGE, unless a session is open or the lockout runs; in RETIRED no session stands after it.
Completion of SVC_PROOF: a PROOF without a fit service key is counted, ends the session, and from the third on
locks S0 for 60 s; one that holds while no alarm is asserted opens the session, loads its tag key and restarts
its numbers. Completion of SVC_COMMAND, SVC_DATA and SVC_CLOSE: a frame of another session, sequence number or
tag is counted and discarded; a COMMAND is queued for its slot up to 32 outstanding, DATA is kept, an
encrypted one once it is decrypted, and CLOSE ends the session. Completion of SVC_SESSION_TIMEOUT and
SVC_LOCKOUT_END: 30 s of silence end the session, and the lockout ends at its time. -/
def Obligations.ServiceSession : Prop :=
  ∀ (s : State), s.s0Up = true →
    (∀ nonce bc, (s.boot.session.any (·.open_) = true ∨ (∃ t, s.boot.lockoutAt = some t ∧ s.clk < t)) →
      exec (.svcHello nonce bc) s = .next s) ∧
    (∀ nonce bc, s.boot.session = none → s.boot.lockoutAt = none → s.key.inForce ≠ .retired →
      ∃ t x, exec (.svcHello nonce bc) s = .next t ∧ t.boot.session = some x ∧ x.id = s.boot.sessionNext ∧ x.nonceT = fit 16 nonce ∧
        x.secured = false ∧ x.rxSeq = 0 ∧ x.lastAt = s.clk ∧ x.data = [] ∧
        x.open_ = (s.key.inForce == .blank || s.key.inForce == .provision) ∧
        t.boot.sessionNext = s.boot.sessionNext % (2 ^ 32 - 1) + 1 ∧ t.mbx.svc = [] ∧ s.out.length < t.out.length) ∧
    (∀ nonce bc, s.boot.session = none → s.boot.lockoutAt = none → s.key.inForce = .retired →
      ∃ t, exec (.svcHello nonce bc) s = .next t ∧ t.boot.session = none ∧ s.out.length < t.out.length) ∧
    (∀ id body x, s.boot.session = some x → x.id = id → x.open_ = false →
      (s.boot.mode ≠ 2 → s.svcKey = none →
        ∃ t, exec (.svcProof id body) s = .next t ∧ t.boot.session = none ∧ t.boot.authFails = s.boot.authFails + 1 ∧
          t.rget Reg.bootSvcAuthFailCnt = s.rget Reg.bootSvcAuthFailCnt + 1 ∧
          t.boot.lockoutAt = (if 3 ≤ s.boot.authFails + 1 then some (s.clk + 60 * 10 ^ 9) else s.boot.lockoutAt)) ∧
      (∀ slot key, s.boot.mode ≠ 2 → s.key.asserted = 0 → s.quenched Dom.keyStore = false → s.quenched Dom.security = false → s.svcKey = some (slot, key) →
        body = Crypto.cmac key (txtTool ++ x.nonceD ++ x.nonceT ++ leBytes 4 Config.forgeId.toNat) →
        ∃ t y, exec (.svcProof id body) s = .next t ∧ t.boot.session = some y ∧ y.open_ = true ∧ y.secured = true ∧ y.rxSeq = 0 ∧
          y.txSeq = 0 ∧ t.boot.authFails = 0 ∧ (t.keySlot 1009).state = .loaded ∧
          (t.keySlot 1009).key = kdf key txtMac (s.levelBelow (some slot)) 0x0C 0x08 (x.nonceT ++ x.nonceD) 256)) ∧
    (∀ id body, s.boot.session = none → exec (.svcProof id body) s = .next s) ∧
    (∀ id seq body tag x, s.boot.session = some x →
      (∀ i type fl b, (i = .svcCommand id seq body tag ∧ type = 4 ∧ fl = 0 ∧ b = body) ∨ (i = .svcClose id seq tag ∧ type = 7 ∧ fl = 0 ∧ b = []) ∨
          (∃ enc, i = .svcData id seq enc body tag ∧ type = 6 ∧ fl = b2n enc ∧ b = body) →
        s.svcFrameOk x type fl id seq b tag = false → exec i s = .next (s.bump Reg.bootSvcBadCnt)) ∧
      (s.svcFrameOk x 4 0 id seq body tag = true → 32 ≤ body.length → body.length ≤ 256 → 32 ∉ s.mbx.faults →
        s.mbx.svc.length + (s.mbx.svcAccept - s.mbx.svcPosted) < 32 →
        ∃ t, exec (.svcCommand id seq body tag) s = .next t ∧ t.mbx.svc = s.mbx.svc ++ [body] ∧
          t.boot.session = some { x with rxSeq := (x.rxSeq + 1) % 2 ^ 32, lastAt := s.clk } ∧ Only (Group.mbx ||| Group.boot) s t) ∧
      (s.svcFrameOk x 6 0 id seq body tag = true → 4 ≤ body.length →
        ∃ t, exec (.svcData id seq false body tag) s = .next t ∧ Only Group.boot s t ∧
          t.boot.session = some { x with
            rxSeq := (x.rxSeq + 1) % 2 ^ 32, lastAt := s.clk, data := x.data ++ [(le body 0 4, body.drop 4)] }) ∧
      (s.svcFrameOk x 6 1 id seq body tag = true →
        (s.dataPlain x seq true body = none → exec (.svcData id seq true body tag) s = .next (s.bump Reg.bootSvcBadCnt)) ∧
        (∀ p, s.dataPlain x seq true body = some p → 4 ≤ p.length →
          ∃ t, exec (.svcData id seq true body tag) s = .next t ∧ t.rget Reg.secCpReqCnt = s.rget Reg.secCpReqCnt + 1 ∧
            t.boot.session = some { x with
              rxSeq := (x.rxSeq + 1) % 2 ^ 32, lastAt := s.clk, data := x.data ++ [(le p 0 4, p.drop 4)] })) ∧
      (s.svcFrameOk x 7 0 id seq [] tag = true →
        ∃ t, exec (.svcClose id seq tag) s = .next t ∧ t.boot.session = none ∧ t.boot.update = none ∧ t.mbx.svc = []) ∧
      (∃ t, exec .svcSessionTimeout s = .next t ∧ t.boot.session = none ∧ t.boot.update = none ∧ t.mbx.svc = [] ∧
        x.lastAt + 30 * 10 ^ 9 ≤ t.clk)) ∧
    (∀ t, s.boot.lockoutAt = some t →
      ∃ u, exec .svcLockoutEnd s = .next u ∧ u.boot.lockoutAt = none ∧ u.boot.authFails = s.boot.authFails ∧ t ≤ u.clk)

/-- An update is opened, written chunk by chunk, verified and armed, each step after its refusals, and a trial
that runs is confirmed (17_boot_update.md, R540, R546, R547, R556 to R560). Completion of UPD_SESSION_OPEN: it
erases the inactive slot's head and opens the update unless one is open, the kind or size is wrong or a trial
is pending. Completion of UPD_BLOCK: it takes the next chunk of the session's DATA when its CRC holds.
Completion of UPD_VERIFY: it asks for every chunk and answers the failing check. Completion of UPD_ACTIVATE:
it arms a verified update of its kind, or confirms a trial. Completion of AUTO_CONFIRM_TIMEOUT: a trial with
AUTO_CONFIRM is confirmed after its time in RUN: its slot becomes active and the OTP takes its rollback count.
-/
def Obligations.UpdateAndConfirmation : Prop :=
  ∀ (s : State) (host q : Nat) (c : Cmd) (t0 : State), s.quenched Dom.memory = false → s.quenched Dom.flash = false →
    t0 = s.sessMod (fun x => { x with data := [] }) →
    (∀ ok kind size, s.Ready host q 0x0C00 c → kind = c.u 0 1 → size = c.u 4 4 →
      (s.boot.update ≠ none → exec (.updSessionOpen host q ok) s = .next (t0.failCmd c.index 0x0C02)) ∧
      (s.boot.update = none → (kind = 0 ∨ 3 < kind) → exec (.updSessionOpen host q ok) s = .next (t0.failCmd c.index 0x0C04)) ∧
      (s.boot.update = none → kind = 1 → bit s.boot.desc.trial 0 = true →
        exec (.updSessionOpen host q ok) s = .next (t0.failCmd c.index 0x0C03)) ∧
      (s.boot.update = none → 1 ≤ kind → kind ≤ 3 → (kind = 1 → bit s.boot.desc.trial 0 = false) →
        (State.slotSize kind < size → exec (.updSessionOpen host q ok) s = .next (t0.failCmd c.index 0x0C04)) ∧
        (size ≤ State.slotSize kind → ok = false → exec (.updSessionOpen host q ok) s = .next (t0.failCmd c.index 0x0C09)) ∧
        (size ≤ State.slotSize kind → ok = true →
          ∃ u : State, exec (.updSessionOpen host q ok) s = .next (u.finishCmd c.index 0 (1 - s.activeSlot kind) []) ∧
            u.boot.update = some { kind := kind, size := size, slot := 1 - s.activeSlot kind, chunks := [], verified := false } ∧
            u.boot.desc = s.boot.desc ∧ Only Group.boot s u))) ∧
    (∀ ok data i, s.Ready host q 0x0C01 c → data = (s.boot.session.map (·.data)).getD [] → i = c.u 0 2 →
      (s.boot.update = none → exec (.updBlock host q ok) s = .next (t0.failCmd c.index 0x0C01)) ∧
      (∀ u, s.boot.update = some u → i ≠ u.chunks.length → i + 1 ≠ u.chunks.length →
        exec (.updBlock host q ok) s = .next (t0.failCmd c.index 0x0C05)) ∧
      (∀ u, s.boot.update = some u → i = u.chunks.length → i < State.Update.count u →
        (gather data (min 0x10000 (u.size - 0x10000 * i)) = none → exec (.updBlock host q ok) s = .next (t0.failCmd c.index 0x0C06)) ∧
        (∀ b, gather data (min 0x10000 (u.size - 0x10000 * i)) = some b → (Crypto.crc32c b).toNat ≠ c.u 4 4 →
          exec (.updBlock host q ok) s = .next (t0.failCmd c.index 0x0C07)) ∧
        (∀ b, gather data (min 0x10000 (u.size - 0x10000 * i)) = some b → (Crypto.crc32c b).toNat = c.u 4 4 → ok = true →
          ∃ v : State, exec (.updBlock host q ok) s = .next (v.finishCmd c.index 0 i []) ∧
            v.boot.update = some { u with chunks := u.chunks ++ [b], verified := false } ∧ Only Group.boot s v))) ∧
    (∀ u, s.Ready host q 0x0C02 c → s.boot.update = some u →
      (u.chunks.length ≠ State.Update.count u → exec (.updVerify host q) s = .next (t0.failCmd c.index 0x0C06)) ∧
      (u.chunks.length = State.Update.count u →
        ((t0.updCheck u).1 ≠ 0 → exec (.updVerify host q) s = .next (t0.finishCmd c.index (t0.updCheck u).1 (t0.updCheck u).2 [])) ∧
        ((t0.updCheck u).1 = 0 →
          exec (.updVerify host q) s =
            .next ((t0.setBoot { t0.boot with update := some { u with verified := true } }).finishCmd c.index 0 0 [])))) ∧
    (s.Ready host q 0x0C02 c → s.boot.update = none → exec (.updVerify host q) s = .next (t0.failCmd c.index 0x0C01)) ∧
    (∀ sf rf, s.Ready host q 0x0C03 c →
      (bit (c.u 1 1) 0 = false → (∀ u, s.boot.update = some u → u.kind ≠ c.u 0 1 ∨ u.verified = false) →
        exec (.updActivate host q sf rf) s = .next (t0.failCmd c.index 0x0C01).restartIfDue) ∧
      (∀ u, bit (c.u 1 1) 0 = false → s.boot.update = some u → u.kind = c.u 0 1 → u.verified = true →
        ∃ v : State, exec (.updActivate host q sf rf) s = .next (v.finishCmd c.index 0 0 []).restartIfDue ∧ v.boot.update = none ∧
          (u.kind = 1 → v.boot.desc.trial = 1 + 2 * u.slot + 4 * b2n (bit (c.u 1 1) 2) ∧ v.boot.desc.trialLeft = 2 ∧
            v.boot.desc.active = s.boot.desc.active) ∧
          (u.kind ≠ 1 → v.boot.desc.active = setBits s.boot.desc.active (u.kind - 1) 1 u.slot)) ∧
      (bit (c.u 1 1) 0 = true → c.u 0 1 = 1 → (s.boot.mode ≠ 1 ∨ bit s.boot.desc.trial 0 = false) →
        exec (.updActivate host q sf rf) s = .next (t0.failCmd c.index 0x0C0A).restartIfDue) ∧
      (bit (c.u 1 1) 0 = true → c.u 0 1 = 1 → s.boot.mode = 1 → bit s.boot.desc.trial 0 = true →
        exec (.updActivate host q sf rf) s = .next ((t0.confirm sf rf).finishCmd c.index 0 0 []).restartIfDue)) ∧
    (∀ sf rf, s.pwr.state = .run → s.boot.mode = 1 → bit s.boot.desc.trial 2 = true →
      (s.fnc.doms.any fun x => decide (levelOf x.1 ≤ 1) && x.2.state.isolated) = false →
      ∃ t, exec (.autoConfirmTimeout sf rf) s = .next t ∧ t.boot.mode = 0 ∧ t.boot.desc.trial = 0 ∧ t.boot.desc.trialLeft = 0 ∧
        t.boot.desc.active = setBits s.boot.desc.active 0 1 (bits s.boot.desc.trial 1 1) ∧ s.boot.rollback ≤ t.boot.rollback ∧
        s.runSince + 10 ^ 9 * State.inRange (s.rfld Reg.bootCtrl 0 16) 10 65535 ≤ t.clk) ∧
    (∀ sf rf, (s.boot.mode ≠ 1 ∨ bit s.boot.desc.trial 2 = false) → exec (.autoConfirmTimeout sf rf) s = .next s)

/-- Every command completes, changes no group of the state but its own, takes no waiting command, and keeps
the canonical form (01_architecture.md, R1 to R31; 02_host_interface.md, R32 to R83). For every command and
every state, executing it answers a next state. The groups of the state that frameMask does not name for the
command are unchanged, the queue of waiting commands is unchanged, outputs are only added, and memory and
registers keep their canonical form. The table frameMask is the model's reading of the chapters that describe
the commands. -/
def Obligations.FrameOfEveryCommand : Prop :=
  ∀ (i : Instr) (s : State), ∃ t, exec i s = .next t ∧ Only (frameMask i) s t
end

