-- ==== Sys2Proof/Laws/State.lean ====
section
/-! SUPPORT.
What each update of one group leaves and what it sets: one equation per field of the state and
per update, so that no proof unfolds a record update. -/

namespace Sys2Proof.Machine.State

/-! ### `setHif` -/

@[simp] theorem setHif_regs (s : State) (x : Hif) : (s.setHif x).regs = s.regs := rfl
@[simp] theorem setHif_mem (s : State) (x : Hif) : (s.setHif x).mem = s.mem := rfl
@[simp] theorem setHif_clk (s : State) (x : Hif) : (s.setHif x).clk = s.clk := rfl
@[simp] theorem setHif_hif (s : State) (x : Hif) : (s.setHif x).hif = x := rfl
@[simp] theorem setHif_mbx (s : State) (x : Hif) : (s.setHif x).mbx = s.mbx := rfl
@[simp] theorem setHif_cal (s : State) (x : Hif) : (s.setHif x).cal = s.cal := rfl
@[simp] theorem setHif_fwd (s : State) (x : Hif) : (s.setHif x).fwd = s.fwd := rfl
@[simp] theorem setHif_fr (s : State) (x : Hif) : (s.setHif x).fr = s.fr := rfl
@[simp] theorem setHif_buf (s : State) (x : Hif) : (s.setHif x).buf = s.buf := rfl
@[simp] theorem setHif_trf (s : State) (x : Hif) : (s.setHif x).trf = s.trf := rfl
@[simp] theorem setHif_edg (s : State) (x : Hif) : (s.setHif x).edg = s.edg := rfl
@[simp] theorem setHif_tun (s : State) (x : Hif) : (s.setHif x).tun = s.tun := rfl
@[simp] theorem setHif_sig (s : State) (x : Hif) : (s.setHif x).sig = s.sig := rfl
@[simp] theorem setHif_e2e (s : State) (x : Hif) : (s.setHif x).e2e = s.e2e := rfl
@[simp] theorem setHif_sec (s : State) (x : Hif) : (s.setHif x).sec = s.sec := rfl
@[simp] theorem setHif_key (s : State) (x : Hif) : (s.setHif x).key = s.key := rfl
@[simp] theorem setHif_dom (s : State) (x : Hif) : (s.setHif x).dom = s.dom := rfl
@[simp] theorem setHif_pwr (s : State) (x : Hif) : (s.setHif x).pwr = s.pwr := rfl
@[simp] theorem setHif_nm (s : State) (x : Hif) : (s.setHif x).nm = s.nm := rfl
@[simp] theorem setHif_pair (s : State) (x : Hif) : (s.setHif x).pair = s.pair := rfl
@[simp] theorem setHif_fnc (s : State) (x : Hif) : (s.setHif x).fnc = s.fnc := rfl
@[simp] theorem setHif_boot (s : State) (x : Hif) : (s.setHif x).boot = s.boot := rfl
@[simp] theorem setHif_pending (s : State) (x : Hif) : (s.setHif x).pending = s.pending := rfl
@[simp] theorem setHif_out (s : State) (x : Hif) : (s.setHif x).out = s.out := rfl
@[simp] theorem setHif_freeCtr (s : State) (x : Hif) : (s.setHif x).freeCtr = s.freeCtr := rfl
@[simp] theorem setHif_rget (s : State) (x : Hif) (o : Nat) : (s.setHif x).rget o = s.rget o := rfl
@[simp] theorem setHif_mget (s : State) (x : Hif) (a : Nat) : (s.setHif x).mget a = s.mget a := rfl

/-! ### `setMbx` -/

@[simp] theorem setMbx_regs (s : State) (x : Mbx) : (s.setMbx x).regs = s.regs := rfl
@[simp] theorem setMbx_mem (s : State) (x : Mbx) : (s.setMbx x).mem = s.mem := rfl
@[simp] theorem setMbx_clk (s : State) (x : Mbx) : (s.setMbx x).clk = s.clk := rfl
@[simp] theorem setMbx_hif (s : State) (x : Mbx) : (s.setMbx x).hif = s.hif := rfl
@[simp] theorem setMbx_mbx (s : State) (x : Mbx) : (s.setMbx x).mbx = x := rfl
@[simp] theorem setMbx_cal (s : State) (x : Mbx) : (s.setMbx x).cal = s.cal := rfl
@[simp] theorem setMbx_fwd (s : State) (x : Mbx) : (s.setMbx x).fwd = s.fwd := rfl
@[simp] theorem setMbx_fr (s : State) (x : Mbx) : (s.setMbx x).fr = s.fr := rfl
@[simp] theorem setMbx_buf (s : State) (x : Mbx) : (s.setMbx x).buf = s.buf := rfl
@[simp] theorem setMbx_trf (s : State) (x : Mbx) : (s.setMbx x).trf = s.trf := rfl
@[simp] theorem setMbx_edg (s : State) (x : Mbx) : (s.setMbx x).edg = s.edg := rfl
@[simp] theorem setMbx_tun (s : State) (x : Mbx) : (s.setMbx x).tun = s.tun := rfl
@[simp] theorem setMbx_sig (s : State) (x : Mbx) : (s.setMbx x).sig = s.sig := rfl
@[simp] theorem setMbx_e2e (s : State) (x : Mbx) : (s.setMbx x).e2e = s.e2e := rfl
@[simp] theorem setMbx_sec (s : State) (x : Mbx) : (s.setMbx x).sec = s.sec := rfl
@[simp] theorem setMbx_key (s : State) (x : Mbx) : (s.setMbx x).key = s.key := rfl
@[simp] theorem setMbx_dom (s : State) (x : Mbx) : (s.setMbx x).dom = s.dom := rfl
@[simp] theorem setMbx_pwr (s : State) (x : Mbx) : (s.setMbx x).pwr = s.pwr := rfl
@[simp] theorem setMbx_nm (s : State) (x : Mbx) : (s.setMbx x).nm = s.nm := rfl
@[simp] theorem setMbx_pair (s : State) (x : Mbx) : (s.setMbx x).pair = s.pair := rfl
@[simp] theorem setMbx_fnc (s : State) (x : Mbx) : (s.setMbx x).fnc = s.fnc := rfl
@[simp] theorem setMbx_boot (s : State) (x : Mbx) : (s.setMbx x).boot = s.boot := rfl
@[simp] theorem setMbx_pending (s : State) (x : Mbx) : (s.setMbx x).pending = s.pending := rfl
@[simp] theorem setMbx_out (s : State) (x : Mbx) : (s.setMbx x).out = s.out := rfl
@[simp] theorem setMbx_freeCtr (s : State) (x : Mbx) : (s.setMbx x).freeCtr = s.freeCtr := rfl
@[simp] theorem setMbx_rget (s : State) (x : Mbx) (o : Nat) : (s.setMbx x).rget o = s.rget o := rfl
@[simp] theorem setMbx_mget (s : State) (x : Mbx) (a : Nat) : (s.setMbx x).mget a = s.mget a := rfl

/-! ### `setCal` -/

@[simp] theorem setCal_regs (s : State) (x : Cal) : (s.setCal x).regs = s.regs := rfl
@[simp] theorem setCal_mem (s : State) (x : Cal) : (s.setCal x).mem = s.mem := rfl
@[simp] theorem setCal_clk (s : State) (x : Cal) : (s.setCal x).clk = s.clk := rfl
@[simp] theorem setCal_hif (s : State) (x : Cal) : (s.setCal x).hif = s.hif := rfl
@[simp] theorem setCal_mbx (s : State) (x : Cal) : (s.setCal x).mbx = s.mbx := rfl
@[simp] theorem setCal_cal (s : State) (x : Cal) : (s.setCal x).cal = x := rfl
@[simp] theorem setCal_fwd (s : State) (x : Cal) : (s.setCal x).fwd = s.fwd := rfl
@[simp] theorem setCal_fr (s : State) (x : Cal) : (s.setCal x).fr = s.fr := rfl
@[simp] theorem setCal_buf (s : State) (x : Cal) : (s.setCal x).buf = s.buf := rfl
@[simp] theorem setCal_trf (s : State) (x : Cal) : (s.setCal x).trf = s.trf := rfl
@[simp] theorem setCal_edg (s : State) (x : Cal) : (s.setCal x).edg = s.edg := rfl
@[simp] theorem setCal_tun (s : State) (x : Cal) : (s.setCal x).tun = s.tun := rfl
@[simp] theorem setCal_sig (s : State) (x : Cal) : (s.setCal x).sig = s.sig := rfl
@[simp] theorem setCal_e2e (s : State) (x : Cal) : (s.setCal x).e2e = s.e2e := rfl
@[simp] theorem setCal_sec (s : State) (x : Cal) : (s.setCal x).sec = s.sec := rfl
@[simp] theorem setCal_key (s : State) (x : Cal) : (s.setCal x).key = s.key := rfl
@[simp] theorem setCal_dom (s : State) (x : Cal) : (s.setCal x).dom = s.dom := rfl
@[simp] theorem setCal_pwr (s : State) (x : Cal) : (s.setCal x).pwr = s.pwr := rfl
@[simp] theorem setCal_nm (s : State) (x : Cal) : (s.setCal x).nm = s.nm := rfl
@[simp] theorem setCal_pair (s : State) (x : Cal) : (s.setCal x).pair = s.pair := rfl
@[simp] theorem setCal_fnc (s : State) (x : Cal) : (s.setCal x).fnc = s.fnc := rfl
@[simp] theorem setCal_boot (s : State) (x : Cal) : (s.setCal x).boot = s.boot := rfl
@[simp] theorem setCal_pending (s : State) (x : Cal) : (s.setCal x).pending = s.pending := rfl
@[simp] theorem setCal_out (s : State) (x : Cal) : (s.setCal x).out = s.out := rfl
@[simp] theorem setCal_freeCtr (s : State) (x : Cal) : (s.setCal x).freeCtr = s.freeCtr := rfl
@[simp] theorem setCal_rget (s : State) (x : Cal) (o : Nat) : (s.setCal x).rget o = s.rget o := rfl
@[simp] theorem setCal_mget (s : State) (x : Cal) (a : Nat) : (s.setCal x).mget a = s.mget a := rfl

/-! ### `setFwd` -/

@[simp] theorem setFwd_regs (s : State) (x : Fwd) : (s.setFwd x).regs = s.regs := rfl
@[simp] theorem setFwd_mem (s : State) (x : Fwd) : (s.setFwd x).mem = s.mem := rfl
@[simp] theorem setFwd_clk (s : State) (x : Fwd) : (s.setFwd x).clk = s.clk := rfl
@[simp] theorem setFwd_hif (s : State) (x : Fwd) : (s.setFwd x).hif = s.hif := rfl
@[simp] theorem setFwd_mbx (s : State) (x : Fwd) : (s.setFwd x).mbx = s.mbx := rfl
@[simp] theorem setFwd_cal (s : State) (x : Fwd) : (s.setFwd x).cal = s.cal := rfl
@[simp] theorem setFwd_fwd (s : State) (x : Fwd) : (s.setFwd x).fwd = x := rfl
@[simp] theorem setFwd_fr (s : State) (x : Fwd) : (s.setFwd x).fr = s.fr := rfl
@[simp] theorem setFwd_buf (s : State) (x : Fwd) : (s.setFwd x).buf = s.buf := rfl
@[simp] theorem setFwd_trf (s : State) (x : Fwd) : (s.setFwd x).trf = s.trf := rfl
@[simp] theorem setFwd_edg (s : State) (x : Fwd) : (s.setFwd x).edg = s.edg := rfl
@[simp] theorem setFwd_tun (s : State) (x : Fwd) : (s.setFwd x).tun = s.tun := rfl
@[simp] theorem setFwd_sig (s : State) (x : Fwd) : (s.setFwd x).sig = s.sig := rfl
@[simp] theorem setFwd_e2e (s : State) (x : Fwd) : (s.setFwd x).e2e = s.e2e := rfl
@[simp] theorem setFwd_sec (s : State) (x : Fwd) : (s.setFwd x).sec = s.sec := rfl
@[simp] theorem setFwd_key (s : State) (x : Fwd) : (s.setFwd x).key = s.key := rfl
@[simp] theorem setFwd_dom (s : State) (x : Fwd) : (s.setFwd x).dom = s.dom := rfl
@[simp] theorem setFwd_pwr (s : State) (x : Fwd) : (s.setFwd x).pwr = s.pwr := rfl
@[simp] theorem setFwd_nm (s : State) (x : Fwd) : (s.setFwd x).nm = s.nm := rfl
@[simp] theorem setFwd_pair (s : State) (x : Fwd) : (s.setFwd x).pair = s.pair := rfl
@[simp] theorem setFwd_fnc (s : State) (x : Fwd) : (s.setFwd x).fnc = s.fnc := rfl
@[simp] theorem setFwd_boot (s : State) (x : Fwd) : (s.setFwd x).boot = s.boot := rfl
@[simp] theorem setFwd_pending (s : State) (x : Fwd) : (s.setFwd x).pending = s.pending := rfl
@[simp] theorem setFwd_out (s : State) (x : Fwd) : (s.setFwd x).out = s.out := rfl
@[simp] theorem setFwd_freeCtr (s : State) (x : Fwd) : (s.setFwd x).freeCtr = s.freeCtr := rfl
@[simp] theorem setFwd_rget (s : State) (x : Fwd) (o : Nat) : (s.setFwd x).rget o = s.rget o := rfl
@[simp] theorem setFwd_mget (s : State) (x : Fwd) (a : Nat) : (s.setFwd x).mget a = s.mget a := rfl

/-! ### `setFr` -/

@[simp] theorem setFr_regs (s : State) (x : Frames) : (s.setFr x).regs = s.regs := rfl
@[simp] theorem setFr_mem (s : State) (x : Frames) : (s.setFr x).mem = s.mem := rfl
@[simp] theorem setFr_clk (s : State) (x : Frames) : (s.setFr x).clk = s.clk := rfl
@[simp] theorem setFr_hif (s : State) (x : Frames) : (s.setFr x).hif = s.hif := rfl
@[simp] theorem setFr_mbx (s : State) (x : Frames) : (s.setFr x).mbx = s.mbx := rfl
@[simp] theorem setFr_cal (s : State) (x : Frames) : (s.setFr x).cal = s.cal := rfl
@[simp] theorem setFr_fwd (s : State) (x : Frames) : (s.setFr x).fwd = s.fwd := rfl
@[simp] theorem setFr_fr (s : State) (x : Frames) : (s.setFr x).fr = x := rfl
@[simp] theorem setFr_buf (s : State) (x : Frames) : (s.setFr x).buf = s.buf := rfl
@[simp] theorem setFr_trf (s : State) (x : Frames) : (s.setFr x).trf = s.trf := rfl
@[simp] theorem setFr_edg (s : State) (x : Frames) : (s.setFr x).edg = s.edg := rfl
@[simp] theorem setFr_tun (s : State) (x : Frames) : (s.setFr x).tun = s.tun := rfl
@[simp] theorem setFr_sig (s : State) (x : Frames) : (s.setFr x).sig = s.sig := rfl
@[simp] theorem setFr_e2e (s : State) (x : Frames) : (s.setFr x).e2e = s.e2e := rfl
@[simp] theorem setFr_sec (s : State) (x : Frames) : (s.setFr x).sec = s.sec := rfl
@[simp] theorem setFr_key (s : State) (x : Frames) : (s.setFr x).key = s.key := rfl
@[simp] theorem setFr_dom (s : State) (x : Frames) : (s.setFr x).dom = s.dom := rfl
@[simp] theorem setFr_pwr (s : State) (x : Frames) : (s.setFr x).pwr = s.pwr := rfl
@[simp] theorem setFr_nm (s : State) (x : Frames) : (s.setFr x).nm = s.nm := rfl
@[simp] theorem setFr_pair (s : State) (x : Frames) : (s.setFr x).pair = s.pair := rfl
@[simp] theorem setFr_fnc (s : State) (x : Frames) : (s.setFr x).fnc = s.fnc := rfl
@[simp] theorem setFr_boot (s : State) (x : Frames) : (s.setFr x).boot = s.boot := rfl
@[simp] theorem setFr_pending (s : State) (x : Frames) : (s.setFr x).pending = s.pending := rfl
@[simp] theorem setFr_out (s : State) (x : Frames) : (s.setFr x).out = s.out := rfl
@[simp] theorem setFr_freeCtr (s : State) (x : Frames) : (s.setFr x).freeCtr = s.freeCtr := rfl
@[simp] theorem setFr_rget (s : State) (x : Frames) (o : Nat) : (s.setFr x).rget o = s.rget o := rfl
@[simp] theorem setFr_mget (s : State) (x : Frames) (a : Nat) : (s.setFr x).mget a = s.mget a := rfl

/-! ### `setBuf` -/

@[simp] theorem setBuf_regs (s : State) (x : Buf) : (s.setBuf x).regs = s.regs := rfl
@[simp] theorem setBuf_mem (s : State) (x : Buf) : (s.setBuf x).mem = s.mem := rfl
@[simp] theorem setBuf_clk (s : State) (x : Buf) : (s.setBuf x).clk = s.clk := rfl
@[simp] theorem setBuf_hif (s : State) (x : Buf) : (s.setBuf x).hif = s.hif := rfl
@[simp] theorem setBuf_mbx (s : State) (x : Buf) : (s.setBuf x).mbx = s.mbx := rfl
@[simp] theorem setBuf_cal (s : State) (x : Buf) : (s.setBuf x).cal = s.cal := rfl
@[simp] theorem setBuf_fwd (s : State) (x : Buf) : (s.setBuf x).fwd = s.fwd := rfl
@[simp] theorem setBuf_fr (s : State) (x : Buf) : (s.setBuf x).fr = s.fr := rfl
@[simp] theorem setBuf_buf (s : State) (x : Buf) : (s.setBuf x).buf = x := rfl
@[simp] theorem setBuf_trf (s : State) (x : Buf) : (s.setBuf x).trf = s.trf := rfl
@[simp] theorem setBuf_edg (s : State) (x : Buf) : (s.setBuf x).edg = s.edg := rfl
@[simp] theorem setBuf_tun (s : State) (x : Buf) : (s.setBuf x).tun = s.tun := rfl
@[simp] theorem setBuf_sig (s : State) (x : Buf) : (s.setBuf x).sig = s.sig := rfl
@[simp] theorem setBuf_e2e (s : State) (x : Buf) : (s.setBuf x).e2e = s.e2e := rfl
@[simp] theorem setBuf_sec (s : State) (x : Buf) : (s.setBuf x).sec = s.sec := rfl
@[simp] theorem setBuf_key (s : State) (x : Buf) : (s.setBuf x).key = s.key := rfl
@[simp] theorem setBuf_dom (s : State) (x : Buf) : (s.setBuf x).dom = s.dom := rfl
@[simp] theorem setBuf_pwr (s : State) (x : Buf) : (s.setBuf x).pwr = s.pwr := rfl
@[simp] theorem setBuf_nm (s : State) (x : Buf) : (s.setBuf x).nm = s.nm := rfl
@[simp] theorem setBuf_pair (s : State) (x : Buf) : (s.setBuf x).pair = s.pair := rfl
@[simp] theorem setBuf_fnc (s : State) (x : Buf) : (s.setBuf x).fnc = s.fnc := rfl
@[simp] theorem setBuf_boot (s : State) (x : Buf) : (s.setBuf x).boot = s.boot := rfl
@[simp] theorem setBuf_pending (s : State) (x : Buf) : (s.setBuf x).pending = s.pending := rfl
@[simp] theorem setBuf_out (s : State) (x : Buf) : (s.setBuf x).out = s.out := rfl
@[simp] theorem setBuf_freeCtr (s : State) (x : Buf) : (s.setBuf x).freeCtr = s.freeCtr := rfl
@[simp] theorem setBuf_rget (s : State) (x : Buf) (o : Nat) : (s.setBuf x).rget o = s.rget o := rfl
@[simp] theorem setBuf_mget (s : State) (x : Buf) (a : Nat) : (s.setBuf x).mget a = s.mget a := rfl

/-! ### `setTrf` -/

@[simp] theorem setTrf_regs (s : State) (x : Trf) : (s.setTrf x).regs = s.regs := rfl
@[simp] theorem setTrf_mem (s : State) (x : Trf) : (s.setTrf x).mem = s.mem := rfl
@[simp] theorem setTrf_clk (s : State) (x : Trf) : (s.setTrf x).clk = s.clk := rfl
@[simp] theorem setTrf_hif (s : State) (x : Trf) : (s.setTrf x).hif = s.hif := rfl
@[simp] theorem setTrf_mbx (s : State) (x : Trf) : (s.setTrf x).mbx = s.mbx := rfl
@[simp] theorem setTrf_cal (s : State) (x : Trf) : (s.setTrf x).cal = s.cal := rfl
@[simp] theorem setTrf_fwd (s : State) (x : Trf) : (s.setTrf x).fwd = s.fwd := rfl
@[simp] theorem setTrf_fr (s : State) (x : Trf) : (s.setTrf x).fr = s.fr := rfl
@[simp] theorem setTrf_buf (s : State) (x : Trf) : (s.setTrf x).buf = s.buf := rfl
@[simp] theorem setTrf_trf (s : State) (x : Trf) : (s.setTrf x).trf = x := rfl
@[simp] theorem setTrf_edg (s : State) (x : Trf) : (s.setTrf x).edg = s.edg := rfl
@[simp] theorem setTrf_tun (s : State) (x : Trf) : (s.setTrf x).tun = s.tun := rfl
@[simp] theorem setTrf_sig (s : State) (x : Trf) : (s.setTrf x).sig = s.sig := rfl
@[simp] theorem setTrf_e2e (s : State) (x : Trf) : (s.setTrf x).e2e = s.e2e := rfl
@[simp] theorem setTrf_sec (s : State) (x : Trf) : (s.setTrf x).sec = s.sec := rfl
@[simp] theorem setTrf_key (s : State) (x : Trf) : (s.setTrf x).key = s.key := rfl
@[simp] theorem setTrf_dom (s : State) (x : Trf) : (s.setTrf x).dom = s.dom := rfl
@[simp] theorem setTrf_pwr (s : State) (x : Trf) : (s.setTrf x).pwr = s.pwr := rfl
@[simp] theorem setTrf_nm (s : State) (x : Trf) : (s.setTrf x).nm = s.nm := rfl
@[simp] theorem setTrf_pair (s : State) (x : Trf) : (s.setTrf x).pair = s.pair := rfl
@[simp] theorem setTrf_fnc (s : State) (x : Trf) : (s.setTrf x).fnc = s.fnc := rfl
@[simp] theorem setTrf_boot (s : State) (x : Trf) : (s.setTrf x).boot = s.boot := rfl
@[simp] theorem setTrf_pending (s : State) (x : Trf) : (s.setTrf x).pending = s.pending := rfl
@[simp] theorem setTrf_out (s : State) (x : Trf) : (s.setTrf x).out = s.out := rfl
@[simp] theorem setTrf_freeCtr (s : State) (x : Trf) : (s.setTrf x).freeCtr = s.freeCtr := rfl
@[simp] theorem setTrf_rget (s : State) (x : Trf) (o : Nat) : (s.setTrf x).rget o = s.rget o := rfl
@[simp] theorem setTrf_mget (s : State) (x : Trf) (a : Nat) : (s.setTrf x).mget a = s.mget a := rfl

/-! ### `setEdg` -/

@[simp] theorem setEdg_regs (s : State) (x : Edg) : (s.setEdg x).regs = s.regs := rfl
@[simp] theorem setEdg_mem (s : State) (x : Edg) : (s.setEdg x).mem = s.mem := rfl
@[simp] theorem setEdg_clk (s : State) (x : Edg) : (s.setEdg x).clk = s.clk := rfl
@[simp] theorem setEdg_hif (s : State) (x : Edg) : (s.setEdg x).hif = s.hif := rfl
@[simp] theorem setEdg_mbx (s : State) (x : Edg) : (s.setEdg x).mbx = s.mbx := rfl
@[simp] theorem setEdg_cal (s : State) (x : Edg) : (s.setEdg x).cal = s.cal := rfl
@[simp] theorem setEdg_fwd (s : State) (x : Edg) : (s.setEdg x).fwd = s.fwd := rfl
@[simp] theorem setEdg_fr (s : State) (x : Edg) : (s.setEdg x).fr = s.fr := rfl
@[simp] theorem setEdg_buf (s : State) (x : Edg) : (s.setEdg x).buf = s.buf := rfl
@[simp] theorem setEdg_trf (s : State) (x : Edg) : (s.setEdg x).trf = s.trf := rfl
@[simp] theorem setEdg_edg (s : State) (x : Edg) : (s.setEdg x).edg = x := rfl
@[simp] theorem setEdg_tun (s : State) (x : Edg) : (s.setEdg x).tun = s.tun := rfl
@[simp] theorem setEdg_sig (s : State) (x : Edg) : (s.setEdg x).sig = s.sig := rfl
@[simp] theorem setEdg_e2e (s : State) (x : Edg) : (s.setEdg x).e2e = s.e2e := rfl
@[simp] theorem setEdg_sec (s : State) (x : Edg) : (s.setEdg x).sec = s.sec := rfl
@[simp] theorem setEdg_key (s : State) (x : Edg) : (s.setEdg x).key = s.key := rfl
@[simp] theorem setEdg_dom (s : State) (x : Edg) : (s.setEdg x).dom = s.dom := rfl
@[simp] theorem setEdg_pwr (s : State) (x : Edg) : (s.setEdg x).pwr = s.pwr := rfl
@[simp] theorem setEdg_nm (s : State) (x : Edg) : (s.setEdg x).nm = s.nm := rfl
@[simp] theorem setEdg_pair (s : State) (x : Edg) : (s.setEdg x).pair = s.pair := rfl
@[simp] theorem setEdg_fnc (s : State) (x : Edg) : (s.setEdg x).fnc = s.fnc := rfl
@[simp] theorem setEdg_boot (s : State) (x : Edg) : (s.setEdg x).boot = s.boot := rfl
@[simp] theorem setEdg_pending (s : State) (x : Edg) : (s.setEdg x).pending = s.pending := rfl
@[simp] theorem setEdg_out (s : State) (x : Edg) : (s.setEdg x).out = s.out := rfl
@[simp] theorem setEdg_freeCtr (s : State) (x : Edg) : (s.setEdg x).freeCtr = s.freeCtr := rfl
@[simp] theorem setEdg_rget (s : State) (x : Edg) (o : Nat) : (s.setEdg x).rget o = s.rget o := rfl
@[simp] theorem setEdg_mget (s : State) (x : Edg) (a : Nat) : (s.setEdg x).mget a = s.mget a := rfl

/-! ### `setTun` -/

@[simp] theorem setTun_regs (s : State) (x : Tun) : (s.setTun x).regs = s.regs := rfl
@[simp] theorem setTun_mem (s : State) (x : Tun) : (s.setTun x).mem = s.mem := rfl
@[simp] theorem setTun_clk (s : State) (x : Tun) : (s.setTun x).clk = s.clk := rfl
@[simp] theorem setTun_hif (s : State) (x : Tun) : (s.setTun x).hif = s.hif := rfl
@[simp] theorem setTun_mbx (s : State) (x : Tun) : (s.setTun x).mbx = s.mbx := rfl
@[simp] theorem setTun_cal (s : State) (x : Tun) : (s.setTun x).cal = s.cal := rfl
@[simp] theorem setTun_fwd (s : State) (x : Tun) : (s.setTun x).fwd = s.fwd := rfl
@[simp] theorem setTun_fr (s : State) (x : Tun) : (s.setTun x).fr = s.fr := rfl
@[simp] theorem setTun_buf (s : State) (x : Tun) : (s.setTun x).buf = s.buf := rfl
@[simp] theorem setTun_trf (s : State) (x : Tun) : (s.setTun x).trf = s.trf := rfl
@[simp] theorem setTun_edg (s : State) (x : Tun) : (s.setTun x).edg = s.edg := rfl
@[simp] theorem setTun_tun (s : State) (x : Tun) : (s.setTun x).tun = x := rfl
@[simp] theorem setTun_sig (s : State) (x : Tun) : (s.setTun x).sig = s.sig := rfl
@[simp] theorem setTun_e2e (s : State) (x : Tun) : (s.setTun x).e2e = s.e2e := rfl
@[simp] theorem setTun_sec (s : State) (x : Tun) : (s.setTun x).sec = s.sec := rfl
@[simp] theorem setTun_key (s : State) (x : Tun) : (s.setTun x).key = s.key := rfl
@[simp] theorem setTun_dom (s : State) (x : Tun) : (s.setTun x).dom = s.dom := rfl
@[simp] theorem setTun_pwr (s : State) (x : Tun) : (s.setTun x).pwr = s.pwr := rfl
@[simp] theorem setTun_nm (s : State) (x : Tun) : (s.setTun x).nm = s.nm := rfl
@[simp] theorem setTun_pair (s : State) (x : Tun) : (s.setTun x).pair = s.pair := rfl
@[simp] theorem setTun_fnc (s : State) (x : Tun) : (s.setTun x).fnc = s.fnc := rfl
@[simp] theorem setTun_boot (s : State) (x : Tun) : (s.setTun x).boot = s.boot := rfl
@[simp] theorem setTun_pending (s : State) (x : Tun) : (s.setTun x).pending = s.pending := rfl
@[simp] theorem setTun_out (s : State) (x : Tun) : (s.setTun x).out = s.out := rfl
@[simp] theorem setTun_freeCtr (s : State) (x : Tun) : (s.setTun x).freeCtr = s.freeCtr := rfl
@[simp] theorem setTun_rget (s : State) (x : Tun) (o : Nat) : (s.setTun x).rget o = s.rget o := rfl
@[simp] theorem setTun_mget (s : State) (x : Tun) (a : Nat) : (s.setTun x).mget a = s.mget a := rfl

/-! ### `setSig` -/

@[simp] theorem setSig_regs (s : State) (x : Sig) : (s.setSig x).regs = s.regs := rfl
@[simp] theorem setSig_mem (s : State) (x : Sig) : (s.setSig x).mem = s.mem := rfl
@[simp] theorem setSig_clk (s : State) (x : Sig) : (s.setSig x).clk = s.clk := rfl
@[simp] theorem setSig_hif (s : State) (x : Sig) : (s.setSig x).hif = s.hif := rfl
@[simp] theorem setSig_mbx (s : State) (x : Sig) : (s.setSig x).mbx = s.mbx := rfl
@[simp] theorem setSig_cal (s : State) (x : Sig) : (s.setSig x).cal = s.cal := rfl
@[simp] theorem setSig_fwd (s : State) (x : Sig) : (s.setSig x).fwd = s.fwd := rfl
@[simp] theorem setSig_fr (s : State) (x : Sig) : (s.setSig x).fr = s.fr := rfl
@[simp] theorem setSig_buf (s : State) (x : Sig) : (s.setSig x).buf = s.buf := rfl
@[simp] theorem setSig_trf (s : State) (x : Sig) : (s.setSig x).trf = s.trf := rfl
@[simp] theorem setSig_edg (s : State) (x : Sig) : (s.setSig x).edg = s.edg := rfl
@[simp] theorem setSig_tun (s : State) (x : Sig) : (s.setSig x).tun = s.tun := rfl
@[simp] theorem setSig_sig (s : State) (x : Sig) : (s.setSig x).sig = x := rfl
@[simp] theorem setSig_e2e (s : State) (x : Sig) : (s.setSig x).e2e = s.e2e := rfl
@[simp] theorem setSig_sec (s : State) (x : Sig) : (s.setSig x).sec = s.sec := rfl
@[simp] theorem setSig_key (s : State) (x : Sig) : (s.setSig x).key = s.key := rfl
@[simp] theorem setSig_dom (s : State) (x : Sig) : (s.setSig x).dom = s.dom := rfl
@[simp] theorem setSig_pwr (s : State) (x : Sig) : (s.setSig x).pwr = s.pwr := rfl
@[simp] theorem setSig_nm (s : State) (x : Sig) : (s.setSig x).nm = s.nm := rfl
@[simp] theorem setSig_pair (s : State) (x : Sig) : (s.setSig x).pair = s.pair := rfl
@[simp] theorem setSig_fnc (s : State) (x : Sig) : (s.setSig x).fnc = s.fnc := rfl
@[simp] theorem setSig_boot (s : State) (x : Sig) : (s.setSig x).boot = s.boot := rfl
@[simp] theorem setSig_pending (s : State) (x : Sig) : (s.setSig x).pending = s.pending := rfl
@[simp] theorem setSig_out (s : State) (x : Sig) : (s.setSig x).out = s.out := rfl
@[simp] theorem setSig_freeCtr (s : State) (x : Sig) : (s.setSig x).freeCtr = s.freeCtr := rfl
@[simp] theorem setSig_rget (s : State) (x : Sig) (o : Nat) : (s.setSig x).rget o = s.rget o := rfl
@[simp] theorem setSig_mget (s : State) (x : Sig) (a : Nat) : (s.setSig x).mget a = s.mget a := rfl

/-! ### `setSec` -/

@[simp] theorem setSec_regs (s : State) (x : Sec) : (s.setSec x).regs = s.regs := rfl
@[simp] theorem setSec_mem (s : State) (x : Sec) : (s.setSec x).mem = s.mem := rfl
@[simp] theorem setSec_clk (s : State) (x : Sec) : (s.setSec x).clk = s.clk := rfl
@[simp] theorem setSec_hif (s : State) (x : Sec) : (s.setSec x).hif = s.hif := rfl
@[simp] theorem setSec_mbx (s : State) (x : Sec) : (s.setSec x).mbx = s.mbx := rfl
@[simp] theorem setSec_cal (s : State) (x : Sec) : (s.setSec x).cal = s.cal := rfl
@[simp] theorem setSec_fwd (s : State) (x : Sec) : (s.setSec x).fwd = s.fwd := rfl
@[simp] theorem setSec_fr (s : State) (x : Sec) : (s.setSec x).fr = s.fr := rfl
@[simp] theorem setSec_buf (s : State) (x : Sec) : (s.setSec x).buf = s.buf := rfl
@[simp] theorem setSec_trf (s : State) (x : Sec) : (s.setSec x).trf = s.trf := rfl
@[simp] theorem setSec_edg (s : State) (x : Sec) : (s.setSec x).edg = s.edg := rfl
@[simp] theorem setSec_tun (s : State) (x : Sec) : (s.setSec x).tun = s.tun := rfl
@[simp] theorem setSec_sig (s : State) (x : Sec) : (s.setSec x).sig = s.sig := rfl
@[simp] theorem setSec_e2e (s : State) (x : Sec) : (s.setSec x).e2e = s.e2e := rfl
@[simp] theorem setSec_sec (s : State) (x : Sec) : (s.setSec x).sec = x := rfl
@[simp] theorem setSec_key (s : State) (x : Sec) : (s.setSec x).key = s.key := rfl
@[simp] theorem setSec_dom (s : State) (x : Sec) : (s.setSec x).dom = s.dom := rfl
@[simp] theorem setSec_pwr (s : State) (x : Sec) : (s.setSec x).pwr = s.pwr := rfl
@[simp] theorem setSec_nm (s : State) (x : Sec) : (s.setSec x).nm = s.nm := rfl
@[simp] theorem setSec_pair (s : State) (x : Sec) : (s.setSec x).pair = s.pair := rfl
@[simp] theorem setSec_fnc (s : State) (x : Sec) : (s.setSec x).fnc = s.fnc := rfl
@[simp] theorem setSec_boot (s : State) (x : Sec) : (s.setSec x).boot = s.boot := rfl
@[simp] theorem setSec_pending (s : State) (x : Sec) : (s.setSec x).pending = s.pending := rfl
@[simp] theorem setSec_out (s : State) (x : Sec) : (s.setSec x).out = s.out := rfl
@[simp] theorem setSec_freeCtr (s : State) (x : Sec) : (s.setSec x).freeCtr = s.freeCtr := rfl
@[simp] theorem setSec_rget (s : State) (x : Sec) (o : Nat) : (s.setSec x).rget o = s.rget o := rfl
@[simp] theorem setSec_mget (s : State) (x : Sec) (a : Nat) : (s.setSec x).mget a = s.mget a := rfl

/-! ### `setKey` -/

@[simp] theorem setKey_regs (s : State) (x : Key) : (s.setKey x).regs = s.regs := rfl
@[simp] theorem setKey_mem (s : State) (x : Key) : (s.setKey x).mem = s.mem := rfl
@[simp] theorem setKey_clk (s : State) (x : Key) : (s.setKey x).clk = s.clk := rfl
@[simp] theorem setKey_hif (s : State) (x : Key) : (s.setKey x).hif = s.hif := rfl
@[simp] theorem setKey_mbx (s : State) (x : Key) : (s.setKey x).mbx = s.mbx := rfl
@[simp] theorem setKey_cal (s : State) (x : Key) : (s.setKey x).cal = s.cal := rfl
@[simp] theorem setKey_fwd (s : State) (x : Key) : (s.setKey x).fwd = s.fwd := rfl
@[simp] theorem setKey_fr (s : State) (x : Key) : (s.setKey x).fr = s.fr := rfl
@[simp] theorem setKey_buf (s : State) (x : Key) : (s.setKey x).buf = s.buf := rfl
@[simp] theorem setKey_trf (s : State) (x : Key) : (s.setKey x).trf = s.trf := rfl
@[simp] theorem setKey_edg (s : State) (x : Key) : (s.setKey x).edg = s.edg := rfl
@[simp] theorem setKey_tun (s : State) (x : Key) : (s.setKey x).tun = s.tun := rfl
@[simp] theorem setKey_sig (s : State) (x : Key) : (s.setKey x).sig = s.sig := rfl
@[simp] theorem setKey_e2e (s : State) (x : Key) : (s.setKey x).e2e = s.e2e := rfl
@[simp] theorem setKey_sec (s : State) (x : Key) : (s.setKey x).sec = s.sec := rfl
@[simp] theorem setKey_key (s : State) (x : Key) : (s.setKey x).key = x := rfl
@[simp] theorem setKey_dom (s : State) (x : Key) : (s.setKey x).dom = s.dom := rfl
@[simp] theorem setKey_pwr (s : State) (x : Key) : (s.setKey x).pwr = s.pwr := rfl
@[simp] theorem setKey_nm (s : State) (x : Key) : (s.setKey x).nm = s.nm := rfl
@[simp] theorem setKey_pair (s : State) (x : Key) : (s.setKey x).pair = s.pair := rfl
@[simp] theorem setKey_fnc (s : State) (x : Key) : (s.setKey x).fnc = s.fnc := rfl
@[simp] theorem setKey_boot (s : State) (x : Key) : (s.setKey x).boot = s.boot := rfl
@[simp] theorem setKey_pending (s : State) (x : Key) : (s.setKey x).pending = s.pending := rfl
@[simp] theorem setKey_out (s : State) (x : Key) : (s.setKey x).out = s.out := rfl
@[simp] theorem setKey_freeCtr (s : State) (x : Key) : (s.setKey x).freeCtr = s.freeCtr := rfl
@[simp] theorem setKey_rget (s : State) (x : Key) (o : Nat) : (s.setKey x).rget o = s.rget o := rfl
@[simp] theorem setKey_mget (s : State) (x : Key) (a : Nat) : (s.setKey x).mget a = s.mget a := rfl

/-! ### `setPwr` -/

@[simp] theorem setPwr_regs (s : State) (x : Pwr) : (s.setPwr x).regs = s.regs := rfl
@[simp] theorem setPwr_mem (s : State) (x : Pwr) : (s.setPwr x).mem = s.mem := rfl
@[simp] theorem setPwr_clk (s : State) (x : Pwr) : (s.setPwr x).clk = s.clk := rfl
@[simp] theorem setPwr_hif (s : State) (x : Pwr) : (s.setPwr x).hif = s.hif := rfl
@[simp] theorem setPwr_mbx (s : State) (x : Pwr) : (s.setPwr x).mbx = s.mbx := rfl
@[simp] theorem setPwr_cal (s : State) (x : Pwr) : (s.setPwr x).cal = s.cal := rfl
@[simp] theorem setPwr_fwd (s : State) (x : Pwr) : (s.setPwr x).fwd = s.fwd := rfl
@[simp] theorem setPwr_fr (s : State) (x : Pwr) : (s.setPwr x).fr = s.fr := rfl
@[simp] theorem setPwr_buf (s : State) (x : Pwr) : (s.setPwr x).buf = s.buf := rfl
@[simp] theorem setPwr_trf (s : State) (x : Pwr) : (s.setPwr x).trf = s.trf := rfl
@[simp] theorem setPwr_edg (s : State) (x : Pwr) : (s.setPwr x).edg = s.edg := rfl
@[simp] theorem setPwr_tun (s : State) (x : Pwr) : (s.setPwr x).tun = s.tun := rfl
@[simp] theorem setPwr_sig (s : State) (x : Pwr) : (s.setPwr x).sig = s.sig := rfl
@[simp] theorem setPwr_e2e (s : State) (x : Pwr) : (s.setPwr x).e2e = s.e2e := rfl
@[simp] theorem setPwr_sec (s : State) (x : Pwr) : (s.setPwr x).sec = s.sec := rfl
@[simp] theorem setPwr_key (s : State) (x : Pwr) : (s.setPwr x).key = s.key := rfl
@[simp] theorem setPwr_dom (s : State) (x : Pwr) : (s.setPwr x).dom = s.dom := rfl
@[simp] theorem setPwr_pwr (s : State) (x : Pwr) : (s.setPwr x).pwr = x := rfl
@[simp] theorem setPwr_nm (s : State) (x : Pwr) : (s.setPwr x).nm = s.nm := rfl
@[simp] theorem setPwr_pair (s : State) (x : Pwr) : (s.setPwr x).pair = s.pair := rfl
@[simp] theorem setPwr_fnc (s : State) (x : Pwr) : (s.setPwr x).fnc = s.fnc := rfl
@[simp] theorem setPwr_boot (s : State) (x : Pwr) : (s.setPwr x).boot = s.boot := rfl
@[simp] theorem setPwr_pending (s : State) (x : Pwr) : (s.setPwr x).pending = s.pending := rfl
@[simp] theorem setPwr_out (s : State) (x : Pwr) : (s.setPwr x).out = s.out := rfl
@[simp] theorem setPwr_freeCtr (s : State) (x : Pwr) : (s.setPwr x).freeCtr = s.freeCtr := rfl
@[simp] theorem setPwr_rget (s : State) (x : Pwr) (o : Nat) : (s.setPwr x).rget o = s.rget o := rfl
@[simp] theorem setPwr_mget (s : State) (x : Pwr) (a : Nat) : (s.setPwr x).mget a = s.mget a := rfl

/-! ### `setNm` -/

@[simp] theorem setNm_regs (s : State) (x : Nm) : (s.setNm x).regs = s.regs := rfl
@[simp] theorem setNm_mem (s : State) (x : Nm) : (s.setNm x).mem = s.mem := rfl
@[simp] theorem setNm_clk (s : State) (x : Nm) : (s.setNm x).clk = s.clk := rfl
@[simp] theorem setNm_hif (s : State) (x : Nm) : (s.setNm x).hif = s.hif := rfl
@[simp] theorem setNm_mbx (s : State) (x : Nm) : (s.setNm x).mbx = s.mbx := rfl
@[simp] theorem setNm_cal (s : State) (x : Nm) : (s.setNm x).cal = s.cal := rfl
@[simp] theorem setNm_fwd (s : State) (x : Nm) : (s.setNm x).fwd = s.fwd := rfl
@[simp] theorem setNm_fr (s : State) (x : Nm) : (s.setNm x).fr = s.fr := rfl
@[simp] theorem setNm_buf (s : State) (x : Nm) : (s.setNm x).buf = s.buf := rfl
@[simp] theorem setNm_trf (s : State) (x : Nm) : (s.setNm x).trf = s.trf := rfl
@[simp] theorem setNm_edg (s : State) (x : Nm) : (s.setNm x).edg = s.edg := rfl
@[simp] theorem setNm_tun (s : State) (x : Nm) : (s.setNm x).tun = s.tun := rfl
@[simp] theorem setNm_sig (s : State) (x : Nm) : (s.setNm x).sig = s.sig := rfl
@[simp] theorem setNm_e2e (s : State) (x : Nm) : (s.setNm x).e2e = s.e2e := rfl
@[simp] theorem setNm_sec (s : State) (x : Nm) : (s.setNm x).sec = s.sec := rfl
@[simp] theorem setNm_key (s : State) (x : Nm) : (s.setNm x).key = s.key := rfl
@[simp] theorem setNm_dom (s : State) (x : Nm) : (s.setNm x).dom = s.dom := rfl
@[simp] theorem setNm_pwr (s : State) (x : Nm) : (s.setNm x).pwr = s.pwr := rfl
@[simp] theorem setNm_nm (s : State) (x : Nm) : (s.setNm x).nm = x := rfl
@[simp] theorem setNm_pair (s : State) (x : Nm) : (s.setNm x).pair = s.pair := rfl
@[simp] theorem setNm_fnc (s : State) (x : Nm) : (s.setNm x).fnc = s.fnc := rfl
@[simp] theorem setNm_boot (s : State) (x : Nm) : (s.setNm x).boot = s.boot := rfl
@[simp] theorem setNm_pending (s : State) (x : Nm) : (s.setNm x).pending = s.pending := rfl
@[simp] theorem setNm_out (s : State) (x : Nm) : (s.setNm x).out = s.out := rfl
@[simp] theorem setNm_freeCtr (s : State) (x : Nm) : (s.setNm x).freeCtr = s.freeCtr := rfl
@[simp] theorem setNm_rget (s : State) (x : Nm) (o : Nat) : (s.setNm x).rget o = s.rget o := rfl
@[simp] theorem setNm_mget (s : State) (x : Nm) (a : Nat) : (s.setNm x).mget a = s.mget a := rfl

/-! ### `setPair` -/

@[simp] theorem setPair_regs (s : State) (x : Pair) : (s.setPair x).regs = s.regs := rfl
@[simp] theorem setPair_mem (s : State) (x : Pair) : (s.setPair x).mem = s.mem := rfl
@[simp] theorem setPair_clk (s : State) (x : Pair) : (s.setPair x).clk = s.clk := rfl
@[simp] theorem setPair_hif (s : State) (x : Pair) : (s.setPair x).hif = s.hif := rfl
@[simp] theorem setPair_mbx (s : State) (x : Pair) : (s.setPair x).mbx = s.mbx := rfl
@[simp] theorem setPair_cal (s : State) (x : Pair) : (s.setPair x).cal = s.cal := rfl
@[simp] theorem setPair_fwd (s : State) (x : Pair) : (s.setPair x).fwd = s.fwd := rfl
@[simp] theorem setPair_fr (s : State) (x : Pair) : (s.setPair x).fr = s.fr := rfl
@[simp] theorem setPair_buf (s : State) (x : Pair) : (s.setPair x).buf = s.buf := rfl
@[simp] theorem setPair_trf (s : State) (x : Pair) : (s.setPair x).trf = s.trf := rfl
@[simp] theorem setPair_edg (s : State) (x : Pair) : (s.setPair x).edg = s.edg := rfl
@[simp] theorem setPair_tun (s : State) (x : Pair) : (s.setPair x).tun = s.tun := rfl
@[simp] theorem setPair_sig (s : State) (x : Pair) : (s.setPair x).sig = s.sig := rfl
@[simp] theorem setPair_e2e (s : State) (x : Pair) : (s.setPair x).e2e = s.e2e := rfl
@[simp] theorem setPair_sec (s : State) (x : Pair) : (s.setPair x).sec = s.sec := rfl
@[simp] theorem setPair_key (s : State) (x : Pair) : (s.setPair x).key = s.key := rfl
@[simp] theorem setPair_dom (s : State) (x : Pair) : (s.setPair x).dom = s.dom := rfl
@[simp] theorem setPair_pwr (s : State) (x : Pair) : (s.setPair x).pwr = s.pwr := rfl
@[simp] theorem setPair_nm (s : State) (x : Pair) : (s.setPair x).nm = s.nm := rfl
@[simp] theorem setPair_pair (s : State) (x : Pair) : (s.setPair x).pair = x := rfl
@[simp] theorem setPair_fnc (s : State) (x : Pair) : (s.setPair x).fnc = s.fnc := rfl
@[simp] theorem setPair_boot (s : State) (x : Pair) : (s.setPair x).boot = s.boot := rfl
@[simp] theorem setPair_pending (s : State) (x : Pair) : (s.setPair x).pending = s.pending := rfl
@[simp] theorem setPair_out (s : State) (x : Pair) : (s.setPair x).out = s.out := rfl
@[simp] theorem setPair_freeCtr (s : State) (x : Pair) : (s.setPair x).freeCtr = s.freeCtr := rfl
@[simp] theorem setPair_rget (s : State) (x : Pair) (o : Nat) : (s.setPair x).rget o = s.rget o := rfl
@[simp] theorem setPair_mget (s : State) (x : Pair) (a : Nat) : (s.setPair x).mget a = s.mget a := rfl

/-! ### `setFnc` -/

@[simp] theorem setFnc_regs (s : State) (x : Fnc) : (s.setFnc x).regs = s.regs := rfl
@[simp] theorem setFnc_mem (s : State) (x : Fnc) : (s.setFnc x).mem = s.mem := rfl
@[simp] theorem setFnc_clk (s : State) (x : Fnc) : (s.setFnc x).clk = s.clk := rfl
@[simp] theorem setFnc_hif (s : State) (x : Fnc) : (s.setFnc x).hif = s.hif := rfl
@[simp] theorem setFnc_mbx (s : State) (x : Fnc) : (s.setFnc x).mbx = s.mbx := rfl
@[simp] theorem setFnc_cal (s : State) (x : Fnc) : (s.setFnc x).cal = s.cal := rfl
@[simp] theorem setFnc_fwd (s : State) (x : Fnc) : (s.setFnc x).fwd = s.fwd := rfl
@[simp] theorem setFnc_fr (s : State) (x : Fnc) : (s.setFnc x).fr = s.fr := rfl
@[simp] theorem setFnc_buf (s : State) (x : Fnc) : (s.setFnc x).buf = s.buf := rfl
@[simp] theorem setFnc_trf (s : State) (x : Fnc) : (s.setFnc x).trf = s.trf := rfl
@[simp] theorem setFnc_edg (s : State) (x : Fnc) : (s.setFnc x).edg = s.edg := rfl
@[simp] theorem setFnc_tun (s : State) (x : Fnc) : (s.setFnc x).tun = s.tun := rfl
@[simp] theorem setFnc_sig (s : State) (x : Fnc) : (s.setFnc x).sig = s.sig := rfl
@[simp] theorem setFnc_e2e (s : State) (x : Fnc) : (s.setFnc x).e2e = s.e2e := rfl
@[simp] theorem setFnc_sec (s : State) (x : Fnc) : (s.setFnc x).sec = s.sec := rfl
@[simp] theorem setFnc_key (s : State) (x : Fnc) : (s.setFnc x).key = s.key := rfl
@[simp] theorem setFnc_dom (s : State) (x : Fnc) : (s.setFnc x).dom = s.dom := rfl
@[simp] theorem setFnc_pwr (s : State) (x : Fnc) : (s.setFnc x).pwr = s.pwr := rfl
@[simp] theorem setFnc_nm (s : State) (x : Fnc) : (s.setFnc x).nm = s.nm := rfl
@[simp] theorem setFnc_pair (s : State) (x : Fnc) : (s.setFnc x).pair = s.pair := rfl
@[simp] theorem setFnc_fnc (s : State) (x : Fnc) : (s.setFnc x).fnc = x := rfl
@[simp] theorem setFnc_boot (s : State) (x : Fnc) : (s.setFnc x).boot = s.boot := rfl
@[simp] theorem setFnc_pending (s : State) (x : Fnc) : (s.setFnc x).pending = s.pending := rfl
@[simp] theorem setFnc_out (s : State) (x : Fnc) : (s.setFnc x).out = s.out := rfl
@[simp] theorem setFnc_freeCtr (s : State) (x : Fnc) : (s.setFnc x).freeCtr = s.freeCtr := rfl
@[simp] theorem setFnc_rget (s : State) (x : Fnc) (o : Nat) : (s.setFnc x).rget o = s.rget o := rfl
@[simp] theorem setFnc_mget (s : State) (x : Fnc) (a : Nat) : (s.setFnc x).mget a = s.mget a := rfl

/-! ### `setBoot` -/

@[simp] theorem setBoot_regs (s : State) (x : Boot) : (s.setBoot x).regs = s.regs := rfl
@[simp] theorem setBoot_mem (s : State) (x : Boot) : (s.setBoot x).mem = s.mem := rfl
@[simp] theorem setBoot_clk (s : State) (x : Boot) : (s.setBoot x).clk = s.clk := rfl
@[simp] theorem setBoot_hif (s : State) (x : Boot) : (s.setBoot x).hif = s.hif := rfl
@[simp] theorem setBoot_mbx (s : State) (x : Boot) : (s.setBoot x).mbx = s.mbx := rfl
@[simp] theorem setBoot_cal (s : State) (x : Boot) : (s.setBoot x).cal = s.cal := rfl
@[simp] theorem setBoot_fwd (s : State) (x : Boot) : (s.setBoot x).fwd = s.fwd := rfl
@[simp] theorem setBoot_fr (s : State) (x : Boot) : (s.setBoot x).fr = s.fr := rfl
@[simp] theorem setBoot_buf (s : State) (x : Boot) : (s.setBoot x).buf = s.buf := rfl
@[simp] theorem setBoot_trf (s : State) (x : Boot) : (s.setBoot x).trf = s.trf := rfl
@[simp] theorem setBoot_edg (s : State) (x : Boot) : (s.setBoot x).edg = s.edg := rfl
@[simp] theorem setBoot_tun (s : State) (x : Boot) : (s.setBoot x).tun = s.tun := rfl
@[simp] theorem setBoot_sig (s : State) (x : Boot) : (s.setBoot x).sig = s.sig := rfl
@[simp] theorem setBoot_e2e (s : State) (x : Boot) : (s.setBoot x).e2e = s.e2e := rfl
@[simp] theorem setBoot_sec (s : State) (x : Boot) : (s.setBoot x).sec = s.sec := rfl
@[simp] theorem setBoot_key (s : State) (x : Boot) : (s.setBoot x).key = s.key := rfl
@[simp] theorem setBoot_dom (s : State) (x : Boot) : (s.setBoot x).dom = s.dom := rfl
@[simp] theorem setBoot_pwr (s : State) (x : Boot) : (s.setBoot x).pwr = s.pwr := rfl
@[simp] theorem setBoot_nm (s : State) (x : Boot) : (s.setBoot x).nm = s.nm := rfl
@[simp] theorem setBoot_pair (s : State) (x : Boot) : (s.setBoot x).pair = s.pair := rfl
@[simp] theorem setBoot_fnc (s : State) (x : Boot) : (s.setBoot x).fnc = s.fnc := rfl
@[simp] theorem setBoot_boot (s : State) (x : Boot) : (s.setBoot x).boot = x := rfl
@[simp] theorem setBoot_pending (s : State) (x : Boot) : (s.setBoot x).pending = s.pending := rfl
@[simp] theorem setBoot_out (s : State) (x : Boot) : (s.setBoot x).out = s.out := rfl
@[simp] theorem setBoot_freeCtr (s : State) (x : Boot) : (s.setBoot x).freeCtr = s.freeCtr := rfl
@[simp] theorem setBoot_rget (s : State) (x : Boot) (o : Nat) : (s.setBoot x).rget o = s.rget o := rfl
@[simp] theorem setBoot_mget (s : State) (x : Boot) (a : Nat) : (s.setBoot x).mget a = s.mget a := rfl

/-! ### `rset` -/

@[simp] theorem rset_mem (s : State) (o : Nat) (v : Word) : (s.rset o v).mem = s.mem := rfl
@[simp] theorem rset_clk (s : State) (o : Nat) (v : Word) : (s.rset o v).clk = s.clk := rfl
@[simp] theorem rset_hif (s : State) (o : Nat) (v : Word) : (s.rset o v).hif = s.hif := rfl
@[simp] theorem rset_mbx (s : State) (o : Nat) (v : Word) : (s.rset o v).mbx = s.mbx := rfl
@[simp] theorem rset_cal (s : State) (o : Nat) (v : Word) : (s.rset o v).cal = s.cal := rfl
@[simp] theorem rset_fwd (s : State) (o : Nat) (v : Word) : (s.rset o v).fwd = s.fwd := rfl
@[simp] theorem rset_fr (s : State) (o : Nat) (v : Word) : (s.rset o v).fr = s.fr := rfl
@[simp] theorem rset_buf (s : State) (o : Nat) (v : Word) : (s.rset o v).buf = s.buf := rfl
@[simp] theorem rset_trf (s : State) (o : Nat) (v : Word) : (s.rset o v).trf = s.trf := rfl
@[simp] theorem rset_edg (s : State) (o : Nat) (v : Word) : (s.rset o v).edg = s.edg := rfl
@[simp] theorem rset_tun (s : State) (o : Nat) (v : Word) : (s.rset o v).tun = s.tun := rfl
@[simp] theorem rset_sig (s : State) (o : Nat) (v : Word) : (s.rset o v).sig = s.sig := rfl
@[simp] theorem rset_e2e (s : State) (o : Nat) (v : Word) : (s.rset o v).e2e = s.e2e := rfl
@[simp] theorem rset_sec (s : State) (o : Nat) (v : Word) : (s.rset o v).sec = s.sec := rfl
@[simp] theorem rset_key (s : State) (o : Nat) (v : Word) : (s.rset o v).key = s.key := rfl
@[simp] theorem rset_dom (s : State) (o : Nat) (v : Word) : (s.rset o v).dom = s.dom := rfl
@[simp] theorem rset_pwr (s : State) (o : Nat) (v : Word) : (s.rset o v).pwr = s.pwr := rfl
@[simp] theorem rset_nm (s : State) (o : Nat) (v : Word) : (s.rset o v).nm = s.nm := rfl
@[simp] theorem rset_pair (s : State) (o : Nat) (v : Word) : (s.rset o v).pair = s.pair := rfl
@[simp] theorem rset_fnc (s : State) (o : Nat) (v : Word) : (s.rset o v).fnc = s.fnc := rfl
@[simp] theorem rset_boot (s : State) (o : Nat) (v : Word) : (s.rset o v).boot = s.boot := rfl
@[simp] theorem rset_pending (s : State) (o : Nat) (v : Word) : (s.rset o v).pending = s.pending := rfl
@[simp] theorem rset_out (s : State) (o : Nat) (v : Word) : (s.rset o v).out = s.out := rfl
@[simp] theorem rset_freeCtr (s : State) (o : Nat) (v : Word) : (s.rset o v).freeCtr = s.freeCtr := rfl

/-! ### `mset` -/

@[simp] theorem mset_regs (s : State) (a : Nat) (b : Byte) : (s.mset a b).regs = s.regs := rfl
@[simp] theorem mset_clk (s : State) (a : Nat) (b : Byte) : (s.mset a b).clk = s.clk := rfl
@[simp] theorem mset_hif (s : State) (a : Nat) (b : Byte) : (s.mset a b).hif = s.hif := rfl
@[simp] theorem mset_mbx (s : State) (a : Nat) (b : Byte) : (s.mset a b).mbx = s.mbx := rfl
@[simp] theorem mset_cal (s : State) (a : Nat) (b : Byte) : (s.mset a b).cal = s.cal := rfl
@[simp] theorem mset_fwd (s : State) (a : Nat) (b : Byte) : (s.mset a b).fwd = s.fwd := rfl
@[simp] theorem mset_fr (s : State) (a : Nat) (b : Byte) : (s.mset a b).fr = s.fr := rfl
@[simp] theorem mset_buf (s : State) (a : Nat) (b : Byte) : (s.mset a b).buf = s.buf := rfl
@[simp] theorem mset_trf (s : State) (a : Nat) (b : Byte) : (s.mset a b).trf = s.trf := rfl
@[simp] theorem mset_edg (s : State) (a : Nat) (b : Byte) : (s.mset a b).edg = s.edg := rfl
@[simp] theorem mset_tun (s : State) (a : Nat) (b : Byte) : (s.mset a b).tun = s.tun := rfl
@[simp] theorem mset_sig (s : State) (a : Nat) (b : Byte) : (s.mset a b).sig = s.sig := rfl
@[simp] theorem mset_e2e (s : State) (a : Nat) (b : Byte) : (s.mset a b).e2e = s.e2e := rfl
@[simp] theorem mset_sec (s : State) (a : Nat) (b : Byte) : (s.mset a b).sec = s.sec := rfl
@[simp] theorem mset_key (s : State) (a : Nat) (b : Byte) : (s.mset a b).key = s.key := rfl
@[simp] theorem mset_dom (s : State) (a : Nat) (b : Byte) : (s.mset a b).dom = s.dom := rfl
@[simp] theorem mset_pwr (s : State) (a : Nat) (b : Byte) : (s.mset a b).pwr = s.pwr := rfl
@[simp] theorem mset_nm (s : State) (a : Nat) (b : Byte) : (s.mset a b).nm = s.nm := rfl
@[simp] theorem mset_pair (s : State) (a : Nat) (b : Byte) : (s.mset a b).pair = s.pair := rfl
@[simp] theorem mset_fnc (s : State) (a : Nat) (b : Byte) : (s.mset a b).fnc = s.fnc := rfl
@[simp] theorem mset_boot (s : State) (a : Nat) (b : Byte) : (s.mset a b).boot = s.boot := rfl
@[simp] theorem mset_pending (s : State) (a : Nat) (b : Byte) : (s.mset a b).pending = s.pending := rfl
@[simp] theorem mset_out (s : State) (a : Nat) (b : Byte) : (s.mset a b).out = s.out := rfl
@[simp] theorem mset_freeCtr (s : State) (a : Nat) (b : Byte) : (s.mset a b).freeCtr = s.freeCtr := rfl

/-! ### `emit` -/

@[simp] theorem emit_regs (s : State) (p : Output) : (s.emit p).regs = s.regs := rfl
@[simp] theorem emit_mem (s : State) (p : Output) : (s.emit p).mem = s.mem := rfl
@[simp] theorem emit_clk (s : State) (p : Output) : (s.emit p).clk = s.clk := rfl
@[simp] theorem emit_hif (s : State) (p : Output) : (s.emit p).hif = s.hif := rfl
@[simp] theorem emit_mbx (s : State) (p : Output) : (s.emit p).mbx = s.mbx := rfl
@[simp] theorem emit_cal (s : State) (p : Output) : (s.emit p).cal = s.cal := rfl
@[simp] theorem emit_fwd (s : State) (p : Output) : (s.emit p).fwd = s.fwd := rfl
@[simp] theorem emit_fr (s : State) (p : Output) : (s.emit p).fr = s.fr := rfl
@[simp] theorem emit_buf (s : State) (p : Output) : (s.emit p).buf = s.buf := rfl
@[simp] theorem emit_trf (s : State) (p : Output) : (s.emit p).trf = s.trf := rfl
@[simp] theorem emit_edg (s : State) (p : Output) : (s.emit p).edg = s.edg := rfl
@[simp] theorem emit_tun (s : State) (p : Output) : (s.emit p).tun = s.tun := rfl
@[simp] theorem emit_sig (s : State) (p : Output) : (s.emit p).sig = s.sig := rfl
@[simp] theorem emit_e2e (s : State) (p : Output) : (s.emit p).e2e = s.e2e := rfl
@[simp] theorem emit_sec (s : State) (p : Output) : (s.emit p).sec = s.sec := rfl
@[simp] theorem emit_key (s : State) (p : Output) : (s.emit p).key = s.key := rfl
@[simp] theorem emit_dom (s : State) (p : Output) : (s.emit p).dom = s.dom := rfl
@[simp] theorem emit_pwr (s : State) (p : Output) : (s.emit p).pwr = s.pwr := rfl
@[simp] theorem emit_nm (s : State) (p : Output) : (s.emit p).nm = s.nm := rfl
@[simp] theorem emit_pair (s : State) (p : Output) : (s.emit p).pair = s.pair := rfl
@[simp] theorem emit_fnc (s : State) (p : Output) : (s.emit p).fnc = s.fnc := rfl
@[simp] theorem emit_boot (s : State) (p : Output) : (s.emit p).boot = s.boot := rfl
@[simp] theorem emit_pending (s : State) (p : Output) : (s.emit p).pending = s.pending := rfl
@[simp] theorem emit_freeCtr (s : State) (p : Output) : (s.emit p).freeCtr = s.freeCtr := rfl
@[simp] theorem emit_out (s : State) (p : Output) : (s.emit p).out = s.out ++ [p] := rfl
@[simp] theorem emit_rget (s : State) (p : Output) (o : Nat) : (s.emit p).rget o = s.rget o := rfl
@[simp] theorem emit_mget (s : State) (p : Output) (a : Nat) : (s.emit p).mget a = s.mget a := rfl
@[simp] theorem mset_rget (s : State) (a : Nat) (b : Byte) (o : Nat) : (s.mset a b).rget o = s.rget o := rfl
@[simp] theorem rset_mget (s : State) (o : Nat) (v : Word) (a : Nat) : (s.rset o v).mget a = s.mget a := rfl

/-! ### `free` -/

@[simp] theorem free_regs (s : State) : s.free.2.regs = s.regs := rfl
@[simp] theorem free_mem (s : State) : s.free.2.mem = s.mem := rfl
@[simp] theorem free_clk (s : State) : s.free.2.clk = s.clk := rfl
@[simp] theorem free_hif (s : State) : s.free.2.hif = s.hif := rfl
@[simp] theorem free_mbx (s : State) : s.free.2.mbx = s.mbx := rfl
@[simp] theorem free_cal (s : State) : s.free.2.cal = s.cal := rfl
@[simp] theorem free_fwd (s : State) : s.free.2.fwd = s.fwd := rfl
@[simp] theorem free_fr (s : State) : s.free.2.fr = s.fr := rfl
@[simp] theorem free_buf (s : State) : s.free.2.buf = s.buf := rfl
@[simp] theorem free_trf (s : State) : s.free.2.trf = s.trf := rfl
@[simp] theorem free_edg (s : State) : s.free.2.edg = s.edg := rfl
@[simp] theorem free_tun (s : State) : s.free.2.tun = s.tun := rfl
@[simp] theorem free_sig (s : State) : s.free.2.sig = s.sig := rfl
@[simp] theorem free_e2e (s : State) : s.free.2.e2e = s.e2e := rfl
@[simp] theorem free_sec (s : State) : s.free.2.sec = s.sec := rfl
@[simp] theorem free_key (s : State) : s.free.2.key = s.key := rfl
@[simp] theorem free_dom (s : State) : s.free.2.dom = s.dom := rfl
@[simp] theorem free_pwr (s : State) : s.free.2.pwr = s.pwr := rfl
@[simp] theorem free_nm (s : State) : s.free.2.nm = s.nm := rfl
@[simp] theorem free_pair (s : State) : s.free.2.pair = s.pair := rfl
@[simp] theorem free_fnc (s : State) : s.free.2.fnc = s.fnc := rfl
@[simp] theorem free_boot (s : State) : s.free.2.boot = s.boot := rfl
@[simp] theorem free_pending (s : State) : s.free.2.pending = s.pending := rfl
@[simp] theorem free_out (s : State) : s.free.2.out = s.out := rfl
@[simp] theorem free_freeCtr (s : State) : s.free.2.freeCtr = s.freeCtr + 1 := rfl

end Sys2Proof.Machine.State
end

