-- ==== Sys2Proof/Laws/Tables.lean ====
section
/-! SUPPORT.
Keyed tables, the register store and device-side memory: a read after a write, and the canonical
form that every write keeps. -/

namespace Sys2Proof.Machine

variable {α : Type}

/-! ### Reads of a table -/

theorem aget_aset_same (t : List (Nat × α)) (k : Nat) (v : α) : aget (aset t k v) k = some v := by
  induction t with
  | nil => simp [aset, aget]
  | cons a r ih =>
    obtain ⟨j, w⟩ := a
    simp only [aset]
    split
    · simp [aget]
    · split
      · simp [aget]
      · rename_i h; simp [aget, Ne.symm h, ih]

theorem aget_aset_other (t : List (Nat × α)) {k j : Nat} (v : α) (h : j ≠ k) : aget (aset t k v) j = aget t j := by
  induction t with
  | nil => simp [aset, aget, Ne.symm h]
  | cons a r ih =>
    obtain ⟨i, w⟩ := a
    simp only [aset]
    split
    · simp [aget, Ne.symm h]
    · split
      · rename_i e; subst e; simp [aget, Ne.symm h]
      · simp only [aget, ih]

theorem aget_adel_same (t : List (Nat × α)) (k : Nat) : aget (adel t k) k = none := by
  induction t with
  | nil => rfl
  | cons a r ih =>
    obtain ⟨i, w⟩ := a
    by_cases h : i = k
    · simpa [adel, h] using ih
    · simpa [adel, h, aget] using ih

theorem aget_adel_other (t : List (Nat × α)) {k j : Nat} (h : j ≠ k) : aget (adel t k) j = aget t j := by
  induction t with
  | nil => rfl
  | cons a r ih =>
    obtain ⟨i, w⟩ := a
    by_cases e : i = k
    · subst e; simpa [adel, aget, Ne.symm h] using ih
    · have hc : adel ((i, w) :: r) k = (i, w) :: adel r k := by simp [adel, e]
      rw [hc]
      simp only [aget, ih]

/-! ### The rising order -/

theorem rising_cons (a : Nat × α) (t : List (Nat × α)) :
    Tbl.rising (a :: t) = true ↔ (∀ b ∈ t, a.1 < b.1) ∧ Tbl.rising t = true := by
  induction t generalizing a with
  | nil => simp [Tbl.rising]
  | cons b r ih =>
    simp only [Tbl.rising, Bool.and_eq_true, decide_eq_true_eq, List.mem_cons, forall_eq_or_imp]
    constructor
    · rintro ⟨h, hr⟩
      exact ⟨⟨h, fun c hc => lt_trans h (((ih b).1 hr).1 c hc)⟩, hr⟩
    · rintro ⟨⟨h, _⟩, hr⟩
      exact ⟨h, hr⟩

theorem mem_aset {t : List (Nat × α)} {k : Nat} {v : α} {x : Nat × α} (h : x ∈ aset t k v) : x = (k, v) ∨ x ∈ t := by
  induction t with
  | nil => simpa [aset] using h
  | cons a r ih =>
    obtain ⟨j, w⟩ := a
    simp only [aset] at h
    split at h
    · simpa using h
    · split at h
      · rcases List.mem_cons.1 h with h | h
        · exact .inl h
        · exact .inr (List.mem_cons_of_mem _ h)
      · rcases List.mem_cons.1 h with h | h
        · exact .inr (h ▸ List.mem_cons_self)
        · exact (ih h).imp_right (List.mem_cons_of_mem _)

theorem rising_aset (t : List (Nat × α)) (k : Nat) (v : α) (h : Tbl.rising t = true) : Tbl.rising (aset t k v) = true := by
  induction t with
  | nil => rfl
  | cons a r ih =>
    obtain ⟨j, w⟩ := a
    obtain ⟨hj, hr⟩ := (rising_cons _ _).1 h
    simp only [aset]
    split
    · rename_i hk
      refine (rising_cons _ _).2 ⟨fun b hb => ?_, h⟩
      rcases List.mem_cons.1 hb with hb | hb
      · exact hb ▸ hk
      · exact lt_trans hk (hj b hb)
    · split
      · rename_i e; subst e; exact (rising_cons _ _).2 ⟨hj, hr⟩
      · rename_i h1 h2
        refine (rising_cons _ _).2 ⟨fun b hb => ?_, ih hr⟩
        rcases mem_aset hb with hb | hb
        · subst hb; simp only; omega
        · exact hj b hb

theorem rising_filter (t : List (Nat × α)) (p : Nat × α → Bool) (h : Tbl.rising t = true) :
    Tbl.rising (t.filter p) = true := by
  induction t with
  | nil => rfl
  | cons a r ih =>
    obtain ⟨hj, hr⟩ := (rising_cons _ _).1 h
    by_cases hp : p a = true
    · rw [List.filter_cons_of_pos hp]
      exact (rising_cons _ _).2 ⟨fun b hb => hj b (List.mem_filter.1 hb).1, ih hr⟩
    · rw [List.filter_cons_of_neg hp]
      exact ih hr

theorem rising_filterMap (t : List (Nat × α)) (f : Nat × α → Option (Nat × α)) (hf : ∀ a b, f a = some b → b.1 = a.1)
    (h : Tbl.rising t = true) : Tbl.rising (t.filterMap f) = true := by
  induction t with
  | nil => rfl
  | cons a r ih =>
    obtain ⟨hj, hr⟩ := (rising_cons _ _).1 h
    cases hp : f a with
    | none => rw [List.filterMap_cons_none hp]; exact ih hr
    | some b =>
      rw [List.filterMap_cons_some hp]
      refine (rising_cons _ _).2 ⟨fun c hc => ?_, ih hr⟩
      obtain ⟨d, hd, hdc⟩ := List.mem_filterMap.1 hc
      rw [hf a b hp, hf d c hdc]
      exact hj d hd

/-- An update that lists a value only where it differs from a default keeps the form. -/
theorem put_wf [DecidableEq α] (d : Nat → α) (t : List (Nat × α)) (k : Nat) (v : α) (hr : Tbl.rising t = true)
    (hd : ∀ x ∈ t, x.2 ≠ d x.1) :
    Tbl.rising (if v = d k then adel t k else aset t k v) = true ∧
      ∀ x ∈ (if v = d k then adel t k else aset t k v), x.2 ≠ d x.1 := by
  split
  · exact ⟨rising_filter _ _ hr, fun x hx => hd x (List.mem_filter.1 hx).1⟩
  · rename_i hv
    refine ⟨rising_aset _ _ _ hr, fun x hx => ?_⟩
    rcases mem_aset hx with hx | hx
    · subst hx; exact hv
    · exact hd x hx

theorem agetD_put_same [DecidableEq α] (d v : α) (t : List (Nat × α)) (k : Nat) :
    agetD (if v = d then adel t k else aset t k v) k d = v := by
  split
  · rename_i h; simp [agetD, aget_adel_same, h]
  · simp [agetD, aget_aset_same]

theorem agetD_put_other [DecidableEq α] (d e v : α) (t : List (Nat × α)) {k j : Nat} (h : j ≠ k) :
    agetD (if v = d then adel t k else aset t k v) j e = agetD t j e := by
  split
  · simp [agetD, aget_adel_other _ h]
  · simp [agetD, aget_aset_other _ _ h]

/-! ### Registers -/

namespace State

@[simp] theorem rget_rset_same (s : State) (o : Nat) (v : Word) : (s.rset o v).rget o = v := agetD_put_same ..

theorem rget_rset_other (s : State) {o p : Nat} (v : Word) (h : p ≠ o) : (s.rset o v).rget p = s.rget p :=
  agetD_put_other _ _ _ _ h

theorem rget_rset (s : State) (o p : Nat) (v : Word) : (s.rset o v).rget p = if p = o then v else s.rget p := by
  split
  · rename_i h; subst h; exact rget_rset_same ..
  · rename_i h; exact rget_rset_other _ _ h

theorem registers_wf_iff (r : List (Nat × Word)) :
    Registers.wf r = true ↔ Tbl.rising r = true ∧ ∀ x ∈ r, x.2 ≠ regReset x.1 := by
  simp [Registers.wf]

/-! ### Device-side memory -/

@[simp] theorem mget_mset_same (s : State) (a : Nat) (b : Byte) : (s.mset a b).mget a = b := agetD_put_same ..

theorem mget_mset_other (s : State) {a c : Nat} (b : Byte) (h : c ≠ a) : (s.mset a b).mget c = s.mget c :=
  agetD_put_other _ _ _ _ h

theorem memory_wf_iff (m : List Host.Cell) : Memory.wf m = true ↔ Tbl.rising m = true ∧ ∀ x ∈ m, x.2 ≠ 0 := by
  simp [Memory.wf]

/-- Bytes outside the bytes written stay. -/
theorem mget_mwrite_other (l : List Byte) (s : State) (a c : Nat) (h : c < a ∨ a + l.length ≤ c) :
    (s.mwrite a l).mget c = s.mget c := by
  induction l generalizing s a with
  | nil => rfl
  | cons b t ih =>
    rw [mwrite, ih _ _ (by simp at h; omega), mget_mset_other _ _ (by simp at h; omega)]

/-- A byte written is read back. -/
theorem mget_mwrite (l : List Byte) (s : State) (a i : Nat) (h : i < l.length) : (s.mwrite a l).mget (a + i) = l[i] := by
  induction l generalizing s a i with
  | nil => simp at h
  | cons b t ih =>
    cases i with
    | zero => rw [mwrite, mget_mwrite_other _ _ _ _ (by omega)]; simp
    | succ i =>
      have := ih (s.mset a b) (a + 1) i (by simpa using h)
      rw [mwrite, show a + (i + 1) = a + 1 + i by omega, this]
      rfl

/-! ### The canonical form -/

theorem rset_canonical {s : State} (o : Nat) (v : Word) (h : s.Canonical) : (s.rset o v).Canonical := by
  obtain ⟨hm, hr⟩ := h
  obtain ⟨h1, h2⟩ := (registers_wf_iff _).1 hr
  exact ⟨hm, (registers_wf_iff _).2 (put_wf regReset _ _ _ h1 h2)⟩

theorem mset_canonical {s : State} (a : Nat) (b : Byte) (h : s.Canonical) : (s.mset a b).Canonical := by
  obtain ⟨hm, hr⟩ := h
  obtain ⟨h1, h2⟩ := (memory_wf_iff _).1 hm
  exact ⟨(memory_wf_iff _).2 (put_wf (fun _ => 0) _ _ _ h1 h2), hr⟩

theorem mwrite_canonical (l : List Byte) {s : State} (a : Nat) (h : s.Canonical) : (s.mwrite a l).Canonical := by
  induction l generalizing s a with
  | nil => exact h
  | cons b t ih => exact ih _ (mset_canonical _ _ h)

end State

end Sys2Proof.Machine
end

