-- ==== Sys2Proof/Laws/Only.lean ====
section
/-! SUPPORT.
Frames: what each shared operation can change at most. `Only m s t` says that only the groups in `m`
differ; each law carries such a frame over one more operation, when the operation's own groups are
in `m`. -/

namespace Sys2Proof.Machine.Only

variable {m : Nat} {s t u : State}

theorem refl (m : Nat) (s : State) : Only m s s := by
  constructor <;> first | exact fun _ => rfl | rfl | exact List.prefix_rfl | exact le_rfl | exact id

theorem trans (h : Only m s t) (k : Only m t u) : Only m s u where
  regs e := (k.regs e).trans (h.regs e)
  mem e := (k.mem e).trans (h.mem e)
  clk e := (k.clk e).trans (h.clk e)
  hif e := (k.hif e).trans (h.hif e)
  mbx e := (k.mbx e).trans (h.mbx e)
  cal e := (k.cal e).trans (h.cal e)
  fwd e := (k.fwd e).trans (h.fwd e)
  fr e := (k.fr e).trans (h.fr e)
  buf e := (k.buf e).trans (h.buf e)
  trf e := (k.trf e).trans (h.trf e)
  edg e := (k.edg e).trans (h.edg e)
  tun e := (k.tun e).trans (h.tun e)
  sig e := (k.sig e).trans (h.sig e)
  e2e e := (k.e2e e).trans (h.e2e e)
  sec e := (k.sec e).trans (h.sec e)
  key e := (k.key e).trans (h.key e)
  dom e := (k.dom e).trans (h.dom e)
  pwr e := (k.pwr e).trans (h.pwr e)
  nm e := (k.nm e).trans (h.nm e)
  pair e := (k.pair e).trans (h.pair e)
  fnc e := (k.fnc e).trans (h.fnc e)
  boot e := (k.boot e).trans (h.boot e)
  pending := k.pending.trans h.pending
  out := h.out.trans k.out
  free := le_trans h.free k.free
  canonical c := k.canonical (h.canonical c)

theorem sub {m m' i : Nat} (h : m ||| m' = m') (e : m'.testBit i = false) : m.testBit i = false := by
  rw [← h, Nat.testBit_or, Bool.or_eq_false_iff] at e
  exact e.1

/-- A frame holds with more groups too. -/
theorem mono {m' : Nat} (h : Only m s t) (k : m ||| m' = m') : Only m' s t where
  regs e := h.regs (sub k e)
  mem e := h.mem (sub k e)
  clk e := h.clk (sub k e)
  hif e := h.hif (sub k e)
  mbx e := h.mbx (sub k e)
  cal e := h.cal (sub k e)
  fwd e := h.fwd (sub k e)
  fr e := h.fr (sub k e)
  buf e := h.buf (sub k e)
  trf e := h.trf (sub k e)
  edg e := h.edg (sub k e)
  tun e := h.tun (sub k e)
  sig e := h.sig (sub k e)
  e2e e := h.e2e (sub k e)
  sec e := h.sec (sub k e)
  key e := h.key (sub k e)
  dom e := h.dom (sub k e)
  pwr e := h.pwr (sub k e)
  nm e := h.nm (sub k e)
  pair e := h.pair (sub k e)
  fnc e := h.fnc (sub k e)
  boot e := h.boot (sub k e)
  pending := h.pending
  out := h.out
  free := h.free
  canonical := h.canonical

/-- Groups of groups. -/
theorem groups {d M : Nat} (hm : M ||| m = m) (k : d ||| M = M) : d ||| m = m := by
  rw [← hm, ← Nat.or_assoc, k]

/-- One more operation, whose own frame is known. -/
theorem step {M : Nat} (h : Only m s t) (k : Only M t u) (hm : M ||| m = m) : Only m s u := h.trans (k.mono hm)

theorem ite {c : Prop} [Decidable c] (h : Only m s t) (k : Only m s u) : Only m s (if c then t else u) := by
  split <;> assumption

/-- The state of a pair that a condition chooses. -/
theorem iteSnd {α : Type} {c : Prop} [Decidable c] {p q : α × State} (h : Only m s p.2) (k : Only m s q.2) :
    Only m s (if c then p else q).2 := by
  split <;> assumption

theorem foldl {β : Type} {l : List β} {f : State → β → State} (hf : ∀ u x, Only m s u → Only m s (f u x)) (h : Only m s t) :
    Only m s (l.foldl f t) := by
  induction l generalizing t with
  | nil => exact h
  | cons a r ih => exact ih (hf _ a h)

/-- The state of a pair. -/
theorem snd {α : Type} {p : α × State} {v : α} (e : p = (v, t)) (h : Only m s p.2) : Only m s t := by
  rw [e] at h; exact h

theorem fst {α : Type} {p : State × α} {v : α} (e : p = (t, v)) (h : Only m s p.1) : Only m s t := by
  rw [e] at h; exact h

theorem snd22 {α β : Type} {p : α × β × State} {v : α} {w : β} (e : p = (v, w, t)) (h : Only m s p.2.2) : Only m s t := by
  rw [e] at h; exact h

theorem snd222 {α β γ : Type} {p : α × β × γ × State} {v : α} {w : β} {x : γ} (e : p = (v, w, x, t))
    (h : Only m s p.2.2.2) : Only m s t := by
  rw [e] at h; exact h

theorem foldlSnd {α β : Type} {l : List β} {f : α × State → β → α × State} {p : α × State}
    (hf : ∀ v u x, Only m s u → Only m s (f (v, u) x).2) (h : Only m s p.2) : Only m s (l.foldl f p).2 := by
  induction l generalizing p with
  | nil => exact h
  | cons a r ih => exact ih (hf _ _ a h)

theorem foldlSnd22 {α γ β : Type} {l : List β} {f : α × γ × State → β → α × γ × State} {p : α × γ × State}
    (hf : ∀ v w u x, Only m s u → Only m s (f (v, w, u) x).2.2) (h : Only m s p.2.2) : Only m s (l.foldl f p).2.2 := by
  induction l generalizing p with
  | nil => exact h
  | cons a r ih => exact ih (hf _ _ _ a h)

theorem foldlSnd222 {α γ δ β : Type} {l : List β} {f : α × γ × δ × State → β → α × γ × δ × State} {p : α × γ × δ × State}
    (hf : ∀ v w z u x, Only m s u → Only m s (f (v, w, z, u) x).2.2.2) (h : Only m s p.2.2.2) :
    Only m s (l.foldl f p).2.2.2 := by
  induction l generalizing p with
  | nil => exact h
  | cons a r ih => exact ih (hf _ _ _ _ a h)

/-- A state in which any group may differ. -/
theorem whole (hp : t.pending = s.pending) (ho : s.out <+: t.out) (hf : s.freeCtr ≤ t.freeCtr)
    (hc : s.Canonical → t.Canonical) : Only 0x3FFFFF s t where
  regs e := absurd e (by decide)
  mem e := absurd e (by decide)
  clk e := absurd e (by decide)
  hif e := absurd e (by decide)
  mbx e := absurd e (by decide)
  cal e := absurd e (by decide)
  fwd e := absurd e (by decide)
  fr e := absurd e (by decide)
  buf e := absurd e (by decide)
  trf e := absurd e (by decide)
  edg e := absurd e (by decide)
  tun e := absurd e (by decide)
  sig e := absurd e (by decide)
  e2e e := absurd e (by decide)
  sec e := absurd e (by decide)
  key e := absurd e (by decide)
  dom e := absurd e (by decide)
  pwr e := absurd e (by decide)
  nm e := absurd e (by decide)
  pair e := absurd e (by decide)
  fnc e := absurd e (by decide)
  boot e := absurd e (by decide)
  pending := hp
  out := ho
  free := hf
  canonical := hc

/-! ### Updates of one group -/

theorem setHif0 (s : State) (x : Hif) : Only 0x8 s (s.setHif x) where
  regs _ := rfl
  mem _ := rfl
  clk _ := rfl
  hif e := nomatch e
  mbx _ := rfl
  cal _ := rfl
  fwd _ := rfl
  fr _ := rfl
  buf _ := rfl
  trf _ := rfl
  edg _ := rfl
  tun _ := rfl
  sig _ := rfl
  e2e _ := rfl
  sec _ := rfl
  key _ := rfl
  dom _ := rfl
  pwr _ := rfl
  nm _ := rfl
  pair _ := rfl
  fnc _ := rfl
  boot _ := rfl
  pending := rfl
  out := List.prefix_rfl
  free := le_rfl
  canonical := id

theorem setHif {x : Hif} (hm : 0x8 ||| m = m) (h : Only m s t) : Only m s (t.setHif x) :=
  h.step (setHif0 t ..) hm

theorem setMbx0 (s : State) (x : Mbx) : Only 0x10 s (s.setMbx x) where
  regs _ := rfl
  mem _ := rfl
  clk _ := rfl
  hif _ := rfl
  mbx e := nomatch e
  cal _ := rfl
  fwd _ := rfl
  fr _ := rfl
  buf _ := rfl
  trf _ := rfl
  edg _ := rfl
  tun _ := rfl
  sig _ := rfl
  e2e _ := rfl
  sec _ := rfl
  key _ := rfl
  dom _ := rfl
  pwr _ := rfl
  nm _ := rfl
  pair _ := rfl
  fnc _ := rfl
  boot _ := rfl
  pending := rfl
  out := List.prefix_rfl
  free := le_rfl
  canonical := id

theorem setMbx {x : Mbx} (hm : 0x10 ||| m = m) (h : Only m s t) : Only m s (t.setMbx x) :=
  h.step (setMbx0 t ..) hm

theorem setCal0 (s : State) (x : Cal) : Only 0x20 s (s.setCal x) where
  regs _ := rfl
  mem _ := rfl
  clk _ := rfl
  hif _ := rfl
  mbx _ := rfl
  cal e := nomatch e
  fwd _ := rfl
  fr _ := rfl
  buf _ := rfl
  trf _ := rfl
  edg _ := rfl
  tun _ := rfl
  sig _ := rfl
  e2e _ := rfl
  sec _ := rfl
  key _ := rfl
  dom _ := rfl
  pwr _ := rfl
  nm _ := rfl
  pair _ := rfl
  fnc _ := rfl
  boot _ := rfl
  pending := rfl
  out := List.prefix_rfl
  free := le_rfl
  canonical := id

theorem setCal {x : Cal} (hm : 0x20 ||| m = m) (h : Only m s t) : Only m s (t.setCal x) :=
  h.step (setCal0 t ..) hm

theorem setFwd0 (s : State) (x : Fwd) : Only 0x40 s (s.setFwd x) where
  regs _ := rfl
  mem _ := rfl
  clk _ := rfl
  hif _ := rfl
  mbx _ := rfl
  cal _ := rfl
  fwd e := nomatch e
  fr _ := rfl
  buf _ := rfl
  trf _ := rfl
  edg _ := rfl
  tun _ := rfl
  sig _ := rfl
  e2e _ := rfl
  sec _ := rfl
  key _ := rfl
  dom _ := rfl
  pwr _ := rfl
  nm _ := rfl
  pair _ := rfl
  fnc _ := rfl
  boot _ := rfl
  pending := rfl
  out := List.prefix_rfl
  free := le_rfl
  canonical := id

theorem setFwd {x : Fwd} (hm : 0x40 ||| m = m) (h : Only m s t) : Only m s (t.setFwd x) :=
  h.step (setFwd0 t ..) hm

theorem setFr0 (s : State) (x : Frames) : Only 0x80 s (s.setFr x) where
  regs _ := rfl
  mem _ := rfl
  clk _ := rfl
  hif _ := rfl
  mbx _ := rfl
  cal _ := rfl
  fwd _ := rfl
  fr e := nomatch e
  buf _ := rfl
  trf _ := rfl
  edg _ := rfl
  tun _ := rfl
  sig _ := rfl
  e2e _ := rfl
  sec _ := rfl
  key _ := rfl
  dom _ := rfl
  pwr _ := rfl
  nm _ := rfl
  pair _ := rfl
  fnc _ := rfl
  boot _ := rfl
  pending := rfl
  out := List.prefix_rfl
  free := le_rfl
  canonical := id

theorem setFr {x : Frames} (hm : 0x80 ||| m = m) (h : Only m s t) : Only m s (t.setFr x) :=
  h.step (setFr0 t ..) hm

theorem setBuf0 (s : State) (x : Buf) : Only 0x100 s (s.setBuf x) where
  regs _ := rfl
  mem _ := rfl
  clk _ := rfl
  hif _ := rfl
  mbx _ := rfl
  cal _ := rfl
  fwd _ := rfl
  fr _ := rfl
  buf e := nomatch e
  trf _ := rfl
  edg _ := rfl
  tun _ := rfl
  sig _ := rfl
  e2e _ := rfl
  sec _ := rfl
  key _ := rfl
  dom _ := rfl
  pwr _ := rfl
  nm _ := rfl
  pair _ := rfl
  fnc _ := rfl
  boot _ := rfl
  pending := rfl
  out := List.prefix_rfl
  free := le_rfl
  canonical := id

theorem setBuf {x : Buf} (hm : 0x100 ||| m = m) (h : Only m s t) : Only m s (t.setBuf x) :=
  h.step (setBuf0 t ..) hm

theorem setTrf0 (s : State) (x : Trf) : Only 0x200 s (s.setTrf x) where
  regs _ := rfl
  mem _ := rfl
  clk _ := rfl
  hif _ := rfl
  mbx _ := rfl
  cal _ := rfl
  fwd _ := rfl
  fr _ := rfl
  buf _ := rfl
  trf e := nomatch e
  edg _ := rfl
  tun _ := rfl
  sig _ := rfl
  e2e _ := rfl
  sec _ := rfl
  key _ := rfl
  dom _ := rfl
  pwr _ := rfl
  nm _ := rfl
  pair _ := rfl
  fnc _ := rfl
  boot _ := rfl
  pending := rfl
  out := List.prefix_rfl
  free := le_rfl
  canonical := id

theorem setTrf {x : Trf} (hm : 0x200 ||| m = m) (h : Only m s t) : Only m s (t.setTrf x) :=
  h.step (setTrf0 t ..) hm

theorem setEdg0 (s : State) (x : Edg) : Only 0x400 s (s.setEdg x) where
  regs _ := rfl
  mem _ := rfl
  clk _ := rfl
  hif _ := rfl
  mbx _ := rfl
  cal _ := rfl
  fwd _ := rfl
  fr _ := rfl
  buf _ := rfl
  trf _ := rfl
  edg e := nomatch e
  tun _ := rfl
  sig _ := rfl
  e2e _ := rfl
  sec _ := rfl
  key _ := rfl
  dom _ := rfl
  pwr _ := rfl
  nm _ := rfl
  pair _ := rfl
  fnc _ := rfl
  boot _ := rfl
  pending := rfl
  out := List.prefix_rfl
  free := le_rfl
  canonical := id

theorem setEdg {x : Edg} (hm : 0x400 ||| m = m) (h : Only m s t) : Only m s (t.setEdg x) :=
  h.step (setEdg0 t ..) hm

theorem setTun0 (s : State) (x : Tun) : Only 0x800 s (s.setTun x) where
  regs _ := rfl
  mem _ := rfl
  clk _ := rfl
  hif _ := rfl
  mbx _ := rfl
  cal _ := rfl
  fwd _ := rfl
  fr _ := rfl
  buf _ := rfl
  trf _ := rfl
  edg _ := rfl
  tun e := nomatch e
  sig _ := rfl
  e2e _ := rfl
  sec _ := rfl
  key _ := rfl
  dom _ := rfl
  pwr _ := rfl
  nm _ := rfl
  pair _ := rfl
  fnc _ := rfl
  boot _ := rfl
  pending := rfl
  out := List.prefix_rfl
  free := le_rfl
  canonical := id

theorem setTun {x : Tun} (hm : 0x800 ||| m = m) (h : Only m s t) : Only m s (t.setTun x) :=
  h.step (setTun0 t ..) hm

theorem setSig0 (s : State) (x : Sig) : Only 0x1000 s (s.setSig x) where
  regs _ := rfl
  mem _ := rfl
  clk _ := rfl
  hif _ := rfl
  mbx _ := rfl
  cal _ := rfl
  fwd _ := rfl
  fr _ := rfl
  buf _ := rfl
  trf _ := rfl
  edg _ := rfl
  tun _ := rfl
  sig e := nomatch e
  e2e _ := rfl
  sec _ := rfl
  key _ := rfl
  dom _ := rfl
  pwr _ := rfl
  nm _ := rfl
  pair _ := rfl
  fnc _ := rfl
  boot _ := rfl
  pending := rfl
  out := List.prefix_rfl
  free := le_rfl
  canonical := id

theorem setSig {x : Sig} (hm : 0x1000 ||| m = m) (h : Only m s t) : Only m s (t.setSig x) :=
  h.step (setSig0 t ..) hm

theorem setSec0 (s : State) (x : Sec) : Only 0x4000 s (s.setSec x) where
  regs _ := rfl
  mem _ := rfl
  clk _ := rfl
  hif _ := rfl
  mbx _ := rfl
  cal _ := rfl
  fwd _ := rfl
  fr _ := rfl
  buf _ := rfl
  trf _ := rfl
  edg _ := rfl
  tun _ := rfl
  sig _ := rfl
  e2e _ := rfl
  sec e := nomatch e
  key _ := rfl
  dom _ := rfl
  pwr _ := rfl
  nm _ := rfl
  pair _ := rfl
  fnc _ := rfl
  boot _ := rfl
  pending := rfl
  out := List.prefix_rfl
  free := le_rfl
  canonical := id

theorem setSec {x : Sec} (hm : 0x4000 ||| m = m) (h : Only m s t) : Only m s (t.setSec x) :=
  h.step (setSec0 t ..) hm

theorem setKey0 (s : State) (x : Key) : Only 0x8000 s (s.setKey x) where
  regs _ := rfl
  mem _ := rfl
  clk _ := rfl
  hif _ := rfl
  mbx _ := rfl
  cal _ := rfl
  fwd _ := rfl
  fr _ := rfl
  buf _ := rfl
  trf _ := rfl
  edg _ := rfl
  tun _ := rfl
  sig _ := rfl
  e2e _ := rfl
  sec _ := rfl
  key e := nomatch e
  dom _ := rfl
  pwr _ := rfl
  nm _ := rfl
  pair _ := rfl
  fnc _ := rfl
  boot _ := rfl
  pending := rfl
  out := List.prefix_rfl
  free := le_rfl
  canonical := id

theorem setKey {x : Key} (hm : 0x8000 ||| m = m) (h : Only m s t) : Only m s (t.setKey x) :=
  h.step (setKey0 t ..) hm

theorem setPwr0 (s : State) (x : Pwr) : Only 0x20000 s (s.setPwr x) where
  regs _ := rfl
  mem _ := rfl
  clk _ := rfl
  hif _ := rfl
  mbx _ := rfl
  cal _ := rfl
  fwd _ := rfl
  fr _ := rfl
  buf _ := rfl
  trf _ := rfl
  edg _ := rfl
  tun _ := rfl
  sig _ := rfl
  e2e _ := rfl
  sec _ := rfl
  key _ := rfl
  dom _ := rfl
  pwr e := nomatch e
  nm _ := rfl
  pair _ := rfl
  fnc _ := rfl
  boot _ := rfl
  pending := rfl
  out := List.prefix_rfl
  free := le_rfl
  canonical := id

theorem setPwr {x : Pwr} (hm : 0x20000 ||| m = m) (h : Only m s t) : Only m s (t.setPwr x) :=
  h.step (setPwr0 t ..) hm

theorem setNm0 (s : State) (x : Nm) : Only 0x40000 s (s.setNm x) where
  regs _ := rfl
  mem _ := rfl
  clk _ := rfl
  hif _ := rfl
  mbx _ := rfl
  cal _ := rfl
  fwd _ := rfl
  fr _ := rfl
  buf _ := rfl
  trf _ := rfl
  edg _ := rfl
  tun _ := rfl
  sig _ := rfl
  e2e _ := rfl
  sec _ := rfl
  key _ := rfl
  dom _ := rfl
  pwr _ := rfl
  nm e := nomatch e
  pair _ := rfl
  fnc _ := rfl
  boot _ := rfl
  pending := rfl
  out := List.prefix_rfl
  free := le_rfl
  canonical := id

theorem setNm {x : Nm} (hm : 0x40000 ||| m = m) (h : Only m s t) : Only m s (t.setNm x) :=
  h.step (setNm0 t ..) hm

theorem setPair0 (s : State) (x : Pair) : Only 0x80000 s (s.setPair x) where
  regs _ := rfl
  mem _ := rfl
  clk _ := rfl
  hif _ := rfl
  mbx _ := rfl
  cal _ := rfl
  fwd _ := rfl
  fr _ := rfl
  buf _ := rfl
  trf _ := rfl
  edg _ := rfl
  tun _ := rfl
  sig _ := rfl
  e2e _ := rfl
  sec _ := rfl
  key _ := rfl
  dom _ := rfl
  pwr _ := rfl
  nm _ := rfl
  pair e := nomatch e
  fnc _ := rfl
  boot _ := rfl
  pending := rfl
  out := List.prefix_rfl
  free := le_rfl
  canonical := id

theorem setPair {x : Pair} (hm : 0x80000 ||| m = m) (h : Only m s t) : Only m s (t.setPair x) :=
  h.step (setPair0 t ..) hm

theorem setFnc0 (s : State) (x : Fnc) : Only 0x100000 s (s.setFnc x) where
  regs _ := rfl
  mem _ := rfl
  clk _ := rfl
  hif _ := rfl
  mbx _ := rfl
  cal _ := rfl
  fwd _ := rfl
  fr _ := rfl
  buf _ := rfl
  trf _ := rfl
  edg _ := rfl
  tun _ := rfl
  sig _ := rfl
  e2e _ := rfl
  sec _ := rfl
  key _ := rfl
  dom _ := rfl
  pwr _ := rfl
  nm _ := rfl
  pair _ := rfl
  fnc e := nomatch e
  boot _ := rfl
  pending := rfl
  out := List.prefix_rfl
  free := le_rfl
  canonical := id

theorem setFnc {x : Fnc} (hm : 0x100000 ||| m = m) (h : Only m s t) : Only m s (t.setFnc x) :=
  h.step (setFnc0 t ..) hm

theorem setBoot0 (s : State) (x : Boot) : Only 0x200000 s (s.setBoot x) where
  regs _ := rfl
  mem _ := rfl
  clk _ := rfl
  hif _ := rfl
  mbx _ := rfl
  cal _ := rfl
  fwd _ := rfl
  fr _ := rfl
  buf _ := rfl
  trf _ := rfl
  edg _ := rfl
  tun _ := rfl
  sig _ := rfl
  e2e _ := rfl
  sec _ := rfl
  key _ := rfl
  dom _ := rfl
  pwr _ := rfl
  nm _ := rfl
  pair _ := rfl
  fnc _ := rfl
  boot e := nomatch e
  pending := rfl
  out := List.prefix_rfl
  free := le_rfl
  canonical := id

theorem setBoot {x : Boot} (hm : 0x200000 ||| m = m) (h : Only m s t) : Only m s (t.setBoot x) :=
  h.step (setBoot0 t ..) hm

theorem putHif0 (s : State) (x : Hif) : Only 0x8 s ({ s with hif := x }) where
  regs _ := rfl
  mem _ := rfl
  clk _ := rfl
  hif e := nomatch e
  mbx _ := rfl
  cal _ := rfl
  fwd _ := rfl
  fr _ := rfl
  buf _ := rfl
  trf _ := rfl
  edg _ := rfl
  tun _ := rfl
  sig _ := rfl
  e2e _ := rfl
  sec _ := rfl
  key _ := rfl
  dom _ := rfl
  pwr _ := rfl
  nm _ := rfl
  pair _ := rfl
  fnc _ := rfl
  boot _ := rfl
  pending := rfl
  out := List.prefix_rfl
  free := le_rfl
  canonical := id

theorem putHif {x : Hif} (hm : 0x8 ||| m = m) (h : Only m s t) : Only m s ({ t with hif := x }) :=
  h.step (putHif0 t ..) hm

theorem putDom0 (s : State) (x : Tbl Domain) : Only 0x10000 s ({ s with dom := x }) where
  regs _ := rfl
  mem _ := rfl
  clk _ := rfl
  hif _ := rfl
  mbx _ := rfl
  cal _ := rfl
  fwd _ := rfl
  fr _ := rfl
  buf _ := rfl
  trf _ := rfl
  edg _ := rfl
  tun _ := rfl
  sig _ := rfl
  e2e _ := rfl
  sec _ := rfl
  key _ := rfl
  dom e := nomatch e
  pwr _ := rfl
  nm _ := rfl
  pair _ := rfl
  fnc _ := rfl
  boot _ := rfl
  pending := rfl
  out := List.prefix_rfl
  free := le_rfl
  canonical := id

theorem putDom {x : Tbl Domain} (hm : 0x10000 ||| m = m) (h : Only m s t) : Only m s ({ t with dom := x }) :=
  h.step (putDom0 t ..) hm

theorem putE2e0 (s : State) (x : Tbl E2eCtx) : Only 0x2000 s ({ s with e2e := x }) where
  regs _ := rfl
  mem _ := rfl
  clk _ := rfl
  hif _ := rfl
  mbx _ := rfl
  cal _ := rfl
  fwd _ := rfl
  fr _ := rfl
  buf _ := rfl
  trf _ := rfl
  edg _ := rfl
  tun _ := rfl
  sig _ := rfl
  e2e e := nomatch e
  sec _ := rfl
  key _ := rfl
  dom _ := rfl
  pwr _ := rfl
  nm _ := rfl
  pair _ := rfl
  fnc _ := rfl
  boot _ := rfl
  pending := rfl
  out := List.prefix_rfl
  free := le_rfl
  canonical := id

theorem putE2e {x : Tbl E2eCtx} (hm : 0x2000 ||| m = m) (h : Only m s t) : Only m s ({ t with e2e := x }) :=
  h.step (putE2e0 t ..) hm

theorem putClk0 (s : State) (x : Nat) : Only 0x4 s ({ s with clk := x }) where
  regs _ := rfl
  mem _ := rfl
  clk e := nomatch e
  hif _ := rfl
  mbx _ := rfl
  cal _ := rfl
  fwd _ := rfl
  fr _ := rfl
  buf _ := rfl
  trf _ := rfl
  edg _ := rfl
  tun _ := rfl
  sig _ := rfl
  e2e _ := rfl
  sec _ := rfl
  key _ := rfl
  dom _ := rfl
  pwr _ := rfl
  nm _ := rfl
  pair _ := rfl
  fnc _ := rfl
  boot _ := rfl
  pending := rfl
  out := List.prefix_rfl
  free := le_rfl
  canonical := id

theorem putClk {x : Nat} (hm : 0x4 ||| m = m) (h : Only m s t) : Only m s ({ t with clk := x }) :=
  h.step (putClk0 t ..) hm

theorem putClkDom0 (s : State) (x : Nat) (y : Tbl Domain) : Only 0x10004 s ({ s with clk := x, dom := y }) where
  regs _ := rfl
  mem _ := rfl
  clk e := nomatch e
  hif _ := rfl
  mbx _ := rfl
  cal _ := rfl
  fwd _ := rfl
  fr _ := rfl
  buf _ := rfl
  trf _ := rfl
  edg _ := rfl
  tun _ := rfl
  sig _ := rfl
  e2e _ := rfl
  sec _ := rfl
  key _ := rfl
  dom e := nomatch e
  pwr _ := rfl
  nm _ := rfl
  pair _ := rfl
  fnc _ := rfl
  boot _ := rfl
  pending := rfl
  out := List.prefix_rfl
  free := le_rfl
  canonical := id

theorem putClkDom {x : Nat} {y : Tbl Domain} (hm : 0x10004 ||| m = m) (h : Only m s t) : Only m s ({ t with clk := x, dom := y }) :=
  h.step (putClkDom0 t ..) hm

theorem rset0 (s : State) (o : Nat) (v : Word) : Only 0x1 s (s.rset o v) where
  regs e := nomatch e
  mem _ := rfl
  clk _ := rfl
  hif _ := rfl
  mbx _ := rfl
  cal _ := rfl
  fwd _ := rfl
  fr _ := rfl
  buf _ := rfl
  trf _ := rfl
  edg _ := rfl
  tun _ := rfl
  sig _ := rfl
  e2e _ := rfl
  sec _ := rfl
  key _ := rfl
  dom _ := rfl
  pwr _ := rfl
  nm _ := rfl
  pair _ := rfl
  fnc _ := rfl
  boot _ := rfl
  pending := rfl
  out := List.prefix_rfl
  free := le_rfl
  canonical := State.rset_canonical o v

theorem rset {o : Nat} {v : Word} (hm : 0x1 ||| m = m) (h : Only m s t) : Only m s (t.rset o v) :=
  h.step (rset0 t ..) hm

theorem mset0 (s : State) (a : Nat) (b : Byte) : Only 0x2 s (s.mset a b) where
  regs _ := rfl
  mem e := nomatch e
  clk _ := rfl
  hif _ := rfl
  mbx _ := rfl
  cal _ := rfl
  fwd _ := rfl
  fr _ := rfl
  buf _ := rfl
  trf _ := rfl
  edg _ := rfl
  tun _ := rfl
  sig _ := rfl
  e2e _ := rfl
  sec _ := rfl
  key _ := rfl
  dom _ := rfl
  pwr _ := rfl
  nm _ := rfl
  pair _ := rfl
  fnc _ := rfl
  boot _ := rfl
  pending := rfl
  out := List.prefix_rfl
  free := le_rfl
  canonical := State.mset_canonical a b

theorem mset {a : Nat} {b : Byte} (hm : 0x2 ||| m = m) (h : Only m s t) : Only m s (t.mset a b) :=
  h.step (mset0 t ..) hm

theorem emit0 (s : State) (p : Output) : Only 0x0 s (s.emit p) where
  regs _ := rfl
  mem _ := rfl
  clk _ := rfl
  hif _ := rfl
  mbx _ := rfl
  cal _ := rfl
  fwd _ := rfl
  fr _ := rfl
  buf _ := rfl
  trf _ := rfl
  edg _ := rfl
  tun _ := rfl
  sig _ := rfl
  e2e _ := rfl
  sec _ := rfl
  key _ := rfl
  dom _ := rfl
  pwr _ := rfl
  nm _ := rfl
  pair _ := rfl
  fnc _ := rfl
  boot _ := rfl
  pending := rfl
  out := List.prefix_append _ _
  free := le_rfl
  canonical := id

theorem emit {p : Output} (hm : 0x0 ||| m = m) (h : Only m s t) : Only m s (t.emit p) :=
  h.step (emit0 t ..) hm

theorem free20 (s : State) : Only 0 s s.free.2 := by
  constructor <;> first | exact fun _ => rfl | rfl | exact List.prefix_rfl | exact Nat.le_succ _ | exact id

theorem free2 (h : Only m s t) : Only m s t.free.2 := h.step (free20 t) (Nat.zero_or m)

theorem draw20 (s : State) : Only 0 s s.draw.2 := by
  constructor <;> first | exact fun _ => rfl | rfl | exact List.prefix_rfl | exact Nat.le_succ _ | exact id

theorem draw2 (h : Only m s t) : Only m s t.draw.2 := h.step (draw20 t) (Nat.zero_or m)

theorem mwrite {a : Nat} {l : List Byte} (hm : 2 ||| m = m) (h : Only m s t) : Only m s (t.mwrite a l) := by
  induction l generalizing t a with
  | nil => exact h
  | cons b r ih => exact ih (h.mset hm)

end Sys2Proof.Machine.Only

namespace Sys2Proof.Machine

/-- The frame of an execution: that of the state in which it ends or goes on. -/
def ExecOnly (m : Nat) (s : State) (e : State.Exec) : Prop :=
  match e with
  | .done t _ _ _ => Only m s t
  | .run t _ => Only m s t
  | .wait => True

namespace ExecOnly

variable {m : Nat} {s t : State} {r : State.Exec}

theorem done {st x : Nat} {d : List Byte} (h : Only m s t) : ExecOnly m s (.done t st x d) := h

theorem run {x : Nat} (h : Only m s t) : ExecOnly m s (.run t x) := h

theorem wait : ExecOnly m s .wait := trivial

theorem ite {c : Prop} [Decidable c] {a b : State.Exec} (h : ExecOnly m s a) (k : ExecOnly m s b) :
    ExecOnly m s (if c then a else b) := by
  split <;> assumption

theorem after {M : Nat} (h : Only m s t) (k : ExecOnly M t r) (hm : M ||| m = m) : ExecOnly m s r := by
  cases r with
  | done u _ _ _ => exact h.step k hm
  | run u _ => exact h.step k hm
  | wait => trivial

theorem mono {M : Nat} (k : ExecOnly M s r) (hm : M ||| m = m) : ExecOnly m s r := after (Only.refl m s) k hm

theorem failData {st : Nat} {d : List Byte} (h : Only m s t) : ExecOnly m s (State.Exec.failData t st d) := h.free2

theorem fail {st : Nat} (h : Only m s t) : ExecOnly m s (State.Exec.fail t st) := h.free2

theorem check {ok : Bool} {st : Nat} (h : Only m s t) (k : ExecOnly m s r) : ExecOnly m s (State.Exec.check ok t st r) := by
  unfold State.Exec.check
  split
  · exact k
  · exact fail h

theorem need {l : List Nat} (h : Only m s t) (k : ExecOnly m s r) : ExecOnly m s (State.Exec.need t l r) := check h k

theorem datapath (h : Only m s t) (k : ExecOnly m s r) : ExecOnly m s (State.Exec.datapath t r) := check h k

theorem edge {x : Nat} (h : Only m s t) (k : ExecOnly m s r) : ExecOnly m s (State.Exec.edge t x r) := check h (check h k)

theorem traffic (h : Only m s t) (k : ExecOnly m s r) : ExecOnly m s (State.Exec.traffic t r) := check h (check h k)

theorem macsec {c : Cmd} {l : List Bool} (h : Only m s t) (k : ExecOnly m s r) : ExecOnly m s (State.Exec.macsec t c l r) :=
  check h (check h (check h k))

theorem keyTarget {x : Nat} {o : Option Nat} {b : Bool} (h : Only m s t) (k : ExecOnly m s r) :
    ExecOnly m s (State.Exec.keyTarget t x o b r) := check h (check h (check h (check h k)))

theorem both {p : Nat} {d : List Byte} {x : MirrorMsg} {f : State → State.Exec} (hf : ∀ u, Only m s u → ExecOnly m s (f u)) :
    ExecOnly m s (State.Exec.both s p d x f) := by
  unfold State.Exec.both
  have k : ExecOnly m s (f s) := hf s (Only.refl m s)
  split
  · exact k
  · split
    · exact failData (Only.refl m s)
    · split
      · have he : Only m s (s.emit (.mirror x)) := Only.emit (Nat.zero_or _) (Only.refl m s)
        have h := hf _ he
        dsimp only
        split
        · rename_i e; rw [e] at h
          split
          · exact h
          · exact he
        · rename_i e; rw [e] at h
          have h' : Only m s _ := h
          have hfr := h'.free
          constructor <;> first | exact fun e => he.regs e | exact fun _ => rfl | rfl | exact he.out | exact hfr | exact id
        · exact h
      · split
        · exact k
        · exact failData (Only.refl m s)

theorem idle {c : Cmd} {d : List Byte} {f : State → State.Exec} (hf : ∀ u, Only m s u → ExecOnly m s (f u)) (h : Only m s t) :
    ExecOnly m s (State.Exec.idle c d f t) := by
  unfold State.Exec.idle
  split
  · split
    · exact failData h.free2
    · exact hf _ h.free2
  · exact hf _ h

end ExecOnly

/-- The frame of a `Stage`: that of the state it carries. -/
def StageOnly (m : Nat) (s : State) (r : Stage) : Prop :=
  match r with
  | .go k t => Only m s t
  | .drop e t => Only m s t

namespace StageOnly

variable {m : Nat} {s t : State} {r : Stage}

theorem go {k : Lk} (h : Only m s t) : StageOnly m s (.go k t) := h

theorem of_go {k : Lk} (e₀ : r = .go k t) (h₀ : StageOnly m s r) : Only m s t := by
  rw [e₀] at h₀; exact h₀

theorem drop {e : Effects} (h : Only m s t) : StageOnly m s (.drop e t) := h

theorem of_drop {e : Effects} (e₀ : r = .drop e t) (h₀ : StageOnly m s r) : Only m s t := by
  rw [e₀] at h₀; exact h₀

theorem ite {c : Prop} [Decidable c] {a b : Stage} (h : StageOnly m s a) (k : StageOnly m s b) : StageOnly m s (if c then a else b) := by
  split <;> assumption

theorem after {M : Nat} (h : Only m s t) (k : StageOnly M t r) (hm : M ||| m = m) : StageOnly m s r := by
  cases r <;> first | exact h.step k hm | trivial

end StageOnly

/-- The frame of a `State.Recov`: that of the state it carries. -/
def RecovOnly (m : Nat) (s : State) (r : State.Recov) : Prop :=
  match r with
  | .pass k p h t => Only m s t
  | .stop e t d => Only m s t

namespace RecovOnly

variable {m : Nat} {s t : State} {r : State.Recov}

theorem pass {k : Lk} {p h : Bool} (h₀ : Only m s t) : RecovOnly m s (.pass k p h t) := h₀

theorem of_pass {k : Lk} {p h : Bool} (e₀ : r = .pass k p h t) (h₀ : RecovOnly m s r) : Only m s t := by
  rw [e₀] at h₀; exact h₀

theorem stop {e : Effects} {d : Bool} (h : Only m s t) : RecovOnly m s (.stop e t d) := h

theorem of_stop {e : Effects} {d : Bool} (e₀ : r = .stop e t d) (h₀ : RecovOnly m s r) : Only m s t := by
  rw [e₀] at h₀; exact h₀

theorem ite {c : Prop} [Decidable c] {a b : State.Recov} (h : RecovOnly m s a) (k : RecovOnly m s b) : RecovOnly m s (if c then a else b) := by
  split <;> assumption

theorem after {M : Nat} (h : Only m s t) (k : RecovOnly M t r) (hm : M ||| m = m) : RecovOnly m s r := by
  cases r <;> first | exact h.step k hm | trivial

end RecovOnly

/-- The frame of a `State.Protect`: that of the state it carries. -/
def ProtectOnly (m : Nat) (s : State) (r : State.Protect) : Prop :=
  match r with
  | .plain => True
  | .sa a p t => Only m s t
  | .discard => True

namespace ProtectOnly

variable {m : Nat} {s t : State} {r : State.Protect}

theorem plain : ProtectOnly m s .plain := trivial

theorem sa {a p : Nat} (h : Only m s t) : ProtectOnly m s (.sa a p t) := h

theorem of_sa {a p : Nat} (e₀ : r = .sa a p t) (h₀ : ProtectOnly m s r) : Only m s t := by
  rw [e₀] at h₀; exact h₀

theorem discard : ProtectOnly m s .discard := trivial

theorem ite {c : Prop} [Decidable c] {a b : State.Protect} (h : ProtectOnly m s a) (k : ProtectOnly m s b) : ProtectOnly m s (if c then a else b) := by
  split <;> assumption

theorem after {M : Nat} (h : Only m s t) (k : ProtectOnly M t r) (hm : M ||| m = m) : ProtectOnly m s r := by
  cases r <;> first | exact h.step k hm | trivial

end ProtectOnly

end Sys2Proof.Machine
end

