-- ==== Sys2Proof/Laws/OnlyOps.lean ====
section
/-! SUPPORT.
Frames: what the shared operations on registers, memory, events and commands can change
at most. The law named `…0` states the frame of one operation, the other one carries a frame over it. -/

namespace Sys2Proof.Machine

theorem Only.hostOut0 (s : State) (a : Nat) (b : List Byte) : Only 0x0 s (State.hostOut s a b) := by
  unfold State.hostOut
  try dsimp only
  repeat' first
    | with_reducible exact Only.refl _ _
    | with_reducible assumption
    | with_reducible refine Only.emit (Nat.zero_or _) ?_
    | with_reducible refine Only.foldl (fun _ _ _ => ?_) ?_

theorem Only.hostOut {m₀ : Nat} {s₀ t₀ : State} {a : Nat} {b : List Byte} (hm₀ : 0x0 ||| m₀ = m₀)
    (h₀ : Only m₀ s₀ t₀) : Only m₀ s₀ (State.hostOut t₀ a b) :=
  h₀.step (Only.hostOut0 t₀ _ _) hm₀

theorem Only.hostMem0 (s : State) (vec a : Nat) (b : List Byte) : Only 0x8 s (State.hostMem s vec a b) := by
  unfold State.hostMem
  try dsimp only
  repeat' first
    | with_reducible exact Only.refl _ _
    | with_reducible refine Only.ite ?_ ?_
    | with_reducible refine Only.hostOut (by decide) ?_
    | with_reducible refine Only.putHif (by decide) ?_

theorem Only.hostMem {m₀ : Nat} {s₀ t₀ : State} {vec a : Nat} {b : List Byte} (hm₀ : 0x8 ||| m₀ = m₀)
    (h₀ : Only m₀ s₀ t₀) : Only m₀ s₀ (State.hostMem t₀ vec a b) :=
  h₀.step (Only.hostMem0 t₀ _ _ _) hm₀

theorem Only.sendMsix0 (s : State) (v : Nat) : Only 0x8 s (State.sendMsix s v) := by
  unfold State.sendMsix
  try dsimp only
  repeat' first
    | with_reducible exact Only.refl _ _
    | with_reducible refine Only.emit (Nat.zero_or _) ?_
    | with_reducible refine Only.putHif (by decide) ?_

theorem Only.sendMsix {m₀ : Nat} {s₀ t₀ : State} {v : Nat} (hm₀ : 0x8 ||| m₀ = m₀)
    (h₀ : Only m₀ s₀ t₀) : Only m₀ s₀ (State.sendMsix t₀ v) :=
  h₀.step (Only.sendMsix0 t₀ _) hm₀

theorem Only.signal0 (s : State) (v : Nat) : Only 0x8 s (State.signal s v) := by
  unfold State.signal
  try dsimp only
  repeat' first
    | with_reducible exact Only.refl _ _
    | with_reducible refine Only.ite ?_ ?_
    | with_reducible refine Only.sendMsix (by decide) ?_
    | with_reducible refine Only.putHif (by decide) ?_

theorem Only.signal {m₀ : Nat} {s₀ t₀ : State} {v : Nat} (hm₀ : 0x8 ||| m₀ = m₀)
    (h₀ : Only m₀ s₀ t₀) : Only m₀ s₀ (State.signal t₀ v) :=
  h₀.step (Only.signal0 t₀ _) hm₀

theorem Only.evqWrite0 (s : State) (h code : Nat) (sev unit arg : Nat) : Only 0xB s
    (State.evqWrite s h code sev unit arg) := by
  unfold State.evqWrite
  try dsimp only
  repeat' first
    | with_reducible exact Only.refl _ _
    | with_reducible refine Only.ite ?_ ?_
    | with_reducible refine Only.rset (by decide) ?_
    | with_reducible refine Only.mwrite (by decide) ?_
    | with_reducible refine Only.hostMem (by decide) ?_
    | with_reducible refine Only.signal (by decide) ?_

theorem Only.evqWrite {m₀ : Nat} {s₀ t₀ : State} {h code : Nat} {sev unit arg : Nat} (hm₀ : 0xB ||| m₀ = m₀)
    (h₀ : Only m₀ s₀ t₀) : Only m₀ s₀ (State.evqWrite t₀ h code sev unit arg) :=
  h₀.step (Only.evqWrite0 t₀ _ _ _ _ _) hm₀

theorem Only.evqGap0 (s : State) (h : Nat) : Only 0xB s (State.evqGap s h) := by
  unfold State.evqGap
  try dsimp only
  repeat' first
    | with_reducible exact Only.refl _ _
    | with_reducible refine Only.ite ?_ ?_
    | with_reducible refine Only.evqWrite (by decide) ?_
    | with_reducible refine Only.putHif (by decide) ?_

theorem Only.evqGap {m₀ : Nat} {s₀ t₀ : State} {h : Nat} (hm₀ : 0xB ||| m₀ = m₀)
    (h₀ : Only m₀ s₀ t₀) : Only m₀ s₀ (State.evqGap t₀ h) :=
  h₀.step (Only.evqGap0 t₀ _) hm₀

theorem Only.evqPut0 (s : State) (h code : Nat) (sev unit arg : Nat) : Only 0xB s (State.evqPut s h code sev unit arg) := by
  unfold State.evqPut
  try dsimp only
  repeat' first
    | with_reducible exact Only.refl _ _
    | with_reducible refine Only.ite ?_ ?_
    | with_reducible refine Only.evqGap (by decide) ?_
    | with_reducible refine Only.rset (by decide) ?_
    | with_reducible refine Only.evqWrite (by decide) ?_
    | with_reducible refine Only.putHif (by decide) ?_

theorem Only.evqPut {m₀ : Nat} {s₀ t₀ : State} {h code : Nat} {sev unit arg : Nat} (hm₀ : 0xB ||| m₀ = m₀)
    (h₀ : Only m₀ s₀ t₀) : Only m₀ s₀ (State.evqPut t₀ h code sev unit arg) :=
  h₀.step (Only.evqPut0 t₀ _ _ _ _ _) hm₀

theorem Only.evBoth0 (s : State) (code sev : Nat) (unit arg : Nat) : Only 0xB s (State.evBoth s code sev unit arg) := by
  unfold State.evBoth
  try dsimp only
  repeat' first
    | with_reducible exact Only.refl _ _
    | with_reducible refine Only.evqPut (by decide) ?_

theorem Only.evBoth {m₀ : Nat} {s₀ t₀ : State} {code sev : Nat} {unit arg : Nat} (hm₀ : 0xB ||| m₀ = m₀)
    (h₀ : Only m₀ s₀ t₀) : Only m₀ s₀ (State.evBoth t₀ code sev unit arg) :=
  h₀.step (Only.evBoth0 t₀ _ _ _ _) hm₀

theorem Only.lostHalf0 (n : Nat) (s t : State) : Only 0xB t (State.lostHalf n s t) := by
  induction n generalizing s t with
  | zero => exact Only.refl _ _
  | succ n ih =>
    exact Only.foldl (fun _ _ h => (Only.evBoth (by decide) h).trans (ih _ _)) (Only.refl _ _)

theorem Only.lostHalf {m₀ n : Nat} {s₀ t₀ s : State} (hm₀ : 0xB ||| m₀ = m₀) (h₀ : Only m₀ s₀ t₀) :
    Only m₀ s₀ (State.lostHalf n s t₀) :=
  h₀.step (Only.lostHalf0 _ _ _) hm₀

theorem Only.raiseSev0 (s : State) (code sev : Nat) (unit arg : Nat) : Only 0xB s (State.raiseSev s code sev unit arg) := by
  unfold State.raiseSev
  try dsimp only
  repeat' first
    | with_reducible exact Only.refl _ _
    | with_reducible refine Only.evBoth (by decide) ?_
    | with_reducible refine Only.lostHalf (by decide) ?_

theorem Only.raiseSev {m₀ : Nat} {s₀ t₀ : State} {code sev : Nat} {unit arg : Nat} (hm₀ : 0xB ||| m₀ = m₀)
    (h₀ : Only m₀ s₀ t₀) : Only m₀ s₀ (State.raiseSev t₀ code sev unit arg) :=
  h₀.step (Only.raiseSev0 t₀ _ _ _ _) hm₀

theorem Only.bumpBy0 (s : State) (off n : Nat) : Only 0xB s (State.bumpBy s off n) := by
  unfold State.bumpBy
  try dsimp only
  repeat' first
    | with_reducible exact Only.refl _ _
    | with_reducible refine Only.ite ?_ ?_
    | with_reducible refine Only.rset (by decide) ?_
    | with_reducible refine Only.raiseSev (by decide) ?_

theorem Only.bumpBy {m₀ : Nat} {s₀ t₀ : State} {off n : Nat} (hm₀ : 0xB ||| m₀ = m₀)
    (h₀ : Only m₀ s₀ t₀) : Only m₀ s₀ (State.bumpBy t₀ off n) :=
  h₀.step (Only.bumpBy0 t₀ _ _) hm₀

theorem Only.bump0 (s : State) (off : Nat) : Only 0xB s (State.bump s off) := by
  unfold State.bump
  try dsimp only
  repeat' first
    | with_reducible exact Only.refl _ _
    | with_reducible refine Only.bumpBy (by decide) ?_

theorem Only.bump {m₀ : Nat} {s₀ t₀ : State} {off : Nat} (hm₀ : 0xB ||| m₀ = m₀)
    (h₀ : Only m₀ s₀ t₀) : Only m₀ s₀ (State.bump t₀ off) :=
  h₀.step (Only.bump0 t₀ _) hm₀

theorem Only.rset640 (s : State) (lo v : Nat) : Only 0x1 s (State.rset64 s lo v) := by
  unfold State.rset64
  try dsimp only
  repeat' first
    | with_reducible exact Only.refl _ _
    | with_reducible refine Only.rset (by decide) ?_

theorem Only.rset64 {m₀ : Nat} {s₀ t₀ : State} {lo v : Nat} (hm₀ : 0x1 ||| m₀ = m₀)
    (h₀ : Only m₀ s₀ t₀) : Only m₀ s₀ (State.rset64 t₀ lo v) :=
  h₀.step (Only.rset640 t₀ _ _) hm₀

theorem Only.bump480 (s : State) (lo n : Nat) : Only 0xB s (State.bump48 s lo n) := by
  unfold State.bump48
  try dsimp only
  repeat' first
    | with_reducible exact Only.refl _ _
    | with_reducible refine Only.ite ?_ ?_
    | with_reducible refine Only.rset64 (by decide) ?_
    | with_reducible refine Only.raiseSev (by decide) ?_

theorem Only.bump48 {m₀ : Nat} {s₀ t₀ : State} {lo n : Nat} (hm₀ : 0xB ||| m₀ = m₀)
    (h₀ : Only m₀ s₀ t₀) : Only m₀ s₀ (State.bump48 t₀ lo n) :=
  h₀.step (Only.bump480 t₀ _ _) hm₀

theorem Only.raise0 (s : State) (code arg : Nat) : Only 0xB s (State.raise s code arg) := by
  unfold State.raise
  try dsimp only
  repeat' first
    | with_reducible exact Only.refl _ _
    | with_reducible refine Only.raiseSev (by decide) ?_

theorem Only.raise {m₀ : Nat} {s₀ t₀ : State} {code arg : Nat} (hm₀ : 0xB ||| m₀ = m₀)
    (h₀ : Only m₀ s₀ t₀) : Only m₀ s₀ (State.raise t₀ code arg) :=
  h₀.step (Only.raise0 t₀ _ _) hm₀

theorem Only.bumpView0 (s : State) (dom view : Nat) (index unit : Nat) (c : Word) : Only 0xB s
    (State.bumpView s dom view index unit c).1 := by
  unfold State.bumpView
  try dsimp only
  repeat' first
    | with_reducible exact Only.refl _ _
    | with_reducible refine Only.raiseSev (by decide) ?_
    | split

theorem Only.bumpView {m₀ : Nat} {s₀ t₀ : State} {dom view : Nat} {index unit : Nat} {c : Word} (hm₀ : 0xB ||| m₀ = m₀)
    (h₀ : Only m₀ s₀ t₀) : Only m₀ s₀ (State.bumpView t₀ dom view index unit c).1 :=
  h₀.step (Only.bumpView0 t₀ _ _ _ _ _) hm₀

theorem Only.raiseLimited0 (s : State) (last : Option Nat) (period code arg : Nat) : Only 0xB s
    (State.raiseLimited s last period code arg).1 := by
  unfold State.raiseLimited
  try dsimp only
  repeat' first
    | with_reducible exact Only.refl _ _
    | with_reducible refine Only.raise (by decide) ?_
    | split

theorem Only.raiseLimited {m₀ : Nat} {s₀ t₀ : State} {last : Option Nat} {period code arg : Nat} (hm₀ : 0xB ||| m₀ = m₀)
    (h₀ : Only m₀ s₀ t₀) : Only m₀ s₀ (State.raiseLimited t₀ last period code arg).1 :=
  h₀.step (Only.raiseLimited0 t₀ _ _ _ _) hm₀

theorem Only.svcSend0 (s : State) (type : Nat) (body : List Byte) : Only 0x200000 s (State.svcSend s type body) := by
  unfold State.svcSend
  try dsimp only
  repeat' first
    | with_reducible exact Only.refl _ _
    | with_reducible refine Only.ite ?_ ?_
    | with_reducible refine Only.setBoot (by decide) ?_
    | with_reducible refine Only.emit (Nat.zero_or _) ?_
    | split

theorem Only.svcSend {m₀ : Nat} {s₀ t₀ : State} {type : Nat} {body : List Byte} (hm₀ : 0x200000 ||| m₀ = m₀)
    (h₀ : Only m₀ s₀ t₀) : Only m₀ s₀ (State.svcSend t₀ type body) :=
  h₀.step (Only.svcSend0 t₀ _ _) hm₀

theorem Only.rsetF0 (s : State) (off lo : Nat) (n x : Nat) : Only 0x1 s (State.rsetF s off lo n x) := by
  unfold State.rsetF
  try dsimp only
  repeat' first
    | with_reducible exact Only.refl _ _
    | with_reducible refine Only.rset (by decide) ?_

theorem Only.rsetF {m₀ : Nat} {s₀ t₀ : State} {off lo : Nat} {n x : Nat} (hm₀ : 0x1 ||| m₀ = m₀)
    (h₀ : Only m₀ s₀ t₀) : Only m₀ s₀ (State.rsetF t₀ off lo n x) :=
  h₀.step (Only.rsetF0 t₀ _ _ _ _) hm₀

theorem Only.hostFlush0 (s : State) : Only 0x8 s (State.hostFlush s) := by
  unfold State.hostFlush
  exact Only.foldl (fun _ _ h => Only.hostOut (by decide) h) (Only.putHif (by decide) (Only.refl _ _))

theorem Only.hostFlush {m₀ : Nat} {s₀ t₀ : State}  (hm₀ : 0x8 ||| m₀ = m₀)
    (h₀ : Only m₀ s₀ t₀) : Only m₀ s₀ (State.hostFlush t₀) :=
  h₀.step (Only.hostFlush0 t₀) hm₀

theorem Only.heldDrop0 (s : State) (vec : Nat) : Only 0x8 s (State.heldDrop s vec) := by
  unfold State.heldDrop
  try dsimp only
  repeat' first
    | with_reducible exact Only.refl _ _
    | with_reducible refine Only.putHif (by decide) ?_

theorem Only.heldDrop {m₀ : Nat} {s₀ t₀ : State} {vec : Nat} (hm₀ : 0x8 ||| m₀ = m₀)
    (h₀ : Only m₀ s₀ t₀) : Only m₀ s₀ (State.heldDrop t₀ vec) :=
  h₀.step (Only.heldDrop0 t₀ _) hm₀

theorem Only.sessionRestart0 (s : State) (c : Cmd) : Only 0x1 s (State.sessionRestart s c) := by
  unfold State.sessionRestart
  try dsimp only
  repeat' first
    | with_reducible exact Only.refl _ _
    | with_reducible refine Only.ite ?_ ?_
    | with_reducible refine Only.rset (by decide) ?_

theorem Only.sessionRestart {m₀ : Nat} {s₀ t₀ : State} {c : Cmd} (hm₀ : 0x1 ||| m₀ = m₀)
    (h₀ : Only m₀ s₀ t₀) : Only m₀ s₀ (State.sessionRestart t₀ c) :=
  h₀.step (Only.sessionRestart0 t₀ _) hm₀

theorem Only.retire0 (s : State) (c : Cmd) : Only 0x10 s (State.retire s c) := by
  unfold State.retire
  try dsimp only
  repeat' first
    | with_reducible exact Only.refl _ _
    | with_reducible refine Only.ite ?_ ?_
    | with_reducible refine Only.setMbx (by decide) ?_

theorem Only.retire {m₀ : Nat} {s₀ t₀ : State} {c : Cmd} (hm₀ : 0x10 ||| m₀ = m₀)
    (h₀ : Only m₀ s₀ t₀) : Only m₀ s₀ (State.retire t₀ c) :=
  h₀.step (Only.retire0 t₀ _) hm₀

theorem Only.writeCompletion0 (s : State) (c : Cmd) : Only 0x20001B s (State.writeCompletion s c) := by
  unfold State.writeCompletion
  try dsimp only
  repeat' first
    | with_reducible exact Only.refl _ _
    | with_reducible refine Only.ite ?_ ?_
    | with_reducible refine Only.setMbx (by decide) ?_
    | with_reducible refine Only.rset (by decide) ?_
    | with_reducible refine Only.mwrite (by decide) ?_
    | with_reducible refine Only.hostMem (by decide) ?_
    | with_reducible refine Only.signal (by decide) ?_
    | with_reducible refine Only.svcSend (by decide) ?_

theorem Only.writeCompletion {m₀ : Nat} {s₀ t₀ : State} {c : Cmd} (hm₀ : 0x20001B ||| m₀ = m₀)
    (h₀ : Only m₀ s₀ t₀) : Only m₀ s₀ (State.writeCompletion t₀ c) :=
  h₀.step (Only.writeCompletion0 t₀ _) hm₀

theorem Only.postLoop0 (sel : Cmd → Bool) (x1 : Nat) (st : State) : Only 0x20001B st (State.postLoop sel x1 st) := by
  induction x1 generalizing st with
  | zero => unfold State.postLoop; exact Only.refl _ _
  | succ n ih =>
    unfold State.postLoop
    try dsimp only
    repeat' first
      | with_reducible refine Only.trans ?_ (ih _)
      | with_reducible exact Only.refl _ _
      | with_reducible refine Only.ite ?_ ?_
      | with_reducible refine Only.sessionRestart (by decide) ?_
      | with_reducible refine Only.retire (by decide) ?_
      | with_reducible refine Only.writeCompletion (by decide) ?_
      | with_reducible refine Only.setBoot (by decide) ?_
      | split

theorem Only.postLoop {m₀ : Nat} {s₀ t₀ : State} {sel : Cmd → Bool} {x1 : Nat} (hm₀ : 0x20001B ||| m₀ = m₀)
    (h₀ : Only m₀ s₀ t₀) : Only m₀ s₀ (State.postLoop sel x1 t₀) :=
  h₀.step (Only.postLoop0 _ _ t₀) hm₀

theorem Only.postAll0 (s : State) : Only 0x20001B s (State.postAll s) := by
  unfold State.postAll
  try dsimp only
  repeat' first
    | with_reducible exact Only.refl _ _
    | with_reducible refine Only.postLoop (by decide) ?_

theorem Only.postAll {m₀ : Nat} {s₀ t₀ : State}  (hm₀ : 0x20001B ||| m₀ = m₀)
    (h₀ : Only m₀ s₀ t₀) : Only m₀ s₀ (State.postAll t₀) :=
  h₀.step (Only.postAll0 t₀) hm₀

theorem Only.tick0 (s : State) (k : Nat) : Only 0x10004 s (State.tick s k) := by
  unfold State.tick
  try dsimp only
  repeat' first
    | with_reducible exact Only.refl _ _
    | with_reducible refine Only.ite ?_ ?_
    | with_reducible refine Only.putClk (by decide) ?_
    | with_reducible refine Only.putClkDom (by decide) ?_

theorem Only.tick {m₀ : Nat} {s₀ t₀ : State} {k : Nat} (hm₀ : 0x10004 ||| m₀ = m₀)
    (h₀ : Only m₀ s₀ t₀) : Only m₀ s₀ (State.tick t₀ k) :=
  h₀.step (Only.tick0 t₀ _) hm₀

theorem Only.waitUntil0 (s : State) (t : Nat) : Only 0x10004 s (State.waitUntil s t) := by
  unfold State.waitUntil
  try dsimp only
  repeat' first
    | with_reducible exact Only.refl _ _
    | with_reducible refine Only.tick (by decide) ?_

theorem Only.waitUntil {m₀ : Nat} {s₀ t₀ : State} {t : Nat} (hm₀ : 0x10004 ||| m₀ = m₀)
    (h₀ : Only m₀ s₀ t₀) : Only m₀ s₀ (State.waitUntil t₀ t) :=
  h₀.step (Only.waitUntil0 t₀ _) hm₀

theorem Only.finishCmd0 (s : State) (i status result : Nat) (data : List Byte) : Only 0x20001B s
    (State.finishCmd s i status result data) := by
  unfold State.finishCmd
  try dsimp only
  repeat' first
    | with_reducible exact Only.refl _ _
    | with_reducible refine Only.ite ?_ ?_
    | with_reducible refine Only.bump (by decide) ?_
    | with_reducible refine Only.setMbx (by decide) ?_
    | with_reducible refine Only.postAll (by decide) ?_
    | with_reducible refine Only.rset (by decide) ?_
    | with_reducible refine Only.raise (by decide) ?_
    | with_reducible refine Only.emit (Nat.zero_or _) ?_
    | split

theorem Only.finishCmd {m₀ : Nat} {s₀ t₀ : State} {i status result : Nat} {data : List Byte}
    (hm₀ : 0x20001B ||| m₀ = m₀) (h₀ : Only m₀ s₀ t₀) : Only m₀ s₀ (State.finishCmd t₀ i status result data) :=
  h₀.step (Only.finishCmd0 t₀ _ _ _ _) hm₀

theorem Only.bumpAll0 (s : State) (l : List Nat) : Only 0xB s (State.bumpAll s l) := by
  unfold State.bumpAll
  try dsimp only
  repeat' first
    | with_reducible exact Only.refl _ _
    | with_reducible assumption
    | with_reducible refine Only.bump (by decide) ?_
    | with_reducible refine Only.foldl (fun _ _ _ => ?_) ?_

theorem Only.bumpAll {m₀ : Nat} {s₀ t₀ : State} {l : List Nat} (hm₀ : 0xB ||| m₀ = m₀)
    (h₀ : Only m₀ s₀ t₀) : Only m₀ s₀ (State.bumpAll t₀ l) :=
  h₀.step (Only.bumpAll0 t₀ _) hm₀

theorem Only.waitDom0 (s : State) (i t : Nat) : Only 0x10004 s (State.waitDom s i t) := by
  unfold State.waitDom
  try dsimp only
  repeat' first
    | with_reducible exact Only.refl _ _
    | with_reducible refine Only.ite ?_ ?_
    | with_reducible refine Only.tick (by decide) ?_

theorem Only.waitDom {m₀ : Nat} {s₀ t₀ : State} {i t : Nat} (hm₀ : 0x10004 ||| m₀ = m₀)
    (h₀ : Only m₀ s₀ t₀) : Only m₀ s₀ (State.waitDom t₀ i t) :=
  h₀.step (Only.waitDom0 t₀ _ _) hm₀

theorem Only.mirrorOff0 (s : State) : Only 0x20001B s (State.mirrorOff s) := by
  unfold State.mirrorOff
  try dsimp only
  repeat' first
    | with_reducible exact Only.refl _ _
    | with_reducible refine Only.ite ?_ ?_
    | with_reducible refine Only.setMbx (by decide) ?_
    | with_reducible refine Only.bumpBy (by decide) ?_
    | with_reducible refine Only.postAll (by decide) ?_

theorem Only.mirrorOff {m₀ : Nat} {s₀ t₀ : State}  (hm₀ : 0x20001B ||| m₀ = m₀)
    (h₀ : Only m₀ s₀ t₀) : Only m₀ s₀ (State.mirrorOff t₀) :=
  h₀.step (Only.mirrorOff0 t₀) hm₀

theorem Only.cmdMod0 (s : State) (i : Nat) (f : Cmd → Cmd) : Only 0x10 s (State.cmdMod s i f) := by
  unfold State.cmdMod
  try dsimp only
  repeat' first
    | with_reducible exact Only.refl _ _
    | with_reducible refine Only.setMbx (by decide) ?_

theorem Only.cmdMod {m₀ : Nat} {s₀ t₀ : State} {i : Nat} {f : Cmd → Cmd} (hm₀ : 0x10 ||| m₀ = m₀)
    (h₀ : Only m₀ s₀ t₀) : Only m₀ s₀ (State.cmdMod t₀ i f) :=
  h₀.step (Only.cmdMod0 t₀ _ _) hm₀

theorem Only.failCmd0 (s : State) (i status : Nat) : Only 0x20001B s (State.failCmd s i status) := by
  unfold State.failCmd
  try dsimp only
  repeat' first
    | with_reducible exact Only.refl _ _
    | with_reducible refine Only.free2 ?_
    | with_reducible refine Only.finishCmd (by decide) ?_

theorem Only.failCmd {m₀ : Nat} {s₀ t₀ : State} {i status : Nat} (hm₀ : 0x20001B ||| m₀ = m₀)
    (h₀ : Only m₀ s₀ t₀) : Only m₀ s₀ (State.failCmd t₀ i status) :=
  h₀.step (Only.failCmd0 t₀ _ _) hm₀

theorem Only.failOp0 (s : State) (op i status : Nat) : Only 0x20001B s (State.failOp s op i status) := by
  unfold State.failOp
  try dsimp only
  repeat' first
    | with_reducible exact Only.refl _ _
    | with_reducible refine Only.free2 ?_
    | with_reducible refine Only.finishCmd (by decide) ?_

theorem Only.failOp {m₀ : Nat} {s₀ t₀ : State} {op i status : Nat} (hm₀ : 0x20001B ||| m₀ = m₀)
    (h₀ : Only m₀ s₀ t₀) : Only m₀ s₀ (State.failOp t₀ op i status) :=
  h₀.step (Only.failOp0 t₀ _ _ _) hm₀

theorem Only.unpersistAll0 (s : State) : Only 0x20001B s (State.unpersistAll s) := by
  unfold State.unpersistAll
  try dsimp only
  repeat' first
    | with_reducible exact Only.refl _ _
    | with_reducible refine Only.setMbx (by decide) ?_
    | with_reducible refine Only.postAll (by decide) ?_

theorem Only.unpersistAll {m₀ : Nat} {s₀ t₀ : State}  (hm₀ : 0x20001B ||| m₀ = m₀)
    (h₀ : Only m₀ s₀ t₀) : Only m₀ s₀ (State.unpersistAll t₀) :=
  h₀.step (Only.unpersistAll0 t₀) hm₀

theorem Only.takeSlot0 (s : State) (host q p : Nat) (slot : List Byte) (written : Nat → Bool) : Only 0x20001B s
    (State.takeSlot s host q p slot written) := by
  unfold State.takeSlot
  try dsimp only
  repeat' first
    | with_reducible exact Only.refl _ _
    | with_reducible refine Only.ite ?_ ?_
    | with_reducible refine Only.bump (by decide) ?_
    | with_reducible refine Only.setMbx (by decide) ?_
    | with_reducible refine Only.free2 ?_
    | with_reducible refine Only.postAll (by decide) ?_
    | with_reducible refine Only.rset (by decide) ?_
    | split

theorem Only.takeSlot {m₀ : Nat} {s₀ t₀ : State} {host q p : Nat} {slot : List Byte} {written : Nat → Bool}
    (hm₀ : 0x20001B ||| m₀ = m₀) (h₀ : Only m₀ s₀ t₀) : Only m₀ s₀ (State.takeSlot t₀ host q p slot written) :=
  h₀.step (Only.takeSlot0 t₀ _ _ _ _ _) hm₀

theorem Only.hostIn0 (s : State) (a n : Nat) : Only 0x0 s (State.hostIn s a n) := by
  unfold State.hostIn
  try dsimp only
  repeat' first
    | with_reducible exact Only.refl _ _
    | with_reducible assumption
    | with_reducible refine Only.emit (Nat.zero_or _) ?_
    | with_reducible refine Only.foldl (fun _ _ _ => ?_) ?_

theorem Only.hostIn {m₀ : Nat} {s₀ t₀ : State} {a n : Nat} (hm₀ : 0x0 ||| m₀ = m₀)
    (h₀ : Only m₀ s₀ t₀) : Only m₀ s₀ (State.hostIn t₀ a n) :=
  h₀.step (Only.hostIn0 t₀ _ _) hm₀

theorem Only.idle0 (s : State) : Only 0x10004 s (State.idle s) := by
  unfold State.idle
  try dsimp only
  repeat' first
    | with_reducible exact Only.refl _ _
    | with_reducible refine Only.tick (by decide) ?_

theorem Only.idle {m₀ : Nat} {s₀ t₀ : State}  (hm₀ : 0x10004 ||| m₀ = m₀)
    (h₀ : Only m₀ s₀ t₀) : Only m₀ s₀ (State.idle t₀) :=
  h₀.step (Only.idle0 t₀) hm₀

theorem Only.runCmd {m : Nat} {s : State} {host q op : Nat} {f : Cmd → State → State.Exec} (hm : 0x20001B ||| m = m)
    (hf : ∀ c, ExecOnly m s (f c s)) : Only m s (State.runCmd s host q op f) := by
  unfold State.runCmd
  split
  · exact Only.refl m s
  · rename_i c _
    split
    · exact Only.refl m s
    · split
      · exact (Only.failOp0 ..).mono (by rw [← hm, ← Nat.or_assoc]; congr 1)
      · split
        · exact (Only.failOp0 ..).mono (by rw [← hm, ← Nat.or_assoc]; congr 1)
        · have h := hf c
          split
          · exact Only.refl m s
          · rename_i e; rw [e] at h
            exact Only.step h (Only.cmdMod0 ..) (by rw [← hm, ← Nat.or_assoc]; congr 1)
          · rename_i e; rw [e] at h
            exact Only.step h (Only.finishCmd0 ..) (by rw [← hm, ← Nat.or_assoc]; congr 1)

theorem Only.runDma {m : Nat} {s : State} {host q op : Nat} {a l : Cmd → Nat} {f : Cmd → State → State.Exec}
    (hm : 0x20001B ||| m = m) (hf : ∀ c, ExecOnly m s (f c s)) : Only m s (State.runDma s host q op a l f) := by
  refine Only.runCmd hm fun c => ?_
  have h := hf c
  split
  · rename_i e; rw [e] at h
    exact ExecOnly.done (Only.ite (Only.hostIn (Only.groups hm (by decide)) h) h)
  · exact h

end Sys2Proof.Machine
end

