-- ==== Sys2Proof/Laws/OnlyTables.lean ====
section
/-! SUPPORT.
Frames: what the forwarding tables, the monitors and the register writes can change
at most. The law named `…0` states the frame of one operation, the other one carries a frame over it. -/

namespace Sys2Proof.Machine

theorem Only.dropDeadline0 (s : State) (fid egress : Nat) : Only 0x20 s (State.dropDeadline s fid egress) := by
  unfold State.dropDeadline
  try dsimp only
  repeat' first
    | with_reducible exact Only.refl _ _
    | with_reducible refine Only.setCal (by decide) ?_

theorem Only.dropDeadline {m₀ : Nat} {s₀ t₀ : State} {fid egress : Nat} (hm₀ : 0x20 ||| m₀ = m₀)
    (h₀ : Only m₀ s₀ t₀) : Only m₀ s₀ (State.dropDeadline t₀ fid egress) :=
  h₀.step (Only.dropDeadline0 t₀ _ _) hm₀

theorem Only.report0 (s : State) (domain source : Nat) : Only 0x100000 s (State.report s domain source) := by
  unfold State.report
  try dsimp only
  repeat' first
    | with_reducible exact Only.refl _ _
    | with_reducible refine Only.setFnc (by decide) ?_

theorem Only.report {m₀ : Nat} {s₀ t₀ : State} {domain source : Nat} (hm₀ : 0x100000 ||| m₀ = m₀)
    (h₀ : Only m₀ s₀ t₀) : Only m₀ s₀ (State.report t₀ domain source) :=
  h₀.step (Only.report0 t₀ _ _) hm₀

theorem Only.gmod0 (s : State) (id h : Nat) (f : GCount → GCount) : Only 0x20 s (State.gmod s id h f) := by
  unfold State.gmod
  try dsimp only
  repeat' first
    | with_reducible exact Only.refl _ _
    | with_reducible refine Only.ite ?_ ?_
    | with_reducible refine Only.setCal (by decide) ?_

theorem Only.gmod {m₀ : Nat} {s₀ t₀ : State} {id h : Nat} {f : GCount → GCount} (hm₀ : 0x20 ||| m₀ = m₀)
    (h₀ : Only m₀ s₀ t₀) : Only m₀ s₀ (State.gmod t₀ id h f) :=
  h₀.step (Only.gmod0 t₀ _ _ _) hm₀

theorem Only.breach0 (s : State) (id h : Nat) (kind port value : Nat) (dest : Option Nat) : Only 0x10002B s
    (State.breach s id h kind port value dest) := by
  unfold State.breach
  try dsimp only
  repeat' first
    | with_reducible exact Only.refl _ _
    | with_reducible refine Only.ite ?_ ?_
    | with_reducible refine Only.bump (by decide) ?_
    | with_reducible refine Only.report (by decide) ?_
    | with_reducible refine Only.rset (by decide) ?_
    | with_reducible refine Only.raiseSev (by decide) ?_
    | with_reducible refine Only.gmod (by decide) ?_
    | split

theorem Only.breach {m₀ : Nat} {s₀ t₀ : State} {id h : Nat} {kind port value : Nat} {dest : Option Nat}
    (hm₀ : 0x10002B ||| m₀ = m₀) (h₀ : Only m₀ s₀ t₀) : Only m₀ s₀ (State.breach t₀ id h kind port value dest) :=
  h₀.step (Only.breach0 t₀ _ _ _ _ _ _) hm₀

theorem Only.lose0 (s : State) (fid egress cause : Nat) : Only 0x10002B s (State.lose s fid egress cause) := by
  unfold State.lose
  try dsimp only
  repeat' first
    | with_reducible exact Only.refl _ _
    | with_reducible refine Only.ite ?_ ?_
    | with_reducible refine Only.dropDeadline (by decide) ?_
    | with_reducible refine Only.breach (by decide) ?_
    | split

theorem Only.lose {m₀ : Nat} {s₀ t₀ : State} {fid egress cause : Nat} (hm₀ : 0x10002B ||| m₀ = m₀)
    (h₀ : Only m₀ s₀ t₀) : Only m₀ s₀ (State.lose t₀ fid egress cause) :=
  h₀.step (Only.lose0 t₀ _ _ _) hm₀

theorem Only.setRecords0 (s : State) (p : Nat) (l : List Nat) : Only 0x80 s (State.setRecords s p l) := by
  unfold State.setRecords
  try dsimp only
  repeat' first
    | with_reducible exact Only.refl _ _
    | with_reducible refine Only.setFr (by decide) ?_

theorem Only.setRecords {m₀ : Nat} {s₀ t₀ : State} {p : Nat} {l : List Nat} (hm₀ : 0x80 ||| m₀ = m₀)
    (h₀ : Only m₀ s₀ t₀) : Only m₀ s₀ (State.setRecords t₀ p l) :=
  h₀.step (Only.setRecords0 t₀ _ _) hm₀

theorem Only.tsqWrite0 (s : State) (g frameId : Nat) (port flags : Nat) (ns sec : Nat) : Only 0x9 s
    (State.tsqWrite s g frameId port flags ns sec) := by
  unfold State.tsqWrite
  try dsimp only
  repeat' first
    | with_reducible exact Only.refl _ _
    | with_reducible refine Only.ite ?_ ?_
    | with_reducible refine Only.rset (by decide) ?_
    | with_reducible refine Only.hostMem (by decide) ?_
    | with_reducible refine Only.signal (by decide) ?_

theorem Only.tsqWrite {m₀ : Nat} {s₀ t₀ : State} {g frameId : Nat} {port flags : Nat} {ns sec : Nat}
    (hm₀ : 0x9 ||| m₀ = m₀) (h₀ : Only m₀ s₀ t₀) : Only m₀ s₀ (State.tsqWrite t₀ g frameId port flags ns sec) :=
  h₀.step (Only.tsqWrite0 t₀ _ _ _ _ _ _) hm₀

theorem Only.tsqGap0 (s : State) (g : Nat) : Only 0x9 s (State.tsqGap s g) := by
  unfold State.tsqGap
  try dsimp only
  repeat' first
    | with_reducible exact Only.refl _ _
    | with_reducible refine Only.ite ?_ ?_
    | with_reducible refine Only.setHif (by decide) ?_
    | with_reducible refine Only.tsqWrite (by decide) ?_

theorem Only.tsqGap {m₀ : Nat} {s₀ t₀ : State} {g : Nat} (hm₀ : 0x9 ||| m₀ = m₀)
    (h₀ : Only m₀ s₀ t₀) : Only m₀ s₀ (State.tsqGap t₀ g) :=
  h₀.step (Only.tsqGap0 t₀ _) hm₀

theorem Only.tsqPut0 (s : State) (g frameId : Nat) (port flags : Nat) (ns sec : Nat) : Only 0xB s
    (State.tsqPut s g frameId port flags ns sec) := by
  unfold State.tsqPut
  try dsimp only
  repeat' first
    | with_reducible exact Only.refl _ _
    | with_reducible refine Only.ite ?_ ?_
    | with_reducible refine Only.bump (by decide) ?_
    | with_reducible refine Only.setHif (by decide) ?_
    | with_reducible refine Only.tsqWrite (by decide) ?_
    | with_reducible refine Only.tsqGap (by decide) ?_

theorem Only.tsqPut {m₀ : Nat} {s₀ t₀ : State} {g frameId : Nat} {port flags : Nat} {ns sec : Nat}
    (hm₀ : 0xB ||| m₀ = m₀) (h₀ : Only m₀ s₀ t₀) : Only m₀ s₀ (State.tsqPut t₀ g frameId port flags ns sec) :=
  h₀.step (Only.tsqPut0 t₀ _ _ _ _ _ _) hm₀

theorem Only.rxMod0 (s : State) (n : Nat) (f : Ring → Ring) : Only 0x8 s (State.rxMod s n f) := by
  unfold State.rxMod
  try dsimp only
  repeat' first
    | with_reducible exact Only.refl _ _
    | with_reducible refine Only.setHif (by decide) ?_

theorem Only.rxMod {m₀ : Nat} {s₀ t₀ : State} {n : Nat} {f : Ring → Ring} (hm₀ : 0x8 ||| m₀ = m₀)
    (h₀ : Only m₀ s₀ t₀) : Only m₀ s₀ (State.rxMod t₀ n f) :=
  h₀.step (Only.rxMod0 t₀ _ _) hm₀

theorem Only.emChange0 (s : State) (p : EmEntry → Bool) (f : EmEntry → EmEntry) : Only 0x40 s (State.emChange s p f) := by
  unfold State.emChange
  try dsimp only
  repeat' first
    | with_reducible exact Only.refl _ _
    | with_reducible refine Only.setFwd (by decide) ?_

theorem Only.emChange {m₀ : Nat} {s₀ t₀ : State} {p : EmEntry → Bool} {f : EmEntry → EmEntry} (hm₀ : 0x40 ||| m₀ = m₀)
    (h₀ : Only m₀ s₀ t₀) : Only m₀ s₀ (State.emChange t₀ p f) :=
  h₀.step (Only.emChange0 t₀ _ _) hm₀

theorem Only.emMod0 (s : State) (key : List Byte) (f : EmEntry → EmEntry) : Only 0x40 s (State.emMod s key f) := by
  unfold State.emMod
  try dsimp only
  repeat' first
    | with_reducible exact Only.refl _ _
    | with_reducible refine Only.emChange (by decide) ?_

theorem Only.emMod {m₀ : Nat} {s₀ t₀ : State} {key : List Byte} {f : EmEntry → EmEntry} (hm₀ : 0x40 ||| m₀ = m₀)
    (h₀ : Only m₀ s₀ t₀) : Only m₀ s₀ (State.emMod t₀ key f) :=
  h₀.step (Only.emMod0 t₀ _ _) hm₀

theorem Only.emHit0 (s : State) (key : List Byte) (serial : Nat) : Only 0x40 s (State.emHit s key serial) := by
  unfold State.emHit
  try dsimp only
  repeat' first
    | with_reducible exact Only.refl _ _
    | with_reducible refine Only.emChange (by decide) ?_

theorem Only.emHit {m₀ : Nat} {s₀ t₀ : State} {key : List Byte} {serial : Nat} (hm₀ : 0x40 ||| m₀ = m₀)
    (h₀ : Only m₀ s₀ t₀) : Only m₀ s₀ (State.emHit t₀ key serial) :=
  h₀.step (Only.emHit0 t₀ _ _) hm₀

theorem Only.margin0 (s : State) (id h : Nat) : Only 0x2B s (State.margin s id h) := by
  unfold State.margin
  try dsimp only
  repeat' first
    | with_reducible exact Only.refl _ _
    | with_reducible refine Only.ite ?_ ?_
    | with_reducible refine Only.bump (by decide) ?_
    | with_reducible refine Only.raiseLimited (by decide) ?_
    | with_reducible refine Only.gmod (by decide) ?_

theorem Only.margin {m₀ : Nat} {s₀ t₀ : State} {id h : Nat} (hm₀ : 0x2B ||| m₀ = m₀)
    (h₀ : Only m₀ s₀ t₀) : Only m₀ s₀ (State.margin t₀ id h) :=
  h₀.step (Only.margin0 t₀ _ _) hm₀

theorem Only.depart0 (s : State) (fid egress : Nat) : Only 0x10002B s (State.depart s fid egress) := by
  unfold State.depart
  try dsimp only
  repeat' first
    | with_reducible exact Only.refl _ _
    | with_reducible refine Only.ite ?_ ?_
    | with_reducible refine Only.margin (by decide) ?_
    | with_reducible refine Only.dropDeadline (by decide) ?_
    | with_reducible refine Only.breach (by decide) ?_
    | with_reducible refine Only.gmod (by decide) ?_
    | split

theorem Only.depart {m₀ : Nat} {s₀ t₀ : State} {fid egress : Nat} (hm₀ : 0x10002B ||| m₀ = m₀)
    (h₀ : Only m₀ s₀ t₀) : Only m₀ s₀ (State.depart t₀ fid egress) :=
  h₀.step (Only.depart0 t₀ _ _) hm₀

theorem Only.rxWrite0 (s : State) (n p : Nat) (b : List Byte) : Only 0x8 s (State.rxWrite s n p b) := by
  unfold State.rxWrite
  try dsimp only
  repeat' first
    | with_reducible exact Only.refl _ _
    | with_reducible refine Only.hostMem (by decide) ?_

theorem Only.rxWrite {m₀ : Nat} {s₀ t₀ : State} {n p : Nat} {b : List Byte} (hm₀ : 0x8 ||| m₀ = m₀)
    (h₀ : Only m₀ s₀ t₀) : Only m₀ s₀ (State.rxWrite t₀ n p b) :=
  h₀.step (Only.rxWrite0 t₀ _ _ _) hm₀

theorem Only.rxHeader0 (s : State) (n p : Nat) (len flags : Nat) (source time : Nat) : Only 0x8 s
    (State.rxHeader s n p len flags source time) := by
  unfold State.rxHeader
  try dsimp only
  repeat' first
    | with_reducible exact Only.refl _ _
    | with_reducible refine Only.rxWrite (by decide) ?_

theorem Only.rxHeader {m₀ : Nat} {s₀ t₀ : State} {n p : Nat} {len flags : Nat} {source time : Nat}
    (hm₀ : 0x8 ||| m₀ = m₀) (h₀ : Only m₀ s₀ t₀) : Only m₀ s₀ (State.rxHeader t₀ n p len flags source time) :=
  h₀.step (Only.rxHeader0 t₀ _ _ _ _ _ _) hm₀

theorem Only.rxFinish0 (s : State) (n k : Nat) : Only 0x9 s (State.rxFinish s n k) := by
  unfold State.rxFinish
  try dsimp only
  repeat' first
    | with_reducible exact Only.refl _ _
    | with_reducible refine Only.ite ?_ ?_
    | with_reducible refine Only.rset (by decide) ?_
    | with_reducible refine Only.signal (by decide) ?_

theorem Only.rxFinish {m₀ : Nat} {s₀ t₀ : State} {n k : Nat} (hm₀ : 0x9 ||| m₀ = m₀)
    (h₀ : Only m₀ s₀ t₀) : Only m₀ s₀ (State.rxFinish t₀ n k) :=
  h₀.step (Only.rxFinish0 t₀ _ _) hm₀

theorem Only.pathLost0 (s : State) (fid egress : Nat) : Only 0x2B s (State.pathLost s fid egress) := by
  unfold State.pathLost
  try dsimp only
  repeat' first
    | with_reducible exact Only.refl _ _
    | with_reducible refine Only.ite ?_ ?_
    | with_reducible refine Only.bump (by decide) ?_
    | with_reducible refine Only.dropDeadline (by decide) ?_
    | with_reducible refine Only.raise (by decide) ?_
    | split

theorem Only.pathLost {m₀ : Nat} {s₀ t₀ : State} {fid egress : Nat} (hm₀ : 0x2B ||| m₀ = m₀)
    (h₀ : Only m₀ s₀ t₀) : Only m₀ s₀ (State.pathLost t₀ fid egress) :=
  h₀.step (Only.pathLost0 t₀ _ _) hm₀

theorem Only.moveEntry0 (s : State) (src : EmPlace) (dst : EmPlace) : Only 0x4B s (State.moveEntry s src dst) := by
  unfold State.moveEntry
  try dsimp only
  repeat' first
    | with_reducible exact Only.refl _ _
    | with_reducible refine Only.bump (by decide) ?_
    | with_reducible refine Only.setFwd (by decide) ?_

theorem Only.moveEntry {m₀ : Nat} {s₀ t₀ : State} {src : EmPlace} {dst : EmPlace} (hm₀ : 0x4B ||| m₀ = m₀)
    (h₀ : Only m₀ s₀ t₀) : Only m₀ s₀ (State.moveEntry t₀ src dst) :=
  h₀.step (Only.moveEntry0 t₀ _ _) hm₀

theorem Only.pullBack0 (x0 : Nat) (st : State) : Only 0x4B st (State.pullBack x0 st) := by
  induction x0 generalizing st with
  | zero => unfold State.pullBack; exact Only.refl _ _
  | succ n ih =>
    unfold State.pullBack
    try dsimp only
    repeat' first
      | with_reducible refine Only.trans ?_ (ih _)
      | with_reducible exact Only.refl _ _
      | with_reducible refine Only.moveEntry (by decide) ?_
      | split

theorem Only.pullBack {m₀ : Nat} {s₀ t₀ : State} {x0 : Nat} (hm₀ : 0x4B ||| m₀ = m₀)
    (h₀ : Only m₀ s₀ t₀) : Only m₀ s₀ (State.pullBack x0 t₀) :=
  h₀.step (Only.pullBack0 _ t₀) hm₀

theorem Only.emFreed0 (s : State) : Only 0x4B s (State.emFreed s) := by
  unfold State.emFreed
  try dsimp only
  repeat' first
    | with_reducible exact Only.refl _ _
    | with_reducible refine Only.pullBack (by decide) ?_

theorem Only.emFreed {m₀ : Nat} {s₀ t₀ : State}  (hm₀ : 0x4B ||| m₀ = m₀)
    (h₀ : Only m₀ s₀ t₀) : Only m₀ s₀ (State.emFreed t₀) :=
  h₀.step (Only.emFreed0 t₀) hm₀

theorem Only.advanceEpoch0 (s : State) : Only 0x404B s (State.advanceEpoch s) := by
  unfold State.advanceEpoch
  try dsimp only
  repeat' first
    | with_reducible exact Only.refl _ _
    | with_reducible refine Only.rsetF (by decide) ?_
    | with_reducible refine Only.setFwd (by decide) ?_
    | with_reducible refine Only.setSec (by decide) ?_
    | with_reducible refine Only.emFreed (by decide) ?_

theorem Only.advanceEpoch {m₀ : Nat} {s₀ t₀ : State}  (hm₀ : 0x404B ||| m₀ = m₀)
    (h₀ : Only m₀ s₀ t₀) : Only m₀ s₀ (State.advanceEpoch t₀) :=
  h₀.step (Only.advanceEpoch0 t₀) hm₀

theorem Only.auditBegin0 (s : State) : Only 0x200 s (State.auditBegin s) := by
  unfold State.auditBegin
  try dsimp only
  repeat' first
    | with_reducible exact Only.refl _ _
    | with_reducible refine Only.setTrf (by decide) ?_

theorem Only.auditBegin {m₀ : Nat} {s₀ t₀ : State}  (hm₀ : 0x200 ||| m₀ = m₀)
    (h₀ : Only m₀ s₀ t₀) : Only m₀ s₀ (State.auditBegin t₀) :=
  h₀.step (Only.auditBegin0 t₀) hm₀

theorem Only.doorbell0 (s : State) (host q : Nat) : Only 0x1B s (State.doorbell s host q) := by
  unfold State.doorbell
  try dsimp only
  repeat' first
    | with_reducible exact Only.refl _ _
    | with_reducible refine Only.ite ?_ ?_
    | with_reducible refine Only.setMbx (by decide) ?_
    | with_reducible refine Only.raise (by decide) ?_

theorem Only.doorbell {m₀ : Nat} {s₀ t₀ : State} {host q : Nat} (hm₀ : 0x1B ||| m₀ = m₀)
    (h₀ : Only m₀ s₀ t₀) : Only m₀ s₀ (State.doorbell t₀ host q) :=
  h₀.step (Only.doorbell0 t₀ _ _) hm₀

theorem Only.schedApply0 (s : State) : Only 0x100 s (State.schedApply s) := by
  unfold State.schedApply
  try dsimp only
  repeat' first
    | with_reducible exact Only.refl _ _
    | with_reducible refine Only.ite ?_ ?_
    | with_reducible refine Only.setBuf (by decide) ?_

theorem Only.schedApply {m₀ : Nat} {s₀ t₀ : State}  (hm₀ : 0x100 ||| m₀ = m₀)
    (h₀ : Only m₀ s₀ t₀) : Only m₀ s₀ (State.schedApply t₀) :=
  h₀.step (Only.schedApply0 t₀) hm₀

theorem Only.rxGap0 (s : State) (n : Nat) : Only 0x9 s (State.rxGap s n) := by
  unfold State.rxGap
  try dsimp only
  repeat' first
    | with_reducible exact Only.refl _ _
    | with_reducible refine Only.ite ?_ ?_
    | with_reducible refine Only.rxHeader (by decide) ?_
    | with_reducible refine Only.rxMod (by decide) ?_
    | with_reducible refine Only.rxFinish (by decide) ?_

theorem Only.rxGap {m₀ : Nat} {s₀ t₀ : State} {n : Nat} (hm₀ : 0x9 ||| m₀ = m₀)
    (h₀ : Only m₀ s₀ t₀) : Only m₀ s₀ (State.rxGap t₀ n) :=
  h₀.step (Only.rxGap0 t₀ _) hm₀

theorem Only.dmaBack0 (s : State) : Only 0xB s (State.dmaBack s) := by
  unfold State.dmaBack
  try dsimp only
  repeat' first
    | with_reducible exact Only.refl _ _
    | with_reducible assumption
    | with_reducible refine Only.ite ?_ ?_
    | with_reducible refine Only.hostFlush (by decide) ?_
    | with_reducible refine Only.evqGap (by decide) ?_
    | with_reducible refine Only.rxGap (by decide) ?_
    | with_reducible refine Only.tsqGap (by decide) ?_
    | with_reducible refine Only.foldl (fun _ _ _ => ?_) ?_

theorem Only.dmaBack {m₀ : Nat} {s₀ t₀ : State}  (hm₀ : 0xB ||| m₀ = m₀)
    (h₀ : Only m₀ s₀ t₀) : Only m₀ s₀ (State.dmaBack t₀) :=
  h₀.step (Only.dmaBack0 t₀) hm₀

theorem Only.freshnessSet0 (s : State) : Only 0x4000 s (State.freshnessSet s) := by
  unfold State.freshnessSet
  try dsimp only
  repeat' first
    | with_reducible exact Only.refl _ _
    | with_reducible refine Only.setSec (by decide) ?_

theorem Only.freshnessSet {m₀ : Nat} {s₀ t₀ : State}  (hm₀ : 0x4000 ||| m₀ = m₀)
    (h₀ : Only m₀ s₀ t₀) : Only m₀ s₀ (State.freshnessSet t₀) :=
  h₀.step (Only.freshnessSet0 t₀) hm₀

theorem Only.ovfApply0 (s : State) : Only 0x100 s (State.ovfApply s) := by
  unfold State.ovfApply
  try dsimp only
  repeat' first
    | with_reducible exact Only.refl _ _
    | with_reducible refine Only.ite ?_ ?_
    | with_reducible refine Only.setBuf (by decide) ?_

theorem Only.ovfApply {m₀ : Nat} {s₀ t₀ : State}  (hm₀ : 0x100 ||| m₀ = m₀)
    (h₀ : Only m₀ s₀ t₀) : Only m₀ s₀ (State.ovfApply t₀) :=
  h₀.step (Only.ovfApply0 t₀) hm₀

theorem Only.snapshot0 (s : State) : Only 0x1 s (State.snapshot s) := by
  unfold State.snapshot
  try dsimp only
  repeat' first
    | with_reducible exact Only.refl _ _
    | with_reducible assumption
    | with_reducible refine Only.rset64 (by decide) ?_
    | with_reducible refine Only.rset (by decide) ?_
    | with_reducible refine Only.foldl (fun _ _ _ => ?_) ?_

theorem Only.snapshot {m₀ : Nat} {s₀ t₀ : State}  (hm₀ : 0x1 ||| m₀ = m₀)
    (h₀ : Only m₀ s₀ t₀) : Only m₀ s₀ (State.snapshot t₀) :=
  h₀.step (Only.snapshot0 t₀) hm₀

theorem Only.sourceLost0 (s : State) (i : Nat) : Only 0x1000B s (State.sourceLost s i) := by
  unfold State.sourceLost
  try dsimp only
  repeat' first
    | with_reducible exact Only.refl _ _
    | with_reducible refine Only.ite ?_ ?_
    | with_reducible refine Only.raise (by decide) ?_
    | with_reducible refine Only.putDom (by decide) ?_

theorem Only.sourceLost {m₀ : Nat} {s₀ t₀ : State} {i : Nat} (hm₀ : 0x1000B ||| m₀ = m₀)
    (h₀ : Only m₀ s₀ t₀) : Only m₀ s₀ (State.sourceLost t₀ i) :=
  h₀.step (Only.sourceLost0 t₀ _) hm₀

theorem Only.holdover0 (s : State) (i : Nat) : Only 0x1000B s (State.holdover s i) := by
  unfold State.holdover
  try dsimp only
  repeat' first
    | with_reducible exact Only.refl _ _
    | with_reducible refine Only.ite ?_ ?_
    | with_reducible refine Only.bump (by decide) ?_
    | with_reducible refine Only.sourceLost (by decide) ?_

theorem Only.holdover {m₀ : Nat} {s₀ t₀ : State} {i : Nat} (hm₀ : 0x1000B ||| m₀ = m₀)
    (h₀ : Only m₀ s₀ t₀) : Only m₀ s₀ (State.holdover t₀ i) :=
  h₀.step (Only.holdover0 t₀ _) hm₀

theorem Only.gptpStop0 (s : State) : Only 0x1000B s (State.gptpStop s) := by
  unfold State.gptpStop
  try dsimp only
  repeat' first
    | with_reducible exact Only.refl _ _
    | with_reducible assumption
    | with_reducible refine Only.ite ?_ ?_
    | with_reducible refine Only.holdover (by decide) ?_
    | with_reducible refine Only.foldl (fun _ _ _ => ?_) ?_

theorem Only.gptpStop {m₀ : Nat} {s₀ t₀ : State}  (hm₀ : 0x1000B ||| m₀ = m₀)
    (h₀ : Only m₀ s₀ t₀) : Only m₀ s₀ (State.gptpStop t₀) :=
  h₀.step (Only.gptpStop0 t₀) hm₀

theorem Only.queueDisable0 (s : State) (host q : Nat) : Only 0x20001B s (State.queueDisable s host q) := by
  unfold State.queueDisable
  try dsimp only
  repeat' first
    | with_reducible exact Only.refl _ _
    | with_reducible refine Only.setMbx (by decide) ?_
    | with_reducible refine Only.postAll (by decide) ?_

theorem Only.queueDisable {m₀ : Nat} {s₀ t₀ : State} {host q : Nat} (hm₀ : 0x20001B ||| m₀ = m₀)
    (h₀ : Only m₀ s₀ t₀) : Only m₀ s₀ (State.queueDisable t₀ host q) :=
  h₀.step (Only.queueDisable0 t₀ _ _) hm₀

theorem Only.queueEnable0 (s : State) (host q : Nat) : Only 0x11 s (State.queueEnable s host q) := by
  unfold State.queueEnable
  try dsimp only
  repeat' first
    | with_reducible exact Only.refl _ _
    | with_reducible refine Only.setMbx (by decide) ?_
    | with_reducible refine Only.rset (by decide) ?_

theorem Only.queueEnable {m₀ : Nat} {s₀ t₀ : State} {host q : Nat} (hm₀ : 0x11 ||| m₀ = m₀)
    (h₀ : Only m₀ s₀ t₀) : Only m₀ s₀ (State.queueEnable t₀ host q) :=
  h₀.step (Only.queueEnable0 t₀ _ _) hm₀

theorem Only.exhaustEdge0 (s : State) (p : Nat) (before : Bool) : Only 0x8B s (State.exhaustEdge s p before) := by
  unfold State.exhaustEdge
  try dsimp only
  repeat' first
    | with_reducible exact Only.refl _ _
    | with_reducible refine Only.ite ?_ ?_
    | with_reducible refine Only.raiseLimited (by decide) ?_
    | with_reducible refine Only.setFr (by decide) ?_
    | split

theorem Only.exhaustEdge {m₀ : Nat} {s₀ t₀ : State} {p : Nat} {before : Bool} (hm₀ : 0x8B ||| m₀ = m₀)
    (h₀ : Only m₀ s₀ t₀) : Only m₀ s₀ (State.exhaustEdge t₀ p before) :=
  h₀.step (Only.exhaustEdge0 t₀ _ _) hm₀

theorem Only.reserveChanged0 (s : State) (old : Word) : Only 0x8B s (State.reserveChanged s old) := by
  unfold State.reserveChanged
  try dsimp only
  repeat' first
    | with_reducible exact Only.refl _ _
    | with_reducible assumption
    | with_reducible refine Only.exhaustEdge (by decide) ?_
    | with_reducible refine Only.foldl (fun _ _ _ => ?_) ?_

theorem Only.reserveChanged {m₀ : Nat} {s₀ t₀ : State} {old : Word} (hm₀ : 0x8B ||| m₀ = m₀)
    (h₀ : Only m₀ s₀ t₀) : Only m₀ s₀ (State.reserveChanged t₀ old) :=
  h₀.step (Only.reserveChanged0 t₀ _) hm₀

theorem Only.afterWrite0 (s : State) (off : Nat) (old : Word) (new : Word) (v : Word) : Only 0x21439B s
    (State.afterWrite s off old new v) := by
  unfold State.afterWrite
  try dsimp only
  repeat' first
    | with_reducible exact Only.refl _ _
    | with_reducible refine Only.ite ?_ ?_
    | with_reducible refine Only.auditBegin (by decide) ?_
    | with_reducible refine Only.doorbell (by decide) ?_
    | with_reducible refine Only.schedApply (by decide) ?_
    | with_reducible refine Only.dmaBack (by decide) ?_
    | with_reducible refine Only.freshnessSet (by decide) ?_
    | with_reducible refine Only.ovfApply (by decide) ?_
    | with_reducible refine Only.evqGap (by decide) ?_
    | with_reducible refine Only.rset (by decide) ?_
    | with_reducible refine Only.rxGap (by decide) ?_
    | with_reducible refine Only.raise (by decide) ?_
    | with_reducible refine Only.snapshot (by decide) ?_
    | with_reducible refine Only.gptpStop (by decide) ?_
    | with_reducible refine Only.heldDrop (by decide) ?_
    | with_reducible refine Only.queueDisable (by decide) ?_
    | with_reducible refine Only.queueEnable (by decide) ?_
    | with_reducible refine Only.tsqGap (by decide) ?_
    | with_reducible refine Only.reserveChanged (by decide) ?_
    | split

theorem Only.afterWrite {m₀ : Nat} {s₀ t₀ : State} {off : Nat} {old : Word} {new : Word} {v : Word}
    (hm₀ : 0x21439B ||| m₀ = m₀) (h₀ : Only m₀ s₀ t₀) : Only m₀ s₀ (State.afterWrite t₀ off old new v) :=
  h₀.step (Only.afterWrite0 t₀ _ _ _ _) hm₀

theorem Only.ageSet0 (s : State) (v : Nat × Nat × Nat × Nat) : Only 0x40 s (State.ageSet s v) := by
  unfold State.ageSet
  try dsimp only
  repeat' first
    | with_reducible exact Only.refl _ _
    | with_reducible refine Only.setFwd (by decide) ?_

theorem Only.ageSet {m₀ : Nat} {s₀ t₀ : State} {v : Nat × Nat × Nat × Nat} (hm₀ : 0x40 ||| m₀ = m₀)
    (h₀ : Only m₀ s₀ t₀) : Only m₀ s₀ (State.ageSet t₀ v) :=
  h₀.step (Only.ageSet0 t₀ _) hm₀

theorem Only.emKill0 (s : State) (e : Nat) (key : List Byte) : Only 0x40 s (State.emKill s e key) := by
  unfold State.emKill
  try dsimp only
  repeat' first
    | with_reducible exact Only.refl _ _
    | with_reducible refine Only.setFwd (by decide) ?_

theorem Only.emKill {m₀ : Nat} {s₀ t₀ : State} {e : Nat} {key : List Byte} (hm₀ : 0x40 ||| m₀ = m₀)
    (h₀ : Only m₀ s₀ t₀) : Only m₀ s₀ (State.emKill t₀ e key) :=
  h₀.step (Only.emKill0 t₀ _ _) hm₀

theorem Only.lpmKill0 (s : State) (e : Nat) (p : LpmEntry → Bool) : Only 0x40 s (State.lpmKill s e p) := by
  unfold State.lpmKill
  try dsimp only
  repeat' first
    | with_reducible exact Only.refl _ _
    | with_reducible refine Only.setFwd (by decide) ?_

theorem Only.lpmKill {m₀ : Nat} {s₀ t₀ : State} {e : Nat} {p : LpmEntry → Bool} (hm₀ : 0x40 ||| m₀ = m₀)
    (h₀ : Only m₀ s₀ t₀) : Only m₀ s₀ (State.lpmKill t₀ e p) :=
  h₀.step (Only.lpmKill0 t₀ _ _) hm₀

theorem Only.invalidateOld0 (s : State) : Only 0x10044 s (State.invalidateOld s) := by
  unfold State.invalidateOld
  try dsimp only
  repeat' first
    | with_reducible exact Only.refl _ _
    | with_reducible refine Only.ite ?_ ?_
    | with_reducible refine Only.setFwd (by decide) ?_
    | with_reducible refine Only.waitUntil (by decide) ?_

theorem Only.invalidateOld {m₀ : Nat} {s₀ t₀ : State}  (hm₀ : 0x10044 ||| m₀ = m₀)
    (h₀ : Only m₀ s₀ t₀) : Only m₀ s₀ (State.invalidateOld t₀) :=
  h₀.step (Only.invalidateOld0 t₀) hm₀

theorem Only.applyPath0 (s : State) (x1 : List (Nat × Nat)) (x2 : EmPlace) : Only 0x1004F s (State.applyPath s x1 x2) := by
  induction x1 generalizing x2 with
  | nil => unfold State.applyPath; exact Only.refl _ _
  | cons a r ih =>
    unfold State.applyPath
    try dsimp only
    repeat' first
      | with_reducible exact ih _
      | with_reducible exact Only.refl _ _
      | with_reducible refine Only.invalidateOld (by decide) ?_
      | with_reducible refine Only.moveEntry (by decide) ?_
      | split

theorem Only.applyPath {m₀ : Nat} {s₀ t₀ : State} {x1 : List (Nat × Nat)} {x2 : EmPlace} (hm₀ : 0x1004F ||| m₀ = m₀)
    (h₀ : Only m₀ s₀ t₀) : Only m₀ s₀ (State.applyPath t₀ x1 x2) :=
  h₀.step (Only.applyPath0 t₀ _ _) hm₀

theorem Only.emPlaceFor0 (s : State) (key : List Byte) {u₀ : State} {v₀} (e₀ : (State.emPlaceFor s key) = some
    (u₀, v₀)) : Only 0x1004F s u₀ := by
  unfold State.emPlaceFor at e₀
  split at e₀
  rename_i h0 h1 _
  split at e₀
  · cases e₀; exact Only.refl _ _
  · split at e₀
    · cases e₀; exact Only.refl _ _
    · split at e₀
      · cases e₀; exact Only.applyPath0 ..
      · rw [Option.map_eq_some_iff] at e₀
        obtain ⟨i, _, e⟩ := e₀
        cases e; exact Only.refl _ _

theorem Only.emPlaceFor {m₀ : Nat} {s₀ t₀ u₀ : State} {v₀} {key : List Byte} (hm₀ : 0x1004F ||| m₀ = m₀) (e₀ :
    (State.emPlaceFor t₀ key) = some (u₀, v₀)) (h₀ : Only m₀ s₀ t₀) : Only m₀ s₀ u₀ :=
  h₀.step (Only.emPlaceFor0 t₀ _ e₀) hm₀

theorem Only.emInsert0 (s : State) (key data : List Byte) (range : Option (Nat × Option Nat)) {u₀ : State} (e₀ :
    (State.emInsert s key data range) = some u₀) : Only 0x1004F s u₀ := by
  unfold State.emInsert at e₀
  rw [Option.map_eq_some_iff] at e₀
  obtain ⟨⟨t, p⟩, e, k⟩ := e₀
  cases k
  exact Only.setFwd (by decide) (Only.emPlaceFor (by decide) e (Only.refl _ _))

theorem Only.emInsert {m₀ : Nat} {s₀ t₀ u₀ : State} {key data : List Byte} {range : Option (Nat × Option Nat)}
    (hm₀ : 0x1004F ||| m₀ = m₀) (e₀ : (State.emInsert t₀ key data range) = some u₀) (h₀ : Only m₀ s₀ t₀) : Only m₀ s₀ u₀ :=
  h₀.step (Only.emInsert0 t₀ _ _ _ e₀) hm₀

theorem Only.lpmInsert0 (s : State) (x : LpmEntry) : Only 0x4B s (State.lpmInsert s x) := by
  unfold State.lpmInsert
  try dsimp only
  repeat' first
    | with_reducible exact Only.refl _ _
    | with_reducible assumption
    | with_reducible refine Only.bump (by decide) ?_
    | with_reducible refine Only.setFwd (by decide) ?_
    | with_reducible refine Only.foldl (fun _ _ _ => ?_) ?_

theorem Only.lpmInsert {m₀ : Nat} {s₀ t₀ : State} {x : LpmEntry} (hm₀ : 0x4B ||| m₀ = m₀)
    (h₀ : Only m₀ s₀ t₀) : Only m₀ s₀ (State.lpmInsert t₀ x) :=
  h₀.step (Only.lpmInsert0 t₀ _) hm₀

theorem Only.applyOp0 (s : State) (op : TxnOp) : Only 0x1004F s (State.applyOp s op).2 := by
  unfold State.applyOp
  try dsimp only
  repeat' first
    | with_reducible exact Only.refl _ _
    | with_reducible refine Only.emKill (by decide) ?_
    | with_reducible refine Only.lpmKill (by decide) ?_
    | with_reducible refine Only.setFwd (by decide) ?_
    | with_reducible refine Only.emInsert (by decide) (by with_reducible assumption) ?_
    | with_reducible refine Only.lpmInsert (by decide) ?_
    | with_reducible refine Only.emFreed (by decide) ?_
    | split

theorem Only.applyOp {m₀ : Nat} {s₀ t₀ : State} {op : TxnOp} (hm₀ : 0x1004F ||| m₀ = m₀)
    (h₀ : Only m₀ s₀ t₀) : Only m₀ s₀ (State.applyOp t₀ op).2 :=
  h₀.step (Only.applyOp0 t₀ _) hm₀

theorem Only.applyOps {m : Nat} {s t u : State} {i : Nat} {l : List TxnOp} (hm : 0x1004F ||| m = m)
    (e : State.applyOps t i l = .inr u) (h : Only m s t) : Only m s u := by
  induction l generalizing i t with
  | nil => unfold State.applyOps at e; cases e; exact h
  | cons a r ih =>
    unfold State.applyOps at e
    split at e
    · rename_i e'; exact ih e (Only.snd e' (Only.applyOp (by rw [← hm, ← Nat.or_assoc]; congr 1) h))
    · cases e

theorem Only.flashPut0 (s : State) (kind slot i : Nat) (b : List Byte) : Only 0x200000 s
    (State.flashPut s kind slot i b) := by
  unfold State.flashPut
  try dsimp only
  repeat' first
    | with_reducible exact Only.refl _ _
    | with_reducible refine Only.setBoot (by decide) ?_

theorem Only.flashPut {m₀ : Nat} {s₀ t₀ : State} {kind slot i : Nat} {b : List Byte} (hm₀ : 0x200000 ||| m₀ = m₀)
    (h₀ : Only m₀ s₀ t₀) : Only m₀ s₀ (State.flashPut t₀ kind slot i b) :=
  h₀.step (Only.flashPut0 t₀ _ _ _ _) hm₀

theorem Only.updAbandon0 (s : State) : Only 0x200000 s (State.updAbandon s) := by
  unfold State.updAbandon
  try dsimp only
  repeat' first
    | with_reducible exact Only.refl _ _
    | with_reducible refine Only.flashPut (by decide) ?_
    | with_reducible refine Only.setBoot (by decide) ?_
    | split

theorem Only.updAbandon {m₀ : Nat} {s₀ t₀ : State}  (hm₀ : 0x200000 ||| m₀ = m₀)
    (h₀ : Only m₀ s₀ t₀) : Only m₀ s₀ (State.updAbandon t₀) :=
  h₀.step (Only.updAbandon0 t₀) hm₀

theorem Only.bumpTimes0 (s : State) (off n : Nat) : Only 0xB s (State.bumpTimes s off n) := by
  unfold State.bumpTimes
  try dsimp only
  repeat' first
    | with_reducible exact Only.refl _ _
    | with_reducible assumption
    | with_reducible refine Only.bump (by decide) ?_
    | with_reducible refine Only.foldl (fun _ _ _ => ?_) ?_

theorem Only.bumpTimes {m₀ : Nat} {s₀ t₀ : State} {off n : Nat} (hm₀ : 0xB ||| m₀ = m₀)
    (h₀ : Only m₀ s₀ t₀) : Only m₀ s₀ (State.bumpTimes t₀ off n) :=
  h₀.step (Only.bumpTimes0 t₀ _ _) hm₀

theorem Only.readSigners0 (s : State) : Only 0x200000 s (State.readSigners s) := by
  unfold State.readSigners
  try dsimp only
  repeat' first
    | with_reducible exact Only.refl _ _
    | with_reducible refine Only.setBoot (by decide) ?_

theorem Only.readSigners {m₀ : Nat} {s₀ t₀ : State}  (hm₀ : 0x200000 ||| m₀ = m₀)
    (h₀ : Only m₀ s₀ t₀) : Only m₀ s₀ (State.readSigners t₀) :=
  h₀.step (Only.readSigners0 t₀) hm₀

theorem Only.learnFull0 (s : State) : Only 0x4B s (State.learnFull s) := by
  unfold State.learnFull
  try dsimp only
  repeat' first
    | with_reducible exact Only.refl _ _
    | with_reducible refine Only.bump (by decide) ?_
    | with_reducible refine Only.setFwd (by decide) ?_
    | with_reducible refine Only.raiseLimited (by decide) ?_

theorem Only.learnFull {m₀ : Nat} {s₀ t₀ : State}  (hm₀ : 0x4B ||| m₀ = m₀)
    (h₀ : Only m₀ s₀ t₀) : Only m₀ s₀ (State.learnFull t₀) :=
  h₀.step (Only.learnFull0 t₀) hm₀

theorem Only.connCommit0 (s : State) (key data : List Byte) : Only 0x1004F s (State.connCommit s key data) := by
  unfold State.connCommit
  try dsimp only
  repeat' first
    | with_reducible exact Only.refl _ _
    | with_reducible refine Only.ite ?_ ?_
    | with_reducible refine Only.emInsert (by decide) (by with_reducible assumption) ?_
    | with_reducible refine Only.learnFull (by decide) ?_
    | split

theorem Only.connCommit {m₀ : Nat} {s₀ t₀ : State} {key data : List Byte} (hm₀ : 0x1004F ||| m₀ = m₀)
    (h₀ : Only m₀ s₀ t₀) : Only m₀ s₀ (State.connCommit t₀ key data) :=
  h₀.step (Only.connCommit0 t₀ _ _) hm₀

theorem Only.discardWord0 (s : State) (host n : Nat) : Only 0x8 s (State.discardWord s host n) := by
  unfold State.discardWord
  try dsimp only
  repeat' first
    | with_reducible exact Only.refl _ _
    | with_reducible refine Only.setHif (by decide) ?_

theorem Only.discardWord {m₀ : Nat} {s₀ t₀ : State} {host n : Nat} (hm₀ : 0x8 ||| m₀ = m₀)
    (h₀ : Only m₀ s₀ t₀) : Only m₀ s₀ (State.discardWord t₀ host n) :=
  h₀.step (Only.discardWord0 t₀ _ _) hm₀

theorem Only.emRemove0 (s : State) (gone : EmEntry → Bool) : Only 0x4B s (State.emRemove s gone) := by
  unfold State.emRemove
  try dsimp only
  repeat' first
    | with_reducible exact Only.refl _ _
    | with_reducible refine Only.ite ?_ ?_
    | with_reducible refine Only.setFwd (by decide) ?_
    | with_reducible refine Only.emFreed (by decide) ?_

theorem Only.emRemove {m₀ : Nat} {s₀ t₀ : State} {gone : EmEntry → Bool} (hm₀ : 0x4B ||| m₀ = m₀)
    (h₀ : Only m₀ s₀ t₀) : Only m₀ s₀ (State.emRemove t₀ gone) :=
  h₀.step (Only.emRemove0 t₀ _) hm₀

theorem Only.doAgeingScan0 (s : State) : Only 0x1004F s (State.doAgeingScan s) := by
  unfold State.doAgeingScan
  try dsimp only
  repeat' first
    | with_reducible exact Only.refl _ _
    | with_reducible refine Only.ite ?_ ?_
    | with_reducible refine Only.bumpTimes (by decide) ?_
    | with_reducible refine Only.ageSet (by decide) ?_
    | with_reducible refine Only.setFwd (by decide) ?_
    | with_reducible refine Only.waitUntil (by decide) ?_
    | with_reducible refine Only.emChange (by decide) ?_
    | with_reducible refine Only.emRemove (by decide) ?_
    | split

theorem Only.doAgeingScan {m₀ : Nat} {s₀ t₀ : State}  (hm₀ : 0x1004F ||| m₀ = m₀)
    (h₀ : Only m₀ s₀ t₀) : Only m₀ s₀ (State.doAgeingScan t₀) :=
  h₀.step (Only.doAgeingScan0 t₀) hm₀

theorem Only.slotWrite0 (s : State) (addr : Nat) (b : List Byte) : Only 0x12 s (State.slotWrite s addr b) := by
  unfold State.slotWrite
  try dsimp only
  repeat' first
    | with_reducible exact Only.refl _ _
    | with_reducible refine Only.setMbx (by decide) ?_
    | with_reducible refine Only.mwrite (by decide) ?_

theorem Only.slotWrite {m₀ : Nat} {s₀ t₀ : State} {addr : Nat} {b : List Byte} (hm₀ : 0x12 ||| m₀ = m₀)
    (h₀ : Only m₀ s₀ t₀) : Only m₀ s₀ (State.slotWrite t₀ addr b) :=
  h₀.step (Only.slotWrite0 t₀ _ _) hm₀

theorem Only.pwfFail0 (s : State) (host tag addr : Nat) (data : Word) (timeUs cause : Nat) : Only 0xB s
    (State.pwfFail s host tag addr data timeUs cause) := by
  unfold State.pwfFail
  try dsimp only
  repeat' first
    | with_reducible exact Only.refl _ _
    | with_reducible refine Only.ite ?_ ?_
    | with_reducible refine Only.bump (by decide) ?_
    | with_reducible refine Only.rset (by decide) ?_
    | with_reducible refine Only.raise (by decide) ?_

theorem Only.pwfFail {m₀ : Nat} {s₀ t₀ : State} {host tag addr : Nat} {data : Word} {timeUs cause : Nat}
    (hm₀ : 0xB ||| m₀ = m₀) (h₀ : Only m₀ s₀ t₀) : Only m₀ s₀ (State.pwfFail t₀ host tag addr data timeUs cause) :=
  h₀.step (Only.pwfFail0 t₀ _ _ _ _ _ _) hm₀

theorem Only.guardDrop0 (s : State) (off : Nat) : Only 0x8 s (State.guardDrop s off) := by
  unfold State.guardDrop
  try dsimp only
  repeat' first
    | with_reducible exact Only.refl _ _
    | with_reducible refine Only.setHif (by decide) ?_

theorem Only.guardDrop {m₀ : Nat} {s₀ t₀ : State} {off : Nat} (hm₀ : 0x8 ||| m₀ = m₀)
    (h₀ : Only m₀ s₀ t₀) : Only m₀ s₀ (State.guardDrop t₀ off) :=
  h₀.step (Only.guardDrop0 t₀ _) hm₀

theorem Only.guardRefuse0 (s : State) (g : GuardPair) (timeUs : Nat) : Only 0xB s (State.guardRefuse s g timeUs) := by
  unfold State.guardRefuse
  try dsimp only
  repeat' first
    | with_reducible exact Only.refl _ _
    | with_reducible refine Only.pwfFail (by decide) ?_
    | with_reducible refine Only.guardDrop (by decide) ?_

theorem Only.guardRefuse {m₀ : Nat} {s₀ t₀ : State} {g : GuardPair} {timeUs : Nat} (hm₀ : 0xB ||| m₀ = m₀)
    (h₀ : Only m₀ s₀ t₀) : Only m₀ s₀ (State.guardRefuse t₀ g timeUs) :=
  h₀.step (Only.guardRefuse0 t₀ _ _) hm₀

theorem Only.guardExpire0 (s : State) : Only 0xB s (State.guardExpire s) := by
  unfold State.guardExpire
  try dsimp only
  repeat' first
    | with_reducible exact Only.refl _ _
    | with_reducible assumption
    | with_reducible refine Only.ite ?_ ?_
    | with_reducible refine Only.guardRefuse (by decide) ?_
    | with_reducible refine Only.foldl (fun _ _ _ => ?_) ?_

theorem Only.guardExpire {m₀ : Nat} {s₀ t₀ : State}  (hm₀ : 0xB ||| m₀ = m₀)
    (h₀ : Only m₀ s₀ t₀) : Only m₀ s₀ (State.guardExpire t₀) :=
  h₀.step (Only.guardExpire0 t₀) hm₀

theorem Only.pwfNow0 (s : State) (host tag addr : Nat) (data : Word) (cause : Nat) : Only 0xB s
    (State.pwfNow s host tag addr data cause) := by
  unfold State.pwfNow
  try dsimp only
  repeat' first
    | with_reducible exact Only.refl _ _
    | with_reducible refine Only.pwfFail (by decide) ?_

theorem Only.pwfNow {m₀ : Nat} {s₀ t₀ : State} {host tag addr : Nat} {data : Word} {cause : Nat} (hm₀ : 0xB ||| m₀ = m₀)
    (h₀ : Only m₀ s₀ t₀) : Only m₀ s₀ (State.pwfNow t₀ host tag addr data cause) :=
  h₀.step (Only.pwfNow0 t₀ _ _ _ _ _) hm₀

theorem Only.storeReg0 (s : State) (r : RegRow) (off : Nat) (v : Word) : Only 0x21439B s (State.storeReg s r off v) := by
  unfold State.storeReg
  try dsimp only
  repeat' first
    | with_reducible exact Only.refl _ _
    | with_reducible refine Only.rset (by decide) ?_
    | with_reducible refine Only.afterWrite (by decide) ?_

theorem Only.storeReg {m₀ : Nat} {s₀ t₀ : State} {r : RegRow} {off : Nat} {v : Word} (hm₀ : 0x21439B ||| m₀ = m₀)
    (h₀ : Only m₀ s₀ t₀) : Only m₀ s₀ (State.storeReg t₀ r off v) :=
  h₀.step (Only.storeReg0 t₀ _ _ _) hm₀

theorem Only.writeDirect0 (s : State) (host tag off : Nat) (v : Word) : Only 0x21439B s
    (State.writeDirect s host tag off v) := by
  unfold State.writeDirect
  try dsimp only
  repeat' first
    | with_reducible exact Only.refl _ _
    | with_reducible refine Only.ite ?_ ?_
    | with_reducible refine Only.guardRefuse (by decide) ?_
    | with_reducible refine Only.setHif (by decide) ?_
    | with_reducible refine Only.pwfNow (by decide) ?_
    | with_reducible refine Only.storeReg (by decide) ?_
    | split

theorem Only.writeDirect {m₀ : Nat} {s₀ t₀ : State} {host tag off : Nat} {v : Word} (hm₀ : 0x21439B ||| m₀ = m₀)
    (h₀ : Only m₀ s₀ t₀) : Only m₀ s₀ (State.writeDirect t₀ host tag off v) :=
  h₀.step (Only.writeDirect0 t₀ _ _ _ _) hm₀

theorem Only.doConnectionTimeoutScan0 (s : State) : Only 0x1004F s (State.doConnectionTimeoutScan s) := by
  unfold State.doConnectionTimeoutScan
  try dsimp only
  repeat' first
    | with_reducible exact Only.refl _ _
    | with_reducible refine Only.ite ?_ ?_
    | with_reducible refine Only.bumpTimes (by decide) ?_
    | with_reducible refine Only.waitUntil (by decide) ?_
    | with_reducible refine Only.emRemove (by decide) ?_

theorem Only.doConnectionTimeoutScan {m₀ : Nat} {s₀ t₀ : State}  (hm₀ : 0x1004F ||| m₀ = m₀)
    (h₀ : Only m₀ s₀ t₀) : Only m₀ s₀ (State.doConnectionTimeoutScan t₀) :=
  h₀.step (Only.doConnectionTimeoutScan0 t₀) hm₀

theorem Only.doEpochDrainComplete0 (s : State) (host queue : Nat) : Only 0x20001B s
    (State.doEpochDrainComplete s host queue) := by
  unfold State.doEpochDrainComplete
  try dsimp only
  repeat' first
    | with_reducible exact Only.refl _ _
    | with_reducible refine Only.ite ?_ ?_
    | with_reducible refine Only.finishCmd (by decide) ?_
    | split

theorem Only.doEpochDrainComplete {m₀ : Nat} {s₀ t₀ : State} {host queue : Nat} (hm₀ : 0x20001B ||| m₀ = m₀)
    (h₀ : Only m₀ s₀ t₀) : Only m₀ s₀ (State.doEpochDrainComplete t₀ host queue) :=
  h₀.step (Only.doEpochDrainComplete0 t₀ _ _) hm₀

theorem Only.doEpochDrainTimeout0 (s : State) (host queue : Nat) : Only 0x21001F s
    (State.doEpochDrainTimeout s host queue) := by
  unfold State.doEpochDrainTimeout
  try dsimp only
  repeat' first
    | with_reducible exact Only.refl _ _
    | with_reducible refine Only.ite ?_ ?_
    | with_reducible refine Only.finishCmd (by decide) ?_
    | with_reducible refine Only.waitUntil (by decide) ?_
    | split

theorem Only.doEpochDrainTimeout {m₀ : Nat} {s₀ t₀ : State} {host queue : Nat} (hm₀ : 0x21001F ||| m₀ = m₀)
    (h₀ : Only m₀ s₀ t₀) : Only m₀ s₀ (State.doEpochDrainTimeout t₀ host queue) :=
  h₀.step (Only.doEpochDrainTimeout0 t₀ _ _) hm₀

theorem Only.reclaim0 (s : State) : Only 0x404B s (State.reclaim s) := by
  unfold State.reclaim
  try dsimp only
  repeat' first
    | with_reducible exact Only.refl _ _
    | with_reducible refine Only.setFwd (by decide) ?_
    | with_reducible refine Only.setSec (by decide) ?_
    | with_reducible refine Only.emRemove (by decide) ?_

theorem Only.reclaim {m₀ : Nat} {s₀ t₀ : State}  (hm₀ : 0x404B ||| m₀ = m₀)
    (h₀ : Only m₀ s₀ t₀) : Only m₀ s₀ (State.reclaim t₀) :=
  h₀.step (Only.reclaim0 t₀) hm₀

theorem Only.doEpochStorageReclaim0 (s : State) : Only 0x404B s (State.doEpochStorageReclaim s) := by
  unfold State.doEpochStorageReclaim
  try dsimp only
  repeat' first
    | with_reducible exact Only.refl _ _
    | with_reducible refine Only.ite ?_ ?_
    | with_reducible refine Only.reclaim (by decide) ?_

theorem Only.doEpochStorageReclaim {m₀ : Nat} {s₀ t₀ : State}  (hm₀ : 0x404B ||| m₀ = m₀)
    (h₀ : Only m₀ s₀ t₀) : Only m₀ s₀ (State.doEpochStorageReclaim t₀) :=
  h₀.step (Only.doEpochStorageReclaim0 t₀) hm₀

theorem Only.learnConflict0 (s : State) (x : EmEntry) (src fid : Nat) (mac : List Byte) (fixed : Bool) : Only 0x4B s
    (State.learnConflict s x src fid mac fixed) := by
  unfold State.learnConflict
  try dsimp only
  repeat' first
    | with_reducible exact Only.refl _ _
    | with_reducible refine Only.bump (by decide) ?_
    | with_reducible refine Only.setFwd (by decide) ?_
    | with_reducible refine Only.rset (by decide) ?_
    | with_reducible refine Only.raiseLimited (by decide) ?_

theorem Only.learnConflict {m₀ : Nat} {s₀ t₀ : State} {x : EmEntry} {src fid : Nat} {mac : List Byte} {fixed : Bool}
    (hm₀ : 0x4B ||| m₀ = m₀) (h₀ : Only m₀ s₀ t₀) : Only m₀ s₀ (State.learnConflict t₀ x src fid mac fixed) :=
  h₀.step (Only.learnConflict0 t₀ _ _ _ _ _) hm₀

theorem Only.learnRefuse0 (s : State) (src : Nat) : Only 0x4B s (State.learnRefuse s src) := by
  unfold State.learnRefuse
  try dsimp only
  repeat' first
    | with_reducible exact Only.refl _ _
    | with_reducible refine Only.bump (by decide) ?_
    | with_reducible refine Only.setFwd (by decide) ?_
    | with_reducible refine Only.raiseLimited (by decide) ?_
    | split

theorem Only.learnRefuse {m₀ : Nat} {s₀ t₀ : State} {src : Nat} (hm₀ : 0x4B ||| m₀ = m₀)
    (h₀ : Only m₀ s₀ t₀) : Only m₀ s₀ (State.learnRefuse t₀ src) :=
  h₀.step (Only.learnRefuse0 t₀ _) hm₀

theorem Only.learnCommit0 (s : State) (src fid : Nat) (mac : List Byte) : Only 0x1004F s
    (State.learnCommit s src fid mac) := by
  unfold State.learnCommit
  try dsimp only
  repeat' first
    | with_reducible exact Only.refl _ _
    | with_reducible refine Only.ite ?_ ?_
    | with_reducible refine Only.bump (by decide) ?_
    | with_reducible refine Only.emMod (by decide) ?_
    | with_reducible refine Only.emInsert (by decide) (by with_reducible assumption) ?_
    | with_reducible refine Only.learnConflict (by decide) ?_
    | with_reducible refine Only.learnFull (by decide) ?_
    | with_reducible refine Only.learnRefuse (by decide) ?_
    | split

theorem Only.learnCommit {m₀ : Nat} {s₀ t₀ : State} {src fid : Nat} {mac : List Byte} (hm₀ : 0x1004F ||| m₀ = m₀)
    (h₀ : Only m₀ s₀ t₀) : Only m₀ s₀ (State.learnCommit t₀ src fid mac) :=
  h₀.step (Only.learnCommit0 t₀ _ _ _) hm₀

theorem Only.doLearnEngineCommit0 (s : State) : Only 0x1004F s (State.doLearnEngineCommit s) := by
  unfold State.doLearnEngineCommit
  try dsimp only
  repeat' first
    | with_reducible exact Only.refl _ _
    | with_reducible refine Only.ite ?_ ?_
    | with_reducible refine Only.learnCommit (by decide) ?_
    | with_reducible refine Only.setFwd (by decide) ?_
    | with_reducible refine Only.connCommit (by decide) ?_
    | with_reducible refine Only.waitUntil (by decide) ?_
    | split

theorem Only.doLearnEngineCommit {m₀ : Nat} {s₀ t₀ : State}  (hm₀ : 0x1004F ||| m₀ = m₀)
    (h₀ : Only m₀ s₀ t₀) : Only m₀ s₀ (State.doLearnEngineCommit t₀) :=
  h₀.step (Only.doLearnEngineCommit0 t₀) hm₀

theorem Only.late0 (s : State) (d : Deadline) : Only 0x10002B s (State.late s d) := by
  unfold State.late
  try dsimp only
  repeat' first
    | with_reducible exact Only.refl _ _
    | with_reducible refine Only.ite ?_ ?_
    | with_reducible refine Only.dropDeadline (by decide) ?_
    | with_reducible refine Only.breach (by decide) ?_

theorem Only.late {m₀ : Nat} {s₀ t₀ : State} {d : Deadline} (hm₀ : 0x10002B ||| m₀ = m₀)
    (h₀ : Only m₀ s₀ t₀) : Only m₀ s₀ (State.late t₀ d) :=
  h₀.step (Only.late0 t₀ _) hm₀

theorem Only.startDeadlines0 (s : State) (fid id start : Nat) (g : Guarantee) (egresses : List Nat) : Only 0x20 s
    (State.startDeadlines s fid id start g egresses) := by
  unfold State.startDeadlines
  try dsimp only
  repeat' first
    | with_reducible exact Only.refl _ _
    | with_reducible refine Only.ite ?_ ?_
    | with_reducible refine Only.setCal (by decide) ?_

theorem Only.startDeadlines {m₀ : Nat} {s₀ t₀ : State} {fid id start : Nat} {g : Guarantee} {egresses : List Nat}
    (hm₀ : 0x20 ||| m₀ = m₀) (h₀ : Only m₀ s₀ t₀) : Only m₀ s₀ (State.startDeadlines t₀ fid id start g egresses) :=
  h₀.step (Only.startDeadlines0 t₀ _ _ _ _ _) hm₀

theorem Only.writeBar20 (s : State) (tag off : Nat) (v : Word) (be : Nat) : Only 0x1B s
    (State.writeBar2 s tag off v be) := by
  unfold State.writeBar2
  try dsimp only
  repeat' first
    | with_reducible exact Only.refl _ _
    | with_reducible refine Only.ite ?_ ?_
    | with_reducible refine Only.slotWrite (by decide) ?_
    | with_reducible refine Only.pwfNow (by decide) ?_

theorem Only.writeBar2 {m₀ : Nat} {s₀ t₀ : State} {tag off : Nat} {v : Word} {be : Nat} (hm₀ : 0x1B ||| m₀ = m₀)
    (h₀ : Only m₀ s₀ t₀) : Only m₀ s₀ (State.writeBar2 t₀ tag off v be) :=
  h₀.step (Only.writeBar20 t₀ _ _ _ _) hm₀

theorem Only.writeAlias0 (s : State) (host tag : Nat) (off b : Nat) (v : Word) : Only 0x21439B s
    (State.writeAlias s host tag off b v) := by
  unfold State.writeAlias
  try dsimp only
  repeat' first
    | with_reducible exact Only.refl _ _
    | with_reducible refine Only.ite ?_ ?_
    | with_reducible refine Only.pwfNow (by decide) ?_
    | with_reducible refine Only.storeReg (by decide) ?_
    | split

theorem Only.writeAlias {m₀ : Nat} {s₀ t₀ : State} {host tag : Nat} {off b : Nat} {v : Word}
    (hm₀ : 0x21439B ||| m₀ = m₀) (h₀ : Only m₀ s₀ t₀) : Only m₀ s₀ (State.writeAlias t₀ host tag off b v) :=
  h₀.step (Only.writeAlias0 t₀ _ _ _ _ _) hm₀

theorem Only.writeCompanion0 (s : State) (host tag off : Nat) (v : Word) : Only 0x21439B s
    (State.writeCompanion s host tag off v) := by
  unfold State.writeCompanion
  try dsimp only
  repeat' first
    | with_reducible exact Only.refl _ _
    | with_reducible refine Only.ite ?_ ?_
    | with_reducible refine Only.guardRefuse (by decide) ?_
    | with_reducible refine Only.pwfNow (by decide) ?_
    | with_reducible refine Only.guardDrop (by decide) ?_
    | with_reducible refine Only.storeReg (by decide) ?_
    | split

theorem Only.writeCompanion {m₀ : Nat} {s₀ t₀ : State} {host tag off : Nat} {v : Word} (hm₀ : 0x21439B ||| m₀ = m₀)
    (h₀ : Only m₀ s₀ t₀) : Only m₀ s₀ (State.writeCompanion t₀ host tag off v) :=
  h₀.step (Only.writeCompanion0 t₀ _ _ _ _) hm₀

theorem Only.writeReg0 (s : State) (host tag addr : Nat) (v : Word) : Only 0x21439B s
    (State.writeReg s host tag addr v) := by
  unfold State.writeReg
  try dsimp only
  repeat' first
    | with_reducible exact Only.refl _ _
    | with_reducible refine Only.ite ?_ ?_
    | with_reducible refine Only.guardExpire (by decide) ?_
    | with_reducible refine Only.pwfNow (by decide) ?_
    | with_reducible refine Only.writeAlias (by decide) ?_
    | with_reducible refine Only.writeDirect (by decide) ?_
    | with_reducible refine Only.writeCompanion (by decide) ?_

theorem Only.writeReg {m₀ : Nat} {s₀ t₀ : State} {host tag addr : Nat} {v : Word} (hm₀ : 0x21439B ||| m₀ = m₀)
    (h₀ : Only m₀ s₀ t₀) : Only m₀ s₀ (State.writeReg t₀ host tag addr v) :=
  h₀.step (Only.writeReg0 t₀ _ _ _ _) hm₀

theorem Only.postReg0 (s : State) (host tag addr : Nat) (v : Word) : Only 0x21439B s (State.postReg s host tag addr v) := by
  unfold State.postReg
  try dsimp only
  repeat' first
    | with_reducible exact Only.refl _ _
    | with_reducible refine Only.ite ?_ ?_
    | with_reducible refine Only.discardWord (by decide) ?_
    | with_reducible refine Only.writeReg (by decide) ?_

theorem Only.postReg {m₀ : Nat} {s₀ t₀ : State} {host tag addr : Nat} {v : Word} (hm₀ : 0x21439B ||| m₀ = m₀)
    (h₀ : Only m₀ s₀ t₀) : Only m₀ s₀ (State.postReg t₀ host tag addr v) :=
  h₀.step (Only.postReg0 t₀ _ _ _ _) hm₀

theorem Only.doRelocationInvalidate0 (s : State) : Only 0x1004F s (State.doRelocationInvalidate s) := by
  unfold State.doRelocationInvalidate
  try dsimp only
  repeat' first
    | with_reducible exact Only.refl _ _
    | with_reducible refine Only.invalidateOld (by decide) ?_
    | with_reducible refine Only.emFreed (by decide) ?_

theorem Only.doRelocationInvalidate {m₀ : Nat} {s₀ t₀ : State}  (hm₀ : 0x1004F ||| m₀ = m₀)
    (h₀ : Only m₀ s₀ t₀) : Only m₀ s₀ (State.doRelocationInvalidate t₀) :=
  h₀.step (Only.doRelocationInvalidate0 t₀) hm₀

theorem Only.writeSpi0 (s : State) (tag addr : Nat) (v : Word) : Only 0x21439B s (State.writeSpi s tag addr v) := by
  unfold State.writeSpi
  try dsimp only
  repeat' first
    | with_reducible exact Only.refl _ _
    | with_reducible refine Only.ite ?_ ?_
    | with_reducible refine Only.slotWrite (by decide) ?_
    | with_reducible refine Only.mwrite (by decide) ?_
    | with_reducible refine Only.writeReg (by decide) ?_

theorem Only.writeSpi {m₀ : Nat} {s₀ t₀ : State} {tag addr : Nat} {v : Word} (hm₀ : 0x21439B ||| m₀ = m₀)
    (h₀ : Only m₀ s₀ t₀) : Only m₀ s₀ (State.writeSpi t₀ tag addr v) :=
  h₀.step (Only.writeSpi0 t₀ _ _ _) hm₀

theorem Only.sessionEnd0 (s : State) : Only 0x200010 s (State.sessionEnd s) := by
  unfold State.sessionEnd
  try dsimp only
  repeat' first
    | with_reducible exact Only.refl _ _
    | with_reducible refine Only.setMbx (by decide) ?_
    | with_reducible refine Only.updAbandon (by decide) ?_
    | with_reducible refine Only.setBoot (by decide) ?_

theorem Only.sessionEnd {m₀ : Nat} {s₀ t₀ : State}  (hm₀ : 0x200010 ||| m₀ = m₀)
    (h₀ : Only m₀ s₀ t₀) : Only m₀ s₀ (State.sessionEnd t₀) :=
  h₀.step (Only.sessionEnd0 t₀) hm₀

theorem ExecOnly.fwdAgeConfig0 (c : Cmd) (s : State) : ExecOnly 0x40 s (State.fwdAgeConfig c s) := by
  unfold State.fwdAgeConfig
  try dsimp only
  repeat' first
    | with_reducible exact Only.refl _ _
    | with_reducible refine Only.ite ?_ ?_
    | with_reducible refine ExecOnly.done ?_
    | with_reducible refine Only.ageSet (by decide) ?_
    | with_reducible refine Only.setFwd (by decide) ?_
    | with_reducible refine ExecOnly.check ?_ ?_

theorem ExecOnly.fwdAgeConfig {m₀ : Nat} {s₀ t₀ : State} {c : Cmd} (hm₀ : 0x40 ||| m₀ = m₀)
    (h₀ : Only m₀ s₀ t₀) : ExecOnly m₀ s₀ (State.fwdAgeConfig c t₀) :=
  ExecOnly.after h₀ (ExecOnly.fwdAgeConfig0 _ t₀) hm₀

theorem ExecOnly.stage0 (s : State) (bad : Nat) (op : TxnOp) : ExecOnly 0x40 s (State.stage s bad op) := by
  unfold State.stage
  try dsimp only
  repeat' first
    | with_reducible exact Only.refl _ _
    | with_reducible refine ExecOnly.done ?_
    | with_reducible refine Only.setFwd (by decide) ?_
    | with_reducible refine ExecOnly.check ?_ ?_

theorem ExecOnly.stage {m₀ : Nat} {s₀ t₀ : State} {bad : Nat} {op : TxnOp} (hm₀ : 0x40 ||| m₀ = m₀)
    (h₀ : Only m₀ s₀ t₀) : ExecOnly m₀ s₀ (State.stage t₀ bad op) :=
  ExecOnly.after h₀ (ExecOnly.stage0 t₀ _ _) hm₀

theorem ExecOnly.fwdEntryAdd0 (c : Cmd) (s : State) : ExecOnly 0x40 s (State.fwdEntryAdd c s) := by
  unfold State.fwdEntryAdd
  try dsimp only
  repeat' first
    | with_reducible exact Only.refl _ _
    | with_reducible refine ExecOnly.stage (by decide) ?_

theorem ExecOnly.fwdEntryAdd {m₀ : Nat} {s₀ t₀ : State} {c : Cmd} (hm₀ : 0x40 ||| m₀ = m₀)
    (h₀ : Only m₀ s₀ t₀) : ExecOnly m₀ s₀ (State.fwdEntryAdd c t₀) :=
  ExecOnly.after h₀ (ExecOnly.fwdEntryAdd0 _ t₀) hm₀

theorem ExecOnly.fwdEntryDel0 (c : Cmd) (s : State) : ExecOnly 0x40 s (State.fwdEntryDel c s) := by
  unfold State.fwdEntryDel
  try dsimp only
  repeat' first
    | with_reducible exact Only.refl _ _
    | with_reducible refine ExecOnly.stage (by decide) ?_
    | split

theorem ExecOnly.fwdEntryDel {m₀ : Nat} {s₀ t₀ : State} {c : Cmd} (hm₀ : 0x40 ||| m₀ = m₀)
    (h₀ : Only m₀ s₀ t₀) : ExecOnly m₀ s₀ (State.fwdEntryDel c t₀) :=
  ExecOnly.after h₀ (ExecOnly.fwdEntryDel0 _ t₀) hm₀

theorem ExecOnly.fwdEpochDrain0 (c : Cmd) (s : State) : ExecOnly 0x0 s (State.fwdEpochDrain c s) := by
  unfold State.fwdEpochDrain
  try dsimp only
  repeat' first
    | with_reducible exact Only.refl _ _
    | with_reducible refine ExecOnly.done ?_
    | with_reducible refine ExecOnly.run ?_
    | with_reducible refine ExecOnly.ite ?_ ?_
    | with_reducible refine ExecOnly.check ?_ ?_

theorem ExecOnly.fwdEpochDrain {m₀ : Nat} {s₀ t₀ : State} {c : Cmd} (hm₀ : 0x0 ||| m₀ = m₀)
    (h₀ : Only m₀ s₀ t₀) : ExecOnly m₀ s₀ (State.fwdEpochDrain c t₀) :=
  ExecOnly.after h₀ (ExecOnly.fwdEpochDrain0 _ t₀) hm₀

theorem ExecOnly.fwdFlushPort0 (c : Cmd) (s : State) : ExecOnly 0x4B s (State.fwdFlushPort c s) := by
  unfold State.fwdFlushPort
  try dsimp only
  repeat' first
    | with_reducible exact Only.refl _ _
    | with_reducible refine ExecOnly.done ?_
    | with_reducible refine ExecOnly.need ?_ ?_
    | with_reducible refine ExecOnly.datapath ?_ ?_
    | with_reducible refine ExecOnly.check ?_ ?_
    | with_reducible refine Only.emRemove (by decide) ?_

theorem ExecOnly.fwdFlushPort {m₀ : Nat} {s₀ t₀ : State} {c : Cmd} (hm₀ : 0x4B ||| m₀ = m₀)
    (h₀ : Only m₀ s₀ t₀) : ExecOnly m₀ s₀ (State.fwdFlushPort c t₀) :=
  ExecOnly.after h₀ (ExecOnly.fwdFlushPort0 _ t₀) hm₀

theorem ExecOnly.fwdLpmAdd0 (c : Cmd) (s : State) : ExecOnly 0x40 s (State.fwdLpmAdd c s) := by
  unfold State.fwdLpmAdd
  try dsimp only
  repeat' first
    | with_reducible exact Only.refl _ _
    | with_reducible refine ExecOnly.stage (by decide) ?_

theorem ExecOnly.fwdLpmAdd {m₀ : Nat} {s₀ t₀ : State} {c : Cmd} (hm₀ : 0x40 ||| m₀ = m₀)
    (h₀ : Only m₀ s₀ t₀) : ExecOnly m₀ s₀ (State.fwdLpmAdd c t₀) :=
  ExecOnly.after h₀ (ExecOnly.fwdLpmAdd0 _ t₀) hm₀

theorem ExecOnly.fwdTxnBegin0 (c : Cmd) (s : State) : ExecOnly 0x40 s (State.fwdTxnBegin c s) := by
  unfold State.fwdTxnBegin
  try dsimp only
  repeat' first
    | with_reducible exact Only.refl _ _
    | with_reducible refine ExecOnly.done ?_
    | with_reducible refine ExecOnly.ite ?_ ?_
    | with_reducible refine Only.setFwd (by decide) ?_
    | with_reducible refine ExecOnly.fail ?_

theorem ExecOnly.fwdTxnBegin {m₀ : Nat} {s₀ t₀ : State} {c : Cmd} (hm₀ : 0x40 ||| m₀ = m₀)
    (h₀ : Only m₀ s₀ t₀) : ExecOnly m₀ s₀ (State.fwdTxnBegin c t₀) :=
  ExecOnly.after h₀ (ExecOnly.fwdTxnBegin0 _ t₀) hm₀

theorem ExecOnly.fwdTxnCommit0 (c : Cmd) (s : State) : ExecOnly 0x1404F s (State.fwdTxnCommit c s) := by
  unfold State.fwdTxnCommit
  try dsimp only
  repeat' first
    | with_reducible refine Only.applyOps (by decide) (by with_reducible assumption) ?_
    | with_reducible exact Only.refl _ _
    | with_reducible refine ExecOnly.done ?_
    | with_reducible refine ExecOnly.need ?_ ?_
    | with_reducible refine Only.advanceEpoch (by decide) ?_
    | with_reducible refine Only.setFwd (by decide) ?_
    | with_reducible refine ExecOnly.datapath ?_ ?_
    | with_reducible refine ExecOnly.check ?_ ?_
    | with_reducible refine ExecOnly.fail ?_
    | split

theorem ExecOnly.fwdTxnCommit {m₀ : Nat} {s₀ t₀ : State} {c : Cmd} (hm₀ : 0x1404F ||| m₀ = m₀)
    (h₀ : Only m₀ s₀ t₀) : ExecOnly m₀ s₀ (State.fwdTxnCommit c t₀) :=
  ExecOnly.after h₀ (ExecOnly.fwdTxnCommit0 _ t₀) hm₀

end Sys2Proof.Machine
end

