-- ==== Sys2Proof/Laws/OnlyFrames.lean ====
section
/-! SUPPORT.
Frames: what the operations on frames and copies can change
at most. The law named `…0` states the frame of one operation, the other one carries a frame over it. -/

namespace Sys2Proof.Machine

theorem Only.stat0 (s : State) (p fld : Nat) : Only 0xB s (State.stat s p fld) := by
  unfold State.stat
  try dsimp only
  repeat' first
    | with_reducible exact Only.refl _ _
    | with_reducible refine Only.ite ?_ ?_
    | with_reducible refine Only.bump (by decide) ?_

theorem Only.stat {m₀ : Nat} {s₀ t₀ : State} {p fld : Nat} (hm₀ : 0xB ||| m₀ = m₀)
    (h₀ : Only m₀ s₀ t₀) : Only m₀ s₀ (State.stat t₀ p fld) :=
  h₀.step (Only.stat0 t₀ _ _) hm₀

theorem Only.rxError0 (s : State) (f : Frame) : Only 0xB s (State.rxError s f) := by
  unfold State.rxError
  try dsimp only
  repeat' first
    | with_reducible exact Only.refl _ _
    | with_reducible refine Only.stat (by decide) ?_

theorem Only.rxError {m₀ : Nat} {s₀ t₀ : State} {f : Frame} (hm₀ : 0xB ||| m₀ = m₀)
    (h₀ : Only m₀ s₀ t₀) : Only m₀ s₀ (State.rxError t₀ f) :=
  h₀.step (Only.rxError0 t₀ _) hm₀

theorem Only.statOct0 (s : State) (p fld n : Nat) : Only 0xB s (State.statOct s p fld n) := by
  unfold State.statOct
  try dsimp only
  repeat' first
    | with_reducible exact Only.refl _ _
    | with_reducible refine Only.ite ?_ ?_
    | with_reducible refine Only.bump48 (by decide) ?_

theorem Only.statOct {m₀ : Nat} {s₀ t₀ : State} {p fld n : Nat} (hm₀ : 0xB ||| m₀ = m₀)
    (h₀ : Only m₀ s₀ t₀) : Only m₀ s₀ (State.statOct t₀ p fld n) :=
  h₀.step (Only.statOct0 t₀ _ _ _) hm₀

theorem Only.rxFailed0 (s : State) (f : Frame) (cause : Nat) : Only 0xB s (State.rxFailed s f cause) := by
  unfold State.rxFailed
  try dsimp only
  repeat' first
    | with_reducible exact Only.refl _ _
    | with_reducible refine Only.ite ?_ ?_
    | with_reducible refine Only.rxError (by decide) ?_
    | with_reducible refine Only.statOct (by decide) ?_

theorem Only.rxFailed {m₀ : Nat} {s₀ t₀ : State} {f : Frame} {cause : Nat} (hm₀ : 0xB ||| m₀ = m₀)
    (h₀ : Only m₀ s₀ t₀) : Only m₀ s₀ (State.rxFailed t₀ f cause) :=
  h₀.step (Only.rxFailed0 t₀ _ _) hm₀

theorem Only.trfCount0 (s : State) (kind index view : Nat) : Only 0x20B s (State.trfCount s kind index view) := by
  unfold State.trfCount
  try dsimp only
  repeat' first
    | with_reducible exact Only.refl _ _
    | with_reducible refine Only.ite ?_ ?_
    | with_reducible refine Only.bumpView (by decide) ?_
    | with_reducible refine Only.setTrf (by decide) ?_
    | split

theorem Only.trfCount {m₀ : Nat} {s₀ t₀ : State} {kind index view : Nat} (hm₀ : 0x20B ||| m₀ = m₀)
    (h₀ : Only m₀ s₀ t₀) : Only m₀ s₀ (State.trfCount t₀ kind index view) :=
  h₀.step (Only.trfCount0 t₀ _ _ _) hm₀

theorem Only.failErrors0 (s : State) (f : Frame) (cause : Nat) : Only 0x20B s (State.failErrors s f cause) := by
  unfold State.failErrors
  try dsimp only
  repeat' first
    | with_reducible exact Only.refl _ _
    | with_reducible refine Only.ite ?_ ?_
    | with_reducible refine Only.rxFailed (by decide) ?_
    | with_reducible refine Only.raise (by decide) ?_
    | with_reducible refine Only.setTrf (by decide) ?_
    | with_reducible refine Only.trfCount (by decide) ?_
    | split

theorem Only.failErrors {m₀ : Nat} {s₀ t₀ : State} {f : Frame} {cause : Nat} (hm₀ : 0x20B ||| m₀ = m₀)
    (h₀ : Only m₀ s₀ t₀) : Only m₀ s₀ (State.failErrors t₀ f cause) :=
  h₀.step (Only.failErrors0 t₀ _ _) hm₀

theorem Only.failGuarantee0 (s : State) (f : Frame) (cause : Nat) : Only 0x10002B s (State.failGuarantee s f cause) := by
  unfold State.failGuarantee
  try dsimp only
  repeat' first
    | with_reducible exact Only.refl _ _
    | with_reducible assumption
    | with_reducible refine Only.ite ?_ ?_
    | with_reducible refine Only.bump (by decide) ?_
    | with_reducible refine Only.dropDeadline (by decide) ?_
    | with_reducible refine Only.lose (by decide) ?_
    | with_reducible refine Only.gmod (by decide) ?_
    | with_reducible refine Only.foldl (fun _ _ _ => ?_) ?_
    | split

theorem Only.failGuarantee {m₀ : Nat} {s₀ t₀ : State} {f : Frame} {cause : Nat} (hm₀ : 0x10002B ||| m₀ = m₀)
    (h₀ : Only m₀ s₀ t₀) : Only m₀ s₀ (State.failGuarantee t₀ f cause) :=
  h₀.step (Only.failGuarantee0 t₀ _ _) hm₀

theorem Only.failCounts0 (s : State) (f : Frame) (cause : Nat) : Only 0x10022B s (State.failCounts s f cause) := by
  unfold State.failCounts
  try dsimp only
  repeat' first
    | with_reducible exact Only.refl _ _
    | with_reducible refine Only.failErrors (by decide) ?_
    | with_reducible refine Only.failGuarantee (by decide) ?_

theorem Only.failCounts {m₀ : Nat} {s₀ t₀ : State} {f : Frame} {cause : Nat} (hm₀ : 0x10022B ||| m₀ = m₀)
    (h₀ : Only m₀ s₀ t₀) : Only m₀ s₀ (State.failCounts t₀ f cause) :=
  h₀.step (Only.failCounts0 t₀ _ _) hm₀

theorem Only.owedGone0 (s : State) (gone : List Frame) : Only 0x80 s (State.owedGone s gone) := by
  unfold State.owedGone
  try dsimp only
  repeat' first
    | with_reducible exact Only.refl _ _
    | with_reducible refine Only.setFr (by decide) ?_

theorem Only.owedGone {m₀ : Nat} {s₀ t₀ : State} {gone : List Frame} (hm₀ : 0x80 ||| m₀ = m₀)
    (h₀ : Only m₀ s₀ t₀) : Only m₀ s₀ (State.owedGone t₀ gone) :=
  h₀.step (Only.owedGone0 t₀ _) hm₀

theorem Only.fmod0 (s : State) (fid : Nat) (f : Frame → Frame) : Only 0x80 s (State.fmod s fid f) := by
  unfold State.fmod
  try dsimp only
  repeat' first
    | with_reducible exact Only.refl _ _
    | with_reducible refine Only.setFr (by decide) ?_

theorem Only.fmod {m₀ : Nat} {s₀ t₀ : State} {fid : Nat} {f : Frame → Frame} (hm₀ : 0x80 ||| m₀ = m₀)
    (h₀ : Only m₀ s₀ t₀) : Only m₀ s₀ (State.fmod t₀ fid f) :=
  h₀.step (Only.fmod0 t₀ _ _) hm₀

theorem Only.freeRecord0 (s : State) (f : Frame) : Only 0x80 s (State.freeRecord s f) := by
  unfold State.freeRecord
  try dsimp only
  repeat' first
    | with_reducible exact Only.refl _ _
    | with_reducible refine Only.setRecords (by decide) ?_
    | split

theorem Only.freeRecord {m₀ : Nat} {s₀ t₀ : State} {f : Frame} (hm₀ : 0x80 ||| m₀ = m₀)
    (h₀ : Only m₀ s₀ t₀) : Only m₀ s₀ (State.freeRecord t₀ f) :=
  h₀.step (Only.freeRecord0 t₀ _) hm₀

theorem Only.freeEnded0 (s : State) : Only 0x80 s (State.freeEnded s) := by
  unfold State.freeEnded
  try dsimp only
  repeat' first
    | with_reducible exact Only.refl _ _
    | with_reducible assumption
    | with_reducible refine Only.fmod (by decide) ?_
    | with_reducible refine Only.freeRecord (by decide) ?_
    | with_reducible refine Only.foldl (fun _ _ _ => ?_) ?_

theorem Only.freeEnded {m₀ : Nat} {s₀ t₀ : State}  (hm₀ : 0x80 ||| m₀ = m₀)
    (h₀ : Only m₀ s₀ t₀) : Only m₀ s₀ (State.freeEnded t₀) :=
  h₀.step (Only.freeEnded0 t₀) hm₀

theorem Only.bportMod0 (s : State) (p : Nat) (f : BufPort → BufPort) : Only 0x100 s (State.bportMod s p f) := by
  unfold State.bportMod
  try dsimp only
  repeat' first
    | with_reducible exact Only.refl _ _
    | with_reducible refine Only.setBuf (by decide) ?_

theorem Only.bportMod {m₀ : Nat} {s₀ t₀ : State} {p : Nat} {f : BufPort → BufPort} (hm₀ : 0x100 ||| m₀ = m₀)
    (h₀ : Only m₀ s₀ t₀) : Only m₀ s₀ (State.bportMod t₀ p f) :=
  h₀.step (Only.bportMod0 t₀ _ _) hm₀

theorem Only.sendPause0 (s : State) (p pri quanta : Nat) : Only 0xB s (State.sendPause s p pri quanta) := by
  unfold State.sendPause
  try dsimp only
  repeat' first
    | with_reducible exact Only.refl _ _
    | with_reducible refine Only.stat (by decide) ?_
    | with_reducible refine Only.emit (Nat.zero_or _) ?_

theorem Only.sendPause {m₀ : Nat} {s₀ t₀ : State} {p pri quanta : Nat} (hm₀ : 0xB ||| m₀ = m₀)
    (h₀ : Only m₀ s₀ t₀) : Only m₀ s₀ (State.sendPause t₀ p pri quanta) :=
  h₀.step (Only.sendPause0 t₀ _ _ _) hm₀

theorem Only.flowOne0 (s : State) (p pri : Nat) : Only 0x10B s (State.flowOne s p pri) := by
  unfold State.flowOne
  try dsimp only
  repeat' first
    | with_reducible exact Only.refl _ _
    | with_reducible refine Only.ite ?_ ?_
    | with_reducible refine Only.bportMod (by decide) ?_
    | with_reducible refine Only.sendPause (by decide) ?_

theorem Only.flowOne {m₀ : Nat} {s₀ t₀ : State} {p pri : Nat} (hm₀ : 0x10B ||| m₀ = m₀)
    (h₀ : Only m₀ s₀ t₀) : Only m₀ s₀ (State.flowOne t₀ p pri) :=
  h₀.step (Only.flowOne0 t₀ _ _) hm₀

theorem Only.flowCheck0 (s : State) (p : Nat) : Only 0x10B s (State.flowCheck s p) := by
  unfold State.flowCheck
  try dsimp only
  repeat' first
    | with_reducible exact Only.refl _ _
    | with_reducible assumption
    | with_reducible refine Only.ite ?_ ?_
    | with_reducible refine Only.flowOne (by decide) ?_
    | with_reducible refine Only.foldl (fun _ _ _ => ?_) ?_
    | split

theorem Only.flowCheck {m₀ : Nat} {s₀ t₀ : State} {p : Nat} (hm₀ : 0x10B ||| m₀ = m₀)
    (h₀ : Only m₀ s₀ t₀) : Only m₀ s₀ (State.flowCheck t₀ p) :=
  h₀.step (Only.flowCheck0 t₀ _) hm₀

theorem Only.spillUpdate0 (s : State) : Only 0x100 s (State.spillUpdate s) := by
  unfold State.spillUpdate
  try dsimp only
  repeat' first
    | with_reducible exact Only.refl _ _
    | with_reducible refine Only.ite ?_ ?_
    | with_reducible refine Only.setBuf (by decide) ?_

theorem Only.spillUpdate {m₀ : Nat} {s₀ t₀ : State}  (hm₀ : 0x100 ||| m₀ = m₀)
    (h₀ : Only m₀ s₀ t₀) : Only m₀ s₀ (State.spillUpdate t₀) :=
  h₀.step (Only.spillUpdate0 t₀) hm₀

theorem Only.freeCells0 (s : State) : Only 0x18B s (State.freeCells s) := by
  unfold State.freeCells
  try dsimp only
  repeat' first
    | with_reducible exact Only.refl _ _
    | with_reducible assumption
    | with_reducible refine Only.ite ?_ ?_
    | with_reducible refine Only.flowCheck (by decide) ?_
    | with_reducible refine Only.spillUpdate (by decide) ?_
    | with_reducible refine Only.setFr (by decide) ?_
    | with_reducible refine Only.foldl (fun _ _ _ => ?_) ?_

theorem Only.freeCells {m₀ : Nat} {s₀ t₀ : State}  (hm₀ : 0x18B ||| m₀ = m₀)
    (h₀ : Only m₀ s₀ t₀) : Only m₀ s₀ (State.freeCells t₀) :=
  h₀.step (Only.freeCells0 t₀) hm₀

theorem Only.drainGone0 (s : State) : Only 0x20 s (State.drainGone s) := by
  unfold State.drainGone
  try dsimp only
  repeat' first
    | with_reducible exact Only.refl _ _
    | with_reducible refine Only.setCal (by decide) ?_

theorem Only.drainGone {m₀ : Nat} {s₀ t₀ : State}  (hm₀ : 0x20 ||| m₀ = m₀)
    (h₀ : Only m₀ s₀ t₀) : Only m₀ s₀ (State.drainGone t₀) :=
  h₀.step (Only.drainGone0 t₀) hm₀

theorem Only.gc0 (s : State) : Only 0x1AB s (State.gc s) := by
  unfold State.gc
  try dsimp only
  repeat' first
    | with_reducible exact Only.refl _ _
    | with_reducible refine Only.ite ?_ ?_
    | with_reducible refine Only.owedGone (by decide) ?_
    | with_reducible refine Only.freeEnded (by decide) ?_
    | with_reducible refine Only.freeCells (by decide) ?_
    | with_reducible refine Only.setFr (by decide) ?_
    | with_reducible refine Only.drainGone (by decide) ?_

theorem Only.gc {m₀ : Nat} {s₀ t₀ : State}  (hm₀ : 0x1AB ||| m₀ = m₀) (h₀ : Only m₀ s₀ t₀) : Only m₀ s₀ (State.gc t₀) :=
  h₀.step (Only.gc0 t₀) hm₀

theorem Only.cmod0 (s : State) (fid port : Nat) (f : Copy → Copy) : Only 0x80 s (State.cmod s fid port f) := by
  unfold State.cmod
  try dsimp only
  repeat' first
    | with_reducible exact Only.refl _ _
    | with_reducible refine Only.setFr (by decide) ?_

theorem Only.cmod {m₀ : Nat} {s₀ t₀ : State} {fid port : Nat} {f : Copy → Copy} (hm₀ : 0x80 ||| m₀ = m₀)
    (h₀ : Only m₀ s₀ t₀) : Only m₀ s₀ (State.cmod t₀ fid port f) :=
  h₀.step (Only.cmod0 t₀ _ _ _) hm₀

theorem Only.tportMod0 (s : State) (p : Nat) (f : TrfPort → TrfPort) : Only 0x200 s (State.tportMod s p f) := by
  unfold State.tportMod
  try dsimp only
  repeat' first
    | with_reducible exact Only.refl _ _
    | with_reducible refine Only.setTrf (by decide) ?_

theorem Only.tportMod {m₀ : Nat} {s₀ t₀ : State} {p : Nat} {f : TrfPort → TrfPort} (hm₀ : 0x200 ||| m₀ = m₀)
    (h₀ : Only m₀ s₀ t₀) : Only m₀ s₀ (State.tportMod t₀ p f) :=
  h₀.step (Only.tportMod0 t₀ _ _) hm₀

theorem Only.takeCopy0 (s : State) (fid port : Nat) : Only 0x280 s (State.takeCopy s fid port) := by
  unfold State.takeCopy
  try dsimp only
  repeat' first
    | with_reducible exact Only.refl _ _
    | with_reducible refine Only.ite ?_ ?_
    | with_reducible refine Only.tportMod (by decide) ?_
    | with_reducible refine Only.setFr (by decide) ?_
    | split

theorem Only.takeCopy {m₀ : Nat} {s₀ t₀ : State} {fid port : Nat} (hm₀ : 0x280 ||| m₀ = m₀)
    (h₀ : Only m₀ s₀ t₀) : Only m₀ s₀ (State.takeCopy t₀ fid port) :=
  h₀.step (Only.takeCopy0 t₀ _ _) hm₀

theorem Only.laneGap0 (s : State) (c : Copy) : Only 0x200 s (State.laneGap s c) := by
  unfold State.laneGap
  try dsimp only
  repeat' first
    | with_reducible exact Only.refl _ _
    | with_reducible refine Only.ite ?_ ?_
    | with_reducible refine Only.tportMod (by decide) ?_
    | with_reducible refine Only.setTrf (by decide) ?_
    | split

theorem Only.laneGap {m₀ : Nat} {s₀ t₀ : State} {c : Copy} (hm₀ : 0x200 ||| m₀ = m₀)
    (h₀ : Only m₀ s₀ t₀) : Only m₀ s₀ (State.laneGap t₀ c) :=
  h₀.step (Only.laneGap0 t₀ _) hm₀

theorem Only.cbsUpdate0 (s : State) (p : Nat) : Only 0x200 s (State.cbsUpdate s p) := by
  unfold State.cbsUpdate
  try dsimp only
  repeat' first
    | with_reducible exact Only.refl _ _
    | with_reducible refine Only.setTrf (by decide) ?_

theorem Only.cbsUpdate {m₀ : Nat} {s₀ t₀ : State} {p : Nat} (hm₀ : 0x200 ||| m₀ = m₀)
    (h₀ : Only m₀ s₀ t₀) : Only m₀ s₀ (State.cbsUpdate t₀ p) :=
  h₀.step (Only.cbsUpdate0 t₀ _) hm₀

theorem Only.tsDiscard0 (s : State) (f : Frame) (port : Nat) : Only 0xB s (State.tsDiscard s f port) := by
  unfold State.tsDiscard
  try dsimp only
  repeat' first
    | with_reducible exact Only.refl _ _
    | with_reducible refine Only.ite ?_ ?_
    | with_reducible refine Only.tsqPut (by decide) ?_
    | split

theorem Only.tsDiscard {m₀ : Nat} {s₀ t₀ : State} {f : Frame} {port : Nat} (hm₀ : 0xB ||| m₀ = m₀)
    (h₀ : Only m₀ s₀ t₀) : Only m₀ s₀ (State.tsDiscard t₀ f port) :=
  h₀.step (Only.tsDiscard0 t₀ _ _) hm₀

theorem Only.deficitTake0 (s : State) (c : Copy) (n : Nat) : Only 0x200 s (State.deficitTake s c n) := by
  unfold State.deficitTake
  try dsimp only
  repeat' first
    | with_reducible exact Only.refl _ _
    | with_reducible refine Only.tportMod (by decide) ?_
    | split

theorem Only.deficitTake {m₀ : Nat} {s₀ t₀ : State} {c : Copy} {n : Nat} (hm₀ : 0x200 ||| m₀ = m₀)
    (h₀ : Only m₀ s₀ t₀) : Only m₀ s₀ (State.deficitTake t₀ c n) :=
  h₀.step (Only.deficitTake0 t₀ _ _) hm₀

theorem Only.tailAbort0 (s : State) (c : Copy) (pipe : Nat) : Only 0x28B s (State.tailAbort s c pipe) := by
  unfold State.tailAbort
  try dsimp only
  repeat' first
    | with_reducible exact Only.refl _ _
    | with_reducible refine Only.ite ?_ ?_
    | with_reducible refine Only.takeCopy (by decide) ?_
    | with_reducible refine Only.bump (by decide) ?_
    | with_reducible refine Only.laneGap (by decide) ?_
    | with_reducible refine Only.stat (by decide) ?_
    | with_reducible refine Only.cbsUpdate (by decide) ?_
    | with_reducible refine Only.tsDiscard (by decide) ?_
    | with_reducible refine Only.emit (Nat.zero_or _) ?_
    | with_reducible refine Only.deficitTake (by decide) ?_
    | split

theorem Only.tailAbort {m₀ : Nat} {s₀ t₀ : State} {c : Copy} {pipe : Nat} (hm₀ : 0x28B ||| m₀ = m₀)
    (h₀ : Only m₀ s₀ t₀) : Only m₀ s₀ (State.tailAbort t₀ c pipe) :=
  h₀.step (Only.tailAbort0 t₀ _ _) hm₀

theorem Only.ringRewind0 (s : State) (hq : Nat) : Only 0x8 s (State.ringRewind s hq) := by
  unfold State.ringRewind
  try dsimp only
  repeat' first
    | with_reducible exact Only.refl _ _
    | with_reducible refine Only.rxMod (by decide) ?_

theorem Only.ringRewind {m₀ : Nat} {s₀ t₀ : State} {hq : Nat} (hm₀ : 0x8 ||| m₀ = m₀)
    (h₀ : Only m₀ s₀ t₀) : Only m₀ s₀ (State.ringRewind t₀ hq) :=
  h₀.step (Only.ringRewind0 t₀ _) hm₀

theorem Only.discardCopy0 (s : State) (c : Copy) : Only 0x28B s (State.discardCopy s c) := by
  unfold State.discardCopy
  try dsimp only
  repeat' first
    | with_reducible exact Only.refl _ _
    | with_reducible refine Only.takeCopy (by decide) ?_
    | with_reducible refine Only.tsDiscard (by decide) ?_
    | split

theorem Only.discardCopy {m₀ : Nat} {s₀ t₀ : State} {c : Copy} (hm₀ : 0x28B ||| m₀ = m₀)
    (h₀ : Only m₀ s₀ t₀) : Only m₀ s₀ (State.discardCopy t₀ c) :=
  h₀.step (Only.discardCopy0 t₀ _) hm₀

theorem Only.endCopies0 (s : State) (f : Frame) : Only 0x28B s (State.endCopies s f) := by
  unfold State.endCopies
  try dsimp only
  repeat' first
    | with_reducible exact Only.refl _ _
    | with_reducible assumption
    | with_reducible refine Only.ite ?_ ?_
    | with_reducible refine Only.cmod (by decide) ?_
    | with_reducible refine Only.tailAbort (by decide) ?_
    | with_reducible refine Only.ringRewind (by decide) ?_
    | with_reducible refine Only.discardCopy (by decide) ?_
    | with_reducible refine Only.foldl (fun _ _ _ => ?_) ?_

theorem Only.endCopies {m₀ : Nat} {s₀ t₀ : State} {f : Frame} (hm₀ : 0x28B ||| m₀ = m₀)
    (h₀ : Only m₀ s₀ t₀) : Only m₀ s₀ (State.endCopies t₀ f) :=
  h₀.step (Only.endCopies0 t₀ _) hm₀

theorem Only.recovMod0 (s : State) (i : Nat) (f : Frer → Frer) : Only 0x200 s (State.recovMod s i f) := by
  unfold State.recovMod
  try dsimp only
  repeat' first
    | with_reducible exact Only.refl _ _
    | with_reducible refine Only.setTrf (by decide) ?_

theorem Only.recovMod {m₀ : Nat} {s₀ t₀ : State} {i : Nat} {f : Frer → Frer} (hm₀ : 0x200 ||| m₀ = m₀)
    (h₀ : Only m₀ s₀ t₀) : Only m₀ s₀ (State.recovMod t₀ i f) :=
  h₀.step (Only.recovMod0 t₀ _ _) hm₀

theorem Only.rxSaMod0 (s : State) (p sc an : Nat) (f : Sa → Sa) : Only 0x4000 s (State.rxSaMod s p sc an f) := by
  unfold State.rxSaMod
  try dsimp only
  repeat' first
    | with_reducible exact Only.refl _ _
    | with_reducible refine Only.setSec (by decide) ?_
    | split

theorem Only.rxSaMod {m₀ : Nat} {s₀ t₀ : State} {p sc an : Nat} {f : Sa → Sa} (hm₀ : 0x4000 ||| m₀ = m₀)
    (h₀ : Only m₀ s₀ t₀) : Only m₀ s₀ (State.rxSaMod t₀ p sc an f) :=
  h₀.step (Only.rxSaMod0 t₀ _ _ _ _) hm₀

theorem Only.pnDone0 (s : State) (f : Frame) (commit : Bool) : Only 0x400B s (State.pnDone s f commit) := by
  unfold State.pnDone
  try dsimp only
  repeat' first
    | with_reducible exact Only.refl _ _
    | with_reducible refine Only.ite ?_ ?_
    | with_reducible refine Only.bump (by decide) ?_
    | with_reducible refine Only.rxSaMod (by decide) ?_
    | split

theorem Only.pnDone {m₀ : Nat} {s₀ t₀ : State} {f : Frame} {commit : Bool} (hm₀ : 0x400B ||| m₀ = m₀)
    (h₀ : Only m₀ s₀ t₀) : Only m₀ s₀ (State.pnDone t₀ f commit) :=
  h₀.step (Only.pnDone0 t₀ _ _) hm₀

theorem Only.setPolicer0 (s : State) (i : Nat) (p : Policer) : Only 0x200 s (State.setPolicer s i p) := by
  unfold State.setPolicer
  try dsimp only
  repeat' first
    | with_reducible exact Only.refl _ _
    | with_reducible refine Only.setTrf (by decide) ?_

theorem Only.setPolicer {m₀ : Nat} {s₀ t₀ : State} {i : Nat} {p : Policer} (hm₀ : 0x200 ||| m₀ = m₀)
    (h₀ : Only m₀ s₀ t₀) : Only m₀ s₀ (State.setPolicer t₀ i p) :=
  h₀.step (Only.setPolicer0 t₀ _ _) hm₀

theorem Only.meterFix0 (s : State) (i : Nat) (bytes : ℤ) : Only 0x200 s (State.meterFix s i bytes) := by
  unfold State.meterFix
  try dsimp only
  repeat' first
    | with_reducible exact Only.refl _ _
    | with_reducible refine Only.setPolicer (by decide) ?_

theorem Only.meterFix {m₀ : Nat} {s₀ t₀ : State} {i : Nat} {bytes : ℤ} (hm₀ : 0x200 ||| m₀ = m₀)
    (h₀ : Only m₀ s₀ t₀) : Only m₀ s₀ (State.meterFix t₀ i bytes) :=
  h₀.step (Only.meterFix0 t₀ _ _) hm₀

theorem Only.undoEffects0 (s : State) (f : Frame) : Only 0x420B s (State.undoEffects s f) := by
  unfold State.undoEffects
  try dsimp only
  repeat' first
    | with_reducible exact Only.refl _ _
    | with_reducible refine Only.ite ?_ ?_
    | with_reducible refine Only.recovMod (by decide) ?_
    | with_reducible refine Only.pnDone (by decide) ?_
    | with_reducible refine Only.meterFix (by decide) ?_
    | split

theorem Only.undoEffects {m₀ : Nat} {s₀ t₀ : State} {f : Frame} (hm₀ : 0x420B ||| m₀ = m₀)
    (h₀ : Only m₀ s₀ t₀) : Only m₀ s₀ (State.undoEffects t₀ f) :=
  h₀.step (Only.undoEffects0 t₀ _) hm₀

theorem Only.nextHeld0 (s : State) (f : Frame) : Only 0x280 s (State.nextHeld s f).2 := by
  unfold State.nextHeld
  try dsimp only
  repeat' first
    | with_reducible exact Only.refl _ _
    | with_reducible refine Only.recovMod (by decide) ?_
    | with_reducible refine Only.fmod (by decide) ?_
    | split

theorem Only.nextHeld {m₀ : Nat} {s₀ t₀ : State} {f : Frame} (hm₀ : 0x280 ||| m₀ = m₀)
    (h₀ : Only m₀ s₀ t₀) : Only m₀ s₀ (State.nextHeld t₀ f).2 :=
  h₀.step (Only.nextHeld0 t₀ _) hm₀

theorem Only.failFrame0 (s : State) (f : Frame) (cause : Nat) : Only 0x1043AB s (State.failFrame s f cause).2 := by
  unfold State.failFrame
  try dsimp only
  repeat' first
    | with_reducible exact Only.refl _ _
    | with_reducible refine Only.ite ?_ ?_
    | with_reducible refine Only.bump (by decide) ?_
    | with_reducible refine Only.failCounts (by decide) ?_
    | with_reducible refine Only.gc (by decide) ?_
    | with_reducible refine Only.fmod (by decide) ?_
    | with_reducible refine Only.endCopies (by decide) ?_
    | with_reducible refine Only.undoEffects (by decide) ?_
    | with_reducible refine Only.nextHeld (by decide) ?_

theorem Only.failFrame {m₀ : Nat} {s₀ t₀ : State} {f : Frame} {cause : Nat} (hm₀ : 0x1043AB ||| m₀ = m₀)
    (h₀ : Only m₀ s₀ t₀) : Only m₀ s₀ (State.failFrame t₀ f cause).2 :=
  h₀.step (Only.failFrame0 t₀ _ _) hm₀

theorem Only.learnPut0 (s : State) (pipe : Nat) (q : LearnReq) : Only 0x4B s (State.learnPut s pipe q) := by
  unfold State.learnPut
  try dsimp only
  repeat' first
    | with_reducible exact Only.refl _ _
    | with_reducible refine Only.ite ?_ ?_
    | with_reducible refine Only.bump (by decide) ?_
    | with_reducible refine Only.setFwd (by decide) ?_

theorem Only.learnPut {m₀ : Nat} {s₀ t₀ : State} {pipe : Nat} {q : LearnReq} (hm₀ : 0x4B ||| m₀ = m₀)
    (h₀ : Only m₀ s₀ t₀) : Only m₀ s₀ (State.learnPut t₀ pipe q) :=
  h₀.step (Only.learnPut0 t₀ _ _) hm₀

theorem Only.applyCount0 (s : State) (c : Nat × Nat × Nat) : Only 0x20B s (State.applyCount s c) := by
  unfold State.applyCount
  try dsimp only
  repeat' first
    | with_reducible exact Only.refl _ _
    | with_reducible refine Only.ite ?_ ?_
    | with_reducible refine Only.recovMod (by decide) ?_
    | with_reducible refine Only.trfCount (by decide) ?_

theorem Only.applyCount {m₀ : Nat} {s₀ t₀ : State} {c : Nat × Nat × Nat} (hm₀ : 0x20B ||| m₀ = m₀)
    (h₀ : Only m₀ s₀ t₀) : Only m₀ s₀ (State.applyCount t₀ c) :=
  h₀.step (Only.applyCount0 t₀ _) hm₀

theorem Only.rxGood0 (s : State) (f : Frame) : Only 0xB s (State.rxGood s f) := by
  unfold State.rxGood
  try dsimp only
  repeat' first
    | with_reducible exact Only.refl _ _
    | with_reducible refine Only.ite ?_ ?_
    | with_reducible refine Only.stat (by decide) ?_
    | with_reducible refine Only.statOct (by decide) ?_

theorem Only.rxGood {m₀ : Nat} {s₀ t₀ : State} {f : Frame} (hm₀ : 0xB ||| m₀ = m₀)
    (h₀ : Only m₀ s₀ t₀) : Only m₀ s₀ (State.rxGood t₀ f) :=
  h₀.step (Only.rxGood0 t₀ _) hm₀

theorem Only.seqAccept0 (s : State) (i n : Nat) : Only 0x20B s (State.seqAccept s i n) := by
  unfold State.seqAccept
  try dsimp only
  repeat' first
    | with_reducible exact Only.refl _ _
    | with_reducible assumption
    | with_reducible refine Only.ite ?_ ?_
    | with_reducible refine Only.recovMod (by decide) ?_
    | with_reducible refine Only.trfCount (by decide) ?_
    | with_reducible refine Only.emit (Nat.zero_or _) ?_
    | with_reducible refine Only.foldl (fun _ _ _ => ?_) ?_
    | split

theorem Only.seqAccept {m₀ : Nat} {s₀ t₀ : State} {i n : Nat} (hm₀ : 0x20B ||| m₀ = m₀)
    (h₀ : Only m₀ s₀ t₀) : Only m₀ s₀ (State.seqAccept t₀ i n) :=
  h₀.step (Only.seqAccept0 t₀ _ _) hm₀

theorem Only.applyEffects0 (s : State) (f : Frame) : Only 0x426B s (State.applyEffects s f) := by
  unfold State.applyEffects
  try dsimp only
  repeat' first
    | with_reducible exact Only.refl _ _
    | with_reducible assumption
    | with_reducible refine Only.ite ?_ ?_
    | with_reducible refine Only.learnPut (by decide) ?_
    | with_reducible refine Only.emMod (by decide) ?_
    | with_reducible refine Only.applyCount (by decide) ?_
    | with_reducible refine Only.pnDone (by decide) ?_
    | with_reducible refine Only.meterFix (by decide) ?_
    | with_reducible refine Only.rxGood (by decide) ?_
    | with_reducible refine Only.gmod (by decide) ?_
    | with_reducible refine Only.seqAccept (by decide) ?_
    | with_reducible refine Only.emHit (by decide) ?_
    | with_reducible refine Only.foldl (fun _ _ _ => ?_) ?_
    | split

theorem Only.applyEffects {m₀ : Nat} {s₀ t₀ : State} {f : Frame} (hm₀ : 0x426B ||| m₀ = m₀)
    (h₀ : Only m₀ s₀ t₀) : Only m₀ s₀ (State.applyEffects t₀ f) :=
  h₀.step (Only.applyEffects0 t₀ _) hm₀

theorem Only.handOver0 (s : State) (f : Frame) : Only 0x100AAB s (State.handOver s f) := by
  unfold State.handOver
  try dsimp only
  repeat' first
    | with_reducible exact Only.refl _ _
    | with_reducible assumption
    | with_reducible refine Only.ite ?_ ?_
    | with_reducible refine Only.takeCopy (by decide) ?_
    | with_reducible refine Only.depart (by decide) ?_
    | with_reducible refine Only.setTun (by decide) ?_
    | with_reducible refine Only.foldl (fun _ _ _ => ?_) ?_

theorem Only.handOver {m₀ : Nat} {s₀ t₀ : State} {f : Frame} (hm₀ : 0x100AAB ||| m₀ = m₀)
    (h₀ : Only m₀ s₀ t₀) : Only m₀ s₀ (State.handOver t₀ f) :=
  h₀.step (Only.handOver0 t₀ _) hm₀

theorem Only.ringFlush0 (s : State) (hq : Nat) : Only 0x8 s (State.ringFlush s hq) := by
  unfold State.ringFlush
  try dsimp only
  repeat' first
    | with_reducible exact Only.refl _ _
    | with_reducible assumption
    | with_reducible refine Only.rxMod (by decide) ?_
    | with_reducible refine Only.hostMem (by decide) ?_
    | with_reducible refine Only.foldl (fun _ _ _ => ?_) ?_

theorem Only.ringFlush {m₀ : Nat} {s₀ t₀ : State} {hq : Nat} (hm₀ : 0x8 ||| m₀ = m₀)
    (h₀ : Only m₀ s₀ t₀) : Only m₀ s₀ (State.ringFlush t₀ hq) :=
  h₀.step (Only.ringFlush0 t₀ _) hm₀

theorem Only.ringCommit0 (s : State) (f : Frame) (hq flags : Nat) : Only 0x10002B s (State.ringCommit s f hq flags) := by
  unfold State.ringCommit
  try dsimp only
  repeat' first
    | with_reducible exact Only.refl _ _
    | with_reducible refine Only.ite ?_ ?_
    | with_reducible refine Only.rxHeader (by decide) ?_
    | with_reducible refine Only.rxMod (by decide) ?_
    | with_reducible refine Only.depart (by decide) ?_
    | with_reducible refine Only.rxWrite (by decide) ?_
    | with_reducible refine Only.rxFinish (by decide) ?_
    | with_reducible refine Only.ringFlush (by decide) ?_

theorem Only.ringCommit {m₀ : Nat} {s₀ t₀ : State} {f : Frame} {hq flags : Nat} (hm₀ : 0x10002B ||| m₀ = m₀)
    (h₀ : Only m₀ s₀ t₀) : Only m₀ s₀ (State.ringCommit t₀ f hq flags) :=
  h₀.step (Only.ringCommit0 t₀ _ _ _) hm₀

theorem Only.txGood0 (s : State) (p n : Nat) (da : List Byte) (control : Bool) : Only 0xB s
    (State.txGood s p n da control) := by
  unfold State.txGood
  try dsimp only
  repeat' first
    | with_reducible exact Only.refl _ _
    | with_reducible refine Only.ite ?_ ?_
    | with_reducible refine Only.stat (by decide) ?_
    | with_reducible refine Only.statOct (by decide) ?_

theorem Only.txGood {m₀ : Nat} {s₀ t₀ : State} {p n : Nat} {da : List Byte} {control : Bool} (hm₀ : 0xB ||| m₀ = m₀)
    (h₀ : Only m₀ s₀ t₀) : Only m₀ s₀ (State.txGood t₀ p n da control) :=
  h₀.step (Only.txGood0 t₀ _ _ _ _) hm₀

theorem Only.sentCounts0 (s : State) (c : Copy) (f : Frame) (n : Nat) : Only 0x20B s (State.sentCounts s c f n) := by
  unfold State.sentCounts
  try dsimp only
  repeat' first
    | with_reducible exact Only.refl _ _
    | with_reducible refine Only.ite ?_ ?_
    | with_reducible refine Only.bump (by decide) ?_
    | with_reducible refine Only.txGood (by decide) ?_
    | with_reducible refine Only.tportMod (by decide) ?_
    | with_reducible refine Only.bump48 (by decide) ?_
    | split

theorem Only.sentCounts {m₀ : Nat} {s₀ t₀ : State} {c : Copy} {f : Frame} {n : Nat} (hm₀ : 0x20B ||| m₀ = m₀)
    (h₀ : Only m₀ s₀ t₀) : Only m₀ s₀ (State.sentCounts t₀ c f n) :=
  h₀.step (Only.sentCounts0 t₀ _ _ _) hm₀

theorem Only.eliminate0 (s : State) (f : Frame) : Only 0x1002AB s (State.eliminate s f) := by
  unfold State.eliminate
  try dsimp only
  repeat' first
    | with_reducible exact Only.refl _ _
    | with_reducible assumption
    | with_reducible refine Only.ite ?_ ?_
    | with_reducible refine Only.dropDeadline (by decide) ?_
    | with_reducible refine Only.lose (by decide) ?_
    | with_reducible refine Only.fmod (by decide) ?_
    | with_reducible refine Only.discardCopy (by decide) ?_
    | with_reducible refine Only.foldl (fun _ _ _ => ?_) ?_

theorem Only.eliminate {m₀ : Nat} {s₀ t₀ : State} {f : Frame} (hm₀ : 0x1002AB ||| m₀ = m₀)
    (h₀ : Only m₀ s₀ t₀) : Only m₀ s₀ (State.eliminate t₀ f) :=
  h₀.step (Only.eliminate0 t₀ _) hm₀

theorem Only.captureSend0 (s : State) (written : Nat) : Only 0x200000 s (State.captureSend s written) := by
  unfold State.captureSend
  try dsimp only
  repeat' first
    | with_reducible exact Only.refl _ _
    | with_reducible assumption
    | with_reducible refine Only.svcSend (by decide) ?_
    | with_reducible refine Only.foldl (fun _ _ _ => ?_) ?_

theorem Only.captureSend {m₀ : Nat} {s₀ t₀ : State} {written : Nat} (hm₀ : 0x200000 ||| m₀ = m₀)
    (h₀ : Only m₀ s₀ t₀) : Only m₀ s₀ (State.captureSend t₀ written) :=
  h₀.step (Only.captureSend0 t₀ _) hm₀

theorem Only.captureStop0 (s : State) : Only 0x30000B s (State.captureStop s) := by
  unfold State.captureStop
  try dsimp only
  repeat' first
    | with_reducible exact Only.refl _ _
    | with_reducible refine Only.ite ?_ ?_
    | with_reducible refine Only.captureSend (by decide) ?_
    | with_reducible refine Only.raise (by decide) ?_
    | with_reducible refine Only.setFnc (by decide) ?_
    | split

theorem Only.captureStop {m₀ : Nat} {s₀ t₀ : State}  (hm₀ : 0x30000B ||| m₀ = m₀)
    (h₀ : Only m₀ s₀ t₀) : Only m₀ s₀ (State.captureStop t₀) :=
  h₀.step (Only.captureStop0 t₀) hm₀

theorem Only.capturePut0 (s : State) (f : Frame) (port : Nat) (egress : Bool) : Only 0x30000B s
    (State.capturePut s f port egress) := by
  unfold State.capturePut
  try dsimp only
  repeat' first
    | with_reducible exact Only.refl _ _
    | with_reducible refine Only.ite ?_ ?_
    | with_reducible refine Only.hostMem (by decide) ?_
    | with_reducible refine Only.setFnc (by decide) ?_
    | with_reducible refine Only.captureStop (by decide) ?_
    | split

theorem Only.capturePut {m₀ : Nat} {s₀ t₀ : State} {f : Frame} {port : Nat} {egress : Bool} (hm₀ : 0x30000B ||| m₀ = m₀)
    (h₀ : Only m₀ s₀ t₀) : Only m₀ s₀ (State.capturePut t₀ f port egress) :=
  h₀.step (Only.capturePut0 t₀ _ _ _) hm₀

theorem Only.commit0 (s : State) (f : Frame) : Only 0x304BEB s (State.commit s f).2 := by
  unfold State.commit
  try dsimp only
  repeat' first
    | with_reducible exact Only.refl _ _
    | with_reducible assumption
    | with_reducible refine Only.ite ?_ ?_
    | with_reducible refine Only.takeCopy (by decide) ?_
    | with_reducible refine Only.bump (by decide) ?_
    | with_reducible refine Only.applyEffects (by decide) ?_
    | with_reducible refine Only.gc (by decide) ?_
    | with_reducible refine Only.handOver (by decide) ?_
    | with_reducible refine Only.ringCommit (by decide) ?_
    | with_reducible refine Only.fmod (by decide) ?_
    | with_reducible refine Only.sentCounts (by decide) ?_
    | with_reducible refine Only.eliminate (by decide) ?_
    | with_reducible refine Only.freeRecord (by decide) ?_
    | with_reducible refine Only.capturePut (by decide) ?_
    | with_reducible refine Only.foldl (fun _ _ _ => ?_) ?_

theorem Only.commit {m₀ : Nat} {s₀ t₀ : State} {f : Frame} (hm₀ : 0x304BEB ||| m₀ = m₀)
    (h₀ : Only m₀ s₀ t₀) : Only m₀ s₀ (State.commit t₀ f).2 :=
  h₀.step (Only.commit0 t₀ _) hm₀

theorem Only.judgeLoop0 (x0 : Nat) (x1 : List Nat) (st : State) : Only 0x304BEB st (State.judgeLoop x0 x1 st) := by
  induction x0 generalizing x1 st with
  | zero => unfold State.judgeLoop; exact Only.refl _ _
  | succ n ih =>
    cases x1 with
    | nil => unfold State.judgeLoop; exact Only.refl _ _
    | cons a r =>
      unfold State.judgeLoop
      repeat' first
        | with_reducible refine Only.trans ?_ (ih _ _)
        | with_reducible exact Only.refl _ _
        | with_reducible refine Only.ite ?_ ?_
        | with_reducible refine Only.failFrame (by decide) ?_
        | with_reducible refine Only.commit (by decide) ?_
        | split

theorem Only.judgeLoop {m₀ : Nat} {s₀ t₀ : State} {x0 : Nat} {x1 : List Nat} (hm₀ : 0x304BEB ||| m₀ = m₀)
    (h₀ : Only m₀ s₀ t₀) : Only m₀ s₀ (State.judgeLoop x0 x1 t₀) :=
  h₀.step (Only.judgeLoop0 _ _ t₀) hm₀

theorem Only.judge0 (s : State) (fid : Nat) : Only 0x304BEB s (State.judge s fid) := by
  unfold State.judge
  try dsimp only
  repeat' first
    | with_reducible exact Only.refl _ _
    | with_reducible refine Only.judgeLoop (by decide) ?_

theorem Only.judge {m₀ : Nat} {s₀ t₀ : State} {fid : Nat} (hm₀ : 0x304BEB ||| m₀ = m₀)
    (h₀ : Only m₀ s₀ t₀) : Only m₀ s₀ (State.judge t₀ fid) :=
  h₀.step (Only.judge0 t₀ _) hm₀

theorem Only.abortFrame0 (s : State) (fid cause : Nat) : Only 0x304BEB s (State.abortFrame s fid cause) := by
  unfold State.abortFrame
  try dsimp only
  repeat' first
    | with_reducible exact Only.refl _ _
    | with_reducible refine Only.ite ?_ ?_
    | with_reducible refine Only.judge (by decide) ?_
    | with_reducible refine Only.failFrame (by decide) ?_
    | with_reducible refine Only.snd (by with_reducible assumption) ?_
    | split

theorem Only.abortFrame {m₀ : Nat} {s₀ t₀ : State} {fid cause : Nat} (hm₀ : 0x304BEB ||| m₀ = m₀)
    (h₀ : Only m₀ s₀ t₀) : Only m₀ s₀ (State.abortFrame t₀ fid cause) :=
  h₀.step (Only.abortFrame0 t₀ _ _) hm₀

theorem Only.wheelsBegin0 (s : State) : Only 0xA0 s (State.wheelsBegin s) := by
  unfold State.wheelsBegin
  try dsimp only
  repeat' first
    | with_reducible exact Only.refl _ _
    | with_reducible refine Only.setCal (by decide) ?_
    | with_reducible refine Only.setFr (by decide) ?_

theorem Only.wheelsBegin {m₀ : Nat} {s₀ t₀ : State}  (hm₀ : 0xA0 ||| m₀ = m₀)
    (h₀ : Only m₀ s₀ t₀) : Only m₀ s₀ (State.wheelsBegin t₀) :=
  h₀.step (Only.wheelsBegin0 t₀) hm₀

theorem Only.fvSet0 (s : State) (e v : Nat) : Only 0x4000 s (State.fvSet s e v) := by
  unfold State.fvSet
  try dsimp only
  repeat' first
    | with_reducible exact Only.refl _ _
    | with_reducible refine Only.setSec (by decide) ?_

theorem Only.fvSet {m₀ : Nat} {s₀ t₀ : State} {e v : Nat} (hm₀ : 0x4000 ||| m₀ = m₀)
    (h₀ : Only m₀ s₀ t₀) : Only m₀ s₀ (State.fvSet t₀ e v) :=
  h₀.step (Only.fvSet0 t₀ _ _) hm₀

theorem Only.verdictLate0 (s : State) (image h : Nat) (start took : Nat) (cipher : Bool) : Only 0x10002B s
    (State.verdictLate s image h start took cipher) := by
  unfold State.verdictLate
  try dsimp only
  repeat' first
    | with_reducible exact Only.refl _ _
    | with_reducible refine Only.ite ?_ ?_
    | with_reducible refine Only.bump (by decide) ?_
    | with_reducible refine Only.free2 ?_
    | with_reducible refine Only.breach (by decide) ?_
    | split

theorem Only.verdictLate {m₀ : Nat} {s₀ t₀ : State} {image h : Nat} {start took : Nat} {cipher : Bool}
    (hm₀ : 0x10002B ||| m₀ = m₀) (h₀ : Only m₀ s₀ t₀) : Only m₀ s₀ (State.verdictLate t₀ image h start took cipher) :=
  h₀.step (Only.verdictLate0 t₀ _ _ _ _ _) hm₀

theorem Only.owedTake0 (s : State) (o : Owed) : Only 0x80 s (State.owedTake s o) := by
  unfold State.owedTake
  try dsimp only
  repeat' first
    | with_reducible exact Only.refl _ _
    | with_reducible refine Only.setFr (by decide) ?_

theorem Only.owedTake {m₀ : Nat} {s₀ t₀ : State} {o : Owed} (hm₀ : 0x80 ||| m₀ = m₀)
    (h₀ : Only m₀ s₀ t₀) : Only m₀ s₀ (State.owedTake t₀ o) :=
  h₀.step (Only.owedTake0 t₀ _) hm₀

theorem Only.owedLate0 (s : State) (o : Owed) : Only 0x10002B s (State.owedLate s o) := by
  unfold State.owedLate
  try dsimp only
  repeat' first
    | with_reducible exact Only.refl _ _
    | with_reducible refine Only.verdictLate (by decide) ?_
    | split

theorem Only.owedLate {m₀ : Nat} {s₀ t₀ : State} {o : Owed} (hm₀ : 0x10002B ||| m₀ = m₀)
    (h₀ : Only m₀ s₀ t₀) : Only m₀ s₀ (State.owedLate t₀ o) :=
  h₀.step (Only.owedLate0 t₀ _) hm₀

theorem Only.cipherEnds0 (s : State) (r : CipherReq) (e : CipherEnd) : Only 0x400B s (State.cipherEnds s r e).2 := by
  unfold State.cipherEnds
  try dsimp only
  repeat' first
    | with_reducible exact Only.refl _ _
    | with_reducible refine Only.ite ?_ ?_
    | with_reducible refine Only.bump (by decide) ?_
    | with_reducible refine Only.setSec (by decide) ?_
    | with_reducible refine Only.fvSet (by decide) ?_
    | with_reducible refine Only.rset (by decide) ?_
    | with_reducible refine Only.raiseLimited (by decide) ?_
    | with_reducible refine Only.emit (Nat.zero_or _) ?_
    | split

theorem Only.cipherEnds {m₀ : Nat} {s₀ t₀ : State} {r : CipherReq} {e : CipherEnd} (hm₀ : 0x400B ||| m₀ = m₀)
    (h₀ : Only m₀ s₀ t₀) : Only m₀ s₀ (State.cipherEnds t₀ r e).2 :=
  h₀.step (Only.cipherEnds0 t₀ _ _) hm₀

theorem Only.cpOverload0 (s : State) (depth : Nat) : Only 0x400B s (State.cpOverload s depth) := by
  unfold State.cpOverload
  try dsimp only
  repeat' first
    | with_reducible exact Only.refl _ _
    | with_reducible refine Only.ite ?_ ?_
    | with_reducible refine Only.bump (by decide) ?_
    | with_reducible refine Only.setSec (by decide) ?_
    | with_reducible refine Only.raiseLimited (by decide) ?_

theorem Only.cpOverload {m₀ : Nat} {s₀ t₀ : State} {depth : Nat} (hm₀ : 0x400B ||| m₀ = m₀)
    (h₀ : Only m₀ s₀ t₀) : Only m₀ s₀ (State.cpOverload t₀ depth) :=
  h₀.step (Only.cpOverload0 t₀ _) hm₀

theorem Only.cipherEnter0 (s : State) (source profile slot : Nat) (msg : List Byte) : Only 0x400B s
    (State.cipherEnter s source profile slot msg).2 := by
  unfold State.cipherEnter
  try dsimp only
  repeat' first
    | with_reducible exact Only.refl _ _
    | with_reducible refine Only.setSec (by decide) ?_
    | with_reducible refine Only.cpOverload (by decide) ?_
    | split

theorem Only.cipherEnter {m₀ : Nat} {s₀ t₀ : State} {source profile slot : Nat} {msg : List Byte}
    (hm₀ : 0x400B ||| m₀ = m₀) (h₀ : Only m₀ s₀ t₀) : Only m₀ s₀ (State.cipherEnter t₀ source profile slot msg).2 :=
  h₀.step (Only.cipherEnter0 t₀ _ _ _ _) hm₀

theorem Only.cipherGenerate0 (s : State) (profile slot : Nat) (msg : List Byte) : Only 0x400B s
    (State.cipherGenerate s profile slot msg).2 := by
  unfold State.cipherGenerate
  try dsimp only
  repeat' first
    | with_reducible exact Only.refl _ _
    | with_reducible refine Only.ite ?_ ?_
    | with_reducible refine Only.bump (by decide) ?_
    | with_reducible refine Only.cpOverload (by decide) ?_
    | with_reducible refine Only.fvSet (by decide) ?_
    | with_reducible refine Only.raise (by decide) ?_
    | with_reducible refine Only.emit (Nat.zero_or _) ?_
    | split

theorem Only.cipherGenerate {m₀ : Nat} {s₀ t₀ : State} {profile slot : Nat} {msg : List Byte} (hm₀ : 0x400B ||| m₀ = m₀)
    (h₀ : Only m₀ s₀ t₀) : Only m₀ s₀ (State.cipherGenerate t₀ profile slot msg).2 :=
  h₀.step (Only.cipherGenerate0 t₀ _ _ _) hm₀

theorem Only.fvAccept0 (s : State) (x : State.EaProf) (carried : Nat) : Only 0x0 s (State.fvAccept s x carried).2 := by
  unfold State.fvAccept
  try dsimp only
  repeat' first
    | with_reducible exact Only.refl _ _
    | with_reducible refine Only.free2 ?_
    | split

theorem Only.fvAccept {m₀ : Nat} {s₀ t₀ : State} {x : State.EaProf} {carried : Nat} (hm₀ : 0x0 ||| m₀ = m₀)
    (h₀ : Only m₀ s₀ t₀) : Only m₀ s₀ (State.fvAccept t₀ x carried).2 :=
  h₀.step (Only.fvAccept0 t₀ _ _) hm₀

theorem Only.cipherJudge0 (s : State) (r : CipherReq) : Only 0x0 s (State.cipherJudge s r).2 := by
  unfold State.cipherJudge
  try dsimp only
  repeat' first
    | with_reducible exact Only.refl _ _
    | with_reducible refine Only.fvAccept (by decide) ?_
    | split

theorem Only.cipherJudge {m₀ : Nat} {s₀ t₀ : State} {r : CipherReq} (hm₀ : 0x0 ||| m₀ = m₀)
    (h₀ : Only m₀ s₀ t₀) : Only m₀ s₀ (State.cipherJudge t₀ r).2 :=
  h₀.step (Only.cipherJudge0 t₀ _) hm₀

theorem Only.wheelTo0 (s : State) (pipe c : Nat) : Only 0x8B s (State.wheelTo s pipe c).2 := by
  unfold State.wheelTo
  try dsimp only
  repeat' first
    | with_reducible exact Only.refl _ _
    | with_reducible refine Only.ite ?_ ?_
    | with_reducible refine Only.bumpBy (by decide) ?_
    | with_reducible refine Only.setFr (by decide) ?_
    | split

theorem Only.wheelTo {m₀ : Nat} {s₀ t₀ : State} {pipe c : Nat} (hm₀ : 0x8B ||| m₀ = m₀)
    (h₀ : Only m₀ s₀ t₀) : Only m₀ s₀ (State.wheelTo t₀ pipe c).2 :=
  h₀.step (Only.wheelTo0 t₀ _ _) hm₀

theorem Only.wheelsNow0 (s : State) : Only 0x8B s (State.wheelsNow s) := by
  unfold State.wheelsNow
  try dsimp only
  repeat' first
    | with_reducible exact Only.refl _ _
    | with_reducible refine Only.wheelTo (by decide) ?_

theorem Only.wheelsNow {m₀ : Nat} {s₀ t₀ : State}  (hm₀ : 0x8B ||| m₀ = m₀)
    (h₀ : Only m₀ s₀ t₀) : Only m₀ s₀ (State.wheelsNow t₀) :=
  h₀.step (Only.wheelsNow0 t₀) hm₀

theorem Only.listsRephase0 (s : State) (d : Nat) : Only 0x200 s (State.listsRephase s d) := by
  unfold State.listsRephase
  try dsimp only
  repeat' first
    | with_reducible exact Only.refl _ _
    | with_reducible refine Only.setTrf (by decide) ?_

theorem Only.listsRephase {m₀ : Nat} {s₀ t₀ : State} {d : Nat} (hm₀ : 0x200 ||| m₀ = m₀)
    (h₀ : Only m₀ s₀ t₀) : Only m₀ s₀ (State.listsRephase t₀ d) :=
  h₀.step (Only.listsRephase0 t₀ _) hm₀

theorem Only.storeEnd0 (s : State) (fid : Nat) : Only 0x80 s (State.storeEnd s fid) := by
  unfold State.storeEnd
  try dsimp only
  repeat' first
    | with_reducible exact Only.refl _ _
    | with_reducible refine Only.fmod (by decide) ?_

theorem Only.storeEnd {m₀ : Nat} {s₀ t₀ : State} {fid : Nat} (hm₀ : 0x80 ||| m₀ = m₀)
    (h₀ : Only m₀ s₀ t₀) : Only m₀ s₀ (State.storeEnd t₀ fid) :=
  h₀.step (Only.storeEnd0 t₀ _) hm₀

theorem Only.tsNowhere0 (s : State) (f : Frame) : Only 0xB s (State.tsNowhere s f) := by
  unfold State.tsNowhere
  try dsimp only
  repeat' first
    | with_reducible exact Only.refl _ _
    | with_reducible refine Only.free2 ?_
    | with_reducible refine Only.tsqPut (by decide) ?_
    | split

theorem Only.tsNowhere {m₀ : Nat} {s₀ t₀ : State} {f : Frame} (hm₀ : 0xB ||| m₀ = m₀)
    (h₀ : Only m₀ s₀ t₀) : Only m₀ s₀ (State.tsNowhere t₀ f) :=
  h₀.step (Only.tsNowhere0 t₀ _) hm₀

theorem Only.takeRecord0 (s : State) (p : Nat) (conforming : Bool) {u₀ : State} {v₀} (e₀ :
    (State.takeRecord s p conforming) = some (v₀, u₀)) : Only 0x8B s u₀ := by
  unfold State.takeRecord at e₀
  dsimp only at e₀
  split at e₀
  · cases e₀
  · rw [Option.map_eq_some_iff] at e₀
    obtain ⟨i, _, e⟩ := e₀
    cases e
    exact Only.exhaustEdge (by decide) (Only.setRecords (by decide) (Only.refl _ _))

theorem Only.takeRecord {m₀ : Nat} {s₀ t₀ u₀ : State} {v₀} {p : Nat} {conforming : Bool} (hm₀ : 0x8B ||| m₀ = m₀) (e₀ :
    (State.takeRecord t₀ p conforming) = some (v₀, u₀)) (h₀ : Only m₀ s₀ t₀) : Only m₀ s₀ u₀ :=
  h₀.step (Only.takeRecord0 t₀ _ _ e₀) hm₀

theorem Only.hostResync0 (s : State) (p : Nat) : Only 0x200 s (State.hostResync s p) := by
  unfold State.hostResync
  try dsimp only
  repeat' first
    | with_reducible exact Only.refl _ _
    | with_reducible refine Only.ite ?_ ?_
    | with_reducible refine Only.setTrf (by decide) ?_
    | split

theorem Only.hostResync {m₀ : Nat} {s₀ t₀ : State} {p : Nat} (hm₀ : 0x200 ||| m₀ = m₀)
    (h₀ : Only m₀ s₀ t₀) : Only m₀ s₀ (State.hostResync t₀ p) :=
  h₀.step (Only.hostResync0 t₀ _) hm₀

theorem Only.gateSeen0 (s : State) (p : Nat) : Only 0x200 s (State.gateSeen s p) := by
  unfold State.gateSeen
  try dsimp only
  repeat' first
    | with_reducible exact Only.refl _ _
    | with_reducible refine Only.ite ?_ ?_
    | with_reducible refine Only.tportMod (by decide) ?_

theorem Only.gateSeen {m₀ : Nat} {s₀ t₀ : State} {p : Nat} (hm₀ : 0x200 ||| m₀ = m₀)
    (h₀ : Only m₀ s₀ t₀) : Only m₀ s₀ (State.gateSeen t₀ p) :=
  h₀.step (Only.gateSeen0 t₀ _) hm₀

theorem Only.hostResyncAll0 (s : State) : Only 0x200 s (State.hostResyncAll s) := by
  unfold State.hostResyncAll
  try dsimp only
  repeat' first
    | with_reducible exact Only.refl _ _
    | with_reducible assumption
    | with_reducible refine Only.hostResync (by decide) ?_
    | with_reducible refine Only.foldl (fun _ _ _ => ?_) ?_

theorem Only.hostResyncAll {m₀ : Nat} {s₀ t₀ : State}  (hm₀ : 0x200 ||| m₀ = m₀)
    (h₀ : Only m₀ s₀ t₀) : Only m₀ s₀ (State.hostResyncAll t₀) :=
  h₀.step (Only.hostResyncAll0 t₀) hm₀

theorem Only.doCipherDispatch0 (s : State) : Only 0x4000 s (State.doCipherDispatch s) := by
  unfold State.doCipherDispatch
  try dsimp only
  repeat' first
    | with_reducible exact Only.refl _ _
    | with_reducible refine Only.ite ?_ ?_
    | with_reducible refine Only.setSec (by decide) ?_
    | with_reducible refine Only.cipherJudge (by decide) ?_
    | split

theorem Only.doCipherDispatch {m₀ : Nat} {s₀ t₀ : State}  (hm₀ : 0x4000 ||| m₀ = m₀)
    (h₀ : Only m₀ s₀ t₀) : Only m₀ s₀ (State.doCipherDispatch t₀) :=
  h₀.step (Only.doCipherDispatch0 t₀) hm₀

theorem Only.ovfFullCheck0 (s : State) : Only 0x10B s (State.ovfFullCheck s) := by
  unfold State.ovfFullCheck
  try dsimp only
  repeat' first
    | with_reducible exact Only.refl _ _
    | with_reducible refine Only.ite ?_ ?_
    | with_reducible refine Only.setBuf (by decide) ?_
    | with_reducible refine Only.raise (by decide) ?_

theorem Only.ovfFullCheck {m₀ : Nat} {s₀ t₀ : State}  (hm₀ : 0x10B ||| m₀ = m₀)
    (h₀ : Only m₀ s₀ t₀) : Only m₀ s₀ (State.ovfFullCheck t₀) :=
  h₀.step (Only.ovfFullCheck0 t₀) hm₀

theorem Only.meter0 (s : State) (i d : Nat) : Only 0x20B s (State.meter s i d).2 := by
  have d1 : 0x20B ||| 0x20B = 0x20B := by decide
  have d2 : 0x200 ||| 0x20B = 0x20B := by decide
  have k : ∀ n p, Only 0x20B s ((s.setPolicer i p).trfCount 1 i n) := fun n p =>
    Only.trfCount d1 (Only.setPolicer d2 (Only.refl _ _))
  exact k _ _

theorem Only.meter {m₀ : Nat} {s₀ t₀ : State} {i d : Nat} (hm₀ : 0x20B ||| m₀ = m₀)
    (h₀ : Only m₀ s₀ t₀) : Only m₀ s₀ (State.meter t₀ i d).2 :=
  h₀.step (Only.meter0 t₀ _ _) hm₀

end Sys2Proof.Machine
end

