-- ==== Sys2Proof/Laws/OnlyEgress.lean ====
section
/-! SUPPORT.
Frames: what lookup, egress and traffic shaping can change
at most. The law named `…0` states the frame of one operation, the other one carries a frame over it. -/

namespace Sys2Proof.Machine

theorem Only.refuseCopy0 (s : State) (f : Frame) (p : Nat) (down : Bool) : Only 0xB s (State.refuseCopy s f p down) := by
  unfold State.refuseCopy
  try dsimp only
  repeat' first
    | with_reducible exact Only.refl _ _
    | with_reducible refine Only.ite ?_ ?_
    | with_reducible refine Only.bump (by decide) ?_
    | with_reducible refine Only.stat (by decide) ?_
    | with_reducible refine Only.tsDiscard (by decide) ?_

theorem Only.refuseCopy {m₀ : Nat} {s₀ t₀ : State} {f : Frame} {p : Nat} {down : Bool} (hm₀ : 0xB ||| m₀ = m₀)
    (h₀ : Only m₀ s₀ t₀) : Only m₀ s₀ (State.refuseCopy t₀ f p down) :=
  h₀.step (Only.refuseCopy0 t₀ _ _ _) hm₀

theorem Only.admission0 (s : State) (f : Frame) (pcp : Nat) (dests : List (Nat × Nat)) (g : Option Guarantee) :
    Only 0x10002B s (State.admission s f pcp dests g).2.2.2 := by
  unfold State.admission
  try dsimp only
  repeat' first
    | with_reducible exact Only.refl _ _
    | with_reducible assumption
    | with_reducible refine Only.bump (by decide) ?_
    | with_reducible refine Only.lose (by decide) ?_
    | with_reducible refine Only.pathLost (by decide) ?_
    | with_reducible refine Only.raise (by decide) ?_
    | with_reducible refine Only.refuseCopy (by decide) ?_
    | with_reducible refine Only.stat (by decide) ?_
    | with_reducible refine Only.tsDiscard (by decide) ?_
    | with_reducible refine Only.foldlSnd222 (fun _ _ _ _ _ _ => ?_) ?_
    | split

theorem Only.admission {m₀ : Nat} {s₀ t₀ : State} {f : Frame} {pcp : Nat} {dests : List (Nat × Nat)}
    {g : Option Guarantee} (hm₀ : 0x10002B ||| m₀ = m₀)
        (h₀ : Only m₀ s₀ t₀) : Only m₀ s₀ (State.admission t₀ f pcp dests g).2.2.2 :=
  h₀.step (Only.admission0 t₀ _ _ _ _) hm₀

theorem Only.auditPort0 (s : State) (t : Nat) : Only 0x20B s (State.auditPort s t) := by
  unfold State.auditPort
  try dsimp only
  repeat' first
    | with_reducible exact Only.refl _ _
    | with_reducible assumption
    | with_reducible refine Only.ite ?_ ?_
    | with_reducible refine Only.bump (by decide) ?_
    | with_reducible refine Only.rset (by decide) ?_
    | with_reducible refine Only.tportMod (by decide) ?_
    | with_reducible refine Only.raiseLimited (by decide) ?_
    | with_reducible refine Only.foldl (fun _ _ _ => ?_) ?_

theorem Only.auditPort {m₀ : Nat} {s₀ t₀ : State} {t : Nat} (hm₀ : 0x20B ||| m₀ = m₀)
    (h₀ : Only m₀ s₀ t₀) : Only m₀ s₀ (State.auditPort t₀ t) :=
  h₀.step (Only.auditPort0 t₀ _) hm₀

theorem Only.boundLate0 (s : State) (f : Frame) (id h : Nat) : Only 0x10002B s (State.boundLate s f id h) := by
  unfold State.boundLate
  try dsimp only
  repeat' first
    | with_reducible exact Only.refl _ _
    | with_reducible refine Only.verdictLate (by decide) ?_
    | split

theorem Only.boundLate {m₀ : Nat} {s₀ t₀ : State} {f : Frame} {id h : Nat} (hm₀ : 0x10002B ||| m₀ = m₀)
    (h₀ : Only m₀ s₀ t₀) : Only m₀ s₀ (State.boundLate t₀ f id h) :=
  h₀.step (Only.boundLate0 t₀ _ _ _) hm₀

theorem Only.conformDeny0 (s : State) (h rule : Nat) : Only 0x400B s (State.conformDeny s h rule) := by
  unfold State.conformDeny
  try dsimp only
  repeat' first
    | with_reducible exact Only.refl _ _
    | with_reducible refine Only.bump (by decide) ?_
    | with_reducible refine Only.setSec (by decide) ?_
    | with_reducible refine Only.raiseLimited (by decide) ?_
    | split

theorem Only.conformDeny {m₀ : Nat} {s₀ t₀ : State} {h rule : Nat} (hm₀ : 0x400B ||| m₀ = m₀)
    (h₀ : Only m₀ s₀ t₀) : Only m₀ s₀ (State.conformDeny t₀ h rule) :=
  h₀.step (Only.conformDeny0 t₀ _ _) hm₀

theorem Only.copyQueue0 (s : State) (k : Lk) (d : State.Dest) (p : Nat) : Only 0xB s (State.copyQueue s k d p).2 := by
  unfold State.copyQueue
  try dsimp only
  repeat' first
    | with_reducible exact Only.refl _ _
    | with_reducible refine Only.bump (by decide) ?_
    | split

theorem Only.copyQueue {m₀ : Nat} {s₀ t₀ : State} {k : Lk} {d : State.Dest} {p : Nat} (hm₀ : 0xB ||| m₀ = m₀)
    (h₀ : Only m₀ s₀ t₀) : Only m₀ s₀ (State.copyQueue t₀ k d p).2 :=
  h₀.step (Only.copyQueue0 t₀ _ _ _) hm₀

theorem Only.dropAtStage0 (s : State) (f : Frame) (e : Effects) : Only 0x304BEB s (State.dropAtStage s f e) := by
  unfold State.dropAtStage
  try dsimp only
  repeat' first
    | with_reducible exact Only.refl _ _
    | with_reducible assumption
    | with_reducible refine Only.judge (by decide) ?_
    | with_reducible refine Only.lose (by decide) ?_
    | with_reducible refine Only.fmod (by decide) ?_
    | with_reducible refine Only.tsNowhere (by decide) ?_
    | with_reducible refine Only.foldl (fun _ _ _ => ?_) ?_

theorem Only.dropAtStage {m₀ : Nat} {s₀ t₀ : State} {f : Frame} {e : Effects} (hm₀ : 0x304BEB ||| m₀ = m₀)
    (h₀ : Only m₀ s₀ t₀) : Only m₀ s₀ (State.dropAtStage t₀ f e) :=
  h₀.step (Only.dropAtStage0 t₀ _ _) hm₀

theorem Only.nonconform0 (s : State) (id h : Nat) : Only 0x2B s (State.nonconform s id h) := by
  unfold State.nonconform
  try dsimp only
  repeat' first
    | with_reducible exact Only.refl _ _
    | with_reducible refine Only.ite ?_ ?_
    | with_reducible refine Only.bump (by decide) ?_
    | with_reducible refine Only.gmod (by decide) ?_

theorem Only.nonconform {m₀ : Nat} {s₀ t₀ : State} {id h : Nat} (hm₀ : 0x2B ||| m₀ = m₀)
    (h₀ : Only m₀ s₀ t₀) : Only m₀ s₀ (State.nonconform t₀ id h) :=
  h₀.step (Only.nonconform0 t₀ _ _) hm₀

theorem Only.dropDecision0 (s : State) (f : Frame) (entry : Option (Nat × Nat)) (ports : List Nat) (cause : Nat) :
    Only 0x43AB s (State.dropDecision s f entry ports cause) := by
  unfold State.dropDecision
  try dsimp only
  repeat' first
    | with_reducible exact Only.refl _ _
    | with_reducible assumption
    | with_reducible refine Only.ite ?_ ?_
    | with_reducible refine Only.nonconform (by decide) ?_
    | with_reducible refine Only.gc (by decide) ?_
    | with_reducible refine Only.failErrors (by decide) ?_
    | with_reducible refine Only.pnDone (by decide) ?_
    | with_reducible refine Only.fmod (by decide) ?_
    | with_reducible refine Only.tsNowhere (by decide) ?_
    | with_reducible refine Only.tsDiscard (by decide) ?_
    | with_reducible refine Only.foldl (fun _ _ _ => ?_) ?_
    | split

theorem Only.dropDecision {m₀ : Nat} {s₀ t₀ : State} {f : Frame} {entry : Option (Nat × Nat)} {ports : List Nat}
    {cause : Nat} (hm₀ : 0x43AB ||| m₀ = m₀) (h₀ : Only m₀ s₀ t₀) : Only m₀ s₀ (State.dropDecision t₀ f entry ports cause) :=
  h₀.step (Only.dropDecision0 t₀ _ _ _ _) hm₀

theorem Only.enqueue0 (s : State) (f : Frame) (pcp : Nat) (dests : List (Nat × Nat)) (g : Option Guarantee)
    (held : Bool) : Only 0x304BEB s (State.enqueue s f pcp dests g held) := by
  unfold State.enqueue
  try dsimp only
  repeat' first
    | with_reducible exact Only.refl _ _
    | with_reducible assumption
    | with_reducible refine Only.ite ?_ ?_
    | with_reducible refine Only.bump (by decide) ?_
    | with_reducible refine Only.admission (by decide) ?_
    | with_reducible refine Only.judge (by decide) ?_
    | with_reducible refine Only.takeRecord (by decide) (by with_reducible assumption) ?_
    | with_reducible refine Only.fmod (by decide) ?_
    | with_reducible refine Only.cbsUpdate (by decide) ?_
    | with_reducible refine Only.flowCheck (by decide) ?_
    | with_reducible refine Only.spillUpdate (by decide) ?_
    | with_reducible refine Only.setFr (by decide) ?_
    | with_reducible refine Only.foldl (fun _ _ _ => ?_) ?_
    | split

theorem Only.enqueue {m₀ : Nat} {s₀ t₀ : State} {f : Frame} {pcp : Nat} {dests : List (Nat × Nat)}
    {g : Option Guarantee} {held : Bool} (hm₀ : 0x304BEB ||| m₀ = m₀)
        (h₀ : Only m₀ s₀ t₀) : Only m₀ s₀ (State.enqueue t₀ f pcp dests g held) :=
  h₀.step (Only.enqueue0 t₀ _ _ _ _ _) hm₀

theorem Only.generate0 (s : State) (k : Lk) : Only 0x20B s (State.generate s k).2.2 := by
  unfold State.generate
  try dsimp only
  repeat' first
    | with_reducible exact Only.refl _ _
    | with_reducible refine Only.ite ?_ ?_
    | with_reducible refine Only.bump (by decide) ?_
    | with_reducible refine Only.setTrf (by decide) ?_
    | with_reducible refine Only.trfCount (by decide) ?_
    | with_reducible refine Only.emit (Nat.zero_or _) ?_
    | split

theorem Only.generate {m₀ : Nat} {s₀ t₀ : State} {k : Lk} (hm₀ : 0x20B ||| m₀ = m₀)
    (h₀ : Only m₀ s₀ t₀) : Only m₀ s₀ (State.generate t₀ k).2.2 :=
  h₀.step (Only.generate0 t₀ _) hm₀

theorem Only.decideFrame {m : Nat} {s t start : State} {f : Frame} {k : Lk} {pop held : Bool}
    (hm : 0x304BEB ||| m = m) (hs : Only m s start) (ht : Only m s t) :
    Only m s (State.decideFrame t start f k pop held) := by
  unfold State.decideFrame
  extract_lets d pcp u
  have hu : Only m s u := Only.fmod (Only.groups hm (by decide)) ht
  clear_value u d pcp
  split
  · exact hu
  · split
    · exact Only.dropDecision (Only.groups hm (by decide)) { hs with free := hu.free }
    · have hg := Only.generate (k := k) (Only.groups hm (by decide)) hu
      generalize u.generate k = r at hg ⊢
      obtain ⟨b, seq, v⟩ := r
      cases b
      · dsimp only at hg ⊢
        exact Only.ite (Only.dropAtStage (Only.groups hm (by decide)) hg) (Only.dropAtStage (Only.groups hm (by decide))
            (Only.fmod (Only.groups hm (by decide))
          (Only.foldl (fun _ _ h => Only.tsDiscard (Only.groups hm (by decide)) h) hg)))
      · dsimp -zeta only at hg ⊢
        extract_lets v1 v2 f2 v3
        have h2 : Only m s v2 := Only.fmod (Only.groups hm (by decide)) (Only.ite (Only.bump (Only.groups hm
            (by decide)) hg) hg)
        clear_value v2 f2
        have h3 : Only m s v3 := Only.foldl (fun _ _ h => Only.lose (Only.groups hm (by decide)) h) h2
        clear_value v3
        split
        · exact Only.dropAtStage (Only.groups hm (by decide)) (Only.bump (Only.groups hm (by decide)) h3)
        · refine Only.enqueue (Only.groups hm (by decide)) (Only.foldlSnd (fun _ _ p h => ?_) h3)
          dsimp only
          have hc := Only.copyQueue (k := k) (d := d) (p := p) (Only.groups hm (by decide)) h
          split
          · rename_i e; exact Only.snd e hc
          · rename_i e; exact Only.refuseCopy (Only.groups hm (by decide)) (Only.snd e hc)

theorem Only.verifyStart0 (s : State) (p : Nat) : Only 0x200 s (State.verifyStart s p) := by
  unfold State.verifyStart
  try dsimp only
  repeat' first
    | with_reducible exact Only.refl _ _
    | with_reducible refine Only.ite ?_ ?_
    | with_reducible refine Only.tportMod (by decide) ?_
    | with_reducible refine Only.emit (Nat.zero_or _) ?_

theorem Only.verifyStart {m₀ : Nat} {s₀ t₀ : State} {p : Nat} (hm₀ : 0x200 ||| m₀ = m₀)
    (h₀ : Only m₀ s₀ t₀) : Only m₀ s₀ (State.verifyStart t₀ p) :=
  h₀.step (Only.verifyStart0 t₀ _) hm₀

theorem Only.regroupAll0 (s : State) : Only 0x200 s (State.regroupAll s) := by
  unfold State.regroupAll
  try dsimp only
  repeat' first
    | with_reducible exact Only.refl _ _
    | with_reducible refine Only.setTrf (by decide) ?_

theorem Only.regroupAll {m₀ : Nat} {s₀ t₀ : State}  (hm₀ : 0x200 ||| m₀ = m₀)
    (h₀ : Only m₀ s₀ t₀) : Only m₀ s₀ (State.regroupAll t₀) :=
  h₀.step (Only.regroupAll0 t₀) hm₀

theorem Only.enterEntry0 (s : State) (p : Nat) (e : GateEntry) : Only 0x20B s (State.enterEntry s p e) := by
  unfold State.enterEntry
  try dsimp only
  repeat' first
    | with_reducible exact Only.refl _ _
    | with_reducible refine Only.ite ?_ ?_
    | with_reducible refine Only.bump (by decide) ?_
    | with_reducible refine Only.tportMod (by decide) ?_

theorem Only.enterEntry {m₀ : Nat} {s₀ t₀ : State} {p : Nat} {e : GateEntry} (hm₀ : 0x20B ||| m₀ = m₀)
    (h₀ : Only m₀ s₀ t₀) : Only m₀ s₀ (State.enterEntry t₀ p e) :=
  h₀.step (Only.enterEntry0 t₀ _ _) hm₀

theorem Only.stallCheck0 (s : State) (p q : Nat) : Only 0x18B s (State.stallCheck s p q) := by
  unfold State.stallCheck
  try dsimp only
  repeat' first
    | with_reducible exact Only.refl _ _
    | with_reducible refine Only.ite ?_ ?_
    | with_reducible refine Only.bump (by decide) ?_
    | with_reducible refine Only.setBuf (by decide) ?_
    | with_reducible refine Only.raiseLimited (by decide) ?_
    | with_reducible refine Only.cmod (by decide) ?_
    | split

theorem Only.stallCheck {m₀ : Nat} {s₀ t₀ : State} {p q : Nat} (hm₀ : 0x18B ||| m₀ = m₀)
    (h₀ : Only m₀ s₀ t₀) : Only m₀ s₀ (State.stallCheck t₀ p q) :=
  h₀.step (Only.stallCheck0 t₀ _ _) hm₀

theorem Only.tsSent0 (s : State) (f : Frame) (c : Copy) : Only 0xB s (State.tsSent s f c) := by
  unfold State.tsSent
  try dsimp only
  repeat' first
    | with_reducible exact Only.refl _ _
    | with_reducible refine Only.ite ?_ ?_
    | with_reducible refine Only.tsqPut (by decide) ?_
    | split

theorem Only.tsSent {m₀ : Nat} {s₀ t₀ : State} {f : Frame} {c : Copy} (hm₀ : 0xB ||| m₀ = m₀)
    (h₀ : Only m₀ s₀ t₀) : Only m₀ s₀ (State.tsSent t₀ f c) :=
  h₀.step (Only.tsSent0 t₀ _ _) hm₀

theorem Only.doEgressCopyEnd0 (s : State) (p : Nat) : Only 0x3103AF s (State.doEgressCopyEnd s p) := by
  unfold State.doEgressCopyEnd
  try dsimp only
  repeat' first
    | with_reducible exact Only.refl _ _
    | with_reducible refine Only.ite ?_ ?_
    | with_reducible refine Only.takeCopy (by decide) ?_
    | with_reducible refine Only.tsSent (by decide) ?_
    | with_reducible refine Only.bump (by decide) ?_
    | with_reducible refine Only.gc (by decide) ?_
    | with_reducible refine Only.laneGap (by decide) ?_
    | with_reducible refine Only.sentCounts (by decide) ?_
    | with_reducible refine Only.raiseLimited (by decide) ?_
    | with_reducible refine Only.waitUntil (by decide) ?_
    | with_reducible refine Only.tailAbort (by decide) ?_
    | with_reducible refine Only.cbsUpdate (by decide) ?_
    | with_reducible refine Only.setFr (by decide) ?_
    | with_reducible refine Only.capturePut (by decide) ?_
    | with_reducible refine Only.emit (Nat.zero_or _) ?_
    | with_reducible refine Only.deficitTake (by decide) ?_
    | split

theorem Only.doEgressCopyEnd {m₀ : Nat} {s₀ t₀ : State} {p : Nat} (hm₀ : 0x3103AF ||| m₀ = m₀)
    (h₀ : Only m₀ s₀ t₀) : Only m₀ s₀ (State.doEgressCopyEnd t₀ p) :=
  h₀.step (Only.doEgressCopyEnd0 t₀ _) hm₀

theorem Only.preempt0 (s : State) (c : Copy) (f : Frame) {u₀ : State} (e₀ : (State.preempt s c f) = some u₀) :
    Only 0x8B s u₀ := by
  unfold State.preempt at e₀
  extract_lets n frag len at e₀
  split at e₀
  · cases e₀; exact Only.bump (by decide) (Only.cmod (by decide) (Only.refl _ _))
  · cases e₀

theorem Only.preempt {m₀ : Nat} {s₀ t₀ u₀ : State} {c : Copy} {f : Frame} (hm₀ : 0x8B ||| m₀ = m₀) (e₀ :
    (State.preempt t₀ c f) = some u₀) (h₀ : Only m₀ s₀ t₀) : Only m₀ s₀ u₀ :=
  h₀.step (Only.preempt0 t₀ _ _ e₀) hm₀

theorem Only.serve0 (s : State) (p : Nat) (ok : Nat → Bool) : Only 0x200 s (State.serve s p ok).2 := by
  unfold State.serve
  try dsimp only
  repeat' first
    | with_reducible exact Only.refl _ _
    | with_reducible refine Only.ite ?_ ?_
    | with_reducible refine Only.tportMod (by decide) ?_

theorem Only.serve {m₀ : Nat} {s₀ t₀ : State} {p : Nat} {ok : Nat → Bool} (hm₀ : 0x200 ||| m₀ = m₀)
    (h₀ : Only m₀ s₀ t₀) : Only m₀ s₀ (State.serve t₀ p ok).2 :=
  h₀.step (Only.serve0 t₀ _ _) hm₀

theorem Only.msMod0 (s : State) (p : Nat) (f : MsPort → MsPort) : Only 0x4000 s (State.msMod s p f) := by
  unfold State.msMod
  try dsimp only
  repeat' first
    | with_reducible exact Only.refl _ _
    | with_reducible refine Only.setSec (by decide) ?_

theorem Only.msMod {m₀ : Nat} {s₀ t₀ : State} {p : Nat} {f : MsPort → MsPort} (hm₀ : 0x4000 ||| m₀ = m₀)
    (h₀ : Only m₀ s₀ t₀) : Only m₀ s₀ (State.msMod t₀ p f) :=
  h₀.step (Only.msMod0 t₀ _ _) hm₀

theorem Only.pnWarn0 (s : State) (p an : Nat) : Only 0x400B s (State.pnWarn s p an) := by
  unfold State.pnWarn
  try dsimp only
  repeat' first
    | with_reducible exact Only.refl _ _
    | with_reducible refine Only.ite ?_ ?_
    | with_reducible refine Only.raise (by decide) ?_
    | with_reducible refine Only.msMod (by decide) ?_
    | split

theorem Only.pnWarn {m₀ : Nat} {s₀ t₀ : State} {p an : Nat} (hm₀ : 0x400B ||| m₀ = m₀)
    (h₀ : Only m₀ s₀ t₀) : Only m₀ s₀ (State.pnWarn t₀ p an) :=
  h₀.step (Only.pnWarn0 t₀ _ _) hm₀

theorem Only.pnExhausted0 (s : State) (p an : Nat) : Only 0x400B s (State.pnExhausted s p an) := by
  unfold State.pnExhausted
  try dsimp only
  repeat' first
    | with_reducible exact Only.refl _ _
    | with_reducible refine Only.ite ?_ ?_
    | with_reducible refine Only.raise (by decide) ?_
    | with_reducible refine Only.pnWarn (by decide) ?_
    | with_reducible refine Only.msMod (by decide) ?_

theorem Only.pnExhausted {m₀ : Nat} {s₀ t₀ : State} {p an : Nat} (hm₀ : 0x400B ||| m₀ = m₀)
    (h₀ : Only m₀ s₀ t₀) : Only m₀ s₀ (State.pnExhausted t₀ p an) :=
  h₀.step (Only.pnExhausted0 t₀ _ _) hm₀

theorem ProtectOnly.protect0 (s : State) (f : Frame) (p : Nat) : ProtectOnly 0x400B s (State.protect s f p) := by
  unfold State.protect
  try dsimp only
  repeat' first
    | with_reducible exact Only.refl _ _
    | with_reducible refine Only.ite ?_ ?_
    | with_reducible refine Only.bump (by decide) ?_
    | with_reducible refine Only.pnWarn (by decide) ?_
    | with_reducible refine Only.msMod (by decide) ?_
    | with_reducible refine Only.pnExhausted (by decide) ?_
    | with_reducible exact ProtectOnly.plain
    | with_reducible exact ProtectOnly.discard
    | with_reducible refine ProtectOnly.sa ?_
    | split

theorem ProtectOnly.protect {m₀ : Nat} {s₀ t₀ : State} {f : Frame} {p : Nat} (hm₀ : 0x400B ||| m₀ = m₀)
    (h₀ : Only m₀ s₀ t₀) : ProtectOnly m₀ s₀ (State.protect t₀ f p) :=
  ProtectOnly.after h₀ (ProtectOnly.protect0 t₀ _ _) hm₀

theorem Only.startCopy0 (s : State) (c : Copy) (f : Frame) (pn : Option Nat) : Only 0x1000AB s
    (State.startCopy s c f pn) := by
  unfold State.startCopy
  try dsimp only
  repeat' first
    | with_reducible exact Only.refl _ _
    | with_reducible refine Only.depart (by decide) ?_
    | with_reducible refine Only.fmod (by decide) ?_
    | with_reducible refine Only.cmod (by decide) ?_
    | with_reducible refine Only.emit (Nat.zero_or _) ?_

theorem Only.startCopy {m₀ : Nat} {s₀ t₀ : State} {c : Copy} {f : Frame} {pn : Option Nat} (hm₀ : 0x1000AB ||| m₀ = m₀)
    (h₀ : Only m₀ s₀ t₀) : Only m₀ s₀ (State.startCopy t₀ c f pn) :=
  h₀.step (Only.startCopy0 t₀ _ _ _) hm₀

theorem Only.resumeCopy0 (s : State) (c : Copy) : Only 0x103AF s (State.resumeCopy s c) := by
  unfold State.resumeCopy
  try dsimp only
  repeat' first
    | with_reducible exact Only.refl _ _
    | with_reducible refine Only.takeCopy (by decide) ?_
    | with_reducible refine Only.gc (by decide) ?_
    | with_reducible refine Only.cmod (by decide) ?_
    | with_reducible refine Only.waitUntil (by decide) ?_
    | with_reducible refine Only.tailAbort (by decide) ?_
    | split

theorem Only.resumeCopy {m₀ : Nat} {s₀ t₀ : State} {c : Copy} (hm₀ : 0x103AF ||| m₀ = m₀)
    (h₀ : Only m₀ s₀ t₀) : Only m₀ s₀ (State.resumeCopy t₀ c) :=
  h₀.step (Only.resumeCopy0 t₀ _) hm₀

theorem Only.selectLoop0 (x0 x1 : Nat) (x2 : Nat → Bool) (st : State) : Only 0x1143AF st (State.selectLoop x0 x1 x2 st) := by
  induction x0 generalizing x1 x2 st with
  | zero => unfold State.selectLoop; exact Only.refl _ _
  | succ n ih =>
    unfold State.selectLoop
    try dsimp only
    repeat' first
      | with_reducible refine Only.trans ?_ (ih _ _ _)
      | with_reducible exact Only.refl _ _
      | with_reducible refine Only.ite ?_ ?_
      | with_reducible refine Only.bump (by decide) ?_
      | with_reducible refine Only.serve (by decide) ?_
      | with_reducible refine Only.gc (by decide) ?_
      | with_reducible refine ProtectOnly.protect (by decide) ?_
      | with_reducible refine Only.lose (by decide) ?_
      | with_reducible refine Only.startCopy (by decide) ?_
      | with_reducible refine Only.resumeCopy (by decide) ?_
      | with_reducible refine Only.stat (by decide) ?_
      | with_reducible refine Only.discardCopy (by decide) ?_
      | with_reducible refine Only.snd (by with_reducible assumption) ?_
      | with_reducible refine ProtectOnly.of_sa (by with_reducible assumption) ?_
      | split

theorem Only.selectLoop {m₀ : Nat} {s₀ t₀ : State} {x0 x1 : Nat} {x2 : Nat → Bool} (hm₀ : 0x1143AF ||| m₀ = m₀)
    (h₀ : Only m₀ s₀ t₀) : Only m₀ s₀ (State.selectLoop x0 x1 x2 t₀) :=
  h₀.step (Only.selectLoop0 _ _ _ t₀) hm₀

theorem Only.pruneHead0 (s : State) (p q : Nat) {u₀ : State} (e₀ : (State.pruneHead s p q) = some u₀) :
    Only 0x1002AB s u₀ := by
  unfold State.pruneHead at e₀
  split at e₀
  · cases e₀
  · split at e₀
    · cases e₀; exact Only.pathLost (by decide) (Only.discardCopy (by decide) (Only.refl _ _))
    · split at e₀
      · cases e₀; exact Only.lose (by decide) (Only.stat (by decide) (Only.discardCopy (by decide) (Only.refl _ _)))
      · split at e₀
        · cases e₀
          exact Only.lose (by decide) (Only.stat (by decide) (Only.tportMod (by decide) (Only.raiseLimited (by decide)
            (Only.bump (by decide) (Only.discardCopy (by decide) (Only.refl _ _))))))
        · cases e₀

theorem Only.pruneHead {m₀ : Nat} {s₀ t₀ u₀ : State} {p q : Nat} (hm₀ : 0x1002AB ||| m₀ = m₀) (e₀ :
    (State.pruneHead t₀ p q) = some u₀) (h₀ : Only m₀ s₀ t₀) : Only m₀ s₀ u₀ :=
  h₀.step (Only.pruneHead0 t₀ _ _ e₀) hm₀

theorem Only.pruneQueue0 (x0 x1 x2 : Nat) (st : State) : Only 0x1002AB st (State.pruneQueue x0 x1 x2 st) := by
  induction x0 generalizing x1 x2 st with
  | zero => unfold State.pruneQueue; exact Only.refl _ _
  | succ n ih =>
    unfold State.pruneQueue
    try dsimp only
    repeat' first
      | with_reducible refine Only.trans ?_ (ih _ _ _)
      | with_reducible exact Only.refl _ _
      | with_reducible refine Only.pruneHead (by decide) (by with_reducible assumption) ?_
      | split

theorem Only.pruneQueue {m₀ : Nat} {s₀ t₀ : State} {x0 x1 x2 : Nat} (hm₀ : 0x1002AB ||| m₀ = m₀)
    (h₀ : Only m₀ s₀ t₀) : Only m₀ s₀ (State.pruneQueue x0 x1 x2 t₀) :=
  h₀.step (Only.pruneQueue0 _ _ _ t₀) hm₀

theorem Only.doEgressSelect0 (s : State) (p : Nat) : Only 0x1143AF s (State.doEgressSelect s p) := by
  unfold State.doEgressSelect
  try dsimp only
  repeat' first
    | with_reducible exact Only.refl _ _
    | with_reducible assumption
    | with_reducible refine Only.ite ?_ ?_
    | with_reducible refine Only.preempt (by decide) (by with_reducible assumption) ?_
    | with_reducible refine Only.stallCheck (by decide) ?_
    | with_reducible refine Only.gc (by decide) ?_
    | with_reducible refine Only.selectLoop (by decide) ?_
    | with_reducible refine Only.waitUntil (by decide) ?_
    | with_reducible refine Only.pruneQueue (by decide) ?_
    | with_reducible refine Only.cbsUpdate (by decide) ?_
    | with_reducible refine Only.foldl (fun _ _ _ => ?_) ?_
    | split

theorem Only.doEgressSelect {m₀ : Nat} {s₀ t₀ : State} {p : Nat} (hm₀ : 0x1143AF ||| m₀ = m₀)
    (h₀ : Only m₀ s₀ t₀) : Only m₀ s₀ (State.doEgressSelect t₀ p) :=
  h₀.step (Only.doEgressSelect0 t₀ _) hm₀

theorem Only.doFairnessAuditWindow0 (s : State) : Only 0x1020F s (State.doFairnessAuditWindow s) := by
  unfold State.doFairnessAuditWindow
  try dsimp only
  repeat' first
    | with_reducible exact Only.refl _ _
    | with_reducible assumption
    | with_reducible refine Only.ite ?_ ?_
    | with_reducible refine Only.bump (by decide) ?_
    | with_reducible refine Only.auditPort (by decide) ?_
    | with_reducible refine Only.waitUntil (by decide) ?_
    | with_reducible refine Only.foldl (fun _ _ _ => ?_) ?_

theorem Only.doFairnessAuditWindow {m₀ : Nat} {s₀ t₀ : State}  (hm₀ : 0x1020F ||| m₀ = m₀)
    (h₀ : Only m₀ s₀ t₀) : Only m₀ s₀ (State.doFairnessAuditWindow t₀) :=
  h₀.step (Only.doFairnessAuditWindow0 t₀) hm₀

theorem Only.doFrerLatentPeriod0 (s : State) (i : Nat) : Only 0x1020F s (State.doFrerLatentPeriod s i) := by
  unfold State.doFrerLatentPeriod
  try dsimp only
  repeat' first
    | with_reducible exact Only.refl _ _
    | with_reducible refine Only.ite ?_ ?_
    | with_reducible refine Only.recovMod (by decide) ?_
    | with_reducible refine Only.raise (by decide) ?_
    | with_reducible refine Only.waitUntil (by decide) ?_

theorem Only.doFrerLatentPeriod {m₀ : Nat} {s₀ t₀ : State} {i : Nat} (hm₀ : 0x1020F ||| m₀ = m₀)
    (h₀ : Only m₀ s₀ t₀) : Only m₀ s₀ (State.doFrerLatentPeriod t₀ i) :=
  h₀.step (Only.doFrerLatentPeriod0 t₀ _) hm₀

theorem Only.doFrerResetTimeout0 (s : State) (i : Nat) : Only 0x1020F s (State.doFrerResetTimeout s i) := by
  unfold State.doFrerResetTimeout
  try dsimp only
  repeat' first
    | with_reducible exact Only.refl _ _
    | with_reducible refine Only.ite ?_ ?_
    | with_reducible refine Only.recovMod (by decide) ?_
    | with_reducible refine Only.raiseLimited (by decide) ?_
    | with_reducible refine Only.waitUntil (by decide) ?_
    | with_reducible refine Only.trfCount (by decide) ?_

theorem Only.doFrerResetTimeout {m₀ : Nat} {s₀ t₀ : State} {i : Nat} (hm₀ : 0x1020F ||| m₀ = m₀)
    (h₀ : Only m₀ s₀ t₀) : Only m₀ s₀ (State.doFrerResetTimeout t₀ i) :=
  h₀.step (Only.doFrerResetTimeout0 t₀ _) hm₀

theorem Only.hostNext0 (s : State) (g : GateCtl) (l : HostList) : Only 0x10004 s (State.hostNext s g l).1 := by
  unfold State.hostNext
  try dsimp only
  repeat' first
    | with_reducible exact Only.refl _ _
    | with_reducible refine Only.waitDom (by decide) ?_
    | with_reducible refine Only.waitUntil (by decide) ?_
    | split

theorem Only.hostNext {m₀ : Nat} {s₀ t₀ : State} {g : GateCtl} {l : HostList} (hm₀ : 0x10004 ||| m₀ = m₀)
    (h₀ : Only m₀ s₀ t₀) : Only m₀ s₀ (State.hostNext t₀ g l).1 :=
  h₀.step (Only.hostNext0 t₀ _ _) hm₀

theorem Only.doHostGclChange0 (s : State) (stream : Bool) (i : Nat) : Only 0x1020F s (State.doHostGclChange s stream i) := by
  unfold State.doHostGclChange
  try dsimp only
  repeat' first
    | with_reducible exact Only.refl _ _
    | with_reducible refine Only.ite ?_ ?_
    | with_reducible refine Only.enterEntry (by decide) ?_
    | with_reducible refine Only.waitDom (by decide) ?_
    | with_reducible refine Only.raise (by decide) ?_
    | with_reducible refine Only.cbsUpdate (by decide) ?_
    | with_reducible refine Only.setTrf (by decide) ?_
    | with_reducible refine Only.gateSeen (by decide) ?_
    | split

theorem Only.doHostGclChange {m₀ : Nat} {s₀ t₀ : State} {stream : Bool} {i : Nat} (hm₀ : 0x1020F ||| m₀ = m₀)
    (h₀ : Only m₀ s₀ t₀) : Only m₀ s₀ (State.doHostGclChange t₀ stream i) :=
  h₀.step (Only.doHostGclChange0 t₀ _ _) hm₀

theorem Only.doMacHoldAssert0 (s : State) (p : Nat) : Only 0x1020F s (State.doMacHoldAssert s p) := by
  unfold State.doMacHoldAssert
  try dsimp only
  repeat' first
    | with_reducible exact Only.refl _ _
    | with_reducible refine Only.ite ?_ ?_
    | with_reducible refine Only.bump (by decide) ?_
    | with_reducible refine Only.tportMod (by decide) ?_
    | with_reducible refine Only.waitUntil (by decide) ?_
    | split

theorem Only.doMacHoldAssert {m₀ : Nat} {s₀ t₀ : State} {p : Nat} (hm₀ : 0x1020F ||| m₀ = m₀)
    (h₀ : Only m₀ s₀ t₀) : Only m₀ s₀ (State.doMacHoldAssert t₀ p) :=
  h₀.step (Only.doMacHoldAssert0 t₀ _) hm₀

theorem StageOnly.stageMeter0 (s : State) (f : Frame) (k : Lk) (i : Nat) (flt : Option Nat) : StageOnly 0x20B s
    (State.stageMeter s f k i flt) := by
  unfold State.stageMeter
  extract_lets pol d k'
  have h := Only.meter0 s i d
  generalize s.meter i d = r at h ⊢
  obtain ⟨b, t⟩ := r
  have h : Only 0x20B s t := h
  cases b
  · dsimp only
    split
    · exact h
    · split <;> exact h
  · exact h

theorem StageOnly.stageMeter {m₀ : Nat} {s₀ t₀ : State} {f : Frame} {k : Lk} {i : Nat} {flt : Option Nat}
    (hm₀ : 0x20B ||| m₀ = m₀) (h₀ : Only m₀ s₀ t₀) : StageOnly m₀ s₀ (State.stageMeter t₀ f k i flt) :=
  StageOnly.after h₀ (StageOnly.stageMeter0 t₀ _ _ _ _) hm₀

theorem StageOnly.stageFilter0 (s : State) (f : Frame) (k : Lk) : StageOnly 0x28B s (State.stageFilter s f k) := by
  unfold State.stageFilter
  try dsimp only
  repeat' first
    | with_reducible exact Only.refl _ _
    | with_reducible refine Only.ite ?_ ?_
    | with_reducible refine StageOnly.stageMeter (by decide) ?_
    | with_reducible refine Only.fmod (by decide) ?_
    | with_reducible refine Only.raise (by decide) ?_
    | with_reducible refine Only.setTrf (by decide) ?_
    | with_reducible refine StageOnly.go ?_
    | with_reducible refine StageOnly.drop ?_
    | with_reducible refine StageOnly.of_go (by with_reducible assumption) ?_
    | with_reducible refine StageOnly.of_drop (by with_reducible assumption) ?_
    | split

theorem StageOnly.stageFilter {m₀ : Nat} {s₀ t₀ : State} {f : Frame} {k : Lk} (hm₀ : 0x28B ||| m₀ = m₀)
    (h₀ : Only m₀ s₀ t₀) : StageOnly m₀ s₀ (State.stageFilter t₀ f k) :=
  StageOnly.after h₀ (StageOnly.stageFilter0 t₀ _ _) hm₀

theorem StageOnly.stageConform0 (s : State) (f : Frame) (k : Lk) : StageOnly 0x2B s (State.stageConform s f k) := by
  unfold State.stageConform
  try dsimp only
  repeat' first
    | with_reducible exact Only.refl _ _
    | with_reducible refine Only.nonconform (by decide) ?_
    | with_reducible refine Only.gmod (by decide) ?_
    | with_reducible refine StageOnly.go ?_
    | with_reducible refine StageOnly.drop ?_
    | split

theorem StageOnly.stageConform {m₀ : Nat} {s₀ t₀ : State} {f : Frame} {k : Lk} (hm₀ : 0x2B ||| m₀ = m₀)
    (h₀ : Only m₀ s₀ t₀) : StageOnly m₀ s₀ (State.stageConform t₀ f k) :=
  StageOnly.after h₀ (StageOnly.stageConform0 t₀ _ _) hm₀

theorem Only.ruleCount0 (s : State) (i : Nat) : Only 0x400B s (State.ruleCount s i) := by
  unfold State.ruleCount
  try dsimp only
  repeat' first
    | with_reducible exact Only.refl _ _
    | with_reducible refine Only.setSec (by decide) ?_
    | with_reducible refine Only.bumpView (by decide) ?_

theorem Only.ruleCount {m₀ : Nat} {s₀ t₀ : State} {i : Nat} (hm₀ : 0x400B ||| m₀ = m₀)
    (h₀ : Only m₀ s₀ t₀) : Only m₀ s₀ (State.ruleCount t₀ i) :=
  h₀.step (Only.ruleCount0 t₀ _) hm₀

theorem StageOnly.stageFirewall0 (s : State) (k : Lk) : StageOnly 0x400B s (State.stageFirewall s k) := by
  unfold State.stageFirewall
  try dsimp only
  repeat' first
    | with_reducible exact Only.refl _ _
    | with_reducible refine Only.conformDeny (by decide) ?_
    | with_reducible refine Only.bump (by decide) ?_
    | with_reducible refine Only.ruleCount (by decide) ?_
    | with_reducible refine StageOnly.go ?_
    | with_reducible refine StageOnly.drop ?_
    | split

theorem StageOnly.stageFirewall {m₀ : Nat} {s₀ t₀ : State} {k : Lk} (hm₀ : 0x400B ||| m₀ = m₀)
    (h₀ : Only m₀ s₀ t₀) : StageOnly m₀ s₀ (State.stageFirewall t₀ k) :=
  StageOnly.after h₀ (StageOnly.stageFirewall0 t₀ _) hm₀

theorem StageOnly.stageClassify0 (s : State) (f : Frame) : StageOnly 0xB s (State.stageClassify s f) := by
  unfold State.stageClassify
  try dsimp only
  repeat' first
    | with_reducible exact Only.refl _ _
    | with_reducible refine Only.bump (by decide) ?_
    | with_reducible refine StageOnly.go ?_
    | with_reducible refine StageOnly.drop ?_
    | split

theorem StageOnly.stageClassify {m₀ : Nat} {s₀ t₀ : State} {f : Frame} (hm₀ : 0xB ||| m₀ = m₀)
    (h₀ : Only m₀ s₀ t₀) : StageOnly m₀ s₀ (State.stageClassify t₀ f) :=
  StageOnly.after h₀ (StageOnly.stageClassify0 t₀ _) hm₀

theorem StageOnly.stageSource0 (s : State) (k : Lk) : StageOnly 0xB s (State.stageSource s k) := by
  unfold State.stageSource
  try dsimp only
  repeat' first
    | with_reducible exact Only.refl _ _
    | with_reducible refine Only.bump (by decide) ?_
    | with_reducible refine StageOnly.go ?_
    | with_reducible refine StageOnly.drop ?_
    | split

theorem StageOnly.stageSource {m₀ : Nat} {s₀ t₀ : State} {k : Lk} (hm₀ : 0xB ||| m₀ = m₀)
    (h₀ : Only m₀ s₀ t₀) : StageOnly m₀ s₀ (State.stageSource t₀ k) :=
  StageOnly.after h₀ (StageOnly.stageSource0 t₀ _) hm₀

theorem StageOnly.stageState0 (s : State) (k : Lk) : StageOnly 0x400B s (State.stageState s k) := by
  unfold State.stageState
  try dsimp only
  repeat' first
    | with_reducible exact Only.refl _ _
    | with_reducible refine Only.conformDeny (by decide) ?_
    | with_reducible refine Only.bump (by decide) ?_
    | with_reducible refine StageOnly.go ?_
    | with_reducible refine StageOnly.drop ?_
    | split

theorem StageOnly.stageState {m₀ : Nat} {s₀ t₀ : State} {k : Lk} (hm₀ : 0x400B ||| m₀ = m₀)
    (h₀ : Only m₀ s₀ t₀) : StageOnly m₀ s₀ (State.stageState t₀ k) :=
  StageOnly.after h₀ (StageOnly.stageState0 t₀ _) hm₀

theorem RecovOnly.recover0 (s : State) (k : Lk) : RecovOnly 0x200 s (State.recover s k) := by
  unfold State.recover
  try dsimp only
  repeat' first
    | with_reducible exact Only.refl _ _
    | with_reducible refine Only.recovMod (by decide) ?_
    | with_reducible refine RecovOnly.pass ?_
    | with_reducible refine RecovOnly.stop ?_
    | split

theorem RecovOnly.recover {m₀ : Nat} {s₀ t₀ : State} {k : Lk} (hm₀ : 0x200 ||| m₀ = m₀)
    (h₀ : Only m₀ s₀ t₀) : RecovOnly m₀ s₀ (State.recover t₀ k) :=
  RecovOnly.after h₀ (RecovOnly.recover0 t₀ _) hm₀

theorem Only.lookup0 (s : State) (f : Frame) : Only 0x304BEB s (State.lookup s f) := by
  unfold State.lookup
  try dsimp only
  repeat' first
    | with_reducible exact Only.refl _ _
    | with_reducible refine Only.ite ?_ ?_
    | with_reducible refine Only.dropAtStage (by decide) ?_
    | with_reducible refine Only.decideFrame (by decide) ?_ ?_
    | with_reducible refine Only.dropDecision (by decide) ?_
    | with_reducible refine Only.enqueue (by decide) ?_
    | with_reducible refine StageOnly.stageFilter (by decide) ?_
    | with_reducible refine StageOnly.stageConform (by decide) ?_
    | with_reducible refine Only.boundLate (by decide) ?_
    | with_reducible refine Only.fmod (by decide) ?_
    | with_reducible refine StageOnly.stageFirewall (by decide) ?_
    | with_reducible refine StageOnly.stageClassify (by decide) ?_
    | with_reducible refine Only.startDeadlines (by decide) ?_
    | with_reducible refine Only.setCal (by decide) ?_
    | with_reducible refine StageOnly.stageSource (by decide) ?_
    | with_reducible refine StageOnly.stageState (by decide) ?_
    | with_reducible refine Only.setFr (by decide) ?_
    | with_reducible refine RecovOnly.recover (by decide) ?_
    | with_reducible refine StageOnly.of_go (by with_reducible assumption) ?_
    | with_reducible refine StageOnly.of_drop (by with_reducible assumption) ?_
    | with_reducible refine RecovOnly.of_pass (by with_reducible assumption) ?_
    | with_reducible refine RecovOnly.of_stop (by with_reducible assumption) ?_
    | split

theorem Only.lookup {m₀ : Nat} {s₀ t₀ : State} {f : Frame} (hm₀ : 0x304BEB ||| m₀ = m₀)
    (h₀ : Only m₀ s₀ t₀) : Only m₀ s₀ (State.lookup t₀ f) :=
  h₀.step (Only.lookup0 t₀ _) hm₀

theorem Only.doPreemptVerifyResponse0 (s : State) (p : Nat) : Only 0x200 s (State.doPreemptVerifyResponse s p) := by
  unfold State.doPreemptVerifyResponse
  try dsimp only
  repeat' first
    | with_reducible exact Only.refl _ _
    | with_reducible refine Only.ite ?_ ?_
    | with_reducible refine Only.tportMod (by decide) ?_

theorem Only.doPreemptVerifyResponse {m₀ : Nat} {s₀ t₀ : State} {p : Nat} (hm₀ : 0x200 ||| m₀ = m₀)
    (h₀ : Only m₀ s₀ t₀) : Only m₀ s₀ (State.doPreemptVerifyResponse t₀ p) :=
  h₀.step (Only.doPreemptVerifyResponse0 t₀ _) hm₀

theorem Only.doPreemptVerifyTimer0 (s : State) (p : Nat) : Only 0x1020F s (State.doPreemptVerifyTimer s p) := by
  unfold State.doPreemptVerifyTimer
  try dsimp only
  repeat' first
    | with_reducible exact Only.refl _ _
    | with_reducible refine Only.ite ?_ ?_
    | with_reducible refine Only.tportMod (by decide) ?_
    | with_reducible refine Only.raise (by decide) ?_
    | with_reducible refine Only.waitUntil (by decide) ?_
    | with_reducible refine Only.emit (Nat.zero_or _) ?_

theorem Only.doPreemptVerifyTimer {m₀ : Nat} {s₀ t₀ : State} {p : Nat} (hm₀ : 0x1020F ||| m₀ = m₀)
    (h₀ : Only m₀ s₀ t₀) : Only m₀ s₀ (State.doPreemptVerifyTimer t₀ p) :=
  h₀.step (Only.doPreemptVerifyTimer0 t₀ _) hm₀

theorem Only.ringDrop0 (s : State) (c : Copy) (ring : Nat) (gap : Bool) : Only 0x1003AB s (State.ringDrop s c ring gap) := by
  unfold State.ringDrop
  try dsimp only
  repeat' first
    | with_reducible exact Only.refl _ _
    | with_reducible refine Only.ite ?_ ?_
    | with_reducible refine Only.rxMod (by decide) ?_
    | with_reducible refine Only.bump (by decide) ?_
    | with_reducible refine Only.gc (by decide) ?_
    | with_reducible refine Only.lose (by decide) ?_
    | with_reducible refine Only.rxGap (by decide) ?_
    | with_reducible refine Only.discardCopy (by decide) ?_

theorem Only.ringDrop {m₀ : Nat} {s₀ t₀ : State} {c : Copy} {ring : Nat} {gap : Bool} (hm₀ : 0x1003AB ||| m₀ = m₀)
    (h₀ : Only m₀ s₀ t₀) : Only m₀ s₀ (State.ringDrop t₀ c ring gap) :=
  h₀.step (Only.ringDrop0 t₀ _ _ _) hm₀

theorem Only.ringDone0 (s : State) (ring : Nat) : Only 0x1003AB s (State.ringDone s ring) := by
  unfold State.ringDone
  try dsimp only
  repeat' first
    | with_reducible exact Only.refl _ _
    | with_reducible refine Only.takeCopy (by decide) ?_
    | with_reducible refine Only.gc (by decide) ?_
    | with_reducible refine Only.depart (by decide) ?_
    | with_reducible refine Only.sentCounts (by decide) ?_
    | with_reducible refine Only.rxFinish (by decide) ?_
    | with_reducible refine Only.ringRewind (by decide) ?_
    | split

theorem Only.ringDone {m₀ : Nat} {s₀ t₀ : State} {ring : Nat} (hm₀ : 0x1003AB ||| m₀ = m₀)
    (h₀ : Only m₀ s₀ t₀) : Only m₀ s₀ (State.ringDone t₀ ring) :=
  h₀.step (Only.ringDone0 t₀ _) hm₀

theorem Only.ringSend0 (s : State) (ring : Nat) : Only 0x1003AB s (State.ringSend s ring) := by
  unfold State.ringSend
  try dsimp only
  repeat' first
    | with_reducible exact Only.refl _ _
    | with_reducible refine Only.ite ?_ ?_
    | with_reducible refine Only.rxMod (by decide) ?_
    | with_reducible refine Only.hostMem (by decide) ?_
    | with_reducible refine Only.ringDone (by decide) ?_
    | split

theorem Only.ringSend {m₀ : Nat} {s₀ t₀ : State} {ring : Nat} (hm₀ : 0x1003AB ||| m₀ = m₀)
    (h₀ : Only m₀ s₀ t₀) : Only m₀ s₀ (State.ringSend t₀ ring) :=
  h₀.step (Only.ringSend0 t₀ _) hm₀

theorem Only.ringNext0 (s : State) : Only 0x200 s (State.ringNext s).2 := by
  unfold State.ringNext
  try dsimp only
  repeat' first
    | with_reducible exact Only.refl _ _
    | with_reducible refine Only.ite ?_ ?_
    | with_reducible refine Only.tportMod (by decide) ?_

theorem Only.ringNext {m₀ : Nat} {s₀ t₀ : State}  (hm₀ : 0x200 ||| m₀ = m₀)
    (h₀ : Only m₀ s₀ t₀) : Only m₀ s₀ (State.ringNext t₀).2 :=
  h₀.step (Only.ringNext0 t₀) hm₀

theorem Only.ringLoop0 (x0 x1 : Nat) (st : State) : Only 0x1003AB st (State.ringLoop x0 x1 st) := by
  induction x0 generalizing x1 st with
  | zero => unfold State.ringLoop; exact Only.refl _ _
  | succ n ih =>
    unfold State.ringLoop
    try dsimp only
    repeat' first
      | with_reducible refine Only.trans ?_ (ih _ _)
      | with_reducible exact Only.refl _ _
      | with_reducible refine Only.ite ?_ ?_
      | with_reducible refine Only.ringSend (by decide) ?_
      | with_reducible refine Only.ringNext (by decide) ?_
      | with_reducible refine Only.snd (by with_reducible assumption) ?_
      | split

theorem Only.ringLoop {m₀ : Nat} {s₀ t₀ : State} {x0 x1 : Nat} (hm₀ : 0x1003AB ||| m₀ = m₀)
    (h₀ : Only m₀ s₀ t₀) : Only m₀ s₀ (State.ringLoop x0 x1 t₀) :=
  h₀.step (Only.ringLoop0 _ _ t₀) hm₀

theorem Only.ringTake0 (s : State) (ring : Nat) : Only 0x1003AB s (State.ringTake s ring) := by
  unfold State.ringTake
  try dsimp only
  repeat' first
    | with_reducible exact Only.refl _ _
    | with_reducible refine Only.ite ?_ ?_
    | with_reducible refine Only.rxMod (by decide) ?_
    | with_reducible refine Only.ringDrop (by decide) ?_
    | with_reducible refine Only.rxGap (by decide) ?_
    | with_reducible refine Only.fmod (by decide) ?_
    | with_reducible refine Only.cmod (by decide) ?_
    | split

theorem Only.ringTake {m₀ : Nat} {s₀ t₀ : State} {ring : Nat} (hm₀ : 0x1003AB ||| m₀ = m₀)
    (h₀ : Only m₀ s₀ t₀) : Only m₀ s₀ (State.ringTake t₀ ring) :=
  h₀.step (Only.ringTake0 t₀ _) hm₀

theorem Only.doRxRingDeliver0 (s : State) (ring : Nat) : Only 0x1003AB s (State.doRxRingDeliver s ring) := by
  unfold State.doRxRingDeliver
  try dsimp only
  repeat' first
    | with_reducible exact Only.refl _ _
    | with_reducible assumption
    | with_reducible refine Only.ite ?_ ?_
    | with_reducible refine Only.ringLoop (by decide) ?_
    | with_reducible refine Only.ringTake (by decide) ?_
    | with_reducible refine Only.foldl (fun _ _ _ => ?_) ?_

theorem Only.doRxRingDeliver {m₀ : Nat} {s₀ t₀ : State} {ring : Nat} (hm₀ : 0x1003AB ||| m₀ = m₀)
    (h₀ : Only m₀ s₀ t₀) : Only m₀ s₀ (State.doRxRingDeliver t₀ ring) :=
  h₀.step (Only.doRxRingDeliver0 t₀ _) hm₀

theorem Only.doStreamGateEntry0 (s : State) (i : Nat) : Only 0x10204 s (State.doStreamGateEntry s i) := by
  unfold State.doStreamGateEntry
  try dsimp only
  repeat' first
    | with_reducible exact Only.refl _ _
    | with_reducible refine Only.ite ?_ ?_
    | with_reducible refine Only.hostNext (by decide) ?_
    | with_reducible refine Only.setTrf (by decide) ?_
    | split

theorem Only.doStreamGateEntry {m₀ : Nat} {s₀ t₀ : State} {i : Nat} (hm₀ : 0x10204 ||| m₀ = m₀)
    (h₀ : Only m₀ s₀ t₀) : Only m₀ s₀ (State.doStreamGateEntry t₀ i) :=
  h₀.step (Only.doStreamGateEntry0 t₀ _) hm₀

theorem ExecOnly.filterSet0 (c : Cmd) (s : State) : ExecOnly 0x200 s (State.filterSet c s) := by
  unfold State.filterSet
  try dsimp only
  repeat' first
    | with_reducible exact Only.refl _ _
    | with_reducible refine ExecOnly.done ?_
    | with_reducible refine ExecOnly.check ?_ ?_
    | with_reducible refine Only.setTrf (by decide) ?_

theorem ExecOnly.filterSet {m₀ : Nat} {s₀ t₀ : State} {c : Cmd} (hm₀ : 0x200 ||| m₀ = m₀)
    (h₀ : Only m₀ s₀ t₀) : ExecOnly m₀ s₀ (State.filterSet c t₀) :=
  ExecOnly.after h₀ (ExecOnly.filterSet0 _ t₀) hm₀

theorem ExecOnly.gateListSet0 (c : Cmd) (dma : List Byte) (s : State) : ExecOnly 0x200 s (State.gateListSet c dma s) := by
  unfold State.gateListSet
  try dsimp only
  repeat' first
    | with_reducible exact Only.refl _ _
    | with_reducible refine ExecOnly.done ?_
    | with_reducible refine ExecOnly.ite ?_ ?_
    | with_reducible refine ExecOnly.check ?_ ?_
    | with_reducible refine Only.cbsUpdate (by decide) ?_
    | with_reducible refine Only.setTrf (by decide) ?_
    | with_reducible refine Only.gateSeen (by decide) ?_

theorem ExecOnly.gateListSet {m₀ : Nat} {s₀ t₀ : State} {c : Cmd} {dma : List Byte} (hm₀ : 0x200 ||| m₀ = m₀)
    (h₀ : Only m₀ s₀ t₀) : ExecOnly m₀ s₀ (State.gateListSet c dma t₀) :=
  ExecOnly.after h₀ (ExecOnly.gateListSet0 _ _ t₀) hm₀

theorem ExecOnly.shaperSet0 (c : Cmd) (s : State) : ExecOnly 0x200 s (State.shaperSet c s) := by
  unfold State.shaperSet
  try dsimp only
  repeat' first
    | with_reducible exact Only.refl _ _
    | with_reducible refine ExecOnly.done ?_
    | with_reducible refine ExecOnly.check ?_ ?_
    | with_reducible refine Only.setTrf (by decide) ?_

theorem ExecOnly.shaperSet {m₀ : Nat} {s₀ t₀ : State} {c : Cmd} (hm₀ : 0x200 ||| m₀ = m₀)
    (h₀ : Only m₀ s₀ t₀) : ExecOnly m₀ s₀ (State.shaperSet c t₀) :=
  ExecOnly.after h₀ (ExecOnly.shaperSet0 _ t₀) hm₀

theorem ExecOnly.streamGateSet0 (c : Cmd) (dma : List Byte) (s : State) : ExecOnly 0x200 s
    (State.streamGateSet c dma s) := by
  unfold State.streamGateSet
  try dsimp only
  repeat' first
    | with_reducible exact Only.refl _ _
    | with_reducible refine ExecOnly.done ?_
    | with_reducible refine ExecOnly.ite ?_ ?_
    | with_reducible refine ExecOnly.check ?_ ?_
    | with_reducible refine Only.setTrf (by decide) ?_

theorem ExecOnly.streamGateSet {m₀ : Nat} {s₀ t₀ : State} {c : Cmd} {dma : List Byte} (hm₀ : 0x200 ||| m₀ = m₀)
    (h₀ : Only m₀ s₀ t₀) : ExecOnly m₀ s₀ (State.streamGateSet c dma t₀) :=
  ExecOnly.after h₀ (ExecOnly.streamGateSet0 _ _ t₀) hm₀

theorem ExecOnly.trfFrerConfig0 (c : Cmd) (s : State) : ExecOnly 0x200 s (State.trfFrerConfig c s) := by
  unfold State.trfFrerConfig
  try dsimp only
  repeat' first
    | with_reducible exact Only.refl _ _
    | with_reducible refine ExecOnly.done ?_
    | with_reducible refine Only.recovMod (by decide) ?_
    | with_reducible refine ExecOnly.check ?_ ?_
    | with_reducible refine ExecOnly.fail ?_
    | with_reducible refine Only.setTrf (by decide) ?_
    | with_reducible refine ExecOnly.traffic ?_ ?_
    | split

theorem ExecOnly.trfFrerConfig {m₀ : Nat} {s₀ t₀ : State} {c : Cmd} (hm₀ : 0x200 ||| m₀ = m₀)
    (h₀ : Only m₀ s₀ t₀) : ExecOnly m₀ s₀ (State.trfFrerConfig c t₀) :=
  ExecOnly.after h₀ (ExecOnly.trfFrerConfig0 _ t₀) hm₀

theorem ExecOnly.trfPolicerSet0 (c : Cmd) (s : State) : ExecOnly 0x200 s (State.trfPolicerSet c s) := by
  unfold State.trfPolicerSet
  try dsimp only
  repeat' first
    | with_reducible exact Only.refl _ _
    | with_reducible refine ExecOnly.done ?_
    | with_reducible refine ExecOnly.check ?_ ?_
    | with_reducible refine ExecOnly.traffic ?_ ?_
    | with_reducible refine Only.setPolicer (by decide) ?_

theorem ExecOnly.trfPolicerSet {m₀ : Nat} {s₀ t₀ : State} {c : Cmd} (hm₀ : 0x200 ||| m₀ = m₀)
    (h₀ : Only m₀ s₀ t₀) : ExecOnly m₀ s₀ (State.trfPolicerSet c t₀) :=
  ExecOnly.after h₀ (ExecOnly.trfPolicerSet0 _ t₀) hm₀

theorem ExecOnly.trfQueueConfig0 (c : Cmd) (s : State) : ExecOnly 0x200 s (State.trfQueueConfig c s) := by
  unfold State.trfQueueConfig
  try dsimp only
  repeat' first
    | with_reducible exact Only.refl _ _
    | with_reducible refine ExecOnly.done ?_
    | with_reducible refine Only.regroupAll (by decide) ?_
    | with_reducible refine Only.verifyStart (by decide) ?_
    | with_reducible refine Only.tportMod (by decide) ?_
    | with_reducible refine ExecOnly.check ?_ ?_
    | with_reducible refine Only.cbsUpdate (by decide) ?_
    | with_reducible refine ExecOnly.traffic ?_ ?_

theorem ExecOnly.trfQueueConfig {m₀ : Nat} {s₀ t₀ : State} {c : Cmd} (hm₀ : 0x200 ||| m₀ = m₀)
    (h₀ : Only m₀ s₀ t₀) : ExecOnly m₀ s₀ (State.trfQueueConfig c t₀) :=
  ExecOnly.after h₀ (ExecOnly.trfQueueConfig0 _ t₀) hm₀

theorem ExecOnly.trfShaperSet0 (dma : List Byte) (c : Cmd) (s : State) : ExecOnly 0x200 s (State.trfShaperSet dma c s) := by
  unfold State.trfShaperSet
  try dsimp only
  repeat' first
    | with_reducible exact Only.refl _ _
    | with_reducible refine ExecOnly.gateListSet (by decide) ?_
    | with_reducible refine ExecOnly.fail ?_
    | with_reducible refine ExecOnly.traffic ?_ ?_
    | with_reducible refine ExecOnly.shaperSet (by decide) ?_
    | split

theorem ExecOnly.trfShaperSet {m₀ : Nat} {s₀ t₀ : State} {dma : List Byte} {c : Cmd} (hm₀ : 0x200 ||| m₀ = m₀)
    (h₀ : Only m₀ s₀ t₀) : ExecOnly m₀ s₀ (State.trfShaperSet dma c t₀) :=
  ExecOnly.after h₀ (ExecOnly.trfShaperSet0 _ _ t₀) hm₀

theorem ExecOnly.trfStreamFilter0 (dma : List Byte) (c : Cmd) (s : State) : ExecOnly 0x200 s
    (State.trfStreamFilter dma c s) := by
  unfold State.trfStreamFilter
  try dsimp only
  repeat' first
    | with_reducible exact Only.refl _ _
    | with_reducible refine ExecOnly.streamGateSet (by decide) ?_
    | with_reducible refine ExecOnly.filterSet (by decide) ?_
    | with_reducible refine ExecOnly.fail ?_
    | with_reducible refine ExecOnly.traffic ?_ ?_
    | split

theorem ExecOnly.trfStreamFilter {m₀ : Nat} {s₀ t₀ : State} {dma : List Byte} {c : Cmd} (hm₀ : 0x200 ||| m₀ = m₀)
    (h₀ : Only m₀ s₀ t₀) : ExecOnly m₀ s₀ (State.trfStreamFilter dma c t₀) :=
  ExecOnly.after h₀ (ExecOnly.trfStreamFilter0 _ _ t₀) hm₀

end Sys2Proof.Machine
end

