-- ==== Sys2Proof/Laws/OnlyCalendar.lean ====
section
/-! SUPPORT.
Frames: what the calendar and the buffers can change
at most. The law named `…0` states the frame of one operation, the other one carries a frame over it. -/

namespace Sys2Proof.Machine

theorem Only.syncFail0 (s : State) : Only 0x8000B s (State.syncFail s) := by
  unfold State.syncFail
  try dsimp only
  repeat' first
    | with_reducible exact Only.refl _ _
    | with_reducible refine Only.ite ?_ ?_
    | with_reducible refine Only.raise (by decide) ?_
    | with_reducible refine Only.setPair (by decide) ?_

theorem Only.syncFail {m₀ : Nat} {s₀ t₀ : State}  (hm₀ : 0x8000B ||| m₀ = m₀)
    (h₀ : Only m₀ s₀ t₀) : Only m₀ s₀ (State.syncFail t₀) :=
  h₀.step (Only.syncFail0 t₀) hm₀

theorem Only.pendingRegs0 (s : State) (id t : Nat) : Only 0x1 s (State.pendingRegs s id t) := by
  unfold State.pendingRegs
  try dsimp only
  repeat' first
    | with_reducible exact Only.refl _ _
    | with_reducible refine Only.rset (by decide) ?_

theorem Only.pendingRegs {m₀ : Nat} {s₀ t₀ : State} {id t : Nat} (hm₀ : 0x1 ||| m₀ = m₀)
    (h₀ : Only m₀ s₀ t₀) : Only m₀ s₀ (State.pendingRegs t₀ id t) :=
  h₀.step (Only.pendingRegs0 t₀ _ _) hm₀

theorem Only.pendingDrop0 (s : State) : Only 0xA1 s (State.pendingDrop s) := by
  unfold State.pendingDrop
  try dsimp only
  repeat' first
    | with_reducible exact Only.refl _ _
    | with_reducible refine Only.ite ?_ ?_
    | with_reducible refine Only.wheelsBegin (by decide) ?_
    | with_reducible refine Only.setCal (by decide) ?_
    | with_reducible refine Only.pendingRegs (by decide) ?_

theorem Only.pendingDrop {m₀ : Nat} {s₀ t₀ : State}  (hm₀ : 0xA1 ||| m₀ = m₀)
    (h₀ : Only m₀ s₀ t₀) : Only m₀ s₀ (State.pendingDrop t₀) :=
  h₀.step (Only.pendingDrop0 t₀) hm₀

theorem Only.setHandle0 (s : State) (h : Nat) (x : Handle) : Only 0x20 s (State.setHandle s h x) := by
  unfold State.setHandle
  try dsimp only
  repeat' first
    | with_reducible exact Only.refl _ _
    | with_reducible refine Only.setCal (by decide) ?_

theorem Only.setHandle {m₀ : Nat} {s₀ t₀ : State} {h : Nat} {x : Handle} (hm₀ : 0x20 ||| m₀ = m₀)
    (h₀ : Only m₀ s₀ t₀) : Only m₀ s₀ (State.setHandle t₀ h x) :=
  h₀.step (Only.setHandle0 t₀ _ _) hm₀

theorem Only.activationMissed0 (s : State) : Only 0x800AB s (State.activationMissed s) := by
  unfold State.activationMissed
  try dsimp only
  repeat' first
    | with_reducible exact Only.refl _ _
    | with_reducible refine Only.syncFail (by decide) ?_
    | with_reducible refine Only.pendingDrop (by decide) ?_
    | with_reducible refine Only.raise (by decide) ?_
    | with_reducible refine Only.setHandle (by decide) ?_
    | split

theorem Only.activationMissed {m₀ : Nat} {s₀ t₀ : State}  (hm₀ : 0x800AB ||| m₀ = m₀)
    (h₀ : Only m₀ s₀ t₀) : Only m₀ s₀ (State.activationMissed t₀) :=
  h₀.step (Only.activationMissed0 t₀) hm₀

theorem Only.schedule0 (s : State) (h : Nat) (i : Image) (t : Nat) : Only 0x21 s (State.schedule s h i t) := by
  unfold State.schedule
  try dsimp only
  repeat' first
    | with_reducible exact Only.refl _ _
    | with_reducible refine Only.setHandle (by decide) ?_
    | with_reducible refine Only.setCal (by decide) ?_
    | with_reducible refine Only.pendingRegs (by decide) ?_

theorem Only.schedule {m₀ : Nat} {s₀ t₀ : State} {h : Nat} {i : Image} {t : Nat} (hm₀ : 0x21 ||| m₀ = m₀)
    (h₀ : Only m₀ s₀ t₀) : Only m₀ s₀ (State.schedule t₀ h i t) :=
  h₀.step (Only.schedule0 t₀ _ _ _) hm₀

theorem ExecOnly.calActivateOwn0 (c : Cmd) (s : State) : ExecOnly 0x21 s (State.calActivateOwn c s) := by
  unfold State.calActivateOwn
  try dsimp only
  repeat' first
    | with_reducible exact Only.refl _ _
    | with_reducible refine ExecOnly.done ?_
    | with_reducible refine ExecOnly.need ?_ ?_
    | with_reducible refine ExecOnly.datapath ?_ ?_
    | with_reducible refine ExecOnly.check ?_ ?_
    | with_reducible refine ExecOnly.fail ?_
    | with_reducible refine Only.schedule (by decide) ?_
    | split

theorem ExecOnly.calActivateOwn {m₀ : Nat} {s₀ t₀ : State} {c : Cmd} (hm₀ : 0x21 ||| m₀ = m₀)
    (h₀ : Only m₀ s₀ t₀) : ExecOnly m₀ s₀ (State.calActivateOwn c t₀) :=
  ExecOnly.after h₀ (ExecOnly.calActivateOwn0 _ t₀) hm₀

theorem ExecOnly.calAdmitOwn0 (c : Cmd) (s : State) : ExecOnly 0x20 s (State.calAdmitOwn c s) := by
  unfold State.calAdmitOwn
  try dsimp only
  repeat' first
    | with_reducible exact Only.refl _ _
    | with_reducible refine ExecOnly.done ?_
    | with_reducible refine ExecOnly.ite ?_ ?_
    | with_reducible refine Only.setHandle (by decide) ?_
    | with_reducible refine ExecOnly.failData ?_
    | split

theorem ExecOnly.calAdmitOwn {m₀ : Nat} {s₀ t₀ : State} {c : Cmd} (hm₀ : 0x20 ||| m₀ = m₀)
    (h₀ : Only m₀ s₀ t₀) : ExecOnly m₀ s₀ (State.calAdmitOwn c t₀) :=
  ExecOnly.after h₀ (ExecOnly.calAdmitOwn0 _ t₀) hm₀

theorem ExecOnly.calAbortOwn0 (c : Cmd) (s : State) : ExecOnly 0xA1 s (State.calAbortOwn c s) := by
  unfold State.calAbortOwn
  try dsimp only
  repeat' first
    | with_reducible exact Only.refl _ _
    | with_reducible refine ExecOnly.done ?_
    | with_reducible refine ExecOnly.need ?_ ?_
    | with_reducible refine Only.pendingDrop (by decide) ?_
    | with_reducible refine Only.setHandle (by decide) ?_
    | with_reducible refine ExecOnly.check ?_ ?_
    | with_reducible refine ExecOnly.fail ?_
    | split

theorem ExecOnly.calAbortOwn {m₀ : Nat} {s₀ t₀ : State} {c : Cmd} (hm₀ : 0xA1 ||| m₀ = m₀)
    (h₀ : Only m₀ s₀ t₀) : ExecOnly m₀ s₀ (State.calAbortOwn c t₀) :=
  ExecOnly.after h₀ (ExecOnly.calAbortOwn0 _ t₀) hm₀

theorem ExecOnly.calLoadOwn0 (dma : List Byte) (c : Cmd) (s : State) : ExecOnly 0x20 s (State.calLoadOwn dma c s) := by
  unfold State.calLoadOwn
  try dsimp only
  repeat' first
    | with_reducible exact Only.refl _ _
    | with_reducible refine ExecOnly.done ?_
    | with_reducible refine ExecOnly.ite ?_ ?_
    | with_reducible refine Only.setHandle (by decide) ?_
    | with_reducible refine ExecOnly.failData ?_
    | split

theorem ExecOnly.calLoadOwn {m₀ : Nat} {s₀ t₀ : State} {dma : List Byte} {c : Cmd} (hm₀ : 0x20 ||| m₀ = m₀)
    (h₀ : Only m₀ s₀ t₀) : ExecOnly m₀ s₀ (State.calLoadOwn dma c t₀) :=
  ExecOnly.after h₀ (ExecOnly.calLoadOwn0 _ _ t₀) hm₀

theorem Only.calFollow0 (s : State) (op : Nat) (body image : List Byte) : Only 0xA1 s (State.calFollow s op body image) := by
  unfold State.calFollow
  extract_lets c own
  have h : ExecOnly 0xA1 s own := by
    unfold own
    split
    · exact ExecOnly.calLoadOwn (by decide) (Only.refl _ _)
    · exact ExecOnly.calAdmitOwn (by decide) (Only.refl _ _)
    · exact ExecOnly.calActivateOwn (by decide) (Only.refl _ _)
    · exact ExecOnly.calAbortOwn (by decide) (Only.refl _ _)
  clear_value own
  split
  · exact Only.emit (Nat.zero_or _) h
  · have hfr := (show Only _ s _ from h).free
    refine Only.emit (Nat.zero_or _) ?_
    constructor <;> first | exact fun _ => rfl | rfl | exact List.prefix_rfl | exact hfr | exact id
  · exact Only.refl _ _

theorem Only.calFollow {m₀ : Nat} {s₀ t₀ : State} {op : Nat} {body image : List Byte} (hm₀ : 0xA1 ||| m₀ = m₀)
    (h₀ : Only m₀ s₀ t₀) : Only m₀ s₀ (State.calFollow t₀ op body image) :=
  h₀.step (Only.calFollow0 t₀ _ _ _) hm₀

theorem Only.auditRun0 (s : State) (extended : Bool) : Only 0x10104 s (State.auditRun s extended) := by
  unfold State.auditRun
  try dsimp only
  repeat' first
    | with_reducible exact Only.refl _ _
    | with_reducible refine Only.free2 ?_
    | with_reducible refine Only.setBuf (by decide) ?_
    | with_reducible refine Only.waitUntil (by decide) ?_

theorem Only.auditRun {m₀ : Nat} {s₀ t₀ : State} {extended : Bool} (hm₀ : 0x10104 ||| m₀ = m₀)
    (h₀ : Only m₀ s₀ t₀) : Only m₀ s₀ (State.auditRun t₀ extended) :=
  h₀.step (Only.auditRun0 t₀ _) hm₀

theorem ExecOnly.calAbort0 (partner : Nat) (c : Cmd) (s : State) : ExecOnly 0xA1 s (State.calAbort partner c s) := by
  unfold State.calAbort
  try dsimp only
  repeat' first
    | with_reducible assumption
    | with_reducible refine ExecOnly.idle (fun _ _ => ?_) ?_
    | with_reducible refine ExecOnly.both (fun _ _ => ?_)
    | with_reducible refine ExecOnly.calAbortOwn (by decide) ?_

theorem ExecOnly.calAbort {m₀ : Nat} {s₀ t₀ : State} {partner : Nat} {c : Cmd} (hm₀ : 0xA1 ||| m₀ = m₀)
    (h₀ : Only m₀ s₀ t₀) : ExecOnly m₀ s₀ (State.calAbort partner c t₀) :=
  ExecOnly.after h₀ (ExecOnly.calAbort0 _ _ t₀) hm₀

theorem ExecOnly.calActivateAt0 (partner : Nat) (c : Cmd) (s : State) : ExecOnly 0x21 s
    (State.calActivateAt partner c s) := by
  unfold State.calActivateAt
  try dsimp only
  repeat' first
    | with_reducible assumption
    | with_reducible refine ExecOnly.calActivateOwn (by decide) ?_
    | with_reducible refine ExecOnly.idle (fun _ _ => ?_) ?_
    | with_reducible refine ExecOnly.both (fun _ _ => ?_)

theorem ExecOnly.calActivateAt {m₀ : Nat} {s₀ t₀ : State} {partner : Nat} {c : Cmd} (hm₀ : 0x21 ||| m₀ = m₀)
    (h₀ : Only m₀ s₀ t₀) : ExecOnly m₀ s₀ (State.calActivateAt partner c t₀) :=
  ExecOnly.after h₀ (ExecOnly.calActivateAt0 _ _ t₀) hm₀

theorem ExecOnly.calAdmit0 (partner : Nat) (c : Cmd) (s : State) : ExecOnly 0x20 s (State.calAdmit partner c s) := by
  unfold State.calAdmit
  try dsimp only
  repeat' first
    | with_reducible assumption
    | with_reducible refine ExecOnly.idle (fun _ _ => ?_) ?_
    | with_reducible refine ExecOnly.calAdmitOwn (by decide) ?_
    | with_reducible refine ExecOnly.both (fun _ _ => ?_)

theorem ExecOnly.calAdmit {m₀ : Nat} {s₀ t₀ : State} {partner : Nat} {c : Cmd} (hm₀ : 0x20 ||| m₀ = m₀)
    (h₀ : Only m₀ s₀ t₀) : ExecOnly m₀ s₀ (State.calAdmit partner c t₀) :=
  ExecOnly.after h₀ (ExecOnly.calAdmit0 _ _ t₀) hm₀

theorem Only.limpDomain0 (s : State) (i : Image) : Only 0x10000 s (State.limpDomain s i) := by
  unfold State.limpDomain
  try dsimp only
  repeat' first
    | with_reducible exact Only.refl _ _
    | with_reducible refine Only.ite ?_ ?_
    | with_reducible refine Only.putDom (by decide) ?_

theorem Only.limpDomain {m₀ : Nat} {s₀ t₀ : State} {i : Image} (hm₀ : 0x10000 ||| m₀ = m₀)
    (h₀ : Only m₀ s₀ t₀) : Only m₀ s₀ (State.limpDomain t₀ i) :=
  h₀.step (Only.limpDomain0 t₀ _) hm₀

theorem Only.limpSelect0 (s : State) (cause : Nat) : Only 0x10020 s (State.limpSelect s cause) := by
  unfold State.limpSelect
  try dsimp only
  repeat' first
    | with_reducible exact Only.refl _ _
    | with_reducible refine Only.ite ?_ ?_
    | with_reducible refine Only.setCal (by decide) ?_
    | with_reducible refine Only.limpDomain (by decide) ?_
    | split

theorem Only.limpSelect {m₀ : Nat} {s₀ t₀ : State} {cause : Nat} (hm₀ : 0x10020 ||| m₀ = m₀)
    (h₀ : Only m₀ s₀ t₀) : Only m₀ s₀ (State.limpSelect t₀ cause) :=
  h₀.step (Only.limpSelect0 t₀ _) hm₀

theorem ExecOnly.calLimpSelect0 (_c : Cmd) (s : State) : ExecOnly 0x10020 s (State.calLimpSelect _c s) := by
  unfold State.calLimpSelect
  try dsimp only
  repeat' first
    | with_reducible exact Only.refl _ _
    | with_reducible refine ExecOnly.done ?_
    | with_reducible refine ExecOnly.need ?_ ?_
    | with_reducible refine ExecOnly.datapath ?_ ?_
    | with_reducible refine ExecOnly.fail ?_
    | with_reducible refine Only.limpSelect (by decide) ?_
    | split

theorem ExecOnly.calLimpSelect {m₀ : Nat} {s₀ t₀ : State} {_c : Cmd} (hm₀ : 0x10020 ||| m₀ = m₀)
    (h₀ : Only m₀ s₀ t₀) : ExecOnly m₀ s₀ (State.calLimpSelect _c t₀) :=
  ExecOnly.after h₀ (ExecOnly.calLimpSelect0 _ t₀) hm₀

theorem ExecOnly.calLoad0 (dma : List Byte) (partner : Nat) (c : Cmd) (s : State) : ExecOnly 0x20 s
    (State.calLoad dma partner c s) := by
  unfold State.calLoad
  try dsimp only
  repeat' first
    | with_reducible assumption
    | with_reducible refine ExecOnly.idle (fun _ _ => ?_) ?_
    | with_reducible refine ExecOnly.both (fun _ _ => ?_)
    | with_reducible refine ExecOnly.calLoadOwn (by decide) ?_

theorem ExecOnly.calLoad {m₀ : Nat} {s₀ t₀ : State} {dma : List Byte} {partner : Nat} {c : Cmd} (hm₀ : 0x20 ||| m₀ = m₀)
    (h₀ : Only m₀ s₀ t₀) : ExecOnly m₀ s₀ (State.calLoad dma partner c t₀) :=
  ExecOnly.after h₀ (ExecOnly.calLoad0 _ _ _ t₀) hm₀

theorem Only.calResume0 (s : State) : Only 0x2800BB s (State.calResume s) := by
  unfold State.calResume
  try dsimp only
  repeat' first
    | with_reducible exact Only.refl _ _
    | with_reducible refine Only.ite ?_ ?_
    | with_reducible refine Only.activationMissed (by decide) ?_
    | with_reducible refine Only.raise (by decide) ?_
    | with_reducible refine Only.wheelsBegin (by decide) ?_
    | with_reducible refine Only.setCal (by decide) ?_
    | with_reducible refine Only.mirrorOff (by decide) ?_
    | with_reducible refine Only.setPair (by decide) ?_
    | with_reducible refine Only.emit (Nat.zero_or _) ?_
    | split

theorem Only.calResume {m₀ : Nat} {s₀ t₀ : State}  (hm₀ : 0x2800BB ||| m₀ = m₀)
    (h₀ : Only m₀ s₀ t₀) : Only m₀ s₀ (State.calResume t₀) :=
  h₀.step (Only.calResume0 t₀) hm₀

theorem ExecOnly.calStatusCmd0 (c : Cmd) (s : State) : ExecOnly 0x0 s (State.calStatusCmd c s) := by
  unfold State.calStatusCmd
  try dsimp only
  repeat' first
    | with_reducible exact Only.refl _ _
    | with_reducible refine ExecOnly.done ?_
    | with_reducible refine ExecOnly.ite ?_ ?_
    | with_reducible refine ExecOnly.check ?_ ?_

theorem ExecOnly.calStatusCmd {m₀ : Nat} {s₀ t₀ : State} {c : Cmd} (hm₀ : 0x0 ||| m₀ = m₀)
    (h₀ : Only m₀ s₀ t₀) : ExecOnly m₀ s₀ (State.calStatusCmd c t₀) :=
  ExecOnly.after h₀ (ExecOnly.calStatusCmd0 _ t₀) hm₀

theorem Only.cbsAll0 (s : State) : Only 0x200 s (State.cbsAll s) := by
  unfold State.cbsAll
  try dsimp only
  repeat' first
    | with_reducible exact Only.refl _ _
    | with_reducible assumption
    | with_reducible refine Only.cbsUpdate (by decide) ?_
    | with_reducible refine Only.foldl (fun _ _ _ => ?_) ?_

theorem Only.cbsAll {m₀ : Nat} {s₀ t₀ : State}  (hm₀ : 0x200 ||| m₀ = m₀)
    (h₀ : Only m₀ s₀ t₀) : Only m₀ s₀ (State.cbsAll t₀) :=
  h₀.step (Only.cbsAll0 t₀) hm₀

theorem Only.timeStepped0 (s : State) (d : Nat) (step : ℤ) : Only 0x800AB s (State.timeStepped s d step) := by
  unfold State.timeStepped
  try dsimp only
  repeat' first
    | with_reducible exact Only.refl _ _
    | with_reducible refine Only.ite ?_ ?_
    | with_reducible refine Only.activationMissed (by decide) ?_
    | with_reducible refine Only.setCal (by decide) ?_
    | split

theorem Only.timeStepped {m₀ : Nat} {s₀ t₀ : State} {d : Nat} {step : ℤ} (hm₀ : 0x800AB ||| m₀ = m₀)
    (h₀ : Only m₀ s₀ t₀) : Only m₀ s₀ (State.timeStepped t₀ d step) :=
  h₀.step (Only.timeStepped0 t₀ _ _) hm₀

theorem Only.rephaseNow0 (s : State) (d : Nat) : Only 0x2AB s (State.rephaseNow s d) := by
  unfold State.rephaseNow
  try dsimp only
  repeat' first
    | with_reducible exact Only.refl _ _
    | with_reducible refine Only.ite ?_ ?_
    | with_reducible refine Only.wheelsNow (by decide) ?_
    | with_reducible refine Only.raise (by decide) ?_
    | with_reducible refine Only.listsRephase (by decide) ?_
    | with_reducible refine Only.setCal (by decide) ?_
    | split

theorem Only.rephaseNow {m₀ : Nat} {s₀ t₀ : State} {d : Nat} (hm₀ : 0x2AB ||| m₀ = m₀)
    (h₀ : Only m₀ s₀ t₀) : Only m₀ s₀ (State.rephaseNow t₀ d) :=
  h₀.step (Only.rephaseNow0 t₀ _) hm₀

theorem Only.cutArriving0 (s : State) (p : Nat) : Only 0x304BEB s (State.cutArriving s p) := by
  unfold State.cutArriving
  try dsimp only
  repeat' first
    | with_reducible exact Only.refl _ _
    | with_reducible refine Only.gc (by decide) ?_
    | with_reducible refine Only.judge (by decide) ?_
    | with_reducible refine Only.fmod (by decide) ?_
    | with_reducible refine Only.storeEnd (by decide) ?_
    | with_reducible refine Only.spillUpdate (by decide) ?_
    | split

theorem Only.cutArriving {m₀ : Nat} {s₀ t₀ : State} {p : Nat} (hm₀ : 0x304BEB ||| m₀ = m₀)
    (h₀ : Only m₀ s₀ t₀) : Only m₀ s₀ (State.cutArriving t₀ p) :=
  h₀.step (Only.cutArriving0 t₀ _) hm₀

theorem Only.doActivationCommit0 (s : State) : Only 0x10024 s (State.doActivationCommit s) := by
  unfold State.doActivationCommit
  try dsimp only
  repeat' first
    | with_reducible exact Only.refl _ _
    | with_reducible refine Only.ite ?_ ?_
    | with_reducible refine Only.waitDom (by decide) ?_
    | with_reducible refine Only.setCal (by decide) ?_
    | split

theorem Only.doActivationCommit {m₀ : Nat} {s₀ t₀ : State}  (hm₀ : 0x10024 ||| m₀ = m₀)
    (h₀ : Only m₀ s₀ t₀) : Only m₀ s₀ (State.doActivationCommit t₀) :=
  h₀.step (Only.doActivationCommit0 t₀) hm₀

theorem Only.portResume0 (s : State) (p : Nat) : Only 0x3AB s (State.portResume s p) := by
  unfold State.portResume
  try dsimp only
  repeat' first
    | with_reducible exact Only.refl _ _
    | with_reducible assumption
    | with_reducible refine Only.bump (by decide) ?_
    | with_reducible refine Only.bportMod (by decide) ?_
    | with_reducible refine Only.gc (by decide) ?_
    | with_reducible refine Only.pathLost (by decide) ?_
    | with_reducible refine Only.discardCopy (by decide) ?_
    | with_reducible refine Only.foldl (fun _ _ _ => ?_) ?_

theorem Only.portResume {m₀ : Nat} {s₀ t₀ : State} {p : Nat} (hm₀ : 0x3AB ||| m₀ = m₀)
    (h₀ : Only m₀ s₀ t₀) : Only m₀ s₀ (State.portResume t₀ p) :=
  h₀.step (Only.portResume0 t₀ _) hm₀

theorem Only.doPortLinkUp0 (s : State) (p code : Nat) : Only 0x3AB s (State.doPortLinkUp s p code) := by
  unfold State.doPortLinkUp
  try dsimp only
  repeat' first
    | with_reducible exact Only.refl _ _
    | with_reducible refine Only.ite ?_ ?_
    | with_reducible refine Only.bportMod (by decide) ?_
    | with_reducible refine Only.verifyStart (by decide) ?_
    | with_reducible refine Only.hostResync (by decide) ?_
    | with_reducible refine Only.cbsUpdate (by decide) ?_
    | with_reducible refine Only.portResume (by decide) ?_

theorem Only.doPortLinkUp {m₀ : Nat} {s₀ t₀ : State} {p code : Nat} (hm₀ : 0x3AB ||| m₀ = m₀)
    (h₀ : Only m₀ s₀ t₀) : Only m₀ s₀ (State.doPortLinkUp t₀ p code) :=
  h₀.step (Only.doPortLinkUp0 t₀ _ _) hm₀

theorem Only.holdDiscard0 (s : State) (p : Nat) (sched : Bool) : Only 0x3AB s (State.holdDiscard s p sched).2 := by
  unfold State.holdDiscard
  try dsimp only
  repeat' first
    | with_reducible exact Only.refl _ _
    | with_reducible assumption
    | with_reducible refine Only.bump (by decide) ?_
    | with_reducible refine Only.gc (by decide) ?_
    | with_reducible refine Only.pathLost (by decide) ?_
    | with_reducible refine Only.discardCopy (by decide) ?_
    | with_reducible refine Only.foldl (fun _ _ _ => ?_) ?_

theorem Only.holdDiscard {m₀ : Nat} {s₀ t₀ : State} {p : Nat} {sched : Bool} (hm₀ : 0x3AB ||| m₀ = m₀)
    (h₀ : Only m₀ s₀ t₀) : Only m₀ s₀ (State.holdDiscard t₀ p sched).2 :=
  h₀.step (Only.holdDiscard0 t₀ _ _) hm₀

theorem Only.holdEnd0 (s : State) (p : Nat) (sched : Bool) : Only 0x3AB s (State.holdEnd s p sched) := by
  unfold State.holdEnd
  try dsimp only
  repeat' first
    | with_reducible exact Only.refl _ _
    | with_reducible refine Only.bportMod (by decide) ?_
    | with_reducible refine Only.holdDiscard (by decide) ?_
    | with_reducible refine Only.raise (by decide) ?_

theorem Only.holdEnd {m₀ : Nat} {s₀ t₀ : State} {p : Nat} {sched : Bool} (hm₀ : 0x3AB ||| m₀ = m₀)
    (h₀ : Only m₀ s₀ t₀) : Only m₀ s₀ (State.holdEnd t₀ p sched) :=
  h₀.step (Only.holdEnd0 t₀ _ _) hm₀

theorem Only.portStop0 (s : State) (p : Nat) : Only 0x3AB s (State.portStop s p) := by
  unfold State.portStop
  try dsimp only
  repeat' first
    | with_reducible exact Only.refl _ _
    | with_reducible assumption
    | with_reducible refine Only.ite ?_ ?_
    | with_reducible refine Only.bump (by decide) ?_
    | with_reducible refine Only.bportMod (by decide) ?_
    | with_reducible refine Only.gc (by decide) ?_
    | with_reducible refine Only.holdEnd (by decide) ?_
    | with_reducible refine Only.pathLost (by decide) ?_
    | with_reducible refine Only.tportMod (by decide) ?_
    | with_reducible refine Only.cbsUpdate (by decide) ?_
    | with_reducible refine Only.discardCopy (by decide) ?_
    | with_reducible refine Only.foldl (fun _ _ _ => ?_) ?_

theorem Only.portStop {m₀ : Nat} {s₀ t₀ : State} {p : Nat} (hm₀ : 0x3AB ||| m₀ = m₀)
    (h₀ : Only m₀ s₀ t₀) : Only m₀ s₀ (State.portStop t₀ p) :=
  h₀.step (Only.portStop0 t₀ _) hm₀

theorem Only.doPortLinkDown0 (s : State) (p : Nat) : Only 0x304BEB s (State.doPortLinkDown s p) := by
  unfold State.doPortLinkDown
  try dsimp only
  repeat' first
    | with_reducible exact Only.refl _ _
    | with_reducible refine Only.ite ?_ ?_
    | with_reducible refine Only.bportMod (by decide) ?_
    | with_reducible refine Only.cutArriving (by decide) ?_
    | with_reducible refine Only.portStop (by decide) ?_

theorem Only.doPortLinkDown {m₀ : Nat} {s₀ t₀ : State} {p : Nat} (hm₀ : 0x304BEB ||| m₀ = m₀)
    (h₀ : Only m₀ s₀ t₀) : Only m₀ s₀ (State.doPortLinkDown t₀ p) :=
  h₀.step (Only.doPortLinkDown0 t₀ _) hm₀

theorem Only.syncDone0 (s : State) : Only 0x8002B s (State.syncDone s) := by
  unfold State.syncDone
  try dsimp only
  repeat' first
    | with_reducible exact Only.refl _ _
    | with_reducible refine Only.bump (by decide) ?_
    | with_reducible refine Only.raise (by decide) ?_
    | with_reducible refine Only.schedule (by decide) ?_
    | with_reducible refine Only.setPair (by decide) ?_
    | split

theorem Only.syncDone {m₀ : Nat} {s₀ t₀ : State}  (hm₀ : 0x8002B ||| m₀ = m₀)
    (h₀ : Only m₀ s₀ t₀) : Only m₀ s₀ (State.syncDone t₀) :=
  h₀.step (Only.syncDone0 t₀) hm₀

theorem Only.linRestart0 (s : State) : Only 0x400 s (State.linRestart s) := by
  unfold State.linRestart
  try dsimp only
  repeat' first
    | with_reducible exact Only.refl _ _
    | with_reducible refine Only.setEdg (by decide) ?_

theorem Only.linRestart {m₀ : Nat} {s₀ t₀ : State}  (hm₀ : 0x400 ||| m₀ = m₀)
    (h₀ : Only m₀ s₀ t₀) : Only m₀ s₀ (State.linRestart t₀) :=
  h₀.step (Only.linRestart0 t₀) hm₀

theorem Only.gateSeenAll0 (s : State) : Only 0x200 s (State.gateSeenAll s) := by
  unfold State.gateSeenAll
  try dsimp only
  repeat' first
    | with_reducible exact Only.refl _ _
    | with_reducible assumption
    | with_reducible refine Only.gateSeen (by decide) ?_
    | with_reducible refine Only.foldl (fun _ _ _ => ?_) ?_

theorem Only.gateSeenAll {m₀ : Nat} {s₀ t₀ : State}  (hm₀ : 0x200 ||| m₀ = m₀)
    (h₀ : Only m₀ s₀ t₀) : Only m₀ s₀ (State.gateSeenAll t₀) :=
  h₀.step (Only.gateSeenAll0 t₀) hm₀

theorem Only.enterLists0 (s : State) (i : Image) : Only 0x20B s (State.enterLists s i) := by
  unfold State.enterLists
  try dsimp only
  repeat' first
    | with_reducible exact Only.refl _ _
    | with_reducible assumption
    | with_reducible refine Only.ite ?_ ?_
    | with_reducible refine Only.enterEntry (by decide) ?_
    | with_reducible refine Only.foldl (fun _ _ _ => ?_) ?_
    | split

theorem Only.enterLists {m₀ : Nat} {s₀ t₀ : State} {i : Image} (hm₀ : 0x20B ||| m₀ = m₀)
    (h₀ : Only m₀ s₀ t₀) : Only m₀ s₀ (State.enterLists t₀ i) :=
  h₀.step (Only.enterLists0 t₀ _) hm₀

theorem Only.switchTo0 (s : State) (run : Running) (i : Image) (t : Nat) (old : Option Image)
    (overlap : Option Nat) : Only 0x6AB s (State.switchTo s run i t old overlap) := by
  unfold State.switchTo
  try dsimp only
  repeat' first
    | with_reducible exact Only.refl _ _
    | with_reducible refine Only.linRestart (by decide) ?_
    | with_reducible refine Only.regroupAll (by decide) ?_
    | with_reducible refine Only.gateSeenAll (by decide) ?_
    | with_reducible refine Only.wheelsNow (by decide) ?_
    | with_reducible refine Only.enterLists (by decide) ?_
    | with_reducible refine Only.rset (by decide) ?_
    | with_reducible refine Only.wheelsBegin (by decide) ?_
    | with_reducible refine Only.setCal (by decide) ?_
    | with_reducible refine Only.cbsAll (by decide) ?_
    | with_reducible refine Only.hostResyncAll (by decide) ?_

theorem Only.switchTo {m₀ : Nat} {s₀ t₀ : State} {run : Running} {i : Image} {t : Nat} {old : Option Image}
    {overlap : Option Nat} (hm₀ : 0x6AB ||| m₀ = m₀)
        (h₀ : Only m₀ s₀ t₀) : Only m₀ s₀ (State.switchTo t₀ run i t old overlap) :=
  h₀.step (Only.switchTo0 t₀ _ _ _ _ _) hm₀

theorem Only.doCalTakeover0 (s : State) : Only 0x906AF s (State.doCalTakeover s) := by
  unfold State.doCalTakeover
  try dsimp only
  repeat' first
    | with_reducible exact Only.refl _ _
    | with_reducible refine Only.ite ?_ ?_
    | with_reducible refine Only.bump (by decide) ?_
    | with_reducible refine Only.waitDom (by decide) ?_
    | with_reducible refine Only.syncDone (by decide) ?_
    | with_reducible refine Only.raise (by decide) ?_
    | with_reducible refine Only.setHandle (by decide) ?_
    | with_reducible refine Only.setCal (by decide) ?_
    | with_reducible refine Only.switchTo (by decide) ?_
    | with_reducible refine Only.pendingRegs (by decide) ?_
    | split

theorem Only.doCalTakeover {m₀ : Nat} {s₀ t₀ : State}  (hm₀ : 0x906AF ||| m₀ = m₀)
    (h₀ : Only m₀ s₀ t₀) : Only m₀ s₀ (State.doCalTakeover t₀) :=
  h₀.step (Only.doCalTakeover0 t₀) hm₀

theorem Only.doDrainBack0 (s : State) (i : Nat) : Only 0x18B s (State.doDrainBack s i) := by
  unfold State.doDrainBack
  try dsimp only
  repeat' first
    | with_reducible exact Only.refl _ _
    | with_reducible refine Only.ite ?_ ?_
    | with_reducible refine Only.stallCheck (by decide) ?_
    | with_reducible refine Only.fmod (by decide) ?_
    | with_reducible refine Only.setBuf (by decide) ?_
    | with_reducible refine Only.cmod (by decide) ?_
    | with_reducible refine Only.spillUpdate (by decide) ?_
    | split

theorem Only.doDrainBack {m₀ : Nat} {s₀ t₀ : State} {i : Nat} (hm₀ : 0x18B ||| m₀ = m₀)
    (h₀ : Only m₀ s₀ t₀) : Only m₀ s₀ (State.doDrainBack t₀ i) :=
  h₀.step (Only.doDrainBack0 t₀ _) hm₀

theorem Only.doDrainHoldEnd0 (s : State) (p : Nat) (sched : Bool) : Only 0x103AF s (State.doDrainHoldEnd s p sched) := by
  unfold State.doDrainHoldEnd
  try dsimp only
  repeat' first
    | with_reducible exact Only.refl _ _
    | with_reducible refine Only.holdEnd (by decide) ?_
    | with_reducible refine Only.waitUntil (by decide) ?_
    | split

theorem Only.doDrainHoldEnd {m₀ : Nat} {s₀ t₀ : State} {p : Nat} {sched : Bool} (hm₀ : 0x103AF ||| m₀ = m₀)
    (h₀ : Only m₀ s₀ t₀) : Only m₀ s₀ (State.doDrainHoldEnd t₀ p sched) :=
  h₀.step (Only.doDrainHoldEnd0 t₀ _ _) hm₀

theorem Only.doDrainReadComplete0 (s : State) (i : Nat) (ok : Bool) : Only 0x1003AB s
    (State.doDrainReadComplete s i ok) := by
  unfold State.doDrainReadComplete
  try dsimp only
  repeat' first
    | with_reducible exact Only.refl _ _
    | with_reducible refine Only.ite ?_ ?_
    | with_reducible refine Only.stallCheck (by decide) ?_
    | with_reducible refine Only.bump (by decide) ?_
    | with_reducible refine Only.gc (by decide) ?_
    | with_reducible refine Only.lose (by decide) ?_
    | with_reducible refine Only.report (by decide) ?_
    | with_reducible refine Only.ovfApply (by decide) ?_
    | with_reducible refine Only.cmod (by decide) ?_
    | with_reducible refine Only.spillUpdate (by decide) ?_
    | with_reducible refine Only.ovfFullCheck (by decide) ?_
    | with_reducible refine Only.discardCopy (by decide) ?_
    | split

theorem Only.doDrainReadComplete {m₀ : Nat} {s₀ t₀ : State} {i : Nat} {ok : Bool} (hm₀ : 0x1003AB ||| m₀ = m₀)
    (h₀ : Only m₀ s₀ t₀) : Only m₀ s₀ (State.doDrainReadComplete t₀ i ok) :=
  h₀.step (Only.doDrainReadComplete0 t₀ _ _) hm₀

theorem Only.imageEntry0 (s : State) (i : Image) (l : GateList) : Only 0x1022F s (State.imageEntry s i l) := by
  unfold State.imageEntry
  try dsimp only
  repeat' first
    | with_reducible exact Only.refl _ _
    | with_reducible refine Only.ite ?_ ?_
    | with_reducible refine Only.enterEntry (by decide) ?_
    | with_reducible refine Only.waitDom (by decide) ?_
    | with_reducible refine Only.setCal (by decide) ?_
    | with_reducible refine Only.waitUntil (by decide) ?_
    | with_reducible refine Only.cbsUpdate (by decide) ?_
    | with_reducible refine Only.gateSeen (by decide) ?_
    | split

theorem Only.imageEntry {m₀ : Nat} {s₀ t₀ : State} {i : Image} {l : GateList} (hm₀ : 0x1022F ||| m₀ = m₀)
    (h₀ : Only m₀ s₀ t₀) : Only m₀ s₀ (State.imageEntry t₀ i l) :=
  h₀.step (Only.imageEntry0 t₀ _ _) hm₀

theorem Only.doGateEntryStart0 (s : State) (p : Nat) : Only 0x1022F s (State.doGateEntryStart s p) := by
  unfold State.doGateEntryStart
  try dsimp only
  repeat' first
    | with_reducible exact Only.refl _ _
    | with_reducible refine Only.ite ?_ ?_
    | with_reducible refine Only.imageEntry (by decide) ?_
    | with_reducible refine Only.enterEntry (by decide) ?_
    | with_reducible refine Only.hostNext (by decide) ?_
    | with_reducible refine Only.cbsUpdate (by decide) ?_
    | with_reducible refine Only.setTrf (by decide) ?_
    | with_reducible refine Only.gateSeen (by decide) ?_
    | split

theorem Only.doGateEntryStart {m₀ : Nat} {s₀ t₀ : State} {p : Nat} (hm₀ : 0x1022F ||| m₀ = m₀)
    (h₀ : Only m₀ s₀ t₀) : Only m₀ s₀ (State.doGateEntryStart t₀ p) :=
  h₀.step (Only.doGateEntryStart0 t₀ _) hm₀

theorem Only.resumeBoundary0 (s : State) (i : Image) : Only 0x102AF s (State.resumeBoundary s i) := by
  unfold State.resumeBoundary
  try dsimp only
  repeat' first
    | with_reducible exact Only.refl _ _
    | with_reducible refine Only.bump (by decide) ?_
    | with_reducible refine Only.gateSeenAll (by decide) ?_
    | with_reducible refine Only.wheelsNow (by decide) ?_
    | with_reducible refine Only.waitDom (by decide) ?_
    | with_reducible refine Only.enterLists (by decide) ?_
    | with_reducible refine Only.raise (by decide) ?_
    | with_reducible refine Only.wheelsBegin (by decide) ?_
    | with_reducible refine Only.setCal (by decide) ?_
    | with_reducible refine Only.waitUntil (by decide) ?_
    | with_reducible refine Only.cbsAll (by decide) ?_
    | split

theorem Only.resumeBoundary {m₀ : Nat} {s₀ t₀ : State} {i : Image} (hm₀ : 0x102AF ||| m₀ = m₀)
    (h₀ : Only m₀ s₀ t₀) : Only m₀ s₀ (State.resumeBoundary t₀ i) :=
  h₀.step (Only.resumeBoundary0 t₀ _) hm₀

theorem Only.passBoundary0 (s : State) (i : Image) : Only 0x100AF s (State.passBoundary s i) := by
  unfold State.passBoundary
  try dsimp only
  repeat' first
    | with_reducible exact Only.refl _ _
    | with_reducible refine Only.bump (by decide) ?_
    | with_reducible refine Only.wheelsNow (by decide) ?_
    | with_reducible refine Only.waitDom (by decide) ?_
    | with_reducible refine Only.raise (by decide) ?_
    | with_reducible refine Only.setCal (by decide) ?_
    | split

theorem Only.passBoundary {m₀ : Nat} {s₀ t₀ : State} {i : Image} (hm₀ : 0x100AF ||| m₀ = m₀)
    (h₀ : Only m₀ s₀ t₀) : Only m₀ s₀ (State.passBoundary t₀ i) :=
  h₀.step (Only.passBoundary0 t₀ _) hm₀

theorem Only.limpTakeover0 (s : State) (i : Image) (t : Nat) : Only 0x806AB s (State.limpTakeover s i t) := by
  unfold State.limpTakeover
  try dsimp only
  repeat' first
    | with_reducible exact Only.refl _ _
    | with_reducible refine Only.activationMissed (by decide) ?_
    | with_reducible refine Only.bump (by decide) ?_
    | with_reducible refine Only.raise (by decide) ?_
    | with_reducible refine Only.setHandle (by decide) ?_
    | with_reducible refine Only.setCal (by decide) ?_
    | with_reducible refine Only.switchTo (by decide) ?_
    | with_reducible refine Only.setFr (by decide) ?_
    | with_reducible refine Only.drainGone (by decide) ?_
    | split

theorem Only.limpTakeover {m₀ : Nat} {s₀ t₀ : State} {i : Image} {t : Nat} (hm₀ : 0x806AB ||| m₀ = m₀)
    (h₀ : Only m₀ s₀ t₀) : Only m₀ s₀ (State.limpTakeover t₀ i t) :=
  h₀.step (Only.limpTakeover0 t₀ _ _) hm₀

theorem Only.doHypercycleBoundary0 (s : State) : Only 0x906AF s (State.doHypercycleBoundary s) := by
  unfold State.doHypercycleBoundary
  try dsimp only
  repeat' first
    | with_reducible exact Only.refl _ _
    | with_reducible refine Only.ite ?_ ?_
    | with_reducible refine Only.resumeBoundary (by decide) ?_
    | with_reducible refine Only.waitDom (by decide) ?_
    | with_reducible refine Only.passBoundary (by decide) ?_
    | with_reducible refine Only.limpTakeover (by decide) ?_
    | split

theorem Only.doHypercycleBoundary {m₀ : Nat} {s₀ t₀ : State}  (hm₀ : 0x906AF ||| m₀ = m₀)
    (h₀ : Only m₀ s₀ t₀) : Only m₀ s₀ (State.doHypercycleBoundary t₀) :=
  h₀.step (Only.doHypercycleBoundary0 t₀) hm₀

theorem Only.overlapLate0 (s : State) (old : Image) (f : Frame) : Only 0x1002AB s (State.overlapLate s old f) := by
  unfold State.overlapLate
  try dsimp only
  repeat' first
    | with_reducible exact Only.refl _ _
    | with_reducible assumption
    | with_reducible refine Only.late (by decide) ?_
    | with_reducible refine Only.discardCopy (by decide) ?_
    | with_reducible refine Only.foldl (fun _ _ _ => ?_) ?_

theorem Only.overlapLate {m₀ : Nat} {s₀ t₀ : State} {old : Image} {f : Frame} (hm₀ : 0x1002AB ||| m₀ = m₀)
    (h₀ : Only m₀ s₀ t₀) : Only m₀ s₀ (State.overlapLate t₀ old f) :=
  h₀.step (Only.overlapLate0 t₀ _ _) hm₀

theorem Only.doOverlapEnd0 (s : State) : Only 0x1103AF s (State.doOverlapEnd s) := by
  unfold State.doOverlapEnd
  try dsimp only
  repeat' first
    | with_reducible exact Only.refl _ _
    | with_reducible assumption
    | with_reducible refine Only.ite ?_ ?_
    | with_reducible refine Only.gc (by decide) ?_
    | with_reducible refine Only.gateSeenAll (by decide) ?_
    | with_reducible refine Only.overlapLate (by decide) ?_
    | with_reducible refine Only.waitDom (by decide) ?_
    | with_reducible refine Only.raise (by decide) ?_
    | with_reducible refine Only.setHandle (by decide) ?_
    | with_reducible refine Only.setCal (by decide) ?_
    | with_reducible refine Only.cbsAll (by decide) ?_
    | with_reducible refine Only.drainGone (by decide) ?_
    | with_reducible refine Only.hostResyncAll (by decide) ?_
    | with_reducible refine Only.foldl (fun _ _ _ => ?_) ?_
    | split

theorem Only.doOverlapEnd {m₀ : Nat} {s₀ t₀ : State}  (hm₀ : 0x1103AF ||| m₀ = m₀)
    (h₀ : Only m₀ s₀ t₀) : Only m₀ s₀ (State.doOverlapEnd t₀) :=
  h₀.step (Only.doOverlapEnd0 t₀) hm₀

theorem Only.doOvfRegionApply0 (s : State) : Only 0x100 s (State.doOvfRegionApply s) := by
  unfold State.doOvfRegionApply
  try dsimp only
  repeat' first
    | with_reducible exact Only.refl _ _
    | with_reducible refine Only.ovfApply (by decide) ?_

theorem Only.doOvfRegionApply {m₀ : Nat} {s₀ t₀ : State}  (hm₀ : 0x100 ||| m₀ = m₀)
    (h₀ : Only m₀ s₀ t₀) : Only m₀ s₀ (State.doOvfRegionApply t₀) :=
  h₀.step (Only.doOvfRegionApply0 t₀) hm₀

theorem Only.doPauseExpiry0 (s : State) (p q : Nat) : Only 0x10104 s (State.doPauseExpiry s p q) := by
  unfold State.doPauseExpiry
  try dsimp only
  repeat' first
    | with_reducible exact Only.refl _ _
    | with_reducible refine Only.bportMod (by decide) ?_
    | with_reducible refine Only.waitUntil (by decide) ?_
    | split

theorem Only.doPauseExpiry {m₀ : Nat} {s₀ t₀ : State} {p q : Nat} (hm₀ : 0x10104 ||| m₀ = m₀)
    (h₀ : Only m₀ s₀ t₀) : Only m₀ s₀ (State.doPauseExpiry t₀ p q) :=
  h₀.step (Only.doPauseExpiry0 t₀ _ _) hm₀

theorem Only.pauseQueue0 (s : State) (p n q : Nat) : Only 0x10B s (State.pauseQueue s p n q) := by
  unfold State.pauseQueue
  try dsimp only
  repeat' first
    | with_reducible exact Only.refl _ _
    | with_reducible refine Only.ite ?_ ?_
    | with_reducible refine Only.bump (by decide) ?_
    | with_reducible refine Only.bportMod (by decide) ?_

theorem Only.pauseQueue {m₀ : Nat} {s₀ t₀ : State} {p n q : Nat} (hm₀ : 0x10B ||| m₀ = m₀)
    (h₀ : Only m₀ s₀ t₀) : Only m₀ s₀ (State.pauseQueue t₀ p n q) :=
  h₀.step (Only.pauseQueue0 t₀ _ _ _) hm₀

theorem Only.doPauseFrameReceived0 (s : State) (p : Nat) (k : PauseKind) : Only 0x10B s
    (State.doPauseFrameReceived s p k) := by
  unfold State.doPauseFrameReceived
  try dsimp only
  repeat' first
    | with_reducible exact Only.refl _ _
    | with_reducible assumption
    | with_reducible refine Only.ite ?_ ?_
    | with_reducible refine Only.pauseQueue (by decide) ?_
    | with_reducible refine Only.stat (by decide) ?_
    | with_reducible refine Only.foldl (fun _ _ _ => ?_) ?_
    | split

theorem Only.doPauseFrameReceived {m₀ : Nat} {s₀ t₀ : State} {p : Nat} {k : PauseKind} (hm₀ : 0x10B ||| m₀ = m₀)
    (h₀ : Only m₀ s₀ t₀) : Only m₀ s₀ (State.doPauseFrameReceived t₀ p k) :=
  h₀.step (Only.doPauseFrameReceived0 t₀ _ _) hm₀

theorem Only.doSchedPartitionApply0 (s : State) : Only 0x100 s (State.doSchedPartitionApply s) := by
  unfold State.doSchedPartitionApply
  try dsimp only
  repeat' first
    | with_reducible exact Only.refl _ _
    | with_reducible refine Only.schedApply (by decide) ?_
    | with_reducible refine Only.spillUpdate (by decide) ?_

theorem Only.doSchedPartitionApply {m₀ : Nat} {s₀ t₀ : State}  (hm₀ : 0x100 ||| m₀ = m₀)
    (h₀ : Only m₀ s₀ t₀) : Only m₀ s₀ (State.doSchedPartitionApply t₀) :=
  h₀.step (Only.doSchedPartitionApply0 t₀) hm₀

theorem Only.slagFound0 (s : State) (arg : Nat) : Only 0xB s (State.slagFound s arg) := by
  unfold State.slagFound
  try dsimp only
  repeat' first
    | with_reducible exact Only.refl _ _
    | with_reducible refine Only.bump (by decide) ?_
    | with_reducible refine Only.raise (by decide) ?_

theorem Only.slagFound {m₀ : Nat} {s₀ t₀ : State} {arg : Nat} (hm₀ : 0xB ||| m₀ = m₀)
    (h₀ : Only m₀ s₀ t₀) : Only m₀ s₀ (State.slagFound t₀ arg) :=
  h₀.step (Only.slagFound0 t₀ _) hm₀

theorem Only.refFound0 (s : State) (r : Nat) : Only 0x8B s (State.refFound s r) := by
  unfold State.refFound
  try dsimp only
  repeat' first
    | with_reducible exact Only.refl _ _
    | with_reducible refine Only.ite ?_ ?_
    | with_reducible refine Only.slagFound (by decide) ?_
    | with_reducible refine Only.fmod (by decide) ?_

theorem Only.refFound {m₀ : Nat} {s₀ t₀ : State} {r : Nat} (hm₀ : 0x8B ||| m₀ = m₀)
    (h₀ : Only m₀ s₀ t₀) : Only m₀ s₀ (State.refFound t₀ r) :=
  h₀.step (Only.refFound0 t₀ _) hm₀

theorem Only.doSlagAuditPass0 (s : State) (orphans : List Nat) (badRefs : List Nat) : Only 0x1101AF s
    (State.doSlagAuditPass s orphans badRefs) := by
  unfold State.doSlagAuditPass
  try dsimp only
  repeat' first
    | with_reducible exact Only.refl _ _
    | with_reducible assumption
    | with_reducible refine Only.ite ?_ ?_
    | with_reducible refine Only.bump (by decide) ?_
    | with_reducible refine Only.gc (by decide) ?_
    | with_reducible refine Only.slagFound (by decide) ?_
    | with_reducible refine Only.report (by decide) ?_
    | with_reducible refine Only.setBuf (by decide) ?_
    | with_reducible refine Only.refFound (by decide) ?_
    | with_reducible refine Only.auditRun (by decide) ?_
    | with_reducible refine Only.spillUpdate (by decide) ?_
    | with_reducible refine Only.ovfFullCheck (by decide) ?_
    | with_reducible refine Only.foldl (fun _ _ _ => ?_) ?_

theorem Only.doSlagAuditPass {m₀ : Nat} {s₀ t₀ : State} {orphans : List Nat} {badRefs : List Nat}
    (hm₀ : 0x1101AF ||| m₀ = m₀) (h₀ : Only m₀ s₀ t₀) : Only m₀ s₀ (State.doSlagAuditPass t₀ orphans badRefs) :=
  h₀.step (Only.doSlagAuditPass0 t₀ _ _) hm₀

theorem Only.doSpillFrame0 (s : State) : Only 0x18B s (State.doSpillFrame s) := by
  unfold State.doSpillFrame
  try dsimp only
  repeat' first
    | with_reducible exact Only.refl _ _
    | with_reducible refine Only.ite ?_ ?_
    | with_reducible refine Only.bump (by decide) ?_
    | with_reducible refine Only.cmod (by decide) ?_
    | with_reducible refine Only.flowCheck (by decide) ?_
    | with_reducible refine Only.spillUpdate (by decide) ?_
    | with_reducible refine Only.ovfFullCheck (by decide) ?_
    | split

theorem Only.doSpillFrame {m₀ : Nat} {s₀ t₀ : State}  (hm₀ : 0x18B ||| m₀ = m₀)
    (h₀ : Only m₀ s₀ t₀) : Only m₀ s₀ (State.doSpillFrame t₀) :=
  h₀.step (Only.doSpillFrame0 t₀) hm₀

theorem Only.doStreamDeadlineExpiry0 (s : State) (fid egress : Nat) : Only 0x1103AF s
    (State.doStreamDeadlineExpiry s fid egress) := by
  unfold State.doStreamDeadlineExpiry
  try dsimp only
  repeat' first
    | with_reducible exact Only.refl _ _
    | with_reducible refine Only.ite ?_ ?_
    | with_reducible refine Only.gc (by decide) ?_
    | with_reducible refine Only.late (by decide) ?_
    | with_reducible refine Only.pathLost (by decide) ?_
    | with_reducible refine Only.waitUntil (by decide) ?_
    | with_reducible refine Only.discardCopy (by decide) ?_
    | split

theorem Only.doStreamDeadlineExpiry {m₀ : Nat} {s₀ t₀ : State} {fid egress : Nat} (hm₀ : 0x1103AF ||| m₀ = m₀)
    (h₀ : Only m₀ s₀ t₀) : Only m₀ s₀ (State.doStreamDeadlineExpiry t₀ fid egress) :=
  h₀.step (Only.doStreamDeadlineExpiry0 t₀ _ _) hm₀

theorem Only.doXoffRepeat0 (s : State) (p pri : Nat) : Only 0x1010F s (State.doXoffRepeat s p pri) := by
  unfold State.doXoffRepeat
  try dsimp only
  repeat' first
    | with_reducible exact Only.refl _ _
    | with_reducible refine Only.ite ?_ ?_
    | with_reducible refine Only.bportMod (by decide) ?_
    | with_reducible refine Only.sendPause (by decide) ?_
    | with_reducible refine Only.flowOne (by decide) ?_
    | with_reducible refine Only.waitUntil (by decide) ?_

theorem Only.doXoffRepeat {m₀ : Nat} {s₀ t₀ : State} {p pri : Nat} (hm₀ : 0x1010F ||| m₀ = m₀)
    (h₀ : Only m₀ s₀ t₀) : Only m₀ s₀ (State.doXoffRepeat t₀ p pri) :=
  h₀.step (Only.doXoffRepeat0 t₀ _ _) hm₀

end Sys2Proof.Machine
end

