-- ==== Sys2Proof/Laws/OnlyEdge.lean ====
section
/-! SUPPORT.
Frames: what the edge buses and the tunnels can change
at most. The law named `…0` states the frame of one operation, the other one carries a frame over it. -/

namespace Sys2Proof.Machine

theorem Only.canMod0 (s : State) (c : Nat) (f : CanCh → CanCh) : Only 0x400 s (State.canMod s c f) := by
  unfold State.canMod
  try dsimp only
  repeat' first
    | with_reducible exact Only.refl _ _
    | with_reducible refine Only.setEdg (by decide) ?_

theorem Only.canMod {m₀ : Nat} {s₀ t₀ : State} {c : Nat} {f : CanCh → CanCh} (hm₀ : 0x400 ||| m₀ = m₀)
    (h₀ : Only m₀ s₀ t₀) : Only m₀ s₀ (State.canMod t₀ c f) :=
  h₀.step (Only.canMod0 t₀ _ _) hm₀

theorem Only.canEnter0 (s : State) (ch : Nat) (st : CanState) : Only 0x40B s (State.canEnter s ch st) := by
  unfold State.canEnter
  try dsimp only
  repeat' first
    | with_reducible exact Only.refl _ _
    | with_reducible refine Only.ite ?_ ?_
    | with_reducible refine Only.bump (by decide) ?_
    | with_reducible refine Only.canMod (by decide) ?_
    | with_reducible refine Only.raiseLimited (by decide) ?_

theorem Only.canEnter {m₀ : Nat} {s₀ t₀ : State} {ch : Nat} {st : CanState} (hm₀ : 0x40B ||| m₀ = m₀)
    (h₀ : Only m₀ s₀ t₀) : Only m₀ s₀ (State.canEnter t₀ ch st) :=
  h₀.step (Only.canEnter0 t₀ _ _) hm₀

theorem Only.canRuns0 (s : State) (ch : Nat) : Only 0x40B s (State.canRuns s ch) := by
  unfold State.canRuns
  try dsimp only
  repeat' first
    | with_reducible exact Only.refl _ _
    | with_reducible refine Only.ite ?_ ?_
    | with_reducible refine Only.canEnter (by decide) ?_

theorem Only.canRuns {m₀ : Nat} {s₀ t₀ : State} {ch : Nat} (hm₀ : 0x40B ||| m₀ = m₀)
    (h₀ : Only m₀ s₀ t₀) : Only m₀ s₀ (State.canRuns t₀ ch) :=
  h₀.step (Only.canRuns0 t₀ _) hm₀

theorem Only.canMode0 (s : State) (ch : Nat) (m : XcvrMode) (pn : Bool) : Only 0x40B s (State.canMode s ch m pn) := by
  unfold State.canMode
  try dsimp only
  repeat' first
    | with_reducible exact Only.refl _ _
    | with_reducible refine Only.setEdg (by decide) ?_
    | with_reducible refine Only.canRuns (by decide) ?_
    | with_reducible refine Only.canMod (by decide) ?_

theorem Only.canMode {m₀ : Nat} {s₀ t₀ : State} {ch : Nat} {m : XcvrMode} {pn : Bool} (hm₀ : 0x40B ||| m₀ = m₀)
    (h₀ : Only m₀ s₀ t₀) : Only m₀ s₀ (State.canMode t₀ ch m pn) :=
  h₀.step (Only.canMode0 t₀ _ _ _) hm₀

theorem Only.linMod0 (s : State) (l : Nat) (f : LinCh → LinCh) : Only 0x400 s (State.linMod s l f) := by
  unfold State.linMod
  try dsimp only
  repeat' first
    | with_reducible exact Only.refl _ _
    | with_reducible refine Only.setEdg (by decide) ?_

theorem Only.linMod {m₀ : Nat} {s₀ t₀ : State} {l : Nat} {f : LinCh → LinCh} (hm₀ : 0x400 ||| m₀ = m₀)
    (h₀ : Only m₀ s₀ t₀) : Only m₀ s₀ (State.linMod t₀ l f) :=
  h₀.step (Only.linMod0 t₀ _ _) hm₀

theorem Only.linMode0 (s : State) (l : Nat) (m : XcvrMode) : Only 0x400 s (State.linMode s l m) := by
  unfold State.linMode
  try dsimp only
  repeat' first
    | with_reducible exact Only.refl _ _
    | with_reducible refine Only.setEdg (by decide) ?_
    | with_reducible refine Only.linMod (by decide) ?_

theorem Only.linMode {m₀ : Nat} {s₀ t₀ : State} {l : Nat} {m : XcvrMode} (hm₀ : 0x400 ||| m₀ = m₀)
    (h₀ : Only m₀ s₀ t₀) : Only m₀ s₀ (State.linMode t₀ l m) :=
  h₀.step (Only.linMode0 t₀ _ _) hm₀

theorem Only.xcvrOrder0 (s : State) (ch : Nat) (m : XcvrMode) (pn : Bool) (within : Nat) : Only 0x40B s
    (State.xcvrOrder s ch m pn within) := by
  unfold State.xcvrOrder
  try dsimp only
  repeat' first
    | with_reducible exact Only.refl _ _
    | with_reducible refine Only.ite ?_ ?_
    | with_reducible refine Only.canMode (by decide) ?_
    | with_reducible refine Only.linMod (by decide) ?_
    | with_reducible refine Only.canMod (by decide) ?_
    | with_reducible refine Only.linMode (by decide) ?_

theorem Only.xcvrOrder {m₀ : Nat} {s₀ t₀ : State} {ch : Nat} {m : XcvrMode} {pn : Bool} {within : Nat}
    (hm₀ : 0x40B ||| m₀ = m₀) (h₀ : Only m₀ s₀ t₀) : Only m₀ s₀ (State.xcvrOrder t₀ ch m pn within) :=
  h₀.step (Only.xcvrOrder0 t₀ _ _ _ _) hm₀

theorem Only.tunMod0 (s : State) (n : Nat) (f : TunCh → TunCh) : Only 0x800 s (State.tunMod s n f) := by
  unfold State.tunMod
  try dsimp only
  repeat' first
    | with_reducible exact Only.refl _ _
    | with_reducible refine Only.setTun (by decide) ?_

theorem Only.tunMod {m₀ : Nat} {s₀ t₀ : State} {n : Nat} {f : TunCh → TunCh} (hm₀ : 0x800 ||| m₀ = m₀)
    (h₀ : Only m₀ s₀ t₀) : Only m₀ s₀ (State.tunMod t₀ n f) :=
  h₀.step (Only.tunMod0 t₀ _ _) hm₀

theorem Only.xPush0 (s : State) (second : Bool) (x : XFrame) : Only 0x800 s (State.xPush s second x) := by
  unfold State.xPush
  try dsimp only
  repeat' first
    | with_reducible exact Only.refl _ _
    | with_reducible refine Only.ite ?_ ?_
    | with_reducible refine Only.setTun (by decide) ?_

theorem Only.xPush {m₀ : Nat} {s₀ t₀ : State} {second : Bool} {x : XFrame} (hm₀ : 0x800 ||| m₀ = m₀)
    (h₀ : Only m₀ s₀ t₀) : Only m₀ s₀ (State.xPush t₀ second x) :=
  h₀.step (Only.xPush0 t₀ _ _) hm₀

theorem Only.tunSend0 (s : State) (n : Nat) (l : List TunMsg) (edge : Verdict) (ticket : Option Nat) : Only 0x800 s
    (State.tunSend s n l edge ticket) := by
  unfold State.tunSend
  try dsimp only
  repeat' first
    | with_reducible exact Only.refl _ _
    | with_reducible refine Only.tunMod (by decide) ?_
    | with_reducible refine Only.xPush (by decide) ?_

theorem Only.tunSend {m₀ : Nat} {s₀ t₀ : State} {n : Nat} {l : List TunMsg} {edge : Verdict} {ticket : Option Nat}
    (hm₀ : 0x800 ||| m₀ = m₀) (h₀ : Only m₀ s₀ t₀) : Only m₀ s₀ (State.tunSend t₀ n l edge ticket) :=
  h₀.step (Only.tunSend0 t₀ _ _ _ _) hm₀

theorem Only.batchClose0 (s : State) (n : Nat) : Only 0x800 s (State.batchClose s n) := by
  unfold State.batchClose
  try dsimp only
  repeat' first
    | with_reducible exact Only.refl _ _
    | with_reducible refine Only.ite ?_ ?_
    | with_reducible refine Only.tunSend (by decide) ?_
    | with_reducible refine Only.tunMod (by decide) ?_

theorem Only.batchClose {m₀ : Nat} {s₀ t₀ : State} {n : Nat} (hm₀ : 0x800 ||| m₀ = m₀)
    (h₀ : Only m₀ s₀ t₀) : Only m₀ s₀ (State.batchClose t₀ n) :=
  h₀.step (Only.batchClose0 t₀ _) hm₀

theorem Only.batchAdd0 (s : State) (n : Nat) (m : TunMsg) : Only 0x800 s (State.batchAdd s n m) := by
  unfold State.batchAdd
  try dsimp only
  repeat' first
    | with_reducible exact Only.refl _ _
    | with_reducible refine Only.ite ?_ ?_
    | with_reducible refine Only.tunMod (by decide) ?_
    | with_reducible refine Only.batchClose (by decide) ?_

theorem Only.batchAdd {m₀ : Nat} {s₀ t₀ : State} {n : Nat} {m : TunMsg} (hm₀ : 0x800 ||| m₀ = m₀)
    (h₀ : Only m₀ s₀ t₀) : Only m₀ s₀ (State.batchAdd t₀ n m) :=
  h₀.step (Only.batchAdd0 t₀ _ _) hm₀

theorem Only.batchMove0 (x0 x1 : Nat) (st : State) : Only 0x800 st (State.batchMove x0 x1 st) := by
  induction x0 generalizing x1 st with
  | zero => unfold State.batchMove; exact Only.refl _ _
  | succ n ih =>
    unfold State.batchMove
    try dsimp only
    repeat' first
      | with_reducible refine Only.trans ?_ (ih _ _)
      | with_reducible exact Only.refl _ _
      | with_reducible refine Only.ite ?_ ?_
      | with_reducible refine Only.batchAdd (by decide) ?_
      | with_reducible refine Only.tunMod (by decide) ?_
      | split

theorem Only.batchMove {m₀ : Nat} {s₀ t₀ : State} {x0 x1 : Nat} (hm₀ : 0x800 ||| m₀ = m₀)
    (h₀ : Only m₀ s₀ t₀) : Only m₀ s₀ (State.batchMove x0 x1 t₀) :=
  h₀.step (Only.batchMove0 _ _ t₀) hm₀

theorem Only.batchFlow0 (s : State) (n : Nat) : Only 0x800 s (State.batchFlow s n) := by
  unfold State.batchFlow
  try dsimp only
  repeat' first
    | with_reducible exact Only.refl _ _
    | with_reducible refine Only.batchMove (by decide) ?_

theorem Only.batchFlow {m₀ : Nat} {s₀ t₀ : State} {n : Nat} (hm₀ : 0x800 ||| m₀ = m₀)
    (h₀ : Only m₀ s₀ t₀) : Only m₀ s₀ (State.batchFlow t₀ n) :=
  h₀.step (Only.batchFlow0 t₀ _) hm₀

theorem Only.batchJoin0 (s : State) (n : Nat) (m : TunMsg) : Only 0x800 s (State.batchJoin s n m) := by
  unfold State.batchJoin
  try dsimp only
  repeat' first
    | with_reducible exact Only.refl _ _
    | with_reducible refine Only.ite ?_ ?_
    | with_reducible refine Only.batchAdd (by decide) ?_
    | with_reducible refine Only.tunMod (by decide) ?_

theorem Only.batchJoin {m₀ : Nat} {s₀ t₀ : State} {n : Nat} {m : TunMsg} (hm₀ : 0x800 ||| m₀ = m₀)
    (h₀ : Only m₀ s₀ t₀) : Only m₀ s₀ (State.batchJoin t₀ n m) :=
  h₀.step (Only.batchJoin0 t₀ _ _) hm₀

theorem Only.roleModes0 (s : State) : Only 0x40B s (State.roleModes s) := by
  unfold State.roleModes
  try dsimp only
  repeat' first
    | with_reducible exact Only.refl _ _
    | with_reducible assumption
    | with_reducible refine Only.ite ?_ ?_
    | with_reducible refine Only.xcvrOrder (by decide) ?_
    | with_reducible refine Only.foldl (fun _ _ _ => ?_) ?_

theorem Only.roleModes {m₀ : Nat} {s₀ t₀ : State}  (hm₀ : 0x40B ||| m₀ = m₀)
    (h₀ : Only m₀ s₀ t₀) : Only m₀ s₀ (State.roleModes t₀) :=
  h₀.step (Only.roleModes0 t₀) hm₀

theorem Only.canFlush0 (s : State) (ch : Nat) : Only 0x400 s (State.canFlush s ch) := by
  unfold State.canFlush
  try dsimp only
  repeat' first
    | with_reducible exact Only.refl _ _
    | with_reducible refine Only.canMod (by decide) ?_

theorem Only.canFlush {m₀ : Nat} {s₀ t₀ : State} {ch : Nat} (hm₀ : 0x400 ||| m₀ = m₀)
    (h₀ : Only m₀ s₀ t₀) : Only m₀ s₀ (State.canFlush t₀ ch) :=
  h₀.step (Only.canFlush0 t₀ _) hm₀

theorem Only.linApply0 (s : State) (l : Nat) (x : LinCfg) : Only 0x400 s (State.linApply s l x) := by
  unfold State.linApply
  try dsimp only
  repeat' first
    | with_reducible exact Only.refl _ _
    | with_reducible refine Only.linMod (by decide) ?_

theorem Only.linApply {m₀ : Nat} {s₀ t₀ : State} {l : Nat} {x : LinCfg} (hm₀ : 0x400 ||| m₀ = m₀)
    (h₀ : Only m₀ s₀ t₀) : Only m₀ s₀ (State.linApply t₀ l x) :=
  h₀.step (Only.linApply0 t₀ _ _) hm₀

theorem Only.calReach0 (s : State) (i : Image) (off : Nat) {u₀ : State} {v₀} (e₀ : (State.calReach s i off) = some
    (u₀, v₀)) : Only 0x10004 s u₀ := by
  unfold State.calReach at e₀
  split at e₀
  · cases e₀
  · split at e₀
    · cases e₀; exact Only.refl _ _
    · split at e₀
      · split at e₀
        · cases e₀
        · cases e₀; exact Only.waitUntil (by decide) (Only.refl _ _)
      · cases e₀; exact Only.waitDom (by decide) (Only.refl _ _)

theorem Only.calReach {m₀ : Nat} {s₀ t₀ u₀ : State} {v₀} {i : Image} {off : Nat} (hm₀ : 0x10004 ||| m₀ = m₀) (e₀ :
    (State.calReach t₀ i off) = some (u₀, v₀)) (h₀ : Only m₀ s₀ t₀) : Only m₀ s₀ u₀ :=
  h₀.step (Only.calReach0 t₀ _ _ e₀) hm₀

theorem Only.txLost0 (s : State) (l : List TxItem) : Only 0x400 s (State.txLost s l) := by
  unfold State.txLost
  try dsimp only
  repeat' first
    | with_reducible exact Only.refl _ _
    | with_reducible refine Only.setEdg (by decide) ?_

theorem Only.txLost {m₀ : Nat} {s₀ t₀ : State} {l : List TxItem} (hm₀ : 0x400 ||| m₀ = m₀)
    (h₀ : Only m₀ s₀ t₀) : Only m₀ s₀ (State.txLost t₀ l) :=
  h₀.step (Only.txLost0 t₀ _) hm₀

theorem Only.canApply0 (s : State) (ch : Nat) (x : CanCfg) : Only 0x40B s (State.canApply s ch x) := by
  unfold State.canApply
  try dsimp only
  repeat' first
    | with_reducible exact Only.refl _ _
    | with_reducible refine Only.ite ?_ ?_
    | with_reducible refine Only.canFlush (by decide) ?_
    | with_reducible refine Only.txLost (by decide) ?_
    | with_reducible refine Only.canMode (by decide) ?_
    | with_reducible refine Only.canMod (by decide) ?_
    | with_reducible refine Only.canEnter (by decide) ?_

theorem Only.canApply {m₀ : Nat} {s₀ t₀ : State} {ch : Nat} {x : CanCfg} (hm₀ : 0x40B ||| m₀ = m₀)
    (h₀ : Only m₀ s₀ t₀) : Only m₀ s₀ (State.canApply t₀ ch x) :=
  h₀.step (Only.canApply0 t₀ _ _) hm₀

theorem Only.canCounts0 (s : State) (ch tec rec : Nat) : Only 0x40B s (State.canCounts s ch tec rec) := by
  unfold State.canCounts
  try dsimp only
  repeat' first
    | with_reducible exact Only.refl _ _
    | with_reducible refine Only.canMod (by decide) ?_
    | with_reducible refine Only.canEnter (by decide) ?_

theorem Only.canCounts {m₀ : Nat} {s₀ t₀ : State} {ch tec rec : Nat} (hm₀ : 0x40B ||| m₀ = m₀)
    (h₀ : Only m₀ s₀ t₀) : Only m₀ s₀ (State.canCounts t₀ ch tec rec) :=
  h₀.step (Only.canCounts0 t₀ _ _ _) hm₀

theorem Only.canError0 (s : State) (ch code : Nat) (transmitting eight : Bool) : Only 0x40B s
    (State.canError s ch code transmitting eight) := by
  unfold State.canError
  try dsimp only
  repeat' first
    | with_reducible exact Only.refl _ _
    | with_reducible refine Only.ite ?_ ?_
    | with_reducible refine Only.bump (by decide) ?_
    | with_reducible refine Only.canCounts (by decide) ?_
    | with_reducible refine Only.canMod (by decide) ?_

theorem Only.canError {m₀ : Nat} {s₀ t₀ : State} {ch code : Nat} {transmitting eight : Bool} (hm₀ : 0x40B ||| m₀ = m₀)
    (h₀ : Only m₀ s₀ t₀) : Only m₀ s₀ (State.canError t₀ ch code transmitting eight) :=
  h₀.step (Only.canError0 t₀ _ _ _ _) hm₀

theorem Only.xcvrDone0 (s : State) : Only 0x20001B s (State.xcvrDone s) := by
  unfold State.xcvrDone
  try dsimp only
  repeat' first
    | with_reducible exact Only.refl _ _
    | with_reducible assumption
    | with_reducible refine Only.finishCmd (by decide) ?_
    | with_reducible refine Only.foldl (fun _ _ _ => ?_) ?_

theorem Only.xcvrDone {m₀ : Nat} {s₀ t₀ : State}  (hm₀ : 0x20001B ||| m₀ = m₀)
    (h₀ : Only m₀ s₀ t₀) : Only m₀ s₀ (State.xcvrDone t₀) :=
  h₀.step (Only.xcvrDone0 t₀) hm₀

theorem Only.canFault0 (s : State) (ch code : Nat) (transmitting eight : Bool) : Only 0x20041B s
    (State.canFault s ch code transmitting eight) := by
  unfold State.canFault
  try dsimp only
  repeat' first
    | with_reducible exact Only.refl _ _
    | with_reducible refine Only.ite ?_ ?_
    | with_reducible refine Only.canMode (by decide) ?_
    | with_reducible refine Only.xcvrDone (by decide) ?_
    | with_reducible refine Only.canError (by decide) ?_
    | split

theorem Only.canFault {m₀ : Nat} {s₀ t₀ : State} {ch code : Nat} {transmitting eight : Bool}
    (hm₀ : 0x20041B ||| m₀ = m₀) (h₀ : Only m₀ s₀ t₀) : Only m₀ s₀ (State.canFault t₀ ch code transmitting eight) :=
  h₀.step (Only.canFault0 t₀ _ _ _ _) hm₀

theorem Only.canHeard0 (s : State) (ch : Nat) : Only 0x40B s (State.canHeard s ch) := by
  unfold State.canHeard
  try dsimp only
  repeat' first
    | with_reducible exact Only.refl _ _
    | with_reducible refine Only.ite ?_ ?_
    | with_reducible refine Only.canCounts (by decide) ?_
    | with_reducible refine Only.free2 ?_

theorem Only.canHeard {m₀ : Nat} {s₀ t₀ : State} {ch : Nat} (hm₀ : 0x40B ||| m₀ = m₀)
    (h₀ : Only m₀ s₀ t₀) : Only m₀ s₀ (State.canHeard t₀ ch) :=
  h₀.step (Only.canHeard0 t₀ _) hm₀

theorem Only.canRecover0 (s : State) (ch : Nat) : Only 0x400 s (State.canRecover s ch) := by
  unfold State.canRecover
  try dsimp only
  repeat' first
    | with_reducible exact Only.refl _ _
    | with_reducible refine Only.canMod (by decide) ?_

theorem Only.canRecover {m₀ : Nat} {s₀ t₀ : State} {ch : Nat} (hm₀ : 0x400 ||| m₀ = m₀)
    (h₀ : Only m₀ s₀ t₀) : Only m₀ s₀ (State.canRecover t₀ ch) :=
  h₀.step (Only.canRecover0 t₀ _) hm₀

theorem Only.rxTake0 (s : State) (ch n : Nat) (f : RxItem → RxItem) : Only 0x400 s (State.rxTake s ch n f) := by
  unfold State.rxTake
  try dsimp only
  repeat' first
    | with_reducible exact Only.refl _ _
    | with_reducible refine Only.ite ?_ ?_
    | with_reducible refine Only.linMod (by decide) ?_
    | with_reducible refine Only.canMod (by decide) ?_

theorem Only.rxTake {m₀ : Nat} {s₀ t₀ : State} {ch n : Nat} {f : RxItem → RxItem} (hm₀ : 0x400 ||| m₀ = m₀)
    (h₀ : Only m₀ s₀ t₀) : Only m₀ s₀ (State.rxTake t₀ ch n f) :=
  h₀.step (Only.rxTake0 t₀ _ _ _) hm₀

theorem Only.rxTakeSeq0 (s : State) (ch n q : Nat) : Only 0x400 s (State.rxTakeSeq s ch n q) := by
  unfold State.rxTakeSeq
  try dsimp only
  repeat' first
    | with_reducible exact Only.refl _ _
    | with_reducible refine Only.rxTake (by decide) ?_

theorem Only.rxTakeSeq {m₀ : Nat} {s₀ t₀ : State} {ch n q : Nat} (hm₀ : 0x400 ||| m₀ = m₀)
    (h₀ : Only m₀ s₀ t₀) : Only m₀ s₀ (State.rxTakeSeq t₀ ch n q) :=
  h₀.step (Only.rxTakeSeq0 t₀ _ _ _) hm₀

theorem Only.seqMod0 (s : State) (q : Nat) (f : Sequencer → Sequencer) : Only 0x1000 s (State.seqMod s q f) := by
  unfold State.seqMod
  try dsimp only
  repeat' first
    | with_reducible exact Only.refl _ _
    | with_reducible refine Only.setSig (by decide) ?_

theorem Only.seqMod {m₀ : Nat} {s₀ t₀ : State} {q : Nat} {f : Sequencer → Sequencer} (hm₀ : 0x1000 ||| m₀ = m₀)
    (h₀ : Only m₀ s₀ t₀) : Only m₀ s₀ (State.seqMod t₀ q f) :=
  h₀.step (Only.seqMod0 t₀ _ _) hm₀

theorem Only.sigArrive0 (s : State) (q : Nat) (a : Arrival) : Only 0x140B s (State.sigArrive s q a) := by
  unfold State.sigArrive
  try dsimp only
  repeat' first
    | with_reducible exact Only.refl _ _
    | with_reducible refine Only.ite ?_ ?_
    | with_reducible refine Only.bump (by decide) ?_
    | with_reducible refine Only.rxTakeSeq (by decide) ?_
    | with_reducible refine Only.raiseLimited (by decide) ?_
    | with_reducible refine Only.seqMod (by decide) ?_
    | split

theorem Only.sigArrive {m₀ : Nat} {s₀ t₀ : State} {q : Nat} {a : Arrival} (hm₀ : 0x140B ||| m₀ = m₀)
    (h₀ : Only m₀ s₀ t₀) : Only m₀ s₀ (State.sigArrive t₀ q a) :=
  h₀.step (Only.sigArrive0 t₀ _ _) hm₀

theorem Only.rxDeliver0 (s : State) (ch kind : Nat) (f : CanFrame) (sof : Nat) (tunnels : List Nat) (router : Nat) :
    Only 0x140B s (State.rxDeliver s ch kind f sof tunnels router) := by
  unfold State.rxDeliver
  try dsimp only
  repeat' first
    | with_reducible exact Only.refl _ _
    | with_reducible assumption
    | with_reducible refine Only.ite ?_ ?_
    | with_reducible refine Only.setEdg (by decide) ?_
    | with_reducible refine Only.sigArrive (by decide) ?_
    | with_reducible refine Only.linMod (by decide) ?_
    | with_reducible refine Only.canMod (by decide) ?_
    | with_reducible refine Only.foldl (fun _ _ _ => ?_) ?_

theorem Only.rxDeliver {m₀ : Nat} {s₀ t₀ : State} {ch kind : Nat} {f : CanFrame} {sof : Nat} {tunnels : List Nat}
    {router : Nat} (hm₀ : 0x140B ||| m₀ = m₀) (h₀ : Only m₀ s₀ t₀) : Only m₀ s₀
        (State.rxDeliver t₀ ch kind f sof tunnels router) :=
  h₀.step (Only.rxDeliver0 t₀ _ _ _ _ _ _) hm₀

theorem Only.canStore0 (s : State) (ch : Nat) (x : CanFilter) (f : CanFrame) (ago : Nat) : Only 0x140B s
    (State.canStore s ch x f ago) := by
  unfold State.canStore
  try dsimp only
  repeat' first
    | with_reducible exact Only.refl _ _
    | with_reducible refine Only.ite ?_ ?_
    | with_reducible refine Only.bump (by decide) ?_
    | with_reducible refine Only.canMod (by decide) ?_
    | with_reducible refine Only.raiseLimited (by decide) ?_
    | with_reducible refine Only.rxDeliver (by decide) ?_

theorem Only.canStore {m₀ : Nat} {s₀ t₀ : State} {ch : Nat} {x : CanFilter} {f : CanFrame} {ago : Nat}
    (hm₀ : 0x140B ||| m₀ = m₀) (h₀ : Only m₀ s₀ t₀) : Only m₀ s₀ (State.canStore t₀ ch x f ago) :=
  h₀.step (Only.canStore0 t₀ _ _ _ _) hm₀

theorem Only.canWrite0 (s : State) (ch target : Nat) (x : TxItem) : Only 0x40B s (State.canWrite s ch target x) := by
  unfold State.canWrite
  try dsimp only
  repeat' first
    | with_reducible exact Only.refl _ _
    | with_reducible refine Only.ite ?_ ?_
    | with_reducible refine Only.txLost (by decide) ?_
    | with_reducible refine Only.bump (by decide) ?_
    | with_reducible refine Only.canMod (by decide) ?_
    | split

theorem Only.canWrite {m₀ : Nat} {s₀ t₀ : State} {ch target : Nat} {x : TxItem} (hm₀ : 0x40B ||| m₀ = m₀)
    (h₀ : Only m₀ s₀ t₀) : Only m₀ s₀ (State.canWrite t₀ ch target x) :=
  h₀.step (Only.canWrite0 t₀ _ _ _) hm₀

theorem Only.tunDiscard0 (s : State) (n cause : Nat) : Only 0x80B s (State.tunDiscard s n cause) := by
  unfold State.tunDiscard
  try dsimp only
  repeat' first
    | with_reducible exact Only.refl _ _
    | with_reducible refine Only.bump (by decide) ?_
    | with_reducible refine Only.tunMod (by decide) ?_
    | with_reducible refine Only.rset (by decide) ?_
    | with_reducible refine Only.raiseLimited (by decide) ?_

theorem Only.tunDiscard {m₀ : Nat} {s₀ t₀ : State} {n cause : Nat} (hm₀ : 0x80B ||| m₀ = m₀)
    (h₀ : Only m₀ s₀ t₀) : Only m₀ s₀ (State.tunDiscard t₀ n cause) :=
  h₀.step (Only.tunDiscard0 t₀ _ _) hm₀

theorem Only.linEntryMod0 (s : State) (l n : Nat) (f : LinEntry → LinEntry) : Only 0x400 s (State.linEntryMod s l n f) := by
  unfold State.linEntryMod
  try dsimp only
  repeat' first
    | with_reducible exact Only.refl _ _
    | with_reducible refine Only.linMod (by decide) ?_

theorem Only.linEntryMod {m₀ : Nat} {s₀ t₀ : State} {l n : Nat} {f : LinEntry → LinEntry} (hm₀ : 0x400 ||| m₀ = m₀)
    (h₀ : Only m₀ s₀ t₀) : Only m₀ s₀ (State.linEntryMod t₀ l n f) :=
  h₀.step (Only.linEntryMod0 t₀ _ _ _) hm₀

theorem Only.linPublish0 (s : State) (l n : Nat) (data : List Byte) : Only 0x400 s (State.linPublish s l n data) := by
  unfold State.linPublish
  try dsimp only
  repeat' first
    | with_reducible exact Only.refl _ _
    | with_reducible refine Only.linEntryMod (by decide) ?_

theorem Only.linPublish {m₀ : Nat} {s₀ t₀ : State} {l n : Nat} {data : List Byte} (hm₀ : 0x400 ||| m₀ = m₀)
    (h₀ : Only m₀ s₀ t₀) : Only m₀ s₀ (State.linPublish t₀ l n data) :=
  h₀.step (Only.linPublish0 t₀ _ _ _) hm₀

theorem Only.tunPut0 (s : State) (n : Nat) (m : DecMsg) : Only 0xC0B s (State.tunPut s n m) := by
  unfold State.tunPut
  try dsimp only
  repeat' first
    | with_reducible exact Only.refl _ _
    | with_reducible refine Only.ite ?_ ?_
    | with_reducible refine Only.linPublish (by decide) ?_
    | with_reducible refine Only.canWrite (by decide) ?_
    | with_reducible refine Only.tunDiscard (by decide) ?_
    | split

theorem Only.tunPut {m₀ : Nat} {s₀ t₀ : State} {n : Nat} {m : DecMsg} (hm₀ : 0xC0B ||| m₀ = m₀)
    (h₀ : Only m₀ s₀ t₀) : Only m₀ s₀ (State.tunPut t₀ n m) :=
  h₀.step (Only.tunPut0 t₀ _ _) hm₀

theorem Only.cipherDeliver0 (s : State) (k : Nat) (ok : Bool) : Only 0x304FEB s (State.cipherDeliver s k ok) := by
  unfold State.cipherDeliver
  try dsimp only
  repeat' first
    | with_reducible exact Only.refl _ _
    | with_reducible refine Only.ite ?_ ?_
    | with_reducible refine Only.bump (by decide) ?_
    | with_reducible refine Only.gc (by decide) ?_
    | with_reducible refine Only.owedTake (by decide) ?_
    | with_reducible refine Only.judge (by decide) ?_
    | with_reducible refine Only.owedLate (by decide) ?_
    | with_reducible refine Only.tunMod (by decide) ?_
    | with_reducible refine Only.tunDiscard (by decide) ?_
    | with_reducible refine Only.fmod (by decide) ?_
    | with_reducible refine Only.setTun (by decide) ?_
    | with_reducible refine Only.tunPut (by decide) ?_
    | with_reducible refine Only.batchJoin (by decide) ?_
    | split

theorem Only.cipherDeliver {m₀ : Nat} {s₀ t₀ : State} {k : Nat} {ok : Bool} (hm₀ : 0x304FEB ||| m₀ = m₀)
    (h₀ : Only m₀ s₀ t₀) : Only m₀ s₀ (State.cipherDeliver t₀ k ok) :=
  h₀.step (Only.cipherDeliver0 t₀ _ _) hm₀

theorem Only.cipherAbort0 (s : State) : Only 0x304FEB s (State.cipherAbort s) := by
  unfold State.cipherAbort
  try dsimp only
  repeat' first
    | with_reducible exact Only.refl _ _
    | with_reducible assumption
    | with_reducible refine Only.bumpBy (by decide) ?_
    | with_reducible refine Only.setSec (by decide) ?_
    | with_reducible refine Only.cipherDeliver (by decide) ?_
    | with_reducible refine Only.foldl (fun _ _ _ => ?_) ?_

theorem Only.cipherAbort {m₀ : Nat} {s₀ t₀ : State}  (hm₀ : 0x304FEB ||| m₀ = m₀)
    (h₀ : Only m₀ s₀ t₀) : Only m₀ s₀ (State.cipherAbort t₀) :=
  h₀.step (Only.cipherAbort0 t₀) hm₀

theorem Only.xcvrUndo0 (s : State) (c : Cmd) : Only 0x40B s (State.xcvrUndo s c) := by
  unfold State.xcvrUndo
  try dsimp only
  repeat' first
    | with_reducible exact Only.refl _ _
    | with_reducible assumption
    | with_reducible refine Only.ite ?_ ?_
    | with_reducible refine Only.canMode (by decide) ?_
    | with_reducible refine Only.linMod (by decide) ?_
    | with_reducible refine Only.canMod (by decide) ?_
    | with_reducible refine Only.linMode (by decide) ?_
    | with_reducible refine Only.foldl (fun _ _ _ => ?_) ?_

theorem Only.xcvrUndo {m₀ : Nat} {s₀ t₀ : State} {c : Cmd} (hm₀ : 0x40B ||| m₀ = m₀)
    (h₀ : Only m₀ s₀ t₀) : Only m₀ s₀ (State.xcvrUndo t₀ c) :=
  h₀.step (Only.xcvrUndo0 t₀ _) hm₀

theorem Only.t1sSync0 (s : State) : Only 0x304BEB s (State.t1sSync s) := by
  unfold State.t1sSync
  try dsimp only
  repeat' first
    | with_reducible exact Only.refl _ _
    | with_reducible assumption
    | with_reducible refine Only.ite ?_ ?_
    | with_reducible refine Only.doPortLinkUp (by decide) ?_
    | with_reducible refine Only.doPortLinkDown (by decide) ?_
    | with_reducible refine Only.foldl (fun _ _ _ => ?_) ?_

theorem Only.t1sSync {m₀ : Nat} {s₀ t₀ : State}  (hm₀ : 0x304BEB ||| m₀ = m₀)
    (h₀ : Only m₀ s₀ t₀) : Only m₀ s₀ (State.t1sSync t₀) :=
  h₀.step (Only.t1sSync0 t₀) hm₀

theorem Only.rxPurge0 (s : State) : Only 0x400 s (State.rxPurge s) := by
  unfold State.rxPurge
  try dsimp only
  repeat' first
    | with_reducible exact Only.refl _ _
    | with_reducible refine Only.setEdg (by decide) ?_

theorem Only.rxPurge {m₀ : Nat} {s₀ t₀ : State}  (hm₀ : 0x400 ||| m₀ = m₀)
    (h₀ : Only m₀ s₀ t₀) : Only m₀ s₀ (State.rxPurge t₀) :=
  h₀.step (Only.rxPurge0 t₀) hm₀

theorem Only.doBatchTimeout0 (s : State) (n : Nat) : Only 0x10804 s (State.doBatchTimeout s n) := by
  unfold State.doBatchTimeout
  try dsimp only
  repeat' first
    | with_reducible exact Only.refl _ _
    | with_reducible refine Only.ite ?_ ?_
    | with_reducible refine Only.batchClose (by decide) ?_
    | with_reducible refine Only.waitUntil (by decide) ?_
    | with_reducible refine Only.batchFlow (by decide) ?_

theorem Only.doBatchTimeout {m₀ : Nat} {s₀ t₀ : State} {n : Nat} (hm₀ : 0x10804 ||| m₀ = m₀)
    (h₀ : Only m₀ s₀ t₀) : Only m₀ s₀ (State.doBatchTimeout t₀ n) :=
  h₀.step (Only.doBatchTimeout0 t₀ _) hm₀

theorem Only.doBusOffRecoverDelay0 (s : State) (ch : Nat) : Only 0x10404 s (State.doBusOffRecoverDelay s ch) := by
  unfold State.doBusOffRecoverDelay
  try dsimp only
  repeat' first
    | with_reducible exact Only.refl _ _
    | with_reducible refine Only.ite ?_ ?_
    | with_reducible refine Only.waitUntil (by decide) ?_
    | with_reducible refine Only.canRecover (by decide) ?_

theorem Only.doBusOffRecoverDelay {m₀ : Nat} {s₀ t₀ : State} {ch : Nat} (hm₀ : 0x10404 ||| m₀ = m₀)
    (h₀ : Only m₀ s₀ t₀) : Only m₀ s₀ (State.doBusOffRecoverDelay t₀ ch) :=
  h₀.step (Only.doBusOffRecoverDelay0 t₀ _) hm₀

theorem Only.doBusOffRecoveryDone0 (s : State) (ch : Nat) : Only 0x40B s (State.doBusOffRecoveryDone s ch) := by
  unfold State.doBusOffRecoveryDone
  try dsimp only
  repeat' first
    | with_reducible exact Only.refl _ _
    | with_reducible refine Only.ite ?_ ?_
    | with_reducible refine Only.canCounts (by decide) ?_

theorem Only.doBusOffRecoveryDone {m₀ : Nat} {s₀ t₀ : State} {ch : Nat} (hm₀ : 0x40B ||| m₀ = m₀)
    (h₀ : Only m₀ s₀ t₀) : Only m₀ s₀ (State.doBusOffRecoveryDone t₀ ch) :=
  h₀.step (Only.doBusOffRecoveryDone0 t₀ _) hm₀

theorem Only.doCanBusError0 (s : State) (ch code : Nat) (transmitting eight : Bool) : Only 0x20041B s
    (State.doCanBusError s ch code transmitting eight) := by
  unfold State.doCanBusError
  try dsimp only
  repeat' first
    | with_reducible exact Only.refl _ _
    | with_reducible refine Only.ite ?_ ?_
    | with_reducible refine Only.canFault (by decide) ?_

theorem Only.doCanBusError {m₀ : Nat} {s₀ t₀ : State} {ch code : Nat} {transmitting eight : Bool}
    (hm₀ : 0x20041B ||| m₀ = m₀) (h₀ : Only m₀ s₀ t₀) : Only m₀ s₀ (State.doCanBusError t₀ ch code transmitting eight) :=
  h₀.step (Only.doCanBusError0 t₀ _ _ _ _) hm₀

theorem Only.doCanFrameReceived0 (s : State) (ch : Nat) (f : CanFrame) (ago : Nat) : Only 0x20141B s
    (State.doCanFrameReceived s ch f ago) := by
  unfold State.doCanFrameReceived
  try dsimp only
  repeat' first
    | with_reducible exact Only.refl _ _
    | with_reducible refine Only.ite ?_ ?_
    | with_reducible refine Only.bump (by decide) ?_
    | with_reducible refine Only.canHeard (by decide) ?_
    | with_reducible refine Only.canMod (by decide) ?_
    | with_reducible refine Only.canFault (by decide) ?_
    | with_reducible refine Only.canStore (by decide) ?_
    | split

theorem Only.doCanFrameReceived {m₀ : Nat} {s₀ t₀ : State} {ch : Nat} {f : CanFrame} {ago : Nat}
    (hm₀ : 0x20141B ||| m₀ = m₀) (h₀ : Only m₀ s₀ t₀) : Only m₀ s₀ (State.doCanFrameReceived t₀ ch f ago) :=
  h₀.step (Only.doCanFrameReceived0 t₀ _ _ _) hm₀

theorem Only.slotMod0 (s : State) (x : OpenSlot) (f : OpenSlot → OpenSlot) : Only 0x20 s (State.slotMod s x f) := by
  unfold State.slotMod
  try dsimp only
  repeat' first
    | with_reducible exact Only.refl _ _
    | with_reducible refine Only.setCal (by decide) ?_

theorem Only.slotMod {m₀ : Nat} {s₀ t₀ : State} {x : OpenSlot} {f : OpenSlot → OpenSlot} (hm₀ : 0x20 ||| m₀ = m₀)
    (h₀ : Only m₀ s₀ t₀) : Only m₀ s₀ (State.slotMod t₀ x f) :=
  h₀.step (Only.slotMod0 t₀ _ _) hm₀

theorem Only.tdcMeasure0 (s : State) (ch : Nat) (f : CanFrame) : Only 0x400 s (State.tdcMeasure s ch f) := by
  unfold State.tdcMeasure
  try dsimp only
  repeat' first
    | with_reducible exact Only.refl _ _
    | with_reducible refine Only.ite ?_ ?_
    | with_reducible refine Only.free2 ?_
    | with_reducible refine Only.canMod (by decide) ?_

theorem Only.tdcMeasure {m₀ : Nat} {s₀ t₀ : State} {ch : Nat} {f : CanFrame} (hm₀ : 0x400 ||| m₀ = m₀)
    (h₀ : Only m₀ s₀ t₀) : Only m₀ s₀ (State.tdcMeasure t₀ ch f) :=
  h₀.step (Only.tdcMeasure0 t₀ _ _) hm₀

theorem Only.txBegun0 (s : State) (ch : Nat) (p : State.TxFrom) : Only 0x400 s (State.txBegun s ch p) := by
  unfold State.txBegun
  try dsimp only
  repeat' first
    | with_reducible exact Only.refl _ _
    | with_reducible refine Only.canMod (by decide) ?_
    | split

theorem Only.txBegun {m₀ : Nat} {s₀ t₀ : State} {ch : Nat} {p : State.TxFrom} (hm₀ : 0x400 ||| m₀ = m₀)
    (h₀ : Only m₀ s₀ t₀) : Only m₀ s₀ (State.txBegun t₀ ch p) :=
  h₀.step (Only.txBegun0 t₀ _ _) hm₀

theorem Only.txRemove0 (s : State) (ch : Nat) (p : State.TxFrom) : Only 0x420 s (State.txRemove s ch p) := by
  unfold State.txRemove
  try dsimp only
  repeat' first
    | with_reducible exact Only.refl _ _
    | with_reducible refine Only.slotMod (by decide) ?_
    | with_reducible refine Only.canMod (by decide) ?_
    | split

theorem Only.txRemove {m₀ : Nat} {s₀ t₀ : State} {ch : Nat} {p : State.TxFrom} (hm₀ : 0x420 ||| m₀ = m₀)
    (h₀ : Only m₀ s₀ t₀) : Only m₀ s₀ (State.txRemove t₀ ch p) :=
  h₀.step (Only.txRemove0 t₀ _ _) hm₀

theorem Only.doCanTxAttempt0 (s : State) (ch : Nat) (r : CanTxResult) : Only 0x20043B s (State.doCanTxAttempt s ch r) := by
  unfold State.doCanTxAttempt
  try dsimp only
  repeat' first
    | with_reducible exact Only.refl _ _
    | with_reducible refine Only.ite ?_ ?_
    | with_reducible refine Only.bump (by decide) ?_
    | with_reducible refine Only.canCounts (by decide) ?_
    | with_reducible refine Only.slotMod (by decide) ?_
    | with_reducible refine Only.tdcMeasure (by decide) ?_
    | with_reducible refine Only.canMod (by decide) ?_
    | with_reducible refine Only.canFault (by decide) ?_
    | with_reducible refine Only.txBegun (by decide) ?_
    | with_reducible refine Only.txRemove (by decide) ?_
    | with_reducible refine Only.emit (Nat.zero_or _) ?_
    | split

theorem Only.doCanTxAttempt {m₀ : Nat} {s₀ t₀ : State} {ch : Nat} {r : CanTxResult} (hm₀ : 0x20043B ||| m₀ = m₀)
    (h₀ : Only m₀ s₀ t₀) : Only m₀ s₀ (State.doCanTxAttempt t₀ ch r) :=
  h₀.step (Only.doCanTxAttempt0 t₀ _ _) hm₀

theorem Only.doCipherRequestComplete0 (s : State) (i : Nat) : Only 0x304FEB s (State.doCipherRequestComplete s i) := by
  unfold State.doCipherRequestComplete
  try dsimp only
  repeat' first
    | with_reducible exact Only.refl _ _
    | with_reducible refine Only.ite ?_ ?_
    | with_reducible refine Only.setSec (by decide) ?_
    | with_reducible refine Only.cipherEnds (by decide) ?_
    | with_reducible refine Only.cipherDeliver (by decide) ?_
    | split

theorem Only.doCipherRequestComplete {m₀ : Nat} {s₀ t₀ : State} {i : Nat} (hm₀ : 0x304FEB ||| m₀ = m₀)
    (h₀ : Only m₀ s₀ t₀) : Only m₀ s₀ (State.doCipherRequestComplete t₀ i) :=
  h₀.step (Only.doCipherRequestComplete0 t₀ _) hm₀

theorem Only.t1sMod0 (s : State) (m : Nat) (f : T1s → T1s) : Only 0x400 s (State.t1sMod s m f) := by
  unfold State.t1sMod
  try dsimp only
  repeat' first
    | with_reducible exact Only.refl _ _
    | with_reducible refine Only.setEdg (by decide) ?_

theorem Only.t1sMod {m₀ : Nat} {s₀ t₀ : State} {m : Nat} {f : T1s → T1s} (hm₀ : 0x400 ||| m₀ = m₀)
    (h₀ : Only m₀ s₀ t₀) : Only m₀ s₀ (State.t1sMod t₀ m f) :=
  h₀.step (Only.t1sMod0 t₀ _ _) hm₀

theorem Only.t1sEvent0 (s : State) (m arg : Nat) : Only 0x40B s (State.t1sEvent s m arg) := by
  unfold State.t1sEvent
  try dsimp only
  repeat' first
    | with_reducible exact Only.refl _ _
    | with_reducible refine Only.t1sMod (by decide) ?_
    | with_reducible refine Only.raiseLimited (by decide) ?_

theorem Only.t1sEvent {m₀ : Nat} {s₀ t₀ : State} {m arg : Nat} (hm₀ : 0x40B ||| m₀ = m₀)
    (h₀ : Only m₀ s₀ t₀) : Only m₀ s₀ (State.t1sEvent t₀ m arg) :=
  h₀.step (Only.t1sEvent0 t₀ _ _) hm₀

theorem Only.plcaSet0 (s : State) (m : Nat) (ok : Bool) : Only 0x304FEB s (State.plcaSet s m ok) := by
  unfold State.plcaSet
  try dsimp only
  repeat' first
    | with_reducible exact Only.refl _ _
    | with_reducible refine Only.ite ?_ ?_
    | with_reducible refine Only.t1sEvent (by decide) ?_
    | with_reducible refine Only.t1sMod (by decide) ?_
    | with_reducible refine Only.bump (by decide) ?_
    | with_reducible refine Only.t1sSync (by decide) ?_

theorem Only.plcaSet {m₀ : Nat} {s₀ t₀ : State} {m : Nat} {ok : Bool} (hm₀ : 0x304FEB ||| m₀ = m₀)
    (h₀ : Only m₀ s₀ t₀) : Only m₀ s₀ (State.plcaSet t₀ m ok) :=
  h₀.step (Only.plcaSet0 t₀ _ _) hm₀

theorem Only.t1sApply0 (s : State) (m : Nat) (x : T1sCfg) : Only 0x304FEB s (State.t1sApply s m x) := by
  unfold State.t1sApply
  try dsimp only
  repeat' first
    | with_reducible exact Only.refl _ _
    | with_reducible refine Only.ite ?_ ?_
    | with_reducible refine Only.t1sMod (by decide) ?_
    | with_reducible refine Only.t1sSync (by decide) ?_
    | with_reducible refine Only.plcaSet (by decide) ?_

theorem Only.t1sApply {m₀ : Nat} {s₀ t₀ : State} {m : Nat} {x : T1sCfg} (hm₀ : 0x304FEB ||| m₀ = m₀)
    (h₀ : Only m₀ s₀ t₀) : Only m₀ s₀ (State.t1sApply t₀ m x) :=
  h₀.step (Only.t1sApply0 t₀ _ _) hm₀

theorem Only.doConfigApplyAtIdle0 (s : State) (ch : Nat) : Only 0x304FEB s (State.doConfigApplyAtIdle s ch) := by
  unfold State.doConfigApplyAtIdle
  try dsimp only
  repeat' first
    | with_reducible exact Only.refl _ _
    | with_reducible refine Only.ite ?_ ?_
    | with_reducible refine Only.linApply (by decide) ?_
    | with_reducible refine Only.t1sApply (by decide) ?_
    | with_reducible refine Only.canApply (by decide) ?_
    | split

theorem Only.doConfigApplyAtIdle {m₀ : Nat} {s₀ t₀ : State} {ch : Nat} (hm₀ : 0x304FEB ||| m₀ = m₀)
    (h₀ : Only m₀ s₀ t₀) : Only m₀ s₀ (State.doConfigApplyAtIdle t₀ ch) :=
  h₀.step (Only.doConfigApplyAtIdle0 t₀ _) hm₀

theorem Only.doEdgeSlotEnd0 (s : State) (n : Nat) (idle : Bool) : Only 0x11042F s (State.doEdgeSlotEnd s n idle) := by
  unfold State.doEdgeSlotEnd
  try dsimp only
  repeat' first
    | with_reducible exact Only.refl _ _
    | with_reducible refine Only.ite ?_ ?_
    | with_reducible refine Only.bump (by decide) ?_
    | with_reducible refine Only.free2 ?_
    | with_reducible refine Only.breach (by decide) ?_
    | with_reducible refine Only.setCal (by decide) ?_
    | with_reducible refine Only.waitUntil (by decide) ?_
    | with_reducible refine Only.txRemove (by decide) ?_
    | split

theorem Only.doEdgeSlotEnd {m₀ : Nat} {s₀ t₀ : State} {n : Nat} {idle : Bool} (hm₀ : 0x11042F ||| m₀ = m₀)
    (h₀ : Only m₀ s₀ t₀) : Only m₀ s₀ (State.doEdgeSlotEnd t₀ n idle) :=
  h₀.step (Only.doEdgeSlotEnd0 t₀ _ _) hm₀

theorem Only.takeHeld0 (s : State) (n : Nat) : Only 0x1000 s (State.takeHeld s n).2 := by
  unfold State.takeHeld
  try dsimp only
  repeat' first
    | with_reducible exact Only.refl _ _
    | with_reducible refine Only.setSig (by decide) ?_
    | split

theorem Only.takeHeld {m₀ : Nat} {s₀ t₀ : State} {n : Nat} (hm₀ : 0x1000 ||| m₀ = m₀)
    (h₀ : Only m₀ s₀ t₀) : Only m₀ s₀ (State.takeHeld t₀ n).2 :=
  h₀.step (Only.takeHeld0 t₀ _) hm₀

theorem Only.linHeader0 (s : State) (l n : Nat) : Only 0x400 s (State.linHeader s l n) := by
  unfold State.linHeader
  try dsimp only
  repeat' first
    | with_reducible exact Only.refl _ _
    | with_reducible refine Only.ite ?_ ?_
    | with_reducible refine Only.linMod (by decide) ?_
    | with_reducible refine Only.emit (Nat.zero_or _) ?_
    | split

theorem Only.linHeader {m₀ : Nat} {s₀ t₀ : State} {l n : Nat} (hm₀ : 0x400 ||| m₀ = m₀)
    (h₀ : Only m₀ s₀ t₀) : Only m₀ s₀ (State.linHeader t₀ l n) :=
  h₀.step (Only.linHeader0 t₀ _ _) hm₀

theorem Only.linSlotStart0 (s : State) (l : Nat) : Only 0x420 s (State.linSlotStart s l) := by
  unfold State.linSlotStart
  try dsimp only
  repeat' first
    | with_reducible exact Only.refl _ _
    | with_reducible refine Only.ite ?_ ?_
    | with_reducible refine Only.slotMod (by decide) ?_
    | with_reducible refine Only.linMod (by decide) ?_
    | with_reducible refine Only.linHeader (by decide) ?_
    | split

theorem Only.linSlotStart {m₀ : Nat} {s₀ t₀ : State} {l : Nat} (hm₀ : 0x420 ||| m₀ = m₀)
    (h₀ : Only m₀ s₀ t₀) : Only m₀ s₀ (State.linSlotStart t₀ l) :=
  h₀.step (Only.linSlotStart0 t₀ _) hm₀

theorem Only.doEdgeSlotOpen0 (s : State) (n : Nat) : Only 0x11424 s (State.doEdgeSlotOpen s n) := by
  unfold State.doEdgeSlotOpen
  try dsimp only
  repeat' first
    | with_reducible exact Only.refl _ _
    | with_reducible refine Only.ite ?_ ?_
    | with_reducible refine Only.calReach (by decide) (by with_reducible assumption) ?_
    | with_reducible refine Only.takeHeld (by decide) ?_
    | with_reducible refine Only.setCal (by decide) ?_
    | with_reducible refine Only.linSlotStart (by decide) ?_
    | split

theorem Only.doEdgeSlotOpen {m₀ : Nat} {s₀ t₀ : State} {n : Nat} (hm₀ : 0x11424 ||| m₀ = m₀)
    (h₀ : Only m₀ s₀ t₀) : Only m₀ s₀ (State.doEdgeSlotOpen t₀ n) :=
  h₀.step (Only.doEdgeSlotOpen0 t₀ _) hm₀

theorem Only.macsecHead0 (s : State) (src : Nat) (head : List Byte) (sec : Option SecTag) : Only 0x400B s
    (State.macsecHead s src head sec).2.2 := by
  unfold State.macsecHead
  try dsimp only
  repeat' first
    | with_reducible exact Only.refl _ _
    | with_reducible refine Only.bump (by decide) ?_
    | with_reducible refine Only.rxSaMod (by decide) ?_
    | split

theorem Only.macsecHead {m₀ : Nat} {s₀ t₀ : State} {src : Nat} {head : List Byte} {sec : Option SecTag}
    (hm₀ : 0x400B ||| m₀ = m₀) (h₀ : Only m₀ s₀ t₀) : Only m₀ s₀ (State.macsecHead t₀ src head sec).2.2 :=
  h₀.step (Only.macsecHead0 t₀ _ _ _) hm₀

theorem Only.newFid0 (s : State) : Only 0x80 s (State.newFid s).2 := by
  unfold State.newFid
  try dsimp only
  repeat' first
    | with_reducible exact Only.refl _ _
    | with_reducible refine Only.setFr (by decide) ?_

theorem Only.newFid {m₀ : Nat} {s₀ t₀ : State}  (hm₀ : 0x80 ||| m₀ = m₀)
    (h₀ : Only m₀ s₀ t₀) : Only m₀ s₀ (State.newFid t₀).2 :=
  h₀.step (Only.newFid0 t₀) hm₀

theorem Only.doFrameArrival0 (s : State) (src : Nat) (head : List Byte) (sec : Option SecTag) : Only 0x408B s
    (State.doFrameArrival s src head sec) := by
  unfold State.doFrameArrival
  try dsimp only
  repeat' first
    | with_reducible exact Only.refl _ _
    | with_reducible refine Only.ite ?_ ?_
    | with_reducible refine Only.macsecHead (by decide) ?_
    | with_reducible refine Only.setFr (by decide) ?_
    | with_reducible refine Only.newFid (by decide) ?_

theorem Only.doFrameArrival {m₀ : Nat} {s₀ t₀ : State} {src : Nat} {head : List Byte} {sec : Option SecTag}
    (hm₀ : 0x408B ||| m₀ = m₀) (h₀ : Only m₀ s₀ t₀) : Only m₀ s₀ (State.doFrameArrival t₀ src head sec) :=
  h₀.step (Only.doFrameArrival0 t₀ _ _ _) hm₀

theorem Only.mergeCounts0 (s : State) (p : Nat) (e : FrameEnd) : Only 0xB s (State.mergeCounts s p e) := by
  unfold State.mergeCounts
  try dsimp only
  repeat' first
    | with_reducible exact Only.refl _ _
    | with_reducible refine Only.ite ?_ ?_
    | with_reducible refine Only.bump (by decide) ?_
    | with_reducible refine Only.bumpBy (by decide) ?_
    | with_reducible refine Only.stat (by decide) ?_

theorem Only.mergeCounts {m₀ : Nat} {s₀ t₀ : State} {p : Nat} {e : FrameEnd} (hm₀ : 0xB ||| m₀ = m₀)
    (h₀ : Only m₀ s₀ t₀) : Only m₀ s₀ (State.mergeCounts t₀ p e) :=
  h₀.step (Only.mergeCounts0 t₀ _ _) hm₀

theorem Only.doFrameLastByte0 (s : State) (src : Nat) (rest : List Byte) (fin : FrameEnd) : Only 0x304BEB s
    (State.doFrameLastByte s src rest fin) := by
  unfold State.doFrameLastByte
  try dsimp only
  repeat' first
    | with_reducible exact Only.refl _ _
    | with_reducible refine Only.ite ?_ ?_
    | with_reducible refine Only.bump (by decide) ?_
    | with_reducible refine Only.gc (by decide) ?_
    | with_reducible refine Only.judge (by decide) ?_
    | with_reducible refine Only.fmod (by decide) ?_
    | with_reducible refine Only.flowCheck (by decide) ?_
    | with_reducible refine Only.storeEnd (by decide) ?_
    | with_reducible refine Only.spillUpdate (by decide) ?_
    | with_reducible refine Only.mergeCounts (by decide) ?_
    | split

theorem Only.doFrameLastByte {m₀ : Nat} {s₀ t₀ : State} {src : Nat} {rest : List Byte} {fin : FrameEnd}
    (hm₀ : 0x304BEB ||| m₀ = m₀) (h₀ : Only m₀ s₀ t₀) : Only m₀ s₀ (State.doFrameLastByte t₀ src rest fin) :=
  h₀.step (Only.doFrameLastByte0 t₀ _ _ _) hm₀

theorem Only.seqInject0 (s : State) (q : Nat) (x : XFrame) : Only 0x1800 s (State.seqInject s q x) := by
  unfold State.seqInject
  try dsimp only
  repeat' first
    | with_reducible exact Only.refl _ _
    | with_reducible refine Only.ite ?_ ?_
    | with_reducible refine Only.seqMod (by decide) ?_
    | with_reducible refine Only.xPush (by decide) ?_

theorem Only.seqInject {m₀ : Nat} {s₀ t₀ : State} {q : Nat} {x : XFrame} (hm₀ : 0x1800 ||| m₀ = m₀)
    (h₀ : Only m₀ s₀ t₀) : Only m₀ s₀ (State.seqInject t₀ q x) :=
  h₀.step (Only.seqInject0 t₀ _ _) hm₀

theorem Only.doLinBusIdleTimeout0 (s : State) (l : Nat) : Only 0x1040F s (State.doLinBusIdleTimeout s l) := by
  unfold State.doLinBusIdleTimeout
  try dsimp only
  repeat' first
    | with_reducible exact Only.refl _ _
    | with_reducible refine Only.ite ?_ ?_
    | with_reducible refine Only.linMod (by decide) ?_
    | with_reducible refine Only.raise (by decide) ?_
    | with_reducible refine Only.waitUntil (by decide) ?_

theorem Only.doLinBusIdleTimeout {m₀ : Nat} {s₀ t₀ : State} {l : Nat} (hm₀ : 0x1040F ||| m₀ = m₀)
    (h₀ : Only m₀ s₀ t₀) : Only m₀ s₀ (State.doLinBusIdleTimeout t₀ l) :=
  h₀.step (Only.doLinBusIdleTimeout0 t₀ _) hm₀

theorem Only.doLinHeaderReceived0 (s : State) (l id rate : Nat) (parityOk : Bool) (ago : Nat) : Only 0x40B s
    (State.doLinHeaderReceived s l id rate parityOk ago) := by
  unfold State.doLinHeaderReceived
  try dsimp only
  repeat' first
    | with_reducible exact Only.refl _ _
    | with_reducible refine Only.ite ?_ ?_
    | with_reducible refine Only.bump (by decide) ?_
    | with_reducible refine Only.linMod (by decide) ?_
    | with_reducible refine Only.emit (Nat.zero_or _) ?_
    | split

theorem Only.doLinHeaderReceived {m₀ : Nat} {s₀ t₀ : State} {l id rate : Nat} {parityOk : Bool} {ago : Nat}
    (hm₀ : 0x40B ||| m₀ = m₀) (h₀ : Only m₀ s₀ t₀) : Only m₀ s₀ (State.doLinHeaderReceived t₀ l id rate parityOk ago) :=
  h₀.step (Only.doLinHeaderReceived0 t₀ _ _ _ _ _) hm₀

theorem Only.linCollision0 (s : State) (l : Nat) (e : LinEntry) : Only 0x40B s (State.linCollision s l e) := by
  unfold State.linCollision
  try dsimp only
  repeat' first
    | with_reducible exact Only.refl _ _
    | with_reducible refine Only.ite ?_ ?_
    | with_reducible refine Only.bump (by decide) ?_
    | with_reducible refine Only.linMod (by decide) ?_

theorem Only.linCollision {m₀ : Nat} {s₀ t₀ : State} {l : Nat} {e : LinEntry} (hm₀ : 0x40B ||| m₀ = m₀)
    (h₀ : Only m₀ s₀ t₀) : Only m₀ s₀ (State.linCollision t₀ l e) :=
  h₀.step (Only.linCollision0 t₀ _ _) hm₀

theorem Only.linRespErr0 (s : State) (l : Nat) (on : Bool) : Only 0x400 s (State.linRespErr s l on) := by
  unfold State.linRespErr
  try dsimp only
  repeat' first
    | with_reducible exact Only.refl _ _
    | with_reducible refine Only.ite ?_ ?_
    | with_reducible refine Only.linEntryMod (by decide) ?_

theorem Only.linRespErr {m₀ : Nat} {s₀ t₀ : State} {l : Nat} {on : Bool} (hm₀ : 0x400 ||| m₀ = m₀)
    (h₀ : Only m₀ s₀ t₀) : Only m₀ s₀ (State.linRespErr t₀ l on) :=
  h₀.step (Only.linRespErr0 t₀ _ _) hm₀

theorem Only.linDeliver0 (s : State) (l id sof : Nat) (data : List Byte) : Only 0x140B s
    (State.linDeliver s l id sof data) := by
  unfold State.linDeliver
  try dsimp only
  repeat' first
    | with_reducible exact Only.refl _ _
    | with_reducible refine Only.rxDeliver (by decide) ?_

theorem Only.linDeliver {m₀ : Nat} {s₀ t₀ : State} {l id sof : Nat} {data : List Byte} (hm₀ : 0x140B ||| m₀ = m₀)
    (h₀ : Only m₀ s₀ t₀) : Only m₀ s₀ (State.linDeliver t₀ l id sof data) :=
  h₀.step (Only.linDeliver0 t₀ _ _ _ _) hm₀

theorem Only.doLinResponseEnd0 (s : State) (l : Nat) (r : LinResult) (data : List Byte) : Only 0x142B s
    (State.doLinResponseEnd s l r data) := by
  unfold State.doLinResponseEnd
  try dsimp only
  repeat' first
    | with_reducible exact Only.refl _ _
    | with_reducible refine Only.ite ?_ ?_
    | with_reducible refine Only.linEntryMod (by decide) ?_
    | with_reducible refine Only.bump (by decide) ?_
    | with_reducible refine Only.linCollision (by decide) ?_
    | with_reducible refine Only.linRespErr (by decide) ?_
    | with_reducible refine Only.linMod (by decide) ?_
    | with_reducible refine Only.raise (by decide) ?_
    | with_reducible refine Only.linDeliver (by decide) ?_
    | with_reducible refine Only.linSlotStart (by decide) ?_
    | split

theorem Only.doLinResponseEnd {m₀ : Nat} {s₀ t₀ : State} {l : Nat} {r : LinResult} {data : List Byte}
    (hm₀ : 0x142B ||| m₀ = m₀) (h₀ : Only m₀ s₀ t₀) : Only m₀ s₀ (State.doLinResponseEnd t₀ l r data) :=
  h₀.step (Only.doLinResponseEnd0 t₀ _ _ _) hm₀

theorem Only.doLinScheduleSlot0 (s : State) (l : Nat) : Only 0x10404 s (State.doLinScheduleSlot s l) := by
  unfold State.doLinScheduleSlot
  try dsimp only
  repeat' first
    | with_reducible exact Only.refl _ _
    | with_reducible refine Only.ite ?_ ?_
    | with_reducible refine Only.linMod (by decide) ?_
    | with_reducible refine Only.waitUntil (by decide) ?_
    | with_reducible refine Only.linHeader (by decide) ?_
    | split

theorem Only.doLinScheduleSlot {m₀ : Nat} {s₀ t₀ : State} {l : Nat} (hm₀ : 0x10404 ||| m₀ = m₀)
    (h₀ : Only m₀ s₀ t₀) : Only m₀ s₀ (State.doLinScheduleSlot t₀ l) :=
  h₀.step (Only.doLinScheduleSlot0 t₀ _) hm₀

theorem Only.doMacsecIcvVerdict0 (s : State) (src : Nat) (ok : Bool) : Only 0x304BEB s
    (State.doMacsecIcvVerdict s src ok) := by
  unfold State.doMacsecIcvVerdict
  try dsimp only
  repeat' first
    | with_reducible exact Only.refl _ _
    | with_reducible refine Only.ite ?_ ?_
    | with_reducible refine Only.bump (by decide) ?_
    | with_reducible refine Only.gc (by decide) ?_
    | with_reducible refine Only.owedTake (by decide) ?_
    | with_reducible refine Only.judge (by decide) ?_
    | with_reducible refine Only.owedLate (by decide) ?_
    | with_reducible refine Only.fmod (by decide) ?_
    | split

theorem Only.doMacsecIcvVerdict {m₀ : Nat} {s₀ t₀ : State} {src : Nat} {ok : Bool} (hm₀ : 0x304BEB ||| m₀ = m₀)
    (h₀ : Only m₀ s₀ t₀) : Only m₀ s₀ (State.doMacsecIcvVerdict t₀ src ok) :=
  h₀.step (Only.doMacsecIcvVerdict0 t₀ _ _) hm₀

theorem Only.ownerPick0 (s : State) (pipe owner : Nat) : Only 0x80 s (State.ownerPick s pipe owner).2 := by
  unfold State.ownerPick
  try dsimp only
  repeat' first
    | with_reducible exact Only.refl _ _
    | with_reducible refine Only.setFr (by decide) ?_
    | split

theorem Only.ownerPick {m₀ : Nat} {s₀ t₀ : State} {pipe owner : Nat} (hm₀ : 0x80 ||| m₀ = m₀)
    (h₀ : Only m₀ s₀ t₀) : Only m₀ s₀ (State.ownerPick t₀ pipe owner).2 :=
  h₀.step (Only.ownerPick0 t₀ _ _) hm₀

theorem Only.doPipelineIssue0 (s : State) (pipe bePick : Nat) : Only 0x314BEF s (State.doPipelineIssue s pipe bePick) := by
  unfold State.doPipelineIssue
  try dsimp only
  repeat' first
    | with_reducible exact Only.refl _ _
    | with_reducible refine Only.ite ?_ ?_
    | with_reducible refine Only.gc (by decide) ?_
    | with_reducible refine Only.ownerPick (by decide) ?_
    | with_reducible refine Only.tick (by decide) ?_
    | with_reducible refine Only.setFr (by decide) ?_
    | with_reducible refine Only.wheelTo (by decide) ?_
    | with_reducible refine Only.lookup (by decide) ?_
    | split

theorem Only.doPipelineIssue {m₀ : Nat} {s₀ t₀ : State} {pipe bePick : Nat} (hm₀ : 0x314BEF ||| m₀ = m₀)
    (h₀ : Only m₀ s₀ t₀) : Only m₀ s₀ (State.doPipelineIssue t₀ pipe bePick) :=
  h₀.step (Only.doPipelineIssue0 t₀ _ _) hm₀

theorem Only.doPlcaStatusChange0 (s : State) (m : Nat) (ok : Bool) : Only 0x304FEB s (State.doPlcaStatusChange s m ok) := by
  unfold State.doPlcaStatusChange
  try dsimp only
  repeat' first
    | with_reducible exact Only.refl _ _
    | with_reducible refine Only.ite ?_ ?_
    | with_reducible refine Only.plcaSet (by decide) ?_

theorem Only.doPlcaStatusChange {m₀ : Nat} {s₀ t₀ : State} {m : Nat} {ok : Bool} (hm₀ : 0x304FEB ||| m₀ = m₀)
    (h₀ : Only m₀ s₀ t₀) : Only m₀ s₀ (State.doPlcaStatusChange t₀ m ok) :=
  h₀.step (Only.doPlcaStatusChange0 t₀ _ _) hm₀

theorem Only.tunWrite0 (s : State) (n : Nat) (m : DecMsg) : Only 0x5C0B s (State.tunWrite s n m) := by
  unfold State.tunWrite
  try dsimp only
  repeat' first
    | with_reducible exact Only.refl _ _
    | with_reducible assumption
    | with_reducible refine Only.ite ?_ ?_
    | with_reducible refine Only.bump (by decide) ?_
    | with_reducible refine Only.tunMod (by decide) ?_
    | with_reducible refine Only.tunDiscard (by decide) ?_
    | with_reducible refine Only.sigArrive (by decide) ?_
    | with_reducible refine Only.cipherEnter (by decide) ?_
    | with_reducible refine Only.tunPut (by decide) ?_
    | with_reducible refine Only.foldl (fun _ _ _ => ?_) ?_
    | split

theorem Only.tunWrite {m₀ : Nat} {s₀ t₀ : State} {n : Nat} {m : DecMsg} (hm₀ : 0x5C0B ||| m₀ = m₀)
    (h₀ : Only m₀ s₀ t₀) : Only m₀ s₀ (State.tunWrite t₀ n m) :=
  h₀.step (Only.tunWrite0 t₀ _ _) hm₀

theorem Only.tunWriteAll0 (s : State) (n : Nat) (l : List DecMsg) : Only 0x5C0B s (State.tunWriteAll s n l) := by
  unfold State.tunWriteAll
  try dsimp only
  repeat' first
    | with_reducible exact Only.refl _ _
    | with_reducible assumption
    | with_reducible refine Only.tunWrite (by decide) ?_
    | with_reducible refine Only.foldl (fun _ _ _ => ?_) ?_

theorem Only.tunWriteAll {m₀ : Nat} {s₀ t₀ : State} {n : Nat} {l : List DecMsg} (hm₀ : 0x5C0B ||| m₀ = m₀)
    (h₀ : Only m₀ s₀ t₀) : Only m₀ s₀ (State.tunWriteAll t₀ n l) :=
  h₀.step (Only.tunWriteAll0 t₀ _ _) hm₀

theorem Only.presFlow0 (x0 x1 : Nat) (st : State) : Only 0x5C0B st (State.presFlow x0 x1 st) := by
  induction x0 generalizing x1 st with
  | zero => unfold State.presFlow; exact Only.refl _ _
  | succ n ih =>
    unfold State.presFlow
    try dsimp only
    repeat' first
      | with_reducible refine Only.trans ?_ (ih _ _)
      | with_reducible exact Only.refl _ _
      | with_reducible refine Only.ite ?_ ?_
      | with_reducible refine Only.tunMod (by decide) ?_
      | with_reducible refine Only.tunWriteAll (by decide) ?_
      | split

theorem Only.presFlow {m₀ : Nat} {s₀ t₀ : State} {x0 x1 : Nat} (hm₀ : 0x5C0B ||| m₀ = m₀)
    (h₀ : Only m₀ s₀ t₀) : Only m₀ s₀ (State.presFlow x0 x1 t₀) :=
  h₀.step (Only.presFlow0 _ _ t₀) hm₀

theorem Only.doPresentationHoldEnd0 (s : State) (n : Nat) : Only 0x15C0F s (State.doPresentationHoldEnd s n) := by
  unfold State.doPresentationHoldEnd
  try dsimp only
  repeat' first
    | with_reducible exact Only.refl _ _
    | with_reducible refine Only.ite ?_ ?_
    | with_reducible refine Only.presFlow (by decide) ?_
    | with_reducible refine Only.waitUntil (by decide) ?_
    | split

theorem Only.doPresentationHoldEnd {m₀ : Nat} {s₀ t₀ : State} {n : Nat} (hm₀ : 0x15C0F ||| m₀ = m₀)
    (h₀ : Only m₀ s₀ t₀) : Only m₀ s₀ (State.doPresentationHoldEnd t₀ n) :=
  h₀.step (Only.doPresentationHoldEnd0 t₀ _) hm₀

theorem Only.doProtocolExceptionEnd0 (s : State) (ch : Nat) : Only 0x40B s (State.doProtocolExceptionEnd s ch) := by
  unfold State.doProtocolExceptionEnd
  try dsimp only
  repeat' first
    | with_reducible exact Only.refl _ _
    | with_reducible refine Only.ite ?_ ?_
    | with_reducible refine Only.bump (by decide) ?_
    | with_reducible refine Only.canMod (by decide) ?_

theorem Only.doProtocolExceptionEnd {m₀ : Nat} {s₀ t₀ : State} {ch : Nat} (hm₀ : 0x40B ||| m₀ = m₀)
    (h₀ : Only m₀ s₀ t₀) : Only m₀ s₀ (State.doProtocolExceptionEnd t₀ ch) :=
  h₀.step (Only.doProtocolExceptionEnd0 t₀ _) hm₀

theorem Only.doXcvrModeForced0 (s : State) (ch : Nat) : Only 0x21041F s (State.doXcvrModeForced s ch) := by
  unfold State.doXcvrModeForced
  try dsimp only
  repeat' first
    | with_reducible exact Only.refl _ _
    | with_reducible refine Only.ite ?_ ?_
    | with_reducible refine Only.canMode (by decide) ?_
    | with_reducible refine Only.xcvrDone (by decide) ?_
    | with_reducible refine Only.linMod (by decide) ?_
    | with_reducible refine Only.raise (by decide) ?_
    | with_reducible refine Only.waitUntil (by decide) ?_
    | with_reducible refine Only.linMode (by decide) ?_
    | split

theorem Only.doXcvrModeForced {m₀ : Nat} {s₀ t₀ : State} {ch : Nat} (hm₀ : 0x21041F ||| m₀ = m₀)
    (h₀ : Only m₀ s₀ t₀) : Only m₀ s₀ (State.doXcvrModeForced t₀ ch) :=
  h₀.step (Only.doXcvrModeForced0 t₀ _) hm₀

theorem Only.doT1sCollision0 (s : State) (m : Nat) : Only 0xB s (State.doT1sCollision s m) := by
  unfold State.doT1sCollision
  try dsimp only
  repeat' first
    | with_reducible exact Only.refl _ _
    | with_reducible refine Only.ite ?_ ?_
    | with_reducible refine Only.bump (by decide) ?_

theorem Only.doT1sCollision {m₀ : Nat} {s₀ t₀ : State} {m : Nat} (hm₀ : 0xB ||| m₀ = m₀)
    (h₀ : Only m₀ s₀ t₀) : Only m₀ s₀ (State.doT1sCollision t₀ m) :=
  h₀.step (Only.doT1sCollision0 t₀ _) hm₀

theorem Only.doT1sDupCoordinator0 (s : State) (m : Nat) : Only 0x40B s (State.doT1sDupCoordinator s m) := by
  unfold State.doT1sDupCoordinator
  try dsimp only
  repeat' first
    | with_reducible exact Only.refl _ _
    | with_reducible refine Only.ite ?_ ?_
    | with_reducible refine Only.t1sEvent (by decide) ?_
    | with_reducible refine Only.bump (by decide) ?_

theorem Only.doT1sDupCoordinator {m₀ : Nat} {s₀ t₀ : State} {m : Nat} (hm₀ : 0x40B ||| m₀ = m₀)
    (h₀ : Only m₀ s₀ t₀) : Only m₀ s₀ (State.doT1sDupCoordinator t₀ m) :=
  h₀.step (Only.doT1sDupCoordinator0 t₀ _) hm₀

theorem Only.tunSort0 (s : State) (n : Nat) (l : List (DecMsg ⊕ Nat)) : Only 0x80B s (State.tunSort s n l).2 := by
  unfold State.tunSort
  try dsimp only
  repeat' first
    | with_reducible exact Only.refl _ _
    | with_reducible assumption
    | with_reducible refine Only.tunDiscard (by decide) ?_
    | with_reducible refine Only.foldlSnd (fun _ _ _ _ => ?_) ?_
    | split

theorem Only.tunSort {m₀ : Nat} {s₀ t₀ : State} {n : Nat} {l : List (DecMsg ⊕ Nat)} (hm₀ : 0x80B ||| m₀ = m₀)
    (h₀ : Only m₀ s₀ t₀) : Only m₀ s₀ (State.tunSort t₀ n l).2 :=
  h₀.step (Only.tunSort0 t₀ _ _) hm₀

theorem Only.tunFrameIn0 (s : State) (n : Nat) (a : List Byte) : Only 0x5C0B s (State.tunFrameIn s n a) := by
  unfold State.tunFrameIn
  try dsimp only
  repeat' first
    | with_reducible exact Only.refl _ _
    | with_reducible refine Only.ite ?_ ?_
    | with_reducible refine Only.bump (by decide) ?_
    | with_reducible refine Only.tunSort (by decide) ?_
    | with_reducible refine Only.bumpBy (by decide) ?_
    | with_reducible refine Only.tunMod (by decide) ?_
    | with_reducible refine Only.tunDiscard (by decide) ?_
    | with_reducible refine Only.tunWriteAll (by decide) ?_

theorem Only.tunFrameIn {m₀ : Nat} {s₀ t₀ : State} {n : Nat} {a : List Byte} (hm₀ : 0x5C0B ||| m₀ = m₀)
    (h₀ : Only m₀ s₀ t₀) : Only m₀ s₀ (State.tunFrameIn t₀ n a) :=
  h₀.step (Only.tunFrameIn0 t₀ _ _) hm₀

theorem Only.doTunDecapsulate0 (s : State) (x : Nat) : Only 0x5C0B s (State.doTunDecapsulate s x) := by
  unfold State.doTunDecapsulate
  try dsimp only
  repeat' first
    | with_reducible exact Only.refl _ _
    | with_reducible refine Only.ite ?_ ?_
    | with_reducible refine Only.bump (by decide) ?_
    | with_reducible refine Only.tunFrameIn (by decide) ?_
    | with_reducible refine Only.setTun (by decide) ?_
    | split

theorem Only.doTunDecapsulate {m₀ : Nat} {s₀ t₀ : State} {x : Nat} (hm₀ : 0x5C0B ||| m₀ = m₀)
    (h₀ : Only m₀ s₀ t₀) : Only m₀ s₀ (State.doTunDecapsulate t₀ x) :=
  h₀.step (Only.doTunDecapsulate0 t₀ _) hm₀

theorem Only.doTunEncapTake0 (s : State) (n : Nat) : Only 0x4C0B s (State.doTunEncapTake s n) := by
  unfold State.doTunEncapTake
  try dsimp only
  repeat' first
    | with_reducible exact Only.refl _ _
    | with_reducible refine Only.ite ?_ ?_
    | with_reducible refine Only.bump (by decide) ?_
    | with_reducible refine Only.tunSend (by decide) ?_
    | with_reducible refine Only.tunMod (by decide) ?_
    | with_reducible refine Only.rxTake (by decide) ?_
    | with_reducible refine Only.cipherEnter (by decide) ?_
    | with_reducible refine Only.batchJoin (by decide) ?_
    | with_reducible refine Only.batchFlow (by decide) ?_
    | split

theorem Only.doTunEncapTake {m₀ : Nat} {s₀ t₀ : State} {n : Nat} (hm₀ : 0x4C0B ||| m₀ = m₀)
    (h₀ : Only m₀ s₀ t₀) : Only m₀ s₀ (State.doTunEncapTake t₀ n) :=
  h₀.step (Only.doTunEncapTake0 t₀ _) hm₀

theorem Only.doTunnelWindowClose0 (s : State) (w : Nat) : Only 0x10824 s (State.doTunnelWindowClose s w) := by
  unfold State.doTunnelWindowClose
  try dsimp only
  repeat' first
    | with_reducible exact Only.refl _ _
    | with_reducible refine Only.ite ?_ ?_
    | with_reducible refine Only.calReach (by decide) (by with_reducible assumption) ?_
    | with_reducible refine Only.batchClose (by decide) ?_
    | with_reducible refine Only.setCal (by decide) ?_
    | split

theorem Only.doTunnelWindowClose {m₀ : Nat} {s₀ t₀ : State} {w : Nat} (hm₀ : 0x10824 ||| m₀ = m₀)
    (h₀ : Only m₀ s₀ t₀) : Only m₀ s₀ (State.doTunnelWindowClose t₀ w) :=
  h₀.step (Only.doTunnelWindowClose0 t₀ _) hm₀

theorem Only.doTunnelWindowOpen0 (s : State) (w : Nat) : Only 0x10824 s (State.doTunnelWindowOpen s w) := by
  unfold State.doTunnelWindowOpen
  try dsimp only
  repeat' first
    | with_reducible exact Only.refl _ _
    | with_reducible refine Only.ite ?_ ?_
    | with_reducible refine Only.calReach (by decide) (by with_reducible assumption) ?_
    | with_reducible refine Only.setCal (by decide) ?_
    | with_reducible refine Only.batchFlow (by decide) ?_
    | split

theorem Only.doTunnelWindowOpen {m₀ : Nat} {s₀ t₀ : State} {w : Nat} (hm₀ : 0x10824 ||| m₀ = m₀)
    (h₀ : Only m₀ s₀ t₀) : Only m₀ s₀ (State.doTunnelWindowOpen t₀ w) :=
  h₀.step (Only.doTunnelWindowOpen0 t₀ _) hm₀

theorem Only.doVerdictTimeout0 (s : State) (src : Nat) : Only 0x314BEF s (State.doVerdictTimeout s src) := by
  unfold State.doVerdictTimeout
  try dsimp only
  repeat' first
    | with_reducible exact Only.refl _ _
    | with_reducible refine Only.bump (by decide) ?_
    | with_reducible refine Only.gc (by decide) ?_
    | with_reducible refine Only.abortFrame (by decide) ?_
    | with_reducible refine Only.raiseLimited (by decide) ?_
    | with_reducible refine Only.waitUntil (by decide) ?_
    | with_reducible refine Only.setFr (by decide) ?_
    | split

theorem Only.doVerdictTimeout {m₀ : Nat} {s₀ t₀ : State} {src : Nat} (hm₀ : 0x314BEF ||| m₀ = m₀)
    (h₀ : Only m₀ s₀ t₀) : Only m₀ s₀ (State.doVerdictTimeout t₀ src) :=
  h₀.step (Only.doVerdictTimeout0 t₀ _) hm₀

theorem Only.seqMoveOn0 (x0 x1 : Nat) (st : State) : Only 0x1800 st (State.seqMoveOn x0 x1 st) := by
  induction x0 generalizing x1 st with
  | zero => unfold State.seqMoveOn; exact Only.refl _ _
  | succ n ih =>
    unfold State.seqMoveOn
    try dsimp only
    repeat' first
      | with_reducible refine Only.trans ?_ (ih _ _)
      | with_reducible exact Only.refl _ _
      | with_reducible refine Only.ite ?_ ?_
      | with_reducible refine Only.seqMod (by decide) ?_
      | with_reducible refine Only.xPush (by decide) ?_
      | split

theorem Only.seqMoveOn {m₀ : Nat} {s₀ t₀ : State} {x0 x1 : Nat} (hm₀ : 0x1800 ||| m₀ = m₀)
    (h₀ : Only m₀ s₀ t₀) : Only m₀ s₀ (State.seqMoveOn x0 x1 t₀) :=
  h₀.step (Only.seqMoveOn0 _ _ t₀) hm₀

theorem Only.tunMoveOn0 (s : State) (n : Nat) : Only 0x800 s (State.tunMoveOn s n) := by
  unfold State.tunMoveOn
  try dsimp only
  repeat' first
    | with_reducible exact Only.refl _ _
    | with_reducible refine Only.ite ?_ ?_
    | with_reducible refine Only.tunSend (by decide) ?_
    | with_reducible refine Only.tunMod (by decide) ?_
    | with_reducible refine Only.batchFlow (by decide) ?_
    | split

theorem Only.tunMoveOn {m₀ : Nat} {s₀ t₀ : State} {n : Nat} (hm₀ : 0x800 ||| m₀ = m₀)
    (h₀ : Only m₀ s₀ t₀) : Only m₀ s₀ (State.tunMoveOn t₀ n) :=
  h₀.step (Only.tunMoveOn0 t₀ _) hm₀

theorem Only.doXPortInject0 (s : State) (x : Nat) : Only 0x1188F s (State.doXPortInject s x) := by
  unfold State.doXPortInject
  try dsimp only
  repeat' first
    | with_reducible exact Only.refl _ _
    | with_reducible assumption
    | with_reducible refine Only.ite ?_ ?_
    | with_reducible refine Only.bump (by decide) ?_
    | with_reducible refine Only.seqMoveOn (by decide) ?_
    | with_reducible refine Only.waitUntil (by decide) ?_
    | with_reducible refine Only.tunMoveOn (by decide) ?_
    | with_reducible refine Only.setTun (by decide) ?_
    | with_reducible refine Only.setFr (by decide) ?_
    | with_reducible refine Only.foldl (fun _ _ _ => ?_) ?_
    | split

theorem Only.doXPortInject {m₀ : Nat} {s₀ t₀ : State} {x : Nat} (hm₀ : 0x1188F ||| m₀ = m₀)
    (h₀ : Only m₀ s₀ t₀) : Only m₀ s₀ (State.doXPortInject t₀ x) :=
  h₀.step (Only.doXPortInject0 t₀ _) hm₀

theorem Only.doXcvrModeApply0 (s : State) (ch : Nat) : Only 0x20041B s (State.doXcvrModeApply s ch) := by
  unfold State.doXcvrModeApply
  try dsimp only
  repeat' first
    | with_reducible exact Only.refl _ _
    | with_reducible refine Only.ite ?_ ?_
    | with_reducible refine Only.canMode (by decide) ?_
    | with_reducible refine Only.xcvrDone (by decide) ?_
    | with_reducible refine Only.linMode (by decide) ?_
    | split

theorem Only.doXcvrModeApply {m₀ : Nat} {s₀ t₀ : State} {ch : Nat} (hm₀ : 0x20041B ||| m₀ = m₀)
    (h₀ : Only m₀ s₀ t₀) : Only m₀ s₀ (State.doXcvrModeApply t₀ ch) :=
  h₀.step (Only.doXcvrModeApply0 t₀ _) hm₀

theorem Only.doXcvrSettleEnd0 (s : State) (ch : Nat) : Only 0x21041F s (State.doXcvrSettleEnd s ch) := by
  unfold State.doXcvrSettleEnd
  try dsimp only
  repeat' first
    | with_reducible exact Only.refl _ _
    | with_reducible refine Only.xcvrDone (by decide) ?_
    | with_reducible refine Only.canMod (by decide) ?_
    | with_reducible refine Only.waitUntil (by decide) ?_
    | split

theorem Only.doXcvrSettleEnd {m₀ : Nat} {s₀ t₀ : State} {ch : Nat} (hm₀ : 0x21041F ||| m₀ = m₀)
    (h₀ : Only m₀ s₀ t₀) : Only m₀ s₀ (State.doXcvrSettleEnd t₀ ch) :=
  h₀.step (Only.doXcvrSettleEnd0 t₀ _) hm₀

theorem ExecOnly.edgBusOffRecover0 (c : Cmd) (s : State) : ExecOnly 0x400 s (State.edgBusOffRecover c s) := by
  unfold State.edgBusOffRecover
  try dsimp only
  repeat' first
    | with_reducible exact Only.refl _ _
    | with_reducible refine Only.ite ?_ ?_
    | with_reducible refine ExecOnly.done ?_
    | with_reducible refine Only.canFlush (by decide) ?_
    | with_reducible refine ExecOnly.edge ?_ ?_
    | with_reducible refine Only.canMod (by decide) ?_
    | with_reducible refine ExecOnly.check ?_ ?_
    | with_reducible refine Only.canRecover (by decide) ?_

theorem ExecOnly.edgBusOffRecover {m₀ : Nat} {s₀ t₀ : State} {c : Cmd} (hm₀ : 0x400 ||| m₀ = m₀)
    (h₀ : Only m₀ s₀ t₀) : ExecOnly m₀ s₀ (State.edgBusOffRecover c t₀) :=
  ExecOnly.after h₀ (ExecOnly.edgBusOffRecover0 _ t₀) hm₀

theorem ExecOnly.edgCanConfig0 (dma : List Byte) (c : Cmd) (s : State) : ExecOnly 0x40B s (State.edgCanConfig dma c s) := by
  unfold State.edgCanConfig
  try dsimp only
  repeat' first
    | with_reducible exact Only.refl _ _
    | with_reducible refine Only.ite ?_ ?_
    | with_reducible refine ExecOnly.done ?_
    | with_reducible refine ExecOnly.edge ?_ ?_
    | with_reducible refine Only.rset (by decide) ?_
    | with_reducible refine Only.canMod (by decide) ?_
    | with_reducible refine ExecOnly.check ?_ ?_
    | with_reducible refine Only.canApply (by decide) ?_

theorem ExecOnly.edgCanConfig {m₀ : Nat} {s₀ t₀ : State} {dma : List Byte} {c : Cmd} (hm₀ : 0x40B ||| m₀ = m₀)
    (h₀ : Only m₀ s₀ t₀) : ExecOnly m₀ s₀ (State.edgCanConfig dma c t₀) :=
  ExecOnly.after h₀ (ExecOnly.edgCanConfig0 _ _ t₀) hm₀

theorem ExecOnly.edgLinConfig0 (dma : List Byte) (c : Cmd) (s : State) : ExecOnly 0x400 s (State.edgLinConfig dma c s) := by
  unfold State.edgLinConfig
  try dsimp only
  repeat' first
    | with_reducible exact Only.refl _ _
    | with_reducible refine Only.ite ?_ ?_
    | with_reducible refine ExecOnly.done ?_
    | with_reducible refine ExecOnly.ite ?_ ?_
    | with_reducible refine Only.linApply (by decide) ?_
    | with_reducible refine ExecOnly.edge ?_ ?_
    | with_reducible refine Only.linMod (by decide) ?_
    | with_reducible refine ExecOnly.check ?_ ?_

theorem ExecOnly.edgLinConfig {m₀ : Nat} {s₀ t₀ : State} {dma : List Byte} {c : Cmd} (hm₀ : 0x400 ||| m₀ = m₀)
    (h₀ : Only m₀ s₀ t₀) : ExecOnly m₀ s₀ (State.edgLinConfig dma c t₀) :=
  ExecOnly.after h₀ (ExecOnly.edgLinConfig0 _ _ t₀) hm₀

theorem ExecOnly.edgT1sConfig0 (c : Cmd) (s : State) : ExecOnly 0x304FEB s (State.edgT1sConfig c s) := by
  unfold State.edgT1sConfig
  try dsimp only
  repeat' first
    | with_reducible exact Only.refl _ _
    | with_reducible refine Only.ite ?_ ?_
    | with_reducible refine ExecOnly.done ?_
    | with_reducible refine Only.t1sMod (by decide) ?_
    | with_reducible refine Only.rsetF (by decide) ?_
    | with_reducible refine ExecOnly.edge ?_ ?_
    | with_reducible refine Only.t1sApply (by decide) ?_
    | with_reducible refine ExecOnly.check ?_ ?_

theorem ExecOnly.edgT1sConfig {m₀ : Nat} {s₀ t₀ : State} {c : Cmd} (hm₀ : 0x304FEB ||| m₀ = m₀)
    (h₀ : Only m₀ s₀ t₀) : ExecOnly m₀ s₀ (State.edgT1sConfig c t₀) :=
  ExecOnly.after h₀ (ExecOnly.edgT1sConfig0 _ t₀) hm₀

theorem ExecOnly.edgXcvrMode0 (c : Cmd) (s : State) : ExecOnly 0x40B s (State.edgXcvrMode c s) := by
  unfold State.edgXcvrMode
  try dsimp only
  repeat' first
    | with_reducible exact Only.refl _ _
    | with_reducible assumption
    | with_reducible refine ExecOnly.done ?_
    | with_reducible refine ExecOnly.run ?_
    | with_reducible refine ExecOnly.ite ?_ ?_
    | with_reducible refine ExecOnly.need ?_ ?_
    | with_reducible refine Only.setEdg (by decide) ?_
    | with_reducible refine ExecOnly.edge ?_ ?_
    | with_reducible refine ExecOnly.check ?_ ?_
    | with_reducible refine Only.xcvrOrder (by decide) ?_
    | with_reducible refine Only.foldl (fun _ _ _ => ?_) ?_

theorem ExecOnly.edgXcvrMode {m₀ : Nat} {s₀ t₀ : State} {c : Cmd} (hm₀ : 0x40B ||| m₀ = m₀)
    (h₀ : Only m₀ s₀ t₀) : ExecOnly m₀ s₀ (State.edgXcvrMode c t₀) :=
  ExecOnly.after h₀ (ExecOnly.edgXcvrMode0 _ t₀) hm₀

theorem Only.tunApply0 (s : State) (n : Nat) (x : TunCh) : Only 0xC00 s (State.tunApply s n x) := by
  unfold State.tunApply
  try dsimp only
  repeat' first
    | with_reducible exact Only.refl _ _
    | with_reducible assumption
    | with_reducible refine Only.ite ?_ ?_
    | with_reducible refine Only.tunSend (by decide) ?_
    | with_reducible refine Only.rxPurge (by decide) ?_
    | with_reducible refine Only.tunMod (by decide) ?_
    | with_reducible refine Only.batchClose (by decide) ?_
    | with_reducible refine Only.foldl (fun _ _ _ => ?_) ?_

theorem Only.tunApply {m₀ : Nat} {s₀ t₀ : State} {n : Nat} {x : TunCh} (hm₀ : 0xC00 ||| m₀ = m₀)
    (h₀ : Only m₀ s₀ t₀) : Only m₀ s₀ (State.tunApply t₀ n x) :=
  h₀.step (Only.tunApply0 t₀ _ _) hm₀

theorem ExecOnly.tunChannelSet0 (c : Cmd) (s : State) : ExecOnly 0xC00 s (State.tunChannelSet c s) := by
  unfold State.tunChannelSet
  try dsimp only
  repeat' first
    | with_reducible exact Only.refl _ _
    | with_reducible refine ExecOnly.done ?_
    | with_reducible refine Only.tunApply (by decide) ?_
    | with_reducible refine ExecOnly.need ?_ ?_
    | with_reducible refine ExecOnly.datapath ?_ ?_
    | with_reducible refine ExecOnly.check ?_ ?_

theorem ExecOnly.tunChannelSet {m₀ : Nat} {s₀ t₀ : State} {c : Cmd} (hm₀ : 0xC00 ||| m₀ = m₀)
    (h₀ : Only m₀ s₀ t₀) : ExecOnly m₀ s₀ (State.tunChannelSet c t₀) :=
  ExecOnly.after h₀ (ExecOnly.tunChannelSet0 _ t₀) hm₀

end Sys2Proof.Machine
end

