-- ==== Sys2Proof/Laws/OnlyKeys.lean ====
section
/-! SUPPORT.
Frames: what security, keys, network management and time can change
at most. The law named `…0` states the frame of one operation, the other one carries a frame over it. -/

namespace Sys2Proof.Machine

theorem Only.linGoToSleep0 (s : State) : Only 0x0 s (State.linGoToSleep s) := by
  unfold State.linGoToSleep
  try dsimp only
  repeat' first
    | with_reducible exact Only.refl _ _
    | with_reducible assumption
    | with_reducible refine Only.ite ?_ ?_
    | with_reducible refine Only.emit (Nat.zero_or _) ?_
    | with_reducible refine Only.foldl (fun _ _ _ => ?_) ?_

theorem Only.linGoToSleep {m₀ : Nat} {s₀ t₀ : State}  (hm₀ : 0x0 ||| m₀ = m₀)
    (h₀ : Only m₀ s₀ t₀) : Only m₀ s₀ (State.linGoToSleep t₀) :=
  h₀.step (Only.linGoToSleep0 t₀) hm₀

theorem Only.nmMod0 (s : State) (f : Nm → Nm) : Only 0x40000 s (State.nmMod s f) := by
  unfold State.nmMod
  try dsimp only
  repeat' first
    | with_reducible exact Only.refl _ _
    | with_reducible refine Only.setNm (by decide) ?_

theorem Only.nmMod {m₀ : Nat} {s₀ t₀ : State} {f : Nm → Nm} (hm₀ : 0x40000 ||| m₀ = m₀)
    (h₀ : Only m₀ s₀ t₀) : Only m₀ s₀ (State.nmMod t₀ f) :=
  h₀.step (Only.nmMod0 t₀ _) hm₀

theorem Only.logUpdate0 (s : State) (r : NodeRec) : Only 0x40000 s (State.logUpdate s r) := by
  unfold State.logUpdate
  try dsimp only
  repeat' first
    | with_reducible exact Only.refl _ _
    | with_reducible refine Only.nmMod (by decide) ?_
    | split

theorem Only.logUpdate {m₀ : Nat} {s₀ t₀ : State} {r : NodeRec} (hm₀ : 0x40000 ||| m₀ = m₀)
    (h₀ : Only m₀ s₀ t₀) : Only m₀ s₀ (State.logUpdate t₀ r) :=
  h₀.step (Only.logUpdate0 t₀ _) hm₀

theorem Only.logUpdateAll0 (s : State) : Only 0x40000 s (State.logUpdateAll s) := by
  unfold State.logUpdateAll
  try dsimp only
  repeat' first
    | with_reducible exact Only.refl _ _
    | with_reducible assumption
    | with_reducible refine Only.logUpdate (by decide) ?_
    | with_reducible refine Only.foldl (fun _ _ _ => ?_) ?_

theorem Only.logUpdateAll {m₀ : Nat} {s₀ t₀ : State}  (hm₀ : 0x40000 ||| m₀ = m₀)
    (h₀ : Only m₀ s₀ t₀) : Only m₀ s₀ (State.logUpdateAll t₀) :=
  h₀.step (Only.logUpdateAll0 t₀) hm₀

theorem Only.nmMirror0 (s : State) : Only 0x0 s (State.nmMirror s) := by
  unfold State.nmMirror
  try dsimp only
  repeat' first
    | with_reducible exact Only.refl _ _
    | with_reducible refine Only.ite ?_ ?_
    | with_reducible refine Only.emit (Nat.zero_or _) ?_

theorem Only.nmMirror {m₀ : Nat} {s₀ t₀ : State}  (hm₀ : 0x0 ||| m₀ = m₀)
    (h₀ : Only m₀ s₀ t₀) : Only m₀ s₀ (State.nmMirror t₀) :=
  h₀.step (Only.nmMirror0 t₀) hm₀

theorem Only.pnApply0 (s : State) : Only 0x4040B s (State.pnApply s) := by
  unfold State.pnApply
  try dsimp only
  repeat' first
    | with_reducible exact Only.refl _ _
    | with_reducible assumption
    | with_reducible refine Only.ite ?_ ?_
    | with_reducible refine Only.nmMod (by decide) ?_
    | with_reducible refine Only.xcvrOrder (by decide) ?_
    | with_reducible refine Only.foldl (fun _ _ _ => ?_) ?_

theorem Only.pnApply {m₀ : Nat} {s₀ t₀ : State}  (hm₀ : 0x4040B ||| m₀ = m₀)
    (h₀ : Only m₀ s₀ t₀) : Only m₀ s₀ (State.pnApply t₀) :=
  h₀.step (Only.pnApply0 t₀) hm₀

theorem Only.nmEnter0 (s : State) (st : NmState) : Only 0x4040B s (State.nmEnter s st) := by
  unfold State.nmEnter
  try dsimp only
  repeat' first
    | with_reducible exact Only.refl _ _
    | with_reducible refine Only.ite ?_ ?_
    | with_reducible refine Only.linGoToSleep (by decide) ?_
    | with_reducible refine Only.logUpdateAll (by decide) ?_
    | with_reducible refine Only.raise (by decide) ?_
    | with_reducible refine Only.nmMirror (by decide) ?_
    | with_reducible refine Only.nmMod (by decide) ?_
    | with_reducible refine Only.pnApply (by decide) ?_

theorem Only.nmEnter {m₀ : Nat} {s₀ t₀ : State} {st : NmState} (hm₀ : 0x4040B ||| m₀ = m₀)
    (h₀ : Only m₀ s₀ t₀) : Only m₀ s₀ (State.nmEnter t₀ st) :=
  h₀.step (Only.nmEnter0 t₀ _) hm₀

theorem Only.nmEval0 (s : State) : Only 0x4040B s (State.nmEval s) := by
  unfold State.nmEval
  try dsimp only
  repeat' first
    | with_reducible exact Only.refl _ _
    | with_reducible refine Only.ite ?_ ?_
    | with_reducible refine Only.nmEnter (by decide) ?_
    | with_reducible refine Only.nmMirror (by decide) ?_
    | split

theorem Only.nmEval {m₀ : Nat} {s₀ t₀ : State}  (hm₀ : 0x4040B ||| m₀ = m₀)
    (h₀ : Only m₀ s₀ t₀) : Only m₀ s₀ (State.nmEval t₀) :=
  h₀.step (Only.nmEval0 t₀) hm₀

theorem Only.sleepAbort0 (s : State) (cause : Nat) : Only 0x4040B s (State.sleepAbort s cause) := by
  unfold State.sleepAbort
  try dsimp only
  repeat' first
    | with_reducible exact Only.refl _ _
    | with_reducible refine Only.bump (by decide) ?_
    | with_reducible refine Only.nmEnter (by decide) ?_
    | with_reducible refine Only.raise (by decide) ?_
    | with_reducible refine Only.nmMod (by decide) ?_

theorem Only.sleepAbort {m₀ : Nat} {s₀ t₀ : State} {cause : Nat} (hm₀ : 0x4040B ||| m₀ = m₀)
    (h₀ : Only m₀ s₀ t₀) : Only m₀ s₀ (State.sleepAbort t₀ cause) :=
  h₀.step (Only.sleepAbort0 t₀ _) hm₀

theorem Only.latch0 (s : State) (bit_ : Option Nat) (src : Nat) : Only 0x20000 s (State.latch s bit_ src) := by
  unfold State.latch
  try dsimp only
  repeat' first
    | with_reducible exact Only.refl _ _
    | with_reducible refine Only.setPwr (by decide) ?_

theorem Only.latch {m₀ : Nat} {s₀ t₀ : State} {bit_ : Option Nat} {src : Nat} (hm₀ : 0x20000 ||| m₀ = m₀)
    (h₀ : Only m₀ s₀ t₀) : Only m₀ s₀ (State.latch t₀ bit_ src) :=
  h₀.step (Only.latch0 t₀ _ _) hm₀

theorem Only.nmEvent0 (s : State) (cause : Nat) (bit_ : Option Nat) (src : Nat) : Only 0x6040B s
    (State.nmEvent s cause bit_ src) := by
  unfold State.nmEvent
  try dsimp only
  repeat' first
    | with_reducible exact Only.refl _ _
    | with_reducible refine Only.ite ?_ ?_
    | with_reducible refine Only.sleepAbort (by decide) ?_
    | with_reducible refine Only.latch (by decide) ?_
    | split

theorem Only.nmEvent {m₀ : Nat} {s₀ t₀ : State} {cause : Nat} {bit_ : Option Nat} {src : Nat}
    (hm₀ : 0x6040B ||| m₀ = m₀) (h₀ : Only m₀ s₀ t₀) : Only m₀ s₀ (State.nmEvent t₀ cause bit_ src) :=
  h₀.step (Only.nmEvent0 t₀ _ _ _) hm₀

theorem Only.domMod0 (s : State) (i : Nat) (f : Domain → Domain) : Only 0x10000 s (State.domMod s i f) := by
  unfold State.domMod
  try dsimp only
  repeat' first
    | with_reducible exact Only.refl _ _
    | with_reducible refine Only.putDom (by decide) ?_

theorem Only.domMod {m₀ : Nat} {s₀ t₀ : State} {i : Nat} {f : Domain → Domain} (hm₀ : 0x10000 ||| m₀ = m₀)
    (h₀ : Only m₀ s₀ t₀) : Only m₀ s₀ (State.domMod t₀ i f) :=
  h₀.step (Only.domMod0 t₀ _ _) hm₀

theorem Only.refuseStep0 (s : State) (i : Nat) (o : ℤ) : Only 0x1000B s (State.refuseStep s i o) := by
  unfold State.refuseStep
  try dsimp only
  repeat' first
    | with_reducible exact Only.refl _ _
    | with_reducible refine Only.bump (by decide) ?_
    | with_reducible refine Only.raiseLimited (by decide) ?_
    | with_reducible refine Only.domMod (by decide) ?_

theorem Only.refuseStep {m₀ : Nat} {s₀ t₀ : State} {i : Nat} {o : ℤ} (hm₀ : 0x1000B ||| m₀ = m₀)
    (h₀ : Only m₀ s₀ t₀) : Only m₀ s₀ (State.refuseStep t₀ i o) :=
  h₀.step (Only.refuseStep0 t₀ _ _) hm₀

theorem Only.stepDomain0 (s : State) (i : Nat) (o : ℤ) (cause : Nat) : Only 0x902AB s (State.stepDomain s i o cause) := by
  unfold State.stepDomain
  try dsimp only
  repeat' first
    | with_reducible exact Only.refl _ _
    | with_reducible refine Only.timeStepped (by decide) ?_
    | with_reducible refine Only.raise (by decide) ?_
    | with_reducible refine Only.domMod (by decide) ?_
    | with_reducible refine Only.rephaseNow (by decide) ?_

theorem Only.stepDomain {m₀ : Nat} {s₀ t₀ : State} {i : Nat} {o : ℤ} {cause : Nat} (hm₀ : 0x902AB ||| m₀ = m₀)
    (h₀ : Only m₀ s₀ t₀) : Only m₀ s₀ (State.stepDomain t₀ i o cause) :=
  h₀.step (Only.stepDomain0 t₀ _ _ _) hm₀

theorem Only.correct0 (s : State) (i : Nat) (o : ℤ) : Only 0x902AB s (State.correct s i o).2 := by
  unfold State.correct
  try dsimp only
  repeat' first
    | with_reducible exact Only.refl _ _
    | with_reducible refine Only.refuseStep (by decide) ?_
    | with_reducible refine Only.domMod (by decide) ?_
    | with_reducible refine Only.stepDomain (by decide) ?_
    | split

theorem Only.correct {m₀ : Nat} {s₀ t₀ : State} {i : Nat} {o : ℤ} (hm₀ : 0x902AB ||| m₀ = m₀)
    (h₀ : Only m₀ s₀ t₀) : Only m₀ s₀ (State.correct t₀ i o).2 :=
  h₀.step (Only.correct0 t₀ _ _) hm₀

theorem Only.doAlarmDeasserted0 (s : State) (sources : Nat) : Only 0x8000 s (State.doAlarmDeasserted s sources) := by
  unfold State.doAlarmDeasserted
  try dsimp only
  repeat' first
    | with_reducible exact Only.refl _ _
    | with_reducible refine Only.setKey (by decide) ?_

theorem Only.doAlarmDeasserted {m₀ : Nat} {s₀ t₀ : State} {sources : Nat} (hm₀ : 0x8000 ||| m₀ = m₀)
    (h₀ : Only m₀ s₀ t₀) : Only m₀ s₀ (State.doAlarmDeasserted t₀ sources) :=
  h₀.step (Only.doAlarmDeasserted0 t₀ _) hm₀

theorem Only.emberLost0 (s : State) : Only 0x6040B s (State.emberLost s) := by
  unfold State.emberLost
  try dsimp only
  repeat' first
    | with_reducible exact Only.refl _ _
    | with_reducible assumption
    | with_reducible refine Only.ite ?_ ?_
    | with_reducible refine Only.nmEnter (by decide) ?_
    | with_reducible refine Only.setEdg (by decide) ?_
    | with_reducible refine Only.raise (by decide) ?_
    | with_reducible refine Only.nmMod (by decide) ?_
    | with_reducible refine Only.setPwr (by decide) ?_
    | with_reducible refine Only.xcvrOrder (by decide) ?_
    | with_reducible refine Only.foldl (fun _ _ _ => ?_) ?_

theorem Only.emberLost {m₀ : Nat} {s₀ t₀ : State}  (hm₀ : 0x6040B ||| m₀ = m₀)
    (h₀ : Only m₀ s₀ t₀) : Only m₀ s₀ (State.emberLost t₀) :=
  h₀.step (Only.emberLost0 t₀) hm₀

theorem Only.timeQuench0 (s : State) : Only 0x1000B s (State.timeQuench s) := by
  unfold State.timeQuench
  try dsimp only
  repeat' first
    | with_reducible exact Only.refl _ _
    | with_reducible assumption
    | with_reducible refine Only.sourceLost (by decide) ?_
    | with_reducible refine Only.foldl (fun _ _ _ => ?_) ?_

theorem Only.timeQuench {m₀ : Nat} {s₀ t₀ : State}  (hm₀ : 0x1000B ||| m₀ = m₀)
    (h₀ : Only m₀ s₀ t₀) : Only m₀ s₀ (State.timeQuench t₀) :=
  h₀.step (Only.timeQuench0 t₀) hm₀

theorem Only.keysLost0 (s : State) (slots : List Nat) : Only 0x400B s (State.keysLost s slots) := by
  unfold State.keysLost
  try dsimp only
  repeat' first
    | with_reducible exact Only.refl _ _
    | with_reducible refine Only.ite ?_ ?_
    | with_reducible refine Only.setSec (by decide) ?_
    | with_reducible refine Only.raise (by decide) ?_

theorem Only.keysLost {m₀ : Nat} {s₀ t₀ : State} {slots : List Nat} (hm₀ : 0x400B ||| m₀ = m₀)
    (h₀ : Only m₀ s₀ t₀) : Only m₀ s₀ (State.keysLost t₀ slots) :=
  h₀.step (Only.keysLost0 t₀ _) hm₀

theorem Only.eraseLoaded0 (s : State) : Only 0x8000 s (State.eraseLoaded s).2 := by
  unfold State.eraseLoaded
  try dsimp only
  repeat' first
    | with_reducible exact Only.refl _ _
    | with_reducible refine Only.setKey (by decide) ?_

theorem Only.eraseLoaded {m₀ : Nat} {s₀ t₀ : State}  (hm₀ : 0x8000 ||| m₀ = m₀)
    (h₀ : Only m₀ s₀ t₀) : Only m₀ s₀ (State.eraseLoaded t₀).2 :=
  h₀.step (Only.eraseLoaded0 t₀) hm₀

theorem Only.timeWake0 (s : State) (gone : Nat) : Only 0x10004 s (State.timeWake s gone) := by
  unfold State.timeWake
  try dsimp only
  repeat' first
    | with_reducible exact Only.refl _ _
    | with_reducible refine Only.putDom (by decide) ?_

theorem Only.timeWake {m₀ : Nat} {s₀ t₀ : State} {gone : Nat} (hm₀ : 0x10004 ||| m₀ = m₀)
    (h₀ : Only m₀ s₀ t₀) : Only m₀ s₀ (State.timeWake t₀ gone) :=
  h₀.step (Only.timeWake0 t₀ _) hm₀

theorem Only.slotPut0 (s : State) (n : Nat) (k : KeySlot) : Only 0x8000 s (State.slotPut s n k) := by
  unfold State.slotPut
  try dsimp only
  repeat' first
    | with_reducible exact Only.refl _ _
    | with_reducible refine Only.setKey (by decide) ?_

theorem Only.slotPut {m₀ : Nat} {s₀ t₀ : State} {n : Nat} {k : KeySlot} (hm₀ : 0x8000 ||| m₀ = m₀)
    (h₀ : Only m₀ s₀ t₀) : Only m₀ s₀ (State.slotPut t₀ n k) :=
  h₀.step (Only.slotPut0 t₀ _ _) hm₀

theorem Only.sourceTimeout0 (s : State) (i limit : Nat) : Only 0x1000F s (State.sourceTimeout s i limit) := by
  unfold State.sourceTimeout
  try dsimp only
  repeat' first
    | with_reducible exact Only.refl _ _
    | with_reducible refine Only.ite ?_ ?_
    | with_reducible refine Only.holdover (by decide) ?_
    | with_reducible refine Only.waitUntil (by decide) ?_

theorem Only.sourceTimeout {m₀ : Nat} {s₀ t₀ : State} {i limit : Nat} (hm₀ : 0x1000F ||| m₀ = m₀)
    (h₀ : Only m₀ s₀ t₀) : Only m₀ s₀ (State.sourceTimeout t₀ i limit) :=
  h₀.step (Only.sourceTimeout0 t₀ _ _) hm₀

theorem Only.doHostSourceTimeout0 (s : State) (i : Nat) : Only 0x1000F s (State.doHostSourceTimeout s i) := by
  unfold State.doHostSourceTimeout
  try dsimp only
  repeat' first
    | with_reducible exact Only.refl _ _
    | with_reducible refine Only.ite ?_ ?_
    | with_reducible refine Only.sourceTimeout (by decide) ?_

theorem Only.doHostSourceTimeout {m₀ : Nat} {s₀ t₀ : State} {i : Nat} (hm₀ : 0x1000F ||| m₀ = m₀)
    (h₀ : Only m₀ s₀ t₀) : Only m₀ s₀ (State.doHostSourceTimeout t₀ i) :=
  h₀.step (Only.doHostSourceTimeout0 t₀ _) hm₀

theorem Only.doKeyAlarm0 (s : State) (sources : Nat) (ember : Bool) : Only 0xC00B s (State.doKeyAlarm s sources ember) := by
  unfold State.doKeyAlarm
  try dsimp only
  repeat' first
    | with_reducible exact Only.refl _ _
    | with_reducible refine Only.ite ?_ ?_
    | with_reducible refine Only.bump (by decide) ?_
    | with_reducible refine Only.rsetF (by decide) ?_
    | with_reducible refine Only.keysLost (by decide) ?_
    | with_reducible refine Only.eraseLoaded (by decide) ?_
    | with_reducible refine Only.raise (by decide) ?_
    | with_reducible refine Only.setKey (by decide) ?_

theorem Only.doKeyAlarm {m₀ : Nat} {s₀ t₀ : State} {sources : Nat} {ember : Bool} (hm₀ : 0xC00B ||| m₀ = m₀)
    (h₀ : Only m₀ s₀ t₀) : Only m₀ s₀ (State.doKeyAlarm t₀ sources ember) :=
  h₀.step (Only.doKeyAlarm0 t₀ _ _) hm₀

theorem Only.doLinWakeDetect0 (s : State) (l : Nat) : Only 0x6040B s (State.doLinWakeDetect s l) := by
  unfold State.doLinWakeDetect
  try dsimp only
  repeat' first
    | with_reducible exact Only.refl _ _
    | with_reducible refine Only.ite ?_ ?_
    | with_reducible refine Only.raise (by decide) ?_
    | with_reducible refine Only.nmEvent (by decide) ?_

theorem Only.doLinWakeDetect {m₀ : Nat} {s₀ t₀ : State} {l : Nat} (hm₀ : 0x6040B ||| m₀ = m₀)
    (h₀ : Only m₀ s₀ t₀) : Only m₀ s₀ (State.doLinWakeDetect t₀ l) :=
  h₀.step (Only.doLinWakeDetect0 t₀ _) hm₀

theorem Only.xcvrSleep0 (s : State) : Only 0x40B s (State.xcvrSleep s) := by
  unfold State.xcvrSleep
  try dsimp only
  repeat' first
    | with_reducible exact Only.refl _ _
    | with_reducible assumption
    | with_reducible refine Only.setEdg (by decide) ?_
    | with_reducible refine Only.xcvrOrder (by decide) ?_
    | with_reducible refine Only.foldl (fun _ _ _ => ?_) ?_

theorem Only.xcvrSleep {m₀ : Nat} {s₀ t₀ : State}  (hm₀ : 0x40B ||| m₀ = m₀)
    (h₀ : Only m₀ s₀ t₀) : Only m₀ s₀ (State.xcvrSleep t₀) :=
  h₀.step (Only.xcvrSleep0 t₀) hm₀

theorem Only.doNmCommitPoint0 (s : State) : Only 0x7040F s (State.doNmCommitPoint s) := by
  unfold State.doNmCommitPoint
  try dsimp only
  repeat' first
    | with_reducible exact Only.refl _ _
    | with_reducible refine Only.ite ?_ ?_
    | with_reducible refine Only.nmEnter (by decide) ?_
    | with_reducible refine Only.xcvrSleep (by decide) ?_
    | with_reducible refine Only.waitUntil (by decide) ?_
    | with_reducible refine Only.nmMod (by decide) ?_
    | with_reducible refine Only.setPwr (by decide) ?_

theorem Only.doNmCommitPoint {m₀ : Nat} {s₀ t₀ : State}  (hm₀ : 0x7040F ||| m₀ = m₀)
    (h₀ : Only m₀ s₀ t₀) : Only m₀ s₀ (State.doNmCommitPoint t₀) :=
  h₀.step (Only.doNmCommitPoint0 t₀) hm₀

theorem Only.doNmCycleTransmit0 (s : State) : Only 0x5040F s (State.doNmCycleTransmit s) := by
  unfold State.doNmCycleTransmit
  try dsimp only
  repeat' first
    | with_reducible exact Only.refl _ _
    | with_reducible assumption
    | with_reducible refine Only.ite ?_ ?_
    | with_reducible refine Only.canWrite (by decide) ?_
    | with_reducible refine Only.waitUntil (by decide) ?_
    | with_reducible refine Only.nmMod (by decide) ?_
    | with_reducible refine Only.emit (Nat.zero_or _) ?_
    | with_reducible refine Only.foldl (fun _ _ _ => ?_) ?_

theorem Only.doNmCycleTransmit {m₀ : Nat} {s₀ t₀ : State}  (hm₀ : 0x5040F ||| m₀ = m₀)
    (h₀ : Only m₀ s₀ t₀) : Only m₀ s₀ (State.doNmCycleTransmit t₀) :=
  h₀.step (Only.doNmCycleTransmit0 t₀) hm₀

theorem Only.nmRecord0 (s : State) (k node pn : Nat) (pni : Bool) : Only 0x4000B s (State.nmRecord s k node pn pni) := by
  unfold State.nmRecord
  try dsimp only
  repeat' first
    | with_reducible exact Only.refl _ _
    | with_reducible refine Only.ite ?_ ?_
    | with_reducible refine Only.bump (by decide) ?_
    | with_reducible refine Only.nmMod (by decide) ?_
    | split

theorem Only.nmRecord {m₀ : Nat} {s₀ t₀ : State} {k node pn : Nat} {pni : Bool} (hm₀ : 0x4000B ||| m₀ = m₀)
    (h₀ : Only m₀ s₀ t₀) : Only m₀ s₀ (State.nmRecord t₀ k node pn pni) :=
  h₀.step (Only.nmRecord0 t₀ _ _ _ _) hm₀

theorem Only.doNmMessageReceived0 (s : State) (k : Nat) (b : List Byte) : Only 0x6040B s
    (State.doNmMessageReceived s k b) := by
  unfold State.doNmMessageReceived
  try dsimp only
  repeat' first
    | with_reducible exact Only.refl _ _
    | with_reducible refine Only.ite ?_ ?_
    | with_reducible refine Only.bump (by decide) ?_
    | with_reducible refine Only.nmEnter (by decide) ?_
    | with_reducible refine Only.nmMirror (by decide) ?_
    | with_reducible refine Only.nmMod (by decide) ?_
    | with_reducible refine Only.pnApply (by decide) ?_
    | with_reducible refine Only.nmRecord (by decide) ?_
    | with_reducible refine Only.nmEvent (by decide) ?_
    | split

theorem Only.doNmMessageReceived {m₀ : Nat} {s₀ t₀ : State} {k : Nat} {b : List Byte} (hm₀ : 0x6040B ||| m₀ = m₀)
    (h₀ : Only m₀ s₀ t₀) : Only m₀ s₀ (State.doNmMessageReceived t₀ k b) :=
  h₀.step (Only.doNmMessageReceived0 t₀ _ _) hm₀

theorem Only.nmAwake0 (s : State) : Only 0x4040B s (State.nmAwake s) := by
  unfold State.nmAwake
  try dsimp only
  repeat' first
    | with_reducible exact Only.refl _ _
    | with_reducible refine Only.nmEnter (by decide) ?_

theorem Only.nmAwake {m₀ : Nat} {s₀ t₀ : State}  (hm₀ : 0x4040B ||| m₀ = m₀)
    (h₀ : Only m₀ s₀ t₀) : Only m₀ s₀ (State.nmAwake t₀) :=
  h₀.step (Only.nmAwake0 t₀) hm₀

theorem Only.doNmRepeatTimeout0 (s : State) : Only 0x5040F s (State.doNmRepeatTimeout s) := by
  unfold State.doNmRepeatTimeout
  try dsimp only
  repeat' first
    | with_reducible exact Only.refl _ _
    | with_reducible refine Only.ite ?_ ?_
    | with_reducible refine Only.waitUntil (by decide) ?_
    | with_reducible refine Only.nmAwake (by decide) ?_

theorem Only.doNmRepeatTimeout {m₀ : Nat} {s₀ t₀ : State}  (hm₀ : 0x5040F ||| m₀ = m₀)
    (h₀ : Only m₀ s₀ t₀) : Only m₀ s₀ (State.doNmRepeatTimeout t₀) :=
  h₀.step (Only.doNmRepeatTimeout0 t₀) hm₀

theorem Only.doNodeRecordAged0 (s : State) (k node : Nat) : Only 0x5040F s (State.doNodeRecordAged s k node) := by
  unfold State.doNodeRecordAged
  try dsimp only
  repeat' first
    | with_reducible exact Only.refl _ _
    | with_reducible refine Only.ite ?_ ?_
    | with_reducible refine Only.logUpdate (by decide) ?_
    | with_reducible refine Only.waitUntil (by decide) ?_
    | with_reducible refine Only.pnApply (by decide) ?_
    | split

theorem Only.doNodeRecordAged {m₀ : Nat} {s₀ t₀ : State} {k node : Nat} (hm₀ : 0x5040F ||| m₀ = m₀)
    (h₀ : Only m₀ s₀ t₀) : Only m₀ s₀ (State.doNodeRecordAged t₀ k node) :=
  h₀.step (Only.doNodeRecordAged0 t₀ _ _) hm₀

theorem Only.sourceChanged0 (s : State) (i : Nat) : Only 0x102AB s (State.sourceChanged s i) := by
  unfold State.sourceChanged
  try dsimp only
  repeat' first
    | with_reducible exact Only.refl _ _
    | with_reducible refine Only.raise (by decide) ?_
    | with_reducible refine Only.domMod (by decide) ?_
    | with_reducible refine Only.rephaseNow (by decide) ?_

theorem Only.sourceChanged {m₀ : Nat} {s₀ t₀ : State} {i : Nat} (hm₀ : 0x102AB ||| m₀ = m₀)
    (h₀ : Only m₀ s₀ t₀) : Only m₀ s₀ (State.sourceChanged t₀ i) :=
  h₀.step (Only.sourceChanged0 t₀ _) hm₀

theorem Only.ptpLearn0 (s : State) (i port : Nat) (x3 : PtpMsg) : Only 0x902AB s (State.ptpLearn s i port x3) := by
  unfold State.ptpLearn
  try dsimp only
  repeat' first
    | with_reducible exact Only.refl _ _
    | with_reducible refine Only.ite ?_ ?_
    | with_reducible refine Only.rset (by decide) ?_
    | with_reducible refine Only.domMod (by decide) ?_
    | with_reducible refine Only.correct (by decide) ?_
    | with_reducible refine Only.sourceChanged (by decide) ?_
    | split

theorem Only.ptpLearn {m₀ : Nat} {s₀ t₀ : State} {i port : Nat} {x3 : PtpMsg} (hm₀ : 0x902AB ||| m₀ = m₀)
    (h₀ : Only m₀ s₀ t₀) : Only m₀ s₀ (State.ptpLearn t₀ i port x3) :=
  h₀.step (Only.ptpLearn0 t₀ _ _ _) hm₀

theorem Only.doPtpFrameReceived0 (s : State) (port number : Nat) (msg : PtpMsg) : Only 0x902AB s
    (State.doPtpFrameReceived s port number msg) := by
  unfold State.doPtpFrameReceived
  try dsimp only
  repeat' first
    | with_reducible exact Only.refl _ _
    | with_reducible refine Only.ite ?_ ?_
    | with_reducible refine Only.bump (by decide) ?_
    | with_reducible refine Only.ptpLearn (by decide) ?_
    | split

theorem Only.doPtpFrameReceived {m₀ : Nat} {s₀ t₀ : State} {port number : Nat} {msg : PtpMsg}
    (hm₀ : 0x902AB ||| m₀ = m₀) (h₀ : Only m₀ s₀ t₀) : Only m₀ s₀ (State.doPtpFrameReceived t₀ port number msg) :=
  h₀.step (Only.doPtpFrameReceived0 t₀ _ _ _) hm₀

theorem Only.doPtpSyncTransmit0 (s : State) (i port : Nat) : Only 0x0 s (State.doPtpSyncTransmit s i port) := by
  unfold State.doPtpSyncTransmit
  try dsimp only
  repeat' first
    | with_reducible exact Only.refl _ _
    | with_reducible refine Only.ite ?_ ?_
    | with_reducible refine Only.emit (Nat.zero_or _) ?_

theorem Only.doPtpSyncTransmit {m₀ : Nat} {s₀ t₀ : State} {i port : Nat} (hm₀ : 0x0 ||| m₀ = m₀)
    (h₀ : Only m₀ s₀ t₀) : Only m₀ s₀ (State.doPtpSyncTransmit t₀ i port) :=
  h₀.step (Only.doPtpSyncTransmit0 t₀ _ _) hm₀

theorem Only.doReadySleepTimeout0 (s : State) : Only 0x5040F s (State.doReadySleepTimeout s) := by
  unfold State.doReadySleepTimeout
  try dsimp only
  repeat' first
    | with_reducible exact Only.refl _ _
    | with_reducible refine Only.ite ?_ ?_
    | with_reducible refine Only.nmEnter (by decide) ?_
    | with_reducible refine Only.waitUntil (by decide) ?_

theorem Only.doReadySleepTimeout {m₀ : Nat} {s₀ t₀ : State}  (hm₀ : 0x5040F ||| m₀ = m₀)
    (h₀ : Only m₀ s₀ t₀) : Only m₀ s₀ (State.doReadySleepTimeout t₀) :=
  h₀.step (Only.doReadySleepTimeout0 t₀) hm₀

theorem Only.doSlewEnd0 (s : State) (i : Nat) : Only 0x10004 s (State.doSlewEnd s i) := by
  unfold State.doSlewEnd
  try dsimp only
  repeat' first
    | with_reducible exact Only.refl _ _
    | with_reducible refine Only.ite ?_ ?_
    | with_reducible refine Only.tick (by decide) ?_

theorem Only.doSlewEnd {m₀ : Nat} {s₀ t₀ : State} {i : Nat} (hm₀ : 0x10004 ||| m₀ = m₀)
    (h₀ : Only m₀ s₀ t₀) : Only m₀ s₀ (State.doSlewEnd t₀ i) :=
  h₀.step (Only.doSlewEnd0 t₀ _) hm₀

theorem Only.doStayAwakeDetect0 (s : State) (k node : Nat) : Only 0x5000F s (State.doStayAwakeDetect s k node) := by
  unfold State.doStayAwakeDetect
  try dsimp only
  repeat' first
    | with_reducible exact Only.refl _ _
    | with_reducible refine Only.ite ?_ ?_
    | with_reducible refine Only.bump (by decide) ?_
    | with_reducible refine Only.rset (by decide) ?_
    | with_reducible refine Only.raise (by decide) ?_
    | with_reducible refine Only.waitUntil (by decide) ?_
    | with_reducible refine Only.nmMod (by decide) ?_
    | split

theorem Only.doStayAwakeDetect {m₀ : Nat} {s₀ t₀ : State} {k node : Nat} (hm₀ : 0x5000F ||| m₀ = m₀)
    (h₀ : Only m₀ s₀ t₀) : Only m₀ s₀ (State.doStayAwakeDetect t₀ k node) :=
  h₀.step (Only.doStayAwakeDetect0 t₀ _ _) hm₀

theorem Only.doSyncReceiptTimeout0 (s : State) (i : Nat) : Only 0x1000F s (State.doSyncReceiptTimeout s i) := by
  unfold State.doSyncReceiptTimeout
  try dsimp only
  repeat' first
    | with_reducible exact Only.refl _ _
    | with_reducible refine Only.ite ?_ ?_
    | with_reducible refine Only.sourceTimeout (by decide) ?_

theorem Only.doSyncReceiptTimeout {m₀ : Nat} {s₀ t₀ : State} {i : Nat} (hm₀ : 0x1000F ||| m₀ = m₀)
    (h₀ : Only m₀ s₀ t₀) : Only m₀ s₀ (State.doSyncReceiptTimeout t₀ i) :=
  h₀.step (Only.doSyncReceiptTimeout0 t₀ _) hm₀

theorem Only.fwPut0 (s : State) (e n : Nat) (b : List Byte) : Only 0x4000 s (State.fwPut s e n b) := by
  unfold State.fwPut
  try dsimp only
  repeat' first
    | with_reducible exact Only.refl _ _
    | with_reducible refine Only.setSec (by decide) ?_

theorem Only.fwPut {m₀ : Nat} {s₀ t₀ : State} {e n : Nat} {b : List Byte} (hm₀ : 0x4000 ||| m₀ = m₀)
    (h₀ : Only m₀ s₀ t₀) : Only m₀ s₀ (State.fwPut t₀ e n b) :=
  h₀.step (Only.fwPut0 t₀ _ _ _) hm₀

theorem ExecOnly.keyDerive0 (c : Cmd) (s : State) : ExecOnly 0x800B s (State.keyDerive c s) := by
  unfold State.keyDerive
  try dsimp only
  repeat' first
    | with_reducible exact Only.refl _ _
    | with_reducible refine ExecOnly.done ?_
    | with_reducible refine ExecOnly.need ?_ ?_
    | with_reducible refine Only.bumpBy (by decide) ?_
    | with_reducible refine ExecOnly.keyTarget ?_ ?_
    | with_reducible refine ExecOnly.check ?_ ?_
    | with_reducible refine ExecOnly.fail ?_
    | with_reducible refine Only.slotPut (by decide) ?_
    | split

theorem ExecOnly.keyDerive {m₀ : Nat} {s₀ t₀ : State} {c : Cmd} (hm₀ : 0x800B ||| m₀ = m₀)
    (h₀ : Only m₀ s₀ t₀) : ExecOnly m₀ s₀ (State.keyDerive c t₀) :=
  ExecOnly.after h₀ (ExecOnly.keyDerive0 _ t₀) hm₀

theorem ExecOnly.keyErase0 (c : Cmd) (s : State) : ExecOnly 0xC00B s (State.keyErase c s) := by
  unfold State.keyErase
  try dsimp only
  repeat' first
    | with_reducible exact Only.refl _ _
    | with_reducible refine ExecOnly.done ?_
    | with_reducible refine ExecOnly.need ?_ ?_
    | with_reducible refine Only.keysLost (by decide) ?_
    | with_reducible refine ExecOnly.check ?_ ?_
    | with_reducible refine Only.setKey (by decide) ?_

theorem ExecOnly.keyErase {m₀ : Nat} {s₀ t₀ : State} {c : Cmd} (hm₀ : 0xC00B ||| m₀ = m₀)
    (h₀ : Only m₀ s₀ t₀) : ExecOnly m₀ s₀ (State.keyErase c t₀) :=
  ExecOnly.after h₀ (ExecOnly.keyErase0 _ t₀) hm₀

theorem Only.rebuildOne {m : Nat} {s : State} {p : Nat × Nat × State} {n : Nat} (hm : 0x800B ||| m = m)
    (h : Only m s p.2.2) : Only m s (State.rebuildOne p n).2.2 := by
  obtain ⟨a, b, t⟩ := p
  unfold State.rebuildOne
  dsimp only
  split
  · exact h
  · split
    · exact h
    · exact Only.bumpBy (by rw [← hm, ← Nat.or_assoc]; congr 1) (Only.slotPut (by rw [← hm, ← Nat.or_assoc]; congr 1) h)

theorem ExecOnly.keyRebuild0 (c : Cmd) (s : State) : ExecOnly 0x800B s (State.keyRebuild c s) := by
  unfold State.keyRebuild
  try dsimp only
  repeat' first
    | with_reducible refine Only.rebuildOne (by decide) ?_
    | with_reducible exact Only.refl _ _
    | with_reducible assumption
    | with_reducible refine ExecOnly.done ?_
    | with_reducible refine ExecOnly.need ?_ ?_
    | with_reducible refine Only.raise (by decide) ?_
    | with_reducible refine ExecOnly.check ?_ ?_
    | with_reducible refine Only.foldlSnd22 (fun _ _ _ _ _ => ?_) ?_

theorem ExecOnly.keyRebuild {m₀ : Nat} {s₀ t₀ : State} {c : Cmd} (hm₀ : 0x800B ||| m₀ = m₀)
    (h₀ : Only m₀ s₀ t₀) : ExecOnly m₀ s₀ (State.keyRebuild c t₀) :=
  ExecOnly.after h₀ (ExecOnly.keyRebuild0 _ t₀) hm₀

theorem ExecOnly.keyUnwrap0 (c : Cmd) (s : State) : ExecOnly 0x800B s (State.keyUnwrap c s) := by
  unfold State.keyUnwrap
  try dsimp only
  repeat' first
    | with_reducible exact Only.refl _ _
    | with_reducible refine ExecOnly.done ?_
    | with_reducible refine ExecOnly.need ?_ ?_
    | with_reducible refine Only.bump (by decide) ?_
    | with_reducible refine ExecOnly.keyTarget ?_ ?_
    | with_reducible refine ExecOnly.check ?_ ?_
    | with_reducible refine ExecOnly.fail ?_
    | with_reducible refine Only.slotPut (by decide) ?_
    | split

theorem ExecOnly.keyUnwrap {m₀ : Nat} {s₀ t₀ : State} {c : Cmd} (hm₀ : 0x800B ||| m₀ = m₀)
    (h₀ : Only m₀ s₀ t₀) : ExecOnly m₀ s₀ (State.keyUnwrap c t₀) :=
  ExecOnly.after h₀ (ExecOnly.keyUnwrap0 _ t₀) hm₀

theorem Only.lcProgram0 (s : State) (b : LifeCycle) : Only 0x8000 s (State.lcProgram s b) := by
  unfold State.lcProgram
  try dsimp only
  repeat' first
    | with_reducible exact Only.refl _ _
    | with_reducible refine Only.setKey (by decide) ?_

theorem Only.lcProgram {m₀ : Nat} {s₀ t₀ : State} {b : LifeCycle} (hm₀ : 0x8000 ||| m₀ = m₀)
    (h₀ : Only m₀ s₀ t₀) : Only m₀ s₀ (State.lcProgram t₀ b) :=
  h₀.step (Only.lcProgram0 t₀ _) hm₀

theorem ExecOnly.lcAdvance0 (readBack : Option Nat) (c : Cmd) (s : State) : ExecOnly 0x20C01B s
    (State.lcAdvance readBack c s) := by
  unfold State.lcAdvance
  try dsimp only
  repeat' first
    | with_reducible exact Only.refl _ _
    | with_reducible refine ExecOnly.done ?_
    | with_reducible refine ExecOnly.ite ?_ ?_
    | with_reducible refine ExecOnly.need ?_ ?_
    | with_reducible refine Only.lcProgram (by decide) ?_
    | with_reducible refine Only.keysLost (by decide) ?_
    | with_reducible refine Only.raise (by decide) ?_
    | with_reducible refine ExecOnly.check ?_ ?_
    | with_reducible refine ExecOnly.fail ?_
    | with_reducible refine Only.setKey (by decide) ?_
    | with_reducible refine Only.sessionEnd (by decide) ?_
    | split

theorem ExecOnly.lcAdvance {m₀ : Nat} {s₀ t₀ : State} {readBack : Option Nat} {c : Cmd} (hm₀ : 0x20C01B ||| m₀ = m₀)
    (h₀ : Only m₀ s₀ t₀) : ExecOnly m₀ s₀ (State.lcAdvance readBack c t₀) :=
  ExecOnly.after h₀ (ExecOnly.lcAdvance0 _ _ t₀) hm₀

theorem ExecOnly.nmAwakeLogRead0 (c : Cmd) (s : State) : ExecOnly 0x0 s (State.nmAwakeLogRead c s) := by
  unfold State.nmAwakeLogRead
  try dsimp only
  repeat' first
    | with_reducible exact Only.refl _ _
    | with_reducible refine ExecOnly.done ?_
    | with_reducible refine ExecOnly.check ?_ ?_

theorem ExecOnly.nmAwakeLogRead {m₀ : Nat} {s₀ t₀ : State} {c : Cmd} (hm₀ : 0x0 ||| m₀ = m₀)
    (h₀ : Only m₀ s₀ t₀) : ExecOnly m₀ s₀ (State.nmAwakeLogRead c t₀) :=
  ExecOnly.after h₀ (ExecOnly.nmAwakeLogRead0 _ t₀) hm₀

theorem ExecOnly.nmConfig0 (dma : List Byte) (c : Cmd) (s : State) : ExecOnly 0x4040B s (State.nmConfig dma c s) := by
  unfold State.nmConfig
  try dsimp only
  repeat' first
    | with_reducible exact Only.refl _ _
    | with_reducible refine Only.ite ?_ ?_
    | with_reducible refine ExecOnly.done ?_
    | with_reducible refine Only.nmEval (by decide) ?_
    | with_reducible refine Only.nmEnter (by decide) ?_
    | with_reducible refine ExecOnly.check ?_ ?_
    | with_reducible refine Only.nmMod (by decide) ?_
    | with_reducible refine Only.pnApply (by decide) ?_

theorem ExecOnly.nmConfig {m₀ : Nat} {s₀ t₀ : State} {dma : List Byte} {c : Cmd} (hm₀ : 0x4040B ||| m₀ = m₀)
    (h₀ : Only m₀ s₀ t₀) : ExecOnly m₀ s₀ (State.nmConfig dma c t₀) :=
  ExecOnly.after h₀ (ExecOnly.nmConfig0 _ _ t₀) hm₀

theorem ExecOnly.portConfig0 (c : Cmd) (s : State) : ExecOnly 0x4000 s (State.portConfig c s) := by
  unfold State.portConfig
  try dsimp only
  repeat' first
    | with_reducible exact Only.refl _ _
    | with_reducible refine ExecOnly.done ?_
    | with_reducible refine ExecOnly.macsec ?_ ?_
    | with_reducible refine Only.msMod (by decide) ?_

theorem ExecOnly.portConfig {m₀ : Nat} {s₀ t₀ : State} {c : Cmd} (hm₀ : 0x4000 ||| m₀ = m₀)
    (h₀ : Only m₀ s₀ t₀) : ExecOnly m₀ s₀ (State.portConfig c t₀) :=
  ExecOnly.after h₀ (ExecOnly.portConfig0 _ t₀) hm₀

theorem ExecOnly.pwrStateRequest0 (c : Cmd) (s : State) : ExecOnly 0x6040B s (State.pwrStateRequest c s) := by
  unfold State.pwrStateRequest
  try dsimp only
  repeat' first
    | with_reducible exact Only.refl _ _
    | with_reducible refine Only.ite ?_ ?_
    | with_reducible refine ExecOnly.done ?_
    | with_reducible refine ExecOnly.ite ?_ ?_
    | with_reducible refine Only.nmEval (by decide) ?_
    | with_reducible refine Only.nmEnter (by decide) ?_
    | with_reducible refine Only.sleepAbort (by decide) ?_
    | with_reducible refine Only.latch (by decide) ?_
    | with_reducible refine ExecOnly.check ?_ ?_
    | with_reducible refine Only.nmMod (by decide) ?_
    | with_reducible refine Only.pnApply (by decide) ?_
    | with_reducible refine Only.setPwr (by decide) ?_

theorem ExecOnly.pwrStateRequest {m₀ : Nat} {s₀ t₀ : State} {c : Cmd} (hm₀ : 0x6040B ||| m₀ = m₀)
    (h₀ : Only m₀ s₀ t₀) : ExecOnly m₀ s₀ (State.pwrStateRequest c t₀) :=
  ExecOnly.after h₀ (ExecOnly.pwrStateRequest0 _ t₀) hm₀

theorem Only.runDerive {m : Nat} {s : State} {host q : Nat} {rebuild : Bool} {f : Cmd → State → State.Exec}
    (hm : 0x20001B ||| m = m)
    (hf : ∀ c, ExecOnly m s (f c s)) : Only m s (State.runDerive s host q rebuild f) := by
  unfold State.runDerive
  split
  · exact Only.runCmd hm hf
  · exact Only.refl m s

theorem Only.runMacsec {m : Nat} {s : State} {host q op : Nat} {f : Cmd → State → State.Exec} (hm : 0x20001B ||| m = m)
    (hf : ∀ c, ExecOnly m s (f c s)) : Only m s (State.runMacsec s host q op f) := by
  unfold State.runMacsec
  split
  · exact Only.runCmd hm hf
  · exact Only.refl m s

theorem ExecOnly.saDelete0 (c : Cmd) (s : State) : ExecOnly 0x4000 s (State.saDelete c s) := by
  unfold State.saDelete
  try dsimp only
  repeat' first
    | with_reducible exact Only.refl _ _
    | with_reducible refine ExecOnly.done ?_
    | with_reducible refine ExecOnly.macsec ?_ ?_
    | with_reducible refine Only.msMod (by decide) ?_
    | with_reducible refine ExecOnly.check ?_ ?_

theorem ExecOnly.saDelete {m₀ : Nat} {s₀ t₀ : State} {c : Cmd} (hm₀ : 0x4000 ||| m₀ = m₀)
    (h₀ : Only m₀ s₀ t₀) : ExecOnly m₀ s₀ (State.saDelete c t₀) :=
  ExecOnly.after h₀ (ExecOnly.saDelete0 _ t₀) hm₀

theorem ExecOnly.saInstall0 (c : Cmd) (s : State) : ExecOnly 0x400B s (State.saInstall c s) := by
  unfold State.saInstall
  try dsimp only
  repeat' first
    | with_reducible exact Only.refl _ _
    | with_reducible refine Only.ite ?_ ?_
    | with_reducible refine ExecOnly.done ?_
    | with_reducible refine ExecOnly.need ?_ ?_
    | with_reducible refine ExecOnly.macsec ?_ ?_
    | with_reducible refine Only.pnWarn (by decide) ?_
    | with_reducible refine Only.msMod (by decide) ?_
    | with_reducible refine ExecOnly.check ?_ ?_

theorem ExecOnly.saInstall {m₀ : Nat} {s₀ t₀ : State} {c : Cmd} (hm₀ : 0x400B ||| m₀ = m₀)
    (h₀ : Only m₀ s₀ t₀) : ExecOnly m₀ s₀ (State.saInstall c t₀) :=
  ExecOnly.after h₀ (ExecOnly.saInstall0 _ t₀) hm₀

theorem ExecOnly.scConfig0 (c : Cmd) (s : State) : ExecOnly 0x4000 s (State.scConfig c s) := by
  unfold State.scConfig
  try dsimp only
  repeat' first
    | with_reducible exact Only.refl _ _
    | with_reducible refine ExecOnly.done ?_
    | with_reducible refine ExecOnly.macsec ?_ ?_
    | with_reducible refine Only.msMod (by decide) ?_
    | with_reducible refine ExecOnly.check ?_ ?_

theorem ExecOnly.scConfig {m₀ : Nat} {s₀ t₀ : State} {c : Cmd} (hm₀ : 0x4000 ||| m₀ = m₀)
    (h₀ : Only m₀ s₀ t₀) : ExecOnly m₀ s₀ (State.scConfig c t₀) :=
  ExecOnly.after h₀ (ExecOnly.scConfig0 _ t₀) hm₀

theorem ExecOnly.secFwRule0 (dma : List Byte) (c : Cmd) (s : State) : ExecOnly 0x404B s (State.secFwRule dma c s) := by
  unfold State.secFwRule
  try dsimp only
  repeat' first
    | with_reducible exact Only.refl _ _
    | with_reducible assumption
    | with_reducible refine ExecOnly.done ?_
    | with_reducible refine ExecOnly.need ?_ ?_
    | with_reducible refine Only.advanceEpoch (by decide) ?_
    | with_reducible refine ExecOnly.datapath ?_ ?_
    | with_reducible refine Only.fwPut (by decide) ?_
    | with_reducible refine ExecOnly.check ?_ ?_
    | with_reducible refine Only.foldl (fun _ _ _ => ?_) ?_
    | split

theorem ExecOnly.secFwRule {m₀ : Nat} {s₀ t₀ : State} {dma : List Byte} {c : Cmd} (hm₀ : 0x404B ||| m₀ = m₀)
    (h₀ : Only m₀ s₀ t₀) : ExecOnly m₀ s₀ (State.secFwRule dma c t₀) :=
  ExecOnly.after h₀ (ExecOnly.secFwRule0 _ _ t₀) hm₀

theorem ExecOnly.timeAdjust0 (c : Cmd) (s : State) : ExecOnly 0x902AB s (State.timeAdjust c s) := by
  unfold State.timeAdjust
  try dsimp only
  repeat' first
    | with_reducible exact Only.refl _ _
    | with_reducible refine ExecOnly.done ?_
    | with_reducible refine ExecOnly.ite ?_ ?_
    | with_reducible refine ExecOnly.need ?_ ?_
    | with_reducible refine Only.domMod (by decide) ?_
    | with_reducible refine ExecOnly.check ?_ ?_
    | with_reducible refine Only.correct (by decide) ?_

theorem ExecOnly.timeAdjust {m₀ : Nat} {s₀ t₀ : State} {c : Cmd} (hm₀ : 0x902AB ||| m₀ = m₀)
    (h₀ : Only m₀ s₀ t₀) : ExecOnly m₀ s₀ (State.timeAdjust c t₀) :=
  ExecOnly.after h₀ (ExecOnly.timeAdjust0 _ t₀) hm₀

theorem ExecOnly.timeDomainConfig0 (c : Cmd) (s : State) : ExecOnly 0x102AB s (State.timeDomainConfig c s) := by
  unfold State.timeDomainConfig
  try dsimp only
  repeat' first
    | with_reducible exact Only.refl _ _
    | with_reducible refine Only.ite ?_ ?_
    | with_reducible refine ExecOnly.done ?_
    | with_reducible refine ExecOnly.ite ?_ ?_
    | with_reducible refine ExecOnly.need ?_ ?_
    | with_reducible refine Only.domMod (by decide) ?_
    | with_reducible refine ExecOnly.check ?_ ?_
    | with_reducible refine Only.sourceChanged (by decide) ?_

theorem ExecOnly.timeDomainConfig {m₀ : Nat} {s₀ t₀ : State} {c : Cmd} (hm₀ : 0x102AB ||| m₀ = m₀)
    (h₀ : Only m₀ s₀ t₀) : ExecOnly m₀ s₀ (State.timeDomainConfig c t₀) :=
  ExecOnly.after h₀ (ExecOnly.timeDomainConfig0 _ t₀) hm₀

theorem ExecOnly.timeJumpAccept0 (c : Cmd) (s : State) : ExecOnly 0x902AB s (State.timeJumpAccept c s) := by
  unfold State.timeJumpAccept
  try dsimp only
  repeat' first
    | with_reducible exact Only.refl _ _
    | with_reducible refine ExecOnly.done ?_
    | with_reducible refine ExecOnly.ite ?_ ?_
    | with_reducible refine ExecOnly.need ?_ ?_
    | with_reducible refine Only.domMod (by decide) ?_
    | with_reducible refine ExecOnly.check ?_ ?_
    | with_reducible refine Only.stepDomain (by decide) ?_

theorem ExecOnly.timeJumpAccept {m₀ : Nat} {s₀ t₀ : State} {c : Cmd} (hm₀ : 0x902AB ||| m₀ = m₀)
    (h₀ : Only m₀ s₀ t₀) : ExecOnly m₀ s₀ (State.timeJumpAccept c t₀) :=
  ExecOnly.after h₀ (ExecOnly.timeJumpAccept0 _ t₀) hm₀

theorem ExecOnly.txSwitch0 (c : Cmd) (s : State) : ExecOnly 0x400B s (State.txSwitch c s) := by
  unfold State.txSwitch
  try dsimp only
  repeat' first
    | with_reducible exact Only.refl _ _
    | with_reducible refine Only.ite ?_ ?_
    | with_reducible refine ExecOnly.done ?_
    | with_reducible refine ExecOnly.macsec ?_ ?_
    | with_reducible refine Only.pnWarn (by decide) ?_
    | with_reducible refine Only.msMod (by decide) ?_
    | with_reducible refine ExecOnly.check ?_ ?_
    | with_reducible refine ExecOnly.fail ?_
    | with_reducible refine Only.pnExhausted (by decide) ?_
    | split

theorem ExecOnly.txSwitch {m₀ : Nat} {s₀ t₀ : State} {c : Cmd} (hm₀ : 0x400B ||| m₀ = m₀)
    (h₀ : Only m₀ s₀ t₀) : ExecOnly m₀ s₀ (State.txSwitch c t₀) :=
  ExecOnly.after h₀ (ExecOnly.txSwitch0 _ t₀) hm₀

theorem ExecOnly.wakeSourceConfig0 (dma : List Byte) (c : Cmd) (s : State) : ExecOnly 0x20001 s
    (State.wakeSourceConfig dma c s) := by
  unfold State.wakeSourceConfig
  try dsimp only
  repeat' first
    | with_reducible exact Only.refl _ _
    | with_reducible assumption
    | with_reducible refine ExecOnly.done ?_
    | with_reducible refine ExecOnly.need ?_ ?_
    | with_reducible refine Only.rset (by decide) ?_
    | with_reducible refine ExecOnly.check ?_ ?_
    | with_reducible refine Only.setPwr (by decide) ?_
    | with_reducible refine Only.foldl (fun _ _ _ => ?_) ?_

theorem ExecOnly.wakeSourceConfig {m₀ : Nat} {s₀ t₀ : State} {dma : List Byte} {c : Cmd} (hm₀ : 0x20001 ||| m₀ = m₀)
    (h₀ : Only m₀ s₀ t₀) : ExecOnly m₀ s₀ (State.wakeSourceConfig dma c t₀) :=
  ExecOnly.after h₀ (ExecOnly.wakeSourceConfig0 _ _ t₀) hm₀

end Sys2Proof.Machine
end

