-- ==== Sys2Proof/Laws/OnlyFence.lean ====
section
/-! SUPPORT.
Frames: what power, signals, the pair and the fence can change
at most. The law named `…0` states the frame of one operation, the other one carries a frame over it. -/

namespace Sys2Proof.Machine

theorem Only.abortAll0 (s : State) (l : List Frame) : Only 0x304BEB s (State.abortAll s l) := by
  unfold State.abortAll
  try dsimp only
  repeat' first
    | with_reducible exact Only.refl _ _
    | with_reducible assumption
    | with_reducible refine Only.abortFrame (by decide) ?_
    | with_reducible refine Only.foldl (fun _ _ _ => ?_) ?_

theorem Only.abortAll {m₀ : Nat} {s₀ t₀ : State} {l : List Frame} (hm₀ : 0x304BEB ||| m₀ = m₀)
    (h₀ : Only m₀ s₀ t₀) : Only m₀ s₀ (State.abortAll t₀ l) :=
  h₀.step (Only.abortAll0 t₀ _) hm₀

theorem Only.pairMod0 (s : State) (f : Pair → Pair) : Only 0x80000 s (State.pairMod s f) := by
  unfold State.pairMod
  try dsimp only
  repeat' first
    | with_reducible exact Only.refl _ _
    | with_reducible refine Only.setPair (by decide) ?_

theorem Only.pairMod {m₀ : Nat} {s₀ t₀ : State} {f : Pair → Pair} (hm₀ : 0x80000 ||| m₀ = m₀)
    (h₀ : Only m₀ s₀ t₀) : Only m₀ s₀ (State.pairMod t₀ f) :=
  h₀.step (Only.pairMod0 t₀ _) hm₀

theorem Only.partnerEntry0 (s : State) (b : List Byte) : Only 0x80001 s (State.partnerEntry s b) := by
  unfold State.partnerEntry
  try dsimp only
  repeat' first
    | with_reducible exact Only.refl _ _
    | with_reducible refine Only.ite ?_ ?_
    | with_reducible refine Only.rset (by decide) ?_
    | with_reducible refine Only.pairMod (by decide) ?_
    | with_reducible refine Only.emit (Nat.zero_or _) ?_

theorem Only.partnerEntry {m₀ : Nat} {s₀ t₀ : State} {b : List Byte} (hm₀ : 0x80001 ||| m₀ = m₀)
    (h₀ : Only m₀ s₀ t₀) : Only m₀ s₀ (State.partnerEntry t₀ b) :=
  h₀.step (Only.partnerEntry0 t₀ _) hm₀

theorem Only.recoveryMerge0 (s : State) (fn : Nat) (seqs : List Nat) : Only 0x200 s (State.recoveryMerge s fn seqs) := by
  unfold State.recoveryMerge
  try dsimp only
  repeat' first
    | with_reducible exact Only.refl _ _
    | with_reducible assumption
    | with_reducible refine Only.ite ?_ ?_
    | with_reducible refine Only.recovMod (by decide) ?_
    | with_reducible refine Only.foldl (fun _ _ _ => ?_) ?_

theorem Only.recoveryMerge {m₀ : Nat} {s₀ t₀ : State} {fn : Nat} {seqs : List Nat} (hm₀ : 0x200 ||| m₀ = m₀)
    (h₀ : Only m₀ s₀ t₀) : Only m₀ s₀ (State.recoveryMerge t₀ fn seqs) :=
  h₀.step (Only.recoveryMerge0 t₀ _ _) hm₀

theorem Only.applyMirror0 (s : State) (x1 : MirrorMsg) : Only 0xE46AB s (State.applyMirror s x1) := by
  unfold State.applyMirror
  try dsimp only
  repeat' first
    | with_reducible exact Only.refl _ _
    | with_reducible refine Only.ite ?_ ?_
    | with_reducible refine Only.calFollow (by decide) ?_
    | with_reducible refine Only.partnerEntry (by decide) ?_
    | with_reducible refine Only.nmEval (by decide) ?_
    | with_reducible refine Only.fvSet (by decide) ?_
    | with_reducible refine Only.recoveryMerge (by decide) ?_
    | with_reducible refine Only.raise (by decide) ?_
    | with_reducible refine Only.pairMod (by decide) ?_
    | with_reducible refine Only.nmMod (by decide) ?_
    | with_reducible refine Only.nmEvent (by decide) ?_
    | with_reducible refine Only.emit (Nat.zero_or _) ?_
    | split

theorem Only.applyMirror {m₀ : Nat} {s₀ t₀ : State} {x1 : MirrorMsg} (hm₀ : 0xE46AB ||| m₀ = m₀)
    (h₀ : Only m₀ s₀ t₀) : Only m₀ s₀ (State.applyMirror t₀ x1) :=
  h₀.step (Only.applyMirror0 t₀ _) hm₀

theorem Only.backboneSend0 (s : State) (yields : Bool) : Only 0x80000 s (State.backboneSend s yields) := by
  unfold State.backboneSend
  try dsimp only
  repeat' first
    | with_reducible exact Only.refl _ _
    | with_reducible assumption
    | with_reducible refine Only.pairMod (by decide) ?_
    | with_reducible refine Only.emit (Nat.zero_or _) ?_
    | with_reducible refine Only.foldl (fun _ _ _ => ?_) ?_

theorem Only.backboneSend {m₀ : Nat} {s₀ t₀ : State} {yields : Bool} (hm₀ : 0x80000 ||| m₀ = m₀)
    (h₀ : Only m₀ s₀ t₀) : Only m₀ s₀ (State.backboneSend t₀ yields) :=
  h₀.step (Only.backboneSend0 t₀ _) hm₀

theorem Only.forgeLost0 (s : State) : Only 0x3FFFFF s (State.forgeLost s) := by
  have h := Only.updAbandon0 s
  refine Only.whole h.pending h.out h.free fun c => ⟨rfl, ?_⟩
  obtain ⟨r, a⟩ := (State.registers_wf_iff _).1 (h.canonical c).2
  exact (State.registers_wf_iff _).2 ⟨rising_filter _ _ r, fun x hx => a x (List.mem_of_mem_filter hx)⟩

theorem Only.forgeLost {m₀ : Nat} {s₀ t₀ : State}  (hm₀ : 0x3FFFFF ||| m₀ = m₀)
    (h₀ : Only m₀ s₀ t₀) : Only m₀ s₀ (State.forgeLost t₀) :=
  h₀.step (Only.forgeLost0 t₀) hm₀

theorem Only.bankedImage0 (s : State) : Only 0x3FFFFF s (State.bankedImage s) := by
  have h := Only.forgeLost0 s
  refine Only.emFreed (by decide) ?_
  refine Only.whole h.pending h.out h.free fun c => ⟨(h.canonical c).1, ?_⟩
  obtain ⟨r, a⟩ := (State.registers_wf_iff _).1 c.2
  refine (State.registers_wf_iff _).2 ⟨rising_filterMap _ _ ?_ r, fun x hx => ?_⟩
  · intro p q e
    dsimp only at e
    split at e
    · cases e; rfl
    · split at e
      · cases e
      · cases e; rfl
  · obtain ⟨p, hp, e⟩ := List.mem_filterMap.1 hx
    dsimp only at e
    split at e
    · cases e; exact a _ hp
    · split at e
      · cases e
      · rename_i n; cases e; exact n

theorem Only.bankedImage {m₀ : Nat} {s₀ t₀ : State}  (hm₀ : 0x3FFFFF ||| m₀ = m₀)
    (h₀ : Only m₀ s₀ t₀) : Only m₀ s₀ (State.bankedImage t₀) :=
  h₀.step (Only.bankedImage0 t₀) hm₀

theorem Only.beatCommit0 (s : State) (h : Heartbeat) : Only 0x40000 s (State.beatCommit s h) := by
  unfold State.beatCommit
  try dsimp only
  repeat' first
    | with_reducible exact Only.refl _ _
    | with_reducible refine Only.ite ?_ ?_
    | with_reducible refine Only.nmMod (by decide) ?_

theorem Only.beatCommit {m₀ : Nat} {s₀ t₀ : State} {h : Heartbeat} (hm₀ : 0x40000 ||| m₀ = m₀)
    (h₀ : Only m₀ s₀ t₀) : Only m₀ s₀ (State.beatCommit t₀ h) :=
  h₀.step (Only.beatCommit0 t₀ _) hm₀

theorem Only.skipAhead0 (s : State) : Only 0x4200 s (State.skipAhead s) := by
  unfold State.skipAhead
  try dsimp only
  repeat' first
    | with_reducible exact Only.refl _ _
    | with_reducible assumption
    | with_reducible refine Only.fvSet (by decide) ?_
    | with_reducible refine Only.setTrf (by decide) ?_
    | with_reducible refine Only.foldl (fun _ _ _ => ?_) ?_

theorem Only.skipAhead {m₀ : Nat} {s₀ t₀ : State}  (hm₀ : 0x4200 ||| m₀ = m₀)
    (h₀ : Only m₀ s₀ t₀) : Only m₀ s₀ (State.skipAhead t₀) :=
  h₀.step (Only.skipAhead0 t₀) hm₀

theorem Only.changeRole0 (s : State) (r : Role) : Only 0x8460B s (State.changeRole s r) := by
  unfold State.changeRole
  try dsimp only
  repeat' first
    | with_reducible exact Only.refl _ _
    | with_reducible refine Only.ite ?_ ?_
    | with_reducible refine Only.skipAhead (by decide) ?_
    | with_reducible refine Only.pairMod (by decide) ?_
    | with_reducible refine Only.roleModes (by decide) ?_

theorem Only.changeRole {m₀ : Nat} {s₀ t₀ : State} {r : Role} (hm₀ : 0x8460B ||| m₀ = m₀)
    (h₀ : Only m₀ s₀ t₀) : Only m₀ s₀ (State.changeRole t₀ r) :=
  h₀.step (Only.changeRole0 t₀ _) hm₀

theorem Only.roleDone0 (s : State) : Only 0x20001B s (State.roleDone s) := by
  unfold State.roleDone
  try dsimp only
  repeat' first
    | with_reducible exact Only.refl _ _
    | with_reducible assumption
    | with_reducible refine Only.finishCmd (by decide) ?_
    | with_reducible refine Only.foldl (fun _ _ _ => ?_) ?_

theorem Only.roleDone {m₀ : Nat} {s₀ t₀ : State}  (hm₀ : 0x20001B ||| m₀ = m₀)
    (h₀ : Only m₀ s₀ t₀) : Only m₀ s₀ (State.roleDone t₀) :=
  h₀.step (Only.roleDone0 t₀) hm₀

theorem Only.syncBlocks0 (s : State) : Only 0x80000 s (State.syncBlocks s) := by
  unfold State.syncBlocks
  try dsimp only
  repeat' first
    | with_reducible exact Only.refl _ _
    | with_reducible assumption
    | with_reducible refine Only.ite ?_ ?_
    | with_reducible refine Only.pairMod (by decide) ?_
    | with_reducible refine Only.emit (Nat.zero_or _) ?_
    | with_reducible refine Only.foldl (fun _ _ _ => ?_) ?_

theorem Only.syncBlocks {m₀ : Nat} {s₀ t₀ : State}  (hm₀ : 0x80000 ||| m₀ = m₀)
    (h₀ : Only m₀ s₀ t₀) : Only m₀ s₀ (State.syncBlocks t₀) :=
  h₀.step (Only.syncBlocks0 t₀) hm₀

theorem Only.beatRole0 (s : State) (role : Nat) : Only 0x28461B s (State.beatRole s role) := by
  unfold State.beatRole
  try dsimp only
  repeat' first
    | with_reducible exact Only.refl _ _
    | with_reducible refine Only.ite ?_ ?_
    | with_reducible refine Only.changeRole (by decide) ?_
    | with_reducible refine Only.roleDone (by decide) ?_
    | with_reducible refine Only.syncBlocks (by decide) ?_
    | with_reducible refine Only.pairMod (by decide) ?_

theorem Only.beatRole {m₀ : Nat} {s₀ t₀ : State} {role : Nat} (hm₀ : 0x28461B ||| m₀ = m₀)
    (h₀ : Only m₀ s₀ t₀) : Only m₀ s₀ (State.beatRole t₀ role) :=
  h₀.step (Only.beatRole0 t₀ _) hm₀

theorem Only.pwrMod0 (s : State) (f : Pwr → Pwr) : Only 0x20000 s (State.pwrMod s f) := by
  unfold State.pwrMod
  try dsimp only
  repeat' first
    | with_reducible exact Only.refl _ _
    | with_reducible refine Only.setPwr (by decide) ?_

theorem Only.pwrMod {m₀ : Nat} {s₀ t₀ : State} {f : Pwr → Pwr} (hm₀ : 0x20000 ||| m₀ = m₀)
    (h₀ : Only m₀ s₀ t₀) : Only m₀ s₀ (State.pwrMod t₀ f) :=
  h₀.step (Only.pwrMod0 t₀ _) hm₀

theorem Only.fallback0 (s : State) (cause : Nat) : Only 0x2000B s (State.fallback s cause) := by
  unfold State.fallback
  try dsimp only
  repeat' first
    | with_reducible exact Only.refl _ _
    | with_reducible refine Only.bump (by decide) ?_
    | with_reducible refine Only.pwrMod (by decide) ?_

theorem Only.fallback {m₀ : Nat} {s₀ t₀ : State} {cause : Nat} (hm₀ : 0x2000B ||| m₀ = m₀)
    (h₀ : Only m₀ s₀ t₀) : Only m₀ s₀ (State.fallback t₀ cause) :=
  h₀.step (Only.fallback0 t₀ _) hm₀

theorem Only.slotVerify0 (s : State) (slot : Nat) : Only 0x200001 s (State.slotVerify s slot).2 := by
  unfold State.slotVerify
  try dsimp only
  repeat' first
    | with_reducible exact Only.refl _ _
    | with_reducible refine Only.ite ?_ ?_
    | with_reducible refine Only.rset (by decide) ?_
    | with_reducible refine Only.setBoot (by decide) ?_

theorem Only.slotVerify {m₀ : Nat} {s₀ t₀ : State} {slot : Nat} (hm₀ : 0x200001 ||| m₀ = m₀)
    (h₀ : Only m₀ s₀ t₀) : Only m₀ s₀ (State.slotVerify t₀ slot).2 :=
  h₀.step (Only.slotVerify0 t₀ _) hm₀

theorem Only.recoveryMode0 (s : State) (cause : Nat) : Only 0x200000 s (State.recoveryMode s cause) := by
  unfold State.recoveryMode
  try dsimp only
  repeat' first
    | with_reducible exact Only.refl _ _
    | with_reducible refine Only.setBoot (by decide) ?_

theorem Only.recoveryMode {m₀ : Nat} {s₀ t₀ : State} {cause : Nat} (hm₀ : 0x200000 ||| m₀ = m₀)
    (h₀ : Only m₀ s₀ t₀) : Only m₀ s₀ (State.recoveryMode t₀ cause) :=
  h₀.step (Only.recoveryMode0 t₀ _) hm₀

theorem Only.descWrite0 (s : State) (f : Descriptor → Descriptor) : Only 0x200000 s (State.descWrite s f) := by
  unfold State.descWrite
  try dsimp only
  repeat' first
    | with_reducible exact Only.refl _ _
    | with_reducible refine Only.setBoot (by decide) ?_

theorem Only.descWrite {m₀ : Nat} {s₀ t₀ : State} {f : Descriptor → Descriptor} (hm₀ : 0x200000 ||| m₀ = m₀)
    (h₀ : Only m₀ s₀ t₀) : Only m₀ s₀ (State.descWrite t₀ f) :=
  h₀.step (Only.descWrite0 t₀ _) hm₀

theorem Only.bootSlot0 (s : State) (slot mode : Nat) : Only 0x200000 s (State.bootSlot s slot mode) := by
  unfold State.bootSlot
  try dsimp only
  repeat' first
    | with_reducible exact Only.refl _ _
    | with_reducible refine Only.setBoot (by decide) ?_

theorem Only.bootSlot {m₀ : Nat} {s₀ t₀ : State} {slot mode : Nat} (hm₀ : 0x200000 ||| m₀ = m₀)
    (h₀ : Only m₀ s₀ t₀) : Only m₀ s₀ (State.bootSlot t₀ slot mode) :=
  h₀.step (Only.bootSlot0 t₀ _ _) hm₀

theorem Only.bootActive0 (s : State) : Only 0x22000B s (State.bootActive s) := by
  unfold State.bootActive
  try dsimp only
  repeat' first
    | with_reducible exact Only.refl _ _
    | with_reducible refine Only.ite ?_ ?_
    | with_reducible refine Only.fallback (by decide) ?_
    | with_reducible refine Only.slotVerify (by decide) ?_
    | with_reducible refine Only.recoveryMode (by decide) ?_
    | with_reducible refine Only.descWrite (by decide) ?_
    | with_reducible refine Only.bootSlot (by decide) ?_

theorem Only.bootActive {m₀ : Nat} {s₀ t₀ : State}  (hm₀ : 0x22000B ||| m₀ = m₀)
    (h₀ : Only m₀ s₀ t₀) : Only m₀ s₀ (State.bootActive t₀) :=
  h₀.step (Only.bootActive0 t₀) hm₀

theorem Only.copyQuench0 (s : State) (c : Copy) : Only 0x1002AB s (State.copyQuench s c) := by
  unfold State.copyQuench
  try dsimp only
  repeat' first
    | with_reducible exact Only.refl _ _
    | with_reducible refine Only.ite ?_ ?_
    | with_reducible refine Only.lose (by decide) ?_
    | with_reducible refine Only.tailAbort (by decide) ?_
    | with_reducible refine Only.discardCopy (by decide) ?_

theorem Only.copyQuench {m₀ : Nat} {s₀ t₀ : State} {c : Copy} (hm₀ : 0x1002AB ||| m₀ = m₀)
    (h₀ : Only m₀ s₀ t₀) : Only m₀ s₀ (State.copyQuench t₀ c) :=
  h₀.step (Only.copyQuench0 t₀ _) hm₀

theorem Only.bufferQuench0 (s : State) : Only 0x304BEB s (State.bufferQuench s) := by
  unfold State.bufferQuench
  try dsimp only
  repeat' first
    | with_reducible exact Only.refl _ _
    | with_reducible assumption
    | with_reducible refine Only.copyQuench (by decide) ?_
    | with_reducible refine Only.gc (by decide) ?_
    | with_reducible refine Only.abortAll (by decide) ?_
    | with_reducible refine Only.ringRewind (by decide) ?_
    | with_reducible refine Only.foldl (fun _ _ _ => ?_) ?_

theorem Only.bufferQuench {m₀ : Nat} {s₀ t₀ : State}  (hm₀ : 0x304BEB ||| m₀ = m₀)
    (h₀ : Only m₀ s₀ t₀) : Only m₀ s₀ (State.bufferQuench t₀) :=
  h₀.step (Only.bufferQuench0 t₀) hm₀

theorem Only.busQuench0 (s : State) (ch : Nat) : Only 0x400 s (State.busQuench s ch) := by
  unfold State.busQuench
  try dsimp only
  repeat' first
    | with_reducible exact Only.refl _ _
    | with_reducible refine Only.ite ?_ ?_
    | with_reducible refine Only.canFlush (by decide) ?_
    | with_reducible refine Only.linMod (by decide) ?_
    | with_reducible refine Only.canMod (by decide) ?_

theorem Only.busQuench {m₀ : Nat} {s₀ t₀ : State} {ch : Nat} (hm₀ : 0x400 ||| m₀ = m₀)
    (h₀ : Only m₀ s₀ t₀) : Only m₀ s₀ (State.busQuench t₀ ch) :=
  h₀.step (Only.busQuench0 t₀ _) hm₀

theorem Only.busRecover0 (s : State) (ch : Nat) : Only 0x40B s (State.busRecover s ch) := by
  unfold State.busRecover
  try dsimp only
  repeat' first
    | with_reducible exact Only.refl _ _
    | with_reducible refine Only.ite ?_ ?_
    | with_reducible refine Only.linApply (by decide) ?_
    | with_reducible refine Only.canRuns (by decide) ?_
    | with_reducible refine Only.canMod (by decide) ?_

theorem Only.busRecover {m₀ : Nat} {s₀ t₀ : State} {ch : Nat} (hm₀ : 0x40B ||| m₀ = m₀)
    (h₀ : Only m₀ s₀ t₀) : Only m₀ s₀ (State.busRecover t₀ ch) :=
  h₀.step (Only.busRecover0 t₀ _) hm₀

theorem ExecOnly.captureStart0 (c : Cmd) (s : State) : ExecOnly 0x30000B s (State.captureStart c s) := by
  unfold State.captureStart
  try dsimp only
  repeat' first
    | with_reducible exact Only.refl _ _
    | with_reducible refine Only.ite ?_ ?_
    | with_reducible refine ExecOnly.done ?_
    | with_reducible refine ExecOnly.need ?_ ?_
    | with_reducible refine ExecOnly.datapath ?_ ?_
    | with_reducible refine ExecOnly.check ?_ ?_
    | with_reducible refine Only.setFnc (by decide) ?_
    | with_reducible refine Only.captureStop (by decide) ?_

theorem ExecOnly.captureStart {m₀ : Nat} {s₀ t₀ : State} {c : Cmd} (hm₀ : 0x30000B ||| m₀ = m₀)
    (h₀ : Only m₀ s₀ t₀) : ExecOnly m₀ s₀ (State.captureStart c t₀) :=
  ExecOnly.after h₀ (ExecOnly.captureStart0 _ t₀) hm₀

theorem Only.cellError0 (s : State) : Only 0x10002B s (State.cellError s) := by
  unfold State.cellError
  try dsimp only
  repeat' first
    | with_reducible exact Only.refl _ _
    | with_reducible assumption
    | with_reducible refine Only.lose (by decide) ?_
    | with_reducible refine Only.free2 ?_
    | with_reducible refine Only.foldl (fun _ _ _ => ?_) ?_
    | split

theorem Only.cellError {m₀ : Nat} {s₀ t₀ : State}  (hm₀ : 0x10002B ||| m₀ = m₀)
    (h₀ : Only m₀ s₀ t₀) : Only m₀ s₀ (State.cellError t₀) :=
  h₀.step (Only.cellError0 t₀) hm₀

theorem Only.clashReport0 (s : State) (steps : Bool) : Only 0xB s (State.clashReport s steps) := by
  unfold State.clashReport
  try dsimp only
  repeat' first
    | with_reducible exact Only.refl _ _
    | with_reducible refine Only.bump (by decide) ?_
    | with_reducible refine Only.raise (by decide) ?_

theorem Only.clashReport {m₀ : Nat} {s₀ t₀ : State} {steps : Bool} (hm₀ : 0xB ||| m₀ = m₀)
    (h₀ : Only m₀ s₀ t₀) : Only m₀ s₀ (State.clashReport t₀ steps) :=
  h₀.step (Only.clashReport0 t₀ _) hm₀

theorem Only.clockSupply0 (s : State) : Only 0x4 s (State.clockSupply s) := by
  unfold State.clockSupply
  try dsimp only
  repeat' first
    | with_reducible exact Only.refl _ _
    | with_reducible refine Only.putClk (by decide) ?_

theorem Only.clockSupply {m₀ : Nat} {s₀ t₀ : State}  (hm₀ : 0x4 ||| m₀ = m₀)
    (h₀ : Only m₀ s₀ t₀) : Only m₀ s₀ (State.clockSupply t₀) :=
  h₀.step (Only.clockSupply0 t₀) hm₀

theorem Only.drawRoot0 (s : State) : Only 0x0 s (State.drawRoot s).2 := by
  unfold State.drawRoot
  try dsimp only
  repeat' first
    | with_reducible exact Only.refl _ _
    | with_reducible assumption
    | with_reducible refine Only.draw2 ?_
    | with_reducible refine Only.foldlSnd (fun _ _ _ _ => ?_) ?_

theorem Only.drawRoot {m₀ : Nat} {s₀ t₀ : State}  (hm₀ : 0x0 ||| m₀ = m₀)
    (h₀ : Only m₀ s₀ t₀) : Only m₀ s₀ (State.drawRoot t₀).2 :=
  h₀.step (Only.drawRoot0 t₀) hm₀

theorem Only.rootGenerate0 (s : State) : Only 0x8000 s (State.rootGenerate s) := by
  unfold State.rootGenerate
  try dsimp only
  repeat' first
    | with_reducible exact Only.refl _ _
    | with_reducible refine Only.ite ?_ ?_
    | with_reducible refine Only.free2 ?_
    | with_reducible refine Only.setKey (by decide) ?_
    | with_reducible refine Only.drawRoot (by decide) ?_

theorem Only.rootGenerate {m₀ : Nat} {s₀ t₀ : State}  (hm₀ : 0x8000 ||| m₀ = m₀)
    (h₀ : Only m₀ s₀ t₀) : Only m₀ s₀ (State.rootGenerate t₀) :=
  h₀.step (Only.rootGenerate0 t₀) hm₀

theorem Only.rootTransfer0 (s : State) : Only 0x8000 s (State.rootTransfer s) := by
  unfold State.rootTransfer
  try dsimp only
  repeat' first
    | with_reducible exact Only.refl _ _
    | with_reducible refine Only.draw2 ?_
    | with_reducible refine Only.setKey (by decide) ?_

theorem Only.rootTransfer {m₀ : Nat} {s₀ t₀ : State}  (hm₀ : 0x8000 ||| m₀ = m₀)
    (h₀ : Only m₀ s₀ t₀) : Only m₀ s₀ (State.rootTransfer t₀) :=
  h₀.step (Only.rootTransfer0 t₀) hm₀

theorem Only.otpProgram0 (s : State) (steps revoke : Nat) (stepsFail revokeFail : Nat) : Only 0x200000 s
    (State.otpProgram s steps revoke stepsFail revokeFail) := by
  unfold State.otpProgram
  try dsimp only
  repeat' first
    | with_reducible exact Only.refl _ _
    | with_reducible refine Only.setBoot (by decide) ?_

theorem Only.otpProgram {m₀ : Nat} {s₀ t₀ : State} {steps revoke : Nat} {stepsFail revokeFail : Nat}
    (hm₀ : 0x200000 ||| m₀ = m₀) (h₀ : Only m₀ s₀ t₀) : Only m₀ s₀ (State.otpProgram t₀ steps revoke stepsFail revokeFail) :=
  h₀.step (Only.otpProgram0 t₀ _ _ _ _) hm₀

theorem Only.otpRetry0 (s : State) : Only 0x200000 s (State.otpRetry s) := by
  unfold State.otpRetry
  try dsimp only
  repeat' first
    | with_reducible exact Only.refl _ _
    | with_reducible refine Only.free2 ?_
    | with_reducible refine Only.otpProgram (by decide) ?_
    | split

theorem Only.otpRetry {m₀ : Nat} {s₀ t₀ : State}  (hm₀ : 0x200000 ||| m₀ = m₀)
    (h₀ : Only m₀ s₀ t₀) : Only m₀ s₀ (State.otpRetry t₀) :=
  h₀.step (Only.otpRetry0 t₀) hm₀

theorem Only.slotChoice0 (s : State) : Only 0x22000B s (State.slotChoice s) := by
  unfold State.slotChoice
  try dsimp only
  repeat' first
    | with_reducible exact Only.refl _ _
    | with_reducible refine Only.ite ?_ ?_
    | with_reducible refine Only.fallback (by decide) ?_
    | with_reducible refine Only.bootActive (by decide) ?_
    | with_reducible refine Only.slotVerify (by decide) ?_
    | with_reducible refine Only.descWrite (by decide) ?_
    | with_reducible refine Only.bootSlot (by decide) ?_
    | split

theorem Only.slotChoice {m₀ : Nat} {s₀ t₀ : State}  (hm₀ : 0x22000B ||| m₀ = m₀)
    (h₀ : Only m₀ s₀ t₀) : Only m₀ s₀ (State.slotChoice t₀) :=
  h₀.step (Only.slotChoice0 t₀) hm₀

theorem Only.rebuilt0 (s : State) (keep : Bool) (w off : Nat) (v : Option Nat) : Only 0x1 s
    (State.rebuilt s keep w off v) := by
  unfold State.rebuilt
  try dsimp only
  repeat' first
    | with_reducible exact Only.refl _ _
    | with_reducible refine Only.ite ?_ ?_
    | with_reducible refine Only.rset (by decide) ?_
    | split

theorem Only.rebuilt {m₀ : Nat} {s₀ t₀ : State} {keep : Bool} {w off : Nat} {v : Option Nat} (hm₀ : 0x1 ||| m₀ = m₀)
    (h₀ : Only m₀ s₀ t₀) : Only m₀ s₀ (State.rebuilt t₀ keep w off v) :=
  h₀.step (Only.rebuilt0 t₀ _ _ _ _) hm₀

theorem Only.rebuildJournal0 (s : State) (keep : Bool) : Only 0x1 s (State.rebuildJournal s keep) := by
  unfold State.rebuildJournal
  try dsimp only
  repeat' first
    | with_reducible exact Only.refl _ _
    | with_reducible assumption
    | with_reducible refine Only.ite ?_ ?_
    | with_reducible refine Only.rebuilt (by decide) ?_
    | with_reducible refine Only.foldl (fun _ _ _ => ?_) ?_
    | split

theorem Only.rebuildJournal {m₀ : Nat} {s₀ t₀ : State} {keep : Bool} (hm₀ : 0x1 ||| m₀ = m₀)
    (h₀ : Only m₀ s₀ t₀) : Only m₀ s₀ (State.rebuildJournal t₀ keep) :=
  h₀.step (Only.rebuildJournal0 t₀ _) hm₀

theorem Only.coldRest0 (s : State) : Only 0x2A000B s (State.coldRest s) := by
  unfold State.coldRest
  try dsimp only
  repeat' first
    | with_reducible exact Only.refl _ _
    | with_reducible refine Only.ite ?_ ?_
    | with_reducible refine Only.slotChoice (by decide) ?_
    | with_reducible refine Only.recoveryMode (by decide) ?_
    | with_reducible refine Only.pwrMod (by decide) ?_
    | with_reducible refine Only.rebuildJournal (by decide) ?_
    | with_reducible refine Only.readSigners (by decide) ?_
    | with_reducible refine Only.setPair (by decide) ?_
    | with_reducible refine Only.setBoot (by decide) ?_

theorem Only.coldRest {m₀ : Nat} {s₀ t₀ : State}  (hm₀ : 0x2A000B ||| m₀ = m₀)
    (h₀ : Only m₀ s₀ t₀) : Only m₀ s₀ (State.coldRest t₀) :=
  h₀.step (Only.coldRest0 t₀) hm₀

theorem Only.coldBoot0 (s : State) : Only 0x2A800B s (State.coldBoot s) := by
  unfold State.coldBoot
  try dsimp only
  repeat' first
    | with_reducible exact Only.refl _ _
    | with_reducible refine Only.rootGenerate (by decide) ?_
    | with_reducible refine Only.rootTransfer (by decide) ?_
    | with_reducible refine Only.otpRetry (by decide) ?_
    | with_reducible refine Only.coldRest (by decide) ?_

theorem Only.coldBoot {m₀ : Nat} {s₀ t₀ : State}  (hm₀ : 0x2A800B ||| m₀ = m₀)
    (h₀ : Only m₀ s₀ t₀) : Only m₀ s₀ (State.coldBoot t₀) :=
  h₀.step (Only.coldBoot0 t₀) hm₀

theorem Only.enterPower0 (s : State) (st : PwrState) : Only 0x20000 s (State.enterPower s st) := by
  unfold State.enterPower
  try dsimp only
  repeat' first
    | with_reducible exact Only.refl _ _
    | with_reducible refine Only.pwrMod (by decide) ?_

theorem Only.enterPower {m₀ : Nat} {s₀ t₀ : State} {st : PwrState} (hm₀ : 0x20000 ||| m₀ = m₀)
    (h₀ : Only m₀ s₀ t₀) : Only m₀ s₀ (State.enterPower t₀ st) :=
  h₀.step (Only.enterPower0 t₀ _) hm₀

theorem Only.startKindle0 (s : State) (warm : Bool) : Only 0x30004 s (State.startKindle s warm) := by
  unfold State.startKindle
  try dsimp only
  repeat' first
    | with_reducible exact Only.refl _ _
    | with_reducible refine Only.enterPower (by decide) ?_
    | with_reducible refine Only.pwrMod (by decide) ?_
    | with_reducible refine Only.waitUntil (by decide) ?_

theorem Only.startKindle {m₀ : Nat} {s₀ t₀ : State} {warm : Bool} (hm₀ : 0x30004 ||| m₀ = m₀)
    (h₀ : Only m₀ s₀ t₀) : Only m₀ s₀ (State.startKindle t₀ warm) :=
  h₀.step (Only.startKindle0 t₀ _) hm₀

theorem Only.wakeRecord0 (s : State) (reason first src : Nat) : Only 0xB s (State.wakeRecord s reason first src) := by
  unfold State.wakeRecord
  try dsimp only
  repeat' first
    | with_reducible exact Only.refl _ _
    | with_reducible refine Only.ite ?_ ?_
    | with_reducible refine Only.bump (by decide) ?_
    | with_reducible refine Only.rset (by decide) ?_

theorem Only.wakeRecord {m₀ : Nat} {s₀ t₀ : State} {reason first src : Nat} (hm₀ : 0xB ||| m₀ = m₀)
    (h₀ : Only m₀ s₀ t₀) : Only m₀ s₀ (State.wakeRecord t₀ reason first src) :=
  h₀.step (Only.wakeRecord0 t₀ _ _ _) hm₀

theorem Only.coldRestart0 (s : State) : Only 0x3FFFFF s (State.coldRestart s) := by
  unfold State.coldRestart
  try dsimp only
  repeat' first
    | with_reducible exact Only.refl _ _
    | with_reducible refine Only.startKindle (by decide) ?_
    | with_reducible refine Only.pwrMod (by decide) ?_
    | with_reducible refine Only.wakeRecord (by decide) ?_
    | with_reducible refine Only.waitUntil (by decide) ?_
    | with_reducible refine Only.forgeLost (by decide) ?_

theorem Only.coldRestart {m₀ : Nat} {s₀ t₀ : State}  (hm₀ : 0x3FFFFF ||| m₀ = m₀)
    (h₀ : Only m₀ s₀ t₀) : Only m₀ s₀ (State.coldRestart t₀) :=
  h₀.step (Only.coldRestart0 t₀) hm₀

theorem Only.fmodDom0 (s : State) (d : Nat) (f : FDomain → FDomain) : Only 0x100000 s (State.fmodDom s d f) := by
  unfold State.fmodDom
  try dsimp only
  repeat' first
    | with_reducible exact Only.refl _ _
    | with_reducible refine Only.setFnc (by decide) ?_

theorem Only.fmodDom {m₀ : Nat} {s₀ t₀ : State} {d : Nat} {f : FDomain → FDomain} (hm₀ : 0x100000 ||| m₀ = m₀)
    (h₀ : Only m₀ s₀ t₀) : Only m₀ s₀ (State.fmodDom t₀ d f) :=
  h₀.step (Only.fmodDom0 t₀ _ _) hm₀

theorem Only.fenceEvent0 (s : State) (code d arg : Nat) : Only 0xB s (State.fenceEvent s code d arg) := by
  unfold State.fenceEvent
  try dsimp only
  repeat' first
    | with_reducible exact Only.refl _ _
    | with_reducible refine Only.ite ?_ ?_
    | with_reducible refine Only.raise (by decide) ?_
    | with_reducible refine Only.raiseSev (by decide) ?_

theorem Only.fenceEvent {m₀ : Nat} {s₀ t₀ : State} {code d arg : Nat} (hm₀ : 0xB ||| m₀ = m₀)
    (h₀ : Only m₀ s₀ t₀) : Only m₀ s₀ (State.fenceEvent t₀ code d arg) :=
  h₀.step (Only.fenceEvent0 t₀ _ _ _) hm₀

theorem Only.countQuench0 (s : State) (d src : Nat) : Only 0x10000B s (State.countQuench s d src) := by
  unfold State.countQuench
  try dsimp only
  repeat' first
    | with_reducible exact Only.refl _ _
    | with_reducible refine Only.bump (by decide) ?_
    | with_reducible refine Only.fmodDom (by decide) ?_
    | with_reducible refine Only.fenceEvent (by decide) ?_
    | with_reducible refine Only.rset (by decide) ?_

theorem Only.countQuench {m₀ : Nat} {s₀ t₀ : State} {d src : Nat} (hm₀ : 0x10000B ||| m₀ = m₀)
    (h₀ : Only m₀ s₀ t₀) : Only m₀ s₀ (State.countQuench t₀ d src) :=
  h₀.step (Only.countQuench0 t₀ _ _) hm₀

theorem Only.releaseUndo0 (s : State) (c : Cmd) : Only 0x100000 s (State.releaseUndo s c) := by
  unfold State.releaseUndo
  try dsimp only
  repeat' first
    | with_reducible exact Only.refl _ _
    | with_reducible refine Only.ite ?_ ?_
    | with_reducible refine Only.fmodDom (by decide) ?_
    | split

theorem Only.releaseUndo {m₀ : Nat} {s₀ t₀ : State} {c : Cmd} (hm₀ : 0x100000 ||| m₀ = m₀)
    (h₀ : Only m₀ s₀ t₀) : Only m₀ s₀ (State.releaseUndo t₀ c) :=
  h₀.step (Only.releaseUndo0 t₀ _) hm₀

theorem Only.undoCmd0 (s : State) (c : Cmd) : Only 0x18040B s (State.undoCmd s c) := by
  unfold State.undoCmd
  try dsimp only
  repeat' first
    | with_reducible exact Only.refl _ _
    | with_reducible refine Only.ite ?_ ?_
    | with_reducible refine Only.releaseUndo (by decide) ?_
    | with_reducible refine Only.xcvrUndo (by decide) ?_
    | with_reducible refine Only.pairMod (by decide) ?_

theorem Only.undoCmd {m₀ : Nat} {s₀ t₀ : State} {c : Cmd} (hm₀ : 0x18040B ||| m₀ = m₀)
    (h₀ : Only m₀ s₀ t₀) : Only m₀ s₀ (State.undoCmd t₀ c) :=
  h₀.step (Only.undoCmd0 t₀ _) hm₀

theorem Only.cutCmds0 (s : State) (hit : Cmd → Bool) : Only 0x38041B s (State.cutCmds s hit) := by
  unfold State.cutCmds
  try dsimp only
  repeat' first
    | with_reducible exact Only.refl _ _
    | with_reducible assumption
    | with_reducible refine Only.undoCmd (by decide) ?_
    | with_reducible refine Only.failOp (by decide) ?_
    | with_reducible refine Only.foldl (fun _ _ _ => ?_) ?_

theorem Only.cutCmds {m₀ : Nat} {s₀ t₀ : State} {hit : Cmd → Bool} (hm₀ : 0x38041B ||| m₀ = m₀)
    (h₀ : Only m₀ s₀ t₀) : Only m₀ s₀ (State.cutCmds t₀ hit) :=
  h₀.step (Only.cutCmds0 t₀ _) hm₀

theorem Only.doBackboneHeartbeatSend0 (s : State) : Only 0x90004 s (State.doBackboneHeartbeatSend s) := by
  unfold State.doBackboneHeartbeatSend
  try dsimp only
  repeat' first
    | with_reducible exact Only.refl _ _
    | with_reducible refine Only.ite ?_ ?_
    | with_reducible refine Only.backboneSend (by decide) ?_
    | with_reducible refine Only.waitUntil (by decide) ?_

theorem Only.doBackboneHeartbeatSend {m₀ : Nat} {s₀ t₀ : State}  (hm₀ : 0x90004 ||| m₀ = m₀)
    (h₀ : Only m₀ s₀ t₀) : Only m₀ s₀ (State.doBackboneHeartbeatSend t₀) :=
  h₀.step (Only.doBackboneHeartbeatSend0 t₀) hm₀

theorem Only.doBankedDecay0 (s : State) : Only 0x3FFFFF s (State.doBankedDecay s) := by
  unfold State.doBankedDecay
  try dsimp only
  repeat' first
    | with_reducible exact Only.refl _ _
    | with_reducible refine Only.ite ?_ ?_
    | with_reducible refine Only.enterPower (by decide) ?_
    | with_reducible refine Only.waitUntil (by decide) ?_
    | with_reducible refine Only.forgeLost (by decide) ?_

theorem Only.doBankedDecay {m₀ : Nat} {s₀ t₀ : State}  (hm₀ : 0x3FFFFF ||| m₀ = m₀)
    (h₀ : Only m₀ s₀ t₀) : Only m₀ s₀ (State.doBankedDecay t₀) :=
  h₀.step (Only.doBankedDecay0 t₀) hm₀

theorem Only.wakeStart0 (s : State) : Only 0x30004 s (State.wakeStart s) := by
  unfold State.wakeStart
  try dsimp only
  repeat' first
    | with_reducible exact Only.refl _ _
    | with_reducible refine Only.ite ?_ ?_
    | with_reducible refine Only.startKindle (by decide) ?_
    | with_reducible refine Only.pwrMod (by decide) ?_

theorem Only.wakeStart {m₀ : Nat} {s₀ t₀ : State}  (hm₀ : 0x30004 ||| m₀ = m₀)
    (h₀ : Only m₀ s₀ t₀) : Only m₀ s₀ (State.wakeStart t₀) :=
  h₀.step (Only.wakeStart0 t₀) hm₀

theorem Only.reasonAdd0 (s : State) (b : Nat) : Only 0x1 s (State.reasonAdd s b) := by
  unfold State.reasonAdd
  try dsimp only
  repeat' first
    | with_reducible exact Only.refl _ _
    | with_reducible refine Only.rset (by decide) ?_

theorem Only.reasonAdd {m₀ : Nat} {s₀ t₀ : State} {b : Nat} (hm₀ : 0x1 ||| m₀ = m₀)
    (h₀ : Only m₀ s₀ t₀) : Only m₀ s₀ (State.reasonAdd t₀ b) :=
  h₀.step (Only.reasonAdd0 t₀ _) hm₀

theorem Only.lateWake0 (s : State) (b src : Nat) : Only 0x3000F s (State.lateWake s b src) := by
  unfold State.lateWake
  try dsimp only
  repeat' first
    | with_reducible exact Only.refl _ _
    | with_reducible refine Only.bump (by decide) ?_
    | with_reducible refine Only.wakeStart (by decide) ?_
    | with_reducible refine Only.wakeRecord (by decide) ?_

theorem Only.lateWake {m₀ : Nat} {s₀ t₀ : State} {b src : Nat} (hm₀ : 0x3000F ||| m₀ = m₀)
    (h₀ : Only m₀ s₀ t₀) : Only m₀ s₀ (State.lateWake t₀ b src) :=
  h₀.step (Only.lateWake0 t₀ _ _) hm₀

theorem Only.wakeFire0 (s : State) (b src : Nat) : Only 0x3000F s (State.wakeFire s b src) := by
  unfold State.wakeFire
  try dsimp only
  repeat' first
    | with_reducible exact Only.refl _ _
    | with_reducible refine Only.ite ?_ ?_
    | with_reducible refine Only.wakeStart (by decide) ?_
    | with_reducible refine Only.reasonAdd (by decide) ?_
    | with_reducible refine Only.latch (by decide) ?_
    | with_reducible refine Only.wakeRecord (by decide) ?_
    | with_reducible refine Only.lateWake (by decide) ?_
    | split

theorem Only.wakeFire {m₀ : Nat} {s₀ t₀ : State} {b src : Nat} (hm₀ : 0x3000F ||| m₀ = m₀)
    (h₀ : Only m₀ s₀ t₀) : Only m₀ s₀ (State.wakeFire t₀ b src) :=
  h₀.step (Only.wakeFire0 t₀ _ _) hm₀

theorem Only.doCanWakePattern0 (s : State) (ch : Nat) : Only 0x3000F s (State.doCanWakePattern s ch) := by
  unfold State.doCanWakePattern
  try dsimp only
  repeat' first
    | with_reducible exact Only.refl _ _
    | with_reducible refine Only.ite ?_ ?_
    | with_reducible refine Only.wakeFire (by decide) ?_

theorem Only.doCanWakePattern {m₀ : Nat} {s₀ t₀ : State} {ch : Nat} (hm₀ : 0x3000F ||| m₀ = m₀)
    (h₀ : Only m₀ s₀ t₀) : Only m₀ s₀ (State.doCanWakePattern t₀ ch) :=
  h₀.step (Only.doCanWakePattern0 t₀ _) hm₀

theorem Only.doClashComparison0 (s : State) : Only 0x29041F s (State.doClashComparison s) := by
  unfold State.doClashComparison
  try dsimp only
  repeat' first
    | with_reducible exact Only.refl _ _
    | with_reducible refine Only.ite ?_ ?_
    | with_reducible refine Only.roleDone (by decide) ?_
    | with_reducible refine Only.clashReport (by decide) ?_
    | with_reducible refine Only.waitUntil (by decide) ?_
    | with_reducible refine Only.pairMod (by decide) ?_
    | with_reducible refine Only.roleModes (by decide) ?_

theorem Only.doClashComparison {m₀ : Nat} {s₀ t₀ : State}  (hm₀ : 0x29041F ||| m₀ = m₀)
    (h₀ : Only m₀ s₀ t₀) : Only m₀ s₀ (State.doClashComparison t₀) :=
  h₀.step (Only.doClashComparison0 t₀) hm₀

theorem Only.restartIfDue0 (s : State) : Only 0x3FFFFF s (State.restartIfDue s) := by
  unfold State.restartIfDue
  try dsimp only
  repeat' first
    | with_reducible exact Only.refl _ _
    | with_reducible refine Only.ite ?_ ?_
    | with_reducible refine Only.coldRestart (by decide) ?_

theorem Only.restartIfDue {m₀ : Nat} {s₀ t₀ : State}  (hm₀ : 0x3FFFFF ||| m₀ = m₀)
    (h₀ : Only m₀ s₀ t₀) : Only m₀ s₀ (State.restartIfDue t₀) :=
  h₀.step (Only.restartIfDue0 t₀) hm₀

theorem Only.doCorrectableEcc0 (s : State) : Only 0xB s (State.doCorrectableEcc s) := by
  unfold State.doCorrectableEcc
  try dsimp only
  repeat' first
    | with_reducible exact Only.refl _ _
    | with_reducible refine Only.ite ?_ ?_
    | with_reducible refine Only.bump (by decide) ?_

theorem Only.doCorrectableEcc {m₀ : Nat} {s₀ t₀ : State}  (hm₀ : 0xB ||| m₀ = m₀)
    (h₀ : Only m₀ s₀ t₀) : Only m₀ s₀ (State.doCorrectableEcc t₀) :=
  h₀.step (Only.doCorrectableEcc0 t₀) hm₀

theorem Only.doDieLinkFailure0 (s : State) : Only 0x16040B s (State.doDieLinkFailure s) := by
  unfold State.doDieLinkFailure
  try dsimp only
  repeat' first
    | with_reducible exact Only.refl _ _
    | with_reducible refine Only.ite ?_ ?_
    | with_reducible refine Only.emberLost (by decide) ?_
    | with_reducible refine Only.report (by decide) ?_
    | with_reducible refine Only.raise (by decide) ?_
    | with_reducible refine Only.pwrMod (by decide) ?_

theorem Only.doDieLinkFailure {m₀ : Nat} {s₀ t₀ : State}  (hm₀ : 0x16040B ||| m₀ = m₀)
    (h₀ : Only m₀ s₀ t₀) : Only m₀ s₀ (State.doDieLinkFailure t₀) :=
  h₀.step (Only.doDieLinkFailure0 t₀) hm₀

theorem Only.doEmberDecay0 (s : State) : Only 0x30004 s (State.doEmberDecay s) := by
  unfold State.doEmberDecay
  try dsimp only
  repeat' first
    | with_reducible exact Only.refl _ _
    | with_reducible refine Only.ite ?_ ?_
    | with_reducible refine Only.enterPower (by decide) ?_
    | with_reducible refine Only.pwrMod (by decide) ?_
    | with_reducible refine Only.waitUntil (by decide) ?_

theorem Only.doEmberDecay {m₀ : Nat} {s₀ t₀ : State}  (hm₀ : 0x30004 ||| m₀ = m₀)
    (h₀ : Only m₀ s₀ t₀) : Only m₀ s₀ (State.doEmberDecay t₀) :=
  h₀.step (Only.doEmberDecay0 t₀) hm₀

theorem Only.quenchCommands0 (s : State) (gone : List Nat) : Only 0x38041B s (State.quenchCommands s gone) := by
  unfold State.quenchCommands
  try dsimp only
  repeat' first
    | with_reducible exact Only.refl _ _
    | with_reducible refine Only.ite ?_ ?_
    | with_reducible refine Only.unpersistAll (by decide) ?_
    | with_reducible refine Only.cutCmds (by decide) ?_

theorem Only.quenchCommands {m₀ : Nat} {s₀ t₀ : State} {gone : List Nat} (hm₀ : 0x38041B ||| m₀ = m₀)
    (h₀ : Only m₀ s₀ t₀) : Only m₀ s₀ (State.quenchCommands t₀ gone) :=
  h₀.step (Only.quenchCommands0 t₀ _) hm₀

theorem Only.linkStop0 (s : State) : Only 0x384BFB s (State.linkStop s) := by
  unfold State.linkStop
  try dsimp only
  repeat' first
    | with_reducible exact Only.refl _ _
    | with_reducible refine Only.ite ?_ ?_
    | with_reducible refine Only.mirrorOff (by decide) ?_
    | with_reducible refine Only.cutArriving (by decide) ?_
    | with_reducible refine Only.pairMod (by decide) ?_
    | with_reducible refine Only.portStop (by decide) ?_

theorem Only.linkStop {m₀ : Nat} {s₀ t₀ : State}  (hm₀ : 0x384BFB ||| m₀ = m₀)
    (h₀ : Only m₀ s₀ t₀) : Only m₀ s₀ (State.linkStop t₀) :=
  h₀.step (Only.linkStop0 t₀) hm₀

theorem Only.portQuench0 (s : State) (p : Nat) : Only 0x384BFB s (State.portQuench s p) := by
  unfold State.portQuench
  try dsimp only
  repeat' first
    | with_reducible exact Only.refl _ _
    | with_reducible assumption
    | with_reducible refine Only.ite ?_ ?_
    | with_reducible refine Only.bump (by decide) ?_
    | with_reducible refine Only.pathLost (by decide) ?_
    | with_reducible refine Only.linkStop (by decide) ?_
    | with_reducible refine Only.tailAbort (by decide) ?_
    | with_reducible refine Only.cutArriving (by decide) ?_
    | with_reducible refine Only.portStop (by decide) ?_
    | with_reducible refine Only.foldl (fun _ _ _ => ?_) ?_

theorem Only.portQuench {m₀ : Nat} {s₀ t₀ : State} {p : Nat} (hm₀ : 0x384BFB ||| m₀ = m₀)
    (h₀ : Only m₀ s₀ t₀) : Only m₀ s₀ (State.portQuench t₀ p) :=
  h₀.step (Only.portQuench0 t₀ _) hm₀

theorem Only.groupQuench0 (s : State) (d : Nat) : Only 0x384BFB s (State.groupQuench s d) := by
  unfold State.groupQuench
  try dsimp only
  repeat' first
    | with_reducible exact Only.refl _ _
    | with_reducible assumption
    | with_reducible refine Only.ite ?_ ?_
    | with_reducible refine Only.bportMod (by decide) ?_
    | with_reducible refine Only.portQuench (by decide) ?_
    | with_reducible refine Only.raise (by decide) ?_
    | with_reducible refine Only.pairMod (by decide) ?_
    | with_reducible refine Only.foldl (fun _ _ _ => ?_) ?_

theorem Only.groupQuench {m₀ : Nat} {s₀ t₀ : State} {d : Nat} (hm₀ : 0x384BFB ||| m₀ = m₀)
    (h₀ : Only m₀ s₀ t₀) : Only m₀ s₀ (State.groupQuench t₀ d) :=
  h₀.step (Only.groupQuench0 t₀ _) hm₀

theorem Only.memoryQuench0 (s : State) : Only 0x1003AB s (State.memoryQuench s) := by
  unfold State.memoryQuench
  try dsimp only
  repeat' first
    | with_reducible exact Only.refl _ _
    | with_reducible assumption
    | with_reducible refine Only.copyQuench (by decide) ?_
    | with_reducible refine Only.gc (by decide) ?_
    | with_reducible refine Only.foldl (fun _ _ _ => ?_) ?_

theorem Only.memoryQuench {m₀ : Nat} {s₀ t₀ : State}  (hm₀ : 0x1003AB ||| m₀ = m₀)
    (h₀ : Only m₀ s₀ t₀) : Only m₀ s₀ (State.memoryQuench t₀) :=
  h₀.step (Only.memoryQuench0 t₀) hm₀

theorem Only.verdictsGone0 (s : State) (mine : Frame → Bool) : Only 0x304BEB s (State.verdictsGone s mine) := by
  unfold State.verdictsGone
  try dsimp only
  repeat' first
    | with_reducible exact Only.refl _ _
    | with_reducible refine Only.abortAll (by decide) ?_
    | with_reducible refine Only.setFr (by decide) ?_

theorem Only.verdictsGone {m₀ : Nat} {s₀ t₀ : State} {mine : Frame → Bool} (hm₀ : 0x304BEB ||| m₀ = m₀)
    (h₀ : Only m₀ s₀ t₀) : Only m₀ s₀ (State.verdictsGone t₀ mine) :=
  h₀.step (Only.verdictsGone0 t₀ _) hm₀

theorem Only.servicesQuench0 (s : State) : Only 0x1800 s (State.servicesQuench s) := by
  unfold State.servicesQuench
  try dsimp only
  repeat' first
    | with_reducible exact Only.refl _ _
    | with_reducible refine Only.setSig (by decide) ?_
    | with_reducible refine Only.setTun (by decide) ?_

theorem Only.servicesQuench {m₀ : Nat} {s₀ t₀ : State}  (hm₀ : 0x1800 ||| m₀ = m₀)
    (h₀ : Only m₀ s₀ t₀) : Only m₀ s₀ (State.servicesQuench t₀) :=
  h₀.step (Only.servicesQuench0 t₀) hm₀

theorem Only.securityQuench0 (s : State) : Only 0x304FEB s (State.securityQuench s) := by
  unfold State.securityQuench
  try dsimp only
  repeat' first
    | with_reducible exact Only.refl _ _
    | with_reducible refine Only.verdictsGone (by decide) ?_
    | with_reducible refine Only.cipherAbort (by decide) ?_
    | with_reducible refine Only.setFr (by decide) ?_

theorem Only.securityQuench {m₀ : Nat} {s₀ t₀ : State}  (hm₀ : 0x304FEB ||| m₀ = m₀)
    (h₀ : Only m₀ s₀ t₀) : Only m₀ s₀ (State.securityQuench t₀) :=
  h₀.step (Only.securityQuench0 t₀) hm₀

theorem Only.pipeQuench0 (s : State) (n : Nat) : Only 0x304BEB s (State.pipeQuench s n) := by
  unfold State.pipeQuench
  try dsimp only
  repeat' first
    | with_reducible exact Only.refl _ _
    | with_reducible assumption
    | with_reducible refine Only.ite ?_ ?_
    | with_reducible refine Only.abortAll (by decide) ?_
    | with_reducible refine Only.tsNowhere (by decide) ?_
    | with_reducible refine Only.setFr (by decide) ?_
    | with_reducible refine Only.foldl (fun _ _ _ => ?_) ?_

theorem Only.pipeQuench {m₀ : Nat} {s₀ t₀ : State} {n : Nat} (hm₀ : 0x304BEB ||| m₀ = m₀)
    (h₀ : Only m₀ s₀ t₀) : Only m₀ s₀ (State.pipeQuench t₀ n) :=
  h₀.step (Only.pipeQuench0 t₀ _) hm₀

theorem Only.quenchEffect0 (s : State) (d : Nat) : Only 0x3FDFFB s (State.quenchEffect s d) := by
  unfold State.quenchEffect
  try dsimp only
  repeat' first
    | with_reducible exact Only.refl _ _
    | with_reducible assumption
    | with_reducible refine Only.ite ?_ ?_
    | with_reducible refine Only.busQuench (by decide) ?_
    | with_reducible refine Only.groupQuench (by decide) ?_
    | with_reducible refine Only.setHif (by decide) ?_
    | with_reducible refine Only.memoryQuench (by decide) ?_
    | with_reducible refine Only.timeQuench (by decide) ?_
    | with_reducible refine Only.verdictsGone (by decide) ?_
    | with_reducible refine Only.tunMod (by decide) ?_
    | with_reducible refine Only.portQuench (by decide) ?_
    | with_reducible refine Only.emberLost (by decide) ?_
    | with_reducible refine Only.keysLost (by decide) ?_
    | with_reducible refine Only.servicesQuench (by decide) ?_
    | with_reducible refine Only.securityQuench (by decide) ?_
    | with_reducible refine Only.eraseLoaded (by decide) ?_
    | with_reducible refine Only.setCal (by decide) ?_
    | with_reducible refine Only.bufferQuench (by decide) ?_
    | with_reducible refine Only.setFr (by decide) ?_
    | with_reducible refine Only.pipeQuench (by decide) ?_
    | with_reducible refine Only.foldl (fun _ _ _ => ?_) ?_
    | split

theorem Only.quenchEffect {m₀ : Nat} {s₀ t₀ : State} {d : Nat} (hm₀ : 0x3FDFFB ||| m₀ = m₀)
    (h₀ : Only m₀ s₀ t₀) : Only m₀ s₀ (State.quenchEffect t₀ d) :=
  h₀.step (Only.quenchEffect0 t₀ _) hm₀

theorem Only.spcFreeze0 (s : State) (p : Nat) : Only 0x80 s (State.spcFreeze s p) := by
  unfold State.spcFreeze
  try dsimp only
  repeat' first
    | with_reducible exact Only.refl _ _
    | with_reducible refine Only.setFr (by decide) ?_

theorem Only.spcFreeze {m₀ : Nat} {s₀ t₀ : State} {p : Nat} (hm₀ : 0x80 ||| m₀ = m₀)
    (h₀ : Only m₀ s₀ t₀) : Only m₀ s₀ (State.spcFreeze t₀ p) :=
  h₀.step (Only.spcFreeze0 t₀ _) hm₀

theorem Only.replaceInside0 (s : State) (d : Nat) : Only 0x30001B s (State.replaceInside s d) := by
  unfold State.replaceInside
  try dsimp only
  repeat' first
    | with_reducible exact Only.refl _ _
    | with_reducible assumption
    | with_reducible refine Only.failCmd (by decide) ?_
    | with_reducible refine Only.setFnc (by decide) ?_
    | with_reducible refine Only.foldl (fun _ _ _ => ?_) ?_

theorem Only.replaceInside {m₀ : Nat} {s₀ t₀ : State} {d : Nat} (hm₀ : 0x30001B ||| m₀ = m₀)
    (h₀ : Only m₀ s₀ t₀) : Only m₀ s₀ (State.replaceInside t₀ d) :=
  h₀.step (Only.replaceInside0 t₀ _) hm₀

theorem Only.tongsSend0 (s : State) (yields : Bool) : Only 0x80000 s (State.tongsSend s yields) := by
  unfold State.tongsSend
  try dsimp only
  repeat' first
    | with_reducible exact Only.refl _ _
    | with_reducible refine Only.pairMod (by decide) ?_
    | with_reducible refine Only.emit (Nat.zero_or _) ?_

theorem Only.tongsSend {m₀ : Nat} {s₀ t₀ : State} {yields : Bool} (hm₀ : 0x80000 ||| m₀ = m₀)
    (h₀ : Only m₀ s₀ t₀) : Only m₀ s₀ (State.tongsSend t₀ yields) :=
  h₀.step (Only.tongsSend0 t₀ _) hm₀

theorem Only.yieldSend0 (s : State) : Only 0x80000 s (State.yieldSend s) := by
  unfold State.yieldSend
  try dsimp only
  repeat' first
    | with_reducible exact Only.refl _ _
    | with_reducible refine Only.ite ?_ ?_
    | with_reducible refine Only.tongsSend (by decide) ?_
    | with_reducible refine Only.backboneSend (by decide) ?_

theorem Only.yieldSend {m₀ : Nat} {s₀ t₀ : State}  (hm₀ : 0x80000 ||| m₀ = m₀)
    (h₀ : Only m₀ s₀ t₀) : Only m₀ s₀ (State.yieldSend t₀) :=
  h₀.step (Only.yieldSend0 t₀) hm₀

theorem Only.quench0 (s : State) (d src : Nat) : Only 0x3FDFFB s (State.quench s d src) := by
  unfold State.quench
  try dsimp only
  repeat' first
    | with_reducible exact Only.refl _ _
    | with_reducible assumption
    | with_reducible refine Only.ite ?_ ?_
    | with_reducible refine Only.quenchCommands (by decide) ?_
    | with_reducible refine Only.countQuench (by decide) ?_
    | with_reducible refine Only.quenchEffect (by decide) ?_
    | with_reducible refine Only.fmodDom (by decide) ?_
    | with_reducible refine Only.fenceEvent (by decide) ?_
    | with_reducible refine Only.rxPurge (by decide) ?_
    | with_reducible refine Only.spcFreeze (by decide) ?_
    | with_reducible refine Only.replaceInside (by decide) ?_
    | with_reducible refine Only.limpSelect (by decide) ?_
    | with_reducible refine Only.captureStop (by decide) ?_
    | with_reducible refine Only.yieldSend (by decide) ?_
    | with_reducible refine Only.foldl (fun _ _ _ => ?_) ?_

theorem Only.quench {m₀ : Nat} {s₀ t₀ : State} {d src : Nat} (hm₀ : 0x3FDFFB ||| m₀ = m₀)
    (h₀ : Only m₀ s₀ t₀) : Only m₀ s₀ (State.quench t₀ d src) :=
  h₀.step (Only.quench0 t₀ _ _) hm₀

theorem Only.kindleFail0 (s : State) : Only 0x3FFFFF s (State.kindleFail s) := by
  unfold State.kindleFail
  try dsimp only
  repeat' first
    | with_reducible exact Only.refl _ _
    | with_reducible refine Only.ite ?_ ?_
    | with_reducible refine Only.bump (by decide) ?_
    | with_reducible refine Only.enterPower (by decide) ?_
    | with_reducible refine Only.rset (by decide) ?_
    | with_reducible refine Only.pwrMod (by decide) ?_
    | with_reducible refine Only.forgeLost (by decide) ?_

theorem Only.kindleFail {m₀ : Nat} {s₀ t₀ : State}  (hm₀ : 0x3FFFFF ||| m₀ = m₀)
    (h₀ : Only m₀ s₀ t₀) : Only m₀ s₀ (State.kindleFail t₀) :=
  h₀.step (Only.kindleFail0 t₀) hm₀

theorem Only.escalate0 (x0 x1 : Nat) (st : State) : Only 0x3FFFFF st (State.escalate x0 x1 st) := by
  induction x0 generalizing x1 st with
  | zero => unfold State.escalate; exact Only.refl _ _
  | succ n ih =>
    unfold State.escalate
    try dsimp only
    repeat' first
      | with_reducible refine Only.trans ?_ (ih _ _)
      | with_reducible exact Only.refl _ _
      | with_reducible assumption
      | with_reducible refine Only.ite ?_ ?_
      | with_reducible refine Only.bump (by decide) ?_
      | with_reducible refine Only.quench (by decide) ?_
      | with_reducible refine Only.fenceEvent (by decide) ?_
      | with_reducible refine Only.failCmd (by decide) ?_
      | with_reducible refine Only.kindleFail (by decide) ?_
      | with_reducible refine Only.foldl (fun _ _ _ => ?_) ?_
      | split

theorem Only.escalate {m₀ : Nat} {s₀ t₀ : State} {x0 x1 : Nat} (hm₀ : 0x3FFFFF ||| m₀ = m₀)
    (h₀ : Only m₀ s₀ t₀) : Only m₀ s₀ (State.escalate x0 x1 t₀) :=
  h₀.step (Only.escalate0 _ _ t₀) hm₀

theorem Only.fenceReport0 (s : State) (d src : Nat) : Only 0x3FFFFF s (State.fenceReport s d src) := by
  unfold State.fenceReport
  try dsimp only
  repeat' first
    | with_reducible exact Only.refl _ _
    | with_reducible assumption
    | with_reducible refine Only.ite ?_ ?_
    | with_reducible refine Only.countQuench (by decide) ?_
    | with_reducible refine Only.quench (by decide) ?_
    | with_reducible refine Only.escalate (by decide) ?_
    | with_reducible refine Only.foldl (fun _ _ _ => ?_) ?_

theorem Only.fenceReport {m₀ : Nat} {s₀ t₀ : State} {d src : Nat} (hm₀ : 0x3FFFFF ||| m₀ = m₀)
    (h₀ : Only m₀ s₀ t₀) : Only m₀ s₀ (State.fenceReport t₀ d src) :=
  h₀.step (Only.fenceReport0 t₀ _ _) hm₀

theorem Only.doFaultReport0 (s : State) (d src : Nat) : Only 0x3FFFFF s (State.doFaultReport s d src) := by
  unfold State.doFaultReport
  try dsimp only
  repeat' first
    | with_reducible exact Only.refl _ _
    | with_reducible refine Only.ite ?_ ?_
    | with_reducible refine Only.cellError (by decide) ?_
    | with_reducible refine Only.fenceReport (by decide) ?_
    | with_reducible refine Only.setFnc (by decide) ?_

theorem Only.doFaultReport {m₀ : Nat} {s₀ t₀ : State} {d src : Nat} (hm₀ : 0x3FFFFF ||| m₀ = m₀)
    (h₀ : Only m₀ s₀ t₀) : Only m₀ s₀ (State.doFaultReport t₀ d src) :=
  h₀.step (Only.doFaultReport0 t₀ _ _) hm₀

theorem Only.edgeWake0 (s : State) : Only 0x304FEB s (State.edgeWake s) := by
  unfold State.edgeWake
  try dsimp only
  repeat' first
    | with_reducible exact Only.refl _ _
    | with_reducible assumption
    | with_reducible refine Only.ite ?_ ?_
    | with_reducible refine Only.canMode (by decide) ?_
    | with_reducible refine Only.t1sSync (by decide) ?_
    | with_reducible refine Only.setEdg (by decide) ?_
    | with_reducible refine Only.linMode (by decide) ?_
    | with_reducible refine Only.foldl (fun _ _ _ => ?_) ?_

theorem Only.edgeWake {m₀ : Nat} {s₀ t₀ : State}  (hm₀ : 0x304FEB ||| m₀ = m₀)
    (h₀ : Only m₀ s₀ t₀) : Only m₀ s₀ (State.edgeWake t₀) :=
  h₀.step (Only.edgeWake0 t₀) hm₀

theorem Only.startEvents0 (s : State) : Only 0xB s (State.startEvents s) := by
  unfold State.startEvents
  try dsimp only
  repeat' first
    | with_reducible exact Only.refl _ _
    | with_reducible assumption
    | with_reducible refine Only.ite ?_ ?_
    | with_reducible refine Only.raise (by decide) ?_
    | with_reducible refine Only.foldl (fun _ _ _ => ?_) ?_
    | split

theorem Only.startEvents {m₀ : Nat} {s₀ t₀ : State}  (hm₀ : 0xB ||| m₀ = m₀)
    (h₀ : Only m₀ s₀ t₀) : Only m₀ s₀ (State.startEvents t₀) :=
  h₀.step (Only.startEvents0 t₀) hm₀

theorem Only.limpStart0 (s : State) : Only 0x10021 s (State.limpStart s) := by
  unfold State.limpStart
  try dsimp only
  repeat' first
    | with_reducible exact Only.refl _ _
    | with_reducible refine Only.ite ?_ ?_
    | with_reducible refine Only.rset (by decide) ?_
    | with_reducible refine Only.setCal (by decide) ?_
    | with_reducible refine Only.limpSelect (by decide) ?_

theorem Only.limpStart {m₀ : Nat} {s₀ t₀ : State}  (hm₀ : 0x10021 ||| m₀ = m₀)
    (h₀ : Only m₀ s₀ t₀) : Only m₀ s₀ (State.limpStart t₀) :=
  h₀.step (Only.limpStart0 t₀) hm₀

theorem Only.doFirmwareReady0 (s : State) : Only 0x3FCFFF s (State.doFirmwareReady s) := by
  unfold State.doFirmwareReady
  try dsimp only
  repeat' first
    | with_reducible exact Only.refl _ _
    | with_reducible refine Only.ite ?_ ?_
    | with_reducible refine Only.edgeWake (by decide) ?_
    | with_reducible refine Only.setMbx (by decide) ?_
    | with_reducible refine Only.calResume (by decide) ?_
    | with_reducible refine Only.startEvents (by decide) ?_
    | with_reducible refine Only.timeWake (by decide) ?_
    | with_reducible refine Only.enterPower (by decide) ?_
    | with_reducible refine Only.nmEnter (by decide) ?_
    | with_reducible refine Only.limpStart (by decide) ?_
    | with_reducible refine Only.rset (by decide) ?_
    | with_reducible refine Only.pwrMod (by decide) ?_
    | with_reducible refine Only.nmMod (by decide) ?_
    | with_reducible refine Only.coldBoot (by decide) ?_

theorem Only.doFirmwareReady {m₀ : Nat} {s₀ t₀ : State}  (hm₀ : 0x3FCFFF ||| m₀ = m₀)
    (h₀ : Only m₀ s₀ t₀) : Only m₀ s₀ (State.doFirmwareReady t₀) :=
  h₀.step (Only.doFirmwareReady0 t₀) hm₀

theorem Only.warmBoot0 (s : State) (sealOk : Bool) : Only 0x3FFFFF s (State.warmBoot s sealOk) := by
  unfold State.warmBoot
  try dsimp only
  repeat' first
    | with_reducible exact Only.refl _ _
    | with_reducible refine Only.ite ?_ ?_
    | with_reducible refine Only.bump (by decide) ?_
    | with_reducible refine Only.rootTransfer (by decide) ?_
    | with_reducible refine Only.pwrMod (by decide) ?_
    | with_reducible refine Only.forgeLost (by decide) ?_
    | with_reducible refine Only.setKey (by decide) ?_
    | with_reducible refine Only.otpRetry (by decide) ?_
    | with_reducible refine Only.setPair (by decide) ?_
    | with_reducible refine Only.coldRest (by decide) ?_
    | with_reducible refine Only.setBoot (by decide) ?_

theorem Only.warmBoot {m₀ : Nat} {s₀ t₀ : State} {sealOk : Bool} (hm₀ : 0x3FFFFF ||| m₀ = m₀)
    (h₀ : Only m₀ s₀ t₀) : Only m₀ s₀ (State.warmBoot t₀ sealOk) :=
  h₀.step (Only.warmBoot0 t₀ _) hm₀

theorem Only.doForgeResetRelease0 (s : State) (sealOk : Bool) : Only 0x3FFFFF s (State.doForgeResetRelease s sealOk) := by
  unfold State.doForgeResetRelease
  try dsimp only
  repeat' first
    | with_reducible exact Only.refl _ _
    | with_reducible refine Only.ite ?_ ?_
    | with_reducible refine Only.clockSupply (by decide) ?_
    | with_reducible refine Only.pwrMod (by decide) ?_
    | with_reducible refine Only.waitUntil (by decide) ?_
    | with_reducible refine Only.warmBoot (by decide) ?_
    | with_reducible refine Only.coldBoot (by decide) ?_

theorem Only.doForgeResetRelease {m₀ : Nat} {s₀ t₀ : State} {sealOk : Bool} (hm₀ : 0x3FFFFF ||| m₀ = m₀)
    (h₀ : Only m₀ s₀ t₀) : Only m₀ s₀ (State.doForgeResetRelease t₀ sealOk) :=
  h₀.step (Only.doForgeResetRelease0 t₀ _) hm₀

theorem Only.takeover0 (s : State) (cause : Nat) : Only 0x8460B s (State.takeover s cause) := by
  unfold State.takeover
  try dsimp only
  repeat' first
    | with_reducible exact Only.refl _ _
    | with_reducible refine Only.bump (by decide) ?_
    | with_reducible refine Only.skipAhead (by decide) ?_
    | with_reducible refine Only.raise (by decide) ?_
    | with_reducible refine Only.pairMod (by decide) ?_
    | with_reducible refine Only.roleModes (by decide) ?_

theorem Only.takeover {m₀ : Nat} {s₀ t₀ : State} {cause : Nat} (hm₀ : 0x8460B ||| m₀ = m₀)
    (h₀ : Only m₀ s₀ t₀) : Only m₀ s₀ (State.takeover t₀ cause) :=
  h₀.step (Only.takeover0 t₀ _) hm₀

theorem Only.missCount0 (s : State) : Only 0x8000B s (State.missCount s) := by
  unfold State.missCount
  try dsimp only
  repeat' first
    | with_reducible exact Only.refl _ _
    | with_reducible refine Only.ite ?_ ?_
    | with_reducible refine Only.bumpBy (by decide) ?_
    | with_reducible refine Only.pairMod (by decide) ?_

theorem Only.missCount {m₀ : Nat} {s₀ t₀ : State}  (hm₀ : 0x8000B ||| m₀ = m₀)
    (h₀ : Only m₀ s₀ t₀) : Only m₀ s₀ (State.missCount t₀) :=
  h₀.step (Only.missCount0 t₀) hm₀

theorem Only.follow0 (s : State) (offs : List ℤ) : Only 0x902AB s (State.follow s offs) := by
  unfold State.follow
  try dsimp only
  repeat' first
    | with_reducible exact Only.refl _ _
    | with_reducible assumption
    | with_reducible refine Only.ite ?_ ?_
    | with_reducible refine Only.domMod (by decide) ?_
    | with_reducible refine Only.correct (by decide) ?_
    | with_reducible refine Only.pairMod (by decide) ?_
    | with_reducible refine Only.foldl (fun _ _ _ => ?_) ?_
    | split

theorem Only.follow {m₀ : Nat} {s₀ t₀ : State} {offs : List ℤ} (hm₀ : 0x902AB ||| m₀ = m₀)
    (h₀ : Only m₀ s₀ t₀) : Only m₀ s₀ (State.follow t₀ offs) :=
  h₀.step (Only.follow0 t₀ _) hm₀

theorem Only.tongsBeatIn0 (s : State) (h : Heartbeat) : Only 0x2D46BB s (State.tongsBeatIn s h) := by
  unfold State.tongsBeatIn
  try dsimp only
  repeat' first
    | with_reducible exact Only.refl _ _
    | with_reducible refine Only.missCount (by decide) ?_
    | with_reducible refine Only.beatRole (by decide) ?_
    | with_reducible refine Only.beatCommit (by decide) ?_
    | with_reducible refine Only.follow (by decide) ?_
    | with_reducible refine Only.pairMod (by decide) ?_

theorem Only.tongsBeatIn {m₀ : Nat} {s₀ t₀ : State} {h : Heartbeat} (hm₀ : 0x2D46BB ||| m₀ = m₀)
    (h₀ : Only m₀ s₀ t₀) : Only m₀ s₀ (State.tongsBeatIn t₀ h) :=
  h₀.step (Only.tongsBeatIn0 t₀ _) hm₀

theorem Only.doHeartbeatReceived0 (s : State) (h : Heartbeat) : Only 0x2D46BB s (State.doHeartbeatReceived s h) := by
  unfold State.doHeartbeatReceived
  try dsimp only
  repeat' first
    | with_reducible exact Only.refl _ _
    | with_reducible refine Only.ite ?_ ?_
    | with_reducible refine Only.roleDone (by decide) ?_
    | with_reducible refine Only.takeover (by decide) ?_
    | with_reducible refine Only.tongsBeatIn (by decide) ?_
    | with_reducible refine Only.rset (by decide) ?_
    | with_reducible refine Only.pairMod (by decide) ?_

theorem Only.doHeartbeatReceived {m₀ : Nat} {s₀ t₀ : State} {h : Heartbeat} (hm₀ : 0x2D46BB ||| m₀ = m₀)
    (h₀ : Only m₀ s₀ t₀) : Only m₀ s₀ (State.doHeartbeatReceived t₀ h) :=
  h₀.step (Only.doHeartbeatReceived0 t₀ _) hm₀

theorem Only.keyingFail0 (s : State) : Only 0x8000B s (State.keyingFail s) := by
  unfold State.keyingFail
  try dsimp only
  repeat' first
    | with_reducible exact Only.refl _ _
    | with_reducible refine Only.raise (by decide) ?_
    | with_reducible refine Only.pairMod (by decide) ?_

theorem Only.keyingFail {m₀ : Nat} {s₀ t₀ : State}  (hm₀ : 0x8000B ||| m₀ = m₀)
    (h₀ : Only m₀ s₀ t₀) : Only m₀ s₀ (State.keyingFail t₀) :=
  h₀.step (Only.keyingFail0 t₀) hm₀

theorem Only.doHelloTimeout0 (s : State) : Only 0x9000F s (State.doHelloTimeout s) := by
  unfold State.doHelloTimeout
  try dsimp only
  repeat' first
    | with_reducible exact Only.refl _ _
    | with_reducible refine Only.ite ?_ ?_
    | with_reducible refine Only.waitUntil (by decide) ?_
    | with_reducible refine Only.keyingFail (by decide) ?_

theorem Only.doHelloTimeout {m₀ : Nat} {s₀ t₀ : State}  (hm₀ : 0x9000F ||| m₀ = m₀)
    (h₀ : Only m₀ s₀ t₀) : Only m₀ s₀ (State.doHelloTimeout t₀) :=
  h₀.step (Only.doHelloTimeout0 t₀) hm₀

theorem Only.settle0 (s : State) (h : Hello) : Only 0x8040B s (State.settle s h) := by
  unfold State.settle
  try dsimp only
  repeat' first
    | with_reducible exact Only.refl _ _
    | with_reducible refine Only.pairMod (by decide) ?_
    | with_reducible refine Only.roleModes (by decide) ?_

theorem Only.settle {m₀ : Nat} {s₀ t₀ : State} {h : Hello} (hm₀ : 0x8040B ||| m₀ = m₀)
    (h₀ : Only m₀ s₀ t₀) : Only m₀ s₀ (State.settle t₀ h) :=
  h₀.step (Only.settle0 t₀ _) hm₀

theorem Only.sessionKey0 (s : State) (h : Hello) {u₀ : State} (e₀ : (State.sessionKey s h) = some u₀) :
    Only 0x800B s u₀ := by
  unfold State.sessionKey at e₀
  dsimp only at e₀
  split at e₀
  · cases e₀
  · rw [Option.map_eq_some_iff] at e₀
    obtain ⟨i, _, e⟩ := e₀
    cases e
    exact Only.slotPut (by decide) (Only.bumpBy (by decide) (Only.refl _ _))

theorem Only.sessionKey {m₀ : Nat} {s₀ t₀ u₀ : State} {h : Hello} (hm₀ : 0x800B ||| m₀ = m₀) (e₀ :
    (State.sessionKey t₀ h) = some u₀) (h₀ : Only m₀ s₀ t₀) : Only m₀ s₀ u₀ :=
  h₀.step (Only.sessionKey0 t₀ _ e₀) hm₀

theorem Only.doHelloUnitReceived0 (s : State) (h : Hello) : Only 0x887AB s (State.doHelloUnitReceived s h) := by
  unfold State.doHelloUnitReceived
  try dsimp only
  repeat' first
    | with_reducible exact Only.refl _ _
    | with_reducible refine Only.ite ?_ ?_
    | with_reducible refine Only.settle (by decide) ?_
    | with_reducible refine Only.rset (by decide) ?_
    | with_reducible refine Only.portResume (by decide) ?_
    | with_reducible refine Only.sessionKey (by decide) (by with_reducible assumption) ?_
    | with_reducible refine Only.pairMod (by decide) ?_
    | with_reducible refine Only.keyingFail (by decide) ?_
    | split

theorem Only.doHelloUnitReceived {m₀ : Nat} {s₀ t₀ : State} {h : Hello} (hm₀ : 0x887AB ||| m₀ = m₀)
    (h₀ : Only m₀ s₀ t₀) : Only m₀ s₀ (State.doHelloUnitReceived t₀ h) :=
  h₀.step (Only.doHelloUnitReceived0 t₀ _) hm₀

theorem Only.jobMiss0 (s : State) (q j : Nat) : Only 0xB s (State.jobMiss s q j) := by
  unfold State.jobMiss
  try dsimp only
  repeat' first
    | with_reducible exact Only.refl _ _
    | with_reducible refine Only.bump (by decide) ?_
    | with_reducible refine Only.raise (by decide) ?_

theorem Only.jobMiss {m₀ : Nat} {s₀ t₀ : State} {q j : Nat} (hm₀ : 0xB ||| m₀ = m₀)
    (h₀ : Only m₀ s₀ t₀) : Only m₀ s₀ (State.jobMiss t₀ q j) :=
  h₀.step (Only.jobMiss0 t₀ _ _) hm₀

theorem Only.tplMod0 (s : State) (n : Nat) (f : Template → Template) : Only 0x1000 s (State.tplMod s n f) := by
  unfold State.tplMod
  try dsimp only
  repeat' first
    | with_reducible exact Only.refl _ _
    | with_reducible refine Only.setSig (by decide) ?_
    | split

theorem Only.tplMod {m₀ : Nat} {s₀ t₀ : State} {n : Nat} {f : Template → Template} (hm₀ : 0x1000 ||| m₀ = m₀)
    (h₀ : Only m₀ s₀ t₀) : Only m₀ s₀ (State.tplMod t₀ n f) :=
  h₀.step (Only.tplMod0 t₀ _ _) hm₀

theorem Only.updateBit0 (s : State) (m : Mapping) (v : Nat) : Only 0x1000 s (State.updateBit s m v) := by
  unfold State.updateBit
  try dsimp only
  repeat' first
    | with_reducible exact Only.refl _ _
    | with_reducible refine Only.ite ?_ ?_
    | with_reducible refine Only.tplMod (by decide) ?_

theorem Only.updateBit {m₀ : Nat} {s₀ t₀ : State} {m : Mapping} {v : Nat} (hm₀ : 0x1000 ||| m₀ = m₀)
    (h₀ : Only m₀ s₀ t₀) : Only m₀ s₀ (State.updateBit t₀ m v) :=
  h₀.step (Only.updateBit0 t₀ _ _) hm₀

theorem Only.tplSend0 (s : State) (q n start : Nat) (t : Template) (b : List Byte) : Only 0x1C0B s
    (State.tplSend s q n start t b) := by
  unfold State.tplSend
  try dsimp only
  repeat' first
    | with_reducible exact Only.refl _ _
    | with_reducible refine Only.ite ?_ ?_
    | with_reducible refine Only.seqInject (by decide) ?_
    | with_reducible refine Only.linPublish (by decide) ?_
    | with_reducible refine Only.canWrite (by decide) ?_
    | with_reducible refine Only.free2 ?_
    | with_reducible refine Only.tplMod (by decide) ?_

theorem Only.tplSend {m₀ : Nat} {s₀ t₀ : State} {q n start : Nat} {t : Template} {b : List Byte}
    (hm₀ : 0x1C0B ||| m₀ = m₀) (h₀ : Only m₀ s₀ t₀) : Only m₀ s₀ (State.tplSend t₀ q n start t b) :=
  h₀.step (Only.tplSend0 t₀ _ _ _ _ _) hm₀

theorem Only.e2eMod0 (s : State) (c : Nat) (f : E2eCtx → E2eCtx) : Only 0x2000 s (State.e2eMod s c f) := by
  unfold State.e2eMod
  try dsimp only
  repeat' first
    | with_reducible exact Only.refl _ _
    | with_reducible refine Only.putE2e (by decide) ?_

theorem Only.e2eMod {m₀ : Nat} {s₀ t₀ : State} {c : Nat} {f : E2eCtx → E2eCtx} (hm₀ : 0x2000 ||| m₀ = m₀)
    (h₀ : Only m₀ s₀ t₀) : Only m₀ s₀ (State.e2eMod t₀ c f) :=
  h₀.step (Only.e2eMod0 t₀ _ _) hm₀

theorem Only.e2eProtect0 (s : State) (c : Nat) (pdu : List Byte) : Only 0x2000 s (State.e2eProtect s c pdu).2 := by
  unfold State.e2eProtect
  try dsimp only
  repeat' first
    | with_reducible exact Only.refl _ _
    | with_reducible refine Only.e2eMod (by decide) ?_
    | split

theorem Only.e2eProtect {m₀ : Nat} {s₀ t₀ : State} {c : Nat} {pdu : List Byte} (hm₀ : 0x2000 ||| m₀ = m₀)
    (h₀ : Only m₀ s₀ t₀) : Only m₀ s₀ (State.e2eProtect t₀ c pdu).2 :=
  h₀.step (Only.e2eProtect0 t₀ _ _) hm₀

theorem Only.emitTpl0 (s : State) (q start n : Nat) : Only 0x7C0B s (State.emitTpl s q start n) := by
  unfold State.emitTpl
  split
  · exact Only.refl _ _
  · rename_i t _
    have h1 : Only 0x7C0B s (if t.e2e < 1024 then s.e2eProtect t.e2e (t.work.take t.length) else
        (t.work.take t.length, s)).2 :=
      Only.iteSnd (Only.e2eProtect (by decide) (Only.refl _ _)) (Only.refl _ _)
    generalize (if t.e2e < 1024 then s.e2eProtect t.e2e (t.work.take t.length) else (t.work.take t.length, s)) = r at h1 ⊢
    obtain ⟨b, s1⟩ := r
    dsimp -zeta only at h1 ⊢
    have h2 : Only 0x7C0B s (if t.profile < 64 then s1.cipherGenerate t.profile t.keySlot b else (some b, s1)).2 :=
      Only.iteSnd (Only.cipherGenerate (by decide) h1) h1
    generalize (if t.profile < 64 then s1.cipherGenerate t.profile t.keySlot b else (some b, s1)) = r at h2 ⊢
    obtain ⟨b2, s2⟩ := r
    dsimp -zeta only at h2 ⊢
    split
    · exact Only.putE2e (by decide) h2
    · extract_lets ups s3 s4
      exact Only.tplSend (by decide) (Only.bump (by decide) (Only.tplMod (by decide)
        (Only.foldl (fun _ _ h => Only.updateBit (by decide) h) h2)))

theorem Only.emitTpl {m₀ : Nat} {s₀ t₀ : State} {q start n : Nat} (hm₀ : 0x7C0B ||| m₀ = m₀)
    (h₀ : Only m₀ s₀ t₀) : Only m₀ s₀ (State.emitTpl t₀ q start n) :=
  h₀.step (Only.emitTpl0 t₀ _ _ _) hm₀

theorem Only.jobTpl0 (s : State) (q start n : Nat) : Only 0x7C0B s (State.jobTpl s q start n) := by
  unfold State.jobTpl
  try dsimp only
  repeat' first
    | with_reducible exact Only.refl _ _
    | with_reducible refine Only.ite ?_ ?_
    | with_reducible refine Only.emitTpl (by decide) ?_
    | split

theorem Only.jobTpl {m₀ : Nat} {s₀ t₀ : State} {q start n : Nat} (hm₀ : 0x7C0B ||| m₀ = m₀)
    (h₀ : Only m₀ s₀ t₀) : Only m₀ s₀ (State.jobTpl t₀ q start n) :=
  h₀.step (Only.jobTpl0 t₀ _ _ _) hm₀

theorem Only.jobRun0 (s : State) (q start : Nat) (j k : Nat) : Only 0x7C0B s (State.jobRun s q start j k) := by
  unfold State.jobRun
  try dsimp only
  repeat' first
    | with_reducible exact Only.refl _ _
    | with_reducible assumption
    | with_reducible refine Only.jobTpl (by decide) ?_
    | with_reducible refine Only.foldl (fun _ _ _ => ?_) ?_

theorem Only.jobRun {m₀ : Nat} {s₀ t₀ : State} {q start : Nat} {j k : Nat} (hm₀ : 0x7C0B ||| m₀ = m₀)
    (h₀ : Only m₀ s₀ t₀) : Only m₀ s₀ (State.jobRun t₀ q start j k) :=
  h₀.step (Only.jobRun0 t₀ _ _ _ _) hm₀

theorem Only.doJobDeadlineMiss0 (s : State) (q k : Nat) : Only 0x17C0F s (State.doJobDeadlineMiss s q k) := by
  unfold State.doJobDeadlineMiss
  try dsimp only
  repeat' first
    | with_reducible exact Only.refl _ _
    | with_reducible refine Only.ite ?_ ?_
    | with_reducible refine Only.jobMiss (by decide) ?_
    | with_reducible refine Only.seqMod (by decide) ?_
    | with_reducible refine Only.waitUntil (by decide) ?_
    | with_reducible refine Only.jobRun (by decide) ?_
    | split

theorem Only.doJobDeadlineMiss {m₀ : Nat} {s₀ t₀ : State} {q k : Nat} (hm₀ : 0x17C0F ||| m₀ = m₀)
    (h₀ : Only m₀ s₀ t₀) : Only m₀ s₀ (State.doJobDeadlineMiss t₀ q k) :=
  h₀.step (Only.doJobDeadlineMiss0 t₀ _ _) hm₀

theorem Only.helloSend0 (s : State) : Only 0x80000 s (State.helloSend s) := by
  unfold State.helloSend
  try dsimp only
  repeat' first
    | with_reducible exact Only.refl _ _
    | with_reducible refine Only.draw2 ?_
    | with_reducible refine Only.pairMod (by decide) ?_
    | with_reducible refine Only.emit (Nat.zero_or _) ?_

theorem Only.helloSend {m₀ : Nat} {s₀ t₀ : State}  (hm₀ : 0x80000 ||| m₀ = m₀)
    (h₀ : Only m₀ s₀ t₀) : Only m₀ s₀ (State.helloSend t₀) :=
  h₀.step (Only.helloSend0 t₀) hm₀

theorem Only.doKeyingRetry0 (s : State) : Only 0x90004 s (State.doKeyingRetry s) := by
  unfold State.doKeyingRetry
  try dsimp only
  repeat' first
    | with_reducible exact Only.refl _ _
    | with_reducible refine Only.ite ?_ ?_
    | with_reducible refine Only.waitUntil (by decide) ?_
    | with_reducible refine Only.helloSend (by decide) ?_

theorem Only.doKeyingRetry {m₀ : Nat} {s₀ t₀ : State}  (hm₀ : 0x90004 ||| m₀ = m₀)
    (h₀ : Only m₀ s₀ t₀) : Only m₀ s₀ (State.doKeyingRetry t₀) :=
  h₀.step (Only.doKeyingRetry0 t₀) hm₀

theorem Only.doKindleRetry0 (s : State) : Only 0x30005 s (State.doKindleRetry s) := by
  unfold State.doKindleRetry
  try dsimp only
  repeat' first
    | with_reducible exact Only.refl _ _
    | with_reducible refine Only.ite ?_ ?_
    | with_reducible refine Only.startKindle (by decide) ?_
    | with_reducible refine Only.reasonAdd (by decide) ?_
    | with_reducible refine Only.enterPower (by decide) ?_
    | with_reducible refine Only.pwrMod (by decide) ?_
    | with_reducible refine Only.waitUntil (by decide) ?_
    | split

theorem Only.doKindleRetry {m₀ : Nat} {s₀ t₀ : State}  (hm₀ : 0x30005 ||| m₀ = m₀)
    (h₀ : Only m₀ s₀ t₀) : Only m₀ s₀ (State.doKindleRetry t₀) :=
  h₀.step (Only.doKindleRetry0 t₀) hm₀

theorem Only.doKindleTimeout0 (s : State) : Only 0x3FFFFF s (State.doKindleTimeout s) := by
  unfold State.doKindleTimeout
  try dsimp only
  repeat' first
    | with_reducible exact Only.refl _ _
    | with_reducible refine Only.ite ?_ ?_
    | with_reducible refine Only.waitUntil (by decide) ?_
    | with_reducible refine Only.kindleFail (by decide) ?_

theorem Only.doKindleTimeout {m₀ : Nat} {s₀ t₀ : State}  (hm₀ : 0x3FFFFF ||| m₀ = m₀)
    (h₀ : Only m₀ s₀ t₀) : Only m₀ s₀ (State.doKindleTimeout t₀) :=
  h₀.step (Only.doKindleTimeout0 t₀) hm₀

theorem Only.doLinWake0 (s : State) (l : Nat) : Only 0x3000F s (State.doLinWake s l) := by
  unfold State.doLinWake
  try dsimp only
  repeat' first
    | with_reducible exact Only.refl _ _
    | with_reducible refine Only.ite ?_ ?_
    | with_reducible refine Only.wakeFire (by decide) ?_

theorem Only.doLinWake {m₀ : Nat} {s₀ t₀ : State} {l : Nat} (hm₀ : 0x3000F ||| m₀ = m₀)
    (h₀ : Only m₀ s₀ t₀) : Only m₀ s₀ (State.doLinWake t₀ l) :=
  h₀.step (Only.doLinWake0 t₀ _) hm₀

theorem Only.mapWrite0 (s : State) (m : Mapping) (v : Nat) : Only 0x1000 s (State.mapWrite s m v) := by
  unfold State.mapWrite
  try dsimp only
  repeat' first
    | with_reducible exact Only.refl _ _
    | with_reducible refine Only.tplMod (by decide) ?_

theorem Only.mapWrite {m₀ : Nat} {s₀ t₀ : State} {m : Mapping} {v : Nat} (hm₀ : 0x1000 ||| m₀ = m₀)
    (h₀ : Only m₀ s₀ t₀) : Only m₀ s₀ (State.mapWrite t₀ m v) :=
  h₀.step (Only.mapWrite0 t₀ _ _) hm₀

theorem Only.mapMod0 (s : State) (n : Nat) (f : Mapping → Mapping) : Only 0x1000 s (State.mapMod s n f) := by
  unfold State.mapMod
  try dsimp only
  repeat' first
    | with_reducible exact Only.refl _ _
    | with_reducible refine Only.setSig (by decide) ?_
    | split

theorem Only.mapMod {m₀ : Nat} {s₀ t₀ : State} {n : Nat} {f : Mapping → Mapping} (hm₀ : 0x1000 ||| m₀ = m₀)
    (h₀ : Only m₀ s₀ t₀) : Only m₀ s₀ (State.mapMod t₀ n f) :=
  h₀.step (Only.mapMod0 t₀ _ _) hm₀

theorem Only.doMappingTimeout0 (s : State) (n : Nat) : Only 0x1100F s (State.doMappingTimeout s n) := by
  unfold State.doMappingTimeout
  try dsimp only
  repeat' first
    | with_reducible exact Only.refl _ _
    | with_reducible assumption
    | with_reducible refine Only.ite ?_ ?_
    | with_reducible refine Only.bump (by decide) ?_
    | with_reducible refine Only.mapWrite (by decide) ?_
    | with_reducible refine Only.updateBit (by decide) ?_
    | with_reducible refine Only.raise (by decide) ?_
    | with_reducible refine Only.waitUntil (by decide) ?_
    | with_reducible refine Only.mapMod (by decide) ?_
    | with_reducible refine Only.foldl (fun _ _ _ => ?_) ?_
    | split

theorem Only.doMappingTimeout {m₀ : Nat} {s₀ t₀ : State} {n : Nat} (hm₀ : 0x1100F ||| m₀ = m₀)
    (h₀ : Only m₀ s₀ t₀) : Only m₀ s₀ (State.doMappingTimeout t₀ n) :=
  h₀.step (Only.doMappingTimeout0 t₀ _) hm₀

theorem Only.doMinimumOffTimeEnd0 (s : State) : Only 0x3000F s (State.doMinimumOffTimeEnd s) := by
  unfold State.doMinimumOffTimeEnd
  try dsimp only
  repeat' first
    | with_reducible exact Only.refl _ _
    | with_reducible refine Only.ite ?_ ?_
    | with_reducible refine Only.wakeStart (by decide) ?_
    | with_reducible refine Only.pwrMod (by decide) ?_
    | with_reducible refine Only.waitUntil (by decide) ?_
    | with_reducible refine Only.lateWake (by decide) ?_
    | split

theorem Only.doMinimumOffTimeEnd {m₀ : Nat} {s₀ t₀ : State}  (hm₀ : 0x3000F ||| m₀ = m₀)
    (h₀ : Only m₀ s₀ t₀) : Only m₀ s₀ (State.doMinimumOffTimeEnd t₀) :=
  h₀.step (Only.doMinimumOffTimeEnd0 t₀) hm₀

theorem Only.doMirrorMessageReceived0 (s : State) (m : MirrorMsg) (tagOk : Bool) : Only 0xE46AB s
    (State.doMirrorMessageReceived s m tagOk) := by
  unfold State.doMirrorMessageReceived
  try dsimp only
  repeat' first
    | with_reducible exact Only.refl _ _
    | with_reducible refine Only.ite ?_ ?_
    | with_reducible refine Only.bump (by decide) ?_
    | with_reducible refine Only.applyMirror (by decide) ?_

theorem Only.doMirrorMessageReceived {m₀ : Nat} {s₀ t₀ : State} {m : MirrorMsg} {tagOk : Bool}
    (hm₀ : 0xE46AB ||| m₀ = m₀) (h₀ : Only m₀ s₀ t₀) : Only m₀ s₀ (State.doMirrorMessageReceived t₀ m tagOk) :=
  h₀.step (Only.doMirrorMessageReceived0 t₀ _ _) hm₀

theorem Only.doPartnerLoss0 (s : State) : Only 0x2D461F s (State.doPartnerLoss s) := by
  unfold State.doPartnerLoss
  try dsimp only
  repeat' first
    | with_reducible exact Only.refl _ _
    | with_reducible refine Only.ite ?_ ?_
    | with_reducible refine Only.missCount (by decide) ?_
    | with_reducible refine Only.roleDone (by decide) ?_
    | with_reducible refine Only.takeover (by decide) ?_
    | with_reducible refine Only.raise (by decide) ?_
    | with_reducible refine Only.waitUntil (by decide) ?_
    | with_reducible refine Only.pairMod (by decide) ?_
    | with_reducible refine Only.nmMod (by decide) ?_

theorem Only.doPartnerLoss {m₀ : Nat} {s₀ t₀ : State}  (hm₀ : 0x2D461F ||| m₀ = m₀)
    (h₀ : Only m₀ s₀ t₀) : Only m₀ s₀ (State.doPartnerLoss t₀) :=
  h₀.step (Only.doPartnerLoss0 t₀) hm₀

theorem Only.doPgTimeout0 (s : State) : Only 0x3FFFFF s (State.doPgTimeout s) := by
  unfold State.doPgTimeout
  try dsimp only
  repeat' first
    | with_reducible exact Only.refl _ _
    | with_reducible refine Only.ite ?_ ?_
    | with_reducible refine Only.waitUntil (by decide) ?_
    | with_reducible refine Only.kindleFail (by decide) ?_

theorem Only.doPgTimeout {m₀ : Nat} {s₀ t₀ : State}  (hm₀ : 0x3FFFFF ||| m₀ = m₀)
    (h₀ : Only m₀ s₀ t₀) : Only m₀ s₀ (State.doPgTimeout t₀) :=
  h₀.step (Only.doPgTimeout0 t₀) hm₀

theorem Only.doProbationEnd0 (s : State) (d : Nat) : Only 0x110004 s (State.doProbationEnd s d) := by
  unfold State.doProbationEnd
  try dsimp only
  repeat' first
    | with_reducible exact Only.refl _ _
    | with_reducible refine Only.ite ?_ ?_
    | with_reducible refine Only.fmodDom (by decide) ?_
    | with_reducible refine Only.waitUntil (by decide) ?_

theorem Only.doProbationEnd {m₀ : Nat} {s₀ t₀ : State} {d : Nat} (hm₀ : 0x110004 ||| m₀ = m₀)
    (h₀ : Only m₀ s₀ t₀) : Only m₀ s₀ (State.doProbationEnd t₀ d) :=
  h₀.step (Only.doProbationEnd0 t₀ _) hm₀

theorem Only.doPwrGoodFall0 (s : State) : Only 0x3FFFFF s (State.doPwrGoodFall s) := by
  unfold State.doPwrGoodFall
  try dsimp only
  repeat' first
    | with_reducible exact Only.refl _ _
    | with_reducible refine Only.ite ?_ ?_
    | with_reducible refine Only.kindleFail (by decide) ?_

theorem Only.doPwrGoodFall {m₀ : Nat} {s₀ t₀ : State}  (hm₀ : 0x3FFFFF ||| m₀ = m₀)
    (h₀ : Only m₀ s₀ t₀) : Only m₀ s₀ (State.doPwrGoodFall t₀) :=
  h₀.step (Only.doPwrGoodFall0 t₀) hm₀

theorem Only.doPwrGoodRise0 (s : State) : Only 0x3FFFFF s (State.doPwrGoodRise s) := by
  unfold State.doPwrGoodRise
  try dsimp only
  repeat' first
    | with_reducible exact Only.refl _ _
    | with_reducible refine Only.ite ?_ ?_
    | with_reducible refine Only.pwrMod (by decide) ?_
    | with_reducible refine Only.kindleFail (by decide) ?_

theorem Only.doPwrGoodRise {m₀ : Nat} {s₀ t₀ : State}  (hm₀ : 0x3FFFFF ||| m₀ = m₀)
    (h₀ : Only m₀ s₀ t₀) : Only m₀ s₀ (State.doPwrGoodRise t₀) :=
  h₀.step (Only.doPwrGoodRise0 t₀) hm₀

theorem Only.doRecoveryBudgetExpiry0 (s : State) (d : Nat) : Only 0x3FFFFF s (State.doRecoveryBudgetExpiry s d) := by
  unfold State.doRecoveryBudgetExpiry
  try dsimp only
  repeat' first
    | with_reducible exact Only.refl _ _
    | with_reducible refine Only.ite ?_ ?_
    | with_reducible refine Only.escalate (by decide) ?_
    | with_reducible refine Only.waitUntil (by decide) ?_

theorem Only.doRecoveryBudgetExpiry {m₀ : Nat} {s₀ t₀ : State} {d : Nat} (hm₀ : 0x3FFFFF ||| m₀ = m₀)
    (h₀ : Only m₀ s₀ t₀) : Only m₀ s₀ (State.doRecoveryBudgetExpiry t₀ d) :=
  h₀.step (Only.doRecoveryBudgetExpiry0 t₀ _) hm₀

theorem Only.portsBack0 (s : State) (ps : List Nat) : Only 0x3AB s (State.portsBack s ps) := by
  unfold State.portsBack
  try dsimp only
  repeat' first
    | with_reducible exact Only.refl _ _
    | with_reducible assumption
    | with_reducible refine Only.ite ?_ ?_
    | with_reducible refine Only.portResume (by decide) ?_
    | with_reducible refine Only.foldl (fun _ _ _ => ?_) ?_

theorem Only.portsBack {m₀ : Nat} {s₀ t₀ : State} {ps : List Nat} (hm₀ : 0x3AB ||| m₀ = m₀)
    (h₀ : Only m₀ s₀ t₀) : Only m₀ s₀ (State.portsBack t₀ ps) :=
  h₀.step (Only.portsBack0 t₀ _) hm₀

theorem Only.handlesRecover0 (s : State) : Only 0x800AB s (State.handlesRecover s) := by
  unfold State.handlesRecover
  try dsimp only
  repeat' first
    | with_reducible exact Only.refl _ _
    | with_reducible refine Only.activationMissed (by decide) ?_
    | with_reducible refine Only.setCal (by decide) ?_

theorem Only.handlesRecover {m₀ : Nat} {s₀ t₀ : State}  (hm₀ : 0x800AB ||| m₀ = m₀)
    (h₀ : Only m₀ s₀ t₀) : Only m₀ s₀ (State.handlesRecover t₀) :=
  h₀.step (Only.handlesRecover0 t₀) hm₀

theorem Only.evqDisable0 (s : State) (h : Nat) : Only 0x9 s (State.evqDisable s h) := by
  unfold State.evqDisable
  try dsimp only
  repeat' first
    | with_reducible exact Only.refl _ _
    | with_reducible refine Only.ite ?_ ?_
    | with_reducible refine Only.rsetF (by decide) ?_
    | with_reducible refine Only.heldDrop (by decide) ?_

theorem Only.evqDisable {m₀ : Nat} {s₀ t₀ : State} {h : Nat} (hm₀ : 0x9 ||| m₀ = m₀)
    (h₀ : Only m₀ s₀ t₀) : Only m₀ s₀ (State.evqDisable t₀ h) :=
  h₀.step (Only.evqDisable0 t₀ _) hm₀

theorem Only.rxDisable0 (s : State) (n : Nat) : Only 0x1003AB s (State.rxDisable s n) := by
  unfold State.rxDisable
  try dsimp only
  repeat' first
    | with_reducible exact Only.refl _ _
    | with_reducible assumption
    | with_reducible refine Only.rxMod (by decide) ?_
    | with_reducible refine Only.ringDrop (by decide) ?_
    | with_reducible refine Only.rsetF (by decide) ?_
    | with_reducible refine Only.ringRewind (by decide) ?_
    | with_reducible refine Only.heldDrop (by decide) ?_
    | with_reducible refine Only.foldl (fun _ _ _ => ?_) ?_

theorem Only.rxDisable {m₀ : Nat} {s₀ t₀ : State} {n : Nat} (hm₀ : 0x1003AB ||| m₀ = m₀)
    (h₀ : Only m₀ s₀ t₀) : Only m₀ s₀ (State.rxDisable t₀ n) :=
  h₀.step (Only.rxDisable0 t₀ _) hm₀

theorem Only.txDisable0 (s : State) (n : Nat) : Only 0x9 s (State.txDisable s n) := by
  unfold State.txDisable
  try dsimp only
  repeat' first
    | with_reducible exact Only.refl _ _
    | with_reducible refine Only.rsetF (by decide) ?_
    | with_reducible refine Only.heldDrop (by decide) ?_

theorem Only.txDisable {m₀ : Nat} {s₀ t₀ : State} {n : Nat} (hm₀ : 0x9 ||| m₀ = m₀)
    (h₀ : Only m₀ s₀ t₀) : Only m₀ s₀ (State.txDisable t₀ n) :=
  h₀.step (Only.txDisable0 t₀ _) hm₀

theorem Only.hostQueuesOff0 (s : State) : Only 0x1003AB s (State.hostQueuesOff s) := by
  unfold State.hostQueuesOff
  try dsimp only
  repeat' first
    | with_reducible exact Only.refl _ _
    | with_reducible assumption
    | with_reducible refine Only.rxDisable (by decide) ?_
    | with_reducible refine Only.txDisable (by decide) ?_
    | with_reducible refine Only.rsetF (by decide) ?_
    | with_reducible refine Only.heldDrop (by decide) ?_
    | with_reducible refine Only.evqDisable (by decide) ?_
    | with_reducible refine Only.foldl (fun _ _ _ => ?_) ?_

theorem Only.hostQueuesOff {m₀ : Nat} {s₀ t₀ : State}  (hm₀ : 0x1003AB ||| m₀ = m₀)
    (h₀ : Only m₀ s₀ t₀) : Only m₀ s₀ (State.hostQueuesOff t₀) :=
  h₀.step (Only.hostQueuesOff0 t₀) hm₀

theorem Only.hostRecover0 (s : State) : Only 0x1003AB s (State.hostRecover s) := by
  unfold State.hostRecover
  try dsimp only
  repeat' first
    | with_reducible exact Only.refl _ _
    | with_reducible assumption
    | with_reducible refine Only.setHif (by decide) ?_
    | with_reducible refine Only.pwfNow (by decide) ?_
    | with_reducible refine Only.evqDisable (by decide) ?_
    | with_reducible refine Only.hostQueuesOff (by decide) ?_
    | with_reducible refine Only.foldl (fun _ _ _ => ?_) ?_

theorem Only.hostRecover {m₀ : Nat} {s₀ t₀ : State}  (hm₀ : 0x1003AB ||| m₀ = m₀)
    (h₀ : Only m₀ s₀ t₀) : Only m₀ s₀ (State.hostRecover t₀) :=
  h₀.step (Only.hostRecover0 t₀) hm₀

theorem Only.dynamicsOff0 (s : State) : Only 0x4B s (State.dynamicsOff s) := by
  unfold State.dynamicsOff
  try dsimp only
  repeat' first
    | with_reducible exact Only.refl _ _
    | with_reducible refine Only.setFwd (by decide) ?_
    | with_reducible refine Only.emFreed (by decide) ?_

theorem Only.dynamicsOff {m₀ : Nat} {s₀ t₀ : State}  (hm₀ : 0x4B ||| m₀ = m₀)
    (h₀ : Only m₀ s₀ t₀) : Only m₀ s₀ (State.dynamicsOff t₀) :=
  h₀.step (Only.dynamicsOff0 t₀) hm₀

theorem Only.linkStart0 (s : State) : Only 0x80000 s (State.linkStart s) := by
  unfold State.linkStart
  try dsimp only
  repeat' first
    | with_reducible exact Only.refl _ _
    | with_reducible refine Only.ite ?_ ?_
    | with_reducible refine Only.pairMod (by decide) ?_
    | with_reducible refine Only.helloSend (by decide) ?_

theorem Only.linkStart {m₀ : Nat} {s₀ t₀ : State}  (hm₀ : 0x80000 ||| m₀ = m₀)
    (h₀ : Only m₀ s₀ t₀) : Only m₀ s₀ (State.linkStart t₀) :=
  h₀.step (Only.linkStart0 t₀) hm₀

theorem Only.recoverEffect0 (s : State) (d : Nat) : Only 0x3A7FFB s (State.recoverEffect s d) := by
  have r : Only 0x3A7FFB s s := Only.refl _ _
  unfold State.recoverEffect
  split
  · exact Only.pwrMod (by decide) r
  · exact Only.hostRecover (by decide) r
  · exact Only.handlesRecover (by decide) (Only.rebuildJournal (by decide) (Only.setFnc (by decide)
      (Only.pairMod (by decide) (Only.setMbx (by decide) r))))
  · exact Only.ite (Only.dynamicsOff (by decide) r) r
  · exact Only.ite (Only.dynamicsOff (by decide) r) r
  · exact Only.setBuf (by decide) r
  · exact Only.calResume (by decide) r
  · exact Only.t1sSync (by decide) (Only.setEdg (by decide) (Only.foldl (fun _ _ h => Only.busRecover (by decide) h) r))
  · exact Only.putE2e (by decide) (Only.setSig (by decide) (Only.setTun (by decide) r))
  · exact Only.setMbx (by decide) r
  · split
    · exact Only.ite (Only.linkStart (by decide) r) (Only.ite r (Only.portResume (by decide) r))
    · exact Only.busRecover (by decide) r
    · exact Only.tunMod (by decide) r
    · exact Only.e2eMod (by decide) r
    · exact r

theorem Only.recoverEffect {m₀ : Nat} {s₀ t₀ : State} {d : Nat} (hm₀ : 0x3A7FFB ||| m₀ = m₀)
    (h₀ : Only m₀ s₀ t₀) : Only m₀ s₀ (State.recoverEffect t₀ d) :=
  h₀.step (Only.recoverEffect0 t₀ _) hm₀

theorem Only.release0 (s : State) (d : Nat) : Only 0x3A7FFB s (State.release s d) := by
  unfold State.release
  try dsimp only
  repeat' first
    | with_reducible exact Only.refl _ _
    | with_reducible assumption
    | with_reducible refine Only.ite ?_ ?_
    | with_reducible refine Only.portsBack (by decide) ?_
    | with_reducible refine Only.fmodDom (by decide) ?_
    | with_reducible refine Only.fenceEvent (by decide) ?_
    | with_reducible refine Only.finishCmd (by decide) ?_
    | with_reducible refine Only.postAll (by decide) ?_
    | with_reducible refine Only.recoverEffect (by decide) ?_
    | with_reducible refine Only.dynamicsOff (by decide) ?_
    | with_reducible refine Only.foldl (fun _ _ _ => ?_) ?_

theorem Only.release {m₀ : Nat} {s₀ t₀ : State} {d : Nat} (hm₀ : 0x3A7FFB ||| m₀ = m₀)
    (h₀ : Only m₀ s₀ t₀) : Only m₀ s₀ (State.release t₀ d) :=
  h₀.step (Only.release0 t₀ _) hm₀

theorem Only.doRecoveryDone0 (s : State) (d : Nat) (ok : Bool) : Only 0x3A7FFB s (State.doRecoveryDone s d ok) := by
  unfold State.doRecoveryDone
  try dsimp only
  repeat' first
    | with_reducible exact Only.refl _ _
    | with_reducible refine Only.ite ?_ ?_
    | with_reducible refine Only.fmodDom (by decide) ?_
    | with_reducible refine Only.release (by decide) ?_

theorem Only.doRecoveryDone {m₀ : Nat} {s₀ t₀ : State} {d : Nat} {ok : Bool} (hm₀ : 0x3A7FFB ||| m₀ = m₀)
    (h₀ : Only m₀ s₀ t₀) : Only m₀ s₀ (State.doRecoveryDone t₀ d ok) :=
  h₀.step (Only.doRecoveryDone0 t₀ _ _) hm₀

theorem Only.recoveryBegin0 (s : State) (d : Nat) (cmd : Bool) (budgetAt : Nat) : Only 0x100000 s
    (State.recoveryBegin s d cmd budgetAt) := by
  unfold State.recoveryBegin
  try dsimp only
  repeat' first
    | with_reducible exact Only.refl _ _
    | with_reducible refine Only.fmodDom (by decide) ?_

theorem Only.recoveryBegin {m₀ : Nat} {s₀ t₀ : State} {d : Nat} {cmd : Bool} {budgetAt : Nat}
    (hm₀ : 0x100000 ||| m₀ = m₀) (h₀ : Only m₀ s₀ t₀) : Only m₀ s₀ (State.recoveryBegin t₀ d cmd budgetAt) :=
  h₀.step (Only.recoveryBegin0 t₀ _ _ _) hm₀

theorem Only.doRecoveryStart0 (s : State) (d : Nat) : Only 0x3FFFFF s (State.doRecoveryStart s d) := by
  unfold State.doRecoveryStart
  try dsimp only
  repeat' first
    | with_reducible exact Only.refl _ _
    | with_reducible refine Only.ite ?_ ?_
    | with_reducible refine Only.recoveryBegin (by decide) ?_
    | with_reducible refine Only.bump (by decide) ?_
    | with_reducible refine Only.quench (by decide) ?_
    | with_reducible refine Only.escalate (by decide) ?_
    | with_reducible refine Only.fenceEvent (by decide) ?_

theorem Only.doRecoveryStart {m₀ : Nat} {s₀ t₀ : State} {d : Nat} (hm₀ : 0x3FFFFF ||| m₀ = m₀)
    (h₀ : Only m₀ s₀ t₀) : Only m₀ s₀ (State.doRecoveryStart t₀ d) :=
  h₀.step (Only.doRecoveryStart0 t₀ _) hm₀

theorem Only.doResidentVerifyDone0 (s : State) (ok : Bool) : Only 0x800BB s (State.doResidentVerifyDone s ok) := by
  unfold State.doResidentVerifyDone
  try dsimp only
  repeat' first
    | with_reducible exact Only.refl _ _
    | with_reducible refine Only.ite ?_ ?_
    | with_reducible refine Only.handlesRecover (by decide) ?_
    | with_reducible refine Only.setMbx (by decide) ?_
    | with_reducible refine Only.raise (by decide) ?_
    | with_reducible refine Only.rebuildJournal (by decide) ?_

theorem Only.doResidentVerifyDone {m₀ : Nat} {s₀ t₀ : State} {ok : Bool} (hm₀ : 0x800BB ||| m₀ = m₀)
    (h₀ : Only m₀ s₀ t₀) : Only m₀ s₀ (State.doResidentVerifyDone t₀ ok) :=
  h₀.step (Only.doResidentVerifyDone0 t₀ _) hm₀

theorem Only.doRouterJobRelease0 (s : State) (n : Nat) : Only 0x11004 s (State.doRouterJobRelease s n) := by
  unfold State.doRouterJobRelease
  try dsimp only
  repeat' first
    | with_reducible exact Only.refl _ _
    | with_reducible refine Only.ite ?_ ?_
    | with_reducible refine Only.calReach (by decide) (by with_reducible assumption) ?_
    | with_reducible refine Only.seqMod (by decide) ?_
    | split

theorem Only.doRouterJobRelease {m₀ : Nat} {s₀ t₀ : State} {n : Nat} (hm₀ : 0x11004 ||| m₀ = m₀)
    (h₀ : Only m₀ s₀ t₀) : Only m₀ s₀ (State.doRouterJobRelease t₀ n) :=
  h₀.step (Only.doRouterJobRelease0 t₀ _) hm₀

theorem Only.swGood0 (s : State) (ch : Nat) : Only 0x20000 s (State.swGood s ch) := by
  unfold State.swGood
  try dsimp only
  repeat' first
    | with_reducible exact Only.refl _ _
    | with_reducible refine Only.pwrMod (by decide) ?_

theorem Only.swGood {m₀ : Nat} {s₀ t₀ : State} {ch : Nat} (hm₀ : 0x20000 ||| m₀ = m₀)
    (h₀ : Only m₀ s₀ t₀) : Only m₀ s₀ (State.swGood t₀ ch) :=
  h₀.step (Only.swGood0 t₀ _) hm₀

theorem Only.doSelectiveWakeFrame0 (s : State) (ch : Nat) (f : CanFrame) : Only 0x3000F s
    (State.doSelectiveWakeFrame s ch f) := by
  unfold State.doSelectiveWakeFrame
  try dsimp only
  repeat' first
    | with_reducible exact Only.refl _ _
    | with_reducible refine Only.ite ?_ ?_
    | with_reducible refine Only.swGood (by decide) ?_
    | with_reducible refine Only.wakeFire (by decide) ?_
    | with_reducible refine Only.pwrMod (by decide) ?_
    | split

theorem Only.doSelectiveWakeFrame {m₀ : Nat} {s₀ t₀ : State} {ch : Nat} {f : CanFrame} (hm₀ : 0x3000F ||| m₀ = m₀)
    (h₀ : Only m₀ s₀ t₀) : Only m₀ s₀ (State.doSelectiveWakeFrame t₀ ch f) :=
  h₀.step (Only.doSelectiveWakeFrame0 t₀ _ _) hm₀

theorem Only.e2eCheck0 (s : State) (c : Nat) (pdu : List Byte) : Only 0x200B s (State.e2eCheck s c pdu).2 := by
  unfold State.e2eCheck
  try dsimp only
  repeat' first
    | with_reducible exact Only.refl _ _
    | with_reducible refine Only.bump (by decide) ?_
    | with_reducible refine Only.bumpView (by decide) ?_
    | with_reducible refine Only.raiseLimited (by decide) ?_
    | with_reducible refine Only.e2eMod (by decide) ?_
    | split

theorem Only.e2eCheck {m₀ : Nat} {s₀ t₀ : State} {c : Nat} {pdu : List Byte} (hm₀ : 0x200B ||| m₀ = m₀)
    (h₀ : Only m₀ s₀ t₀) : Only m₀ s₀ (State.e2eCheck t₀ c pdu).2 :=
  h₀.step (Only.e2eCheck0 t₀ _ _) hm₀

theorem Only.mapFresh0 (s : State) (n : Nat) : Only 0x1000 s (State.mapFresh s n) := by
  unfold State.mapFresh
  try dsimp only
  repeat' first
    | with_reducible exact Only.refl _ _
    | with_reducible refine Only.mapMod (by decide) ?_

theorem Only.mapFresh {m₀ : Nat} {s₀ t₀ : State} {n : Nat} (hm₀ : 0x1000 ||| m₀ = m₀)
    (h₀ : Only m₀ s₀ t₀) : Only m₀ s₀ (State.mapFresh t₀ n) :=
  h₀.step (Only.mapFresh0 t₀ _) hm₀

theorem Only.mapOrdinary0 (s : State) (data : List Byte) (p : SrcPdu) : Only 0x100B s (State.mapOrdinary s data p).2 := by
  unfold State.mapOrdinary
  try dsimp only
  repeat' first
    | with_reducible exact Only.refl _ _
    | with_reducible assumption
    | with_reducible refine Only.bump (by decide) ?_
    | with_reducible refine Only.mapWrite (by decide) ?_
    | with_reducible refine Only.mapFresh (by decide) ?_
    | with_reducible refine Only.updateBit (by decide) ?_
    | with_reducible refine Only.foldlSnd (fun _ _ _ _ => ?_) ?_
    | split

theorem Only.mapOrdinary {m₀ : Nat} {s₀ t₀ : State} {data : List Byte} {p : SrcPdu} (hm₀ : 0x100B ||| m₀ = m₀)
    (h₀ : Only m₀ s₀ t₀) : Only m₀ s₀ (State.mapOrdinary t₀ data p).2 :=
  h₀.step (Only.mapOrdinary0 t₀ _ _) hm₀

theorem Only.mapStatus0 (s : State) (r : Nat) (p : SrcPdu) : Only 0x1000 s (State.mapStatus s r p).2 := by
  unfold State.mapStatus
  try dsimp only
  repeat' first
    | with_reducible exact Only.refl _ _
    | with_reducible assumption
    | with_reducible refine Only.mapWrite (by decide) ?_
    | with_reducible refine Only.mapFresh (by decide) ?_
    | with_reducible refine Only.foldlSnd (fun _ _ _ _ => ?_) ?_
    | split

theorem Only.mapStatus {m₀ : Nat} {s₀ t₀ : State} {r : Nat} {p : SrcPdu} (hm₀ : 0x1000 ||| m₀ = m₀)
    (h₀ : Only m₀ s₀ t₀) : Only m₀ s₀ (State.mapStatus t₀ r p).2 :=
  h₀.step (Only.mapStatus0 t₀ _ _) hm₀

theorem Only.doSigExtraction0 (s : State) (q : Nat) : Only 0x7C0B s (State.doSigExtraction s q) := by
  unfold State.doSigExtraction
  try dsimp only
  repeat' first
    | with_reducible exact Only.refl _ _
    | with_reducible assumption
    | with_reducible refine Only.ite ?_ ?_
    | with_reducible refine Only.e2eCheck (by decide) ?_
    | with_reducible refine Only.bump (by decide) ?_
    | with_reducible refine Only.mapOrdinary (by decide) ?_
    | with_reducible refine Only.rxTakeSeq (by decide) ?_
    | with_reducible refine Only.seqMod (by decide) ?_
    | with_reducible refine Only.mapStatus (by decide) ?_
    | with_reducible refine Only.emitTpl (by decide) ?_
    | with_reducible refine Only.foldl (fun _ _ _ => ?_) ?_
    | split

theorem Only.doSigExtraction {m₀ : Nat} {s₀ t₀ : State} {q : Nat} (hm₀ : 0x7C0B ||| m₀ = m₀)
    (h₀ : Only m₀ s₀ t₀) : Only m₀ s₀ (State.doSigExtraction t₀ q) :=
  h₀.step (Only.doSigExtraction0 t₀ _) hm₀

theorem Only.doSigJobRun0 (s : State) (q : Nat) : Only 0x7C0B s (State.doSigJobRun s q) := by
  unfold State.doSigJobRun
  try dsimp only
  repeat' first
    | with_reducible exact Only.refl _ _
    | with_reducible refine Only.ite ?_ ?_
    | with_reducible refine Only.jobMiss (by decide) ?_
    | with_reducible refine Only.seqMod (by decide) ?_
    | with_reducible refine Only.jobRun (by decide) ?_
    | split

theorem Only.doSigJobRun {m₀ : Nat} {s₀ t₀ : State} {q : Nat} (hm₀ : 0x7C0B ||| m₀ = m₀)
    (h₀ : Only m₀ s₀ t₀) : Only m₀ s₀ (State.doSigJobRun t₀ q) :=
  h₀.step (Only.doSigJobRun0 t₀ _) hm₀

theorem Only.xcvrForceAll0 (s : State) : Only 0x21041F s (State.xcvrForceAll s) := by
  unfold State.xcvrForceAll
  try dsimp only
  repeat' first
    | with_reducible exact Only.refl _ _
    | with_reducible assumption
    | with_reducible refine Only.ite ?_ ?_
    | with_reducible refine Only.doXcvrModeForced (by decide) ?_
    | with_reducible refine Only.foldl (fun _ _ _ => ?_) ?_

theorem Only.xcvrForceAll {m₀ : Nat} {s₀ t₀ : State}  (hm₀ : 0x21041F ||| m₀ = m₀)
    (h₀ : Only m₀ s₀ t₀) : Only m₀ s₀ (State.xcvrForceAll t₀) :=
  h₀.step (Only.xcvrForceAll0 t₀) hm₀

theorem Only.doSleepEntry0 (s : State) (restoreMib residentMib : Nat) : Only 0x3FFFFF s
    (State.doSleepEntry s restoreMib residentMib) := by
  unfold State.doSleepEntry
  try dsimp only
  repeat' first
    | with_reducible exact Only.refl _ _
    | with_reducible refine Only.ite ?_ ?_
    | with_reducible refine Only.draw2 ?_
    | with_reducible refine Only.xcvrForceAll (by decide) ?_
    | with_reducible refine Only.bankedImage (by decide) ?_
    | with_reducible refine Only.enterPower (by decide) ?_
    | with_reducible refine Only.logUpdateAll (by decide) ?_
    | with_reducible refine Only.pwrMod (by decide) ?_
    | with_reducible refine Only.waitUntil (by decide) ?_
    | with_reducible refine Only.forgeLost (by decide) ?_
    | with_reducible refine Only.setKey (by decide) ?_
    | split

theorem Only.doSleepEntry {m₀ : Nat} {s₀ t₀ : State} {restoreMib residentMib : Nat} (hm₀ : 0x3FFFFF ||| m₀ = m₀)
    (h₀ : Only m₀ s₀ t₀) : Only m₀ s₀ (State.doSleepEntry t₀ restoreMib residentMib) :=
  h₀.step (Only.doSleepEntry0 t₀ _ _) hm₀

theorem Only.doSwDecodeError0 (s : State) (ch : Nat) (error : Bool) : Only 0x3000F s (State.doSwDecodeError s ch error) := by
  unfold State.doSwDecodeError
  try dsimp only
  repeat' first
    | with_reducible exact Only.refl _ _
    | with_reducible refine Only.ite ?_ ?_
    | with_reducible refine Only.swGood (by decide) ?_
    | with_reducible refine Only.wakeFire (by decide) ?_
    | with_reducible refine Only.pwrMod (by decide) ?_

theorem Only.doSwDecodeError {m₀ : Nat} {s₀ t₀ : State} {ch : Nat} {error : Bool} (hm₀ : 0x3000F ||| m₀ = m₀)
    (h₀ : Only m₀ s₀ t₀) : Only m₀ s₀ (State.doSwDecodeError t₀ ch error) :=
  h₀.step (Only.doSwDecodeError0 t₀ _ _) hm₀

theorem Only.doSwIdleTimeout0 (s : State) : Only 0x30004 s (State.doSwIdleTimeout s) := by
  unfold State.doSwIdleTimeout
  try dsimp only
  repeat' first
    | with_reducible exact Only.refl _ _
    | with_reducible refine Only.ite ?_ ?_
    | with_reducible refine Only.pwrMod (by decide) ?_
    | with_reducible refine Only.waitUntil (by decide) ?_

theorem Only.doSwIdleTimeout {m₀ : Nat} {s₀ t₀ : State}  (hm₀ : 0x30004 ||| m₀ = m₀)
    (h₀ : Only m₀ s₀ t₀) : Only m₀ s₀ (State.doSwIdleTimeout t₀) :=
  h₀.step (Only.doSwIdleTimeout0 t₀) hm₀

theorem Only.doSwOscillatorStart0 (s : State) (ch : Nat) : Only 0x20000 s (State.doSwOscillatorStart s ch) := by
  unfold State.doSwOscillatorStart
  try dsimp only
  repeat' first
    | with_reducible exact Only.refl _ _
    | with_reducible refine Only.ite ?_ ?_
    | with_reducible refine Only.pwrMod (by decide) ?_

theorem Only.doSwOscillatorStart {m₀ : Nat} {s₀ t₀ : State} {ch : Nat} (hm₀ : 0x20000 ||| m₀ = m₀)
    (h₀ : Only m₀ s₀ t₀) : Only m₀ s₀ (State.doSwOscillatorStart t₀ ch) :=
  h₀.step (Only.doSwOscillatorStart0 t₀ _) hm₀

theorem Only.syncFinish0 (s : State) (t : Nat) : Only 0x8002B s (State.syncFinish s t) := by
  unfold State.syncFinish
  try dsimp only
  repeat' first
    | with_reducible exact Only.refl _ _
    | with_reducible refine Only.ite ?_ ?_
    | with_reducible refine Only.syncFail (by decide) ?_
    | with_reducible refine Only.syncDone (by decide) ?_
    | with_reducible refine Only.schedule (by decide) ?_
    | with_reducible refine Only.pairMod (by decide) ?_
    | split

theorem Only.syncFinish {m₀ : Nat} {s₀ t₀ : State} {t : Nat} (hm₀ : 0x8002B ||| m₀ = m₀)
    (h₀ : Only m₀ s₀ t₀) : Only m₀ s₀ (State.syncFinish t₀ t) :=
  h₀.step (Only.syncFinish0 t₀ _) hm₀

theorem Only.syncHandle0 (s : State) (h st t : Nat) (b : List Byte) : Only 0x8002B s (State.syncHandle s h st t b) := by
  unfold State.syncHandle
  try dsimp only
  repeat' first
    | with_reducible exact Only.refl _ _
    | with_reducible refine Only.ite ?_ ?_
    | with_reducible refine Only.syncFail (by decide) ?_
    | with_reducible refine Only.setHandle (by decide) ?_
    | with_reducible refine Only.pairMod (by decide) ?_
    | split

theorem Only.syncHandle {m₀ : Nat} {s₀ t₀ : State} {h st t : Nat} {b : List Byte} (hm₀ : 0x8002B ||| m₀ = m₀)
    (h₀ : Only m₀ s₀ t₀) : Only m₀ s₀ (State.syncHandle t₀ h st t b) :=
  h₀.step (Only.syncHandle0 t₀ _ _ _ _) hm₀

theorem Only.doSyncBlockReceived0 (s : State) (i : SyncItem) : Only 0xE46AB s (State.doSyncBlockReceived s i) := by
  unfold State.doSyncBlockReceived
  try dsimp only
  repeat' first
    | with_reducible exact Only.refl _ _
    | with_reducible refine Only.ite ?_ ?_
    | with_reducible refine Only.syncDone (by decide) ?_
    | with_reducible refine Only.syncBlocks (by decide) ?_
    | with_reducible refine Only.syncFinish (by decide) ?_
    | with_reducible refine Only.applyMirror (by decide) ?_
    | with_reducible refine Only.syncHandle (by decide) ?_
    | split

theorem Only.doSyncBlockReceived {m₀ : Nat} {s₀ t₀ : State} {i : SyncItem} (hm₀ : 0xE46AB ||| m₀ = m₀)
    (h₀ : Only m₀ s₀ t₀) : Only m₀ s₀ (State.doSyncBlockReceived t₀ i) :=
  h₀.step (Only.doSyncBlockReceived0 t₀ _) hm₀

theorem Only.doTongsHeartbeatSend0 (s : State) : Only 0x29461F s (State.doTongsHeartbeatSend s) := by
  unfold State.doTongsHeartbeatSend
  try dsimp only
  repeat' first
    | with_reducible exact Only.refl _ _
    | with_reducible refine Only.ite ?_ ?_
    | with_reducible refine Only.tongsSend (by decide) ?_
    | with_reducible refine Only.missCount (by decide) ?_
    | with_reducible refine Only.changeRole (by decide) ?_
    | with_reducible refine Only.roleDone (by decide) ?_
    | with_reducible refine Only.waitUntil (by decide) ?_
    | with_reducible refine Only.pairMod (by decide) ?_
    | split

theorem Only.doTongsHeartbeatSend {m₀ : Nat} {s₀ t₀ : State}  (hm₀ : 0x29461F ||| m₀ = m₀)
    (h₀ : Only m₀ s₀ t₀) : Only m₀ s₀ (State.doTongsHeartbeatSend t₀) :=
  h₀.step (Only.doTongsHeartbeatSend0 t₀) hm₀

theorem Only.doTongsLinkDown0 (s : State) (lane : Nat) : Only 0x384BFB s (State.doTongsLinkDown s lane) := by
  unfold State.doTongsLinkDown
  try dsimp only
  repeat' first
    | with_reducible exact Only.refl _ _
    | with_reducible refine Only.ite ?_ ?_
    | with_reducible refine Only.raise (by decide) ?_
    | with_reducible refine Only.linkStop (by decide) ?_
    | with_reducible refine Only.pairMod (by decide) ?_

theorem Only.doTongsLinkDown {m₀ : Nat} {s₀ t₀ : State} {lane : Nat} (hm₀ : 0x384BFB ||| m₀ = m₀)
    (h₀ : Only m₀ s₀ t₀) : Only m₀ s₀ (State.doTongsLinkDown t₀ lane) :=
  h₀.step (Only.doTongsLinkDown0 t₀ _) hm₀

theorem Only.doTongsLinkUp0 (s : State) : Only 0x80000 s (State.doTongsLinkUp s) := by
  unfold State.doTongsLinkUp
  try dsimp only
  repeat' first
    | with_reducible exact Only.refl _ _
    | with_reducible refine Only.ite ?_ ?_
    | with_reducible refine Only.pairMod (by decide) ?_
    | with_reducible refine Only.linkStart (by decide) ?_

theorem Only.doTongsLinkUp {m₀ : Nat} {s₀ t₀ : State}  (hm₀ : 0x80000 ||| m₀ = m₀)
    (h₀ : Only m₀ s₀ t₀) : Only m₀ s₀ (State.doTongsLinkUp t₀) :=
  h₀.step (Only.doTongsLinkUp0 t₀) hm₀

theorem Only.doVbatAboveOperatingMin0 (s : State) : Only 0x30004 s (State.doVbatAboveOperatingMin s) := by
  unfold State.doVbatAboveOperatingMin
  try dsimp only
  repeat' first
    | with_reducible exact Only.refl _ _
    | with_reducible refine Only.ite ?_ ?_
    | with_reducible refine Only.startKindle (by decide) ?_
    | with_reducible refine Only.pwrMod (by decide) ?_

theorem Only.doVbatAboveOperatingMin {m₀ : Nat} {s₀ t₀ : State}  (hm₀ : 0x30004 ||| m₀ = m₀)
    (h₀ : Only m₀ s₀ t₀) : Only m₀ s₀ (State.doVbatAboveOperatingMin t₀) :=
  h₀.step (Only.doVbatAboveOperatingMin0 t₀) hm₀

theorem Only.doVbatFall0 (s : State) : Only 0x3FFFFF s (State.doVbatFall s) := by
  have h := Only.forgeLost0 s
  exact Only.whole h.pending h.out h.free fun c => ⟨(h.canonical c).1, rfl⟩

theorem Only.doVbatFall {m₀ : Nat} {s₀ t₀ : State}  (hm₀ : 0x3FFFFF ||| m₀ = m₀)
    (h₀ : Only m₀ s₀ t₀) : Only m₀ s₀ (State.doVbatFall t₀) :=
  h₀.step (Only.doVbatFall0 t₀) hm₀

theorem Only.powerOn0 (s : State) : Only 0x3000F s (State.powerOn s) := by
  unfold State.powerOn
  try dsimp only
  repeat' first
    | with_reducible exact Only.refl _ _
    | with_reducible refine Only.wakeStart (by decide) ?_
    | with_reducible refine Only.wakeRecord (by decide) ?_

theorem Only.powerOn {m₀ : Nat} {s₀ t₀ : State}  (hm₀ : 0x3000F ||| m₀ = m₀)
    (h₀ : Only m₀ s₀ t₀) : Only m₀ s₀ (State.powerOn t₀) :=
  h₀.step (Only.powerOn0 t₀) hm₀

theorem Only.doVbatRise0 (s : State) (above : Bool) : Only 0x3000F s (State.doVbatRise s above) := by
  unfold State.doVbatRise
  try dsimp only
  repeat' first
    | with_reducible exact Only.refl _ _
    | with_reducible refine Only.ite ?_ ?_
    | with_reducible refine Only.pwrMod (by decide) ?_
    | with_reducible refine Only.powerOn (by decide) ?_

theorem Only.doVbatRise {m₀ : Nat} {s₀ t₀ : State} {above : Bool} (hm₀ : 0x3000F ||| m₀ = m₀)
    (h₀ : Only m₀ s₀ t₀) : Only m₀ s₀ (State.doVbatRise t₀ above) :=
  h₀.step (Only.doVbatRise0 t₀ _) hm₀

theorem Only.doVoteDisagreement0 (s : State) (off : Nat) : Only 0xB s (State.doVoteDisagreement s off) := by
  unfold State.doVoteDisagreement
  try dsimp only
  repeat' first
    | with_reducible exact Only.refl _ _
    | with_reducible refine Only.ite ?_ ?_
    | with_reducible refine Only.bump (by decide) ?_

theorem Only.doVoteDisagreement {m₀ : Nat} {s₀ t₀ : State} {off : Nat} (hm₀ : 0xB ||| m₀ = m₀)
    (h₀ : Only m₀ s₀ t₀) : Only m₀ s₀ (State.doVoteDisagreement t₀ off) :=
  h₀.step (Only.doVoteDisagreement0 t₀ _) hm₀

theorem Only.doVoteReceived0 (s : State) (v : Vote) : Only 0x80000 s (State.doVoteReceived s v) := by
  unfold State.doVoteReceived
  try dsimp only
  repeat' first
    | with_reducible exact Only.refl _ _
    | with_reducible refine Only.ite ?_ ?_
    | with_reducible refine Only.pairMod (by decide) ?_

theorem Only.doVoteReceived {m₀ : Nat} {s₀ t₀ : State} {v : Vote} (hm₀ : 0x80000 ||| m₀ = m₀)
    (h₀ : Only m₀ s₀ t₀) : Only m₀ s₀ (State.doVoteReceived t₀ v) :=
  h₀.step (Only.doVoteReceived0 t₀ _) hm₀

theorem Only.doWakePin0 (s : State) (pin : Nat) (rising : Bool) : Only 0x7040F s (State.doWakePin s pin rising) := by
  unfold State.doWakePin
  try dsimp only
  repeat' first
    | with_reducible exact Only.refl _ _
    | with_reducible refine Only.ite ?_ ?_
    | with_reducible refine Only.wakeFire (by decide) ?_
    | with_reducible refine Only.nmEvent (by decide) ?_

theorem Only.doWakePin {m₀ : Nat} {s₀ t₀ : State} {pin : Nat} {rising : Bool} (hm₀ : 0x7040F ||| m₀ = m₀)
    (h₀ : Only m₀ s₀ t₀) : Only m₀ s₀ (State.doWakePin t₀ pin rising) :=
  h₀.step (Only.doWakePin0 t₀ _ _) hm₀

theorem Only.doWakeTimer0 (s : State) : Only 0x3000F s (State.doWakeTimer s) := by
  unfold State.doWakeTimer
  try dsimp only
  repeat' first
    | with_reducible exact Only.refl _ _
    | with_reducible refine Only.ite ?_ ?_
    | with_reducible refine Only.wakeFire (by decide) ?_
    | with_reducible refine Only.waitUntil (by decide) ?_

theorem Only.doWakeTimer {m₀ : Nat} {s₀ t₀ : State}  (hm₀ : 0x3000F ||| m₀ = m₀)
    (h₀ : Only m₀ s₀ t₀) : Only m₀ s₀ (State.doWakeTimer t₀) :=
  h₀.step (Only.doWakeTimer0 t₀) hm₀

theorem ExecOnly.e2eContextSet0 (c : Cmd) (s : State) : ExecOnly 0x2000 s (State.e2eContextSet c s) := by
  unfold State.e2eContextSet
  try dsimp only
  repeat' first
    | with_reducible exact Only.refl _ _
    | with_reducible refine ExecOnly.done ?_
    | with_reducible refine ExecOnly.need ?_ ?_
    | with_reducible refine ExecOnly.datapath ?_ ?_
    | with_reducible refine ExecOnly.check ?_ ?_
    | with_reducible refine Only.e2eMod (by decide) ?_

theorem ExecOnly.e2eContextSet {m₀ : Nat} {s₀ t₀ : State} {c : Cmd} (hm₀ : 0x2000 ||| m₀ = m₀)
    (h₀ : Only m₀ s₀ t₀) : ExecOnly m₀ s₀ (State.e2eContextSet c t₀) :=
  ExecOnly.after h₀ (ExecOnly.e2eContextSet0 _ t₀) hm₀

theorem ExecOnly.fenceRelease0 (c : Cmd) (s : State) : ExecOnly 0x3FFFFF s (State.fenceRelease c s) := by
  unfold State.fenceRelease
  try dsimp only
  repeat' first
    | with_reducible exact Only.refl _ _
    | with_reducible refine ExecOnly.run ?_
    | with_reducible refine ExecOnly.ite ?_ ?_
    | with_reducible refine Only.recoveryBegin (by decide) ?_
    | with_reducible refine Only.fmodDom (by decide) ?_
    | with_reducible refine ExecOnly.check ?_ ?_
    | with_reducible refine Only.kindleFail (by decide) ?_

theorem ExecOnly.fenceRelease {m₀ : Nat} {s₀ t₀ : State} {c : Cmd} (hm₀ : 0x3FFFFF ||| m₀ = m₀)
    (h₀ : Only m₀ s₀ t₀) : ExecOnly m₀ s₀ (State.fenceRelease c t₀) :=
  ExecOnly.after h₀ (ExecOnly.fenceRelease0 _ t₀) hm₀

theorem ExecOnly.fenceStatus0 (c : Cmd) (s : State) : ExecOnly 0x0 s (State.fenceStatus c s) := by
  unfold State.fenceStatus
  try dsimp only
  repeat' first
    | with_reducible exact Only.refl _ _
    | with_reducible refine ExecOnly.done ?_
    | with_reducible refine ExecOnly.ite ?_ ?_
    | with_reducible refine ExecOnly.check ?_ ?_

theorem ExecOnly.fenceStatus {m₀ : Nat} {s₀ t₀ : State} {c : Cmd} (hm₀ : 0x0 ||| m₀ = m₀)
    (h₀ : Only m₀ s₀ t₀) : ExecOnly m₀ s₀ (State.fenceStatus c t₀) :=
  ExecOnly.after h₀ (ExecOnly.fenceStatus0 _ t₀) hm₀

theorem ExecOnly.pairConfig0 (c : Cmd) (s : State) : ExecOnly 0x384FFB s (State.pairConfig c s) := by
  unfold State.pairConfig
  try dsimp only
  repeat' first
    | with_reducible exact Only.refl _ _
    | with_reducible refine ExecOnly.done ?_
    | with_reducible refine ExecOnly.ite ?_ ?_
    | with_reducible refine ExecOnly.check ?_ ?_
    | with_reducible refine Only.linkStop (by decide) ?_
    | with_reducible refine Only.pairMod (by decide) ?_
    | with_reducible refine Only.roleModes (by decide) ?_
    | with_reducible refine Only.linkStart (by decide) ?_

theorem ExecOnly.pairConfig {m₀ : Nat} {s₀ t₀ : State} {c : Cmd} (hm₀ : 0x384FFB ||| m₀ = m₀)
    (h₀ : Only m₀ s₀ t₀) : ExecOnly m₀ s₀ (State.pairConfig c t₀) :=
  ExecOnly.after h₀ (ExecOnly.pairConfig0 _ t₀) hm₀

theorem ExecOnly.pairRole0 (c : Cmd) (s : State) : ExecOnly 0x8460B s (State.pairRole c s) := by
  unfold State.pairRole
  try dsimp only
  repeat' first
    | with_reducible exact Only.refl _ _
    | with_reducible refine ExecOnly.done ?_
    | with_reducible refine ExecOnly.run ?_
    | with_reducible refine ExecOnly.ite ?_ ?_
    | with_reducible refine Only.changeRole (by decide) ?_
    | with_reducible refine Only.takeover (by decide) ?_
    | with_reducible refine ExecOnly.check ?_ ?_
    | with_reducible refine Only.pairMod (by decide) ?_

theorem ExecOnly.pairRole {m₀ : Nat} {s₀ t₀ : State} {c : Cmd} (hm₀ : 0x8460B ||| m₀ = m₀)
    (h₀ : Only m₀ s₀ t₀) : ExecOnly m₀ s₀ (State.pairRole c t₀) :=
  ExecOnly.after h₀ (ExecOnly.pairRole0 _ t₀) hm₀

theorem ExecOnly.pairStatus0 (c : Cmd) (s : State) : ExecOnly 0x0 s (State.pairStatus c s) := by
  unfold State.pairStatus
  try dsimp only
  repeat' first
    | with_reducible exact Only.refl _ _
    | with_reducible exact ExecOnly.wait
    | with_reducible refine ExecOnly.done ?_
    | with_reducible refine ExecOnly.ite ?_ ?_
    | with_reducible refine ExecOnly.check ?_ ?_
    | with_reducible refine ExecOnly.fail ?_
    | with_reducible refine Only.hostOut (by decide) ?_
    | split

theorem ExecOnly.pairStatus {m₀ : Nat} {s₀ t₀ : State} {c : Cmd} (hm₀ : 0x0 ||| m₀ = m₀)
    (h₀ : Only m₀ s₀ t₀) : ExecOnly m₀ s₀ (State.pairStatus c t₀) :=
  ExecOnly.after h₀ (ExecOnly.pairStatus0 _ t₀) hm₀

theorem Only.recLoad0 (s : State) (table n : Nat) (b : List Byte) : Only 0x1000 s (State.recLoad s table n b) := by
  unfold State.recLoad
  try dsimp only
  repeat' first
    | with_reducible exact Only.refl _ _
    | with_reducible refine Only.setSig (by decide) ?_
    | split

theorem Only.recLoad {m₀ : Nat} {s₀ t₀ : State} {table n : Nat} {b : List Byte} (hm₀ : 0x1000 ||| m₀ = m₀)
    (h₀ : Only m₀ s₀ t₀) : Only m₀ s₀ (State.recLoad t₀ table n b) :=
  h₀.step (Only.recLoad0 t₀ _ _ _) hm₀

theorem ExecOnly.sigMapLoad0 (dma : List Byte) (c : Cmd) (s : State) : ExecOnly 0x1000 s (State.sigMapLoad dma c s) := by
  unfold State.sigMapLoad
  try dsimp only
  repeat' first
    | with_reducible exact Only.refl _ _
    | with_reducible assumption
    | with_reducible refine ExecOnly.done ?_
    | with_reducible refine ExecOnly.need ?_ ?_
    | with_reducible refine ExecOnly.datapath ?_ ?_
    | with_reducible refine Only.recLoad (by decide) ?_
    | with_reducible refine ExecOnly.check ?_ ?_
    | with_reducible refine Only.foldl (fun _ _ _ => ?_) ?_

theorem ExecOnly.sigMapLoad {m₀ : Nat} {s₀ t₀ : State} {dma : List Byte} {c : Cmd} (hm₀ : 0x1000 ||| m₀ = m₀)
    (h₀ : Only m₀ s₀ t₀) : ExecOnly m₀ s₀ (State.sigMapLoad dma c t₀) :=
  ExecOnly.after h₀ (ExecOnly.sigMapLoad0 _ _ t₀) hm₀

end Sys2Proof.Machine
end

