-- ==== Sys2Proof/Laws/OnlyHost.lean ====
section
/-! SUPPORT.
Frames: what the mailbox, boot and the host interface can change
at most. The law named `…0` states the frame of one operation, the other one carries a frame over it. -/

namespace Sys2Proof.Machine

theorem Only.sessMod0 (s : State) (f : Session → Session) : Only 0x200000 s (State.sessMod s f) := by
  unfold State.sessMod
  try dsimp only
  repeat' first
    | with_reducible exact Only.refl _ _
    | with_reducible refine Only.setBoot (by decide) ?_

theorem Only.sessMod {m₀ : Nat} {s₀ t₀ : State} {f : Session → Session} (hm₀ : 0x200000 ||| m₀ = m₀)
    (h₀ : Only m₀ s₀ t₀) : Only m₀ s₀ (State.sessMod t₀ f) :=
  h₀.step (Only.sessMod0 t₀ _) hm₀

theorem ExecOnly.Exec_update {m : Nat} {s t : State} {f : State → State.Exec}
    (hf : ∀ u, Only m s u → ExecOnly m s (f u)) (hm : 0x200000 ||| m = m) (h : Only m s t) :
    ExecOnly m s (State.Exec.update t f) := hf _ (Only.sessMod hm h)

theorem Only.bellsDone0 (s : State) (host : Nat) : Only 0x10 s (State.bellsDone s host) := by
  unfold State.bellsDone
  try dsimp only
  repeat' first
    | with_reducible exact Only.refl _ _
    | with_reducible refine Only.setMbx (by decide) ?_

theorem Only.bellsDone {m₀ : Nat} {s₀ t₀ : State} {host : Nat} (hm₀ : 0x10 ||| m₀ = m₀)
    (h₀ : Only m₀ s₀ t₀) : Only m₀ s₀ (State.bellsDone t₀ host) :=
  h₀.step (Only.bellsDone0 t₀ _) hm₀

theorem Only.confirm0 (s : State) (stepsFail revokeFail : Nat) : Only 0x20000B s (State.confirm s stepsFail revokeFail) := by
  unfold State.confirm
  try dsimp only
  repeat' first
    | with_reducible exact Only.refl _ _
    | with_reducible refine Only.raise (by decide) ?_
    | with_reducible refine Only.otpProgram (by decide) ?_
    | with_reducible refine Only.descWrite (by decide) ?_
    | with_reducible refine Only.setBoot (by decide) ?_

theorem Only.confirm {m₀ : Nat} {s₀ t₀ : State} {stepsFail revokeFail : Nat} (hm₀ : 0x20000B ||| m₀ = m₀)
    (h₀ : Only m₀ s₀ t₀) : Only m₀ s₀ (State.confirm t₀ stepsFail revokeFail) :=
  h₀.step (Only.confirm0 t₀ _ _) hm₀

theorem ExecOnly.devInfo0 (_c : Cmd) (s : State) : ExecOnly 0x0 s (State.devInfo _c s) := by
  unfold State.devInfo
  try dsimp only
  repeat' first
    | with_reducible exact Only.refl _ _
    | with_reducible refine ExecOnly.done ?_

theorem ExecOnly.devInfo {m₀ : Nat} {s₀ t₀ : State} {_c : Cmd} (hm₀ : 0x0 ||| m₀ = m₀)
    (h₀ : Only m₀ s₀ t₀) : ExecOnly m₀ s₀ (State.devInfo _c t₀) :=
  ExecOnly.after h₀ (ExecOnly.devInfo0 _ t₀) hm₀

theorem ExecOnly.devStateGet0 (_c : Cmd) (s : State) : ExecOnly 0x0 s (State.devStateGet _c s) := by
  unfold State.devStateGet
  try dsimp only
  repeat' first
    | with_reducible exact Only.refl _ _
    | with_reducible refine ExecOnly.done ?_

theorem ExecOnly.devStateGet {m₀ : Nat} {s₀ t₀ : State} {_c : Cmd} (hm₀ : 0x0 ||| m₀ = m₀)
    (h₀ : Only m₀ s₀ t₀) : ExecOnly m₀ s₀ (State.devStateGet _c t₀) :=
  ExecOnly.after h₀ (ExecOnly.devStateGet0 _ t₀) hm₀

theorem Only.regHook0 (s : State) (addr : Nat) : Only 0x304FEB s (State.regHook s addr) := by
  unfold State.regHook
  try dsimp only
  repeat' first
    | with_reducible exact Only.refl _ _
    | with_reducible refine Only.t1sSync (by decide) ?_
    | with_reducible refine Only.rxPurge (by decide) ?_
    | with_reducible refine Only.spillUpdate (by decide) ?_
    | split

theorem Only.regHook {m₀ : Nat} {s₀ t₀ : State} {addr : Nat} (hm₀ : 0x304FEB ||| m₀ = m₀)
    (h₀ : Only m₀ s₀ t₀) : Only m₀ s₀ (State.regHook t₀ addr) :=
  h₀.step (Only.regHook0 t₀ _) hm₀

theorem Only.linkSeen0 (s : State) : Only 0x8 s (State.linkSeen s) := by
  unfold State.linkSeen
  try dsimp only
  repeat' first
    | with_reducible exact Only.refl _ _
    | with_reducible refine Only.ite ?_ ?_
    | with_reducible refine Only.setHif (by decide) ?_
    | with_reducible refine Only.free2 ?_

theorem Only.linkSeen {m₀ : Nat} {s₀ t₀ : State}  (hm₀ : 0x8 ||| m₀ = m₀)
    (h₀ : Only m₀ s₀ t₀) : Only m₀ s₀ (State.linkSeen t₀) :=
  h₀.step (Only.linkSeen0 t₀) hm₀

theorem Only.doAtomicOp0 (s : State) (kind : AtomicKind) (bar2 wide : Bool) (off operand compare : Nat) :
    Only 0x314FFB s (State.doAtomicOp s kind bar2 wide off operand compare) := by
  unfold State.doAtomicOp
  try dsimp only
  repeat' first
    | with_reducible exact Only.refl _ _
    | with_reducible refine Only.ite ?_ ?_
    | with_reducible refine Only.regHook (by decide) ?_
    | with_reducible refine Only.slotWrite (by decide) ?_
    | with_reducible refine Only.guardExpire (by decide) ?_
    | with_reducible refine Only.linkSeen (by decide) ?_
    | with_reducible refine Only.writeDirect (by decide) ?_
    | with_reducible refine Only.emit (Nat.zero_or _) ?_

theorem Only.doAtomicOp {m₀ : Nat} {s₀ t₀ : State} {kind : AtomicKind} {bar2 wide : Bool} {off operand compare : Nat}
    (hm₀ : 0x314FFB ||| m₀ = m₀) (h₀ : Only m₀ s₀ t₀) : Only m₀ s₀
        (State.doAtomicOp t₀ kind bar2 wide off operand compare) :=
  h₀.step (Only.doAtomicOp0 t₀ _ _ _ _ _ _) hm₀

theorem Only.doAutoConfirmTimeout0 (s : State) (stepsFail revokeFail : Nat) : Only 0x21000F s
    (State.doAutoConfirmTimeout s stepsFail revokeFail) := by
  unfold State.doAutoConfirmTimeout
  try dsimp only
  repeat' first
    | with_reducible exact Only.refl _ _
    | with_reducible refine Only.ite ?_ ?_
    | with_reducible refine Only.confirm (by decide) ?_
    | with_reducible refine Only.waitUntil (by decide) ?_

theorem Only.doAutoConfirmTimeout {m₀ : Nat} {s₀ t₀ : State} {stepsFail revokeFail : Nat} (hm₀ : 0x21000F ||| m₀ = m₀)
    (h₀ : Only m₀ s₀ t₀) : Only m₀ s₀ (State.doAutoConfirmTimeout t₀ stepsFail revokeFail) :=
  h₀.step (Only.doAutoConfirmTimeout0 t₀ _ _) hm₀

theorem Only.doCompletionRelease0 (s : State) (host q : Nat) : Only 0x3FFFFF s (State.doCompletionRelease s host q) := by
  unfold State.doCompletionRelease
  try dsimp only
  repeat' first
    | with_reducible exact Only.refl _ _
    | with_reducible refine Only.postLoop (by decide) ?_
    | with_reducible refine Only.restartIfDue (by decide) ?_

theorem Only.doCompletionRelease {m₀ : Nat} {s₀ t₀ : State} {host q : Nat} (hm₀ : 0x3FFFFF ||| m₀ = m₀)
    (h₀ : Only m₀ s₀ t₀) : Only m₀ s₀ (State.doCompletionRelease t₀ host q) :=
  h₀.step (Only.doCompletionRelease0 t₀ _ _) hm₀

theorem Only.doDevHeartbeatTick0 (s : State) : Only 0x1000F s (State.doDevHeartbeatTick s) := by
  unfold State.doDevHeartbeatTick
  try dsimp only
  repeat' first
    | with_reducible exact Only.refl _ _
    | with_reducible refine Only.ite ?_ ?_
    | with_reducible refine Only.bump (by decide) ?_
    | with_reducible refine Only.waitUntil (by decide) ?_

theorem Only.doDevHeartbeatTick {m₀ : Nat} {s₀ t₀ : State}  (hm₀ : 0x1000F ||| m₀ = m₀)
    (h₀ : Only m₀ s₀ t₀) : Only m₀ s₀ (State.doDevHeartbeatTick t₀) :=
  h₀.step (Only.doDevHeartbeatTick0 t₀) hm₀

theorem Only.doFlashSectorEraseDone0 (s : State) : Only 0x10 s (State.doFlashSectorEraseDone s) := by
  unfold State.doFlashSectorEraseDone
  try dsimp only
  repeat' first
    | with_reducible exact Only.refl _ _
    | with_reducible refine Only.ite ?_ ?_
    | with_reducible refine Only.setMbx (by decide) ?_
    | split

theorem Only.doFlashSectorEraseDone {m₀ : Nat} {s₀ t₀ : State}  (hm₀ : 0x10 ||| m₀ = m₀)
    (h₀ : Only m₀ s₀ t₀) : Only m₀ s₀ (State.doFlashSectorEraseDone t₀) :=
  h₀.step (Only.doFlashSectorEraseDone0 t₀) hm₀

theorem Only.doGuardWindowExpiry0 (s : State) (off : Nat) : Only 0x1000F s (State.doGuardWindowExpiry s off) := by
  unfold State.doGuardWindowExpiry
  try dsimp only
  repeat' first
    | with_reducible exact Only.refl _ _
    | with_reducible refine Only.guardRefuse (by decide) ?_
    | with_reducible refine Only.waitUntil (by decide) ?_
    | split

theorem Only.doGuardWindowExpiry {m₀ : Nat} {s₀ t₀ : State} {off : Nat} (hm₀ : 0x1000F ||| m₀ = m₀)
    (h₀ : Only m₀ s₀ t₀) : Only m₀ s₀ (State.doGuardWindowExpiry t₀ off) :=
  h₀.step (Only.doGuardWindowExpiry0 t₀ _) hm₀

theorem Only.messageDue0 (s : State) (v : Nat) : Only 0x8 s (State.messageDue s v) := by
  unfold State.messageDue
  try dsimp only
  repeat' first
    | with_reducible exact Only.refl _ _
    | with_reducible refine Only.ite ?_ ?_
    | with_reducible refine Only.setHif (by decide) ?_
    | with_reducible refine Only.sendMsix (by decide) ?_

theorem Only.messageDue {m₀ : Nat} {s₀ t₀ : State} {v : Nat} (hm₀ : 0x8 ||| m₀ = m₀)
    (h₀ : Only m₀ s₀ t₀) : Only m₀ s₀ (State.messageDue t₀ v) :=
  h₀.step (Only.messageDue0 t₀ _) hm₀

theorem Only.doIrqHoldoffExpiry0 (s : State) (v : Nat) : Only 0x1000C s (State.doIrqHoldoffExpiry s v) := by
  unfold State.doIrqHoldoffExpiry
  try dsimp only
  repeat' first
    | with_reducible exact Only.refl _ _
    | with_reducible refine Only.ite ?_ ?_
    | with_reducible refine Only.messageDue (by decide) ?_
    | with_reducible refine Only.waitUntil (by decide) ?_

theorem Only.doIrqHoldoffExpiry {m₀ : Nat} {s₀ t₀ : State} {v : Nat} (hm₀ : 0x1000C ||| m₀ = m₀)
    (h₀ : Only m₀ s₀ t₀) : Only m₀ s₀ (State.doIrqHoldoffExpiry t₀ v) :=
  h₀.step (Only.doIrqHoldoffExpiry0 t₀ _) hm₀

theorem Only.recordFault0 (s : State) (i : Nat) : Only 0x30001B s (State.recordFault s i) := by
  unfold State.recordFault
  try dsimp only
  repeat' first
    | with_reducible exact Only.refl _ _
    | with_reducible refine Only.setMbx (by decide) ?_
    | with_reducible refine Only.report (by decide) ?_
    | with_reducible refine Only.raise (by decide) ?_
    | with_reducible refine Only.unpersistAll (by decide) ?_

theorem Only.recordFault {m₀ : Nat} {s₀ t₀ : State} {i : Nat} (hm₀ : 0x30001B ||| m₀ = m₀)
    (h₀ : Only m₀ s₀ t₀) : Only m₀ s₀ (State.recordFault t₀ i) :=
  h₀.step (Only.recordFault0 t₀ _) hm₀

theorem Only.recordInto0 (s : State) (x : FlashSector) (r : Option (JEntry × List Byte)) : Only 0x0 s
    (State.recordInto s x r).1 := by
  unfold State.recordInto
  try dsimp only
  repeat' first
    | with_reducible exact Only.refl _ _
    | with_reducible refine Only.ite ?_ ?_
    | with_reducible refine Only.emit (Nat.zero_or _) ?_
    | split

theorem Only.recordInto {m₀ : Nat} {s₀ t₀ : State} {x : FlashSector} {r : Option (JEntry × List Byte)}
    (hm₀ : 0x0 ||| m₀ = m₀) (h₀ : Only m₀ s₀ t₀) : Only m₀ s₀ (State.recordInto t₀ x r).1 :=
  h₀.step (Only.recordInto0 t₀ _ _) hm₀

theorem Only.recordPut0 (s : State) (index : Nat) (r : Option (JEntry × List Byte)) : Only 0x10 s
    (State.recordPut s index r) := by
  unfold State.recordPut
  try dsimp only
  repeat' first
    | with_reducible exact Only.refl _ _
    | with_reducible refine Only.setMbx (by decide) ?_
    | with_reducible refine Only.recordInto (by decide) ?_
    | split

theorem Only.recordPut {m₀ : Nat} {s₀ t₀ : State} {index : Nat} {r : Option (JEntry × List Byte)}
    (hm₀ : 0x10 ||| m₀ = m₀) (h₀ : Only m₀ s₀ t₀) : Only m₀ s₀ (State.recordPut t₀ index r) :=
  h₀.step (Only.recordPut0 t₀ _ _) hm₀

theorem Only.recordDone0 (s : State) (c : Cmd) : Only 0x11 s (State.recordDone s c) := by
  unfold State.recordDone
  try dsimp only
  repeat' first
    | with_reducible exact Only.refl _ _
    | with_reducible refine Only.ite ?_ ?_
    | with_reducible refine Only.setMbx (by decide) ?_
    | with_reducible refine Only.rset (by decide) ?_
    | with_reducible refine Only.cmdMod (by decide) ?_

theorem Only.recordDone {m₀ : Nat} {s₀ t₀ : State} {c : Cmd} (hm₀ : 0x11 ||| m₀ = m₀)
    (h₀ : Only m₀ s₀ t₀) : Only m₀ s₀ (State.recordDone t₀ c) :=
  h₀.step (Only.recordDone0 t₀ _) hm₀

theorem Only.stallCmd0 (s : State) (c : Cmd) : Only 0x1B s (State.stallCmd s c) := by
  unfold State.stallCmd
  try dsimp only
  repeat' first
    | with_reducible exact Only.refl _ _
    | with_reducible refine Only.ite ?_ ?_
    | with_reducible refine Only.bump (by decide) ?_
    | with_reducible refine Only.raise (by decide) ?_
    | with_reducible refine Only.cmdMod (by decide) ?_

theorem Only.stallCmd {m₀ : Nat} {s₀ t₀ : State} {c : Cmd} (hm₀ : 0x1B ||| m₀ = m₀)
    (h₀ : Only m₀ s₀ t₀) : Only m₀ s₀ (State.stallCmd t₀ c) :=
  h₀.step (Only.stallCmd0 t₀ _) hm₀

theorem Only.doJournalPersist0 (s : State) (index failures : Nat) : Only 0x3FFFFF s
    (State.doJournalPersist s index failures) := by
  unfold State.doJournalPersist
  try dsimp only
  repeat' first
    | with_reducible exact Only.refl _ _
    | with_reducible assumption
    | with_reducible refine Only.ite ?_ ?_
    | with_reducible refine Only.recordFault (by decide) ?_
    | with_reducible refine Only.recordPut (by decide) ?_
    | with_reducible refine Only.postAll (by decide) ?_
    | with_reducible refine Only.restartIfDue (by decide) ?_
    | with_reducible refine Only.recordDone (by decide) ?_
    | with_reducible refine Only.stallCmd (by decide) ?_
    | with_reducible refine Only.foldl (fun _ _ _ => ?_) ?_
    | split

theorem Only.doJournalPersist {m₀ : Nat} {s₀ t₀ : State} {index failures : Nat} (hm₀ : 0x3FFFFF ||| m₀ = m₀)
    (h₀ : Only m₀ s₀ t₀) : Only m₀ s₀ (State.doJournalPersist t₀ index failures) :=
  h₀.step (Only.doJournalPersist0 t₀ _ _) hm₀

theorem Only.doMirrorAck0 (s : State) (index : Nat) : Only 0x3FFFFF s (State.doMirrorAck s index) := by
  unfold State.doMirrorAck
  try dsimp only
  repeat' first
    | with_reducible exact Only.refl _ _
    | with_reducible refine Only.ite ?_ ?_
    | with_reducible refine Only.postAll (by decide) ?_
    | with_reducible refine Only.rset (by decide) ?_
    | with_reducible refine Only.restartIfDue (by decide) ?_
    | with_reducible refine Only.cmdMod (by decide) ?_

theorem Only.doMirrorAck {m₀ : Nat} {s₀ t₀ : State} {index : Nat} (hm₀ : 0x3FFFFF ||| m₀ = m₀)
    (h₀ : Only m₀ s₀ t₀) : Only m₀ s₀ (State.doMirrorAck t₀ index) :=
  h₀.step (Only.doMirrorAck0 t₀ _) hm₀

theorem Only.doMirrorAckTimeout0 (s : State) (index : Nat) : Only 0x3FFFFF s (State.doMirrorAckTimeout s index) := by
  unfold State.doMirrorAckTimeout
  try dsimp only
  repeat' first
    | with_reducible exact Only.refl _ _
    | with_reducible refine Only.postAll (by decide) ?_
    | with_reducible refine Only.restartIfDue (by decide) ?_
    | with_reducible refine Only.raise (by decide) ?_
    | with_reducible refine Only.cmdMod (by decide) ?_
    | with_reducible refine Only.waitUntil (by decide) ?_
    | split

theorem Only.doMirrorAckTimeout {m₀ : Nat} {s₀ t₀ : State} {index : Nat} (hm₀ : 0x3FFFFF ||| m₀ = m₀)
    (h₀ : Only m₀ s₀ t₀) : Only m₀ s₀ (State.doMirrorAckTimeout t₀ index) :=
  h₀.step (Only.doMirrorAckTimeout0 t₀ _) hm₀

theorem Only.doMsixPendingSend0 (s : State) (v : Nat) : Only 0x1000C s (State.doMsixPendingSend s v) := by
  unfold State.doMsixPendingSend
  try dsimp only
  repeat' first
    | with_reducible exact Only.refl _ _
    | with_reducible refine Only.ite ?_ ?_
    | with_reducible refine Only.waitUntil (by decide) ?_
    | with_reducible refine Only.sendMsix (by decide) ?_

theorem Only.doMsixPendingSend {m₀ : Nat} {s₀ t₀ : State} {v : Nat} (hm₀ : 0x1000C ||| m₀ = m₀)
    (h₀ : Only m₀ s₀ t₀) : Only m₀ s₀ (State.doMsixPendingSend t₀ v) :=
  h₀.step (Only.doMsixPendingSend0 t₀ _) hm₀

theorem Only.parityQuench0 (s : State) (off : Nat) : Only 0x3FFFFF s (State.parityQuench s off) := by
  unfold State.parityQuench
  try dsimp only
  repeat' first
    | with_reducible exact Only.refl _ _
    | with_reducible refine Only.ite ?_ ?_
    | with_reducible refine Only.fenceReport (by decide) ?_

theorem Only.parityQuench {m₀ : Nat} {s₀ t₀ : State} {off : Nat} (hm₀ : 0x3FFFFF ||| m₀ = m₀)
    (h₀ : Only m₀ s₀ t₀) : Only m₀ s₀ (State.parityQuench t₀ off) :=
  h₀.step (Only.parityQuench0 t₀ _) hm₀

theorem Only.doParityScrub0 (s : State) (off : Nat) : Only 0x3FFFFF s (State.doParityScrub s off) := by
  unfold State.doParityScrub
  try dsimp only
  repeat' first
    | with_reducible exact Only.refl _ _
    | with_reducible refine Only.ite ?_ ?_
    | with_reducible refine Only.bump (by decide) ?_
    | with_reducible refine Only.parityQuench (by decide) ?_
    | with_reducible refine Only.raise (by decide) ?_
    | split

theorem Only.doParityScrub {m₀ : Nat} {s₀ t₀ : State} {off : Nat} (hm₀ : 0x3FFFFF ||| m₀ = m₀)
    (h₀ : Only m₀ s₀ t₀) : Only m₀ s₀ (State.doParityScrub t₀ off) :=
  h₀.step (Only.doParityScrub0 t₀ _) hm₀

theorem Only.writeBar40 (s : State) (off : Nat) (v : Word) (be : Nat) : Only 0x8 s (State.writeBar4 s off v be) := by
  unfold State.writeBar4
  try dsimp only
  repeat' first
    | with_reducible exact Only.refl _ _
    | with_reducible refine Only.ite ?_ ?_
    | with_reducible refine Only.setHif (by decide) ?_

theorem Only.writeBar4 {m₀ : Nat} {s₀ t₀ : State} {off : Nat} {v : Word} {be : Nat} (hm₀ : 0x8 ||| m₀ = m₀)
    (h₀ : Only m₀ s₀ t₀) : Only m₀ s₀ (State.writeBar4 t₀ off v be) :=
  h₀.step (Only.writeBar40 t₀ _ _ _) hm₀

theorem Only.hostPost0 (s : State) (host tag addr : Nat) (v : Word) : Only 0x314FFB s
    (State.hostPost s host tag addr v) := by
  unfold State.hostPost
  try dsimp only
  repeat' first
    | with_reducible exact Only.refl _ _
    | with_reducible refine Only.ite ?_ ?_
    | with_reducible refine Only.regHook (by decide) ?_
    | with_reducible refine Only.linkSeen (by decide) ?_
    | with_reducible refine Only.postReg (by decide) ?_

theorem Only.hostPost {m₀ : Nat} {s₀ t₀ : State} {host tag addr : Nat} {v : Word} (hm₀ : 0x314FFB ||| m₀ = m₀)
    (h₀ : Only m₀ s₀ t₀) : Only m₀ s₀ (State.hostPost t₀ host tag addr v) :=
  h₀.step (Only.hostPost0 t₀ _ _ _ _) hm₀

theorem Only.doRegisterWrite0 (s : State) (w : PostedWrite) : Only 0x314FFB s (State.doRegisterWrite s w) := by
  unfold State.doRegisterWrite
  try dsimp only
  repeat' first
    | with_reducible exact Only.refl _ _
    | with_reducible refine Only.ite ?_ ?_
    | with_reducible refine Only.discardWord (by decide) ?_
    | with_reducible refine Only.setHif (by decide) ?_
    | with_reducible refine Only.dmaBack (by decide) ?_
    | with_reducible refine Only.guardExpire (by decide) ?_
    | with_reducible refine Only.linkSeen (by decide) ?_
    | with_reducible refine Only.writeBar2 (by decide) ?_
    | with_reducible refine Only.pwfNow (by decide) ?_
    | with_reducible refine Only.writeBar4 (by decide) ?_
    | with_reducible refine Only.hostPost (by decide) ?_
    | split

theorem Only.doRegisterWrite {m₀ : Nat} {s₀ t₀ : State} {w : PostedWrite} (hm₀ : 0x314FFB ||| m₀ = m₀)
    (h₀ : Only m₀ s₀ t₀) : Only m₀ s₀ (State.doRegisterWrite t₀ w) :=
  h₀.step (Only.doRegisterWrite0 t₀ _) hm₀

theorem Only.takeHost0 (s : State) (host q : Nat) : Only 0x20001B s (State.takeHost s host q) := by
  unfold State.takeHost
  try dsimp only
  repeat' first
    | with_reducible exact Only.refl _ _
    | with_reducible refine Only.ite ?_ ?_
    | with_reducible refine Only.setMbx (by decide) ?_
    | with_reducible refine Only.rset (by decide) ?_
    | with_reducible refine Only.takeSlot (by decide) ?_
    | with_reducible refine Only.bellsDone (by decide) ?_

theorem Only.takeHost {m₀ : Nat} {s₀ t₀ : State} {host q : Nat} (hm₀ : 0x20001B ||| m₀ = m₀)
    (h₀ : Only m₀ s₀ t₀) : Only m₀ s₀ (State.takeHost t₀ host q) :=
  h₀.step (Only.takeHost0 t₀ _ _) hm₀

theorem Only.takeService0 (s : State) : Only 0x20001B s (State.takeService s) := by
  unfold State.takeService
  try dsimp only
  repeat' first
    | with_reducible exact Only.refl _ _
    | with_reducible refine Only.ite ?_ ?_
    | with_reducible refine Only.setMbx (by decide) ?_
    | with_reducible refine Only.takeSlot (by decide) ?_
    | split

theorem Only.takeService {m₀ : Nat} {s₀ t₀ : State}  (hm₀ : 0x20001B ||| m₀ = m₀)
    (h₀ : Only m₀ s₀ t₀) : Only m₀ s₀ (State.takeService t₀) :=
  h₀.step (Only.takeService0 t₀) hm₀

theorem Only.doSlotTake0 (s : State) (host q : Nat) : Only 0x20001B s (State.doSlotTake s host q) := by
  unfold State.doSlotTake
  try dsimp only
  repeat' first
    | with_reducible exact Only.refl _ _
    | with_reducible refine Only.ite ?_ ?_
    | with_reducible refine Only.takeHost (by decide) ?_
    | with_reducible refine Only.takeService (by decide) ?_

theorem Only.doSlotTake {m₀ : Nat} {s₀ t₀ : State} {host q : Nat} (hm₀ : 0x20001B ||| m₀ = m₀)
    (h₀ : Only m₀ s₀ t₀) : Only m₀ s₀ (State.doSlotTake t₀ host q) :=
  h₀.step (Only.doSlotTake0 t₀ _ _) hm₀

theorem Only.doSpiCsCutShort0 (s : State) : Only 0xB s (State.doSpiCsCutShort s) := by
  unfold State.doSpiCsCutShort
  try dsimp only
  repeat' first
    | with_reducible exact Only.refl _ _
    | with_reducible refine Only.ite ?_ ?_
    | with_reducible refine Only.bump (by decide) ?_

theorem Only.doSpiCsCutShort {m₀ : Nat} {s₀ t₀ : State}  (hm₀ : 0xB ||| m₀ = m₀)
    (h₀ : Only m₀ s₀ t₀) : Only m₀ s₀ (State.doSpiCsCutShort t₀) :=
  h₀.step (Only.doSpiCsCutShort0 t₀) hm₀

theorem Only.spiDone0 (s : State) (status : Nat) (answer : List Byte) : Only 0xB s (State.spiDone s status answer) := by
  unfold State.spiDone
  try dsimp only
  repeat' first
    | with_reducible exact Only.refl _ _
    | with_reducible refine Only.ite ?_ ?_
    | with_reducible refine Only.bump (by decide) ?_
    | with_reducible refine Only.setHif (by decide) ?_
    | with_reducible refine Only.emit (Nat.zero_or _) ?_

theorem Only.spiDone {m₀ : Nat} {s₀ t₀ : State} {status : Nat} {answer : List Byte} (hm₀ : 0xB ||| m₀ = m₀)
    (h₀ : Only m₀ s₀ t₀) : Only m₀ s₀ (State.spiDone t₀ status answer) :=
  h₀.step (Only.spiDone0 t₀ _ _) hm₀

theorem Only.spiBegin0 (s : State) : Only 0x8 s (State.spiBegin s) := by
  unfold State.spiBegin
  try dsimp only
  repeat' first
    | with_reducible exact Only.refl _ _
    | with_reducible refine Only.setHif (by decide) ?_

theorem Only.spiBegin {m₀ : Nat} {s₀ t₀ : State}  (hm₀ : 0x8 ||| m₀ = m₀)
    (h₀ : Only m₀ s₀ t₀) : Only m₀ s₀ (State.spiBegin t₀) :=
  h₀.step (Only.spiBegin0 t₀) hm₀

theorem Only.doSpiGuardedWrite0 (s : State) (addr : Nat) (v : Word) (comp : Word) (crc : Byte) : Only 0x314FFB s
    (State.doSpiGuardedWrite s addr v comp crc) := by
  unfold State.doSpiGuardedWrite
  try dsimp only
  repeat' first
    | with_reducible exact Only.refl _ _
    | with_reducible refine Only.ite ?_ ?_
    | with_reducible refine Only.regHook (by decide) ?_
    | with_reducible refine Only.discardWord (by decide) ?_
    | with_reducible refine Only.postReg (by decide) ?_
    | with_reducible refine Only.spiDone (by decide) ?_
    | with_reducible refine Only.spiBegin (by decide) ?_

theorem Only.doSpiGuardedWrite {m₀ : Nat} {s₀ t₀ : State} {addr : Nat} {v : Word} {comp : Word} {crc : Byte}
    (hm₀ : 0x314FFB ||| m₀ = m₀) (h₀ : Only m₀ s₀ t₀) : Only m₀ s₀ (State.doSpiGuardedWrite t₀ addr v comp crc) :=
  h₀.step (Only.doSpiGuardedWrite0 t₀ _ _ _ _) hm₀

theorem Only.doSpiRead0 (s : State) (addr count : Nat) (crc : Byte) (ready : Bool) : Only 0xB s
    (State.doSpiRead s addr count crc ready) := by
  unfold State.doSpiRead
  try dsimp only
  repeat' first
    | with_reducible exact Only.refl _ _
    | with_reducible refine Only.ite ?_ ?_
    | with_reducible refine Only.spiDone (by decide) ?_
    | with_reducible refine Only.spiBegin (by decide) ?_

theorem Only.doSpiRead {m₀ : Nat} {s₀ t₀ : State} {addr count : Nat} {crc : Byte} {ready : Bool} (hm₀ : 0xB ||| m₀ = m₀)
    (h₀ : Only m₀ s₀ t₀) : Only m₀ s₀ (State.doSpiRead t₀ addr count crc ready) :=
  h₀.step (Only.doSpiRead0 t₀ _ _ _ _) hm₀

theorem Only.doSpiStatus0 (s : State) : Only 0x8 s (State.doSpiStatus s) := by
  unfold State.doSpiStatus
  try dsimp only
  repeat' first
    | with_reducible exact Only.refl _ _
    | with_reducible refine Only.ite ?_ ?_
    | with_reducible refine Only.spiBegin (by decide) ?_
    | with_reducible refine Only.emit (Nat.zero_or _) ?_

theorem Only.doSpiStatus {m₀ : Nat} {s₀ t₀ : State}  (hm₀ : 0x8 ||| m₀ = m₀)
    (h₀ : Only m₀ s₀ t₀) : Only m₀ s₀ (State.doSpiStatus t₀) :=
  h₀.step (Only.doSpiStatus0 t₀) hm₀

theorem Only.doSpiUnknownInstruction0 (s : State) (op : Byte) : Only 0xB s (State.doSpiUnknownInstruction s op) := by
  unfold State.doSpiUnknownInstruction
  try dsimp only
  repeat' first
    | with_reducible exact Only.refl _ _
    | with_reducible refine Only.ite ?_ ?_
    | with_reducible refine Only.bump (by decide) ?_
    | with_reducible refine Only.setHif (by decide) ?_
    | with_reducible refine Only.spiBegin (by decide) ?_
    | with_reducible refine Only.emit (Nat.zero_or _) ?_

theorem Only.doSpiUnknownInstruction {m₀ : Nat} {s₀ t₀ : State} {op : Byte} (hm₀ : 0xB ||| m₀ = m₀)
    (h₀ : Only m₀ s₀ t₀) : Only m₀ s₀ (State.doSpiUnknownInstruction t₀ op) :=
  h₀.step (Only.doSpiUnknownInstruction0 t₀ _) hm₀

theorem Only.doSpiWrite0 (s : State) (addr count : Nat) (data : List Word) (crc : Byte) : Only 0x314FFB s
    (State.doSpiWrite s addr count data crc) := by
  unfold State.doSpiWrite
  try dsimp only
  repeat' first
    | with_reducible exact Only.refl _ _
    | with_reducible assumption
    | with_reducible refine Only.ite ?_ ?_
    | with_reducible refine Only.regHook (by decide) ?_
    | with_reducible refine Only.discardWord (by decide) ?_
    | with_reducible refine Only.writeSpi (by decide) ?_
    | with_reducible refine Only.spiDone (by decide) ?_
    | with_reducible refine Only.doSpiCsCutShort (by decide) ?_
    | with_reducible refine Only.spiBegin (by decide) ?_
    | with_reducible refine Only.foldl (fun _ _ _ => ?_) ?_

theorem Only.doSpiWrite {m₀ : Nat} {s₀ t₀ : State} {addr count : Nat} {data : List Word} {crc : Byte}
    (hm₀ : 0x314FFB ||| m₀ = m₀) (h₀ : Only m₀ s₀ t₀) : Only m₀ s₀ (State.doSpiWrite t₀ addr count data crc) :=
  h₀.step (Only.doSpiWrite0 t₀ _ _ _ _) hm₀

theorem Only.svcFrame {m : Nat} {s t : State} {type flags session seq : Nat} {body tag : List Byte}
    {f : Session → State → State} (hm : 0x20000B ||| m = m) (hf : ∀ x u, Only m s u → Only m s (f x u)) (h : Only m s t) :
    Only m s (State.svcFrame t type flags session seq body tag f) := by
  unfold State.svcFrame
  split
  · exact h
  · split
    · exact h.step (Only.bump0 ..) (by rw [← hm, ← Nat.or_assoc]; congr 1)
    · exact hf _ _ (h.step (Only.sessMod0 ..) (by rw [← hm, ← Nat.or_assoc]; congr 1))

theorem Only.doSvcClose0 (s : State) (session seq : Nat) (tag : List Byte) : Only 0x20001B s
    (State.doSvcClose s session seq tag) := by
  unfold State.doSvcClose
  try dsimp only
  repeat' first
    | with_reducible refine Only.svcFrame (by decide) (fun _ _ _ => ?_) ?_
    | with_reducible exact Only.refl _ _
    | with_reducible assumption
    | with_reducible refine Only.sessionEnd (by decide) ?_

theorem Only.doSvcClose {m₀ : Nat} {s₀ t₀ : State} {session seq : Nat} {tag : List Byte} (hm₀ : 0x20001B ||| m₀ = m₀)
    (h₀ : Only m₀ s₀ t₀) : Only m₀ s₀ (State.doSvcClose t₀ session seq tag) :=
  h₀.step (Only.doSvcClose0 t₀ _ _ _) hm₀

theorem Only.doSvcCommand0 (s : State) (session seq : Nat) (body tag : List Byte) : Only 0x20001B s
    (State.doSvcCommand s session seq body tag) := by
  unfold State.doSvcCommand
  try dsimp only
  repeat' first
    | with_reducible refine Only.svcFrame (by decide) (fun _ _ _ => ?_) ?_
    | with_reducible exact Only.refl _ _
    | with_reducible assumption
    | with_reducible refine Only.ite ?_ ?_
    | with_reducible refine Only.setMbx (by decide) ?_
    | with_reducible refine Only.raise (by decide) ?_

theorem Only.doSvcCommand {m₀ : Nat} {s₀ t₀ : State} {session seq : Nat} {body tag : List Byte}
    (hm₀ : 0x20001B ||| m₀ = m₀) (h₀ : Only m₀ s₀ t₀) : Only m₀ s₀ (State.doSvcCommand t₀ session seq body tag) :=
  h₀.step (Only.doSvcCommand0 t₀ _ _ _ _) hm₀

theorem Only.doSvcData0 (s : State) (session seq : Nat) (encrypted : Bool) (body tag : List Byte) : Only 0x20000B s
    (State.doSvcData s session seq encrypted body tag) := by
  unfold State.doSvcData
  try dsimp only
  repeat' first
    | with_reducible refine Only.svcFrame (by decide) (fun _ _ _ => ?_) ?_
    | with_reducible exact Only.refl _ _
    | with_reducible assumption
    | with_reducible refine Only.ite ?_ ?_
    | with_reducible refine Only.bump (by decide) ?_
    | with_reducible refine Only.sessMod (by decide) ?_
    | split

theorem Only.doSvcData {m₀ : Nat} {s₀ t₀ : State} {session seq : Nat} {encrypted : Bool} {body tag : List Byte}
    (hm₀ : 0x20000B ||| m₀ = m₀) (h₀ : Only m₀ s₀ t₀) : Only m₀ s₀ (State.doSvcData t₀ session seq encrypted body tag) :=
  h₀.step (Only.doSvcData0 t₀ _ _ _ _ _) hm₀

theorem Only.nonce160 (s : State) : Only 0x0 s (State.nonce16 s).2 := by
  unfold State.nonce16
  try dsimp only
  repeat' first
    | with_reducible exact Only.refl _ _
    | with_reducible refine Only.draw2 ?_

theorem Only.nonce16 {m₀ : Nat} {s₀ t₀ : State}  (hm₀ : 0x0 ||| m₀ = m₀)
    (h₀ : Only m₀ s₀ t₀) : Only m₀ s₀ (State.nonce16 t₀).2 :=
  h₀.step (Only.nonce160 t₀) hm₀

theorem Only.svcLevel0 (s : State) : Only 0x0 s (State.svcLevel s).2 := by
  unfold State.svcLevel
  try dsimp only
  repeat' first
    | with_reducible exact Only.refl _ _
    | with_reducible refine Only.free2 ?_
    | split

theorem Only.svcLevel {m₀ : Nat} {s₀ t₀ : State}  (hm₀ : 0x0 ||| m₀ = m₀)
    (h₀ : Only m₀ s₀ t₀) : Only m₀ s₀ (State.svcLevel t₀).2 :=
  h₀.step (Only.svcLevel0 t₀) hm₀

theorem Only.doSvcHello0 (s : State) (nonce : List Byte) : Only 0x200010 s (State.doSvcHello s nonce) := by
  unfold State.doSvcHello
  try dsimp only
  repeat' first
    | with_reducible exact Only.refl _ _
    | with_reducible refine Only.ite ?_ ?_
    | with_reducible refine Only.setMbx (by decide) ?_
    | with_reducible refine Only.nonce16 (by decide) ?_
    | with_reducible refine Only.sessMod (by decide) ?_
    | with_reducible refine Only.sessionEnd (by decide) ?_
    | with_reducible refine Only.svcLevel (by decide) ?_
    | with_reducible refine Only.setBoot (by decide) ?_
    | with_reducible refine Only.svcSend (by decide) ?_

theorem Only.doSvcHello {m₀ : Nat} {s₀ t₀ : State} {nonce : List Byte} (hm₀ : 0x200010 ||| m₀ = m₀)
    (h₀ : Only m₀ s₀ t₀) : Only m₀ s₀ (State.doSvcHello t₀ nonce) :=
  h₀.step (Only.doSvcHello0 t₀ _) hm₀

theorem Only.doSvcLockoutEnd0 (s : State) : Only 0x210004 s (State.doSvcLockoutEnd s) := by
  unfold State.doSvcLockoutEnd
  try dsimp only
  repeat' first
    | with_reducible exact Only.refl _ _
    | with_reducible refine Only.waitUntil (by decide) ?_
    | with_reducible refine Only.setBoot (by decide) ?_
    | split

theorem Only.doSvcLockoutEnd {m₀ : Nat} {s₀ t₀ : State}  (hm₀ : 0x210004 ||| m₀ = m₀)
    (h₀ : Only m₀ s₀ t₀) : Only m₀ s₀ (State.doSvcLockoutEnd t₀) :=
  h₀.step (Only.doSvcLockoutEnd0 t₀) hm₀

theorem Only.sessionKeys0 (s : State) (slot : Nat) (key ctx : List Byte) : Only 0x800B s
    (State.sessionKeys s slot key ctx) := by
  unfold State.sessionKeys
  try dsimp only
  repeat' first
    | with_reducible exact Only.refl _ _
    | with_reducible refine Only.bumpBy (by decide) ?_
    | with_reducible refine Only.slotPut (by decide) ?_

theorem Only.sessionKeys {m₀ : Nat} {s₀ t₀ : State} {slot : Nat} {key ctx : List Byte} (hm₀ : 0x800B ||| m₀ = m₀)
    (h₀ : Only m₀ s₀ t₀) : Only m₀ s₀ (State.sessionKeys t₀ slot key ctx) :=
  h₀.step (Only.sessionKeys0 t₀ _ _ _) hm₀

theorem Only.proofDone0 (s : State) (secured : Bool) (body : List Byte) : Only 0x200000 s
    (State.proofDone s secured body) := by
  unfold State.proofDone
  try dsimp only
  repeat' first
    | with_reducible exact Only.refl _ _
    | with_reducible refine Only.sessMod (by decide) ?_
    | with_reducible refine Only.setBoot (by decide) ?_
    | with_reducible refine Only.svcSend (by decide) ?_

theorem Only.proofDone {m₀ : Nat} {s₀ t₀ : State} {secured : Bool} {body : List Byte} (hm₀ : 0x200000 ||| m₀ = m₀)
    (h₀ : Only m₀ s₀ t₀) : Only m₀ s₀ (State.proofDone t₀ secured body) :=
  h₀.step (Only.proofDone0 t₀ _ _) hm₀

theorem Only.proofFail0 (s : State) : Only 0x20001B s (State.proofFail s) := by
  unfold State.proofFail
  try dsimp only
  repeat' first
    | with_reducible exact Only.refl _ _
    | with_reducible refine Only.bump (by decide) ?_
    | with_reducible refine Only.raise (by decide) ?_
    | with_reducible refine Only.sessionEnd (by decide) ?_
    | with_reducible refine Only.setBoot (by decide) ?_

theorem Only.proofFail {m₀ : Nat} {s₀ t₀ : State}  (hm₀ : 0x20001B ||| m₀ = m₀)
    (h₀ : Only m₀ s₀ t₀) : Only m₀ s₀ (State.proofFail t₀) :=
  h₀.step (Only.proofFail0 t₀) hm₀

theorem Only.doSvcProof0 (s : State) (session : Nat) (body : List Byte) : Only 0x20801B s
    (State.doSvcProof s session body) := by
  unfold State.doSvcProof
  try dsimp only
  repeat' first
    | with_reducible exact Only.refl _ _
    | with_reducible refine Only.ite ?_ ?_
    | with_reducible refine Only.sessionKeys (by decide) ?_
    | with_reducible refine Only.proofDone (by decide) ?_
    | with_reducible refine Only.proofFail (by decide) ?_
    | split

theorem Only.doSvcProof {m₀ : Nat} {s₀ t₀ : State} {session : Nat} {body : List Byte} (hm₀ : 0x20801B ||| m₀ = m₀)
    (h₀ : Only m₀ s₀ t₀) : Only m₀ s₀ (State.doSvcProof t₀ session body) :=
  h₀.step (Only.doSvcProof0 t₀ _ _) hm₀

theorem Only.doSvcSessionTimeout0 (s : State) : Only 0x210014 s (State.doSvcSessionTimeout s) := by
  unfold State.doSvcSessionTimeout
  try dsimp only
  repeat' first
    | with_reducible exact Only.refl _ _
    | with_reducible refine Only.waitUntil (by decide) ?_
    | with_reducible refine Only.sessionEnd (by decide) ?_
    | split

theorem Only.doSvcSessionTimeout {m₀ : Nat} {s₀ t₀ : State}  (hm₀ : 0x210014 ||| m₀ = m₀)
    (h₀ : Only m₀ s₀ t₀) : Only m₀ s₀ (State.doSvcSessionTimeout t₀) :=
  h₀.step (Only.doSvcSessionTimeout0 t₀) hm₀

theorem Only.txRelease0 (s : State) (n k : Nat) : Only 0x9 s (State.txRelease s n k) := by
  unfold State.txRelease
  try dsimp only
  repeat' first
    | with_reducible exact Only.refl _ _
    | with_reducible refine Only.ite ?_ ?_
    | with_reducible refine Only.rset (by decide) ?_
    | with_reducible refine Only.hostMem (by decide) ?_
    | with_reducible refine Only.signal (by decide) ?_

theorem Only.txRelease {m₀ : Nat} {s₀ t₀ : State} {n k : Nat} (hm₀ : 0x9 ||| m₀ = m₀)
    (h₀ : Only m₀ s₀ t₀) : Only m₀ s₀ (State.txRelease t₀ n k) :=
  h₀.step (Only.txRelease0 t₀ _ _) hm₀

theorem Only.txInject0 (s : State) (b : List Byte) (tsReq : Option Nat) : Only 0x80 s (State.txInject s b tsReq) := by
  unfold State.txInject
  try dsimp only
  repeat' first
    | with_reducible exact Only.refl _ _
    | with_reducible refine Only.setFr (by decide) ?_

theorem Only.txInject {m₀ : Nat} {s₀ t₀ : State} {b : List Byte} {tsReq : Option Nat} (hm₀ : 0x80 ||| m₀ = m₀)
    (h₀ : Only m₀ s₀ t₀) : Only m₀ s₀ (State.txInject t₀ b tsReq) :=
  h₀.step (Only.txInject0 t₀ _ _) hm₀

theorem Only.doTxRecordFetch0 (s : State) (n : Nat) (hdr frame : List Byte) : Only 0x8B s
    (State.doTxRecordFetch s n hdr frame) := by
  unfold State.doTxRecordFetch
  try dsimp only
  repeat' first
    | with_reducible exact Only.refl _ _
    | with_reducible refine Only.ite ?_ ?_
    | with_reducible refine Only.txRelease (by decide) ?_
    | with_reducible refine Only.bump (by decide) ?_
    | with_reducible refine Only.txInject (by decide) ?_
    | with_reducible refine Only.rset (by decide) ?_
    | with_reducible refine Only.hostIn (by decide) ?_
    | with_reducible refine Only.raise (by decide) ?_

theorem Only.doTxRecordFetch {m₀ : Nat} {s₀ t₀ : State} {n : Nat} {hdr frame : List Byte} (hm₀ : 0x8B ||| m₀ = m₀)
    (h₀ : Only m₀ s₀ t₀) : Only m₀ s₀ (State.doTxRecordFetch t₀ n hdr frame) :=
  h₀.step (Only.doTxRecordFetch0 t₀ _ _ _) hm₀

theorem ExecOnly.evqConfig0 (c : Cmd) (s : State) : ExecOnly 0xB s (State.evqConfig c s) := by
  unfold State.evqConfig
  try dsimp only
  repeat' first
    | with_reducible exact Only.refl _ _
    | with_reducible refine ExecOnly.done ?_
    | with_reducible refine ExecOnly.ite ?_ ?_
    | with_reducible refine ExecOnly.need ?_ ?_
    | with_reducible refine Only.rset64 (by decide) ?_
    | with_reducible refine Only.evqGap (by decide) ?_
    | with_reducible refine Only.rset (by decide) ?_
    | with_reducible refine ExecOnly.check ?_ ?_
    | with_reducible refine Only.evqDisable (by decide) ?_

theorem ExecOnly.evqConfig {m₀ : Nat} {s₀ t₀ : State} {c : Cmd} (hm₀ : 0xB ||| m₀ = m₀)
    (h₀ : Only m₀ s₀ t₀) : ExecOnly m₀ s₀ (State.evqConfig c t₀) :=
  ExecOnly.after h₀ (ExecOnly.evqConfig0 _ t₀) hm₀

theorem ExecOnly.hostResyncCmd0 (c : Cmd) (s : State) : ExecOnly 0x4B s (State.hostResyncCmd c s) := by
  unfold State.hostResyncCmd
  try dsimp only
  repeat' first
    | with_reducible exact Only.refl _ _
    | with_reducible refine Only.ite ?_ ?_
    | with_reducible refine ExecOnly.done ?_
    | with_reducible refine Only.setFwd (by decide) ?_
    | with_reducible refine Only.raise (by decide) ?_

theorem ExecOnly.hostResyncCmd {m₀ : Nat} {s₀ t₀ : State} {c : Cmd} (hm₀ : 0x4B ||| m₀ = m₀)
    (h₀ : Only m₀ s₀ t₀) : ExecOnly m₀ s₀ (State.hostResyncCmd c t₀) :=
  ExecOnly.after h₀ (ExecOnly.hostResyncCmd0 _ t₀) hm₀

theorem ExecOnly.journalMark0 (c : Cmd) (s : State) : ExecOnly 0x0 s (State.journalMark c s) := by
  unfold State.journalMark
  try dsimp only
  repeat' first
    | with_reducible exact Only.refl _ _
    | with_reducible refine ExecOnly.done ?_

theorem ExecOnly.journalMark {m₀ : Nat} {s₀ t₀ : State} {c : Cmd} (hm₀ : 0x0 ||| m₀ = m₀)
    (h₀ : Only m₀ s₀ t₀) : ExecOnly m₀ s₀ (State.journalMark c t₀) :=
  ExecOnly.after h₀ (ExecOnly.journalMark0 _ t₀) hm₀

theorem ExecOnly.journalRead0 (c : Cmd) (s : State) : ExecOnly 0x0 s (State.journalRead c s) := by
  unfold State.journalRead
  try dsimp only
  repeat' first
    | with_reducible exact Only.refl _ _
    | with_reducible exact ExecOnly.wait
    | with_reducible refine ExecOnly.done ?_
    | with_reducible refine ExecOnly.ite ?_ ?_
    | with_reducible refine ExecOnly.check ?_ ?_
    | with_reducible refine ExecOnly.fail ?_
    | with_reducible refine Only.hostOut (by decide) ?_
    | split

theorem ExecOnly.journalRead {m₀ : Nat} {s₀ t₀ : State} {c : Cmd} (hm₀ : 0x0 ||| m₀ = m₀)
    (h₀ : Only m₀ s₀ t₀) : ExecOnly m₀ s₀ (State.journalRead c t₀) :=
  ExecOnly.after h₀ (ExecOnly.journalRead0 _ t₀) hm₀

theorem Only.pcieReset0 (s : State) (linkUp : Bool) : Only 0x1003AB s (State.pcieReset s linkUp) := by
  unfold State.pcieReset
  try dsimp only
  repeat' first
    | with_reducible exact Only.refl _ _
    | with_reducible refine Only.ite ?_ ?_
    | with_reducible refine Only.setHif (by decide) ?_
    | with_reducible refine Only.hostQueuesOff (by decide) ?_

theorem Only.pcieReset {m₀ : Nat} {s₀ t₀ : State} {linkUp : Bool} (hm₀ : 0x1003AB ||| m₀ = m₀)
    (h₀ : Only m₀ s₀ t₀) : Only m₀ s₀ (State.pcieReset t₀ linkUp) :=
  h₀.step (Only.pcieReset0 t₀ _) hm₀

theorem Only.ringEnable0 (s : State) (tx : Bool) (n flags : Nat) (size base wb : Nat) : Only 0x9 s
    (State.ringEnable s tx n flags size base wb) := by
  unfold State.ringEnable
  try dsimp only
  repeat' first
    | with_reducible exact Only.refl _ _
    | with_reducible refine Only.ite ?_ ?_
    | with_reducible refine Only.setHif (by decide) ?_
    | with_reducible refine Only.rset (by decide) ?_

theorem Only.ringEnable {m₀ : Nat} {s₀ t₀ : State} {tx : Bool} {n flags : Nat} {size base wb : Nat}
    (hm₀ : 0x9 ||| m₀ = m₀) (h₀ : Only m₀ s₀ t₀) : Only m₀ s₀ (State.ringEnable t₀ tx n flags size base wb) :=
  h₀.step (Only.ringEnable0 t₀ _ _ _ _ _ _) hm₀

theorem ExecOnly.ringConfig0 (c : Cmd) (s : State) : ExecOnly 0x1003AB s (State.ringConfig c s) := by
  unfold State.ringConfig
  try dsimp only
  repeat' first
    | with_reducible exact Only.refl _ _
    | with_reducible refine Only.ite ?_ ?_
    | with_reducible refine ExecOnly.done ?_
    | with_reducible refine ExecOnly.ite ?_ ?_
    | with_reducible refine ExecOnly.need ?_ ?_
    | with_reducible refine Only.rxDisable (by decide) ?_
    | with_reducible refine Only.txDisable (by decide) ?_
    | with_reducible refine Only.ringEnable (by decide) ?_
    | with_reducible refine ExecOnly.check ?_ ?_

theorem ExecOnly.ringConfig {m₀ : Nat} {s₀ t₀ : State} {c : Cmd} (hm₀ : 0x1003AB ||| m₀ = m₀)
    (h₀ : Only m₀ s₀ t₀) : ExecOnly m₀ s₀ (State.ringConfig c t₀) :=
  ExecOnly.after h₀ (ExecOnly.ringConfig0 _ t₀) hm₀

theorem Only.updArm0 (s : State) (u : Update) (auto : Bool) : Only 0x200000 s (State.updArm s u auto) := by
  unfold State.updArm
  try dsimp only
  repeat' first
    | with_reducible exact Only.refl _ _
    | with_reducible refine Only.descWrite (by decide) ?_
    | with_reducible refine Only.setBoot (by decide) ?_

theorem Only.updArm {m₀ : Nat} {s₀ t₀ : State} {u : Update} {auto : Bool} (hm₀ : 0x200000 ||| m₀ = m₀)
    (h₀ : Only m₀ s₀ t₀) : Only m₀ s₀ (State.updArm t₀ u auto) :=
  h₀.step (Only.updArm0 t₀ _ _) hm₀

theorem ExecOnly.updActivate0 (stepsFail revokeFail : Nat) (c : Cmd) (s : State) : ExecOnly 0x20000B s
    (State.updActivate stepsFail revokeFail c s) := by
  unfold State.updActivate
  try dsimp only
  repeat' first
    | with_reducible exact Only.refl _ _
    | with_reducible assumption
    | with_reducible refine ExecOnly.done ?_
    | with_reducible refine ExecOnly.ite ?_ ?_
    | with_reducible refine ExecOnly.need ?_ ?_
    | with_reducible refine Only.updArm (by decide) ?_
    | with_reducible refine Only.confirm (by decide) ?_
    | with_reducible refine ExecOnly.check ?_ ?_
    | with_reducible refine ExecOnly.fail ?_
    | with_reducible refine ExecOnly.Exec_update (fun _ _ => ?_) (by decide) ?_
    | split

theorem ExecOnly.updActivate {m₀ : Nat} {s₀ t₀ : State} {stepsFail revokeFail : Nat} {c : Cmd}
    (hm₀ : 0x20000B ||| m₀ = m₀) (h₀ : Only m₀ s₀ t₀) : ExecOnly m₀ s₀ (State.updActivate stepsFail revokeFail c t₀) :=
  ExecOnly.after h₀ (ExecOnly.updActivate0 _ _ _ t₀) hm₀

theorem ExecOnly.updBlock0 (flashOk : Bool) (c : Cmd) (s : State) : ExecOnly 0x200000 s (State.updBlock flashOk c s) := by
  unfold State.updBlock
  try dsimp only
  repeat' first
    | with_reducible exact Only.refl _ _
    | with_reducible assumption
    | with_reducible refine ExecOnly.done ?_
    | with_reducible refine ExecOnly.ite ?_ ?_
    | with_reducible refine ExecOnly.need ?_ ?_
    | with_reducible refine ExecOnly.check ?_ ?_
    | with_reducible refine ExecOnly.fail ?_
    | with_reducible refine Only.flashPut (by decide) ?_
    | with_reducible refine Only.setBoot (by decide) ?_
    | with_reducible refine ExecOnly.Exec_update (fun _ _ => ?_) (by decide) ?_
    | split

theorem ExecOnly.updBlock {m₀ : Nat} {s₀ t₀ : State} {flashOk : Bool} {c : Cmd} (hm₀ : 0x200000 ||| m₀ = m₀)
    (h₀ : Only m₀ s₀ t₀) : ExecOnly m₀ s₀ (State.updBlock flashOk c t₀) :=
  ExecOnly.after h₀ (ExecOnly.updBlock0 _ _ t₀) hm₀

theorem ExecOnly.updSessionOpen0 (flashOk : Bool) (c : Cmd) (s : State) : ExecOnly 0x200000 s
    (State.updSessionOpen flashOk c s) := by
  unfold State.updSessionOpen
  try dsimp only
  repeat' first
    | with_reducible exact Only.refl _ _
    | with_reducible assumption
    | with_reducible refine ExecOnly.done ?_
    | with_reducible refine ExecOnly.need ?_ ?_
    | with_reducible refine ExecOnly.check ?_ ?_
    | with_reducible refine Only.flashPut (by decide) ?_
    | with_reducible refine Only.setBoot (by decide) ?_
    | with_reducible refine ExecOnly.Exec_update (fun _ _ => ?_) (by decide) ?_

theorem ExecOnly.updSessionOpen {m₀ : Nat} {s₀ t₀ : State} {flashOk : Bool} {c : Cmd} (hm₀ : 0x200000 ||| m₀ = m₀)
    (h₀ : Only m₀ s₀ t₀) : ExecOnly m₀ s₀ (State.updSessionOpen flashOk c t₀) :=
  ExecOnly.after h₀ (ExecOnly.updSessionOpen0 _ _ t₀) hm₀

theorem ExecOnly.updVerify0 (_c : Cmd) (s : State) : ExecOnly 0x200000 s (State.updVerify _c s) := by
  unfold State.updVerify
  try dsimp only
  repeat' first
    | with_reducible exact Only.refl _ _
    | with_reducible assumption
    | with_reducible refine ExecOnly.done ?_
    | with_reducible refine ExecOnly.ite ?_ ?_
    | with_reducible refine ExecOnly.need ?_ ?_
    | with_reducible refine ExecOnly.check ?_ ?_
    | with_reducible refine ExecOnly.fail ?_
    | with_reducible refine Only.setBoot (by decide) ?_
    | with_reducible refine ExecOnly.Exec_update (fun _ _ => ?_) (by decide) ?_
    | split

theorem ExecOnly.updVerify {m₀ : Nat} {s₀ t₀ : State} {_c : Cmd} (hm₀ : 0x200000 ||| m₀ = m₀)
    (h₀ : Only m₀ s₀ t₀) : ExecOnly m₀ s₀ (State.updVerify _c t₀) :=
  ExecOnly.after h₀ (ExecOnly.updVerify0 _ t₀) hm₀

end Sys2Proof.Machine
end

