-- ==== Sys2Proof/Laws/Counters.lean ====
section
/-! SUPPORT.
What an event and a counter do to the registers: an event changes the produce and lost counts of
the event queues alone, and a counter its own register besides. -/

namespace Sys2Proof.Machine

/-- The registers that raising an event may change. -/
def eventReg (o : Nat) : Bool := o == 0x14004 || o == 0x14044 || o == 0x1400C || o == 0x1404C

namespace State

/-- The registers outside the event queues' counts stand as they are. -/
def KeepsRegs (s t : State) : Prop := ∀ o, eventReg o = false → t.rget o = s.rget o

theorem KeepsRegs.refl (s : State) : s.KeepsRegs s := fun _ _ => rfl

theorem KeepsRegs.trans {s t u : State} (h : s.KeepsRegs t) (k : t.KeepsRegs u) : s.KeepsRegs u :=
  fun o ho => (k o ho).trans (h o ho)

theorem keepsRegs_rset (s : State) {p : Nat} (v : Word) (h : eventReg p = true) : s.KeepsRegs (s.rset p v) := by
  intro o ho
  refine rget_rset_other _ _ ?_
  rintro rfl
  rw [h] at ho
  cases ho

theorem mwrite_rget (l : List Byte) (s : State) (a o : Nat) : (s.mwrite a l).rget o = s.rget o := by
  induction l generalizing s a with
  | nil => rfl
  | cons b t ih => rw [mwrite, ih, mset_rget]

theorem signal_rget (s : State) (v o : Nat) : (s.signal v).rget o = s.rget o := by
  unfold State.signal
  split
  · rfl
  · split <;> rfl

theorem hostOut_rget (s : State) (a : Nat) (b : List Byte) (o : Nat) : (s.hostOut a b).rget o = s.rget o := by
  unfold State.hostOut
  generalize spans s.maxPayload b.length = l
  suffices h : ∀ t : State, t.rget o = s.rget o →
      (l.foldl (fun u x => u.emit (.hostWrite (a + x.1) ((b.drop x.1).take x.2) {})) t).rget o = s.rget o from h s rfl
  induction l with
  | nil => exact fun _ h => h
  | cons x r ih => exact fun t h => ih (t.emit _) h

theorem hostMem_rget (s : State) (v a : Nat) (b : List Byte) (o : Nat) : (s.hostMem v a b).rget o = s.rget o := by
  unfold State.hostMem
  split
  · exact hostOut_rget s a b o
  · rfl

theorem evqWrite_keepsRegs (s : State) {h : Nat} (hh : h = 0 ∨ h = 1) (code sev unit arg : Nat) :
    s.KeepsRegs (s.evqWrite h code sev unit arg) := by
  have e : eventReg (Reg.evqProd h) = true := by rcases hh with rfl | rfl <;> decide
  unfold State.evqWrite
  extract_lets k n r t u
  have ht : s.KeepsRegs t := keepsRegs_rset _ _ e
  split
  · split
    · exact ht.trans fun o _ => by rw [signal_rget]; exact hostMem_rget ..
    · exact ht.trans fun o _ => hostMem_rget ..
  · exact ht.trans fun o _ => mwrite_rget ..

theorem evqGap_keepsRegs (s : State) {h : Nat} (hh : h = 0 ∨ h = 1) : s.KeepsRegs (s.evqGap h) := by
  unfold State.evqGap
  extract_lets lost t
  split
  · exact (evqWrite_keepsRegs s hh _ _ _ _).trans fun o _ => rfl
  · exact .refl s

theorem evqPut_keepsRegs (s : State) {h : Nat} (hh : h = 0 ∨ h = 1) (code sev unit arg : Nat) :
    s.KeepsRegs (s.evqPut h code sev unit arg) := by
  have e : eventReg (Reg.evqLostCnt h) = true := by rcases hh with rfl | rfl <;> decide
  unfold State.evqPut
  extract_lets lost x t u
  refine KeepsRegs.trans ?_ (evqGap_keepsRegs _ hh)
  show s.KeepsRegs (if _ then _ else _)
  split
  · show s.KeepsRegs (if _ then _ else _)
    split
    · exact fun o _ => rfl
    · exact KeepsRegs.trans (t := t) (fun o _ => rfl) (keepsRegs_rset t _ e)
  · exact evqWrite_keepsRegs s hh _ _ _ _

theorem evBoth_keepsRegs (s : State) (code sev unit arg : Nat) : s.KeepsRegs (s.evBoth code sev unit arg) :=
  (evqPut_keepsRegs s (.inl rfl) _ _ _ _).trans (evqPut_keepsRegs _ (.inr rfl) _ _ _ _)

theorem lostHalf_keepsRegs (n : Nat) (s t : State) : t.KeepsRegs (lostHalf n s t) := by
  induction n generalizing s t with
  | zero => exact .refl t
  | succ n ih =>
    unfold lostHalf
    generalize lostCrossed s t = l
    suffices h : ∀ u : State, t.KeepsRegs u → t.KeepsRegs (l.foldl (fun u h =>
        lostHalf n u (u.evBoth 0xF001 (Config.severity 0xF001).toNat 0 (Reg.evqLostCnt h))) u) from h t (.refl t)
    induction l with
    | nil => exact fun _ h => h
    | cons x r k => exact fun u h => k _ (h.trans ((evBoth_keepsRegs u _ _ _ _).trans (ih _ _)))

theorem raiseSev_keepsRegs (s : State) (code sev unit arg : Nat) : s.KeepsRegs (s.raiseSev code sev unit arg) :=
  (evBoth_keepsRegs s _ _ _ _).trans (lostHalf_keepsRegs _ _ _)

/-- An event changes no register but the event queues' counts. -/
theorem raise_keepsRegs (s : State) (code arg : Nat) : s.KeepsRegs (s.raise code arg) := raiseSev_keepsRegs _ _ _ _ _

/-- A counter that runs advances by `n`; every other register but the event queues' counts
stays. -/
theorem bumpBy_rget (s : State) {o : Nat} (n p : Nat) (ho : eventReg o = false) (hp : eventReg p = false)
    (hs : s.stopped o = false) :
    (s.bumpBy o n).rget p = if p = o then s.rget o + BitVec.ofNat 32 n else s.rget p := by
  unfold State.bumpBy
  extract_lets a b t
  simp only [hs, Bool.false_eq_true, if_false]
  have ht : t.rget p = if p = o then s.rget o + BitVec.ofNat 32 n else s.rget p := by
    simp only [t, rget_rset]; rfl
  split
  · rw [raiseSev_keepsRegs t _ _ _ _ p hp, ht]
  · exact ht

/-- A counter of a quenched domain stands still. -/
theorem bumpBy_stopped (s : State) (o n : Nat) (hs : s.stopped o = true) : s.bumpBy o n = s := by
  simp [State.bumpBy, hs]

theorem bump_rget (s : State) {o : Nat} (p : Nat) (ho : eventReg o = false) (hp : eventReg p = false)
    (hs : s.stopped o = false) : (s.bump o).rget p = if p = o then s.rget o + 1 else s.rget p :=
  bumpBy_rget s 1 p ho hp hs

/-- A counter changes no register but its own and the event queues' counts. -/
theorem bumpBy_other (s : State) (o n p : Nat) (hp : eventReg p = false) (h : p ≠ o) : (s.bumpBy o n).rget p = s.rget p := by
  unfold State.bumpBy
  extract_lets a b t
  have ht : t.rget p = s.rget p := rget_rset_other _ _ h
  split
  · rfl
  · split
    · rw [raiseSev_keepsRegs t _ _ _ _ p hp, ht]
    · exact ht

theorem bump_other (s : State) (o p : Nat) (hp : eventReg p = false) (h : p ≠ o) : (s.bump o).rget p = s.rget p :=
  bumpBy_other s o 1 p hp h

end State

end Sys2Proof.Machine
end

