-- ==== Sys2Proof/Laws/Host.lean ====
section
/-! SUPPORT.
Posted writes of a host that reaches the registers: where they go, and when a write does nothing
beyond the register it names. -/

namespace Sys2Proof.Machine

theorem guardExpire_fresh (s : State) (h : ∀ g ∈ s.hif.guards, s.clk ≤ g.since + 1000) : s.guardExpire = s := by
  unfold State.guardExpire
  suffices ∀ l : List GuardPair, (∀ g ∈ l, s.clk ≤ g.since + 1000) →
      l.foldl (fun t g => if g.since + 1000 < s.clk then t.guardRefuse g ((g.since + 1000) / 1000 % 2 ^ 32) else t) s = s by
    exact this _ h
  intro l hl
  induction l with
  | nil => rfl
  | cons a r ih =>
    have := hl a (by simp)
    simp only [List.foldl_cons, if_neg (show ¬ a.since + 1000 < s.clk by omega)]
    exact ih fun g hg => hl g (List.mem_cons_of_mem _ hg)

theorem hostPost_reached (s : State) (h : s.Reached) (host tag addr : Nat) (v : Word) :
    s.hostPost host tag addr v = (s.writeReg host tag addr v).regHook addr := by
  have e : (if host = 0 then s.linkSeen else s) = s := by
    split
    · simp [State.linkSeen, h.link]
    · rfl
  simp [State.hostPost, h.up, e, State.postReg, h.runs]

theorem plain_afterWrite (s : State) (off : Nat) (old new v : Word) (h : plainReg off = true) :
    s.afterWrite off old new v = s := by
  simp only [plainReg, Bool.and_eq_true, decide_eq_true_eq, List.mem_cons,
    List.not_mem_nil, or_false, not_or, Option.isNone_iff_eq_none] at h
  obtain ⟨⟨⟨⟨⟨⟨⟨⟨h5, h7, h8⟩, a, b, c, d, e, e2⟩, f⟩, g⟩, i⟩, j⟩, k⟩, l⟩ := h
  have w5 : ¬ off = Reg.bufSchedCells := by intro x; subst x; exact h5 (by decide)
  have w6 : ¬ (off = Reg.bufOvfRegion ∨ off = Reg.bufCtrl) := by
    rintro (x | x) <;> subst x <;> exact h5 (by decide)
  unfold State.afterWrite
  simp only [if_neg a, if_neg b, if_neg c, if_neg d, if_neg e, if_neg e2, if_neg w5, if_neg w6, f, g, i, j, k, l]

theorem plain_regHook (s : State) (off : Nat) (h : plainReg off = true) (w : off < 0x80000) : s.regHook off = s := by
  simp only [plainReg, Bool.and_eq_true, decide_eq_true_eq, List.mem_cons,
    List.not_mem_nil, or_false, not_or, Option.isNone_iff_eq_none] at h
  obtain ⟨⟨⟨⟨⟨⟨⟨⟨h5, h7, h8⟩, _⟩, _⟩, _⟩, _⟩, _⟩, _⟩, _⟩ := h
  unfold State.regHook State.regOfAddr
  rw [if_pos w]
  split <;> first | contradiction | rfl

theorem writeReg_alias (s : State) (host tag addr : Nat) (v : Word) (h1 : 0x01000000 ≤ addr) (h2 : addr < 0x02000000) :
    s.writeReg host tag addr v =
      s.guardExpire.writeAlias host tag ((addr - 0x01000000) / 128 * 4) ((addr - 0x01000000) / 4 % 32) v := by
  unfold State.writeReg
  rw [if_neg (by omega), if_neg (by omega), if_pos ⟨h1, h2⟩]

end Sys2Proof.Machine
end

