-- ==== Sys2Proof/Laws/Time.lean ====
section
/-! SUPPORT.
What passing time changes: the local clock and the time domains, and nothing else. -/

namespace Sys2Proof.Machine.State

@[simp] theorem tick_regs (s : State) (k : Nat) : (s.tick k).regs = s.regs := by unfold tick; split <;> [rfl; split <;> rfl]
@[simp] theorem tick_mem (s : State) (k : Nat) : (s.tick k).mem = s.mem := by unfold tick; split <;> [rfl; split <;> rfl]
@[simp] theorem tick_hif (s : State) (k : Nat) : (s.tick k).hif = s.hif := by unfold tick; split <;> [rfl; split <;> rfl]
@[simp] theorem tick_mbx (s : State) (k : Nat) : (s.tick k).mbx = s.mbx := by unfold tick; split <;> [rfl; split <;> rfl]
@[simp] theorem tick_cal (s : State) (k : Nat) : (s.tick k).cal = s.cal := by unfold tick; split <;> [rfl; split <;> rfl]
@[simp] theorem tick_fwd (s : State) (k : Nat) : (s.tick k).fwd = s.fwd := by unfold tick; split <;> [rfl; split <;> rfl]
@[simp] theorem tick_fr (s : State) (k : Nat) : (s.tick k).fr = s.fr := by unfold tick; split <;> [rfl; split <;> rfl]
@[simp] theorem tick_buf (s : State) (k : Nat) : (s.tick k).buf = s.buf := by unfold tick; split <;> [rfl; split <;> rfl]
@[simp] theorem tick_trf (s : State) (k : Nat) : (s.tick k).trf = s.trf := by unfold tick; split <;> [rfl; split <;> rfl]
@[simp] theorem tick_edg (s : State) (k : Nat) : (s.tick k).edg = s.edg := by unfold tick; split <;> [rfl; split <;> rfl]
@[simp] theorem tick_tun (s : State) (k : Nat) : (s.tick k).tun = s.tun := by unfold tick; split <;> [rfl; split <;> rfl]
@[simp] theorem tick_sig (s : State) (k : Nat) : (s.tick k).sig = s.sig := by unfold tick; split <;> [rfl; split <;> rfl]
@[simp] theorem tick_e2e (s : State) (k : Nat) : (s.tick k).e2e = s.e2e := by unfold tick; split <;> [rfl; split <;> rfl]
@[simp] theorem tick_sec (s : State) (k : Nat) : (s.tick k).sec = s.sec := by unfold tick; split <;> [rfl; split <;> rfl]
@[simp] theorem tick_key (s : State) (k : Nat) : (s.tick k).key = s.key := by unfold tick; split <;> [rfl; split <;> rfl]
@[simp] theorem tick_pwr (s : State) (k : Nat) : (s.tick k).pwr = s.pwr := by unfold tick; split <;> [rfl; split <;> rfl]
@[simp] theorem tick_nm (s : State) (k : Nat) : (s.tick k).nm = s.nm := by unfold tick; split <;> [rfl; split <;> rfl]
@[simp] theorem tick_pair (s : State) (k : Nat) : (s.tick k).pair = s.pair := by unfold tick; split <;> [rfl; split <;> rfl]
@[simp] theorem tick_fnc (s : State) (k : Nat) : (s.tick k).fnc = s.fnc := by unfold tick; split <;> [rfl; split <;> rfl]
@[simp] theorem tick_boot (s : State) (k : Nat) : (s.tick k).boot = s.boot := by unfold tick; split <;> [rfl; split <;> rfl]
@[simp] theorem tick_pending (s : State) (k : Nat) : (s.tick k).pending = s.pending := by unfold tick; split <;> [rfl; split <;> rfl]
@[simp] theorem tick_out (s : State) (k : Nat) : (s.tick k).out = s.out := by unfold tick; split <;> [rfl; split <;> rfl]
@[simp] theorem tick_freeCtr (s : State) (k : Nat) : (s.tick k).freeCtr = s.freeCtr := by unfold tick; split <;> [rfl; split <;> rfl]
@[simp] theorem waitUntil_regs (s : State) (t : Nat) : (s.waitUntil t).regs = s.regs := tick_regs s _
@[simp] theorem waitUntil_mem (s : State) (t : Nat) : (s.waitUntil t).mem = s.mem := tick_mem s _
@[simp] theorem waitUntil_hif (s : State) (t : Nat) : (s.waitUntil t).hif = s.hif := tick_hif s _
@[simp] theorem waitUntil_mbx (s : State) (t : Nat) : (s.waitUntil t).mbx = s.mbx := tick_mbx s _
@[simp] theorem waitUntil_cal (s : State) (t : Nat) : (s.waitUntil t).cal = s.cal := tick_cal s _
@[simp] theorem waitUntil_fwd (s : State) (t : Nat) : (s.waitUntil t).fwd = s.fwd := tick_fwd s _
@[simp] theorem waitUntil_fr (s : State) (t : Nat) : (s.waitUntil t).fr = s.fr := tick_fr s _
@[simp] theorem waitUntil_buf (s : State) (t : Nat) : (s.waitUntil t).buf = s.buf := tick_buf s _
@[simp] theorem waitUntil_trf (s : State) (t : Nat) : (s.waitUntil t).trf = s.trf := tick_trf s _
@[simp] theorem waitUntil_edg (s : State) (t : Nat) : (s.waitUntil t).edg = s.edg := tick_edg s _
@[simp] theorem waitUntil_tun (s : State) (t : Nat) : (s.waitUntil t).tun = s.tun := tick_tun s _
@[simp] theorem waitUntil_sig (s : State) (t : Nat) : (s.waitUntil t).sig = s.sig := tick_sig s _
@[simp] theorem waitUntil_e2e (s : State) (t : Nat) : (s.waitUntil t).e2e = s.e2e := tick_e2e s _
@[simp] theorem waitUntil_sec (s : State) (t : Nat) : (s.waitUntil t).sec = s.sec := tick_sec s _
@[simp] theorem waitUntil_key (s : State) (t : Nat) : (s.waitUntil t).key = s.key := tick_key s _
@[simp] theorem waitUntil_pwr (s : State) (t : Nat) : (s.waitUntil t).pwr = s.pwr := tick_pwr s _
@[simp] theorem waitUntil_nm (s : State) (t : Nat) : (s.waitUntil t).nm = s.nm := tick_nm s _
@[simp] theorem waitUntil_pair (s : State) (t : Nat) : (s.waitUntil t).pair = s.pair := tick_pair s _
@[simp] theorem waitUntil_fnc (s : State) (t : Nat) : (s.waitUntil t).fnc = s.fnc := tick_fnc s _
@[simp] theorem waitUntil_boot (s : State) (t : Nat) : (s.waitUntil t).boot = s.boot := tick_boot s _
@[simp] theorem waitUntil_pending (s : State) (t : Nat) : (s.waitUntil t).pending = s.pending := tick_pending s _
@[simp] theorem waitUntil_out (s : State) (t : Nat) : (s.waitUntil t).out = s.out := tick_out s _
@[simp] theorem waitUntil_freeCtr (s : State) (t : Nat) : (s.waitUntil t).freeCtr = s.freeCtr := tick_freeCtr s _
@[simp] theorem waitDom_regs (s : State) (i t : Nat) : (s.waitDom i t).regs = s.regs := by
  unfold waitDom; extract_lets go; have h : ∀ u : State, (go u).regs = u.regs := by intro u; show (if _ then _ else _ : State).regs = _; split <;> simp
  rw [h, h]
@[simp] theorem waitDom_mem (s : State) (i t : Nat) : (s.waitDom i t).mem = s.mem := by
  unfold waitDom; extract_lets go; have h : ∀ u : State, (go u).mem = u.mem := by intro u; show (if _ then _ else _ : State).mem = _; split <;> simp
  rw [h, h]
@[simp] theorem waitDom_hif (s : State) (i t : Nat) : (s.waitDom i t).hif = s.hif := by
  unfold waitDom; extract_lets go; have h : ∀ u : State, (go u).hif = u.hif := by intro u; show (if _ then _ else _ : State).hif = _; split <;> simp
  rw [h, h]
@[simp] theorem waitDom_mbx (s : State) (i t : Nat) : (s.waitDom i t).mbx = s.mbx := by
  unfold waitDom; extract_lets go; have h : ∀ u : State, (go u).mbx = u.mbx := by intro u; show (if _ then _ else _ : State).mbx = _; split <;> simp
  rw [h, h]
@[simp] theorem waitDom_cal (s : State) (i t : Nat) : (s.waitDom i t).cal = s.cal := by
  unfold waitDom; extract_lets go; have h : ∀ u : State, (go u).cal = u.cal := by intro u; show (if _ then _ else _ : State).cal = _; split <;> simp
  rw [h, h]
@[simp] theorem waitDom_fwd (s : State) (i t : Nat) : (s.waitDom i t).fwd = s.fwd := by
  unfold waitDom; extract_lets go; have h : ∀ u : State, (go u).fwd = u.fwd := by intro u; show (if _ then _ else _ : State).fwd = _; split <;> simp
  rw [h, h]
@[simp] theorem waitDom_fr (s : State) (i t : Nat) : (s.waitDom i t).fr = s.fr := by
  unfold waitDom; extract_lets go; have h : ∀ u : State, (go u).fr = u.fr := by intro u; show (if _ then _ else _ : State).fr = _; split <;> simp
  rw [h, h]
@[simp] theorem waitDom_buf (s : State) (i t : Nat) : (s.waitDom i t).buf = s.buf := by
  unfold waitDom; extract_lets go; have h : ∀ u : State, (go u).buf = u.buf := by intro u; show (if _ then _ else _ : State).buf = _; split <;> simp
  rw [h, h]
@[simp] theorem waitDom_trf (s : State) (i t : Nat) : (s.waitDom i t).trf = s.trf := by
  unfold waitDom; extract_lets go; have h : ∀ u : State, (go u).trf = u.trf := by intro u; show (if _ then _ else _ : State).trf = _; split <;> simp
  rw [h, h]
@[simp] theorem waitDom_edg (s : State) (i t : Nat) : (s.waitDom i t).edg = s.edg := by
  unfold waitDom; extract_lets go; have h : ∀ u : State, (go u).edg = u.edg := by intro u; show (if _ then _ else _ : State).edg = _; split <;> simp
  rw [h, h]
@[simp] theorem waitDom_tun (s : State) (i t : Nat) : (s.waitDom i t).tun = s.tun := by
  unfold waitDom; extract_lets go; have h : ∀ u : State, (go u).tun = u.tun := by intro u; show (if _ then _ else _ : State).tun = _; split <;> simp
  rw [h, h]
@[simp] theorem waitDom_sig (s : State) (i t : Nat) : (s.waitDom i t).sig = s.sig := by
  unfold waitDom; extract_lets go; have h : ∀ u : State, (go u).sig = u.sig := by intro u; show (if _ then _ else _ : State).sig = _; split <;> simp
  rw [h, h]
@[simp] theorem waitDom_e2e (s : State) (i t : Nat) : (s.waitDom i t).e2e = s.e2e := by
  unfold waitDom; extract_lets go; have h : ∀ u : State, (go u).e2e = u.e2e := by intro u; show (if _ then _ else _ : State).e2e = _; split <;> simp
  rw [h, h]
@[simp] theorem waitDom_sec (s : State) (i t : Nat) : (s.waitDom i t).sec = s.sec := by
  unfold waitDom; extract_lets go; have h : ∀ u : State, (go u).sec = u.sec := by intro u; show (if _ then _ else _ : State).sec = _; split <;> simp
  rw [h, h]
@[simp] theorem waitDom_key (s : State) (i t : Nat) : (s.waitDom i t).key = s.key := by
  unfold waitDom; extract_lets go; have h : ∀ u : State, (go u).key = u.key := by intro u; show (if _ then _ else _ : State).key = _; split <;> simp
  rw [h, h]
@[simp] theorem waitDom_pwr (s : State) (i t : Nat) : (s.waitDom i t).pwr = s.pwr := by
  unfold waitDom; extract_lets go; have h : ∀ u : State, (go u).pwr = u.pwr := by intro u; show (if _ then _ else _ : State).pwr = _; split <;> simp
  rw [h, h]
@[simp] theorem waitDom_nm (s : State) (i t : Nat) : (s.waitDom i t).nm = s.nm := by
  unfold waitDom; extract_lets go; have h : ∀ u : State, (go u).nm = u.nm := by intro u; show (if _ then _ else _ : State).nm = _; split <;> simp
  rw [h, h]
@[simp] theorem waitDom_pair (s : State) (i t : Nat) : (s.waitDom i t).pair = s.pair := by
  unfold waitDom; extract_lets go; have h : ∀ u : State, (go u).pair = u.pair := by intro u; show (if _ then _ else _ : State).pair = _; split <;> simp
  rw [h, h]
@[simp] theorem waitDom_fnc (s : State) (i t : Nat) : (s.waitDom i t).fnc = s.fnc := by
  unfold waitDom; extract_lets go; have h : ∀ u : State, (go u).fnc = u.fnc := by intro u; show (if _ then _ else _ : State).fnc = _; split <;> simp
  rw [h, h]
@[simp] theorem waitDom_boot (s : State) (i t : Nat) : (s.waitDom i t).boot = s.boot := by
  unfold waitDom; extract_lets go; have h : ∀ u : State, (go u).boot = u.boot := by intro u; show (if _ then _ else _ : State).boot = _; split <;> simp
  rw [h, h]
@[simp] theorem waitDom_pending (s : State) (i t : Nat) : (s.waitDom i t).pending = s.pending := by
  unfold waitDom; extract_lets go; have h : ∀ u : State, (go u).pending = u.pending := by intro u; show (if _ then _ else _ : State).pending = _; split <;> simp
  rw [h, h]
@[simp] theorem waitDom_out (s : State) (i t : Nat) : (s.waitDom i t).out = s.out := by
  unfold waitDom; extract_lets go; have h : ∀ u : State, (go u).out = u.out := by intro u; show (if _ then _ else _ : State).out = _; split <;> simp
  rw [h, h]
@[simp] theorem waitDom_freeCtr (s : State) (i t : Nat) : (s.waitDom i t).freeCtr = s.freeCtr := by
  unfold waitDom; extract_lets go; have h : ∀ u : State, (go u).freeCtr = u.freeCtr := by intro u; show (if _ then _ else _ : State).freeCtr = _; split <;> simp
  rw [h, h]

@[simp] theorem tick_rget (s : State) (k o : Nat) : (s.tick k).rget o = s.rget o := by simp [rget]
@[simp] theorem tick_mget (s : State) (k a : Nat) : (s.tick k).mget a = s.mget a := by simp [mget]
@[simp] theorem tick_quenched (s : State) (k d : Nat) : (s.tick k).quenched d = s.quenched d := by simp [quenched, fdom]

/-- While the block keeps time, waiting brings the local clock to the time waited for. -/
theorem waitUntil_clk (s : State) (t : Nat) (h : s.pwr.state ≠ .off) (h' : s.pwr.state ≠ .dormant) :
    t ≤ (s.waitUntil t).clk ∧ s.clk ≤ (s.waitUntil t).clk ∧ (s.waitUntil t).clk ≤ max s.clk (t + 1) := by
  have e : (s.waitUntil t).clk = s.clk + 2 * ((t - s.clk + 1) / 2) := by
    unfold waitUntil tick
    rw [if_neg (by simp [h, h'])]
    split <;> rfl
  omega

/-- Time never runs backwards in a tick. -/
theorem tick_clk_le (s : State) (k : Nat) : s.clk ≤ (s.tick k).clk := by
  unfold tick
  split
  · exact le_rfl
  · split <;> simp

end Sys2Proof.Machine.State
end

