-- ==== Sys2Proof/Laws/Commands.lean ====
section
/-! SUPPORT.
Mailbox commands that are ready: how an execution's outcome becomes the next state, and the checks at
the head of an execution that hold. -/

namespace Sys2Proof.Machine

variable {s t : State} {host q op i st r : Nat} {c : Cmd} {d : List Byte} {f : Cmd → State → State.Exec} {e : State.Exec}

theorem State.Ready.runCmd (h : s.Ready host q op c) : s.runCmd host q op f =
    match f c s with
    | .wait => s
    | .run t x => t.cmdMod c.index fun c => { c with phase := .running, deadline := x, pair := (s.corePair).getD 0 }
    | .done t st r d => t.finishCmd c.index st r d := by
  have h1 : ¬ (c.opcode ≠ op ∨ (!s.mayBegin c) = true) := by simp [h.opcode, h.begins]
  have h2 : ¬ (c.ifEpoch = true ∧ (s.rget Reg.mbxCfgEpoch).toNat ≠ c.expectEpoch) := fun x => x.2 (h.epoch x.1)
  have h3 : ¬ (isClassC op = true ∧ (!s.flashOk) = true) := by
    rintro ⟨x, y⟩
    simp [h.flash x] at y
  unfold State.runCmd
  rw [h.head]
  simp only [if_neg h1, if_neg h2, if_neg h3]
  all_goals cases f c s <;> rfl

/-- A ready command whose execution ends at once. -/
theorem runCmd_done (h : s.Ready host q op c) (e : f c s = .done t st r d) :
    s.runCmd host q op f = t.finishCmd c.index st r d := by
  rw [h.runCmd, e]

/-- A ready command whose execution goes on. -/
theorem runCmd_run (h : s.Ready host q op c) (e : f c s = .run t r) :
    s.runCmd host q op f =
      t.cmdMod c.index fun c => { c with phase := .running, deadline := r, pair := (s.corePair).getD 0 } := by
  rw [h.runCmd, e]

/-- A ready command whose execution waits. -/
theorem runCmd_wait (h : s.Ready host q op c) (e : f c s = .wait) : s.runCmd host q op f = s := by
  rw [h.runCmd, e]

/-- A failing execution draws its RESULT and has no other effect. -/
theorem runCmd_fail (h : s.Ready host q op c) (e : f c s = State.Exec.fail s st) :
    s.runCmd host q op f = s.failCmd c.index st := by
  rw [h.runCmd, e]; rfl

@[simp] theorem check_true : State.Exec.check true s st e = e := rfl

@[simp] theorem check_false : State.Exec.check false s st e = State.Exec.fail s st := rfl

theorem need_ok {l : List Nat} (h : ∀ x ∈ l, s.quenched x = false) : State.Exec.need s l e = e := by
  have : l.any s.quenched = false := by rw [List.any_eq_false]; intro x hx; simp [h x hx]
  unfold State.Exec.need
  rw [this]; rfl

theorem need_quenched {l : List Nat} {x : Nat} (hx : x ∈ l) (h : s.quenched x = true) :
    State.Exec.need s l e = State.Exec.fail s St.domainQuenched := by
  have : l.any s.quenched = true := List.any_eq_true.2 ⟨x, hx, h⟩
  unfold State.Exec.need
  rw [this]; rfl

theorem datapath_ok (h : s.datapathUp = true) : State.Exec.datapath s e = e := by
  unfold State.Exec.datapath; rw [h]; rfl

end Sys2Proof.Machine
end

