-- ==== Sys2Proof/Tests/Slice0.lean ====
section
/-! SUPPORT.
Ill-formed commands that the well-formedness check refuses, steps on small states with values
from the spec, and for each statement states and operands that meet its hypotheses. -/

namespace Sys2Proof.Tests

open Sys2Proof Sys2Proof.Machine

set_option Elab.async false

/-! ### Helpers -/

/-- The device in RUN with firmware ready, its PCIe link up and bus mastering on, 5 s after reset. -/
def up : State := { State.reset with
  clk := 5000000000
  pwr := { state := .run, fwReady := true, booted := true }
  hif := { linkUp := true, bme := true, msixEn := true } }

/-- A command of queue 0 of the main host that waits for its execution. -/
def cmdOf (op : Nat) (fields : List (Nat × Nat)) : Cmd :=
  { index := 0, host := 0, queue := 0, slot := 0, seq := 1, opcode := op, flags := 0, tag := 0, hostTime := 0, expectEpoch := 0,
    session := 0, body := State.body fields, acceptTime := 5000000000, acceptDom := [5000000000, 0, 0, 0], phase := .accepted }

/-- A state with that command as the only one taken. -/
def with_ (s : State) (op : Nat) (fields : List (Nat × Nat)) : State := s.setMbx { cmds := [cmdOf op fields] }

theorem reached (s : State)
    (h : (s.bridgeUp && s.hif.linkUp && !s.quenched 9 && s.hif.guards.all fun g => decide (s.clk ≤ g.since + 1000)) = true) :
    s.Reached := by
  simp only [Bool.and_eq_true, Bool.not_eq_true', List.all_eq_true, decide_eq_true_eq] at h
  exact ⟨h.1.1.1, h.1.1.2, h.1.2, h.2⟩

theorem writable (s : State) (host off : Nat) (r : RegRow)
    (h : (decide (off < 0x80000) && s.servedRow off == some r && s.refuseCause host off == none) = true) : s.Writable host off r := by
  simp only [Bool.and_eq_true, decide_eq_true_eq, beq_iff_eq] at h
  exact ⟨h.1.1, h.1.2, h.2⟩

theorem ready (s : State) (host q op : Nat) (c : Cmd)
    (h : (s.headCmd host q == some c && c.opcode == op && s.mayBegin c && !c.ifEpoch && (!isClassC op || s.flashOk)) = true) :
    s.Ready host q op c := by
  simp only [Bool.and_eq_true, Bool.not_eq_true', Bool.or_eq_true, beq_iff_eq] at h
  refine ⟨h.1.1.1.1, h.1.1.1.2, h.1.1.2, ?_, ?_⟩
  · intro he; simp [h.1.2] at he
  · intro hc; rcases h.2 with h2 | h2
    · simp [hc] at h2
    · exact h2

/-- The row of a register. -/
def rowOf (off : Nat) : RegRow := (regRow off).getD ⟨0, 0, 0, 0, 0, 0, 0, 0, 0, 0, false⟩

/-! ### Witnesses: the machine and the host bridge -/

theorem witness_StepRunsFront : ∃ s : State, s.pending = .spiStatus :: [.hotReset] := ⟨{ up with pending := [.spiStatus, .hotReset] }, rfl⟩

theorem witness_IdleTick : (∃ s : State, s.pending = [] ∧ s.pwr.state = .off) ∧ (∃ s : State, s.pending = [] ∧ s.pwr.state = .run) ∧
    (∃ s : State, s.pending = [] ∧ s.pwr.state ≠ .off ∧ s.pwr.state ≠ .dormant ∧ s.pwr.state ≠ .run) :=
  ⟨⟨{ up with pwr := { state := .off } }, by decide +kernel⟩, ⟨up, by decide +kernel⟩, ⟨State.reset, by decide +kernel⟩⟩

theorem witness_StepKeepsCanonical : ∃ s t : State, s.Canonical ∧ step s = .next t :=
  ⟨up, { up with clk := 5000000002 }, ⟨by decide +kernel, by decide +kernel⟩, rfl⟩

theorem witness_StepKeepsOrder : ∃ s t : State, step s = .next t ∧ s.pending ≠ [] :=
  ⟨{ State.reset with pending := [.spiStatus] }, _, rfl, by decide⟩

def guarded : State := up.setHif { up.hif with guards := [⟨Reg.fncCtrl, 5, 0, 7, 4999999000⟩] }

theorem witness_GuardedPair :
    (∃ (s : State) (off : Nat) (r : RegRow), s.Reached ∧ s.Writable 0 off r ∧ r.rwg ≠ 0 ∧ s.guardOf off = none) ∧
    (∃ (s : State) (off : Nat) (r : RegRow) (g : GuardPair), s.Reached ∧ s.Writable 1 off r ∧ r.rwg ≠ 0 ∧ s.guardOf off = some g ∧ (0xFFFFFFFA : Word) = ~~~g.data ∧
      (0 : Word) ≠ ~~~g.data) :=
  ⟨⟨up, Reg.fncCtrl, rowOf Reg.fncCtrl, (by (repeat' apply And.intro) <;> first | exact reached _ (by decide +kernel) | exact writable _ _ _ _ (by decide +kernel) | exact ready _ _ _ _ _ (by decide +kernel) | decide +kernel)⟩, ⟨guarded, Reg.fncCtrl, rowOf Reg.fncCtrl, ⟨Reg.fncCtrl, 5, 0, 7, 4999999000⟩, (by (repeat' apply And.intro) <;> first | exact reached _ (by decide +kernel) | exact writable _ _ _ _ (by decide +kernel) | exact ready _ _ _ _ _ (by decide +kernel) | decide +kernel)⟩⟩

theorem witness_PlainWrite :
    (∃ (s : State) (off : Nat) (r : RegRow), s.Reached ∧ plainReg off = true ∧ s.Writable 0 off r ∧ r.rwg = 0 ∧ r.rw ||| r.ack ||| r.wo ≠ 0) ∧
    (∃ (s : State) (off : Nat) (r : RegRow) (b : Nat), s.Reached ∧ plainReg off = true ∧ s.Writable 1 off r ∧ off % 4 = 0 ∧ b < 32 ∧ bit r.rw b = true) :=
  ⟨⟨up, Reg.hifIrqHoldoff, rowOf Reg.hifIrqHoldoff, (by (repeat' apply And.intro) <;> first | exact reached _ (by decide +kernel) | exact writable _ _ _ _ (by decide +kernel) | exact ready _ _ _ _ _ (by decide +kernel) | decide +kernel)⟩, ⟨up, Reg.hifIrqHoldoff, rowOf Reg.hifIrqHoldoff, 9, (by (repeat' apply And.intro) <;> first | exact reached _ (by decide +kernel) | exact writable _ _ _ _ (by decide +kernel) | exact ready _ _ _ _ _ (by decide +kernel) | decide +kernel)⟩⟩

theorem witness_WriteRefused :
    (∃ (s : State) (off be : Nat), s.Reached ∧ off < 0x80000 ∧ be % 16 ≠ 15) ∧
    (∃ (s : State) (off : Nat), s.Reached ∧ off < 0x80000 ∧ s.servedRow off = none) ∧
    (∃ (s : State) (off : Nat) (r : RegRow), s.Reached ∧ off < 0x80000 ∧ s.servedRow off = some r ∧ s.refuseCause 0 off = some 8) ∧
    (∃ (s : State) (off : Nat) (r : RegRow), s.Reached ∧ off < 0x80000 ∧ s.servedRow off = some r ∧ s.refuseCause 0 off = some 1) ∧
    (∃ (s : State) (off : Nat) (r : RegRow), s.Reached ∧ off < 0x80000 ∧ s.servedRow off = some r ∧ s.refuseCause 0 off = some 2) ∧
    (∃ (s : State) (off : Nat) (r : RegRow), s.Reached ∧ off < 0x80000 ∧ s.servedRow off = some r ∧ s.refuseCause 0 off = some 5) ∧
    (∃ (s : State) (off : Nat) (r : RegRow), s.Reached ∧ off < 0x80000 ∧ s.servedRow off = some r ∧ s.refuseCause 0 off = none ∧
      r.rwg ||| r.rw ||| r.ack ||| r.wo = 0) ∧
    (∃ (s : State) (off : Nat) (r : RegRow) (b : Nat), s.Reached ∧ off < 0x80000 ∧ s.servedRow off = some r ∧ s.refuseCause 1 off = none ∧ off % 4 = 0 ∧ b < 32 ∧
      bit r.rw b = false ∧ r.rwg ≠ 0) :=
  ⟨⟨up, 0x7FFFC, 14, (by (repeat' apply And.intro) <;> first | exact reached _ (by decide +kernel) | exact writable _ _ _ _ (by decide +kernel) | exact ready _ _ _ _ _ (by decide +kernel) | decide +kernel)⟩, ⟨up, 0x7FFFC, (by (repeat' apply And.intro) <;> first | exact reached _ (by decide +kernel) | exact writable _ _ _ _ (by decide +kernel) | exact ready _ _ _ _ _ (by decide +kernel) | decide +kernel)⟩, ⟨up, Reg.mbxSqProd 0 + 0x400, rowOf (Reg.mbxSqProd 0 + 0x400), (by (repeat' apply And.intro) <;> first | exact reached _ (by decide +kernel) | exact writable _ _ _ _ (by decide +kernel) | exact ready _ _ _ _ _ (by decide +kernel) | decide +kernel)⟩,
    ⟨{ up with pwr := {} }, Reg.bufPortFc 0, rowOf (Reg.bufPortFc 0), (by (repeat' apply And.intro) <;> first | exact reached _ (by decide +kernel) | exact writable _ _ _ _ (by decide +kernel) | exact ready _ _ _ _ _ (by decide +kernel) | decide +kernel)⟩,
    ⟨up.setFnc { doms := [(State.ownerOf (Reg.bufPortFc 0), { state := .quenched, own := true })] }, Reg.bufPortFc 0, rowOf (Reg.bufPortFc 0), (by (repeat' apply And.intro) <;> first | exact reached _ (by decide +kernel) | exact writable _ _ _ _ (by decide +kernel) | exact ready _ _ _ _ _ (by decide +kernel) | decide +kernel)⟩,
    ⟨{ up with pwr := { state := .run, dieLinkFailed := true } }, Reg.pwrCtrl, rowOf Reg.pwrCtrl, (by (repeat' apply And.intro) <;> first | exact reached _ (by decide +kernel) | exact writable _ _ _ _ (by decide +kernel) | exact ready _ _ _ _ _ (by decide +kernel) | decide +kernel)⟩,
    ⟨up, Reg.hifId, rowOf Reg.hifId, (by (repeat' apply And.intro) <;> first | exact reached _ (by decide +kernel) | exact writable _ _ _ _ (by decide +kernel) | exact ready _ _ _ _ _ (by decide +kernel) | decide +kernel)⟩, ⟨up, Reg.fncCtrl, rowOf Reg.fncCtrl, 31, (by (repeat' apply And.intro) <;> first | exact reached _ (by decide +kernel) | exact writable _ _ _ _ (by decide +kernel) | exact ready _ _ _ _ _ (by decide +kernel) | decide +kernel)⟩⟩

theorem witness_FailureLogged : ∃ s : State, s.quenched 9 = false := ⟨up, by decide +kernel⟩

theorem witness_AtomicOps :
    (∃ s : State, s.Reached ∧ s.rfld Reg.hifHostCtrl 8 1 = 0) ∧
    (∃ (s : State) (off : Nat), s.Reached ∧ s.rfld Reg.hifHostCtrl 8 1 = 1 ∧ off % 8 = 0 ∧ off + 8 ≤ 0x80000) ∧
    (∃ (s : State) (off : Nat) (r : RegRow), s.Reached ∧ s.rfld Reg.hifHostCtrl 8 1 = 1 ∧ off % 4 = 0 ∧ off < 0x80000 ∧ plainReg off = true ∧
      s.servedRow off = some r ∧ s.atomicReg off = true) :=
  ⟨⟨up.rset Reg.hifHostCtrl 1, (by (repeat' apply And.intro) <;> first | exact reached _ (by decide +kernel) | exact writable _ _ _ _ (by decide +kernel) | exact ready _ _ _ _ _ (by decide +kernel) | decide +kernel)⟩, ⟨up, 0x7FFF8, (by (repeat' apply And.intro) <;> first | exact reached _ (by decide +kernel) | exact writable _ _ _ _ (by decide +kernel) | exact ready _ _ _ _ _ (by decide +kernel) | decide +kernel)⟩, ⟨up, Reg.hifIrqHoldoff, rowOf Reg.hifIrqHoldoff, (by (repeat' apply And.intro) <;> first | exact reached _ (by decide +kernel) | exact writable _ _ _ _ (by decide +kernel) | exact ready _ _ _ _ _ (by decide +kernel) | decide +kernel)⟩⟩

theorem witness_PcieResets : ∃ s : State, s.bridgeUp = true ∧ s.hif.linkUp = true := ⟨up, by decide +kernel⟩

def vector (masked bme : Bool) : State :=
  up.setHif { up.hif with bme := bme, heldOff := [255], pba := [255], msix := [(255, ⟨0x1000, 7, masked⟩)] }

theorem witness_InterruptMessages :
    (∃ s : State, s.bridgeUp = true ∧ s.hif.linkUp = true) ∧
    (∃ (s : State) (v : Nat), v ∈ s.hif.heldOff ∧ s.canDma = true ∧ s.vecMasked v = false ∧ v ∈ s.hif.pba) ∧
    (∃ (s : State) (v : Nat), v ∈ s.hif.heldOff ∧ s.canDma = false) ∧ (∃ (s : State) (v : Nat), v ∈ s.hif.heldOff ∧ s.vecMasked v = true) :=
  ⟨⟨up, by decide +kernel⟩, ⟨vector false true, 255, by decide +kernel⟩, ⟨vector false false, 255, by decide +kernel⟩, ⟨vector true true, 255, by decide +kernel⟩⟩

theorem witness_SpiTransactions :
    (∃ s : State, s.bridgeUp = true ∧ s.quenched 9 = false) ∧
    (∃ (count : Nat) (data : List Word) (crc : Byte), data.length = count % 256 + 1 ∧
      crc ≠ Crypto.crc8Spi (leBytes 4 0 ++ leBytes 1 (count % 256) ++ data.flatMap fun w => leBytes 4 w.toNat)) ∧
    (∃ addr : Nat, addr % 4 = 0 ∧ 0x02000000 ≤ addr ∧ addr < 0x02004000) ∧
    (∃ (s : State) (addr : Nat), s.bridgeUp = true ∧ s.quenched 9 = false ∧ addr % 4 = 0 ∧ s.guardedReg addr = true) :=
  ⟨⟨up, by decide +kernel⟩, ⟨0, [7], 0, by decide +kernel⟩, ⟨0x02003FFC, by decide +kernel⟩, ⟨up, Reg.fncCtrl, by decide +kernel⟩⟩

theorem witness_QueueWrites :
    (∃ (s : State) (r : RegRow), s.Reached ∧ s.Writable 1 (Reg.evqCons 1) r) ∧ (∃ (s : State) (r : RegRow), s.Reached ∧ s.Writable 0 (Reg.hifRxrCons 31) r) ∧
    (∃ (s : State) (r : RegRow), s.Reached ∧ s.Writable 0 (Reg.hifTxrProd 31) r) ∧ (∃ (s : State) (r : RegRow), s.Reached ∧ s.Writable 0 (Reg.hifTsqCons 3) r) ∧
    (∃ (s : State) (r : RegRow) (v : Word), s.Reached ∧ s.Writable 0 (Reg.hifTsqCtrl 3) r ∧ (s.rget (Reg.hifTsqCtrl 3)).toNat % 2 = 0 ∧
      (s.stored r (Reg.hifTsqCtrl 3) v).toNat % 2 = 1) :=
  ⟨⟨up, rowOf (Reg.evqCons 1), (by (repeat' apply And.intro) <;> first | exact reached _ (by decide +kernel) | exact writable _ _ _ _ (by decide +kernel) | exact ready _ _ _ _ _ (by decide +kernel) | decide +kernel)⟩, ⟨up, rowOf (Reg.hifRxrCons 31), (by (repeat' apply And.intro) <;> first | exact reached _ (by decide +kernel) | exact writable _ _ _ _ (by decide +kernel) | exact ready _ _ _ _ _ (by decide +kernel) | decide +kernel)⟩, ⟨up, rowOf (Reg.hifTxrProd 31), (by (repeat' apply And.intro) <;> first | exact reached _ (by decide +kernel) | exact writable _ _ _ _ (by decide +kernel) | exact ready _ _ _ _ _ (by decide +kernel) | decide +kernel)⟩,
    ⟨up, rowOf (Reg.hifTsqCons 3), (by (repeat' apply And.intro) <;> first | exact reached _ (by decide +kernel) | exact writable _ _ _ _ (by decide +kernel) | exact ready _ _ _ _ _ (by decide +kernel) | decide +kernel)⟩, ⟨up, rowOf (Reg.hifTsqCtrl 3), 1, (by (repeat' apply And.intro) <;> first | exact reached _ (by decide +kernel) | exact writable _ _ _ _ (by decide +kernel) | exact ready _ _ _ _ _ (by decide +kernel) | decide +kernel)⟩⟩

theorem witness_QueueCommands :
    (∃ (s : State) (c : Cmd), s.quenched 9 = false ∧ s.Ready 0 0 0x0110 c ∧ bit (c.u 1 1) 0 = false) ∧
    (∃ (s : State) (c : Cmd) (base : Nat), s.quenched 9 = false ∧ s.Ready 0 0 0x0110 c ∧
      base = (if c.host = 0 then c.u 8 8 else 0x02010000) ∧ bit (c.u 1 1) 0 = true ∧ s.rfld (Reg.evqCfg c.host) 0 1 = 0 ∧
      8 ≤ c.u 0 1 ∧ c.u 0 1 ≤ (if c.host = 0 then 16 else 12) ∧ base % 4096 = 0) ∧
    (∃ (s : State) (c : Cmd), s.quenched 9 = false ∧ s.Ready 0 0 0x0110 c ∧ bit (c.u 1 1) 0 = true ∧ c.u 0 1 < 8) ∧
    (∃ (s : State) (c : Cmd), s.quenched 9 = false ∧ s.Ready 0 0 0x0111 c ∧ bit (c.u 1 1) 0 = true ∧ bit (c.u 0 1) 7 = true ∧
      s.rfld (Reg.hifTxrCfg (c.u 0 1 % 32)) 0 1 = 0 ∧ 16 ≤ c.u 2 1 ∧ c.u 2 1 ≤ 24 ∧ c.u 8 8 % 4096 = 0 ∧ c.u 16 8 % 8 = 0) ∧
    (∃ (s : State) (c : Cmd), s.quenched 9 = false ∧ s.Ready 0 0 0x0111 c ∧ bit (c.u 1 1) 0 = true ∧ bit (c.u 0 1) 7 = false ∧
      s.rfld (Reg.hifRxrCfg (c.u 0 1 % 32)) 0 1 = 0 ∧ 16 ≤ c.u 2 1 ∧ c.u 2 1 ≤ 24 ∧ c.u 8 8 % 4096 = 0) ∧
    (∃ (s : State) (c : Cmd), s.quenched 9 = false ∧ s.Ready 0 0 0x0111 c ∧ bit (c.u 1 1) 0 = false ∧ bit (c.u 0 1) 7 = true ∧
      s.rfld (Reg.hifTxrCfg (c.u 0 1 % 32)) 0 1 = 1) :=
  ⟨⟨with_ up 0x0110 [(16, 0)], cmdOf 0x0110 [(16, 0)], (by (repeat' apply And.intro) <;> first | exact reached _ (by decide +kernel) | exact writable _ _ _ _ (by decide +kernel) | exact ready _ _ _ _ _ (by decide +kernel) | decide +kernel)⟩,
    ⟨with_ up 0x0110 [(1, 16), (1, 1), (6, 0), (8, 4096)], cmdOf 0x0110 [(1, 16), (1, 1), (6, 0), (8, 4096)], 4096, (by (repeat' apply And.intro) <;> first | exact reached _ (by decide +kernel) | exact writable _ _ _ _ (by decide +kernel) | exact ready _ _ _ _ _ (by decide +kernel) | decide +kernel)⟩,
    ⟨with_ up 0x0110 [(1, 7), (1, 1), (14, 0)], cmdOf 0x0110 [(1, 7), (1, 1), (14, 0)], (by (repeat' apply And.intro) <;> first | exact reached _ (by decide +kernel) | exact writable _ _ _ _ (by decide +kernel) | exact ready _ _ _ _ _ (by decide +kernel) | decide +kernel)⟩,
    ⟨with_ up 0x0111 [(1, 0x9F), (1, 1), (1, 24), (21, 0)], cmdOf 0x0111 [(1, 0x9F), (1, 1), (1, 24), (21, 0)], (by (repeat' apply And.intro) <;> first | exact reached _ (by decide +kernel) | exact writable _ _ _ _ (by decide +kernel) | exact ready _ _ _ _ _ (by decide +kernel) | decide +kernel)⟩,
    ⟨with_ up 0x0111 [(1, 0x1F), (1, 1), (1, 16), (21, 0)], cmdOf 0x0111 [(1, 0x1F), (1, 1), (1, 16), (21, 0)], (by (repeat' apply And.intro) <;> first | exact reached _ (by decide +kernel) | exact writable _ _ _ _ (by decide +kernel) | exact ready _ _ _ _ _ (by decide +kernel) | decide +kernel)⟩,
    ⟨(with_ up 0x0111 [(1, 0x80), (23, 0)]).rset (Reg.hifTxrCfg 0) 1, cmdOf 0x0111 [(1, 0x80), (23, 0)], (by (repeat' apply And.intro) <;> first | exact reached _ (by decide +kernel) | exact writable _ _ _ _ (by decide +kernel) | exact ready _ _ _ _ _ (by decide +kernel) | decide +kernel)⟩⟩

/-- A frame of 64 bytes from port 0 that has committed. -/
def frame (fid : Nat) : Frame :=
  { fid := fid, src := 0, tIn := 0, start := 0, bytes := List.replicate 64 0, complete := true, decided := true, outcome := .committed }

/-- That frame with one copy. -/
def queued (c : Copy) : State := up.setFr { frames := [frame c.fid], copies := [c], next := c.fid + 1 }

def ring : State := (queued { fid := 0, port := 67, queue := 31 }).rset (Reg.hifRxrCfg 31) 0x1001

def txRing (prod : Word) : State := (up.rset (Reg.hifTxrCfg 31) 0x1001).rset (Reg.hifTxrProd 31) prod

theorem witness_RingTraffic :
    (∃ (s : State) (c : Copy) (f : Frame), s.datapathUp = true ∧ s.quenched 9 = false ∧ s.quenched Dom.buffer = false ∧
      s.head? 67 31 = some (c, f) ∧ s.rxEn 31 = false) ∧
    (∃ (s : State) (c : Copy) (f : Frame) (p need : Nat), s.datapathUp = true ∧ s.quenched 9 = false ∧ s.quenched Dom.buffer = false ∧
      s.head? 67 31 = some (c, f) ∧ s.rxEn 31 = true ∧ s.canDma = true ∧ (s.rxRing 31).busy = none ∧ (s.rxRing 31).lost = 0 ∧
      c.spill = .onChip ∧ f.outcome = .committed ∧ p = (s.rget (Reg.hifRxrProd 31)).toNat ∧
      need = ceilDiv (8 + s.ringBytes f) 8 * 8 ∧ p % s.rxSize 31 + need ≤ s.rxSize 31 ∧ s.rxUsed 31 + need + 8 ≤ s.rxSize 31 ∧
      s.rfld (Reg.hifRxrCfg 31) 2 1 = 0) ∧
    (∃ (s : State) (hdr : List Byte) (left len : Nat), s.rfld (Reg.hifTxrCfg 31) 0 1 = 1 ∧ s.rfld (Reg.hifTxrFault 31) 0 1 = 0 ∧
      s.canDma = true ∧ s.datapathUp = true ∧ s.quenched Dom.pipe0 = false ∧
      left = (s.rget (Reg.hifTxrProd 31) - s.rget (Reg.hifTxrCons 31)).toNat ∧ left ≠ 0 ∧ len = le hdr 0 2 ∧
      bit (le hdr 2 1) 1 = true ∧ 8 + len ≤ left) ∧
    (∃ (s : State) (hdr : List Byte) (left len : Nat), s.rfld (Reg.hifTxrCfg 31) 0 1 = 1 ∧
      left = (s.rget (Reg.hifTxrProd 31) - s.rget (Reg.hifTxrCons 31)).toNat ∧ left ≠ 0 ∧ len = le hdr 0 2 ∧
      bit (le hdr 2 1) 1 = false ∧ left < ceilDiv (8 + len) 8 * 8) ∧
    (∃ (s : State) (hdr : List Byte) (left len : Nat), s.rfld (Reg.hifTxrCfg 31) 0 1 = 1 ∧
      left = (s.rget (Reg.hifTxrProd 31) - s.rget (Reg.hifTxrCons 31)).toNat ∧ left ≠ 0 ∧ len = le hdr 0 2 ∧
      bit (le hdr 2 1) 1 = false ∧ ceilDiv (8 + len) 8 * 8 ≤ left ∧ len < 14) ∧
    (∃ (s : State) (hdr : List Byte) (left len : Nat), s.rfld (Reg.hifTxrCfg 31) 0 1 = 1 ∧
      left = (s.rget (Reg.hifTxrProd 31) - s.rget (Reg.hifTxrCons 31)).toNat ∧ left ≠ 0 ∧ len = le hdr 0 2 ∧
      bit (le hdr 2 1) 1 = false ∧ ceilDiv (8 + len) 8 * 8 ≤ left ∧ 14 ≤ len) :=
  ⟨⟨queued { fid := 0, port := 67, queue := 31 }, { fid := 0, port := 67, queue := 31 }, frame 0, by decide +kernel⟩,
    ⟨ring, { fid := 0, port := 67, queue := 31 }, frame 0, 0, 72, by decide +kernel⟩, ⟨txRing 16, [8, 0, 2, 0, 0, 0, 0, 0], 16, 8, by decide +kernel⟩,
    ⟨txRing 16, [9, 0, 0, 0, 0, 0, 0, 0], 16, 9, by decide +kernel⟩, ⟨txRing 24, [13, 0, 0, 0, 0, 0, 0, 0], 24, 13, by decide +kernel⟩,
    ⟨txRing 24, [14, 0, 0, 0, 0, 0, 0, 0], 24, 14, by decide +kernel⟩⟩

theorem witness_HeartbeatAndParity : (∃ s : State, s.fwReadyNow = true ∧ s.pwr.state = .run) ∧
    (∃ (s : State) (off : Nat) (r : RegRow), s.forgeUp = true ∧ regRow off = some r ∧ r.rw ||| r.rwg ≠ 0 ∧ off / 0x8000 ≠ 4) ∧
    (∃ (s : State) (off : Nat) (r : RegRow), s.forgeUp = true ∧ regRow off = some r ∧ r.rw ||| r.rwg = 0) :=
  ⟨⟨up, by decide +kernel⟩, ⟨up, Reg.fncCtrl, rowOf Reg.fncCtrl, by decide +kernel⟩, ⟨up, Reg.hifId, rowOf Reg.hifId, by decide +kernel⟩⟩

/-! ### Witnesses: mailbox and journal -/

theorem witness_MailboxQueues :
    (∃ (s : State) (r : RegRow), s.bridgeUp = true ∧ s.quenched 9 = false ∧ (∀ g ∈ s.hif.guards, s.clk ≤ g.since + 1000) ∧
      s.Writable 0 (State.sqReg (Reg.mbxSqProd 0) 0 7) r) ∧
    (∃ (s : State) (r : RegRow), s.bridgeUp = true ∧ s.quenched 9 = false ∧ s.Writable 1 (State.sqReg (Reg.mbxSqProd 0) 1 1) r) ∧
    (∃ (s : State) (r : RegRow), s.bridgeUp = true ∧ s.quenched 9 = false ∧ s.Writable 0 (State.sqReg (Reg.mbxCqCons 0) 0 7) r) ∧
    (∃ (s : State) (r : RegRow), s.bridgeUp = true ∧ s.quenched 9 = false ∧ s.Writable 1 (State.sqReg (Reg.mbxQCtrl 0) 1 1) r ∧
      s.rfld (State.sqReg (Reg.mbxQCtrl 0) 1 1) 0 1 = 0) ∧
    (∃ (s : State) (r : RegRow), s.bridgeUp = true ∧ s.quenched 9 = false ∧ s.Writable 0 (State.sqReg (Reg.mbxQCtrl 0) 0 7) r ∧
      s.rfld (State.sqReg (Reg.mbxQCtrl 0) 0 7) 0 1 = 1) :=
  ⟨⟨up, rowOf (State.sqReg (Reg.mbxSqProd 0) 0 7), (by (repeat' apply And.intro) <;> first | exact reached _ (by decide +kernel) | exact writable _ _ _ _ (by decide +kernel) | exact ready _ _ _ _ _ (by decide +kernel) | decide +kernel)⟩, ⟨up, rowOf (State.sqReg (Reg.mbxSqProd 0) 1 1), (by (repeat' apply And.intro) <;> first | exact reached _ (by decide +kernel) | exact writable _ _ _ _ (by decide +kernel) | exact ready _ _ _ _ _ (by decide +kernel) | decide +kernel)⟩,
    ⟨up, rowOf (State.sqReg (Reg.mbxCqCons 0) 0 7), (by (repeat' apply And.intro) <;> first | exact reached _ (by decide +kernel) | exact writable _ _ _ _ (by decide +kernel) | exact ready _ _ _ _ _ (by decide +kernel) | decide +kernel)⟩, ⟨up, rowOf (State.sqReg (Reg.mbxQCtrl 0) 1 1), (by (repeat' apply And.intro) <;> first | exact reached _ (by decide +kernel) | exact writable _ _ _ _ (by decide +kernel) | exact ready _ _ _ _ _ (by decide +kernel) | decide +kernel)⟩,
    ⟨up.rset (State.sqReg (Reg.mbxQCtrl 0) 0 7) 1, rowOf (State.sqReg (Reg.mbxQCtrl 0) 0 7), (by (repeat' apply And.intro) <;> first | exact reached _ (by decide +kernel) | exact writable _ _ _ _ (by decide +kernel) | exact ready _ _ _ _ _ (by decide +kernel) | decide +kernel)⟩⟩

/-- Queue 0 of the main host enabled with one doorbell, and its first slot: `DEV_INFO` with sequence
number 5, written whole. -/
def slotBytes (op : Nat) : List Byte := fit 256 (leBytes 2 op ++ leBytes 2 0 ++ leBytes 1 0 ++ leBytes 1 0 ++ leBytes 2 0 ++ leBytes 4 5)

def rung (op : Nat) : State :=
  ((up.rset (State.sqReg (Reg.mbxQCtrl 0) 0 0) 1).slotWrite 0x40000000 ((slotBytes op).take 32)).setMbx
    { bells := [(0, 1)], written := (List.range 8).map fun i => 0x40000000 + 4 * i }

theorem witness_SlotTaking :
    (∃ (s : State) (p : Nat) (slot : List Byte), s.pwr.fwReady = true ∧ s.bellsDone 0 = s ∧ s.queueEn 0 0 = true ∧
      16 * 0 + 0 ∉ s.mbx.faults ∧ s.canDma = true ∧ (s.mbx.bells.find? fun b => b.1 / 16 == 0) = some (0, 1) ∧
      p = (s.rget (State.sqReg (Reg.mbxSqAccept 0) 0 0)).toNat ∧
      (p + 2 ^ 32 - (s.rget (State.sqReg (Reg.mbxCqCons 0) 0 0)).toNat) % 2 ^ 32 < State.sqDepth 0 ∧
      slot = s.mread (State.slotAddr 0 0 p) 256 ∧ s.commandsRun (leNat (slot.take 2)) = true ∧
      s.slotCheck 0 slot (fun i => s.mbx.written.contains (State.slotAddr 0 0 p + 4 * i)) = none ∧ leNat (slot.take 2) ≠ 0x0102 ∧
      s.judgeSeq 0 (leNat (slot.take 2)) (leNat ((slot.drop 8).take 4)) [] false = .accept) ∧
    (∃ (s : State) (slot : List Byte) (st : Nat), s.slotCheck 0 slot (fun _ => true) = some st) ∧
    (∃ (s : State) (slot : List Byte) (st : Nat), s.slotCheck 0 slot (fun _ => true) = none ∧ leNat (slot.take 2) ≠ 0x0102 ∧
      s.judgeSeq 0 (leNat (slot.take 2)) (leNat ((slot.drop 8).take 4)) [] false = .reject st) :=
  ⟨⟨rung 0x0100, 0, slotBytes 0x0100, by decide +kernel⟩, ⟨up, slotBytes 0x7F00, 1, by decide +kernel⟩,
    ⟨up.rset (Reg.mbxHostSeq 0) 9, slotBytes 0x0100, 6, by decide +kernel⟩⟩

def command : Cmd := cmdOf 0x0100 []

theorem witness_EpochCondition :
    (∃ (s : State) (c : Cmd), s.headCmd 0 0 = some c ∧ s.mayBegin c = true ∧ c.ifEpoch = true ∧
      (s.rget Reg.mbxCfgEpoch).toNat ≠ c.expectEpoch) ∧
    (∃ (s : State) (c : Cmd), s.headCmd 0 0 = some c ∧ s.mayBegin c = true ∧ c.ifEpoch = true ∧
      (s.rget Reg.mbxCfgEpoch).toNat = c.expectEpoch ∧ isClassC c.opcode = true ∧ s.flashOk = true) ∧
    mailboxRow (.devInfo 0 0) = some (0, 0, 0x0100) :=
  ⟨⟨up.setMbx { cmds := [{ command with flags := 3, expectEpoch := 9 }] }, { command with flags := 3, expectEpoch := 9 }, by decide +kernel⟩,
    ⟨up.setMbx { cmds := [{ command with opcode := 0x0307, flags := 3 }] }, { command with opcode := 0x0307, flags := 3 }, by decide +kernel⟩, rfl⟩

theorem witness_CommandRowsWait :
    (∃ (s : State) (c : Cmd), s.headCmd 0 0 = some c ∧ c.opcode ≠ 0x0101) ∧
    (∃ (s : State) (c : Cmd), s.headCmd 0 0 = some c ∧ c.opcode = 0x0100 ∧ s.mayBegin c = false) ∧
    (∃ (s : State) (c : Cmd), s.headCmd 0 0 = some c ∧ c.opcode = 0x0307 ∧ s.mayBegin c = true ∧ c.ifEpoch = false ∧
      isClassC 0x0307 = true ∧ s.flashOk = false) :=
  ⟨⟨with_ up 0x0100 [], command, by decide +kernel⟩, ⟨up.setMbx { cmds := [{ command with phase := .running }] }, { command with phase := .running }, by decide +kernel⟩,
    ⟨up.setMbx { cmds := [{ command with opcode := 0x0307 }], flashFault := true }, { command with opcode := 0x0307 }, by decide +kernel⟩⟩

theorem witness_CommandEnds : ∃ (s : State) (c : Cmd), s.cmdOf 0 = some c := ⟨with_ up 0x0100 [], command, by decide +kernel⟩

def recorded : Cmd := { command with opcode := 0x0307, phase := .ended, waitFlash := true, waitMirror := true }

theorem witness_JournalRecords :
    (∃ (s : State) (c : Cmd), s.cmdOf 0 = some c ∧ c.waitFlash = true ∧ s.flashOk = true ∧ s.quenched Dom.control = false ∧
      min 3 (3 + 1) ≤ s.recordsFree) ∧
    (∃ s : State, s.quenched Dom.flash = false ∧ s.mbx.erased.length < 4) ∧
    (∃ (s : State) (c : Cmd), s.pair.role ≠ .single ∧ 2 ≤ s.pair.linkState ∧ s.quenched (portUnit 64) = false ∧
      (s.rget Reg.pairMirrorAcked).toNat ≤ 0 ∧ s.cmdOf 0 = some c) ∧
    (∃ (s : State) (c : Cmd), s.cmdOf 0 = some c ∧ c.waitMirror = true) ∧
    (∃ s : State, ∀ c ∈ s.mbx.cmds, c.host = 0 → c.queue = 0 → c.ready = false) :=
  ⟨⟨up.setMbx { cmds := [recorded] }, recorded, by decide +kernel⟩, ⟨up.setMbx { erased := [1, 2, 3] }, by decide +kernel⟩,
    ⟨{ up.setMbx { cmds := [recorded] } with pair := { role := .striker, linkState := 4 } }, recorded, by decide +kernel⟩,
    ⟨up.setMbx { cmds := [recorded] }, recorded, by decide +kernel⟩, ⟨up.setMbx { cmds := [recorded] }, by decide +kernel⟩⟩

/-- `JOURNAL_READ` of one entry, with the journal at 3. -/
def reading (i : Nat) : State := (with_ up 0x0103 [(1, 0), (3, 0), (4, i), (2, 1), (22, 0)]).rset Reg.mbxJournalHead 3

def readCmd (i : Nat) : Cmd := cmdOf 0x0103 [(1, 0), (3, 0), (4, i), (2, 1), (22, 0)]

theorem witness_DeviceCommands :
    (∃ (s : State) (c : Cmd), s.Ready 0 0 0x0100 c) ∧ (∃ (s : State) (c : Cmd), s.Ready 0 0 0x0101 c) ∧
    (∃ (s : State) (c : Cmd), s.Ready 0 0 0x0104 c) ∧ (∃ (s : State) (c : Cmd), s.Ready 0 0 0x0102 c ∧ bit (c.u 4 1) 0 = false) ∧
    (∃ (s : State) (c : Cmd), s.Ready 0 0 0x0102 c ∧ bit (c.u 4 1) 0 = true) ∧
    (∃ (s : State) (c : Cmd), s.Ready 0 0 0x0103 c ∧ c.u 0 1 = 0 ∧ c.u 1 1 = 0 ∧ c.u 8 2 = 1 ∧
      (c.u 4 4 + 2 ^ 32 - (s.rget Reg.mbxJournalHead).toNat) % 2 ^ 32 < 2 ^ 31) ∧
    (∃ (s : State) (c : Cmd), s.Ready 0 0 0x0103 c ∧ c.u 0 1 = 0 ∧ c.u 1 1 = 0 ∧ c.u 8 2 = 1 ∧
      2 ^ 31 ≤ (c.u 4 4 + 2 ^ 32 - (s.rget Reg.mbxJournalHead).toNat) % 2 ^ 32 ∧ s.cmdOf (c.u 4 4) = some c) ∧
    (∃ (s : State) (c : Cmd), s.Ready 0 0 0x0103 c ∧ c.u 0 1 = 0 ∧ c.u 1 1 = 0 ∧ c.u 8 2 = 1 ∧
      2 ^ 31 ≤ (c.u 4 4 + 2 ^ 32 - (s.rget Reg.mbxJournalHead).toNat) % 2 ^ 32 ∧ s.cmdOf (c.u 4 4) = none ∧ s.entryOf (c.u 4 4) = none) ∧
    (∃ (s : State) (c : Cmd) (e : JEntry), s.Ready 0 0 0x0103 c ∧ c.u 0 1 = 0 ∧ c.u 1 1 = 0 ∧ c.u 8 2 = 1 ∧
      2 ^ 31 ≤ (c.u 4 4 + 2 ^ 32 - (s.rget Reg.mbxJournalHead).toNat) % 2 ^ 32 ∧ s.cmdOf (c.u 4 4) = none ∧
      s.entryOf (c.u 4 4) = some e) :=
  ⟨⟨with_ up 0x0100 [], command, ready _ _ _ _ _ (by decide +kernel)⟩, ⟨with_ up 0x0101 [], cmdOf 0x0101 [], ready _ _ _ _ _ (by decide +kernel)⟩,
    ⟨with_ up 0x0104 [], cmdOf 0x0104 [], ready _ _ _ _ _ (by decide +kernel)⟩, ⟨with_ up 0x0102 [(8, 0)], cmdOf 0x0102 [(8, 0)], ⟨ready _ _ _ _ _ (by decide +kernel), by decide +kernel⟩⟩,
    ⟨with_ up 0x0102 [(4, 0), (4, 1)], cmdOf 0x0102 [(4, 0), (4, 1)], ⟨ready _ _ _ _ _ (by decide +kernel), by decide +kernel⟩⟩, ⟨reading 3, readCmd 3, ⟨ready _ _ _ _ _ (by decide +kernel), by decide +kernel⟩⟩, ⟨reading 0, readCmd 0, ⟨ready _ _ _ _ _ (by decide +kernel), by decide +kernel⟩⟩,
    ⟨reading 2, readCmd 2, ⟨ready _ _ _ _ _ (by decide +kernel), by decide +kernel⟩⟩,
    ⟨(reading 2).setMbx { (reading 2).mbx with dram := [{ command with index := 2 }.entry] }, readCmd 2, { command with index := 2 }.entry, ⟨ready _ _ _ _ _ (by decide +kernel), by decide +kernel⟩⟩⟩

/-! ### Witnesses: calendar -/

/-- An image of 1 ms in domain 0 with no entries. -/
def image (id pred : Nat) : Image :=
  { id := id, pred := pred, hyper := 1000000, baseSec := 0, baseNs := 0, overlap := 1000, domain := 0, flags := 0, signer := 0,
    macsecNs := 0, cipherNs := 0, size := 0, wheel0 := [], wheel1 := [], gates := [], slots := [], jobs := [], windows := [],
    reserve := [], weights := [], guarantees := [], bytes := [] }

/-- That image as bytes: a header, five empty mandatory sections in order, and room for the signatures. -/
def imageBytes : List Byte :=
  let sections : List Byte := [(1, 16), (2, 16), (3, 0), (7, 4), (9, 64)].flatMap fun x =>
    leBytes 2 x.1 ++ leBytes 2 x.2 ++ leBytes 4 0 ++ leBytes 4 248 ++ leBytes 4 0 ++ leBytes 8 0
  let head : List Byte := leBytes 4 0x4C435A55 ++ leBytes 2 1 ++ leBytes 2 5 ++ leBytes 4 (248 + sigBytes) ++ leBytes 4 7 ++
    leBytes 4 0 ++ leBytes 4 1000000 ++ leBytes 20 0 ++ leBytes 4 248 ++ leBytes 76 0
  head ++ leBytes 4 (Crypto.crc32c head).toNat ++ sections ++ leBytes sigBytes 0

/-- Domain 0 locked at 5 s. -/
def timed : State := { up with dom := [(0, { state := .locked, value := 5000000000 * 2 ^ 32 })] }

def holding (h : Nat) (st : HandleState) (i : Image) (op : Nat) (f : List (Nat × Nat)) : State :=
  let s := with_ timed op f
  s.setCal { s.cal with handles := [(h, ⟨st, some i⟩)] }

def loadBody (h length : Nat) : List (Nat × Nat) := [(4, h), (4, length), (8, 0)]

theorem witness_CalendarLoad :
    (∃ (s : State) (c : Cmd), s.Ready 0 0 0x0200 c ∧ s.calBeside c = false ∧ s.pair.role = .single ∧ s.quenched Dom.memory = false ∧ c.u 0 1 ≤ 3 ∧
      c.u 8 8 % 8 = 0 ∧ (s.handle 3).state ≠ .pending ∧ (s.handle 3).state ≠ .active ∧ (s.handle 3).state ≠ .draining) ∧
    (∃ (s : State) (c : Cmd), s.Ready 0 0 0x0200 c ∧ s.calBeside c = false ∧ s.pair.role = .single ∧ s.quenched Dom.memory = false ∧ c.u 0 1 ≤ 3 ∧
      c.u 8 8 % 8 = 0 ∧ (s.handle 3).state = .active) ∧
    (loadChecks [] 0).isSome = true :=
  ⟨⟨with_ timed 0x0200 (loadBody 3 0), cmdOf 0x0200 (loadBody 3 0), ⟨ready _ _ _ _ _ (by decide +kernel), by decide +kernel⟩⟩,
    ⟨holding 3 .active (image 7 0) 0x0200 (loadBody 3 0), cmdOf 0x0200 (loadBody 3 0), ⟨ready _ _ _ _ _ (by decide +kernel), by decide +kernel⟩⟩, by decide +kernel⟩

set_option maxRecDepth 100000 in
theorem witness_imageLoads : loadChecks (imageBytes.take imageBytes.length) imageBytes.length = none ∧
    (parseImage imageBytes).id = 7 := by decide +kernel

def actBody (sec : Nat) : List (Nat × Nat) := [(4, 0), (4, 0), (6, sec), (2, 0)]

def activating (i : Image) (sec : Nat) : State := holding 0 .admitted i 0x0202 (actBody sec)

theorem witness_CalendarCommands :
    (∃ (s : State) (c : Cmd) (i : Image), s.Ready 0 0 0x0201 c ∧ s.calBeside c = false ∧ s.pair.role = .single ∧ s.quenched Dom.memory = false ∧ c.u 0 1 ≤ 3 ∧
      s.handle (c.u 0 1) = ⟨.loaded, some i⟩ ∧ (admitChecks s i false).isSome = true) ∧
    (∃ (s : State) (c : Cmd) (i : Image), s.Ready 0 0 0x0202 c ∧ s.calBeside c = false ∧ s.pair.role = .single ∧ s.quenched Dom.memory = false ∧ s.datapathUp = true ∧ s.quenched Dom.calendar = false ∧
      s.handle 0 = ⟨.admitted, some i⟩ ∧ s.handleIn .pending ≠ none) ∧
    (∃ (s : State) (c : Cmd) (i : Image), s.Ready 0 0 0x0202 c ∧ s.calBeside c = false ∧ s.pair.role = .single ∧ s.quenched Dom.memory = false ∧ s.datapathUp = true ∧ s.quenched Dom.calendar = false ∧
      s.handle 0 = ⟨.admitted, some i⟩ ∧ s.handleIn .pending = none ∧ i.pred ≠ s.runningId) ∧
    (∃ (s : State) (c : Cmd) (i : Image), s.Ready 0 0 0x0202 c ∧ s.calBeside c = false ∧ s.pair.role = .single ∧ s.quenched Dom.memory = false ∧ s.handle 0 = ⟨.admitted, some i⟩ ∧ s.handleIn .pending = none ∧
      i.pred = s.runningId ∧ s.timeOk i (10 ^ 9 * c.u 8 6 + c.u 4 4) (c.domAt i.domain) = false) ∧
    (∃ (s : State) (c : Cmd) (i : Image), s.Ready 0 0 0x0202 c ∧ s.calBeside c = false ∧ s.pair.role = .single ∧ s.quenched Dom.memory = false ∧ s.handle 0 = ⟨.admitted, some i⟩ ∧ s.handleIn .pending = none ∧
      i.pred = s.runningId ∧ s.timeOk i (10 ^ 9 * c.u 8 6 + c.u 4 4) (c.domAt i.domain) = true ∧
      s.overlapOk i (10 ^ 9 * c.u 8 6 + c.u 4 4) = false) ∧
    (∃ (s : State) (c : Cmd) (i : Image), s.Ready 0 0 0x0202 c ∧ s.calBeside c = false ∧ s.pair.role = .single ∧ s.quenched Dom.memory = false ∧ s.handle 0 = ⟨.admitted, some i⟩ ∧ s.handleIn .pending = none ∧
      i.pred = s.runningId ∧ s.timeOk i (10 ^ 9 * c.u 8 6 + c.u 4 4) (c.domAt i.domain) = true ∧
      s.overlapOk i (10 ^ 9 * c.u 8 6 + c.u 4 4) = true ∧ s.resourcesOk i = false) ∧
    (∃ (s : State) (c : Cmd) (i : Image), s.Ready 0 0 0x0202 c ∧ s.calBeside c = false ∧ s.pair.role = .single ∧ s.quenched Dom.memory = false ∧ s.handle 0 = ⟨.admitted, some i⟩ ∧ s.handleIn .pending = none ∧
      i.pred = s.runningId ∧ s.timeOk i (10 ^ 9 * c.u 8 6 + c.u 4 4) (c.domAt i.domain) = true ∧
      s.overlapOk i (10 ^ 9 * c.u 8 6 + c.u 4 4) = true ∧ s.resourcesOk i = true) ∧
    (∃ (s : State) (c : Cmd) (i : Image), s.Ready 0 0 0x0203 c ∧ s.calBeside c = false ∧ s.pair.role = .single ∧ s.quenched Dom.memory = false ∧ s.quenched Dom.calendar = false ∧ s.handle 0 = ⟨.pending, some i⟩ ∧
      s.cal.committed = false ∧ s.domNs i.domain + 1000000 < s.cal.pendingT) ∧
    (∃ (s : State) (c : Cmd) (i : Image), s.Ready 0 0 0x0203 c ∧ s.calBeside c = false ∧ s.pair.role = .single ∧ s.quenched Dom.memory = false ∧ s.quenched Dom.calendar = false ∧ s.handle 0 = ⟨.pending, some i⟩ ∧
      s.cal.pendingT ≤ s.domNs i.domain + 1000000) ∧
    (∃ (s : State) (c : Cmd), s.Ready 0 0 0x0204 c ∧ c.u 0 1 = 0) ∧
    (∃ (s : State) (c : Cmd), s.Ready 0 0 0x0205 c ∧ s.datapathUp = true ∧ s.quenched Dom.calendar = false ∧ s.cal.limp = none) ∧
    (∃ (s : State) (c : Cmd) (i : Image), s.Ready 0 0 0x0205 c ∧ s.datapathUp = true ∧ s.quenched Dom.calendar = false ∧
      s.cal.limp = some i ∧ s.cal.running ≠ .limp) :=
  ⟨⟨holding 0 .loaded { image 7 0 with domain := 9 } 0x0201 [(8, 0)], cmdOf 0x0201 [(8, 0)], { image 7 0 with domain := 9 }, ⟨ready _ _ _ _ _ (by decide +kernel), by decide +kernel⟩⟩,
    ⟨(activating (image 7 0) 6).setHandle 1 ⟨.pending, some (image 8 0)⟩, cmdOf 0x0202 (actBody 6), image 7 0, ⟨ready _ _ _ _ _ (by decide +kernel), by decide +kernel⟩⟩,
    ⟨activating (image 7 3) 6, cmdOf 0x0202 (actBody 6), image 7 3, ⟨ready _ _ _ _ _ (by decide +kernel), by decide +kernel⟩⟩, ⟨activating (image 7 0) 5, cmdOf 0x0202 (actBody 5), image 7 0, ⟨ready _ _ _ _ _ (by decide +kernel), by decide +kernel⟩⟩,
    ⟨activating { image 7 0 with reserve := [(0, 8193)] } 6, cmdOf 0x0202 (actBody 6), { image 7 0 with reserve := [(0, 8193)] }, ⟨ready _ _ _ _ _ (by decide +kernel), by decide +kernel⟩⟩,
    ⟨activating { image 7 0 with jobs := [⟨0, 0, 0, 1⟩] } 6, cmdOf 0x0202 (actBody 6), { image 7 0 with jobs := [⟨0, 0, 0, 1⟩] }, ⟨ready _ _ _ _ _ (by decide +kernel), by decide +kernel⟩⟩,
    ⟨activating (image 7 0) 6, cmdOf 0x0202 (actBody 6), image 7 0, ⟨ready _ _ _ _ _ (by decide +kernel), by decide +kernel⟩⟩,
    ⟨(holding 0 .pending (image 7 0) 0x0203 [(8, 0)]).setCal { handles := [(0, ⟨.pending, some (image 7 0)⟩)], pendingT := 5001000001 },
      cmdOf 0x0203 [(8, 0)], image 7 0, ⟨ready _ _ _ _ _ (by decide +kernel), by decide +kernel⟩⟩,
    ⟨(holding 0 .pending (image 7 0) 0x0203 [(8, 0)]).setCal { handles := [(0, ⟨.pending, some (image 7 0)⟩)], pendingT := 5001000000 },
      cmdOf 0x0203 [(8, 0)], image 7 0, ⟨ready _ _ _ _ _ (by decide +kernel), by decide +kernel⟩⟩,
    ⟨with_ up 0x0204 [(8, 0)], cmdOf 0x0204 [(8, 0)], ⟨ready _ _ _ _ _ (by decide +kernel), by decide +kernel⟩⟩, ⟨with_ up 0x0205 [(8, 0)], cmdOf 0x0205 [(8, 0)], ⟨ready _ _ _ _ _ (by decide +kernel), by decide +kernel⟩⟩,
    ⟨(with_ up 0x0205 [(8, 0)]).setCal { limp := some (image 1 0) }, cmdOf 0x0205 [(8, 0)], image 1 0, ⟨ready _ _ _ _ _ (by decide +kernel), by decide +kernel⟩⟩⟩

/-- Handle 0 running, handle 1 pending. -/
def running (i : Image) : State := timed.setCal { handles := [(0, ⟨.active, some i⟩)], running := .image 0, nextB := 5001000000 }

def switching : State :=
  timed.setCal { handles := [(0, ⟨.active, some (image 7 0)⟩), (1, ⟨.pending, some (image 8 7)⟩)], running := .image 0, pendingT := 6000000000 }

def limping : State := timed.setCal { limp := some (image 1 0), limpDue := 2 }

theorem witness_CalendarRuns :
    (∃ (s : State) (i : Image), s.datapathUp = true ∧ s.quenched Dom.calendar = false ∧ s.cal.limpDue = 0 ∧ s.cal.stop = false ∧
      s.cal.rephase = false ∧ s.runningImage = some i ∧ (s.domain i.domain).state ≠ .disabled ∧ s.pendingImage = none) ∧
    (∃ (s : State) (l : Image), s.datapathUp = true ∧ s.quenched Dom.calendar = false ∧ s.cal.limpDue ≠ 0 ∧ s.cal.limp = some l ∧
      (s.domain l.domain).state ≠ .disabled ∧ s.runningImage = none ∧ s.pendingImage = none) ∧
    (∃ (s : State) (h : Nat) (i : Image), s.pendingImage = some (h, i) ∧ (s.domain i.domain).state ≠ .disabled ∧ s.datapathUp = true ∧
      s.quenched Dom.calendar = false ∧ s.quenched Dom.memory = false ∧ s.pair.joining = false) ∧
    (∃ (s : State) (t : Nat) (i old : Image), s.cal.overlapEnd = some t ∧ s.runningImage = some i ∧ s.cal.old = some old ∧
      (s.domain i.domain).state ≠ .disabled) :=
  ⟨⟨running (image 7 0), image 7 0, by decide +kernel⟩, ⟨limping, image 1 0, by decide +kernel⟩, ⟨switching, 1, image 8 7, by decide +kernel⟩,
    ⟨(running (image 8 7)).setCal { (running (image 8 7)).cal with overlapEnd := some 5000500000, old := some (image 7 0) },
      5000500000, image 8 7, image 7 0, by decide +kernel⟩⟩

def gateList : GateList := ⟨63, 0, 1000000, [⟨1000000, 255, 0⟩]⟩

def hostGate : HostList := ⟨0, 0, 1000000, [⟨500000, 255, 0⟩, ⟨500000, 1, 1⟩], 0⟩

def deadline : Deadline := ⟨0, 5, 7, 2, 4999000000, 1000000, 0, false⟩

theorem witness_GatesAndDeadlines :
    (∃ (s : State) (p : Nat) (i : Image) (l : GateList), p < 64 ∧ s.datapathUp = true ∧ s.runningImage = some i ∧ s.imageList p = some l ∧
      l.port = p ∧ s.quenched Dom.calendar = false ∧ s.cal.stop = false ∧ s.cal.rephase = false ∧
      (s.domain i.domain).state ≠ .disabled) ∧
    (∃ (s : State) (p : Nat) (l : HostList), p < 64 ∧ s.datapathUp = true ∧ s.runningImage = none ∧ (s.hostGates p).cur = some l ∧
      (s.hostGates p).retained = false ∧ (s.domain l.domain).state ≠ .disabled ∧ (s.hostGates p).rephase = none) ∧
    (∃ (s : State) (e : Nat) (d : Deadline), s.deadline 0 e = some d ∧ s.portDown e = false) ∧
    (∃ (s : State) (e : Nat) (d : Deadline), s.deadline 0 e = some d ∧ e < 64 ∧ s.portDown e = true ∧
      (∀ c ∈ s.copiesOf 0, c.port = e → c.onLane = true)) ∧
    (∃ s : State, s.deadline 0 5 = none) :=
  ⟨⟨running { image 7 0 with gates := [gateList] }, 63, { image 7 0 with gates := [gateList] }, gateList, by decide +kernel⟩,
    ⟨timed.setTrf { gcl := [(63, { cur := some hostGate })] }, 63, hostGate, by decide +kernel⟩,
    ⟨{ up with cal := { deadlines := [deadline] }, buf := { ports := [(5, { linkUp := true })] } }, 5, deadline, by decide +kernel⟩,
    ⟨{ up with cal := { deadlines := [deadline] } }, 5, deadline, by decide +kernel⟩, ⟨up, by decide +kernel⟩⟩

/-! ### Witnesses: forwarding and frames -/

def txn (staged : List TxnOp) (op : Nat) (f : List (Nat × Nat)) : State :=
  (with_ up op f).setFwd { txn := some 7, txnNext := 8, staged := staged }

/-- The fields of an EM add of an L2 key and of an LPM add. -/
def emBody : List (Nat × Nat) := [(4, 0), (4, 0), (1, 1), (1, 0), (2, 1), (6, 0x010000000002), (30, 0), (1, 1), (1, 5), (14, 0)]

def lpmBody : List (Nat × Nat) := [(1, 0), (1, 4), (1, 8), (1, 0), (4, 0), (1, 10), (15, 0), (16, 0)]

def bound : Frame := { frame 3 with epoch := 65533 }

theorem witness_ForwardingTransactions :
    (∃ (s : State) (c : Cmd), s.Ready 0 0 0x0300 c ∧ s.fwd.txn = none) ∧
    (∃ (s : State) (c : Cmd), s.Ready 0 0 0x0300 c ∧ s.fwd.txn ≠ none ∧ bit (c.u 0 1) 0 = true) ∧
    (∃ (s : State) (c : Cmd), s.Ready 0 0 0x0300 c ∧ s.fwd.txn ≠ none ∧ bit (c.u 0 1) 0 = false) ∧
    (∃ (s : State) (c : Cmd), s.Ready 0 0 0x0301 c ∧ c.u 0 1 = 0 ∧ c.u 4 4 = 0 ∧ State.emFields (c.bytes 8 40) (c.bytes 48 16) = 0) ∧
    (∃ (s : State) (c : Cmd), s.Ready 0 0 0x0301 c ∧ c.u 0 1 = 3 ∧ c.u 4 4 ≤ 67 ∧ leNat (c.bytes 8 40) = 0) ∧
    (∃ (s : State) (c : Cmd), s.Ready 0 0 0x0302 c ∧ c.u 0 1 = 0 ∧ keyValid (c.bytes 8 40) = true) ∧
    (∃ (s : State) (c : Cmd), s.Ready 0 0 0x0302 c ∧ c.u 0 1 = 2 ∧ c.u 4 4 ≤ 8191) ∧
    (∃ (s : State) (c : Cmd), s.Ready 0 0 0x0305 c ∧ State.prefixValid (c.u 1 1) (c.u 2 1) (c.bytes 8 16) = true ∧
      State.resultValid (c.bytes 24 16) = true) ∧
    (∃ (s : State) (c : Cmd) (id : Nat), s.Ready 0 0 0x0303 c ∧ s.fwd.txn = some id ∧ id = c.u 0 4 ∧ s.datapathUp = true ∧
      s.quenched Dom.pipe0 = false ∧ s.quenched Dom.pipe1 = false ∧ s.epochLimit = true) ∧
    (∃ (s : State) (c : Cmd) (id : Nat), s.Ready 0 0 0x0303 c ∧ s.fwd.txn = some id ∧ id = c.u 0 4 ∧ s.datapathUp = true ∧
      s.quenched Dom.pipe0 = false ∧ s.quenched Dom.pipe1 = false ∧ s.epochLimit = false ∧
      (s.advanceEpoch.applyOps 0 s.fwd.staged).isLeft = true) ∧
    (∃ (s : State) (c : Cmd) (id : Nat), s.Ready 0 0 0x0303 c ∧ s.fwd.txn = some id ∧ id = c.u 0 4 ∧ s.datapathUp = true ∧
      s.quenched Dom.pipe0 = false ∧ s.quenched Dom.pipe1 = false ∧ s.epochLimit = false ∧
      (s.advanceEpoch.applyOps 0 s.fwd.staged).isRight = true) :=
  ⟨⟨with_ up 0x0300 [(8, 0)], cmdOf 0x0300 [(8, 0)], ⟨ready _ _ _ _ _ (by decide +kernel), by decide +kernel⟩⟩, ⟨txn [] 0x0300 [(8, 1)], cmdOf 0x0300 [(8, 1)], ⟨ready _ _ _ _ _ (by decide +kernel), by decide +kernel⟩⟩,
    ⟨txn [] 0x0300 [(8, 0)], cmdOf 0x0300 [(8, 0)], ⟨ready _ _ _ _ _ (by decide +kernel), by decide +kernel⟩⟩, ⟨txn [] 0x0301 emBody, cmdOf 0x0301 emBody, ⟨ready _ _ _ _ _ (by decide +kernel), by decide +kernel⟩⟩,
    ⟨txn [] 0x0301 [(4, 3), (4, 67), (56, 0)], cmdOf 0x0301 [(4, 3), (4, 67), (56, 0)], ⟨ready _ _ _ _ _ (by decide +kernel), by decide +kernel⟩⟩,
    ⟨txn [] 0x0302 emBody, cmdOf 0x0302 emBody, ⟨ready _ _ _ _ _ (by decide +kernel), by decide +kernel⟩⟩,
    ⟨txn [] 0x0302 [(4, 2), (4, 8191), (40, 0)], cmdOf 0x0302 [(4, 2), (4, 8191), (40, 0)], ⟨ready _ _ _ _ _ (by decide +kernel), by decide +kernel⟩⟩,
    ⟨txn [] 0x0305 lpmBody, cmdOf 0x0305 lpmBody, ⟨ready _ _ _ _ _ (by decide +kernel), by decide +kernel⟩⟩,
    ⟨(txn [] 0x0303 [(8, 7)]).setFr { frames := [bound] }, cmdOf 0x0303 [(8, 7)], 7, ⟨ready _ _ _ _ _ (by decide +kernel), by decide +kernel⟩⟩,
    ⟨txn [.lpmDel 0 4 8 10] 0x0303 [(8, 7)], cmdOf 0x0303 [(8, 7)], 7, ⟨ready _ _ _ _ _ (by decide +kernel), by decide +kernel⟩⟩,
    ⟨txn [.lpmAdd false 0 4 8 10 (leBytes 16 0)] 0x0303 [(8, 7)], cmdOf 0x0303 [(8, 7)], 7, ⟨ready _ _ _ _ _ (by decide +kernel), by decide +kernel⟩⟩⟩

def drainCmd : Cmd := { cmdOf 0x0304 [(4, 0), (4, 10000)] with phase := .running, deadline := 15000000000 }

def ageBody (age : Nat) : List (Nat × Nat) := [(4, age), (4, 10000), (4, 86400), (4, 600)]

theorem witness_EpochDraining :
    (∃ (s : State) (c : Cmd), s.Ready 0 0 0x0304 c ∧ epochAge s.epoch (c.u 0 2) ≤ 3 ∧ 1 ≤ c.u 4 4 ∧ c.u 4 4 ≤ 10000) ∧
    (∃ (s : State) (c : Cmd), s.runningCmd 0 0 0x0304 = some c ∧ s.boundBefore (c.u 0 2) ≠ 0) ∧
    (∃ s : State, s.datapathUp = true) ∧
    (∃ (s : State) (c : Cmd), s.Ready 0 0 0x0306 c ∧ c.u 0 1 = 0xFF ∧ s.datapathUp = true ∧ s.quenched Dom.pipe0 = false ∧
      s.quenched Dom.pipe1 = false ∧ c.u 1 1 % 4 = 0) ∧
    (∃ (s : State) (c : Cmd), s.Ready 0 0 0x0307 c ∧ c.u 0 4 = 0 ∧ c.u 4 4 ≤ 10000 ∧ 1 ≤ c.u 8 4 ∧ c.u 8 4 ≤ 86400 ∧ 1 ≤ c.u 12 2 ∧
      c.u 12 2 ≤ 600) ∧
    (∃ (s : State) (c : Cmd), s.Ready 0 0 0x0307 c ∧ 10 ≤ c.u 0 4 ∧ c.u 0 4 ≤ 1000000 ∧ c.u 4 4 ≤ 10000) :=
  ⟨⟨with_ up 0x0304 [(4, 65533), (4, 10000)], cmdOf 0x0304 [(4, 65533), (4, 10000)], ⟨ready _ _ _ _ _ (by decide +kernel), by decide +kernel⟩⟩,
    ⟨(up.setMbx { cmds := [drainCmd] }).setFr { frames := [bound] }, drainCmd, by decide +kernel⟩, ⟨up, by decide +kernel⟩,
    ⟨with_ up 0x0306 [(8, 0xFF)], cmdOf 0x0306 [(8, 0xFF)], ⟨ready _ _ _ _ _ (by decide +kernel), by decide +kernel⟩⟩, ⟨with_ up 0x0307 (ageBody 0), cmdOf 0x0307 (ageBody 0), ⟨ready _ _ _ _ _ (by decide +kernel), by decide +kernel⟩⟩,
    ⟨with_ up 0x0307 (ageBody 1000000), cmdOf 0x0307 (ageBody 1000000), ⟨ready _ _ _ _ _ (by decide +kernel), by decide +kernel⟩⟩⟩

def mac : List Byte := leBytes 6 0x020000000002

/-- A dynamic entry of that address at port 1, and a request to learn it at a port. -/
def known : EmEntry := ⟨.bucket 0 0, l2Key 1 mac, fit 16 (leBytes 1 0 ++ leBytes 1 1), none, false, 0, 0, 4000000000, none⟩

def learning (em : List EmEntry) (src : Nat) : State := up.setFwd { em := em, learnQ := [.learn src 1 mac] }

/-- The attributes of port 5 with an address limit of 1. -/
def limited : List (Nat × List (Versioned (List Byte))) := [(5, [⟨0, none, leBytes 2 1 ++ leBytes 2 0x7F ++ leBytes 2 1 ++ leBytes 10 0⟩])]

theorem witness_LearningAndAgeing :
    (∃ (s u t : State) (src f : Nat) (m : List Byte) (r : List LearnReq), s.datapathUp = true ∧ s.fwd.learntAt = none ∧ s.fwd.learnQ = .learn src f m :: r ∧
      u = s.setFwd { s.fwd with learnQ := r, learntAt := some s.clk } ∧ u.emProbe u.epoch (l2Key f m) = none ∧ u.learnLimit src = false ∧
      u.emInsert (l2Key f m) (fit 16 (leBytes 1 0 ++ leBytes 1 src)) none = some t) ∧
    (∃ (u : State) (f : Nat) (m : List Byte), u.emProbe u.epoch (l2Key f m) = none ∧ u.learnLimit 5 = true) ∧
    (∃ (u : State) (f : Nat) (m : List Byte) (x : EmEntry), u.emProbe u.epoch (l2Key f m) = some x ∧ le x.data 1 1 = 1) ∧
    (∃ (u : State) (f : Nat) (m : List Byte) (x : EmEntry), u.emProbe u.epoch (l2Key f m) = some x ∧ le x.data 1 1 ≠ 5 ∧
      x.range.isSome = true) ∧
    (∃ (u : State) (f : Nat) (m : List Byte) (x : EmEntry), u.emProbe u.epoch (l2Key f m) = some x ∧ le x.data 1 1 ≠ 5 ∧ x.range = none ∧
      bit (le x.data 6 2) 0 = false ∧ bit (le x.data 6 2) 2 = false ∧ u.clk < x.learnTime + 1000000 * u.fwd.moveHold) ∧
    (∃ (u : State) (f : Nat) (m : List Byte) (x : EmEntry), u.emProbe u.epoch (l2Key f m) = some x ∧ le x.data 1 1 ≠ 5 ∧ x.range = none ∧
      bit (le x.data 6 2) 0 = false ∧ bit (le x.data 6 2) 2 = false ∧ x.learnTime + 1000000 * u.fwd.moveHold ≤ u.clk ∧
      u.learnLimit 5 = false) ∧
    (∃ s : State, s.datapathUp = true ∧ s.fwd.ageTime ≠ 0 ∧ (∀ v, s.fwd.ageNext = some v → v.1 ≠ 0) ∧ s.fwd.em ≠ []) :=
  ⟨⟨learning [] 5, up.setFwd { em := [], learnQ := [], learntAt := some 5000000000 },
      ((up.setFwd { em := [], learnQ := [], learntAt := some 5000000000 }).emInsert (l2Key 1 mac) (fit 16 (leBytes 1 0 ++ leBytes 1 5)) none).getD up, 5, 1, mac, [], by decide +kernel⟩,
    ⟨up.setFwd { em := [{ known with key := l2Key 2 mac, data := fit 16 (leBytes 1 0 ++ leBytes 1 5) }], ports := limited }, 1, mac, by decide +kernel⟩,
    ⟨learning [known] 1, 1, mac, known, by decide +kernel⟩, ⟨learning [{ known with range := some (0, none) }] 5, 1, mac, { known with range := some (0, none) }, by decide +kernel⟩,
    ⟨learning [{ known with learnTime := 4900000001 }] 5, 1, mac, { known with learnTime := 4900000001 }, by decide +kernel⟩,
    ⟨learning [{ known with learnTime := 4900000000 }] 5, 1, mac, { known with learnTime := 4900000000 }, by decide +kernel⟩, ⟨learning [known] 1, by decide +kernel, by decide +kernel, by intro v h; exact absurd ((show (learning [known] 1).fwd.ageNext = none by decide +kernel) ▸ h) (by simp), by decide +kernel⟩⟩

/-- Port 0 with its link up, and with a receive association behind MACsec. -/
def linked : State := up.setBuf { ports := [(0, { linkUp := true, rate := 3 }), (63, { linkUp := true })] }

def rxSa : Sa := ⟨5, 0, 0, 0, false, 9, 0, [], false⟩

def secured : State := linked.setSec { ms := [(0, { rxEn := true, strict := true, rx := [(7, { enable := true, sci := 6, replay := true, sas := [(3, rxSa)] })] })] }

def inFlight : Frame := { frame 0 with complete := false, decided := false, outcome := .pending }

def undecided : Frame := { frame 0 with decided := false, outcome := .pending }

/-- A frame whose head waits, and that frame under a wheel whose slot at its start is port 0's, in a cycle of a commit. -/
def headed : State := linked.setFr { frames := [undecided], heads := [(0, 0)] }

def turning : State :=
  { running { image 7 0 with wheel0 := [⟨1, 1, 1, 0⟩] } with
    fr := { headed.fr with issued := [(0, 5000000000)] }
    fwd := { changeAt := some 5000000000 } }

theorem witness_FramesArrive :
    (∃ (s : State) (head : List Byte), s.datapathUp = true ∧ s.portDown 63 = false ∧
      s.quenched (State.pipeDom (State.pipeOf 63)) = false ∧ s.arriving 63 = none ∧ head.length ≤ 512 ∧ (s.msPort 63).rxEn = false) ∧
    (∃ (s : State) (head : List Byte) (tag : SecTag) (sc : Nat) (a : Sa), s.datapathUp = true ∧ s.portDown 0 = false ∧
      s.quenched (State.pipeDom (State.pipeOf 0)) = false ∧ s.arriving 0 = none ∧ head.length ≤ 512 ∧ (s.msPort 0).rxEn = true ∧
      s.quenched Dom.security = false ∧ s.quenched (macsecUnit 0 false) = false ∧ s.rxSc 0 tag.sci = some sc ∧
      aget (agetD (s.msPort 0).rx sc {}).sas tag.an = some a ∧ a.stopped = false ∧
      State.lowestPn (agetD (s.msPort 0).rx sc {}) a ≤ tag.pn ∧ tag.pn ∉ a.pend) ∧
    (∃ (s : State) (f : Frame), s.datapathUp = true ∧ s.arriving 0 = some f) ∧
    (∃ (s w x : State) (slot own : Option Nat) (f : Frame), s.quenched (State.pipeDom 0) = false ∧ s.cal.changeAt ≠ some s.clk ∧
      s.fwd.changeAt ≠ some s.clk ∧ agetD s.fr.issued 0 0 ≤ s.clk ∧ s.wheelTo 0 s.clk = (slot, w) ∧
      slot.elim ((none, w) : Option Nat × State) (fun o => w.ownerPick 0 o) = (own, x) ∧ own = none ∧ State.pipeOf 0 = 0 ∧
      x.headReady 0 = some f) ∧
    (∃ (s v w x : State) (own : Option Nat) (f : Frame), s.quenched (State.pipeDom 0) = false ∧ s.fwd.changeAt = some s.clk ∧ v = s.tick 1 ∧
      agetD v.fr.issued 0 0 ≤ v.clk ∧ v.wheelTo 0 v.clk = (some 0, w) ∧ w.ownerPick 0 0 = (own, x) ∧ own = some 0 ∧
      x.headReady 0 = some f) :=
  ⟨⟨linked, List.replicate 512 0, by decide +kernel⟩, ⟨secured, List.replicate 64 0, ⟨6, 3, 9, 24⟩, 7, rxSa, by decide +kernel⟩,
    ⟨linked.setFr { frames := [inFlight] }, inFlight, by decide +kernel⟩, ⟨headed, (headed.wheelTo 0 headed.clk).2, (headed.wheelTo 0 headed.clk).2, none, none, undecided, by decide +kernel⟩,
    ⟨turning, turning.tick 1, ((turning.tick 1).wheelTo 0 (turning.tick 1).clk).2,
      (((turning.tick 1).wheelTo 0 (turning.tick 1).clk).2.ownerPick 0 0).2, some 0, undecided, by decide +kernel⟩⟩

def waitingIcv : Frame := { frame 0 with outcome := .pending, icv := .waiting, record := some 255 }

/-- A port that owes the verdict of its frame 0. -/
def owing (l : List Frame) : State := secured.setFr { frames := l, owed := [⟨0, 0, none, none⟩] }

theorem witness_FrameOutcomes :
    (∃ (s : State) (f : Frame), s.frame? 0 = some f ∧ f.decided = true ∧ f.outcome = .pending ∧ s.frameFail f = none ∧ f.complete = true ∧
      f.icv ≠ .waiting ∧ f.edge ≠ .waiting ∧ f.heldDup = false ∧ (s.commit f).1 = []) ∧
    (∃ (s : State) (f : Frame), s.frame? 0 = some f ∧ f.decided = true ∧ f.outcome = .pending ∧ s.frameFail f = none ∧ f.icv = .waiting) ∧
    (∃ (s : State) (f : Frame), s.frame? 0 = some f ∧ f.decided = true ∧ f.outcome = .pending ∧ s.frameFail f = some 5 ∧
      (s.failFrame f 5).1 = none) ∧
    (∃ (s u : State) (o : Owed), s.datapathUp = true ∧ (s.fr.owed.find? fun o => o.src == 0 && o.ticket.isNone) = some o ∧
      u = (s.owedTake o).owedLate o ∧ ((u.frame? o.fid).filter fun f => f.icv == .waiting && f.outcome == .pending) = none) ∧
    (∃ (s u : State) (o : Owed) (f : Frame), s.datapathUp = true ∧ (s.fr.owed.find? fun o => o.src == 0 && o.ticket.isNone) = some o ∧
      u = (s.owedTake o).owedLate o ∧ ((u.frame? o.fid).filter fun f => f.icv == .waiting && f.outcome == .pending) = some f) ∧
    (∃ s : State, (s.fr.owed.find? fun o => o.src == 0 && o.ticket.isNone) = none ∧ s.fr.owed ≠ []) ∧
    (∃ (s : State) (f : Frame), (s.fr.frames.find? fun f => f.src == 0 && f.decided && f.outcome == .pending &&
      f.complete && (f.icv == .waiting || f.edge == .waiting)) = some f) :=
  ⟨⟨linked.setFr { frames := [{ waitingIcv with icv := .passed }] }, { waitingIcv with icv := .passed }, by decide +kernel⟩,
    ⟨linked.setFr { frames := [waitingIcv] }, waitingIcv, by decide +kernel⟩,
    ⟨linked.setFr { frames := [{ waitingIcv with icv := .failed }] }, { waitingIcv with icv := .failed }, by decide +kernel⟩, ⟨owing [], _, ⟨0, 0, none, none⟩, by decide +kernel, by decide +kernel, rfl, by decide +kernel⟩,
    ⟨owing [waitingIcv], _, ⟨0, 0, none, none⟩, waitingIcv, by decide +kernel, by decide +kernel, rfl, by decide +kernel⟩,
    ⟨secured.setFr { owed := [⟨0, 0, some 1, none⟩, ⟨1, 0, none, none⟩] }, by decide +kernel⟩, ⟨linked.setFr { frames := [waitingIcv] }, waitingIcv, by decide +kernel⟩⟩

def pruned (s : State) (p : Nat) : State :=
  (List.range 8).foldl (fun t q => (State.pruneQueue s.fr.copies.length p q t).stallCheck p q) (s.cbsUpdate p)

def spaced (s : State) (p : Nat) : State := (pruned s p).waitUntil ((pruned s p).tport p).freeAt

def outgoing (lane : Bool) (o : FrameOutcome) : State :=
  linked.setFr { frames := [{ frame 0 with outcome := o }], copies := [{ fid := 0, port := 0, queue := 7, onLane := lane, startAt := 4999000000 }] }

/-- A frame longer than its guarantee's L_MAX, on the lane. -/
def guarantee : Guarantee := ⟨0, 0, 0, 7, 0, 0, 0, 1, 0, 64, 1000000, 1, 0, 1000, 1000000, 0⟩

def longFrame : Frame := { frame 0 with bytes := List.replicate 300 0, handle := some 0, image := 7, outcome := .pending }

def overlong : State :=
  { running { image 7 0 with guarantees := [guarantee] } with
    buf := linked.buf
    fr := { frames := [longFrame], copies := [{ fid := 0, port := 0, queue := 7, onLane := true, startAt := 4999000000 }] } }

/-- Port 0 with preemption active, a preemptable copy of a long frame on its lane and an express head. -/
def preempting : State :=
  { linked with
    trf := { ports := [(0, { preemptEn := true, express := 0x80 })] }
    fr := { frames := [{ frame 0 with bytes := List.replicate 1500 0 }, frame 1],
            copies := [{ fid := 0, port := 0, queue := 0, onLane := true, startAt := 4999999000, firstAt := 4999999000 },
                       { fid := 1, port := 0, queue := 7 }] } }

/-- Port 0 with a preempted copy and nothing else. -/
def half (hold : Bool) : State :=
  { linked with
    trf := { ports := [(0, { preemptEn := true, hold := hold })] }
    fr := { frames := [frame 0], copies := [{ fid := 0, port := 0, queue := 0, preempted := true, sent := 60 }] } }

/-- That port behind MACsec, with an active transmit SA and without one. -/
def shielded (an : Option Nat) : State :=
  { outgoing false .committed with sec := { ms := [(0, { txEn := true, tx := { sas := [(0, { rxSa with nextPn := 1 })] }, txAn := an })] } }

theorem witness_EgressCopies :
    (∃ s : State, s.datapathUp = true ∧ s.portDown 0 = false ∧ s.quenched Dom.buffer = false ∧ (pruned s 0).laneCopy 0 = none ∧
      ((spaced s 0).serve 0 fun _ => true).1 = none ∧ ((spaced s 0).serve 0 fun _ => true).2.preemptedCopy 0 = none) ∧
    (∃ (s : State) (c : Copy), s.datapathUp = true ∧ s.portDown 0 = false ∧ s.quenched Dom.buffer = false ∧ (pruned s 0).laneCopy 0 = none ∧
      ((spaced s 0).serve 0 fun _ => true).1 = none ∧ ((spaced s 0).serve 0 fun _ => true).2.preemptedCopy 0 = some c ∧
      ((spaced s 0).serve 0 fun _ => true).2.laneCopy 0 = none ∧ (((spaced s 0).serve 0 fun _ => true).2.tport 0).hold = true) ∧
    (∃ (s : State) (c : Copy), (pruned s 0).laneCopy 0 = none ∧
      ((spaced s 0).serve 0 fun _ => true).1 = none ∧ ((spaced s 0).serve 0 fun _ => true).2.preemptedCopy 0 = some c ∧
      ((spaced s 0).serve 0 fun _ => true).2.laneCopy 0 = none ∧ (((spaced s 0).serve 0 fun _ => true).2.tport 0).hold = false) ∧
    (∃ (s : State) (c : Copy) (f : Frame), s.datapathUp = true ∧ s.portDown 0 = false ∧ s.quenched Dom.buffer = false ∧
      (pruned s 0).laneCopy 0 = none ∧ ((spaced s 0).serve 0 fun _ => true).1 = some 7 ∧
      ((spaced s 0).serve 0 fun _ => true).2.head? 0 7 = some (c, f) ∧ (((spaced s 0).serve 0 fun _ => true).2.protect f 0 = .plain)) ∧
    (∃ (s v t : State) (c : Copy) (f : Frame), (pruned s 0).laneCopy 0 = none ∧ (spaced s 0).serve 0 (fun _ => true) = (some 7, v) ∧
      v.head? 0 7 = some (c, f) ∧ v.protect f 0 = .sa 0 1 t) ∧
    (∃ (s v : State) (c : Copy) (f : Frame), (pruned s 0).laneCopy 0 = none ∧ (spaced s 0).serve 0 (fun _ => true) = (some 7, v) ∧
      v.head? 0 7 = some (c, f) ∧ v.protect f 0 = .discard) ∧
    (∃ (s t : State) (c : Copy) (f : Frame), (pruned s 0).laneCopy 0 = some c ∧ (pruned s 0).frame? c.fid = some f ∧
      (pruned s 0).mmActive 0 = true ∧ (pruned s 0).isExpress 0 c.queue = false ∧ (pruned s 0).preemptedCopy 0 = none ∧
      (∃ q < 8, (pruned s 0).isExpress 0 q = true ∧ (pruned s 0).eligible 0 q = true) ∧ (pruned s 0).preempt c f = some t) ∧
    (∃ (s : State) (c : Copy) (f : Frame), (pruned s 0).laneCopy 0 = some c ∧ (pruned s 0).frame? c.fid = some f ∧
      (pruned s 0).mmActive 0 = false) ∧
    (∃ (s : State) (c : Copy) (f : Frame), s.frame? f.fid = some f ∧ c ∈ s.fr.copies ∧ c.fid = f.fid) ∧
    (∃ (s : State) (c : Copy) (f : Frame), s.laneCopy 0 = some c ∧ s.frame? c.fid = some f ∧ f.outcome = .committed) ∧
    (∃ (s : State) (c : Copy) (f : Frame), s.laneCopy 0 = some c ∧ s.frame? c.fid = some f ∧ f.outcome ≠ .committed ∧
      s.storedOut f = true) ∧
    (∃ (s : State) (c : Copy) (f : Frame), s.laneCopy 0 = some c ∧ s.frame? c.fid = some f ∧ f.outcome ≠ .committed ∧
      s.storedOut f = false ∧ s.stopped (Reg.spcLateEgressCnt (State.pipeOf f.src)) = false) ∧
    (∃ s : State, s.laneCopy 0 = none) :=
  ⟨⟨linked, by decide +kernel⟩, ⟨half true, { fid := 0, port := 0, queue := 0, preempted := true, sent := 60 }, by decide +kernel⟩,
    ⟨half false, { fid := 0, port := 0, queue := 0, preempted := true, sent := 60 }, by decide +kernel⟩,
    ⟨outgoing false .committed, { fid := 0, port := 0, queue := 7, startAt := 4999000000 }, frame 0, by decide +kernel⟩,
    ⟨shielded (some 0), ((spaced (shielded (some 0)) 0).serve 0 fun _ => true).2, _,
      { fid := 0, port := 0, queue := 7, startAt := 4999000000 }, frame 0, by decide +kernel, by decide +kernel, by decide +kernel, rfl⟩,
    ⟨shielded none, ((spaced (shielded none) 0).serve 0 fun _ => true).2,
      { fid := 0, port := 0, queue := 7, startAt := 4999000000 }, frame 0, by decide +kernel⟩,
    ⟨preempting, ((pruned preempting 0).preempt { fid := 0, port := 0, queue := 0, onLane := true, startAt := 4999999000, firstAt := 4999999000 }
        { frame 0 with bytes := List.replicate 1500 0 }).getD up,
      { fid := 0, port := 0, queue := 0, onLane := true, startAt := 4999999000, firstAt := 4999999000 },
      { frame 0 with bytes := List.replicate 1500 0 }, by decide +kernel⟩,
    ⟨outgoing true .committed, { fid := 0, port := 0, queue := 7, onLane := true, startAt := 4999000000 }, frame 0, by decide +kernel⟩,
    ⟨outgoing false .committed, { fid := 0, port := 0, queue := 7, startAt := 4999000000 }, frame 0, by decide +kernel⟩,
    ⟨outgoing true .committed, { fid := 0, port := 0, queue := 7, onLane := true, startAt := 4999000000 }, frame 0, by decide +kernel⟩,
    ⟨overlong, { fid := 0, port := 0, queue := 7, onLane := true, startAt := 4999000000 }, longFrame, by decide +kernel⟩,
    ⟨outgoing true .pending, { fid := 0, port := 0, queue := 7, onLane := true, startAt := 4999000000 },
      { frame 0 with outcome := .pending }, by decide +kernel⟩, ⟨linked, by decide +kernel⟩⟩

/-! ### Witnesses: buffers and traffic -/

/-- A frame of 64 bytes whose copy for queue 7 of port 0 stands as given. -/
def spilled (c : SpillState) (spilling : Bool) : State :=
  (queued { fid := 0, port := 0, queue := 7, spill := c }).setBuf { linked.buf with spilling := spilling, ovfSize := 2 ^ 30 }

/-- A copy behind 64 cells of its queue, while the shared cells are nearly used up. -/
def spilling : State :=
  (({ spilled .onChip true with
    fr := { frames := [{ frame 0 with cells := 390000 }, frame 1], next := 2
            copies := [{ fid := 0, port := 0, queue := 7 }, { fid := 1, port := 0, queue := 7 }] } }).rset (Reg.bufQcfg 7) 0x100000).rset Reg.bufCtrl 1

theorem witness_OverflowMemory :
    (∃ (s : State) (c : Copy), s.datapathUp = true ∧ s.quenched Dom.buffer = false ∧ s.quenched Dom.memory = false ∧ s.spillUpdate = s ∧
      s.buf.spilling = true ∧ s.spillPick = some c) ∧
    (∃ (s : State) (c : Copy), s.datapathUp = true ∧ s.quenched Dom.buffer = false ∧ s.quenched Dom.memory = false ∧
      State.ofQueueIndex 7 = (0, 7) ∧ ((s.queueOf 0 7).find? fun c => c.spill == .inDram) = some c ∧ s.cellsAhead c < 128 ∧
      s.fcells c.fid ≤ s.sharedFree) ∧
    (∃ (s : State) (c : Copy), s.datapathUp = true ∧ s.quenched Dom.buffer = false ∧ s.quenched Dom.memory = false ∧
      ((s.queueOf 0 7).find? fun c => c.spill == .draining) = some c) ∧
    (∃ s : State, s.datapathUp = true ∧ s.quenched Dom.buffer = false ∧ s.buf.slag = [] ∧ s.buf.suspectCells = [] ∧
      s.buf.suspectRefs = []) ∧
    (∃ (s : State) (c : Nat), s.datapathUp = true ∧ s.quenched Dom.buffer = false ∧ s.buf.slag = [] ∧ s.buf.suspectCells = [c] ∧
      s.buf.suspectRefs = [] ∧ c < 2 ^ 31 ∧ s.rfld Reg.bufCtrl 1 1 = 0) :=
  ⟨⟨spilling, { fid := 1, port := 0, queue := 7 }, by decide +kernel⟩,
    ⟨spilled .inDram false, { fid := 0, port := 0, queue := 7, spill := .inDram }, by decide +kernel⟩,
    ⟨spilled .draining false, { fid := 0, port := 0, queue := 7, spill := .draining }, by decide +kernel⟩, ⟨up, by decide +kernel⟩,
    ⟨(up.setBuf { suspectCells := [2 ^ 31 - 1] }).rset Reg.bufCtrl 0, 2 ^ 31 - 1, by decide +kernel⟩⟩

def flow (mode : Word) (g : Image) : State :=
  ({ running g with buf := { ports := [(0, { linkUp := true, rate := 3, paused := [(7, 5000100000)], xoff := [7], xoffAt := [(7, 5000000000)] })] } }).rset
    (Reg.bufPortFc 0) mode

theorem witness_FlowControl :
    (∃ s : State, s.portDown 0 = false ∧ s.rfld (Reg.bufPortFc 0) 0 2 = 1 ∧ (∀ k, k < 8 → s.isScheduled 0 k = false)) ∧
    (∃ s : State, s.portDown 0 = false ∧ s.rfld (Reg.bufPortFc 0) 0 2 = 1 ∧ s.isScheduled 0 7 = true) ∧
    (∃ s : State, s.portDown 0 = false ∧ s.rfld (Reg.bufPortFc 0) 0 2 ≠ 1) ∧
    (∃ s : State, s.portDown 0 = false ∧ aget (s.bport 0).paused 7 = some 5000100000) ∧
    (∃ s : State, s.portDown 0 = false ∧ 7 ∈ (s.bport 0).xoff) :=
  ⟨⟨flow 1 (image 7 0), by decide +kernel⟩, ⟨flow 1 { image 7 0 with guarantees := [guarantee] }, by decide +kernel⟩, ⟨flow 2 (image 7 0), by decide +kernel⟩,
    ⟨flow 1 (image 7 0), by decide +kernel⟩, ⟨flow 1 (image 7 0), by decide +kernel⟩⟩

theorem witness_PortLinks :
    (∃ s : State, (s.bport 63).linkUp = true ∧ s.portDown 63 = false ∧ (∀ f ∈ s.fr.frames, f.src = 63 → f.complete = true) ∧
      1 ≤ s.rfld (Reg.bufPortHold 63) 0 4 ∧ s.rfld (Reg.bufPortHold 63) 0 4 ≤ 10 ∧ 1 ≤ s.rfld (Reg.bufPortHold 63) 8 7 ∧
      s.rfld (Reg.bufPortHold 63) 8 7 ≤ 100) ∧
    (∃ s : State, (s.bport 63).schedHold = some 5001000000 ∧ (s.bport 63).beHold = some 5002000000) ∧
    (∃ (s : State) (code : Nat), (s.bport 63).linkUp = false ∧ State.rateAllowed 63 code = true ∧ s.datapathUp = true ∧
      s.quenched (portUnit 63) = false ∧ s.fr.copies = [] ∧ s.fr.frames = []) ∧
    (∃ code : Nat, State.rateAllowed 63 code = false) :=
  ⟨⟨linked.rset (Reg.bufPortHold 63) 0x640A, by decide +kernel⟩, ⟨up.setBuf { ports := [(63, { schedHold := some 5001000000, beHold := some 5002000000 })] }, by decide +kernel⟩, ⟨up, 0, by decide +kernel⟩, ⟨5, by decide +kernel⟩⟩

def queueBody : List (Nat × Nat) :=
  [(1, 64), (1, 0), (1, 31), (1, 3), (4, 0), (4, 0), (1, 0), (1, 128), (2, 0), (16, 2 ^ 128 - 1), (24, 0), (8, 0)] ++
    (List.replicate 32 (4, 16777216))

def policerBody (flags : Nat) : List (Nat × Nat) := [(2, 8191), (1, flags), (1, 2), (4, 25000000), (4, 16777216), (1, 0xC0), (3, 0)]

def cbsBody (slope : Nat) : List (Nat × Nat) := [(1, 0), (1, 63), (1, 7), (1, 1), (4, slope), (8, 0)]

def frerBody (kind flags i : Nat) : List (Nat × Nat) :=
  [(1, kind), (1, flags), (2, i), (1, 64), (1, 8), (2, 1), (2, 0), (2, 10), (4, 0)]

/-- Stream filter 0 names generation function 1023, recovery function 2047, policer 8191 and stream gate 1023. -/
def streamFilter : Filter := ⟨true, false, 1, 4, 0xFFFF, 0, 0, 0, 0, 0, 67, 0, 1023, 8191, 2047, 1023, false, [], 0⟩

theorem witness_TrafficCommands :
    (∃ (s : State) (c : Cmd), s.Ready 0 0 0x0400 c ∧ s.datapathUp = true ∧ s.quenched Dom.buffer = false ∧ c.u 0 1 = 64 ∧ c.u 2 1 < 32 ∧
      c.u 3 1 ≤ 3 ∧ 1 ≤ c.u 13 1 ∧ c.u 13 1 ≤ 128 ∧
      (∀ m ∈ (List.range 8).map (fun i => c.u (16 + 2 * i) 2), m = 0xFFFF ∨ m < 8192) ∧
      (∀ k, k < 32 → bit (c.u 4 4) k = true ∨ (64 ≤ ((List.range 32).map (fun i => c.u (64 + 4 * i) 4)).getD k 0 ∧
        ((List.range 32).map (fun i => c.u (64 + 4 * i) 4)).getD k 0 ≤ 16777216)) ∧
      bit (c.u 1 1) 1 = false ∧ s.metersLive ((List.range 8).map (fun i => c.u (16 + 2 * i) 2)) = true) ∧
    (∃ (s : State) (c : Cmd), s.Ready 0 0 0x0401 c ∧ s.datapathUp = true ∧ s.quenched Dom.buffer = false ∧ c.u 0 2 < 8192 ∧ c.u 3 1 ≤ 2 ∧
      1 ≤ c.u 4 4 ∧ c.u 4 4 ≤ 25000000 ∧ 64 ≤ c.u 8 4 ∧ c.u 8 4 ≤ 16777216 ∧ -64 ≤ toSigned 8 (c.u 12 1) ∧ toSigned 8 (c.u 12 1) ≤ 63 ∧
      bit (c.u 2 1) 0 = false ∧ s.policerNamed (c.u 0 2) = true) ∧
    (∃ (s : State) (c : Cmd), s.Ready 0 0 0x0401 c ∧ s.datapathUp = true ∧ s.quenched Dom.buffer = false ∧ c.u 0 2 < 8192 ∧ c.u 3 1 ≤ 2 ∧
      1 ≤ c.u 4 4 ∧ c.u 4 4 ≤ 25000000 ∧ 64 ≤ c.u 8 4 ∧ c.u 8 4 ≤ 16777216 ∧ bit (c.u 2 1) 0 = true) ∧
    (∃ (s : State) (c : Cmd), s.Ready 0 0 0x0402 c ∧ s.datapathUp = true ∧ s.quenched Dom.buffer = false ∧ c.u 0 1 = 0 ∧ c.body.length = 16 ∧
      c.u 1 1 < 64 ∧ c.u 2 1 < 8 ∧ 1 ≤ c.u 4 4 ∧ c.u 4 4 ≤ State.maxRate (c.u 1 1)) ∧
    (∃ (s : State) (c : Cmd), s.Ready 0 0 0x0402 c ∧ c.u 0 1 = 0 ∧ c.body.length = 16 ∧ c.u 1 1 < 64 ∧ c.u 2 1 < 8 ∧ c.u 4 4 = 0) ∧
    (∃ (s : State) (c : Cmd), s.Ready 0 0 0x0404 c ∧ s.datapathUp = true ∧ s.quenched Dom.buffer = false ∧ c.u 0 1 = 0 ∧ c.u 2 2 < 2048 ∧
      2 ≤ c.u 4 1 ∧ c.u 4 1 ≤ 64 ∧ 2 ≤ c.u 5 1 ∧ c.u 5 1 ≤ 8 ∧ 1 ≤ c.u 6 2 ∧ 10 ≤ c.u 10 2 ∧ bit (c.u 1 1) 0 = true) ∧
    (∃ (s : State) (c : Cmd), s.Ready 0 0 0x0404 c ∧ s.datapathUp = true ∧ s.quenched Dom.buffer = false ∧ c.u 0 1 = 1 ∧ c.u 2 2 < 1024 ∧
      s.filterAny (fun x => x.generation == c.u 2 2) = false) :=
  ⟨⟨with_ up 0x0400 queueBody, cmdOf 0x0400 queueBody, ⟨ready _ _ _ _ _ (by decide +kernel), by decide +kernel⟩⟩,
    ⟨(with_ up 0x0401 (policerBody 0)).setTrf { filters := [(0, streamFilter)] }, cmdOf 0x0401 (policerBody 0), ⟨ready _ _ _ _ _ (by decide +kernel), by decide +kernel⟩⟩,
    ⟨with_ up 0x0401 (policerBody 1), cmdOf 0x0401 (policerBody 1), ⟨ready _ _ _ _ _ (by decide +kernel), by decide +kernel⟩⟩,
    ⟨with_ up 0x0402 (cbsBody 1), cmdOf 0x0402 (cbsBody 1), ⟨ready _ _ _ _ _ (by decide +kernel), by decide +kernel⟩⟩, ⟨with_ up 0x0402 (cbsBody 0), cmdOf 0x0402 (cbsBody 0), ⟨ready _ _ _ _ _ (by decide +kernel), by decide +kernel⟩⟩,
    ⟨with_ up 0x0404 (frerBody 0 1 2047), cmdOf 0x0404 (frerBody 0 1 2047), ⟨ready _ _ _ _ _ (by decide +kernel), by decide +kernel⟩⟩,
    ⟨with_ up 0x0404 (frerBody 1 0 1023), cmdOf 0x0404 (frerBody 1 0 1023), ⟨ready _ _ _ _ _ (by decide +kernel), by decide +kernel⟩⟩⟩

def gclBody (cycle : Nat) : List (Nat × Nat) :=
  [(1, 1), (1, 63), (2, 1), (1, 3), (1, 1), (2, 0), (4, cycle), (4, 0), (6, 0), (2, 0), (8, 8), (8, 0)]

def sgBody : List (Nat × Nat) := [(1, 1), (1, 1), (2, 1023), (2, 1), (1, 3), (1, 0), (4, 1000), (4, 0), (6, 0), (2, 0), (8, 8)]

def filterBody : List (Nat × Nat) :=
  [(1, 0), (1, 1), (2, 4095), (1, 2), (1, 7), (2, 0xFFFF), (6, 0), (19, 0), (1, 4), (1, 67), (1, 0), (2, 0), (2, 1023), (2, 0xFFFF),
   (2, 0xFFFF), (2, 0xFFFF), (10, 0)]

def entryBytes (interval : Nat) : List Byte := leBytes 4 interval ++ leBytes 4 0

def sequenceRecovery (top : Option Nat) : State :=
  up.setTrf { recov := [(2047, { enabled := true, latentEn := true, resetMs := 1, latentMs := 10, top := top, seen := top.toList })] }

theorem witness_StreamFiltersAndLists :
    (∃ (s : State) (c : Cmd) (es : List GateEntry), s.Ready 0 0 0x0402 c ∧ s.datapathUp = true ∧ s.quenched Dom.buffer = false ∧
      c.u 0 1 = 1 ∧ c.body.length = 40 ∧ c.u 1 1 < 64 ∧ 1 ≤ c.u 2 2 ∧ c.u 2 2 ≤ 1024 ∧ c.u 4 1 ≤ 3 ∧ 1000 ≤ c.u 8 4 ∧
      c.u 8 4 ≤ 1000000000 ∧ c.u 24 8 % 8 = 0 ∧ bit (c.u 5 1) 0 = true ∧ es = State.listEntries (c.u 2 2) (entryBytes 1000) ∧
      (∀ e ∈ es, e.op ≤ 2) ∧ State.listOk (c.u 8 4) es = true) ∧
    (∃ (s : State) (c : Cmd) (es : List GateEntry), s.Ready 0 0 0x0402 c ∧ c.u 0 1 = 1 ∧ c.body.length = 40 ∧ c.u 8 4 ≤ 1000000000 ∧
      es = State.listEntries (c.u 2 2) (entryBytes 1000) ∧ State.listOk (c.u 8 4) es = false) ∧
    (∃ (s : State) (c : Cmd) (es : List GateEntry), s.Ready 0 0 0x0403 c ∧ s.datapathUp = true ∧ s.quenched Dom.buffer = false ∧
      c.u 0 1 = 1 ∧ c.body.length = 32 ∧ c.u 2 2 < 1024 ∧ 1 ≤ c.u 4 2 ∧ c.u 4 2 ≤ 256 ∧ c.u 6 1 ≤ 3 ∧ c.u 24 8 % 8 = 0 ∧
      bit (c.u 1 1) 0 = true ∧ es = State.listEntries (c.u 4 2) (entryBytes 1000) ∧ State.listOk (c.u 8 4) es = true ∧
      (∀ e ∈ es, e.gates ≤ 1) ∧ s.poolUsed (c.u 2 2) + c.u 4 2 ≤ 16384) ∧
    (∃ (s : State) (c : Cmd), s.Ready 0 0 0x0403 c ∧ s.datapathUp = true ∧ s.quenched Dom.buffer = false ∧ c.u 0 1 = 0 ∧
      c.body.length = 56 ∧ c.u 2 2 < 4096 ∧ c.u 4 1 ≤ 2 ∧ c.u 5 1 ≤ 7 ∧ c.u 34 1 ≤ 67 ∧ c.u 33 1 = 4 ∧ c.u 36 2 = 0 ∧ c.u 38 2 < 1024 ∧
      c.u 40 2 = 0xFFFF ∧ c.u 42 2 = 0xFFFF ∧ c.u 44 2 = 0xFFFF ∧ bit (c.u 1 1) 0 = true ∧
      (agetD s.trf.gates (c.u 38 2) {}).enabled = false) ∧
    (∃ (s : State) (c : Cmd), s.Ready 0 0 0x0403 c ∧ c.u 0 1 = 0 ∧ c.u 38 2 < 1024 ∧ (agetD s.trf.gates (c.u 38 2) {}).enabled = true) ∧
    (∃ (s : State) (l : HostList), s.datapathUp = true ∧ (agetD s.trf.gates 1023 {}).pend = some l ∧ (agetD s.trf.gates 1023 {}).retained = false ∧
      (s.domain l.domain).state ≠ .disabled ∧ (agetD s.trf.gates 1023 {}).cur = some l ∧ (agetD s.trf.gates 1023 {}).rephase = none) ∧
    (∃ (s : State) (l : HostList), s.datapathUp = true ∧ (agetD s.trf.gcl 63 {}).pend = some l ∧ (agetD s.trf.gcl 63 {}).retained = false ∧
      (s.domain l.domain).state ≠ .disabled ∧ s.imageList 63 = none) ∧
    (∃ s : State, s.datapathUp = true ∧ (s.recovery 2047).enabled = true ∧ (s.recovery 2047).top ≠ none ∧
      (s.recovery 2047).latentEn = true) ∧
    (∃ s : State, s.datapathUp = true ∧ (s.recovery 2047).enabled = true ∧ (s.recovery 2047).top = none) :=
  ⟨⟨with_ up 0x0402 (gclBody 1000), cmdOf 0x0402 (gclBody 1000), [⟨1000, 0, 0⟩], ⟨ready _ _ _ _ _ (by decide +kernel), by decide +kernel⟩⟩,
    ⟨with_ up 0x0402 (gclBody 1000000000), cmdOf 0x0402 (gclBody 1000000000), [⟨1000, 0, 0⟩], ⟨ready _ _ _ _ _ (by decide +kernel), by decide +kernel⟩⟩,
    ⟨with_ up 0x0403 sgBody, cmdOf 0x0403 sgBody, [⟨1000, 0, 0⟩], ⟨ready _ _ _ _ _ (by decide +kernel), by decide +kernel⟩⟩, ⟨with_ up 0x0403 filterBody, cmdOf 0x0403 filterBody, ⟨ready _ _ _ _ _ (by decide +kernel), by decide +kernel⟩⟩,
    ⟨(with_ up 0x0403 filterBody).setTrf { gates := [(1023, { enabled := true })] }, cmdOf 0x0403 filterBody, ⟨ready _ _ _ _ _ (by decide +kernel), by decide +kernel⟩⟩,
    ⟨timed.setTrf { gates := [(1023, { cur := some hostGate, pend := some hostGate })] }, hostGate, by decide +kernel⟩,
    ⟨timed.setTrf { gcl := [(63, { pend := some hostGate })] }, hostGate, by decide +kernel⟩, ⟨sequenceRecovery (some 5), by decide +kernel⟩, ⟨sequenceRecovery none, by decide +kernel⟩⟩

def verifying : State := linked.setTrf { ports := [(0, { verify := 1, verifySent := 2, preemptEn := true })], gcl := [(0, { cur := some hostGate })] }

def verified : State := { verifying with dom := timed.dom }

theorem witness_PreemptionAndAudit :
    (∃ (s : State) (left : Nat) (e : GateEntry), s.mmActive 0 = true ∧ (sortOn (·.1) (s.entriesAhead 0)).head? = some (left, e) ∧ e.op = 1 ∧
      (s.tport 0).hold = false) ∧
    (∃ s : State, (s.tport 0).verify = 1 ∧ s.portDown 0 = false) ∧
    (∃ s : State, s.rfld Reg.trfCtrl 0 1 = 1 ∧ s.datapathUp = true ∧ s.quenched Dom.buffer = false) :=
  ⟨⟨verified, ((sortOn (·.1) (verified.entriesAhead 0)).head?.map (·.1)).getD 0, ⟨500000, 1, 1⟩, by decide +kernel⟩, ⟨verifying, by decide +kernel⟩, ⟨up.rset Reg.trfCtrl 1, by decide +kernel⟩⟩

/-! ### Witnesses: time -/

def timeBody (flags source : Nat) : List (Nat × Nat) := [(1, 0), (1, flags), (1, source), (45, 0)]

def domBody : List (Nat × Nat) := [(1, 0), (1, 1), (1, 0), (1, 127), (16, 0), (1, 0xFF), (3, 0), (8, 2 ^ 48 - 1), (16, 0)]

def domOff : List (Nat × Nat) := [(20, 0), (1, 0xFF), (27, 0)]

def adjustBody (off : Nat) : List (Nat × Nat) := [(1, 0), (1, 2), (2, 0), (4, 0), (8, off), (8, 0)]

def domained (d : Domain) (op : Nat) (f : List (Nat × Nat)) : State := { with_ up op f with dom := [(0, d)] }

theorem witness_TimeCommands :
    (∃ (s : State) (c : Cmd), s.Ready 0 0 0x0800 c ∧ s.quenched Dom.time = false ∧ c.u 0 1 = 0 ∧
      State.domainRanges (State.domainSet c (s.domain 0)) = true ∧ bit (c.u 1 1) 0 = true ∧
      s.domainPorts 0 (State.domainSet c (s.domain 0)) = true ∧ (s.domain 0).state = .disabled) ∧
    (∃ (s : State) (c : Cmd), s.Ready 0 0 0x0800 c ∧ s.quenched Dom.time = false ∧ c.u 0 1 = 0 ∧
      State.domainRanges (State.domainSet c (s.domain 0)) = true ∧ bit (c.u 1 1) 0 = false ∧ (s.domain 0).state ≠ .disabled ∧
      s.domainUsed 0 = true) ∧
    (∃ (s : State) (c : Cmd), s.Ready 0 0 0x0800 c ∧ s.quenched Dom.time = false ∧ c.u 0 1 = 0 ∧
      State.domainRanges (State.domainSet c (s.domain 0)) = true ∧ bit (c.u 1 1) 0 = false ∧ s.domainUsed 0 = false) ∧
    (∃ (s : State) (c : Cmd), s.Ready 0 0 0x0800 c ∧ s.quenched Dom.time = false ∧ 3 < c.u 0 1) ∧
    (∃ (s : State) (c : Cmd), s.Ready 0 0 0x0801 c ∧ s.quenched Dom.time = false ∧ c.u 0 1 = 0 ∧ (s.domain 0).source ≠ 1 ∧ c.u 1 1 = 2 ∧
      (toSigned 32 (c.u 4 4)).natAbs ≤ 500000000 ∧ (s.domain 0).state = .unset) ∧
    (∃ (s : State) (c : Cmd), s.Ready 0 0 0x0801 c ∧ c.u 0 1 = 0 ∧ (s.domain 0).source ≠ 1 ∧ c.u 1 1 = 2 ∧ (s.domain 0).state = .locked ∧
      (s.domain 0).resumed = false ∧ (s.domain 0).newSource = false ∧ (toSigned 64 (c.u 8 8)).natAbs ≤ (s.domain 0).threshold) ∧
    (∃ (s : State) (c : Cmd), s.Ready 0 0 0x0801 c ∧ c.u 0 1 = 0 ∧ (s.domain 0).source ≠ 1 ∧ c.u 1 1 = 2 ∧ (s.domain 0).state = .locked ∧
      (s.domain 0).resumed = false ∧ (s.domain 0).threshold < (toSigned 64 (c.u 8 8)).natAbs) ∧
    (∃ (s : State) (c : Cmd), s.Ready 0 0 0x0801 c ∧ c.u 0 1 = 0 ∧ (s.domain 0).state ≠ .disabled ∧ (s.domain 0).source = 1) ∧
    (∃ (s : State) (c : Cmd), s.Ready 0 0 0x0802 c ∧ c.u 0 1 = 0 ∧ (s.domain 0).state = .held ∧ (s.domain 0).heldSeq ≠ c.u 2 2) ∧
    (∃ (s : State) (c : Cmd), s.Ready 0 0 0x0802 c ∧ c.u 0 1 = 0 ∧ (s.domain 0).state = .held ∧ (s.domain 0).heldSeq = c.u 2 2 ∧
      bit (c.u 1 1) 0 = false) ∧
    (∃ (s : State) (c : Cmd), s.Ready 0 0 0x0802 c ∧ c.u 0 1 = 0 ∧ (s.domain 0).state = .held ∧ (s.domain 0).heldSeq = c.u 2 2 ∧
      bit (c.u 1 1) 0 = true) ∧
    (∃ (s : State) (c : Cmd), s.Ready 0 0 0x0802 c ∧ c.u 0 1 = 0 ∧ (s.domain 0).state ≠ .disabled ∧ (s.domain 0).state ≠ .held) :=
  ⟨⟨domained {} 0x0800 domBody, cmdOf 0x0800 domBody, ⟨ready _ _ _ _ _ (by decide +kernel), by decide +kernel⟩⟩,
    ⟨{ domained { state := .locked } 0x0800 domOff with trf := { gcl := [(63, { cur := some hostGate })] } }, cmdOf 0x0800 domOff, ⟨ready _ _ _ _ _ (by decide +kernel), by decide +kernel⟩⟩,
    ⟨domained { state := .locked } 0x0800 domOff, cmdOf 0x0800 domOff, ⟨ready _ _ _ _ _ (by decide +kernel), by decide +kernel⟩⟩, ⟨domained {} 0x0800 [(1, 4), (47, 0)], cmdOf 0x0800 [(1, 4), (47, 0)], ⟨ready _ _ _ _ _ (by decide +kernel), by decide +kernel⟩⟩,
    ⟨domained { state := .unset } 0x0801 (adjustBody 5), cmdOf 0x0801 (adjustBody 5), ⟨ready _ _ _ _ _ (by decide +kernel), by decide +kernel⟩⟩,
    ⟨domained { state := .locked } 0x0801 (adjustBody (2 ^ 64 - 1000)), cmdOf 0x0801 (adjustBody (2 ^ 64 - 1000)), ⟨ready _ _ _ _ _ (by decide +kernel), by decide +kernel⟩⟩,
    ⟨domained { state := .locked } 0x0801 (adjustBody 1001), cmdOf 0x0801 (adjustBody 1001), ⟨ready _ _ _ _ _ (by decide +kernel), by decide +kernel⟩⟩,
    ⟨domained { state := .locked, source := 1 } 0x0801 (adjustBody 1), cmdOf 0x0801 (adjustBody 1), ⟨ready _ _ _ _ _ (by decide +kernel), by decide +kernel⟩⟩,
    ⟨domained { state := .held, heldSeq := 1 } 0x0802 [(8, 0)], cmdOf 0x0802 [(8, 0)], ⟨ready _ _ _ _ _ (by decide +kernel), by decide +kernel⟩⟩,
    ⟨domained { state := .held, heldStep := 5 } 0x0802 [(8, 0)], cmdOf 0x0802 [(8, 0)], ⟨ready _ _ _ _ _ (by decide +kernel), by decide +kernel⟩⟩,
    ⟨domained { state := .held, heldStep := 5 } 0x0802 [(8, 256)], cmdOf 0x0802 [(8, 256)], ⟨ready _ _ _ _ _ (by decide +kernel), by decide +kernel⟩⟩,
    ⟨domained { state := .locked } 0x0802 [(8, 0)], cmdOf 0x0802 [(8, 0)], ⟨ready _ _ _ _ _ (by decide +kernel), by decide +kernel⟩⟩⟩

def slaved (st : DomState) (src : Nat) : State :=
  { linked with dom := [(3, { state := st, source := src, number := 255, slave := some 63, ports := 2 ^ 63 + 1, slew := 7, hostTimeout := 10 })] }

theorem witness_TimeEvents :
    (∃ s : State, s.domainOf 255 = some 3 ∧ bit (s.domain 3).ports 63 = true ∧ s.gptpUp = true ∧ (s.domain 3).source = 1 ∧
      (s.domain 3).slave = some 63 ∧ (s.domain 3).state = .locked ∧ (s.domain 3).slew ≠ 0) ∧
    (∃ s : State, s.domainOf 254 = none ∧ s.pwr.fwReady = true) ∧
    (∃ s : State, (s.domain 3).source = 2 ∧ (s.domain 3).hostTimeout ≠ 0 ∧ s.quenched Dom.time = false ∧ (s.domain 3).state = .held) ∧
    (∃ s : State, s.gptpUp = true ∧ (s.domain 3).state ≠ .disabled ∧ bit (s.domain 3).ports 63 = true ∧ s.portDown 63 = false ∧
      (s.domain 3).source ≠ 1) ∧
    (∃ (s : State) (r : RegRow), s.Reached ∧ s.Writable 1 Reg.timSnap r) :=
  ⟨⟨slaved .locked 1, by decide +kernel⟩, ⟨slaved .locked 1, by decide +kernel⟩, ⟨slaved .held 2, by decide +kernel⟩, ⟨slaved .locked 2, by decide +kernel⟩, ⟨up, rowOf Reg.timSnap, (by (repeat' apply And.intro) <;> first | exact reached _ (by decide +kernel) | exact writable _ _ _ _ (by decide +kernel) | exact ready _ _ _ _ _ (by decide +kernel) | decide +kernel)⟩⟩

/-! ### Witnesses: edge buses -/

def canFrame (fmt : CanFormat) (n : Nat) : CanFrame :=
  { format := fmt, ext := false, id := 0x7FF, brs := false, esi := false, sdt := 0, sec := false, rrs := false, vcid := 0, af := 0,
    data := List.replicate n 0, dlc := 0 }

def bus (c : CanCh) : State := (up.rset Reg.edgCtrl 1).setEdg { can := [(63, c)] }

def anyFilter (flags : Nat) : CanFilter := leBytes 1 flags ++ leBytes 1 15 ++ leBytes 30 0

def txItem : TxItem := { frame := canFrame .classicData 8, single := false, writer := 0 }

theorem witness_CanTraffic :
    (∃ s : State, s.canHears 63 = true ∧ (s.canCh 63).pn = false ∧ (s.canCh 63).mode ≠ .listenOnly ∧ (s.canCh 63).newMode = none) ∧
    (∃ s : State, s.canHears 63 = true ∧ (s.canCh 63).pn = true ∧ (s.canCh 63).newMode = none) ∧
    (∃ s : State, s.canHears 63 = false) ∧
    (∃ (s : State) (f : CanFrame), s.canHears 63 = true ∧ State.canFormatOn (s.canCh 63).cfg f.format = true ∧
      (f.format = .xl → f.data.length ≤ (s.canCh 63).cfg.xlLimit) ∧ f.format = .xl ∧
      (∀ x ∈ (s.canCh 63).cfg.filters, State.filterHits x f = false)) ∧
    (∃ (s : State) (f : CanFrame) (x : CanFilter), s.canHears 63 = true ∧ State.canFormatOn (s.canCh 63).cfg f.format = true ∧
      f.format ≠ .xl ∧ (s.canCh 63).cfg.filters.find? (fun x => State.filterHits x f) = some x ∧ bit (le x 0 1) 1 = true) ∧
    (∃ (s : State) (f : CanFrame) (x : CanFilter), s.canHears 63 = true ∧ State.canFormatOn (s.canCh 63).cfg f.format = true ∧
      f.format ≠ .xl ∧ (s.canCh 63).cfg.filters.find? (fun x => State.filterHits x f) = some x ∧ bit (le x 0 1) 1 = false ∧
      (s.canCh 63).pn = false) ∧
    (∃ (s : State) (f : CanFrame), s.canHears 63 = true ∧ State.canFormatOn (s.canCh 63).cfg f.format = false ∧
      (s.canCh 63).cfg.pexEn = true) ∧
    (∃ (s : State) (x : TxItem), s.canOffer 63 = some (.buffer 23, x) ∧ aget (s.canCh 63).held 23 = none ∧ (s.canCh 63).tec ≤ 255 ∧
      (s.canCh 63).rec_ ≤ 128 ∧ x.single = false) ∧
    (∃ s : State, s.canOffer 63 = none) ∧
    (∃ s : State, s.busUp 63 = true ∧ (s.canCh 63).state = .busOff ∧ (s.canCh 63).cfg.autoRecover = true ∧
      (s.canCh 63).latched = false ∧ (s.canCh 63).recovering = false) ∧
    (∃ s : State, s.busUp 63 = true ∧ (s.canCh 63).state = .busOff ∧ (s.canCh 63).recovering = true) ∧
    (∃ s : State, (s.canCh 63).pex = true) :=
  ⟨⟨bus { state := .errorActive, tec := 247 }, by decide +kernel⟩, ⟨bus { state := .errorPassive, pn := true }, by decide +kernel⟩, ⟨bus { state := .busOff }, by decide +kernel⟩,
    ⟨bus { state := .errorActive, cfg := { xlEn := true, xlLimit := 2048 } }, canFrame .xl 2048, by decide +kernel⟩,
    ⟨bus { state := .errorActive, cfg := { filters := [anyFilter 3] } }, canFrame .classicData 8, anyFilter 3, by decide +kernel⟩,
    ⟨bus { state := .errorActive, cfg := { fdEn := true, filters := [anyFilter 1] } }, canFrame .fd 64, anyFilter 1, by decide +kernel⟩,
    ⟨bus { state := .errorActive, cfg := { pexEn := true } }, canFrame .xl 1, by decide +kernel⟩,
    ⟨bus { state := .errorActive, bufs := [(23, txItem)] }, txItem, by decide +kernel⟩, ⟨bus { state := .errorActive }, by decide +kernel⟩,
    ⟨bus { state := .busOff, cfg := { autoRecover := true } }, by decide +kernel⟩, ⟨bus { state := .busOff, recovering := true }, by decide +kernel⟩,
    ⟨bus { pex := true }, by decide +kernel⟩⟩

def canBody (flags nbt : Nat) : List (Nat × Nat) :=
  [(1, 63), (1, flags), (2, 0), (4, nbt), (16, 0), (2, 10000), (1, 0), (1, 64), (2, 1000), (2, 1000), (8, 0)]

def linBody : List (Nat × Nat) := [(1, 31), (1, 1), (2, 20000), (3, 0), (1, 1), (2, 0), (1, 0xFF), (1, 0), (2, 10000), (2, 5000), (8, 8)]

def linTable : List Byte := leBytes 1 63 ++ leBytes 1 0 ++ leBytes 1 1 ++ leBytes 1 8 ++ leBytes 1 0 ++ leBytes 1 0xFF ++ leBytes 10 0

def t1sBody (count : Nat) : List (Nat × Nat) := [(1, 15), (1, 3), (1, 15), (1, count), (1, 1), (11, 0)]

def modeBody : List (Nat × Nat) := [(1, 3), (7, 0), (8, 2 ^ 63), (4, 0), (4, 0)]

theorem witness_EdgeConfiguration :
    (∃ (s : State) (c : Cmd), s.Ready 0 0 0x0500 c ∧ s.datapathUp = true ∧ s.quenched Dom.edge = false ∧ c.u 0 1 = 63 ∧
      s.quenched (busUnit 63) = false ∧ (State.canCfgOf c []).recoverMs ≤ 10000 ∧ c.u 27 1 ≤ 64 ∧ (State.canCfgOf c []).rxDelay ≤ 1000 ∧
      (State.canCfgOf c []).settle ≤ 1000 ∧ c.u 32 8 % 8 = 0 ∧ State.canPwm (State.canCfgOf c []) = true ∧
      State.canTiming (State.canCfgOf c []) = false) ∧
    (∃ (s : State) (c : Cmd), s.Ready 0 0 0x0500 c ∧ State.canPwm (State.canCfgOf c []) = true ∧
      State.canTiming (State.canCfgOf c []) = true ∧ State.canFormats (State.canCfgOf c []) = false) ∧
    (∃ (s : State) (c : Cmd), s.Ready 0 0 0x0500 c ∧ s.datapathUp = true ∧ s.quenched Dom.edge = false ∧
      State.canPwm (State.canCfgOf c []) = true ∧ State.canTiming (State.canCfgOf c []) = true ∧
      State.canFormats (State.canCfgOf c []) = true ∧ s.namesChannel 63 = false) ∧
    (∃ (s : State) (c : Cmd) (x : LinCfg), s.Ready 0 0 0x0501 c ∧ s.datapathUp = true ∧ s.quenched Dom.edge = false ∧ c.u 0 1 = 31 ∧
      s.quenched (busUnit 95) = false ∧ bit (c.u 1 1) 2 = false ∧ c.u 16 8 % 8 = 0 ∧ x = State.linCfgOf c linTable ∧
      State.linRanges x (c.u 7 1) (c.u 8 1) = true ∧ s.namesChannel 95 = false ∧ State.linTablesOk x = true ∧ x.tables = []) ∧
    (∃ (s : State) (c : Cmd), s.Ready 0 0 0x0502 c ∧ s.datapathUp = true ∧ s.quenched Dom.edge = false ∧ c.u 0 1 = 15 ∧
      s.quenched (portUnit 63) = false ∧ s.namesPort 63 = false ∧ c.u 2 1 < c.u 3 1 ∧ c.u 3 1 ≤ 16) ∧
    (∃ (s : State) (x : CanCfg), (s.canCh 63).newCfg = some x ∧ s.quenched (busUnit 63) = false) ∧
    (∃ (s : State) (x : LinCfg), (s.linCh 31).newCfg = some x ∧ s.quenched (busUnit 95) = false) ∧
    (∃ (s : State) (x : T1sCfg), (s.t1sCh 15).newCfg = some x) ∧
    (∃ (s : State) (c : Cmd), s.Ready 0 0 0x0503 c ∧ s.datapathUp = true ∧ s.quenched Dom.edge = false ∧ c.u 0 1 ≤ 3 ∧
      State.xcvrNamed c ≠ [] ∧ (∀ ch ∈ State.xcvrNamed c, s.quenched (busUnit ch) = false ∧ s.chEnabled ch = true) ∧
      bit (c.u 1 1) 0 = false) ∧
    (∃ (s : State) (c : Cmd), s.Ready 0 0 0x0504 c ∧ s.datapathUp = true ∧ c.u 0 1 = 63 ∧ s.quenched (busUnit 63) = false ∧
      (s.canCh 63).state ≠ .busOff) ∧
    (∃ (s : State) (c : Cmd), s.Ready 0 0 0x0504 c ∧ s.datapathUp = true ∧ c.u 0 1 = 63 ∧ (s.canCh 63).state = .busOff) ∧
    (∃ s : State, (s.canCh 63).newMode = some (.sleep, false) ∧ s.quenched (busUnit 63) = false ∧ (s.canCh 63).settleAt = some 5000001000) :=
  ⟨⟨with_ up 0x0500 (canBody 1 0x10103E01), cmdOf 0x0500 (canBody 1 0x10103E01), ⟨ready _ _ _ _ _ (by decide +kernel), by decide +kernel⟩⟩,
    ⟨with_ up 0x0500 (canBody 5 0x10103F01), cmdOf 0x0500 (canBody 5 0x10103F01), ⟨ready _ _ _ _ _ (by decide +kernel), by decide +kernel⟩⟩,
    ⟨with_ up 0x0500 (canBody 1 0x10103F01), cmdOf 0x0500 (canBody 1 0x10103F01), ⟨ready _ _ _ _ _ (by decide +kernel), by decide +kernel⟩⟩,
    ⟨with_ up 0x0501 linBody, cmdOf 0x0501 linBody, State.linCfgOf (cmdOf 0x0501 linBody) linTable, ⟨ready _ _ _ _ _ (by decide +kernel), by decide +kernel⟩⟩,
    ⟨with_ up 0x0502 (t1sBody 16), cmdOf 0x0502 (t1sBody 16), ⟨ready _ _ _ _ _ (by decide +kernel), by decide +kernel⟩⟩, ⟨bus { newCfg := some {} }, {}, by decide +kernel⟩,
    ⟨up.setEdg { lin := [(31, { newCfg := some {} })] }, {}, by decide +kernel⟩, ⟨up.setEdg { t1s := [(15, { newCfg := some {} })] }, {}, by decide +kernel⟩,
    ⟨{ with_ up 0x0503 modeBody with edg := { can := [(63, { cfg := { enable := true } })] } }, cmdOf 0x0503 modeBody, ⟨ready _ _ _ _ _ (by decide +kernel), by decide +kernel⟩⟩,
    ⟨with_ up 0x0504 [(1, 63), (7, 0)], cmdOf 0x0504 [(1, 63), (7, 0)], ⟨ready _ _ _ _ _ (by decide +kernel), by decide +kernel⟩⟩,
    ⟨{ with_ up 0x0504 [(1, 63), (7, 1)] with edg := { can := [(63, { state := .busOff })] } }, cmdOf 0x0504 [(1, 63), (7, 1)], ⟨ready _ _ _ _ _ (by decide +kernel), by decide +kernel⟩⟩,
    ⟨bus { newMode := some (.sleep, false), settleAt := some 5000001000 }, by decide +kernel⟩⟩

def linEntry (dir : Nat) : LinEntry := { id := 63, type := 0, dir := dir, length := 8, flags := 0, coll := 0xFF }

def lin (c : LinCh) : State := (up.rset Reg.edgCtrl 1).setEdg { lin := [(31, c)], t1s := [(15, { cfg := { enable := true, plcaEn := true } })] }

def commander : LinCh := { operational := true, cfg := { commander := true, entries := [linEntry 1], tables := [[(0, 100)]] } }

def responder : LinCh := { operational := true, cfg := { rate := 10000, entries := [linEntry 1] }, current := some 0 }

def slotted (off : Nat) : Image := { image 7 0 with slots := [⟨63, 0, 23, off, 1000⟩] }

def openSlot (kind : Nat) (frame : Option TxItem) (begun done : Bool) : State :=
  up.setCal { openSlots := [⟨0, 7, 63, kind, 23, 5000001000, frame, begun, done⟩] }

theorem witness_LinAndSegments :
    (∃ s : State, s.busUp 95 = true ∧ (s.linCh 31).operational = true ∧ (s.linCh 31).cfg.commander = true ∧ (s.linCh 31).mode = .normal ∧
      s.busQuiet = false ∧ s.inSlots 95 = false ∧ State.linSlot (s.linCh 31).cfg (s.linCh 31).next = some (0, 100) ∧
      State.linChoice (s.linCh 31).cfg 0 = some 0) ∧
    (∃ (s : State) (rate : Nat), s.busUp 95 = true ∧ (s.linCh 31).operational = true ∧ (s.linCh 31).cfg.commander = false ∧
      100 * rate < (s.linCh 31).cfg.rate * 86) ∧
    (∃ (s : State) (rate : Nat), s.busUp 95 = true ∧ (s.linCh 31).cfg.commander = false ∧ 114 * (s.linCh 31).cfg.rate < 100 * rate) ∧
    (∃ (s : State) (rate : Nat) (e : LinEntry), s.busUp 95 = true ∧ (s.linCh 31).operational = true ∧
      (s.linCh 31).cfg.commander = false ∧ (s.linCh 31).cfg.rate * 86 ≤ 100 * rate ∧ 100 * rate ≤ 114 * (s.linCh 31).cfg.rate ∧
      (s.linCh 31).cfg.entries.findIdx? (fun e => e.id == 63) = some 0 ∧ (s.linCh 31).cfg.entries[0]? = some e ∧ e.dir = 1 ∧ e.type = 0 ∧
      s.busQuiet = false ∧ (s.linCh 31).mode = .normal) ∧
    (∃ s : State, (s.linCh 31).current = none) ∧
    (∃ (s : State) (e : LinEntry), (s.linCh 31).current = some 0 ∧ (s.linCh 31).cfg.entries[0]? = some e ∧ s.busUp 95 = true ∧
      (s.linCh 31).operational = true ∧ e.dir = 1 ∧ (s.linCh 31).cfg.respErrEntry ≠ 0 ∧ (s.linCh 31).cfg.commander = false ∧
      (s.linCh 31).idle = false) ∧
    (∃ (s : State) (i : Image) (e : EdgeSlot), s.runningImage = some i ∧ i.slots[0]? = some e ∧ e.ch < 64 ∧ e.kind = 0 ∧
      ((s.calReach i e.off).map (·.2)) = some 0) ∧
    (∃ (s : State) (o : OpenSlot), s.cal.openSlots.find? (fun o => o.slot == 0) = some o ∧ o.done = true) ∧
    (∃ (s : State) (o : OpenSlot) (x : TxItem), s.cal.openSlots.find? (fun o => o.slot == 0) = some o ∧ o.done = false ∧ o.begun = false ∧
      o.kind = 1 ∧ o.frame = some x ∧ s.strikerNow = false) ∧
    (∃ (s : State) (o : OpenSlot), s.cal.openSlots.find? (fun o => o.slot == 0) = some o ∧ o.done = false ∧ o.begun = true ∧ o.kind = 1) ∧
    (∃ s : State, s.t1sRuns 15 = true ∧ (s.t1sCh 15).cfg.plcaEn = true ∧ (s.t1sCh 15).plcaOk ≠ true ∧ (s.t1sCh 15).cfg.nodeId = 0) :=
  ⟨⟨lin commander, by decide +kernel⟩, ⟨lin responder, 8599, by decide +kernel⟩, ⟨lin responder, 11401, by decide +kernel⟩, ⟨lin responder, 11400, linEntry 1, by decide +kernel⟩, ⟨lin commander, by decide +kernel⟩,
    ⟨lin responder, linEntry 1, by decide +kernel⟩, ⟨running (slotted 999999), slotted 999999, ⟨63, 0, 23, 999999, 1000⟩, by decide +kernel⟩,
    ⟨openSlot 0 none false true, ⟨0, 7, 63, 0, 23, 5000001000, none, false, true⟩, by decide +kernel⟩,
    ⟨openSlot 1 (some txItem) false false, ⟨0, 7, 63, 1, 23, 5000001000, some txItem, false, false⟩, txItem, by decide +kernel⟩,
    ⟨openSlot 1 none true false, ⟨0, 7, 63, 1, 23, 5000001000, none, true, false⟩, by decide +kernel⟩, ⟨lin commander, by decide +kernel⟩⟩

/-! ### Witnesses: tunnels and the signal router -/

def rxItem (n : Nat) : RxItem := ⟨0, canFrame .classicData 8, 4999990000, 4999999000, [0, 0, 0, 0], [n], 0⟩

def busEntry : BusMapEntry := ⟨31, 63, 0xFF, 1⟩

def encap (m : List BusMapEntry) : TunCh := { flags := 1, maxBytes := 64, maxMsgs := 1, busMap := m }

def tunnels (n : Nat) (t : TunCh) : State :=
  { up.rset Reg.tunCtrl 3 with tun := { ch := [(n, t)] }, edg := { can := [(63, { rx := [rxItem n] })] } }

def xFrame : XFrame := ⟨List.replicate 64 0, 5, 4999999000, .none, none⟩

def etherFrame (type : List Byte) (stream : Nat) : List Byte := List.replicate 12 0 ++ type ++ List.replicate 4 0 ++ leBytes 8 stream ++ List.replicate 40 0

def fromX (f : List Byte) : State :=
  { up.rset Reg.tunCtrl 3 with tun := { in0 := [f], ch := [(511, { flags := 3, stream := be (f.drop (parse f).l3) 4 8, busMap := [busEntry] })] } }

def tunnelBody (flags edge : Nat) : List (Nat × Nat) :=
  [(2, 511), (1, flags), (1, 3), (2, 4032), (1, 64), (1, 0), (8, 9), (8, 0), (2, 0xFFFF), (2, 1023), (4, 0), (2, 10000), (6, 0),
   (1, 31), (1, edge), (1, 0xFF), (1, 1), (28, 0)]

def windowed (opens closes : Nat) : Image := { image 7 0 with windows := [⟨511, opens, closes⟩] }

theorem witness_TunnelEngine :
    (∃ (s : State) (n : Nat) (x : RxItem) (b : BusMapEntry), s.datapathUp = true ∧ s.tunRuns n = true ∧ s.batchFlow n = s ∧
      s.encTakes n = true ∧ bit (s.tunCh n).flags 3 = false ∧ s.xRoom (State.onX1 n) ((s.tunCh n).maxBytes + 46) = true ∧
      64 ≤ (s.tunCh n).profile ∧ State.rxFirst (s.rxFor n) = some (63, x) ∧
      (s.tunCh n).busMap.find? (fun b => bit b.flags 0 && b.edge == 63) = some b) ∧
    (∃ (s : State) (n : Nat) (x : RxItem), s.tunRuns n = true ∧ s.batchFlow n = s ∧ s.encTakes n = true ∧
      State.rxFirst (s.rxFor n) = some (63, x) ∧ (s.tunCh n).busMap.find? (fun b => bit b.flags 0 && b.edge == 63) = none) ∧
    (∃ s : State, s.datapathUp = true ∧ s.tunRuns 511 = true ∧ s.hasWindow 511 = false ∧ s.batchFlow 511 = s ∧
      (s.tunCh 511).batch ≠ []) ∧
    (∃ (s : State) (i : Image) (e : TunWindow), s.datapathUp = true ∧ s.runningImage = some i ∧ i.windows[0]? = some e ∧
      (s.calReach i e.opens).map (·.2) = some 0 ∧ 0 < e.closes - e.opens ∧
      ((s.calReach i e.opens).map fun x => x.1.tunRuns e.ch) = some false) ∧
    (∃ (s : State) (i : Image) (e : TunWindow), s.datapathUp = true ∧ s.runningImage = some i ∧ i.windows[0]? = some e ∧
      (s.calReach i e.closes).isSome = true ∧ e.ch ∈ s.cal.openWindows) ∧
    (∃ (s : State) (f : XFrame), s.datapathUp = true ∧ s.quenched Dom.services = false ∧ s.quenched (State.pipeDom 0) = false ∧
      s.tun.x0 = f :: [] ∧ s.tun.ch = [] ∧ s.standbyDiscards f = true) ∧
    (∃ (s : State) (f : XFrame), s.datapathUp = true ∧ s.quenched Dom.services = false ∧ s.tun.x0 = f :: [] ∧ s.tun.ch = [] ∧
      s.standbyDiscards f = false) ∧
    (∃ (s : State) (f : List Byte), s.quenched Dom.services = false ∧ s.tun.in0 = f :: [] ∧ (parse f).etherType ≠ 0x22F0) ∧
    (∃ (s : State) (f : List Byte) (t : TunCh), s.quenched Dom.services = false ∧ s.tun.in0 = f :: [] ∧ (parse f).etherType = 0x22F0 ∧
      12 ≤ (f.drop (parse f).l3).length ∧
      (s.tun.ch.find? fun (y : Nat × TunCh) => bit y.2.flags 0 && bit y.2.flags 1 && y.2.stream == be (f.drop (parse f).l3) 4 8) =
        some (511, t) ∧ s.quenched (tunUnit 511) = false ∧ s.rfld Reg.tunCtrl 1 1 = 1 ∧ 64 ≤ t.profile) ∧
    (∃ s : State, s.tunRuns 511 = true ∧ (s.tunCh 511).pres = ([], 5000001000) :: []) ∧
    (∃ (s : State) (c : Cmd), s.Ready 0 0 0x0600 c ∧ s.datapathUp = true ∧ c.u 0 2 = 511 ∧ s.quenched (tunUnit 511) = false ∧
      (State.tunBody c).domain < 4 ∧ 64 ≤ (State.tunBody c).maxBytes ∧ (State.tunBody c).maxBytes ≤ 4032 ∧ 1 ≤ (State.tunBody c).maxMsgs ∧
      (State.tunBody c).maxMsgs ≤ 64 ∧ 1 ≤ (State.tunBody c).batchUs ∧ (State.tunBody c).batchUs ≤ 10000 ∧
      (State.tunBody c).profile = 0xFFFF ∧ (State.tunBody c).keySlot < 1024 ∧ bit (State.tunBody c).flags 2 = false ∧
      s.namesTunnel 511 = false ∧ State.busMapOk (State.tunBody c) = true) ∧
    (∃ (s : State) (c : Cmd), s.Ready 0 0 0x0600 c ∧ s.namesTunnel 511 = false ∧ State.busMapOk (State.tunBody c) = false) ∧
    (∃ (s : State) (c : Cmd), s.Ready 0 0 0x0600 c ∧ bit (State.tunBody c).flags 0 = true ∧ bit (State.tunBody c).flags 1 = true ∧
      (s.tun.ch.any fun (y : Nat × TunCh) => y.1 != 511 && bit y.2.flags 0 && bit y.2.flags 1 && y.2.stream == (State.tunBody c).stream) = true) :=
  ⟨⟨tunnels 511 (encap [busEntry]), 511, rxItem 511, busEntry, by decide +kernel⟩, ⟨tunnels 0 (encap []), 0, rxItem 0, by decide +kernel⟩,
    ⟨tunnels 511 { encap [busEntry] with batch := [⟨[], 0, 0⟩] }, by decide +kernel⟩,
    ⟨(running (windowed 500 501)).setFnc { doms := [(tunUnit 511, { state := .quenched, own := true })] }, windowed 500 501, ⟨511, 500, 501⟩, by decide +kernel⟩,
    ⟨(running (windowed 0 500)).setCal { (running (windowed 0 500)).cal with openWindows := [511] }, windowed 0 500, ⟨511, 0, 500⟩, by decide +kernel⟩,
    ⟨{ up with tun := { x0 := [{ xFrame with origin := 512 }] }, pair := { role := .striker } }, { xFrame with origin := 512 }, by decide +kernel⟩,
    ⟨up.setTun { x0 := [xFrame] }, xFrame, by decide +kernel⟩, ⟨fromX (etherFrame [0x08, 0x00] 9), etherFrame [0x08, 0x00] 9, by decide +kernel⟩,
    ⟨fromX (etherFrame [0x22, 0xF0] 9), etherFrame [0x22, 0xF0] 9,
      { flags := 3, stream := be ((etherFrame [0x22, 0xF0] 9).drop (parse (etherFrame [0x22, 0xF0] 9)).l3) 4 8, busMap := [busEntry] }, by decide +kernel⟩,
    ⟨tunnels 511 { flags := 3, pres := [([], 5000001000)] }, by decide +kernel⟩,
    ⟨with_ up 0x0600 (tunnelBody 1 95), cmdOf 0x0600 (tunnelBody 1 95), ⟨ready _ _ _ _ _ (by decide +kernel), by decide +kernel⟩⟩, ⟨with_ up 0x0600 (tunnelBody 1 96), cmdOf 0x0600 (tunnelBody 1 96), ⟨ready _ _ _ _ _ (by decide +kernel), by decide +kernel⟩⟩,
    ⟨(with_ up 0x0600 (tunnelBody 3 63)).setTun { ch := [(0, { flags := 3, stream := 9 })] }, cmdOf 0x0600 (tunnelBody 3 63), ⟨ready _ _ _ _ _ (by decide +kernel), by decide +kernel⟩⟩⟩

def router (x : Sequencer) : State := (up.rset Reg.sigCtrl 1).setSig { seqs := [(3, x)], jobs := [(5, (0, 2))] }

def arrival (id : Nat) : Arrival := ⟨0, 63, 0, id, List.replicate 8 0, none⟩

def pdu (trigger : Nat) : SrcPdu := ⟨0, 63, 0, 7, 0, 0, 0xFFFF, trigger⟩

def mapping : Mapping := ⟨0, 8, 0, 0, 0, 1, 0, 0, 4999000000, false⟩

def loadBody8 (table first : Nat) : List (Nat × Nat) := [(2, table), (2, first), (2, 1), (2, 0), (8, 8)]

def ctxBody (n crcPos : Nat) : List (Nat × Nat) := [(2, n), (1, 5), (1, 7), (4, 0), (1, 4), (1, 16), (2, 65535), (2, crcPos), (2, 64), (2, 0)]

def withJob : Image := { image 7 0 with jobs := [⟨3, 5, 999999, 1000⟩] }

theorem witness_SignalRouter :
    (∃ (s : State) (i : Image) (e : RouterJob), s.datapathUp = true ∧ s.quenched Dom.services = false ∧ s.runningImage = some i ∧
      i.jobs[0]? = some e ∧ (s.calReach i e.off).map (·.2) = some 0 ∧ e.seq = 3 ∧
      ((s.calReach i e.off).map fun x => x.1.quenched Dom.services) = some false) ∧
    (∃ (s : State) (a : Arrival), s.sigRuns 3 = true ∧ (s.seqOf 3).calJobs = [] ∧ (s.seqOf 3).jobs = [] ∧ (s.seqOf 3).arrivals = [a] ∧
      a.item = none ∧ s.pduOf 3 a = none) ∧
    (∃ (s : State) (a : Arrival) (p : SrcPdu), s.sigRuns 3 = true ∧ (s.seqOf 3).calJobs = [] ∧ (s.seqOf 3).jobs = [] ∧
      (s.seqOf 3).arrivals = [a] ∧ a.item = none ∧ s.pduOf 3 a = some p ∧ p.e2e = 0xFFFF ∧ p.mapCount = 0) ∧
    (∃ s : State, s.sigRuns 3 = true ∧ (s.seqOf 3).calJobs = (5, 4999999999, 4999000000) :: [] ∧
      1 < (agetD s.sig.jobs 5 (0, 0)).2 ∧ 4999999999 < s.clk) ∧
    (∃ s : State, s.sigRuns 3 = true ∧ (s.seqOf 3).calJobs = [] ∧ (s.seqOf 3).jobs = (5, 4999000000) :: []) ∧
    (∃ (s : State) (m : Mapping), aget s.sig.maps 16383 = some m ∧ m.timeout ≠ 0 ∧ m.stale = false ∧ bit m.flags 4 = false ∧
      m.flags / 4 % 4 = 0) ∧
    (∃ (s : State) (c : Cmd), s.Ready 0 0 0x0601 c ∧ s.datapathUp = true ∧ s.quenched Dom.services = false ∧ c.u 0 1 ≤ 3 ∧
      1 ≤ c.u 4 2 ∧ c.u 4 2 ≤ 1024 ∧ c.u 2 2 + c.u 4 2 ≤ State.recCount (c.u 0 1) ∧ c.u 8 8 % 8 = 0 ∧
      State.recRange (c.u 0 1) (leBytes 8 (257 * 65536)) = false) ∧
    (∃ (s : State) (c : Cmd), s.Ready 0 0 0x0601 c ∧ c.u 0 1 = 3 ∧ State.recRange 3 (leBytes 8 65536) = true ∧
      s.recRefs 3 4095 (leBytes 8 65536) = false) ∧
    (∃ (s : State) (c : Cmd), s.Ready 0 0 0x0601 c ∧ c.u 0 1 = 3 ∧ State.recRange 3 (leBytes 8 0) = true ∧
      s.recRefs 3 5 (leBytes 8 0) = true ∧ (s.liveImages.any fun i => i.jobs.any (·.job == 5)) = true) ∧
    (∃ (s : State) (c : Cmd), s.Ready 0 0 0x0602 c ∧ c.u 0 2 < 1024 ∧ s.quenched (e2eUnit (c.u 0 2)) = false ∧ c.u 3 1 ≤ 7 ∧ c.u 8 1 ≤ 4 ∧
      c.u 9 1 = 16 ∧ 1 ≤ c.u 10 2 ∧ c.u 10 2 < 2 ^ c.u 9 1) :=
  ⟨⟨running withJob, withJob, ⟨3, 5, 999999, 1000⟩, by decide +kernel⟩, ⟨router { arrivals := [arrival 8] }, arrival 8, by decide +kernel⟩,
    ⟨(router { arrivals := [arrival 7] }).setSig { seqs := [(3, { arrivals := [arrival 7] })], pdus := [(3072, pdu 0xFFFF)] }, arrival 7, pdu 0xFFFF, by decide +kernel⟩,
    ⟨router { calJobs := [(5, 4999999999, 4999000000)] }, by decide +kernel⟩, ⟨router { jobs := [(5, 4999000000)] }, by decide +kernel⟩,
    ⟨up.setSig { maps := [(16383, mapping)] }, mapping, by decide +kernel⟩,
    ⟨with_ up 0x0601 (loadBody8 3 4095), cmdOf 0x0601 (loadBody8 3 4095), ⟨ready _ _ _ _ _ (by decide +kernel), by decide +kernel⟩⟩,
    ⟨with_ up 0x0601 (loadBody8 3 4095), cmdOf 0x0601 (loadBody8 3 4095), ⟨ready _ _ _ _ _ (by decide +kernel), by decide +kernel⟩⟩,
    ⟨{ with_ up 0x0601 (loadBody8 3 5) with cal := (running withJob).cal }, cmdOf 0x0601 (loadBody8 3 5), ⟨ready _ _ _ _ _ (by decide +kernel), by decide +kernel⟩⟩,
    ⟨with_ up 0x0602 (ctxBody 1023 0), cmdOf 0x0602 (ctxBody 1023 0), ⟨ready _ _ _ _ _ (by decide +kernel), by decide +kernel⟩⟩⟩

/-! ### Witnesses: security and keys -/

/-- The key store with one loaded key of 32 bytes. -/
def keyed (n usage dest : Nat) (key : List Byte) : Key :=
  { slots := [(n, { state := .loaded, key := key, bits := 8 * key.length, usage := usage, dest := dest, level := 1 })],
    root := some (List.replicate 32 7), inForce := .field, burned := .field }

def key32 : List Byte := List.replicate 32 0x11

/-- Port 63 with those MACsec settings, a loaded MACsec key in slot 1023 and a command of `SEC_MACSEC_SA`. -/
def macsec (m : MsPort) (f : List (Nat × Nat)) : State :=
  ((with_ up 0x0701 f).setSec { ms := [(63, m)] }).setKey (keyed 1023 3 1 key32)

def saBody (action dir an slot pn : Nat) : List (Nat × Nat) :=
  [(1, 63), (1, action), (1, dir), (1, an), (2, 7), (2, 0x3F), (8, 0), (2, slot), (1, 50), (1, 0), (4, 0), (8, pn), (16, 0)]

def txSa (an : Nat) (a : Sa) : MsPort := { tx := { enable := true, sas := [(an, a)] } }

def ruleBytes (flags : Nat) : List Byte := leBytes 4 flags ++ leBytes 140 0

def ruleBody : List (Nat × Nat) := [(2, 16383), (2, 1), (4, 0), (8, 8)]

theorem witness_MacsecCommands :
    (∃ (s : State) (c : Cmd), s.Ready 0 0 0x0701 c ∧ s.datapathUp = true ∧ c.u 0 1 = 63 ∧ c.u 1 1 = 0 ∧
      s.quenched (macsecUnit 63 false) = false ∧ s.quenched (macsecUnit 63 true) = false) ∧
    (∃ (s : State) (c : Cmd), s.Ready 0 0 0x0701 c ∧ c.u 1 1 = 1 ∧ s.quenched (macsecUnit 63 true) = false ∧ State.scNamed c = true ∧
      c.u 2 1 = 0 ∧ c.u 18 1 = 50 ∧ (State.scOf (s.msPort 63) c).confOff ≠ c.u 18 1) ∧
    (∃ (s : State) (c : Cmd), s.Ready 0 0 0x0701 c ∧ c.u 1 1 = 2 ∧ s.quenched (macsecUnit 63 true) = false ∧
      s.quenched Dom.keyStore = false ∧ State.scNamed c = true ∧ c.u 3 1 = 3 ∧ c.u 16 2 < 1024 ∧ c.u 24 8 = 2 ^ 32 - 1 ∧
      s.keyFor (c.u 16 2) 1 1 = none) ∧
    (∃ (s : State) (c : Cmd), s.Ready 0 0 0x0701 c ∧ c.u 1 1 = 2 ∧ State.scNamed c = true ∧ c.u 24 8 = 1 ∧
      s.keyFor (c.u 16 2) 1 1 = some key32 ∧ State.saActive (s.msPort 63) 3 = true) ∧
    (∃ (s : State) (c : Cmd), s.Ready 0 0 0x0701 c ∧ c.u 1 1 = 2 ∧ State.scNamed c = true ∧ c.u 24 8 = 1 ∧
      s.keyFor (c.u 16 2) 1 1 = some key32 ∧ State.saActive (s.msPort 63) 3 = false ∧ (State.scOf (s.msPort 63) c).enable = false) ∧
    (∃ (s : State) (c : Cmd), s.Ready 0 0 0x0701 c ∧ c.u 1 1 = 2 ∧ State.scNamed c = true ∧ c.u 24 8 = 1 ∧ c.u 2 1 = 1 ∧
      s.quenched (macsecUnit 63 false) = false ∧ s.keyFor (c.u 16 2) 2 1 = some key32 ∧ (State.scOf (s.msPort 63) c).enable = true) ∧
    (∃ (s : State) (c : Cmd), s.Ready 0 0 0x0701 c ∧ c.u 1 1 = 3 ∧ State.scNamed c = true ∧ c.u 3 1 = 3 ∧
      State.saActive (s.msPort 63) 3 = true) ∧
    (∃ (s : State) (c : Cmd), s.Ready 0 0 0x0701 c ∧ c.u 1 1 = 3 ∧ State.scNamed c = true ∧ c.u 3 1 = 0 ∧
      State.saActive (s.msPort 63) 0 = false) ∧
    (∃ (s : State) (c : Cmd), s.Ready 0 0 0x0701 c ∧ c.u 1 1 = 4 ∧ aget (s.msPort 63).tx.sas 3 = none) ∧
    (∃ (s : State) (c : Cmd) (a : Sa), s.Ready 0 0 0x0701 c ∧ c.u 1 1 = 4 ∧ aget (s.msPort 63).tx.sas 3 = some a ∧ a.warned = true ∧
      a.nextPn = 2 ^ 32 - 1) ∧
    (∃ (s : State) (c : Cmd), s.Ready 0 0 0x0700 c ∧ s.quenched Dom.security = false ∧ s.quenched Dom.pipe0 = false ∧
      s.quenched Dom.pipe1 = false ∧ 1 ≤ c.u 2 2 ∧ c.u 0 2 + c.u 2 2 = 16384 ∧ c.u 8 8 % 8 = 0 ∧ s.epochLimit = true) ∧
    (∃ (s : State) (c : Cmd), s.Ready 0 0 0x0700 c ∧ s.epochLimit = false ∧ State.fwRecOk (ruleBytes 0x1000000) = false) ∧
    (∃ (s : State) (c : Cmd), s.Ready 0 0 0x0700 c ∧ s.epochLimit = false ∧ State.fwRecOk (ruleBytes 0) = true) ∧
    (∃ (s : State) (r : RegRow), s.Reached ∧ s.Writable 0 Reg.secFvWrite r) :=
  ⟨⟨macsec {} (saBody 0 0 0 0 0), cmdOf 0x0701 (saBody 0 0 0 0 0), ⟨ready _ _ _ _ _ (by decide +kernel), by decide +kernel⟩⟩,
    ⟨macsec (txSa 3 rxSa) (saBody 1 0 0 0 0), cmdOf 0x0701 (saBody 1 0 0 0 0), ⟨ready _ _ _ _ _ (by decide +kernel), by decide +kernel⟩⟩,
    ⟨macsec (txSa 3 rxSa) (saBody 2 0 3 1022 (2 ^ 32 - 1)), cmdOf 0x0701 (saBody 2 0 3 1022 (2 ^ 32 - 1)), ⟨ready _ _ _ _ _ (by decide +kernel), by decide +kernel⟩⟩,
    ⟨macsec { txSa 3 rxSa with txAn := some 3 } (saBody 2 0 3 1023 1), cmdOf 0x0701 (saBody 2 0 3 1023 1), ⟨ready _ _ _ _ _ (by decide +kernel), by decide +kernel⟩⟩,
    ⟨macsec {} (saBody 2 0 3 1023 1), cmdOf 0x0701 (saBody 2 0 3 1023 1), ⟨ready _ _ _ _ _ (by decide +kernel), by decide +kernel⟩⟩,
    ⟨macsec { rx := [(7, { enable := true })] } (saBody 2 1 3 1023 1), cmdOf 0x0701 (saBody 2 1 3 1023 1), ⟨ready _ _ _ _ _ (by decide +kernel), by decide +kernel⟩⟩,
    ⟨macsec { txSa 3 rxSa with txAn := some 3 } (saBody 3 0 3 0 0), cmdOf 0x0701 (saBody 3 0 3 0 0), ⟨ready _ _ _ _ _ (by decide +kernel), by decide +kernel⟩⟩,
    ⟨macsec { txSa 3 rxSa with txAn := some 3 } (saBody 3 0 0 0 0), cmdOf 0x0701 (saBody 3 0 0 0 0), ⟨ready _ _ _ _ _ (by decide +kernel), by decide +kernel⟩⟩,
    ⟨macsec {} (saBody 4 0 3 0 0), cmdOf 0x0701 (saBody 4 0 3 0 0), ⟨ready _ _ _ _ _ (by decide +kernel), by decide +kernel⟩⟩,
    ⟨macsec (txSa 3 { rxSa with nextPn := 2 ^ 32 - 1, warned := true }) (saBody 4 0 3 0 0), cmdOf 0x0701 (saBody 4 0 3 0 0),
      { rxSa with nextPn := 2 ^ 32 - 1, warned := true }, ⟨ready _ _ _ _ _ (by decide +kernel), by decide +kernel⟩⟩,
    ⟨(with_ up 0x0700 ruleBody).setFr { frames := [bound] }, cmdOf 0x0700 ruleBody, ⟨ready _ _ _ _ _ (by decide +kernel), by decide +kernel⟩⟩,
    ⟨with_ up 0x0700 ruleBody, cmdOf 0x0700 ruleBody, ⟨ready _ _ _ _ _ (by decide +kernel), by decide +kernel⟩⟩, ⟨with_ up 0x0700 ruleBody, cmdOf 0x0700 ruleBody, ⟨ready _ _ _ _ _ (by decide +kernel), by decide +kernel⟩⟩,
    ⟨up, rowOf Reg.secFvWrite, (by (repeat' apply And.intro) <;> first | exact reached _ (by decide +kernel) | exact writable _ _ _ _ (by decide +kernel) | exact ready _ _ _ _ _ (by decide +kernel) | decide +kernel)⟩⟩

/-- A request of a tunnel channel with profile 255, whose slot holds a key of edge authentication or not. -/
def request (fate : Option CipherEnd) : CipherReq := ⟨4, 1023, 2, 255, List.replicate 4 1, fate⟩

def pool (cfg : Word) (slot : Nat) (q : List CipherReq) : State :=
  ((up.rset (Reg.secEaProfCfg 255) cfg).setSec { queue := q, fv := [(9, 4)] }).setKey (keyed slot 8 4 (List.replicate 16 3))

theorem witness_CipherPool :
    (∃ s : State, s.datapathUp = true ∧ s.quenched Dom.security = false ∧ ∀ r ∈ s.sec.queue, r.fate ≠ none) ∧
    (∃ (s : State) (r : CipherReq), s.cpBusy < 128 ∧ s.sec.queue.find? (·.fate.isNone) = some r ∧ s.keyFor r.keySlot 8 4 = none) ∧
    (∃ (s : State) (r : CipherReq) (key : List Byte), s.cpBusy < 128 ∧ s.sec.queue.find? (·.fate.isNone) = some r ∧
      s.keyFor r.keySlot 8 4 = some key ∧ (s.eaProf r.profile).enable = false) ∧
    (∃ (s : State) (r : CipherReq) (key : List Byte) (p : Nat), s.cpBusy < 128 ∧ s.sec.queue.find? (·.fate.isNone) = some r ∧
      s.keyFor r.keySlot 8 4 = some key ∧ (s.eaProf r.profile).enable = true ∧ (s.eaProf r.profile).plain r.msg = some p ∧
      (s.eaProf r.profile).kind = 0) ∧
    (∃ (s : State) (r : CipherReq), s.sec.queue[0]? = some r ∧ r.fate = some (.pass none) ∧
      ∀ x ∈ s.sec.queue.take 0, x.source ≠ r.source) ∧
    (∃ (s : State) (r : CipherReq), s.sec.queue[0]? = some r ∧ r.fate = some (.pass (some (9, 5))) ∧ s.fvLast 9 < 5) ∧
    (∃ (s : State) (r : CipherReq), s.sec.queue[0]? = some r ∧ r.fate = some .mismatch) ∧
    (∃ (s : State) (r : CipherReq), s.sec.queue[0]? = some r ∧ r.fate = some .refused) ∧
    (∃ (s : State) (r : CipherReq), s.sec.queue[1]? = some r ∧ (s.sec.queue.take 1).any (·.source == r.source) = true) ∧
    (∃ (s : State) (r : CipherReq), s.sec.queue[0]? = some r ∧ r.fate = none) :=
  ⟨⟨pool 0 1023 [], by decide +kernel⟩, ⟨pool 0x80000030 1022 [request none], request none, by decide +kernel⟩,
    ⟨pool 0 1023 [request none], request none, List.replicate 16 3, by decide +kernel⟩,
    ⟨pool 0x80000030 1023 [request none], request none, List.replicate 16 3, 1, by decide +kernel⟩,
    ⟨pool 0 1023 [request (some (.pass none))], request (some (.pass none)), by decide +kernel⟩,
    ⟨pool 0 1023 [request (some (.pass (some (9, 5))))], request (some (.pass (some (9, 5)))), by decide +kernel⟩,
    ⟨pool 0 1023 [request (some .mismatch)], request (some .mismatch), by decide +kernel⟩,
    ⟨pool 0 1023 [request (some .refused)], request (some .refused), by decide +kernel⟩,
    ⟨pool 0 1023 [request none, request (some .unfit)], request (some .unfit), by decide +kernel⟩, ⟨pool 0 1023 [request none], request none, by decide +kernel⟩⟩

/-! ### Witnesses: keys -/

def deriveBody (slot parent usage flags : Nat) : List (Nat × Nat) :=
  [(2, slot), (2, parent), (1, usage), (1, 4), (2, 256), (1, flags), (1, 32), (6, 0), (32, 0), (16, 0)]

/-- A state with that key store and a command. -/
def storeOf (k : Key) (op : Nat) (f : List (Nat × Nat)) : State := (with_ up op f).setKey k

def bare : Key := { root := some (List.replicate 32 7), inForce := .field, burned := .field }

/-- A key in slot 1007 with a child in slot 0. -/
def family : Key :=
  { keyed 1007 0x20 0x02 key32 with
    slots := [(0, { state := .loaded, key := key32, bits := 256, usage := 8, dest := 4, level := 2, parent := some 1007 }),
      (1007, { state := .loaded, key := key32, bits := 256, usage := 0x20, dest := 2, level := 1 })] }

def unwrapBody : List (Nat × Nat) := [(2, 0), (2, 1007), (1, 0), (1, 0), (2, 32), (32, 2 ^ 255), (24, 0)]

def wrapping : Key := keyed 1007 0x18 0x06 []

def advance (old new : Nat) : List (Nat × Nat) := [(1, old), (1, new), (1, 255 - new), (61, 0)]

def deriveRoot : List (Nat × Nat) := deriveBody 1007 0xFFFF 0x3F 0

theorem witness_KeyDerive :
    (∃ (s : State) (c : Cmd), s.Ready 0 0 0x0702 c ∧ s.quenched Dom.keyStore = false ∧ s.quenched Dom.security = false ∧
      State.isRebuild c = false ∧ c.u 9 1 = 32 ∧ s.key.asserted ≠ 0) ∧
    (∃ (s : State) (c : Cmd), s.Ready 0 0 0x0702 c ∧ State.isRebuild c = false ∧ c.u 0 2 = 1008 ∧ s.key.asserted = 0) ∧
    (∃ (s : State) (c : Cmd), s.Ready 0 0 0x0702 c ∧ c.u 0 2 = 1007 ∧ (s.keySlot 1007).state ≠ .empty ∧ bit (c.u 8 1) 0 = false) ∧
    (∃ (s : State) (c : Cmd), s.Ready 0 0 0x0702 c ∧ bit (c.u 8 1) 0 = true ∧ s.hasChild 1007 = true) ∧
    (∃ (s : State) (c : Cmd), s.Ready 0 0 0x0702 c ∧ (s.keySlot 1007).state = .empty ∧ bit (c.u 8 1) 0 = false ∧ c.u 2 2 = 0xFFFF ∧
      s.rootUsable = false) ∧
    (∃ (s : State) (c : Cmd), s.Ready 0 0 0x0702 c ∧ (s.keySlot 0).state = .empty ∧ bit (c.u 8 1) 0 = false ∧ c.u 2 2 = 1006 ∧
      s.deriveKey (some 1006) = none) ∧
    (∃ (s : State) (c : Cmd) (key : List Byte), s.Ready 0 0 0x0702 c ∧ c.u 0 2 = 1007 ∧ (s.keySlot 1007).state = .empty ∧
      s.deriveKey none = some key ∧ s.levelBelow none ≤ 8 ∧ c.u 6 2 = 256 ∧ c.u 4 1 &&& (s.attrMask none).1 = c.u 4 1 ∧
      c.u 5 1 &&& (s.attrMask none).2 = c.u 5 1 ∧ bit (c.u 5 1) 6 = false) ∧
    (∃ (s : State) (c : Cmd) (key : List Byte), s.Ready 0 0 0x0702 c ∧ c.u 0 2 = 0 ∧ (s.keySlot 0).state = .empty ∧
      s.deriveKey (some 1007) = some key ∧ s.levelBelow (some 1007) ≤ 8) :=
  ⟨⟨storeOf { bare with asserted := 8 } 0x0702 deriveRoot, cmdOf 0x0702 deriveRoot, ⟨ready _ _ _ _ _ (by decide +kernel), by decide +kernel⟩⟩,
    ⟨storeOf bare 0x0702 (deriveBody 1008 0xFFFF 1 0), cmdOf 0x0702 (deriveBody 1008 0xFFFF 1 0), ⟨ready _ _ _ _ _ (by decide +kernel), by decide +kernel⟩⟩,
    ⟨storeOf family 0x0702 deriveRoot, cmdOf 0x0702 deriveRoot, ⟨ready _ _ _ _ _ (by decide +kernel), by decide +kernel⟩⟩,
    ⟨storeOf family 0x0702 (deriveBody 1007 0xFFFF 1 1), cmdOf 0x0702 (deriveBody 1007 0xFFFF 1 1), ⟨ready _ _ _ _ _ (by decide +kernel), by decide +kernel⟩⟩,
    ⟨storeOf {} 0x0702 deriveRoot, cmdOf 0x0702 deriveRoot, ⟨ready _ _ _ _ _ (by decide +kernel), by decide +kernel⟩⟩,
    ⟨storeOf bare 0x0702 (deriveBody 0 1006 1 0), cmdOf 0x0702 (deriveBody 0 1006 1 0), ⟨ready _ _ _ _ _ (by decide +kernel), by decide +kernel⟩⟩,
    ⟨storeOf bare 0x0702 deriveRoot, cmdOf 0x0702 deriveRoot, List.replicate 32 7, ⟨ready _ _ _ _ _ (by decide +kernel), by decide +kernel⟩⟩,
    ⟨storeOf (keyed 1007 0x20 2 key32) 0x0702 (deriveBody 0 1007 0x20 0), cmdOf 0x0702 (deriveBody 0 1007 0x20 0), key32, ⟨ready _ _ _ _ _ (by decide +kernel), by decide +kernel⟩⟩⟩

/-- The clause with a sound blob needs 24 blocks of AES and is evaluated outside the package (NOTES.md). -/
theorem witness_KeyUnwrap :
    ∃ (s : State) (c : Cmd) (wk : List Byte), s.Ready 0 0 0x0703 c ∧ s.quenched Dom.keyStore = false ∧
      s.quenched Dom.security = false ∧ c.u 0 2 = 0 ∧ c.u 2 2 = 1007 ∧ c.u 4 1 ≤ 1 ∧ c.u 6 2 = 32 ∧ s.key.asserted = 0 ∧
      (s.keySlot 0).state = .empty ∧ bit (c.u 5 1) 0 = false ∧ s.keyFor (c.u 2 2) 0x10 2 = some wk ∧ (s.keySlot (c.u 2 2)).level < 8 ∧
      unwrapBlob wk (c.u 4 1) (c.bytes 8 (c.u 6 2)) = none :=
  ⟨storeOf wrapping 0x0703 unwrapBody, cmdOf 0x0703 unwrapBody, [], ⟨ready _ _ _ _ _ (by decide +kernel), by decide +kernel⟩⟩

theorem witness_KeyStore :
    (∃ (s : State) (c : Cmd), s.Ready 0 0 0x0704 c ∧ s.quenched Dom.keyStore = false ∧ bit (c.u 4 1) 0 = false ∧ 1 ≤ c.u 2 2 ∧
      c.u 0 2 + c.u 2 2 = 1008 ∧ s.subtree 8 [1007] = [1007, 0]) ∧
    (∃ (s : State) (c : Cmd), s.Ready 0 0 0x0704 c ∧ bit (c.u 4 1) 0 = true) ∧
    (∃ (s : State) (c : Cmd), s.Ready 0 0 0x0702 c ∧ c.u 8 1 = 2 ∧ (∀ b ∈ c.body.set 8 0, b = 0) ∧ s.key.asserted = 0 ∧
      s.rootUsable = true) ∧
    (∃ s : State, s.forgeUp = true ∧ (s.keySlot 0).state = .loaded ∧ (s.keySlot 1).state ≠ .loaded) ∧
    (∃ s : State, s.pwr.state = .banked) ∧
    (∃ (s : State) (c : Cmd), s.Ready 0 0 0x0705 c ∧ s.quenched Dom.keyStore = false ∧ s.quenched Dom.ember = false ∧
      s.key.asserted ≠ 0) ∧
    (∃ (s : State) (c : Cmd), s.Ready 0 0 0x0705 c ∧ s.key.asserted = 0 ∧ c.u 0 1 ≠ State.lcCode s.key.inForce) ∧
    (∃ (s : State) (c : Cmd), s.Ready 0 0 0x0705 c ∧ s.key.asserted = 0 ∧ State.lcOf (c.u 1 1) = some .service ∧
      State.lcStep s.key.inForce .service = true ∧ c.u 0 1 = State.lcCode s.key.inForce ∧ c.u 2 1 = 255 - c.u 1 1 ∧
      s.key.lcPending = false ∧ 32 ≤ s.key.serviceEntries) ∧
    (∃ (s : State) (c : Cmd), s.Ready 0 0 0x0705 c ∧ s.key.asserted = 0 ∧ State.lcOf (c.u 1 1) = some .service ∧
      State.lcStep s.key.inForce .service = true ∧ c.u 0 1 = State.lcCode s.key.inForce ∧ c.u 2 1 = 255 - c.u 1 1 ∧
      s.key.lcPending = false ∧ s.key.serviceEntries < 32) ∧
    (∃ (rb : Option Nat) (seen : LifeCycle), rb.bind State.lcOf = some seen ∧ seen ≠ .service) :=
  ⟨⟨storeOf family 0x0704 [(2, 1007), (2, 1), (60, 0)], cmdOf 0x0704 [(2, 1007), (2, 1), (60, 0)], ⟨ready _ _ _ _ _ (by decide +kernel), by decide +kernel⟩⟩,
    ⟨storeOf family 0x0704 [(4, 0), (1, 1), (59, 0)], cmdOf 0x0704 [(4, 0), (1, 1), (59, 0)], ⟨ready _ _ _ _ _ (by decide +kernel), by decide +kernel⟩⟩,
    ⟨storeOf bare 0x0702 [(8, 0), (1, 2), (55, 0)], cmdOf 0x0702 [(8, 0), (1, 2), (55, 0)], ⟨ready _ _ _ _ _ (by decide +kernel), by decide +kernel⟩⟩, ⟨storeOf family 0 [], by decide +kernel⟩,
    ⟨{ up with pwr := { state := .banked } }, by decide +kernel⟩,
    ⟨storeOf { bare with asserted := 1 } 0x0705 (advance 2 3), cmdOf 0x0705 (advance 2 3), ⟨ready _ _ _ _ _ (by decide +kernel), by decide +kernel⟩⟩,
    ⟨storeOf bare 0x0705 (advance 1 3), cmdOf 0x0705 (advance 1 3), ⟨ready _ _ _ _ _ (by decide +kernel), by decide +kernel⟩⟩,
    ⟨storeOf { bare with serviceEntries := 32 } 0x0705 (advance 2 3), cmdOf 0x0705 (advance 2 3), ⟨ready _ _ _ _ _ (by decide +kernel), by decide +kernel⟩⟩,
    ⟨storeOf { bare with serviceEntries := 31 } 0x0705 (advance 2 3), cmdOf 0x0705 (advance 2 3), ⟨ready _ _ _ _ _ (by decide +kernel), by decide +kernel⟩⟩, ⟨some 2, .field, by decide +kernel⟩⟩

/-! ### Witnesses: power and network management -/

def powered (p : Pwr) : State := { up with pwr := p }

def rising : Pwr := { state := .kindle, pwrEn := true, pwrGood := false, enAt := 4990000000, kindleAt := 4990000000, released := false }

theorem witness_PowerStates :
    (∃ s : State, s.pwr.state = .kindle ∧ s.pwr.pwrEn = true ∧ s.pwr.pwrGood = false ∧ s.clk ≤ s.pwr.enAt + s.pgNs) ∧
    (∃ s : State, s.pwr.state = .kindle ∧ s.pwr.pwrEn = true ∧ s.pwr.pwrGood = false ∧ s.pwr.enAt + s.pgNs < s.clk) ∧
    (∃ s u : State, u = s.waitUntil (s.pwr.enAt + s.pgNs) ∧ s.pwr.state = .kindle ∧ s.pwr.pwrEn = true ∧ s.pwr.pwrGood = false ∧ s.clk < u.clk) ∧
    (∃ s : State, s.pwr.state = .kindle ∧ s.pwr.pwrGood = true) ∧ (∃ s : State, s.pwr.state = .run ∧ s.pwr.pwrGood = true) ∧
    (∃ s : State, s.pwr.state = .kindle ∧ s.pwr.retryAt = none ∧ s.quenched Dom.ember = false) ∧
    (∃ (s : State) (t : Nat), s.pwr.state = .kindle ∧ s.pwr.retryAt = some t ∧ s.pwr.failures = 3) ∧
    (∃ (s : State) (t : Nat), s.pwr.state = .kindle ∧ s.pwr.retryAt = some t ∧ s.pwr.failures = 2 ∧ s.pwr.vbatLow = true) ∧
    (∃ (s : State) (t : Nat), s.pwr.state = .kindle ∧ s.pwr.retryAt = some t ∧ s.pwr.failures = 2 ∧ s.pwr.vbatLow = false) ∧
    (∃ s : State, s.sleeping = true ∧ s.pwr.minOff = true ∧ s.pwr.vbatLow = false ∧ s.pwr.wakeWaits = true) ∧
    (∃ s : State, s.sleeping = true ∧ s.pwr.minOff = true ∧ s.pwr.vbatLow = false ∧ s.pwr.wakeWaits = false ∧ s.pwr.lateFirst = none) ∧
    (∃ s : State, s.sleeping = true ∧ s.pwr.minOff = true ∧ s.pwr.vbatLow = false ∧ s.pwr.wakeWaits = false ∧
      s.pwr.lateFirst = some (7, 2)) ∧
    (∃ s : State, s.pwr.state = .kindle ∧ s.pwr.pwrGood = true ∧ s.pwr.released = false ∧ s.pwr.warm = false ∧ s.key.burned = .field) ∧
    (∃ s : State, s.pwr.state = .kindle ∧ s.pwr.pwrGood = true ∧ s.pwr.released = false ∧ s.pwr.warm = true ∧ s.boot.otpGoal = none ∧
      s.key.burned = .field ∧ s.key.sealNonce ≠ none) ∧
    (∃ s : State, s.pwr.state = .kindle ∧ s.pwr.released = false ∧ s.pwr.warm = true ∧ s.boot.otpGoal = none ∧
      s.key.burned = .field ∧ s.key.sealNonce = none) ∧
    (∃ s : State, s.pwr.state = .kindle ∧ s.pwr.released = true ∧ s.pwr.fwReady = false ∧ s.pwr.booted = true ∧ s.boot.mode = 2) ∧
    (∃ s : State, s.pwr.state = .kindle ∧ s.pwr.released = true ∧ s.pwr.fwReady = false ∧ s.pwr.booted = true ∧ s.boot.mode ≠ 2) ∧
    (∃ s : State, s.pwr.state = .banked ∧ s.rfld Reg.pwrDecay 0 16 ≠ 0) ∧ (∃ s : State, s.pwr.state = .ember ∧ s.rfld Reg.pwrDecay 16 16 ≠ 0) ∧
    (∃ s : State, s.pwr.state = .off ∧ s.pwr.minOff = false) ∧ (∃ s : State, s.pwr.vbatLow = false) ∧
    (∃ s : State, s.pwr.vbatLow = true ∧ s.pwr.wakeWaits = true ∧ s.pwr.minOff = false) :=
  ⟨⟨powered { rising with enAt := 4999000000 }, by decide +kernel⟩, ⟨powered { rising with enAt := 0 }, by decide +kernel⟩,
    ⟨powered { rising with enAt := 5000000000 }, _, rfl, by decide +kernel⟩, ⟨powered {}, by decide +kernel⟩, ⟨powered { state := .run }, by decide +kernel⟩, ⟨powered {}, by decide +kernel⟩,
    ⟨powered { rising with retryAt := some 5010000000, failures := 3 }, 5010000000, by decide +kernel⟩,
    ⟨powered { rising with retryAt := some 5010000000, failures := 2, vbatLow := true }, 5010000000, by decide +kernel⟩,
    ⟨powered { rising with retryAt := some 5010000000, failures := 2 }, 5010000000, by decide +kernel⟩,
    ⟨powered { state := .banked, minOff := true, wakeWaits := true }, by decide +kernel⟩, ⟨powered { state := .dormant, minOff := true }, by decide +kernel⟩,
    ⟨powered { state := .ember, minOff := true, lateFirst := some (7, 2), lateLatch := 128 }, by decide +kernel⟩,
    ⟨(powered { released := false }).setKey bare, by decide +kernel⟩,
    ⟨(powered { released := false, warm := true }).setKey { bare with sealNonce := some 0 }, by decide +kernel⟩,
    ⟨(powered { released := false, warm := true }).setKey bare, by decide +kernel⟩, ⟨(powered { booted := true }).setBoot { up.boot with mode := 2 }, by decide +kernel⟩,
    ⟨powered { booted := true }, by decide +kernel⟩, ⟨(powered { state := .banked }).rset Reg.pwrDecay 1, by decide +kernel⟩,
    ⟨(powered { state := .ember }).rset Reg.pwrDecay 0xFFFF0000, by decide +kernel⟩, ⟨powered { state := .off }, by decide +kernel⟩, ⟨up, by decide +kernel⟩,
    ⟨powered { state := .banked, vbatLow := true, wakeWaits := true }, by decide +kernel⟩⟩

/-- The front end with pin 7 on both edges, CAN channel 63 by pattern, channel 62 decoding, LIN channel 31 and a timer armed. -/
def armed (st : PwrState) : Pwr :=
  { state := st, pins := leBytes 28 0 ++ leBytes 4 0x7, wup := 2 ^ 63, sw := 2 ^ 62, linWake := 2 ^ 31, timerS := 1, oscOn := true,
    decoding := [62], wakeFilters := [leBytes 1 1 ++ leBytes 1 62 ++ leBytes 2 0 ++ leBytes 4 0x7FF ++ leBytes 4 0x7FF ++ leBytes 12 0] }

def committed (target : PwrState) : State :=
  { powered { armed .run with fwReady := true, target := target } with nm := { state := .committed, commitAt := some 5000000000 } }

theorem witness_WakeAndSleep :
    (∃ s : State, 7 < 8 ∧ bit (le s.pwr.pins (4 * 7) 1) 0 = true ∧ bit (le s.pwr.pins (4 * 7) 1) 1 = true ∧ s.sleeping = true ∧
      s.pwr.wakeWaits = false ∧ s.lateHeld = none ∧ s.pwr.minOff = false ∧ s.pwr.vbatLow = false) ∧
    (∃ s : State, bit (le s.pwr.pins (4 * 7) 1) 2 = true ∧ s.sleeping = true ∧ s.pwr.wakeWaits = false ∧ s.lateHeld = none ∧ s.pwr.minOff = true) ∧
    (∃ s : State, bit s.pwr.wup 63 = true ∧ s.sleeping = true ∧ s.pwr.wakeWaits = false ∧ s.lateHeld = none) ∧
    (∃ (s : State) (f : CanFrame), s.swDecodes 62 = true ∧ f.format ≠ .fd ∧ f.format ≠ .xl ∧
      (s.pwr.wakeFilters.any fun x => State.wakeHits x 62 f) = true ∧ s.sleeping = true ∧ s.pwr.wakeWaits = false ∧ s.lateHeld = none) ∧
    (∃ s : State, bit s.pwr.linWake 31 = true ∧ s.sleeping = true ∧ s.pwr.wakeWaits = false ∧ s.lateHeld = none) ∧
    (∃ s : State, s.swDecodes 62 = true ∧ s.pwr.fecLimit ≤ agetD s.pwr.fec 62 0 + 1 ∧ s.sleeping = true ∧ s.pwr.wakeWaits = false ∧ s.lateHeld = none) ∧
    (∃ s : State, s.pwr.timerS ≠ 0 ∧ s.swState = true ∧ s.sleeping = true ∧ s.pwr.wakeWaits = false ∧ s.lateHeld = none) ∧
    (∃ s : State, bit s.pwr.wup 63 = true ∧ s.lateHeld = some (7, 2)) ∧ (∃ s : State, s.pwr.timerS ≠ 0 ∧ s.swState = true ∧ s.lateHeld = some (7, 2)) ∧
    (∃ s : State, bit s.pwr.wup 63 = true ∧ s.pwr.state = .kindle) ∧
    (∃ s : State, bit s.pwr.wup 63 = true ∧ s.pwr.state = .run ∧ s.nm.state = .committed) ∧
    (∃ s : State, bit (le s.pwr.pins (4 * 0) 1) 0 = false) ∧ (∃ s : State, bit s.pwr.wup 0 = false) ∧ (∃ s : State, bit s.pwr.linWake 0 = false) ∧
    (∃ s : State, s.pwr.timerS = 0) ∧ (∃ s : State, bit s.pwr.sw 62 = true ∧ s.swState = true) ∧ (∃ s : State, s.swDecodes 63 = false) ∧
    (∃ (s : State) (f : CanFrame), s.swDecodes 62 = true ∧ f.format = .fd) ∧
    (∃ s : State, s.swDecodes 62 = true ∧ agetD s.pwr.fec 62 0 + 1 < s.pwr.fecLimit) ∧ (∃ s : State, s.swState = true ∧ s.pwr.oscOn = true) ∧
    (∃ s : State, s.nm.state = .committed ∧ s.nmRuns = true ∧ s.emberDown = false ∧ s.pwr.target = .dormant) ∧
    (∃ s : State, s.nm.state = .committed ∧ s.nmRuns = true ∧ s.emberDown = false ∧ s.pwr.target = .banked ∧ s.quenched Dom.memory = false) ∧
    (∃ s : State, s.nm.state = .committed ∧ s.nmRuns = true ∧ s.emberDown = false ∧ s.pwr.target = .banked ∧ s.quenched Dom.memory = true) ∧
    (∃ s : State, s.mbx.residentWait = true) ∧ (∃ s : State, s.pwr.state = .kindle) ∧ (∃ s : State, s.pwr.state = .run) :=
  ⟨⟨powered (armed .banked), by decide +kernel⟩, ⟨powered { armed .ember with minOff := true }, by decide +kernel⟩, ⟨powered (armed .dormant), by decide +kernel⟩,
    ⟨powered (armed .ember), canFrame .classicData 8, by decide +kernel⟩, ⟨powered (armed .banked), by decide +kernel⟩,
    ⟨powered { armed .banked with fec := [(62, 31)] }, by decide +kernel⟩, ⟨powered (armed .ember), by decide +kernel⟩,
    ⟨powered { armed .banked with minOff := true, lateFirst := some (7, 2), lateLatch := 128 }, by decide +kernel⟩,
    ⟨powered { armed .ember with minOff := true, lateFirst := some (7, 2), lateLatch := 128 }, by decide +kernel⟩, ⟨powered (armed .kindle), by decide +kernel⟩,
    ⟨committed .ember, by decide +kernel⟩, ⟨powered (armed .ember), by decide +kernel⟩, ⟨powered (armed .ember), by decide +kernel⟩, ⟨powered (armed .ember), by decide +kernel⟩, ⟨up, by decide +kernel⟩,
    ⟨powered (armed .ember), by decide +kernel⟩, ⟨powered (armed .ember), by decide +kernel⟩, ⟨powered (armed .ember), canFrame .fd 8, by decide +kernel⟩,
    ⟨powered { armed .ember with fec := [(62, 30)] }, by decide +kernel⟩, ⟨powered (armed .banked), by decide +kernel⟩, ⟨committed .dormant, by decide +kernel⟩, ⟨committed .banked, by decide +kernel⟩,
    ⟨{ committed .banked with fnc := { doms := [(Dom.memory, { state := .quenched, own := true })] } }, by decide +kernel⟩,
    ⟨up.setMbx { residentWait := true }, by decide +kernel⟩, ⟨State.reset, by decide +kernel⟩, ⟨up, by decide +kernel⟩⟩

def netted (n : Nm) : State := { up with nm := n }

def record1 : NodeRec := ⟨67, 5, 4999000000, 0, 300, 0, false, none⟩

def netOf (n : Nm) (op : Nat) (f : List (Nat × Nat)) : State := { with_ up op f with nm := n }

def netBody (id cycle : Nat) : List (Nat × Nat) :=
  [(1, 1), (1, 5), (2, 3), (2, 1000), (2, 1500), (2, 2000), (2, cycle), (2, 30), (2, 0), (4, id), (4, 0), (8, 1), (8, 1), (4, 0), (4, 0), (8, 0), (8, 8)]

def wakeBody (timer : Nat) : List (Nat × Nat) :=
  [(28, 0), (4, 500 * 65536 + 7), (8, 2 ^ 63), (8, 2 ^ 62), (4, 2 ^ 31), (2, 500), (1, 1), (1, 32), (4, timer), (1, 150), (1, 0), (2, 1000), (8, 8)]

theorem witness_NetworkManagement :
    (∃ s : State, s.nmRuns = true ∧ s.nmCluster 67 = true ∧ s.nm.state = .readySleep ∧ s.nm.en = true) ∧
    (∃ s : State, s.nmRuns = true ∧ s.nmCluster 0 = true ∧ s.nm.state = .prepare ∧ s.nm.forced = false) ∧
    (∃ s : State, s.nmRuns = true ∧ s.nmCluster 0 = true ∧ s.nm.state = .committed) ∧
    (∃ s : State, s.nmRuns = true ∧ s.nm.state = .repeat_) ∧
    (∃ s : State, s.nmRuns = true ∧ s.nm.state = .readySleep ∧ s.waitsForSmith = false) ∧
    (∃ s : State, s.nmRuns = true ∧ s.nm.state = .readySleep ∧ s.waitsForSmith = true) ∧
    (∃ s : State, s.nmRuns = true ∧ s.nm.state = .prepare) ∧
    (∃ (s : State) (r : NodeRec), s.nmRuns = true ∧ (s.nm.records.find? fun x => x.cluster == 67 && x.node == 5) = some r ∧
      s.nm.state = .readySleep ∧ r.logged = none ∧ max r.start s.nm.enteredAt + 10 ^ 9 * s.nm.stayS ≤ r.last + 1000000 * s.nm.readyMs) ∧
    (∃ (s : State) (r : NodeRec), s.nmRuns = true ∧ (s.nm.records.find? fun x => x.cluster == 67 && x.node == 5) = some r ∧
      r.logged ≠ none) ∧
    (∃ s : State, s.nmRuns = true ∧ s.busUp (64 + 31) = true ∧ (s.linCh 31).operational = true ∧ (s.linCh 31).current = none) ∧
    (∃ (s : State) (c : Cmd), s.Ready 0 0 0x0900 c ∧ s.nmRuns = true ∧ c.u 0 1 = 4) ∧
    (∃ (s : State) (c : Cmd), s.Ready 0 0 0x0900 c ∧ c.u 0 1 = 3 ∧ s.emberDown = true) ∧
    (∃ (s : State) (c : Cmd), s.Ready 0 0 0x0900 c ∧ c.u 0 1 = 1 ∧ s.emberDown = false ∧ s.wakeArmed 1 = false) ∧
    (∃ (s : State) (c : Cmd), s.Ready 0 0 0x0900 c ∧ c.u 0 1 = 1 ∧ s.emberDown = false ∧ s.wakeArmed 1 = true ∧
      s.rfld Reg.pwrCtrl 0 1 ≠ 1) ∧
    (∃ (s : State) (c : Cmd), s.Ready 0 0 0x0900 c ∧ c.u 0 1 = 3 ∧ s.emberDown = false ∧ s.wakeArmed 3 = true ∧
      s.rfld Reg.pwrCtrl 0 1 = 1 ∧ bit (c.u 1 1) 0 = true ∧ s.pnActive = true ∧ bit (c.u 1 1) 1 = true) ∧
    (∃ (s : State) (c : Cmd), s.Ready 0 0 0x0900 c ∧ c.u 0 1 = 5 ∧ s.nm.state = .committed) ∧
    (∃ (s : State) (c : Cmd), s.Ready 0 0 0x0900 c ∧ c.u 0 1 = 5 ∧ s.nm.state = .prepare ∧ bit s.nm.localMask c.host = true) ∧
    (∃ (s : State) (c : Cmd), s.Ready 0 0 0x0901 c ∧ s.nmRuns = true ∧ c.u 56 8 % 8 = 0 ∧ State.nmConfigOk c s = false) ∧
    (∃ (s : State) (c : Cmd), s.Ready 0 0 0x0901 c ∧ c.u 56 8 % 8 = 0 ∧ State.nmConfigOk c s = true) ∧
    (∃ (s : State) (c : Cmd), s.Ready 0 0 0x0902 c ∧ s.quenched Dom.ember = false ∧ c.u 64 8 % 8 = 0 ∧
      State.wakeConfigOk c (State.wakeFilters (c.u 61 1) []) = false) ∧
    (∃ (s : State) (c : Cmd), s.Ready 0 0 0x0902 c ∧ s.quenched Dom.ember = false ∧ c.u 64 8 % 8 = 0 ∧
      State.wakeConfigOk c (State.wakeFilters (c.u 61 1) []) = true) ∧
    (∃ (s : State) (c : Cmd), s.Ready 0 0 0x0903 c ∧ s.nmRuns = true ∧ c.u 4 1 = 13) :=
  ⟨⟨netted { state := .readySleep, en := true, ethVid := [0, 0, 0, 0x8001] }, by decide +kernel⟩, ⟨netted { state := .prepare, canMask := 1 }, by decide +kernel⟩,
    ⟨netted { state := .committed, canMask := 1 }, by decide +kernel⟩, ⟨netted { state := .repeat_ }, by decide +kernel⟩, ⟨netted { state := .readySleep }, by decide +kernel⟩,
    ⟨(netted { state := .readySleep }).setPair { role := .striker, alive := true }, by decide +kernel⟩, ⟨netted { state := .prepare }, by decide +kernel⟩,
    ⟨netted { state := .readySleep, records := [{ record1 with last := 28500000000 }] }, { record1 with last := 28500000000 }, by decide +kernel⟩,
    ⟨netted { records := [{ record1 with logged := some 1 }] }, { record1 with logged := some 1 }, by decide +kernel⟩, ⟨lin { operational := true }, by decide +kernel⟩,
    ⟨with_ up 0x0900 [(1, 4), (23, 0)], cmdOf 0x0900 [(1, 4), (23, 0)], ⟨ready _ _ _ _ _ (by decide +kernel), by decide +kernel⟩⟩,
    ⟨{ with_ up 0x0900 [(1, 3), (23, 0)] with pwr := { armed .run with fwReady := true, dieLinkFailed := true } }, cmdOf 0x0900 [(1, 3), (23, 0)], ⟨ready _ _ _ _ _ (by decide +kernel), by decide +kernel⟩⟩,
    ⟨with_ up 0x0900 [(1, 1), (23, 0)], cmdOf 0x0900 [(1, 1), (23, 0)], ⟨ready _ _ _ _ _ (by decide +kernel), by decide +kernel⟩⟩,
    ⟨({ with_ up 0x0900 [(1, 1), (23, 0)] with pwr := { armed .run with fwReady := true } } : State).rset Reg.pwrCtrl 0, cmdOf 0x0900 [(1, 1), (23, 0)], ⟨ready _ _ _ _ _ (by decide +kernel), by decide +kernel⟩⟩,
    ⟨({ netOf { state := .normal } 0x0900 [(1, 3), (1, 3), (22, 0)] with pwr := { armed .run with fwReady := true } } : State).rset Reg.pwrCtrl 1,
      cmdOf 0x0900 [(1, 3), (1, 3), (22, 0)], ⟨ready _ _ _ _ _ (by decide +kernel), by decide +kernel⟩⟩,
    ⟨netOf { state := .committed } 0x0900 [(1, 5), (23, 0)], cmdOf 0x0900 [(1, 5), (23, 0)], ⟨ready _ _ _ _ _ (by decide +kernel), by decide +kernel⟩⟩,
    ⟨netOf { state := .prepare, localMask := 1 } 0x0900 [(1, 5), (23, 0)], cmdOf 0x0900 [(1, 5), (23, 0)], ⟨ready _ _ _ _ _ (by decide +kernel), by decide +kernel⟩⟩,
    ⟨with_ up 0x0901 (netBody 5 5001), cmdOf 0x0901 (netBody 5 5001), ⟨ready _ _ _ _ _ (by decide +kernel), by decide +kernel⟩⟩, ⟨with_ up 0x0901 (netBody 5 5000), cmdOf 0x0901 (netBody 5 5000), ⟨ready _ _ _ _ _ (by decide +kernel), by decide +kernel⟩⟩,
    ⟨with_ up 0x0902 (wakeBody 604801), cmdOf 0x0902 (wakeBody 604801), ⟨ready _ _ _ _ _ (by decide +kernel), by decide +kernel⟩⟩,
    ⟨with_ up 0x0902 (wakeBody 604800), cmdOf 0x0902 (wakeBody 604800), ⟨ready _ _ _ _ _ (by decide +kernel), by decide +kernel⟩⟩,
    ⟨with_ up 0x0903 [(4, 0), (1, 13), (19, 0)], cmdOf 0x0903 [(4, 0), (1, 13), (19, 0)], ⟨ready _ _ _ _ _ (by decide +kernel), by decide +kernel⟩⟩⟩

/-! ### Witnesses: pair -/

def paired (p : Pair) : State := { up with pair := p, key := keyed 1007 0x23 0x22 key32 }

def pairedCmd (p : Pair) (op : Nat) (f : List (Nat × Nat)) : State := { with_ up op f with pair := p, key := keyed 1007 0x23 0x22 key32 }

def hello (nonce : Nat) (verified : Bool) : Hello := ⟨5, true, 0, 1, nonce, verified⟩

theorem witness_PairLinkAndMirror :
    (∃ s : State, s.datapathUp = true ∧ s.quenched (portUnit 64) = false ∧ s.pair.role = .single) ∧
    (∃ s : State, s.datapathUp = true ∧ s.quenched (portUnit 64) = false ∧ s.pair.role ≠ .single ∧ s.pair.linkState = 0) ∧
    (∃ s : State, s.datapathUp = true ∧ s.pair.linkState ≠ 0) ∧
    (∃ s : State, s.datapathUp = true ∧ s.pair.role ≠ .single ∧ s.pair.linkState = 1 ∧ s.pair.helloFailed = false) ∧
    (∃ s : State, s.datapathUp = true ∧ s.pair.role ≠ .single ∧ s.pair.linkState = 1 ∧ s.pair.helloFailed = true) ∧
    (∃ (s : State) (h : Hello), s.datapathUp = true ∧ s.pair.role ≠ .single ∧ s.pair.linkState = 1 ∧ s.sessionKey h = none) ∧
    (∃ (s : State) (h : Hello), s.datapathUp = true ∧ s.pair.role ≠ .single ∧ s.pair.linkState = 1 ∧
      (s.sessionKey h).isSome = true ∧ h.verified = false) ∧
    (∃ (s : State) (h : Hello), s.datapathUp = true ∧ s.pair.role ≠ .single ∧ s.pair.linkState = 1 ∧
      (s.sessionKey h).isSome = true ∧ h.verified = true) ∧
    (∃ s : State, s.datapathUp = true ∧ s.pair.role ≠ .single ∧ s.quenched (portUnit 64) = false ∧ s.pair.linkState = 2 ∧
      s.pair.role = .smith) ∧
    (∃ s : State, s.datapathUp = true ∧ s.pair.role ≠ .single ∧ s.pair.linkState = 4 ∧ s.quenched (portUnit 64) = false ∧
      s.quenched Dom.memory = false) ∧
    (∃ (s : State) (b : List Byte), s.datapathUp = true ∧ s.pair.role ≠ .single ∧ s.quenched (portUnit 64) = false ∧ s.pair.linkState = 3 ∧
      s.pair.syncFailed = false ∧ s.pair.joining = false ∧ s.pair.syncActive = none ∧ loadChecks b b.length ≠ none ∧
      (s.handle 3).state ≠ .active ∧ s.quenched Dom.memory = false ∧ (s.handle 3).state = .empty) :=
  ⟨⟨up, by decide +kernel⟩, ⟨paired { role := .striker }, by decide +kernel⟩, ⟨paired { role := .smith, linkState := 4 }, by decide +kernel⟩, ⟨paired { role := .smith, linkState := 1 }, by decide +kernel⟩,
    ⟨paired { role := .smith, linkState := 1, helloFailed := true }, by decide +kernel⟩,
    ⟨paired { role := .smith, linkState := 1, linkKey := 1006 }, hello 1 true, by decide +kernel⟩,
    ⟨paired { role := .smith, linkState := 1, linkKey := 1007 }, hello 1 false, by decide +kernel⟩,
    ⟨paired { role := .smith, linkState := 1, linkKey := 1007 }, hello 1 true, by decide +kernel⟩,
    ⟨paired { role := .smith, linkState := 2 }, by decide +kernel⟩, ⟨paired { role := .striker, linkState := 4 }, by decide +kernel⟩,
    ⟨paired { role := .striker, linkState := 3 }, [], by decide +kernel⟩⟩

theorem witness_SyncedImage : ∃ (s : State) (b : List Byte), s.datapathUp = true ∧ s.pair.role ≠ .single ∧
    s.quenched (portUnit 64) = false ∧ s.pair.linkState = 3 ∧ s.pair.syncFailed = false ∧ s.pair.joining = false ∧
    (s.handle 3).state = .empty ∧ s.quenched Dom.memory = false ∧ loadChecks b b.length = none :=
  ⟨paired { role := .striker, linkState := 3 }, imageBytes, by decide +kernel, by decide +kernel, by decide +kernel, by decide +kernel, by decide +kernel, by decide +kernel, by decide +kernel, by decide +kernel, by
    have h := witness_imageLoads.1
    rwa [List.take_length] at h⟩

/-- One zone's vote lists two devices as smiths; the partner is device 5. -/
def clashing (own partner : Bool) (v : Vote) : State :=
  (paired { role := .smith, strapSmith := own, partnerStrap := partner, clashes := 1, zoneVotes := [(0, (v, 5000000000))] }).rset
    Reg.pairPartnerId 5

theorem clash_keeps (s : State) (f : Nat) (a : s.votes = [⟨0, f, 1, 5, 1, 2⟩]) (b : s.partnerId = 5) (c : s.pair.strapSmith = true)
    (d : s.pair.partnerStrap = false) (e : Config.forgeId.toNat = f) : s.keepsSmith = true := by
  by_cases h : f = 5 <;> simp [State.keepsSmith, State.votesFor, State.listed, a, b, c, d, e, h]

theorem clash_yields (s : State) (a : s.votes = [⟨0, 5, 1, 6, 1, 2⟩]) (b : s.partnerId = 5) (d : s.pair.partnerStrap = true)
    (c : s.pair.strapSmith = false) : s.keepsSmith = false := by
  by_cases h : 5 = Config.forgeId.toNat <;> by_cases k : 6 = Config.forgeId.toNat <;>
    simp [State.keepsSmith, State.votesFor, State.listed, a, b, c, d, h, k] <;> omega

theorem clash_now (s : State) (f : Nat) (a : s.votes = [⟨0, f, 1, 5, 1, 2⟩]) (b : s.partnerId = 5) (c : s.pair.role = .smith) :
    s.clashNow = true := by
  by_cases h : f = 5 <;> simp [State.clashNow, State.listed, a, b, c, h]

theorem votes_one (own partner : Bool) (v : Vote) : ((clashing own partner v).waitUntil 100000).votes = [v] := by
  have e : (clashing own partner v).clk = 5000000000 := rfl
  have c : ((clashing own partner v).waitUntil 100000).clk = 5000000000 := by
    unfold State.waitUntil State.tick
    split
    · exact e
    · split <;> simp [e]
  have z : ((clashing own partner v).waitUntil 100000).pair.zoneVotes = [(0, (v, 5000000000))] := by
    rw [State.waitUntil_pair]; rfl
  unfold State.votes
  rw [c, z]
  simp

theorem witness_Clash :
    (∃ s u v : State, s.pairUp = true ∧ u = s.waitUntil (s.pair.clashAt + 100000) ∧
      v = u.pairMod (fun p => { p with clashAt := u.clk, clashes := if u.clashNow then s.pair.clashes + 1 else 0 }) ∧
      u.clashNow = true ∧ s.pair.clashes = 1 ∧ v.keepsSmith = true) ∧
    (∃ s u v : State, s.pairUp = true ∧ u = s.waitUntil (s.pair.clashAt + 100000) ∧
      v = u.pairMod (fun p => { p with clashAt := u.clk, clashes := if u.clashNow then s.pair.clashes + 1 else 0 }) ∧
      u.clashNow = true ∧ s.pair.clashes = 1 ∧ v.keepsSmith = false) := by
  refine ⟨⟨clashing true false ⟨0, Config.forgeId.toNat, 1, 5, 1, 2⟩, _, _, by decide +kernel, rfl, rfl, ?_, rfl, ?_⟩,
    ⟨clashing false true ⟨0, 5, 1, 6, 1, 2⟩, _, _, by decide +kernel, rfl, rfl, by decide +kernel, rfl, ?_⟩⟩
  · show State.clashNow ((clashing true false ⟨0, Config.forgeId.toNat, 1, 5, 1, 2⟩).waitUntil 100000) = true
    exact clash_now _ _ (votes_one _ _ _) rfl rfl
  · exact clash_keeps _ _ (votes_one _ _ _) rfl rfl rfl rfl
  · exact clash_yields _ (votes_one _ _ _) rfl rfl rfl

def beat (id : Nat) (tongs yields : Bool) (role : Nat) : Heartbeat := ⟨tongs, role, false, yields, id, 0, 0, none, [0, 0, 0, 0]⟩

theorem witness_HeartbeatReceived :
    (∃ (s : State) (h : Heartbeat), s.pairUp = true ∧ h.forgeId = Config.forgeId.toNat) ∧
    (∃ (s : State) (h : Heartbeat), s.pairUp = true ∧ s.partnerId ≠ 0 ∧ s.partnerId ≠ h.forgeId) ∧
    (∃ (s : State) (h : Heartbeat), s.pairUp = true ∧ h.forgeId ≠ Config.forgeId.toNat ∧ s.partnerId = 0 ∧ h.tongs = true ∧ h.yields = false ∧
      s.pair.linkState = 2 ∧ s.quenched (portUnit 64) = false ∧ s.pair.role = .striker ∧ h.role = 1) ∧
    (∃ (s : State) (h : Heartbeat), s.pairUp = true ∧ h.forgeId ≠ Config.forgeId.toNat ∧ s.partnerId = 0 ∧ h.tongs = false ∧ h.yields = true ∧
      h.role = 1 ∧ s.pair.role = .striker) ∧
    (∃ (s : State) (h : Heartbeat), s.pairUp = true ∧ h.forgeId ≠ Config.forgeId.toNat ∧ s.partnerId = 0 ∧ h.tongs = false ∧
      h.yields = false) :=
  ⟨⟨paired { role := .smith }, beat Config.forgeId.toNat false false 1, by decide +kernel, rfl⟩, ⟨clashing true true ⟨0, 5, 1, 0, 0, 1⟩, beat 6 false false 1, by decide +kernel⟩,
    ⟨paired { role := .striker, linkState := 2 }, beat (Config.forgeId.toNat + 1) true false 1, by decide +kernel, Nat.succ_ne_self _, by decide +kernel, rfl, rfl, by decide +kernel, by decide +kernel, by decide +kernel, rfl⟩,
    ⟨paired { role := .striker }, beat (Config.forgeId.toNat + 1) false true 1, by decide +kernel, Nat.succ_ne_self _, by decide +kernel, rfl, rfl, rfl, by decide +kernel⟩,
    ⟨paired { role := .striker }, beat (Config.forgeId.toNat + 1) false false 1, by decide +kernel, Nat.succ_ne_self _, by decide +kernel, rfl, rfl⟩⟩

def pairBody (en slot : Nat) : List (Nat × Nat) :=
  [(1, en), (1, 8), (2, slot), (2, 32767), (2, 0), (4, 2 ^ 31), (4, 0), (8, 0), (4, 0), (4, 0), (8, 255), (1, 1), (23, 0)]

theorem witness_PairRolesAndLoss :
    (∃ s : State, s.pairUp = true ∧ 2 ≤ s.pair.linkState ∧ s.quenched (portUnit 64) = false ∧ s.pair.handover = none) ∧
    (∃ s : State, s.pairUp = true ∧ 2 ≤ s.pair.linkState ∧ s.quenched (portUnit 64) = false ∧ s.pair.handover = some (1 + 1)) ∧
    (∃ s : State, s.pairUp = true ∧ bit (le s.pair.cfg 32 8) 7 = true ∧ s.portDown 7 = false) ∧
    (∃ s : State, s.pairUp = true ∧ s.pair.alive = true ∧ s.pair.role = .striker ∧ s.pair.linkAtBeat = 4 ∧ s.rfld Reg.pairCtrl 0 1 = 1) ∧
    (∃ s : State, s.pairUp = true ∧ s.pair.alive = true ∧ s.pair.role ≠ .striker) ∧
    (∃ (s : State) (v : Vote), s.pairUp = true ∧ v.zone + 1 = le s.pair.cfg 1 1) ∧
    (∃ (s : State) (v : Vote), s.pairUp = true ∧ v.zone = le s.pair.cfg 1 1) ∧
    (∃ s u : State, s.pairUp = true ∧ u = s.waitUntil (s.pair.clashAt + 100000) ∧ u.clashNow = false ∧ s.pair.clashes = 1) ∧
    (∃ (s : State) (c : Cmd), s.Ready 0 0 0x0A00 c ∧ State.pairCfgOk c = true ∧ bit (c.u 0 1) 0 = true ∧ s.pair.role = .single ∧
      (s.liveImages.any fun i => bit i.flags 1 != true) = true) ∧
    (∃ (s : State) (c : Cmd), s.Ready 0 0 0x0A00 c ∧ State.pairCfgOk c = true ∧ (s.liveImages.all fun i => bit i.flags 1 == true) = true ∧
      s.pairKey (c.u 2 2) = none) ∧
    (∃ (s : State) (c : Cmd), s.Ready 0 0 0x0A00 c ∧ State.pairCfgOk c = true ∧ bit (c.u 0 1) 0 = true ∧ s.pair.role = .single ∧
      (s.liveImages.all fun i => bit i.flags 1 == true) = true ∧ s.pairKey (c.u 2 2) = some key32) ∧
    (∃ (s : State) (c : Cmd), s.Ready 0 0 0x0A00 c ∧ State.pairCfgOk c = true ∧ bit (c.u 0 1) 0 = false ∧ s.pair.role ≠ .single ∧
      (s.liveImages.all fun i => bit i.flags 1 == false) = true ∧ s.pairKey (c.u 2 2) = some key32) ∧
    (∃ (s : State) (c : Cmd), s.Ready 0 0 0x0A01 c ∧ s.pair.role = .single) ∧
    (∃ (s : State) (c : Cmd), s.Ready 0 0 0x0A01 c ∧ s.pair.role ≠ .single ∧ c.u 0 1 = 1 ∧ State.roleCode s.pair.role = 1) ∧
    (∃ (s : State) (c : Cmd), s.Ready 0 0 0x0A01 c ∧ s.pair.role ≠ .single ∧ c.u 0 1 = 2 ∧ State.roleCode s.pair.role ≠ 2 ∧
      bit (c.u 1 1) 0 = false ∧ s.pair.linkState = 4) ∧
    (∃ (s : State) (c : Cmd), s.Ready 0 0 0x0A01 c ∧ State.roleCode s.pair.role ≠ c.u 0 1 ∧ bit (c.u 1 1) 0 = true ∧ s.pair.alive = true) ∧
    (∃ (s : State) (c : Cmd), s.Ready 0 0 0x0A01 c ∧ s.pair.role ≠ .single ∧ c.u 0 1 = 2 ∧ State.roleCode s.pair.role ≠ c.u 0 1 ∧
      bit (c.u 1 1) 0 = true ∧ s.pair.alive = false) ∧
    (∃ (s : State) (c : Cmd), s.Ready 0 0 0x0A02 c ∧ s.pair.role = .single) ∧
    (∃ (s : State) (c : Cmd), s.Ready 0 0 0x0A02 c ∧ s.pair.role ≠ .single ∧ c.u 0 1 = 0) :=
  ⟨⟨paired { role := .smith, linkState := 2 }, by decide +kernel⟩, ⟨paired { role := .striker, linkState := 4, handover := some 2 }, by decide +kernel⟩,
    ⟨{ linked with
        buf := { ports := [(7, { linkUp := true })] }
        pair := { role := .smith, cfg := leBytes 32 0 ++ leBytes 8 128 ++ leBytes 24 0 } }, by decide +kernel⟩,
    ⟨(paired { role := .striker, alive := true, linkAtBeat := 4 }).rset Reg.pairCtrl 1, by decide +kernel⟩, ⟨paired { role := .smith, alive := true }, by decide +kernel⟩,
    ⟨paired { role := .smith, cfg := leBytes 2 0x800 ++ leBytes 62 0 }, ⟨7, 5, 1, 0, 0, 1⟩, by decide +kernel⟩,
    ⟨paired { role := .smith, cfg := leBytes 2 0x800 ++ leBytes 62 0 }, ⟨8, 5, 1, 0, 0, 1⟩, by decide +kernel⟩,
    ⟨paired { role := .smith, clashes := 1 }, _, by decide +kernel, rfl, by decide +kernel⟩,
    ⟨{ running (image 7 0) with mbx := { cmds := [cmdOf 0x0A00 (pairBody 1 1007)] } }, cmdOf 0x0A00 (pairBody 1 1007), ⟨ready _ _ _ _ _ (by decide +kernel), by decide +kernel⟩⟩,
    ⟨with_ up 0x0A00 (pairBody 1 1007), cmdOf 0x0A00 (pairBody 1 1007), ⟨ready _ _ _ _ _ (by decide +kernel), by decide +kernel⟩⟩,
    ⟨pairedCmd {} 0x0A00 (pairBody 1 1007), cmdOf 0x0A00 (pairBody 1 1007), ⟨ready _ _ _ _ _ (by decide +kernel), by decide +kernel⟩⟩,
    ⟨pairedCmd { role := .smith } 0x0A00 (pairBody 0 1007), cmdOf 0x0A00 (pairBody 0 1007), ⟨ready _ _ _ _ _ (by decide +kernel), by decide +kernel⟩⟩,
    ⟨with_ up 0x0A01 [(1, 1), (23, 0)], cmdOf 0x0A01 [(1, 1), (23, 0)], ⟨ready _ _ _ _ _ (by decide +kernel), by decide +kernel⟩⟩,
    ⟨pairedCmd { role := .smith } 0x0A01 [(1, 1), (23, 0)], cmdOf 0x0A01 [(1, 1), (23, 0)], ⟨ready _ _ _ _ _ (by decide +kernel), by decide +kernel⟩⟩,
    ⟨pairedCmd { role := .smith, linkState := 4 } 0x0A01 [(1, 2), (23, 0)], cmdOf 0x0A01 [(1, 2), (23, 0)], ⟨ready _ _ _ _ _ (by decide +kernel), by decide +kernel⟩⟩,
    ⟨pairedCmd { role := .smith, alive := true } 0x0A01 [(1, 2), (1, 1), (22, 0)], cmdOf 0x0A01 [(1, 2), (1, 1), (22, 0)], ⟨ready _ _ _ _ _ (by decide +kernel), by decide +kernel⟩⟩,
    ⟨pairedCmd { role := .smith } 0x0A01 [(1, 2), (1, 1), (22, 0)], cmdOf 0x0A01 [(1, 2), (1, 1), (22, 0)], ⟨ready _ _ _ _ _ (by decide +kernel), by decide +kernel⟩⟩,
    ⟨with_ up 0x0A02 [(8, 0)], cmdOf 0x0A02 [(8, 0)], ⟨ready _ _ _ _ _ (by decide +kernel), by decide +kernel⟩⟩,
    ⟨pairedCmd { role := .smith } 0x0A02 [(8, 0)], cmdOf 0x0A02 [(8, 0)], ⟨ready _ _ _ _ _ (by decide +kernel), by decide +kernel⟩⟩⟩

/-! ### Witnesses: containment, service, update -/

def fenced (d : Nat) (x : FDomain) : State := up.setFnc { doms := [(d, x)], reports := [(d, 12)] }

def fencedCmd (d : Nat) (x : FDomain) (op : Nat) (f : List (Nat × Nat)) : State := (with_ up op f).setFnc { doms := [(d, x)] }

def releaseBody (d flags : Nat) : List (Nat × Nat) := [(2, d), (2, 0xFFFF - d), (1, flags), (19, 0)]

def captureBody (frames size : Nat) : List (Nat × Nat) := [(1, 67), (1, 1), (1, 1), (1, 0), (4, frames), (4, size), (4, 0), (8, 4096)]

theorem witness_FaultContainment :
    (∃ d : Nat, domainExists d = false) ∧
    (∃ (s : State) (d : Nat), domainExists d = true ∧ d ≠ 2 ∧ s.forgeUp = true ∧ ((ancestors d).any fun a => (s.fdom a).state.isolated) = true) ∧
    (∃ (s : State) (d : Nat), domainExists d = true ∧ d ≠ 2 ∧ s.forgeUp = true ∧
      ((ancestors d).any fun a => (s.fdom a).state.isolated) = false ∧ s.fenceBusy d = false ∧
      (d = 0 → (s.fdom 0).state.isolated = false) ∧ (∀ x ∈ s.fnc.doms, parentOf x.1 = some d → s.fenceBusy x.1 = false) ∧
      (∀ x ∈ s.fnc.doms, x.2.runner.any (5 + · == d) = false)) ∧
    (∃ (s : State) (d p : Nat), parentOf d = some p ∧ s.fenceBusy p = false ∧ domainExists d = true ∧ d ≠ 2 ∧ s.forgeUp = true ∧
      s.fenceBusy d = true ∧ ((ancestors d).any fun a => (s.fdom a).state.isolated) = false) ∧
    (∃ (s : State) (d p : Nat), parentOf d = some p ∧ s.fenceBusy p = false ∧ (s.fdom d).state = .recovering) ∧
    (∃ (s : State) (d : Nat), (s.fdom d).state = .quenched ∧ (s.fdom d).waits = false ∧ s.forgeUp = true ∧ s.rfld Reg.fncCtrl 0 1 = 0) ∧
    (∃ (s : State) (d : Nat), (s.fdom d).state = .quenched ∧ (s.fdom d).waits = false ∧ s.forgeUp = true ∧
      s.rfld Reg.fncCtrl 0 1 ≠ 0 ∧ s.fenceManual d = false ∧ ((ancestors d).any fun a => (s.fdom a).state.isolated) = false ∧
      (d = 0 → s.pair.role = .single) ∧ (s.runnerFor d).isSome = true) ∧
    (∃ (s : State) (d : Nat), (s.fdom d).state = .recovering) ∧ (∃ (s : State) (d : Nat), (s.fdom d).state ≠ .recovering) ∧
    (∃ s : State, s.forgeUp = true) ∧
    (∃ (s : State) (c : Cmd), s.Ready 0 0 0x0B00 c ∧ c.u 0 2 = 24) ∧
    (∃ (s : State) (c : Cmd), s.Ready 0 0 0x0B01 c ∧ c.u 2 2 ≠ 0xFFFF - c.u 0 2) ∧
    (∃ (s : State) (c : Cmd), s.Ready 0 0 0x0B01 c ∧ c.u 2 2 = 0xFFFF - c.u 0 2 ∧ domainExists (c.u 0 2) = false) ∧
    (∃ (s : State) (c : Cmd), s.Ready 0 0 0x0B01 c ∧ c.u 2 2 = 0xFFFF - c.u 0 2 ∧ domainExists (c.u 0 2) = true ∧
      s.quenched (c.u 0 2) = false) ∧
    (∃ (s : State) (c : Cmd), s.Ready 0 0 0x0B01 c ∧ c.u 2 2 = 0xFFFF - c.u 0 2 ∧ s.quenched (c.u 0 2) = true ∧
      ((ancestors (c.u 0 2)).any s.quenched) = false ∧ (s.fdom (c.u 0 2)).state = .recovering ∧ (s.fdom (c.u 0 2)).byCommand = false) ∧
    (∃ (s : State) (c : Cmd), s.Ready 0 0 0x0B01 c ∧ c.u 2 2 = 0xFFFF - c.u 0 2 ∧ s.quenched (c.u 0 2) = true ∧
      ((ancestors (c.u 0 2)).any s.quenched) = false ∧ (s.fdom (c.u 0 2)).state = .stuck ∧ bit (c.u 4 1) 0 = false) ∧
    (∃ (s : State) (c : Cmd), s.Ready 0 0 0x0B01 c ∧ c.u 2 2 = 0xFFFF - c.u 0 2 ∧ s.quenched (c.u 0 2) = true ∧
      ((ancestors (c.u 0 2)).any s.quenched) = false ∧ (s.fdom (c.u 0 2)).state = .stuck ∧ bit (c.u 4 1) 0 = true) ∧
    (∃ (s : State) (c : Cmd), s.Ready 0 0 0x0B02 c ∧ s.datapathUp = true ∧ c.host ≠ 2 ∧ c.u 0 1 = 67 ∧ c.u 1 1 ≤ 1 ∧ c.u 8 4 = 4096 ∧
      c.u 16 8 % 4096 = 0 ∧ s.fnc.capture ≠ none) ∧
    (∃ (s : State) (c : Cmd), s.Ready 0 0 0x0B02 c ∧ c.host ≠ 2 ∧ c.u 8 4 = 16777216 ∧ c.u 16 8 % 4096 = 0 ∧ s.fnc.capture = none ∧
      c.u 4 4 ≠ 0) :=
  ⟨⟨25, by decide +kernel⟩, ⟨fenced 4 { state := .recovering, own := true }, 24, by decide +kernel⟩, ⟨fenced 24 {}, 24, by decide +kernel⟩,
    ⟨fenced 24 { state := .probation, own := true }, 24, 4, by decide +kernel⟩, ⟨fenced 24 { state := .recovering, own := true }, 24, 4, by decide +kernel⟩,
    ⟨(fenced 24 { state := .quenched, own := true }).rset Reg.fncCtrl 0, 24, by decide +kernel⟩,
    ⟨(fenced 24 { state := .quenched, own := true }).rset Reg.fncCtrl 1, 24, by decide +kernel⟩, ⟨fenced 24 { state := .recovering, own := true }, 24, by decide +kernel⟩,
    ⟨up, 24, by decide +kernel⟩, ⟨up, by decide +kernel⟩, ⟨with_ up 0x0B00 [(2, 24), (22, 0)], cmdOf 0x0B00 [(2, 24), (22, 0)], ⟨ready _ _ _ _ _ (by decide +kernel), by decide +kernel⟩⟩,
    ⟨with_ up 0x0B01 [(2, 24), (22, 0)], cmdOf 0x0B01 [(2, 24), (22, 0)], ⟨ready _ _ _ _ _ (by decide +kernel), by decide +kernel⟩⟩,
    ⟨with_ up 0x0B01 (releaseBody 25 0), cmdOf 0x0B01 (releaseBody 25 0), ⟨ready _ _ _ _ _ (by decide +kernel), by decide +kernel⟩⟩,
    ⟨with_ up 0x0B01 (releaseBody 24 0), cmdOf 0x0B01 (releaseBody 24 0), ⟨ready _ _ _ _ _ (by decide +kernel), by decide +kernel⟩⟩,
    ⟨fencedCmd 24 { state := .recovering, own := true } 0x0B01 (releaseBody 24 0), cmdOf 0x0B01 (releaseBody 24 0), ⟨ready _ _ _ _ _ (by decide +kernel), by decide +kernel⟩⟩,
    ⟨fencedCmd 24 { state := .stuck, own := true } 0x0B01 (releaseBody 24 0), cmdOf 0x0B01 (releaseBody 24 0), ⟨ready _ _ _ _ _ (by decide +kernel), by decide +kernel⟩⟩,
    ⟨fencedCmd 24 { state := .stuck, own := true } 0x0B01 (releaseBody 24 1), cmdOf 0x0B01 (releaseBody 24 1), ⟨ready _ _ _ _ _ (by decide +kernel), by decide +kernel⟩⟩,
    ⟨(with_ up 0x0B02 (captureBody 1 4096)).setFnc { capture := some ⟨0, false, false, 1, 4096, 0, 4096, 0⟩ }, cmdOf 0x0B02 (captureBody 1 4096), ⟨ready _ _ _ _ _ (by decide +kernel), by decide +kernel⟩⟩,
    ⟨with_ up 0x0B02 (captureBody 1 16777216), cmdOf 0x0B02 (captureBody 1 16777216), ⟨ready _ _ _ _ _ (by decide +kernel), by decide +kernel⟩⟩⟩

/-- A service session, open or in its PROOF exchange. -/
def session (o : Bool) : Session := ⟨1, List.replicate 16 1, List.replicate 16 2, o, false, 0, 0, 5000000000, []⟩

def serving (x : Option Session) : State :=
  (({ up with boot := { session := x }, key := keyed 1007 0x2E 0x1A key32 } : State)).rset Reg.bootCtrl (1007 * 65536)

theorem witness_ServiceSession :
    (∃ s : State, s.s0Up = true ∧ s.boot.session.any (·.open_) = true) ∧
    (∃ (s : State) (t : Nat), s.s0Up = true ∧ s.boot.lockoutAt = some t ∧ s.clk < t) ∧
    (∃ s : State, s.s0Up = true ∧ s.boot.session = none ∧ s.boot.lockoutAt = none ∧ s.key.inForce ≠ .retired) ∧
    (∃ s : State, s.s0Up = true ∧ s.boot.session = none ∧ s.boot.lockoutAt = none ∧ s.key.inForce = .retired) ∧
    (∃ (s : State) (x : Session), s.s0Up = true ∧ s.boot.session = some x ∧ x.id = 1 ∧ x.open_ = false ∧ s.boot.mode ≠ 2 ∧
      s.svcKey = none) ∧
    (∃ (s : State) (x : Session), s.s0Up = true ∧ s.boot.session = some x ∧ x.id = 1 ∧ x.open_ = false ∧ s.boot.mode ≠ 2 ∧
      s.quenched Dom.keyStore = false ∧ s.quenched Dom.security = false ∧ s.svcKey = some (1007, key32)) ∧
    (∃ (s : State) (x : Session), s.s0Up = true ∧ s.boot.session = some x ∧ s.svcFrameOk x 4 0 1 1 [] [] = false) ∧
    (∃ (s : State) (x : Session) (b : List Byte), s.s0Up = true ∧ s.boot.session = some x ∧ s.svcFrameOk x 4 0 1 0 b [] = true ∧
      b.length = 32 ∧ 32 ∉ s.mbx.faults ∧ s.mbx.svc.length + (s.mbx.svcAccept - s.mbx.svcPosted) < 32) ∧
    (∃ (s : State) (x : Session) (b : List Byte), s.s0Up = true ∧ s.boot.session = some x ∧ s.svcFrameOk x 6 0 1 0 b [] = true ∧
      b.length = 4) ∧
    (∃ (s : State) (x : Session), s.s0Up = true ∧ s.boot.session = some x ∧ s.svcFrameOk x 7 0 1 0 [] [] = true) :=
  ⟨⟨serving (some (session true)), by decide +kernel⟩, ⟨up.setBoot { lockoutAt := some 5000000001 }, 5000000001, by decide +kernel⟩, ⟨serving none, by decide +kernel⟩,
    ⟨up.setKey { inForce := .retired, burned := .retired }, by decide +kernel⟩,
    ⟨(serving (some (session false))).rset Reg.bootCtrl (1008 * 65536), session false, by decide +kernel⟩, ⟨serving (some (session false)), session false, by decide +kernel⟩,
    ⟨serving (some (session true)), session true, by decide +kernel⟩, ⟨serving (some (session true)), session true, List.replicate 32 0, by decide +kernel⟩,
    ⟨serving (some (session true)), session true, List.replicate 4 0, by decide +kernel⟩, ⟨serving (some (session true)), session true, by decide +kernel⟩⟩

def updating (u : Option Update) (data : List (Nat × List Byte)) (op : Nat) (f : List (Nat × Nat)) : State :=
  (with_ up op f).setBoot { mode := 0, session := some { session true with data := data }, update := u }

def openBody (kind size : Nat) : List (Nat × Nat) := [(1, kind), (3, 0), (4, size), (16, 0)]

def blockBody (i crc : Nat) : List (Nat × Nat) := [(2, i), (2, 0), (4, crc), (16, 0)]

def activateBody (kind flags : Nat) : List (Nat × Nat) := [(1, kind), (1, flags), (22, 0)]

def update (kind size : Nat) (chunks : List (List Byte)) (verified : Bool) : Update := ⟨kind, size, 1, chunks, verified⟩

def trial (flags : Nat) (op : Nat) (f : List (Nat × Nat)) : State :=
  (with_ up op f).setBoot { mode := 1, desc := { up.boot.desc with trial := flags, trialLeft := 2 } }

theorem witness_UpdateAndConfirmation :
    (∃ (s : State) (c : Cmd), s.Ready 0 0 0x0C00 c ∧ s.quenched Dom.memory = false ∧ s.quenched Dom.flash = false ∧ s.boot.update ≠ none) ∧
    (∃ (s : State) (c : Cmd), s.Ready 0 0 0x0C00 c ∧ s.boot.update = none ∧ c.u 0 1 = 4) ∧
    (∃ (s : State) (c : Cmd), s.Ready 0 0 0x0C00 c ∧ s.boot.update = none ∧ c.u 0 1 = 1 ∧ bit s.boot.desc.trial 0 = true) ∧
    (∃ (s : State) (c : Cmd), s.Ready 0 0 0x0C00 c ∧ s.boot.update = none ∧ c.u 0 1 = 3 ∧ State.slotSize (c.u 0 1) + 1 = c.u 4 4) ∧
    (∃ (s : State) (c : Cmd), s.Ready 0 0 0x0C00 c ∧ s.boot.update = none ∧ c.u 0 1 = 1 ∧ bit s.boot.desc.trial 0 = false ∧
      State.slotSize (c.u 0 1) = c.u 4 4) ∧
    (∃ (s : State) (c : Cmd), s.Ready 0 0 0x0C01 c ∧ s.boot.update = none) ∧
    (∃ (s : State) (c : Cmd) (u : Update), s.Ready 0 0 0x0C01 c ∧ s.boot.update = some u ∧ c.u 0 2 ≠ u.chunks.length ∧
      c.u 0 2 + 1 ≠ u.chunks.length) ∧
    (∃ (s : State) (c : Cmd) (u : Update), s.Ready 0 0 0x0C01 c ∧ s.boot.update = some u ∧ c.u 0 2 = u.chunks.length ∧
      c.u 0 2 < State.Update.count u ∧ gather [] (min 0x10000 (u.size - 0x10000 * c.u 0 2)) = none) ∧
    (∃ (s : State) (c : Cmd) (u : Update) (b : List Byte), s.Ready 0 0 0x0C01 c ∧ s.boot.update = some u ∧ c.u 0 2 = u.chunks.length ∧
      c.u 0 2 < State.Update.count u ∧ gather [(0, leBytes 4 0)] (min 0x10000 (u.size - 0x10000 * c.u 0 2)) = some b ∧
      (Crypto.crc32c b).toNat ≠ c.u 4 4) ∧
    (∃ (s : State) (c : Cmd) (u : Update) (b : List Byte), s.Ready 0 0 0x0C01 c ∧ s.boot.update = some u ∧ c.u 0 2 = u.chunks.length ∧
      c.u 0 2 < State.Update.count u ∧ gather [(0, leBytes 4 0)] (min 0x10000 (u.size - 0x10000 * c.u 0 2)) = some b ∧
      (Crypto.crc32c b).toNat = c.u 4 4) ∧
    (∃ (s : State) (c : Cmd) (u : Update), s.Ready 0 0 0x0C02 c ∧ s.boot.update = some u ∧ u.chunks.length ≠ State.Update.count u) ∧
    (∃ (s : State) (c : Cmd), s.Ready 0 0 0x0C02 c ∧ s.boot.update = none) ∧
    (∃ (s : State) (c : Cmd), s.Ready 0 0 0x0C03 c ∧ bit (c.u 1 1) 0 = false ∧ s.boot.update = none) ∧
    (∃ (s : State) (c : Cmd) (u : Update), s.Ready 0 0 0x0C03 c ∧ bit (c.u 1 1) 0 = false ∧ s.boot.update = some u ∧ u.kind = c.u 0 1 ∧
      u.verified = true ∧ u.kind = 1) ∧
    (∃ (s : State) (c : Cmd) (u : Update), s.Ready 0 0 0x0C03 c ∧ bit (c.u 1 1) 0 = false ∧ s.boot.update = some u ∧ u.kind = c.u 0 1 ∧
      u.verified = true ∧ u.kind = 3) ∧
    (∃ (s : State) (c : Cmd), s.Ready 0 0 0x0C03 c ∧ bit (c.u 1 1) 0 = true ∧ c.u 0 1 = 1 ∧ s.boot.mode ≠ 1) ∧
    (∃ (s : State) (c : Cmd), s.Ready 0 0 0x0C03 c ∧ bit (c.u 1 1) 0 = true ∧ c.u 0 1 = 1 ∧ s.boot.mode = 1 ∧
      bit s.boot.desc.trial 0 = true) ∧
    (∃ s : State, s.quenched Dom.memory = false ∧ s.quenched Dom.flash = false ∧ s.pwr.state = .run ∧ s.boot.mode = 1 ∧
      bit s.boot.desc.trial 2 = true ∧ (s.fnc.doms.any fun x => decide (levelOf x.1 ≤ 1) && x.2.state.isolated) = false) ∧
    (∃ s : State, s.boot.mode ≠ 1) :=
  ⟨⟨updating (some (update 1 4 [] false)) [] 0x0C00 (openBody 1 4), cmdOf 0x0C00 (openBody 1 4), ⟨ready _ _ _ _ _ (by decide +kernel), by decide +kernel⟩⟩,
    ⟨updating none [] 0x0C00 (openBody 4 4), cmdOf 0x0C00 (openBody 4 4), ⟨ready _ _ _ _ _ (by decide +kernel), by decide +kernel⟩⟩, ⟨trial 1 0x0C00 (openBody 1 4), cmdOf 0x0C00 (openBody 1 4), ⟨ready _ _ _ _ _ (by decide +kernel), by decide +kernel⟩⟩,
    ⟨updating none [] 0x0C00 (openBody 3 0x100001), cmdOf 0x0C00 (openBody 3 0x100001), ⟨ready _ _ _ _ _ (by decide +kernel), by decide +kernel⟩⟩,
    ⟨updating none [] 0x0C00 (openBody 1 0x1000000), cmdOf 0x0C00 (openBody 1 0x1000000), ⟨ready _ _ _ _ _ (by decide +kernel), by decide +kernel⟩⟩,
    ⟨updating none [] 0x0C01 (blockBody 0 0), cmdOf 0x0C01 (blockBody 0 0), ⟨ready _ _ _ _ _ (by decide +kernel), by decide +kernel⟩⟩,
    ⟨updating (some (update 3 4 [] false)) [] 0x0C01 (blockBody 1 0), cmdOf 0x0C01 (blockBody 1 0), update 3 4 [] false, ⟨ready _ _ _ _ _ (by decide +kernel), by decide +kernel⟩⟩,
    ⟨updating (some (update 3 4 [] false)) [] 0x0C01 (blockBody 0 0), cmdOf 0x0C01 (blockBody 0 0), update 3 4 [] false, ⟨ready _ _ _ _ _ (by decide +kernel), by decide +kernel⟩⟩,
    ⟨updating (some (update 3 4 [] false)) [(0, leBytes 4 0)] 0x0C01 (blockBody 0 0), cmdOf 0x0C01 (blockBody 0 0), update 3 4 [] false,
      leBytes 4 0, ⟨ready _ _ _ _ _ (by decide +kernel), by decide +kernel⟩⟩,
    ⟨updating (some (update 3 4 [] false)) [(0, leBytes 4 0)] 0x0C01 (blockBody 0 0x48674BC7), cmdOf 0x0C01 (blockBody 0 0x48674BC7),
      update 3 4 [] false, leBytes 4 0, ⟨ready _ _ _ _ _ (by decide +kernel), by decide +kernel⟩⟩,
    ⟨updating (some (update 3 4 [] false)) [] 0x0C02 [(1, 3), (23, 0)], cmdOf 0x0C02 [(1, 3), (23, 0)], update 3 4 [] false, ⟨ready _ _ _ _ _ (by decide +kernel), by decide +kernel⟩⟩,
    ⟨updating none [] 0x0C02 [(1, 3), (23, 0)], cmdOf 0x0C02 [(1, 3), (23, 0)], ⟨ready _ _ _ _ _ (by decide +kernel), by decide +kernel⟩⟩,
    ⟨updating none [] 0x0C03 (activateBody 1 0), cmdOf 0x0C03 (activateBody 1 0), ⟨ready _ _ _ _ _ (by decide +kernel), by decide +kernel⟩⟩,
    ⟨updating (some (update 1 4 [leBytes 4 0] true)) [] 0x0C03 (activateBody 1 4), cmdOf 0x0C03 (activateBody 1 4),
      update 1 4 [leBytes 4 0] true, ⟨ready _ _ _ _ _ (by decide +kernel), by decide +kernel⟩⟩,
    ⟨updating (some (update 3 4 [leBytes 4 0] true)) [] 0x0C03 (activateBody 3 0), cmdOf 0x0C03 (activateBody 3 0),
      update 3 4 [leBytes 4 0] true, ⟨ready _ _ _ _ _ (by decide +kernel), by decide +kernel⟩⟩,
    ⟨updating none [] 0x0C03 (activateBody 1 1), cmdOf 0x0C03 (activateBody 1 1), ⟨ready _ _ _ _ _ (by decide +kernel), by decide +kernel⟩⟩,
    ⟨trial 1 0x0C03 (activateBody 1 1), cmdOf 0x0C03 (activateBody 1 1), ⟨ready _ _ _ _ _ (by decide +kernel), by decide +kernel⟩⟩, ⟨trial 7 0 [], by decide +kernel⟩, ⟨up, by decide +kernel⟩⟩

/-- The clauses of `UPD_VERIFY` on a complete image and of `CALENDAR_ADMIT` that passes rest on opaque signatures; this one does not. -/
theorem witness_UpdVerify : ∃ (s : State) (c : Cmd) (u : Update), s.Ready 0 0 0x0C02 c ∧ s.boot.update = some u ∧
    u.chunks.length = State.Update.count u ∧ (s.updCheck u).1 ≠ 0 :=
  ⟨(with_ up 0x0C02 [(1, 3), (23, 0)]).setBoot { update := some (update 3 0 [] false), images := [(7, leBytes 4 0)] },
    cmdOf 0x0C02 [(1, 3), (23, 0)], update 3 0 [] false, ⟨ready _ _ _ _ _ (by decide +kernel), by decide +kernel⟩⟩

/-! ### Ill-formed commands, one for each check of each command, and well-formed ones -/

/-- A frame that every check passes. -/
def good : CanFrame :=
  { format := .classicData, ext := false, id := 2047, brs := false, esi := false, sdt := 255, sec := false, rrs := false, vcid := 255,
    af := 4294967295, data := .replicate 8 0, dlc := 15 }

def illFormed1 : List Instr :=
   [.guardedValueWrite 2 0 0 0, .guardedValueWrite 0 0 2 0, .guardedComplementWrite 2 0 0 0, .guardedComplementWrite 0 0 2 0, .guardWindowExpiry 2,
    .bitAliasWrite 2 0 0 0 0, .bitAliasWrite 0 0 2 0 0, .bitAliasWrite 0 0 0 32 0, .atomicOp .fetchAdd false false 67108864 0 0,
    .atomicOp .fetchAdd false false 0 18446744073709551616 0, .atomicOp .fetchAdd false false 0 0 18446744073709551616, .irqHoldoffExpiry 256,
    .msixPendingSend 256, .spiRead 4294967296 0 0 false, .spiRead 0 256 0 false, .spiWrite 4294967296 0 [] 0, .spiWrite 0 256 [] 0,
    .spiGuardedWrite 4294967296 0 0 0, .parityScrub 2, .evqConsWrite 2 0 0 0, .evqConsWrite 0 0 2 0, .rxRingDeliver 32, .rxRingConsWrite 2 0 0 0,
    .rxRingConsWrite 0 0 32 0, .txRingProdWrite 2 0 0 0, .txRingProdWrite 0 0 32 0, .txRecordFetch 32 (.replicate 8 0) [],
    .txRecordFetch 0 (.replicate 7 0) [], .tsqCtrlWrite 2 0 0 0, .tsqCtrlWrite 0 0 4 0, .tsqConsWrite 2 0 0 0, .tsqConsWrite 0 0 4 0, .evqConfig 0 8,
    .ringConfig 0 8, .mbxDoorbell 0 0 8 0, .mbxDoorbell 2 0 0 0, .slotTake 0 8, .mbxCqConsWrite 0 0 8 0, .mbxCqConsWrite 2 0 0 0,
    .mbxQueueEnable 0 0 8 false]

theorem test_wf_refuses_1 : illFormed1.all (fun i => !i.wf) = true := by decide +kernel

def illFormed2 : List Instr :=
   [.mbxQueueEnable 2 0 0 false, .mbxQueueDisable 0 0 8 false, .mbxQueueDisable 2 0 0 false, .journalPersist 4294967296 0, .journalPersist 0 4,
    .mirrorAck 4294967296, .mirrorAckTimeout 4294967296, .completionRelease 0 8, .devInfo 0 8, .devStateGet 0 8, .hostResync 0 8, .journalRead 0 8,
    .journalMark 0 8, .calLoad 0 8 [] 0, .calLoad 0 0 [] 65536, .calAdmit 0 8 0, .calAdmit 0 0 65536, .calActivateAt 0 8 0, .calActivateAt 0 0 65536,
    .calAbort 0 8 0, .calAbort 0 0 65536, .calStatus 0 8, .calLimpSelect 0 8, .pipelineIssue 0 68, .pipelineIssue 2 0, .gateEntryStart 68,
    .macHoldAssert 68, .edgeSlotOpen 8192, .edgeSlotEnd 8192 false, .routerJobRelease 4096, .tunnelWindowOpen 4096, .tunnelWindowClose 4096,
    .streamDeadlineExpiry 0 68, .fwdTxnBegin 0 8, .fwdEntryAdd 0 8, .fwdEntryDel 0 8, .fwdTxnCommit 0 8, .fwdEpochDrain 0 8, .epochDrainComplete 0 8,
    .epochDrainTimeout 0 8]

theorem test_wf_refuses_2 : illFormed2.all (fun i => !i.wf) = true := by decide +kernel

def illFormed3 : List Instr :=
   [.fwdLpmAdd 0 8, .fwdFlushPort 0 8, .fwdAgeConfig 0 8, .frameArrival 68 (.replicate 14 0) none, .frameArrival 0 (.replicate 513 0) none,
    .frameLastByte 68 [] ⟨.good, false, false, 0, false, false⟩, .macsecIcvVerdict 68 false, .verdictTimeout 68,
    .egressSelect 68, .egressCopyEnd 68, .drainBack 520, .drainReadComplete 520 false, .xoffRepeat 64 0, .xoffRepeat 0 9,
    .pauseFrameReceived 64 (.pause 0), .pauseExpiry 64 0, .pauseExpiry 0 8, .portLinkDown 65, .portLinkUp 65 0, .portLinkUp 0 8,
    .drainHoldEnd 65 false, .trfQueueConfig 0 8, .trfPolicerSet 0 8, .trfShaperSet 0 8 [], .trfStreamFilter 0 8 [], .trfFrerConfig 0 8,
    .streamGateEntry 1024, .preemptVerifyTimer 68, .frerResetTimeout 2048, .frerLatentPeriod 2048, .canFrameReceived 64 good 0,
    .canTxAttempt 64 .sent, .canBusError 64 0 false false, .canBusError 0 8 false false, .busOffRecoverDelay 64, .busOffRecoveryDone 64,
    .edgCanConfig 0 8 [], .edgLinConfig 0 8 [], .edgT1sConfig 0 8]

theorem test_wf_refuses_3 : illFormed3.all (fun i => !i.wf) = true := by decide +kernel

def illFormed4 : List Instr :=
   [.edgXcvrMode 0 8, .edgBusOffRecover 0 8, .configApplyAtIdle 112, .xcvrModeApply 96, .xcvrModeForced 96, .xcvrSettleEnd 64, .linScheduleSlot 32,
    .linHeaderReceived 32 0 0 false 0, .linHeaderReceived 0 64 0 false 0, .linResponseEnd 32 .ok [], .linResponseEnd 0 .ok (.replicate 9 0),
    .linBusIdleTimeout 32, .linWakeDetect 32, .plcaStatusChange 16 false, .t1sDupCoordinator 16, .t1sCollision 16, .tunEncapTake 512,
    .batchTimeout 512, .xPortInject 2, .tunDecapsulate 2, .presentationHoldEnd 512, .sigExtraction 4, .sigJobRun 4, .jobDeadlineMiss 4 0,
    .mappingTimeout 16384, .tunChannelSet 0 8, .sigMapLoad 0 8 [], .e2eContextSet 0 8, .secFwRule 0 8 [], .portConfig 0 8, .scConfig 0 8,
    .saInstall 0 8, .saDelete 0 8, .txSwitch 0 8, .cipherRequestComplete 256, .secFvWrite 2 0 0, .keyDerive 0 8, .keyDeriveRebuild 0 8,
    .keyUnwrap 0 8, .keyErase 0 8]

theorem test_wf_refuses_4 : illFormed4.all (fun i => !i.wf) = true := by decide +kernel

def illFormed5 : List Instr :=
   [.lcAdvance 0 8 none, .keyAlarm 16 false, .timeDomainConfig 0 8, .timeAdjust 0 8, .timeJumpAccept 0 8, .timSnap 2 0 0,
    .ptpFrameReceived 64 0 .other, .ptpFrameReceived 0 256 .other, .syncReceiptTimeout 4, .hostSourceTimeout 4, .ptpSyncTransmit 4 0,
    .ptpSyncTransmit 0 64, .pwrStateRequest 0 8, .nmConfig 0 8 [], .wakeSourceConfig 0 8 [], .nmAwakeLogRead 0 8, .nmMessageReceived 68 [],
    .nmMessageReceived 0 (.replicate 65 0), .sleepEntry 65536 0, .sleepEntry 0 65536, .stayAwakeDetect 68 0, .stayAwakeDetect 0 256, .wakePin 8 false,
    .canWakePattern 64, .swOscillatorStart 64, .selectiveWakeFrame 64 good, .linWake 32, .pairConfig 0 8, .pairRole 0 8, .pairStatus 0 8,
    .tongsLinkDown 4, .faultReport 0 256, .fenceStatus 0 8, .fenceRelease 0 8, .captureStart 0 8, .autoConfirmTimeout 65536 0,
    .autoConfirmTimeout 0 16, .svcHello (.replicate 15 0) false, .svcProof 4294967296 [], .svcData 4294967296 0 false [] []]

theorem test_wf_refuses_5 : illFormed5.all (fun i => !i.wf) = true := by decide +kernel

def illFormed6 : List Instr :=
   [.svcData 0 4294967296 false [] [], .svcCommand 4294967296 0 [] [], .svcCommand 0 4294967296 [] [], .svcClose 4294967296 0 [],
    .svcClose 0 4294967296 [], .updSessionOpen 0 8 false, .updBlock 0 8 false, .updVerify 0 8, .updActivate 0 8 0 0, .updActivate 0 0 65536 0,
    .updActivate 0 0 0 16, .alarmDeasserted 16, .slewEnd 4, .preemptVerifyResponse 68, .swDecodeError 64 false, .nodeRecordAged 68 0,
    .nodeRecordAged 0 256, .voteDisagreement 2, .protocolExceptionEnd 64, .registerWrite (.bar0 65536 0 0 15), .registerWrite (.bar0 0 67108864 0 15),
    .registerWrite (.bar0 0 2 0 15), .registerWrite (.bar0 0 0 0 16), .registerWrite (.bar2 65536 0 0 15), .registerWrite (.bar2 0 16777216 0 15),
    .registerWrite (.bar2 0 2 0 15), .registerWrite (.bar2 0 0 0 16), .registerWrite (.bar0Pair 65536 0 0 0 255),
    .registerWrite (.bar0Pair 0 67108860 0 0 255), .registerWrite (.bar0Pair 0 2 0 0 255), .registerWrite (.bar0Pair 0 0 0 0 256),
    .registerWrite (.bar4 65536 0 15), .registerWrite (.bar4 2 0 15), .registerWrite (.bar4 0 0 16), .registerWrite (.sizes 64 128),
    .registerWrite (.sizes 128 8192), .registerWrite (.msixEntry 256 0 0 false),
    .registerWrite (.msixEntry 0 18446744073709551616 0 false), .guardedValueWrite 0 0 524288 0, .spiUnknownInstruction 0x0B,
    .spiUnknownInstruction 0x02, .spiUnknownInstruction 0x12, .spiUnknownInstruction 0x05, .spiWrite 0 0 [1, 2] 0, .evqConfig 1 2, .evqConfig 2 1,
    .evqConfig 3 0, .frameArrival 0 (.replicate 13 0) none, .frameArrival 0 (.replicate 14 0) (some ⟨18446744073709551616, 0, 0, 0⟩)]

theorem test_wf_refuses_6 : illFormed6.all (fun i => !i.wf) = true := by decide +kernel

def illFormed7 : List Instr :=
   [.frameArrival 0 (.replicate 14 0) (some ⟨0, 4, 0, 0⟩), .frameArrival 0 (.replicate 14 0) (some ⟨0, 0, 18446744073709551616, 0⟩),
    .frameArrival 0 (.replicate 14 0) (some ⟨0, 0, 0, 33⟩), .pauseFrameReceived 0 (.pause 65536), .pauseFrameReceived 0 (.pfc 256 (.replicate 8 0)),
    .pauseFrameReceived 0 (.pfc 0 (.replicate 7 0)), .pauseFrameReceived 0 (.pfc 0 (.replicate 8 65536)), .slagAuditPass [4294967296] [],
    .slagAuditPass [] [4294967296], .hostGclChange true 1024, .hostGclChange false 65, .canFrameReceived 0 { good with id := 2048 } 0,
    .canFrameReceived 0 { good with ext := true, id := 536870912 } 0, .canFrameReceived 0 { good with dlc := 16 } 0,
    .canFrameReceived 0 { good with sdt := 256 } 0, .canFrameReceived 0 { good with vcid := 256 } 0,
    .canFrameReceived 0 { good with af := 4294967296 } 0, .canFrameReceived 0 { good with data := .replicate 9 0 } 0,
    .canFrameReceived 0 { good with format := .classicRemote } 0, .canFrameReceived 0 { good with format := .fd, data := .replicate 9 0 } 0,
    .canFrameReceived 0 { good with format := .xl, ext := true } 0, .canFrameReceived 0 { good with format := .xl, data := [] } 0,
    .selectiveWakeFrame 0 { good with dlc := 16 }, .canTxAttempt 0 (.error 8 false), .helloUnitReceived ⟨4294967296, true, 0, 1, 1, true⟩,
    .helloUnitReceived ⟨1, true, 4, 1, 1, true⟩, .helloUnitReceived ⟨1, true, 0, 4294967296, 1, true⟩,
    .helloUnitReceived ⟨1, true, 0, 1, 18446744073709551616, true⟩, .mirrorMessageReceived (.journal (.replicate 127 0)) true,
    .mirrorMessageReceived (.freshness 1024 0) true, .mirrorMessageReceived (.freshness 0 18446744073709551616) true,
    .mirrorMessageReceived (.recovery 2048 []) true, .mirrorMessageReceived (.generation 1024 0) true,
    .mirrorMessageReceived (.generation 0 65536) true, .mirrorMessageReceived (.nm 8 0 false) true,
    .mirrorMessageReceived (.journalGap 4294967296) true, .mirrorMessageReceived (.calendar 0x1FF [] []) true,
    .mirrorMessageReceived (.calendar 0x204 [] []) true, .mirrorMessageReceived (.calendar 0x200 (.replicate 225 0) []) true, .syncBlockReceived (.handle 4 0 0 []), .syncBlockReceived (.handle 0 6 0 []),
    .syncBlockReceived (.mirror (.nm 8 0 false)), .heartbeatReceived ⟨true, 4, false, false, 5, 0, 0, none, []⟩]

theorem test_wf_refuses_7 : illFormed7.all (fun i => !i.wf) = true := by decide +kernel

def illFormed8 : List Instr :=
   [.heartbeatReceived ⟨true, 1, false, false, 4294967296, 0, 0, none, []⟩, .heartbeatReceived ⟨true, 1, false, false, 5, 4294967296, 0, none, []⟩,
    .heartbeatReceived ⟨true, 1, false, false, 5, 0, 8, none, []⟩, .heartbeatReceived ⟨true, 1, false, false, 5, 0, 0, none, [0, 0, 0, 0, 0]⟩,
    .voteReceived ⟨8, 1, 1, 2, 2, 2⟩, .voteReceived ⟨0, 4294967296, 1, 2, 2, 2⟩, .voteReceived ⟨0, 1, 4, 2, 2, 2⟩,
    .voteReceived ⟨0, 1, 1, 4294967296, 2, 2⟩, .voteReceived ⟨0, 1, 1, 2, 4, 2⟩, .faultReport 28672 0, .recoveryStart 28672, .recoveryDone 28672 true,
    .recoveryBudgetExpiry 28672, .probationEnd 28672, .lcAdvance 0 0 (some 5)]

theorem test_wf_refuses_8 : illFormed8.all (fun i => !i.wf) = true := by decide +kernel

def wellFormed1 : List Instr :=
   [.registerWrite (.config true true true), .guardedValueWrite 0 0 0 0, .guardedComplementWrite 0 0 0 0, .guardWindowExpiry 0,
    .bitAliasWrite 0 0 0 0 0, .atomicOp .fetchAdd false false 0 0 0, .irqHoldoffExpiry 0, .msixPendingSend 0, .spiRead 0 0 0 false,
    .spiWrite 0 0 [] 0, .spiGuardedWrite 0 0 0 0, .spiUnknownInstruction 0x9F, .parityScrub 0, .evqConsWrite 0 0 0 0, .rxRingDeliver 0,
    .rxRingConsWrite 0 0 0 0, .txRingProdWrite 0 0 0 0, .txRecordFetch 0 (.replicate 8 0) [], .tsqCtrlWrite 0 0 0 0, .tsqConsWrite 0 0 0 0,
    .evqConfig 0 0, .ringConfig 0 0, .mbxDoorbell 0 0 0 0, .slotTake 0 0, .mbxCqConsWrite 0 0 0 0, .mbxQueueEnable 0 0 0 false,
    .mbxQueueDisable 0 0 0 false, .journalPersist 0 0, .mirrorAck 0, .mirrorAckTimeout 0, .completionRelease 0 0, .devInfo 0 0, .devStateGet 0 0,
    .hostResync 0 0, .journalRead 0 0, .journalMark 0 0, .calLoad 0 0 [] 0, .calAdmit 0 0 0, .calActivateAt 0 0 0, .calAbort 0 0 0, .calStatus 0 0,
    .calLimpSelect 0 0, .pipelineIssue 0 0, .gateEntryStart 0, .macHoldAssert 0, .edgeSlotOpen 0, .edgeSlotEnd 0 false, .routerJobRelease 0,
    .tunnelWindowOpen 0, .tunnelWindowClose 0]

theorem test_wf_admits_1 : wellFormed1.all Instr.wf = true := by decide +kernel

def wellFormed2 : List Instr :=
   [.streamDeadlineExpiry 0 0, .fwdTxnBegin 0 0, .fwdEntryAdd 0 0, .fwdEntryDel 0 0, .fwdTxnCommit 0 0, .fwdEpochDrain 0 0, .epochDrainComplete 0 0,
    .epochDrainTimeout 0 0, .fwdLpmAdd 0 0, .fwdFlushPort 0 0, .fwdAgeConfig 0 0, .frameArrival 0 (.replicate 14 0) none,
    .frameLastByte 0 [] ⟨.good, false, false, 0, false, false⟩, .macsecIcvVerdict 0 false, .verdictTimeout 0, .egressSelect 0, .egressCopyEnd 0,
    .drainBack 0, .drainReadComplete 0 false, .xoffRepeat 0 0, .pauseFrameReceived 0 (.pause 0), .pauseExpiry 0 0, .portLinkDown 0, .portLinkUp 0 0,
    .drainHoldEnd 0 false, .slagAuditPass [] [], .trfQueueConfig 0 0, .trfPolicerSet 0 0, .trfShaperSet 0 0 [], .trfStreamFilter 0 0 [],
    .trfFrerConfig 0 0, .hostGclChange false 0, .streamGateEntry 0, .preemptVerifyTimer 0, .frerResetTimeout 0, .frerLatentPeriod 0,
    .canFrameReceived 0 good 0, .canTxAttempt 0 .sent, .canBusError 0 0 false false, .busOffRecoverDelay 0, .busOffRecoveryDone 0,
    .edgCanConfig 0 0 [], .edgLinConfig 0 0 [], .edgT1sConfig 0 0, .edgXcvrMode 0 0, .edgBusOffRecover 0 0, .configApplyAtIdle 0, .xcvrModeApply 0,
    .xcvrModeForced 0, .xcvrSettleEnd 0]

theorem test_wf_admits_2 : wellFormed2.all Instr.wf = true := by decide +kernel

def wellFormed3 : List Instr :=
   [.linScheduleSlot 0, .linHeaderReceived 0 0 0 false 0, .linResponseEnd 0 .ok [], .linBusIdleTimeout 0, .linWakeDetect 0, .plcaStatusChange 0 false,
    .t1sDupCoordinator 0, .t1sCollision 0, .tunEncapTake 0, .batchTimeout 0, .xPortInject 0, .tunDecapsulate 0, .presentationHoldEnd 0,
    .sigExtraction 0, .sigJobRun 0, .jobDeadlineMiss 0 0, .mappingTimeout 0, .tunChannelSet 0 0, .sigMapLoad 0 0 [], .e2eContextSet 0 0,
    .secFwRule 0 0 [], .portConfig 0 0, .scConfig 0 0, .saInstall 0 0, .saDelete 0 0, .txSwitch 0 0, .cipherRequestComplete 0, .secFvWrite 0 0 0,
    .keyDerive 0 0, .keyDeriveRebuild 0 0, .keyUnwrap 0 0, .keyErase 0 0, .lcAdvance 0 0 none, .keyAlarm 0 false, .timeDomainConfig 0 0,
    .timeAdjust 0 0, .timeJumpAccept 0 0, .timSnap 0 0 0, .ptpFrameReceived 0 0 .other, .syncReceiptTimeout 0, .hostSourceTimeout 0,
    .ptpSyncTransmit 0 0, .pwrStateRequest 0 0, .nmConfig 0 0 [], .wakeSourceConfig 0 0 [], .nmAwakeLogRead 0 0, .nmMessageReceived 0 [],
    .sleepEntry 0 0, .stayAwakeDetect 0 0, .wakePin 0 false]

theorem test_wf_admits_3 : wellFormed3.all Instr.wf = true := by decide +kernel

def wellFormed4 : List Instr :=
   [.canWakePattern 0, .swOscillatorStart 0, .selectiveWakeFrame 0 good, .linWake 0, .pairConfig 0 0, .pairRole 0 0, .pairStatus 0 0,
    .tongsLinkDown 0, .helloUnitReceived ⟨1, true, 0, 1, 1, true⟩, .mirrorMessageReceived (.journalGap 0) false, .syncBlockReceived (.finish 0),
    .heartbeatReceived ⟨true, 1, false, false, 5, 0, 0, none, []⟩, .voteReceived ⟨0, 1, 1, 2, 2, 2⟩, .faultReport 0 0, .recoveryStart 0,
    .recoveryDone 0 false, .recoveryBudgetExpiry 0, .probationEnd 0, .fenceStatus 0 0, .fenceRelease 0 0, .captureStart 0 0, .autoConfirmTimeout 0 0,
    .svcHello (.replicate 16 0) false, .svcProof 0 [], .svcData 0 0 false [] [], .svcCommand 0 0 [] [], .svcClose 0 0 [], .updSessionOpen 0 0 false,
    .updBlock 0 0 false, .updVerify 0 0, .updActivate 0 0 0 0, .alarmDeasserted 0, .slewEnd 0, .preemptVerifyResponse 0, .swDecodeError 0 false,
    .nodeRecordAged 0 0, .voteDisagreement 0, .protocolExceptionEnd 0]

theorem test_wf_admits_4 : wellFormed4.all Instr.wf = true := by decide +kernel

/-- Ill-formed by the length of their data. -/
def illFormedLong : List Instr :=
   [.txRecordFetch 0 (.replicate 8 0) (.replicate 65536 0), .calLoad 0 0 (.replicate 8388609 0) 0,
    .frameLastByte 0 (.replicate 65536 0) ⟨.good, false, false, 0, false, false⟩, .trfShaperSet 0 0 (.replicate 65537 0),
    .trfStreamFilter 0 0 (.replicate 65537 0), .edgCanConfig 0 0 (.replicate 65537 0), .edgLinConfig 0 0 (.replicate 65537 0),
    .sigMapLoad 0 0 (.replicate 65537 0), .secFwRule 0 0 (.replicate 65537 0), .nmConfig 0 0 (.replicate 65537 0),
    .wakeSourceConfig 0 0 (.replicate 65537 0), .syncBlockReceived (.handle 0 0 0 (.replicate 8388609 0)),
    .mirrorMessageReceived (.calendar 0x200 [] (.replicate 8388609 0)) true,
    .canFrameReceived 0 { good with format := .xl, data := .replicate 2049 0 } 0]

theorem test_wf_refuses_long : illFormedLong.all (fun i => !i.wf) = true := by
  simp [illFormedLong, Instr.wf, dmaOk, SyncItem.wf, MirrorMsg.wf, CanFrame.wf, good, -List.reduceReplicate]

/-! ### The table gives no row a bit -/

theorem test_no_word_decodes (nbits w : Nat) : decodeTableWord nbits w = none := rfl

theorem test_fetch_word_changes_nothing (s : State) (nbits w : Nat) : s.withFetchWord nbits w = s := rfl

/-! ### Steps with values of the spec: its check values, worked examples and rules -/

/-- The state after a command. -/
def after (c : Instr) (s : State) : State :=
  match exec c s with
  | .next t => t
  | _ => s

def digits : List Byte := [0x31, 0x32, 0x33, 0x34, 0x35, 0x36, 0x37, 0x38, 0x39]

/-- R112. -/
theorem test_crc32c : Crypto.crc32c digits = 0xE3069283 ∧ Crypto.crc32c [] = 0 := by decide +kernel

/-- The check column of R377. -/
theorem test_e2e_polynomials : (List.range 8).map (fun p => State.e2eCrc p digits) =
    [0x4B, 0xDF, 0x29B1, 0xBB3D, 0xCBF43926, 0x1697D06A, 0xE3069283, 0x995DC9BBDF1939FA] := by decide +kernel

/-- FIPS 197, section 5.1.1: SubBytes of 0x53. -/
theorem test_sbox : Crypto.sbox 0x53 = 0xED ∧ Crypto.invSbox 0xED = 0x53 := by decide +kernel

/-- R441: the local clock advances by 2 ns a tick. -/
theorem test_idle_tick : (match step up with | .next t => t.clk | _ => 0) = 5000000002 := by decide +kernel

/-- R50: the value waits, and the complement writes it. -/
def withValue : State := after (.guardedValueWrite 0 7 Reg.fncCtrl 1) (up.rset Reg.fncCtrl 0)

theorem test_guarded_value : withValue.rget Reg.fncCtrl = 0 ∧ withValue.hif.guards.length = 1 := by decide +kernel

theorem test_guarded_complement : (after (.guardedComplementWrite 0 8 Reg.fncCtrl 0xFFFFFFFE) withValue).rget Reg.fncCtrl = 1 := by decide +kernel

theorem test_guarded_mismatch : (after (.guardedComplementWrite 0 8 Reg.fncCtrl 0xFFFFFFFF) withValue).rget Reg.fncCtrl = 0 ∧
    (after (.guardedComplementWrite 0 8 Reg.fncCtrl 0xFFFFFFFF) withValue).rget Reg.hifGuardFaultCnt = 1 := by decide +kernel

/-- Chapter 2: ring 3 takes a frame of 1,200 bytes at 0x0030_0FE8. -/
def ring3 : State :=
  (((queued { fid := 0, port := 67, queue := 3 }).setFr
    { frames := [{ frame 0 with bytes := List.replicate 1204 0 }], copies := [{ fid := 0, port := 67, queue := 3 }], next := 1 }).rset
      (Reg.hifRxrCfg 3) 0x1401).rset (Reg.hifRxrProd 3) 0x300FE8 |>.rset (Reg.hifRxrCons 3) 0x300FE8

theorem test_ring_record : ring3.rxSize 3 = 2 ^ 20 ∧ (after (.rxRingDeliver 3) ring3).rget (Reg.hifRxrProd 3) = 0x3014A0 := by decide +kernel

/-- Chapter 7: with 10,000 free cells and ALPHA 1/4, 3,006 cells are refused and 406 are admitted. -/
def queue2 (used : Nat) : State :=
  (up.setBuf { sched := 184560 - used }).setFr
    { frames := [{ frame 0 with cells := used }], copies := [{ fid := 0, port := 1, queue := 2 }], next := 1 } |>.rset
      (Reg.bufQcfg 10) 0x40010

theorem test_queue_limit : (queue2 3000).sharedFree = 10000 ∧ (queue2 3000).sharedTest 1 2 6 = none ∧ (queue2 400).sharedFree = 10000 ∧
    (queue2 400).sharedTest 1 2 6 = some false := by decide +kernel

/-- Chapter 8: frame 44 of 1,520 bytes finds 1,387.52 bytes and is red, frame 47 finds 1,573.76 bytes. -/
def policed (bucket : Int) : State :=
  up.setTrf { policers := [(0x120, { enabled := true, rate := 1000000, burst := 65536, bucket := bucket, at_ := 5000000000 })] }

theorem test_policer : ((policed 1387520000000).meter 0x120 1520).1 = false ∧ ((policed 1573760000000).meter 0x120 1520).1 = true := by decide +kernel

/-- The bucket regains 62.08 bytes in 496.64 ns at 1 Gb/s; here 62,080 bytes in 496,640 ns. -/
theorem test_policer_refill :
    (({ policed 0 with clk := 5000496640 } : State).policer 0x120).bucket = 62080000000000 := by decide +kernel

/-- Chapter 10: context 40 takes counter 0x5E after 0x5C with a MAX_DELTA of 2. -/
def context40 (flags counter : Nat) : State :=
  { up with e2e := [(40, { flags := flags, poly := 2, dataId := 0xB4, ctrPos := 16, maxDelta := 2, length := 16, counter := counter, fresh := false })] }

def steering (counter : Nat) : List Byte := ((context40 3 counter).e2eProtect 40 (List.replicate 16 0)).1

theorem test_e2e_lost : (((context40 1 0x5B).e2eCheck 40 (steering 0x5C)).1 = some 0) ∧ (((context40 1 0x5C).e2eCheck 40 (steering 0x5E)).1 = some 1) ∧
    (((context40 1 0x5C).e2eCheck 40 (steering 0x5F)).1 = some 4) ∧ (((context40 1 0x5C).e2eCheck 40 (steering 0x5C)).1 = some 3) := by decide +kernel

/-- Chapter 11: freshness byte 0x00 after 0x1_23FE. -/
theorem test_freshness : State.fvAbove 0x123FE 8 0 = 0x12400 := by decide +kernel

/-- Chapter 12: a voltage alarm erases the loaded slots and keeps the root. -/
theorem test_voltage_alarm : ((after (.keyAlarm 1 false) (up.setKey family)).keySlot 1007).state = .erased ∧
    (after (.keyAlarm 1 false) (up.setKey family)).key.root = some (List.replicate 32 7) ∧
    (after (.keyAlarm 1 false) (up.setKey family)).key.asserted = 1 := by decide +kernel

/-- Chapter 13: +3,200 ns above a threshold of 1,000 ns are held, and accepted as a step. -/
def netDomain : State :=
  { up with dom := [(0, { state := .locked, source := 1, bmca := true, ports := 0xF, slave := some 1, heldSeq := 7, newSource := true })] }

theorem test_jump_refused : ((after (.ptpFrameReceived 1 0 (.sync 3200 0)) netDomain).domain 0).state = .held ∧
    ((after (.ptpFrameReceived 1 0 (.sync 3200 0)) netDomain).domain 0).heldStep = 3200 ∧
    (after (.ptpFrameReceived 1 0 (.sync 3200 0)) netDomain).rget (Reg.timDomJumpRefusedCnt 0) = 1 := by decide +kernel

/-- Chapter 14: frame 0x3B0 on C12 wakes the device from BANKED. -/
def asleep : State := powered
  { state := .banked, sw := 2 ^ 12, oscOn := true, decoding := [12],
    wakeFilters := [leBytes 1 1 ++ leBytes 1 12 ++ leBytes 2 0 ++ leBytes 4 0x3B0 ++ leBytes 4 0x7FF ++ leBytes 12 0] }

theorem test_selective_wake (t : State) (h : t = after (.selectiveWakeFrame 12 { canFrame .classicData 8 with id := 0x3B0 }) asleep) :
    t.rget Reg.pwrWakeReason = 0x008 ∧ t.rget Reg.pwrWakeFirst = 0x30C03 ∧ t.pwr.state = .kindle := by
  subst h; exact by decide +kernel

/-- Chapter 15: at the loss of its partner a striker takes over, and function 5 resumes at 0x3A50. -/
def striker : State :=
  ({ up with
      trf := { gen := [(5, { enabled := true, mirror := true })] }
      pair := { role := .striker, alive := true, linkState := 4, linkAtBeat := 4, mirrorGen := [(5, 0x3A10)], lastBeat := 5000000000,
                cfg := leBytes 4 0 ++ leBytes 2 64 ++ leBytes 2 0 ++ leBytes 4 256 ++ leBytes 52 0 } } : State).rset Reg.pairCtrl 1

theorem test_takeover : (after .partnerLoss striker).pair.role = .smith ∧ (after .partnerLoss striker).pair.acting = true ∧
    ((aget (after .partnerLoss striker).trf.gen 5).map (·.next)) = some 0x3A50 ∧ (after .partnerLoss striker).clk = 5000150000 := by decide +kernel

/-- Chapter 16: an error in pipeline 0 during its recovery quenches the datapath. -/
def escalated : State := after (.faultReport 13 2) (fenced 13 { state := .recovering, own := true })

theorem test_escalation : (escalated.fdom 4).state = .quenched ∧ (escalated.fdom 4).source = 12 := by decide +kernel

/-- Chapter 17: 7,933,272 bytes make 122 chunks. -/
theorem test_chunks : State.Update.count (update 1 7933272 [] false) = 122 := by decide +kernel

/-! ### Witnesses of further clauses -/

theorem witness_SpiTransactions_more :
    (∃ (s : State) (data : List Word), s.bridgeUp = true ∧ data.length ≠ 255 % 256 + 1) ∧
    (∃ op : Nat, op ≠ 0x0B ∧ op ≠ 0x02 ∧ op ≠ 0x12 ∧ op ≠ 0x05) := ⟨⟨up, [], by decide +kernel⟩, ⟨0, by decide +kernel⟩⟩

theorem witness_QueueWrites_more : ∃ (s : State) (r : RegRow) (v : Word), s.Reached ∧ s.Writable 0 (Reg.hifTsqCtrl 3) r ∧
    ¬((s.rget (Reg.hifTsqCtrl 3)).toNat % 2 = 0 ∧ (s.stored r (Reg.hifTsqCtrl 3) v).toNat % 2 = 1) :=
  ⟨up.rset (Reg.hifTsqCtrl 3) 1, rowOf (Reg.hifTsqCtrl 3), 1, (by (repeat' apply And.intro) <;> first | exact reached _ (by decide +kernel) | exact writable _ _ _ _ (by decide +kernel) | exact ready _ _ _ _ _ (by decide +kernel) | decide +kernel)⟩

theorem witness_QueueCommands_more :
    (∃ (s : State) (c : Cmd), s.quenched 9 = false ∧ s.Ready 0 0 0x0111 c ∧ bit (c.u 1 1) 0 = false ∧ bit (c.u 0 1) 7 = false ∧
      s.rfld (Reg.hifRxrCfg (c.u 0 1 % 32)) 0 1 = 1) ∧
    (∃ (s : State) (c : Cmd), s.quenched 9 = false ∧ s.Ready 0 0 0x0111 c ∧ bit (c.u 1 1) 0 = true ∧ bit (c.u 0 1) 7 = true ∧
      s.rfld (Reg.hifTxrCfg (c.u 0 1 % 32)) 0 1 = 1) :=
  ⟨⟨(with_ up 0x0111 [(24, 0)]).rset (Reg.hifRxrCfg 0) 1, cmdOf 0x0111 [(24, 0)], (by (repeat' apply And.intro) <;> first | exact reached _ (by decide +kernel) | exact writable _ _ _ _ (by decide +kernel) | exact ready _ _ _ _ _ (by decide +kernel) | decide +kernel)⟩,
    ⟨(with_ up 0x0111 [(1, 0x80), (1, 1), (22, 0)]).rset (Reg.hifTxrCfg 0) 1, cmdOf 0x0111 [(1, 0x80), (1, 1), (22, 0)], (by (repeat' apply And.intro) <;> first | exact reached _ (by decide +kernel) | exact writable _ _ _ _ (by decide +kernel) | exact ready _ _ _ _ _ (by decide +kernel) | decide +kernel)⟩⟩

theorem witness_RingTraffic_more :
    (∃ (s : State) (c : Copy) (f : Frame), s.head? 67 31 = some (c, f) ∧ s.rxEn 31 = false ∧
      ((s.ringDrop c 31 false).rxRing 31).todo = []) ∧
    (∃ s : State, s.rxEn 31 = true ∧ s.group 64 = [] ∧ ∀ m, m < 32 → m ≠ 31 → s.rxEn m = false ∧ (s.rxRing m).todo = []) :=
  ⟨⟨queued { fid := 0, port := 67, queue := 31 }, { fid := 0, port := 67, queue := 31 }, frame 0, by decide +kernel⟩, ⟨ring, by decide +kernel⟩⟩

/-- A slot whose index has been given out to the command `i`. -/
def seenBefore (host : Nat) : State :=
  (up.rset (Reg.mbxHostSeq host) 5).setMbx { cmds := [{ cmdOf 0x0100 [] with host := host, seq := 5 }] }

theorem witness_SlotTaking_more :
    (∃ (s : State) (b : List Byte) (r : List (List Byte)), s.pwr.fwReady = true ∧ s.mbx.svc = b :: r ∧ 32 ∉ s.mbx.faults ∧
      s.mbx.svcAccept < s.mbx.svcPosted + 32 ∧ s.commandsRun (leNat (b.take 2)) = true) ∧
    (∃ (t : State) (i : Nat), t.slotCheck 0 (slotBytes 0x0100) (fun _ => true) = none ∧
      t.judgeSeq 0 0x0100 5 [] (State.isRestart 0x0100 []) = .wait i) ∧
    (∃ (t : State) (e : JEntry), t.slotCheck 0 (slotBytes 0x0100) (fun _ => true) = none ∧
      t.judgeSeq 0 0x0100 5 [] (State.isRestart 0x0100 []) = .replay e) ∧
    (∃ (t : State) (st : Nat), t.slotCheck 0 (slotBytes 0x0100) (fun _ => true) = none ∧
      t.judgeSeq 0 0x0100 5 [] (State.isRestart 0x0100 []) = .reject st) ∧
    (∃ body : List Byte, State.isRestart 0x0102 body = true) :=
  ⟨⟨up.setMbx { svc := [slotBytes 0x0100] }, slotBytes 0x0100, [], by decide +kernel⟩, ⟨seenBefore 0, 0, by decide +kernel⟩,
    ⟨(up.rset (Reg.mbxHostSeq 0) 5).setMbx { dram := [{ { cmdOf 0x0100 [] with seq := 5 }.entry with status := 0 }] },
      { { cmdOf 0x0100 [] with seq := 5 }.entry with status := 0 }, by decide +kernel⟩,
    ⟨up.rset (Reg.mbxHostSeq 0) 9, 6, by decide +kernel⟩, ⟨[0, 0, 0, 0, 1], by decide +kernel⟩⟩

/-- `JOURNAL_READ` by host 0 of the entries from 2 on, in a mode, with flags and a host. -/
def reads (mode flags n : Nat) : State :=
  (with_ up 0x0103 [(1, mode), (1, flags), (2, 0), (4, 2), (2, n), (22, 0)]).rset Reg.mbxJournalHead 3

def readsCmd (mode flags n : Nat) : Cmd := cmdOf 0x0103 [(1, mode), (1, flags), (2, 0), (4, 2), (2, n), (22, 0)]

def entry2 : JEntry := { cmdOf 0x0307 [] with index := 2 }.entry

theorem witness_DeviceCommands_more :
    (∃ c : Cmd, c.accepted = true ∧ c.opcode = 0x0102 ∧ bit (c.u 4 1) 0 = true ∧ c.status = 0 ∧ c.host < 3) ∧
    (∃ (s : State) (c : Cmd), s.Ready 0 0 0x0103 c ∧ c.u 0 1 = 1 ∧ c.u 2 1 ≤ 2 ∧
      (s.firstAfter (c.u 2 1) (s.rget (Reg.mbxHostSession (c.u 2 1))).toNat (c.u 4 4)).map (·.index) = none) ∧
    (∃ (s : State) (c : Cmd), s.Ready 0 0 0x0103 c ∧ bit (c.u 1 1) 1 = true ∧ bit (c.u 1 1) 0 = false ∧ c.host = 0 ∧
      c.u 16 8 % 128 = 0 ∧ c.u 8 2 = 4096 ∧ s.cmdOf 2 = none ∧ s.entryRun 2 4096 = [entry2] ∧ s.canDma = true) ∧
    (∃ (s : State) (c : Cmd), s.Ready 0 0 0x0103 c ∧ bit (c.u 1 1) 1 = false ∧ bit (c.u 1 1) 0 = true ∧ s.cmdOf 2 = none ∧
      s.entryRun 2 1 = [entry2] ∧ s.bodyOf entry2 = none) ∧
    (∃ (s : State) (c : Cmd) (b : List Byte), s.Ready 0 0 0x0103 c ∧ bit (c.u 1 1) 1 = false ∧ bit (c.u 1 1) 0 = true ∧
      s.cmdOf 2 = none ∧ s.entryRun 2 1 = [entry2] ∧ s.bodyOf entry2 = some b) :=
  ⟨⟨{ cmdOf 0x0102 [(4, 0), (4, 1)] with status := 0 }, by decide +kernel⟩, ⟨reads 1 0 1, readsCmd 1 0 1, ⟨ready _ _ _ _ _ (by decide +kernel), by decide +kernel⟩⟩,
    ⟨(reads 0 2 4096).setMbx { (reads 0 2 4096).mbx with dram := [entry2] }, readsCmd 0 2 4096, ⟨ready _ _ _ _ _ (by decide +kernel), by decide +kernel⟩⟩,
    ⟨(reads 0 1 1).setMbx { (reads 0 1 1).mbx with dram := [entry2] }, readsCmd 0 1 1, ⟨ready _ _ _ _ _ (by decide +kernel), by decide +kernel⟩⟩,
    ⟨(reads 0 1 1).setMbx { (reads 0 1 1).mbx with dram := [entry2], bodies := [(2, [])] }, readsCmd 0 1 1, [], ⟨ready _ _ _ _ _ (by decide +kernel), by decide +kernel⟩⟩⟩

/-- Two commands of two queues that name handle 0, either of which may begin. -/
def besides (op : Nat) : State := up.setMbx { cmds := [cmdOf op [(24, 0)], { cmdOf 0x0201 [(24, 0)] with index := 1, queue := 1 }] }

theorem witness_CalendarCommands_more :
    (∀ op ∈ [0x0200, 0x0201, 0x0202, 0x0203], ∃ (s : State) (c : Cmd), s.Ready 0 0 op c ∧ s.calBeside c = true ∧
      s.pair.role = .single ∧ s.quenched Dom.memory = false ∧ c.u 0 1 ≤ 3) ∧
    (∃ (s : State) (c : Cmd), s.Ready 0 0 0x0204 c ∧ c.u 0 1 = 1 ∧ c.u 1 1 = 1 ∧ c.u 4 1 = 8) ∧
    (∃ (s : State) (c : Cmd) (i : Image), s.Ready 0 0 0x0205 c ∧ s.datapathUp = true ∧ s.quenched Dom.calendar = false ∧
      s.cal.limp = some i ∧ s.cal.running = .limp) := by
  refine ⟨?_, ⟨with_ up 0x0204 [(1, 1), (1, 1), (2, 0), (1, 8)], cmdOf 0x0204 [(1, 1), (1, 1), (2, 0), (1, 8)], ⟨ready _ _ _ _ _ (by decide +kernel), by decide +kernel⟩⟩,
    ⟨(with_ up 0x0205 [(8, 0)]).setCal { limp := some (image 1 0), running := .limp }, cmdOf 0x0205 [(8, 0)], image 1 0, ⟨ready _ _ _ _ _ (by decide +kernel), by decide +kernel⟩⟩⟩
  intro op h
  refine ⟨besides op, cmdOf op [(24, 0)], ?_⟩
  simp only [List.mem_cons, List.not_mem_nil, or_false] at h
  rcases h with rfl | rfl | rfl | rfl <;> exact ⟨ready _ _ _ _ _ (by decide +kernel), by decide +kernel⟩

theorem witness_CalendarRuns_more :
    (∃ (s : State) (i : Image), s.datapathUp = true ∧ s.quenched Dom.calendar = false ∧ s.cal.limpDue = 0 ∧ s.cal.stop = false ∧
      s.cal.rephase = true ∧ s.runningImage = some i ∧ (s.domain i.domain).state ≠ .disabled ∧ s.pendingImage = none) ∧
    (∃ (s : State) (l : Image), s.datapathUp = true ∧ s.quenched Dom.calendar = false ∧ s.cal.limpDue ≠ 0 ∧ s.cal.limp = some l ∧
      (s.domain l.domain).state ≠ .disabled ∧ s.cal.stop = true) ∧
    (∃ (s : State) (h : Nat) (i : Image), s.pendingImage = some (h, i) ∧ (s.domain i.domain).state ≠ .disabled ∧ s.datapathUp = true ∧
      s.quenched Dom.calendar = false ∧ s.quenched Dom.memory = false ∧ s.pair.joining = true) :=
  ⟨⟨(running (image 7 0)).setCal { (running (image 7 0)).cal with rephase := true }, image 7 0, by decide +kernel⟩,
    ⟨limping.setCal { limping.cal with stop := true }, image 1 0, by decide +kernel⟩,
    ⟨switching.setPair { joining := true }, 1, image 8 7, by decide +kernel⟩⟩

theorem witness_GatesAndDeadlines_more :
    (∃ (s : State) (i : Image) (l : GateList), s.runningImage = some i ∧ s.imageList 63 = some l ∧ l.port = 63 ∧ s.cal.rephase = true ∧
      s.clk + s.imageLeft i l < s.cal.cycleEnd ∧ s.datapathUp = true ∧ s.quenched Dom.calendar = false ∧ s.cal.stop = false ∧
      (s.domain i.domain).state ≠ .disabled) ∧
    (∃ (s : State) (d : Deadline), s.deadline 0 64 = some d) ∧
    (∃ (s : State) (d : Deadline) (c : Copy), s.deadline 0 5 = some d ∧ s.portDown 5 = true ∧
      ((s.copiesOf 0).find? fun c => c.port == 5 && !c.onLane) = some c) :=
  ⟨⟨(running { image 7 0 with gates := [gateList] }).setCal { (running { image 7 0 with gates := [gateList] }).cal with
        rephase := true, cycleEnd := 6000000000 }, { image 7 0 with gates := [gateList] }, gateList, by decide +kernel⟩,
    ⟨{ up with cal := { deadlines := [{ deadline with egress := 64 }] } }, { deadline with egress := 64 }, by decide +kernel⟩,
    ⟨{ queued { fid := 0, port := 5, queue := 0 } with cal := { deadlines := [deadline] } }, deadline, { fid := 0, port := 5, queue := 0 }, by decide +kernel⟩⟩

/-! ### More witnesses: forwarding -/

/-- The fields of a flush of every port, and a connection request of a key not in the table. -/
def connKey : List Byte := leBytes 1 3 ++ leBytes 39 5

def connecting (em : List EmEntry) : State := up.setFwd { em := em, learnQ := [.connect connKey (leBytes 16 1)] }

theorem witness_ForwardingTransactions_refused :
    (∃ (s : State) (c : Cmd), s.Ready 0 0 0x0305 c ∧ s.fwd.txn = none) ∧
    (∃ (s : State) (c : Cmd), s.Ready 0 0 0x0305 c ∧ s.fwd.txn ≠ none ∧ 4096 ≤ s.fwd.staged.length) ∧
    (∃ (s : State) (c : Cmd), s.Ready 0 0 0x0301 c ∧ s.fwd.txn ≠ none ∧ s.fwd.staged.length = 4095 ∧ c.u 0 1 = 3 ∧ c.u 4 4 = 68) ∧
    (∃ (s : State) (c : Cmd), s.Ready 0 0 0x0301 c ∧ c.u 0 1 = 1 ∧ c.u 4 4 = 4095 ∧ leNat (c.bytes 8 40) = 0 ∧ le (c.bytes 48 16) 13 1 ≤ 31) ∧
    (∃ (s : State) (c : Cmd), s.Ready 0 0 0x0302 c ∧ c.u 0 1 = 4 ∧ State.prefixValid (c.u 9 1) (c.u 10 1) (c.bytes 12 16) = true) ∧
    (∃ (s : State) (c : Cmd), s.Ready 0 0 0x0302 c ∧ c.u 0 1 = 1) ∧
    (∃ (s : State) (c : Cmd), s.Ready 0 0 0x0303 c ∧ s.fwd.txn = none) ∧
    (∃ (s : State) (c : Cmd) (id : Nat), s.Ready 0 0 0x0303 c ∧ s.fwd.txn = some id ∧ id ≠ c.u 0 4) :=
  ⟨⟨with_ up 0x0305 lpmBody, cmdOf 0x0305 lpmBody, ⟨ready _ _ _ _ _ (by decide +kernel), by decide +kernel⟩⟩,
    ⟨txn (List.replicate 4096 (.lpmDel 0 4 8 10)) 0x0305 lpmBody, cmdOf 0x0305 lpmBody, ⟨ready _ _ _ _ _ (by decide +kernel), by decide +kernel⟩⟩,
    ⟨txn (List.replicate 4095 (.lpmDel 0 4 8 10)) 0x0301 [(4, 3), (4, 68), (56, 0)], cmdOf 0x0301 [(4, 3), (4, 68), (56, 0)], ⟨ready _ _ _ _ _ (by decide +kernel), by decide +kernel⟩⟩,
    ⟨txn [] 0x0301 [(4, 1), (4, 4095), (56, 0)], cmdOf 0x0301 [(4, 1), (4, 4095), (56, 0)], ⟨ready _ _ _ _ _ (by decide +kernel), by decide +kernel⟩⟩,
    ⟨txn [] 0x0302 [(8, 4), (1, 0), (1, 4), (1, 8), (1, 0), (16, 10)], cmdOf 0x0302 [(8, 4), (1, 0), (1, 4), (1, 8), (1, 0), (16, 10)], ⟨ready _ _ _ _ _ (by decide +kernel), by decide +kernel⟩⟩,
    ⟨txn [] 0x0302 [(8, 1)], cmdOf 0x0302 [(8, 1)], ⟨ready _ _ _ _ _ (by decide +kernel), by decide +kernel⟩⟩,
    ⟨with_ up 0x0303 [(8, 7)], cmdOf 0x0303 [(8, 7)], ⟨ready _ _ _ _ _ (by decide +kernel), by decide +kernel⟩⟩, ⟨txn [] 0x0303 [(8, 8)], cmdOf 0x0303 [(8, 8)], 7, ⟨ready _ _ _ _ _ (by decide +kernel), by decide +kernel⟩⟩⟩

theorem witness_AgeConfig_staged : ∃ (s : State) (c : Cmd), s.Ready 0 0 0x0307 c ∧ s.fwd.ageTime ≠ 0 ∧ c.u 0 4 = 10 ∧ c.u 4 4 = 10000 ∧
    c.u 8 4 = 86400 ∧ c.u 12 2 = 600 :=
  ⟨with_ up 0x0307 (ageBody 10), cmdOf 0x0307 (ageBody 10), ⟨ready _ _ _ _ _ (by decide +kernel), by decide +kernel⟩⟩

theorem witness_LearningAndAgeing_connections :
    (∃ (u : State) (f : Nat) (m : List Byte) (x : EmEntry), u.emProbe u.epoch (l2Key f m) = some x ∧ le x.data 1 1 ≠ 5 ∧ x.range = none ∧
      bit (le x.data 6 2) 0 = false ∧ bit (le x.data 6 2) 2 = false ∧ x.learnTime + 1000000 * u.fwd.moveHold ≤ u.clk ∧
      u.learnLimit 5 = true) ∧
    (∃ (s v u : State) (r : List LearnReq), s.datapathUp = true ∧ s.fwd.learntAt = some 4999999999 ∧ v = s.waitUntil 5000000039 ∧
      s.fwd.learnQ = .connect connKey (leBytes 16 1) :: r ∧ u = v.setFwd { v.fwd with learnQ := r, learntAt := some v.clk } ∧
      (u.emProbe u.epoch connKey).isSome = false) ∧
    (∃ (s v u : State) (r : List LearnReq), s.datapathUp = true ∧ s.fwd.learntAt = none ∧ v = s ∧
      s.fwd.learnQ = .connect connKey (leBytes 16 1) :: r ∧ u = v.setFwd { v.fwd with learnQ := r, learntAt := some v.clk } ∧
      (u.emProbe u.epoch connKey).isSome = true) ∧
    (∃ s : State, s.datapathUp = true ∧ s.fwd.moving ≠ [] ∧ s.fwd.em ≠ []) :=
  ⟨⟨up.setFwd { ports := limited, em := [{ known with learnTime := 4900000000 }, { known with key := l2Key 2 mac, data := fit 16 (leBytes 1 0 ++ leBytes 1 5) }] }, 1, mac, { known with learnTime := 4900000000 }, by decide +kernel⟩,
    ⟨(connecting []).setFwd { (connecting []).fwd with learntAt := some 4999999999 }, _, _, [], by decide +kernel, by decide +kernel, rfl,
      by decide +kernel, rfl, by decide +kernel⟩,
    ⟨connecting [{ known with key := connKey }], _, _, [], by decide +kernel, by decide +kernel, rfl, by decide +kernel, rfl, by decide +kernel⟩,
    ⟨up.setFwd { em := [known], moving := [{ known with place := .overflow 0 }] }, by decide +kernel⟩⟩

/-- The table with all that a new key can reach taken: its two buckets, the buckets of the keys in them, and all overflow entries. -/
def taken (p : EmPlace) : EmEntry := { known with place := p, key := l2Key 2 mac }

def slotsOf (b : Nat) : List EmEntry := (List.range 4).map fun i => taken (.bucket b i)

def fullTable : List EmEntry :=
  slotsOf (buckets (l2Key 1 mac)).1 ++ slotsOf (buckets (l2Key 1 mac)).2 ++ slotsOf (buckets (l2Key 2 mac)).1 ++
    slotsOf (buckets (l2Key 2 mac)).2 ++ (List.range 8192).map fun i => taken (.overflow i)

def packed : State := up.setFwd { em := fullTable }

theorem packed_key (x : EmEntry) (h : x ∈ fullTable) : x.key = l2Key 2 mac := by
  simp only [fullTable, slotsOf, List.mem_append, List.mem_map] at h
  obtain (((⟨i, -, rfl⟩ | ⟨i, -, rfl⟩) | ⟨i, -, rfl⟩) | ⟨i, -, rfl⟩) | ⟨i, -, rfl⟩ := h <;> rfl

theorem packed_held (x : EmEntry) (h : x ∈ fullTable) : packed.placeHeld x.place = true := by
  simp only [State.placeHeld, List.any_eq_true]
  exact ⟨x, by simp [packed, h], by simp⟩

theorem packed_bucket (b : Nat) (hb : ∀ x ∈ slotsOf b, x ∈ fullTable) : packed.freeSlot b = none := by
  simp only [State.freeSlot, List.find?_eq_none, Bool.not_eq_true', Bool.not_eq_false]
  intro i hi
  exact packed_held (taken (.bucket b i)) (hb _ (List.mem_map.2 ⟨i, hi, rfl⟩))

theorem packed_none : packed.emInsert (l2Key 1 mac) (fit 16 []) none = none := by
  have h0 := packed_bucket (buckets (l2Key 1 mac)).1 (by intro x h; simp [fullTable, h])
  have h1 := packed_bucket (buckets (l2Key 1 mac)).2 (by intro x h; simp [fullTable, h])
  have h2 := packed_bucket (buckets (l2Key 2 mac)).1 (by intro x h; simp [fullTable, h])
  have h3 := packed_bucket (buckets (l2Key 2 mac)).2 (by intro x h; simp [fullTable, h])
  have hp : ∀ p, packed.pathEnds p = none := by
    intro p
    simp only [State.pathEnds, Option.bind_eq_none_iff]
    rintro ⟨b, i⟩ - o ho
    simp only [State.otherBucket, Option.map_eq_some_iff] at ho
    obtain ⟨x, hx, rfl⟩ := ho
    rw [packed_key x (List.mem_of_find?_eq_some hx)]
    by_cases hb : (buckets (l2Key 2 mac)).1 = b <;> simp [hb, h2, h3]
  have hf : packed.findPath (l2Key 1 mac) = none := by
    simp only [State.findPath, List.findSome?_eq_none_iff, hp, Option.map_none, ite_self, implies_true]
  have ho : packed.freeOverflow = none := by
    simp only [State.freeOverflow, List.find?_eq_none, Bool.and_eq_true, Bool.not_eq_true', decide_eq_true_eq, not_and]
    intro i _ hh hi
    have := packed_held (taken (.overflow i)) (by simp only [fullTable, List.mem_append, List.mem_map]; exact .inr ⟨i, List.mem_range.2 hi, rfl⟩)
    simp only [taken] at this
    simp [this] at hh
  simp [State.emInsert, State.emPlaceFor, h0, h1, hf, ho]

theorem witness_LearningAndAgeing_full : ∃ u : State, u.emProbe u.epoch (l2Key 1 mac) = none ∧ u.learnLimit 5 = false ∧
    u.emInsert (l2Key 1 mac) (fit 16 (leBytes 1 0 ++ leBytes 1 5)) none = none := by
  refine ⟨packed, ?_, ?_, ?_⟩
  · have h : (packed.fwd.em ++ packed.fwd.moving).filter (fun x => x.key == l2Key 1 mac && packed.emVisible packed.epoch x) = [] := by
      simp only [List.filter_eq_nil_iff, Bool.and_eq_true, beq_iff_eq, not_and]
      intro x hx hk
      have h := packed_key x (by simpa [packed] using hx)
      rw [h] at hk
      exact absurd hk (by decide +kernel)
    rw [State.emProbe, h]; rfl
  · have h : le (packed.portAttr packed.epoch 5) 4 2 = 0 := by
      simp [State.portAttr, packed, up, State.reset]; decide +kernel
    simp [State.learnLimit, h]
  · have := packed_none
    simp only [State.emInsert, Option.map_eq_none_iff] at this ⊢
    exact this

/-! ### More witnesses: buffers and traffic -/

/-- A state with a fence domain quenched. -/
def quenchedAt (s : State) (d : Nat) : State := s.setFnc { doms := [(d, { state := .quenched })] }

/-- Cell or reference numbers found by the audit before. -/
def audited (cells refs : List Nat) (reclaim : Word) : State :=
  ((queued { fid := 3, port := 0, queue := 7 }).setBuf { suspectCells := cells, suspectRefs := refs }).rset Reg.bufCtrl reclaim

theorem witness_OverflowMemory_clauses :
    (∃ (s w : State) (c : Copy) (f : Frame), w = s.spillUpdate ∧ w.buf.spilling = true ∧ w.spillPick = some c ∧ s.frame? c.fid = some f) ∧
    (∃ (s : State) (c : Copy), s.datapathUp = true ∧ s.quenched Dom.buffer = false ∧ s.quenched Dom.memory = false ∧
      State.ofQueueIndex 7 = (0, 7) ∧ s.portDown 0 = false ∧ ((s.queueOf 0 7).find? fun c => c.spill == .inDram) = some c ∧
      s.cellsAhead c < 128 ∧ s.fcells c.fid ≤ s.sharedFree) ∧
    (∃ (s : State) (c : Copy), s.portDown 0 = false ∧ ((s.queueOf 0 7).find? fun c => c.spill == .inDram) = some c ∧
      s.cellsAhead c < 128 ∧ s.sharedFree < s.fcells c.fid) ∧
    (∃ (s : State) (c : Copy), s.portDown 0 = true ∧ ((s.queueOf 0 7).find? fun c => c.spill == .draining) = some c) ∧
    (∃ s : State, s.datapathUp = true ∧ s.quenched Dom.buffer = false ∧ s.reservedCells ≤ s.schedRequest) ∧
    (∃ s : State, s.datapathUp = true ∧ s.schedRequest < s.reservedCells) ∧
    (∃ s : State, s.datapathUp = true ∧ s.rfld Reg.bufCtrl 0 1 = 0 ∧ s.ovfUsed = 0 ∧ s.ovfInvalid = false) ∧
    (∃ s : State, s.datapathUp = true ∧ s.rfld Reg.bufCtrl 0 1 ≠ 0) ∧
    (∃ s : State, s.datapathUp = true ∧ s.quenched Dom.buffer = false ∧ s.buf.slag = [] ∧ s.buf.suspectCells = [5] ∧
      s.buf.suspectRefs = [] ∧ s.rfld Reg.bufCtrl 1 1 = 1) ∧
    (∃ (s : State) (f : Frame), s.datapathUp = true ∧ s.quenched Dom.buffer = false ∧ s.buf.slag = [] ∧ s.buf.suspectCells = [] ∧
      s.buf.suspectRefs = [3] ∧ s.frame? 3 = some f) ∧
    (∃ (s : State) (cells : List Nat), s.datapathUp = true ∧ s.quenched Dom.buffer = false ∧ s.buf.slag = [] ∧ s.buf.suspectCells = cells ∧
      (∀ c ∈ cells, c < 2 ^ 31) ∧ cells.Nodup ∧ cells.length = 65) :=
  ⟨⟨spilling, _, { fid := 1, port := 0, queue := 7 }, frame 1, rfl, by decide +kernel, by decide +kernel, by decide +kernel⟩,
    ⟨spilled .inDram false, { fid := 0, port := 0, queue := 7, spill := .inDram }, by decide +kernel⟩,
    ⟨{ spilled .inDram false with fr := { frames := [{ frame 0 with cells := 400000 }], copies := [{ fid := 0, port := 0, queue := 7, spill := .inDram }] } },
      { fid := 0, port := 0, queue := 7, spill := .inDram }, by decide +kernel⟩,
    ⟨(queued { fid := 0, port := 0, queue := 7, spill := .draining }), { fid := 0, port := 0, queue := 7, spill := .draining }, by decide +kernel⟩,
    ⟨up, by decide +kernel⟩, ⟨(running { image 7 0 with reserve := [(0, 16)] }).rset Reg.bufSchedCells 0, by decide +kernel⟩, ⟨up.rset Reg.bufCtrl 0, by decide +kernel⟩,
    ⟨up.rset Reg.bufCtrl 1, by decide +kernel⟩, ⟨audited [5] [] 2, by decide +kernel⟩, ⟨audited [] [3] 2, frame 3, by decide +kernel⟩, ⟨audited (List.range 65) [] 2, List.range 65, by decide +kernel⟩⟩

theorem witness_FlowControl_pfc :
    (∃ s : State, s.portDown 0 = false ∧ s.rfld (Reg.bufPortFc 0) 0 2 = 2) ∧
    (∃ s : State, s.portDown 63 = false ∧ 48 ≤ 63) ∧
    (∃ s : State, s.portDown 0 = false ∧ s.rfld (Reg.bufPortFc 0) 0 2 ≠ 2) :=
  ⟨⟨flow 2 (image 7 0), by decide +kernel⟩, ⟨linked, by decide +kernel⟩, ⟨flow 1 (image 7 0), by decide +kernel⟩⟩

theorem witness_PortLinks_quenched :
    (∃ s : State, (s.bport 63).linkUp = true ∧ s.portDown 63 = true) ∧
    (∃ s : State, (s.bport 63).linkUp = false ∧ State.rateAllowed 63 0 = true ∧ s.datapathUp = true ∧ s.quenched (portUnit 63) = true) ∧
    (∃ s : State, (s.bport 63).linkUp = false) :=
  ⟨⟨quenchedAt linked (portUnit 63), by decide +kernel⟩, ⟨quenchedAt up (portUnit 63), by decide +kernel⟩, ⟨up, by decide +kernel⟩⟩

def gateOff (on : Nat) : List (Nat × Nat) := [(1, 1), (1, on), (2, 1023), (2, 256), (1, 3), (1, 0), (4, 1000), (4, 0), (6, 0), (2, 0), (8, 8)]

theorem witness_TrafficCommands_refused :
    (∃ (s : State) (c : Cmd), s.Ready 0 0 0x0400 c ∧ s.datapathUp = true ∧ s.quenched Dom.buffer = false ∧ c.u 0 1 = 64 ∧ c.u 2 1 = 31 ∧
      s.metersLive ((List.range 8).map (fun i => c.u (16 + 2 * i) 2)) = false) ∧
    (∃ (s : State) (c : Cmd), s.Ready 0 0 0x0401 c ∧ c.u 0 2 = 8191 ∧ bit (c.u 2 1) 0 = false ∧ s.policerNamed (c.u 0 2) = false) ∧
    (∃ (s : State) (c : Cmd), s.Ready 0 0 0x0402 c ∧ c.u 0 1 = 0 ∧ c.body.length = 16 ∧ c.u 1 1 = 63 ∧ State.maxRate (c.u 1 1) < c.u 4 4) ∧
    (∃ (s : State) (c : Cmd), s.Ready 0 0 0x0404 c ∧ c.u 0 1 = 0 ∧ c.u 2 2 = 2047 ∧ bit (c.u 1 1) 0 = false ∧
      s.filterAny (fun x => x.recovery == c.u 2 2) = true) ∧
    (∃ (s : State) (c : Cmd), s.Ready 0 0 0x0404 c ∧ c.u 0 1 = 1 ∧ c.u 2 2 = 1023 ∧ bit (c.u 1 1) 0 = false ∧
      s.filterAny (fun x => x.generation == c.u 2 2) = true) ∧
    (∃ (s : State) (c : Cmd), s.Ready 0 0 0x0404 c ∧ c.u 0 1 = 1 ∧ c.u 2 2 = 1023 ∧ bit (c.u 1 1) 0 = true) :=
  ⟨⟨with_ up 0x0400 (queueBody.map fun x => if x.1 = 16 then (16, 5) else x),
      cmdOf 0x0400 (queueBody.map fun x => if x.1 = 16 then (16, 5) else x), ⟨ready _ _ _ _ _ (by decide +kernel), by decide +kernel⟩⟩,
    ⟨with_ up 0x0401 (policerBody 0), cmdOf 0x0401 (policerBody 0), ⟨ready _ _ _ _ _ (by decide +kernel), by decide +kernel⟩⟩,
    ⟨with_ up 0x0402 (cbsBody (2 ^ 32 - 1)), cmdOf 0x0402 (cbsBody (2 ^ 32 - 1)), ⟨ready _ _ _ _ _ (by decide +kernel), by decide +kernel⟩⟩,
    ⟨(with_ up 0x0404 (frerBody 0 0 2047)).setTrf { filters := [(0, streamFilter)] }, cmdOf 0x0404 (frerBody 0 0 2047), ⟨ready _ _ _ _ _ (by decide +kernel), by decide +kernel⟩⟩,
    ⟨(with_ up 0x0404 (frerBody 1 0 1023)).setTrf { filters := [(0, streamFilter)] }, cmdOf 0x0404 (frerBody 1 0 1023), ⟨ready _ _ _ _ _ (by decide +kernel), by decide +kernel⟩⟩,
    ⟨with_ up 0x0404 (frerBody 1 1 1023), cmdOf 0x0404 (frerBody 1 1 1023), ⟨ready _ _ _ _ _ (by decide +kernel), by decide +kernel⟩⟩⟩

def gclOff : List (Nat × Nat) := [(1, 1), (1, 63), (2, 1), (1, 3), (1, 0), (2, 0), (4, 1000), (4, 0), (6, 0), (2, 0), (8, 8), (8, 0)]

theorem witness_StreamFiltersAndLists_clauses :
    (∃ (s : State) (c : Cmd), s.Ready 0 0 0x0402 c ∧ c.u 0 1 = 1 ∧ c.body.length = 40 ∧ 1000 ≤ c.u 8 4 ∧ bit (c.u 5 1) 0 = false) ∧
    (∃ (s : State) (c : Cmd) (es : List GateEntry), s.Ready 0 0 0x0403 c ∧ c.u 0 1 = 1 ∧ c.body.length = 32 ∧ c.u 4 2 = 256 ∧
      bit (c.u 1 1) 0 = true ∧ es = State.listEntries 256 [] ∧ State.listOk (c.u 8 4) es = false) ∧
    (∃ (s : State) (c : Cmd) (es : List GateEntry), s.Ready 0 0 0x0403 c ∧ c.u 0 1 = 1 ∧ bit (c.u 1 1) 0 = true ∧
      es = State.listEntries (c.u 4 2) (entryBytes 1000) ∧ State.listOk (c.u 8 4) es = true ∧ (∀ e ∈ es, e.gates ≤ 1) ∧
      s.poolUsed (c.u 2 2) + c.u 4 2 = 16385) ∧
    (∃ (s : State) (c : Cmd), s.Ready 0 0 0x0403 c ∧ c.u 0 1 = 1 ∧ bit (c.u 1 1) 0 = false ∧
      s.filterAny (fun x => x.gate == c.u 2 2) = true) ∧
    (∃ (s : State) (c : Cmd), s.Ready 0 0 0x0403 c ∧ c.u 0 1 = 1 ∧ bit (c.u 1 1) 0 = false ∧
      s.filterAny (fun x => x.gate == c.u 2 2) = false) ∧
    (∃ (s : State) (l : HostList), s.datapathUp = true ∧ s.quenched Dom.buffer = false ∧ (agetD s.trf.gcl 0 {}).pend = some l ∧
      (agetD s.trf.gcl 0 {}).retained = false ∧ (s.domain l.domain).state ≠ .disabled ∧ s.imageList 0 ≠ none) ∧
    (∃ (s : State) (l : HostList), s.datapathUp = true ∧ (agetD s.trf.gates 1023 {}).cur = some l ∧ (s.domain l.domain).state ≠ .disabled ∧
      (agetD s.trf.gates 1023 {}).rephase = some 5000001000) ∧
    (∃ (s : State) (d : Int), (s.recovery 2047).latentEn = true ∧
      d = ((s.recovery 2047).perDup : Int) - ((s.recovery 2047).perPassed * ((s.recovery 2047).latentPaths - 1) : Nat) ∧
      (s.recovery 2047).latentDiff < d.natAbs) :=
  ⟨⟨with_ up 0x0402 gclOff, cmdOf 0x0402 gclOff, ⟨ready _ _ _ _ _ (by decide +kernel), by decide +kernel⟩⟩,
    ⟨with_ up 0x0403 (gateOff 1), cmdOf 0x0403 (gateOff 1), _, ready _ _ _ _ _ (by decide +kernel), by decide +kernel, by decide +kernel,
      by decide +kernel, by decide +kernel, rfl, by decide +kernel⟩,
    ⟨(with_ up 0x0403 sgBody).setTrf { gates := [(0, { cur := some { hostGate with entries := List.replicate 16384 ⟨1, 1, 0⟩ } })] }, cmdOf 0x0403 sgBody,
      [⟨1000, 0, 0⟩], ⟨ready _ _ _ _ _ (by decide +kernel), by decide +kernel⟩⟩,
    ⟨(with_ up 0x0403 (gateOff 0)).setTrf { filters := [(0, streamFilter)] }, cmdOf 0x0403 (gateOff 0), ⟨ready _ _ _ _ _ (by decide +kernel), by decide +kernel⟩⟩,
    ⟨with_ up 0x0403 (gateOff 0), cmdOf 0x0403 (gateOff 0), ⟨ready _ _ _ _ _ (by decide +kernel), by decide +kernel⟩⟩,
    ⟨{ running { image 7 0 with gates := [⟨0, 3, 1000000, [⟨1000000, 255, 0⟩]⟩] } with trf := { gcl := [(0, { pend := some hostGate })] } }, hostGate, by decide +kernel⟩,
    ⟨timed.setTrf { gates := [(1023, { cur := some hostGate, rephase := some 5000001000 })] }, hostGate, by decide +kernel⟩,
    ⟨up.setTrf { recov := [(2047, { enabled := true, latentEn := true, latentPaths := 2, latentDiff := 0, perDup := 1 })] }, _,
      by decide +kernel, rfl, by decide +kernel⟩⟩

/-! ### More witnesses: edge buses -/

theorem witness_CanTraffic_clauses :
    (∃ (s : State) (f : CanFrame) (x : CanFilter), s.canHears 63 = true ∧ State.canFormatOn (s.canCh 63).cfg f.format = true ∧
      f.format ≠ .xl ∧ (s.canCh 63).cfg.filters.find? (fun x => State.filterHits x f) = some x ∧ bit (le x 0 1) 1 = false ∧
      (s.canCh 63).pn = true ∧ bit (le x 0 1) 3 = true) ∧
    (∃ (s : State) (f : CanFrame), s.canHears 63 = true ∧ State.canFormatOn (s.canCh 63).cfg f.format = true ∧ f.format = .xl ∧
      (s.canCh 63).cfg.xlLimit < f.data.length ∧ (s.canCh 63).pn = false) ∧
    (∃ (s : State) (f : CanFrame), s.canHears 63 = true ∧ State.canFormatOn (s.canCh 63).cfg f.format = false ∧
      (s.canCh 63).cfg.pexEn = false) ∧
    (∃ (s : State) (x : TxItem), s.canOffer 63 = some (.fifo, x) ∧ (s.canCh 63).tec = 255 ∧ (s.canCh 63).rec_ = 128) ∧
    (∃ (s : State) (x : TxItem) (b : Nat), s.canOffer 63 = some (.buffer b, x) ∧ aget (s.canCh 63).held b = none ∧ x.single = false) :=
  ⟨⟨bus { state := .errorActive, pn := true, cfg := { filters := [anyFilter 9] } }, canFrame .classicData 8, anyFilter 9, by decide +kernel⟩,
    ⟨bus { state := .errorActive, cfg := { xlEn := true, xlLimit := 2047 } }, canFrame .xl 2048, by decide +kernel⟩,
    ⟨bus { state := .errorActive }, canFrame .fd 1, by decide +kernel⟩,
    ⟨bus { state := .errorPassive, tec := 255, rec_ := 128, fifo := [txItem] }, txItem, by decide +kernel⟩,
    ⟨bus { state := .errorActive, bufs := [(0, txItem)] }, txItem, 0, by decide +kernel⟩⟩

def modeLate : List (Nat × Nat) := [(1, 0), (1, 1), (6, 0), (8, 1), (4, 0), (4, 0)]

def configured (cfg : CanCfg) (op : Nat) (f : List (Nat × Nat)) : State := { with_ up op f with edg := { can := [(0, { cfg := cfg }), (63, { cfg := cfg })] } }

theorem witness_EdgeConfiguration_clauses :
    (∃ (s : State) (c : Cmd), s.Ready 0 0 0x0502 c ∧ c.u 0 1 = 15 ∧ s.namesPort 63 = false ∧ c.u 3 1 = 17) ∧
    (∃ (s : State) (c : Cmd), s.Ready 0 0 0x0502 c ∧ c.u 0 1 = 15 ∧ (s.t1sCh 15).cfg.enable = true) ∧
    (∃ (s : State) (c : Cmd), s.Ready 0 0 0x0500 c ∧ (s.canCh 63).state = .errorActive ∧ State.canTiming (State.canCfgOf c []) = true) ∧
    (∃ (s : State) (c : Cmd), s.Ready 0 0 0x0503 c ∧ c.u 0 1 = 0 ∧ bit (c.u 1 1) 0 = true ∧ c.u 16 4 = 0 ∧ State.xcvrNamed c = [0] ∧
      s.quenched (busUnit 0) = false ∧ s.chEnabled 0 = true) ∧
    (∃ s : State, (s.linCh 31).newMode = some .sleep ∧ s.quenched (busUnit 95) = false) :=
  ⟨⟨with_ up 0x0502 (t1sBody 17), cmdOf 0x0502 (t1sBody 17), ⟨ready _ _ _ _ _ (by decide +kernel), by decide +kernel⟩⟩,
    ⟨(with_ up 0x0502 (t1sBody 16)).setEdg { t1s := [(15, { cfg := { enable := true } })] }, cmdOf 0x0502 (t1sBody 16), ⟨ready _ _ _ _ _ (by decide +kernel), by decide +kernel⟩⟩,
    ⟨{ with_ up 0x0500 (canBody 1 0x10103F01) with edg := { can := [(63, { state := .errorActive })] } }, cmdOf 0x0500 (canBody 1 0x10103F01), ⟨ready _ _ _ _ _ (by decide +kernel), by decide +kernel⟩⟩,
    ⟨configured { enable := true } 0x0503 modeLate, cmdOf 0x0503 modeLate, ⟨ready _ _ _ _ _ (by decide +kernel), by decide +kernel⟩⟩,
    ⟨up.setEdg { lin := [(31, { newMode := some .sleep })] }, by decide +kernel⟩⟩

def slots (ch kind off window : Nat) : State := running { image 7 0 with slots := [⟨ch, kind, 23, off, window⟩] }

/-- An open slot on a channel with a frame in its buffer, at a smith and at a sharing that shares the channel. -/
def slotOn (o : OpenSlot) (p : Pair) : State :=
  { up with cal := { openSlots := [o] }, pair := p, edg := { can := [(63, { bufs := [(23, txItem)] })] } }

def sharing : Pair := { role := .striker, cfg := leBytes 16 0 ++ leBytes 8 (2 ^ 63) ++ leBytes 8 0 }

theorem witness_LinAndSegments_clauses :
    (∃ (s u : State) (i : Image) (e : EdgeSlot) (late : Nat), s.runningImage = some i ∧ i.slots[0]? = some e ∧
      s.calReach i e.off = some (u, late) ∧ e.window < late) ∧
    (∃ (s u : State) (i : Image) (e : EdgeSlot) (late : Nat), s.runningImage = some i ∧ i.slots[0]? = some e ∧
      s.calReach i e.off = some (u, late) ∧ late ≤ e.window ∧ e.kind = 1 ∧ e.ch < 64) ∧
    (∃ (s u : State) (i : Image) (e : EdgeSlot) (late : Nat), s.runningImage = some i ∧ i.slots[0]? = some e ∧
      s.calReach i e.off = some (u, late) ∧ late ≤ e.window ∧ 64 ≤ e.ch) ∧
    (∃ s : State, s.runningImage = none ∧ (s.cal.openSlots.find? fun o => o.slot == 0) = none) ∧
    (∃ (s : State) (o : OpenSlot), s.cal.openSlots.find? (fun o => o.slot == 0) = some o ∧ o.begun = false ∧ o.kind = 1 ∧ o.frame = none) ∧
    (∃ (s : State) (o : OpenSlot), s.cal.openSlots.find? (fun o => o.slot == 0) = some o ∧ o.done = false ∧ o.begun = true ∧ o.kind = 0) ∧
    (∃ (s : State) (o : OpenSlot), s.cal.openSlots.find? (fun o => o.slot == 0) = some o ∧ o.done = false ∧ o.begun = false ∧ o.kind = 0 ∧
      (decide (o.ch < 64) && (aget (s.canCh o.ch).bufs o.index).isNone) = false ∧ (s.strikerNow && s.sharedCh o.ch) = false) ∧
    (∃ (s : State) (o : OpenSlot), s.cal.openSlots.find? (fun o => o.slot == 0) = some o ∧ o.begun = false ∧
      (s.strikerNow && s.sharedCh o.ch) = true) :=
  ⟨⟨{ slots 63 0 0 1000 with dom := [(0, { state := .locked, value := 5000001001 * 2 ^ 32 })] }, _, { image 7 0 with slots := [⟨63, 0, 23, 0, 1000⟩] },
      ⟨63, 0, 23, 0, 1000⟩, 1001, by decide +kernel, by decide +kernel, rfl, by decide +kernel⟩,
    ⟨slots 63 1 0 1000, _, { image 7 0 with slots := [⟨63, 1, 23, 0, 1000⟩] }, ⟨63, 1, 23, 0, 1000⟩, 0, by decide +kernel, by decide +kernel, rfl,
      by decide +kernel⟩,
    ⟨slots 95 0 0 1000, _, { image 7 0 with slots := [⟨95, 0, 23, 0, 1000⟩] }, ⟨95, 0, 23, 0, 1000⟩, 0, by decide +kernel, by decide +kernel, rfl,
      by decide +kernel⟩, ⟨up, by decide +kernel⟩,
    ⟨slotOn ⟨0, 7, 63, 1, 23, 5000001000, none, false, false⟩ {}, ⟨0, 7, 63, 1, 23, 5000001000, none, false, false⟩, by decide +kernel⟩,
    ⟨slotOn ⟨0, 7, 63, 0, 23, 5000001000, none, true, false⟩ {}, ⟨0, 7, 63, 0, 23, 5000001000, none, true, false⟩, by decide +kernel⟩,
    ⟨slotOn ⟨0, 7, 63, 0, 23, 5000001000, none, false, false⟩ {}, ⟨0, 7, 63, 0, 23, 5000001000, none, false, false⟩, by decide +kernel⟩,
    ⟨slotOn ⟨0, 7, 63, 0, 23, 5000001000, none, false, false⟩ sharing, ⟨0, 7, 63, 0, 23, 5000001000, none, false, false⟩, by decide +kernel⟩⟩

/-! ### More witnesses: tunnels and the signal router -/

def decapping (ctrl : Word) (x : FDomain) : State :=
  { (fromX (etherFrame [0x22, 0xF0] 9)).rset Reg.tunCtrl ctrl with fnc := { doms := [(tunUnit 511, x)] } }

theorem noOutbox (s : State) (h : s.sig.seqs = []) : ∀ k, (s.seqOf k).outbox = [] := by
  intro k; simp [State.seqOf, h, agetD, aget]

theorem noClosed (s : State) (h : s.tun.ch = []) : ∀ k, (s.tunCh k).closed = none := by
  intro k; simp [State.tunCh, h, agetD, aget]

theorem witness_TunnelEngine_clauses :
    (∃ (s u : State) (x : RxItem) (b : BusMapEntry), s.tunRuns 511 = true ∧ State.rxFirst (s.rxFor 511) = some (63, x) ∧
      u = s.rxTake 63 x.seq (fun y => { y with tunnels := y.tunnels.filter (· ≠ 511) }) ∧
      (s.tunCh 511).busMap.find? (fun b => bit b.flags 0 && b.edge == 63) = some b ∧
      (s.tunCh 511).maxBytes < (u.acfOf 63 b.bus x.frame (x.doms.getD (s.tunCh 511).domain 0)).length) ∧
    (∃ s : State, s.tunRuns 511 = true ∧ s.hasWindow 511 = false ∧ (s.tunCh 511).batch = []) ∧
    (∃ (s : State) (f : XFrame), s.datapathUp = true ∧ s.quenched Dom.services = false ∧ s.quenched (State.pipeDom 1) = false ∧
      s.tun.x1 = f :: [f] ∧ s.standbyDiscards f = false ∧ (∀ k, (s.tunCh k).closed = none) ∧ (∀ k, (s.seqOf k).outbox = [])) ∧
    (∃ (s : State) (f : XFrame), s.quenched Dom.services = false ∧ s.quenched (State.pipeDom 1) = false ∧ s.tun.x1 = [f] ∧
      s.standbyDiscards f = true ∧ (∀ k, (s.tunCh k).closed = none) ∧ (∀ k, (s.seqOf k).outbox = [])) ∧
    (∃ (s : State) (f : List Byte), s.quenched Dom.services = false ∧ s.tun.in1 = [f] ∧ (parse f).etherType ≠ 0x22F0) ∧
    (∃ (s : State) (f : List Byte) (t : TunCh), s.tun.in0 = [f] ∧
      (s.tun.ch.find? fun (y : Nat × TunCh) => bit y.2.flags 0 && bit y.2.flags 1 && y.2.stream == be (f.drop (parse f).l3) 4 8) =
        some (511, t) ∧ s.quenched (tunUnit 511) = true) ∧
    (∃ (s : State) (f : List Byte) (t : TunCh), s.tun.in0 = [f] ∧
      (s.tun.ch.find? fun (y : Nat × TunCh) => bit y.2.flags 0 && bit y.2.flags 1 && y.2.stream == be (f.drop (parse f).l3) 4 8) =
        some (511, t) ∧ s.quenched (tunUnit 511) = false ∧ s.rfld Reg.tunCtrl 1 1 = 0) ∧
    (∃ s : State, s.tunRuns 511 = true ∧ (s.tunCh 511).pres = [([], 5000001000), ([], 5000002000)] ∧
      (s.waitUntil 5000001000).clk < 5000002000) :=
  ⟨⟨tunnels 511 { encap [busEntry] with maxBytes := 8 }, _, rxItem 511, busEntry, by decide +kernel, by decide +kernel, rfl, by decide +kernel,
      by decide +kernel⟩,
    ⟨tunnels 511 (encap []), by decide +kernel⟩,
    ⟨up.setTun { x1 := [xFrame, xFrame] }, xFrame, by decide +kernel, by decide +kernel, by decide +kernel, by decide +kernel, by decide +kernel,
      noClosed _ rfl, noOutbox _ rfl⟩,
    ⟨{ up with tun := { x1 := [{ xFrame with origin := 512 }] }, pair := { role := .striker } }, { xFrame with origin := 512 }, by decide +kernel,
      by decide +kernel, by decide +kernel, by decide +kernel, noClosed _ rfl, noOutbox _ rfl⟩,
    ⟨up.setTun { in1 := [etherFrame [0x08, 0x00] 9] }, etherFrame [0x08, 0x00] 9, by decide +kernel⟩,
    ⟨decapping 3 { state := .quenched }, etherFrame [0x22, 0xF0] 9,
      { flags := 3, stream := be ((etherFrame [0x22, 0xF0] 9).drop (parse (etherFrame [0x22, 0xF0] 9)).l3) 4 8, busMap := [busEntry] }, by decide +kernel⟩,
    ⟨decapping 1 {}, etherFrame [0x22, 0xF0] 9,
      { flags := 3, stream := be ((etherFrame [0x22, 0xF0] 9).drop (parse (etherFrame [0x22, 0xF0] 9)).l3) 4 8, busMap := [busEntry] }, by decide +kernel⟩,
    ⟨tunnels 511 { flags := 3, pres := [([], 5000001000), ([], 5000002000)] }, by decide +kernel⟩⟩

def ctxReset : List (Nat × Nat) := [(2, 1023), (1, 5), (1, 7), (4, 0), (1, 4), (1, 4), (2, 15), (2, 0), (2, 64), (2, 0)]

theorem witness_SignalRouter_clauses :
    (∃ (s : State) (i : Image) (e : RouterJob), s.runningImage = some i ∧ i.jobs[0]? = some e ∧ e.seq = 3 ∧
      State.jobPending (s.seqOf 3) e.job = true) ∧
    (∃ s : State, s.datapathUp = true ∧ s.runningImage = none) ∧
    (∃ (s : State) (a : Arrival) (p : SrcPdu), s.sigRuns 3 = true ∧ (s.seqOf 3).calJobs = [] ∧ (s.seqOf 3).jobs = [] ∧
      (s.seqOf 3).arrivals = [a] ∧ a.item = none ∧ s.pduOf 3 a = some p ∧ p.e2e = 0xFFFF ∧ p.mapCount = 0 ∧ p.trigger = 5) ∧
    (∃ s : State, s.sigRuns 3 = true ∧ (s.seqOf 3).calJobs = [(5, 5000000000, 4999000000)] ∧ ¬5000000000 < s.clk) ∧
    (∃ s : State, s.datapathUp = true ∧ s.sigRuns 3 = true ∧ (s.seqOf 3).calJobs = [(5, 5000001000, 4999000000)] ∧
      1 < (agetD s.sig.jobs 5 (0, 0)).2 ∧ s.clk ≤ 5000001000) ∧
    (∃ (s : State) (m : Mapping), aget s.sig.maps 16383 = some m ∧ m.timeout ≠ 0 ∧ m.stale = false ∧ bit m.flags 4 = true) ∧
    (∃ (s : State) (c : Cmd), s.Ready 0 0 0x0602 c ∧ c.u 9 1 = 4 ∧ c.u 10 2 = 15 ∧ bit (c.u 2 1) 2 = true) :=
  ⟨⟨(running withJob).setSig { seqs := [(3, { calJobs := [(5, 5000001000, 4999000000)] })] }, withJob, ⟨3, 5, 999999, 1000⟩, by decide +kernel⟩, ⟨up, by decide +kernel⟩,
    ⟨(router {}).setSig { seqs := [(3, { arrivals := [arrival 7] })], pdus := [(3072, pdu 5)] }, arrival 7, pdu 5, by decide +kernel⟩,
    ⟨router { calJobs := [(5, 5000000000, 4999000000)] }, by decide +kernel⟩, ⟨router { calJobs := [(5, 5000001000, 4999000000)] }, by decide +kernel⟩,
    ⟨up.setSig { maps := [(16383, { mapping with flags := 16 })] }, { mapping with flags := 16 }, by decide +kernel⟩,
    ⟨with_ up 0x0602 ctxReset, cmdOf 0x0602 ctxReset, ⟨ready _ _ _ _ _ (by decide +kernel), by decide +kernel⟩⟩⟩

/-! ### More witnesses: keys, pair, containment and service -/

def deriveDeep : List (Nat × Nat) := [(2, 0), (2, 1007), (1, 0), (1, 0), (2, 256), (1, 0), (1, 1), (6, 0), (32, 0), (16, 0)]

theorem witness_KeyStore_clauses :
    (∃ s : State, s.forgeUp = false ∧ s.pwr.state = .banked ∧ 3 % 16 ≠ 0) ∧
    (∃ s : State, s.forgeUp = false ∧ s.pwr.state ≠ .off ∧ s.pwr.state ≠ .banked) ∧
    (∃ (s : State) (c : Cmd) (b : LifeCycle), s.Ready 0 0 0x0705 c ∧ s.key.asserted = 0 ∧ State.lcOf (c.u 1 1) = some b ∧
      State.lcStep s.key.inForce b = true ∧ b ≠ .service) ∧
    (∃ (s : State) (c : Cmd), s.Ready 0 0 0x0702 c ∧ State.isRebuild c = false ∧ c.u 9 1 = 1 ∧ s.key.asserted = 0 ∧ s.rootUsable = true ∧
      8 < s.levelBelow (some 1007)) :=
  ⟨⟨powered { state := .banked, released := false }, by decide +kernel⟩, ⟨powered { state := .ember, released := false }, by decide +kernel⟩,
    ⟨storeOf bare 0x0705 (advance 2 4), cmdOf 0x0705 (advance 2 4), .retired, ⟨ready _ _ _ _ _ (by decide +kernel), by decide +kernel⟩⟩,
    ⟨storeOf { keyed 1007 0x20 2 key32 with slots := [(1007, { state := .loaded, key := key32, bits := 256, usage := 0x20, dest := 2, level := 8 })] } 0x0702
        deriveDeep, cmdOf 0x0702 deriveDeep, ⟨ready _ _ _ _ _ (by decide +kernel), by decide +kernel⟩⟩⟩

theorem witness_Pair_clauses :
    (∃ s : State, s.datapathUp = true ∧ s.pair.role = .striker ∧ s.quenched (portUnit 64) = false ∧ s.pair.linkState = 4) ∧
    (∃ s : State, s.datapathUp = true ∧ s.pair.role = .smith ∧ s.quenched (portUnit 64) = false ∧ s.pair.linkState = 4) ∧
    (∃ s : State, s.datapathUp = true ∧ s.pair.role = .striker ∧ s.quenched (portUnit 64) = false ∧ 2 ≤ s.pair.linkState ∧ s.pair.linkState ≠ 4) ∧
    (∃ s u : State, s.pairUp = true ∧ u = s.waitUntil (s.pair.clashAt + 100000) ∧ u.clashNow = false ∧ s.pair.clashes ≠ 1) ∧
    (∃ s u : State, s.pairUp = true ∧ u = s.waitUntil (s.pair.clashAt + 100000) ∧ u.clashNow = true ∧ s.pair.clashes ≠ 1) ∧
    (∃ s : State, s.pairUp = true ∧ s.pair.handover = some 0 ∧ 2 ≤ s.pair.linkState) ∧
    (∃ s : State, s.pairUp = true ∧ s.pair.alive = true ∧ s.pair.role = .striker ∧ s.pair.linkAtBeat ≠ 4) ∧
    (∃ (s : State) (c : Cmd), s.Ready 0 0 0x0A01 c ∧ s.pair.role = .smith ∧ c.u 0 1 = 2 ∧ bit (c.u 1 1) 0 = false ∧ s.pair.linkState = 3) := by
  refine ⟨⟨paired { role := .striker, linkState := 4 }, by decide +kernel⟩, ⟨paired { role := .smith, linkState := 4 }, by decide +kernel⟩,
    ⟨paired { role := .striker, linkState := 3 }, by decide +kernel⟩, ⟨paired { role := .smith }, _, by decide +kernel, rfl, by decide +kernel⟩,
    ⟨(clashing true false ⟨0, Config.forgeId.toNat, 1, 5, 1, 2⟩).pairMod fun p => { p with clashes := 0 }, _, by decide +kernel, rfl, ?_, by decide +kernel⟩,
    ⟨paired { role := .smith, linkState := 2, handover := some 0 }, by decide +kernel⟩, ⟨paired { role := .striker, alive := true, linkAtBeat := 3 }, by decide +kernel⟩,
    ⟨pairedCmd { role := .smith, linkState := 3 } 0x0A01 [(1, 2), (23, 0)], cmdOf 0x0A01 [(1, 2), (23, 0)], ⟨ready _ _ _ _ _ (by decide +kernel), by decide +kernel⟩⟩⟩
  refine clash_now _ Config.forgeId.toNat ?_ rfl rfl
  have e : (((clashing true false ⟨0, Config.forgeId.toNat, 1, 5, 1, 2⟩).pairMod fun p => { p with clashes := 0 }).waitUntil 100000).clk = 5000000000 := by
    unfold State.waitUntil State.tick
    split
    · rfl
    · split <;> simp [show ((clashing true false ⟨0, Config.forgeId.toNat, 1, 5, 1, 2⟩).pairMod fun p => { p with clashes := 0 }).clk = 5000000000 from rfl]
  have z : (((clashing true false ⟨0, Config.forgeId.toNat, 1, 5, 1, 2⟩).pairMod fun p => { p with clashes := 0 }).waitUntil 100000).pair.zoneVotes =
      [(0, (⟨0, Config.forgeId.toNat, 1, 5, 1, 2⟩, 5000000000))] := by
    rw [State.waitUntil_pair]; rfl
  show State.votes _ = _
  unfold State.votes
  erw [e, z]
  simp

theorem witness_FaultContainment_clauses :
    (∃ (s : State) (d : Nat), domainExists d = true ∧ s.forgeUp = false) ∧
    (∃ (s : State) (c : Cmd), s.Ready 0 0 0x0B01 c ∧ c.u 2 2 = 0xFFFF - c.u 0 2 ∧ domainExists (c.u 0 2) = true ∧ s.quenched (c.u 0 2) = true ∧
      ((ancestors (c.u 0 2)).any s.quenched) = true) ∧
    (∃ (s : State) (c : Cmd), s.Ready 0 0 0x0B01 c ∧ c.u 2 2 = 0xFFFF - c.u 0 2 ∧ s.quenched (c.u 0 2) = true ∧
      ((ancestors (c.u 0 2)).any s.quenched) = false ∧ (s.fdom (c.u 0 2)).state = .recovering ∧ (s.fdom (c.u 0 2)).byCommand = true) ∧
    (∃ (s : State) (c : Cmd), s.Ready 0 0 0x0B01 c ∧ c.u 0 2 = 24 ∧ c.u 2 2 = 0xFFFF - 24 ∧ s.quenched 24 = true ∧ ((ancestors 24).any s.quenched) = false ∧
      (s.fdom 24).state = .quenched) ∧
    (∃ (s : State) (c : Cmd), s.Ready 2 0 0x0B02 c ∧ s.datapathUp = true ∧ c.host = 2 ∧ s.quenched Dom.memory = false ∧ c.u 0 1 = 67 ∧
      c.u 8 4 = 4096 ∧ s.fnc.capture = none ∧ c.u 4 4 ≠ 0) ∧
    (∃ (s : State) (c : Cmd), s.Ready 0 0 0x0B00 c ∧ c.u 0 2 = 25) ∧
    (∃ (s : State) (d : Nat), (s.fdom d).state = .quenched ∧ (s.fdom d).waits = false ∧ s.forgeUp = true ∧ s.fenceManual d = true) :=
  ⟨⟨powered { state := .banked, released := false }, 24, by decide +kernel⟩,
    ⟨(with_ up 0x0B01 (releaseBody 24 0)).setFnc { doms := [(4, { state := .quenched, own := true }), (24, { state := .quenched, own := true })] },
      cmdOf 0x0B01 (releaseBody 24 0), ⟨ready _ _ _ _ _ (by decide +kernel), by decide +kernel⟩⟩,
    ⟨fencedCmd 24 { state := .recovering, own := true, byCommand := true } 0x0B01 (releaseBody 24 0), cmdOf 0x0B01 (releaseBody 24 0), ⟨ready _ _ _ _ _ (by decide +kernel), by decide +kernel⟩⟩,
    ⟨fencedCmd 24 { state := .quenched, own := true } 0x0B01 (releaseBody 24 0), cmdOf 0x0B01 (releaseBody 24 0), ⟨ready _ _ _ _ _ (by decide +kernel), by decide +kernel⟩⟩,
    ⟨up.setMbx { cmds := [{ cmdOf 0x0B02 (captureBody 1 4096) with host := 2 }] }, { cmdOf 0x0B02 (captureBody 1 4096) with host := 2 }, ⟨ready _ _ _ _ _ (by decide +kernel), by decide +kernel⟩⟩,
    ⟨with_ up 0x0B00 [(2, 25), (22, 0)], cmdOf 0x0B00 [(2, 25), (22, 0)], ⟨ready _ _ _ _ _ (by decide +kernel), by decide +kernel⟩⟩,
    ⟨(fenced 24 { state := .quenched, own := true }).rset Reg.fncManual (BitVec.ofNat 32 (2 ^ 24)), 24, by decide +kernel⟩⟩

/-- A session with its two keys loaded. -/
def secureKeys : Key :=
  { slots := [(1009, { state := .loaded, key := List.replicate 16 1, bits := 128, usage := 8, dest := 8, level := 1 }),
      (1010, { state := .loaded, key := List.replicate 16 2, bits := 128, usage := 2, dest := 16, level := 1 })] }

def enciphered (x : Session) : State := { up with boot := { session := some x }, key := secureKeys }

def secureSession : Session := { session true with secured := true }

theorem witness_ServiceSession_clauses :
    (∃ (s : State) (x : Session) (tag : List Byte), s.s0Up = true ∧ s.boot.session = some x ∧ s.svcFrameOk x 6 1 1 0 [0, 0, 0, 0] tag = true ∧
      s.dataPlain x 0 true [0, 0, 0, 0] = none) ∧
    (∃ (s : State) (x : Session) (tag p : List Byte), s.s0Up = true ∧ s.boot.session = some x ∧ s.svcFrameOk x 6 1 1 0 [0, 0, 0, 0] tag = true ∧
      s.dataPlain x 0 true [0, 0, 0, 0] = some p ∧ 4 ≤ p.length) ∧
    (∃ (s : State) (x : Session), s.s0Up = true ∧ s.boot.session = some x ∧ x.open_ = false ∧ s.boot.mode ≠ 2 ∧ s.key.asserted = 0 ∧
      s.quenched Dom.keyStore = false ∧ s.quenched Dom.security = false ∧ s.svcKey = some (1007, key32)) ∧
    (∃ s : State, s.s0Up = true ∧ s.boot.session = none) ∧
    (∃ (s : State) (t : Nat), s.s0Up = true ∧ s.boot.lockoutAt = some t) :=
  ⟨⟨serving (some (session true)), session true, [], by decide +kernel⟩,
    ⟨enciphered secureSession, secureSession, Crypto.cmac (List.replicate 16 1)
        (leBytes 1 6 ++ leBytes 1 1 ++ leBytes 2 4 ++ leBytes 4 1 ++ leBytes 4 0 ++ [0, 0, 0, 0]), _, by decide +kernel, rfl, by decide +kernel, rfl,
      by decide +kernel⟩,
    ⟨serving (some (session false)), session false, by decide +kernel⟩, ⟨serving none, by decide +kernel⟩, ⟨up.setBoot { lockoutAt := some 5000000001 }, 5000000001, by decide +kernel⟩⟩

theorem witness_UpdateAndConfirmation_clauses :
    (∃ (s : State) (c : Cmd), s.Ready 0 0 0x0C00 c ∧ s.boot.update = none ∧ c.u 0 1 = 0) ∧
    (∃ (s : State) (c : Cmd) (u : Update), s.Ready 0 0 0x0C03 c ∧ bit (c.u 1 1) 0 = false ∧ s.boot.update = some u ∧ u.kind = c.u 0 1 ∧
      u.verified = false) ∧
    (∃ (s : State) (c : Cmd), s.Ready 0 0 0x0C03 c ∧ bit (c.u 1 1) 0 = true ∧ c.u 0 1 = 1 ∧ s.boot.mode = 1 ∧ bit s.boot.desc.trial 0 = false) :=
  ⟨⟨updating none [] 0x0C00 (openBody 0 4), cmdOf 0x0C00 (openBody 0 4), ⟨ready _ _ _ _ _ (by decide +kernel), by decide +kernel⟩⟩,
    ⟨updating (some (update 3 4 [leBytes 4 0] false)) [] 0x0C03 (activateBody 3 0), cmdOf 0x0C03 (activateBody 3 0),
      update 3 4 [leBytes 4 0] false, ⟨ready _ _ _ _ _ (by decide +kernel), by decide +kernel⟩⟩,
    ⟨trial 0 0x0C03 (activateBody 1 1), cmdOf 0x0C03 (activateBody 1 1), ⟨ready _ _ _ _ _ (by decide +kernel), by decide +kernel⟩⟩⟩

end Sys2Proof.Tests
end

section
/-! What every command changes at most: each row of the opcode table runs one operation of the model, whose frame
stands under Laws/; its groups lie in those that `frameMask` names for the row. -/

namespace Sys2Proof.Machine

/-! ### The operations that the rows share -/

namespace Only

variable {M : Nat} {s t : State} {host q op : Nat} {f : Cmd → State → State.Exec}

theorem left_within (m M : Nat) : m ||| (m ||| M) = m ||| M := by rw [← Nat.or_assoc, Nat.or_self]

theorem right_within (m M : Nat) : M ||| (m ||| M) = m ||| M := by rw [Nat.or_left_comm, Nat.or_self]

/-- A mailbox command changes what every one of them touches and the groups of its execution. -/
theorem runCmd_exec (hf : ∀ c, ExecOnly M s (f c s)) : Only (Group.cmd ||| M) s (s.runCmd host q op f) :=
  Only.runCmd (left_within ..) fun c => (hf c).mono (right_within ..)

theorem runDma_exec {addr len : Cmd → Nat} (hf : ∀ c, ExecOnly M s (f c s)) :
    Only (Group.cmd ||| M) s (s.runDma host q op addr len f) :=
  Only.runDma (left_within ..) fun c => (hf c).mono (right_within ..)

theorem runMacsec_exec (hf : ∀ c, ExecOnly M s (f c s)) : Only (Group.cmd ||| M) s (s.runMacsec host q op f) :=
  Only.runMacsec (left_within ..) fun c => (hf c).mono (right_within ..)

theorem runDerive_exec {rebuild : Bool} (hf : ∀ c, ExecOnly M s (f c s)) :
    Only (Group.cmd ||| M) s (s.runDerive host q rebuild f) :=
  Only.runDerive (left_within ..) fun c => (hf c).mono (right_within ..)

/-- An operation that the cold restart of R559 may follow. -/
theorem restart (h : Only M s t) : Only (Group.all ||| M) s t.restartIfDue :=
  (h.mono (right_within ..)).restartIfDue (left_within ..)

end Only

/-! ### Row by row -/

/-- An outcome is a next state, and in it no more than the groups in `m` have changed. -/
def Completes (m : Nat) (s : State) (o : Host.Outcome State Fault Refusal) : Prop :=
  ∃ t, o = .next t ∧ Only m s t

/-- An operation whose groups lie in those of a row. For a given row `frameMask` is a number, and the inclusion is
computed. -/
theorem Completes.of_only {m M : Nat} {s t : State} (h : Only M s t)
    (within : M ||| m = m := by dsimp only [frameMask]; rfl) : Completes m s (.next t) :=
  ⟨t, rfl, h.mono within⟩

/-- Every command completes within its groups: each row cites the frame of the operation that it runs. -/
theorem exec_completes (s : State) : ∀ i : Instr, Completes (frameMask i) s (exec i s)
  -- host bridge
  | .registerWrite .. => .of_only (Only.doRegisterWrite0 s ..)
  | .guardedValueWrite .. => .of_only (Only.hostPost0 s ..)
  | .guardedComplementWrite .. => .of_only (Only.hostPost0 s ..)
  | .guardWindowExpiry .. => .of_only (Only.doGuardWindowExpiry0 s ..)
  | .bitAliasWrite .. => .of_only (Only.hostPost0 s ..)
  | .atomicOp .. => .of_only (Only.doAtomicOp0 s ..)
  | .functionLevelReset => .of_only (Only.pcieReset0 s ..)
  | .hotReset => .of_only (Only.pcieReset0 s ..)
  | .pcieLinkDown => .of_only (Only.pcieReset0 s ..)
  | .pciePerst => .of_only (Only.pcieReset0 s ..)
  | .irqHoldoffExpiry .. => .of_only (Only.doIrqHoldoffExpiry0 s ..)
  | .msixPendingSend .. => .of_only (Only.doMsixPendingSend0 s ..)
  | .spiRead .. => .of_only (Only.doSpiRead0 s ..)
  | .spiWrite .. => .of_only (Only.doSpiWrite0 s ..)
  | .spiGuardedWrite .. => .of_only (Only.doSpiGuardedWrite0 s ..)
  | .spiStatus => .of_only (Only.doSpiStatus0 s ..)
  | .spiUnknownInstruction .. => .of_only (Only.doSpiUnknownInstruction0 s ..)
  | .spiCsCutShort => .of_only (Only.doSpiCsCutShort0 s ..)
  | .parityScrub .. => .of_only (Only.restart (Only.doParityScrub0 s ..))
  | .evqConsWrite .. => .of_only (Only.hostPost0 s ..)
  | .rxRingDeliver .. => .of_only (Only.doRxRingDeliver0 s ..)
  | .rxRingConsWrite .. => .of_only (Only.hostPost0 s ..)
  | .txRingProdWrite .. => .of_only (Only.hostPost0 s ..)
  | .txRecordFetch .. => .of_only (Only.doTxRecordFetch0 s ..)
  | .tsqCtrlWrite .. => .of_only (Only.hostPost0 s ..)
  | .tsqConsWrite .. => .of_only (Only.hostPost0 s ..)
  | .evqConfig .. => .of_only (Only.runCmd_exec (ExecOnly.evqConfig0 · s))
  | .ringConfig .. => .of_only (Only.runCmd_exec (ExecOnly.ringConfig0 · s))
  | .devHeartbeatTick => .of_only (Only.doDevHeartbeatTick0 s ..)
  -- mailbox and journal
  | .mbxDoorbell .. => .of_only (Only.postReg0 s ..)
  | .slotTake .. => .of_only (Only.doSlotTake0 s ..)
  | .mbxCqConsWrite .. => .of_only (Only.postReg0 s ..)
  | .mbxQueueEnable .. => .of_only (Only.postReg0 s ..)
  | .mbxQueueDisable .. => .of_only (Only.postReg0 s ..)
  | .journalPersist .. => .of_only (Only.doJournalPersist0 s ..)
  | .flashSectorEraseDone => .of_only (Only.doFlashSectorEraseDone0 s ..)
  | .mirrorAck .. => .of_only (Only.doMirrorAck0 s ..)
  | .mirrorAckTimeout .. => .of_only (Only.doMirrorAckTimeout0 s ..)
  | .completionRelease .. => .of_only (Only.doCompletionRelease0 s ..)
  | .devInfo .. => .of_only (Only.runCmd_exec (ExecOnly.devInfo0 · s))
  | .devStateGet .. => .of_only (Only.runCmd_exec (ExecOnly.devStateGet0 · s))
  | .hostResync .. => .of_only (Only.runCmd_exec (ExecOnly.hostResyncCmd0 · s))
  | .journalRead .. => .of_only (Only.runCmd_exec (ExecOnly.journalRead0 · s))
  | .journalMark .. => .of_only (Only.runCmd_exec (ExecOnly.journalMark0 · s))
  -- calendar
  | .calLoad .. => .of_only (Only.runDma_exec (ExecOnly.calLoad0 _ _ · s))
  | .calAdmit .. => .of_only (Only.runCmd_exec (ExecOnly.calAdmit0 _ · s))
  | .calActivateAt .. => .of_only (Only.runCmd_exec (ExecOnly.calActivateAt0 _ · s))
  | .calAbort .. => .of_only (Only.runCmd_exec (ExecOnly.calAbort0 _ · s))
  | .calStatus .. => .of_only (Only.runCmd_exec (ExecOnly.calStatusCmd0 · s))
  | .calLimpSelect .. => .of_only (Only.runCmd_exec (ExecOnly.calLimpSelect0 · s))
  | .pipelineIssue .. => .of_only (Only.doPipelineIssue0 s ..)
  | .hypercycleBoundary => .of_only (Only.doHypercycleBoundary0 s ..)
  | .activationCommit => .of_only (Only.doActivationCommit0 s ..)
  | .calTakeover => .of_only (Only.doCalTakeover0 s ..)
  | .overlapEnd => .of_only (Only.doOverlapEnd0 s ..)
  | .gateEntryStart .. => .of_only (Only.doGateEntryStart0 s ..)
  | .macHoldAssert .. => .of_only (Only.doMacHoldAssert0 s ..)
  | .edgeSlotOpen .. => .of_only (Only.doEdgeSlotOpen0 s ..)
  | .edgeSlotEnd .. => .of_only (Only.doEdgeSlotEnd0 s ..)
  | .routerJobRelease .. => .of_only (Only.doRouterJobRelease0 s ..)
  | .tunnelWindowOpen .. => .of_only (Only.doTunnelWindowOpen0 s ..)
  | .tunnelWindowClose .. => .of_only (Only.doTunnelWindowClose0 s ..)
  | .streamDeadlineExpiry .. => .of_only (Only.doStreamDeadlineExpiry0 s ..)
  -- forwarding
  | .fwdTxnBegin .. => .of_only (Only.runCmd_exec (ExecOnly.fwdTxnBegin0 · s))
  | .fwdEntryAdd .. => .of_only (Only.runCmd_exec (ExecOnly.fwdEntryAdd0 · s))
  | .fwdEntryDel .. => .of_only (Only.runCmd_exec (ExecOnly.fwdEntryDel0 · s))
  | .fwdTxnCommit .. => .of_only (Only.runCmd_exec (ExecOnly.fwdTxnCommit0 · s))
  | .fwdEpochDrain .. => .of_only (Only.runCmd_exec (ExecOnly.fwdEpochDrain0 · s))
  | .epochDrainComplete .. => .of_only (Only.doEpochDrainComplete0 s ..)
  | .epochDrainTimeout .. => .of_only (Only.doEpochDrainTimeout0 s ..)
  | .epochStorageReclaim => .of_only (Only.doEpochStorageReclaim0 s ..)
  | .fwdLpmAdd .. => .of_only (Only.runCmd_exec (ExecOnly.fwdLpmAdd0 · s))
  | .fwdFlushPort .. => .of_only (Only.runCmd_exec (ExecOnly.fwdFlushPort0 · s))
  | .fwdAgeConfig .. => .of_only (Only.runCmd_exec (ExecOnly.fwdAgeConfig0 · s))
  | .learnEngineCommit => .of_only (Only.doLearnEngineCommit0 s ..)
  | .relocationInvalidate => .of_only (Only.doRelocationInvalidate0 s ..)
  | .ageingScan => .of_only (Only.doAgeingScan0 s ..)
  | .connectionTimeoutScan => .of_only (Only.doConnectionTimeoutScan0 s ..)
  | .frameArrival .. => .of_only (Only.doFrameArrival0 s ..)
  | .frameLastByte .. => .of_only (Only.doFrameLastByte0 s ..)
  | .macsecIcvVerdict .. => .of_only (Only.doMacsecIcvVerdict0 s ..)
  | .verdictTimeout .. => .of_only (Only.doVerdictTimeout0 s ..)
  | .egressSelect .. => .of_only (Only.doEgressSelect0 s ..)
  | .egressCopyEnd .. => .of_only (Only.doEgressCopyEnd0 s ..)
  -- buffers
  | .spillFrame => .of_only (Only.doSpillFrame0 s ..)
  | .drainBack .. => .of_only (Only.doDrainBack0 s ..)
  | .drainReadComplete .. => .of_only (Only.doDrainReadComplete0 s ..)
  | .schedPartitionApply => .of_only (Only.doSchedPartitionApply0 s ..)
  | .ovfRegionApply => .of_only (Only.doOvfRegionApply0 s ..)
  | .xoffRepeat .. => .of_only (Only.doXoffRepeat0 s ..)
  | .pauseFrameReceived .. => .of_only (Only.doPauseFrameReceived0 s ..)
  | .pauseExpiry .. => .of_only (Only.doPauseExpiry0 s ..)
  | .portLinkDown .. => .of_only (Only.doPortLinkDown0 s ..)
  | .portLinkUp .. => .of_only (Only.doPortLinkUp0 s ..)
  | .drainHoldEnd .. => .of_only (Only.doDrainHoldEnd0 s ..)
  | .slagAuditPass .. => .of_only (Only.doSlagAuditPass0 s ..)
  | .fairnessAuditWindow => .of_only (Only.doFairnessAuditWindow0 s ..)
  -- traffic
  | .trfQueueConfig .. => .of_only (Only.runCmd_exec (ExecOnly.trfQueueConfig0 · s))
  | .trfPolicerSet .. => .of_only (Only.runCmd_exec (ExecOnly.trfPolicerSet0 · s))
  | .trfShaperSet .. => .of_only (Only.runDma_exec (ExecOnly.trfShaperSet0 _ · s))
  | .trfStreamFilter .. => .of_only (Only.runDma_exec (ExecOnly.trfStreamFilter0 _ · s))
  | .trfFrerConfig .. => .of_only (Only.runCmd_exec (ExecOnly.trfFrerConfig0 · s))
  | .hostGclChange .. => .of_only (Only.doHostGclChange0 s ..)
  | .streamGateEntry .. => .of_only (Only.doStreamGateEntry0 s ..)
  | .preemptVerifyTimer .. => .of_only (Only.doPreemptVerifyTimer0 s ..)
  | .frerResetTimeout .. => .of_only (Only.doFrerResetTimeout0 s ..)
  | .frerLatentPeriod .. => .of_only (Only.doFrerLatentPeriod0 s ..)
  -- edge buses
  | .canFrameReceived .. => .of_only (Only.doCanFrameReceived0 s ..)
  | .canTxAttempt .. => .of_only (Only.doCanTxAttempt0 s ..)
  | .canBusError .. => .of_only (Only.doCanBusError0 s ..)
  | .busOffRecoverDelay .. => .of_only (Only.doBusOffRecoverDelay0 s ..)
  | .busOffRecoveryDone .. => .of_only (Only.doBusOffRecoveryDone0 s ..)
  | .edgCanConfig .. => .of_only (Only.runDma_exec (ExecOnly.edgCanConfig0 _ · s))
  | .edgLinConfig .. => .of_only (Only.runDma_exec (ExecOnly.edgLinConfig0 _ · s))
  | .edgT1sConfig .. => .of_only (Only.runCmd_exec (ExecOnly.edgT1sConfig0 · s))
  | .edgXcvrMode .. => .of_only (Only.runCmd_exec (ExecOnly.edgXcvrMode0 · s))
  | .edgBusOffRecover .. => .of_only (Only.runCmd_exec (ExecOnly.edgBusOffRecover0 · s))
  | .configApplyAtIdle .. => .of_only (Only.doConfigApplyAtIdle0 s ..)
  | .xcvrModeApply .. => .of_only (Only.doXcvrModeApply0 s ..)
  | .xcvrModeForced .. => .of_only (Only.doXcvrModeForced0 s ..)
  | .xcvrSettleEnd .. => .of_only (Only.doXcvrSettleEnd0 s ..)
  | .linScheduleSlot .. => .of_only (Only.doLinScheduleSlot0 s ..)
  | .linHeaderReceived .. => .of_only (Only.doLinHeaderReceived0 s ..)
  | .linResponseEnd .. => .of_only (Only.doLinResponseEnd0 s ..)
  | .linBusIdleTimeout .. => .of_only (Only.doLinBusIdleTimeout0 s ..)
  | .linWakeDetect .. => .of_only (Only.doLinWakeDetect0 s ..)
  | .plcaStatusChange .. => .of_only (Only.doPlcaStatusChange0 s ..)
  | .t1sDupCoordinator .. => .of_only (Only.doT1sDupCoordinator0 s ..)
  | .t1sCollision .. => .of_only (Only.doT1sCollision0 s ..)
  -- tunnels, signals, E2E; `reached`: templates emitted before the deadline
  | .tunEncapTake .. => .of_only (Only.doTunEncapTake0 s ..)
  | .batchTimeout .. => .of_only (Only.doBatchTimeout0 s ..)
  | .xPortInject .. => .of_only (Only.doXPortInject0 s ..)
  | .tunDecapsulate .. => .of_only (Only.doTunDecapsulate0 s ..)
  | .presentationHoldEnd .. => .of_only (Only.doPresentationHoldEnd0 s ..)
  | .sigExtraction .. => .of_only (Only.doSigExtraction0 s ..)
  | .sigJobRun .. => .of_only (Only.doSigJobRun0 s ..)
  | .jobDeadlineMiss .. => .of_only (Only.doJobDeadlineMiss0 s ..)
  | .mappingTimeout .. => .of_only (Only.doMappingTimeout0 s ..)
  | .tunChannelSet .. => .of_only (Only.runCmd_exec (ExecOnly.tunChannelSet0 · s))
  | .sigMapLoad .. => .of_only (Only.runDma_exec (ExecOnly.sigMapLoad0 _ · s))
  | .e2eContextSet .. => .of_only (Only.runCmd_exec (ExecOnly.e2eContextSet0 · s))
  -- security and keys
  | .secFwRule .. => .of_only (Only.runDma_exec (ExecOnly.secFwRule0 _ · s))
  | .portConfig .. => .of_only (Only.runMacsec_exec (ExecOnly.portConfig0 · s))
  | .scConfig .. => .of_only (Only.runMacsec_exec (ExecOnly.scConfig0 · s))
  | .saInstall .. => .of_only (Only.runMacsec_exec (ExecOnly.saInstall0 · s))
  | .saDelete .. => .of_only (Only.runMacsec_exec (ExecOnly.saDelete0 · s))
  | .txSwitch .. => .of_only (Only.runMacsec_exec (ExecOnly.txSwitch0 · s))
  | .cipherDispatch => .of_only (Only.doCipherDispatch0 s ..)
  | .cipherRequestComplete .. => .of_only (Only.doCipherRequestComplete0 s ..)
  | .secFvWrite .. => .of_only (Only.postReg0 s ..)
  | .keyDerive .. => .of_only (Only.runDerive_exec (ExecOnly.keyDerive0 · s))
  | .keyDeriveRebuild .. => .of_only (Only.runDerive_exec (ExecOnly.keyRebuild0 · s))
  | .keyUnwrap .. => .of_only (Only.runCmd_exec (ExecOnly.keyUnwrap0 · s))
  | .keyErase .. => .of_only (Only.runCmd_exec (ExecOnly.keyErase0 · s))
  | .lcAdvance .. => .of_only (Only.runCmd_exec (ExecOnly.lcAdvance0 _ · s))
  | .keyAlarm .. => .of_only (Only.doKeyAlarm0 s ..)
  -- time
  | .timeDomainConfig .. => .of_only (Only.runCmd_exec (ExecOnly.timeDomainConfig0 · s))
  | .timeAdjust .. => .of_only (Only.runCmd_exec (ExecOnly.timeAdjust0 · s))
  | .timeJumpAccept .. => .of_only (Only.runCmd_exec (ExecOnly.timeJumpAccept0 · s))
  | .timSnap .. => .of_only (Only.postReg0 s ..)
  | .ptpFrameReceived .. => .of_only (Only.doPtpFrameReceived0 s ..)
  | .syncReceiptTimeout .. => .of_only (Only.doSyncReceiptTimeout0 s ..)
  | .hostSourceTimeout .. => .of_only (Only.doHostSourceTimeout0 s ..)
  | .ptpSyncTransmit .. => .of_only (Only.doPtpSyncTransmit0 s ..)
  -- power and network management
  | .pwrStateRequest .. => .of_only (Only.runCmd_exec (ExecOnly.pwrStateRequest0 · s))
  | .nmConfig .. => .of_only (Only.runDma_exec (ExecOnly.nmConfig0 _ · s))
  | .wakeSourceConfig .. => .of_only (Only.runDma_exec (ExecOnly.wakeSourceConfig0 _ · s))
  | .nmAwakeLogRead .. => .of_only (Only.runCmd_exec (ExecOnly.nmAwakeLogRead0 · s))
  | .nmMessageReceived .. => .of_only (Only.doNmMessageReceived0 s ..)
  | .nmRepeatTimeout => .of_only (Only.doNmRepeatTimeout0 s ..)
  | .readySleepTimeout => .of_only (Only.doReadySleepTimeout0 s ..)
  | .nmCommitPoint => .of_only (Only.doNmCommitPoint0 s ..)
  | .sleepEntry .. => .of_only (Only.doSleepEntry0 s ..)
  | .nmCycleTransmit => .of_only (Only.doNmCycleTransmit0 s ..)
  | .stayAwakeDetect .. => .of_only (Only.doStayAwakeDetect0 s ..)
  | .wakePin .. => .of_only (Only.doWakePin0 s ..)
  | .canWakePattern .. => .of_only (Only.doCanWakePattern0 s ..)
  | .swOscillatorStart .. => .of_only (Only.doSwOscillatorStart0 s ..)
  | .selectiveWakeFrame .. => .of_only (Only.doSelectiveWakeFrame0 s ..)
  | .swIdleTimeout => .of_only (Only.doSwIdleTimeout0 s ..)
  | .linWake .. => .of_only (Only.doLinWake0 s ..)
  | .wakeTimer => .of_only (Only.doWakeTimer0 s ..)
  | .vbatRise .. => .of_only (Only.doVbatRise0 s ..)
  | .vbatFall => .of_only (Only.doVbatFall0 s ..)
  | .pwrGoodRise => .of_only (Only.doPwrGoodRise0 s ..)
  | .forgeResetRelease .. => .of_only (Only.doForgeResetRelease0 s ..)
  | .pgTimeout => .of_only (Only.doPgTimeout0 s ..)
  | .pwrGoodFall => .of_only (Only.doPwrGoodFall0 s ..)
  | .junctionOvertemp => .of_only (Only.doPwrGoodFall0 s ..)
  | .kindleTimeout => .of_only (Only.doKindleTimeout0 s ..)
  | .kindleRetry => .of_only (Only.doKindleRetry0 s ..)
  | .firmwareReady => .of_only (Only.doFirmwareReady0 s ..)
  | .bankedDecay => .of_only (Only.doBankedDecay0 s ..)
  | .emberDecay => .of_only (Only.doEmberDecay0 s ..)
  | .residentVerifyDone .. => .of_only (Only.doResidentVerifyDone0 s ..)
  | .dieLinkFailure => .of_only (Only.doDieLinkFailure0 s ..)
  -- the redundant pair
  | .pairConfig .. => .of_only (Only.runCmd_exec (ExecOnly.pairConfig0 · s))
  | .pairRole .. => .of_only (Only.runCmd_exec (ExecOnly.pairRole0 · s))
  | .pairStatus .. => .of_only (Only.runCmd_exec (ExecOnly.pairStatus0 · s))
  | .tongsLinkUp => .of_only (Only.doTongsLinkUp0 s ..)
  | .tongsLinkDown .. => .of_only (Only.doTongsLinkDown0 s ..)
  | .helloUnitReceived .. => .of_only (Only.doHelloUnitReceived0 s ..)
  | .helloTimeout => .of_only (Only.doHelloTimeout0 s ..)
  | .keyingRetry => .of_only (Only.doKeyingRetry0 s ..)
  | .mirrorMessageReceived .. => .of_only (Only.doMirrorMessageReceived0 s ..)
  | .syncBlockReceived .. => .of_only (Only.doSyncBlockReceived0 s ..)
  | .tongsHeartbeatSend => .of_only (Only.doTongsHeartbeatSend0 s ..)
  | .backboneHeartbeatSend => .of_only (Only.doBackboneHeartbeatSend0 s ..)
  | .heartbeatReceived .. => .of_only (Only.doHeartbeatReceived0 s ..)
  | .partnerLoss => .of_only (Only.doPartnerLoss0 s ..)
  | .voteReceived .. => .of_only (Only.doVoteReceived0 s ..)
  | .clashComparison => .of_only (Only.doClashComparison0 s ..)
  -- fault containment
  | .faultReport .. => .of_only (Only.restart (Only.doFaultReport0 s ..))
  | .recoveryStart .. => .of_only (Only.doRecoveryStart0 s ..)
  | .recoveryDone .. => .of_only (Only.restart (Only.doRecoveryDone0 s ..))
  | .recoveryBudgetExpiry .. => .of_only (Only.restart (Only.doRecoveryBudgetExpiry0 s ..))
  | .probationEnd .. => .of_only (Only.doProbationEnd0 s ..)
  | .correctableEcc => .of_only (Only.doCorrectableEcc0 s ..)
  | .fenceStatus .. => .of_only (Only.runCmd_exec (ExecOnly.fenceStatus0 · s))
  | .fenceRelease .. => .of_only (Only.runCmd_exec (ExecOnly.fenceRelease0 · s))
  | .captureStart .. => .of_only (Only.runCmd_exec (ExecOnly.captureStart0 · s))
  -- boot, service and update
  | .autoConfirmTimeout .. => .of_only (Only.doAutoConfirmTimeout0 s ..)
  | .svcHello .. => .of_only (Only.doSvcHello0 s ..)
  | .svcProof .. => .of_only (Only.doSvcProof0 s ..)
  | .svcData .. => .of_only (Only.doSvcData0 s ..)
  | .svcCommand .. => .of_only (Only.doSvcCommand0 s ..)
  | .svcClose .. => .of_only (Only.doSvcClose0 s ..)
  | .svcSessionTimeout => .of_only (Only.doSvcSessionTimeout0 s ..)
  | .svcLockoutEnd => .of_only (Only.doSvcLockoutEnd0 s ..)
  | .updSessionOpen .. => .of_only (Only.runCmd_exec (ExecOnly.updSessionOpen0 _ · s))
  | .updBlock .. => .of_only (Only.runCmd_exec (ExecOnly.updBlock0 _ · s))
  | .updVerify .. => .of_only (Only.runCmd_exec (ExecOnly.updVerify0 · s))
  | .updActivate .. => .of_only (Only.restart (Only.runCmd_exec (ExecOnly.updActivate0 _ _ · s)))
  | .alarmDeasserted .. => .of_only (Only.doAlarmDeasserted0 s ..)
  | .slewEnd .. => .of_only (Only.doSlewEnd0 s ..)
  | .preemptVerifyResponse .. => .of_only (Only.doPreemptVerifyResponse0 s ..)
  | .swDecodeError .. => .of_only (Only.doSwDecodeError0 s ..)
  | .minimumOffTimeEnd => .of_only (Only.doMinimumOffTimeEnd0 s ..)
  | .nodeRecordAged .. => .of_only (Only.doNodeRecordAged0 s ..)
  | .vbatAboveOperatingMin => .of_only (Only.doVbatAboveOperatingMin0 s ..)
  | .voteDisagreement .. => .of_only (Only.doVoteDisagreement0 s ..)
  | .protocolExceptionEnd .. => .of_only (Only.doProtocolExceptionEnd0 s ..)

/-- Settles O60, from the frame of the operation that each row of the opcode table runs. -/
theorem frameOfEveryCommand : Obligations.FrameOfEveryCommand := fun i s => exec_completes s i

end Sys2Proof.Machine
end

section
/-! A posted write that reaches a register: where the two rows REGISTER_WRITE and BIT_ALIAS_WRITE lead (R35, R52), and
what a plain register holds after it (R9). -/

namespace Sys2Proof.Machine

/-! ### Single bits of a number and of a register -/

theorem bit_eq_testBit (n i : Nat) : bit n i = n.testBit i := by
  rw [bit, Nat.testBit_eq_decide_div_mod_eq, beq_eq_decide]

/-- Replacing bit `b` keeps the bits below it and those above it. -/
theorem setBits_one (n b x : Nat) : setBits n b 1 x = 2 ^ b * (2 * (n / 2 ^ b / 2) + x % 2) + n % 2 ^ b := by
  have parts : n = 2 ^ b * (2 * (n / 2 ^ b / 2)) + 2 ^ b * (n / 2 ^ b % 2) + n % 2 ^ b := by
    rw [← Nat.mul_add, Nat.div_add_mod, Nat.div_add_mod]
  rw [setBits, bits, pow_one, Nat.mul_add, Nat.mul_comm (n / 2 ^ b % 2), Nat.mul_comm (x % 2)]
  omega

theorem testBit_setBits_one (n b x i : Nat) :
    (setBits n b 1 x).testBit i = if i = b then x.testBit 0 else n.testBit i := by
  rw [setBits_one, Nat.testBit_two_pow_mul_add _ (Nat.mod_lt _ (Nat.two_pow_pos b))]
  rcases lt_trichotomy i b with h | rfl | h
  · rw [if_pos h, if_neg h.ne, Nat.testBit_mod_two_pow, decide_eq_true h, Bool.true_and]
  · simp [Nat.testBit_zero, Nat.add_mod]
  · obtain ⟨k, rfl⟩ := Nat.exists_eq_add_of_lt h
    have above : (2 * (n / 2 ^ b / 2) + x % 2) / 2 = n / 2 ^ (b + 1) := by
      rw [Nat.pow_succ, ← Nat.div_div_eq_div_mul]; omega
    rw [if_neg (by omega), if_neg (by omega), show b + k + 1 - b = k + 1 by omega, Nat.testBit_succ, above,
      Nat.testBit_div_two_pow, Nat.add_right_comm, Nat.add_comm]

theorem getLsbD_setBits_one {b x i : Nat} (n : Word) (hi : i < 32) :
    (BitVec.ofNat 32 (setBits n.toNat b 1 x)).getLsbD i = if i = b then x.testBit 0 else n.getLsbD i := by
  rw [BitVec.getLsbD_ofNat, decide_eq_true hi, Bool.true_and, testBit_setBits_one]
  rfl

namespace State

variable {s : State} {r : RegRow} {host tag off b i : Nat} {v : Word}

/-- Bit by bit, a direct write takes the data where the access codes allow it. -/
theorem getLsbD_stored (hi : i < 32) :
    (s.stored r off v).getLsbD i = if r.mask.getLsbD i then v.getLsbD i else (s.rget off).getLsbD i := by
  rw [stored, BitVec.getLsbD_or, BitVec.getLsbD_and, BitVec.getLsbD_and, BitVec.getLsbD_not, decide_eq_true hi]
  cases r.mask.getLsbD i <;> simp

/-! ### Where the two rows lead -/

theorem linkSeen_reached (h : s.Reached) : s.linkSeen = s := if_pos h.link

theorem writeReg_direct (h : s.Reached) (hoff : off < 0x80000) :
    s.writeReg host tag off v = s.writeDirect host tag off v := by
  simp only [writeReg, guardExpire_fresh s h.fresh, if_pos hoff]

theorem exec_registerWrite_bar0 (h : s.Reached) :
    exec (.registerWrite (.bar0 tag off v 15)) s = .next ((s.writeReg 0 tag off v).regHook off) := by
  have e : s.doRegisterWrite (.bar0 tag off v 15) = s.hostPost 0 tag off v := by
    simp [doRegisterWrite, h.up, linkSeen_reached h, Dom.host, h.runs]
  rw [← hostPost_reached s h, ← e]
  rfl

/-- A register and the aliases of its bits have the same consumers. -/
theorem regHook_alias (t : State) (hoff : off < 0x80000) (h4 : off % 4 = 0) (hb : b < 32) :
    t.regHook (0x01000000 + off * 32 + b * 4) = t.regHook off := by
  have e : regOfAddr (0x01000000 + off * 32 + b * 4) = regOfAddr off := by
    unfold regOfAddr
    rw [if_neg (by omega), if_neg (by omega), if_pos hoff]
    omega
  rw [regHook, regHook, e]

theorem exec_bitAliasWrite (h : s.Reached) (hoff : off < 0x80000) (h4 : off % 4 = 0) (hb : b < 32) :
    exec (.bitAliasWrite host tag off b v) s = .next ((s.writeAlias host tag off b v).regHook off) := by
  have reg : (0x01000000 + off * 32 + b * 4 - 0x01000000) / 128 * 4 = off := by omega
  have idx : (0x01000000 + off * 32 + b * 4 - 0x01000000) / 4 % 32 = b := by omega
  have e : s.writeReg host tag (0x01000000 + off * 32 + b * 4) v = s.writeAlias host tag off b v := by
    rw [writeReg_alias _ _ _ _ _ (by omega) (by omega), guardExpire_fresh s h.fresh, reg, idx]
  rw [← regHook_alias _ hoff h4 hb, ← e, ← hostPost_reached s h]
  rfl

/-! ### What a plain register holds afterwards -/

theorem storeReg_plain (hp : plainReg off = true) : s.storeReg r off v = s.rset off (s.stored r off v) :=
  plain_afterWrite _ _ _ _ _ hp

theorem writeDirect_plain (hp : plainReg off = true) (w : s.Writable host off r) (hg : r.rwg = 0)
    (hw : r.rw ||| r.ack ||| r.wo ≠ 0) : s.writeDirect host tag off v = s.rset off (s.stored r off v) := by
  simp only [writeDirect, w.row, w.allowed, hg, ne_eq, not_true_eq_false, if_false, if_neg hw, storeReg_plain hp]

/-- What a register holds after a write to the address of its bit `b`, of which its RW bits alone are taken (R52). -/
def aliasStored (s : State) (r : RegRow) (off b : Nat) (v : Word) : Word :=
  s.stored { r with rwg := 0, ack := 0 } off (BitVec.ofNat 32 (setBits (s.rget off).toNat b 1 v.toNat))

theorem writeAlias_plain (hp : plainReg off = true) (w : s.Writable host off r) (hb : bit r.rw b = true) :
    s.writeAlias host tag off b v = s.rset off (s.aliasStored r off b v) := by
  simp only [writeAlias, w.row, w.allowed, if_pos hb, storeReg_plain hp, aliasStored]

/-- A write to the address of an RW bit sets that bit and leaves every other one. -/
theorem getLsbD_aliasStored (hb : bit r.rw b = true) (hi : i < 32) :
    (s.aliasStored r off b v).getLsbD i = if i = b then v.getLsbD 0 else (s.rget off).getLsbD i := by
  rw [aliasStored, getLsbD_stored hi, getLsbD_setBits_one _ hi]
  by_cases h : i = b
  · have hm : ({ r with rwg := 0, ack := 0 } : RegRow).mask.getLsbD i = true := by
      rw [RegRow.mask, BitVec.getLsbD_ofNat, decide_eq_true hi, h]
      simpa [bit_eq_testBit] using hb
    rw [if_pos hm, if_pos h, if_pos h]
    rfl
  · simp [h]

end State

/-- Settles O9: both rows reach the register, whose write has no effect beyond its own value, and it then holds
`State.stored` or `State.aliasStored`. -/
theorem plainWrite : Obligations.PlainWrite := by
  intro s host tag off v r hs hp
  refine ⟨fun w hg hw => ?_, fun b w h4 hb hrw =>
    ⟨s.aliasStored r off b v, ?_, fun i hi => State.getLsbD_aliasStored hrw hi⟩⟩
  · rw [State.exec_registerWrite_bar0 hs, State.writeReg_direct hs w.window, State.writeDirect_plain hp w hg hw,
      plain_regHook _ _ hp w.window]
  · rw [State.exec_bitAliasWrite hs w.window h4 hb, State.writeAlias_plain hp w hrw, plain_regHook _ _ hp w.window]

end Sys2Proof.Machine
end

section
/-! The life of a frame at ingress: its arrival with the verdict that MACsec gives its first bytes (R178, R396), its
last byte (R218, R270), and the issue slot that looks its head up (R29, R142). -/

namespace Sys2Proof.Machine

/-- The frames with one more behind them, which is the last head of its source and may await a verdict. -/
def Frames.enter (x : Frames) (f : Frame) : Frames :=
  { x with next := x.next + 1, frames := x.frames ++ [f], heads := x.heads ++ [(f.src, x.next)],
           owed := x.owed ++ if f.icv = .waiting then [⟨f.src, x.next, none, none⟩] else [] }

namespace State

variable {s : State} {src p sc an : Nat} {head rest : List Byte} {sec : Option SecTag} {fin : FrameEnd} {f : Frame}
  {tag : SecTag} {a : Sa}

/-! ### What a frame's first bytes do to MACsec (R396) -/

/-- A change of a receive SA is read back. -/
theorem aget_rxSaMod (h : aget (agetD (s.msPort p).rx sc {}).sas an = some a) (g : Sa → Sa) :
    aget (agetD ((s.rxSaMod p sc an g).msPort p).rx sc {}).sas an = some (g a) := by
  have port : (s.rxSaMod p sc an g).msPort p = { s.msPort p with
      rx := aset (s.msPort p).rx sc { agetD (s.msPort p).rx sc {} with
        sas := aset (agetD (s.msPort p).rx sc {}).sas an (g a) } } := by
    simp only [rxSaMod, h]
    simp only [msPort, agetD, setSec_sec, aget_aset_same, Option.getD_some]
  simp only [port, agetD, aget_aset_same, Option.getD_some]

/-- The rows before the ICV leave the state, count once on their port's page of counters, or change a receive SA. -/
theorem macsecHead_state (s : State) (src : Nat) (head : List Byte) (sec : Option SecTag) :
    (s.macsecHead src head sec).2.2 = s ∨
    (∃ o, 0x49020 ≤ o ∧ o < 0x4A000 ∧ (s.macsecHead src head sec).2.2 = s.bump o) ∨
    ∃ sc an g, (s.macsecHead src head sec).2.2 = s.rxSaMod src sc an g := by
  unfold macsecHead
  dsimp only
  split
  · exact .inl rfl
  next hp =>
    have counted (k : Nat) (hk : 0x49020 ≤ k ∧ k ≤ 0x49030) :
        ∃ o, 0x49020 ≤ o ∧ o < 0x4A000 ∧ s.bump (k + 0x40 * src) = s.bump o := ⟨_, by omega, by omega, rfl⟩
    cases sec with
    | none =>
      dsimp only
      split
      · exact .inr (.inl (counted (Reg.secMsRxExemptCnt 0) (by decide)))
      · exact .inr (.inl (counted (Reg.secMsRxUntaggedCnt 0) (by decide)))
    | some t =>
      dsimp only
      split
      · exact .inl rfl
      split
      · exact .inr (.inl (counted (Reg.secMsRxNoScCnt 0) (by decide)))
      split
      · exact .inr (.inl (counted (Reg.secMsRxNoScCnt 0) (by decide)))
      split
      · exact .inr (.inl (counted (Reg.secMsRxLateCnt 0) (by decide)))
      · exact .inr (.inr ⟨_, _, _, rfl⟩)

theorem macsecHead_fr : (s.macsecHead src head sec).2.2.fr = s.fr := (Only.macsecHead0 s ..).fr rfl

theorem macsecHead_clk : (s.macsecHead src head sec).2.2.clk = s.clk := (Only.macsecHead0 s ..).clk rfl

/-- A register off the page of counters stays. -/
theorem macsecHead_rget {o : Nat} (ho : eventReg o = false) (h : o < 0x49020 ∨ 0x4A000 ≤ o) :
    (s.macsecHead src head sec).2.2.rget o = s.rget o := by
  obtain e | ⟨c, hc, hc', e⟩ | ⟨sc, an, g, e⟩ := macsecHead_state s src head sec <;> rw [e]
  · exact bump_other s c o ho (by omega)
  · rw [rget, (Only.rxSaMod0 s ..).regs rfl, rget]

theorem macsecHead_maxFrame : (s.macsecHead src head sec).2.2.maxFrame p = s.maxFrame p := by
  have reg (hp : p < 64) : (s.macsecHead src head sec).2.2.rget (0x28400 + 0x20 * p) = s.rget (0x28400 + 0x20 * p) :=
    macsecHead_rget (by simp [eventReg]; omega) (by omega)
  unfold maxFrame
  split
  · rw [rfld, reg ‹_›, rfld]
  · rfl

theorem macsecHead_phyDelay {lo : Nat} : (s.macsecHead src head sec).2.2.phyDelay p lo = s.phyDelay p lo := by
  have reg : (s.macsecHead src head sec).2.2.rget (0x51004 + 0x10 * p) = s.rget (0x51004 + 0x10 * p) :=
    macsecHead_rget (by simp [eventReg]; omega) (by omega)
  rw [phyDelay, rfld, reg, phyDelay, rfld]

/-- A source behind no MACsec gives its frames no verdict. -/
theorem macsecHead_plain (h : src = 64 ∨ (s.msPort src).rxEn = false) :
    s.macsecHead src head sec = (.none, false, s) := by
  have off : 64 ≤ src ∨ (!(s.msPort src).rxEn) = true := h.imp (·.ge) (by simp [·])
  simp only [macsecHead, if_pos off]

/-- A tagged frame with a known SA and a fresh PN, whose packet number is then pending. -/
theorem macsecHead_waiting (hp : src < 64) (en : (s.msPort src).rxEn = true) (q : s.quenched Dom.security = false)
    (q' : s.quenched (macsecUnit src false) = false) (hsc : s.rxSc src tag.sci = some sc)
    (ha : aget (agetD (s.msPort src).rx sc {}).sas tag.an = some a) (run : a.stopped = false)
    (fresh : (agetD (s.msPort src).rx sc {}).replay = false ∨ lowestPn (agetD (s.msPort src).rx sc {}) a ≤ tag.pn)
    (new : tag.pn ∉ a.pend) :
    s.macsecHead src head (some tag) =
      (.waiting, false, s.rxSaMod src sc tag.an fun a => { a with pend := tag.pn :: a.pend }) := by
  have served : ¬(64 ≤ src) := Nat.not_le.2 hp
  have inTime : (agetD (s.msPort src).rx sc {}).replay = true → lowestPn (agetD (s.msPort src).rx sc {}) a ≤ tag.pn :=
    fun r => fresh.resolve_left (by simp [r])
  simpa [macsecHead, served, en, q, q', hsc, ha, Option.filter, run, new] using inTime

/-! ### Arrival (R178, R222, R454) -/

/-- A frame may enter the ingress FIFO of a source that runs. -/
structure Arrives (s : State) (src : Nat) (head : List Byte) : Prop where
  up : s.datapathUp = true
  source : src ≤ 64
  link : s.portDown src = false
  runs : s.quenched (pipeDom (pipeOf src)) = false
  idle : s.arriving src = none
  window : head.length ≤ 512

/-- The frame that its first bytes make, with what MACsec says of them. -/
def arrived (s : State) (src : Nat) (head : List Byte) (sec : Option SecTag) : Frame :=
  let at_ := ((s.clk : Int) - s.phyDelay src 0).toNat
  { fid := s.fr.next, src := src, tIn := at_, start := at_, inAt := s.clk, bytes := head.take (s.maxFrame src + 4),
    oversize := decide (s.maxFrame src + 4 < head.length), complete := false, tagInfo := sec,
    icv := (s.macsecHead src head sec).1, pnHeld := (s.macsecHead src head sec).1 == .waiting,
    lenient := (s.macsecHead src head sec).2.1, writer := true }

/-- The frame is put behind the others, and of the rest only what MACsec did to its first bytes has changed. -/
theorem exec_frameArrival (h : s.Arrives src head) :
    exec (.frameArrival src head sec) s =
      .next ((s.macsecHead src head sec).2.2.setFr (s.fr.enter (s.arrived src head sec))) := by
  have opened : ¬ (64 < src || !s.datapathUp || s.portDown src || s.quenched (pipeDom (pipeOf src)) ||
      (s.arriving src).isSome || 512 < head.length) = true := by
    simp [h.up, h.link, h.runs, h.idle, h.source, h.window]
  show Host.Outcome.next (s.doFrameArrival src head sec) = _
  rw [doFrameArrival, if_neg opened, arrived, ← macsecHead_fr, ← macsecHead_clk (s := s),
    ← macsecHead_maxFrame (s := s), ← macsecHead_phyDelay (s := s)]
  rfl

/-! ### The last byte (R218, R240, R270) -/

/-- What the MAC counts of a frame as it saw its end, on the Tongs link also the units cut off or in error. -/
def endCounted (s : State) (src : Nat) (fin : FrameEnd) : State :=
  if src = 64 ∧ fin.fcs = .bad then (s.mergeCounts src fin).bump Reg.pairUnitErrCnt
  else if src = 64 ∧ fin.fcs = .complement then (s.mergeCounts src fin).bump Reg.pairAbortRxCnt
  else s.mergeCounts src fin

theorem exec_frameLastByte (h : s.arriving src = some f) :
    exec (.frameLastByte src rest fin) s =
      .next (((((s.endCounted src fin).fmod f.fid fun x => { x with
        bytes := (if f.oversize then f.bytes else f.bytes ++ rest).take (s.maxFrame src + 4), complete := true,
        lastAt := (s.endCounted src fin).clk, fin := fin,
        oversize := f.oversize || decide (s.maxFrame src + 4 < (f.bytes ++ rest).length),
        writer := false }).storeEnd f.fid).spillUpdate.flowCheck src |>.judge f.fid).gc) := by
  show Host.Outcome.next (s.doFrameLastByte src rest fin) = _
  simp only [doFrameLastByte, h, endCounted, Bool.and_eq_true, decide_eq_true_eq, beq_iff_eq]

/-! ### The issue slot (R29, R141, R142) -/

/-- The slot's owner `own`, or the best-effort pick where the owner has no head, has the lookup of its head `f`. -/
theorem exec_pipelineIssue {pipe pick k : Nat} {v w x : State} {slot own : Option Nat} (up : s.datapathUp = true)
    (hp : pipe ≤ 1) (runs : s.quenched (pipeDom pipe) = false)
    (hv : v = if s.cal.changeAt = some s.clk ∨ s.fwd.changeAt = some s.clk then s.tick 1 else s)
    (hk : k = if agetD v.fr.issued pipe 0 ≤ v.clk then v.clk else v.clk + 1) (wheel : v.wheelTo pipe k = (slot, w))
    (owner : slot.elim ((none, w) : Option Nat × State) (fun o => w.ownerPick pipe o) = (own, x))
    (given : own = some src ∨ own = none ∧ src = pick ∧ pipeOf pick = pipe) (ready : x.headReady src = some f) :
    exec (.pipelineIssue pipe pick) s =
      .next ((x.setFr { x.fr with heads := x.fr.heads.filter (· ≠ (src, f.fid)) }).lookup f).gc := by
  have opened : ¬ (1 < pipe || !s.datapathUp || s.quenched (pipeDom pipe)) = true := by simp [up, hp, runs]
  have chosen : own.or (if pipeOf pick = pipe && (x.headReady pick).isSome then some pick else none) = some src := by
    obtain rfl | ⟨rfl, rfl, hpick⟩ := given
    · rfl
    · simp [hpick, ready]
  show Host.Outcome.next (s.doPipelineIssue pipe pick) = _
  cases slot with
  | none =>
    obtain ⟨⟩ : ((none, w) : Option Nat × State) = (own, x) := owner
    simp only [doPipelineIssue, if_neg opened, ← hv, ← hk, wheel, chosen, ready]
  | some o =>
    have owner : w.ownerPick pipe o = (own, x) := owner
    simp only [doPipelineIssue, if_neg opened, ← hv, ← hk, wheel, owner, chosen, ready]

end State

/-- Settles O33: the frame that arrives is `State.arrived`, with the verdict of `State.macsecHead`; the last byte and the
issue slot each have their equation. -/
theorem framesArrive : Obligations.FramesArrive := by
  intro s up
  refine ⟨fun src head sec hsrc link runs idle window => ?_,
    fun src head tag sc a hp link runs idle window en q q' hsc ha run fresh new => ?_, ?_, ?_⟩
  · refine ⟨_, s.arrived src head sec, State.exec_frameArrival ⟨up, hsrc, link, runs, idle, window⟩, rfl, rfl, rfl, rfl,
      rfl, rfl, rfl, rfl, rfl, rfl, rfl, fun h => ?_⟩
    rw [State.arrived, State.macsecHead_plain h]
    exact ⟨rfl, Only.setFr0 ..⟩
  · have waiting := State.macsecHead_waiting (head := head) hp en q q' hsc ha run fresh new
    refine ⟨_, s.arrived src head (some tag), State.exec_frameArrival ⟨up, hp.le, link, runs, idle, window⟩, rfl, rfl,
      by rw [State.arrived, waiting], rfl, ?_⟩
    rw [waiting]
    exact ⟨⟨_, State.aget_rxSaMod ha _, rfl, rfl⟩, Only.setFr (by decide) ((Only.rxSaMod0 s ..).mono (by decide))⟩
  · rintro src rest fin f u b long hf rfl rfl rfl
    exact State.exec_frameLastByte hf
  · intro pipe pick src f v k slot w own x hp runs hv hk wheel owner given ready
    exact State.exec_pipelineIssue up hp runs hv hk wheel owner given ready

end Sys2Proof.Machine
end

section
/-! Posted writes that do not simply store a value: the two writes of a guarded pair (R50, R51), and the writes that a
cause of R59 refuses. -/

namespace Sys2Proof.Machine

namespace State

variable {s : State} {r : RegRow} {g : GuardPair} {host tag off cause b be : Nat} {v : Word}

/-! ### A guarded pair (R50) -/

theorem writeReg_companion (h : s.Reached) (hoff : off < 0x80000) :
    s.writeReg host tag (off + 0x80000) v = s.writeCompanion host tag off v := by
  simp only [writeReg, guardExpire_fresh s h.fresh, if_neg (show ¬ off + 0x80000 < 0x80000 by omega),
    if_pos (show off + 0x80000 < 0x100000 by omega), Nat.add_sub_cancel]

theorem exec_guardedValueWrite (h : s.Reached) (hoff : off < 0x80000) :
    exec (.guardedValueWrite host tag off v) s = .next ((s.writeDirect host tag off v).regHook off) := by
  rw [← writeReg_direct h hoff, ← hostPost_reached s h]
  rfl

theorem exec_guardedComplementWrite (h : s.Reached) (hoff : off < 0x80000) :
    exec (.guardedComplementWrite host tag off v) s =
      .next ((s.writeCompanion host tag off v).regHook (off + 0x80000)) := by
  rw [← writeReg_companion h hoff, ← hostPost_reached s h]
  rfl

/-- A value for a guarded register waits for its complement. -/
def guardHold (s : State) (host tag off : Nat) (v : Word) : State :=
  s.setHif { s.hif with guards := s.hif.guards ++ [⟨off, v, host, tag, s.clk⟩] }

theorem writeDirect_firstValue (w : s.Writable host off r) (hr : r.rwg ≠ 0) (idle : s.guardOf off = none) :
    s.writeDirect host tag off v = s.guardHold host tag off v := by
  simp only [writeDirect, w.row, w.allowed, if_pos hr, idle, guardHold]

theorem writeDirect_secondValue (w : s.Writable host off r) (hr : r.rwg ≠ 0) (waits : s.guardOf off = some g) :
    s.writeDirect host tag off v = (s.guardRefuse g s.clkUs).guardHold host tag off v := by
  simp only [writeDirect, w.row, w.allowed, if_pos hr, waits, guardHold]

theorem writeCompanion_alone (w : s.Writable host off r) (hr : r.rwg ≠ 0) (idle : s.guardOf off = none) :
    s.writeCompanion host tag off v = s.pwfNow host tag (off + 0x80000) v 3 := by
  simp only [writeCompanion, w.row, w.allowed, if_neg hr, idle]

theorem writeCompanion_pair (w : s.Writable host off r) (hr : r.rwg ≠ 0) (waits : s.guardOf off = some g) :
    s.writeCompanion host tag off v =
      if v = ~~~g.data then (s.guardDrop off).storeReg r off g.data else s.guardRefuse g s.clkUs := by
  simp only [writeCompanion, w.row, w.allowed, if_neg hr, waits]

theorem exec_guardWindowExpiry (hg : s.guardOf off = some g) : exec (.guardWindowExpiry off) s =
    .next ((s.waitUntil (g.since + 1000)).guardRefuse g ((g.since + 1000) / 1000 % 2 ^ 32)) := by
  show Host.Outcome.next (s.doGuardWindowExpiry off) = _
  rw [doGuardWindowExpiry, hg]

/-! ### Refused writes (R59) -/

theorem exec_registerWrite_partial (h : s.Reached) (hbe : be % 16 ≠ 15) :
    exec (.registerWrite (.bar0 tag off v be)) s = .next (s.pwfNow 0 tag off v 7) := by
  have e : s.doRegisterWrite (.bar0 tag off v be) = s.pwfNow 0 tag off v 7 := by
    simp [doRegisterWrite, h.up, linkSeen_reached h, Dom.host, h.runs, hbe, guardExpire_fresh s h.fresh]
  rw [← e]
  rfl

theorem writeDirect_noRow (h : s.servedRow off = none) : s.writeDirect host tag off v = s.pwfNow host tag off v 4 := by
  simp only [writeDirect, h]

theorem writeDirect_refused (h : s.servedRow off = some r) (hc : s.refuseCause host off = some cause) :
    s.writeDirect host tag off v = s.pwfNow host tag off v cause := by
  simp only [writeDirect, h, hc]

/-- A register with neither guarded nor writable bits takes nothing. -/
theorem writeDirect_readOnly (h : s.servedRow off = some r) (hc : s.refuseCause host off = none)
    (hr : r.rwg ||| r.rw ||| r.ack ||| r.wo = 0) : s.writeDirect host tag off v = s.pwfNow host tag off v 6 := by
  obtain ⟨⟨⟨hg, hrw⟩, hack⟩, hwo⟩ : ((r.rwg = 0 ∧ r.rw = 0) ∧ r.ack = 0) ∧ r.wo = 0 := by
    simpa only [Nat.or_eq_zero_iff] using hr
  simp [writeDirect, h, hc, hg, hrw, hack, hwo]

theorem writeAlias_notRw (h : s.servedRow off = some r) (hc : s.refuseCause host off = none) (hb : bit r.rw b = false) :
    s.writeAlias host tag off b v =
      s.pwfNow host tag (0x01000000 + off * 32 + b * 4) v (if r.rwg ≠ 0 then 3 else 6) := by
  simp only [writeAlias, h, hc, hb, Bool.false_eq_true, if_false]

end State

/-- Settles O8: both rows reach the register of the pair, and the outcome turns on the value that waits there. -/
theorem guardedPair : Obligations.GuardedPair := by
  intro s host tag off v r hs w hr
  refine ⟨fun idle => ?_, fun g waits => ?_, fun g waits right => ?_, fun g waits wrong => ?_, fun idle => ?_,
    fun g waits => State.exec_guardWindowExpiry waits⟩
  · rw [State.exec_guardedValueWrite hs w.window, State.writeDirect_firstValue w hr idle, State.guardHold]
  · rw [State.exec_guardedValueWrite hs w.window, State.writeDirect_secondValue w hr waits, State.guardHold]
  · rw [State.exec_guardedComplementWrite hs w.window, State.writeCompanion_pair w hr waits, if_pos right]
  · rw [State.exec_guardedComplementWrite hs w.window, State.writeCompanion_pair w hr waits, if_neg wrong]
  · rw [State.exec_guardedComplementWrite hs w.window, State.writeCompanion_alone w hr idle]

/-- Settles O10: each refused write reaches `State.pwfNow` with its cause. -/
theorem writeRefused : Obligations.WriteRefused := by
  intro s host tag off b v be cause hs hoff
  have direct : exec (.registerWrite (.bar0 tag off v 15)) s = .next ((s.writeDirect 0 tag off v).regHook off) := by
    rw [State.exec_registerWrite_bar0 hs, State.writeReg_direct hs hoff]
  refine ⟨State.exec_registerWrite_partial hs, fun noRow => ?_, fun r row refused => ?_, fun r row free readOnly => ?_,
    fun r row free h4 hb notRw => ?_⟩
  · rw [direct, State.writeDirect_noRow noRow]
  · rw [direct, State.writeDirect_refused row refused]
  · rw [direct, State.writeDirect_readOnly row free readOnly]
  · rw [State.exec_bitAliasWrite hs hoff h4 hb, State.writeAlias_notRw row free notRw, State.regHook_alias _ hoff h4 hb]

end Sys2Proof.Machine
end

section
/-! A posted-write failure (R60): the counts, the log entry and the event that it leaves. -/

namespace Sys2Proof.Machine

namespace State

variable {s : State} {host tag addr cause time o p k : Nat} {data : Word}

/-! ### Counting a failure -/

@[simp] theorem bump_quenched (s : State) (p d : Nat) : (s.bump p).quenched d = s.quenched d := by
  simp only [quenched, fdom, (Only.bump0 s p).fnc rfl]

theorem bump_rget_add (runs : s.stopped p = false) (hp : eventReg p = false) (ho : eventReg o = false) :
    (s.bump p).rget o = s.rget o + if o = p then 1 else 0 := by
  rw [bump_rget s o hp ho runs]
  split
  · next h => rw [h]
  · simp

/-- The count of failures advanced, and that of guard failures where the cause is 3. -/
def pwfCounted (s : State) (cause : Nat) : State :=
  (if cause = 3 then s.bump Reg.hifGuardFaultCnt else s).bump Reg.hifPwfCnt

/-- Outside the event queues, a failure advances the two counters alone. -/
theorem pwfCounted_rget (runs : s.quenched 9 = false) (ho : eventReg o = false) :
    (s.pwfCounted cause).rget o =
      s.rget o + (if o = Reg.hifGuardFaultCnt ∧ cause = 3 then 1 else 0) + if o = Reg.hifPwfCnt then 1 else 0 := by
  have pwf (t : State) (h : t.quenched 9 = false) := bump_rget_add (p := Reg.hifPwfCnt) h rfl ho
  have guard := bump_rget_add (s := s) (p := Reg.hifGuardFaultCnt) runs rfl ho
  unfold pwfCounted
  split
  · next h => rw [pwf _ (by rw [bump_quenched, runs]), guard]; simp only [h, and_true]
  · next h => rw [pwf s runs]; simp only [h, and_false, if_false, BitVec.ofNat_eq_ofNat, BitVec.add_zero]

/-! ### The entry of the log -/

/-- The index of the first log register of failure number `n`. -/
def pwfEntry (n : Word) : Nat := 4 * ((n.toNat + 2 ^ 32 - 1) % 64)

theorem pwfEntry_bounds (n : Word) : pwfEntry n % 4 = 0 ∧ pwfEntry n < 256 := by
  unfold pwfEntry
  omega

/-- The entry of the failure last counted, filled. -/
def pwfLogged (s : State) (host tag addr : Nat) (data : Word) (time cause : Nat) : State :=
  (((s.rset (Reg.hifPwfLog (pwfEntry (s.rget Reg.hifPwfCnt))) (BitVec.ofNat 32 addr)).rset
    (Reg.hifPwfLog (pwfEntry (s.rget Reg.hifPwfCnt) + 1)) data).rset
    (Reg.hifPwfLog (pwfEntry (s.rget Reg.hifPwfCnt) + 2)) (BitVec.ofNat 32 time)).rset
    (Reg.hifPwfLog (pwfEntry (s.rget Reg.hifPwfCnt) + 3))
      (BitVec.ofNat 32 (tag % 2 ^ 16 + 2 ^ 16 * (host % 256) + 2 ^ 24 * cause))

theorem pwfFail_eq (runs : s.quenched 9 = false) : s.pwfFail host tag addr data time cause =
    ((s.pwfCounted cause).pwfLogged host tag addr data time cause).raise 0x1002
      ((s.pwfCounted cause).rget Reg.hifPwfCnt).toNat := by
  unfold pwfFail pwfLogged pwfCounted pwfEntry
  rw [if_neg (by rw [runs]; decide)]

/-- A register outside the entry stands. -/
theorem pwfLogged_other {e : Nat} (he : e = pwfEntry (s.rget Reg.hifPwfCnt))
    (h : ∀ i < 4, o ≠ Reg.hifPwfLog (e + i)) :
    (s.pwfLogged host tag addr data time cause).rget o = s.rget o := by
  have h0 : o ≠ Reg.hifPwfLog e := h 0 (by decide)
  rw [pwfLogged, ← he, rget_rset_other _ _ (h 3 (by decide)), rget_rset_other _ _ (h 2 (by decide)),
    rget_rset_other _ _ (h 1 (by decide)), rget_rset_other _ _ h0]

/-- The four registers of the entry hold the four words. -/
theorem pwfLogged_entry {e : Nat} (he : e = pwfEntry (s.rget Reg.hifPwfCnt)) :
    (s.pwfLogged host tag addr data time cause).rget (Reg.hifPwfLog e) = BitVec.ofNat 32 addr ∧
    (s.pwfLogged host tag addr data time cause).rget (Reg.hifPwfLog (e + 1)) = data ∧
    (s.pwfLogged host tag addr data time cause).rget (Reg.hifPwfLog (e + 2)) = BitVec.ofNat 32 time ∧
    (s.pwfLogged host tag addr data time cause).rget (Reg.hifPwfLog (e + 3)) =
      BitVec.ofNat 32 (tag % 2 ^ 16 + 2 ^ 16 * (host % 256) + 2 ^ 24 * cause) := by
  simp [pwfLogged, ← he, rget_rset]

theorem eventReg_hifPwfLog (hk : k < 256) : eventReg (Reg.hifPwfLog k) = false := by
  simp [eventReg, Reg.hifPwfLog]
  omega

theorem pwfCounted_log (hk : k < 256) : (s.pwfCounted cause).rget (Reg.hifPwfLog k) = s.rget (Reg.hifPwfLog k) := by
  have count (t : State) {p : Nat} (hp : p < 0x8400) : (t.bump p).rget (Reg.hifPwfLog k) = t.rget (Reg.hifPwfLog k) :=
    bump_other t p _ (eventReg_hifPwfLog hk) (by unfold Reg.hifPwfLog; omega)
  rw [pwfCounted, count _ (by decide)]
  split
  · exact count s (by decide)
  · rfl

/-- Outside the event queues, a failure leaves what its counts and its entry hold. -/
theorem pwfNow_rget (runs : s.quenched 9 = false) (ho : eventReg o = false) :
    (s.pwfNow host tag addr data cause).rget o =
      ((s.pwfCounted cause).pwfLogged host tag addr data s.clkUs cause).rget o := by
  rw [pwfNow, pwfFail_eq runs, raise_keepsRegs _ _ _ o ho]

end State

open State

/-- Settles O11: the entry is filled between the counts and the event, which changes none of its registers. -/
theorem failureLogged : Obligations.FailureLogged := by
  intro s host tag addr cause data runs
  have count : (s.pwfCounted cause).rget Reg.hifPwfCnt = s.rget Reg.hifPwfCnt + 1 := by
    rw [pwfCounted_rget runs rfl]
    simp
  obtain ⟨four, bound⟩ := pwfEntry_bounds (s.rget Reg.hifPwfCnt + 1)
  obtain ⟨h0, h1, h2, h3⟩ := pwfLogged_entry (s := s.pwfCounted cause) (host := host) (tag := tag) (addr := addr)
    (data := data) (time := s.clkUs) (cause := cause) (congrArg pwfEntry count.symm)
  have log {k : Nat} (hk : k < 256) := pwfNow_rget (host := host) (tag := tag) (addr := addr) (data := data)
    (cause := cause) runs (eventReg_hifPwfLog hk)
  have counter {o : Nat} (ho : eventReg o = false) (h : o < 0x8400) :
      (s.pwfNow host tag addr data cause).rget o = (s.pwfCounted cause).rget o :=
    (pwfNow_rget runs ho).trans (pwfLogged_other rfl fun i _ => by unfold Reg.hifPwfLog; omega)
  refine ⟨_, pwfEntry (s.rget Reg.hifPwfCnt + 1), _, _, rfl, rfl, rfl, by rw [pwfNow, pwfFail_eq runs, count],
    (counter rfl (by decide)).trans count, (log (by omega)).trans h0, (log (by omega)).trans h1,
    (log (by omega)).trans h2, (log (by omega)).trans h3, ?_, fun k hk other => ?_⟩
  · rw [counter rfl (by decide), pwfCounted_rget runs rfl]
    simp
  · rw [log hk, pwfLogged_other (congrArg pwfEntry count.symm), pwfCounted_log hk]
    intro i hi
    unfold Reg.hifPwfLog
    omega

end Sys2Proof.Machine
end

section
/-! AtomicOps of the main host (R56): the one store that they make, in BAR2 or in a register. -/

namespace Sys2Proof.Machine

@[simp] theorem length_leBytes (n v : Nat) : (leBytes n v).length = n := by simp [leBytes]

theorem getElem_leBytes {n v i : Nat} (h : i < (leBytes n v).length) :
    (leBytes n v)[i] = BitVec.ofNat 8 (v / 256 ^ i) := by
  simp [leBytes]

namespace State

variable {s : State} {r : RegRow} {kind : AtomicKind} {wide : Bool} {off operand compare a c i : Nat} {l : List Byte}

/-! ### Bytes of slot memory -/

@[simp] theorem mwrite_out (l : List Byte) (s : State) (a : Nat) : (s.mwrite a l).out = s.out := by
  induction l generalizing s a with
  | nil => rfl
  | cons b t ih => rw [mwrite, ih, mset_out]

@[simp] theorem slotWrite_out (s : State) (a : Nat) (l : List Byte) : (s.slotWrite a l).out = s.out := mwrite_out l s a

theorem mget_slotWrite (h : i < l.length) : (s.slotWrite a l).mget (a + i) = l[i] := mget_mwrite l s a i h

theorem mget_slotWrite_other (h : c < a ∨ a + l.length ≤ c) : (s.slotWrite a l).mget c = s.mget c :=
  mget_mwrite_other l s a c h

/-- The DWORDs of a BAR2 AtomicOp: one, or two where it is 64 bits wide. -/
def atomicStore (s : State) (a : Nat) (l : List Byte) (wide : Bool) : State :=
  if wide then (s.slotWrite a (l.take 4)).slotWrite (a + 4) (l.drop 4) else s.slotWrite a (l.take 4)

@[simp] theorem atomicStore_out : (s.atomicStore a l wide).out = s.out := by
  unfold atomicStore
  split <;> simp

theorem mget_atomicStore (hl : l.length = if wide then 8 else 4) (h : i < l.length) :
    (s.atomicStore a l wide).mget (a + i) = l[i] := by
  cases wide with
  | false =>
    have ht : i < (l.take 4).length := by simp at hl ⊢; omega
    exact (mget_slotWrite ht).trans List.getElem_take
  | true =>
    by_cases low : i < 4
    · have ht : i < (l.take 4).length := by simp at hl ⊢; omega
      rw [atomicStore, if_pos rfl, mget_slotWrite_other (by omega), mget_slotWrite ht, List.getElem_take]
    · obtain ⟨j, rfl⟩ := Nat.exists_eq_add_of_le (Nat.not_lt.1 low)
      have hd : j < (l.drop 4).length := by simp; omega
      rw [atomicStore, if_pos rfl, ← Nat.add_assoc, mget_slotWrite hd, List.getElem_drop]

theorem mget_atomicStore_other (hl : l.length = if wide then 8 else 4) (h : c < a ∨ a + l.length ≤ c) :
    (s.atomicStore a l wide).mget c = s.mget c := by
  unfold atomicStore
  split
  · rw [mget_slotWrite_other (by simp; omega), mget_slotWrite_other (by simp; omega)]
  · rw [mget_slotWrite_other (by simp; omega)]

theorem atomicStore_only : Only (Group.mem ||| Group.mbx) s (s.atomicStore a l wide) := by
  have first : Only (Group.mem ||| Group.mbx) s (s.slotWrite a (l.take 4)) := Only.slotWrite0 ..
  unfold atomicStore
  split
  · exact first.trans (Only.slotWrite0 ..)
  · exact first

/-! ### The three outcomes (R56) -/

theorem exec_atomicOp_disabled {bar2 : Bool} (h : s.Reached) (dis : s.rfld Reg.hifHostCtrl 8 1 = 0) :
    exec (.atomicOp kind bar2 wide off operand compare) s = .next (s.emit (.atomicDone false 0)) := by
  show Host.Outcome.next (s.doAtomicOp kind bar2 wide off operand compare) = _
  simp [doAtomicOp, h.up, linkSeen_reached h, guardExpire_fresh s h.fresh, dis]

theorem exec_atomicOp_bar2 {n : Nat} (h : s.Reached) (en : s.rfld Reg.hifHostCtrl 8 1 = 1)
    (hn : n = if wide then 8 else 4) (aligned : off % n = 0) (inside : off + n ≤ 0x80000) :
    exec (.atomicOp kind true wide off operand compare) s =
      .next ((s.atomicStore (0x40000000 + off)
        (leBytes n (atomicNew kind (8 * n) (leNat (s.mread (0x40000000 + off) n)) operand compare)) wide).emit
          (.atomicDone true (leNat (s.mread (0x40000000 + off) n)))) := by
  show Host.Outcome.next (s.doAtomicOp kind true wide off operand compare) = _
  simp [doAtomicOp, h.up, linkSeen_reached h, guardExpire_fresh s h.fresh, en, Dom.host, h.runs, ← hn, aligned,
    inside, atomicStore]

/-- A register that an AtomicOp may act on has RW bits alone, and the main host may write it. -/
theorem atomicReg_writable (ok : s.atomicReg off = true) (row : s.servedRow off = some r) (inside : off < 0x80000) :
    s.Writable 0 off r ∧ r.rwg = 0 ∧ r.rw ≠ 0 := by
  simp only [atomicReg, row, Bool.and_eq_true, bne_iff_ne, beq_iff_eq, Nat.or_eq_zero_iff, Option.isNone_iff_eq_none]
    at ok
  obtain ⟨_, ⟨rw, ⟨⟨⟨rwg, _⟩, _⟩, _⟩, _⟩, free⟩ := ok
  exact ⟨⟨inside, row, free⟩, rwg, rw⟩

theorem exec_atomicOp_plain (h : s.Reached) (en : s.rfld Reg.hifHostCtrl 8 1 = 1) (aligned : off % 4 = 0)
    (inside : off < 0x80000) (hp : plainReg off = true) (row : s.servedRow off = some r) (ok : s.atomicReg off = true) :
    exec (.atomicOp kind false false off operand compare) s =
      .next ((s.rset off (s.stored r off (BitVec.ofNat 32 (atomicNew kind 32 (s.rget off).toNat operand compare)))).emit
        (.atomicDone true (s.rget off).toNat)) := by
  obtain ⟨w, rwg, rw⟩ := atomicReg_writable ok row inside
  have store (v : Word) : (s.writeDirect 0 0 off v).regHook off = s.rset off (s.stored r off v) := by
    rw [writeDirect_plain hp w rwg (by simp [rw]), plain_regHook _ _ hp inside]
  show Host.Outcome.next (s.doAtomicOp kind false false off operand compare) = _
  simp [doAtomicOp, h.up, linkSeen_reached h, guardExpire_fresh s h.fresh, en, Dom.host, h.runs, aligned, ok, store]

end State

/-- Settles O12: a refused AtomicOp answers alone, and the two others make one store before they answer. -/
theorem atomicOps : Obligations.AtomicOps := by
  intro s kind wide off operand compare hs
  refine ⟨fun disabled bar2 => State.exec_atomicOp_disabled hs disabled, fun en aligned inside => ?_,
    fun r en aligned inside hp row ok => State.exec_atomicOp_plain hs en aligned inside hp row ok⟩
  refine ⟨_, _, _, State.exec_atomicOp_bar2 hs en rfl aligned inside, rfl, rfl, by simp, fun i hi => ?_, fun a ha => ?_,
    State.atomicStore_only.emit (by decide)⟩
  · rw [State.emit_mget, State.mget_atomicStore (length_leBytes ..) (by simpa using hi), getElem_leBytes]
  · rw [State.emit_mget, State.mget_atomicStore_other (length_leBytes ..) (by simpa using ha)]

end Sys2Proof.Machine
end

section
/-! Interrupt messages (R41): an entry of the MSI-X table, and what the end of a vector's holdoff sends or leaves
pending. -/

namespace Sys2Proof.Machine

namespace State

variable {s : State} {v addr : Nat} {data : Word} {masked : Bool}

theorem exec_registerWrite_msixEntry (up : s.bridgeUp = true) (link : s.hif.linkUp = true) (hv : v < 256) :
    exec (.registerWrite (.msixEntry v addr data masked)) s =
      .next (s.setHif { s.hif with msix := aset s.hif.msix v { addr := addr, data := data, masked := masked } }) := by
  show Host.Outcome.next (s.doRegisterWrite (.msixEntry v addr data masked)) = _
  simp [doRegisterWrite, up, linkSeen, link, Nat.not_le.2 hv]

/-! ### A message that is sent, or left pending -/

@[simp] theorem waitUntil_canDma (s : State) (t : Nat) : (s.waitUntil t).canDma = s.canDma := by
  simp [canDma, rfld, waitUntil]

@[simp] theorem waitUntil_vecMasked (s : State) (t v : Nat) : (s.waitUntil t).vecMasked v = s.vecMasked v := by
  simp [vecMasked]

/-- What a vector's message leaves once it is sent. -/
theorem sendMsix_state (s : State) (v : Nat) : (s.sendMsix v).out = s.out ++ [.msix v] ∧ v ∉ (s.sendMsix v).hif.heldOff ∧
    v ∉ (s.sendMsix v).hif.pba ∧ aget (s.sendMsix v).hif.lastMsg v = some (s.sendMsix v).clk :=
  ⟨rfl, by simp [sendMsix], by simp [sendMsix], aget_aset_same ..⟩

theorem messageDue_sends (dma : s.canDma = true) (unmasked : s.vecMasked v = false) : s.messageDue v = s.sendMsix v := by
  simp [messageDue, dma, unmasked]

/-- A message that may not be sent becomes the vector's pending bit. -/
theorem messageDue_pends (h : s.canDma = false ∨ s.vecMasked v = true) : (s.messageDue v).out = s.out ∧
    v ∉ (s.messageDue v).hif.heldOff ∧ v ∈ (s.messageDue v).hif.pba := by
  have held : (!s.canDma || s.vecMasked v) = true := by simpa using h
  simp [messageDue, held]

/-! ### The two rows -/

theorem exec_irqHoldoffExpiry (held : v ∈ s.hif.heldOff) :
    exec (.irqHoldoffExpiry v) s = .next ((s.waitUntil (s.nextMessage v)).messageDue v) := by
  show Host.Outcome.next (s.doIrqHoldoffExpiry v) = _
  simp [doIrqHoldoffExpiry, held]

theorem exec_msixPendingSend (pending : v ∈ s.hif.pba) (dma : s.canDma = true) (unmasked : s.vecMasked v = false) :
    exec (.msixPendingSend v) s = .next ((s.waitUntil (s.nextMessage v)).sendMsix v) := by
  show Host.Outcome.next (s.doMsixPendingSend v) = _
  simp [doMsixPendingSend, pending, dma, unmasked]

theorem waitUntil_sendMsix_only (s : State) (t v : Nat) :
    Only (Group.clk ||| Group.hif ||| Group.dom) s ((s.waitUntil t).sendMsix v) :=
  .sendMsix (by decide) (.waitUntil (by decide) (.refl _ s))

end State

open State

/-- Settles O14: both rows wait for the end of the vector's holdoff, and then its message is sent or left pending. -/
theorem interruptMessages : Obligations.InterruptMessages := by
  intro s v
  refine ⟨fun addr data masked up link hv => exec_registerWrite_msixEntry up link hv, fun held dma unmasked => ?_,
    fun held mayNot => ?_, fun pending dma unmasked => ?_⟩
  · obtain ⟨out, notHeld, notPending, sent⟩ := sendMsix_state (s.waitUntil (s.nextMessage v)) v
    exact ⟨_, by rw [exec_irqHoldoffExpiry held, messageDue_sends (by simpa) (by simpa)], rfl, by simpa using out, notHeld,
      notPending, sent, waitUntil_sendMsix_only ..⟩
  · obtain ⟨out, notHeld, isPending⟩ := messageDue_pends (s := s.waitUntil (s.nextMessage v)) (v := v) (by simpa)
    exact ⟨_, exec_irqHoldoffExpiry held, by simpa using out, notHeld, isPending,
      .messageDue (by decide) (.waitUntil (by decide) (.refl _ s))⟩
  · obtain ⟨out, -, notPending, sent⟩ := sendMsix_state (s.waitUntil (s.nextMessage v)) v
    exact ⟨_, exec_msixPendingSend pending dma unmasked, by simpa using out, notPending, sent, waitUntil_sendMsix_only ..⟩

end Sys2Proof.Machine
end

section
/-! The heartbeat of the firmware (R81) and the parity scrub of the registers (R53). -/

namespace Sys2Proof.Machine

namespace State

variable {s : State} {off : Nat} {r : RegRow}

theorem exec_devHeartbeatTick (ready : s.fwReadyNow = true) (run : s.pwr.state = .run) : exec .devHeartbeatTick s =
    .next ((s.waitUntil (s.pwr.runAt + 1000000 * ((s.clk - s.pwr.runAt) / 1000000 + 1))).bump Reg.devHeartbeat) := by
  show Host.Outcome.next s.doDevHeartbeatTick = _
  simp [doDevHeartbeatTick, ready, run]

/-- A register with parity whose owner is one domain: the mismatch is counted, reported and raised. -/
theorem doParityScrub_owned (up : s.forgeUp = true) (row : regRow off = some r) (parity : r.rw ||| r.rwg ≠ 0)
    (one : off / 0x8000 ≠ 4) : s.doParityScrub off =
      ((s.bump Reg.hifParityCnt).fenceReport (ownerOf off) 3).raise 0x1003 off := by
  simp only [doParityScrub, up, row, if_neg parity, parityQuench, if_neg one, Bool.not_true, Bool.false_eq_true, if_false]

theorem doParityScrub_none (up : s.forgeUp = true) (row : regRow off = some r) (noParity : r.rw ||| r.rwg = 0) :
    s.doParityScrub off = s := by
  simp only [doParityScrub, up, row, if_pos noParity, Bool.not_true, Bool.false_eq_true, if_false]

end State

/-- Settles O19: the scrub's row runs `State.doParityScrub` and restarts the block if that is due. -/
theorem heartbeatAndParity : Obligations.HeartbeatAndParity := by
  intro s
  have scrub (off : Nat) : exec (.parityScrub off) s = .next (s.doParityScrub off).restartIfDue := rfl
  refine ⟨State.exec_devHeartbeatTick, fun off r up row parity one => ?_, fun off r up row noParity => ?_⟩
  · rw [scrub, State.doParityScrub_owned up row parity one]
  · rw [scrub, State.doParityScrub_none up row noParity]

end Sys2Proof.Machine
end

section
/-! EVQ_CONFIG and RING_CONFIG (R79, R80): a disabling ends at once, and an enabling after its one check of the
parameters. -/

namespace Sys2Proof.Machine

namespace State

variable {s t : State} {host q op st n base : Nat} {c : Cmd} {f : Cmd → State → Exec}

/-- A ready command that ends at once with OK if its one check holds, and fails otherwise. -/
theorem runCmd_checked {p : Prop} [Decidable p] (h : s.Ready host q op c)
    (e : f c s = Exec.check (decide p) s st (.done t St.ok 0 [])) :
    s.runCmd host q op f = if p then t.finishCmd c.index St.ok 0 [] else s.failCmd c.index st := by
  by_cases hp : p
  · rw [if_pos hp]
    exact runCmd_done h (by rw [e, decide_eq_true hp, check_true])
  · rw [if_neg hp]
    exact runCmd_fail h (by rw [e, decide_eq_false hp, check_false])

/-! ### The host's event queue (R79) -/

theorem evqConfig_disable (runs : s.quenched 9 = false) (dis : bit (c.u 1 1) 0 = false) :
    evqConfig c s = .done (s.evqDisable c.host) St.ok 0 [] := by
  rw [evqConfig, need_ok (by simpa using runs), dis]
  rfl

theorem evqDisable_eq (s : State) (h : Nat) :
    s.evqDisable h = if h = 0 then (s.rsetF (Reg.evqCfg 0) 0 1 0).heldDrop 0 else s.rsetF (Reg.evqCfg h) 0 1 0 := by
  unfold evqDisable
  split
  · next h0 => rw [h0]
  · rfl

/-- The event queue of a host with a new configuration and both counts at 0. -/
def evqEnable (s : State) (h flags size base : Nat) : State :=
  ((((s.rset (Reg.evqCfg h) (cfgWord (flags % 4) size)).rset (Reg.evqProd h) 0).rset (Reg.evqCons h) 0).rset64
    (Reg.evqBaseLo h) base).evqGap h

theorem evqConfig_enable (runs : s.quenched 9 = false) (en : bit (c.u 1 1) 0 = true)
    (hb : base = if c.host = 0 then c.u 8 8 else 0x02010000) :
    evqConfig c s = Exec.check (decide (s.rfld (Reg.evqCfg c.host) 0 1 = 0 ∧ 8 ≤ c.u 0 1 ∧
        c.u 0 1 ≤ (if c.host = 0 then 16 else 12) ∧ base % 4096 = 0)) s St.badParam
      (.done (s.evqEnable c.host (c.u 1 1) (c.u 0 1) base) St.ok 0 []) := by
  rw [evqConfig, need_ok (by simpa using runs), en, hb]
  simp only [Bool.decide_and, ← beq_eq_decide, Bool.and_assoc]
  rfl

/-! ### Rings (R80) -/

theorem ringConfig_disable (runs : s.quenched 9 = false) (dis : bit (c.u 1 1) 0 = false) (hn : n = c.u 0 1 % 32) :
    ringConfig c s = .done (if bit (c.u 0 1) 7 then (if s.rfld (Reg.hifTxrCfg n) 0 1 = 1 then s.txDisable n else s)
      else if s.rfld (Reg.hifRxrCfg n) 0 1 = 1 then s.rxDisable n else s) St.ok 0 [] := by
  rw [ringConfig, need_ok (by simpa using runs), dis, hn]
  cases bit (c.u 0 1) 7 <;> simp [beq_eq_decide]

theorem ringConfig_enableTx (runs : s.quenched 9 = false) (en : bit (c.u 1 1) 0 = true) (hn : n = c.u 0 1 % 32)
    (tx : bit (c.u 0 1) 7 = true) :
    ringConfig c s = Exec.check (decide (s.rfld (Reg.hifTxrCfg n) 0 1 ≠ 1 ∧ 16 ≤ c.u 2 1 ∧ c.u 2 1 ≤ 24 ∧
        c.u 8 8 % 4096 = 0 ∧ c.u 16 8 % 8 = 0)) s St.badParam
      (.done (s.ringEnable true n (c.u 1 1) (c.u 2 1) (c.u 8 8) (c.u 16 8)) St.ok 0 []) := by
  rw [ringConfig, need_ok (by simpa using runs), en, hn, tx]
  simp only [Bool.decide_and, decide_not, ← beq_eq_decide, Bool.and_assoc]
  rfl

theorem ringConfig_enableRx (runs : s.quenched 9 = false) (en : bit (c.u 1 1) 0 = true) (hn : n = c.u 0 1 % 32)
    (rx : bit (c.u 0 1) 7 = false) :
    ringConfig c s = Exec.check (decide (s.rfld (Reg.hifRxrCfg n) 0 1 ≠ 1 ∧ 16 ≤ c.u 2 1 ∧ c.u 2 1 ≤ 24 ∧
        c.u 8 8 % 4096 = 0)) s St.badParam
      (.done (s.ringEnable false n (c.u 1 1) (c.u 2 1) (c.u 8 8) (c.u 16 8)) St.ok 0 []) := by
  rw [ringConfig, need_ok (by simpa using runs), en, hn, rx]
  simp only [Bool.decide_and, decide_not, ← beq_eq_decide, Bool.and_assoc, Bool.not_false, Bool.true_or, Bool.and_true]
  rfl

end State

/-- Settles O17: the two commands run by the equations of `State.evqConfig` and `State.ringConfig`. -/
theorem queueCommands : Obligations.QueueCommands := by
  intro s host q c runs
  have evq : exec (.evqConfig host q) s = .next (s.runCmd host q 0x0110 State.evqConfig) := rfl
  have ring : exec (.ringConfig host q) s = .next (s.runCmd host q 0x0111 State.ringConfig) := rfl
  refine ⟨fun h dis => ?_, fun base h hb en => ?_, fun n h hn en => ⟨fun tx => ?_, fun rx => ?_⟩,
    fun n h hn dis => ⟨fun tx => ?_, fun rx => ?_⟩⟩
  · rw [evq, runCmd_done h (State.evqConfig_disable runs dis), State.evqDisable_eq]
  · rw [evq, State.runCmd_checked h (State.evqConfig_enable runs en hb)]
    rfl
  · rw [ring, State.runCmd_checked h (State.ringConfig_enableTx runs en hn tx)]
    rfl
  · rw [ring, State.runCmd_checked h (State.ringConfig_enableRx runs en hn rx)]
    rfl
  · rw [ring, runCmd_done h (State.ringConfig_disable runs dis hn), if_pos tx]
    rfl
  · rw [ring, runCmd_done h (State.ringConfig_disable runs dis hn), if_neg (by simp [rx])]

end Sys2Proof.Machine
end

section
/-! The SPI target (R42 to R48): how a transaction is judged, and what each row answers. -/

namespace Sys2Proof.Machine

namespace State

variable {s : State} {addr count status : Nat} {crc op : Byte} {ready malformed refused : Bool} {v comp w : Word}
  {data : List Word} {sent : List Byte}

/-! ### STATUS (R46) -/

theorem spiJudge_crc (h : crc ≠ Crypto.crc8Spi sent) : s.spiJudge sent crc malformed refused = 1 := if_pos h

/-- STATUS of a transaction that a running host domain judges. -/
theorem spiJudge_running (runs : s.quenched 9 = false) : s.spiJudge sent crc malformed refused =
    if crc ≠ Crypto.crc8Spi sent then 1 else if malformed then 3 else if refused then 2 else 0 := by
  simp [spiJudge, Dom.host, runs]

theorem spiJudge_ok (runs : s.quenched 9 = false) : s.spiJudge sent (Crypto.crc8Spi sent) false false = 0 := by
  simp [spiJudge_running runs]

/-! ### Reads (R43, R45) -/

/-- STATUS that the head of a read calls for. -/
def readJudge (s : State) (addr count : Nat) (crc : Byte) : Nat :=
  s.spiJudge (leBytes 4 addr ++ leBytes 1 (count % 256)) crc (addr % 4 != 0 || decide (63 < count % 256))
    (spiRow addr != spiRow (addr + 4 * (count % 256)))

/-- The words that a read of `n + 1` words answers, low byte first. -/
def readWords (s : State) (addr n : Nat) : List Byte :=
  (List.range (n + 1)).flatMap fun i => leBytes 4 (s.readSpi (addr + 4 * i)).toNat

theorem exec_spiRead_refused (up : s.bridgeUp = true) (judged : s.readJudge addr count crc = status) (h0 : status ≠ 0) :
    exec (.spiRead addr count crc ready) s = .next (s.spiBegin.spiDone status [0xA5, BitVec.ofNat 8 status]) := by
  have judged : s.spiBegin.spiJudge _ _ _ _ = status := judged
  show Host.Outcome.next (s.doSpiRead addr count crc ready) = _
  simp [doSpiRead, up, judged, h0]

/-- A read that is in order answers STATUS 4 until the data is there (R45, R81), and then its words. -/
theorem exec_spiRead_ok (up : s.bridgeUp = true) (judged : s.readJudge addr count crc = 0) :
    exec (.spiRead addr count crc ready) s = .next (if ready = false ∨ s.pwr.booted = false
      then s.spiBegin.spiDone 4 [0xA5, 4]
      else s.spiBegin.spiDone 0 (0xA5 :: 0 :: s.spiBegin.readWords addr (count % 256) ++
        [Crypto.crc8Spi (0 :: s.spiBegin.readWords addr (count % 256))])) := by
  have judged : s.spiBegin.spiJudge _ _ _ _ = 0 := judged
  show Host.Outcome.next (s.doSpiRead addr count crc ready) =
    .next (if ready = false ∨ s.spiBegin.pwr.booted = false then _ else _)
  by_cases wait : ready = false ∨ s.spiBegin.pwr.booted = false
  · rw [if_pos wait]
    simp [doSpiRead, up, judged, wait]
  · rw [if_neg wait]
    simp [doSpiRead, up, judged, wait, readWords]

/-! ### Writes (R43, R44) -/

/-- STATUS of a write. -/
def writeJudge (s : State) (addr count : Nat) (data : List Word) (crc : Byte) : Nat :=
  s.spiJudge (leBytes 4 addr ++ leBytes 1 (count % 256) ++ data.flatMap fun w => leBytes 4 w.toNat) crc
    (addr % 4 != 0 || decide (63 < count % 256)) (spiRow addr != spiRow (addr + 4 * (count % 256)))

theorem exec_spiWrite_cut (up : s.bridgeUp = true) (cut : data.length ≠ count % 256 + 1) :
    exec (.spiWrite addr count data crc) s = .next (s.bump Reg.hifSpiCrcCnt) := by
  show Host.Outcome.next (s.doSpiWrite addr count data crc) = _
  simp [doSpiWrite, up, cut, doSpiCsCutShort]

/-- The words of a write of STATUS 0 take their places; a quenched host domain counts those that it discards. -/
theorem exec_spiWrite (up : s.bridgeUp = true) (whole : data.length = count % 256 + 1)
    (judged : s.writeJudge addr count data crc = status) :
    exec (.spiWrite addr count data crc) s = .next ((
      if status = 0 then
        data.zipIdx.foldl (fun s x => (s.writeSpi s.hif.spiCount (addr + 4 * x.2) x.1).regHook (addr + 4 * x.2))
          s.spiBegin
      else if s.quenched 9 && status == 2 then s.spiBegin.discardWord 1 data.length
      else s.spiBegin).spiDone status (statusPair status)) := by
  subst judged
  show Host.Outcome.next (s.doSpiWrite addr count data crc) = _
  rw [doSpiWrite, up]
  exact congrArg Host.Outcome.next (if_neg (not_not.2 whole))

theorem exec_spiWrite_crc (up : s.bridgeUp = true) (whole : data.length = count % 256 + 1)
    (judged : s.writeJudge addr count data crc = 1) :
    exec (.spiWrite addr count data crc) s = .next (s.spiBegin.spiDone 1 [1, 0xFE]) := by
  rw [exec_spiWrite up whole judged, if_neg one_ne_zero, if_neg (by simp)]
  rfl

theorem exec_spiWrite_slot (up : s.bridgeUp = true) (lo : 0x02000000 ≤ addr) (hi : addr < 0x02004000)
    (judged : s.writeJudge addr 0 [w] crc = 0) :
    exec (.spiWrite addr 0 [w] crc) s =
      .next (((s.spiBegin.slotWrite addr (leBytes 4 w.toNat)).regHook addr).spiDone 0 [0, 0xFF]) := by
  have slot : s.spiBegin.writeSpi s.spiBegin.hif.spiCount addr w = s.spiBegin.slotWrite addr (leBytes 4 w.toNat) :=
    if_pos ⟨lo, hi⟩
  rw [exec_spiWrite up rfl judged, ← slot]
  rfl

theorem exec_spiGuardedWrite (up : s.bridgeUp = true) (judged : s.spiJudge
      (leBytes 4 addr ++ leBytes 4 v.toNat ++ leBytes 4 comp.toNat) crc (addr % 4 != 0) (!s.guardedReg addr) = 0) :
    exec (.spiGuardedWrite addr v comp crc) s =
      .next ((((s.spiBegin.postReg 1 (s.hif.spiCount + 1) addr v).postReg 1 (s.hif.spiCount + 1)
        (addr + 0x80000) comp).regHook addr).spiDone 0 [0, 0xFF]) := by
  have judged : s.spiBegin.spiJudge _ _ _ (!s.spiBegin.guardedReg addr) = 0 := judged
  show Host.Outcome.next (s.doSpiGuardedWrite ..) = _
  rw [doSpiGuardedWrite, up]
  simp only [judged]
  rfl

/-! ### The status instruction, an unknown one, and a transaction cut short -/

theorem exec_spiUnknownInstruction (up : s.bridgeUp = true) (h1 : op ≠ 0x0B) (h2 : op ≠ 0x02) (h3 : op ≠ 0x12)
    (h4 : op ≠ 0x05) : exec (.spiUnknownInstruction op) s =
      .next (((s.spiBegin.bump Reg.hifSpiCrcCnt).setHif { (s.spiBegin.bump Reg.hifSpiCrcCnt).hif with spiStatus := 3 }).emit
        (.spi [0x00])) := by
  show Host.Outcome.next (s.doSpiUnknownInstruction op) = _
  rw [doSpiUnknownInstruction, up, beq_false_of_ne h1, beq_false_of_ne h2, beq_false_of_ne h3, beq_false_of_ne h4]
  rfl

theorem exec_spiStatus (up : s.bridgeUp = true) : exec .spiStatus s =
    .next (s.spiBegin.emit (.spi (leBytes 1 s.hif.spiStatus ++ leBytes 2 (s.rget Reg.hifSpiCrcCnt).toNat ++
      [Crypto.crc8Spi (leBytes 1 s.hif.spiStatus ++ leBytes 2 (s.rget Reg.hifSpiCrcCnt).toNat)]))) := by
  show Host.Outcome.next s.doSpiStatus = _
  rw [doSpiStatus, up]
  rfl

theorem exec_spiCsCutShort (up : s.bridgeUp = true) : exec .spiCsCutShort s = .next (s.bump Reg.hifSpiCrcCnt) := by
  show Host.Outcome.next s.doSpiCsCutShort = _
  rw [doSpiCsCutShort, if_pos up]

end State

/-- Settles O15: a transaction is judged by `State.spiJudge`, and each STATUS has its answer. -/
theorem spiTransactions : Obligations.SpiTransactions := by
  intro s up
  refine ⟨fun addr count crc ready runs => ?_, fun addr count data crc cut => State.exec_spiWrite_cut up cut,
    fun addr count data crc whole wrong => State.exec_spiWrite_crc up whole (State.spiJudge_crc wrong),
    fun addr w runs h4 lo hi => State.exec_spiWrite_slot up lo hi ?_,
    fun addr v comp runs h4 guarded => State.exec_spiGuardedWrite up ?_, State.exec_spiStatus up,
    fun op h1 h2 h3 h4 => ⟨_, State.exec_spiUnknownInstruction up h1 h2 h3 h4, rfl⟩, State.exec_spiCsCutShort up⟩
  · have judged : s.readJudge addr count crc = _ := State.spiJudge_running runs
    simp only [Bool.or_eq_true, bne_iff_ne, decide_eq_true_eq] at judged
    split_ifs with wrong malformed rows wait
    · exact State.exec_spiRead_refused up (judged.trans (if_pos wrong)) (by decide)
    · rw [if_neg wrong, if_pos malformed] at judged
      exact State.exec_spiRead_refused up judged (by decide)
    · rw [if_neg wrong, if_neg malformed, if_pos rows] at judged
      exact State.exec_spiRead_refused up judged (by decide)
    all_goals
      rw [if_neg wrong, if_neg malformed, if_neg rows] at judged
      rw [State.exec_spiRead_ok up judged]
    · rw [if_pos wait]
    · rw [if_neg wait]
      rfl
  · simpa [State.writeJudge, h4] using State.spiJudge_ok runs
  · rw [h4, guarded]
    exact State.spiJudge_ok runs

end Sys2Proof.Machine
end

section
/-! A timestamp queue that is disabled while main-host memory cannot be written (R41, R77): the write of its control
register changes more than that register. -/

namespace Sys2Proof.Machine

/-- The device in RUN with timestamp queue 0 enabled and Bus Master Enable clear, so that one entry of the queue waits
to be written. -/
def tsqWaiting : State :=
  { State.reset with
    pwr := { state := .run, fwReady := true, booted := true }
    hif := { linkUp := true, held := [(73, 0x1000, leBytes 16 0)] } }.rset (Reg.hifTsqCtrl 0) 1

theorem tsqWaiting_reached : tsqWaiting.Reached := ⟨rfl, rfl, rfl, by simp [tsqWaiting]⟩

/-- The row of the control registers of the timestamp queues. -/
def tsqCtrlRow : RegRow := (regRow (Reg.hifTsqCtrl 0)).getD ⟨0, 0, 0, 0, 0, 0, 0, 0, 0, 0, false⟩

theorem tsqWaiting_writable : tsqWaiting.Writable 0 (Reg.hifTsqCtrl 0) tsqCtrlRow :=
  ⟨by decide, by decide +kernel, by decide +kernel⟩

/-- Clearing EN drops the entry that waits. -/
theorem tsqWaiting_disabled_held : (tsqWaiting.hostPost 0 0 (Reg.hifTsqCtrl 0) 0).hif.held = [] := by decide +kernel

/-- Refutes O16: its last clause lets a write that clears EN of a timestamp queue change the control register alone, but
such a write also drops the queue's entries that wait for main-host memory (log entry 6). -/
theorem not_queueWrites : ¬ Obligations.QueueWrites := by
  intro h
  obtain ⟨-, -, -, -, -, stores⟩ := h tsqWaiting 0 0 0 tsqCtrlRow tsqWaiting_reached
  have claimed : exec (.tsqCtrlWrite 0 0 0 0) tsqWaiting =
      .next (tsqWaiting.rset (Reg.hifTsqCtrl 0) (tsqWaiting.stored tsqCtrlRow (Reg.hifTsqCtrl 0) 0)) :=
    stores (by decide) tsqWaiting_writable (by decide +kernel)
  have held : (tsqWaiting.hostPost 0 0 (Reg.hifTsqCtrl 0) 0).hif.held = [(73, 0x1000, leBytes 16 0)] :=
    congrArg (·.hif.held) (Host.Outcome.next.inj claimed)
  rw [tsqWaiting_disabled_held] at held
  cases held

end Sys2Proof.Machine
end

section
/-! What a frame that a receive ring drops leaves of the bridge: the PCIe link, and the registers that enable the main
host's queues. -/

namespace Sys2Proof.Machine

/-- Offsets of the shape that the enables of the event queues, rings and timestamp queues have. -/
def enableReg (o : Nat) : Bool := decide (o < 0x15000) && (o % 0x20 == 0 || o % 0x20 == 0x18)

namespace State

/-- The link and the registers that enable queues stand as they are. -/
structure KeepsBridge (s t : State) : Prop where
  link : t.hif.linkUp = s.hif.linkUp
  enables : ∀ o, enableReg o = true → t.rget o = s.rget o

theorem KeepsBridge.refl (s : State) : s.KeepsBridge s := ⟨rfl, fun _ _ => rfl⟩

theorem KeepsBridge.trans {s t u : State} (h : s.KeepsBridge t) (k : t.KeepsBridge u) : s.KeepsBridge u :=
  ⟨k.link.trans h.link, fun o ho => (k.enables o ho).trans (h.enables o ho)⟩

theorem KeepsBridge.foldl {α : Type} {f : State → α → State} (h : ∀ (s : State) x, s.KeepsBridge (f s x)) (l : List α)
    (s : State) : s.KeepsBridge (l.foldl f s) := by
  induction l generalizing s with
  | nil => exact .refl s
  | cons x r ih => exact (h s x).trans (ih _)

/-- An operation that changes neither the registers nor the bridge. -/
theorem KeepsBridge.of_only {m : Nat} {s t : State} (h : Only m s t) (hr : m.testBit 0 = false)
    (hh : m.testBit 3 = false) : s.KeepsBridge t :=
  ⟨congrArg Hif.linkUp (h.hif hh), fun o _ => by rw [rget, rget, h.regs hr]⟩

theorem KeepsBridge.rset (s : State) {p : Nat} (v : Word) (hp : enableReg p = false) : s.KeepsBridge (s.rset p v) := by
  refine ⟨rfl, fun o ho => rget_rset_other s v ?_⟩
  rintro rfl
  rw [hp] at ho
  cases ho

theorem not_enableReg {o : Nat} (h : 0x15000 ≤ o ∨ o % 0x20 ≠ 0 ∧ o % 0x20 ≠ 0x18) : enableReg o = false := by
  simp [enableReg]
  omega

theorem not_eventReg {o : Nat} (h : enableReg o = true) : eventReg o = false := by
  simp [enableReg] at h
  simp [eventReg]
  omega

variable (s : State)

/-! ### Events and counters -/

theorem signal_keepsBridge (v : Nat) : s.KeepsBridge (s.signal v) := by
  unfold signal
  split
  · exact ⟨rfl, fun _ _ => rfl⟩
  · split <;> exact ⟨rfl, fun _ _ => rfl⟩

theorem hostMem_keepsBridge (v a : Nat) (b : List Byte) : s.KeepsBridge (s.hostMem v a b) := by
  unfold hostMem
  split
  · exact .of_only (Only.hostOut0 ..) rfl rfl
  · exact ⟨rfl, fun _ _ => rfl⟩

theorem mwrite_keepsBridge (a : Nat) (b : List Byte) : s.KeepsBridge (s.mwrite a b) :=
  .of_only (.mwrite (m := 2) rfl (.refl _ s)) rfl rfl

theorem evqWrite_link (h code sev unit arg : Nat) : (s.evqWrite h code sev unit arg).hif.linkUp = s.hif.linkUp := by
  unfold evqWrite
  extract_lets k n r t u
  split
  · split
    · exact (signal_keepsBridge _ _).link.trans (hostMem_keepsBridge ..).link
    · exact (hostMem_keepsBridge ..).link
  · exact (mwrite_keepsBridge ..).link

theorem evqGap_link (h : Nat) : (s.evqGap h).hif.linkUp = s.hif.linkUp := by
  unfold evqGap
  extract_lets lost t
  split
  · exact evqWrite_link ..
  · rfl

theorem evqPut_link (h code sev unit arg : Nat) : (s.evqPut h code sev unit arg).hif.linkUp = s.hif.linkUp := by
  unfold evqPut
  extract_lets lost x t u
  refine (evqGap_link ..).trans ?_
  show (if _ then _ else _ : State).hif.linkUp = _
  split
  · show (if _ then _ else _ : State).hif.linkUp = _
    split <;> rfl
  · exact evqWrite_link ..

theorem evBoth_keepsBridge (code sev unit arg : Nat) : s.KeepsBridge (s.evBoth code sev unit arg) :=
  ⟨(evqPut_link ..).trans (evqPut_link ..), fun o ho => evBoth_keepsRegs s _ _ _ _ o (not_eventReg ho)⟩

theorem lostHalf_keepsBridge (n : Nat) (s t : State) : t.KeepsBridge (lostHalf n s t) := by
  induction n generalizing s t with
  | zero => exact .refl t
  | succ n ih => exact .foldl (fun u _ => (evBoth_keepsBridge u ..).trans (ih ..)) _ t

theorem raiseSev_keepsBridge (code sev unit arg : Nat) : s.KeepsBridge (s.raiseSev code sev unit arg) :=
  (evBoth_keepsBridge s ..).trans (lostHalf_keepsBridge ..)

theorem bump_keepsBridge {p : Nat} (hp : enableReg p = false) : s.KeepsBridge (s.bump p) := by
  unfold bump bumpBy
  extract_lets a b t
  have stored : s.KeepsBridge t := .rset s b hp
  split
  · exact .refl s
  · split
    · exact stored.trans (raiseSev_keepsBridge ..)
    · exact stored

/-! ### What the end of a frame counts -/

theorem tsqWrite_keepsBridge (g frameId port flags ns sec : Nat) :
    s.KeepsBridge (s.tsqWrite g frameId port flags ns sec) := by
  have prod : enableReg (Reg.hifTsqProd g) = false := not_enableReg (by unfold Reg.hifTsqProd; omega)
  unfold tsqWrite
  extract_lets k t u
  have written : s.KeepsBridge u := (hostMem_keepsBridge ..).trans (.rset _ _ prod)
  split
  · exact written.trans (signal_keepsBridge ..)
  · exact written

theorem tsqGap_keepsBridge (g : Nat) : s.KeepsBridge (s.tsqGap g) := by
  unfold tsqGap
  extract_lets lost t
  split
  · exact (tsqWrite_keepsBridge ..).trans ⟨rfl, fun _ _ => rfl⟩
  · exact .refl s

theorem tsqPut_keepsBridge (g frameId port flags ns sec : Nat) :
    s.KeepsBridge (s.tsqPut g frameId port flags ns sec) := by
  have count : enableReg (Reg.hifTsqLostCnt g) = false := not_enableReg (by unfold Reg.hifTsqLostCnt; omega)
  have lost (h : Hif) (same : h.linkUp = s.hif.linkUp) : s.KeepsBridge ((s.setHif h).bump (Reg.hifTsqLostCnt g)) :=
    have set : s.KeepsBridge (s.setHif h) := ⟨same, fun _ _ => rfl⟩
    set.trans (bump_keepsBridge _ count)
  unfold tsqPut
  refine KeepsBridge.trans ?_ (tsqGap_keepsBridge _ g)
  show s.KeepsBridge (if _ then _ else _)
  split
  · exact lost _ rfl
  · exact tsqWrite_keepsBridge ..

theorem discardCopy_keepsBridge (c : Copy) : s.KeepsBridge (s.discardCopy c) := by
  have taken : s.KeepsBridge (s.takeCopy c.fid c.port) := .of_only (Only.takeCopy0 ..) rfl rfl
  unfold discardCopy
  split
  · exact taken
  · refine taken.trans ?_
    unfold tsDiscard
    split
    · exact .refl _
    · split
      · exact tsqPut_keepsBridge ..
      · exact .refl _

theorem breach_keepsBridge (id h kind port value : Nat) (dest : Option Nat) :
    s.KeepsBridge (s.breach id h kind port value dest) := by
  have log (i : Nat) : enableReg (Reg.calBreachLog i) = false := not_enableReg (by unfold Reg.calBreachLog; omega)
  have word (u : State) (i v : Nat) : u.KeepsBridge (u.rset (Reg.calBreachLog i) (BitVec.ofNat 32 v)) := .rset _ _ (log i)
  unfold breach
  split
  · exact .refl s
  · extract_lets c e w l0 l1 l2 g r
    have logged : s.KeepsBridge l2 :=
      (bump_keepsBridge s rfl).trans <| (word _ _ _).trans <| (word _ _ _).trans <| (word _ _ _).trans <|
        (word _ _ _).trans <| (word _ _ _).trans <| (word _ _ _).trans <| (word _ _ _).trans <| word _ _ _
    have marked : l2.KeepsBridge g := by
      show l2.KeepsBridge (if _ then _ else _)
      split
      · exact .of_only (Only.gmod0 ..) rfl rfl
      · exact .refl l2
    have raised : s.KeepsBridge r := (logged.trans marked).trans (raiseSev_keepsBridge ..)
    split
    · exact raised
    · exact raised.trans (.of_only (Only.report0 ..) rfl rfl)

theorem lose_keepsBridge (fid egress cause : Nat) : s.KeepsBridge (s.lose fid egress cause) := by
  unfold lose
  split
  · exact .refl s
  · have forgotten : s.KeepsBridge (s.dropDeadline fid egress) := .of_only (Only.dropDeadline0 ..) rfl rfl
    dsimp only
    split
    · exact forgotten
    · exact forgotten.trans (breach_keepsBridge ..)

theorem sendPause_keepsBridge (p pri quanta : Nat) : s.KeepsBridge (s.sendPause p pri quanta) := by
  have sent : s.KeepsBridge (s.emit (.pauseSent p pri quanta)) := .of_only (Only.emit0 ..) rfl rfl
  have count : enableReg (Reg.stat p Reg.statTxPause) = false := not_enableReg (by unfold Reg.stat; omega)
  unfold sendPause stat
  split
  · exact sent.trans (bump_keepsBridge _ count)
  · exact sent

theorem flowOne_keepsBridge (p pri : Nat) : s.KeepsBridge (s.flowOne p pri) := by
  have port (f : BufPort → BufPort) : s.KeepsBridge (s.bportMod p f) := .of_only (Only.bportMod0 ..) rfl rfl
  unfold flowOne
  extract_lets n xoff xon on
  split
  · exact (port _).trans (sendPause_keepsBridge ..)
  · split
    · exact (port _).trans (sendPause_keepsBridge ..)
    · exact .refl s

theorem flowCheck_keepsBridge (p : Nat) : s.KeepsBridge (s.flowCheck p) := by
  unfold flowCheck
  split
  · exact .refl s
  · split
    · exact flowOne_keepsBridge ..
    · exact .foldl (fun t i => flowOne_keepsBridge t p i) _ s
    · exact .refl s

theorem freeCells_keepsBridge : s.KeepsBridge s.freeCells := by
  unfold freeCells
  dsimp only
  split
  · exact .refl s
  · exact KeepsBridge.trans (.of_only (m := 0x180) (.spillUpdate rfl (.setFr rfl (.refl _ s))) rfl rfl)
      (.foldl (fun u (f : Frame) => flowCheck_keepsBridge u f.src) _ _)

theorem gc_keepsBridge : s.KeepsBridge s.gc := by
  have freed : s.KeepsBridge s.freeEnded.freeCells :=
    KeepsBridge.trans (.of_only (Only.freeEnded0 s) rfl rfl) (freeCells_keepsBridge _)
  unfold gc
  extract_lets t dead gone
  split
  · exact freed
  · exact freed.trans (.of_only (m := 0xA0) (.drainGone rfl (.owedGone rfl (.setFr rfl (.refl _ _)))) rfl rfl)

/-! ### Receive rings -/

theorem rxMod_keepsBridge (n : Nat) (f : Ring → Ring) : s.KeepsBridge (s.rxMod n f) := ⟨rfl, fun _ _ => rfl⟩

theorem rxFinish_keepsBridge (n k : Nat) : s.KeepsBridge (s.rxFinish n k) := by
  have prod : enableReg (Reg.hifRxrProd n) = false := not_enableReg (by unfold Reg.hifRxrProd; omega)
  unfold rxFinish
  dsimp only
  split
  · exact (KeepsBridge.rset s _ prod).trans (signal_keepsBridge ..)
  · exact .rset s _ prod

theorem rxGap_keepsBridge (n : Nat) : s.KeepsBridge (s.rxGap n) := by
  unfold rxGap
  dsimp only
  split
  · exact ((hostMem_keepsBridge s ..).trans (rxMod_keepsBridge ..)).trans (rxFinish_keepsBridge ..)
  · exact .refl s

theorem ringDrop_keepsBridge (c : Copy) (n : Nat) (gap : Bool) : s.KeepsBridge (s.ringDrop c n gap) := by
  have count : enableReg (Reg.hifRxrDropCnt n) = false := not_enableReg (by unfold Reg.hifRxrDropCnt; omega)
  have ended (t : State) : t.KeepsBridge ((((t.discardCopy c).lose c.fid 67 7).gc).rxGap n) :=
    (((discardCopy_keepsBridge t c).trans (lose_keepsBridge ..)).trans (gc_keepsBridge _)).trans (rxGap_keepsBridge ..)
  have counted := bump_keepsBridge s count
  unfold ringDrop
  cases gap with
  | true => exact (counted.trans (rxMod_keepsBridge ..)).trans (ended _)
  | false => exact counted.trans (ended _)

end State
end Sys2Proof.Machine
end

section
/-! Resets of the PCIe side (R39, R579): every queue of the main host is disabled one after another, and none of these
steps enables another one again. -/

namespace Sys2Proof.Machine

namespace State

/-- The link stands as it is, and a queue that is disabled stays so. -/
structure TurnsOff (s t : State) : Prop where
  link : t.hif.linkUp = s.hif.linkUp
  off : ∀ o, enableReg o = true → s.rfld o 0 1 = 0 → t.rfld o 0 1 = 0

theorem TurnsOff.trans {s t u : State} (h : s.TurnsOff t) (k : t.TurnsOff u) : s.TurnsOff u :=
  ⟨k.link.trans h.link, fun o ho h0 => k.off o ho (h.off o ho h0)⟩

theorem KeepsBridge.turnsOff {s t : State} (h : s.KeepsBridge t) : s.TurnsOff t :=
  ⟨h.link, fun o ho h0 => by rw [rfld, h.enables o ho]; exact h0⟩

/-- A register whose bit 0 is cleared reads so. -/
theorem rfld_clear (s : State) (o : Nat) : (s.rsetF o 0 1 0).rfld o 0 1 = 0 := by
  simp only [rfld, rsetF, rget_rset_same, BitVec.toNat_ofNat, setBits_one, bits]
  omega

theorem clear_turnsOff (s : State) (o : Nat) : s.TurnsOff (s.rsetF o 0 1 0) := by
  refine ⟨rfl, fun p _ h0 => ?_⟩
  by_cases h : p = o
  · rw [h, rfld_clear]
  · rw [rfld, rsetF, rget_rset_other _ _ h]
    exact h0

theorem foldl_turnsOff {α : Type} {f : State → α → State} (step : ∀ (s : State) x, s.TurnsOff (f s x)) (l : List α)
    (s : State) : s.TurnsOff (l.foldl f s) := by
  induction l generalizing s with
  | nil => exact (KeepsBridge.refl s).turnsOff
  | cons x r ih => exact (step s x).trans (ih _)

/-- A run of steps, each of which clears the enable of its own queue, leaves all of these clear. -/
theorem foldl_off {f : State → Nat → State} {reg : Nat → Nat} (step : ∀ (s : State) n, s.TurnsOff (f s n))
    (own : ∀ (s : State) n, enableReg (reg n) = true → (f s n).rfld (reg n) 0 1 = 0) {l : List Nat} {n : Nat} (hn : n ∈ l)
    (en : enableReg (reg n) = true) (s : State) : (l.foldl f s).rfld (reg n) 0 1 = 0 := by
  induction l generalizing s with
  | nil => cases hn
  | cons m r ih =>
    obtain rfl | later := List.mem_cons.1 hn
    · exact (foldl_turnsOff step r _).off _ en (own s n en)
    · exact ih later _

/-! ### The queues of the main host -/

theorem heldDrop_keepsBridge (s : State) (vec : Nat) : s.KeepsBridge (s.heldDrop vec) := ⟨rfl, fun _ _ => rfl⟩

/-- After its enable is cleared, a receive ring drops its frames, which enables nothing. -/
theorem rxDisable_clear (s : State) (n : Nat) : (s.rsetF (Reg.hifRxrCfg n) 0 1 0).KeepsBridge (s.rxDisable n) := by
  unfold rxDisable
  exact KeepsBridge.trans (t := (((s.rsetF (Reg.hifRxrCfg n) 0 1 0).ringRewind n).rxMod n _).heldDrop _)
    ⟨rfl, fun _ _ => rfl⟩ (.foldl (fun t c => ringDrop_keepsBridge t c n false) _ _)

theorem rxDisable_turnsOff (s : State) (n : Nat) : s.TurnsOff (s.rxDisable n) :=
  (clear_turnsOff ..).trans (rxDisable_clear ..).turnsOff

theorem txDisable_turnsOff (s : State) (n : Nat) : s.TurnsOff (s.txDisable n) :=
  (clear_turnsOff ..).trans (heldDrop_keepsBridge ..).turnsOff

/-- Disable a timestamp queue. -/
def tsqDisable (s : State) (g : Nat) : State := (s.rsetF (Reg.hifTsqCtrl g) 0 1 0).heldDrop (73 + g)

theorem tsqDisable_turnsOff (s : State) (g : Nat) : s.TurnsOff (s.tsqDisable g) :=
  (clear_turnsOff ..).trans (heldDrop_keepsBridge ..).turnsOff

theorem hostQueuesOff_eq (s : State) : s.hostQueuesOff =
    (List.range 4).foldl tsqDisable ((List.range 32).foldl txDisable ((List.range 32).foldl rxDisable (s.evqDisable 0))) :=
  rfl

theorem evqDisable_turnsOff (s : State) : s.TurnsOff (s.evqDisable 0) :=
  (clear_turnsOff ..).trans (heldDrop_keepsBridge ..).turnsOff

/-- The link and every queue of the main host after they have all been disabled. -/
theorem hostQueuesOff_state (s : State) : s.hostQueuesOff.hif.linkUp = s.hif.linkUp ∧
    s.hostQueuesOff.rfld (Reg.evqCfg 0) 0 1 = 0 ∧
    (∀ g, g < 4 → s.hostQueuesOff.rfld (Reg.hifTsqCtrl g) 0 1 = 0) ∧
    ∀ n, n < 32 → s.hostQueuesOff.rfld (Reg.hifRxrCfg n) 0 1 = 0 ∧ s.hostQueuesOff.rfld (Reg.hifTxrCfg n) 0 1 = 0 := by
  rw [hostQueuesOff_eq]
  have rx (t : State) := foldl_turnsOff rxDisable_turnsOff (List.range 32) t
  have tx (t : State) := foldl_turnsOff txDisable_turnsOff (List.range 32) t
  have tsq (t : State) := foldl_turnsOff tsqDisable_turnsOff (List.range 4) t
  refine ⟨((evqDisable_turnsOff s).trans ((rx _).trans ((tx _).trans (tsq _)))).link,
    ((rx _).trans ((tx _).trans (tsq _))).off _ rfl (rfld_clear s (Reg.evqCfg 0)), fun g hg => ?_, fun n hn => ⟨?_, ?_⟩⟩
  · have en : enableReg (Reg.hifTsqCtrl g) = true := by simp [enableReg, Reg.hifTsqCtrl]; omega
    exact foldl_off tsqDisable_turnsOff (fun t m _ => rfld_clear t _) (List.mem_range.2 hg) en _
  · have en : enableReg (Reg.hifRxrCfg n) = true := by simp [enableReg, Reg.hifRxrCfg]; omega
    have own (t : State) (m : Nat) (em : enableReg (Reg.hifRxrCfg m) = true) :
        (t.rxDisable m).rfld (Reg.hifRxrCfg m) 0 1 = 0 :=
      (rxDisable_clear t m).turnsOff.off _ em (rfld_clear t _)
    exact ((tx _).trans (tsq _)).off _ en (foldl_off rxDisable_turnsOff own (List.mem_range.2 hn) en _)
  · have en : enableReg (Reg.hifTxrCfg n) = true := by simp [enableReg, Reg.hifTxrCfg]; omega
    exact (tsq _).off _ en (foldl_off txDisable_turnsOff (fun t m _ => rfld_clear t _) (List.mem_range.2 hn) en _)

theorem pcieReset_eq (s : State) (link : Bool) (up : s.bridgeUp = true) : s.pcieReset link =
    s.hostQueuesOff.setHif { s.hostQueuesOff.hif with
      fn := {}, held := [], bme := false, msixEn := false, funcMask := false, msix := [], pba := [], heldOff := []
      lastMsg := [], linkUp := link && s.hostQueuesOff.hif.linkUp
      speed := if link then s.hostQueuesOff.hif.speed else 0, width := if link then s.hostQueuesOff.hif.width else 0 } := by
  rw [pcieReset, up]
  rfl

end State

/-- Settles O13: each of the four rows runs `State.pcieReset`. -/
theorem pcieResets : Obligations.PcieResets := by
  intro s c up hc
  have runs : exec c s = .next (s.pcieReset (c == .functionLevelReset)) := by
    simp only [List.mem_cons, List.not_mem_nil, or_false] at hc
    rcases hc with rfl | rfl | rfl | rfl <;> rfl
  obtain ⟨link, evq, tsq, rings⟩ := State.hostQueuesOff_state s
  refine ⟨_, runs, ?_⟩
  have only := Only.pcieReset0 s (c == .functionLevelReset)
  rw [State.pcieReset_eq _ _ up] at only ⊢
  generalize s.hostQueuesOff = u at *
  exact ⟨rfl, rfl, rfl, rfl, rfl, rfl, by rw [State.setHif_hif, link, Bool.and_comm], evq, tsq, rings, only⟩

end Sys2Proof.Machine
end

section
/-! The host rings. A receive ring that nobody contends with writes the requests of its record in order (R67 to R73), and
the record at the head of a transmit ring is injected, released or faults the ring (R74 to R76). -/

namespace Sys2Proof.Machine

theorem aset_aset {α : Type} (t : List (Nat × α)) (k : Nat) (v w : α) : aset (aset t k v) k w = aset t k w := by
  induction t with
  | nil => simp [aset]
  | cons x r ih =>
    obtain ⟨j, y⟩ := x
    by_cases lt : k < j
    · simp [aset, lt]
    · by_cases eq : k = j
      · simp [aset, eq]
      · simp [aset, lt, eq, ih]

namespace State

variable {s w : State} {n m a : Nat} {b : List Byte} {l : List (Nat × List Byte)} {c : Copy} {f : Frame}

/-! ### A ring's state -/

@[simp] theorem rxRing_rxMod (s : State) (n : Nat) (g : Ring → Ring) : (s.rxMod n g).rxRing n = g (s.rxRing n) := by
  simp [rxRing, rxMod, amod, agetD, aget_aset_same]

theorem rxRing_rxMod_other (g : Ring → Ring) (h : m ≠ n) : (s.rxMod n g).rxRing m = s.rxRing m := by
  simp [rxRing, rxMod, amod, agetD, aget_aset_other _ _ h]

theorem rxMod_rxMod (g k : Ring → Ring) : (s.rxMod n g).rxMod n k = s.rxMod n fun r => k (g r) := by
  simp [rxMod, amod, agetD, aget_aset_same, aset_aset, setHif]

/-- Requests that go out change nothing that a ring holds. -/
theorem hostOut_rxMod (g : Ring → Ring) : (s.rxMod n g).hostOut a b = (s.hostOut a b).rxMod n g := by
  have emits (r : List (Nat × Nat)) (t : State) :
      r.foldl (fun u x => u.emit (.hostWrite (a + x.1) ((b.drop x.1).take x.2) {})) (t.rxMod n g) =
        (r.foldl (fun u x => u.emit (.hostWrite (a + x.1) ((b.drop x.1).take x.2) {})) t).rxMod n g := by
    induction r generalizing t with
    | nil => rfl
    | cons x r ih => exact ih (t.emit _)
  exact emits (spans s.maxPayload b.length) s

theorem rxRing_hostOut (s : State) (a : Nat) (b : List Byte) (m : Nat) : (s.hostOut a b).rxRing m = s.rxRing m := by
  rw [rxRing, (Only.hostOut0 s a b).hif rfl, rxRing]

theorem hostOut_canDma (s : State) (a : Nat) (b : List Byte) : (s.hostOut a b).canDma = s.canDma := by
  have h := Only.hostOut0 s a b
  simp only [canDma, rfld, rget, quenched, fdom, h.hif rfl, h.regs rfl, h.fnc rfl]

theorem group_of_only {M : Nat} {t : State} (h : Only M s t) (hc : M.testBit 5 = false) (ht : M.testBit 9 = false)
    (p : Nat) : t.group p = s.group p := by
  have image : t.runningImage = s.runningImage := by
    unfold runningImage handle
    rw [h.cal hc]
  simp only [group, image, tport, h.trf ht]

/-! ### A ring that writes alone -/

/-- A ring has requests to write, no other ring has any, and the host queues are strict. -/
structure WritesAlone (s : State) (n : Nat) (l : List (Nat × List Byte)) : Prop where
  ring : n < 32
  todo : (s.rxRing n).todo = l
  inTime : (s.rxRing n).late = false
  others : ∀ m < 32, m ≠ n → (s.rxRing m).todo = []
  strict : s.group 64 = []
  dma : s.canDma = true

theorem filter_range_eq (hn : n < 32) {p : Nat → Bool} (h : ∀ m < 32, p m = (m == n)) :
    (List.range 32).filter p = [n] := by
  rw [List.filter_congr fun m hm => h m (List.mem_range.1 hm), List.filter_beq,
    List.count_eq_one_of_mem List.nodup_range (List.mem_range.2 hn), List.replicate_one]

theorem WritesAlone.ringNext {y : Nat × List Byte} (h : s.WritesAlone n (y :: l)) : s.ringNext = (some n, s) := by
  have ready : (List.range 32).filter (fun r => !(s.rxRing r).todo.isEmpty) = [n] := by
    refine filter_range_eq h.ring fun m hm => ?_
    by_cases e : m = n
    · simp [e, h.todo]
    · simp [e, h.others m hm e]
  simp [State.ringNext, ready, h.strict, serveNext]

/-- A state whose ring has its next request behind it. -/
theorem WritesAlone.next {y : Nat × List Byte} (h : s.WritesAlone n (y :: l)) :
    ((s.hostOut y.1 y.2).rxMod n fun r => { r with todo := l }).WritesAlone n l := by
  refine ⟨h.ring, by simp, ?_, fun m hm e => ?_, ?_, ?_⟩
  · rw [rxRing_rxMod, rxRing_hostOut]
    exact h.inTime
  · rw [rxRing_rxMod_other _ e, rxRing_hostOut]
    exact h.others m hm e
  · exact (group_of_only (M := 8) (.rxMod rfl (.hostOut rfl (.refl _ s))) rfl rfl 64).trans h.strict
  · exact (hostOut_canDma ..).trans h.dma

/-- A request of a ring that writes alone goes out at once, and the last one finishes the record. -/
theorem ringSend_last {y : Nat × List Byte} (h : s.WritesAlone n [y]) :
    s.ringSend n = ((s.hostOut y.1 y.2).rxMod n fun r => { r with todo := [] }).ringDone n := by
  rw [ringSend, h.todo]
  have inTime : ((s.hostOut y.1 y.2).rxRing n).late = false := by rw [rxRing_hostOut, h.inTime]
  simp [hostMem, h.dma, inTime]

theorem ringSend_next {y z : Nat × List Byte} (h : s.WritesAlone n (y :: z :: l)) :
    s.ringSend n = (s.hostOut y.1 y.2).rxMod n fun r => { r with todo := z :: l } := by
  rw [ringSend, h.todo]
  simp [hostMem, h.dma]

/-- The requests go out in order, and the last one finishes the record. -/
theorem ringLoop_alone (h : s.WritesAlone n l) (nonempty : l ≠ []) : ringLoop l.length n s =
    (l.foldl (fun w y => w.hostOut y.1 y.2) (s.rxMod n fun r => { r with todo := [] })).ringDone n := by
  induction l generalizing s with
  | nil => exact absurd rfl nonempty
  | cons y l ih =>
    have more : ¬ (s.rxRing n).todo.isEmpty = true := by simp [h.todo]
    rw [List.length_cons, ringLoop, if_neg more, h.ringNext]
    cases l with
    | nil =>
      show ringLoop 0 n (s.ringSend n) = _
      rw [ringLoop, ringSend_last h, List.foldl_cons, hostOut_rxMod]
      rfl
    | cons z l =>
      show ringLoop (l.length + 1) n (s.ringSend n) = _
      rw [ringSend_next h]
      rw [← List.length_cons (a := z), ih h.next (List.cons_ne_nil z l), rxMod_rxMod, List.foldl_cons (b := s.rxMod n _),
        hostOut_rxMod]

/-! ### A record in a ring (R67 to R73) -/

/-- A ring that takes the committed frame at its head into the room behind its produce count, whole and with no pad
header before it. -/
structure TakesRecord (s : State) (n : Nat) (c : Copy) (f : Frame) : Prop where
  head : s.head? 67 n = some (c, f)
  enabled : s.rxEn n = true
  dma : s.canDma = true
  idle : (s.rxRing n).busy = none
  noGap : (s.rxRing n).lost = 0
  onChip : c.spill = .onChip
  committed : f.outcome = .committed
  lap : (s.rget (Reg.hifRxrProd n)).toNat % s.rxSize n + ceilDiv (8 + s.ringBytes f) 8 * 8 ≤ s.rxSize n
  room : s.rxUsed n + ceilDiv (8 + s.ringBytes f) 8 * 8 + 8 ≤ s.rxSize n
  whole : s.rfld (Reg.hifRxrCfg n) 2 1 = 0

/-- The requests of a record at byte count `p`: the frame's bytes, and its header last. -/
def recordRequests (s : State) (n p : Nat) (f : Frame) : List (Nat × List Byte) :=
  ((spans s.maxPayload f.out.length).map fun y =>
    ((s.rxRing n).base + (p + 8) % s.rxSize n + y.1, (f.out.drop y.1).take y.2)) ++
  ((spans s.maxPayload 8).map fun y => ((s.rxRing n).base + p % s.rxSize n + y.1,
    ((s.rxHeaderBytes n p f.out.length 0 f.src (f.tIn % 2 ^ 32)).drop y.1).take y.2))

/-- A ring holds a frame, with what it still has to write of it. -/
def ringHolds (s : State) (n : Nat) (f : Frame) (todo : List (Nat × List Byte)) : State :=
  ((s.rxMod n fun r => { r with busy := some f.fid, pad := 0, late := false, wrote := f.out.length, todo := todo }).fmod
    f.fid fun y => { y with started := true }).cmod f.fid 67 fun y => { y with onLane := true, startAt := s.clk }

theorem ringRequests_whole (whole : s.rfld (Reg.hifRxrCfg n) 2 1 = 0) :
    s.ringRequests n 0 false f = s.recordRequests n (s.rget (Reg.hifRxrProd n)).toNat f := by
  have header (q len flags src time : Nat) : (s.rxHeaderBytes n q len flags src time).length = 8 := by
    simp [rxHeaderBytes, leBytes]
  simp [ringRequests, whole, header, recordRequests]

theorem TakesRecord.ringTake (h : s.TakesRecord n c f) :
    s.ringTake n = s.ringHolds n f (s.recordRequests n (s.rget (Reg.hifRxrProd n)).toNat f) := by
  have gap : s.rxGap n = s := by simp [rxGap, h.noGap]
  have free : ¬ (!s.canDma || (s.rxRing n).busy.isSome || !(c.spill == .onChip || c.spill == .spillFirst) ||
      !(f.outcome == .committed || (f.speculative && !f.heldDup))) = true := by
    simp [h.dma, h.idle, h.onChip, h.committed]
  have full : ¬ (0 < (s.rxRing n).lost || s.rxSize n < s.rxUsed n + 0 + ceilDiv (8 + s.ringBytes f) 8 * 8 + 8) =
      true := by simp [h.noGap, h.room]
  have enabled : ¬ (!s.rxEn n) = true := by simp [h.enabled]
  simp only [State.ringTake, h.head, if_neg enabled, if_neg free, gap, if_neg (Nat.not_lt.2 h.lap),
    if_neg full]
  rw [← ringRequests_whole h.whole, h.committed]
  rfl

theorem ringHolds_rxMod (l : List (Nat × List Byte)) :
    (s.ringHolds n f l).rxMod n (fun r => { r with todo := [] }) = s.ringHolds n f [] :=
  congrArg (fun t : State => (t.fmod f.fid fun y => { y with started := true }).cmod f.fid 67
    fun y => { y with onLane := true, startAt := s.clk }) (rxMod_rxMod ..)

theorem TakesRecord.writesAlone (h : s.TakesRecord n c f) (hn : n < 32) (strict : s.group 64 = [])
    (others : ∀ m < 32, m ≠ n → (s.rxRing m).todo = []) : (s.ringHolds n f l).WritesAlone n l := by
  refine ⟨hn, ?_, ?_, fun m hm e => ?_, strict, h.dma⟩
  · exact congrArg Ring.todo (rxRing_rxMod s n _)
  · exact congrArg Ring.late (rxRing_rxMod s n _)
  · exact (congrArg Ring.todo (rxRing_rxMod_other _ e)).trans (others m hm e)

theorem recordRequests_ne_nil (s : State) (n p : Nat) (f : Frame) : s.recordRequests n p f ≠ [] := by
  have m : 1 ≤ s.maxPayload := le_max_left ..
  have header : 1 ≤ ceilDiv 8 s.maxPayload := (Nat.one_le_div_iff m).2 (by omega)
  intro none
  have empty := congrArg List.length none
  simp [recordRequests, spans] at empty
  omega

theorem exec_rxRingDeliver (hn : n ≤ 31) (up : s.datapathUp = true) (runs : s.quenched 9 = false)
    (buf : s.quenched Dom.buffer = false) {t : State} (taken : s.ringTake n = t) :
    exec (.rxRingDeliver n) s = .next (if (t.rxRing n).todo.isEmpty then t else
      ringLoop ((List.range 32).map fun r =>
        ((((List.range 32).filter fun r => r != n && t.rxEn r).foldl State.ringTake t).rxRing r).todo.length).sum n
        (((List.range 32).filter fun r => r != n && t.rxEn r).foldl State.ringTake t)) := by
  have opened : ¬ (31 < n || !s.datapathUp || s.quenched Dom.host || s.quenched Dom.buffer) = true := by
    simp [hn, up, runs, buf, Dom.host]
  show Host.Outcome.next (s.doRxRingDeliver n) = _
  rw [doRxRingDeliver, if_neg opened, taken]

/-- The ring that alone has requests, and alone is enabled, writes its record and ends the copy. -/
theorem exec_rxRingDeliver_alone (hn : n ≤ 31) (up : s.datapathUp = true) (runs : s.quenched 9 = false)
    (buf : s.quenched Dom.buffer = false) {t : State} (taken : s.ringTake n = t) (h : t.WritesAlone n l) (nonempty : l ≠ [])
    (enabled : ∀ m < 32, m ≠ n → t.rxEn m = false) :
    exec (.rxRingDeliver n) s = .next
      ((l.foldl (fun w y => w.hostOut y.1 y.2) (t.rxMod n fun r => { r with todo := [] })).ringDone n) := by
  have nobody : (List.range 32).filter (fun r => r != n && t.rxEn r) = [] := by
    refine List.filter_eq_nil_iff.2 fun m hm => ?_
    by_cases e : m = n
    · simp [e]
    · simp [enabled m (List.mem_range.1 hm) e]
  have requests : ((List.range 32).map fun r => (t.rxRing r).todo.length).sum = l.length := by
    rw [List.sum_map_eq_nsmul_single n _ fun m e hm => by rw [h.others m (List.mem_range.1 hm) e, List.length_nil],
      List.count_eq_one_of_mem List.nodup_range (List.mem_range.2 h.ring), one_nsmul, h.todo]
  rw [exec_rxRingDeliver hn up runs buf taken, if_neg (by simp [h.todo, nonempty]), nobody, List.foldl_nil, requests,
    ringLoop_alone h nonempty]

/-! ### Transmit rings (R74 to R76) -/

/-- The device serves a transmit ring: it is enabled without a fault, its memory can be read, and bytes wait in it. -/
structure TxServes (s : State) (n : Nat) : Prop where
  ring : n < 32
  enabled : s.rfld (Reg.hifTxrCfg n) 0 1 = 1
  sound : s.rfld (Reg.hifTxrFault n) 0 1 = 0
  dma : s.canDma = true
  up : s.datapathUp = true
  runs : s.quenched Dom.pipe0 = false
  waits : (s.rget (Reg.hifTxrProd n) - s.rget (Reg.hifTxrCons n)).toNat ≠ 0

theorem exec_txRecordFetch {hdr frame : List Byte} {at_ size : Nat} {u : State} (h : s.TxServes n)
    (hat : at_ = (s.rget (Reg.hifTxrCons n)).toNat % 2 ^ s.rfld (Reg.hifTxrCfg n) 8 5)
    (hu : u = s.hostIn ((s.txRing n).base + at_) 8)
    (hs : size = if bit (le hdr 2 1) 1 then 8 + le hdr 0 2 else ceilDiv (8 + le hdr 0 2) 8 * 8) :
    exec (.txRecordFetch n hdr frame) s = .next (
      if (s.rget (Reg.hifTxrProd n) - s.rget (Reg.hifTxrCons n)).toNat < size then
        (u.rset (Reg.hifTxrFault n) 1).raise 0x1004 (n + 256)
      else if bit (le hdr 2 1) 1 then u.txRelease n size
      else if le hdr 0 2 < 14 then (u.bump (Reg.hifTxrBadCnt n)).txRelease n size
      else ((u.hostIn ((u.txRing n).base + at_ + 8) (le hdr 0 2)).txInject (fit (le hdr 0 2) frame)
        (if bit (le hdr 2 1) 0 then some (le hdr 4 2) else none)).txRelease n size) := by
  have opened : ¬ (32 ≤ n || s.rfld (Reg.hifTxrCfg n) 0 1 != 1 || s.rfld (Reg.hifTxrFault n) 0 1 == 1 || !s.canDma ||
      !s.datapathUp || s.quenched Dom.pipe0 || (s.rget (Reg.hifTxrProd n) - s.rget (Reg.hifTxrCons n)).toNat == 0) =
        true := by
    simp [h.ring, h.enabled, h.sound, h.dma, h.up, h.runs, h.waits, -BitVec.toNat_sub]
  subst hat hu hs
  show Host.Outcome.next (s.doTxRecordFetch n hdr frame) = _
  rw [doTxRecordFetch]
  exact congrArg Host.Outcome.next (if_neg opened)

end State

/-- Settles O18: a ring that takes a record alone writes its requests in order, and the head record of a transmit ring
has one of four outcomes. -/
theorem ringTraffic : Obligations.RingTraffic := by
  intro s n
  refine ⟨fun c f hn up runs buf head dis empty => ?_, ?_, ?_⟩
  · have taken : s.ringTake n = s.ringDrop c n false := by
      simp only [State.ringTake, head, dis, Bool.not_false, if_true]
    rw [State.exec_rxRingDeliver hn up runs buf taken, empty]
    rfl
  · rintro c f p need todo x u v hn up runs buf head en dma rfl idle noGap onChip committed rfl rfl lap room whole
      strict alone rfl rfl rfl
    have h : s.TakesRecord n c f := ⟨head, en, dma, idle, noGap, onChip, committed, lap, room, whole⟩
    have writes : (s.ringHolds n f (s.recordRequests n (s.rget (Reg.hifRxrProd n)).toNat f)).WritesAlone n
        (s.recordRequests n (s.rget (Reg.hifRxrProd n)).toNat f) :=
      h.writesAlone (Nat.lt_succ_of_le hn) strict fun m hm e => (alone m hm e).2
    rw [State.exec_rxRingDeliver_alone hn up runs buf h.ringTake writes (State.recordRequests_ne_nil _ _ _ _)
      fun m hm e => (alone m hm e).1, State.ringHolds_rxMod]
    rfl
  · rintro hdr frame left len u hn en sound dma up runs rfl waits rfl rfl
    have h : s.TxServes n := ⟨hn, en, sound, dma, up, runs, waits⟩
    refine ⟨fun pad fits => ?_, fun whole beyond => ?_, fun whole fits short => ?_, fun whole fits long => ?_⟩
    · rw [State.exec_txRecordFetch h rfl rfl rfl]
      simp only [pad, if_true, if_neg (Nat.not_lt.2 fits)]
    · rw [State.exec_txRecordFetch h rfl rfl rfl]
      simp only [whole, Bool.false_eq_true, if_false, if_pos beyond]
    · rw [State.exec_txRecordFetch h rfl rfl rfl]
      simp only [whole, Bool.false_eq_true, if_false, if_neg (Nat.not_lt.2 fits), if_pos short]
    · rw [State.exec_txRecordFetch h rfl rfl rfl]
      simp only [whole, Bool.false_eq_true, if_false, if_neg (Nat.not_lt.2 fits), if_neg (Nat.not_lt.2 long)]

end Sys2Proof.Machine
end

section
/-! What lets the next command of a queue execute (R92, R93, R102, R120), and that a mailbox row is such a run of its
own opcode. -/

namespace Sys2Proof.Machine

namespace State

variable {s : State} {i : Instr} {host q op : Nat} {c : Cmd} {f : Cmd → State → Exec}

/-- An execution that nothing has kept from beginning but its epoch does not match (R92). -/
theorem runCmd_epochMismatch (head : s.headCmd host q = some c) (opcode : c.opcode = op) (begins : s.mayBegin c = true)
    (guarded : c.ifEpoch = true) (other : (s.rget Reg.mbxCfgEpoch).toNat ≠ c.expectEpoch) :
    s.runCmd host q op f = s.failOp op c.index St.epochMismatch := by
  simp [runCmd, head, opcode, begins, guarded, other]

/-- A class C command without a writable flash journal is refused (R120). -/
theorem runCmd_journalUnavailable (head : s.headCmd host q = some c) (opcode : c.opcode = op)
    (begins : s.mayBegin c = true) (free : c.ifEpoch = false) (classC : isClassC op = true)
    (noFlash : s.flashOk = false) :
    s.runCmd host q op f = s.failOp op c.index St.journalUnavailable := by
  simp [runCmd, head, opcode, begins, free, classC, noFlash]

/-- Without a next command of the opcode that may begin, nothing runs (R93, R102). -/
theorem runCmd_idle (idle : ∀ c, s.headCmd host q = some c → c.opcode ≠ op ∨ s.mayBegin c = false) :
    s.runCmd host q op f = s := by
  unfold runCmd
  cases head : s.headCmd host q with
  | none => rfl
  | some c => exact if_pos (by simpa using idle c head)

/-- What a row of an opcode adds to the run of its command: after `UPD_ACTIVATE` a restart that is due (R559). -/
def afterRow (op : Nat) (t : State) : State := if op = 0x0C03 then t.restartIfDue else t

theorem afterRow_runs (hop : op ≠ 0x0C03) (run : ∀ s, exec i s = .next (s.runCmd host q op f)) :
    ∃ f : Cmd → State → Exec, ∀ s, exec i s = .next (afterRow op (s.runCmd host q op f)) :=
  ⟨f, fun s => by rw [run, afterRow, if_neg hop]⟩

/-- A mailbox row runs its opcode on the queue's next command, whatever the body holds. -/
theorem exec_mailboxRow (row : mailboxRow i = some (host, q, op)) :
    ∃ f : Cmd → State → Exec, ∀ s, exec i s = .next (afterRow op (s.runCmd host q op f)) := by
  revert row
  fun_cases mailboxRow i
  -- `UPD_ACTIVATE`, the last mailbox row
  case case55 =>
    rintro ⟨⟩
    exact ⟨_, fun s => rfl⟩
  -- every other row
  case case56 => exact fun none => nomatch none
  all_goals
    rintro ⟨⟩
    exact afterRow_runs (by decide) fun s => rfl

end State

open State

/-- Settles O22: an epoch that does not match is judged before the execution, and a command with an equal one is
ready. -/
theorem epochCondition : Obligations.EpochCondition := by
  refine ⟨fun s host q op c f head opcode begins guarded => ⟨fun other => ?_, fun equal flash => ?_⟩,
    fun i host q op row => exec_mailboxRow row⟩
  · exact runCmd_epochMismatch head opcode begins guarded other
  · have ready : s.Ready host q op c := ⟨head, opcode, begins, fun _ => equal, flash⟩
    exact ready.runCmd

/-- Settles O23: the row is a run of its opcode, which goes no further than the check that fails. -/
theorem commandRowsWait : Obligations.CommandRowsWait := by
  intro s i host q op row
  obtain ⟨f, runs⟩ := exec_mailboxRow row
  refine ⟨fun idle => ?_, fun c head opcode begins free classC noFlash => ?_⟩
  · rw [runs, runCmd_idle idle]
    rfl
  · rw [runs, runCmd_journalUnavailable head opcode begins free classC noFlash]
    rfl

end Sys2Proof.Machine
end

section
/-! The end of an execution (R103 to R105, R111, R120): what the ended command holds, where its entry stands, and what
is reported before completions are posted. -/

namespace Sys2Proof.Machine

namespace State

variable {s : State} {i op st r : Nat} {d : List Byte} {c x : Cmd}

/-! ### The configuration epoch (R103) -/

/-- The epoch advances for a class C command that ended with OK. -/
def epochEnd (s : State) (op st : Nat) : State :=
  if isClassC op && st == St.ok then s.rset Reg.mbxCfgEpoch (s.rget Reg.mbxCfgEpoch + 1) else s

theorem epochEnd_rget : (s.epochEnd op st).rget Reg.mbxCfgEpoch =
    s.rget Reg.mbxCfgEpoch + if isClassC op = true ∧ st = 0 then 1 else 0 := by
  by_cases effect : isClassC op = true ∧ st = 0 <;> simp [epochEnd, effect, St.ok]

/-- What the epoch's register does not show is as it was before. -/
theorem epochEnd_same {α : Type} (g : State → α) (blind : ∀ v, g (s.rset Reg.mbxCfgEpoch v) = g s) :
    g (s.epochEnd op st) = g s := by
  unfold epochEnd
  split
  · exact blind _
  · rfl

/-! ### The ended command (R104, R105, R120) -/

/-- Whether a command that ends with a status has a record to be programmed. -/
def hasRecord (c : Cmd) (st : Nat) : Bool := isClassC c.opcode && st != St.journalUnavailable

/-- A command whose execution has ended in a state: its outcome, and what its completion waits for. -/
def endCmd (s : State) (c : Cmd) (st r : Nat) (d : List Byte) : Cmd :=
  let late := hasRecord c st && !s.flashOk
  { c with
    phase := .ended, result := r % 2 ^ 64, data := d.take 224, doneTime := s.clk
    status := if late && st == St.ok then St.unpersisted else st
    cfgEpoch := (s.rget Reg.mbxCfgEpoch).toNat
    waitFlash := hasRecord c st && !late, waitMirror := s.mirroring
    unmirrored := s.pair.role != .single && !s.mirroring
    stalled := hasRecord c st && !late && !s.recordFree, deadline := s.clk + 50000 }

theorem endCmd_status : (s.endCmd c st r d).status =
    if isClassC c.opcode = true ∧ s.flashOk = false ∧ st = 0 then 14 else st := by
  by_cases ok : st = 0 <;> simp [endCmd, hasRecord, ok, St.ok, St.journalUnavailable]

theorem endCmd_waitFlash : (s.endCmd c st r d).waitFlash = (isClassC c.opcode && st != 15 && s.flashOk) := by
  cases flash : s.flashOk <;> simp [endCmd, hasRecord, flash]

/-! ### Where the ended command stands (R111, R114) -/

/-- The ended command `x` takes the place of the one of index `i`, and its entry stands in the DRAM journal. -/
def endStore (s : State) (i : Nat) (x : Cmd) : State :=
  s.setMbx { s.mbx with
    cmds := s.mbx.cmds.map fun d => if d.accepted && d.index == i then x else d
    dram := if s.dramJournalOk then ringPut 262144 s.mbx.dram x.entry else s.mbx.dram
    bodies := if s.dramJournalOk && isClassC x.opcode then aset s.mbx.bodies (i % 65536) x.body else s.mbx.bodies }

/-- The ended command is found under its index. -/
theorem cmdOf_endStore (h : s.cmdOf i = some c) (hx : (x.accepted && x.index == i) = (c.accepted && c.index == i)) :
    (s.endStore i x).cmdOf i = some x := by
  have found : (c.accepted && c.index == i) = true := List.find?_some (p := fun d : Cmd => d.accepted && d.index == i) h
  have same : ((fun d : Cmd => d.accepted && d.index == i) ∘ fun d => if d.accepted && d.index == i then x else d) =
      fun d => d.accepted && d.index == i := by
    funext d
    rw [Function.comp_apply]
    split
    · next hd => rw [hx, found, hd]
    · rfl
  have first : s.mbx.cmds.find? (fun d => d.accepted && d.index == i) = some c := h
  show List.find? _ (List.map _ _) = _
  rw [List.find?_map, same, first, Option.map_some, if_pos found]

/-- Another command stays. -/
theorem mem_endStore {a : Cmd} (ha : a ∈ s.mbx.cmds) (other : a.index ≠ i) : a ∈ (s.endStore i x).mbx.cmds :=
  List.mem_map.2 ⟨a, ha, if_neg (by simp [other])⟩

theorem entry_mem_endStore (journal : s.dramJournalOk = true) : x.entry ∈ (s.endStore i x).mbx.dram := by
  simp [endStore, journal, ringPut]

/-! ### What is reported (R105, R119) -/

/-- While mirroring is in force the entry goes to the partner. -/
def endMirror (s : State) (x : Cmd) : State := if s.mirroring then s.emit (.mirror (.journal x.entry.bytes)) else s

/-- A completion without the partner is counted. -/
def endAlone (s : State) (x : Cmd) : State := if x.unmirrored then s.bump Reg.pairUnmirroredCnt else s

/-- A completion that waits for a record position is counted and reported. -/
def endStall (s : State) (i : Nat) (x : Cmd) : State :=
  if x.stalled then (s.bump Reg.mbxStallCnt).raise 0x2003 i else s

/-- What is reported of an ended command before completions are posted. -/
def endReport (s : State) (i : Nat) (x : Cmd) : State := ((s.endMirror x).endAlone x).endStall i x

/-- What follows the partner's copy is counts and an event. -/
theorem endReport_only : Only Group.seen (s.endMirror x) (s.endReport i x) := by
  have alone : Only Group.seen (s.endMirror x) ((s.endMirror x).endAlone x) := .ite (Only.bump0 ..) (.refl ..)
  exact .ite ((alone.trans (Only.bump0 ..)).trans (Only.raise0 ..)) alone

theorem endReport_mbx : (s.endReport i x).mbx = s.mbx := by
  rw [endReport_only.mbx rfl, endMirror]
  split <;> rfl

theorem entry_mirrored (mirrors : s.mirroring = true) :
    Output.mirror (.journal x.entry.bytes) ∈ (s.endReport i x).out := by
  have sent : Output.mirror (.journal x.entry.bytes) ∈ (s.endMirror x).out := by simp [endMirror, mirrors]
  exact endReport_only.out.subset sent

theorem endMirror_rget (o : Nat) : (s.endMirror x).rget o = s.rget o := by
  unfold endMirror
  split <;> rfl

theorem endAlone_epoch : (s.endAlone x).rget Reg.mbxCfgEpoch = s.rget Reg.mbxCfgEpoch := by
  unfold endAlone
  split
  · exact bump_other _ _ _ rfl (by decide)
  · rfl

theorem endStall_epoch : (s.endStall i x).rget Reg.mbxCfgEpoch = s.rget Reg.mbxCfgEpoch := by
  unfold endStall
  split
  · rw [raise_keepsRegs _ _ _ _ rfl, bump_other _ _ _ rfl (by decide)]
  · rfl

theorem endReport_epoch : (s.endReport i x).rget Reg.mbxCfgEpoch = s.rget Reg.mbxCfgEpoch := by
  rw [endReport, endStall_epoch, endAlone_epoch, endMirror_rget]

/-! ### The whole -/

/-- The state at the end of an execution, before any completion is posted. -/
def cmdEnd (s : State) (i st r : Nat) (d : List Byte) (c : Cmd) : State :=
  let t := s.epochEnd c.opcode st
  (t.endStore i (t.endCmd c st r d)).endReport i (t.endCmd c st r d)

theorem finishCmd_eq (h : s.cmdOf i = some c) : s.finishCmd i st r d = (s.cmdEnd i st r d c).postAll := by
  unfold finishCmd
  rw [h]
  rfl

end State

open State

/-- Settles O24: what the ended command holds, where it and its entry stand, and that the reports leave both. -/
theorem commandEnds : Obligations.CommandEnds := by
  intro s i st r d c h
  let t := s.epochEnd c.opcode st
  let x := t.endCmd c st r d
  have same {α : Type} (g : State → α) (blind : ∀ v, g (s.rset Reg.mbxCfgEpoch v) = g s) : g t = g s :=
    epochEnd_same g blind
  have mbx : t.mbx = s.mbx := same State.mbx fun _ => rfl
  have stored : (s.cmdEnd i st r d c).mbx = (t.endStore i x).mbx := endReport_mbx
  have found : t.cmdOf i = some c := (same (State.cmdOf · i) fun _ => rfl).trans h
  have mirrors : t.mirroring = s.mirroring := same State.mirroring fun _ => rfl
  have alone : x.unmirrored = (s.pair.role != .single && !s.mirroring) :=
    same (fun u => u.pair.role != .single && !u.mirroring) fun _ => rfl
  have flash : t.flashOk = s.flashOk := same State.flashOk fun _ => rfl
  refine ⟨s.cmdEnd i st r d c, x, finishCmd_eq h, ?_, rfl, rfl, rfl, same State.clk fun _ => rfl, rfl, rfl, rfl, ?_,
    ?_, mirrors, alone, congrArg BitVec.toNat epochEnd_rget, congrArg BitVec.toNat endReport_epoch, fun journal => ?_,
    fun mirroring => ?_, fun a ha other => ?_⟩
  · rw [cmdOf, stored]
    exact cmdOf_endStore found rfl
  · rw [endCmd_status, flash]
  · rw [endCmd_waitFlash, flash]
  · rw [stored]
    exact entry_mem_endStore ((same State.dramJournalOk fun _ => rfl).trans journal)
  · exact entry_mirrored (mirrors.trans mirroring)
  · rw [stored]
    exact mem_endStore (mbx ▸ ha) other

end Sys2Proof.Machine
end

section
/-! The record of a class C command in flash, the erase of a sector ahead of it, the partner's acknowledgement, and
completions that are held (R104, R105, R109, R116, R117, R119, R120). -/

namespace Sys2Proof.Machine

namespace State

variable {s : State} {i failures n : Nat} {c : Cmd} {sel : Cmd → Bool}

/-! ### The record (R116, R119, R120) -/

/-- The flash journal after some failed programs, each of which uses a record position up. -/
def recordsFailed (s : State) (i failures : Nat) : State :=
  (List.range (min 3 failures)).foldl (fun s _ => s.recordPut i none) s

theorem exec_journalPersist (h : s.cmdOf i = some c) (waits : c.waitFlash = true) (flash : s.flashOk = true)
    (runs : s.quenched Dom.control = false) : exec (.journalPersist i failures) s =
    .next (if s.recordsFree < min 3 (failures + 1) then s.stallCmd c
      else (if 3 ≤ failures then (s.recordsFailed i failures).recordFault i
        else (((s.recordsFailed i failures).recordPut i (some ({ c with persisted := true }.entry, c.body))).recordDone
          c).postAll).restartIfDue) := by
  show Host.Outcome.next (s.doJournalPersist i failures) = _
  simp [doJournalPersist, h, waits, flash, runs, recordsFailed, Option.filter]

/-! ### The next erased sector (R117) -/

theorem journalSectors_ge : 16 ≤ journalSectors := le_max_left ..

/-- Fewer than four sectors stand ahead: a sector that was never used is added, or else the oldest one. -/
theorem exec_flashSectorEraseDone (runs : s.quenched Dom.flash = false) (room : s.mbx.erased.length < 4)
    (hn : n = s.mbx.sectors.length + s.mbx.erased.length) : exec .flashSectorEraseDone s =
    .next (if n < journalSectors then s.setMbx { s.mbx with erased := s.mbx.erased ++ [(n, 1)] }
      else s.setMbx { s.mbx with
        sectors := s.mbx.sectors.drop 1
        erased := s.mbx.erased ++ (s.mbx.sectors.take 1).map fun x => (x.place, (x.eraseCount + 1) % 2 ^ 32) }) := by
  show Host.Outcome.next s.doFlashSectorEraseDone = _
  have opened : ¬ (decide (4 ≤ s.mbx.erased.length) || s.quenched Dom.flash) = true := by simp [runs, room]
  rw [doFlashSectorEraseDone, if_neg opened, ← hn]
  by_cases unused : n < journalSectors
  · rw [if_pos unused, if_pos unused]
  · rw [if_neg unused, if_neg unused]
    cases sectors : s.mbx.sectors with
    | nil =>
      have := journalSectors_ge
      simp [sectors] at hn
      omega
    | cons x r => rfl

/-! ### The partner's acknowledgement (R105) -/

theorem exec_mirrorAck (pair : s.pair.role ≠ .single) (link : 2 ≤ s.pair.linkState)
    (runs : s.quenched (portUnit 64) = false) : exec (.mirrorAck i) s =
    .next ((if (s.rget Reg.pairMirrorAcked).toNat ≤ i then s.rset Reg.pairMirrorAcked (BitVec.ofNat 32 (i + 1))
      else s).cmdMod i fun c => { c with waitMirror := false }).postAll.restartIfDue := by
  have opened : ¬ (s.pair.role = .single ∨ s.pair.linkState < 2 ∨ s.quenched (portUnit 64) = true) := by
    simp [pair, runs]
    omega
  show Host.Outcome.next (s.doMirrorAck i) = _
  rw [doMirrorAck, if_neg opened]

theorem exec_mirrorAckTimeout (h : s.cmdOf i = some c) (waits : c.waitMirror = true) : exec (.mirrorAckTimeout i) s =
    .next (((s.waitUntil c.deadline).cmdMod i fun c => { c with waitMirror := false, unmirrored := true }).raise 0x2005
      i).postAll.restartIfDue := by
  show Host.Outcome.next (s.doMirrorAckTimeout i) = _
  simp only [doMirrorAckTimeout, h, Option.filter, waits, if_true]

/-! ### Held completions (R109) -/

/-- With no completion that is ready, none is posted. -/
theorem postLoop_none (held : ∀ c ∈ s.mbx.cmds, sel c = true → c.ready = false) (n : Nat) :
    postLoop sel n s = s := by
  have none : s.nextPost sel = none := by
    unfold nextPost
    split
    · rfl
    · refine List.find?_eq_none.2 fun c hc => ?_
      cases hs : sel c with
      | false => simp
      | true => simp [held c hc hs]
  cases n with
  | zero => rfl
  | succ n => rw [postLoop, none]

end State

open State

/-- Settles O25, from the equation of each of the five rows. -/
theorem journalRecords : Obligations.JournalRecords := by
  intro s i
  refine ⟨fun failures c u h waits flash runs hu => ?_, fun n runs room hn => exec_flashSectorEraseDone runs room hn,
    fun u pair link runs hu => ?_, fun c h waits => exec_mirrorAckTimeout h waits,
    fun host q => ⟨rfl, fun held => ?_⟩⟩
  · have hu : s.recordsFailed i failures = u := hu.symm
    rw [exec_journalPersist h waits flash runs, hu]
    split
    · rfl
    · split <;> rfl
  · rw [exec_mirrorAck pair link runs, hu]
  · show Host.Outcome.next (s.doCompletionRelease host q) = _
    rw [doCompletionRelease, postLoop_none]
    intro c hc own
    simp only [Bool.and_eq_true, beq_iff_eq] at own
    exact held c hc own.1 own.2

end Sys2Proof.Machine
end

section
/-! The device and journal commands (R101, R121 to R125): the session that HOST_RESYNC shows and begins, and how
JOURNAL_READ comes to its answer. -/

namespace Sys2Proof.Machine

/-- A field of one byte. -/
theorem leNat_take_one (l : List Byte) (o : Nat) : leNat ((l.drop o).take 1) = (l.getD o 0).toNat := by
  rw [List.getD_eq_getElem?_getD, ← List.head?_drop]
  cases l.drop o with
  | nil => rfl
  | cons b r => simp [leNat]

namespace State

variable {s : State} {k n : Nat} {c : Cmd} {e : JEntry} {r : List JEntry} {ofBody byDma : Bool} {b : List Byte}

/-! ### A host's session (R101, R122) -/

theorem isRestart_eq (opcode : c.opcode = 0x0102) : isRestart c.opcode c.body = bit (c.u 4 1) 0 := by
  rw [isRestart, opcode, Cmd.u, leNat_take_one]
  rfl

/-- A RESTART of the main host abandons its open forwarding transaction. -/
def resyncBegin (s : State) (c : Cmd) : State :=
  if bit (c.u 4 1) 0 = true ∧ c.host = 0 then s.setFwd { s.fwd with txn := none, staged := [] } else s

/-- The session that HOST_RESYNC shows: with RESTART the one after the current one. -/
def resyncSession (s : State) (c : Cmd) : Nat :=
  if bit (c.u 4 1) 0 then ((s.rget (Reg.mbxHostSession c.host)).toNat + 1) % 2 ^ 16
  else (s.rget (Reg.mbxHostSession c.host)).toNat

theorem hostResyncCmd_eq (opcode : c.opcode = 0x0102) : hostResyncCmd c s =
    .done ((s.resyncBegin c).raise 0x2004 (c.host + 2 ^ 16 * s.resyncSession c)) St.ok 0
      (leBytes 4 c.hBefore ++ leBytes 4 (((s.firstAfter c.host (s.rget (Reg.mbxHostSession c.host)).toNat (c.u 0 4)).map
        (·.index)).getD 0xFFFFFFFF) ++ leBytes 2 (s.resyncSession c) ++ leBytes 6 0) := by
  simp only [hostResyncCmd, isRestart_eq opcode, resyncBegin, resyncSession, Bool.and_eq_true, beq_iff_eq]

/-- The completion of a RESTART begins its host's next session at sequence number 0. -/
theorem sessionRestart_eq (accepted : c.accepted = true) (opcode : c.opcode = 0x0102)
    (restart : bit (c.u 4 1) 0 = true) (ok : c.status = 0) : s.sessionRestart c =
    (s.rset (Reg.mbxHostSession c.host) (BitVec.ofNat 32
      (((s.rget (Reg.mbxHostSession c.host)).toNat + 1) % 2 ^ 16))).rset (Reg.mbxHostSeq c.host) 0 := by
  have ends : (c.accepted && isRestart c.opcode c.body && c.status == St.ok) = true := by
    rw [isRestart_eq opcode, accepted, restart, ok]
    rfl
  rw [sessionRestart, if_pos ends]

/-! ### Reading the journal (R123, R124) -/

/-- The index that JOURNAL_READ starts from: the one it names, or in mode 1 that of the first entry of a host's session
above START. -/
def readStart (s : State) (c : Cmd) : Option Nat :=
  if c.u 0 1 = 0 then some (c.u 4 4)
  else (s.firstAfter (c.u 2 1) (s.rget (Reg.mbxHostSession (c.u 2 1))).toNat (c.u 4 4)).map (·.index)

/-- The parameters that JOURNAL_READ permits: `n` entries, or the body of one, to slot memory or by DMA. -/
structure ReadPermitted (c : Cmd) (n : Nat) (ofBody byDma : Bool) : Prop where
  count : n = c.u 8 2
  body : ofBody = bit (c.u 1 1) 0
  dma : byDma = bit (c.u 1 1) 1
  mode : c.u 0 1 ≤ 1
  session : c.u 0 1 = 1 → c.u 2 1 ≤ 2
  pos : 1 ≤ n
  few : n ≤ if byDma then 4096 else 1
  target : byDma = true → ofBody = false ∧ c.host = 0 ∧ c.u 16 8 % 128 = 0

/-- What a run of completed entries from index `k` on, or the body of its first one, is answered with. -/
def readAnswer (s : State) (c : Cmd) (k : Nat) (ofBody byDma : Bool) (e : JEntry) (r : List JEntry) : Exec :=
  let result := k + 2 ^ 32 * (r.length + 1)
  if byDma then
    if s.canDma then .done (s.hostOut (c.u 16 8) ((e :: r).flatMap JEntry.bytes)) St.ok result [] else .wait
  else if !ofBody then .done s St.ok result e.bytes
  else match s.bodyOf e with
  | none => Exec.fail s 0x0103
  | some b => .done s St.ok result b

/-- JOURNAL_READ from index `k`: an index that has been given out, whose command has completed, and whose entry is
kept. -/
def readFrom (s : State) (c : Cmd) (n : Nat) (ofBody byDma : Bool) (k : Nat) : Exec :=
  Exec.check (decide (2 ^ 31 ≤ (k + 2 ^ 32 - (s.rget Reg.mbxJournalHead).toNat) % 2 ^ 32)) s St.badParam <|
  Exec.check (s.cmdOf k).isNone s 0x0102 <|
  match s.entryRun k n with
  | [] => Exec.fail s 0x0101
  | e :: r => s.readAnswer c k ofBody byDma e r

theorem journalRead_eq (p : ReadPermitted c n ofBody byDma) :
    journalRead c s = (s.readStart c).elim (Exec.fail s 0x0101) (s.readFrom c n ofBody byDma) := by
  obtain ⟨rfl, rfl, rfl, mode, session, pos, few, target⟩ := p
  have permitted : (decide (c.u 0 1 ≤ 1) && (c.u 0 1 == 0 || decide (c.u 2 1 ≤ 2)) && decide (1 ≤ c.u 8 2) &&
      decide (c.u 8 2 ≤ if bit (c.u 1 1) 1 then 4096 else 1) &&
      (!bit (c.u 1 1) 1 || (!bit (c.u 1 1) 0 && c.host == 0 && c.u 16 8 % 128 == 0))) = true := by
    have first : c.u 0 1 = 0 ∨ c.u 2 1 ≤ 2 := (Nat.le_one_iff_eq_zero_or_eq_one.1 mode).imp_right session
    have place : bit (c.u 1 1) 1 = false ∨ (bit (c.u 1 1) 0 = false ∧ c.host = 0) ∧ c.u 16 8 % 128 = 0 := by
      simpa [and_assoc] using or_iff_not_imp_left.2 fun h => target (by simpa using h)
    simp only [Bool.and_eq_true, Bool.or_eq_true, Bool.not_eq_true', decide_eq_true_eq, beq_iff_eq]
    exact ⟨⟨⟨⟨mode, first⟩, pos⟩, few⟩, place⟩
  unfold journalRead
  dsimp only
  rw [permitted, check_true]
  show (match s.readStart c with | none => _ | some i => _) = _
  cases s.readStart c with
  | none => rfl
  | some k =>
    rw [Option.elim_some, readFrom]
    rfl

theorem journalRead_noStart (p : ReadPermitted c n ofBody byDma) (start : s.readStart c = none) :
    journalRead c s = Exec.fail s 0x0101 := by
  rw [journalRead_eq p, start, Option.elim_none]

theorem journalRead_start (p : ReadPermitted c n ofBody byDma) (start : s.readStart c = some k) :
    journalRead c s = s.readFrom c n ofBody byDma k := by
  rw [journalRead_eq p, start, Option.elim_some]

theorem readFrom_ahead (ahead : (k + 2 ^ 32 - (s.rget Reg.mbxJournalHead).toNat) % 2 ^ 32 < 2 ^ 31) :
    s.readFrom c n ofBody byDma k = Exec.fail s St.badParam := by
  rw [readFrom, decide_eq_false (Nat.not_le.2 ahead), check_false]

section
variable (given : 2 ^ 31 ≤ (k + 2 ^ 32 - (s.rget Reg.mbxJournalHead).toNat) % 2 ^ 32)
include given

theorem readFrom_open {d : Cmd} (h : s.cmdOf k = some d) : s.readFrom c n ofBody byDma k = Exec.fail s 0x0102 := by
  rw [readFrom, decide_eq_true given, check_true, h]
  rfl

theorem readFrom_gone (closed : s.cmdOf k = none) (gone : s.entryRun k n = []) :
    s.readFrom c n ofBody byDma k = Exec.fail s 0x0101 := by
  rw [readFrom, decide_eq_true given, check_true, closed, gone]
  rfl

theorem readFrom_kept (closed : s.cmdOf k = none) (kept : s.entryRun k n = e :: r) :
    s.readFrom c n ofBody byDma k = s.readAnswer c k ofBody byDma e r := by
  rw [readFrom, decide_eq_true given, check_true, closed, kept]
  rfl

end

theorem readAnswer_dma (yes : byDma = true) (can : s.canDma = true) : s.readAnswer c k ofBody byDma e r =
    .done (s.hostOut (c.u 16 8) ((e :: r).flatMap JEntry.bytes)) St.ok (k + 2 ^ 32 * (r.length + 1)) [] := by
  rw [readAnswer, if_pos yes, if_pos can]

theorem readAnswer_entry (no : byDma = false) (entry : ofBody = false) : s.readAnswer c k ofBody byDma e r =
    .done s St.ok (k + 2 ^ 32 * (r.length + 1)) e.bytes := by
  rw [readAnswer, no, entry]
  rfl

theorem readAnswer_noBody (no : byDma = false) (ofIt : ofBody = true) (gone : s.bodyOf e = none) :
    s.readAnswer c k ofBody byDma e r = Exec.fail s 0x0103 := by
  rw [readAnswer, no, ofIt, gone]
  rfl

theorem readAnswer_body (no : byDma = false) (ofIt : ofBody = true) (kept : s.bodyOf e = some b) :
    s.readAnswer c k ofBody byDma e r = .done s St.ok (k + 2 ^ 32 * (r.length + 1)) b := by
  rw [readAnswer, no, ofIt, kept]
  rfl

end State

open State

/-- Settles O26: each command ends as its equation says. -/
theorem deviceCommands : Obligations.DeviceCommands := by
  intro s host q c
  have info : exec (.devInfo host q) s = .next (s.runCmd host q 0x0100 devInfo) := rfl
  have state : exec (.devStateGet host q) s = .next (s.runCmd host q 0x0101 devStateGet) := rfl
  have mark : exec (.journalMark host q) s = .next (s.runCmd host q 0x0104 journalMark) := rfl
  have resync : exec (.hostResync host q) s = .next (s.runCmd host q 0x0102 hostResyncCmd) := rfl
  have reads : exec (.journalRead host q) s = .next (s.runCmd host q 0x0103 journalRead) := rfl
  refine ⟨fun h => ?_, fun h => ?_, fun h => ?_, ?_, fun accepted opcode restart ok hc => ?_, ?_⟩
  · rw [info, runCmd_done h rfl]
  · rw [state, runCmd_done h rfl]
  · rw [mark, runCmd_done h rfl]
  · rintro first u cur next h rfl rfl rfl rfl
    rw [resync, runCmd_done h (hostResyncCmd_eq h.opcode), resyncBegin, resyncSession]
  · rw [sessionRestart_eq accepted opcode restart ok]
    refine ⟨?_, rget_rset_same .., .rset rfl (Only.rset0 ..)⟩
    rw [rget_rset_other _ _ (by unfold Reg.mbxHostSession Reg.mbxHostSeq; omega), rget_rset_same, BitVec.toNat_ofNat]
    omega
  · rintro i ofBody byDma mode n h rfl count body dma hmode session pos few target hi
    have start : s.readStart c = i := hi.symm
    have p : ReadPermitted c n ofBody byDma := ⟨count, body, dma, hmode, session, pos, few, target⟩
    refine ⟨?_, fun k hk ahead => ?_, fun k hk given => ⟨?_, fun closed gone => ?_, fun e r closed kept => ?_⟩⟩
    · rintro rfl
      rw [reads, runCmd_fail h (journalRead_noStart p start)]
    · have read := journalRead_start p (start.trans hk)
      rw [reads, runCmd_fail h (read.trans (readFrom_ahead ahead))]
    · rintro ⟨d, hd⟩
      have read := journalRead_start p (start.trans hk)
      rw [reads, runCmd_fail h (read.trans (readFrom_open given hd))]
    · have read := journalRead_start p (start.trans hk)
      rw [reads, runCmd_fail h (read.trans (readFrom_gone given closed gone))]
    · have read := (journalRead_start p (start.trans hk)).trans (readFrom_kept given closed kept)
      refine ⟨fun yes can => ?_, fun no entry => ?_, fun no ofBody none => ?_, fun b no ofBody some => ?_⟩
      · rw [reads, runCmd_done h (read.trans (readAnswer_dma yes can))]
      · rw [reads, runCmd_done h (read.trans (readAnswer_entry no entry))]
      · rw [reads, runCmd_fail h (read.trans (readAnswer_noBody no ofBody none))]
      · rw [reads, runCmd_done h (read.trans (readAnswer_body no ofBody some))]

end Sys2Proof.Machine
end

section
/-! The registers of a command queue (R86, R88, R109, R127): what a host's write to each of them does. -/

namespace Sys2Proof.Machine

namespace State

variable {s : State} {r : RegRow} {host tag q off first count stride a b m : Nat} {v old new : Word}

/-! ### Where the registers lie (R84) -/

theorem regIdx_none (h : off < first ∨ first + count * stride ≤ off) (hs : 0 < stride) :
    regIdx first count stride off = none := by
  refine if_neg fun ⟨low, _, high⟩ => ?_
  rw [Nat.div_lt_iff_lt_mul hs] at high
  omega

theorem sqIdx_none (h : off % 0x40 ≠ first % 0x40) : sqIdx first off = none := by
  have apart (k count : Nat) : regIdx (first + 0x40 * k) count 0x40 off = none := if_neg (by omega)
  unfold sqIdx
  rw [show regIdx first 8 0x40 off = none from apart 0 8, show regIdx (first + 0x400) 2 0x40 off = none from apart 16 2]
  rfl

/-- Host `host` has a command queue `q` with registers. -/
def HasQueue (host q : Nat) : Prop := (host = 0 ∧ q < 8) ∨ (host = 1 ∧ q < 2)

theorem sqIdx_sqReg (hq : HasQueue host q) : sqIdx first (sqReg first host q) = some (host, q) := by
  have own (base count : Nat) (h : q < count) : regIdx base count 0x40 (base + 0x40 * q) = some q := by
    unfold regIdx
    rw [if_pos (by omega)]
    congr
    omega
  obtain ⟨rfl, h⟩ | ⟨rfl, h⟩ := hq
  · unfold sqIdx
    rw [show regIdx first 8 0x40 (sqReg first 0 q) = some q from own first 8 h]
  · have above : regIdx first 8 0x40 (sqReg first 1 q) = none := by
      refine regIdx_none (.inr ?_) (by decide)
      simp only [sqReg, one_ne_zero, if_false]
      omega
    unfold sqIdx
    rw [above, show regIdx (first + 0x400) 2 0x40 (sqReg first 1 q) = some q from own (first + 0x400) 2 h]
    rfl

theorem sqReg_ne (h : a ≠ b) : sqReg a host q ≠ sqReg b host q := by
  unfold sqReg
  omega

/-! ### What a write has besides its value -/

/-- The consumers of a write in the window of the command queues: a doorbell, and an enable that rises or falls. -/
def queueWrite (s : State) (old new : Word) : Option (Nat × Nat) → Option (Nat × Nat) → State
  | some (host, q), _ => s.doorbell host q
  | none, some (host, q) =>
    if old.toNat % 2 = 0 ∧ new.toNat % 2 = 1 then s.queueEnable host q
    else if old.toNat % 2 = 1 ∧ new.toNat % 2 = 0 then s.queueDisable host q
    else s
  | none, none => s

theorem afterWrite_queue (h : off / 0x800 = 34) : s.afterWrite off old new v =
    s.queueWrite old new (sqIdx (Reg.mbxSqProd 0) off) (sqIdx (Reg.mbxQCtrl 0) off) := by
  have apart {c : Nat} (hc : c / 0x800 ≠ 34) : off ≠ c := fun e => hc (e ▸ h)
  have evq : regIdx (Reg.evqCons 0) 2 0x40 off = none := regIdx_none (by unfold Reg.evqCons; omega) (by decide)
  have rxr : regIdx (Reg.hifRxrCons 0) 32 0x40 off = none := regIdx_none (by unfold Reg.hifRxrCons; omega) (by decide)
  have tsq : regIdx (Reg.hifTsqCons 0) 4 0x20 off = none := regIdx_none (by unfold Reg.hifTsqCons; omega) (by decide)
  have tsqCtrl : regIdx (Reg.hifTsqCtrl 0) 4 0x20 off = none :=
    regIdx_none (by unfold Reg.hifTsqCtrl; omega) (by decide)
  unfold afterWrite
  dsimp only
  iterate 7 rw [if_neg (apart (by decide))]
  rw [if_neg (not_or.2 ⟨apart (by decide), apart (by decide)⟩), evq, rxr, tsq, tsqCtrl]
  rcases sqIdx (Reg.mbxSqProd 0) off with _ | ⟨host, q⟩
  · rcases sqIdx (Reg.mbxQCtrl 0) off with _ | ⟨host, q⟩ <;> rfl
  · rfl

/-! ### What a host's write leaves in the register (R9) -/

theorem sqReg_mod : sqReg first host q % 0x40 = first % 0x40 := by
  unfold sqReg
  split <;> omega

/-- A register whose only bits are the RW bits `m`. -/
def rwRow (off m : Nat) : Bool := (regRow off).any fun r => r.rw == m && r.rwg == 0 && r.ack == 0

/-- The registers of a command queue that its host writes. -/
theorem rwRow_queue : ∀ host < 2, ∀ q < 8, (host = 1 → q < 2) →
    rwRow (sqReg (Reg.mbxSqProd 0) host q) 0xFFFFFFFF = true ∧
    rwRow (sqReg (Reg.mbxCqCons 0) host q) 0xFFFFFFFF = true ∧ rwRow (sqReg (Reg.mbxQCtrl 0) host q) 3 = true := by
  decide +kernel

theorem Writable.rwBits (w : s.Writable host off r) (row : rwRow off m = true) :
    r.rw = m ∧ r.rwg = 0 ∧ r.ack = 0 := by
  have served := w.row
  unfold servedRow at served
  split at served
  · cases served
  · simpa [rwRow, served, and_assoc] using row

theorem stored_all (w : s.Writable host off r) (row : rwRow off 0xFFFFFFFF = true) : s.stored r off v = v := by
  obtain ⟨hrw, hrwg, hack⟩ := w.rwBits row
  have mask : r.mask = BitVec.allOnes 32 := by rw [RegRow.mask, hrw, hrwg, hack]; rfl
  rw [stored, mask, BitVec.and_allOnes, BitVec.not_allOnes, BitVec.and_zero, BitVec.zero_or]

/-- EN and IRQ_EN of a queue are those of the data. -/
theorem stored_ctrl (w : s.Writable host off r) (row : rwRow off 3 = true) (hb : b < 2) :
    (s.stored r off v).getLsbD b = v.getLsbD b := by
  obtain ⟨hrw, hrwg, hack⟩ := w.rwBits row
  have mask : r.mask.getLsbD b = true := by
    rw [RegRow.mask, hrw, hrwg, hack]
    interval_cases b <;> rfl
  rw [getLsbD_stored (by omega), if_pos mask]

theorem bits_one (w : Word) (b : Nat) : bits w.toNat b 1 = b2n (w.getLsbD b) := by
  rw [bits, BitVec.getLsbD, ← bit_eq_testBit, bit, pow_one, b2n]
  rcases Nat.mod_two_eq_zero_or_one (w.toNat / 2 ^ b) with h | h <;> rw [h] <;> rfl

theorem toNat_mod_two (w : Word) : w.toNat % 2 = b2n (w.getLsbD 0) := by
  rw [← bits_one, bits, pow_zero, Nat.div_one, pow_one]

theorem rfld_bit (s : State) (o b : Nat) : s.rfld o b 1 = b2n ((s.rget o).getLsbD b) := bits_one ..

section

variable (up : s.bridgeUp = true) (runs : s.quenched 9 = false)
  (fresh : ∀ g ∈ s.hif.guards, s.clk ≤ g.since + 1000)
include up runs fresh

/-- A host's write stores the data in a queue register, and the consumers of the register see it. -/
theorem postReg_queue (w : s.Writable host off r) (row : rwRow off m = true) (hm : m ≠ 0)
    (window : off / 0x800 = 34) : s.postReg host tag off v = (s.rset off (s.stored r off v)).queueWrite (s.rget off)
      (s.stored r off v) (sqIdx (Reg.mbxSqProd 0) off) (sqIdx (Reg.mbxQCtrl 0) off) := by
  obtain ⟨hrw, hrwg, hack⟩ := w.rwBits row
  have direct : s.postReg host tag off v = s.writeDirect host tag off v := by
    simp only [postReg, up, runs, writeReg, guardExpire_fresh s fresh, if_pos w.window, Bool.not_true,
      Bool.false_eq_true, if_false]
  have store : s.writeDirect host tag off v = s.storeReg r off v := by
    simp [writeDirect, w.row, w.allowed, hrw, hrwg, hm]
  rw [direct, store, ← afterWrite_queue (v := v) window]
  rfl

end

/-! ### Doorbells, and queues that are enabled or disabled (R88, R96, R127) -/

theorem window_sqReg (hq : HasQueue host q) (h : first / 0x40 = 0x440) : sqReg first host q / 0x800 = 34 := by
  unfold sqReg
  obtain ⟨rfl, _⟩ | ⟨rfl, _⟩ := hq
  · rw [if_pos rfl]
    omega
  · rw [if_neg one_ne_zero]
    omega

theorem queueEn_eq (hq : HasQueue host q) : s.queueEn host q = (s.rget (sqReg (Reg.mbxQCtrl 0) host q)).getLsbD 0 := by
  have notService : (host == 2) = false := by
    obtain ⟨rfl, _⟩ | ⟨rfl, _⟩ := hq <;> rfl
  rw [queueEn, notService, rfld_bit]
  cases (s.rget (sqReg (Reg.mbxQCtrl 0) host q)).getLsbD 0 <;> rfl

/-- Another register of the queue stands. -/
theorem rget_rset_sqReg (h : a ≠ b) : (s.rset (sqReg a host q) v).rget (sqReg b host q) = s.rget (sqReg b host q) :=
  rget_rset_other _ _ (sqReg_ne h.symm)

/-- The doorbell after its produce count has been stored. -/
theorem doorbell_stored (hq : HasQueue host q) : (s.rset (sqReg (Reg.mbxSqProd 0) host q) v).doorbell host q =
    if sqDepth host < (v - s.rget (sqReg (Reg.mbxSqAccept 0) host q)).toNat then
      ((s.rset (sqReg (Reg.mbxSqProd 0) host q) v).setMbx { s.mbx with
        faults := (16 * host + q) :: s.mbx.faults.filter (· ≠ 16 * host + q)
        bells := s.mbx.bells.filter (·.1 ≠ 16 * host + q) }).raise 0x2001 (host + 256 * q)
    else if s.queueEn host q = true ∧ 16 * host + q ∉ s.mbx.faults then
      (s.rset (sqReg (Reg.mbxSqProd 0) host q) v).setMbx { s.mbx with
        bells := s.mbx.bells ++ [(16 * host + q, v.toNat)] }
    else s.rset (sqReg (Reg.mbxSqProd 0) host q) v := by
  have ahead (w : Word) : (v.toNat + 2 ^ 32 - w.toNat) % 2 ^ 32 = (v - w).toNat := by
    have := w.isLt
    rw [BitVec.toNat_sub]
    omega
  have enabled : s.rfld (sqReg (Reg.mbxQCtrl 0) host q) 0 1 = 1 ↔ s.queueEn host q = true := by
    rw [queueEn_eq hq, rfld_bit]
    cases (s.rget (sqReg (Reg.mbxQCtrl 0) host q)).getLsbD 0 <;> decide
  have ctrl : (s.rset (sqReg (Reg.mbxSqProd 0) host q) v).rfld (sqReg (Reg.mbxQCtrl 0) host q) 0 1 =
      s.rfld (sqReg (Reg.mbxQCtrl 0) host q) 0 1 := by
    rw [rfld, rget_rset_sqReg (by decide), rfld]
  unfold doorbell
  dsimp only
  rw [rget_rset_same, rget_rset_sqReg (by decide), ahead, ctrl]
  simp [enabled]

/-- Enabling a queue leaves its control register, and puts its four counts at 0. -/
theorem queueEnable_state :
    (s.queueEnable host q).rget (sqReg (Reg.mbxQCtrl 0) host q) = s.rget (sqReg (Reg.mbxQCtrl 0) host q) ∧
    (s.queueEnable host q).rget (sqReg (Reg.mbxSqProd 0) host q) = 0 ∧
    (s.queueEnable host q).rget (sqReg (Reg.mbxSqAccept 0) host q) = 0 ∧
    (s.queueEnable host q).rget (sqReg (Reg.mbxCqProd 0) host q) = 0 ∧
    (s.queueEnable host q).rget (sqReg (Reg.mbxCqCons 0) host q) = 0 := by
  simp [queueEnable, rget_rset, sqReg]

/-- A queue whose EN falls, before the completions that it holds are discarded. -/
def queueStop (s : State) (host q : Nat) : State :=
  s.setMbx { s.mbx with
    faults := s.mbx.faults.filter (· ≠ 16 * host + q)
    bells := s.mbx.bells.filter (·.1 ≠ 16 * host + q) }

/-- The control register of a queue after a host's write. -/
def ctrlStored (s : State) (r : RegRow) (host q : Nat) (v : Word) : State :=
  s.rset (sqReg (Reg.mbxQCtrl 0) host q) (s.stored r (sqReg (Reg.mbxQCtrl 0) host q) v)

theorem queueWrite_rise (was : old.getLsbD 0 = false) (is : new.getLsbD 0 = true) :
    s.queueWrite old new none (some (host, q)) = s.queueEnable host q := by
  rw [queueWrite, toNat_mod_two, toNat_mod_two, was, is]
  rfl

theorem queueWrite_fall (was : old.getLsbD 0 = true) (is : new.getLsbD 0 = false) :
    s.queueWrite old new none (some (host, q)) = (s.queueStop host q).postAll := by
  rw [queueWrite, toNat_mod_two, toNat_mod_two, was, is]
  rfl

end State

open State

/-- Settles O20: each row stores its register, and the register's consumer is the doorbell, none, or the enable. -/
theorem mailboxQueues : Obligations.MailboxQueues := by
  intro s host tag q v r up runs fresh hq
  have bounds : host < 2 ∧ q < 8 ∧ (host = 1 → q < 2) := by omega
  obtain ⟨prod, cons, ctrl⟩ := rwRow_queue host bounds.1 q bounds.2.1 bounds.2.2
  have apart {a b : Nat} (h : b % 0x40 ≠ a % 0x40) : sqIdx a (sqReg b host q) = none :=
    sqIdx_none (by rwa [sqReg_mod])
  have post {first m : Nat} (v : Word) (w : s.Writable host (sqReg first host q) r)
      (row : rwRow (sqReg first host q) m = true) (hm : m ≠ 0) (h : first / 0x40 = 0x440) :=
    postReg_queue (tag := tag) (v := v) up runs fresh w row hm (window_sqReg hq h)
  refine ⟨?_, fun w => ?_, fun irq w off => ?_, fun irq w on => ?_⟩
  · rintro u n w rfl rfl
    show Host.Outcome.next (s.postReg _ _ _ _) = _
    rw [post v w prod (by decide) (by decide), stored_all w prod, sqIdx_sqReg hq]
    exact congrArg _ (doorbell_stored hq)
  · show Host.Outcome.next (s.postReg _ _ _ _) = _
    rw [post v w cons (by decide) (by decide), stored_all w cons, apart (by decide), apart (by decide)]
    rfl
  · have was : (s.rget (sqReg (Reg.mbxQCtrl 0) host q)).getLsbD 0 = false := by simpa [rfld_bit, b2n] using off
    have en : (BitVec.ofNat 32 (1 + 2 * b2n irq)).getLsbD 0 = true := by cases irq <;> rfl
    have irqEn : (BitVec.ofNat 32 (1 + 2 * b2n irq)).getLsbD 1 = irq := by cases irq <;> rfl
    have is {b : Nat} (hb : b < 2) := stored_ctrl (v := BitVec.ofNat 32 (1 + 2 * b2n irq)) w ctrl hb
    obtain ⟨held, prod0, accept0, cqProd0, cons0⟩ := queueEnable_state (host := host) (q := q)
      (s := s.ctrlStored r host q (BitVec.ofNat 32 (1 + 2 * b2n irq)))
    refine ⟨_, ?_, ?_, ?_, prod0, accept0, cqProd0, cons0, by simp [queueEnable], rfl,
      .queueEnable (by decide) (.rset (by decide) (.refl _ s))⟩
    · show Host.Outcome.next (s.postReg _ _ _ _) = _
      rw [post _ w ctrl (by decide) (by decide), apart (by decide), sqIdx_sqReg hq,
        queueWrite_rise was ((is (by decide)).trans en), ctrlStored]
    · rw [queueEn_eq hq, held, ctrlStored, rget_rset_same, is (by decide), en]
    · rw [rfld_bit, held, ctrlStored, rget_rset_same, is (by decide), irqEn]
  · have was : (s.rget (sqReg (Reg.mbxQCtrl 0) host q)).getLsbD 0 = true := by simpa [rfld_bit, b2n] using on
    have dis : (BitVec.ofNat 32 (2 * b2n irq)).getLsbD 0 = false := by cases irq <;> rfl
    have is := stored_ctrl (v := BitVec.ofNat 32 (2 * b2n irq)) w ctrl (b := 0) (by decide)
    refine ⟨(s.ctrlStored r host q (BitVec.ofNat 32 (2 * b2n irq))).queueStop host q, ?_, ?_, by simp [queueStop],
      by simp [queueStop], rfl, .setMbx (by decide) (.rset (by decide) (.refl _ s))⟩
    · show Host.Outcome.next (s.postReg _ _ _ _) = _
      rw [post _ w ctrl (by decide) (by decide), apart (by decide), sqIdx_sqReg hq,
        queueWrite_fall was (is.trans dis), ctrlStored]
    · rw [queueEn_eq hq, queueStop, setMbx_rget, ctrlStored, rget_rset_same, is, dis]

end Sys2Proof.Machine
end

section
/-! Taking a slot (R87, R94 to R98): which slot a queue gives up, and the four ways in which it is answered. -/

namespace Sys2Proof.Machine

namespace State

variable {s : State} {host q p st : Nat} {slot b : List Byte} {rest : List (List Byte)} {written : Nat → Bool} {c : Cmd}

/-! ### The slot that a queue gives up (R87, R96) -/

/-- A queue of a host, whose doorbells that have been taken up to are forgotten, gives up the slot at its accept
count `p`. -/
structure GivesSlot (s : State) (host q p : Nat) : Prop where
  enabled : s.queueEn host q = true
  sound : 16 * host + q ∉ s.mbx.faults
  dma : host = 0 → s.canDma = true
  front : ∃ b, (s.mbx.bells.find? fun b => b.1 / 16 == host) = some b ∧ b.1 = 16 * host + q
  next : p = (s.rget (sqReg (Reg.mbxSqAccept 0) host q)).toNat
  room : (p + 2 ^ 32 - (s.rget (sqReg (Reg.mbxCqCons 0) host q)).toNat) % 2 ^ 32 < sqDepth host
  runs : s.commandsRun (leNat ((s.mread (slotAddr host q p) 256).take 2)) = true

/-- A slot is taken: the accept count advances, and the slot's map of written DWORDs clears (R90). -/
def slotGone (s : State) (host q p : Nat) : State :=
  (s.rset (sqReg (Reg.mbxSqAccept 0) host q) (BitVec.ofNat 32 (p + 1))).setMbx { s.mbx with
    written := s.mbx.written.filter fun w =>
      !(decide (slotAddr host q p ≤ w) && decide (w < slotAddr host q p + 256)) }

theorem takeHost_eq (h : (s.bellsDone host).GivesSlot host q p) : s.takeHost host q =
    ((s.bellsDone host).slotGone host q p).takeSlot host q (p % sqDepth host) (s.mread (slotAddr host q p) 256)
      fun i => s.mbx.written.contains (slotAddr host q p + 4 * i) := by
  obtain ⟨enabled, sound, dma, ⟨b, front, own⟩, rfl, room, runs⟩ := h
  unfold takeHost
  refine if_neg ?_
  simpa [nextSlot, enabled, sound, front, own, runs, -Nat.reducePow] using ⟨dma, room⟩

theorem exec_slotTake_host (ready : s.pwr.fwReady = true) (hq : HasQueue host q) :
    exec (.slotTake host q) s = .next (s.takeHost host q) := by
  show Host.Outcome.next (s.doSlotTake host q) = _
  obtain ⟨rfl, hq⟩ | ⟨rfl, hq⟩ := hq <;> simp [doSlotTake, ready, hq]

/-- The service session's next command is taken. -/
theorem exec_slotTake_service (ready : s.pwr.fwReady = true) (carried : s.mbx.svc = b :: rest)
    (sound : 32 ∉ s.mbx.faults) (room : s.mbx.svcAccept < s.mbx.svcPosted + 32)
    (runs : s.commandsRun (leNat (b.take 2)) = true) :
    exec (.slotTake 2 q) s = .next ((s.setMbx { s.mbx with svc := rest, svcAccept := s.mbx.svcAccept + 1 }).takeSlot 2 0
      (s.mbx.svcAccept % 32) b fun i => decide (4 * i < b.length)) := by
  have fits : s.mbx.svcAccept - s.mbx.svcPosted < 32 := by omega
  show Host.Outcome.next (s.doSlotTake 2 q) = _
  simp [doSlotTake, ready, takeService, carried, sound, fits, runs]

theorem slotGone_accept (next : p = (s.rget (sqReg (Reg.mbxSqAccept 0) host q)).toNat) :
    (s.slotGone host q p).rget (sqReg (Reg.mbxSqAccept 0) host q) = s.rget (sqReg (Reg.mbxSqAccept 0) host q) + 1 := by
  rw [slotGone, setMbx_rget, rget_rset_same, next, BitVec.ofNat_add, BitVec.ofNat_toNat, BitVec.setWidth_eq]
  rfl

theorem slotGone_written : ∀ w ∈ (s.slotGone host q p).mbx.written,
    w < slotAddr host q p ∨ slotAddr host q p + 256 ≤ w := by
  intro w hw
  have kept := (List.mem_filter.1 hw).2
  simp only [Bool.not_eq_true', Bool.and_eq_false_iff, decide_eq_false_iff_not] at kept
  omega

theorem slotGone_only : Only (Group.regs ||| Group.mbx) s ((s.bellsDone host).slotGone host q p) :=
  .setMbx (by decide) (.rset (by decide) (.setMbx (by decide) (.refl _ s)))

/-! ### How a slot is answered (R94 to R98) -/

/-- The command that a slot holds. -/
def slotCmd (s : State) (host q p : Nat) (slot : List Byte) : Cmd :=
  let f (o n : Nat) : Nat := leNat ((slot.drop o).take n)
  { index := noIndex, host := host, queue := q, slot := p, seq := f 8 4, opcode := f 0 2,
    flags := f 2 2, tag := f 12 4, hostTime := f 16 8, expectEpoch := f 24 4,
    session := (s.rget (Reg.mbxHostSession host)).toNat, body := (slot.drop 32).take (f 6 2), acceptTime := s.clk,
    acceptDom := (List.range 4).map s.domNs,
    phase := .ended, cfgEpoch := (s.rget Reg.mbxCfgEpoch).toNat, doneTime := s.clk }

/-- A command stands behind those that were taken before. -/
def cmdAdd (s : State) (c : Cmd) : State := s.setMbx { s.mbx with cmds := s.mbx.cmds ++ [c] }

/-- A command that is rejected is counted, and answered at once (R95). -/
def slotReject (s : State) (c : Cmd) (st : Nat) : State :=
  (s.free.2.bump Reg.mbxRejectCnt).cmdAdd { c with status := st, result := s.free.1 }

/-- A command that is accepted gets the next journal index (R96), and its host's highest sequence number becomes its
own, but for a RESTART (R101). -/
def slotAccept (s : State) (c : Cmd) : State :=
  let t := s.rset Reg.mbxJournalHead (s.rget Reg.mbxJournalHead + 1)
  (if isRestart c.opcode c.body then t else t.rset (Reg.mbxHostSeq c.host) (BitVec.ofNat 32 c.seq)).cmdAdd
    { c with
      index := (s.rget Reg.mbxJournalHead).toNat, phase := .accepted
      hBefore := (s.rget (Reg.mbxHostSeq c.host)).toNat }

/-- The answer to a sequence number (R98). -/
def slotJudged (s : State) (c : Cmd) : SeqVerdict → State
  | .reject st => (s.slotReject c st).postAll
  | .wait i => s.cmdAdd { c with index := i, phase := .replayWait, replayed := true }
  | .replay e => (s.cmdAdd { c with
      index := e.index, replayed := true, status := e.status, result := e.result, cfgEpoch := e.cfgEpoch }).postAll
  | .accept => s.slotAccept c

/-- The verdict on a command's sequence number. -/
def slotVerdict (s : State) (c : Cmd) : SeqVerdict :=
  s.judgeSeq c.host c.opcode c.seq c.body (isRestart c.opcode c.body)

theorem takeSlot_refused (h : s.slotCheck host slot written = some st) :
    s.takeSlot host q p slot written = (s.slotReject (s.slotCmd host q p slot) st).postAll := by
  unfold takeSlot
  rw [h]
  rfl

theorem takeSlot_judged (h : s.slotCheck host slot written = none) : s.takeSlot host q p slot written =
    s.slotJudged (s.slotCmd host q p slot) (s.slotVerdict (s.slotCmd host q p slot)) := by
  unfold takeSlot
  rw [h]
  rfl

/-! ### What each answer leaves -/

theorem slotReject_cmds :
    (s.slotReject c st).mbx.cmds = s.mbx.cmds ++ [{ c with status := st, result := s.free.1 }] := by
  show (s.free.2.bump Reg.mbxRejectCnt).mbx.cmds ++ _ = _
  rw [(Only.bump0 ..).mbx rfl]
  rfl

/-- A rejection leaves the registers outside its count and the event queues. -/
theorem slotReject_rget {o : Nat} (ho : eventReg o = false) (h : o ≠ Reg.mbxRejectCnt) :
    (s.slotReject c st).rget o = s.rget o :=
  bump_other s.free.2 _ o ho h

theorem slotReject_count (runs : s.stopped Reg.mbxRejectCnt = false) :
    (s.slotReject c st).rget Reg.mbxRejectCnt = s.rget Reg.mbxRejectCnt + 1 :=
  (bump_rget s.free.2 _ rfl rfl runs).trans (if_pos rfl)

theorem eventReg_hostSeq (host : Nat) : eventReg (Reg.mbxHostSeq host) = false := by
  simp [eventReg, Reg.mbxHostSeq]
  omega

theorem slotAccept_cmds : (s.slotAccept c).mbx.cmds = s.mbx.cmds ++ [{ c with
    index := (s.rget Reg.mbxJournalHead).toNat, phase := .accepted
    hBefore := (s.rget (Reg.mbxHostSeq c.host)).toNat }] := by
  unfold slotAccept
  dsimp only
  split <;> rfl

theorem slotAccept_head : (s.slotAccept c).rget Reg.mbxJournalHead = s.rget Reg.mbxJournalHead + 1 := by
  have apart : Reg.mbxJournalHead ≠ Reg.mbxHostSeq c.host := by unfold Reg.mbxJournalHead Reg.mbxHostSeq; omega
  show (if _ then _ else _ : State).rget _ = _
  split
  · exact rget_rset_same ..
  · rw [rget_rset_other _ _ apart, rget_rset_same]

theorem slotAccept_seq : (s.slotAccept c).rget (Reg.mbxHostSeq c.host) =
    if isRestart c.opcode c.body then s.rget (Reg.mbxHostSeq c.host) else BitVec.ofNat 32 c.seq := by
  have apart : Reg.mbxHostSeq c.host ≠ Reg.mbxJournalHead := by unfold Reg.mbxJournalHead Reg.mbxHostSeq; omega
  show (if _ then _ else _ : State).rget _ = _
  split
  · exact rget_rset_other _ _ apart
  · exact rget_rset_same ..

theorem slotAccept_only : Only (Group.regs ||| Group.mbx) s (s.slotAccept c) :=
  have numbered : Only (Group.regs ||| Group.mbx) s (s.rset Reg.mbxJournalHead (s.rget Reg.mbxJournalHead + 1)) :=
    .rset (by decide) (.refl _ s)
  .setMbx (by decide) (.ite numbered (.rset (by decide) numbered))

end State

open State

/-- Settles O21: the slot that is taken, and the four answers to the command that it holds. -/
theorem slotTaking : Obligations.SlotTaking := by
  refine ⟨?_, fun s q b r ready carried sound room runs => exec_slotTake_service ready carried sound room runs, ?_⟩
  · rintro s v host q p slot ready hq rfl enabled sound dma front next room rfl runs
    have gives : (s.bellsDone host).GivesSlot host q p := ⟨enabled, sound, dma, front, next, room, runs⟩
    refine ⟨_, slotGone_accept (s := s.bellsDone host) next, slotGone_written, slotGone_only, ?_⟩
    rw [exec_slotTake_host ready hq, takeHost_eq gives]
  · rintro t host q p op seq slot body written rfl rfl rfl
    have judged (x : SeqVerdict) (passed : t.slotCheck host slot written = none)
        (verdict : t.slotVerdict (t.slotCmd host q p slot) = x) :
        t.takeSlot host q p slot written = t.slotJudged (t.slotCmd host q p slot) x := by
      rw [takeSlot_judged passed, verdict]
    refine ⟨fun st refused => ?_, fun _ passed verdict => ?_, fun i passed verdict => ?_,
      fun e passed verdict => ?_⟩
    · have answer : t.takeSlot host q p slot written = (t.slotReject (t.slotCmd host q p slot) st).postAll :=
        refused.elim takeSlot_refused fun h => judged _ h.1 h.2
      have apart : Reg.mbxHostSeq host ≠ Reg.mbxRejectCnt := by unfold Reg.mbxHostSeq Reg.mbxRejectCnt; omega
      exact ⟨_, _, answer, slotReject_cmds, rfl, rfl, rfl, slotReject_rget (eventReg_hostSeq host) apart,
        slotReject_rget rfl (by decide), slotReject_count⟩
    · rw [judged .accept passed verdict]
      exact ⟨_, slotAccept_cmds, rfl, rfl, rfl, rfl, rfl, rfl, rfl, rfl, rfl, slotAccept_head, slotAccept_seq,
        slotAccept_only⟩
    · exact ⟨_, judged (.wait i) passed verdict, rfl, rfl, rfl, rfl, rfl, rfl⟩
    · exact ⟨_, judged (.replay e) passed verdict, rfl, rfl, rfl, rfl, rfl, rfl, rfl, rfl, rfl⟩

end Sys2Proof.Machine
end
section
/-! Gate lists and deadlines: what the begin of a list's entry leaves as it is (R143, R289), and how a deadline that
passes is counted (R163, R166, R267). -/

namespace Sys2Proof.Machine

namespace State

variable {s : State} {p fid e n : Nat} {i : Image} {l : GateList} {h : HostList} {d : Deadline} {c : Copy}
  {es : List GateEntry}

/-! ### The begin of an entry (R143, R289, R292) -/

/-- An entry of a list takes force at a port, with its operation on preemption. -/
def entryBegins (s : State) (p : Nat) (es : List GateEntry) (n : Nat) : State :=
  (match es[n]? with
   | none => s
   | some e => s.enterEntry p e).gateSeen p

theorem entryBegins_only (s : State) (p : Nat) (es : List GateEntry) (n : Nat) :
    Only 0x20B s (s.entryBegins p es n) := by
  unfold entryBegins
  refine .gateSeen rfl ?_
  split
  · exact .refl _ s
  · exact Only.enterEntry0 ..

theorem gateSeen_gcl (s : State) (p : Nat) : (s.gateSeen p).trf.gcl = s.trf.gcl := by
  unfold gateSeen
  split <;> rfl

theorem enterEntry_gcl (s : State) (p : Nat) (e : GateEntry) : (s.enterEntry p e).trf.gcl = s.trf.gcl := by
  unfold enterEntry
  split
  · rfl
  · split
    · rw [(Only.bump0 ..).trf rfl]
      rfl
    · split <;> rfl

theorem entryBegins_gcl : (s.entryBegins p es n).trf.gcl = s.trf.gcl := by
  rw [entryBegins, gateSeen_gcl]
  split
  · rfl
  · exact enterEntry_gcl ..

/-! ### The lists of the running image, and of a host -/

/-- Time goes on to the end of the entry in force: in the image's domain, or, while it re-phases, on the local clock. -/
def entryRuns (s : State) (i : Image) (l : GateList) : State :=
  if s.cal.rephase then s.waitUntil (s.clk + s.imageLeft i l) else s.waitDom i.domain (s.domNs i.domain + s.imageLeft i l)

theorem entryRuns_only (s : State) (i : Image) (l : GateList) : Only 0x10004 s (s.entryRuns i l) :=
  .ite (Only.waitUntil0 ..) (Only.waitDom0 ..)

/-- The next entry of an image's list. -/
def nextEntry (s : State) (l : GateList) : Nat := (agetD s.cal.gateAt l.port 0 + 1) % max 1 l.entries.length

/-- The entry in force has run its interval, and the next one is the port's. -/
def entryMoves (s : State) (i : Image) (l : GateList) : State :=
  let u := (s.entryRuns i l).cbsUpdate l.port
  u.setCal { u.cal with gateAt := aset u.cal.gateAt l.port (s.nextEntry l) }

theorem entryMoves_cal (s : State) (i : Image) (l : GateList) : (s.entryMoves i l).cal =
    { s.cal with gateAt := aset s.cal.gateAt l.port (s.nextEntry l) } := by
  have cal : ((s.entryRuns i l).cbsUpdate l.port).cal = s.cal :=
    ((Only.cbsUpdate0 ..).cal rfl).trans ((entryRuns_only s i l).cal rfl)
  rw [entryMoves, setCal_cal, cal]

theorem entryMoves_clk (s : State) (i : Image) (l : GateList) : (s.entryMoves i l).clk = (s.entryRuns i l).clk :=
  (Only.cbsUpdate0 (s.entryRuns i l) l.port).clk rfl

theorem entryMoves_only (s : State) (i : Image) (l : GateList) : Only 0x10224 s (s.entryMoves i l) :=
  .setCal rfl (.cbsUpdate rfl ((entryRuns_only s i l).mono rfl))

theorem imageEntry_moves (runs : s.quenched Dom.calendar = false) (unstopped : s.cal.stop = false)
    (live : (s.domain i.domain).state ≠ .disabled)
    (within : s.cal.rephase = true → s.clk + s.imageLeft i l < s.cal.cycleEnd) :
    s.imageEntry i l = (s.entryMoves i l).entryBegins l.port l.entries (s.nextEntry l) := by
  have unheld : (s.quenched Dom.calendar || s.cal.stop || (s.domain i.domain).state == .disabled ||
      (s.cal.rephase && decide (s.cal.cycleEnd ≤ s.clk + s.imageLeft i l))) = false := by
    simpa [runs, unstopped, live] using within
  unfold imageEntry
  rw [if_neg (by rw [unheld]; decide)]
  rfl

theorem exec_gateEntryStart (s : State) (p : Nat) : exec (.gateEntryStart p) s = .next (s.doGateEntryStart p) := rfl

theorem exec_gateEntryStart_image (port : p < 64) (up : s.datapathUp = true) (running : s.runningImage = some i)
    (list : s.imageList p = some l) : exec (.gateEntryStart p) s = .next (s.imageEntry i l) := by
  rw [exec_gateEntryStart, doGateEntryStart, if_neg (by simpa [up] using port), running, list]

/-- The gate control of a port whose list enters its next entry, or begins again. -/
def gateNext (g : GateCtl) (h : HostList) : GateCtl := { g with pos := (g.pos + 1) % max 1 h.entries.length }

theorem hostNext_phased {g : GateCtl} (phased : g.rephase = none) :
    s.hostNext g h = (s.waitDom h.domain (s.domNs h.domain + s.hostLeft g h), gateNext g h) := by
  cases g
  dsimp only at phased
  subst phased
  rfl

/-- A port's gate control is another one from now on. -/
def setGates (s : State) (p : Nat) (g : GateCtl) : State :=
  let u := s.cbsUpdate p
  u.setTrf { u.trf with gcl := aset u.trf.gcl p g }

theorem setGates_gcl (s : State) (p : Nat) (g : GateCtl) : (s.setGates p g).trf.gcl = aset s.trf.gcl p g := rfl

theorem setGates_only (s : State) (p : Nat) (g : GateCtl) : Only 0x200 s (s.setGates p g) :=
  .setTrf rfl (Only.cbsUpdate0 s p)

/-- A host's list has run its entry in its domain, and the next one is the port's. -/
def hostMoves (s : State) (p : Nat) (h : HostList) : State :=
  (s.waitDom h.domain (s.domNs h.domain + s.hostLeft (s.hostGates p) h)).setGates p (gateNext (s.hostGates p) h)

theorem hostMoves_clk (s : State) (p : Nat) (h : HostList) : (s.hostMoves p h).clk =
    (s.waitDom h.domain (s.domNs h.domain + s.hostLeft (s.hostGates p) h)).clk :=
  (setGates_only ..).clk rfl

theorem hostMoves_gcl (s : State) (p : Nat) (h : HostList) :
    (s.hostMoves p h).trf.gcl = aset s.trf.gcl p (gateNext (s.hostGates p) h) := by
  rw [hostMoves, setGates_gcl, waitDom_trf]

theorem exec_gateEntryStart_host (port : p < 64) (up : s.datapathUp = true)
    (noImage : s.runningImage = none ∨ s.imageList p = none) (list : (s.hostGates p).cur = some h)
    (unretained : (s.hostGates p).retained = false) (live : (s.domain h.domain).state ≠ .disabled)
    (phased : (s.hostGates p).rephase = none) : exec (.gateEntryStart p) s =
      .next ((s.hostMoves p h).entryBegins p h.entries (gateNext (s.hostGates p) h).pos) := by
  have free : s.imageList p = none := by
    rcases noImage with unrun | unlisted
    · rw [imageList, unrun]
      rfl
    · exact unlisted
  have unheld : ((s.hostGates p).retained || (s.domain h.domain).state == .disabled) = false := by
    simp [unretained, live]
  rw [exec_gateEntryStart]
  unfold doGateEntryStart
  rw [if_neg (by simpa [up] using port), free]
  dsimp only
  rw [list]
  dsimp only
  rw [if_neg (by rw [unheld]; decide), hostNext_phased phased]
  cases s.runningImage <;> rfl

/-! ### Deadlines (R163, R166, R267) -/

theorem deadline_names (h : s.deadline fid e = some d) : d.fid = fid ∧ d.egress = e := by
  simpa using List.find?_some h

theorem portDown_waitUntil (s : State) (t p : Nat) : (s.waitUntil t).portDown p = s.portDown p := by
  simp [portDown, bport, quenched, fdom]

theorem late_names (h : s.deadline fid e = some d) (u : State) : u.late d = if d.waived then u.dropDeadline fid e
    else (u.dropDeadline fid e).breach d.image d.handle 1 e (u.clk - d.start) (some Dom.calendar) := by
  obtain ⟨rfl, rfl⟩ := deadline_names h
  rfl

theorem exec_streamDeadlineExpiry (h : s.deadline fid e = some d) : exec (.streamDeadlineExpiry fid e) s = .next
    (if (decide (e < 64) && s.portDown e) then
      match (s.copiesOf fid).find? fun c => c.port == e && !c.onLane with
      | none => (s.waitUntil (d.start + d.bound)).pathLost fid e
      | some c => (((s.waitUntil (d.start + d.bound)).discardCopy c).pathLost fid e).gc
    else (s.waitUntil (d.start + d.bound)).late d) := by
  show Host.Outcome.next (s.doStreamDeadlineExpiry fid e) = _
  unfold doStreamDeadlineExpiry
  rw [h]
  dsimp only
  rw [portDown_waitUntil, copiesOf, waitUntil_fr]
  rfl

end State

open State

/-- Settles O29, from the equation of each row; the deadline that expires is the one of the frame and egress named. -/
theorem gatesAndDeadlines : Obligations.GatesAndDeadlines := by
  intro s p
  refine ⟨?image, ?host, ?late, ?down, ?none⟩
  case image =>
    intro i l port up running list portOf runs unstopped live within
    have begins := entryBegins_only (s.entryMoves i l) p l.entries (s.nextEntry l)
    refine ⟨(s.entryMoves i l).entryBegins p l.entries (s.nextEntry l), ?_, ?_, ?_, ?_⟩
    · rw [exec_gateEntryStart_image port up running list, imageEntry_moves runs unstopped live within, portOf]
    · rw [begins.cal rfl, entryMoves_cal, nextEntry, portOf]
    · rw [begins.clk rfl, entryMoves_clk]
      rfl
    · exact ((entryMoves_only s i l).mono rfl).trans (begins.mono rfl)
  case host =>
    intro h port up noImage list unretained live phased
    have begins := entryBegins_only (s.hostMoves p h) p h.entries (gateNext (s.hostGates p) h).pos
    refine ⟨_, exec_gateEntryStart_host port up noImage list unretained live phased, ?_, fun k other => ?_, ?_, ?_⟩
    · rw [hostGates, entryBegins_gcl, hostMoves_gcl, agetD, aget_aset_same]
      rfl
    · rw [hostGates, entryBegins_gcl, hostMoves_gcl, agetD, aget_aset_other _ _ other]
      rfl
    · rw [begins.cal rfl]
      exact ((setGates_only ..).cal rfl).trans (waitDom_cal ..)
    · rw [begins.clk rfl, hostMoves_clk]
  case late =>
    intro fid e d u h hu port
    have up : (decide (e < 64) && s.portDown e) = false := by simpa using port
    rw [exec_streamDeadlineExpiry h, up, if_neg (by decide), late_names h, hu]
    rfl
  case down =>
    intro fid e d u h hu port down
    have at_ : (decide (e < 64) && s.portDown e) = true := by simp [port, down]
    refine ⟨fun lanes => ?_, fun c waits => ?_⟩
    · have noCopy : ((s.copiesOf fid).find? fun c => c.port == e && !c.onLane) = none := by
        simpa [List.find?_eq_none] using lanes
      rw [exec_streamDeadlineExpiry h, at_, if_pos rfl, noCopy, hu]
    · rw [exec_streamDeadlineExpiry h, at_, if_pos rfl, waits, hu]
  case none =>
    intro fid e h
    show Host.Outcome.next (s.doStreamDeadlineExpiry fid e) = _
    rw [doStreamDeadlineExpiry, h]

end Sys2Proof.Machine
end

section
/-! Which image runs, and its identity in CAL_ACTIVE_ID: events, counters, breaches and discarded frames change
neither. -/

namespace Sys2Proof.Machine

namespace State

/-! ### The register -/

theorem rget_of_only {m : Nat} {s t : State} (h : Only m s t) (hr : m.testBit 0 = false) (o : Nat) :
    t.rget o = s.rget o := by
  rw [rget, rget, h.regs hr]

theorem bump_activeId (s : State) {p : Nat} (hp : p ≠ Reg.calActiveId) :
    (s.bump p).rget Reg.calActiveId = s.rget Reg.calActiveId := bump_other s p _ rfl hp.symm

theorem tsqWrite_activeId (s : State) (g frameId port flags ns sec : Nat) :
    (s.tsqWrite g frameId port flags ns sec).rget Reg.calActiveId = s.rget Reg.calActiveId := by
  unfold tsqWrite
  extract_lets k t u
  have written : u.rget Reg.calActiveId = s.rget Reg.calActiveId :=
    (rget_rset_other _ _ (by unfold Reg.calActiveId Reg.hifTsqProd; omega)).trans (hostMem_rget ..)
  split
  · exact (signal_rget ..).trans written
  · exact written

theorem tsqPut_activeId (s : State) (g frameId port flags ns sec : Nat) :
    (s.tsqPut g frameId port flags ns sec).rget Reg.calActiveId = s.rget Reg.calActiveId := by
  have gap (t : State) : (t.tsqGap g).rget Reg.calActiveId = t.rget Reg.calActiveId := by
    unfold tsqGap
    dsimp only
    split
    · exact tsqWrite_activeId ..
    · rfl
  unfold tsqPut
  refine (gap _).trans ?_
  split
  · exact bump_activeId _ (by unfold Reg.calActiveId Reg.hifTsqLostCnt; omega)
  · exact tsqWrite_activeId ..

theorem discardCopy_activeId (s : State) (c : Copy) :
    (s.discardCopy c).rget Reg.calActiveId = s.rget Reg.calActiveId := by
  have taken := rget_of_only (Only.takeCopy0 s c.fid c.port) rfl Reg.calActiveId
  unfold discardCopy tsDiscard
  split
  · exact taken
  · split
    · exact taken
    · split
      · exact (tsqPut_activeId ..).trans taken
      · exact taken

theorem flowOne_activeId (s : State) (p pri : Nat) :
    (s.flowOne p pri).rget Reg.calActiveId = s.rget Reg.calActiveId := by
  have sent (t : State) (quanta : Nat) : (t.sendPause p pri quanta).rget Reg.calActiveId = t.rget Reg.calActiveId := by
    unfold sendPause stat
    split
    · exact bump_activeId _ (by unfold Reg.calActiveId Reg.stat; omega)
    · rfl
  unfold flowOne
  extract_lets n xoff xon on
  split
  · exact sent ..
  · split
    · exact sent ..
    · rfl

theorem foldl_activeId {α : Type} {f : State → α → State}
    (h : ∀ (s : State) x, (f s x).rget Reg.calActiveId = s.rget Reg.calActiveId) (l : List α) (s : State) :
    (l.foldl f s).rget Reg.calActiveId = s.rget Reg.calActiveId := by
  induction l generalizing s with
  | nil => rfl
  | cons x r ih => exact (ih _).trans (h s x)

theorem flowCheck_activeId (s : State) (p : Nat) :
    (s.flowCheck p).rget Reg.calActiveId = s.rget Reg.calActiveId := by
  unfold flowCheck
  split
  · rfl
  · split
    · exact flowOne_activeId ..
    · exact foldl_activeId (fun t i => flowOne_activeId t p i) _ s
    · rfl

theorem freeCells_activeId (s : State) : s.freeCells.rget Reg.calActiveId = s.rget Reg.calActiveId := by
  unfold freeCells
  dsimp only
  split
  · rfl
  · exact (foldl_activeId (fun t (f : Frame) => flowCheck_activeId t f.src) _ _).trans
      (rget_of_only (Only.spillUpdate0 _) rfl _)

/-! ### The running image and the register -/

/-- The same image runs, and CAL_ACTIVE_ID stands. -/
structure KeepsActive (s t : State) : Prop where
  running : t.cal.running = s.cal.running
  activeId : t.rget Reg.calActiveId = s.rget Reg.calActiveId

namespace KeepsActive

theorem refl (s : State) : s.KeepsActive s := ⟨rfl, rfl⟩

theorem trans {s t u : State} (h : s.KeepsActive t) (k : t.KeepsActive u) : s.KeepsActive u :=
  ⟨k.running.trans h.running, k.activeId.trans h.activeId⟩

theorem foldl {α : Type} {f : State → α → State} (h : ∀ (s : State) x, s.KeepsActive (f s x)) (l : List α)
    (s : State) : s.KeepsActive (l.foldl f s) := by
  induction l generalizing s with
  | nil => exact .refl s
  | cons x r ih => exact (h s x).trans (ih _)

/-- An operation that leaves the calendar. -/
theorem of_cal {m : Nat} {s t : State} (h : Only m s t) (hc : m.testBit 5 = false)
    (hr : t.rget Reg.calActiveId = s.rget Reg.calActiveId) : s.KeepsActive t :=
  ⟨congrArg Cal.running (h.cal hc), hr⟩

/-- An operation that leaves the calendar and the registers. -/
theorem of_only {m : Nat} {s t : State} (h : Only m s t) (hc : m.testBit 5 = false) (hr : m.testBit 0 = false) :
    s.KeepsActive t := of_cal h hc (rget_of_only h hr _)

variable (s : State)

theorem rset {p : Nat} (v : Word) (hp : p ≠ Reg.calActiveId) : s.KeepsActive (s.rset p v) :=
  ⟨rfl, rget_rset_other s v hp.symm⟩

theorem bump {p : Nat} (hp : p ≠ Reg.calActiveId) : s.KeepsActive (s.bump p) :=
  of_cal (Only.bump0 ..) rfl (bump_activeId s hp)

theorem raiseSev (code sev unit arg : Nat) : s.KeepsActive (s.raiseSev code sev unit arg) :=
  of_cal (Only.raiseSev0 ..) rfl (raiseSev_keepsRegs s _ _ _ _ _ rfl)

theorem raise (code arg : Nat) : s.KeepsActive (s.raise code arg) := raiseSev ..

theorem setCal {c : Cal} (same : c.running = s.cal.running) : s.KeepsActive (s.setCal c) := ⟨same, rfl⟩

theorem setHandle (h : Nat) (x : Handle) : s.KeepsActive (s.setHandle h x) := setCal s rfl

theorem drainGone : s.KeepsActive s.drainGone := setCal s rfl

theorem discardCopy (c : Copy) : s.KeepsActive (s.discardCopy c) :=
  of_cal (Only.discardCopy0 ..) rfl (discardCopy_activeId s c)

theorem gc : s.KeepsActive s.gc := by
  have freed : s.KeepsActive s.freeEnded.freeCells :=
    trans (of_only (Only.freeEnded0 s) rfl rfl) (of_cal (Only.freeCells0 _) rfl (freeCells_activeId _))
  unfold State.gc
  extract_lets t dead gone
  split
  · exact freed
  · exact (freed.trans (of_only (m := 0x80) (.owedGone rfl (.setFr rfl (.refl _ _))) rfl rfl)).trans (drainGone _)

theorem breach (id h kind port value : Nat) (dest : Option Nat) :
    s.KeepsActive (s.breach id h kind port value dest) := by
  have log (u : State) (k v : Nat) : u.KeepsActive (u.rset (Reg.calBreachLog k) (BitVec.ofNat 32 v)) :=
    rset _ _ (by unfold Reg.calActiveId Reg.calBreachLog; omega)
  have marks (u : State) (f : GCount → GCount) : u.KeepsActive (u.gmod id h f) := by
    unfold gmod
    split <;> exact setCal u rfl
  unfold State.breach
  split
  · exact .refl s
  · extract_lets c e w l0 l1 l2 g r
    have logged : s.KeepsActive l2 :=
      (bump s (by decide)).trans <| (log _ _ _).trans <| (log _ _ _).trans <| (log _ _ _).trans <|
        (log _ _ _).trans <| (log _ _ _).trans <| (log _ _ _).trans <| (log _ _ _).trans <| log _ _ _
    have marked : l2.KeepsActive g := by
      show l2.KeepsActive (if _ then _ else _)
      split
      · exact marks ..
      · exact .refl l2
    have raised : s.KeepsActive r := (logged.trans marked).trans (raiseSev ..)
    split
    · exact raised
    · exact raised.trans (of_only (Only.report0 ..) rfl rfl)

theorem late (d : Deadline) : s.KeepsActive (s.late d) := by
  have dropped : s.KeepsActive (s.dropDeadline d.fid d.egress) := setCal s rfl
  unfold State.late
  dsimp only
  split
  · exact dropped
  · exact dropped.trans (breach ..)

theorem overlapLate (old : Image) (f : Frame) : s.KeepsActive (s.overlapLate old f) :=
  (foldl late _ s).trans (foldl discardCopy _ _)

theorem enterEntry (p : Nat) (e : GateEntry) : s.KeepsActive (s.enterEntry p e) := by
  have port (u : State) (f : TrfPort → TrfPort) : u.KeepsActive (u.tportMod p f) := ⟨rfl, rfl⟩
  unfold State.enterEntry
  split
  · exact .refl s
  · split
    · exact (port ..).trans (bump _ (by unfold Reg.calActiveId Reg.trfMmHoldCnt; omega))
    · split
      · exact port ..
      · exact .refl s

theorem enterLists (i : Image) : s.KeepsActive (s.enterLists i) := by
  refine foldl (fun u l => ?_) _ s
  split
  · exact .refl u
  · split
    · exact enterEntry ..
    · exact .refl u

theorem pendingRegs (id t : Nat) : s.KeepsActive (s.pendingRegs id t) :=
  (rset _ _ (by decide)).trans <| (rset _ _ (by decide)).trans <| (rset _ _ (by decide)).trans <| rset _ _ (by decide)

theorem schedule (h : Nat) (i : Image) (t : Nat) : s.KeepsActive (s.schedule h i t) := by
  unfold State.schedule
  refine ((setHandle s h _).trans (setCal _ ?_)).trans (pendingRegs ..)
  rfl

end KeepsActive

end State
end Sys2Proof.Machine
end

section
/-! The sequencer (R140, R156, R159 to R163, R173): boundaries of the running image, takeovers by a pending image and by
the limp calendar, and the end of an overlap. -/

namespace Sys2Proof.Machine

namespace State

variable {s t : State} {h k : Nat} {i : Image}

/-! ### Handles and the pending image -/

theorem handle_setHandle_same (s : State) (h : Nat) (x : Handle) : (s.setHandle h x).handle h = x :=
  agetD_put_same ..

theorem handle_setHandle_other (s : State) (x : Handle) (other : k ≠ h) : (s.setHandle h x).handle k = s.handle k :=
  agetD_put_other _ _ _ _ other

theorem handle_congr (same : t.cal.handles = s.cal.handles) : t.handle k = s.handle k := by
  rw [handle, handle, same]

theorem pendingImage_congr (same : t.cal.handles = s.cal.handles) : t.pendingImage = s.pendingImage := by
  simp only [pendingImage, handleIn, handle, same]

theorem waitDom_quenched (s : State) (n t d : Nat) : (s.waitDom n t).quenched d = s.quenched d := by
  simp only [quenched, fdom, waitDom_fnc]

/-! ### The switch from one image to another (R160, R172) -/

/-- What the calendar holds after a switch: the image begins, its predecessor drains. -/
def switchedCal (s : State) (run : Running) (i : Image) (t : Nat) (old : Option Image) (overlap : Option Nat) : Cal :=
  { s.cal with
    running := run, overlapEnd := overlap, old := old, rephase := false, stop := false, nextB := t + i.hyper
    oldEnd := if s.cal.rephase && old.isSome then some s.cal.cycleEnd else none
    draining := s.cal.active, active := [], openWindows := [], gateAt := [], changeAt := some s.clk
    resumeAt := if s.cal.rephase then s.clk else s.cal.resumeAt
    stopEnd := if s.cal.stop then s.clk else s.cal.stopEnd
    wheelAt := s.clk }

variable (s) (run : Running) (i : Image) (t : Nat) (old : Option Image) (overlap : Option Nat)

/-- The image runs, and its wheels begin. -/
def switched : State :=
  (s.setCal { s.switchedCal run i t old overlap with wheelAt := s.cal.wheelAt }).wheelsBegin.rset Reg.calActiveId
    (BitVec.ofNat 32 i.id)

theorem switched_cal : (s.switched run i t old overlap).cal = s.switchedCal run i t old overlap := rfl

theorem switched_frames : (s.switched run i t old overlap).fr.frames = s.fr.frames := rfl

/-- The lists of the image begin. -/
def listsBegin : State := ((s.hostResyncAll.enterLists i).gateSeenAll).regroupAll

theorem listsBegin_only : Only 0x20B s (s.listsBegin i) :=
  .regroupAll rfl (.gateSeenAll rfl (.enterLists rfl ((Only.hostResyncAll0 s).mono rfl)))

theorem listsBegin_active : s.KeepsActive (s.listsBegin i) :=
  (((KeepsActive.of_only (Only.hostResyncAll0 s) rfl rfl).trans (.enterLists ..)).trans
    (.of_only (Only.gateSeenAll0 _) rfl rfl)).trans (.of_only (Only.regroupAll0 _) rfl rfl)

theorem switchTo_eq : s.switchTo run i t old overlap =
    ((s.wheelsNow.cbsAll.linRestart).switched run i t old overlap).listsBegin i := rfl

theorem switchTo_cal : (s.switchTo run i t old overlap).cal = s.switchedCal run i t old overlap := by
  have begun : Only 0x68B s s.wheelsNow.cbsAll.linRestart :=
    .linRestart rfl (.cbsAll rfl ((Only.wheelsNow0 s).mono rfl))
  rw [switchTo_eq, (listsBegin_only ..).cal rfl, switched_cal]
  simp only [switchedCal, begun.cal rfl, begun.clk rfl]

theorem switchTo_activeId : (s.switchTo run i t old overlap).rget Reg.calActiveId = BitVec.ofNat 32 i.id := by
  rw [switchTo_eq, (listsBegin_active ..).activeId]
  exact rget_rset_same ..

theorem wheelTo_frames (pipe c : Nat) : (s.wheelTo pipe c).2.fr.frames = s.fr.frames := by
  unfold wheelTo
  extract_lets next
  split
  · rfl
  · split
    · rfl
    · split
      extract_lets at_ hi lo begun due
      split
      next late all _ =>
      show (if late = 0 then _ else _ : State).fr.frames = _
      split
      · rfl
      · exact (congrArg Frames.frames ((Only.bumpBy0 ..).fr rfl)).trans rfl

theorem wheelsNow_frames : s.wheelsNow.fr.frames = s.fr.frames :=
  (wheelTo_frames ..).trans (wheelTo_frames ..)

theorem switchTo_frames : (s.switchTo run i t old overlap).fr.frames = s.fr.frames := by
  have begun : Only 0x600 s.wheelsNow s.wheelsNow.cbsAll.linRestart :=
    .linRestart rfl ((Only.cbsAll0 _).mono rfl)
  rw [switchTo_eq, (listsBegin_only ..).fr rfl, switched_frames, begun.fr rfl, wheelsNow_frames]

/-- The handle of the running image begins to drain. -/
def oldDrains : State :=
  match s.cal.running with
  | .image k => s.setHandle k { s.handle k with state := .draining }
  | _ => s

theorem oldDrains_only : Only 0x20 s s.oldDrains := by
  unfold oldDrains
  split
  · exact Only.setHandle0 ..
  · exact .refl _ s

theorem oldDrains_cal : ∃ l, s.oldDrains.cal = { s.cal with handles := l } := by
  unfold oldDrains
  split
  · exact ⟨_, rfl⟩
  · exact ⟨_, rfl⟩

theorem handle_oldDrains (running : s.cal.running = .image k) : (s.oldDrains.handle k).state = .draining := by
  rw [oldDrains, running]
  exact congrArg Handle.state (handle_setHandle_same ..)

/-! ### Boundaries (R140, R156, R163) -/

/-- An image in a domain that is not disabled passes the sequencer's filter. -/
theorem filter_live (live : (s.domain i.domain).state ≠ .disabled) :
    (some i).filter (fun x : Image => (s.domain x.domain).state != .disabled) = some i := by
  simp [Option.filter, live]

theorem doHypercycleBoundary_own (up : s.datapathUp = true) (runs : s.quenched Dom.calendar = false)
    (noLimp : s.cal.limpDue = 0) (unstopped : s.cal.stop = false) (running : s.runningImage = some i)
    (live : (s.domain i.domain).state ≠ .disabled) :
    s.doHypercycleBoundary = if s.cal.rephase then s.resumeBoundary i else s.passBoundary i := by
  unfold doHypercycleBoundary
  rw [if_neg (by simp [up, runs])]
  dsimp only
  rw [if_pos noLimp, unstopped, if_neg (by decide), running, filter_live s i live]

/-- The wheels begin at the boundary that ends a re-phasing; the next boundary is `next`. -/
def phaseBegins (next : Nat) : State :=
  (s.wheelsBegin.setCal { s.wheelsBegin.cal with rephase := false, resumeAt := s.wheelsBegin.clk, nextB := next }).bump
    Reg.calHypercycleCnt

theorem phaseBegins_cal (next : Nat) : (s.phaseBegins next).cal.rephase = false ∧
    (s.phaseBegins next).cal.handles = s.cal.handles ∧ (s.phaseBegins next).cal.running = s.cal.running ∧
    (s.phaseBegins next).cal.stop = s.cal.stop := by
  rw [phaseBegins, (Only.bump0 ..).cal rfl]
  exact ⟨rfl, rfl, rfl, rfl⟩

/-- A re-phased image at its first boundary. -/
def phased : State :=
  let u := s.waitUntil s.cal.cycleEnd
  let t := u.domNs i.domain + toBoundary (u.domNs i.domain) (imageBase i) i.hyper
  ((u.waitDom i.domain t).cbsAll.wheelsNow).phaseBegins (t + i.hyper)

/-- Past that boundary the image runs on, unless it stops there for a pending one. -/
def runsOn : State :=
  match s.stopsFor i with
  | some n => (s.setCal { s.cal with stop := true, stopAt := s.clk }).raise 0x3006 n.domain
  | none => ((s.setCal { s.cal with gateAt := [] }).enterLists i).gateSeenAll

theorem resumeBoundary_eq : s.resumeBoundary i = (s.phased i).runsOn i := by
  unfold resumeBoundary
  extract_lets u v w _ x
  have boundary : s.phased i = x := by
    unfold phased phaseBegins
    with_reducible rfl
  rw [boundary]
  clear_value x
  rfl

theorem phased_cal : (s.phased i).cal.rephase = false ∧ (s.phased i).cal.handles = s.cal.handles ∧
    (s.phased i).cal.running = s.cal.running ∧ (s.phased i).cal.stop = s.cal.stop := by
  unfold phased
  extract_lets u t
  have waited : Only 0x1028F s ((u.waitDom i.domain t).cbsAll.wheelsNow) :=
    .wheelsNow rfl (.cbsAll rfl (.waitDom rfl ((Only.waitUntil0 s s.cal.cycleEnd).mono rfl)))
  have begins := phaseBegins_cal ((u.waitDom i.domain t).cbsAll.wheelsNow) (t + i.hyper)
  rwa [waited.cal rfl] at begins

theorem runsOn_cal : (s.runsOn i).cal.rephase = s.cal.rephase ∧ (s.runsOn i).cal.running = s.cal.running ∧
    (s.pendingImage = none → (s.runsOn i).cal.stop = s.cal.stop) := by
  unfold runsOn
  split
  next n stops =>
    rw [(Only.raise0 ..).cal rfl]
    refine ⟨rfl, rfl, fun none => ?_⟩
    rw [stopsFor, none] at stops
    cases stops
  · rw [(Only.gateSeenAll0 ..).cal rfl, (Only.enterLists0 ..).cal rfl]
    exact ⟨rfl, rfl, fun _ => rfl⟩

theorem resumeBoundary_cal : (s.resumeBoundary i).cal.rephase = false ∧
    (s.resumeBoundary i).cal.running = s.cal.running ∧
    (s.pendingImage = none → (s.resumeBoundary i).cal.stop = s.cal.stop) := by
  obtain ⟨rephase, handles, running, stop⟩ := phased_cal s i
  obtain ⟨onRephase, onRunning, onStop⟩ := runsOn_cal (s.phased i) i
  rw [resumeBoundary_eq]
  exact ⟨onRephase.trans rephase, onRunning.trans running,
    fun none => (onStop ((pendingImage_congr handles).trans none)).trans stop⟩

/-! ### The limp calendar takes over (R172, R173) -/

/-- The frames of other images lose their guarantee. -/
def unguaranteed : State :=
  s.setFr { s.fr with frames := s.fr.frames.map fun f =>
    if f.handle.isSome && f.image ≠ i.id then { f with handle := none } else f }

theorem unguaranteed_handle {f : Frame} (hf : f ∈ (s.unguaranteed i).fr.frames) (guaranteed : f.handle ≠ none) :
    f.image = i.id := by
  obtain ⟨g, _, rfl⟩ := List.mem_map.1 hf
  split at guaranteed
  · exact absurd rfl guaranteed
  next keeps =>
    rw [if_neg keeps]
    simpa [Option.isSome_iff_ne_none, guaranteed] using keeps

/-- The counts that go on as those of the image that drains: the running image's. -/
def drainCounts : Tbl GCount :=
  match s.cal.running with
  | .image _ => s.cal.active
  | _ => []

/-- The limp image in the sequencer, with the counts of its predecessor. -/
def limpRuns (counts : Tbl GCount) : State :=
  ((s.setCal { s.cal with limpDue := 0, draining := counts, deadlines := [] }).drainGone).bump Reg.calHypercycleCnt

theorem limpTakeover_eq : s.limpTakeover i t =
    (((s.activationMissed.unguaranteed i).oldDrains.switchTo .limp i t none none).limpRuns
      (s.activationMissed.unguaranteed i).drainCounts).raise 0x3005 s.cal.limpDue := by
  unfold limpTakeover
  extract_lets cause u bound _ v
  have missed : s.activationMissed.unguaranteed i = v := rfl
  rw [missed]
  clear_value v
  unfold oldDrains drainCounts
  cases v.cal.running <;> rfl

theorem limpRuns_cal (counts : Tbl GCount) : ∃ l, (s.limpRuns counts).cal =
    { s.cal with limpDue := 0, draining := counts, deadlines := [], handles := l } :=
  ⟨_, (Only.bump0 ..).cal rfl⟩

theorem limpTakeover_cal : (s.limpTakeover i t).cal.running = .limp ∧ (s.limpTakeover i t).cal.limpDue = 0 ∧
    (s.limpTakeover i t).cal.nextB = t + i.hyper ∧ (s.limpTakeover i t).cal.deadlines = [] := by
  obtain ⟨l, cal⟩ := limpRuns_cal ((s.activationMissed.unguaranteed i).oldDrains.switchTo .limp i t none none)
    (s.activationMissed.unguaranteed i).drainCounts
  rw [limpTakeover_eq, (Only.raise0 ..).cal rfl, cal, switchTo_cal]
  exact ⟨rfl, rfl, rfl, rfl⟩

theorem limpTakeover_frames : ∀ f ∈ (s.limpTakeover i t).fr.frames, f.handle ≠ none → f.image = i.id := by
  have after (u : State) (counts : Tbl GCount) : Only 0x2B u (u.limpRuns counts) :=
    .bump rfl (.drainGone rfl (.setCal rfl (.refl _ u)))
  rw [limpTakeover_eq, (Only.raise0 ..).fr rfl, (after ..).fr rfl, switchTo_frames, (oldDrains_only _).fr rfl]
  exact fun f => unguaranteed_handle _ i

theorem limpTakeover_activeId : (s.limpTakeover i t).rget Reg.calActiveId = BitVec.ofNat 32 i.id := by
  have after (u : State) (counts : Tbl GCount) : (u.limpRuns counts).rget Reg.calActiveId = u.rget Reg.calActiveId :=
    bump_activeId _ (by decide)
  rw [limpTakeover_eq, (KeepsActive.raise ..).activeId, after, switchTo_activeId]

theorem doHypercycleBoundary_limp (up : s.datapathUp = true) (runs : s.quenched Dom.calendar = false)
    (due : s.cal.limpDue ≠ 0) (limp : s.cal.limp = some i) (live : (s.domain i.domain).state ≠ .disabled)
    (free : s.runningImage = none ∨ s.cal.stop = true ∨ s.cal.rephase = true)
    (next : t = s.domNs i.domain + toBoundary (s.domNs i.domain) (imageBase i) i.hyper) :
    s.doHypercycleBoundary = (s.waitDom i.domain t).limpTakeover i t := by
  unfold doHypercycleBoundary
  rw [if_neg (by simp [up, runs])]
  extract_lets passes boundary ready own
  have limpReady : ready = some i := by rw [← filter_live s i live, ← limp]; exact if_neg due
  have yields : own = none ∨ s.cal.rephase = true := by
    rcases free with unrun | stop | rephase
    · exact .inl (by simp [own, unrun])
    · exact .inl (by simp [own, stop])
    · exact .inr rephase
  rw [limpReady, next]
  clear_value own
  cases own with
  | none => rfl
  | some j => exact if_pos (.inr (yields.resolve_left nofun))

/-! ### A pending image takes over (R156, R159 to R162) -/

theorem pendingRegs_pendingId (id : Nat) : (s.pendingRegs id t).rget Reg.calPendingId = BitVec.ofNat 32 id := by
  unfold pendingRegs
  dsimp only
  rw [rget_rset_other _ _ (by decide), rget_rset_other _ _ (by decide), rget_rset_other _ _ (by decide),
    rget_rset_same]

/-- The handle of the image that took over, and nothing pending any more. -/
def entered (h : Nat) : State :=
  let u := s.setHandle h { state := .active, img := some i }
  ((u.setCal { u.cal with pendingT := 0, committed := false }).pendingRegs 0 0).raise 0x3001 i.id

/-- A boundary that the image before counts itself counts once. -/
def countedOnce (counted : Bool) : State := if counted then s else s.bump Reg.calHypercycleCnt

theorem countedOnce_only (counted : Bool) : Only 0xB s (s.countedOnce counted) := .ite (.refl _ s) (Only.bump0 ..)

theorem countedOnce_rget (counted : Bool) {o : Nat} (ho : eventReg o = false) (other : o ≠ Reg.calHypercycleCnt) :
    (s.countedOnce counted).rget o = s.rget o := by
  unfold countedOnce
  split
  · rfl
  · exact bump_other _ _ _ ho other

/-- The takeover at the tick of T. -/
def takenOver (h : Nat) : State :=
  ((s.oldDrains.switchTo (.image h) i t s.runningImage (s.runningImage.map fun _ => t + i.overlap)).entered i h).countedOnce
    (s.runningImage.any fun o => o.domain == i.domain && decide (t < s.cal.nextB))

/-- A joining device has ended its resynchronisation with the takeover (R512). -/
def joined : State := if s.pair.joining then s.syncDone else s

theorem doCalTakeover_eq {h : Nat} (pending : s.pendingImage = some (h, i)) (up : s.datapathUp = true)
    (live : (s.domain i.domain).state ≠ .disabled) (runs : s.quenched Dom.calendar = false)
    (memory : s.quenched Dom.memory = false) :
    s.doCalTakeover = ((s.waitDom i.domain s.cal.pendingT).takenOver i s.cal.pendingT h).joined := by
  unfold doCalTakeover
  rw [pending]
  refine (if_neg (by simp [up, live])).trans ?_
  refine (if_neg (by simp [waitDom_quenched, runs, memory])).trans ?_
  generalize s.waitDom i.domain s.cal.pendingT = u
  extract_lets old counted v w _ x y z
  have drains : u.oldDrains = v := rfl
  clear_value v
  have enters : w.entered i h = y := by
    clear_value w
    rfl
  have taken : u.takenOver i s.cal.pendingT h = z := by
    rw [takenOver, drains]
    show (w.entered i h).countedOnce counted = z
    rw [enters]
    rfl
  rw [taken]
  rfl

variable (h : Nat)

theorem pendingRegs_cal (id : Nat) : (s.pendingRegs id t).cal = s.cal := rfl

theorem entered_cal : (s.entered i h).cal =
    { (s.setHandle h { state := .active, img := some i }).cal with pendingT := 0, committed := false } := by
  rw [entered, (Only.raise0 ..).cal rfl, pendingRegs_cal, setCal_cal]

theorem entered_only : Only 0x2B s (s.entered i h) :=
  .raise rfl (.pendingRegs rfl (.setCal rfl (.setHandle rfl (.refl _ s))))

theorem entered_active : s.KeepsActive (s.entered i h) := by
  unfold entered
  refine (((KeepsActive.setHandle s h _).trans (.setCal _ ?_)).trans (.pendingRegs ..)).trans (.raise ..)
  rfl

theorem takenOver_cal : (s.takenOver i t h).cal =
    { s.oldDrains.switchedCal (.image h) i t s.runningImage (s.runningImage.map fun _ => t + i.overlap) with
      handles := (s.oldDrains.setHandle h { state := .active, img := some i }).cal.handles
      pendingT := 0, committed := false } := by
  rw [takenOver, (countedOnce_only ..).cal rfl, entered_cal, setHandle, switchTo_cal]
  rfl

theorem takenOver_only : Only 0x106AF s (s.takenOver i t h) :=
  ((Only.switchTo rfl ((oldDrains_only s).mono rfl)).step (entered_only ..) rfl).step (countedOnce_only ..) rfl

theorem takenOver_activeId : (s.takenOver i t h).rget Reg.calActiveId = BitVec.ofNat 32 i.id := by
  rw [takenOver, countedOnce_rget _ _ rfl (by decide), (entered_active ..).activeId, switchTo_activeId]

theorem takenOver_pendingId : (s.takenOver i t h).rget Reg.calPendingId = 0 := by
  rw [takenOver, countedOnce_rget _ _ rfl (by decide), entered, raise_keepsRegs _ _ _ _ rfl, pendingRegs_pendingId]
  rfl

theorem takenOver_handle (k : Nat) : (s.takenOver i t h).handle k =
    (s.oldDrains.setHandle h { state := .active, img := some i }).handle k :=
  handle_congr (by rw [takenOver_cal])

theorem takenOver_active : (s.takenOver i t h).handle h = ⟨.active, some i⟩ := by
  rw [takenOver_handle, handle_setHandle_same]

theorem takenOver_draining {k : Nat} (running : s.cal.running = .image k) (other : k ≠ h) :
    ((s.takenOver i t h).handle k).state = .draining := by
  rw [takenOver_handle, handle_setHandle_other _ _ other, handle_oldDrains s running]

/-! ### The end of a resynchronisation with the takeover (R512) -/

/-- What the partner had pending is pending here too, where its image is admitted. -/
def pendingFollows (pend : Option (Nat × Nat)) : State :=
  match pend with
  | some (h, t) =>
    (match s.handle h with
     | ⟨.admitted, some i⟩ => s.schedule h i t
     | _ => s)
  | none => s

theorem pendingFollows_only (pend : Option (Nat × Nat)) : Only 0x21 s (s.pendingFollows pend) := by
  unfold pendingFollows
  split
  · split
    · exact Only.schedule0 ..
    · exact .refl _ s
  · exact .refl _ s

theorem pendingFollows_active (pend : Option (Nat × Nat)) : s.KeepsActive (s.pendingFollows pend) := by
  unfold pendingFollows
  split
  · split
    · exact .schedule ..
    · exact .refl s
  · exact .refl s

theorem pendingFollows_cal (pend : Option (Nat × Nat)) : ∃ l p c, (s.pendingFollows pend).cal =
    { s.cal with handles := l, pendingT := p, committed := c } := by
  unfold pendingFollows
  split
  · split
    · exact ⟨_, _, _, rfl⟩
    · exact ⟨_, _, _, rfl⟩
  · exact ⟨_, _, _, rfl⟩

/-- The link after the end of a resynchronisation. -/
def linkJoined : State :=
  s.setPair { s.pair with linkState := 4, joining := false, syncActive := none, syncPending := none }

theorem syncDone_eq : s.syncDone = ((s.linkJoined.pendingFollows s.pair.syncPending).bump Reg.pairResyncCnt).raise 0xC005
    ((s.linkJoined.pendingFollows s.pair.syncPending).rget Reg.pairPartnerId).toNat := by
  unfold syncDone
  extract_lets pend _ u v
  have follows : s.linkJoined.pendingFollows s.pair.syncPending = v := rfl
  rw [follows]

theorem syncDone_cal : ∃ l p c, s.syncDone.cal = { s.cal with handles := l, pendingT := p, committed := c } := by
  rw [syncDone_eq, (Only.raise0 ..).cal rfl, (Only.bump0 ..).cal rfl]
  exact pendingFollows_cal ..

theorem syncDone_active : s.KeepsActive s.syncDone := by
  have link : s.KeepsActive s.linkJoined := .of_only (Only.setPair0 ..) rfl rfl
  rw [syncDone_eq]
  exact ((link.trans (pendingFollows_active ..)).trans (.bump _ (by decide))).trans (.raise ..)

theorem syncDone_pair : s.syncDone.pair = s.linkJoined.pair := by
  rw [syncDone_eq, (Only.raise0 ..).pair rfl, (Only.bump0 ..).pair rfl, (pendingFollows_only ..).pair rfl]

theorem joined_cal : ∃ l p c, s.joined.cal = { s.cal with handles := l, pendingT := p, committed := c } := by
  unfold joined
  split
  · exact syncDone_cal s
  · exact ⟨_, _, _, rfl⟩

theorem joined_active : s.KeepsActive s.joined := by
  unfold joined
  split
  · exact syncDone_active s
  · exact .refl s

theorem joined_alone (alone : s.pair.joining = false) : s.joined = s := if_neg (by simp [alone])

theorem joined_pair (joins : s.pair.joining = true) : s.joined.pair = s.linkJoined.pair := by
  rw [joined, if_pos joins, syncDone_pair]

theorem takenOver_joined_cal :
    (s.takenOver i t h).joined.cal.running = .image h ∧ (s.takenOver i t h).joined.cal.nextB = t + i.hyper ∧
    (s.takenOver i t h).joined.cal.old = s.runningImage ∧
    (s.takenOver i t h).joined.cal.overlapEnd = s.runningImage.map (fun _ => t + i.overlap) ∧
    (s.takenOver i t h).joined.cal.draining = s.cal.active ∧ (s.takenOver i t h).joined.cal.active = [] := by
  obtain ⟨l, p, c, joins⟩ := joined_cal (s.takenOver i t h)
  obtain ⟨handles, drains⟩ := oldDrains_cal s
  rw [joins, takenOver_cal]
  exact ⟨rfl, rfl, rfl, rfl, (congrArg Cal.active drains).trans rfl, rfl⟩

theorem takenOver_joined_activeId :
    (s.takenOver i t h).joined.rget Reg.calActiveId = BitVec.ofNat 32 i.id := by
  rw [(joined_active _).activeId, takenOver_activeId]

/-! ### The end of an overlap (R162) -/

/-- The frames of the old image that are still inside are late, and gone. -/
def overlapLeaves (old : Image) : State :=
  (s.fr.frames.filter fun f => f.image == old.id && f.handle.isSome).foldl (fun s f => s.overlapLate old f) s

theorem overlapLeaves_active (old : Image) : s.KeepsActive (s.overlapLeaves old) :=
  .foldl (fun u f => .overlapLate u old f) _ s

/-- The handle of the old image is empty. -/
def handleLeaves (old : Image) : State :=
  match (List.range 4).find? fun h => (s.handle h).state == .draining && (s.handle h).img == some old with
  | none => s
  | some h => s.setHandle h {}

theorem handleLeaves_active (old : Image) : s.KeepsActive (s.handleLeaves old) := by
  unfold handleLeaves
  split
  · exact .refl s
  · exact .setHandle ..

/-- No overlap and no old image any more. -/
def overlapOver : State :=
  s.setCal { s.cal with overlapEnd := none, old := none, oldEnd := none, draining := [] }

/-- What the end of an overlap does besides. -/
def overlapReports (old : Image) : State := (((s.hostResyncAll).gateSeenAll).raise 0x3002 old.id).gc.drainGone

theorem overlapReports_active (old : Image) : s.KeepsActive (s.overlapReports old) :=
  ((((KeepsActive.of_only (Only.hostResyncAll0 s) rfl rfl).trans (.of_only (Only.gateSeenAll0 _) rfl rfl)).trans
    (.raise ..)).trans (.gc _)).trans (.drainGone _)

theorem overlapOver_active : s.KeepsActive s.overlapOver := .setCal s rfl

theorem gc_cal : ∃ l, s.gc.cal = { s.cal with handles := l } := by
  have freed : s.freeEnded.freeCells.cal = s.cal := ((Only.freeCells0 _).cal rfl).trans ((Only.freeEnded0 s).cal rfl)
  unfold gc
  extract_lets t dead gone
  split
  · exact ⟨_, freed⟩
  · exact ⟨_, by rw [drainGone, setCal_cal, (Only.owedGone0 ..).cal rfl, setFr_cal, freed]⟩

theorem overlapReports_cal (old : Image) : ∃ l, (s.overlapReports old).cal = { s.cal with handles := l } := by
  have begun : (((s.hostResyncAll).gateSeenAll).raise 0x3002 old.id).cal = s.cal :=
    ((Only.raise0 ..).cal rfl).trans (((Only.gateSeenAll0 _).cal rfl).trans ((Only.hostResyncAll0 s).cal rfl))
  obtain ⟨l, cal⟩ := gc_cal (((s.hostResyncAll).gateSeenAll).raise 0x3002 old.id)
  rw [overlapReports, drainGone, setCal_cal, cal, begun]
  exact ⟨_, rfl⟩

theorem doOverlapEnd_eq {t : Nat} {old : Image} (ends : s.cal.overlapEnd = some t) (running : s.runningImage = some i)
    (drains : s.cal.old = some old) (live : (s.domain i.domain).state ≠ .disabled) :
    s.doOverlapEnd =
      (((((s.waitDom i.domain t).cbsAll).overlapLeaves old).handleLeaves old).overlapOver).overlapReports old := by
  unfold doOverlapEnd
  rw [ends, running, drains]
  refine (if_neg live).trans ?_
  generalize (s.waitDom i.domain t).cbsAll = begun
  extract_lets u v w _ x
  have leaves : begun.overlapLeaves old = v := rfl
  rw [leaves]
  clear_value v
  have empties : v.handleLeaves old = w := rfl
  rw [empties]
  rfl

/-! ### A boundary passes (R140, R156) -/

/-- A running image stops at its boundary for a pending one of another domain. -/
def stopsAt : State :=
  match s.stopsFor i with
  | none => s
  | some n => (s.setCal { s.cal with stop := true, stopAt := s.clk }).raise 0x3006 n.domain

/-- The next boundary is one hypercycle on, and counted. -/
def passes (next : Nat) : State := (s.setCal { s.cal with nextB := next }).bump Reg.calHypercycleCnt

theorem passBoundary_eq : s.passBoundary i =
    (((s.waitDom i.domain s.cal.nextB).wheelsNow).passes (s.cal.nextB + i.hyper)).stopsAt i := by
  have cal : (s.waitDom i.domain s.cal.nextB).wheelsNow.cal = s.cal :=
    ((Only.wheelsNow0 _).cal rfl).trans (waitDom_cal ..)
  unfold passBoundary
  generalize (s.waitDom i.domain s.cal.nextB).wheelsNow = v at cal ⊢
  extract_lets w _ u
  have passed : v.passes (s.cal.nextB + i.hyper) = u := by
    rw [← cal]
    rfl
  rw [passed]
  clear_value u
  rfl

end State

open State

/-- Settles O28, from the equation of each row: where the sequencer goes next, and what a switch leaves. -/
theorem calendarRuns : Obligations.CalendarRuns := by
  intro s
  refine ⟨?passes, ?resumes, ?limp, ?commits, ?takes, ?ends⟩
  case passes =>
    rintro i v u up runs noLimp unstopped phased running live hv rfl
    show Host.Outcome.next s.doHypercycleBoundary = _
    rw [doHypercycleBoundary_own s i up runs noLimp unstopped running live, phased, if_neg (by decide),
      passBoundary_eq, ← hv]
    rfl
  case resumes =>
    intro i up runs noLimp unstopped rephase running live
    obtain ⟨onRephase, onRunning, onStop⟩ := resumeBoundary_cal s i
    refine ⟨s.resumeBoundary i, ?_, onRephase, onRunning, fun none => (onStop none).trans unstopped⟩
    show Host.Outcome.next s.doHypercycleBoundary = _
    rw [doHypercycleBoundary_own s i up runs noLimp unstopped running live, rephase, if_pos rfl]
  case limp =>
    intro l next up runs due limp live free hnext
    obtain ⟨running, done, boundary, deadlines⟩ := limpTakeover_cal (s.waitDom l.domain next) l next
    refine ⟨(s.waitDom l.domain next).limpTakeover l next, ?_, running, done, boundary, deadlines,
      limpTakeover_frames _ l next, limpTakeover_activeId ..⟩
    exact congrArg Host.Outcome.next (doHypercycleBoundary_limp s l next up runs due limp live free hnext)
  case commits =>
    intro h i pending live memory
    show Host.Outcome.next s.doActivationCommit = _
    rw [doActivationCommit, pending]
    dsimp only
    rw [if_neg (by simp [live, memory]), waitDom_cal]
  case takes =>
    intro h i pending live up runs memory
    have waited := Only.waitDom0 s i.domain s.cal.pendingT
    have cal : (s.waitDom i.domain s.cal.pendingT).cal = s.cal := waited.cal rfl
    have before : (s.waitDom i.domain s.cal.pendingT).runningImage = s.runningImage := by
      simp only [runningImage, handle, cal]
    have takes := takenOver_only (s.waitDom i.domain s.cal.pendingT) i s.cal.pendingT h
    have pair := (takes.pair rfl).trans (waited.pair rfl)
    have active := takenOver_active (s.waitDom i.domain s.cal.pendingT) i s.cal.pendingT h
    have switched := takenOver_cal (s.waitDom i.domain s.cal.pendingT) i s.cal.pendingT h
    have pendingId := takenOver_pendingId (s.waitDom i.domain s.cal.pendingT) i s.cal.pendingT h
    have drains (k : Nat) := takenOver_draining (s.waitDom i.domain s.cal.pendingT) i s.cal.pendingT h (k := k)
    obtain ⟨running, nextB, old, overlapEnd, draining, counts⟩ :=
      takenOver_joined_cal (s.waitDom i.domain s.cal.pendingT) i s.cal.pendingT h
    rw [before] at old overlapEnd
    rw [cal] at draining drains
    refine ⟨_, congrArg Host.Outcome.next (doCalTakeover_eq s i pending up live runs memory), running, nextB, old,
      overlapEnd, draining, counts, takenOver_joined_activeId .., fun alone => ?_, fun joins => ?_⟩
    · rw [joined_alone _ (pair ▸ alone)]
      exact ⟨active, drains, congrArg Cal.pendingT switched, congrArg Cal.committed switched, pendingId,
        (waited.mono rfl).trans takes⟩
    · rw [joined_pair _ (pair ▸ joins)]
      exact ⟨rfl, rfl⟩
  case ends =>
    intro t i old ends running drains live
    let v := (((s.waitDom i.domain t).cbsAll.overlapLeaves old).handleLeaves old)
    have leaves : s.KeepsActive v := (((KeepsActive.of_only (Only.waitDom0 ..) rfl rfl).trans
      (.of_only (Only.cbsAll0 _) rfl rfl)).trans (overlapLeaves_active ..)).trans (handleLeaves_active ..)
    have stands : s.KeepsActive (v.overlapOver.overlapReports old) :=
      (leaves.trans (overlapOver_active v)).trans (overlapReports_active ..)
    obtain ⟨l, cal⟩ := overlapReports_cal v.overlapOver old
    exact ⟨_, congrArg Host.Outcome.next (doOverlapEnd_eq s i ends running drains live), congrArg Cal.overlapEnd cal,
      congrArg Cal.old cal, congrArg Cal.draining cal, stands.running, stands.activeId⟩

end Sys2Proof.Machine
end

section
/-! An abort while the running image stands stopped for the pending one (R156, R157): the wheels begin anew, so more
changes than the registers and the calendar. -/

namespace Sys2Proof.Machine

namespace State

variable {s : State} {host q partner : Nat} {c : Cmd} {i : Image}

theorem exec_calAbort (ready : s.Ready host q 0x0203 c) (single : s.pair.role = .single)
    (memory : s.quenched Dom.memory = false) (calendar : s.quenched Dom.calendar = false) (alone : s.calBeside c = false)
    (known : c.u 0 1 ≤ 3) (pending : s.handle (c.u 0 1) = ⟨.pending, some i⟩) (open_ : s.cal.committed = false)
    (early : s.domNs i.domain + 1000000 < s.cal.pendingT) : exec (.calAbort host q partner) s =
      .next (((s.setHandle (c.u 0 1) { state := .admitted, img := some i }).pendingDrop).finishCmd c.index 0 i.id []) := by
  have own : calAbortOwn c s =
      .done ((s.setHandle (c.u 0 1) { state := .admitted, img := some i }).pendingDrop) St.ok i.id [] := by
    rw [calAbortOwn, need_ok (by simp [memory, calendar]), decide_eq_true known, check_true, pending]
    dsimp only
    rw [open_, decide_eq_true early]
    rfl
  have whole : calAbort partner c s = calAbortOwn c s := by
    rw [calAbort, Exec.both, if_pos single, Exec.idle, alone, if_neg (by decide)]
  exact congrArg Host.Outcome.next (runCmd_done ready (whole.trans own))

/-- An image that had stopped begins its wheels at the present tick. -/
theorem pendingDrop_issued (stopped : s.cal.stop = true) : s.pendingDrop.fr.issued = [(0, s.clk), (1, s.clk)] := by
  unfold pendingDrop
  rw [stopped]
  rfl

end State

/-! ### The counterexample -/

/-- An image without sections in a domain, with a hypercycle of 5 ms. -/
def bareImage (id pred domain : Nat) : Image :=
  { id := id, pred := pred, hyper := 5000000, baseSec := 0, baseNs := 0, overlap := 0, domain := domain, flags := 0
    signer := 0, macsecNs := 100, cipherNs := 0, size := 0, wheel0 := [], wheel1 := [], gates := [], slots := []
    jobs := [], windows := [], reserve := [], weights := [], guarantees := [], bytes := [] }

/-- A `CAL_ABORT` of handle 1. -/
def abortCmd : Cmd :=
  { index := 0, host := 0, queue := 0, slot := 0, seq := 1, opcode := 0x0203, flags := 0, tag := 0, hostTime := 0
    expectEpoch := 0, session := 0, body := leBytes 8 1, acceptTime := 5000000000, phase := .accepted }

/-- At 5 s the image of handle 0 stands stopped, since its boundary 1 ms before, for that of handle 1 in another
domain, whose T lies 2 ms ahead. -/
def stoppedCalendar : State :=
  { State.reset with
    clk := 5000000000
    pwr := { state := .run, fwReady := true, booted := true }
    dom := [(0, { state := .locked, value := 5000000000 * 2 ^ 32 }), (1, { state := .locked, value := 5000000000 * 2 ^ 32 })]
    mbx := { cmds := [abortCmd] }
    fr := { issued := [(0, 4999000000), (1, 4999000000)] }
    cal := {
      handles := [(0, ⟨.active, some (bareImage 7 0 0)⟩), (1, ⟨.pending, some (bareImage 8 7 1)⟩)]
      running := .image 0, nextB := 5004000000, pendingT := 5002000000, stop := true, stopAt := 4999000000 } }

theorem stoppedCalendar_ready : stoppedCalendar.Ready 0 0 0x0203 abortCmd where
  head := by decide
  opcode := rfl
  begins := by decide
  epoch := by decide
  flash := by decide

open State

/-- Refutes O27: `CAL_ABORT` while the running image stands stopped for the pending one begins the slot wheels of the
running image anew, at the present tick, and they are neither registers nor the calendar. -/
theorem not_calendarCommands : ¬ Obligations.CalendarCommands := by
  intro ⟨commands, _⟩
  have single : stoppedCalendar.pair.role = .single := by decide
  have memory : stoppedCalendar.quenched Dom.memory = false := by decide
  have calendar : stoppedCalendar.quenched Dom.calendar = false := by decide
  have alone : stoppedCalendar.calBeside abortCmd = false := by decide
  have pending : stoppedCalendar.handle 1 = ⟨.pending, some (bareImage 8 7 1)⟩ := by decide
  have early : stoppedCalendar.domNs 1 + 1000000 < stoppedCalendar.cal.pendingT := by decide
  obtain ⟨-, -, -, -, abort⟩ := (commands stoppedCalendar 0 0 0 1 abortCmd single memory rfl (by decide)).2 alone
  obtain ⟨u, run, -, -, -, -, only⟩ := (abort _ stoppedCalendar_ready calendar pending).1 rfl early
  have ran := exec_calAbort (partner := 0) stoppedCalendar_ready single memory calendar alone (by decide) pending rfl early
  have same := congrArg State.fr (Host.Outcome.next.inj (run.symm.trans ran))
  rw [(Only.finishCmd0 ..).fr rfl, (Only.finishCmd0 ..).fr rfl, only.fr rfl] at same
  have begun := (congrArg Frames.issued same).trans (pendingDrop_issued rfl)
  exact absurd begun (by decide)

end Sys2Proof.Machine
end

section
/-! Entries of the exact-match table that move (R190, R191): a moved entry holds what it held, and neither the prefixes
nor the forwarding epoch changes. -/

namespace Sys2Proof.Machine

/-- What an exact-match entry holds, wherever it stands. -/
def EmEntry.unplaced (x : EmEntry) : EmEntry := { x with place := .overflow 0 }

theorem EmEntry.fields_of_unplaced {x y : EmEntry} (h : x.unplaced = y.unplaced) :
    x.key = y.key ∧ x.data = y.data ∧ x.range = y.range ∧ x.hit = y.hit ∧ x.age = y.age := by
  obtain ⟨-, key, data, range, hit, age, -⟩ := EmEntry.mk.inj h
  exact ⟨key, data, range, hit, age⟩

namespace State

variable {s t u : State} {gone : EmEntry → Bool} {x y : EmEntry}

/-! ### The forwarding epoch -/

theorem epoch_of_only {m : Nat} (h : Only m s t) (hr : m.testBit 0 = false) : t.epoch = s.epoch := by
  rw [epoch, epoch, rfld, rfld, rget_of_only h hr]

theorem bump_epoch (s : State) {o : Nat} (ho : o ≠ Reg.fwdEpoch) : (s.bump o).epoch = s.epoch := by
  rw [epoch, epoch, rfld, rfld, bump_other s o _ rfl ho.symm]

theorem invalidateOld_epoch (s : State) : s.invalidateOld.epoch = s.epoch := epoch_of_only (Only.invalidateOld0 s) rfl

/-! ### Moves -/

/-- Entries have moved at most: the table holds the same, entry by entry, and prefixes and epoch stand. -/
structure Moves (s t : State) : Prop where
  em : t.fwd.em.map EmEntry.unplaced = s.fwd.em.map EmEntry.unplaced
  lpm : t.fwd.lpm = s.fwd.lpm
  epoch : t.epoch = s.epoch

namespace Moves

theorem refl (s : State) : s.Moves s := ⟨rfl, rfl, rfl⟩

theorem trans (h : s.Moves t) (k : t.Moves u) : s.Moves u :=
  ⟨k.em.trans h.em, k.lpm.trans h.lpm, k.epoch.trans h.epoch⟩

theorem moveEntry (s : State) (src dst : EmPlace) : s.Moves (s.moveEntry src dst) := by
  have same (x : EmEntry) : (if x.place == src then { x with place := dst } else x).unplaced = x.unplaced := by
    split <;> rfl
  unfold State.moveEntry
  extract_lets f
  refine ⟨?_, ?_, bump_epoch _ (by decide)⟩
  · rw [(Only.bump0 ..).fwd rfl, setFwd_fwd, List.map_map]
    exact List.map_congr_left fun x _ => same x
  · rw [(Only.bump0 ..).fwd rfl]
    rfl

theorem pullBack (n : Nat) (s : State) : s.Moves (pullBack n s) := by
  induction n generalizing s with
  | zero => exact refl s
  | succ n ih =>
    unfold State.pullBack
    dsimp only
    split
    · exact refl s
    · exact (moveEntry ..).trans (ih _)

theorem emFreed (s : State) : s.Moves s.emFreed := pullBack ..

end Moves

/-! ### Entries that are removed -/

/-- Overflow entries that move into what a removal frees change nothing that the table holds. -/
theorem emRemove_em (s : State) (gone : EmEntry → Bool) :
    (s.emRemove gone).fwd.em.map EmEntry.unplaced = (s.fwd.em.filter fun x => !gone x).map EmEntry.unplaced := by
  unfold emRemove
  extract_lets keep f t
  split
  · rfl
  · exact (Moves.emFreed t).em

theorem emRemove_lpm (s : State) (gone : EmEntry → Bool) : (s.emRemove gone).fwd.lpm = s.fwd.lpm := by
  unfold emRemove
  extract_lets keep f t
  split
  · rfl
  · exact (Moves.emFreed t).lpm

/-- What is not removed stays, though another place may hold it. -/
theorem emRemove_keeps (hx : x ∈ s.fwd.em) (stays : gone x = false) :
    ∃ y ∈ (s.emRemove gone).fwd.em, y.unplaced = x.unplaced := by
  have kept : x ∈ s.fwd.em.filter fun x => !gone x := List.mem_filter.2 ⟨hx, by simp [stays]⟩
  exact List.mem_map.1 (emRemove_em s gone ▸ List.mem_map_of_mem kept)

/-- What stands afterwards stood before, and was not to be removed. -/
theorem mem_of_emRemove (hy : y ∈ (s.emRemove gone).fwd.em) :
    ∃ x ∈ s.fwd.em, gone x = false ∧ x.unplaced = y.unplaced := by
  have stood := List.mem_map_of_mem (f := EmEntry.unplaced) hy
  rw [emRemove_em] at stood
  obtain ⟨x, kept, same⟩ := List.mem_map.1 stood
  obtain ⟨hx, stays⟩ := List.mem_filter.1 kept
  exact ⟨x, hx, by simpa using stays, same⟩

end State
end Sys2Proof.Machine
end

section
/-! Forwarding transactions (R206 to R208, R214, R215): how an operation is staged, and what a commit leaves of the
epoch that has begun. -/

namespace Sys2Proof.Machine

namespace State

variable {s t : State} {host q o id : Nat} {c : Cmd} {f : Cmd → State → Exec} {op : TxnOp}

/-! ### Staging (R207) -/

/-- An operation is staged at the end, or the first check that fails gives the status. -/
theorem runCmd_stage {bad : Nat} (ready : s.Ready host q o c) (h : f c s = s.stage bad op) :
    s.runCmd host q o f = if s.fwd.txn = none then s.failCmd c.index 0x0301
      else if 4096 ≤ s.fwd.staged.length then s.failCmd c.index 0x0303
      else if bad ≠ 0 then s.failCmd c.index bad
      else (s.setFwd { s.fwd with staged := s.fwd.staged ++ [op] }).finishCmd c.index 0 s.fwd.staged.length [] := by
  unfold stage at h
  split
  next closed =>
    rw [closed] at h
    exact runCmd_fail ready h
  next open_ =>
    rw [Option.isSome_iff_ne_none.2 open_, check_true] at h
    split
    next full =>
      rw [decide_eq_false (Nat.not_lt.2 full), check_false] at h
      exact runCmd_fail ready h
    next room =>
      rw [decide_eq_true (Nat.not_le.1 room), check_true] at h
      split
      next illegal =>
        rw [beq_false_of_ne illegal, check_false] at h
        exact runCmd_fail ready h
      next legal =>
        rw [beq_iff_eq.2 (not_not.1 legal), check_true] at h
        exact runCmd_done ready h

/-- An operation that is never staged may be any. -/
theorem stage_illegal {bad : Nat} (illegal : bad ≠ 0) (op op' : TxnOp) : s.stage bad op = s.stage bad op' := by
  have refused : (bad == St.ok) = false := beq_false_of_ne illegal
  simp [stage, refused]

/-- The status of the first illegal field of an entry to add. -/
theorem fwdEntryAdd_eq (c : Cmd) (s : State) : fwdEntryAdd c s =
    s.stage (if c.u 0 1 = 0 ∧ c.u 4 4 = 0 then emFields (c.bytes 8 40) (c.bytes 48 16)
      else if c.u 0 1 = 1 ∧ c.u 4 4 ≤ 4095 ∧ leNat (c.bytes 8 40) = 0 ∧ le (c.bytes 48 16) 13 1 ≤ 31 then 0
      else if c.u 0 1 = 2 ∧ c.u 4 4 ≤ 8191 ∧ leNat (c.bytes 8 40) = 0 ∧ le (c.bytes 48 16) 9 1 ≤ 31 then 0
      else if c.u 0 1 = 3 ∧ c.u 4 4 ≤ 67 ∧ leNat (c.bytes 8 40) = 0 then 0 else 10)
      (.add (c.u 0 1) (bit (c.u 1 1) 0) (c.u 4 4) (c.bytes 8 40) (c.bytes 48 16)) := by
  unfold fwdEntryAdd
  dsimp only
  congr 1
  generalize c.u 0 1 = table
  match table with
  | 0 => grind
  | 1 => grind
  | 2 => grind
  | 3 => grind
  | n + 4 => simp

/-- The status of the first illegal field of an entry to delete, by its table (R214, R215). -/
theorem fwdEntryDel_em (h : c.u 0 1 = 0) : fwdEntryDel c s =
    s.stage (if keyValid (c.bytes 8 40) then 0 else 0x030A) (.del 0 0 (c.bytes 8 40)) := by
  simp only [fwdEntryDel, h]

theorem fwdEntryDel_list (h : c.u 0 1 = 2) : fwdEntryDel c s =
    s.stage (if c.u 4 4 ≤ 8191 then 0 else 10) (.del 2 (c.u 4 4) (c.bytes 8 40)) := by
  simp only [fwdEntryDel, h]
  congr 1
  grind

theorem fwdEntryDel_lpm (h : c.u 0 1 = 4) : fwdEntryDel c s =
    s.stage (if prefixValid (c.u 9 1) (c.u 10 1) (c.bytes 12 16) then 0 else 10)
      (.lpmDel (c.u 8 1) (c.u 9 1) (c.u 10 1) (prefixAddr (c.u 9 1) (c.bytes 12 16))) := by
  simp only [fwdEntryDel, h]

theorem fwdEntryDel_other (h0 : c.u 0 1 ≠ 0) (h2 : c.u 0 1 ≠ 2) (h4 : c.u 0 1 ≠ 4) :
    fwdEntryDel c s = s.stage 10 (.del 0 0 (c.bytes 8 40)) := by
  unfold fwdEntryDel
  split
  · contradiction
  · contradiction
  · contradiction
  · rfl

/-! ### The epoch of a commit (R206) -/

theorem rfld_rsetF_low (s : State) (o x : Nat) : (s.rsetF o 0 16 x).rfld o 0 16 = x % 65536 := by
  have word := (s.rget o).isLt
  simp only [rfld, rsetF, rget_rset_same, BitVec.toNat_ofNat, setBits, bits]
  omega

theorem advanceEpoch_epoch (s : State) : s.advanceEpoch.epoch = (s.epoch + 1) % 65536 := by
  unfold advanceEpoch
  extract_lets cur t old live f settle u
  refine (Moves.emFreed _).epoch.trans ?_
  show t.epoch = _
  rw [epoch, rfld_rsetF_low, Nat.mod_mod]

theorem applyPath_epoch (s : State) (p : List (Nat × Nat)) (dst : EmPlace) : (s.applyPath p dst).epoch = s.epoch := by
  induction p generalizing dst with
  | nil => rfl
  | cons a r ih =>
    unfold applyPath
    split
    · exact (invalidateOld_epoch _).trans (Moves.moveEntry ..).epoch
    · exact ((invalidateOld_epoch _).trans (Moves.moveEntry ..).epoch).trans (ih _)

theorem emInsert_epoch {key data : List Byte} {range : Option (Nat × Option Nat)}
    (h : s.emInsert key data range = some t) : t.epoch = s.epoch := by
  obtain ⟨⟨u, p⟩, place, rfl⟩ := Option.map_eq_some_iff.1 h
  show u.epoch = s.epoch
  unfold emPlaceFor at place
  dsimp only at place
  split at place
  · cases place
    rfl
  · split at place
    · cases place
      rfl
    · split at place
      · cases place
        exact applyPath_epoch ..
      · obtain ⟨i, -, same⟩ := Option.map_eq_some_iff.1 place
        cases same
        rfl

theorem lpmInsert_epoch (s : State) (x : LpmEntry) : (s.lpmInsert x).epoch = s.epoch := by
  have counted (l : List Nat) (u : State) : (l.foldl (fun s _ => s.bump Reg.fwdRelocateCnt) u).epoch = u.epoch := by
    induction l generalizing u with
    | nil => rfl
    | cons _ r ih => exact (ih _).trans (bump_epoch u (by decide))
  unfold lpmInsert
  exact counted ..

theorem applyOp_epoch (s : State) (op : TxnOp) : (s.applyOp op).2.epoch = s.epoch := by
  fun_cases applyOp s op
  -- an entry is inserted, an entry is deleted, a prefix is inserted
  case case6 t inserted =>
    have stands := emInsert_epoch inserted
    exact (Moves.emFreed t).epoch.trans stands
  case case12 => exact (Moves.emFreed _).epoch
  case case21 => exact lpmInsert_epoch ..
  -- every other operation leaves the registers, or fails
  all_goals rfl

/-- Operations apply at the epoch that has begun. -/
theorem applyOps_epoch {i : Nat} {l : List TxnOp} (h : s.applyOps i l = .inr t) : t.epoch = s.epoch := by
  induction l generalizing s i with
  | nil =>
    cases h
    rfl
  | cons op r ih =>
    unfold applyOps at h
    split at h
    next u applied => exact (ih h).trans (by rw [← applyOp_epoch s op, applied])
    next => cases h

/-! ### Commits (R206, R208) -/

theorem fwdTxnCommit_closed (closed : s.fwd.txn = none) : fwdTxnCommit c s = Exec.fail s 0x0301 := by
  rw [fwdTxnCommit, closed]

theorem fwdTxnCommit_other (open_ : s.fwd.txn = some id) (other : id ≠ c.u 0 4) :
    fwdTxnCommit c s = Exec.fail s 0x0304 := by
  simp only [fwdTxnCommit, open_, beq_false_of_ne other, check_false]

/-- The tables of a commit are in force, and its transaction is closed. -/
def txnClosed (t : State) : State := t.setFwd { t.fwd with txn := none, staged := [] }

/-- How the staged operations end once the epoch has advanced. -/
def commitStaged (s : State) : Exec :=
  match s.advanceEpoch.applyOps 0 s.fwd.staged with
  | .inl (st, i) => .done s st i []
  | .inr t => .done t.txnClosed St.ok (t.epoch + 65536 * s.fwd.staged.length) []

theorem fwdTxnCommit_named (open_ : s.fwd.txn = some id) (named : id = c.u 0 4) (up : s.datapathUp = true)
    (pipe0 : s.quenched Dom.pipe0 = false) (pipe1 : s.quenched Dom.pipe1 = false) :
    fwdTxnCommit c s = Exec.check (!s.epochLimit) s 0x0308 s.commitStaged := by
  have same : (id == c.u 0 4) = true := beq_iff_eq.2 named
  simp only [fwdTxnCommit, open_, same, check_true]
  rw [datapath_ok up, need_ok (by simp [pipe0, pipe1])]
  rfl

end State

open State

/-- Settles O30, from the equation of each row: the checks of a commit come before its operations, and these apply at
the epoch that has begun. -/
theorem forwardingTransactions : Obligations.ForwardingTransactions := by
  intro s host q c
  refine ⟨?begins, ?isOpen, ?stages, ?closed, ?other, ?commits⟩
  case begins =>
    intro ready free
    refine congrArg Host.Outcome.next (runCmd_done ready ?_)
    rw [fwdTxnBegin, if_neg (by grind)]
  case isOpen =>
    intro ready open_ unforced
    refine congrArg Host.Outcome.next (runCmd_fail ready ?_)
    rw [fwdTxnBegin, if_pos ⟨Option.isSome_iff_ne_none.2 open_, by simp [unforced]⟩]
  case stages =>
    rintro i op bad ready (⟨rfl, rfl, rfl⟩ | ⟨rfl, table, rfl, rfl⟩ | ⟨rfl, table, rfl, rfl⟩ | ⟨rfl, table, rfl, rfl⟩ |
      ⟨rfl, h0, h2, h4, rfl⟩ | ⟨rfl, rfl, rfl⟩)
    · exact congrArg Host.Outcome.next (runCmd_stage ready (fwdEntryAdd_eq c s))
    · exact congrArg Host.Outcome.next (runCmd_stage ready (fwdEntryDel_em table))
    · exact congrArg Host.Outcome.next (runCmd_stage ready (fwdEntryDel_list table))
    · exact congrArg Host.Outcome.next (runCmd_stage ready (fwdEntryDel_lpm table))
    · exact congrArg Host.Outcome.next (runCmd_stage ready
        ((fwdEntryDel_other h0 h2 h4).trans (stage_illegal (by decide) _ op)))
    · exact congrArg Host.Outcome.next (runCmd_stage ready rfl)
  case closed =>
    intro ready closed
    exact congrArg Host.Outcome.next (runCmd_fail ready (fwdTxnCommit_closed closed))
  case other =>
    intro id ready open_ other
    exact congrArg Host.Outcome.next (runCmd_fail ready (fwdTxnCommit_other open_ other))
  case commits =>
    intro id ready open_ named up pipe0 pipe1
    have checked := fwdTxnCommit_named (c := c) open_ named up pipe0 pipe1
    refine ⟨fun limit => ?_, fun st k below failed => ?_, fun t below applied => ?_⟩
    · rw [limit, Bool.not_true, check_false] at checked
      exact congrArg Host.Outcome.next (runCmd_fail ready checked)
    · rw [below, Bool.not_false, check_true, commitStaged, failed] at checked
      exact congrArg Host.Outcome.next (runCmd_done ready checked)
    · rw [below, Bool.not_false, check_true, commitStaged, applied] at checked
      have begun : t.txnClosed.epoch = (s.epoch + 1) % 65536 := (applyOps_epoch applied).trans (advanceEpoch_epoch s)
      exact ⟨t.txnClosed, congrArg Host.Outcome.next (runCmd_done ready checked), begun, rfl, rfl, rfl, rfl, rfl, rfl, rfl⟩

end Sys2Proof.Machine
end

section
/-! Epochs that drain (R205, R209), and what flushing and the configuration of ageing change (R202, R214). -/

namespace Sys2Proof.Machine

namespace State

variable {s : State} {host q d : Nat} {c : Cmd} {x y : EmEntry} {z : LpmEntry}

/-! ### Waiting for an epoch (R209) -/

theorem boundBefore_waitUntil (s : State) (t e : Nat) : (s.waitUntil t).boundBefore e = s.boundBefore e := by
  rw [boundBefore, boundBefore, waitUntil_fr, epoch_of_only (Only.waitUntil0 s t) rfl]

theorem exec_epochDrainComplete (h : s.runningCmd host q 0x0304 = some c) : exec (.epochDrainComplete host q) s =
    .next (if s.boundBefore (c.u 0 2) = 0 then s.finishCmd c.index 0 0 [] else s) := by
  show Host.Outcome.next (s.doEpochDrainComplete host q) = _
  rw [doEpochDrainComplete, h]

theorem exec_epochDrainTimeout (h : s.runningCmd host q 0x0304 = some c) : exec (.epochDrainTimeout host q) s =
    .next (if s.boundBefore (c.u 0 2) = 0 then (s.waitUntil c.deadline).finishCmd c.index 0 0 []
      else (s.waitUntil c.deadline).finishCmd c.index 0x0309 (s.boundBefore (c.u 0 2)) []) := by
  show Host.Outcome.next (s.doEpochDrainTimeout host q) = _
  rw [doEpochDrainTimeout, h]
  dsimp only
  rw [boundBefore_waitUntil]

/-! ### Storage that is given back (R205) -/

/-- Whether content stays at a reclaim: it is not deleted, or a bound frame reads it. -/
def stillRead (s : State) : Option Nat → Bool
  | none => true
  | some d => s.fr.frames.any fun f => f.decided && epochAge s.epoch d < epochAge s.epoch f.epoch

theorem stillRead_some : s.stillRead (some d) = true ↔
    ∃ f ∈ s.fr.frames, f.decided = true ∧ epochAge s.epoch d < epochAge s.epoch f.epoch := by
  simp [stillRead, List.any_eq_true]

/-- An exact-match entry that a reclaim removes. -/
def reclaims (s : State) (x : EmEntry) : Bool :=
  match x.range with
  | none => false
  | some (_, d) => !s.stillRead d

theorem reclaims_deleted {a : Nat} (h : x.range = some (a, some d)) : s.reclaims x = !s.stillRead (some d) := by
  rw [reclaims, h]

theorem reclaims_undeleted (h : ∀ a d, x.range ≠ some (a, some d)) : s.reclaims x = false := by
  unfold reclaims
  split
  next => rfl
  next a d range =>
    cases d with
    | none => rfl
    | some d => exact absurd range (h a d)

/-- The tables that a reclaim leaves before the exact-match entries go. -/
theorem reclaim_eq (s : State) : ∃ u : State, s.reclaim = u.emRemove s.reclaims ∧ u.fwd.em = s.fwd.em ∧
    u.fwd.lpm = s.fwd.lpm.filter fun x => s.stillRead x.deleted :=
  ⟨_, rfl, rfl, rfl⟩

theorem reclaim_only (s : State) : Only (Group.regs ||| Group.mem ||| Group.hif ||| Group.fwd ||| Group.sec) s s.reclaim :=
  (Only.reclaim0 s).mono rfl

theorem exec_epochStorageReclaim (up : s.datapathUp = true) : exec .epochStorageReclaim s = .next s.reclaim := by
  show Host.Outcome.next s.doEpochStorageReclaim = _
  rw [doEpochStorageReclaim, if_pos up]

theorem mem_reclaim_lpm : z ∈ s.reclaim.fwd.lpm ↔ z ∈ s.fwd.lpm ∧ s.stillRead z.deleted = true := by
  obtain ⟨u, same, -, lpm⟩ := reclaim_eq s
  rw [same, emRemove_lpm, lpm, List.mem_filter]

theorem reclaim_keeps (hx : x ∈ s.fwd.em) (undeleted : ∀ a d, x.range ≠ some (a, some d)) :
    ∃ y ∈ s.reclaim.fwd.em, y.unplaced = x.unplaced := by
  obtain ⟨u, same, em, -⟩ := reclaim_eq s
  rw [same]
  exact emRemove_keeps (em ▸ hx) (reclaims_undeleted undeleted)

/-- A deleted entry that stands after a reclaim is still read. -/
theorem stillRead_of_mem_reclaim {a : Nat} (hy : y ∈ s.reclaim.fwd.em) (deleted : y.range = some (a, some d)) :
    s.stillRead (some d) = true := by
  obtain ⟨u, same, -, -⟩ := reclaim_eq s
  rw [same] at hy
  obtain ⟨x, -, stays, held⟩ := mem_of_emRemove hy
  obtain ⟨-, -, range, -, -⟩ := EmEntry.fields_of_unplaced held
  rwa [reclaims_deleted (range.trans deleted), Bool.not_eq_false'] at stays

/-! ### Flushing and ageing (R202, R214) -/

theorem fwdFlushPort_done {gone : EmEntry → Bool} (port : c.u 0 1 ≤ 67 ∨ c.u 0 1 = 0xFF) (up : s.datapathUp = true)
    (pipe0 : s.quenched Dom.pipe0 = false) (pipe1 : s.quenched Dom.pipe1 = false)
    (picks : gone = fun x => x.range.isNone && (if isConn x.key then bit (c.u 1 1) 1
      else (c.u 0 1 == 0xFF || le x.data 1 1 == c.u 0 1) && (!bit (c.u 1 1) 0 || le x.key 2 2 == c.u 2 2 % 4096))) :
    fwdFlushPort c s = .done (s.emRemove gone) St.ok (s.fwd.em.filter gone).length [] := by
  have legal : (decide (c.u 0 1 ≤ 67) || c.u 0 1 == 0xFF) = true := by simpa using port
  subst picks
  unfold fwdFlushPort
  dsimp only
  rw [legal, check_true, datapath_ok up, need_ok (by simp [pipe0, pipe1])]

/-- An ageing configuration takes effect on the next scan, or at once while no scan comes. -/
def ageTakes (s : State) (v : Nat × Nat × Nat × Nat) : State :=
  if s.fwd.ageTime = 0 then s.ageSet v else s.setFwd { s.fwd with ageNext := some v }

theorem fwdAgeConfig_done (age : c.u 0 4 = 0 ∨ (10 ≤ c.u 0 4 ∧ c.u 0 4 ≤ 1000000)) (hold : c.u 4 4 ≤ 10000)
    (est1 : 1 ≤ c.u 8 4) (est2 : c.u 8 4 ≤ 86400) (open1 : 1 ≤ c.u 12 2) (open2 : c.u 12 2 ≤ 600) :
    fwdAgeConfig c s = .done (s.ageTakes (c.u 0 4, c.u 4 4, c.u 8 4, c.u 12 2)) St.ok 0 [] := by
  unfold fwdAgeConfig
  dsimp only
  have legal : (c.u 0 4 == 0 || (decide (10 ≤ c.u 0 4) && decide (c.u 0 4 ≤ 1000000))) = true := by simpa using age
  simp only [legal, hold, est1, est2, open1, open2, decide_true, Bool.and_true, check_true]
  rfl

end State

open State

/-- Settles O31, from the equation of each row: a bound frame alone keeps an epoch, and what is deleted, in being. -/
theorem epochDraining : Obligations.EpochDraining := by
  intro s host q c
  refine ⟨?drain, ?ends, ?reclaim, ?flush, ?age⟩
  case drain =>
    intro ready window lo hi
    have legal : (decide (epochAge s.epoch (c.u 0 2) ≤ 3) && decide (1 ≤ c.u 4 4) && decide (c.u 4 4 ≤ 10000)) = true := by
      simp [window, lo, hi]
    have checked : fwdEpochDrain c s = if s.boundBefore (c.u 0 2) = 0 then .done s St.ok 0 []
        else .run s (s.clk + 1000000 * c.u 4 4) := by
      rw [fwdEpochDrain, legal, check_true]
    split
    next drained => exact congrArg Host.Outcome.next (runCmd_done ready (checked.trans (if_pos drained)))
    next bound => exact congrArg Host.Outcome.next (runCmd_run ready (checked.trans (if_neg bound)))
  case ends => exact fun running => ⟨exec_epochDrainComplete running, exec_epochDrainTimeout running⟩
  case reclaim =>
    intro up
    refine ⟨s.reclaim, exec_epochStorageReclaim up, reclaim_only s, fun x hx undeleted => ?_, fun x hx => ?_,
      fun x hx undeleted => ?_, fun y hy a d deleted => stillRead_some.1 (stillRead_of_mem_reclaim hy deleted)⟩
    · exact mem_reclaim_lpm.2 ⟨hx, by rw [undeleted]; rfl⟩
    · obtain ⟨stood, read⟩ := mem_reclaim_lpm.1 hx
      exact ⟨stood, fun d deleted => stillRead_some.1 (deleted ▸ read)⟩
    · obtain ⟨y, hy, held⟩ := reclaim_keeps hx undeleted
      obtain ⟨key, data, range, -, -⟩ := EmEntry.fields_of_unplaced held
      exact ⟨y, hy, key, range, data⟩
  case flush =>
    rintro p fl vid gone ready rfl rfl rfl port up pipe0 pipe1 picks
    exact congrArg Host.Outcome.next (runCmd_done ready (fwdFlushPort_done port up pipe0 pipe1 picks))
  case age =>
    rintro v ready rfl age hold est1 est2 open1 open2
    refine congrArg Host.Outcome.next ((runCmd_done ready (fwdAgeConfig_done age hold est1 est2 open1 open2)).trans ?_)
    congr 1
    unfold ageTakes
    split <;> rfl

end Sys2Proof.Machine
end

section
/-! The learn engine (R198 to R201), ageing and timeouts (R196, R202), and relocation (R191). -/

namespace Sys2Proof.Machine

namespace State

variable {s t : State} {src fid : Nat} {mac key data : List Byte} {r : List LearnReq} {x y : EmEntry}

/-! ### The learn engine takes a request (R198) -/

/-- The engine waits until 40 ns have passed since its last commit. -/
def learnWaits (s : State) : State :=
  match s.fwd.learntAt with
  | none => s
  | some t => s.waitUntil (t + 40)

theorem learnWaits_fwd (s : State) : s.learnWaits.fwd = s.fwd := by
  unfold learnWaits
  split
  · rfl
  · exact waitUntil_fwd ..

/-- The front request is taken, and the rest waits. -/
def learnTakes (s : State) (r : List LearnReq) : State :=
  s.learnWaits.setFwd { s.learnWaits.fwd with learnQ := r, learntAt := some s.learnWaits.clk }

theorem exec_learnEngineCommit_learn (up : s.datapathUp = true) (front : s.fwd.learnQ = .learn src fid mac :: r) :
    exec .learnEngineCommit s = .next ((s.learnTakes r).learnCommit src fid mac) := by
  show Host.Outcome.next s.doLearnEngineCommit = _
  unfold doLearnEngineCommit
  rw [up, front]
  rfl

theorem exec_learnEngineCommit_connect (up : s.datapathUp = true) (front : s.fwd.learnQ = .connect key data :: r) :
    exec .learnEngineCommit s = .next ((s.learnTakes r).connCommit key data) := by
  show Host.Outcome.next s.doLearnEngineCommit = _
  unfold doLearnEngineCommit
  rw [up, front]
  rfl

/-! ### Learn and move requests (R199, R200) -/

section
variable (unknown : s.emProbe s.epoch (l2Key fid mac) = none)
include unknown

theorem learnCommit_limit (limit : s.learnLimit src = true) : s.learnCommit src fid mac = s.learnRefuse src := by
  rw [learnCommit, unknown]
  exact if_pos limit

theorem learnCommit_insert (below : s.learnLimit src = false)
    (placed : s.emInsert (l2Key fid mac) (fit 16 (leBytes 1 0 ++ leBytes 1 src)) none = some t) :
    s.learnCommit src fid mac = t.bump Reg.fwdLearnCnt := by
  simp only [learnCommit, unknown, below, placed, Bool.false_eq_true, if_false]

theorem learnCommit_full (below : s.learnLimit src = false)
    (full : s.emInsert (l2Key fid mac) (fit 16 (leBytes 1 0 ++ leBytes 1 src)) none = none) :
    s.learnCommit src fid mac = s.learnFull := by
  simp only [learnCommit, unknown, below, full, Bool.false_eq_true, if_false]

end

section
variable (known : s.emProbe s.epoch (l2Key fid mac) = some x)
include known

theorem learnCommit_same (here : le x.data 1 1 = src) : s.learnCommit src fid mac = s := by
  rw [learnCommit, known]
  exact if_pos here

theorem learnCommit_fixed (away : le x.data 1 1 ≠ src)
    (fixed : x.range.isSome = true ∨ bit (le x.data 6 2) 0 = true ∨ bit (le x.data 6 2) 2 = true) :
    s.learnCommit src fid mac = s.learnConflict x src fid mac true := by
  rw [learnCommit, known]
  dsimp only
  rw [if_neg away, if_pos (by simpa [or_assoc] using fixed)]

theorem learnCommit_move (away : le x.data 1 1 ≠ src) (dynamic : x.range = none)
    (unstatic : bit (le x.data 6 2) 0 = false) (unfixed : bit (le x.data 6 2) 2 = false) :
    s.learnCommit src fid mac = if s.clk < x.learnTime + 1000000 * s.fwd.moveHold then s.learnConflict x src fid mac false
      else if s.learnLimit src then s.learnRefuse src
      else (s.emMod (l2Key fid mac) fun y =>
        { y with data := y.data.take 1 ++ leBytes 1 src ++ y.data.drop 2, learnTime := s.clk }).bump Reg.fwdMoveCnt := by
  rw [learnCommit, known]
  dsimp only
  rw [if_neg away, if_neg (by simp [dynamic, unstatic, unfixed])]

end

theorem connCommit_eq (s : State) (key data : List Byte) : s.connCommit key data =
    if (s.emProbe s.epoch key).isSome then s
    else if 65536 ≤ (s.fwd.em.filter fun x => isConn x.key).length then s.learnFull
    else (s.emInsert key data none).getD s.learnFull := by
  unfold connCommit
  cases s.emProbe s.epoch key with
  | some x => rfl
  | none => cases s.emInsert key data none <;> rfl

/-! ### The ageing scan (R202) -/

/-- A dynamic entry that the scan removes. -/
def aged (x : EmEntry) : Bool := ages x && !x.hit && x.age == 3

/-- What the scan leaves of an entry that stays. -/
def older (x : EmEntry) : EmEntry :=
  if !ages x then x
  else if x.hit then { x with hit := false, age := 0 }
  else { x with age := x.age + 1 }

theorem older_key (x : EmEntry) : (older x).key = x.key := by
  unfold older
  split
  · rfl
  · split <;> rfl

theorem older_range (x : EmEntry) : (older x).range = x.range := by
  unfold older
  split
  · rfl
  · split <;> rfl

theorem older_of_ages (h : ages x = true) : (older x).hit = false ∧ (older x).age = if x.hit then 0 else x.age + 1 := by
  unfold older
  rw [h, if_neg (by decide)]
  cases x.hit <;> simp

/-- A configuration that waits for the scan takes effect (R214). -/
def ageConfigured (s : State) : State :=
  match s.fwd.ageNext with
  | none => s
  | some v => s.ageSet v

theorem ageConfigured_clk (s : State) : s.ageConfigured.clk = s.clk := by
  unfold ageConfigured
  split <;> rfl

theorem ageConfigured_em (s : State) : s.ageConfigured.fwd.em = s.fwd.em := by
  unfold ageConfigured
  split <;> rfl

theorem ageConfigured_ageTime (on : s.fwd.ageTime ≠ 0) (next : ∀ v, s.fwd.ageNext = some v → v.1 ≠ 0) :
    s.ageConfigured.fwd.ageTime ≠ 0 := by
  unfold ageConfigured
  split
  next => exact on
  next v waiting => exact next v waiting

/-- The state in which the scan looks at the entries: at its time, with its configuration in force. -/
def scanBegins (s : State) : State :=
  let u := (s.waitUntil (s.fwd.scanAt + 250000000 * s.fwd.ageTime)).ageConfigured
  u.setFwd { u.fwd with scanAt := u.clk }

theorem scanBegins_clk (s : State) : s.scanBegins.clk = (s.waitUntil (s.fwd.scanAt + 250000000 * s.fwd.ageTime)).clk :=
  ageConfigured_clk _

theorem scanBegins_em (s : State) : s.scanBegins.fwd.em = s.fwd.em :=
  (ageConfigured_em _).trans (congrArg Fwd.em (waitUntil_fwd ..))

theorem scanBegins_ageTime (on : s.fwd.ageTime ≠ 0) (next : ∀ v, s.fwd.ageNext = some v → v.1 ≠ 0) :
    s.scanBegins.fwd.ageTime ≠ 0 :=
  ageConfigured_ageTime (by rwa [waitUntil_fwd]) (by rwa [waitUntil_fwd])

/-- The scan's removals and ages, counted. -/
def scans (s : State) : State :=
  ((s.scanBegins.emRemove aged).emChange (fun _ => true) older).bumpTimes Reg.fwdAgedCnt
    (s.scanBegins.fwd.em.filter aged).length

theorem doAgeingScan_begun (up : s.datapathUp = true) (on : s.fwd.ageTime ≠ 0) :
    s.doAgeingScan = if s.scanBegins.fwd.ageTime = 0 then s.scanBegins else s.scans := by
  unfold doAgeingScan
  rw [up, if_neg (by decide), if_neg on]
  rfl

theorem doAgeingScan_eq (up : s.datapathUp = true) (on : s.fwd.ageTime ≠ 0)
    (next : ∀ v, s.fwd.ageNext = some v → v.1 ≠ 0) : s.doAgeingScan = s.scans := by
  rw [doAgeingScan_begun up on, if_neg (scanBegins_ageTime on next)]

theorem scans_em (s : State) : s.scans.fwd.em = (s.scanBegins.emRemove aged).fwd.em.map older := by
  rw [scans, (Only.bumpTimes0 ..).fwd rfl]
  rfl

theorem scans_clk (s : State) : s.scans.clk = s.scanBegins.clk :=
  ((Only.bumpTimes0 ..).clk rfl).trans (((Only.emChange0 ..).clk rfl).trans ((Only.emRemove0 ..).clk rfl))

theorem scans_keeps (hx : x ∈ s.fwd.em) (unaged : ages x = false) :
    ∃ y ∈ s.scans.fwd.em, y.key = x.key ∧ y.range = x.range := by
  obtain ⟨y, hy, held⟩ := emRemove_keeps (gone := aged) (scanBegins_em s ▸ hx) (by simp [aged, unaged])
  obtain ⟨key, -, range, -, -⟩ := EmEntry.fields_of_unplaced held
  exact ⟨older y, scans_em s ▸ List.mem_map_of_mem hy, (older_key y).trans key, (older_range y).trans range⟩

theorem mem_of_scans (hy : y ∈ s.scans.fwd.em) : ∃ x ∈ s.fwd.em, x.key = y.key ∧ x.range = y.range ∧
    (ages x = true → (x.hit = true ∨ x.age ≠ 3) ∧ y.hit = false ∧ y.age = if x.hit then 0 else x.age + 1) := by
  rw [scans_em] at hy
  obtain ⟨z, hz, rfl⟩ := List.mem_map.1 hy
  obtain ⟨x, hx, stays, held⟩ := mem_of_emRemove hz
  obtain ⟨key, -, range, hit, age⟩ := EmEntry.fields_of_unplaced held
  have same : ages z = ages x := by rw [ages, ages, key, range]
  refine ⟨x, scanBegins_em s ▸ hx, key.trans (older_key z).symm, range.trans (older_range z).symm,
    fun dynamic => ⟨by simpa [aged, dynamic, or_iff_not_imp_left] using stays, ?_⟩⟩
  rw [hit, age]
  exact older_of_ages (same.trans dynamic)

/-! ### Timeouts of connections (R196) -/

/-- Whether a connection entry has been idle past the time of its state. -/
def timedOut (s : State) (x : EmEntry) : Bool :=
  let idle := (s.clkMs + 2 ^ 32 - le x.data 4 4) % 2 ^ 32
  let st := le x.data 0 1
  x.range.isNone && isConn x.key &&
    (if st = 1 ∨ st = 3 then 1000 * s.fwd.connOpen ≤ idle
     else (st = 2 ∨ st = 4) && decide (1000 * s.fwd.connEst ≤ idle))

theorem timedOut_unplaced (h : x.unplaced = y.unplaced) : s.timedOut x = s.timedOut y := by
  obtain ⟨key, data, range, -, -⟩ := EmEntry.fields_of_unplaced h
  rw [timedOut, timedOut, key, data, range]

theorem timedOut_host (h : x.range.isSome = true ∨ isConn x.key = false) : s.timedOut x = false := by
  rcases h with host | learned
  · simp [timedOut, Option.isNone_eq_false_iff.2 host]
  · simp [timedOut, learned]

theorem live_of_timedOut (stays : s.timedOut x = false) (dynamic : x.range = none) (conn : isConn x.key = true) :
    ((le x.data 0 1 = 1 ∨ le x.data 0 1 = 3) → (s.clkMs + 2 ^ 32 - le x.data 4 4) % 2 ^ 32 < 1000 * s.fwd.connOpen) ∧
      ((le x.data 0 1 = 2 ∨ le x.data 0 1 = 4) → (s.clkMs + 2 ^ 32 - le x.data 4 4) % 2 ^ 32 < 1000 * s.fwd.connEst) := by
  unfold timedOut at stays
  dsimp only at stays
  rw [dynamic, conn] at stays
  refine ⟨fun opening => ?_, fun established => ?_⟩
  · rw [if_pos opening] at stays
    simpa using stays
  · rw [if_neg (by omega), decide_eq_true established] at stays
    simpa using stays

/-- The time of the connection timeout scan: every whole second of the local clock. -/
def timeoutBegins (s : State) : State := s.waitUntil (1000000000 * ceilDiv s.clk 1000000000)

/-- The scan's removals, counted. -/
def timesOut (s : State) : State :=
  let u := s.timeoutBegins
  (u.emRemove u.timedOut).bumpTimes Reg.fwdAgedCnt (u.fwd.em.filter u.timedOut).length

theorem doConnectionTimeoutScan_eq (up : s.datapathUp = true) : s.doConnectionTimeoutScan = s.timesOut := by
  unfold doConnectionTimeoutScan
  rw [up]
  rfl

theorem timesOut_em (s : State) :
    s.timesOut.fwd.em = (s.timeoutBegins.emRemove s.timeoutBegins.timedOut).fwd.em :=
  congrArg Fwd.em ((Only.bumpTimes0 ..).fwd rfl)

theorem timesOut_clk (s : State) : s.timesOut.clk = s.timeoutBegins.clk :=
  ((Only.bumpTimes0 ..).clk rfl).trans ((Only.emRemove0 ..).clk rfl)

theorem timeoutBegins_fwd (s : State) : s.timeoutBegins.fwd = s.fwd := waitUntil_fwd ..

/-! ### Old copies are invalidated (R191) -/

/-- Whether the old copy of a moved entry was hit. -/
def oldHit (s : State) (x : EmEntry) : Bool := s.fwd.moving.any fun o => o.serial == x.serial && o.hit

/-- A moved entry takes over the hit of its old copy. -/
def takesHit (s : State) (x : EmEntry) : EmEntry := if s.oldHit x then { x with hit := true } else x

theorem invalidateOld_moving (s : State) : s.invalidateOld.fwd.moving = [] := by
  unfold invalidateOld
  split
  next none => exact List.isEmpty_iff.1 none
  next => rfl

theorem invalidateOld_em (s : State) : s.invalidateOld.fwd.em = s.fwd.em.map s.takesHit := by
  unfold invalidateOld
  split
  next none =>
    have same (x : EmEntry) : s.takesHit x = x := by simp [takesHit, oldHit, List.isEmpty_iff.1 none]
    rw [List.map_congr_left fun x _ => same x, List.map_id']
  next =>
    dsimp only
    rw [setFwd_fwd, waitUntil_fwd]
    rfl

theorem takesHit_fields (s : State) (x : EmEntry) : (s.takesHit x).place = x.place ∧ (s.takesHit x).key = x.key ∧
    (s.takesHit x).range = x.range ∧ (s.takesHit x).data = x.data := by
  unfold takesHit
  split <;> exact ⟨rfl, rfl, rfl, rfl⟩

theorem takesHit_hit (h : x.hit = true ∨ ∃ o ∈ s.fwd.moving, o.serial = x.serial ∧ o.hit = true) :
    (s.takesHit x).hit = true := by
  unfold takesHit
  split
  next => rfl
  next unhit => exact h.resolve_right fun old => unhit (by simpa [oldHit] using old)

end State

open State

/-- Settles O32, from the equation of each row: a request is committed as its lookup says, and a scan removes nothing
but what it picks. -/
theorem learningAndAgeing : Obligations.LearningAndAgeing := by
  intro s
  refine ⟨?learn, ?age, ?timeout, ?relocate⟩
  case learn =>
    intro v up hv
    have waits : v = s.learnWaits := hv
    subst waits
    refine ⟨?learns, ?connects⟩
    case learns =>
      rintro src f mac r u front rfl
      rw [exec_learnEngineCommit_learn up front]
      refine ⟨fun t unknown below placed => ?_, fun unknown below full => ?_, fun unknown limit => ?_,
        fun x known here => ?_, fun x known away fixed => ?_, fun x known away dynamic unstatic unfixed => ?_⟩
      · exact congrArg Host.Outcome.next (learnCommit_insert unknown below placed)
      · exact congrArg Host.Outcome.next (learnCommit_full unknown below full)
      · exact congrArg Host.Outcome.next (learnCommit_limit unknown limit)
      · exact congrArg Host.Outcome.next (learnCommit_same known here)
      · exact congrArg Host.Outcome.next (learnCommit_fixed known away fixed)
      · rw [← learnWaits_fwd s]
        exact congrArg Host.Outcome.next (learnCommit_move known away dynamic unstatic unfixed)
    case connects =>
      rintro key data r u front rfl
      rw [exec_learnEngineCommit_connect up front, ← learnWaits_fwd s]
      exact congrArg Host.Outcome.next (connCommit_eq ..)
  case age =>
    intro up on next
    have scanned := doAgeingScan_eq up on next
    refine ⟨s.scans, congrArg Host.Outcome.next scanned, (scans_clk s).trans (scanBegins_clk s), fun x hx unaged => ?_,
      fun y hy => mem_of_scans hy, ?_⟩
    · refine scans_keeps hx ?_
      rcases unaged with host | conn
      · simp [ages, Option.isNone_eq_false_iff.2 host]
      · simp [ages, conn]
    · exact scanned ▸ (Only.doAgeingScan0 s).mono rfl
  case timeout =>
    intro up
    have scanned := doConnectionTimeoutScan_eq up
    refine ⟨s.timesOut, congrArg Host.Outcome.next scanned, timesOut_clk s, fun x hx stays => ?_,
      fun y hy dynamic conn => ?_, ?_⟩
    · rw [timesOut_em]
      obtain ⟨y, hy, held⟩ := emRemove_keeps (timeoutBegins_fwd s ▸ hx) (timedOut_host stays)
      obtain ⟨key, -, range, -, -⟩ := EmEntry.fields_of_unplaced held
      exact ⟨y, hy, key, range⟩
    · obtain ⟨x, -, stays, held⟩ := mem_of_emRemove (timesOut_em s ▸ hy)
      have live := live_of_timedOut ((timedOut_unplaced held).symm.trans stays) dynamic conn
      rwa [timeoutBegins_fwd, clkMs, ← timesOut_clk] at live
    · exact scanned ▸ (Only.doConnectionTimeoutScan0 s).mono rfl
  case relocate =>
    refine ⟨s.invalidateOld, rfl, invalidateOld_moving s, ?_, fun x hx => ?_, Only.invalidateOld0 s⟩
    · rw [invalidateOld_em, List.length_map]
    · obtain ⟨place, key, range, data⟩ := takesHit_fields s x
      exact ⟨s.takesHit x, invalidateOld_em s ▸ List.mem_map_of_mem hx, place, key, range, data, takesHit_hit⟩

end Sys2Proof.Machine
end

section
/-! Egress. A selection (R279 to R281, R296, R398, R399): what the arbiter's pick starts, and what a copy that holds the
lane makes of it. The end of a copy (R226, R241, R254, R262): sent whole, or cut short. -/

namespace Sys2Proof.Machine

namespace State

variable {s t v w : State} {p k n fid port : Nat} {ok : Nat → Bool} {c : Copy} {f : Frame} {pn : Option Nat}

/-! ### What the arbiter's pick starts (R280, R296, R398) -/

theorem selectLoop_idle (nothing : w.serve p ok = (none, v)) (alone : v.preemptedCopy p = none) :
    selectLoop (n + 1) p ok w = v := by
  simp only [selectLoop, nothing, alone]

theorem selectLoop_resumes (nothing : w.serve p ok = (none, v)) (waits : v.preemptedCopy p = some c)
    (free : v.laneCopy p = none) :
    selectLoop (n + 1) p ok w = if (v.tport p).hold then v else v.resumeCopy c := by
  simp only [selectLoop, nothing, waits, free]
  cases (v.tport p).hold <;> rfl

section

variable (picked : w.serve p ok = (some k, v)) (head : v.head? p k = some (c, f))
include picked head

theorem selectLoop_plain (plain : v.protect f p = .plain) : selectLoop (n + 1) p ok w = v.startCopy c f none := by
  simp only [selectLoop, picked, head, plain]

theorem selectLoop_protected {an x : Nat} (sa : v.protect f p = .sa an x t) :
    selectLoop (n + 1) p ok w = t.startCopy c f (some x) := by
  simp only [selectLoop, picked, head, sa]

theorem selectLoop_discard (discards : v.protect f p = .discard) : selectLoop (n + 1) p ok w =
    selectLoop n p ok (((((v.discardCopy c).bump (Reg.secMsTxDiscardCnt p)).stat p Reg.statTxDrop).lose f.fid p 6).gc) := by
  simp only [selectLoop, picked, head, discards]

end

/-! ### Selection at a port (R279) -/

/-- EGRESS_SELECT has an effect at a port: it is one with a lane, up, and not quenched (R279). -/
structure Selects (s : State) (p : Nat) : Prop where
  port : p ≤ 64
  up : s.datapathUp = true
  linked : s.portDown p = false
  runs : s.quenched Dom.buffer = false

/-- A port with its shapers up to date and no head of a queue that cannot be sent (R166, R271, R291). -/
def trimmed (s : State) (p : Nat) : State :=
  (List.range 8).foldl (fun t q => (pruneQueue s.fr.copies.length p q t).stallCheck p q) (s.cbsUpdate p)

/-- The gap after the last copy on the lane is over (R281). -/
def gapOver (s : State) (p : Nat) : State := if p < 64 then s.waitUntil (s.tport p).freeAt else s

/-- An express head may cut the copy of a queue short: preemption is active, no other copy waits (R296). -/
def expressReady (s : State) (p : Nat) (c : Copy) : Bool :=
  s.mmActive p && !s.isExpress p c.queue && (s.preemptedCopy p).isNone &&
    (List.range 8).any fun q => s.isExpress p q && s.eligible p q

namespace Selects

variable (h : s.Selects p)
include h

theorem doEgressSelect_eq : s.doEgressSelect p =
    match (s.trimmed p).laneCopy p with
    | none => (selectLoop (s.fr.copies.length + 1) p (fun _ => true) ((s.trimmed p).gapOver p)).gc
    | some c =>
      match (s.trimmed p).frame? c.fid with
      | none => (s.trimmed p).gc
      | some f =>
        if (s.trimmed p).expressReady p c then
          match (s.trimmed p).preempt c f with
          | none => (s.trimmed p).gc
          | some t => (selectLoop (s.fr.copies.length + 1) p (fun q => t.isExpress p q) (t.cbsUpdate p)).gc
        else (s.trimmed p).gc := by
  have selects : ¬ (64 < p || !s.datapathUp || s.portDown p || s.quenched Dom.buffer) = true := by
    simp [h.port, h.up, h.linked, h.runs]
  exact if_neg selects

theorem exec_free (free : (s.trimmed p).laneCopy p = none) : exec (.egressSelect p) s =
    .next (selectLoop (s.fr.copies.length + 1) p (fun _ => true) ((s.trimmed p).gapOver p)).gc := by
  show Host.Outcome.next (s.doEgressSelect p) = _
  rw [h.doEgressSelect_eq, free]

section

variable (lane : (s.trimmed p).laneCopy p = some c) (frame : (s.trimmed p).frame? c.fid = some f)
include lane frame

theorem exec_taken : exec (.egressSelect p) s =
    .next (if (s.trimmed p).expressReady p c then
        ((s.trimmed p).preempt c f).elim (s.trimmed p).gc fun t =>
          (selectLoop (s.fr.copies.length + 1) p (fun q => t.isExpress p q) (t.cbsUpdate p)).gc
      else (s.trimmed p).gc) := by
  show Host.Outcome.next (s.doEgressSelect p) = _
  simp only [h.doEgressSelect_eq, lane, frame]
  cases (s.trimmed p).preempt c f <;> rfl

theorem exec_preempts (ready : (s.trimmed p).expressReady p c = true) (cut : (s.trimmed p).preempt c f = some t) :
    exec (.egressSelect p) s =
      .next (selectLoop (s.fr.copies.length + 1) p (fun q => t.isExpress p q) (t.cbsUpdate p)).gc := by
  rw [h.exec_taken lane frame, if_pos ready, cut]
  rfl

theorem exec_stays (stays : (s.trimmed p).expressReady p c = false ∨ (s.trimmed p).preempt c f = none) :
    exec (.egressSelect p) s = .next (s.trimmed p).gc := by
  rw [h.exec_taken lane frame]
  rcases stays with unready | uncut
  · rw [if_neg (Bool.eq_false_iff.1 unready)]
  · rw [uncut, Option.elim_none, ite_self]

end

end Selects

theorem expressReady_of (active : s.mmActive p = true) (preemptable : s.isExpress p c.queue = false)
    (alone : s.preemptedCopy p = none) (head : ∃ q < 8, s.isExpress p q = true ∧ s.eligible p q = true) :
    s.expressReady p c = true := by
  obtain ⟨q, hq, express, eligible⟩ := head
  have any : ((List.range 8).any fun q => s.isExpress p q && s.eligible p q) = true :=
    List.any_eq_true.2 ⟨q, List.mem_range.2 hq, by rw [express, eligible]; rfl⟩
  rw [expressReady, active, preemptable, alone, any]
  rfl

theorem not_expressReady (h : s.mmActive p = false ∨ s.isExpress p c.queue = true) : s.expressReady p c = false := by
  rcases h with h | h <;> simp [expressReady, h]

/-! ### The start of a copy (R279, R296) -/

theorem frame?_fmod {g : Frame → Frame} (keeps : ∀ x, (g x).fid = x.fid) (h : s.frame? fid = some f) (m : Nat) :
    (s.fmod m g).frame? fid = some (if f.fid == m then g f else f) := by
  have same : ((fun x : Frame => x.fid == fid) ∘ fun x => if x.fid == m then g x else x) = fun x => x.fid == fid := by
    funext x
    dsimp only [Function.comp]
    split <;> simp [keeps]
  show ((s.fr.frames.map _).find? _) = _
  rw [List.find?_map, same, show s.fr.frames.find? _ = some f from h]
  rfl

theorem startCopy_fr (s : State) (c : Copy) (f : Frame) (pn : Option Nat) : (s.startCopy c f pn).fr =
    ((s.cmod c.fid c.port fun x => { x with onLane := true, startAt := s.clk, firstAt := s.clk, pn := pn }).fmod f.fid
      fun x => { x with started := true }).fr := (Only.depart0 ..).fr rfl

theorem mem_startCopy (hc : c ∈ s.fr.copies) :
    { c with onLane := true, startAt := s.clk, firstAt := s.clk, pn := pn } ∈ (s.startCopy c f pn).fr.copies := by
  rw [startCopy_fr]
  exact List.mem_map.2 ⟨c, hc, by simp⟩

theorem startCopy_frame? (h : s.frame? f.fid = some f) :
    (s.startCopy c f pn).frame? f.fid = some { f with started := true } := by
  rw [frame?, startCopy_fr]
  refine (frame?_fmod (s := s.cmod ..) ?_ h f.fid).trans ?_
  · exact fun _ => rfl
  · rw [beq_self_eq_true, if_pos rfl]

theorem startCopy_out : Output.laneStart c.port c.queue f.fid (s.rewrite f c.port) pn ∈ (s.startCopy c f pn).out :=
  (Only.depart0 ..).out.subset (List.mem_append_right _ (List.mem_singleton.2 rfl))

/-! ### Copies that end (R262) -/

theorem takeCopy_copies (s : State) (fid port : Nat) :
    (s.takeCopy fid port).fr.copies = s.fr.copies.filter fun c => !(c.fid == fid && c.port == port) := by
  unfold takeCopy
  extract_lets t
  split
  · rfl
  · split <;> rfl

theorem freeEnded_copies (s : State) : s.freeEnded.fr.copies = s.fr.copies := by
  have one (t : State) (f : Frame) :
      ((t.freeRecord f).fmod f.fid fun x => { x with record := none }).fr.copies = t.fr.copies := by
    show (t.freeRecord f).fr.copies = _
    unfold freeRecord
    split
    · rfl
    · unfold setRecords; split <;> rfl
  unfold freeEnded
  generalize s.fr.frames.filter _ = l
  induction l generalizing s with
  | nil => rfl
  | cons f r ih => exact (ih _).trans (one s f)

theorem freeCells_copies (s : State) : s.freeCells.fr.copies = s.fr.copies := by
  unfold freeCells
  extract_lets free gone src t
  split
  · rfl
  · have kept : Only 0x10B t (gone.foldl (fun t f => t.flowCheck f.src) t.spillUpdate) :=
      .foldl (fun _ _ h => h.flowCheck rfl) (.spillUpdate rfl (.refl _ t))
    rw [kept.fr rfl]
    rfl

theorem gc_copies (s : State) : s.gc.fr.copies = s.fr.copies := by
  have freed : s.freeEnded.freeCells.fr.copies = s.fr.copies := (freeCells_copies _).trans (freeEnded_copies s)
  unfold gc
  extract_lets t dead gone
  split
  · exact freed
  · rw [(Only.drainGone0 _).fr rfl]
    exact freed

/-! ### A copy that is sent whole (R226) -/

/-- The time has come at which the last byte leaves of a copy on a port's lane (R226, R254). -/
def lastByteDue (s : State) (p : Nat) (c : Copy) (f : Frame) : State :=
  s.waitUntil (c.startAt + bytesNs (s.portRate p)
    (s.endLen f p + (if c.pn.isSome then s.macsecExtra p else 0) - c.sent))

theorem lastByteDue_only (s : State) (p : Nat) (c : Copy) (f : Frame) :
    Only (Group.clk ||| Group.dom) s (s.lastByteDue p c f) :=
  Only.waitUntil0 ..

/-- The last byte of a committed frame's copy leaves, after `n` bytes. -/
def lastByteOut (s : State) (p n : Nat) (c : Copy) (f : Frame) : State :=
  let s := s.deficitTake c (s.charge p n)
  let s := if 0 < c.frags then s.bump (Reg.trfMmFragTxCnt p) else s
  (s.cbsUpdate p).emit (.laneEnd p f.fid)

/-- A copy that has left is counted, timestamped and captured (R77, R231, R532). -/
def copySent (s : State) (p n : Nat) (c : Copy) (f : Frame) : State :=
  ((s.sentCounts c f n).tsSent f c).capturePut f p true

theorem lastByteOut_only (s : State) (p n : Nat) (c : Copy) (f : Frame) : Only 0x20B s (s.lastByteOut p n c f) :=
  .emit rfl (.cbsUpdate rfl (.ite (.bump rfl (.deficitTake rfl (.refl _ s))) (.deficitTake rfl (.refl _ s))))

theorem laneEnd_mem_lastByteOut (s : State) (p n : Nat) (c : Copy) (f : Frame) :
    Output.laneEnd p f.fid ∈ (s.lastByteOut p n c f).out :=
  List.mem_append_right _ (List.mem_singleton.2 rfl)

theorem copySent_only (s : State) (p n : Nat) (c : Copy) (f : Frame) : Only 0x30020B s (s.copySent p n c f) :=
  .capturePut rfl (.tsSent rfl (.sentCounts rfl (.refl _ s)))

/-- The copy of a committed frame has left its lane whole. -/
def sentWhole (s : State) (p n : Nat) (c : Copy) (f : Frame) : State :=
  ((((s.lastByteOut p n c f).copySent p n c f).takeCopy c.fid p).laneGap c).gc

theorem sentWhole_after (s : State) (p n : Nat) (c : Copy) (f : Frame) :
    Only 0x3003AB (s.lastByteOut p n c f) (s.sentWhole p n c f) :=
  .gc rfl (.laneGap rfl (.takeCopy rfl ((copySent_only ..).mono rfl)))

theorem sentWhole_clk (s : State) (p n : Nat) (c : Copy) (f : Frame) : (s.sentWhole p n c f).clk = s.clk :=
  ((sentWhole_after s p n c f).clk rfl).trans ((lastByteOut_only s p n c f).clk rfl)

theorem sentWhole_copies {d : Copy} (hd : d ∈ (s.sentWhole p n c f).fr.copies) : ¬(d.fid = c.fid ∧ d.port = p) := by
  rw [sentWhole, gc_copies, (Only.laneGap0 ..).fr rfl, takeCopy_copies] at hd
  simpa only [Bool.not_eq_true', ← Bool.not_eq_true, Bool.and_eq_true, beq_iff_eq] using (List.mem_filter.1 hd).2

theorem laneEnd_mem_sentWhole (s : State) (p n : Nat) (c : Copy) (f : Frame) :
    Output.laneEnd p f.fid ∈ (s.sentWhole p n c f).out :=
  (sentWhole_after s p n c f).out.subset (laneEnd_mem_lastByteOut ..)

/-! ### A copy that is cut short (R226, R241, R254) -/

theorem storedOut_of_cal (same : t.cal = s.cal) (f : Frame) : t.storedOut f = s.storedOut f := by
  simp only [storedOut, frameGuarantee, guarantee, imageOf, runningImage, drainingImages, drainingImage, handle, same]

theorem storedOut_waitUntil (s : State) (x : Nat) (f : Frame) : (s.waitUntil x).storedOut f = s.storedOut f :=
  storedOut_of_cal (waitUntil_cal s x) f

theorem stopped_waitUntil (s : State) (x o : Nat) : (s.waitUntil x).stopped o = s.stopped o := by
  simp only [stopped, waitUntil, tick_quenched]

/-- A frame without an outcome lets its copy run out: counted and reported as late (R226). -/
def lateEgress (s : State) (p pipe : Nat) : State :=
  let s := s.bump (Reg.spcLateEgressCnt pipe)
  let (s, t) := s.raiseLimited (aget s.fr.lateAt pipe) 100000000 0x4103 (pipe + 256 * p)
  match t with
  | none => s
  | some t => s.setFr { s.fr with lateAt := aset s.fr.lateAt pipe t }

theorem raiseLimited_keepsRegs (s : State) (last : Option Nat) (period code arg : Nat) :
    s.KeepsRegs (s.raiseLimited last period code arg).1 := by
  unfold raiseLimited
  split
  · split
    · exact .refl s
    · exact raise_keepsRegs s code arg
  · exact raise_keepsRegs s code arg

/-- The count of a late egress and its event, the instant of the event aside. -/
def lateRaised (s : State) (p pipe : Nat) : State :=
  ((s.bump (Reg.spcLateEgressCnt pipe)).raiseLimited (aget (s.bump (Reg.spcLateEgressCnt pipe)).fr.lateAt pipe)
    100000000 0x4103 (pipe + 256 * p)).1

theorem lateRaised_only (s : State) (p pipe : Nat) : Only 0xB s (s.lateRaised p pipe) :=
  .raiseLimited rfl (.bump rfl (.refl _ s))

theorem lateEgress_eq (s : State) (p pipe : Nat) : ∃ l, s.lateEgress p pipe =
    (s.lateRaised p pipe).setFr { (s.lateRaised p pipe).fr with lateAt := l } := by
  unfold lateEgress
  extract_lets u
  dsimp only
  split
  · exact ⟨(s.lateRaised p pipe).fr.lateAt, rfl⟩
  · exact ⟨_, rfl⟩

theorem lateEgress_state (s : State) (p pipe : Nat) : (s.lateEgress p pipe).clk = s.clk ∧
    (s.lateEgress p pipe).fr.frames = s.fr.frames ∧ (s.lateEgress p pipe).fr.copies = s.fr.copies := by
  obtain ⟨l, eq⟩ := lateEgress_eq s p pipe
  have raised := lateRaised_only s p pipe
  have fr := raised.fr rfl
  rw [eq]
  exact ⟨raised.clk rfl, (congrArg Frames.frames fr :), (congrArg Frames.copies fr :)⟩

theorem eventReg_spcLateEgressCnt (pipe : Nat) : eventReg (Reg.spcLateEgressCnt pipe) = false := by
  simp only [eventReg, Reg.spcLateEgressCnt, Bool.or_eq_false_iff, beq_eq_false_iff_ne]
  omega

theorem lateEgress_count {pipe : Nat} (runs : s.stopped (Reg.spcLateEgressCnt pipe) = false) :
    (s.lateEgress p pipe).rget (Reg.spcLateEgressCnt pipe) = s.rget (Reg.spcLateEgressCnt pipe) + 1 := by
  obtain ⟨l, eq⟩ := lateEgress_eq s p pipe
  have counter := eventReg_spcLateEgressCnt pipe
  calc (s.lateEgress p pipe).rget (Reg.spcLateEgressCnt pipe)
    _ = (s.lateRaised p pipe).rget (Reg.spcLateEgressCnt pipe) := by rw [eq]; rfl
    _ = (s.bump (Reg.spcLateEgressCnt pipe)).rget (Reg.spcLateEgressCnt pipe) := raiseLimited_keepsRegs _ _ _ _ _ _ counter
    _ = s.rget (Reg.spcLateEgressCnt pipe) + 1 := by rw [bump_rget s _ counter counter runs, if_pos rfl]

/-- Where the copy stands on the lane when it is cut short: late and counted, unless the stored bytes ran out. -/
def cutDue (s : State) (p : Nat) (c : Copy) (f : Frame) : State :=
  if s.storedOut f then s.lastByteDue p c f else (s.lastByteDue p c f).lateEgress p (pipeOf f.src)

theorem cutDue_state (s : State) (p : Nat) (c : Copy) (f : Frame) : (s.cutDue p c f).clk = (s.lastByteDue p c f).clk ∧
    (s.cutDue p c f).fr.frames = s.fr.frames ∧ (s.cutDue p c f).fr.copies = s.fr.copies := by
  have due : (s.lastByteDue p c f).fr = s.fr := (lastByteDue_only s p c f).fr rfl
  unfold cutDue
  split
  · exact ⟨rfl, congrArg Frames.frames due, congrArg Frames.copies due⟩
  · rw [← due]
    exact lateEgress_state ..

theorem cutDue_count (short : s.storedOut f = false) (runs : s.stopped (Reg.spcLateEgressCnt (pipeOf f.src)) = false) :
    (s.cutDue p c f).rget (Reg.spcLateEgressCnt (pipeOf f.src)) =
      s.rget (Reg.spcLateEgressCnt (pipeOf f.src)) + 1 := by
  have due : (s.lastByteDue p c f).stopped (Reg.spcLateEgressCnt (pipeOf f.src)) = false :=
    (stopped_waitUntil ..).trans runs
  rw [cutDue, short, if_neg Bool.false_ne_true, lateEgress_count due, rget_of_only (lastByteDue_only s p c f) rfl]

/-! ### The two ends of a copy (R226) -/

section

variable (lane : s.laneCopy p = some c) (frame : s.frame? c.fid = some f)
include lane frame

theorem exec_egressCopyEnd_committed (committed : f.outcome = .committed) : exec (.egressCopyEnd p) s =
    .next ((s.lastByteDue p c f).sentWhole p (s.endLen f p) c f) := by
  show Host.Outcome.next (s.doEgressCopyEnd p) = _
  unfold doEgressCopyEnd
  rw [lane]
  dsimp only
  rw [frame]
  dsimp only
  rw [committed]
  rfl

theorem exec_egressCopyEnd_cut (uncommitted : f.outcome ≠ .committed) : exec (.egressCopyEnd p) s =
    .next ((s.cutDue p c f).tailAbort c (pipeOf f.src)).gc := by
  show Host.Outcome.next (s.doEgressCopyEnd p) = _
  unfold doEgressCopyEnd
  rw [lane]
  dsimp only
  rw [frame]
  dsimp only
  rw [if_pos (bne_iff_ne.2 uncommitted), storedOut_waitUntil, cutDue]
  rfl

end

theorem exec_egressCopyEnd_free (free : s.laneCopy p = none) : exec (.egressCopyEnd p) s = .next s := by
  show Host.Outcome.next (s.doEgressCopyEnd p) = _
  rw [doEgressCopyEnd, free]

end State

open State

/-- Settles O35, from the equation of each row: what a selection starts is the arbiter's pick, and a copy ends by its
frame's outcome. -/
theorem egressCopies : Obligations.EgressCopies := by
  intro s p
  refine ⟨?select, ?start, ?sent, ?cut, exec_egressCopyEnd_free⟩
  case select =>
    rintro u w port up linked runs hu hw
    obtain rfl : u = s.trimmed p := hu
    obtain rfl : w = (s.trimmed p).gapOver p := hw
    have h : s.Selects p := ⟨port, up, linked, runs⟩
    refine ⟨fun free => ?_, fun c f lane frame => ⟨fun t active preemptable alone head cut => ?_, fun stays => ?_⟩⟩
    · rw [h.exec_free free]
      refine ⟨fun v nothing => ⟨fun alone => ?_, fun c waits lane => ?_⟩, fun v k c f picked head =>
        ⟨fun plain => ?_, fun an pn t sa => ?_, fun discards => ?_⟩⟩
      · rw [selectLoop_idle nothing alone]
      · rw [selectLoop_resumes nothing waits lane, apply_ite gc]
      · rw [selectLoop_plain picked head plain]
      · rw [selectLoop_protected picked head sa]
      · rw [selectLoop_discard picked head discards]
    · exact h.exec_preempts lane frame (expressReady_of active preemptable alone head) cut
    · refine h.exec_stays lane frame ?_
      rcases stays with inactive | express | uncut
      · exact .inl (not_expressReady (.inl inactive))
      · exact .inl (not_expressReady (.inr express))
      · exact .inr uncut
  case start =>
    intro c f pn known hc same
    exact ⟨⟨_, mem_startCopy hc, same, rfl, rfl, rfl, rfl⟩, ⟨_, startCopy_frame? known, rfl⟩, startCopy_out⟩
  case sent =>
    intro c f lane frame committed
    exact ⟨_, exec_egressCopyEnd_committed lane frame committed, sentWhole_clk ..,
      fun _ => sentWhole_copies, laneEnd_mem_sentWhole ..⟩
  case cut =>
    intro c f lane frame uncommitted
    obtain ⟨clk, frames, copies⟩ := cutDue_state s p c f
    refine ⟨s.cutDue p c f, exec_egressCopyEnd_cut lane frame uncommitted, clk, frames, copies, fun stored => ?_,
      cutDue_count⟩
    rw [cutDue, if_pos stored]
    exact lastByteDue_only s p c f

end Sys2Proof.Machine
end

section
/-! What flow control, spilling and the release of frames leave of the buffer (R257, R260, R262, R264): of a port all but
its XOFFs, of the rest all but SPILLING and the full overflow region, and every register below the port statistics. -/

namespace Sys2Proof.Machine

/-- A port without its XOFFs. -/
def BufPort.unpaced (b : BufPort) : BufPort := { b with xoff := [], xoffAt := [] }

theorem BufPort.unpaced_fields {b c : BufPort} (h : b.unpaced = c.unpaced) :
    b.linkUp = c.linkUp ∧ b.rate = c.rate ∧ b.schedHold = c.schedHold ∧ b.beHold = c.beHold :=
  ⟨(congrArg linkUp h :), (congrArg rate h :), (congrArg schedHold h :), (congrArg beHold h :)⟩

/-- The buffer without its ports, SPILLING and the mark of a full overflow region. -/
def Buf.settled (b : Buf) : Buf := { b with ports := [], spilling := false, ovfFull := false }

theorem Buf.settled_fields {b c : Buf} (h : b.settled = c.settled) :
    b.slag = c.slag ∧ b.suspectCells = c.suspectCells ∧ b.auditNo = c.auditNo :=
  ⟨(congrArg slag h :), (congrArg suspectCells h :), (congrArg auditNo h :)⟩

namespace State

variable {s t u : State} {p k : Nat} {f : BufPort → BufPort}

/-! ### Ports -/

@[simp] theorem bport_bportMod_same (s : State) (p : Nat) (f : BufPort → BufPort) :
    (s.bportMod p f).bport p = f (s.bport p) := by
  show agetD (aset s.buf.ports p _) p {} = _
  rw [agetD, aget_aset_same]
  rfl

theorem bport_bportMod_other (h : k ≠ p) : (s.bportMod p f).bport k = s.bport k := by
  show agetD (aset s.buf.ports p _) k {} = _
  rw [agetD, aget_aset_other _ _ h]
  rfl

theorem bport_of_buf (same : t.buf = s.buf) (k : Nat) : t.bport k = s.bport k := by rw [bport, bport, same]

theorem isScheduled_of_cal (same : t.cal = s.cal) (p q : Nat) : t.isScheduled p q = s.isScheduled p q := by
  simp only [isScheduled, runningImage, drainingImages, drainingImage, handle, same]

theorem quenched_of_fnc (same : t.fnc = s.fnc) (d : Nat) : t.quenched d = s.quenched d := by
  simp only [quenched, fdom, same]

theorem rfld_of_rget {o : Nat} (same : t.rget o = s.rget o) (lo n : Nat) : t.rfld o lo n = s.rfld o lo n := by
  rw [rfld, rfld, same]

/-! ### What stays -/

/-- No more has changed of the buffer and its registers than what flow control and spilling do. -/
structure KeepsBuffer (s t : State) : Prop where
  rest : t.buf.settled = s.buf.settled
  port : ∀ k, (t.bport k).unpaced = (s.bport k).unpaced
  regs : ∀ o, o < 0x78000 → eventReg o = false → t.rget o = s.rget o

namespace KeepsBuffer

theorem refl (s : State) : s.KeepsBuffer s := ⟨rfl, fun _ => rfl, fun _ _ _ => rfl⟩

theorem trans (h : s.KeepsBuffer t) (g : t.KeepsBuffer u) : s.KeepsBuffer u :=
  ⟨g.rest.trans h.rest, fun k => (g.port k).trans (h.port k), fun o low ho => (g.regs o low ho).trans (h.regs o low ho)⟩

theorem foldl {α : Type} {g : State → α → State} (h : ∀ (s : State) x, s.KeepsBuffer (g s x)) (l : List α) (s : State) :
    s.KeepsBuffer (l.foldl g s) := by
  induction l generalizing s with
  | nil => exact .refl s
  | cons x r ih => exact (h s x).trans (ih _)

/-- An operation that leaves the buffer. -/
theorem of_buf (same : t.buf = s.buf) (regs : ∀ o, o < 0x78000 → eventReg o = false → t.rget o = s.rget o) :
    s.KeepsBuffer t :=
  ⟨congrArg Buf.settled same, fun k => congrArg BufPort.unpaced (bport_of_buf same k), regs⟩

/-- An operation that leaves the buffer and the registers. -/
theorem of_only {m : Nat} (h : Only m s t) (hb : m.testBit 8 = false) (hr : m.testBit 0 = false) : s.KeepsBuffer t :=
  of_buf (h.buf hb) fun o _ _ => rget_of_only h hr o

/-- What settles alike and has the same ports. -/
theorem setBuf {b : Buf} (rest : b.settled = s.buf.settled) (ports : b.ports = s.buf.ports) :
    s.KeepsBuffer (s.setBuf b) :=
  ⟨rest, fun k => by rw [bport, bport, setBuf_buf, ports], fun _ _ _ => rfl⟩

variable (s)

theorem raise (code arg : Nat) : s.KeepsBuffer (s.raise code arg) :=
  of_buf ((Only.raise0 ..).buf rfl) fun o _ ho => raise_keepsRegs s _ _ o ho

theorem stat (p fld : Nat) : s.KeepsBuffer (s.stat p fld) := by
  unfold State.stat
  split
  · exact of_buf ((Only.bump0 ..).buf rfl) fun o low ho => bump_other s _ o ho (by unfold Reg.stat; omega)
  · exact .refl s

theorem bportMod (p : Nat) (paces : ∀ b, (f b).unpaced = b.unpaced) : s.KeepsBuffer (s.bportMod p f) where
  rest := rfl
  port k := by
    by_cases here : k = p
    · subst here
      rw [bport_bportMod_same, paces]
    · rw [bport_bportMod_other here]
  regs _ _ _ := rfl

theorem sendPause (p pri quanta : Nat) : s.KeepsBuffer (s.sendPause p pri quanta) :=
  (of_only (Only.emit0 s (.pauseSent p pri quanta)) rfl rfl).trans (stat ..)

theorem flowOne (p pri : Nat) : s.KeepsBuffer (s.flowOne p pri) := by
  unfold State.flowOne
  extract_lets n xoff xon on
  split
  · refine (bportMod s p ?_).trans (sendPause ..)
    exact fun _ => rfl
  · split
    · refine (bportMod s p ?_).trans (sendPause ..)
      exact fun _ => rfl
    · exact .refl s

theorem flowCheck (p : Nat) : s.KeepsBuffer (s.flowCheck p) := by
  unfold State.flowCheck
  split
  · exact .refl s
  · split
    · exact flowOne ..
    · exact foldl (fun t i => flowOne t p i) _ s
    · exact .refl s

theorem spillUpdate : s.KeepsBuffer s.spillUpdate := by
  unfold State.spillUpdate
  extract_lets on
  split
  · exact .refl s
  · refine setBuf ?_ ?_ <;> rfl

theorem ovfFullCheck : s.KeepsBuffer s.ovfFullCheck := by
  unfold State.ovfFullCheck
  extract_lets full
  split
  · refine (setBuf ?_ ?_).trans (raise ..) <;> rfl
  · split
    · refine setBuf ?_ ?_ <;> rfl
    · exact .refl s

theorem freeCells : s.KeepsBuffer s.freeCells := by
  unfold State.freeCells
  extract_lets free gone cells emptied
  split
  · exact .refl s
  · exact ((of_only (m := 0x80) (.setFr rfl (.refl _ s)) rfl rfl).trans (spillUpdate emptied)).trans
      (foldl (fun v (x : Frame) => flowCheck v x.src) _ _)

theorem gc : s.KeepsBuffer s.gc := by
  have freed : s.KeepsBuffer s.freeEnded.freeCells := (of_only (Only.freeEnded0 s) rfl rfl).trans (freeCells _)
  unfold State.gc
  extract_lets v dead gone
  split
  · exact freed
  · exact freed.trans (of_only (m := 0xA0) (.drainGone rfl (.owedGone rfl (.setFr rfl (.refl _ _)))) rfl rfl)

end KeepsBuffer

end State

end Sys2Proof.Machine
end

section
/-! Overflow memory (R250, R256 to R260, R267) and the slag audit (R272, R273). -/

namespace Sys2Proof.Machine

namespace State

variable {s t u : State} {p k i r : Nat} {c : Copy} {f : Frame} {P : Frame → Prop} {cells refs : List Nat}

/-! ### Spilling (R257, R258) -/

/-- The overflow engine has written a copy to DRAM. -/
def spillMarked (s : State) (c : Copy) : State :=
  (((s.cmod c.fid c.port fun c => { c with spill := .inDram }).bump Reg.bufSpillCnt).ovfFullCheck).spillUpdate

theorem spillMarked_frames (s : State) (c : Copy) : (s.spillMarked c).fr.frames = s.fr.frames := by
  have after (v : State) : Only 0x10B v (((v.bump Reg.bufSpillCnt).ovfFullCheck).spillUpdate) :=
    .spillUpdate rfl (.ovfFullCheck rfl (.bump rfl (.refl _ v)))
  rw [spillMarked, (after _).fr rfl]
  rfl

theorem exec_spillFrame (up : s.datapathUp = true) (buffer : s.quenched Dom.buffer = false)
    (memory : s.quenched Dom.memory = false) (spills : s.spillUpdate.buf.spilling = true)
    (pick : s.spillUpdate.spillPick = some c) (frame : s.frame? c.fid = some f) :
    exec .spillFrame s = .next ((s.spillUpdate.spillMarked c).flowCheck f.src) := by
  have updated := Only.spillUpdate0 s
  have engine : ¬ (!s.spillUpdate.datapathUp || !s.spillUpdate.buf.spilling || s.spillUpdate.quenched Dom.buffer ||
      s.spillUpdate.quenched Dom.memory) = true := by
    rw [datapathUp, updated.pwr rfl, updated.boot rfl, ← datapathUp, quenched_of_fnc (updated.fnc rfl),
      quenched_of_fnc (updated.fnc rfl), up, buffer, memory, spills]
    decide
  have known : (s.spillUpdate.spillMarked c).frame? c.fid = some f := by
    rw [frame?, spillMarked_frames, updated.fr rfl]
    exact frame
  show Host.Outcome.next s.doSpillFrame = _
  unfold doSpillFrame
  dsimp only
  rw [if_neg engine, pick]
  dsimp only
  rw [← spillMarked, known]

/-! ### Draining back (R259, R260, R267) -/

/-- The frames whose drain is due are those of a list. -/
def drainsDue (s : State) (l : List Nat) : State := s.setBuf { s.buf with drainDue := l }

/-- The read of a spilled frame begins: it is shared on-chip memory that it comes back to. -/
def drainBegins (s : State) (p k : Nat) (c : Copy) : State :=
  ((((s.drainsDue (s.buf.drainDue.filter (· ≠ c.fid))).stallCheck p k).fmod c.fid fun f =>
    { f with part := .shared }).cmod c.fid p fun c => { c with spill := .draining }).spillUpdate

theorem exec_drainBack (up : s.datapathUp = true) (buffer : s.quenched Dom.buffer = false)
    (memory : s.quenched Dom.memory = false) (queue : ofQueueIndex i = (p, k)) (linked : s.portDown p = false)
    (first : ((s.queueOf p k).find? fun c => c.spill == .inDram) = some c) (near : s.cellsAhead c < 128) :
    exec (.drainBack i) s = .next (if s.fcells c.fid ≤ s.sharedFree then s.drainBegins p k c
      else if s.buf.drainDue.contains c.fid then s
      else s.drainsDue (s.buf.drainDue.filter (· ≠ c.fid) ++ [c.fid])) := by
  have engine : ¬ (!s.datapathUp || s.quenched Dom.buffer || s.quenched Dom.memory || s.portDown p) = true := by
    simp [up, buffer, memory, linked]
  show Host.Outcome.next (s.doDrainBack i) = _
  unfold doDrainBack
  rw [queue]
  dsimp only
  rw [if_neg engine, first]
  dsimp only
  rw [if_neg (Nat.not_le.2 near)]
  by_cases fits : s.fcells c.fid ≤ s.sharedFree
  · rw [if_neg (Nat.not_lt.2 fits), if_pos fits]
    rfl
  · rw [if_pos (Nat.not_le.1 fits), if_neg fits]
    rfl

theorem exec_drainReadComplete {ok : Bool} (queue : ofQueueIndex i = (p, k))
    (first : ((s.queueOf p k).find? fun c => c.spill == .draining) = some c) :
    exec (.drainReadComplete i ok) s = .next
      ((if ok then (s.stallCheck p k).cmod c.fid p fun x =>
          { x with spill := if (s.stallCheck p k).portDown p then .inDram else .onChip }
        else ((((((s.stallCheck p k).discardCopy c).lose c.fid p 2).bump Reg.bufAdmitDropCnt).report Dom.memory
          2).gc)).ovfFullCheck.spillUpdate.ovfApply) := by
  show Host.Outcome.next (s.doDrainReadComplete i ok) = _
  unfold doDrainReadComplete
  rw [queue]
  dsimp only
  rw [first]

/-! ### The partition and the region (R250, R256) -/

theorem schedApply_fits (h : s.reservedCells ≤ s.schedRequest) : s.schedApply.buf.sched = s.schedRequest := by
  rw [schedApply, if_pos h, setBuf_buf]

theorem schedApply_short (h : s.schedRequest < s.reservedCells) : s.schedApply = s := if_neg (Nat.not_le.2 h)

theorem ovfApply_free (off : s.rfld Reg.bufCtrl 0 1 = 0) (empty : s.ovfUsed = 0) (valid : s.ovfInvalid = false) :
    s.ovfApply.buf.ovfBase = s.rfld Reg.bufOvfRegion 0 9 ∧ s.ovfApply.buf.ovfSize = s.rfld Reg.bufOvfRegion 16 9 := by
  rw [ovfApply, if_pos ⟨off, empty, by rw [valid]; rfl⟩]
  exact ⟨rfl, rfl⟩

theorem ovfApply_held (h : s.rfld Reg.bufCtrl 0 1 ≠ 0 ∨ s.ovfUsed ≠ 0 ∨ s.ovfInvalid = true) : s.ovfApply = s := by
  rw [ovfApply, if_neg]
  rintro ⟨off, empty, valid⟩
  rcases h with h | h | h
  · exact h off
  · exact h empty
  · simp [h] at valid

/-! ### The frames that a release leaves (R228, R262) -/

theorem forall_frames_fmod {g : Frame → Frame} (keeps : ∀ x, P x → P (g x)) (h : ∀ x ∈ s.fr.frames, P x) (fid : Nat) :
    ∀ x ∈ (s.fmod fid g).fr.frames, P x := by
  intro x hx
  obtain ⟨y, hy, rfl⟩ := List.mem_map.1 hx
  split
  · exact keeps y (h y hy)
  · exact h y hy

theorem freeRecord_frames (s : State) (f : Frame) : (s.freeRecord f).fr.frames = s.fr.frames := by
  unfold freeRecord
  split
  · rfl
  · unfold setRecords
    split <;> rfl

theorem forall_frames_freeEnded (record : ∀ x, P x → P { x with record := none }) (h : ∀ x ∈ s.fr.frames, P x) :
    ∀ x ∈ s.freeEnded.fr.frames, P x := by
  unfold freeEnded
  generalize s.fr.frames.filter _ = l
  induction l generalizing s with
  | nil => exact h
  | cons f r ih =>
    refine ih (forall_frames_fmod record ?_ _)
    rwa [freeRecord_frames]

theorem forall_frames_freeCells (emptied : ∀ x, P x → P { x with cells := 0 }) (h : ∀ x ∈ s.fr.frames, P x) :
    ∀ x ∈ s.freeCells.fr.frames, P x := by
  unfold freeCells
  extract_lets free gone fr t
  split
  · exact h
  · have kept : Only 0x10B t (gone.foldl (fun t f => t.flowCheck f.src) t.spillUpdate) :=
      .foldl (fun _ _ h => h.flowCheck rfl) (.spillUpdate rfl (.refl _ t))
    rw [kept.fr rfl]
    intro x hx
    obtain ⟨y, hy, rfl⟩ := List.mem_map.1 hx
    split
    · exact emptied y (h y hy)
    · exact h y hy

/-- What holds of every frame, whatever its record and its cells, holds of those that are not released. -/
theorem forall_frames_gc (record : ∀ x, P x → P { x with record := none }) (emptied : ∀ x, P x → P { x with cells := 0 })
    (h : ∀ x ∈ s.fr.frames, P x) : ∀ x ∈ s.gc.fr.frames, P x := by
  have freed := forall_frames_freeCells emptied (forall_frames_freeEnded record h)
  unfold gc
  extract_lets t dead gone
  split
  · exact freed
  · exact fun x hx => freed x (List.mem_filter.1 hx).1

/-! ### The audit pass (R272, R273) -/

theorem auditRun_audit (s : State) (extended : Bool) : (s.auditRun extended).buf.slag = s.buf.slag ∧
    (s.auditRun extended).buf.suspectCells = s.buf.suspectCells ∧
    (s.auditRun extended).buf.suspectRefs = s.buf.suspectRefs ∧ (s.auditRun extended).buf.auditNo = s.buf.auditNo := by
  have waited (t : Nat) : (s.free.2.waitUntil t).buf = s.buf := waitUntil_buf ..
  unfold auditRun
  dsimp only [setBuf_buf]
  rw [waited]
  exact ⟨rfl, rfl, rfl, rfl⟩

/-- An audit pass of the next number has run to its end. -/
def auditRan (s : State) : State := s.auditRun ((s.buf.auditNo + 1) % 16 == 0)

/-- The cells that a pass has found for the second time. -/
def slagCells (s : State) (cells : List Nat) : List Nat := cells.filter s.buf.suspectCells.contains

/-- What a pass found for the second time is counted, and counts that are too high are noted or put right. -/
def slagJudged (s : State) (cells refs : List Nat) : State :=
  refs.foldl refFound ((s.slagCells cells).foldl slagFound s.auditRan)

/-- What a pass over on-chip cells remembers. -/
def auditNotes (s : State) (b : Buf) (cells refs : List Nat) : Buf :=
  { b with
    suspectCells := if s.rfld Reg.bufCtrl 1 1 = 1 then cells.filter fun c => !(s.slagCells cells).contains c else cells
    suspectRefs := refs.filter fun r => !s.buf.suspectRefs.contains r
    slag := if s.rfld Reg.bufCtrl 1 1 = 1 then [] else s.slagCells cells
    auditNo := s.buf.auditNo + 1 }

/-- A pass is counted, and the cells that it gave back are free. -/
def auditEnds (s : State) : State := (s.bump Reg.bufAuditPassCnt).ovfFullCheck.spillUpdate.gc

/-- A pass over on-chip cells has ended. -/
def auditPassed (s : State) (cells refs : List Nat) : State :=
  ((s.slagJudged cells refs).setBuf (s.auditNotes (s.slagJudged cells refs).buf cells refs)).auditEnds

/-- An audit pass that finds on-chip cells, each once, after one that found such cells, with no slag left. -/
structure Audits (s : State) (cells refs : List Nat) : Prop where
  up : s.datapathUp = true
  runs : s.quenched Dom.buffer = false
  clean : s.buf.slag = []
  suspects : ∀ c ∈ s.buf.suspectCells, c < 2 ^ 31
  onChip : ∀ c ∈ cells, c < 2 ^ 31
  once : cells.Nodup
  refsOnce : refs.Nodup

theorem bit_of_lt {c : Nat} (h : c < 2 ^ 31) : bit c 31 = false := by
  rw [bit, Nat.div_eq_of_lt h]
  rfl

theorem filter_onChip (h : ∀ c ∈ cells, c < 2 ^ 31) (e : Bool) : (cells.filter fun c => e || !bit c 31) = cells :=
  List.filter_eq_self.2 fun c hc => by rw [bit_of_lt (h c hc), Bool.not_false, Bool.or_true]

theorem filter_dram (h : ∀ c ∈ cells, c < 2 ^ 31) (e : Bool) : (cells.filter fun c => bit c 31 && !e) = [] :=
  List.filter_eq_nil_iff.2 fun c hc => by rw [bit_of_lt (h c hc), Bool.false_and]; exact Bool.false_ne_true

theorem slagJudged_only (s : State) (cells refs : List Nat) : Only 0x8B s.auditRan (s.slagJudged cells refs) :=
  .foldl (fun _ _ h => h.refFound rfl) (.foldl (fun _ _ h => h.slagFound rfl) (.refl _ _))

/-- Judging what a pass found changes nothing of what the pass before it has left. -/
theorem slagJudged_audit (s : State) (cells refs : List Nat) : (s.slagJudged cells refs).buf.slag = s.buf.slag ∧
    (s.slagJudged cells refs).buf.suspectRefs = s.buf.suspectRefs ∧
    (s.slagJudged cells refs).buf.auditNo = s.buf.auditNo := by
  obtain ⟨slag, -, suspectRefs, number⟩ := auditRun_audit s ((s.buf.auditNo + 1) % 16 == 0)
  rw [(slagJudged_only ..).buf rfl]
  exact ⟨slag, suspectRefs, number⟩

theorem exec_slagAuditPass (h : s.Audits cells refs) : exec (.slagAuditPass cells refs) s =
    .next (if 64 < (s.slagCells cells).length then (s.auditPassed cells refs).report Dom.buffer 8
      else s.auditPassed cells refs) := by
  obtain ⟨slag, suspects, -, -⟩ := auditRun_audit s ((s.buf.auditNo + 1) % 16 == 0)
  obtain ⟨jslag, jrefs, jno⟩ := slagJudged_audit s cells refs
  have starts : ¬ (!s.datapathUp || s.quenched Dom.buffer) = true := by simp [h.up, h.runs]
  have found : (s.slagCells cells).dedup = s.slagCells cells := (h.once.filter _).dedup
  have reclaim : s.auditRan.rfld Reg.bufCtrl 1 1 = s.rfld Reg.bufCtrl 1 1 :=
    rfld_of_rget (rget_of_only (Only.auditRun0 ..) rfl _) ..
  show Host.Outcome.next (s.doSlagAuditPass cells refs) = _
  unfold doSlagAuditPass
  rw [if_neg starts]
  extract_lets e a dram cs fnd keep recl j v w x
  have all : cs = cells := by
    show (a.buf.slag ++ cells).dedup.filter _ = _
    rw [slag, h.clean, List.nil_append, h.once.dedup]
    exact filter_onChip h.onChip e
  have again : fnd = s.slagCells cells := by
    show cs.filter a.buf.suspectCells.contains = _
    rw [all, suspects, slagCells]
  have judged : j = s.slagJudged cells refs := by
    show refs.dedup.foldl refFound (fnd.foldl slagFound a) = _
    rw [h.refsOnce.dedup, again]
    rfl
  have kept : keep = [] := by
    show a.buf.suspectCells.filter _ = _
    rw [suspects]
    exact filter_dram h.suspects e
  have noted : w = (s.slagJudged cells refs).setBuf (s.auditNotes (s.slagJudged cells refs).buf cells refs) := by
    have reclaim : a.rfld Reg.bufCtrl 1 1 = s.rfld Reg.bufCtrl 1 1 := reclaim
    simp only [w, v, kept, recl, reclaim, beq_iff_eq, again, all, judged, jslag, jrefs, jno, h.clean, h.refsOnce.dedup,
      List.filter_nil, List.nil_append, found, auditNotes]
  have passed : x = s.auditPassed cells refs := by
    rw [auditPassed, auditEnds, ← noted]
  rw [again, passed]

/-! ### What an audit pass leaves -/

theorem auditEnds_only (s : State) : Only 0x1AB s s.auditEnds :=
  .gc rfl (.spillUpdate rfl (.ovfFullCheck rfl (Only.bump0 s _ |>.mono rfl)))

theorem auditEnds_buf (s : State) : s.auditEnds.buf.settled = s.buf.settled :=
  (((KeepsBuffer.ovfFullCheck _).trans (.spillUpdate _)).trans (.gc _)).rest.trans
    (congrArg Buf.settled ((Only.bump0 ..).buf rfl))

theorem auditEnds_slagCnt (s : State) : s.auditEnds.rget Reg.bufSlagCnt = s.rget Reg.bufSlagCnt :=
  ((((KeepsBuffer.ovfFullCheck _).trans (.spillUpdate _)).trans (.gc _)).regs _ (by decide) rfl).trans
    (bump_other _ _ _ rfl (by decide))

theorem auditPassed_notes (s : State) (cells refs : List Nat) :
    (s.auditPassed cells refs).buf.settled = (s.auditNotes (s.slagJudged cells refs).buf cells refs).settled :=
  auditEnds_buf _

theorem auditPassed_fnc (s : State) (cells refs : List Nat) : (s.auditPassed cells refs).fnc = s.fnc :=
  ((auditEnds_only _).fnc rfl).trans (((slagJudged_only ..).fnc rfl).trans ((Only.auditRun0 ..).fnc rfl))

theorem slagFound_count (runs : s.quenched Dom.buffer = false) (arg : Nat) :
    (s.slagFound arg).rget Reg.bufSlagCnt = s.rget Reg.bufSlagCnt + 1 := by
  have counts : s.stopped Reg.bufSlagCnt = false := runs
  rw [slagFound, raise_keepsRegs _ _ _ _ rfl, bump_rget s _ rfl rfl counts, if_pos rfl]

/-- What a pass finds for the second time is counted while the buffer domain runs. -/
theorem auditRan_slagFound (runs : s.quenched Dom.buffer = false) (arg : Nat) :
    (s.auditRan.slagFound arg).rget Reg.bufSlagCnt = s.rget Reg.bufSlagCnt + 1 := by
  have still : s.auditRan.quenched Dom.buffer = false := (quenched_of_fnc ((Only.auditRun0 ..).fnc rfl) _).trans runs
  rw [slagFound_count still, auditRan, rget_of_only (Only.auditRun0 ..) rfl]

/-- A pass that finds no cell for the second time, and no count that is too high. -/
theorem auditPassed_fresh (fresh : s.slagCells cells = []) : s.auditPassed cells [] =
    (s.auditRan.setBuf { s.auditRan.buf with
      suspectCells := cells, suspectRefs := [], slag := [], auditNo := s.buf.auditNo + 1 }).auditEnds := by
  have judged : s.slagJudged cells [] = s.auditRan := by
    rw [slagJudged, fresh]
    rfl
  have rest : (cells.filter fun c => !([] : List Nat).contains c) = cells := List.filter_eq_self.2 fun _ _ => rfl
  rw [auditPassed, judged, auditNotes, fresh, rest, ite_self, ite_self]
  rfl

/-- What a pass remembers of one cell that it finds for the second time. -/
theorem auditPassed_again {a : Nat} (again : s.slagCells [a] = [a]) :
    (s.auditPassed [a] []).buf.slag = (if s.rfld Reg.bufCtrl 1 1 = 1 then [] else [a]) ∧
      (s.auditPassed [a] []).buf.suspectCells = (if s.rfld Reg.bufCtrl 1 1 = 1 then [] else [a]) ∧
      (s.auditPassed [a] []).buf.auditNo = s.buf.auditNo + 1 := by
  have given : ([a].filter fun c => !([a].contains c)) = [] := by simp
  obtain ⟨slag, suspects, number⟩ := Buf.settled_fields (auditPassed_notes s [a] [])
  rw [slag, suspects, number, auditNotes, again, given]
  exact ⟨rfl, rfl, rfl⟩

/-- A pass that finds one cell for the second time counts it. -/
theorem auditPassed_cell {a : Nat} (runs : s.quenched Dom.buffer = false) (again : s.slagCells [a] = [a]) :
    (s.auditPassed [a] []).rget Reg.bufSlagCnt = s.rget Reg.bufSlagCnt + 1 := by
  have judged : s.slagJudged [a] [] = s.auditRan.slagFound a := by rw [slagJudged, again]; rfl
  rw [auditPassed, auditEnds_slagCnt, judged]
  exact auditRan_slagFound runs a

/-- A pass that finds one count too high for the second time counts it and puts it right. -/
theorem auditPassed_ref (runs : s.quenched Dom.buffer = false) (again : s.buf.suspectRefs = [r]) :
    (s.auditPassed [] [r]).rget Reg.bufSlagCnt = s.rget Reg.bufSlagCnt + 1 ∧
      ∀ g ∈ (s.auditPassed [] [r]).fr.frames, g.fid = r → g.refExtra = 0 := by
  obtain ⟨-, -, noted, -⟩ := auditRun_audit s ((s.buf.auditNo + 1) % 16 == 0)
  have known : s.auditRan.buf.suspectRefs.contains r = true := by
    rw [auditRan, noted, again]
    simp
  have judged : s.slagJudged [] [r] =
      (s.auditRan.slagFound (2 ^ 31 + r % 2 ^ 31)).fmod r fun f => { f with refExtra := 0 } := if_pos known
  constructor
  · rw [auditPassed, auditEnds_slagCnt, judged]
    exact auditRan_slagFound runs _
  · rw [auditPassed, auditEnds, judged]
    refine forall_frames_gc (fun _ h => h) (fun _ h => h) ?_
    rw [(Only.spillUpdate0 _).fr rfl, (Only.ovfFullCheck0 _).fr rfl, (Only.bump0 ..).fr rfl]
    intro x hx
    obtain ⟨y, -, rfl⟩ := List.mem_map.1 hx
    split
    next => exact fun _ => rfl
    next other => exact fun here => absurd (beq_iff_eq.2 here) other

end State

open State

/-- Settles O37, from the equation of each row: an audit pass counts what it and the pass before it have found, and the
release of cells at its end leaves what it remembers. -/
theorem overflowMemory : Obligations.OverflowMemory := by
  refine ⟨fun s up buffer memory => ⟨?spill, ?drain, ?read, ⟨rfl, schedApply_fits, schedApply_short⟩,
    rfl, ovfApply_free, ovfApply_held⟩, fun s up runs clean => ?audit⟩
  case spill =>
    rintro w c f rfl spills pick frame
    exact exec_spillFrame up buffer memory spills pick frame
  case drain =>
    intro i p k c queue linked first near
    exact exec_drainBack up buffer memory queue linked first near
  case read =>
    rintro i p k c u queue first rfl
    constructor
    · rw [exec_drainReadComplete queue first, if_pos rfl]
    · rw [exec_drainReadComplete queue first, if_neg Bool.false_ne_true]
  case audit =>
    have pass {cells refs : List Nat} (suspects : ∀ c ∈ s.buf.suspectCells, c < 2 ^ 31)
        (onChip : ∀ c ∈ cells, c < 2 ^ 31) (once : cells.Nodup) (refsOnce : refs.Nodup) : s.Audits cells refs :=
      ⟨up, runs, clean, suspects, onChip, once, refsOnce⟩
    refine ⟨?fresh, ?again, ?count, ?many⟩
    case fresh =>
      rintro u cells noCells - rfl onChip once
      have fresh : s.slagCells cells = [] := by simp [slagCells, noCells]
      rw [exec_slagAuditPass (pass (by simp [noCells]) onChip once .nil), fresh, auditPassed_fresh fresh]
      rfl
    case again =>
      intro a suspect _ onChip
      have found : s.slagCells [a] = [a] := by simp [slagCells, suspect]
      obtain ⟨slag, suspects, number⟩ := auditPassed_again found
      refine ⟨s.auditPassed [a] [], ?_, slag, suspects, number, auditPassed_cell runs found,
        congrArg Fnc.reports (auditPassed_fnc ..)⟩
      have low : ∀ c ∈ [a], c < 2 ^ 31 := by simpa using onChip
      rw [exec_slagAuditPass (pass (suspect ▸ low) low (List.nodup_singleton a) .nil), found]
      rfl
    case count =>
      intro r f noCells suspect known
      obtain ⟨count, right⟩ := auditPassed_ref runs suspect
      refine ⟨s.auditPassed [] [r], ?_, right, count⟩
      rw [exec_slagAuditPass (pass (by simp [noCells]) (by simp) .nil (List.nodup_singleton r))]
      rfl
    case many =>
      rintro cells suspect onChip once many
      have found : s.slagCells cells = cells := by
        rw [slagCells, suspect]
        exact List.filter_eq_self.2 fun c hc => List.contains_iff_mem.2 hc
      refine ⟨s.auditPassed cells [], ?_⟩
      rw [exec_slagAuditPass (pass (suspect ▸ onChip) onChip once .nil), found, if_pos many]

end Sys2Proof.Machine
end

section
/-! Pause frames (R263, R265) and the repeated XOFF (R264). -/

namespace Sys2Proof.Machine

namespace State

variable {s t u : State} {p k q n : Nat} {l : List Nat}

/-! ### Pauses -/

theorem quantaNs_of_rate (same : (t.bport p).rate = (s.bport p).rate) (n : Nat) : t.quantaNs p n = s.quantaNs p n := by
  simp only [quantaNs, portRate, same]

/-- When the pause of a queue for `n` quanta that begins now ends: at once for none. -/
def pauseEnd (s : State) (p n : Nat) : Option Nat := if n = 0 then none else some (s.clk + s.quantaNs p n)

/-- The queues of a list that are not scheduled are paused for `n` quanta, or go on with none. -/
structure Pauses (p n : Nat) (l : List Nat) (s t : State) : Prop where
  clk : t.clk = s.clk
  fr : t.fr = s.fr
  cal : t.cal = s.cal
  rate : (t.bport p).rate = (s.bport p).rate
  others : ∀ k, k ≠ p → t.bport k = s.bport k
  queue : ∀ k, aget (t.bport p).paused k =
    if k ∈ l ∧ s.isScheduled p k = false then s.pauseEnd p n else aget (s.bport p).paused k

theorem Pauses.cons (one : Pauses p n [q] s t) (rest : Pauses p n l t u) : Pauses p n (q :: l) s u where
  clk := rest.clk.trans one.clk
  fr := rest.fr.trans one.fr
  cal := rest.cal.trans one.cal
  rate := rest.rate.trans one.rate
  others k hk := (rest.others k hk).trans (one.others k hk)
  queue k := by
    have ends : t.pauseEnd p n = s.pauseEnd p n := by
      rw [pauseEnd, pauseEnd, one.clk, quantaNs_of_rate one.rate]
    rw [rest.queue, one.queue, isScheduled_of_cal one.cal, ends]
    by_cases scheduled : s.isScheduled p k = false <;> by_cases later : k ∈ l <;> simp [scheduled, later]

theorem pauseQueue_scheduled (h : s.isScheduled p q = true) : s.pauseQueue p n q = s.bump Reg.bufPauseIgnoredCnt :=
  if_pos h

theorem pauseQueue_free (h : s.isScheduled p q = false) : s.pauseQueue p n q = s.bportMod p fun b =>
    { b with paused := if n = 0 then adel b.paused q else aset b.paused q (s.clk + s.quantaNs p n) } := by
  rw [pauseQueue, h, if_neg Bool.false_ne_true]
  split <;> rfl

theorem pauseQueue_pauses (s : State) (p n q : Nat) : Pauses p n [q] s (s.pauseQueue p n q) := by
  cases scheduled : s.isScheduled p q with
  | true =>
    have counted := Only.bump0 s Reg.bufPauseIgnoredCnt
    have ports := bport_of_buf (counted.buf rfl)
    rw [pauseQueue_scheduled scheduled]
    refine ⟨counted.clk rfl, counted.fr rfl, counted.cal rfl, congrArg _ (ports p), fun k _ => ports k, fun k => ?_⟩
    rw [ports, if_neg]
    rintro ⟨here, free⟩
    rw [List.mem_singleton.1 here, scheduled] at free
    cases free
  | false =>
    rw [pauseQueue_free scheduled]
    refine ⟨rfl, rfl, rfl, ?_, fun k => bport_bportMod_other, fun k => ?_⟩
    · rw [bport_bportMod_same]
    · rw [bport_bportMod_same, pauseEnd]
      dsimp only
      by_cases here : k = q
      · subst here
        rw [if_pos (c := k ∈ [k] ∧ _) ⟨List.mem_singleton.2 rfl, scheduled⟩]
        split
        · exact aget_adel_same ..
        · exact aget_aset_same ..
      · rw [if_neg (c := k ∈ [q] ∧ _) fun h => here (List.mem_singleton.1 h.1)]
        split
        · exact aget_adel_other _ here
        · exact aget_aset_other _ _ here

theorem pauseQueues_pauses (p n : Nat) (l : List Nat) (s : State) :
    Pauses p n l s (l.foldl (fun t q => t.pauseQueue p n q) s) := by
  induction l generalizing s with
  | nil => exact ⟨rfl, rfl, rfl, rfl, fun _ _ => rfl, fun k => by simp⟩
  | cons q r ih => exact (pauseQueue_pauses s p n q).cons (ih _)

/-! ### A pause frame is received (R263, R265) -/

/-- A port receives a pause frame: it is an external one, and up. -/
structure Pausable (s : State) (p : Nat) : Prop where
  port : p < 64
  up : s.portDown p = false

/-- The flow control mode of a port; the ports from 48 on have none. -/
def fcMode (s : State) (p : Nat) : Nat := if p < 48 then s.rfld (Reg.bufPortFc p) 0 2 else 0

theorem fcMode_ne {m : Nat} (some : m ≠ 0) (h : 48 ≤ p ∨ s.rfld (Reg.bufPortFc p) 0 2 ≠ m) : s.fcMode p ≠ m := by
  rw [fcMode]
  split
  · exact h.resolve_left (by omega)
  · exact some.symm

theorem fcMode_stat (s : State) (p fld : Nat) : (s.stat p fld).fcMode p = s.fcMode p := by
  have counter (h : p < 48) : eventReg (Reg.bufPortFc p) = false := by
    simp only [eventReg, Reg.bufPortFc, Bool.or_eq_false_iff, beq_eq_false_iff_ne]
    omega
  rw [fcMode, fcMode]
  split
  next h =>
    exact rfld_of_rget ((KeepsBuffer.stat s p fld).regs _ (by unfold Reg.bufPortFc; omega) (counter h)) ..
  next => rfl

theorem exec_pauseFrameReceived (h : s.Pausable p) (kind : PauseKind) : exec (.pauseFrameReceived p kind) s =
    .next (match kind with
      | .pause n => if s.fcMode p = 1 then
          (List.range 8).foldl (fun t q => t.pauseQueue p (n % 65536) q) (s.stat p Reg.statRxPause)
        else s.stat p Reg.statRxPause
      | .pfc en qs => if s.fcMode p ≠ 2 then s.stat p Reg.statRxPause
        else (List.range 8).foldl (fun t pri =>
          if bit en pri then t.pauseQueue p (qs.getD pri 0 % 65536) (bits (t.tport p).pcpMap (3 * pri) 3) else t)
          (s.stat p Reg.statRxPause)) := by
  have taken : ¬ (decide (64 ≤ p) || s.portDown p) = true := by simp [h.up, h.port]
  rw [← fcMode_stat s p Reg.statRxPause]
  show Host.Outcome.next (s.doPauseFrameReceived p kind) = _
  unfold doPauseFrameReceived
  rw [if_neg taken]
  cases kind <;> rfl

/-- What an 802.3x pause does at a port in mode 1: its quanta are 16 bits. -/
theorem exec_pause (h : s.Pausable p) (mode : s.fcMode p = 1) (n : Nat) :
    ∃ t, exec (.pauseFrameReceived p (.pause n)) s = .next t ∧ Pauses p (n % 65536) (List.range 8) s t := by
  have counted := Only.stat0 s p Reg.statRxPause
  have ports := bport_of_buf (counted.buf rfl)
  obtain ⟨clk, fr, cal, rate, others, queue⟩ :=
    pauseQueues_pauses p (n % 65536) (List.range 8) (s.stat p Reg.statRxPause)
  refine ⟨_, (exec_pauseFrameReceived h _).trans (congrArg _ (if_pos mode)), clk.trans (counted.clk rfl),
    fr.trans (counted.fr rfl), cal.trans (counted.cal rfl), rate.trans (congrArg _ (ports p)),
    fun k hk => (others k hk).trans (ports k), fun k => ?_⟩
  rw [queue, isScheduled_of_cal (counted.cal rfl), ports, pauseEnd, pauseEnd, counted.clk rfl,
    quantaNs_of_rate (congrArg _ (ports p))]

/-! ### The end of a pause, and XOFF again (R263, R264) -/

theorem exec_pauseExpiry {e : Nat} (h : aget (s.bport p).paused q = some e) : exec (.pauseExpiry p q) s =
    .next ((s.waitUntil e).bportMod p fun b => { b with paused := adel b.paused q }) := by
  show Host.Outcome.next (s.doPauseExpiry p q) = _
  unfold doPauseExpiry
  rw [h]

theorem exec_xoffRepeat (up : s.portDown p = false) (port : p < 48) (on : q ∈ (s.bport p).xoff)
    (hn : n = s.rfld (Reg.bufPortFc p) 16 16)
    (hu : u = (s.waitUntil (agetD (s.bport p).xoffAt q s.clk + s.quantaNs p n / 2)).flowOne p q) :
    exec (.xoffRepeat p q) s = .next (if (u.bport p).xoff.contains q then
      (u.bportMod p fun b => { b with xoffAt := aset b.xoffAt q u.clk }).sendPause p q n else u) := by
  have due : ¬ (decide (48 ≤ p) || s.portDown p || !(s.bport p).xoff.contains q) = true := by
    simp [up, port, on]
  subst hn hu
  show Host.Outcome.next (s.doXoffRepeat p q) = _
  unfold doXoffRepeat
  rw [if_neg due]

end State

open State

/-- Settles O38: a pause frame is judged by the mode of its port, and changes the pauses of queues that are not scheduled
alone. -/
theorem flowControl : Obligations.FlowControl := by
  intro s p up
  have ready (h : p < 64) : s.Pausable p := ⟨h, up⟩
  refine ⟨?free, ?scheduled, ?notPause, ?notPfc, ?pfc, ?expiry, fun pri n u port on => exec_xoffRepeat up port on⟩
  case free =>
    intro n port mode free
    obtain ⟨t, next, pauses⟩ := exec_pause (ready (by omega)) ((if_pos port).trans mode) n
    refine ⟨t, next, fun k hk => ?_, pauses.others, pauses.clk, pauses.fr⟩
    rw [pauses.queue, if_pos ⟨List.mem_range.2 hk, free k hk⟩, pauseEnd]
  case scheduled =>
    intro k port mode hk scheduled n
    obtain ⟨t, next, pauses⟩ := exec_pause (ready (by omega)) ((if_pos port).trans mode) n
    refine ⟨t, next, ?_⟩
    rw [pauses.queue, if_neg (by simp [scheduled])]
  case notPause =>
    intro n port other
    rw [exec_pauseFrameReceived (ready port)]
    exact congrArg _ (if_neg (fcMode_ne (by decide) other))
  case notPfc =>
    intro en qs port other
    rw [exec_pauseFrameReceived (ready port)]
    exact congrArg _ (if_pos (fcMode_ne (by decide) other))
  case pfc =>
    intro en qs port mode
    rw [exec_pauseFrameReceived (ready (by omega))]
    exact congrArg _ (if_neg (not_not.2 ((if_pos port).trans mode)))
  case expiry =>
    intro k e paused
    have waited := bport_of_buf (waitUntil_buf s e)
    refine ⟨_, exec_pauseExpiry paused, rfl, ?_, fun j hj => ?_, fun j hj => ?_,
      .bportMod rfl ((Only.waitUntil0 s e).mono rfl)⟩
    · rw [bport_bportMod_same]
      exact aget_adel_same ..
    · rw [bport_bportMod_same, waited]
      exact aget_adel_other _ hj
    · rw [bport_bportMod_other hj, waited]

end Sys2Proof.Machine
end

section
/-! Ports that go down, hold and come up again (R266 to R269, R587): which copies go, and what the port holds. -/

namespace Sys2Proof.Machine

namespace State

variable {s t u : State} {p k r code : Nat} {c d : Copy} {l : List Copy} {sched : Bool}

/-! ### Timestamps and discarded copies -/

theorem tsqWrite_rget {g o : Nat} (ho : o ≠ Reg.hifTsqProd g) (id port flags ns sec : Nat) :
    (s.tsqWrite g id port flags ns sec).rget o = s.rget o := by
  unfold tsqWrite
  extract_lets k t u
  have written : u.rget o = s.rget o := (rget_rset_other _ _ ho).trans (hostMem_rget ..)
  split
  · exact (signal_rget ..).trans written
  · exact written

theorem tsqPut_rget {g o : Nat} (prod : o ≠ Reg.hifTsqProd g) (lost : o ≠ Reg.hifTsqLostCnt g) (ho : eventReg o = false)
    (id port flags ns sec : Nat) : (s.tsqPut g id port flags ns sec).rget o = s.rget o := by
  have gap (t : State) : (t.tsqGap g).rget o = t.rget o := by
    unfold tsqGap
    dsimp only
    split
    · exact tsqWrite_rget prod ..
    · rfl
  unfold tsqPut
  refine (gap _).trans ?_
  split
  · exact bump_other _ _ o ho lost
  · exact tsqWrite_rget prod ..

theorem discardCopy_rget {o : Nat} (queues : ∀ g, o ≠ Reg.hifTsqProd g ∧ o ≠ Reg.hifTsqLostCnt g)
    (ho : eventReg o = false) (c : Copy) : (s.discardCopy c).rget o = s.rget o := by
  have taken := rget_of_only (Only.takeCopy0 s c.fid c.port) rfl o
  unfold discardCopy tsDiscard
  split
  · exact taken
  · split
    · exact taken
    · split
      · exact (tsqPut_rget (queues _).1 (queues _).2 ho ..).trans taken
      · exact taken

theorem pathLost_rget {o : Nat} (count : o ≠ Reg.calPathLostCnt) (ho : eventReg o = false) (fid egress : Nat) :
    (s.pathLost fid egress).rget o = s.rget o := by
  unfold pathLost
  split
  · rfl
  · dsimp only
    split
    · exact (raise_keepsRegs _ _ _ o ho).trans (bump_other _ _ o ho count)
    · rfl

theorem discardCopy_copies (s : State) (c : Copy) :
    (s.discardCopy c).fr.copies = s.fr.copies.filter fun d => !(d.fid == c.fid && d.port == c.port) := by
  rw [← takeCopy_copies]
  unfold discardCopy
  split
  · rfl
  · rw [(Only.tsDiscard0 ..).fr rfl]

/-! ### Copies lost with their port (R266, R268, R269) -/

/-- A copy is discarded and counted, and its path is gone. -/
def lostCopy (r p : Nat) (s : State) (c : Copy) : State := ((s.discardCopy c).bump r).pathLost c.fid p

/-- Several of them. -/
def lostCopies (r p : Nat) (l : List Copy) (s : State) : State := l.foldl (lostCopy r p) s

theorem lostCopy_only (r p : Nat) (s : State) (c : Copy) : Only 0x2AB s (lostCopy r p s c) :=
  .pathLost rfl (.bump rfl (.discardCopy rfl (.refl _ s)))

theorem lostCopies_only (r p : Nat) (l : List Copy) (s : State) : Only 0x2AB s (lostCopies r p l s) :=
  .foldl (fun u c h => h.step (lostCopy_only r p u c) rfl) (.refl _ s)

theorem mem_lostCopies : d ∈ (lostCopies r p l s).fr.copies ↔
    d ∈ s.fr.copies ∧ ∀ c ∈ l, ¬(d.fid = c.fid ∧ d.port = c.port) := by
  induction l generalizing s with
  | nil => simp [lostCopies]
  | cons c l ih =>
    have one : (lostCopy r p s c).fr.copies = s.fr.copies.filter fun d => !(d.fid == c.fid && d.port == c.port) := by
      rw [← discardCopy_copies]
      exact congrArg Frames.copies (((Only.pathLost0 ..).fr rfl).trans ((Only.bump0 ..).fr rfl))
    refine (ih (s := lostCopy r p s c)).trans ?_
    rw [one, List.mem_filter, List.forall_mem_cons, and_assoc]
    simp only [Bool.not_eq_true', ← Bool.not_eq_true, Bool.and_eq_true, beq_iff_eq]

theorem lostCopies_hold (p k : Nat) (l : List Copy) (s : State) :
    (lostCopies Reg.bufLinkdownDropCnt p l s).rget (Reg.bufPortHold k) = s.rget (Reg.bufPortHold k) := by
  have event : eventReg (Reg.bufPortHold k) = false := by
    simp only [eventReg, Reg.bufPortHold, Bool.or_eq_false_iff, beq_eq_false_iff_ne]
    omega
  have queues (g : Nat) : Reg.bufPortHold k ≠ Reg.hifTsqProd g ∧ Reg.bufPortHold k ≠ Reg.hifTsqLostCnt g := by
    unfold Reg.bufPortHold Reg.hifTsqProd Reg.hifTsqLostCnt
    omega
  induction l generalizing s with
  | nil => rfl
  | cons c l ih =>
    calc (lostCopies Reg.bufLinkdownDropCnt p l (lostCopy Reg.bufLinkdownDropCnt p s c)).rget (Reg.bufPortHold k)
      _ = (lostCopy Reg.bufLinkdownDropCnt p s c).rget (Reg.bufPortHold k) := ih _
      _ = ((s.discardCopy c).bump Reg.bufLinkdownDropCnt).rget (Reg.bufPortHold k) :=
        pathLost_rget (by unfold Reg.bufPortHold Reg.calPathLostCnt; omega) event ..
      _ = (s.discardCopy c).rget (Reg.bufPortHold k) :=
        bump_other _ _ _ event (by unfold Reg.bufPortHold Reg.bufLinkdownDropCnt; omega)
      _ = s.rget (Reg.bufPortHold k) := discardCopy_rget queues event c

/-! ### A port stops (R266) -/

/-- The copies on a port's lane are lost. -/
def laneLost (s : State) (p : Nat) : State :=
  lostCopies Reg.bufLinkdownDropCnt p (s.fr.copies.filter fun c => c.port == p && (c.onLane || c.preempted))
    (s.cbsUpdate p)

theorem laneLost_only (s : State) (p : Nat) : Only 0x2AB s (s.laneLost p) :=
  (Only.cbsUpdate0 s p).mono rfl |>.step (lostCopies_only ..) rfl

theorem mem_laneLost : d ∈ (s.laneLost p).fr.copies ↔ d ∈ s.fr.copies ∧ ∀ c ∈ s.fr.copies, c.port = p →
    (c.onLane = true ∨ c.preempted = true) → ¬(d.fid = c.fid ∧ d.port = c.port) := by
  rw [laneLost, mem_lostCopies, (Only.cbsUpdate0 s p).fr rfl]
  simp only [List.mem_filter, Bool.and_eq_true, Bool.or_eq_true, beq_iff_eq, and_imp]

/-- A port's queues hold for `hs` and `hb` ms from now, and its preemption is not verified any more. -/
def holds (s : State) (p hs hb : Nat) : State :=
  (s.bportMod p fun b =>
    { b with schedHold := some (s.clk + 1000000 * hs), beHold := some (s.clk + 1000000 * hb) }).tportMod p
      fun x => { x with verify := 0, verifySent := 0, hold := false }

/-- The hold times of a port are in their range, and none is 0. -/
structure HoldTimes (s : State) (p hs hb : Nat) : Prop where
  sched : s.rfld (Reg.bufPortHold p) 0 4 = hs
  be : s.rfld (Reg.bufPortHold p) 8 7 = hb
  schedRange : 1 ≤ hs ∧ hs ≤ 10
  beRange : 1 ≤ hb ∧ hb ≤ 100

theorem inRange_of_mem {v hi : Nat} (h : v ≤ hi) : inRange v 0 hi = v := by
  rw [inRange]
  omega

theorem portStop_eq {hs hb : Nat} (h : s.HoldTimes p hs hb) : s.portStop p = ((s.laneLost p).holds p hs hb).gc := by
  obtain ⟨sched, be, ⟨hs1, hs2⟩, hb1, hb2⟩ := h
  have reg : (s.laneLost p).rget (Reg.bufPortHold p) = s.rget (Reg.bufPortHold p) :=
    (lostCopies_hold ..).trans (rget_of_only (Only.cbsUpdate0 s p) rfl _)
  have ms : inRange ((s.laneLost p).rfld (Reg.bufPortHold p) 0 4) 0 10 = hs := by
    rw [rfld_of_rget reg, sched, inRange_of_mem hs2]
  have mb : inRange ((s.laneLost p).rfld (Reg.bufPortHold p) 8 7) 0 100 = hb := by
    rw [rfld_of_rget reg, be, inRange_of_mem hb2]
  unfold portStop
  change State.gc (if inRange ((s.laneLost p).rfld (Reg.bufPortHold p) 8 7) 0 100 = 0 then _ else
    if inRange ((s.laneLost p).rfld (Reg.bufPortHold p) 0 4) 0 10 = 0 then _ else
      (s.laneLost p).holds p (inRange ((s.laneLost p).rfld (Reg.bufPortHold p) 0 4) 0 10)
        (inRange ((s.laneLost p).rfld (Reg.bufPortHold p) 8 7) 0 100)) = _
  rw [ms, mb, if_neg (by omega), if_neg (by omega)]

/-! ### The link goes down -/

theorem exec_portLinkDown (port : p < 64) (up : (s.bport p).linkUp = true) : exec (.portLinkDown p) s =
    .next (if s.portDown p then (s.bportMod p fun b => { b with linkUp := false }).cutArriving p
      else ((s.bportMod p fun b => { b with linkUp := false }).cutArriving p).portStop p) := by
  have linked : ¬ (decide (64 ≤ p) || !(s.bport p).linkUp) = true := by simp [up, port]
  show Host.Outcome.next (s.doPortLinkDown p) = _
  unfold doPortLinkDown
  rw [if_neg linked]

theorem exec_portLinkDown_down (down : (s.bport p).linkUp = false) : exec (.portLinkDown p) s = .next s := by
  show Host.Outcome.next (s.doPortLinkDown p) = _
  unfold doPortLinkDown
  rw [if_pos (by simp [down])]

theorem cutArriving_idle (h : ∀ f ∈ s.fr.frames, f.src = p → f.complete = true) : s.cutArriving p = s := by
  have none : (s.fr.frames.find? fun f => f.src == p && !f.complete) = none :=
    List.find?_eq_none.2 fun f hf => by simpa using h f hf
  rw [cutArriving, none]

/-- The link of a port is down, and what was on its lane is gone (R266). -/
def linkLost (s : State) (p hs hb : Nat) : State :=
  (((s.bportMod p fun b => { b with linkUp := false }).laneLost p).holds p hs hb).gc

theorem exec_portLinkDown_stops {hs hb : Nat} (port : p < 64) (up : (s.bport p).linkUp = true)
    (runs : s.portDown p = false) (idle : ∀ f ∈ s.fr.frames, f.src = p → f.complete = true) (h : s.HoldTimes p hs hb) :
    exec (.portLinkDown p) s = .next (s.linkLost p hs hb) := by
  have times : (s.bportMod p fun b => { b with linkUp := false }).HoldTimes p hs hb :=
    ⟨h.sched, h.be, h.schedRange, h.beRange⟩
  rw [exec_portLinkDown port up, runs, if_neg Bool.false_ne_true, cutArriving_idle (s := s.bportMod p _) idle,
    portStop_eq times]
  rfl

theorem linkLost_clk (s : State) (p hs hb : Nat) : (s.linkLost p hs hb).clk = s.clk :=
  ((Only.gc0 _).clk rfl).trans ((laneLost_only (s.bportMod p _) p).clk rfl)

theorem linkLost_bport (s : State) (p hs hb : Nat) : ((s.linkLost p hs hb).bport p).unpaced =
    { s.bport p with
      linkUp := false, schedHold := some (s.clk + 1000000 * hs),
      beHold := some (s.clk + 1000000 * hb) : BufPort }.unpaced := by
  have lost := laneLost_only (s.bportMod p fun b => { b with linkUp := false }) p
  have port : (((s.bportMod p fun b => { b with linkUp := false }).laneLost p).holds p hs hb).bport p = _ :=
    bport_bportMod_same ..
  rw [linkLost, (KeepsBuffer.gc _).port, port, bport_of_buf (lost.buf rfl), bport_bportMod_same, lost.clk rfl]
  rfl

theorem mem_linkLost (s : State) (p hs hb : Nat) (d : Copy) : d ∈ (s.linkLost p hs hb).fr.copies ↔
    d ∈ s.fr.copies ∧ ∀ c ∈ s.fr.copies, c.port = p → (c.onLane = true ∨ c.preempted = true) →
      ¬(d.fid = c.fid ∧ d.port = c.port) := by
  rw [linkLost, gc_copies]
  exact mem_laneLost (s := s.bportMod p _)

/-! ### The end of a hold (R268) -/

theorem exec_drainHoldEnd {e : Nat} (h : (if sched then (s.bport p).schedHold else (s.bport p).beHold) = some e) :
    exec (.drainHoldEnd p sched) s = .next ((s.waitUntil e).holdEnd p sched) := by
  show Host.Outcome.next (s.doDrainHoldEnd p sched) = _
  unfold doDrainHoldEnd
  rw [h]

/-- A port without one of its two holds. -/
def unheld (sched : Bool) (b : BufPort) : BufPort :=
  if sched then { b with schedHold := none } else { b with beHold := none }

theorem holdDiscard_eq (s : State) (p : Nat) (sched : Bool) : (s.holdDiscard p sched).2 =
    (lostCopies Reg.bufHoldDiscardCnt p
      (s.fr.copies.filter fun c => c.port == p && s.isScheduled p c.queue == sched) s).gc := rfl

theorem holdEnd_copies (h : c ∈ (s.holdEnd p sched).fr.copies) : ¬(c.port = p ∧ s.isScheduled p c.queue = sched) := by
  unfold holdEnd at h
  rw [(Only.raise0 ..).fr rfl, holdDiscard_eq, gc_copies, mem_lostCopies] at h
  obtain ⟨known, others⟩ := h
  rintro ⟨here, queue⟩
  refine others c (List.mem_filter.2 ⟨known, ?_⟩) ⟨rfl, rfl⟩
  show (c.port == p && s.isScheduled p c.queue == sched) = true
  rw [here, queue, beq_self_eq_true, beq_self_eq_true, Bool.and_self]

theorem holdEnd_hold (s : State) (p : Nat) (sched : Bool) :
    (if sched then ((s.holdEnd p sched).bport p).schedHold else ((s.holdEnd p sched).bport p).beHold) = none := by
  have port : ((s.holdEnd p sched).bport p).unpaced = (unheld sched (s.bport p)).unpaced := by
    unfold holdEnd
    rw [bport_of_buf ((Only.raise0 ..).buf rfl), holdDiscard_eq, (KeepsBuffer.gc _).port,
      bport_of_buf ((lostCopies_only ..).buf rfl), bport_bportMod_same]
    rfl
  obtain ⟨-, -, schedHold, beHold⟩ := BufPort.unpaced_fields port
  cases sched
  · exact beHold
  · exact schedHold

/-! ### The link comes up (R269, R587) -/

/-- A port's link comes up at a rate. -/
def linked (s : State) (p code : Nat) : State :=
  ((s.cbsUpdate p).bportMod p fun b => { b with linkUp := true, rate := code }).hostResync p

theorem exec_portLinkUp (port : p < 64) (down : (s.bport p).linkUp = false) (allowed : rateAllowed p code = true)
    (up : s.datapathUp = true) : exec (.portLinkUp p code) s = .next (if s.quenched (portUnit p) then s.linked p code
      else ((s.linked p code).portResume p).verifyStart p) := by
  have comes : ¬ (decide (64 ≤ p) || (s.bport p).linkUp || !rateAllowed p code || !s.datapathUp) = true := by
    simp [down, port, allowed, up]
  have same : (s.linked p code).fnc = s.fnc := (Only.hostResync0 ..).fnc rfl
  show Host.Outcome.next (s.doPortLinkUp p code) = _
  unfold doPortLinkUp
  rw [if_neg comes, ← quenched_of_fnc same]
  rfl

theorem exec_portLinkUp_refused (refused : rateAllowed p code = false) : exec (.portLinkUp p code) s = .next s := by
  show Host.Outcome.next (s.doPortLinkUp p code) = _
  unfold doPortLinkUp
  rw [if_pos (by simp [refused])]

theorem linked_bport_same (s : State) (p code : Nat) :
    (s.linked p code).bport p = { s.bport p with linkUp := true, rate := code } := by
  rw [linked, bport_of_buf ((Only.hostResync0 ..).buf rfl), bport_bportMod_same,
    bport_of_buf ((Only.cbsUpdate0 ..).buf rfl)]

theorem linked_bport_other (h : k ≠ p) : (s.linked p code).bport k = s.bport k := by
  rw [linked, bport_of_buf ((Only.hostResync0 ..).buf rfl), bport_bportMod_other h,
    bport_of_buf ((Only.cbsUpdate0 ..).buf rfl)]

theorem portResume_bport (s : State) (p : Nat) : ((s.portResume p).bport p).unpaced =
    { s.bport p with schedHold := none, beHold := none : BufPort }.unpaced := by
  unfold portResume
  extract_lets t late
  show (((lostCopies Reg.bufHoldDiscardCnt p (t.fr.copies.filter late) t).gc).bport p).unpaced = _
  rw [(KeepsBuffer.gc _).port, bport_of_buf ((lostCopies_only ..).buf rfl), bport_bportMod_same]

end State

open State

/-- Settles O39, from the equation of each row: a discard takes the copies it names alone, and the release of frames
leaves the links, rates and holds of the ports. -/
theorem portLinks : Obligations.PortLinks := by
  intro s p port
  refine ⟨exec_portLinkDown port, ?lost, ?hold, ?up, fun code => exec_portLinkUp_refused, exec_portLinkDown_down⟩
  case lost =>
    intro up runs idle hs1 hs2 hb1 hb2
    obtain ⟨link, -, sched, be⟩ := BufPort.unpaced_fields
      (linkLost_bport s p (s.rfld (Reg.bufPortHold p) 0 4) (s.rfld (Reg.bufPortHold p) 8 7))
    refine ⟨_, exec_portLinkDown_stops port up runs idle ⟨rfl, rfl, ⟨hs1, hs2⟩, hb1, hb2⟩, link, sched, be,
      fun c hc => ?_, fun c hc away => ?_, linkLost_clk ..⟩
    · obtain ⟨known, others⟩ := (mem_linkLost ..).1 hc
      exact ⟨known, fun ⟨here, lane⟩ => others c known here lane ⟨rfl, rfl⟩⟩
    · exact (mem_linkLost ..).2 ⟨hc, fun d _ here _ same => away (same.2.trans here)⟩
  case hold =>
    rintro sched e u due rfl
    exact ⟨exec_drainHoldEnd due, fun c => holdEnd_copies, holdEnd_hold ..⟩
  case up =>
    rintro code u down allowed up hu
    obtain rfl : u = s.linked p code := hu
    have here := linked_bport_same s p code
    obtain ⟨link, rate, sched, be⟩ := BufPort.unpaced_fields (portResume_bport (s.linked p code) p)
    exact ⟨exec_portLinkUp port down allowed up, congrArg BufPort.linkUp here, congrArg BufPort.rate here,
      link.trans (congrArg BufPort.linkUp here), rate.trans (congrArg BufPort.rate here), sched, be,
      fun k => linked_bport_other⟩

end Sys2Proof.Machine
end

section
/-! Hold ahead of a gate entry, the verification of preemption, and the fairness audit (R284, R289, R295). -/

namespace Sys2Proof.Machine

namespace State

variable {s : State} {p k left w : Nat} {e : GateEntry}

/-! ### Queuing state of a port -/

@[simp] theorem tport_tportMod_same (s : State) (p : Nat) (f : TrfPort → TrfPort) :
    (s.tportMod p f).tport p = f (s.tport p) := by
  show agetD (aset s.trf.ports p _) p {} = _
  rw [agetD, aget_aset_same]
  rfl

theorem tport_tportMod_other {f : TrfPort → TrfPort} (h : k ≠ p) : (s.tportMod p f).tport k = s.tport k := by
  show agetD (aset s.trf.ports p _) k {} = _
  rw [agetD, aget_aset_other _ _ h]
  rfl

/-! ### Hold (R289) -/

theorem hasMerge_of_mmActive (h : s.mmActive p = true) : hasMerge p = true := by
  simp only [mmActive, Bool.and_eq_true] at h
  exact h.1.1.1

theorem exec_macHoldAssert (active : s.mmActive p = true)
    (nearest : (sortOn (·.1) (s.entriesAhead p)).head? = some (left, e)) : exec (.macHoldAssert p) s =
      .next (if e.op % 4 = 1 ∧ !(s.tport p).hold then
        ((s.waitUntil (s.clk + (left - (s.tport p).holdAdvance))).tportMod p fun x => { x with hold := true }).bump
          (Reg.trfMmHoldCnt p) else s) := by
  have merges : ¬ (!hasMerge p || !s.mmActive p) = true := by simp [active, hasMerge_of_mmActive active]
  show Host.Outcome.next (s.doMacHoldAssert p) = _
  unfold doMacHoldAssert
  rw [if_neg merges, nearest]

/-! ### Verification (R295) -/

/-- A port's verification waits for a response. -/
structure Verifying (s : State) (p : Nat) : Prop where
  port : p < 48
  waits : (s.tport p).verify = 1

theorem Verifying.merges (h : s.Verifying p) : hasMerge p = true := decide_eq_true h.port

theorem exec_preemptVerifyTimer (h : s.Verifying p) {u : State}
    (hu : u = s.waitUntil ((s.tport p).verifyAt + 1000000 * (s.tport p).verifyMs)) : exec (.preemptVerifyTimer p) s =
      .next (if (s.tport p).verifySent < 3 then
        (u.emit (.mPacket p)).tportMod p fun x => { x with verifySent := x.verifySent + 1, verifyAt := u.clk }
      else (u.tportMod p fun x => { x with verify := 3 }).raise 0x6004 p) := by
  have waiting : ¬ (!hasMerge p || decide ((s.tport p).verify ≠ 1)) = true := by simp [h.merges, h.waits]
  show Host.Outcome.next (s.doPreemptVerifyTimer p) = _
  unfold doPreemptVerifyTimer
  dsimp only
  rw [if_neg waiting, hu]

theorem exec_preemptVerifyResponse (h : s.Verifying p) (up : s.portDown p = false) :
    exec (.preemptVerifyResponse p) s = .next (s.tportMod p fun x => { x with verify := 2 }) := by
  have waiting : ¬ (!hasMerge p || decide ((s.tport p).verify ≠ 1) || s.portDown p) = true := by
    simp [h.merges, h.waits, up]
  show Host.Outcome.next (s.doPreemptVerifyResponse p) = _
  unfold doPreemptVerifyResponse
  rw [if_neg waiting]

/-! ### The audit (R284) -/

theorem exec_fairnessAuditWindow (on : s.rfld Reg.trfCtrl 0 1 = 1) (up : s.datapathUp = true)
    (buffer : s.quenched Dom.buffer = false)
    (hw : w = 1000 * inRange (s.rfld Reg.trfAuditWindowUs 0 20) 1000 1000000) : exec .fairnessAuditWindow s =
      .next (((List.range 65).foldl auditPort (s.waitUntil (ceilDiv s.clk w * w))).bump Reg.trfAuditPassCnt) := by
  have audits : ¬ (decide (s.rfld Reg.trfCtrl 0 1 = 0) || !s.datapathUp || s.quenched Dom.buffer) = true := by
    simp [on, up, buffer]
  show Host.Outcome.next s.doFairnessAuditWindow = _
  unfold doFairnessAuditWindow
  rw [if_neg audits, hw]

end State

open State

/-- Settles O36, from the equation of each row; a response changes VERIFY of its own port alone. -/
theorem preemptionAndAudit : Obligations.PreemptionAndAudit := by
  intro s p
  refine ⟨fun left e => exec_macHoldAssert, fun u port waits => exec_preemptVerifyTimer ⟨port, waits⟩,
    fun port waits up => ?_, fun w => exec_fairnessAuditWindow⟩
  exact ⟨_, exec_preemptVerifyResponse ⟨port, waits⟩ up, tport_tportMod_same .., fun k => tport_tportMod_other,
    Only.tportMod0 ..⟩

end Sys2Proof.Machine
end

section
/-! The traffic commands (R285, R302, R303, R310, R311): each with legal fields has one check left, of an object that it
names or that is in use, and otherwise ends at once. -/

namespace Sys2Proof.Machine

namespace State

variable {s : State} {host q op i k : Nat} {c : Cmd} {f : Cmd → State → Exec} {e : Exec}

/-- A traffic command runs while the datapath is up and the buffer domain is not quenched. -/
theorem traffic_ok (up : s.datapathUp = true) (buffer : s.quenched Dom.buffer = false) : Exec.traffic s e = e := by
  rw [Exec.traffic, datapath_ok up, need_ok (by simpa using buffer)]

/-! ### Queues (R310) -/

/-- The meters that a queue configuration names, one for each priority. -/
def queueMeters (c : Cmd) : List Nat := (List.range 8).map fun i => c.u (16 + 2 * i) 2

/-- The quanta of a queue configuration. -/
def queueQuanta (c : Cmd) : List Nat := (List.range 32).map fun i => c.u (64 + 4 * i) 4

/-- The queues of a port of the queue configuration: 64 stands for host 0. -/
def queueCount (t : Nat) : Nat := if t = 64 then 32 else 8

/-- A queue configuration in range, with preemption where there is a MAC merge sublayer alone. -/
structure QueueLegal (c : Cmd) : Prop where
  port : c.u 0 1 ≤ 64
  remap : c.u 2 1 < queueCount (c.u 0 1)
  frag : c.u 3 1 ≤ 3
  verifyMin : 1 ≤ c.u 13 1
  verifyMax : c.u 13 1 ≤ 128
  meters : ∀ m ∈ queueMeters c, m = 0xFFFF ∨ m < 8192
  quanta : ∀ k, k < queueCount (c.u 0 1) → bit (c.u 4 4) k = true ∨
    (64 ≤ (queueQuanta c).getD k 0 ∧ (queueQuanta c).getD k 0 ≤ 16777216)
  merge : bit (c.u 1 1) 1 = true → c.u 0 1 < 48

/-- A port with the configuration of a command, its groups formed anew and its verification begun where it is asked
for. -/
def queueConfigured (s : State) (c : Cmd) : State :=
  ((s.cbsUpdate (if c.u 0 1 = 64 then 67 else c.u 0 1)).tportMod (c.u 0 1) fun x => { x with
    dscpEn := bit (c.u 1 1) 0, preemptEn := bit (c.u 1 1) 1, verifyEn := bit (c.u 1 1) 2,
    remap := c.u 2 1, addFrag := c.u 3 1, strict := c.u 4 4, pcpMap := c.u 8 4, express := c.u 12 1,
    verifyMs := c.u 13 1, holdAdvance := c.u 14 2, meters := queueMeters c, dscpMap := c.u 32 24,
    quanta := queueQuanta c }).regroupAll.verifyStart (c.u 0 1)

theorem trfQueueConfig_eq (up : s.datapathUp = true) (buffer : s.quenched Dom.buffer = false) (h : QueueLegal c) :
    trfQueueConfig c s = Exec.check (s.metersLive (queueMeters c)) s 0x0401
      (.done (s.queueConfigured c) St.ok 0 []) := by
  have quanta : ((List.range (queueCount (c.u 0 1))).all fun k => bit (c.u 4 4) k ||
      (decide (64 ≤ (queueQuanta c).getD k 0) && decide ((queueQuanta c).getD k 0 ≤ 16777216))) = true := by
    simpa [List.all_eq_true] using h.quanta
  have meters : (queueMeters c).all meterField = true := by
    simpa [List.all_eq_true, meterField] using h.meters
  have ranges : (decide (c.u 0 1 ≤ 64) && decide (c.u 2 1 < queueCount (c.u 0 1)) && decide (c.u 3 1 ≤ 3) &&
      decide (1 ≤ c.u 13 1) && decide (c.u 13 1 ≤ 128) && (queueMeters c).all meterField &&
      (List.range (queueCount (c.u 0 1))).all fun k => bit (c.u 4 4) k ||
        (decide (64 ≤ (queueQuanta c).getD k 0) && decide ((queueQuanta c).getD k 0 ≤ 16777216))) = true := by
    simp only [quanta, meters, h.port, h.remap, h.frag, h.verifyMin, h.verifyMax, decide_true, Bool.and_self]
  have merge : (!(bit (c.u 1 1) 1 && decide (48 ≤ c.u 0 1))) = true := by
    simpa [imp_iff_not_or] using h.merge
  rw [trfQueueConfig, traffic_ok up buffer]
  exact (congrArg (Exec.check · s St.badParam _) ranges).trans (congrArg (Exec.check · s 0x0406 _) merge)

/-! ### Policers (R302, R303, R311) -/

/-- The overhead that a policer command sets. -/
def policerOverhead (c : Cmd) : Int := toSigned 8 (c.u 12 1)

/-- A policer command in range. -/
structure PolicerLegal (c : Cmd) : Prop where
  index : c.u 0 2 < 8192
  action : c.u 3 1 ≤ 2
  rateMin : 1 ≤ c.u 4 4
  rateMax : c.u 4 4 ≤ 25000000
  burstMin : 64 ≤ c.u 8 4
  burstMax : c.u 8 4 ≤ 16777216
  overheadMin : -64 ≤ policerOverhead c
  overheadMax : policerOverhead c ≤ 63

/-- What a command makes of a policer at a time: a bucket that is filled, or cut to the burst. -/
def policerOf (c : Cmd) (now : Nat) (x : Policer) : Policer :=
  { x with
    enabled := bit (c.u 2 1) 0, action := c.u 3 1, rate := c.u 4 4, burst := c.u 8 4, overhead := policerOverhead c
    prio := c.u 13 1 % 8, at_ := now
    bucket := if bit (c.u 2 1) 1 || (bit (c.u 2 1) 0 && !x.enabled) then 10 ^ 9 * (c.u 8 4 : Int)
      else min (10 ^ 9 * (c.u 8 4 : Int)) x.bucket }

theorem policerOf_bucket_le (c : Cmd) (now : Nat) (x : Policer) :
    (policerOf c now x).bucket ≤ 10 ^ 9 * (c.u 8 4 : Int) := by
  unfold policerOf
  dsimp only
  split
  · exact le_rfl
  · exact min_le_left ..

theorem policerOf_bucket_filled {now : Nat} {x : Policer} (fill : bit (c.u 2 1) 1 = true) :
    (policerOf c now x).bucket = 10 ^ 9 * (c.u 8 4 : Int) := by
  simp [policerOf, fill]

/-- A policer is set. -/
def policerConfigured (s : State) (c : Cmd) : State :=
  s.setPolicer (c.u 0 2) (policerOf c s.clk (s.policer (c.u 0 2)))

theorem trfPolicerSet_eq (up : s.datapathUp = true) (buffer : s.quenched Dom.buffer = false) (h : PolicerLegal c) :
    trfPolicerSet c s = Exec.check (bit (c.u 2 1) 0 || !s.policerNamed (c.u 0 2)) s 0x0402
      (.done (s.policerConfigured c) St.ok 0 []) := by
  have ranges : (decide (c.u 0 2 < 8192) && decide (c.u 3 1 ≤ 2) && decide (1 ≤ c.u 4 4) &&
      decide (c.u 4 4 ≤ 25000000) && decide (64 ≤ c.u 8 4) && decide (c.u 8 4 ≤ 16777216) &&
      decide (-64 ≤ policerOverhead c) && decide (policerOverhead c ≤ 63)) = true := by
    simp only [h.index, h.action, h.rateMin, h.rateMax, h.burstMin, h.burstMax, h.overheadMin, h.overheadMax,
      decide_true, Bool.and_self]
  rw [trfPolicerSet, traffic_ok up buffer]
  exact congrArg (Exec.check · s St.badParam _) ranges

/-! ### Shapers (R285) -/

theorem hostIn_nothing (s : State) (a : Nat) : s.hostIn a 0 = s := by
  have none : ceilDiv 0 (max 1 s.hif.fn.maxReadRequest) = 0 := Nat.div_eq_of_lt (by omega)
  rw [hostIn, spans, none]
  rfl

/-- A command that names no table reads none. -/
theorem runDma_noTable {addr len : Cmd → Nat} (h : s.Ready host q op c) (none : len c = 0) :
    s.runDma host q op addr len f = s.runCmd host q op f := by
  rw [runDma, h.runCmd, h.runCmd]
  cases f c s with
  | done t st r d => cases st <;> simp [none, hostIn_nothing]
  | run t x => rfl
  | wait => rfl

/-- A shaper begins with credit 0, or goes. -/
def shaperConfigured (s : State) (c : Cmd) : State :=
  s.setTrf { s.trf with
    shapers := if bit (c.u 3 1) 0 then aset s.trf.shapers (c.u 1 1 * 8 + c.u 2 1) ⟨c.u 4 4, 0, false, s.clk⟩
      else adel s.trf.shapers (c.u 1 1 * 8 + c.u 2 1) }

theorem trfShaperSet_shaper {dma : List Byte} (up : s.datapathUp = true) (buffer : s.quenched Dom.buffer = false)
    (kind : c.u 0 1 = 0) (len : c.body.length = 16) (port : c.u 1 1 < 64) (queue : c.u 2 1 < 8) :
    trfShaperSet dma c s = Exec.check (decide (1 ≤ c.u 4 4 ∧ c.u 4 4 ≤ maxRate (c.u 1 1))) s 0x0405
      (.done (s.shaperConfigured c) St.ok 0 []) := by
  have named : (decide (c.u 1 1 < 64) && decide (c.u 2 1 < 8)) = true := by simp [port, queue]
  rw [trfShaperSet, traffic_ok up buffer, kind, len, Bool.decide_and]
  exact congrArg (Exec.check · s St.badParam _) named

theorem exec_trfShaperSet_shaper {dma : List Byte} (ready : s.Ready host q 0x0402 c) (kind : c.u 0 1 = 0) :
    exec (.trfShaperSet host q dma) s = .next (s.runCmd host q 0x0402 (trfShaperSet dma)) :=
  congrArg Host.Outcome.next (runDma_noTable ready (if_neg (by simp [kind])))

/-! ### Sequence recovery and generation (R310, R311) -/

/-- The settings of a recovery function in range. -/
structure RecoveryLegal (c : Cmd) : Prop where
  kind : c.u 0 1 = 0
  index : c.u 2 2 < 2048
  historyMin : 2 ≤ c.u 4 1
  historyMax : c.u 4 1 ≤ 64
  pathsMin : 2 ≤ c.u 5 1
  pathsMax : c.u 5 1 ≤ 8
  reset : 1 ≤ c.u 6 2
  latent : 10 ≤ c.u 10 2

/-- What a command makes of a recovery function at a time: it takes any number next. -/
def recoveryOf (c : Cmd) (now : Nat) (r : Frer) : Frer :=
  { r with
    enabled := bit (c.u 1 1) 0, matchAlg := bit (c.u 1 1) 1, popRtag := bit (c.u 1 1) 2, takeNoSeq := bit (c.u 1 1) 3
    latentEn := bit (c.u 1 1) 4, mirror := bit (c.u 1 1) 5, history := c.u 4 1, latentPaths := c.u 5 1
    resetMs := c.u 6 2, latentDiff := c.u 8 2, latentMs := c.u 10 2, top := none, seen := [], pend := []
    lastAccept := now, perPassed := 0, perDup := 0, perAt := now }

theorem trfFrerConfig_recovery (up : s.datapathUp = true) (buffer : s.quenched Dom.buffer = false)
    (h : RecoveryLegal c) : trfFrerConfig c s =
      Exec.check (bit (c.u 1 1) 0 || !s.filterAny fun x => x.recovery == c.u 2 2) s 0x0402
        (.done (s.recovMod (c.u 2 2) (recoveryOf c s.clk)) St.ok 0 []) := by
  have ranges : (decide (c.u 2 2 < 2048) && decide (2 ≤ c.u 4 1) && decide (c.u 4 1 ≤ 64) && decide (2 ≤ c.u 5 1) &&
      decide (c.u 5 1 ≤ 8) && decide (1 ≤ c.u 6 2) && decide (10 ≤ c.u 10 2)) = true := by
    simp only [h.index, h.historyMin, h.historyMax, h.pathsMin, h.pathsMax, h.reset, h.latent, decide_true,
      Bool.and_self]
  rw [trfFrerConfig, traffic_ok up buffer, h.kind]
  exact congrArg (Exec.check · s St.badParam _) ranges

/-- What a command makes of a generation function: it begins with number 0. -/
def generationOf (c : Cmd) (r : Frer) : Frer :=
  { r with enabled := bit (c.u 1 1) 0, mirror := bit (c.u 1 1) 5, next := 0, cnt := r.cnt.set 0 0 }

/-- A generation function is set. -/
def generationConfigured (s : State) (c : Cmd) : State :=
  s.setTrf { s.trf with gen := amod s.trf.gen (c.u 2 2) {} (generationOf c) }

theorem trfFrerConfig_generation (up : s.datapathUp = true) (buffer : s.quenched Dom.buffer = false)
    (kind : c.u 0 1 = 1) (index : c.u 2 2 < 1024) : trfFrerConfig c s =
      Exec.check (bit (c.u 1 1) 0 || !s.filterAny fun x => x.generation == c.u 2 2) s 0x0402
        (.done (s.generationConfigured c) St.ok 0 []) := by
  rw [trfFrerConfig, traffic_ok up buffer, kind]
  exact congrArg (Exec.check · s St.badParam _) (decide_eq_true index)

/-! ### Objects in use (R311) -/

section
variable {t : State} {on used : Bool} {st : Nat} (ready : s.Ready host q op c)
  (checked : f c s = Exec.check (on || !used) s st (.done t St.ok 0 []))
include ready checked

theorem runCmd_inUse (off : on = false) (named : used = true) : s.runCmd host q op f = s.failCmd c.index st :=
  runCmd_fail ready (by rw [checked, off, named]; rfl)

theorem runCmd_unlessInUse (free : on = true ∨ used = false) :
    s.runCmd host q op f = t.finishCmd c.index St.ok 0 [] := by
  have permitted : (on || !used) = true := by simpa using free
  exact runCmd_done ready (by rw [checked, permitted, check_true])

end

end State

open State

/-- Settles O40, from the equation of each command: its one check that is left decides whether the object that it names
is set. -/
theorem trafficCommands : Obligations.TrafficCommands := by
  intro s host q c up buffer
  refine ⟨?queue, ?policer, ?shaper, ?recovery, ?generation⟩
  case queue =>
    rintro t p n meters quanta ready rfl rfl rfl rfl rfl port remap frag verifyMin verifyMax meters quanta merge
    have eq := trfQueueConfig_eq up buffer ⟨port, remap, frag, verifyMin, verifyMax, meters, quanta, merge⟩
    refine ⟨fun dead => ?_, fun live => ?_⟩
    · exact congrArg _ (runCmd_fail ready (eq.trans (congrArg (Exec.check · s _ _) dead)))
    · exact congrArg _ (runCmd_done ready (eq.trans (congrArg (Exec.check · s _ _) live)))
  case policer =>
    rintro i ovh ready rfl rfl index action rateMin rateMax burstMin burstMax ovhMin ovhMax
    have eq := trfPolicerSet_eq up buffer ⟨index, action, rateMin, rateMax, burstMin, burstMax, ovhMin, ovhMax⟩
    refine ⟨fun off named => congrArg _ (runCmd_inUse ready eq off named), fun free => ?_⟩
    exact ⟨_, congrArg _ (runCmd_unlessInUse ready eq free),
      ⟨_, aget_aset_same .., rfl, rfl, rfl, rfl, rfl, policerOf_bucket_le .., policerOf_bucket_filled⟩,
      fun k => aget_aset_other _ _, Only.setPolicer0 ..⟩
  case shaper =>
    rintro k dma ready kind len port queue rfl
    have eq := trfShaperSet_shaper (dma := dma) up buffer kind len port queue
    rw [exec_trfShaperSet_shaper ready kind, runCmd_checked ready eq]
    refine ⟨fun least most => congrArg _ (if_pos ⟨least, most⟩), fun beyond => congrArg _ (if_neg ?_)⟩
    omega
  case recovery =>
    rintro i ready rfl kind index historyMin historyMax pathsMin pathsMax reset latent
    have eq := trfFrerConfig_recovery up buffer
      ⟨kind, index, historyMin, historyMax, pathsMin, pathsMax, reset, latent⟩
    refine ⟨fun off named => congrArg _ (runCmd_inUse ready eq off named), fun free => ?_⟩
    exact ⟨_, congrArg _ (runCmd_unlessInUse ready eq free),
      ⟨_, aget_aset_same .., rfl, rfl, rfl, rfl, rfl, rfl, rfl⟩, fun k => aget_aset_other _ _, Only.recovMod0 ..⟩
  case generation =>
    rintro i ready rfl kind index
    have eq := trfFrerConfig_generation up buffer kind index
    refine ⟨fun off named => congrArg _ (runCmd_inUse ready eq off named), fun free => ?_⟩
    exact ⟨_, congrArg _ (runCmd_unlessInUse ready eq free), ⟨_, aget_aset_same .., rfl, rfl⟩, Only.setTrf0 ..⟩

end Sys2Proof.Machine
end

section
/-! What the channels of the edge buses hold after an operation of their own, and what leaves them. -/

namespace Sys2Proof.Machine

namespace State

variable {s t : State} {ch k l m : Nat}

/-! ### CAN channels -/

@[simp] theorem canCh_canMod_same (s : State) (ch : Nat) (f : CanCh → CanCh) :
    (s.canMod ch f).canCh ch = f (s.canCh ch) := by
  show agetD (aset s.edg.can ch _) ch {} = _
  rw [agetD, aget_aset_same]
  rfl

theorem canCh_canMod_other {f : CanCh → CanCh} (h : k ≠ ch) : (s.canMod ch f).canCh k = s.canCh k := by
  show agetD (aset s.edg.can ch _) k {} = _
  rw [agetD, aget_aset_other _ _ h]
  rfl

theorem canCh_of_edg (h : t.edg = s.edg) (k : Nat) : t.canCh k = s.canCh k :=
  congrArg (fun e : Edg => agetD e.can k {}) h

@[simp] theorem bump_edg (s : State) (o : Nat) : (s.bump o).edg = s.edg := (Only.bump0 s o).edg rfl

@[simp] theorem bump_canCh (s : State) (o k : Nat) : (s.bump o).canCh k = s.canCh k := canCh_of_edg (bump_edg s o) k

@[simp] theorem emit_canCh (s : State) (p : Output) (k : Nat) : (s.emit p).canCh k = s.canCh k := rfl

@[simp] theorem raiseLimited_canCh (s : State) (last : Option Nat) (period code arg k : Nat) :
    (s.raiseLimited last period code arg).1.canCh k = s.canCh k :=
  canCh_of_edg ((Only.raiseLimited0 s last period code arg).edg rfl) k

@[simp] theorem waitUntil_canCh (s : State) (t k : Nat) : (s.waitUntil t).canCh k = s.canCh k :=
  canCh_of_edg (waitUntil_edg s t) k

/-! ### LIN channels -/

@[simp] theorem linCh_linMod_same (s : State) (l : Nat) (f : LinCh → LinCh) :
    (s.linMod l f).linCh l = f (s.linCh l) := by
  show agetD (aset s.edg.lin l _) l {} = _
  rw [agetD, aget_aset_same]
  rfl

theorem linCh_linMod_other {f : LinCh → LinCh} (h : k ≠ l) : (s.linMod l f).linCh k = s.linCh k := by
  show agetD (aset s.edg.lin l _) k {} = _
  rw [agetD, aget_aset_other _ _ h]
  rfl

theorem linCh_of_edg (h : t.edg = s.edg) (k : Nat) : t.linCh k = s.linCh k :=
  congrArg (fun e : Edg => agetD e.lin k {}) h

@[simp] theorem bump_linCh (s : State) (o k : Nat) : (s.bump o).linCh k = s.linCh k := linCh_of_edg (bump_edg s o) k

@[simp] theorem emit_linCh (s : State) (p : Output) (k : Nat) : (s.emit p).linCh k = s.linCh k := rfl

@[simp] theorem waitUntil_linCh (s : State) (t k : Nat) : (s.waitUntil t).linCh k = s.linCh k :=
  linCh_of_edg (waitUntil_edg s t) k

/-! ### Outputs -/

/-- What a state has sent, a later one has sent too. -/
theorem mem_out_of_only {m : Nat} {o : Output} (h : Only m s t) (sent : o ∈ s.out) : o ∈ t.out := h.out.subset sent

end State

end Sys2Proof.Machine
end

section
/-! CAN traffic (R319 to R332): what a change of the error counts leaves of a channel, and the equation of each row. -/

namespace Sys2Proof.Machine

/-- What a channel keeps when its error state changes and when the loop delay of a frame is measured. -/
def CanCh.kept (c : CanCh) : CanCh :=
  { c with
    state := .stopped, recovering := false, latched := false, offsInRow := 0, busOffAt := 0, stateEvAt := none
    tdcFd := 0, tdcXl := 0 }

theorem CanCh.kept_fields {c d : CanCh} (h : d.kept = c.kept) : d.tec = c.tec ∧ d.rec_ = c.rec_ ∧ d.lec = c.lec ∧
    d.newMode = c.newMode ∧ d.bufs = c.bufs ∧ d.fifo = c.fifo :=
  ⟨(congrArg tec h :), (congrArg rec_ h :), (congrArg lec h :), (congrArg newMode h :), (congrArg bufs h :),
    (congrArg fifo h :)⟩

/-- A channel `c` becomes `d` as it enters a state. -/
structure CanCh.Enters (st : CanState) (c d : CanCh) : Prop where
  state : d.state = st
  recovering : c.state ≠ st → d.recovering = false
  kept : d.kept = c.kept

namespace State

variable {s : State} {ch k code tec rec ago : Nat} {tr eight : Bool} {f : CanFrame} {x : CanFilter} {it : TxItem}
  {src : TxFrom}

/-! ### Error states (R329 to R332) -/

theorem canEnter_enters (s : State) (ch : Nat) (st : CanState) :
    CanCh.Enters st (s.canCh ch) ((s.canEnter ch st).canCh ch) := by
  unfold canEnter
  dsimp only
  by_cases same : (s.canCh ch).state = st
  · rw [if_pos same]
    exact ⟨same, fun other => absurd same other, rfl⟩
  · rw [if_neg same]
    by_cases off : st = .busOff
    · rw [if_pos off]
      simp only [canCh_canMod_same, raiseLimited_canCh, bump_canCh]
      exact ⟨rfl, fun _ => rfl, rfl⟩
    · rw [if_neg off]
      simp only [canCh_canMod_same, raiseLimited_canCh]
      exact ⟨rfl, fun _ => rfl, rfl⟩

theorem canEnter_other (st : CanState) (h : k ≠ ch) : (s.canEnter ch st).canCh k = s.canCh k := by
  unfold canEnter
  dsimp only
  by_cases same : (s.canCh ch).state = st
  · rw [if_pos same]
  · rw [if_neg same, canCh_canMod_other h, raiseLimited_canCh]
    by_cases off : st = .busOff
    · rw [if_pos off, canCh_canMod_other h, bump_canCh, canCh_canMod_other h]
    · rw [if_neg off, canCh_canMod_other h]

/-- A channel whose counts are set enters the state that they give. -/
theorem canCounts_enters (s : State) (ch tec rec : Nat) :
    CanCh.Enters (canOfCounts tec rec) { s.canCh ch with tec := tec, rec_ := min 128 rec }
      ((s.canCounts ch tec rec).canCh ch) := by
  have enters := canEnter_enters (s.canMod ch fun c => { c with tec := tec, rec_ := min 128 rec }) ch
    (canOfCounts tec rec)
  rwa [canCh_canMod_same] at enters

theorem canCounts_other (h : k ≠ ch) : (s.canCounts ch tec rec).canCh k = s.canCh k := by
  rw [canCounts, canEnter_other _ h, canCh_canMod_other h]

/-! ### Errors (R329, R330) -/

theorem canError_pn (pn : (s.canCh ch).pn = true) : s.canError ch code tr eight = s.bump (Reg.edgCanPnIgnoredCnt ch) :=
  if_pos pn

/-- The error is counted and kept as the last one of the channel. -/
def errorKept (s : State) (ch code : Nat) : State :=
  (s.bump (Reg.edgCanBusErrCnt ch)).canMod ch fun c => { c with lec := code }

@[simp] theorem errorKept_canCh (s : State) (ch code : Nat) :
    (s.errorKept ch code).canCh ch = { s.canCh ch with lec := code } := by
  rw [errorKept, canCh_canMod_same, bump_canCh]

theorem errorKept_other (h : k ≠ ch) : (s.errorKept ch code).canCh k = s.canCh k := by
  rw [errorKept, canCh_canMod_other h, bump_canCh]

theorem canError_running (pn : (s.canCh ch).pn = false) (listens : (s.canCh ch).mode ≠ .listenOnly)
    (pex : (s.canCh ch).pex = false)
    (htec : tec = (s.canCh ch).tec + if tr && eight then 8 else 0)
    (hrec : rec = (s.canCh ch).rec_ + if tr then 0 else if eight then 8 else 1) :
    s.canError ch code tr eight = (s.errorKept ch code).canCounts ch tec rec := by
  have moving : canFrozen (s.canCh ch) = false := by simp [canFrozen, pn, listens, pex]
  unfold canError
  dsimp only
  rw [if_neg (by simp [pn]), moving, htec, hrec]
  cases tr <;> rfl

/-- An error leaves a channel that waits for no mode as it is counted. -/
theorem canFault_unordered (none : ((s.canError ch code tr eight).canCh ch).newMode = none) :
    s.canFault ch code tr eight = s.canError ch code tr eight := by
  unfold canFault
  dsimp only
  rw [none]

theorem exec_canBusError (hears : s.canHears ch = true) (least : 1 ≤ code) (most : code ≤ 7) :
    exec (.canBusError ch code tr eight) s = .next (s.canFault ch code tr eight) :=
  congrArg Host.Outcome.next (if_pos ⟨hears, least, most⟩)

theorem exec_canBusError_deaf (deaf : s.canHears ch = false) : exec (.canBusError ch code tr eight) s = .next s :=
  congrArg Host.Outcome.next (if_neg (by simp [deaf]))

theorem pex_of_canHears (hears : s.canHears ch = true) : (s.canCh ch).pex = false := by
  simp only [canHears, Bool.and_eq_true, Bool.not_eq_true'] at hears
  exact hears.2

/-! ### Reception (R319 to R322) -/

theorem exec_canFrameReceived_deaf (deaf : s.canHears ch = false) : exec (.canFrameReceived ch f ago) s = .next s :=
  congrArg Host.Outcome.next (if_pos (by simp [deaf]))

theorem exec_canFrameReceived_format (hears : s.canHears ch = true)
    (off : canFormatOn (s.canCh ch).cfg f.format = false) : exec (.canFrameReceived ch f ago) s =
      .next (if (s.canCh ch).cfg.pexEn then s.canMod ch fun c => { c with pex := true }
        else s.canFault ch 2 false false) := by
  show Host.Outcome.next (s.doCanFrameReceived ch f ago) = _
  unfold doCanFrameReceived
  dsimp only
  rw [if_neg (by simp [hears]), if_pos (by simp [off])]

theorem exec_canFrameReceived_oversize (hears : s.canHears ch = true)
    (on : canFormatOn (s.canCh ch).cfg f.format = true) (xl : f.format = .xl)
    (long : (s.canCh ch).cfg.xlLimit < f.data.length) (pn : (s.canCh ch).pn = false) :
    exec (.canFrameReceived ch f ago) s = .next ((s.canHeard ch).bump (Reg.edgCanRxOversizeCnt ch)) := by
  show Host.Outcome.next (s.doCanFrameReceived ch f ago) = _
  unfold doCanFrameReceived
  dsimp only
  rw [if_neg (by simp [hears]), if_neg (by simp [on]), if_pos (by simp [xl, long, pn])]

/-- A frame of a legal length has been received, and the first filter that matches it is known. -/
structure Receives (s : State) (ch : Nat) (f : CanFrame) : Prop where
  hears : s.canHears ch = true
  format : canFormatOn (s.canCh ch).cfg f.format = true
  length : f.format = .xl → f.data.length ≤ (s.canCh ch).cfg.xlLimit

theorem Receives.fits (h : s.Receives ch f) :
    (f.format == .xl && decide ((s.canCh ch).cfg.xlLimit < f.data.length)) = false := by
  simpa using h.length

theorem exec_canFrameReceived_unmatched (h : s.Receives ch f)
    (none : ∀ x ∈ (s.canCh ch).cfg.filters, filterHits x f = false) :
    exec (.canFrameReceived ch f ago) s = .next (s.canHeard ch) := by
  have first : (s.canCh ch).cfg.filters.find? (fun x => filterHits x f) = Option.none :=
    List.find?_eq_none.2 fun x hx => by simp [none x hx]
  show Host.Outcome.next (s.doCanFrameReceived ch f ago) = _
  unfold doCanFrameReceived
  dsimp only
  rw [if_neg (by simp [h.hears]), if_neg (by simp [h.format]), h.fits, first]
  rfl

/-- A frame that a filter matches: rejected, kept away from a channel in partial networking that it does not wake, or
stored. -/
theorem exec_canFrameReceived_matched (h : s.Receives ch f)
    (first : (s.canCh ch).cfg.filters.find? (fun x => filterHits x f) = some x) :
    exec (.canFrameReceived ch f ago) s =
      .next (if bit (le x 0 1) 1 || ((s.canCh ch).pn && !bit (le x 0 1) 3) then s.canHeard ch
        else (if (s.canCh ch).pn then (s.canHeard ch).canMod ch fun c => { c with pn := false }
          else s.canHeard ch).canStore ch x f ago) := by
  show Host.Outcome.next (s.doCanFrameReceived ch f ago) = _
  unfold doCanFrameReceived
  dsimp only
  rw [if_neg (by simp [h.hears]), if_neg (by simp [h.format]), h.fits, first]
  rfl

/-! ### Transmission (R324 to R328) -/

/-- An open slot whose frame was offered has begun. -/
def slotBegun (s : State) (src : TxFrom) (done : Bool) : State :=
  match src with
  | .slot o => s.slotMod o fun o => { o with begun := true, done := done }
  | _ => s

/-- The frame of a slot, a buffer or the FIFO is on the bus. -/
def txDriven (s : State) (ch : Nat) (src : TxFrom) (it : TxItem) : State :=
  ((s.slotBegun src true).bump (Reg.edgCanTxOkCnt ch)).emit (.can ch it.frame)

/-- It has left its place, and the channel counts no bus-off in a row any more. -/
def txLeft (s : State) (ch : Nat) (src : TxFrom) (it : TxItem) : State :=
  (((s.txDriven ch src it).txRemove ch src.place).canMod ch fun c => { c with offsInRow := 0 }).tdcMeasure ch it.frame

/-- The transmit error count has fallen. -/
def txDone (s : State) (ch : Nat) (src : TxFrom) (it : TxItem) : State :=
  (s.txLeft ch src it).canCounts ch (((s.txLeft ch src it).canCh ch).tec - 1) ((s.txLeft ch src it).canCh ch).rec_

@[simp] theorem slotBegun_canCh (s : State) (src : TxFrom) (done : Bool) (k : Nat) :
    (s.slotBegun src done).canCh k = s.canCh k := by
  cases src <;> rfl

@[simp] theorem txDriven_canCh (s : State) (ch : Nat) (src : TxFrom) (it : TxItem) (k : Nat) :
    (s.txDriven ch src it).canCh k = s.canCh k := by
  rw [txDriven, emit_canCh, bump_canCh, slotBegun_canCh]

theorem tdcMeasure_kept (s : State) (ch : Nat) (f : CanFrame) :
    ((s.tdcMeasure ch f).canCh ch).kept = (s.canCh ch).kept := by
  unfold tdcMeasure
  dsimp only
  split
  · rw [canCh_canMod_same]
    rfl
  · split
    · rw [canCh_canMod_same]
      rfl
    · rfl

/-- A frame that was sent stands in the outputs. -/
theorem mem_txDone_out (s : State) (ch : Nat) (src : TxFrom) (it : TxItem) :
    Output.can ch it.frame ∈ (s.txDone ch src it).out := by
  have driven : Output.can ch it.frame ∈ (s.txDriven ch src it).out :=
    List.mem_append_right _ (List.mem_singleton_self _)
  exact mem_out_of_only (Only.canCounts0 ..) (mem_out_of_only (Only.tdcMeasure0 ..)
    (mem_out_of_only (Only.canMod0 ..) (mem_out_of_only (Only.txRemove0 ..) driven)))

/-- A channel that is `c` once the frame sent has left its place lowers its transmit error count. -/
theorem txDone_kept {c : CanCh} (left : ((s.txDriven ch src it).txRemove ch src.place).canCh ch = c)
    (bound : c.rec_ ≤ 128) : ((s.txDone ch src it).canCh ch).kept = { c with tec := c.tec - 1 }.kept := by
  have kept : ((s.txLeft ch src it).canCh ch).kept = c.kept := by
    rw [txLeft, tdcMeasure_kept, canCh_canMod_same, left]
    rfl
  obtain ⟨tec, rec_, -⟩ := CanCh.kept_fields kept
  rw [txDone, (canCounts_enters ..).kept, tec, rec_, Nat.min_eq_right bound]
  exact congrArg (fun d : CanCh => { d with tec := c.tec - 1, rec_ := c.rec_ }) kept

theorem exec_canTxAttempt_idle {r : CanTxResult} (idle : s.canOffer ch = none) :
    exec (.canTxAttempt ch r) s = .next s := by
  show Host.Outcome.next (s.doCanTxAttempt ch r) = _
  rw [doCanTxAttempt, idle]

section
variable (offer : s.canOffer ch = some (src, it))
include offer

theorem exec_canTxAttempt_arbLost :
    exec (.canTxAttempt ch .arbLost) s = .next (s.bump (Reg.edgCanArbLostCnt ch)) := by
  show Host.Outcome.next (s.doCanTxAttempt ch .arbLost) = _
  rw [doCanTxAttempt, offer]

theorem exec_canTxAttempt_sent : exec (.canTxAttempt ch .sent) s = .next (s.txDone ch src it) := by
  show Host.Outcome.next (s.doCanTxAttempt ch .sent) = _
  rw [doCanTxAttempt, offer]
  cases src <;> rfl

theorem exec_canTxAttempt_error : exec (.canTxAttempt ch (.error code eight)) s =
    .next ((if it.single then (s.slotBegun src false).txRemove ch src.place
      else (s.slotBegun src false).txBegun ch src.place).canFault ch code true eight) := by
  show Host.Outcome.next (s.doCanTxAttempt ch (.error code eight)) = _
  rw [doCanTxAttempt, offer]
  cases src <;> rfl

end

theorem txRemove_fifo_canCh (s : State) (ch : Nat) :
    (s.txRemove ch .fifo).canCh ch = { s.canCh ch with fifo := (s.canCh ch).fifo.tail } := canCh_canMod_same ..

/-- A buffer for which no next content is held is empty once its frame has left. -/
theorem txRemove_buffer_canCh {b : Nat} (none : aget (s.canCh ch).held b = none) :
    (s.txRemove ch (.buffer b)).canCh ch =
      { s.canCh ch with bufs := adel (s.canCh ch).bufs b, held := adel (s.canCh ch).held b } := by
  rw [txRemove, canCh_canMod_same, none]

/-! ### Bus-off and protocol exceptions (R315, R330, R331) -/

theorem exec_busOffRecoverDelay (channel : ch < 64) (up : s.busUp ch = true) (off : (s.canCh ch).state = .busOff)
    (auto : (s.canCh ch).cfg.autoRecover = true) (free : (s.canCh ch).latched = false)
    (idle : (s.canCh ch).recovering = false) : exec (.busOffRecoverDelay ch) s =
      .next ((s.waitUntil ((s.canCh ch).busOffAt + 1000000 * (s.canCh ch).cfg.recoverMs)).canRecover ch) :=
  congrArg Host.Outcome.next (if_pos ⟨channel, up, off, auto, by simp [free], by simp [idle]⟩)

theorem exec_busOffRecoveryDone (channel : ch < 64) (up : s.busUp ch = true) (off : (s.canCh ch).state = .busOff)
    (recovers : (s.canCh ch).recovering = true) :
    exec (.busOffRecoveryDone ch) s = .next (s.canCounts ch 0 0) :=
  congrArg Host.Outcome.next (if_pos ⟨channel, up, off, recovers⟩)

theorem exec_protocolExceptionEnd (channel : ch < 64) (pex : (s.canCh ch).pex = true) :
    exec (.protocolExceptionEnd ch) s =
      .next ((s.canMod ch fun c => { c with pex := false }).bump (Reg.edgCanPexCnt ch)) :=
  congrArg Host.Outcome.next (if_pos ⟨channel, pex⟩)

end State

open State

/-- Settles O44, from the equation of each row: what an error, a recovery or a frame sent leaves of its channel is what
its error state does not hold. -/
theorem canTraffic : Obligations.CanTraffic := by
  rintro s ch c rfl
  refine ⟨?error, ?ignored, fun code tr eight => exec_canBusError_deaf, ?received,
    fun f ago hears on xl long pn => exec_canFrameReceived_oversize hears on xl long pn,
    fun f ago => exec_canFrameReceived_format, fun f ago => exec_canFrameReceived_deaf, ?offered, ?fifo, ?buffer,
    fun r => exec_canTxAttempt_idle, exec_busOffRecoverDelay, ?recovered, exec_protocolExceptionEnd⟩
  case error =>
    rintro code tr eight tec rec hears least most pn listens unordered htec hrec
    have counted := canError_running (code := code) pn listens (pex_of_canHears hears) htec hrec
    have enters := canCounts_enters (s.errorKept ch code) ch tec rec
    rw [errorKept_canCh] at enters
    obtain ⟨ctec, crec, clec, cmode, cbufs, -⟩ := CanCh.kept_fields enters.kept
    refine ⟨_, (exec_canBusError hears least most).trans (congrArg _ ((canFault_unordered ?_).trans counted)),
      clec, ctec, crec, enters.state, cbufs, fun k other => ?_⟩
    · rw [counted]
      exact cmode.trans unordered
    · rw [canCounts_other other, errorKept_other other]
  case ignored =>
    intro code tr eight hears least most pn unordered
    rw [exec_canBusError hears least most, canFault_unordered (by rw [canError_pn pn, bump_canCh, unordered]),
      canError_pn pn]
  case received =>
    intro f ago hears format length
    have h : s.Receives ch f := ⟨hears, format, length⟩
    refine ⟨exec_canFrameReceived_unmatched h, fun x first rejects => ?_, fun x first accepts awake => ?_,
      fun x first accepts pn => ?_⟩
    · rw [exec_canFrameReceived_matched h first, rejects]
      rfl
    · rw [exec_canFrameReceived_matched h first, accepts, awake]
      rfl
    · rw [exec_canFrameReceived_matched h first, accepts, pn]
      cases bit (le x 0 1) 3 <;> rfl
  case offered =>
    exact fun src it offer => ⟨exec_canTxAttempt_arbLost offer, _, exec_canTxAttempt_sent offer, mem_txDone_out ..⟩
  case fifo =>
    intro it offer _ bound
    have kept := txDone_kept (src := .fifo) (it := it) (txRemove_fifo_canCh ..) (by rwa [txDriven_canCh])
    rw [txDriven_canCh] at kept
    obtain ⟨tec, -, -, -, bufs, fifo⟩ := CanCh.kept_fields kept
    exact ⟨_, exec_canTxAttempt_sent offer, fifo, bufs, tec⟩
  case buffer =>
    intro b it offer none _ bound
    refine ⟨?_, fun code eight repeats => ?_⟩
    · have kept := txDone_kept (src := .buffer b) (it := it)
        (txRemove_buffer_canCh (by rwa [txDriven_canCh])) (by rwa [txDriven_canCh])
      rw [txDriven_canCh] at kept
      obtain ⟨tec, rec_, -, -, bufs, fifo⟩ := CanCh.kept_fields kept
      exact ⟨_, exec_canTxAttempt_sent offer, mem_txDone_out .., (congrArg (aget · b) bufs).trans (aget_adel_same ..),
        tec, rec_, fifo⟩
    · rw [exec_canTxAttempt_error offer, repeats]
      rfl
  case recovered =>
    intro channel up off recovers
    have enters := canCounts_enters s ch 0 0
    obtain ⟨tec, rec_, -⟩ := CanCh.kept_fields enters.kept
    have moved : (s.canCh ch).state ≠ canOfCounts 0 0 := by rw [off]; decide
    exact ⟨_, exec_busOffRecoveryDone channel up off recovers, enters.state, tec, rec_, enters.recovering moved,
      fun k => canCounts_other⟩

end Sys2Proof.Machine
end

section
/-! Configurations and modes of the edge channels (R316, R334, R344, R346 to R348): each command with legal fields has
the checks of its chapter left, and what is ordered is taken at once, at bus idle or after its time. -/

namespace Sys2Proof.Machine

namespace State

variable {s t : State} {host q op ch l m st r : Nat} {c : Cmd} {d dma : List Byte} {f : Cmd → State → Exec} {e : Exec}

/-! ### Commands that read a table, and what an edge command needs -/

section
variable {addr len : Cmd → Nat} (ready : s.Ready host q op c)
include ready

theorem runDma_done (eq : f c s = .done t 0 r d) : s.runDma host q op addr len f =
    (if c.host = 0 then t.hostIn (addr c) (len c) else t).finishCmd c.index 0 r d :=
  runCmd_done ready (by rw [eq]; rfl)

theorem runDma_fail (eq : f c s = Exec.fail s st) (failing : st ≠ 0) :
    s.runDma host q op addr len f = s.failCmd c.index st := by
  refine runCmd_fail ready ?_
  rw [eq]
  cases st with
  | zero => exact absurd rfl failing
  | succ st => rfl

end

theorem edge_ok (up : s.datapathUp = true) (runs : s.quenched m = false) : Exec.edge s m e = e := by
  rw [Exec.edge, datapath_ok up, need_ok (by simpa using runs)]

/-! ### CAN channels (R316, R347, R348) -/

/-- An `EDG_CAN_CONFIG` whose fields lie in their ranges, with the configuration that it carries. -/
structure CanLegal (c : Cmd) (x : CanCfg) : Prop where
  channel : c.u 0 1 < 64
  recover : x.recoverMs ≤ 10000
  filters : c.u 27 1 ≤ 64
  delay : x.rxDelay ≤ 1000
  settle : x.settle ≤ 1000
  aligned : c.u 32 8 % 8 = 0
  pwm : canPwm x = true

/-- The timing registers of a channel show a configuration. -/
def canTimed (s : State) (ch : Nat) (x : CanCfg) : State :=
  ((((s.rset (Reg.edgCanNbt ch) x.nbt).rset (Reg.edgCanDbt ch) x.dbt).rset (Reg.edgCanXbt ch) x.xbt).rset
    (Reg.edgCanTdc ch) x.tdc).rset (Reg.edgCanPwm ch) x.pwm

/-- A channel that is stopped takes a configuration at once; another one keeps it for bus idle. -/
def canConfigured (s : State) (ch : Nat) (x : CanCfg) : State :=
  if (s.canCh ch).state = .stopped ∨ s.edgeEn = false then (s.canTimed ch x).canApply ch x
  else (s.canTimed ch x).canMod ch fun c => { c with newCfg := some x }

theorem canTimed_edgeEn (s : State) (ch : Nat) (x : CanCfg) : (s.canTimed ch x).edgeEn = s.edgeEn := by
  have same : (s.canTimed ch x).rget Reg.edgCtrl = s.rget Reg.edgCtrl := by
    have apart (o : Nat) : Reg.edgCtrl ≠ 0x39000 + o + 0x80 * ch := show 0x38000 ≠ _ by omega
    rw [canTimed, rget_rset_other _ _ (apart 16), rget_rset_other _ _ (apart 12), rget_rset_other _ _ (apart 8),
      rget_rset_other _ _ (apart 4), rget_rset_other _ _ (apart 0)]
  rw [edgeEn, rfld_of_rget same]
  rfl

/-- A live image that names a channel leaves it its timing (R348). -/
def canReplaceable (s : State) (ch : Nat) (x : CanCfg) : Bool :=
  let old := ((s.canCh ch).newCfg).getD (s.canCh ch).cfg
  !s.namesChannel ch || !old.enable || (x.enable && x.nbt == old.nbt && x.dbt == old.dbt && x.xbt == old.xbt)

theorem canReplaceable_unnamed {x : CanCfg} (unnamed : s.namesChannel ch = false) : s.canReplaceable ch x = true := by
  simp [canReplaceable, unnamed]

theorem edgCanConfig_eq {x : CanCfg} (up : s.datapathUp = true) (runs : s.quenched (busUnit ch) = false)
    (hch : ch = c.u 0 1) (hx : x = canCfgOf c dma) (h : CanLegal c x) : edgCanConfig dma c s =
      Exec.check (canTiming x) s 0x0501 (Exec.check (canFormats x) s 0x0502
        (Exec.check (s.canReplaceable ch x) s 0x0503 (.done (s.canConfigured ch x) St.ok 0 []))) := by
  subst hch
  have ranges : (decide (c.u 0 1 < 64) && decide (x.recoverMs ≤ 10000) && decide (c.u 27 1 ≤ 64) &&
      decide (x.rxDelay ≤ 1000) && decide (x.settle ≤ 1000) && c.u 32 8 % 8 == 0 && canPwm x) = true := by
    simp [h.channel, h.recover, h.filters, h.delay, h.settle, h.aligned, h.pwm]
  have taken : s.canConfigured (c.u 0 1) x = if ((s.canTimed (c.u 0 1) x).canCh (c.u 0 1)).state = .stopped ∨
      !(s.canTimed (c.u 0 1) x).edgeEn then (s.canTimed (c.u 0 1) x).canApply (c.u 0 1) x
      else (s.canTimed (c.u 0 1) x).canMod (c.u 0 1) fun c => { c with newCfg := some x } := by
    simp only [canTimed_edgeEn, Bool.not_eq_true']
    rfl
  rw [edgCanConfig, if_pos h.channel, edge_ok up runs, taken, hx]
  rw [hx] at ranges
  exact congrArg (Exec.check · s St.badParam _) ranges

theorem exec_configApplyAtIdle_can {x : CanCfg} (channel : ch < 64) (waits : (s.canCh ch).newCfg = some x)
    (runs : s.quenched (busUnit ch) = false) : exec (.configApplyAtIdle ch) s = .next (s.canApply ch x) := by
  show Host.Outcome.next (s.doConfigApplyAtIdle ch) = _
  rw [doConfigApplyAtIdle, if_pos channel, waits]
  exact congrArg _ (if_neg (by simp [runs]))

/-! ### LIN channels (R346) -/

/-- An `EDG_LIN_CONFIG` of a channel that no live image names, with all that it carries in its ranges. -/
structure LinLegal (s : State) (c : Cmd) (l : Nat) (x : LinCfg) : Prop where
  channel : l < 32
  whole : bit (c.u 1 1) 2 = false
  aligned : c.u 16 8 % 8 = 0
  ranges : linRanges x (c.u 7 1) (c.u 8 1) = true
  unnamed : s.namesChannel (64 + l) = false
  tables : linTablesOk x = true
  start : x.tables = [] ∨ x.startTable < x.tables.length

/-- A channel that runs keeps a configuration for bus idle; another one takes it at once. -/
def linConfigured (s : State) (l : Nat) (x : LinCfg) : State :=
  if (s.linCh l).operational && s.edgeEn then s.linMod l fun c => { c with newCfg := some x } else s.linApply l x

theorem edgLinConfig_eq {x : LinCfg} (up : s.datapathUp = true) (runs : s.quenched (busUnit (64 + l)) = false)
    (hl : l = c.u 0 1) (hx : x = linCfgOf c dma) (h : s.LinLegal c l x) :
    edgLinConfig dma c s = .done (s.linConfigured l x) St.ok 0 [] := by
  subst hl hx
  have tables : (linTablesOk (linCfgOf c dma) && ((linCfgOf c dma).tables.isEmpty ||
      decide ((linCfgOf c dma).startTable < (linCfgOf c dma).tables.length))) = true := by
    simpa [h.tables] using h.start
  have taken : (if !(s.linCh (c.u 0 1)).operational || !s.edgeEn then s.linApply (c.u 0 1) (linCfgOf c dma)
      else s.linMod (c.u 0 1) fun y => { y with newCfg := some (linCfgOf c dma) }) =
      s.linConfigured (c.u 0 1) (linCfgOf c dma) := by
    unfold linConfigured
    cases (s.linCh (c.u 0 1)).operational <;> cases s.edgeEn <;> rfl
  unfold edgLinConfig
  dsimp only
  rw [if_pos h.channel, edge_ok up runs, decide_eq_true h.channel, check_true, if_neg (by simp [h.whole]), h.aligned,
    h.ranges, h.unnamed, tables, taken]
  rfl

theorem exec_configApplyAtIdle_lin {x : LinCfg} (channel : l < 32) (waits : (s.linCh l).newCfg = some x)
    (runs : s.quenched (busUnit (64 + l)) = false) :
    exec (.configApplyAtIdle (64 + l)) s = .next (s.linApply l x) := by
  show Host.Outcome.next (s.doConfigApplyAtIdle (64 + l)) = _
  rw [doConfigApplyAtIdle, if_neg (by omega), if_pos (by omega), Nat.add_sub_cancel_left, waits]
  exact congrArg _ (if_neg (by simp [runs]))

/-! ### 10BASE-T1S ports (R344) -/

/-- The configuration of an `EDG_T1S_CONFIG`. -/
def t1sCfgOf (c : Cmd) : T1sCfg :=
  { enable := bit (c.u 1 1) 0, plcaEn := bit (c.u 1 1) 1, nodeId := c.u 2 1, nodeCount := c.u 3 1
    toTimer := c.u 4 1, burstCount := c.u 5 1, burstTimer := c.u 6 1 }

/-- A port that is enabled keeps a configuration for bus idle; another one takes it at once. -/
def t1sConfigured (s : State) (m : Nat) (x : T1sCfg) : State :=
  let u := s.rsetF (Reg.edgT1sStatus m) 8 4 x.nodeId
  if (s.t1sCh m).cfg.enable && u.edgeEn then u.t1sMod m fun t => { t with newCfg := some x } else u.t1sApply m x

theorem edgT1sConfig_eq (up : s.datapathUp = true) (runs : s.quenched (portUnit (48 + m)) = false) (hm : m = c.u 0 1)
    (port : m < 16) (unnamed : s.namesPort (48 + m) = false) : edgT1sConfig c s =
      Exec.check (decide ((t1sCfgOf c).nodeId < (t1sCfgOf c).nodeCount ∧ 2 ≤ (t1sCfgOf c).nodeCount ∧
        (t1sCfgOf c).nodeCount ≤ 16 ∧ 1 ≤ (t1sCfgOf c).toTimer)) s 0x0506
        (.done (s.t1sConfigured m (t1sCfgOf c)) St.ok 0 []) := by
  subst hm
  have legal : (decide (c.u 2 1 ≤ 15) && decide (2 ≤ c.u 3 1) && decide (c.u 3 1 ≤ 16) &&
      decide (c.u 2 1 < c.u 3 1) && decide (1 ≤ c.u 4 1)) =
      decide (c.u 2 1 < c.u 3 1 ∧ 2 ≤ c.u 3 1 ∧ c.u 3 1 ≤ 16 ∧ 1 ≤ c.u 4 1) := by
    simp only [← Bool.decide_and, decide_eq_decide]
    omega
  unfold edgT1sConfig
  dsimp only
  rw [if_pos port, edge_ok up runs, decide_eq_true port, check_true, unnamed, legal]
  rfl

theorem exec_configApplyAtIdle_t1s {x : T1sCfg} (port : m < 16) (waits : (s.t1sCh m).newCfg = some x)
    (runs : s.quenched Dom.edge = false) : exec (.configApplyAtIdle (96 + m)) s = .next (s.t1sApply m x) := by
  show Host.Outcome.next (s.doConfigApplyAtIdle (96 + m)) = _
  rw [doConfigApplyAtIdle, if_neg (by omega), if_neg (by omega), Nat.add_sub_cancel_left, waits]
  exact congrArg _ (if_neg (by simp [runs]))

/-! ### Transceiver modes (R333, R334) -/

/-- A mode is ordered on channels, whose modes before are kept. -/
def xcvrOrdered (s : State) (named : List Nat) (x : XcvrMode) (pn : Bool) : State :=
  named.foldl (fun s ch => (s.setEdg { s.edg with before := aset s.edg.before ch (s.chMode ch) }).xcvrOrder
    ch x pn 100000000) s

theorem edgXcvrMode_eq {pn : Bool} (up : s.datapathUp = true) (edge : s.quenched Dom.edge = false) (hm : m = c.u 0 1)
    (hpn : pn = bit (c.u 1 1) 0) (known : m ≤ 3)
    (named : ∀ ch ∈ xcvrNamed c, s.quenched (busUnit ch) = false ∧ s.chEnabled ch = true)
    (partial_ : pn = true → m = 0 ∧ c.u 16 4 = 0) : edgXcvrMode c s =
      if (xcvrNamed c).all (s.xcvrOrdered (xcvrNamed c) (xcvrOf m) pn).settled
      then .done (s.xcvrOrdered (xcvrNamed c) (xcvrOf m) pn) St.ok 0 []
      else .run (s.xcvrOrdered (xcvrNamed c) (xcvrOf m) pn) 0 := by
  subst hm hpn
  have enabled : (xcvrNamed c).all s.chEnabled = true := List.all_eq_true.2 fun ch hch => (named ch hch).2
  have allowed : (!bit (c.u 1 1) 0 || (c.u 0 1 == 0 && c.u 16 4 == 0)) = true := by
    cases e : bit (c.u 1 1) 0 with
    | false => rfl
    | true => simp [partial_ e]
  unfold edgXcvrMode
  dsimp only
  rw [edge_ok up edge, need_ok (by simpa using fun ch hch => (named ch hch).1), decide_eq_true known, enabled, allowed]
  rfl

theorem exec_xcvrModeApply_can {x : XcvrMode} {pn : Bool} (channel : ch < 64)
    (ordered : (s.canCh ch).newMode = some (x, pn)) (runs : s.quenched (busUnit ch) = false) :
    exec (.xcvrModeApply ch) s = .next (s.canMode ch x pn).xcvrDone := by
  show Host.Outcome.next (s.doXcvrModeApply ch) = _
  rw [doXcvrModeApply, if_pos channel, ordered]
  exact congrArg _ (if_neg (by simp [runs]))

theorem exec_xcvrModeForced_can {x : XcvrMode} {pn : Bool} (channel : ch < 64)
    (ordered : (s.canCh ch).newMode = some (x, pn)) (runs : s.quenched (busUnit ch) = false) :
    exec (.xcvrModeForced ch) s =
      .next (((s.waitUntil (s.canCh ch).modeBy).canMode ch x pn).raise 0x7003 ch).xcvrDone := by
  show Host.Outcome.next (s.doXcvrModeForced ch) = _
  rw [doXcvrModeForced, if_pos channel, ordered]
  exact congrArg _ (if_neg (by simp [runs]))

theorem exec_xcvrModeApply_lin {x : XcvrMode} (ordered : (s.linCh l).newMode = some x)
    (runs : s.quenched (busUnit (64 + l)) = false) :
    exec (.xcvrModeApply (64 + l)) s = .next (s.linMode l x).xcvrDone := by
  show Host.Outcome.next (s.doXcvrModeApply (64 + l)) = _
  rw [doXcvrModeApply, if_neg (by omega), Nat.add_sub_cancel_left, ordered]
  exact congrArg _ (if_neg (by simp [runs]))

theorem exec_xcvrModeForced_lin {x : XcvrMode} (ordered : (s.linCh l).newMode = some x)
    (runs : s.quenched (busUnit (64 + l)) = false) : exec (.xcvrModeForced (64 + l)) s =
      .next (((((s.waitUntil (s.linCh l).modeBy).linMode l x).linMod l fun c => { c with current := none }).raise 0x7003
        (64 + l)).xcvrDone) := by
  show Host.Outcome.next (s.doXcvrModeForced (64 + l)) = _
  rw [doXcvrModeForced, if_neg (by omega), Nat.add_sub_cancel_left, ordered]
  exact congrArg _ (if_neg (by simp [runs]))

theorem exec_xcvrSettleEnd {t : Nat} (settles : (s.canCh ch).settleAt = some t) : exec (.xcvrSettleEnd ch) s =
    .next (((s.waitUntil t).canMod ch fun c => { c with settleAt := none }).xcvrDone) := by
  show Host.Outcome.next (s.doXcvrSettleEnd ch) = _
  rw [doXcvrSettleEnd, settles]

/-! ### Recovery from bus-off on command (R330) -/

/-- Recovery begins on a channel, whose frames go if they are to. -/
def recoverOrdered (s : State) (ch : Nat) (flush : Bool) : State :=
  ((if flush then s.canFlush ch else s).canMod ch fun c => { c with latched := false }).canRecover ch

theorem edgBusOffRecover_eq (up : s.datapathUp = true) (runs : s.quenched (busUnit ch) = false) (hch : ch = c.u 0 1)
    (channel : ch < 64) : edgBusOffRecover c s = Exec.check ((s.canCh ch).state == .busOff) s 0x0504
      (.done (s.recoverOrdered ch (bit (c.u 1 1) 0)) St.ok 0 []) := by
  subst hch
  unfold edgBusOffRecover
  dsimp only
  rw [if_pos channel, edge_ok up runs, decide_eq_true channel, check_true]
  rfl

theorem recoverOrdered_canCh (s : State) (ch : Nat) (flush : Bool) : (s.recoverOrdered ch flush).canCh ch =
    { s.canCh ch with
      latched := false, recovering := true, bufs := if flush then [] else (s.canCh ch).bufs
      held := if flush then [] else (s.canCh ch).held, fifo := if flush then [] else (s.canCh ch).fifo } := by
  rw [recoverOrdered, canRecover, canCh_canMod_same, canCh_canMod_same]
  cases flush
  · rfl
  · rw [if_pos rfl, canFlush, canCh_canMod_same]
    rfl

theorem recoverOrdered_only (s : State) (ch : Nat) (flush : Bool) : Only Group.edg s (s.recoverOrdered ch flush) :=
  Only.canRecover (by decide) (Only.canMod (by decide) (Only.ite (Only.canFlush0 s ch) (Only.refl ..)))

end State

open State

/-- Settles O45, from the equation of each command and of each row: the checks that are left decide, and a channel takes
what was ordered as it stands. -/
theorem edgeConfiguration : Obligations.EdgeConfiguration := by
  intro s host q c up edge
  refine ⟨?can, ?lin, ?t1s, fun ch x => exec_configApplyAtIdle_can, ?linIdle,
    fun m x port waits => exec_configApplyAtIdle_t1s port waits edge, ?mode, ?recover,
    fun ch m pn channel ordered runs =>
      ⟨exec_xcvrModeApply_can channel ordered runs, exec_xcvrModeForced_can channel ordered runs⟩,
    fun l m _ ordered runs => ⟨exec_xcvrModeApply_lin ordered runs, exec_xcvrModeForced_lin ordered runs⟩,
    fun ch t => exec_xcvrSettleEnd⟩
  case can =>
    rintro dma ch x u w ready hch channel runs hx recover filters delay settle aligned pwm rfl rfl
    have eq := edgCanConfig_eq up runs hch hx ⟨hch ▸ channel, recover, filters, delay, settle, aligned, pwm⟩
    refine ⟨fun timing => ?_, fun timing formats => ?_, fun timing formats unnamed => ?_⟩
    · rw [timing, check_false] at eq
      exact congrArg _ (runDma_fail ready eq (by decide))
    · rw [timing, check_true, formats, check_false] at eq
      exact congrArg _ (runDma_fail ready eq (by decide))
    · rw [timing, check_true, formats, check_true, canReplaceable_unnamed unnamed, check_true] at eq
      exact congrArg _ (runDma_done ready eq)
  case lin =>
    rintro dma l x u ready hl channel runs whole aligned hx ranges unnamed tables start rfl
    have eq := edgLinConfig_eq up runs hl hx ⟨channel, whole, aligned, ranges, unnamed, tables, start⟩
    have all : (if bit (c.u 1 1) 2 then 0 else dma.length) = dma.length := if_neg (by simp [whole])
    refine (congrArg Host.Outcome.next (runDma_done ready eq)).trans ?_
    rw [all]
    rfl
  case t1s =>
    rintro m x u ready hm port runs rfl unnamed rfl
    exact congrArg _ (runCmd_checked ready (edgT1sConfig_eq up runs hm port unnamed))
  case linIdle =>
    intro l x channel waits runs
    refine ⟨_, exec_configApplyAtIdle_lin channel waits runs, ?_, ?_, ?_, fun k => linCh_linMod_other, Only.linApply0 ..⟩
    all_goals rw [linApply, linCh_linMod_same]
  case mode =>
    rintro m pn u ready hm hpn known - named partial_ rfl
    have eq := edgXcvrMode_eq up edge hm hpn known named partial_
    refine congrArg Host.Outcome.next ?_
    by_cases settled : (xcvrNamed c).all (s.xcvrOrdered (xcvrNamed c) (xcvrOf m) pn).settled = true
    · rw [if_pos settled] at eq
      exact (runCmd_done ready eq).trans (if_pos settled).symm
    · rw [if_neg settled] at eq
      exact (runCmd_run ready eq).trans (if_neg settled).symm
  case recover =>
    intro ch ready hch channel runs
    have eq := edgBusOffRecover_eq up runs hch channel
    refine ⟨fun other => ?_, fun off => ?_⟩
    · rw [beq_false_of_ne other, check_false] at eq
      exact congrArg _ (runCmd_fail ready eq)
    · rw [off, beq_self_eq_true, check_true] at eq
      have left := recoverOrdered_canCh s ch (bit (c.u 1 1) 0)
      refine ⟨_, congrArg _ (runCmd_done ready eq), by rw [left], by rw [left], fun flush => ?_, fun keep => ?_,
        recoverOrdered_only ..⟩
      · rw [left, flush]
        exact ⟨rfl, rfl⟩
      · rw [left, keep]
        exact ⟨rfl, rfl⟩

end Sys2Proof.Machine
end

section
/-! LIN channels, edge slots and 10BASE-T1S segments (R168, R327, R337 to R345): the equation of each row. -/

namespace Sys2Proof.Machine

namespace State

variable {s u : State} {l k n m d id rate ago late : Nat} {e : LinEntry} {o : OpenSlot} {idle ok : Bool}

/-! ### The schedule of a commander (R337 to R340) -/

/-- A LIN channel runs, as commander or as responder. -/
structure LinRuns (s : State) (l : Nat) (commander : Bool) : Prop where
  channel : l < 32
  up : s.busUp (64 + l) = true
  operational : (s.linCh l).operational = true
  role : (s.linCh l).cfg.commander = commander

/-- The slot that comes next has started when the one before ended, `d` units of 100 µs long. -/
def linSlotBegun (s : State) (l d : Nat) : State :=
  let t := s.waitUntil (s.linCh l).slotEnd
  t.linMod l fun c => { c with
    table := c.next.1, slot := c.next.2, next := (linAfter (s.linCh l) (s.linCh l).next).1
    resume := (linAfter (s.linCh l) (s.linCh l).next).2, slotEnd := t.clk + 100000 * d, current := none }

theorem exec_linScheduleSlot (h : s.LinRuns l true) (drives : (s.linCh l).mode = .normal) (awake : s.busQuiet = false)
    (free : s.inSlots (64 + l) = false) (slot : linSlot (s.linCh l).cfg (s.linCh l).next = some (n, d))
    (choice : linChoice (s.linCh l).cfg n = some k) :
    exec (.linScheduleSlot l) s = .next ((s.linSlotBegun l d).linHeader l k) := by
  show Host.Outcome.next (s.doLinScheduleSlot l) = _
  unfold doLinScheduleSlot
  dsimp only
  rw [if_neg (by simp [h.channel, h.up, h.operational, h.role, drives, awake, free]), slot]
  dsimp only
  rw [choice]
  rfl

theorem linSlotBegun_linCh (s : State) (l d : Nat) : (s.linSlotBegun l d).linCh l = { s.linCh l with
    table := (s.linCh l).next.1, slot := (s.linCh l).next.2, next := (linAfter (s.linCh l) (s.linCh l).next).1
    resume := (linAfter (s.linCh l) (s.linCh l).next).2
    slotEnd := (s.linSlotBegun l d).clk + 100000 * d, current := none } := by
  unfold linSlotBegun
  dsimp only
  rw [linCh_linMod_same, waitUntil_linCh]
  rfl

/-! ### Headers and responses (R338, R341 to R343) -/

theorem exec_linHeaderReceived_rate {par : Bool} (h : s.LinRuns l false)
    (beyond : 100 * rate < (s.linCh l).cfg.rate * 86 ∨ 114 * (s.linCh l).cfg.rate < 100 * rate) :
    exec (.linHeaderReceived l id rate par ago) s =
      .next ((s.bump (Reg.edgLinSyncErrCnt l)).bump (Reg.edgLinErrCnt l)) := by
  show Host.Outcome.next (s.doLinHeaderReceived l id rate par ago) = _
  unfold doLinHeaderReceived
  dsimp only
  rw [if_neg (by simp [h.channel, h.up, h.operational, h.role]), if_pos beyond]

/-- A valid header has been seen, whose entry the channel answers. -/
def linAnswers (s : State) (l rate ago n : Nat) : State :=
  ((s.linMod l fun c => { c with rate := rate }).linMod l fun c => { c with
    lastHeader := s.clk, idle := false, breakAt := s.clk - ago, current := none }).linMod l fun c =>
      { c with current := some n }

theorem exec_linHeaderReceived_published (h : s.LinRuns l false) (least : (s.linCh l).cfg.rate * 86 ≤ 100 * rate)
    (most : 100 * rate ≤ 114 * (s.linCh l).cfg.rate)
    (known : (s.linCh l).cfg.entries.findIdx? (fun e => e.id == id) = some n)
    (entry : (s.linCh l).cfg.entries[n]? = some e) (publishes : e.dir = 1) (always : e.type = 0)
    (awake : s.busQuiet = false) (drives : (s.linCh l).mode = .normal) :
    exec (.linHeaderReceived l id rate true ago) s =
      .next ((s.linAnswers l rate ago n).emit (.linResponse l (fit e.length e.data))) := by
  have answers : ¬ (e.dir = 0 ∨ (e.dir = 1 ∧ (s.busQuiet ∨ (s.linCh l).mode ≠ .normal ∨
      (e.type = 1 ∧ !e.changed)))) := by
    simp [publishes, always, awake, drives]
  show Host.Outcome.next (s.doLinHeaderReceived l id rate true ago) = _
  unfold doLinHeaderReceived
  dsimp only
  rw [if_neg (by simp [h.channel, h.up, h.operational, h.role]), if_neg (by omega), if_neg (by simp), known]
  dsimp only
  rw [entry]
  dsimp only
  exact congrArg Host.Outcome.next ((if_neg answers).trans (if_pos publishes))

theorem linAnswers_linCh (s : State) (l rate ago n : Nat) : (s.linAnswers l rate ago n).linCh l = { s.linCh l with
    rate := rate, lastHeader := s.clk, idle := false, breakAt := s.clk - ago, current := some n } := by
  rw [linAnswers, linCh_linMod_same, linCh_linMod_same, linCh_linMod_same]

theorem linAnswers_only (s : State) (l rate ago n : Nat) (p : Output) :
    Only Group.edg s ((s.linAnswers l rate ago n).emit p) :=
  Only.emit rfl (Only.linMod (by decide) (Only.linMod (by decide) (Only.linMod0 ..)))

theorem exec_linResponseEnd_idle {r : LinResult} {data : List Byte} (idle : (s.linCh l).current = none) :
    exec (.linResponseEnd l r data) s = .next s := by
  show Host.Outcome.next (s.doLinResponseEnd l r data) = _
  rw [doLinResponseEnd, idle]
  rfl

/-- A responder starts no slot. -/
theorem linSlotStart_responder (responder : (s.linCh l).cfg.commander = false) : s.linSlotStart l = s :=
  if_pos (by simp [responder])

/-- A response that the channel published has ended well. -/
def linPublished (s : State) (l n : Nat) : State :=
  ((s.linMod l fun c => { c with current := none }).bump (Reg.edgLinFrameOkCnt l)).linEntryMod l n fun e =>
    { e with changed := false }

theorem linPublished_linCh (s : State) (l n : Nat) : (s.linPublished l n).linCh l = { s.linCh l with
    current := none
    cfg := { (s.linCh l).cfg with
      entries := (s.linCh l).cfg.entries.modify n fun e => { e with changed := false } } } := by
  rw [linPublished, linEntryMod, linCh_linMod_same, bump_linCh, linCh_linMod_same]

theorem linPublished_other (other : k ≠ l) : (s.linPublished l n).linCh k = s.linCh k := by
  rw [linPublished, linEntryMod, linCh_linMod_other other, bump_linCh, linCh_linMod_other other]

theorem exec_linResponseEnd_published {data : List Byte} (current : (s.linCh l).current = some n)
    (entry : (s.linCh l).cfg.entries[n]? = some e) (up : s.busUp (64 + l) = true)
    (operational : (s.linCh l).operational = true) (publishes : e.dir = 1) (plain : (s.linCh l).cfg.respErrEntry ≠ n)
    (responder : (s.linCh l).cfg.commander = false) :
    exec (.linResponseEnd l .ok data) s = .next (s.linPublished l n) := by
  have ends : (s.linPublished l n).linSlotStart l = s.linPublished l n :=
    linSlotStart_responder (by rw [linPublished_linCh, responder])
  have frame : ((s.linCh l).current.bind fun n => ((s.linCh l).cfg.entries[n]?).map fun e => (n, e)) = some (n, e) := by
    rw [current, Option.bind_some, entry, Option.map_some]
  show Host.Outcome.next (s.doLinResponseEnd l .ok data) = _
  unfold doLinResponseEnd
  dsimp only
  rw [frame]
  dsimp only
  rw [if_neg (by simp [up, operational]), if_pos rfl, if_pos publishes, if_neg plain]
  exact congrArg _ ends

theorem exec_linBusIdleTimeout (h : s.LinRuns l false) (quiet : (s.linCh l).idle = false) :
    exec (.linBusIdleTimeout l) s = .next (((s.waitUntil ((s.linCh l).lastHeader + 1000000 *
      (s.linCh l).cfg.idleMs)).linMod l fun c => { c with idle := true }).raise 0x7004 l) :=
  congrArg Host.Outcome.next (if_neg (by simp [h.channel, h.up, h.operational, h.role, quiet]))

/-! ### An edge slot opens (R168) -/

section
variable {i : Image} {x : EdgeSlot}

/-- The slot that opens in a state, with the frame that it holds. -/
def openSlotOf (u : State) (i : Image) (n : Nat) (x : EdgeSlot) (late : Nat) (frame : Option TxItem) : OpenSlot :=
  { slot := n, image := i.id, ch := x.ch, kind := x.kind, index := x.index, ends := u.clk + (x.window - late)
    frame := frame, begun := false, done := false }

/-- That slot has taken the place of an open one that is the same. -/
def slotOpened (t : State) (cal : Cal) (o : OpenSlot) : State :=
  t.setCal { cal with openSlots := cal.openSlots.filter (fun y => !sameSlot y o) ++ [o] }

theorem exec_edgeSlotOpen_none (none : s.runningImage = none) : exec (.edgeSlotOpen n) s = .next s := by
  show Host.Outcome.next (s.doEdgeSlotOpen n) = _
  rw [doEdgeSlotOpen, none]
  rfl

/-- A slot of the running image has been reached. -/
structure ReachesSlot (s : State) (n : Nat) (i : Image) (x : EdgeSlot) (u : State) (late : Nat) : Prop where
  running : s.runningImage = some i
  slot : i.slots[n]? = some x
  reach : s.calReach i x.off = some (u, late)

theorem ReachesSlot.entry (h : s.ReachesSlot n i x u late) :
    (s.runningImage.bind fun i => (i.slots[n]?).map fun e => (i, e)) = some (i, x) := by
  rw [h.running, Option.bind_some, h.slot, Option.map_some]

theorem exec_edgeSlotOpen_passed (h : s.ReachesSlot n i x u late) (passed : x.window < late) :
    exec (.edgeSlotOpen n) s = .next u := by
  show Host.Outcome.next (s.doEdgeSlotOpen n) = _
  rw [doEdgeSlotOpen, h.entry]
  dsimp only
  rw [h.reach]
  exact congrArg _ (if_pos passed)

theorem exec_edgeSlotOpen_opens (h : s.ReachesSlot n i x u late) (within : late ≤ x.window) {p : Option TxItem × State}
    (hp : p = if x.kind = 1 then u.takeHeld x.index else (none, u)) : exec (.edgeSlotOpen n) s =
      .next (if 64 ≤ x.ch then (p.2.slotOpened u.cal (openSlotOf u i n x late p.1)).linSlotStart (x.ch - 64)
        else p.2.slotOpened u.cal (openSlotOf u i n x late p.1)) := by
  have kept : Only 0x1000 u p.2 := by
    rw [hp]
    exact Only.iteSnd (Only.takeHeld0 ..) (Only.refl ..)
  show Host.Outcome.next (s.doEdgeSlotOpen n) = _
  rw [doEdgeSlotOpen, h.entry]
  dsimp only
  rw [h.reach]
  dsimp only
  rw [if_neg (by omega), ← hp, kept.clk rfl, kept.cal rfl]
  rfl

/-- A channel that may start a slot begins an open one with its header, or leaves all as it is. -/
theorem linSlotStart_cases (s : State) (l : Nat) : s.linSlotStart l = s ∨
    ∃ (t : State) (o : OpenSlot) (k : Nat), t.cal = s.cal ∧
      s.linSlotStart l = (t.slotMod o fun o => { o with begun := true, done := true }).linHeader l k := by
  unfold linSlotStart
  dsimp only
  split
  · exact .inl rfl
  · split
    · exact .inl rfl
    next o _ =>
      split
      · exact .inr ⟨s, o, o.index, rfl, rfl⟩
      · split
        · exact .inl rfl
        next y _ => exact .inr ⟨s.linMod l _, o, y.frame.id, rfl, rfl⟩

/-- The slots that are open stay open, until the same times. -/
theorem linSlotStart_slots (s : State) (l : Nat) :
    (s.linSlotStart l).cal.openSlots.map (fun y => (y.slot, y.image, y.ends)) =
      s.cal.openSlots.map fun y => (y.slot, y.image, y.ends) := by
  obtain eq | ⟨t, o, k, cal, eq⟩ := linSlotStart_cases s l
  · rw [eq]
  · rw [eq, (Only.linHeader0 ..).cal rfl, slotMod, setCal_cal, cal, List.map_map]
    refine List.map_congr_left fun y _ => ?_
    dsimp only [Function.comp_apply]
    split <;> rfl

end

/-! ### An edge slot ends (R168, R327) -/

/-- Whether an open slot that has not begun has nothing to send. -/
def slotEmpty (s : State) (o : OpenSlot) : Bool :=
  if o.kind = 1 then o.frame.isNone else decide (o.ch < 64) && (aget (s.canCh o.ch).bufs o.index).isNone

/-- An open slot has ended. -/
def slotEnded (s : State) (o : OpenSlot) : State :=
  let t := s.waitUntil o.ends
  t.setCal { t.cal with openSlots := t.cal.openSlots.filter fun y => !sameSlot y o }

theorem slotEnded_eq (s : State) (o : OpenSlot) : s.slotEnded o =
    (s.waitUntil o.ends).setCal { s.cal with openSlots := s.cal.openSlots.filter fun y => !sameSlot y o } := by
  rw [slotEnded, waitUntil_cal]

/-- What an ended slot comes to whose frame was not sent. -/
def slotUnsent (t : State) (o : OpenSlot) (idle : Bool) : State :=
  if o.begun then
    let v := t.bump (Reg.edgCanSlotAbandonCnt o.ch)
    if o.kind = 0 && (aget (v.canCh o.ch).bufs o.index).any (·.begun) then v.txRemove o.ch (.buffer o.index) else v
  else if t.strikerNow && t.sharedCh o.ch then t
  else if idle then t.free.2.breach o.image 0xFFFF 4 o.ch t.free.1 (some (busUnit o.ch))
  else t.bump Reg.calEdgeMissCnt

theorem slotEnded_canCh (s : State) (o : OpenSlot) (k : Nat) : (s.slotEnded o).canCh k = s.canCh k :=
  canCh_of_edg (waitUntil_edg s o.ends) k

theorem slotEnded_stands (s : State) (o : OpenSlot) (k : Nat) :
    ((s.slotEnded o).strikerNow && (s.slotEnded o).sharedCh k) = (s.strikerNow && s.sharedCh k) := by
  have pair : (s.slotEnded o).pair = s.pair := waitUntil_pair s o.ends
  rw [strikerNow, strikerNow, sharedCh, sharedCh, pair]

theorem slotUnsent_abandoned (begun : o.begun = true) (hu : u = (s.slotEnded o).bump (Reg.edgCanSlotAbandonCnt o.ch)) :
    (s.slotEnded o).slotUnsent o idle = if o.kind = 0 && (aget (s.canCh o.ch).bufs o.index).any (·.begun) then
      u.txRemove o.ch (.buffer o.index) else u := by
  rw [slotUnsent, if_pos begun]
  dsimp only
  rw [bump_canCh, slotEnded_canCh, hu]

theorem slotUnsent_unbegun (waits : o.begun = false) : (s.slotEnded o).slotUnsent o idle =
    if s.strikerNow && s.sharedCh o.ch then s.slotEnded o
    else if idle then (s.slotEnded o).free.2.breach o.image 0xFFFF 4 o.ch (s.slotEnded o).free.1 (some (busUnit o.ch))
    else (s.slotEnded o).bump Reg.calEdgeMissCnt := by
  rw [slotUnsent, if_neg (by simp [waits]), slotEnded_stands]

theorem exec_edgeSlotEnd_none (none : s.cal.openSlots.find? (fun o => o.slot == n) = none) :
    exec (.edgeSlotEnd n idle) s = .next s := by
  show Host.Outcome.next (s.doEdgeSlotEnd n idle) = _
  rw [doEdgeSlotEnd, none]

/-- The earliest open slot of a number ends: without more if it is done, or has not begun and has nothing to send. -/
theorem exec_edgeSlotEnd (first : s.cal.openSlots.find? (fun o => o.slot == n) = some o) :
    exec (.edgeSlotEnd n idle) s = .next (if o.done || (!o.begun && s.slotEmpty o) then s.slotEnded o
      else (s.slotEnded o).slotUnsent o idle) := by
  have empty : s.slotEmpty o = (s.waitUntil o.ends).slotEmpty o := by rw [slotEmpty, slotEmpty, waitUntil_canCh]
  show Host.Outcome.next (s.doEdgeSlotEnd n idle) = _
  rw [doEdgeSlotEnd, first, empty]
  rfl

/-! ### 10BASE-T1S (R345) -/

/-- A port whose PHY runs with PLCA. -/
structure PlcaRuns (s : State) (m : Nat) : Prop where
  runs : s.t1sRuns m = true
  plca : (s.t1sCh m).cfg.plcaEn = true

theorem exec_plcaStatusChange_same (same : (s.t1sCh m).plcaOk = ok) : exec (.plcaStatusChange m ok) s = .next s :=
  congrArg Host.Outcome.next (if_pos (by simp [same]))

theorem exec_plcaStatusChange (h : s.PlcaRuns m) (other : (s.t1sCh m).plcaOk ≠ ok) :
    exec (.plcaStatusChange m ok) s = .next (s.plcaSet m ok) :=
  congrArg Host.Outcome.next (if_neg (by simp [h.runs, h.plca, other]))

theorem exec_t1sDupCoordinator (h : s.PlcaRuns m) (coordinator : (s.t1sCh m).cfg.nodeId = 0) :
    exec (.t1sDupCoordinator m) s =
      .next ((s.bump (Reg.edgT1sDupCoordCnt m)).t1sEvent m (m + 256 * b2n (s.t1sCh m).plcaOk + 512)) :=
  congrArg Host.Outcome.next (if_neg (by simp [h.runs, h.plca, coordinator]))

theorem exec_t1sCollision (h : s.PlcaRuns m) : exec (.t1sCollision m) s = .next (s.bump (Reg.edgT1sCollCnt m)) :=
  congrArg Host.Outcome.next (if_neg (by simp [h.runs, h.plca]))

end State

open State

/-- Settles O46, from the equation of each row: an open slot ends by whether it is done, empty, begun or waits. -/
theorem linAndSegments : Obligations.LinAndSegments := by
  rintro s l c rfl
  refine ⟨?schedule, fun id rate par ago channel up operational role => exec_linHeaderReceived_rate
      ⟨channel, up, operational, role⟩, ?header, fun r data => exec_linResponseEnd_idle, ?response,
    fun channel up operational role => exec_linBusIdleTimeout ⟨channel, up, operational, role⟩, ?opens,
    fun n => exec_edgeSlotOpen_none, fun n idle => exec_edgeSlotEnd_none, ?ends, ?segment⟩
  case schedule =>
    intro n d k channel up operational role drives awake free slot choice
    have eq := linSlotBegun_linCh s l d
    exact ⟨_, exec_linScheduleSlot ⟨channel, up, operational, role⟩ drives awake free slot choice, rfl,
      (congrArg LinCh.slotEnd eq :), (congrArg LinCh.next eq :), (congrArg LinCh.cfg eq :), waitUntil_out ..⟩
  case header =>
    intro id rate ago n e channel up operational role least most known entry publishes always awake drives
    have eq := linAnswers_linCh s l rate ago n
    exact ⟨_, exec_linHeaderReceived_published ⟨channel, up, operational, role⟩ least most known entry publishes always
      awake drives, rfl, (congrArg LinCh.current eq :), (congrArg LinCh.rate eq :), (congrArg LinCh.lastHeader eq :),
      (congrArg LinCh.idle eq :), linAnswers_only ..⟩
  case response =>
    intro n e data current entry up operational publishes plain responder
    have eq := linPublished_linCh s l n
    exact ⟨_, exec_linResponseEnd_published current entry up operational publishes plain responder,
      (congrArg LinCh.current eq :), fun k => linPublished_other, (congrArg (·.cfg.entries) eq :)⟩
  case opens =>
    intro n i x u late running slot reach
    have h : s.ReachesSlot n i x u late := ⟨running, slot, reach⟩
    refine ⟨exec_edgeSlotOpen_passed h, fun p o within hp ho => ?_⟩
    have eq := exec_edgeSlotOpen_opens h within hp
    obtain rfl : o = openSlotOf u i n x late p.1 := ho
    refine ⟨fun can => ?_, fun lin => ?_⟩
    · rw [if_neg (by omega)] at eq
      exact eq
    · rw [if_pos lin] at eq
      exact ⟨_, eq, linSlotStart_slots ..⟩
  case ends =>
    rintro n o u empty first hu hempty
    obtain rfl : u = s.slotEnded o := hu.trans (slotEnded_eq s o).symm
    obtain rfl : empty = s.slotEmpty o := hempty
    refine ⟨fun idle done => ?_, fun idle waits empty => ?_, fun idle v open_ begun hv => ?_,
      fun open_ waits full acts => ⟨?_, ?_⟩, fun idle waits stands => ?_⟩
    · simp [exec_edgeSlotEnd first, done]
    · simp [exec_edgeSlotEnd first, waits, empty]
    · simp [exec_edgeSlotEnd first, open_, begun, slotUnsent_abandoned begun hv]
    · simp [exec_edgeSlotEnd first, open_, full, slotUnsent_unbegun waits, acts]
    · simp [exec_edgeSlotEnd first, open_, full, slotUnsent_unbegun waits, acts]
    · rw [exec_edgeSlotEnd first, slotUnsent_unbegun waits, stands, if_pos rfl, ite_self]
  case segment =>
    intro m runs plca
    have h : s.PlcaRuns m := ⟨runs, plca⟩
    exact ⟨fun ok => exec_plcaStatusChange_same, fun ok => exec_plcaStatusChange h, exec_t1sDupCoordinator h,
      exec_t1sCollision h⟩

end Sys2Proof.Machine
end

section
/-! What the tunnel engine and the signal router hold after an operation of their own, and the entries of the running
image that start them. -/

namespace Sys2Proof.Machine

namespace State

variable {s t : State} {k n : Nat}

/-! ### Tunnel channels -/

@[simp] theorem tunCh_tunMod_same (s : State) (n : Nat) (f : TunCh → TunCh) :
    (s.tunMod n f).tunCh n = f (s.tunCh n) := by
  show agetD (aset s.tun.ch n _) n {} = _
  rw [agetD, aget_aset_same]
  rfl

theorem tunCh_tunMod_other {f : TunCh → TunCh} (h : k ≠ n) : (s.tunMod n f).tunCh k = s.tunCh k := by
  show agetD (aset s.tun.ch n _) k {} = _
  rw [agetD, aget_aset_other _ _ h]
  rfl

theorem tunCh_of_tun (same : t.tun = s.tun) (k : Nat) : t.tunCh k = s.tunCh k :=
  congrArg (fun e : Tun => agetD e.ch k {}) same

/-! ### Sequencers -/

@[simp] theorem seqOf_seqMod_same (s : State) (q : Nat) (f : Sequencer → Sequencer) :
    (s.seqMod q f).seqOf q = f (s.seqOf q) := by
  show agetD (aset s.sig.seqs q _) q {} = _
  rw [agetD, aget_aset_same]
  rfl

theorem seqOf_of_sig (same : t.sig = s.sig) (q : Nat) : t.seqOf q = s.seqOf q :=
  congrArg (fun e : Sig => agetD e.seqs q {}) same

/-! ### Counters -/

@[simp] theorem bump_clk (s : State) (o : Nat) : (s.bump o).clk = s.clk := (Only.bump0 s o).clk rfl

@[simp] theorem bump_fr (s : State) (o : Nat) : (s.bump o).fr = s.fr := (Only.bump0 s o).fr rfl

@[simp] theorem bump_tun (s : State) (o : Nat) : (s.bump o).tun = s.tun := (Only.bump0 s o).tun rfl

@[simp] theorem bump_sig (s : State) (o : Nat) : (s.bump o).sig = s.sig := (Only.bump0 s o).sig rfl

/-! ### Time -/

theorem domTick_zero (d : Domain) : domTick 0 d = d := by
  unfold domTick
  split
  · rfl
  · by_cases slews : 0 < d.slew.natAbs
    · simp [slews]
    · have none : d.slew = 0 := by omega
      have same : ({ d with slew := 0 } : Domain) = d := congrArg (fun x : Int => { d with slew := x }) none.symm
      simpa [none] using same

theorem tick_zero (s : State) : s.tick 0 = s := by
  have still : (s.dom.map fun (i, d) => (i, domTick 0 d)) = s.dom := by simp [domTick_zero]
  unfold tick
  rw [still]
  split
  · rfl
  · exact ite_self s

/-- A time that has passed is not waited for. -/
theorem waitUntil_past {t : Nat} (past : t ≤ s.clk) : s.waitUntil t = s := by
  rw [waitUntil, show (t - s.clk + 1) / 2 = 0 by omega, tick_zero]

/-- How long a wait lasts turns on the clock and the power state alone. -/
theorem waitUntil_clk_eq (clk : t.clk = s.clk) (pwr : t.pwr = s.pwr) (x : Nat) :
    (t.waitUntil x).clk = (s.waitUntil x).clk := by
  rw [waitUntil, waitUntil, tick, tick, pwr, clk]
  split
  · exact clk
  · split <;> rfl

/-- While the datapath runs, a time that is waited for comes. -/
theorem le_waitUntil_clk (up : s.datapathUp = true) (t : Nat) : t ≤ (s.waitUntil t).clk := by
  have run : s.pwr.state = .run := eq_of_beq (Bool.and_eq_true_iff.1 up).1
  exact (waitUntil_clk s t (by simp [run]) (by simp [run])).1

/-! ### Entries of the running image -/

theorem runningEntry {α : Type} {i : Image} {e : α} {entries : Image → List α} (running : s.runningImage = some i)
    (entry : (entries i)[n]? = some e) :
    (s.runningImage.bind fun i => ((entries i)[n]?).map fun e => (i, e)) = some (i, e) := by
  rw [running, Option.bind_some, entry, Option.map_some]

end State

end Sys2Proof.Machine
end

section
/-! The tunnel engine (R22, R351, R356 to R365, R381 to R383, R402): the equation of each row. A frame that is injected
moves on what waits behind it, and the messages of a held frame touch no other hold. -/

namespace Sys2Proof.Machine

namespace State

variable {s t u : State} {n w x chan host q : Nat} {c : Cmd}

/-! ### An edge frame is taken (R351, R356) -/

/-- A channel without batching and without profile takes its first frame. -/
structure EncapTakes (s : State) (n chan : Nat) (x : RxItem) : Prop where
  runs : s.tunRuns n = true
  flowed : s.batchFlow n = s
  takes : s.encTakes n = true
  single : bit (s.tunCh n).flags 3 = false
  room : s.xRoom (onX1 n) ((s.tunCh n).maxBytes + 46) = true
  plain : 64 ≤ (s.tunCh n).profile
  first : rxFirst (s.rxFor n) = some (chan, x)

/-- The channel has taken a stored frame. -/
def encTaken (s : State) (n chan : Nat) (x : RxItem) : State :=
  s.rxTake chan x.seq fun y => { y with tunnels := y.tunnels.filter (· ≠ n) }

/-- The map entry of an edge channel. -/
def edgeEntry (t : TunCh) (chan : Nat) : Option BusMapEntry := t.busMap.find? fun b => bit b.flags 0 && b.edge == chan

/-- The message that a stored frame becomes, on the bus of a map entry. -/
def edgeMsg (s : State) (domain chan : Nat) (b : BusMapEntry) (x : RxItem) : TunMsg :=
  { bytes := s.acfOf chan b.bus x.frame (x.doms.getD domain 0), stamp := x.doms.getD domain 0, eof := x.eof }

section
variable {item : RxItem} {b : BusMapEntry}

theorem EncapTakes.unrefused (h : s.EncapTakes n chan item) :
    ¬ (!s.tunRuns n || !s.encTakes n || !(if bit (s.tunCh n).flags 3 then (s.tunCh n).closed.isNone
        else s.xRoom (onX1 n) ((s.tunCh n).maxBytes + 46)) ||
      (decide ((s.tunCh n).profile < 64) && decide (4096 ≤ s.sec.queue.length))) = true := by
  simp [h.runs, h.takes, h.single, h.room, h.plain]

theorem exec_tunEncapTake_unmapped (h : s.EncapTakes n chan item) (unmapped : edgeEntry (s.tunCh n) chan = none) :
    exec (.tunEncapTake n) s = .next ((s.encTaken n chan item).bump Reg.tunEncDropCnt) := by
  show Host.Outcome.next (s.doTunEncapTake n) = _
  unfold doTunEncapTake
  dsimp only
  rw [if_pos h.runs, h.flowed, if_neg h.unrefused, h.first]
  dsimp only
  rw [edgeEntry] at unmapped
  rw [unmapped]
  rfl

theorem exec_tunEncapTake_mapped (h : s.EncapTakes n chan item) (mapped : edgeEntry (s.tunCh n) chan = some b) :
    exec (.tunEncapTake n) s = .next (
      if (s.tunCh n).maxBytes < ((s.encTaken n chan item).edgeMsg (s.tunCh n).domain chan b item).bytes.length
      then (s.encTaken n chan item).bump Reg.tunEncDropCnt
      else (s.encTaken n chan item).tunSend n [(s.encTaken n chan item).edgeMsg (s.tunCh n).domain chan b item]
        .none none) := by
  show Host.Outcome.next (s.doTunEncapTake n) = _
  unfold doTunEncapTake
  dsimp only
  rw [if_pos h.runs, h.flowed, if_neg h.unrefused, h.first]
  dsimp only
  rw [edgeEntry] at mapped
  rw [mapped]
  dsimp only
  rw [if_pos h.plain, h.single]
  rfl

end

/-! ### Batches and windows (R356, R357) -/

theorem exec_batchTimeout (runs : s.tunRuns n = true) (free : s.hasWindow n = false) (flowed : s.batchFlow n = s) :
    exec (.batchTimeout n) s = .next (if (s.tunCh n).batch.isEmpty then s
      else (s.waitUntil ((s.tunCh n).batchAt + 1000 * (s.tunCh n).batchUs)).batchClose n) := by
  show Host.Outcome.next (s.doBatchTimeout n) = _
  unfold doBatchTimeout
  dsimp only
  rw [if_neg (by simp [runs, free]), flowed]

section
variable {i : Image} {e : TunWindow} {late : Nat} (running : s.runningImage = some i) (window : i.windows[w]? = some e)
include running window

theorem exec_tunnelWindowOpen (reach : s.calReach i e.opens = some (u, late)) (open_ : late < e.closes - e.opens)
    (stopped : u.tunRuns e.ch = false) : exec (.tunnelWindowOpen w) s =
      .next (u.setCal { u.cal with openWindows := e.ch :: u.cal.openWindows.filter (· ≠ e.ch) }) := by
  show Host.Outcome.next (s.doTunnelWindowOpen w) = _
  rw [doTunnelWindowOpen, runningEntry running window]
  dsimp only
  rw [reach]
  dsimp only
  rw [if_neg (by omega)]
  exact congrArg _ (if_neg (ne_true_of_eq_false stopped))

theorem exec_tunnelWindowClose (reach : s.calReach i e.closes = some (u, late)) (opened : e.ch ∈ s.cal.openWindows)
    (ht : t = u.setCal { u.cal with openWindows := u.cal.openWindows.filter (· ≠ e.ch) }) :
    exec (.tunnelWindowClose w) s = .next (if t.tunRuns e.ch then t.batchClose e.ch else t) := by
  show Host.Outcome.next (s.doTunnelWindowClose w) = _
  rw [doTunnelWindowClose, runningEntry running window]
  dsimp only
  rw [if_neg (by simpa using opened), reach, ht]

end

/-! ### Injection (R22, R357, R494) -/

/-- What waits behind an injection port moves on. -/
def xMovesOn (s : State) (second : Bool) : State :=
  let t := ((List.range 4).filter fun q => decide (2 ≤ q) == second).foldl
    (fun s q => seqMoveOn (s.seqOf q).outbox.length q s) s
  ((t.tun.ch.map (·.1)).filter fun n => onX1 n == second).foldl tunMoveOn t

theorem xMovesOn_only (s : State) (second : Bool) : Only 0x1800 s (s.xMovesOn second) :=
  Only.foldl (fun _ _ h => Only.tunMoveOn (by decide) h)
    (Only.foldl (fun _ _ h => Only.seqMoveOn (by decide) h) (Only.refl ..))

/-- Where nothing waits, nothing moves. -/
theorem xMovesOn_nothing (closed : ∀ k, (s.tunCh k).closed = none) (outbox : ∀ k, (s.seqOf k).outbox = [])
    (second : Bool) : s.xMovesOn second = s := by
  have sequencer (q : Nat) : seqMoveOn (s.seqOf q).outbox.length q s = s := by
    rw [outbox]
    rfl
  have channel (k : Nat) : s.tunMoveOn k = s := by
    rw [tunMoveOn, closed]
  unfold xMovesOn
  dsimp only
  rw [List.foldl_fixed' (f := fun s q => seqMoveOn (s.seqOf q).outbox.length q s) sequencer]
  exact List.foldl_fixed' channel _

/-- The frames that wait at an injection port. -/
def xQueue (s : State) (x : Nat) : List XFrame := if x = 1 then s.tun.x1 else s.tun.x0

/-- The first of them has left. -/
def xPopped (s : State) (x : Nat) (r : List XFrame) : State :=
  s.setTun (if x = 1 then { s.tun with x1 := r } else { s.tun with x0 := r })

/-- When an injection port may inject again. -/
def xFreeAt (s : State) (x : Nat) : Nat := if x = 1 then s.tun.free1 else s.tun.free0

/-- An injection port waits until it may inject, and is then busy with a frame. -/
def xBusy (s : State) (x : Nat) (f : XFrame) : State :=
  let t := s.waitUntil (s.xFreeAt x)
  t.setTun (if x = 1 then { t.tun with free1 := t.clk + 4 * f.bytes.length }
    else { t.tun with free0 := t.clk + 4 * f.bytes.length })

/-- The frame that comes in from an injection port. -/
def xFrameIn (s : State) (x : Nat) (f : XFrame) : Frame :=
  { fid := s.fr.next, src := 65 + x, origin := f.origin, tIn := s.clk, start := f.start, inAt := s.clk, bytes := f.bytes
    complete := true, lastAt := s.clk, edge := f.edge, ticket := f.ticket }

/-- It is the newest of the frames and waits for its lookup. -/
def xEnters (s : State) (x : Nat) (f : XFrame) : State :=
  s.setFr { s.fr with
    next := s.fr.next + 1, frames := s.fr.frames ++ [s.xFrameIn x f], heads := s.fr.heads ++ [(65 + x, s.fr.next)]
    owed := s.fr.owed ++ if f.edge = .waiting then [⟨65 + x, s.fr.next, f.ticket, none⟩] else [] }

/-- The frame of a tunnel channel is counted. -/
def xCounted (s : State) (f : XFrame) : State := if f.origin < 512 then s.bump Reg.tunEncFrameCnt else s

/-- A port injects a frame. -/
def xInjected (s : State) (x : Nat) (f : XFrame) : State := ((s.xBusy x f).xCounted f).xEnters x f

/-- An injection port that may inject, with its first frame. -/
structure Injects (s : State) (x : Nat) (f : XFrame) (r : List XFrame) : Prop where
  port : x < 2
  services : s.quenched Dom.services = false
  pipe : s.quenched (pipeDom x) = false
  queue : s.xQueue x = f :: r

section
variable {f : XFrame} {r : List XFrame}

theorem xPopped_tunCh (s : State) (x k : Nat) (r : List XFrame) : (s.xPopped x r).tunCh k = s.tunCh k := by
  unfold xPopped
  split <;> rfl

theorem xPopped_freeAt (s : State) (x : Nat) (r : List XFrame) : (s.xPopped x r).xFreeAt x = s.xFreeAt x := by
  unfold xFreeAt xPopped
  split <;> rfl

theorem xPopped_standbyDiscards (s : State) (x : Nat) (f : XFrame) (r : List XFrame) :
    (s.xPopped x r).standbyDiscards f = s.standbyDiscards f := by
  rw [standbyDiscards, standbyDiscards, xPopped_tunCh]
  rfl

theorem exec_xPortInject (up : s.datapathUp = true) (h : s.Injects x f r) : exec (.xPortInject x) s =
    .next ((if s.standbyDiscards f then (s.xPopped x r).bump Reg.pairStandbyDiscardCnt
      else (s.xPopped x r).xInjected x f).xMovesOn (decide (x = 1))) := by
  have queue : (if decide (x = 1) = true then s.tun.x1 else s.tun.x0) = f :: r := by
    simpa only [xQueue, decide_eq_true_eq] using h.queue
  have port := h.port
  rw [← xPopped_standbyDiscards s x f r]
  show Host.Outcome.next (s.doXPortInject x) = _
  unfold doXPortInject
  dsimp only
  rw [if_neg (by simp [up, h.services, h.pipe]; omega), queue]
  simp only [decide_eq_true_eq]
  rfl

theorem xCounted_only (s : State) (f : XFrame) : Only 0xB s (s.xCounted f) := Only.ite (Only.bump0 ..) (Only.refl ..)

theorem xInjected_clk (s : State) (x : Nat) (f : XFrame) :
    (s.xInjected x f).clk = (s.waitUntil (s.xFreeAt x)).clk :=
  (xCounted_only ..).clk rfl

theorem xInjected_tun (s : State) (x : Nat) (f : XFrame) : (s.xInjected x f).tun =
    if x = 1 then { s.tun with free1 := (s.xInjected x f).clk + 4 * f.bytes.length }
    else { s.tun with free0 := (s.xInjected x f).clk + 4 * f.bytes.length } := by
  have counted : (s.xInjected x f).tun = (s.xBusy x f).tun := (xCounted_only ..).tun rfl
  rw [counted, xInjected_clk, xBusy, setTun_tun, waitUntil_tun]

theorem xInjected_sig (s : State) (x : Nat) (f : XFrame) : (s.xInjected x f).sig = s.sig :=
  ((xCounted_only ..).sig rfl).trans (waitUntil_sig ..)

theorem xInjected_tunCh (s : State) (x k : Nat) (f : XFrame) : (s.xInjected x f).tunCh k = s.tunCh k := by
  rw [tunCh, xInjected_tun]
  split <;> rfl

/-- The port's queue is without its first frame, which takes 4 ns per byte, and the other port's is as it was. -/
theorem xInjected_ports (s : State) (x : Nat) (f : XFrame) (r : List XFrame) (t : State)
    (ht : t = (s.xPopped x r).xInjected x f) :
    if x = 1 then t.tun.x1 = r ∧ t.tun.free1 = t.clk + 4 * f.bytes.length ∧ t.tun.x0 = s.tun.x0
    else t.tun.x0 = r ∧ t.tun.free0 = t.clk + 4 * f.bytes.length ∧ t.tun.x1 = s.tun.x1 := by
  have tun := (congrArg State.tun ht).trans (xInjected_tun (s.xPopped x r) x f)
  rw [← ht] at tun
  rw [tun, xPopped]
  by_cases port : x = 1
  · rw [if_pos port, if_pos port, if_pos port]
    exact ⟨rfl, rfl, rfl⟩
  · rw [if_neg port, if_neg port, if_neg port]
    exact ⟨rfl, rfl, rfl⟩

/-- One whole frame has come in, behind those that were there. -/
theorem xInjected_fr (s : State) (x : Nat) (f : XFrame) : ∃ g : Frame, g.fid = s.fr.next ∧ g.src = 65 + x ∧
    g.bytes = f.bytes ∧ g.complete = true ∧ g.start = f.start ∧ g.edge = f.edge ∧
    (s.xInjected x f).fr.frames = s.fr.frames ++ [g] ∧
    (s.xInjected x f).fr.heads = s.fr.heads ++ [(65 + x, s.fr.next)] := by
  have fr : ((s.xBusy x f).xCounted f).fr = s.fr := ((xCounted_only ..).fr rfl).trans (waitUntil_fr ..)
  refine ⟨((s.xBusy x f).xCounted f).xFrameIn x f, congrArg Frames.next fr, rfl, rfl, rfl, rfl, rfl, ?_, ?_⟩
  · exact congrArg (·.frames ++ _) fr
  · exact congrArg (fun fr : Frames => fr.heads ++ [(65 + x, fr.next)]) fr

end

/-! ### Decapsulation (R360 to R362, R402) -/

/-- The first of the committed frames at an injection port has been taken. -/
def inPopped (s : State) (x : Nat) (r : List (List Byte)) : State :=
  s.setTun (if x = 1 then { s.tun with in1 := r } else { s.tun with in0 := r })

/-- The channel that takes apart the frames of a stream. -/
def streamChannel (s : State) (stream : Nat) : Option (Nat × TunCh) :=
  s.tun.ch.find? fun y => bit y.2.flags 0 && bit y.2.flags 1 && y.2.stream == stream

/-- A tunnel engine that runs, with the first committed frame at an injection port. -/
structure Decapsulates (s : State) (x : Nat) (f : List Byte) (r : List (List Byte)) : Prop where
  port : x < 2
  up : s.datapathUp = true
  services : s.quenched Dom.services = false
  queue : (if x = 1 then s.tun.in1 else s.tun.in0) = f :: r

section
variable {f : List Byte} {r : List (List Byte)} {k : Nat} {ch : TunCh}

theorem Decapsulates.unrefused (h : s.Decapsulates x f r) :
    ¬ (decide (1 < x) || !s.datapathUp || s.quenched Dom.services) = true := by
  have port := h.port
  simp [h.up, h.services]
  omega

theorem exec_tunDecapsulate_other (h : s.Decapsulates x f r) (other : (parse f).etherType ≠ 0x22F0) :
    exec (.tunDecapsulate x) s = .next ((s.inPopped x r).bump Reg.tunNomatchCnt) := by
  have unmatched (o : Option (Nat × TunCh)) :
      (o.filter fun _ => (parse f).etherType == 0x22F0 && decide (12 ≤ (f.drop (parse f).l3).length)) = none := by
    rw [beq_false_of_ne other]
    cases o <;> rfl
  show Host.Outcome.next (s.doTunDecapsulate x) = _
  unfold doTunDecapsulate
  simp only [decide_eq_true_eq]
  rw [if_neg h.unrefused, h.queue]
  dsimp only
  rw [unmatched]
  rfl

theorem exec_tunDecapsulate_matched (h : s.Decapsulates x f r) (avtp : (parse f).etherType = 0x22F0)
    (long : 12 ≤ (f.drop (parse f).l3).length)
    (channel : s.streamChannel (be (f.drop (parse f).l3) 4 8) = some (k, ch)) :
    exec (.tunDecapsulate x) s = .next (
      if s.quenched (tunUnit k) then s.inPopped x r
      else if s.rfld Reg.tunCtrl 1 1 = 0 then
        ((s.inPopped x r).bump Reg.tunDecFrameCnt).bump Reg.tunDecDiscardCnt
      else if ch.profile < 64 ∧ !bit ch.flags 4 ∧
        4096 < s.sec.queue.length + (f.drop (parse f).l3).length / 4 then s
      else ((s.inPopped x r).bump Reg.tunDecFrameCnt).tunFrameIn k (f.drop (parse f).l3)) := by
  rw [streamChannel] at channel
  show Host.Outcome.next (s.doTunDecapsulate x) = _
  unfold doTunDecapsulate
  simp only [decide_eq_true_eq]
  rw [if_neg h.unrefused, h.queue]
  dsimp only
  rw [channel, Option.filter_some, avtp, decide_eq_true long]
  rfl

end

/-! ### Frames held for presentation (R363) -/

theorem pres_tunMod (s : State) (n k : Nat) {f : TunCh → TunCh} (kept : ∀ t, (f t).pres = t.pres) :
    ((s.tunMod k f).tunCh n).pres = (s.tunCh n).pres := by
  by_cases same : n = k
  · rw [same, tunCh_tunMod_same, kept]
  · rw [tunCh_tunMod_other same]

theorem tunDiscard_pres (s : State) (n k cause : Nat) : ((s.tunDiscard k cause).tunCh n).pres = (s.tunCh n).pres := by
  unfold tunDiscard
  dsimp only
  refine (pres_tunMod _ n k ?_).trans (congrArg TunCh.pres (tunCh_of_tun ?_ n))
  · exact fun _ => rfl
  · rw [(Only.raiseLimited0 ..).tun rfl, rset_tun, bump_tun]

theorem tunPut_pres (s : State) (n k : Nat) (m : DecMsg) : ((s.tunPut k m).tunCh n).pres = (s.tunCh n).pres := by
  unfold tunPut
  split
  · exact tunDiscard_pres ..
  next b _ =>
    dsimp only
    split
    · split
      · exact tunDiscard_pres ..
      · exact congrArg TunCh.pres (tunCh_of_tun ((Only.canWrite0 ..).tun rfl) n)
    · split
      · exact tunDiscard_pres ..
      · split
        · exact congrArg TunCh.pres (tunCh_of_tun ((Only.linPublish0 ..).tun rfl) n)
        · exact tunDiscard_pres ..

/-- Writing a message touches no hold: it goes to the router, to its target, to the cipher pool or is discarded. -/
theorem tunWrite_pres (s : State) (n k : Nat) (m : DecMsg) : ((s.tunWrite k m).tunCh n).pres = (s.tunCh n).pres := by
  unfold tunWrite
  dsimp only
  split
  · exact congrArg TunCh.pres (tunCh_of_tun
      ((Only.foldl (fun _ _ h => Only.sigArrive (by decide) h) (Only.refl 0x140B s)).tun rfl) n)
  · split
    · exact tunPut_pres ..
    · have entered : (s.cipherEnter k (s.tunCh k).profile (s.tunCh k).keySlot m.frame.data).2.tun = s.tun :=
        (Only.cipherEnter0 ..).tun rfl
      split
      · exact (tunDiscard_pres ..).trans (congrArg TunCh.pres (tunCh_of_tun ((bump_tun ..).trans entered) n))
      · refine (pres_tunMod _ n k ?_).trans (congrArg TunCh.pres (tunCh_of_tun entered n))
        exact fun _ => rfl

theorem tunWriteAll_pres (s : State) (n k : Nat) (l : List DecMsg) :
    ((s.tunWriteAll k l).tunCh n).pres = (s.tunCh n).pres := by
  unfold tunWriteAll
  induction l generalizing s with
  | nil => rfl
  | cons m r ih => exact (ih _).trans (tunWrite_pres ..)

/-- Frames that are held for longer stay. -/
theorem presFlow_held (k : Nat) (held : ∀ y ∈ (s.tunCh n).pres, s.clk < y.2) : presFlow k n s = s := by
  cases k with
  | zero => rfl
  | succ k =>
    unfold presFlow
    split
    · rfl
    next ms t r eq => exact if_neg (Nat.not_le.2 (held (ms, t) (eq ▸ List.mem_cons_self)))

/-- A frame's hold ends alone where the ones behind it last longer. -/
theorem exec_presentationHoldEnd {ms : List DecMsg} {until_ : Nat} {r : List (List DecMsg × Nat)}
    (up : s.datapathUp = true) (runs : s.tunRuns n = true) (holds : (s.tunCh n).pres = (ms, until_) :: r)
    (held : ∀ y ∈ r, (s.waitUntil until_).clk < y.2) : exec (.presentationHoldEnd n) s =
      .next (((s.waitUntil until_).tunMod n fun t => { t with pres := r }).tunWriteAll n ms) := by
  have waits : ((s.waitUntil until_).tunCh n).pres = (ms, until_) :: r :=
    (congrArg TunCh.pres (tunCh_of_tun (waitUntil_tun ..) n)).trans holds
  show Host.Outcome.next (s.doPresentationHoldEnd n) = _
  rw [doPresentationHoldEnd, if_neg (by simp [runs]), holds]
  dsimp only
  rw [List.length_cons, presFlow, waits]
  dsimp only
  rw [if_pos (le_waitUntil_clk up until_), presFlow_held]
  rw [tunWriteAll_pres, tunCh_tunMod_same, (Only.tunWriteAll0 ..).clk rfl]
  exact held

/-! ### `TUN_CHANNEL_SET` (R381 to R383) -/

/-- The body of a `TUN_CHANNEL_SET` with its fields in range. -/
structure TunLegal (c : Cmd) (x : TunCh) : Prop where
  channel : c.u 0 2 < 512
  domain : x.domain < 4
  bytesMin : 64 ≤ x.maxBytes
  bytesMax : x.maxBytes ≤ 4032
  msgsMin : 1 ≤ x.maxMsgs
  msgsMax : x.maxMsgs ≤ 64
  batchMin : 1 ≤ x.batchUs
  batchMax : x.batchUs ≤ 10000
  profile : x.profile < 64 ∨ x.profile = 0xFFFF
  keySlot : x.keySlot < 1024
  untimed : bit x.flags 2 = true → bit x.flags 5 = false ∧ bit x.flags 6 = false

/-- Whether a decapsulating channel would take a stream that another one has. -/
def streamTaken (s : State) (n : Nat) (x : TunCh) : Bool :=
  bit x.flags 0 && bit x.flags 1 && s.tun.ch.any fun y =>
    y.1 != n && bit y.2.flags 0 && bit y.2.flags 1 && y.2.stream == x.stream

theorem tunChannelSet_eq {x : TunCh} (up : s.datapathUp = true) (runs : s.quenched (tunUnit n) = false)
    (hn : n = c.u 0 2) (hx : x = tunBody c) (h : TunLegal c x) (unnamed : s.namesTunnel n = false) :
    tunChannelSet c s = Exec.check (!s.streamTaken n x) s 0x0601 (Exec.check (busMapOk x) s 0x0602
      (.done (s.tunApply n x) St.ok 0 [])) := by
  subst hn hx
  have profiled : ((tunBody c).profile == 0xFFFF ||
      ((tunBody c).profile < 64 && (tunBody c).keySlot < 1024)) = true := by
    rcases h.profile with named | none
    · simp [named, h.keySlot]
    · simp [none]
  have untimed : (!(bit (tunBody c).flags 2 && (bit (tunBody c).flags 5 || bit (tunBody c).flags 6))) = true := by
    cases kind : bit (tunBody c).flags 2
    · rfl
    · obtain ⟨held, stamped⟩ := h.untimed kind
      rw [held, stamped]
      rfl
  have taken : (!(bit (tunBody c).flags 0 && bit (tunBody c).flags 1) || !(s.tun.ch.any fun (y : Nat × TunCh) =>
      y.1 != c.u 0 2 && bit y.2.flags 0 && bit y.2.flags 1 && y.2.stream == (tunBody c).stream)) =
      !s.streamTaken (c.u 0 2) (tunBody c) := (Bool.not_and ..).symm
  unfold tunChannelSet
  dsimp only
  rw [datapath_ok up, need_ok (by simpa using runs), decide_eq_true h.channel, decide_eq_true h.domain,
    decide_eq_true h.bytesMin, decide_eq_true h.bytesMax, decide_eq_true h.msgsMin, decide_eq_true h.msgsMax,
    decide_eq_true h.batchMin, decide_eq_true h.batchMax, profiled, untimed, taken, unnamed]
  rfl

end State

open State

/-- Settles O47, from the equation of each row: what is injected or taken apart is the port's first frame, and what
waits behind it moves on by itself alone. -/
theorem tunnelEngine : Obligations.TunnelEngine := by
  intro s n up
  refine ⟨?encap, exec_batchTimeout, ?window, ?inject, ?discard, ?decap,
    fun ms t r => exec_presentationHoldEnd up, ?set⟩
  case encap =>
    intro chan x runs flowed takes single room plain first
    have h : s.EncapTakes n chan x := ⟨runs, flowed, takes, single, room, plain, first⟩
    refine ⟨_, rfl, exec_tunEncapTake_unmapped h, fun b m mapped hm => ?_⟩
    subst hm
    exact exec_tunEncapTake_mapped h mapped
  case window =>
    intro w i e u late running window
    refine ⟨exec_tunnelWindowOpen running window, fun reach opened => ⟨_, rfl, ?_, ?_⟩⟩
    · simp
    · exact exec_tunnelWindowClose running window reach opened rfl
  case inject =>
    intro x f r port services pipe queue acts
    have eq := exec_xPortInject up ⟨port, services, pipe, queue⟩
    rw [acts, if_neg (by decide)] at eq
    have moves := xMovesOn_only ((s.xPopped x r).xInjected x f) (decide (x = 1))
    obtain ⟨g, fid, src, bytes, complete, start, edge, frames, heads⟩ := xInjected_fr (s.xPopped x r) x f
    refine ⟨_, g, eq, ?_, (congrArg Frames.frames (moves.fr rfl)).trans frames, fid, src, bytes, complete, start,
      edge, (congrArg Frames.heads (moves.fr rfl)).trans heads, fun closed outbox => ?_⟩
    · rw [moves.clk rfl, xInjected_clk, xPopped_freeAt]
      exact waitUntil_clk_eq (s := s) (t := s.xPopped x r) rfl rfl (s.xFreeAt x)
    · rw [xMovesOn_nothing (fun k => ?_) fun k => ?_]
      · exact xInjected_ports s x f r _ rfl
      · rw [xInjected_tunCh, xPopped_tunCh, closed]
      · rw [seqOf_of_sig (xInjected_sig ..)]
        exact outbox k
  case discard =>
    intro x f r port services pipe queue discards closed outbox
    have eq := exec_xPortInject up ⟨port, services, pipe, queue⟩
    rw [discards, if_pos rfl, xMovesOn_nothing (fun k => ?_) fun k => ?_] at eq
    · exact eq
    · rw [tunCh_of_tun (bump_tun ..), xPopped_tunCh, closed]
    · rw [seqOf_of_sig (bump_sig ..)]
      exact outbox k
  case decap =>
    rintro x f r u port services queue rfl
    have h : s.Decapsulates x f r := ⟨port, up, services, queue⟩
    refine ⟨exec_tunDecapsulate_other h, fun k t avtp long channel => ?_⟩
    have eq := exec_tunDecapsulate_matched h avtp long channel
    refine ⟨fun lost => ?_, fun live off => ?_, fun live on plain => ?_⟩
    · rwa [if_pos lost] at eq
    · rwa [live, if_neg (by decide), if_pos off] at eq
    · rwa [live, if_neg (by decide), if_neg (by omega), if_neg (by omega)] at eq
  case set =>
    intro host q c x ready hn channel runs hx domain bytesMin bytesMax msgsMin msgsMax batchMin batchMax profile keySlot
      untimed unnamed
    have eq := tunChannelSet_eq up runs hn hx ⟨hn ▸ channel, domain, bytesMin, bytesMax, msgsMin, msgsMax, batchMin,
      batchMax, profile, keySlot, untimed⟩ unnamed
    refine congrArg Host.Outcome.next ?_
    cases taken : s.streamTaken n x
    · rw [taken, Bool.not_false, check_true] at eq
      refine Eq.trans ?_ (if_neg (ne_true_of_eq_false taken)).symm
      exact (runCmd_checked (p := busMapOk x = true) ready (by rw [eq, Bool.decide_eq_true]))
    · rw [taken, Bool.not_true, check_false] at eq
      exact (runCmd_fail ready eq).trans (if_pos taken).symm

end Sys2Proof.Machine
end

section
/-! The signal router and its end-to-end contexts (R145, R366 to R376, R378, R381 to R383): the equation of each row,
with the checks that are left of a command with legal fields. -/

namespace Sys2Proof.Machine

namespace State

variable {s t u : State} {n q j k host op : Nat} {c : Cmd} {dma : List Byte}

/-! ### Jobs that the calendar releases (R145, R366) -/

theorem exec_routerJobRelease_none (none : s.runningImage = none) : exec (.routerJobRelease n) s = .next s := by
  show Host.Outcome.next (s.doRouterJobRelease n) = _
  rw [doRouterJobRelease, none]
  rfl

theorem exec_routerJobRelease {i : Image} {e : RouterJob} {late : Nat} (running : s.runningImage = some i)
    (job : i.jobs[n]? = some e) (reach : s.calReach i e.off = some (u, late)) (sequencer : e.seq < 4)
    (services : u.quenched Dom.services = false) : exec (.routerJobRelease n) s =
      .next (if jobPending (u.seqOf e.seq) e.job then u else u.seqMod e.seq fun x => { x with
        calJobs := jobInsert (e.job, u.clk + e.deadline - late, u.clk - late) x.calJobs }) := by
  show Host.Outcome.next (s.doRouterJobRelease n) = _
  rw [doRouterJobRelease, runningEntry running job]
  dsimp only
  rw [reach]
  dsimp only
  rw [services, decide_eq_false (Nat.not_le.2 sequencer)]
  rfl

/-! ### Runs (R366, R373, R376) -/

section
variable {by_ start : Nat} {calJobs : List (Nat × Nat × Nat)} {jobs : List (Nat × Nat)}

theorem exec_sigJobRun_calendar (runs : s.sigRuns q = true) (first : (s.seqOf q).calJobs = (j, by_, start) :: calJobs)
    (hu : u = s.seqMod q fun x => { x with calJobs := calJobs }) : exec (.sigJobRun q) s =
      .next (if by_ < s.clk ∧ 0 < (agetD s.sig.jobs j (0, 0)).2 then u.jobMiss q j else u.jobRun q start j 256) := by
  subst hu
  show Host.Outcome.next (s.doSigJobRun q) = _
  rw [doSigJobRun, runs, if_neg (by decide)]
  dsimp only
  rw [first]
  rfl

theorem exec_sigJobRun_triggered (runs : s.sigRuns q = true) (none : (s.seqOf q).calJobs = [])
    (first : (s.seqOf q).jobs = (j, start) :: jobs) : exec (.sigJobRun q) s =
      .next ((s.seqMod q fun x => { x with jobs := jobs }).jobRun q start j 256) := by
  show Host.Outcome.next (s.doSigJobRun q) = _
  rw [doSigJobRun, runs, if_neg (by decide)]
  dsimp only
  rw [none]
  dsimp only
  rw [first]

/-- The calendar job that runs stops at its deadline, with the templates that it has reached by then. -/
theorem exec_jobDeadlineMiss (up : s.datapathUp = true) (services : s.quenched Dom.services = false) (sequencer : q < 4)
    (first : (s.seqOf q).calJobs = (j, by_, start) :: calJobs) (short : k < (agetD s.sig.jobs j (0, 0)).2) :
    exec (.jobDeadlineMiss q k) s = .next
      ((((if s.sigRuns q && decide (s.clk ≤ by_) then s.jobRun q start j k else s).waitUntil by_).seqMod q fun x =>
        { x with calJobs := calJobs }).jobMiss q j) := by
  show Host.Outcome.next (s.doJobDeadlineMiss q k) = _
  rw [doJobDeadlineMiss, first]
  dsimp only
  rw [up, services, decide_eq_false (Nat.not_le.2 sequencer), decide_eq_false (Nat.not_le.2 short)]
  rfl

end

/-! ### Arrivals (R368, R371) -/

/-- A sequencer without a job to run, with an arrival that is not stored in a channel. -/
structure Extracts (s : State) (q : Nat) (a : Arrival) (r : List Arrival) : Prop where
  runs : s.sigRuns q = true
  noCalJobs : (s.seqOf q).calJobs = []
  noJobs : (s.seqOf q).jobs = []
  arrivals : (s.seqOf q).arrivals = a :: r
  unstored : a.item = none

/-- A sequencer's first arrival has been taken. -/
def arrivalTaken (s : State) (q : Nat) (r : List Arrival) : State := s.seqMod q fun x => { x with arrivals := r }

section
variable {a : Arrival} {r : List Arrival} {p : SrcPdu}

theorem Extracts.undelayed (h : s.Extracts q a r) :
    ¬ (!s.sigRuns q || !(s.seqOf q).calJobs.isEmpty || !(s.seqOf q).jobs.isEmpty) = true := by
  simp [h.runs, h.noCalJobs, h.noJobs]

theorem exec_sigExtraction_unmatched (h : s.Extracts q a r) (unmatched : s.pduOf q a = none) :
    exec (.sigExtraction q) s = .next ((s.arrivalTaken q r).bump Reg.sigNomatchCnt) := by
  have unmatched : (s.arrivalTaken q r).pduOf q a = none := unmatched
  show Host.Outcome.next (s.doSigExtraction q) = _
  unfold doSigExtraction
  dsimp only
  rw [if_neg h.undelayed, h.arrivals]
  dsimp only
  rw [h.unstored]
  dsimp only
  rw [← arrivalTaken, unmatched]

theorem mapOrdinary_nothing (unmapped : p.mapCount = 0) (data : List Byte) : s.mapOrdinary data p = ([], s) := by
  rw [mapOrdinary, unmapped]
  rfl

theorem mapStatus_nothing (unmapped : p.mapCount = 0) (r : Nat) : s.mapStatus r p = ([], s) := by
  rw [mapStatus, unmapped]
  rfl

/-- A record without a context and without mappings writes nothing: what is left is its trigger. -/
theorem exec_sigExtraction_bare (h : s.Extracts q a r) (record : s.pduOf q a = some p) (unchecked : p.e2e = 0xFFFF)
    (unmapped : p.mapCount = 0) (hu : u = (s.arrivalTaken q r).bump Reg.sigExtractCnt) :
    exec (.sigExtraction q) s = .next (if p.trigger = 0xFFFF then u
      else u.seqMod q fun x => { x with jobs := x.jobs ++ [(p.trigger, s.clk)] }) := by
  have record : (s.arrivalTaken q r).pduOf q a = some p := record
  have clk : u.clk = s.clk := hu ▸ bump_clk ..
  have idle : jobPending (u.seqOf q) p.trigger = false := by
    rw [hu, seqOf_of_sig (bump_sig ..), arrivalTaken, seqOf_seqMod_same, jobPending, h.noCalJobs, h.noJobs]
    rfl
  have passed : (if p.e2e < 1024 then u.e2eCheck p.e2e a.data else (some 0, u)) = (some 0, u) :=
    if_neg (by omega)
  show Host.Outcome.next (s.doSigExtraction q) = _
  unfold doSigExtraction
  dsimp only
  rw [if_neg h.undelayed, h.arrivals]
  dsimp only
  rw [h.unstored]
  dsimp only
  rw [← arrivalTaken, record]
  dsimp only
  rw [← hu, passed]
  simp [mapOrdinary_nothing unmapped, mapStatus_nothing unmapped, idle, clk]

end

/-! ### Mappings that time out (R372) -/

/-- What a mapping that times out writes. -/
def mapStaleWrites (s : State) (n : Nat) (m : Mapping) : State :=
  let t := if bit m.flags 4 then s.mapWrite m 7 else if m.flags / 4 % 4 = 0 then s else s.mapWrite m m.subst
  let t := if !bit m.flags 4 && m.flags / 4 % 4 = 2 then t.updateBit m 0 else t
  if bit m.flags 4 then t else (t.quietStatus n).foldl (fun s m => s.mapWrite m 7) t

theorem tplMod_maps (s : State) (n : Nat) (f : Template → Template) : (s.tplMod n f).sig.maps = s.sig.maps := by
  unfold tplMod
  split <;> rfl

theorem updateBit_maps (s : State) (m : Mapping) (v : Nat) : (s.updateBit m v).sig.maps = s.sig.maps := by
  unfold updateBit
  split
  · rfl
  · exact tplMod_maps ..

theorem mapsWrite_maps (s : State) (l : List Mapping) (v : Nat) :
    (l.foldl (fun s m => s.mapWrite m v) s).sig.maps = s.sig.maps := by
  induction l generalizing s with
  | nil => rfl
  | cons m r ih => exact (ih _).trans (tplMod_maps ..)

/-- Only templates are written. -/
theorem mapStaleWrites_maps (s : State) (n : Nat) (m : Mapping) : (s.mapStaleWrites n m).sig.maps = s.sig.maps := by
  have value : (if bit m.flags 4 then s.mapWrite m 7 else if m.flags / 4 % 4 = 0 then s
      else s.mapWrite m m.subst).sig.maps = s.sig.maps := by
    split
    · exact tplMod_maps ..
    · split
      · rfl
      · exact tplMod_maps ..
  unfold mapStaleWrites
  extract_lets t u
  have updated : u.sig.maps = s.sig.maps := by
    dsimp only [u]
    split
    · exact (updateBit_maps ..).trans value
    · exact value
  split
  · exact updated
  · exact (mapsWrite_maps ..).trans updated

theorem mapStaleWrites_only (s : State) (n : Nat) (m : Mapping) : Only 0x1000 s (s.mapStaleWrites n m) := by
  unfold mapStaleWrites
  extract_lets t u
  have written : Only 0x1000 s t := Only.ite (Only.mapWrite0 ..) (Only.ite (Only.refl ..) (Only.mapWrite0 ..))
  have updated : Only 0x1000 s u := Only.ite (Only.updateBit (by decide) written) written
  exact Only.ite updated (Only.foldl (fun _ _ h => Only.mapWrite (by decide) h) updated)

/-- A mapping that keeps its last value, with no STATUS_SRC mapping beside it, writes nothing. -/
theorem mapStaleWrites_nothing {m : Mapping} (signal : bit m.flags 4 = false) (keeps : m.flags / 4 % 4 = 0)
    (quiet : s.quietStatus n = []) : s.mapStaleWrites n m = s := by
  simp [mapStaleWrites, signal, keeps, quiet]

section
variable {m : Mapping} {f : Mapping → Mapping}

theorem mapMod_eq (mapping : aget s.sig.maps n = some m) :
    s.mapMod n f = s.setSig { s.sig with maps := aset s.sig.maps n (f m) } := by
  rw [mapMod, mapping]

theorem aget_mapMod_same (mapping : aget s.sig.maps n = some m) : aget (s.mapMod n f).sig.maps n = some (f m) := by
  rw [mapMod_eq mapping]
  exact aget_aset_same ..

theorem aget_mapMod_other (mapping : aget s.sig.maps n = some m) (other : k ≠ n) :
    aget (s.mapMod n f).sig.maps k = aget s.sig.maps k := by
  rw [mapMod_eq mapping]
  exact aget_aset_other _ _ other

theorem mapMod_tpls (s : State) (n : Nat) (f : Mapping → Mapping) : (s.mapMod n f).sig.tpls = s.sig.tpls := by
  unfold mapMod
  split <;> rfl

end

/-- A mapping's time has come: what it writes is written, and it is stale. -/
def mapTimedOut (s : State) (n : Nat) (m : Mapping) : State :=
  (((s.waitUntil (m.at_ + 100000 * m.timeout)).mapStaleWrites n m).mapMod n fun m => { m with stale := true })

theorem exec_mappingTimeout {m : Mapping} (up : s.datapathUp = true) (services : s.quenched Dom.services = false)
    (mapping : aget s.sig.maps n = some m) (timed : m.timeout ≠ 0) (fresh : m.stale = false) :
    exec (.mappingTimeout n) s = .next (((s.mapTimedOut n m).bump Reg.sigTimeoutCnt).raise 0x8101 n) := by
  show Host.Outcome.next (s.doMappingTimeout n) = _
  rw [doMappingTimeout, mapping]
  dsimp only
  rw [if_neg (by simp [timed, fresh, up, services])]
  rfl

/-! ### `SIG_MAP_LOAD` (R381 to R383) -/

/-- The body of a `SIG_MAP_LOAD` with its fields in range. -/
structure MapLoadLegal (c : Cmd) : Prop where
  table : c.u 0 1 ≤ 3
  countMin : 1 ≤ c.u 4 2
  countMax : c.u 4 2 ≤ 1024
  records : c.u 2 2 + c.u 4 2 ≤ recCount (c.u 0 1)
  aligned : c.u 8 8 % 8 = 0

/-- The records that are read from host memory, with their numbers. -/
def mapRecords (c : Cmd) (dma : List Byte) : List (Nat × List Byte) :=
  (List.range (c.u 4 2)).map fun i =>
    (c.u 2 2 + i, fit (recBytes (c.u 0 1)) (dma.drop (recBytes (c.u 0 1) * i)))

/-- Records of a table have been loaded. -/
def mapLoaded (s : State) (table : Nat) (recs : List (Nat × List Byte)) : State :=
  recs.foldl (fun s x => s.recLoad table x.1 x.2) s

/-- Whether a job that a live image names would have no template. -/
def emptiesJob (s : State) (recs : List (Nat × List Byte)) : Bool :=
  recs.any fun x => le x.2 2 2 == 0 && s.liveImages.any fun i => i.jobs.any (·.job == x.1)

theorem sigMapLoad_eq {recs : List (Nat × List Byte)} (up : s.datapathUp = true)
    (services : s.quenched Dom.services = false) (h : MapLoadLegal c) (hr : recs = mapRecords c dma) :
    sigMapLoad dma c s = Exec.check (recs.all fun x => recRange (c.u 0 1) x.2) s 0x0604
      (Exec.check (recs.all fun x => s.recRefs (c.u 0 1) x.1 x.2) s 0x0605
        (Exec.check (c.u 0 1 != 3 || !s.emptiesJob recs) s 0x0606
          (.done (s.mapLoaded (c.u 0 1) recs) St.ok 0 []))) := by
  have ranges : (decide (c.u 0 1 ≤ 3) && decide (1 ≤ c.u 4 2) && decide (c.u 4 2 ≤ 1024) &&
      decide (c.u 2 2 + c.u 4 2 ≤ recCount (c.u 0 1)) && c.u 8 8 % 8 == 0) = true := by
    simp [h.table, h.countMin, h.countMax, h.records, h.aligned]
  unfold sigMapLoad
  dsimp only
  rw [datapath_ok up, need_ok (by simpa using services), ranges, check_true, hr]
  rfl

/-! ### `E2E_CONTEXT_SET` (R378, R381 to R383) -/

/-- The body of an `E2E_CONTEXT_SET` with its fields in range. -/
structure ContextLegal (c : Cmd) : Prop where
  context : c.u 0 2 < 1024
  poly : c.u 3 1 ≤ 7
  idMode : c.u 8 1 ≤ 4
  width : c.u 9 1 = 4 ∨ c.u 9 1 = 8 ∨ c.u 9 1 = 16
  deltaMin : 1 ≤ c.u 10 2
  deltaMax : c.u 10 2 < 2 ^ c.u 9 1

/-- Whether a context begins anew: on command, and when it is enabled. -/
def contextRenewed (c : Cmd) (old : E2eCtx) : Bool := bit (c.u 2 1 % 32) 2 || (bit (c.u 2 1 % 32) 0 && !bit old.flags 0)

/-- What a body makes of a context. -/
def contextOf (c : Cmd) (old : E2eCtx) : E2eCtx := { old with
  flags := c.u 2 1 % 32, poly := c.u 3 1, dataId := c.u 4 4, idMode := c.u 8 1, ctrWidth := c.u 9 1
  maxDelta := c.u 10 2, crcPos := c.u 12 2, ctrPos := c.u 14 2, length := c.u 16 2
  counter := if contextRenewed c old then 0 else old.counter % 2 ^ c.u 9 1, fresh := contextRenewed c old || old.fresh
  lastResult := if contextRenewed c old then 0xF else old.lastResult }

theorem contextOf_reset (old : E2eCtx) (reset : bit (c.u 2 1) 2 = true) :
    (contextOf c old).counter = 0 ∧ (contextOf c old).lastResult = 0xF := by
  have renewed : contextRenewed c old = true := by
    have low : bit (c.u 2 1 % 32) 2 = bit (c.u 2 1) 2 := by
      rw [bit_eq_testBit, bit_eq_testBit]
      exact (Nat.testBit_mod_two_pow _ 5 2).trans (Bool.true_and _)
    rw [contextRenewed, low, reset, Bool.true_or]
  exact ⟨if_pos renewed, if_pos renewed⟩

theorem e2eContextSet_eq (up : s.datapathUp = true) (runs : s.quenched (e2eUnit n) = false) (hn : n = c.u 0 2)
    (h : ContextLegal c) : e2eContextSet c s = Exec.check (e2eLayout (contextOf c (s.e2eCtx n))) s 0x0607
      (.done (s.e2eMod n fun _ => contextOf c (s.e2eCtx n)) St.ok 0 []) := by
  subst hn
  have ranges : (decide (c.u 0 2 < 1024) && decide (c.u 3 1 ≤ 7) && decide (c.u 8 1 ≤ 4) &&
      (c.u 9 1 == 4 || c.u 9 1 == 8 || c.u 9 1 == 16) && decide (1 ≤ c.u 10 2) &&
      decide (c.u 10 2 < 2 ^ c.u 9 1)) = true := by
    simp [h.context, h.poly, h.idMode, h.width, h.deltaMin, h.deltaMax, or_assoc]
  rw [e2eContextSet, datapath_ok up, need_ok (by simpa using runs)]
  exact congrArg (Exec.check · s St.badParam _) ranges

end State

open State

/-- Settles O48, from the equation of each row: a job comes behind those released no later, and a command loads all that
it holds or nothing. -/
theorem signalRouter : Obligations.SignalRouter := by
  intro s q up services sequencer
  refine ⟨?release, fun n => exec_routerJobRelease_none, fun runs calJobs jobs a r arrivals unstored =>
      exec_sigExtraction_unmatched ⟨runs, calJobs, jobs, arrivals, unstored⟩,
    fun a r p u runs calJobs jobs arrivals unstored =>
      exec_sigExtraction_bare ⟨runs, calJobs, jobs, arrivals, unstored⟩,
    fun j by_ start r u => exec_sigJobRun_calendar, fun j start r => exec_sigJobRun_triggered, ?late, ?due, ?timeout,
    ?load, ?context⟩
  case release =>
    rintro n i e u late running job reach rfl live
    exact exec_routerJobRelease running job reach sequencer live
  case late =>
    intro j by_ start r k first short late
    have eq := exec_jobDeadlineMiss up services sequencer first short
    rwa [decide_eq_false (Nat.not_le.2 late), Bool.and_false, if_neg (by decide), waitUntil_past late.le] at eq
  case due =>
    intro j by_ start r k first short runs due
    have eq := exec_jobDeadlineMiss up services sequencer first short
    rwa [runs, decide_eq_true due, if_pos (by decide)] at eq
  case timeout =>
    intro n m mapping timed fresh
    have counted : Only 0xB (s.mapTimedOut n m) (((s.mapTimedOut n m).bump Reg.sigTimeoutCnt).raise 0x8101 n) :=
      Only.raise (by decide) (Only.bump0 ..)
    have kept : ((s.waitUntil (m.at_ + 100000 * m.timeout)).mapStaleWrites n m).sig.maps = s.sig.maps :=
      (mapStaleWrites_maps ..).trans (congrArg Sig.maps (waitUntil_sig ..))
    have mapped := kept ▸ mapping
    refine ⟨_, exec_mappingTimeout up services mapping timed fresh, ?_, ⟨{ m with stale := true }, ?_, rfl, rfl⟩,
      fun signal keeps quiet => ?_, fun k other => ?_⟩
    · rw [counted.clk rfl, mapTimedOut, (Only.mapMod0 ..).clk rfl, (mapStaleWrites_only ..).clk rfl]
    · rw [counted.sig rfl, mapTimedOut, aget_mapMod_same mapped]
    · rw [counted.sig rfl, mapTimedOut, mapMod_tpls, mapStaleWrites_nothing signal keeps, waitUntil_sig]
      rw [quietStatus, waitUntil_sig]
      exact quiet
    · rw [counted.sig rfl, mapTimedOut, aget_mapMod_other mapped other, kept]
  case load =>
    rintro host q c dma recs u ready table countMin countMax records aligned hr rfl
    have eq := sigMapLoad_eq up services ⟨table, countMin, countMax, records, aligned⟩ hr
    rw [← List.not_all_eq_any_not, ← List.not_all_eq_any_not]
    refine congrArg Host.Outcome.next ?_
    cases ranges : recs.all fun x => recRange (c.u 0 1) x.2 with
    | false =>
      rw [ranges, check_false] at eq
      exact runDma_fail ready eq (by decide)
    | true =>
      rw [ranges, check_true] at eq
      cases refs : recs.all fun x => s.recRefs (c.u 0 1) x.1 x.2 with
      | false =>
        rw [refs, check_false] at eq
        exact runDma_fail ready eq (by decide)
      | true =>
        rw [refs, check_true] at eq
        rw [Bool.not_true, if_neg (by decide), if_neg (by decide)]
        by_cases emptied : c.u 0 1 = 3 ∧ s.emptiesJob recs = true
        · obtain ⟨jobs, empties⟩ := emptied
          rw [jobs, empties] at eq
          exact (runDma_fail ready eq (by decide)).trans (if_pos ⟨jobs, empties⟩).symm
        · have allowed : (c.u 0 1 != 3 || !s.emptiesJob recs) = true := by
            simpa [imp_iff_not_or] using emptied
          rw [allowed, check_true] at eq
          exact (runDma_done ready eq).trans (if_neg emptied).symm
  case context =>
    intro host q c n ready hn context runs poly idMode width deltaMin deltaMax
    have eq := e2eContextSet_eq up runs hn ⟨hn ▸ context, poly, idMode, width, deltaMin, deltaMax⟩
    refine ⟨contextOf c (s.e2eCtx n), rfl, rfl, rfl, rfl, rfl, rfl, rfl, contextOf_reset _, ?_⟩
    exact congrArg _ (runCmd_checked (p := e2eLayout (contextOf c (s.e2eCtx n)) = true) ready
      (by rw [eq, Bool.decide_eq_true]))

end Sys2Proof.Machine
end

section
/-! What every step keeps and what stands at reset: a step on a waiting command is its execution, a step on an empty queue
one tick, so that both change no more than `frameOfEveryCommand` and the tick's frame allow. -/

namespace Sys2Proof.Machine

theorem step_cons {s : State} {c : Instr} {rest : List Instr} (h : s.pending = c :: rest) :
    step s = exec c { s with pending := rest } := by rw [step, h]

theorem step_nil {s : State} (h : s.pending = []) : step s = .next (s.tick 1) := by rw [step, h]; rfl

/-- Settles O1: it is how `step` reads a queue that is not empty. -/
theorem stepRunsFront : Obligations.StepRunsFront := fun _ _ _ h => step_cons h

/-- Settles O2: the three cases are those of `State.tick`. -/
theorem idleTick : Obligations.IdleTick := by
  intro s empty
  rw [step_nil empty]
  refine ⟨fun stopped => ?_, fun run => ?_, fun notOff notDormant notRun => ?_⟩
  · rw [State.tick, if_pos stopped]
  · rw [State.tick, if_neg (by rw [run]; decide), if_pos run]
  · rw [State.tick, if_neg (not_or.mpr ⟨notOff, notDormant⟩), if_neg notRun]

/-- Settles O4: at reset both lists are empty. -/
theorem resetCanonical : Obligations.ResetCanonical := ⟨rfl, rfl⟩

/-- Settles O3: the registers are read by computation; the tables are empty at reset, so every VLAN and port shows its default. -/
theorem resetValues : Obligations.ResetValues := by
  refine ⟨rfl, rfl, rfl, by decide +kernel, by decide +kernel, rfl, fun v _ other => ?_, fun p _ => rfl⟩
  exact if_neg other

/-- A step takes the front command off the queue, if one waits, and changes the rest within some groups. -/
theorem step_only (s : State) : ∃ (m : Nat) (t : State), step s = .next t ∧ Only m { s with pending := s.pending.tail } t := by
  cases queue : s.pending with
  | nil =>
    have same : { s with pending := [] } = s := by rw [← queue]
    exact ⟨_, _, step_nil queue, by rw [List.tail_nil, same]; exact Only.tick0 s 1⟩
  | cons c rest =>
    obtain ⟨t, done, only⟩ := frameOfEveryCommand c { s with pending := rest }
    exact ⟨_, t, (step_cons queue).trans done, only⟩

theorem only_of_step {s t : State} (h : step s = .next t) : ∃ m, Only m { s with pending := s.pending.tail } t := by
  obtain ⟨m, u, done, only⟩ := step_only s
  obtain rfl : u = t := Host.Outcome.next.inj (done.symm.trans h)
  exact ⟨m, only⟩

/-- Settles O7. -/
theorem everyStepIsSafe : Obligations.EveryStepIsSafe := fun s =>
  let ⟨_, t, done, _⟩ := step_only s
  ⟨t, done⟩

/-- Settles O5: the canonical form is part of every frame. -/
theorem stepKeepsCanonical : Obligations.StepKeepsCanonical := fun _ _ canonical h =>
  let ⟨_, only⟩ := only_of_step h
  only.canonical canonical

/-- Settles O6: the queue, the outputs and the free counter are part of every frame. -/
theorem stepKeepsOrder : Obligations.StepKeepsOrder := fun _ _ h =>
  let ⟨_, only⟩ := only_of_step h
  ⟨only.pending, only.out, only.free⟩

end Sys2Proof.Machine
end

section
/-! The time domains: their configuration (R457, R458), how a correction acts by its size (R449), and what becomes of a step
that is held (R450, R451). -/

namespace Sys2Proof.Machine

namespace State

variable {s t : State} {i k host q : Nat} {o : Int} {f g : Domain → Domain} {c : Cmd} {d : Domain}

/-! ### Domains -/

@[simp] theorem domain_domMod_same (s : State) (i : Nat) (f : Domain → Domain) : (s.domMod i f).domain i = f (s.domain i) := by
  rw [domain, domMod, agetD, amod, aget_aset_same]
  rfl

theorem domain_domMod_other (h : k ≠ i) : (s.domMod i f).domain k = s.domain k := by
  rw [domain, domMod, agetD, amod, aget_aset_other _ _ h]
  rfl

theorem domain_of_dom (same : t.dom = s.dom) (k : Nat) : t.domain k = s.domain k := by rw [domain, same]; rfl

theorem domMod_domMod : (s.domMod i f).domMod i g = s.domMod i fun d => g (f d) := by
  have tables : amod (amod s.dom i {} f) i {} g = amod s.dom i {} fun d => g (f d) := by
    rw [amod, amod, aset_aset, agetD, aget_aset_same]
    rfl
  exact congrArg (fun l => { s with dom := l }) tables

/-! ### Corrections (R449) -/

/-- What a domain is from the tick of a step on. -/
def stepped (d : Domain) (o : Int) : Domain := { d with
  state := .locked, slew := 0, heldStep := 0, value := (((d.value : Int) + 2 ^ 32 * o) % domWrap).toNat }

theorem stepDomain_domain (s : State) (i : Nat) (o : Int) (cause : Nat) :
    (s.stepDomain i o cause).domain i = stepped (s.domain i) o := by
  have before : ((s.raise 0xA002 (i + 256 * cause)).rephaseNow i).domain i = s.domain i :=
    domain_of_dom (((Only.rephaseNow0 ..).dom rfl).trans ((Only.raise0 ..).dom rfl)) i
  unfold stepDomain
  rw [domain_of_dom ((Only.timeStepped0 ..).dom rfl), domain_domMod_same, before]
  rfl

/-- A domain that has taken the offset of a correction. -/
def offsetTaken (d : Domain) (o : Int) : Domain := { d with offset := o, newSource := false, resumed := false }

theorem correct_unset (unset : (s.domain i).state = .unset) : s.correct i o =
    (1, (s.domMod i fun d => offsetTaken d o).stepDomain i o 1) := if_pos unset

theorem correct_slews (set : (s.domain i).state ≠ .unset) (kept : (s.domain i).resumed = false)
    (known : (s.domain i).newSource = false) (small : o.natAbs ≤ (s.domain i).threshold) : s.correct i o =
    (0, s.domMod i fun d => { offsetTaken d o with state := .locked, heldStep := 0, slew := 2 ^ 32 * o }) := by
  unfold correct
  rw [if_neg set, if_neg (by simp [kept]), if_neg (by simp [known]), if_pos (decide_eq_true small), domMod_domMod]
  rfl

theorem correct_holds (set : (s.domain i).state ≠ .unset) (kept : (s.domain i).resumed = false)
    (large : (s.domain i).threshold < o.natAbs) : s.correct i o =
    (2, (s.domMod i fun d => offsetTaken d o).refuseStep i o) := by
  have notSmall : ¬ o.natAbs ≤ (s.domain i).threshold := Nat.not_le.2 large
  unfold correct
  dsimp only
  rw [if_neg set, if_neg (by simp [kept]), if_neg (by simp [notSmall]), if_neg (by simpa using large)]
  rfl

theorem refuseStep_domain (s : State) (i : Nat) (o : Int) : ∃ at_, (s.refuseStep i o).domain i =
    { s.domain i with state := .held, heldStep := o, slew := 0, refusedAt := at_ } := by
  unfold refuseStep
  dsimp only
  rw [domain_domMod_same, domain_of_dom (((Only.raiseLimited0 ..).dom rfl).trans ((Only.bump0 ..).dom rfl))]
  exact ⟨_, rfl⟩

/-! ### `TIME_DOMAIN_CONFIG` (R457, R458) -/

/-- The slave port of a domain as it is configured: the one named, or none until the PTP port state chooses one (R457). -/
def configSlave (old new : Domain) : Option Nat :=
  if new.source = 1 ∧ !new.bmca then (if new.cfgSlave = 0xFF then none else some new.cfgSlave)
  else if new.source = 1 ∧ old.source = 1 ∧ old.bmca then old.slave else none

/-- A domain that is enabled at a moment, with new settings over those that it held. -/
def enabledDomain (now : Nat) (old new : Domain) : Domain := { new with
  state := .unset, value := 0, lastAt := now, rate := 0, slew := 0, heldStep := 0, resumed := false,
  newSource := false, master := none, slave := configSlave old new, refusedAt := none }

section
variable (ready : s.Ready host q 0x0800 c) (runs : s.quenched Dom.time = false)
include ready runs

theorem exec_timeDomainConfig_above (above : 3 < c.u 0 1) :
    exec (.timeDomainConfig host q) s = .next (s.failCmd c.index 0x0801) := by
  refine congrArg _ (runCmd_fail ready ?_)
  unfold timeDomainConfig
  rw [need_ok (by simpa using runs), decide_eq_false (Nat.not_le.2 above), check_false]

theorem exec_timeDomainConfig_disable (hi : i = c.u 0 1) (named : i ≤ 3)
    (ranges : domainRanges (domainSet c (s.domain i)) = true) (off : bit (c.u 1 1) 0 = false) :
    exec (.timeDomainConfig host q) s = .next
      (if (s.domain i).state = .disabled ∨ s.domainUsed i = false then
        (s.domMod i fun d => { heldSeq := d.heldSeq, offset := d.offset }).finishCmd c.index 0 0 []
      else s.failCmd c.index 0x0803) := by
  subst hi
  refine congrArg _ (runCmd_checked ready ?_)
  unfold timeDomainConfig
  rw [need_ok (by simpa using runs), decide_eq_true named, check_true, ranges, check_true, off]
  have idle : ((s.domain (c.u 0 1)).state == .disabled || !s.domainUsed (c.u 0 1)) =
      decide ((s.domain (c.u 0 1)).state = .disabled ∨ s.domainUsed (c.u 0 1) = false) := by
    rw [Bool.decide_or, beq_eq_decide]
    cases s.domainUsed (c.u 0 1) <;> rfl
  rw [idle]
  rfl

theorem exec_timeDomainConfig_enable {new : Domain} (hi : i = c.u 0 1) (named : i ≤ 3)
    (hn : new = domainSet c (s.domain i)) (ranges : domainRanges new = true) (on : bit (c.u 1 1) 0 = true)
    (ports : s.domainPorts i new = true) (was : (s.domain i).state = .disabled) :
    exec (.timeDomainConfig host q) s = .next ((s.domMod i fun _ => enabledDomain s.clk (s.domain i) new).finishCmd
      c.index 0 0 []) := by
  subst hi hn
  refine congrArg _ (runCmd_done ready ?_)
  unfold timeDomainConfig
  rw [need_ok (by simpa using runs), decide_eq_true named, check_true, ranges, check_true, on]
  simp only [Bool.not_true, Bool.false_eq_true, if_false]
  rw [ports, check_true, if_pos was]
  rfl

end

/-! ### `TIME_ADJUST` (R449, R457, R458) -/

section
variable (ready : s.Ready host q 0x0801 c) (runs : s.quenched Dom.time = false) (hi : i = c.u 0 1) (named : i ≤ 3)
  (enabled : (s.domain i).state ≠ .disabled)
include ready runs hi named enabled

theorem exec_timeAdjust_network (network : (s.domain i).source = 1) :
    exec (.timeAdjust host q) s = .next (s.failCmd c.index 0x0802) := by
  subst hi
  refine congrArg _ (runCmd_fail ready ?_)
  unfold timeAdjust
  rw [need_ok (by simpa using runs), show (decide (c.u 0 1 ≤ 3) && (s.domain (c.u 0 1)).state != .disabled) = true by
    simp [named, enabled], check_true, network]
  rfl

theorem exec_timeAdjust_offset (host_ : (s.domain i).source ≠ 1) (flags : c.u 1 1 = 2)
    (rate : (toSigned 32 (c.u 4 4)).natAbs ≤ 500000000) : exec (.timeAdjust host q) s =
    .next (((s.domMod i fun d => { d with lastAt := s.clk }).correct i (toSigned 64 (c.u 8 8))).2.finishCmd c.index 0
      ((s.domMod i fun d => { d with lastAt := s.clk }).correct i (toSigned 64 (c.u 8 8))).1 []) := by
  subst hi
  refine congrArg _ (runCmd_done ready ?_)
  unfold timeAdjust
  rw [need_ok (by simpa using runs), show (decide (c.u 0 1 ≤ 3) && (s.domain (c.u 0 1)).state != .disabled) = true by
    simp [named, enabled], check_true, show ((s.domain (c.u 0 1)).source != 1) = true by simpa using host_, check_true, flags]
  rw [decide_eq_true rate]
  rfl

end

/-! ### `TIME_JUMP_ACCEPT` (R450, R457, R458) -/

section
variable (ready : s.Ready host q 0x0802 c) (runs : s.quenched Dom.time = false) (hi : i = c.u 0 1) (named : i ≤ 3)
include ready runs hi named

theorem exec_timeJumpAccept_free (enabled : (s.domain i).state ≠ .disabled) (free : (s.domain i).state ≠ .held) :
    exec (.timeJumpAccept host q) s = .next (s.failCmd c.index 0x0804) := by
  subst hi
  refine congrArg _ (runCmd_fail ready ?_)
  unfold timeJumpAccept
  rw [need_ok (by simpa using runs), show (decide (c.u 0 1 ≤ 3) && (s.domain (c.u 0 1)).state != .disabled) = true by
    simp [named, enabled], check_true, show ((s.domain (c.u 0 1)).state == .held) = false by simpa using free, check_false]

omit ready in
theorem timeJumpAccept_held (held : (s.domain i).state = .held) : timeJumpAccept c s =
    Exec.check ((s.domain i).heldSeq == c.u 2 2) s 0x0805 (if bit (c.u 1 1) 0 then
      .done (s.domMod i fun d => { d with state := .locked, heldStep := 0 }) St.ok 0 []
    else .done (s.stepDomain i (s.domain i).heldStep 2) St.ok (ofSigned 64 (s.domain i).heldStep) []) := by
  subst hi
  unfold timeJumpAccept
  rw [need_ok (by simpa using runs), decide_eq_true named, held]
  rfl

end

end State

open State in
/-- Settles O42. -/
theorem timeCommands : Obligations.TimeCommands := by
  intro s host q i c runs hi
  refine ⟨?enable, ?disable, fun ready above => exec_timeDomainConfig_above ready runs (hi ▸ above), ?adjust,
    fun ready named => exec_timeAdjust_network ready runs hi named, ?accept,
    fun ready named => exec_timeJumpAccept_free ready runs hi named⟩
  case enable =>
    intro new ready named hn ranges on ports was
    refine ⟨_, exec_timeDomainConfig_enable ready runs hi named hn ranges on ports was, ?_, ?_, ?_, ?_, ?_,
      fun k other => domain_domMod_other other, Only.domMod0 ..⟩ <;>
      rw [domain_domMod_same, hn] <;> rfl
  case disable =>
    intro ready named ranges off
    have eq := exec_timeDomainConfig_disable ready runs hi named ranges off
    refine ⟨fun on used => ?_, fun free => ⟨_, by rw [eq, if_pos free], by rw [domain_domMod_same],
      fun k other => domain_domMod_other other, Only.domMod0 ..⟩⟩
    rw [eq, if_neg (by simp [on, used])]
  case adjust =>
    intro o d ready named hd enabled source flags rate ho
    subst hd ho
    have eq := exec_timeAdjust_offset ready runs hi named enabled source flags rate
    have d0 := domain_domMod_same s i fun d => { d with lastAt := s.clk }
    refine ⟨fun unset => ?_, fun set kept known small => ?_, fun set kept large => ?_⟩
    · rw [correct_unset (by rw [d0]; exact unset)] at eq
      refine ⟨_, eq, ?_, ?_, ?_⟩ <;> rw [stepDomain_domain, domain_domMod_same, d0] <;> rfl
    · rw [correct_slews (by rw [d0]; exact set) (by rw [d0]; exact kept) (by rw [d0]; exact known)
        (by rw [d0]; exact small), domMod_domMod] at eq
      refine ⟨_, eq, ?_, ?_, ?_, ?_, Only.domMod0 ..⟩ <;> rw [domain_domMod_same] <;> rfl
    · rw [correct_holds (by rw [d0]; exact set) (by rw [d0]; exact kept) (by rw [d0]; exact large), domMod_domMod] at eq
      obtain ⟨at_, refused⟩ := refuseStep_domain (s.domMod i fun d => offsetTaken { d with lastAt := s.clk }
        (toSigned 64 (c.u 8 8))) i (toSigned 64 (c.u 8 8))
      refine ⟨_, eq, ?_, ?_, ?_, ?_⟩ <;> rw [refused]
      rw [domain_domMod_same]
      rfl
  case accept =>
    intro d ready named hd held
    subst hd
    have eq := timeJumpAccept_held runs hi named held
    refine ⟨fun other => congrArg _ (runCmd_fail ready ?_), fun same apply => congrArg _ (runCmd_done ready ?_),
      fun same drop => ⟨_, congrArg _ (runCmd_done ready (t := s.domMod i fun d => { d with state := .locked, heldStep := 0 }) ?_),
        by rw [domain_domMod_same], by rw [domain_domMod_same], by rw [domain_domMod_same], Only.domMod0 ..⟩⟩
    · rw [eq, show ((s.domain i).heldSeq == c.u 2 2) = false by simpa using other, check_false]
    · rw [eq, same, beq_self_eq_true, check_true, if_neg (by rw [apply]; decide)]
    · rw [eq, same, beq_self_eq_true, check_true, if_pos drop]

end Sys2Proof.Machine
end

section
/-! What happens to a time domain from outside: Syncs and silence of its source (R447, R448, R453), the end of a slew
(R449), and the snapshot of all clocks (R454). -/

namespace Sys2Proof.Machine

namespace State

variable {s t : State} {i k port n host tag : Nat} {o rate : Int} {v : Word} {r : RegRow}

/-! ### PTP frames (R447, R448) -/

theorem exec_ptpFrameReceived_sync (number : s.domainOf n = some i) (inPorts : port < 64)
    (member : bit (s.domain i).ports port = true) (up : s.gptpUp = true) (network : (s.domain i).source = 1)
    (slave : (s.domain i).slave = some port) : exec (.ptpFrameReceived port n (.sync o rate)) s = .next
      ((s.domMod i fun d => { d with lastAt := s.clk, rate := max (-500000000) (min 500000000 rate) }).correct i o).2 := by
  have ours : (s.domainOf n).filter (fun i => port < 64 && bit (s.domain i).ports port) = some i := by
    rw [number, Option.filter_some, decide_eq_true inPorts, member]
    rfl
  show Host.Outcome.next (s.doPtpFrameReceived port n (.sync o rate)) = _
  unfold doPtpFrameReceived
  simp only [ours, up, if_true]
  unfold ptpLearn
  exact congrArg _ (if_pos ⟨network, slave⟩)

theorem exec_ptpFrameReceived_none {m : PtpMsg} (none : s.domainOf n = none) (ready : s.pwr.fwReady = true) :
    exec (.ptpFrameReceived port n m) s = .next (s.bump Reg.timPtpDropCnt) := by
  show Host.Outcome.next (s.doPtpFrameReceived port n m) = _
  unfold doPtpFrameReceived
  rw [none]
  exact congrArg _ (if_pos ready)

theorem exec_ptpSyncTransmit (up : s.gptpUp = true) (enabled : (s.domain i).state ≠ .disabled) (inPorts : port < 64)
    (member : bit (s.domain i).ports port = true) (linked : s.portDown port = false) (own : (s.domain i).source ≠ 1) :
    exec (.ptpSyncTransmit i port) s = .next (if (s.domain i).gmCapable then s.emit (.ptp i port) else s) := by
  show Host.Outcome.next (s.doPtpSyncTransmit i port) = _
  unfold doPtpSyncTransmit
  simp only [if_neg own, up, member, linked, decide_eq_true inPorts, bne_iff_ne.2 enabled]
  cases (s.domain i).gmCapable <;> rfl

/-! ### A source that is lost (R453) -/

theorem sourceLost_domain (follows : (s.domain i).state = .locked ∨ (s.domain i).state = .held) :
    ((s.sourceLost i).domain i).state = .holdover ∧ ((s.sourceLost i).domain i).slew = 0 ∧
      ((s.sourceLost i).domain i).heldStep = 0 := by
  have lost : (s.sourceLost i).domain i = { s.domain i with state := .holdover, slew := 0, heldStep := 0 } := by
    unfold sourceLost
    rw [if_pos (by simpa [State.follows] using follows), domain_of_dom ((Only.raise0 ..).dom rfl), domain, agetD,
      aget_aset_same]
    rfl
  simp [lost]

theorem domTick_state (k : Nat) (d : Domain) : (domTick k d).state = d.state := by
  unfold domTick
  dsimp only
  split
  · rfl
  · split <;> rfl

theorem aget_map_snd {α β : Type} (l : List (Nat × α)) (g : α → β) (k : Nat) :
    aget (l.map fun x => (x.1, g x.2)) k = (aget l k).map g := by
  induction l with
  | nil => rfl
  | cons x r ih =>
    rw [List.map_cons, aget, aget]
    split
    · rfl
    · exact ih

/-- Time moves a domain's value and slew, and leaves its state. -/
theorem tick_domain_state (s : State) (k i : Nat) : ((s.tick k).domain i).state = (s.domain i).state := by
  unfold tick
  split
  · rfl
  split
  · unfold domain agetD
    rw [show (s.dom.map fun (i, d) => (i, domTick k d)) = s.dom.map fun x => (x.1, domTick k x.2) from rfl, aget_map_snd]
    cases aget s.dom i with
    | none => rfl
    | some d => exact domTick_state k d
  · rfl

theorem sourceTimeout_state {limit : Nat} (follows : (s.domain i).state = .locked ∨ (s.domain i).state = .held) :
    ((s.sourceTimeout i limit).domain i).state = .holdover ∧ ((s.sourceTimeout i limit).domain i).slew = 0 ∧
      ((s.sourceTimeout i limit).domain i).heldStep = 0 ∧
      (s.sourceTimeout i limit).clk = (s.waitUntil ((s.domain i).lastAt + limit)).clk := by
  unfold sourceTimeout
  rw [if_pos follows]
  generalize hu : s.waitUntil ((s.domain i).lastAt + limit) = u
  have still : (u.domain i).state = (s.domain i).state := by rw [← hu]; exact tick_domain_state ..
  have counted : Only 0xB u (if u.follows i then u.bump (Reg.timDomSourceLostCnt i) else u) :=
    .ite (Only.bump0 ..) (.refl ..)
  obtain ⟨state, slew, held⟩ := sourceLost_domain (s := if u.follows i then u.bump (Reg.timDomSourceLostCnt i) else u)
    (i := i) (by rw [domain_of_dom (counted.dom rfl), still]; exact follows)
  exact ⟨state, slew, held, (Only.holdover0 u i).clk rfl⟩

/-! ### The snapshot (R454) -/

/-- A register that has a GO bit alone. -/
def goRow (off : Nat) : Bool := (regRow off).any fun r => r.rw == 0 && r.rwg == 0 && r.ack == 0 && r.wo == 1

theorem Writable.goBits {off : Nat} (w : s.Writable host off r) (row : goRow off = true) :
    r.rw = 0 ∧ r.rwg = 0 ∧ r.ack = 0 ∧ r.wo = 1 := by
  have served := w.row
  unfold servedRow at served
  split at served
  · cases served
  · simpa [goRow, served, and_assoc] using row

/-- A write to such a register stores nothing. -/
theorem postReg_goRow {off : Nat} (h : s.Reached) (w : s.Writable host off r) (row : goRow off = true) :
    s.postReg host tag off v = (s.rset off (s.rget off)).afterWrite off (s.rget off) (s.rget off) v := by
  obtain ⟨hrw, hrwg, hack, hwo⟩ := w.goBits row
  have kept : (s.rget off &&& ~~~BitVec.ofNat 32 0) ||| (v &&& BitVec.ofNat 32 0) = s.rget off := by
    rw [show ~~~BitVec.ofNat 32 0 = BitVec.allOnes 32 from rfl, BitVec.and_allOnes]
    simp
  rw [postReg, if_neg (by simp [h.up]), if_neg (by simp [h.runs]), writeReg_direct h w.window, writeDirect, w.row]
  simp only [w.allowed]
  rw [if_neg (by simp [hrwg]), if_neg (by simp [hrw, hack, hwo]), storeReg, hrw, hrwg, hack]
  exact congrArg (fun x => (s.rset off x).afterWrite off (s.rget off) x v) kept

theorem rget_rset_rget (s : State) (o k : Nat) : (s.rset o (s.rget o)).rget k = s.rget k := by
  rw [rget_rset]
  split
  · next same => rw [same]
  · rfl

theorem snapshot_rget (s : State) : s.snapshot.rget Reg.timSnapLocalLo = BitVec.ofNat 32 s.clk ∧
    ∀ d, d < 4 → s.snapshot.rget (Reg.timSnapNs0 d) = BitVec.ofNat 32 (s.domNs d % 10 ^ 9) ∧
      s.snapshot.rget (Reg.timSnapSecLo0 d) = BitVec.ofNat 32 (s.domNs d / 10 ^ 9) := by
  unfold snapshot
  refine ⟨by
    simp [List.range, List.range.loop, rget_rset, rset64, Reg.timSnapLocalLo, Reg.timDomSecHi, Reg.timSnapSecLo0,
      Reg.timSnapNs0], fun d hd => ?_⟩
  interval_cases d <;> simp [List.range, List.range.loop, rget_rset]

theorem exec_timSnap (h : s.Reached) (w : s.Writable host Reg.timSnap r) : exec (.timSnap host tag v) s = .next
    (if v.toNat % 2 = 1 then (s.rset Reg.timSnap (s.rget Reg.timSnap)).snapshot
      else s.rset Reg.timSnap (s.rget Reg.timSnap)) := by
  show Host.Outcome.next (s.postReg host tag Reg.timSnap v) = _
  rw [postReg_goRow h w (by decide +kernel), afterWrite, if_pos rfl]

end State

open State in
/-- Settles O43. -/
theorem timeEvents : Obligations.TimeEvents := by
  intro s i
  refine ⟨fun port n o rate number inPorts member up network slave _ =>
      exec_ptpFrameReceived_sync number inPorts member up network slave,
    fun port n m => exec_ptpFrameReceived_none, ?sync, ?silent,
    fun port up enabled inPorts member => exec_ptpSyncTransmit up enabled inPorts member,
    fun slews => congrArg Host.Outcome.next (if_neg slews), ?snap⟩
  case sync =>
    intro network up locked
    exact ⟨_, congrArg Host.Outcome.next (if_pos ⟨network, up⟩), sourceTimeout_state (.inl locked)⟩
  case silent =>
    intro host_ timed runs held
    obtain ⟨state, _, noStep, clk⟩ := sourceTimeout_state (limit := 1000000 * (s.domain i).hostTimeout) (.inr held)
    exact ⟨_, congrArg Host.Outcome.next (if_pos ⟨host_, timed, by simp [runs]⟩), state, noStep, clk⟩
  case snap =>
    intro host tag v r reached writable
    refine ⟨_, exec_timSnap reached writable, fun even => ?_, fun odd => ?_⟩
    · rw [if_neg (by omega)]
      exact ⟨rget_rset_rget s _, Only.rset (by decide) (Only.refl _ s)⟩
    · rw [if_pos odd]
      obtain ⟨clk, domains⟩ := snapshot_rget (s.rset Reg.timSnap (s.rget Reg.timSnap))
      exact ⟨clk, domains, Only.snapshot (by decide) (Only.rset (by decide) (Only.refl _ s))⟩

end Sys2Proof.Machine
end

section
/-! `SEC_MACSEC_SA`, `SEC_FW_RULE` and `SEC_FV_WRITE` (R386, R392, R393, R395, R399 to R401, R414): the equation of each
row, over the ports, channels, rules and freshness entries that it sets. -/

namespace Sys2Proof.Machine

namespace State

variable {s t : State} {host q op p an b k n : Nat} {c : Cmd} {m : MsPort} {old x : Sc} {a : Sa} {f g : MsPort → MsPort}

/-! ### Ports and channels -/

@[simp] theorem msPort_msMod_same (s : State) (p : Nat) (f : MsPort → MsPort) : (s.msMod p f).msPort p = f (s.msPort p) := by
  rw [msPort, msMod, setSec_sec, agetD, amod, aget_aset_same]
  rfl

theorem msPort_msMod_other (h : k ≠ p) : (s.msMod p f).msPort k = s.msPort k := by
  rw [msPort, msMod, setSec_sec, agetD, amod, aget_aset_other _ _ h]
  rfl

theorem msPort_of_sec (same : t.sec = s.sec) (k : Nat) : t.msPort k = s.msPort k := by rw [msPort, same]; rfl

@[simp] theorem scOf_scPut (m : MsPort) (c : Cmd) (x : Sc) : scOf (scPut m c x) c = x := by
  unfold scOf scPut
  split
  · rfl
  · rw [agetD, aget_aset_same]
    rfl

@[simp] theorem scPut_txAn (m : MsPort) (c : Cmd) (x : Sc) : (scPut m c x).txAn = m.txAn := by
  unfold scPut
  split <;> rfl

/-- The active association of a port is no part of its channels. -/
theorem scOf_active (m : MsPort) (c : Cmd) (active : Option Nat) (e : Bool) :
    scOf { m with txAn := active, exhausted := e } c = scOf m c := rfl

/-- The channel that a body describes, with the associations that it keeps. -/
def scDescribed (c : Cmd) (sas : Tbl Sa) : Sc :=
  { enable := bit (c.u 6 2) 0, xpn := bit (c.u 6 2) 1, conf := bit (c.u 6 2) 2, inclSci := bit (c.u 6 2) 3,
    replay := bit (c.u 6 2) 4, autoSwitch := bit (c.u 6 2) 5, sci := beNat (c.bytes 8 8), confOff := c.u 18 1,
    window := c.u 20 4, sas := sas }

/-- Whether the new settings of a channel delete its associations. -/
def scRenewed (c : Cmd) (old : Sc) : Bool := bit (c.u 6 2) 1 != old.xpn || c.u 18 1 != old.confOff

/-- A channel `old` with the settings of a body. -/
def scConfigured (c : Cmd) (old : Sc) : Sc :=
  if scRenewed c old then { scDescribed c old.sas with sas := [] } else scDescribed c old.sas

/-- A port whose channel `old` takes the settings of a body. -/
def portConfigured (c : Cmd) (old : Sc) (m : MsPort) : MsPort :=
  let m := scPut m c (scConfigured c old)
  if scRenewed c old ∧ c.u 2 1 = 0 then { m with txAn := none, exhausted := false } else m

theorem scOf_portConfigured : scOf (portConfigured c old m) c = scConfigured c old := by
  unfold portConfigured
  dsimp only
  split
  · rw [scOf_active, scOf_scPut]
  · exact scOf_scPut ..

theorem scRenewed_eq_false : scRenewed c old = false ↔ bit (c.u 6 2) 1 = old.xpn ∧ c.u 18 1 = old.confOff := by
  simp [scRenewed]

theorem scConfigured_eq : scConfigured c old =
    scDescribed c (if bit (c.u 6 2) 1 = old.xpn ∧ c.u 18 1 = old.confOff then old.sas else []) := by
  unfold scConfigured
  split
  · next renewed =>
    rw [if_neg (by rw [← scRenewed_eq_false, renewed]; decide)]
    rfl
  · next kept => rw [if_pos (scRenewed_eq_false.1 (by simpa using kept))]

/-- The association that a body installs. -/
def saDescribed (c : Cmd) : Sa :=
  { keySlot := c.u 16 2, nextPn := c.u 24 8, ssci := c.u 32 4, salt := c.u 36 12, stopped := false, highPn := 0,
    firstPn := c.u 24 8, pend := [], warned := false }

/-- A port with an association installed where a body names it. -/
def portInstalled (c : Cmd) (a : Sa) (m : MsPort) : MsPort :=
  let m := scPut m c { scOf m c with sas := aset (scOf m c).sas (c.u 3 1) a }
  if c.u 2 1 == 0 && (m.txAn.isNone || m.txAn == some (c.u 3 1)) then { m with txAn := some (c.u 3 1), exhausted := false }
  else m

theorem scOf_portInstalled : scOf (portInstalled c a m) c =
    { scOf m c with sas := aset (scOf m c).sas (c.u 3 1) a } := by
  unfold portInstalled
  dsimp only
  split
  · rw [scOf_active, scOf_scPut]
  · exact scOf_scPut ..

theorem portInstalled_txAn : (portInstalled c a m).txAn =
    if (c.u 2 1 == 0) = true ∧ m.txAn = none then some (c.u 3 1) else m.txAn := by
  unfold portInstalled
  dsimp only
  rw [scPut_txAn]
  cases active : m.txAn with
  | none => cases c.u 2 1 == 0 <;> simp [active]
  | some k =>
    rw [if_neg (show ¬ ((c.u 2 1 == 0) = true ∧ some k = none) by simp)]
    split
    · next same => simp_all
    · rw [scPut_txAn, active]

/-- A port with the association that a body names deleted. -/
def portDeleted (c : Cmd) (m : MsPort) : MsPort :=
  let an := c.u 3 1
  let tx := c.u 2 1 == 0
  let x := scOf m c
  let m := scPut m c { x with sas := adel x.sas an }
  if tx && m.txAn == some an then { m with txAn := none, exhausted := false } else m

theorem scOf_portDeleted : scOf (portDeleted c m) c = { scOf m c with sas := adel (scOf m c).sas (c.u 3 1) } := by
  unfold portDeleted
  dsimp only
  split
  · rw [scOf_active, scOf_scPut]
  · exact scOf_scPut ..

/-! ### The threshold of packet numbers (R400) -/

/-- A port whose transmit association has been warned of. -/
def portWarned (an : Nat) (a : Sa) (m : MsPort) : MsPort :=
  { m with tx := { m.tx with sas := aset m.tx.sas an { a with warned := true } } }

theorem pnWarn_cases (s : State) (p an : Nat) : s.pnWarn p an = s ∨
    ∃ a, aget (s.msPort p).tx.sas an = some a ∧ s.pnWarn p an = (s.msMod p (portWarned an a)).raise 0x9002 (p + 256 * an) := by
  unfold pnWarn
  dsimp only
  split
  · exact .inl rfl
  · next a here =>
    generalize (!a.warned && _) = warns
    cases warns
    · exact .inl rfl
    · exact .inr ⟨a, here, rfl⟩

/-- An association below the threshold of a 32-bit number, or already warned of, raises nothing. -/
theorem pnWarn_quiet (here : aget (s.msPort p).tx.sas an = some a)
    (low : a.warned = true ∨ a.nextPn + (s.rget Reg.secPnMargin).toNat + 1 < 2 ^ 32) : s.pnWarn p an = s := by
  unfold pnWarn
  dsimp only
  rw [here]
  refine if_neg fun warns => ?_
  rw [Bool.and_eq_true, decide_eq_true_eq] at warns
  obtain ⟨fresh, above⟩ := warns
  obtain warned | below := low
  · rw [warned] at fresh
    cases fresh
  · split at above <;> omega

/-- The state after an installation: an association that becomes the active one may be warned of at once. -/
def saInstalled (s : State) (c : Cmd) : State :=
  if ((s.msMod (c.u 0 1) (portInstalled c (saDescribed c))).msPort (c.u 0 1)).txAn = some (c.u 3 1) ∧ (c.u 2 1 == 0) = true then
    (s.msMod (c.u 0 1) (portInstalled c (saDescribed c))).pnWarn (c.u 0 1) (c.u 3 1)
  else s.msMod (c.u 0 1) (portInstalled c (saDescribed c))

theorem portWarned_portInstalled (tx : c.u 2 1 = 0) : portWarned (c.u 3 1) a (portInstalled c a m) =
    portInstalled c { a with warned := true } m := by
  have sas : (portInstalled c a m).tx = { m.tx with sas := aset m.tx.sas (c.u 3 1) a } := by
    have whole := scOf_portInstalled (c := c) (a := a) (m := m)
    simpa only [scOf, if_pos tx] using whole
  unfold portWarned
  rw [sas]
  dsimp only
  rw [aset_aset]
  unfold portInstalled scPut scOf
  simp only [if_pos tx]
  split <;> rfl

/-- The port holds the installed association, warned of or not. -/
theorem saInstalled_port (s : State) (c : Cmd) : ∃ w, (s.saInstalled c).msPort (c.u 0 1) =
    portInstalled c { saDescribed c with warned := w } (s.msPort (c.u 0 1)) := by
  have installed := msPort_msMod_same s (c.u 0 1) (portInstalled c (saDescribed c))
  unfold saInstalled
  split
  · next active =>
    have tx : c.u 2 1 = 0 := by simpa using active.2
    obtain quiet | ⟨a, here, warned⟩ := pnWarn_cases (s.msMod (c.u 0 1) (portInstalled c (saDescribed c))) (c.u 0 1) (c.u 3 1)
    · exact ⟨false, by rw [quiet, installed]; rfl⟩
    · have whole := scOf_portInstalled (c := c) (a := saDescribed c) (m := s.msPort (c.u 0 1))
      have sas : aget (portInstalled c (saDescribed c) (s.msPort (c.u 0 1))).tx.sas (c.u 3 1) = some (saDescribed c) := by
        rw [scOf, if_pos tx] at whole
        rw [whole]
        exact aget_aset_same ..
      rw [installed, sas] at here
      obtain rfl := Option.some.inj here
      exact ⟨true, by
        rw [warned, msPort_of_sec ((Only.raise0 ..).sec rfl), msPort_msMod_same, installed, portWarned_portInstalled tx]⟩
  · exact ⟨false, installed⟩

/-! ### What every operation checks first -/

theorem runMacsec_named {f : Cmd → State → Exec} (ready : s.Ready host q 0x0701 c) (named : c.u 1 1 = op) :
    s.runMacsec host q op f = s.runCmd host q 0x0701 f := by
  unfold runMacsec
  rw [ready.head]
  exact if_pos (by simp [named])

theorem macsec_ok {dirs : List Bool} {rest : Exec} (up : s.datapathUp = true) (port : c.u 0 1 < 64) (ops : c.u 1 1 ≤ 4)
    (runs : ∀ d ∈ dirs, s.quenched (macsecUnit (c.u 0 1) d) = false) : Exec.macsec s c dirs rest = rest := by
  unfold Exec.macsec
  dsimp only
  rw [datapath_ok up, need_ok (List.forall_mem_map.2 runs), decide_eq_true port, decide_eq_true ops, Bool.and_self,
    check_true]

section
variable (ready : s.Ready host q 0x0701 c) (up : s.datapathUp = true) (port : c.u 0 1 < 64)
include ready up port

/-! ### The five operations (R395, R399 to R401) -/

theorem exec_portConfig (ofOp : c.u 1 1 = 0) (rx : s.quenched (macsecUnit (c.u 0 1) false) = false)
    (tx : s.quenched (macsecUnit (c.u 0 1) true) = false) : exec (.portConfig host q) s =
    .next ((s.msMod (c.u 0 1) fun m => { m with
      rxEn := bit (c.u 6 2) 0, txEn := bit (c.u 6 2) 1, strict := bit (c.u 6 2) 2,
      exemptPtp := bit (c.u 6 2) 3 }).finishCmd c.index 0 0 []) := by
  refine congrArg _ ((runMacsec_named ready ofOp).trans (runCmd_done ready ?_))
  unfold portConfig
  exact macsec_ok up port (by omega) (by simp [rx, tx])

theorem exec_scConfig (ofOp : c.u 1 1 = 1) (runs : s.quenched (macsecUnit (c.u 0 1) (c.u 2 1 == 0)) = false)
    (named : scNamed c = true) (offset : c.u 18 1 = 0 ∨ c.u 18 1 = 30 ∨ c.u 18 1 = 50) : exec (.scConfig host q) s =
    .next ((s.msMod (c.u 0 1) (portConfigured c (scOf (s.msPort (c.u 0 1)) c))).finishCmd c.index 0 0 []) := by
  have offsets : (c.u 18 1 == 0 || c.u 18 1 == 30 || c.u 18 1 == 50) = true := by simpa [or_assoc] using offset
  refine congrArg _ ((runMacsec_named ready ofOp).trans (runCmd_done ready ?_))
  unfold scConfig
  dsimp only
  rw [macsec_ok up port (by omega) (by simpa using runs), named, Bool.true_and, offsets, check_true]
  rfl

/-- An installation is refused for its key, then for the active association, then for its channel. -/
theorem exec_saInstall (ofOp : c.u 1 1 = 2) (runs : s.quenched (macsecUnit (c.u 0 1) (c.u 2 1 == 0)) = false)
    (keys : s.quenched Dom.keyStore = false) (named : scNamed c = true) (an : c.u 3 1 < 4) (slot : c.u 16 2 < 1024)
    (pnMin : 1 ≤ c.u 24 8) (pnMax : (scOf (s.msPort (c.u 0 1)) c).xpn = true ∨ c.u 24 8 < 2 ^ 32) :
    exec (.saInstall host q) s = .next
      (if s.keyFor (c.u 16 2) (if c.u 2 1 == 0 then 1 else 2) 1 = none then s.failCmd c.index 0x0704
      else if (c.u 2 1 == 0 && saActive (s.msPort (c.u 0 1)) (c.u 3 1)) = true then s.failCmd c.index 0x0703
      else if (scOf (s.msPort (c.u 0 1)) c).enable = false then s.failCmd c.index 0x0705
      else (s.saInstalled c).finishCmd c.index 0 0 []) := by
  have legal : (scNamed c && decide (c.u 3 1 < 4) && decide (c.u 16 2 < 1024) && decide (1 ≤ c.u 24 8) &&
      ((scOf (s.msPort (c.u 0 1)) c).xpn || decide (c.u 24 8 < 2 ^ 32))) = true := by
    simp [named, an, slot, pnMin]
    simpa using pnMax
  have eq : saInstall c s = Exec.check (s.keyFor (c.u 16 2) (if c.u 2 1 == 0 then 1 else 2) 1).isSome s 0x0704 (
      Exec.check (!(c.u 2 1 == 0 && saActive (s.msPort (c.u 0 1)) (c.u 3 1))) s 0x0703 (
      Exec.check (scOf (s.msPort (c.u 0 1)) c).enable s 0x0705 (.done (s.saInstalled c) St.ok 0 []))) := by
    unfold saInstall
    dsimp only
    rw [macsec_ok up port (by omega) (by simpa using runs), need_ok (by simpa using keys), legal, check_true]
    rfl
  refine congrArg _ ((runMacsec_named ready ofOp).trans ?_)
  cases key : s.keyFor (c.u 16 2) (if c.u 2 1 == 0 then 1 else 2) 1 with
  | none =>
    rw [if_pos rfl]
    exact runCmd_fail ready (by rw [eq, key]; rfl)
  | some k =>
    rw [if_neg (by simp)]
    rw [key, Option.isSome_some, check_true] at eq
    cases active : c.u 2 1 == 0 && saActive (s.msPort (c.u 0 1)) (c.u 3 1) with
    | true =>
      rw [if_pos rfl]
      exact runCmd_fail ready (by rw [eq, active]; rfl)
    | false =>
      rw [if_neg (by decide)]
      rw [active, Bool.not_false, check_true] at eq
      cases enable : (scOf (s.msPort (c.u 0 1)) c).enable with
      | false =>
        rw [if_pos rfl]
        exact runCmd_fail ready (by rw [eq, enable]; rfl)
      | true =>
        rw [if_neg (by decide)]
        exact runCmd_done ready (by rw [eq, enable, check_true])

theorem exec_saDelete (ofOp : c.u 1 1 = 3) (runs : s.quenched (macsecUnit (c.u 0 1) (c.u 2 1 == 0)) = false)
    (named : scNamed c = true) (an : c.u 3 1 < 4) : exec (.saDelete host q) s = .next
      (if (c.u 2 1 == 0 && saActive (s.msPort (c.u 0 1)) (c.u 3 1)) = false then
        (s.msMod (c.u 0 1) (portDeleted c)).finishCmd c.index 0 0 []
      else s.failCmd c.index 0x0703) := by
  refine congrArg _ ((runMacsec_named ready ofOp).trans (runCmd_checked ready ?_))
  unfold saDelete
  dsimp only
  rw [macsec_ok up port (by omega) (by simpa using runs), named, decide_eq_true an, Bool.and_self, check_true,
    show decide ((c.u 2 1 == 0 && saActive (s.msPort (c.u 0 1)) (c.u 3 1)) = false) =
      !(c.u 2 1 == 0 && saActive (s.msPort (c.u 0 1)) (c.u 3 1)) by
    cases c.u 2 1 == 0 && saActive (s.msPort (c.u 0 1)) (c.u 3 1) <;> rfl]
  rfl

theorem exec_txSwitch_none (ofOp : c.u 1 1 = 4) (runs : s.quenched (macsecUnit (c.u 0 1) true) = false)
    (an : c.u 3 1 < 4) (none : aget (s.msPort (c.u 0 1)).tx.sas (c.u 3 1) = none) :
    exec (.txSwitch host q) s = .next (s.failCmd c.index 0x0705) := by
  refine congrArg _ ((runMacsec_named ready ofOp).trans (runCmd_fail ready ?_))
  unfold txSwitch
  dsimp only
  rw [macsec_ok up port (by omega) (by simpa using runs), decide_eq_true an, check_true, none]

theorem exec_txSwitch (ofOp : c.u 1 1 = 4) (runs : s.quenched (macsecUnit (c.u 0 1) true) = false)
    (an : c.u 3 1 < 4) (here : aget (s.msPort (c.u 0 1)).tx.sas (c.u 3 1) = some a)
    (lasts : a.warned = true ∧ a.nextPn < 2 ^ 32 ∨ a.nextPn + (s.rget Reg.secPnMargin).toNat + 1 < 2 ^ 32) :
    exec (.txSwitch host q) s = .next ((s.msMod (c.u 0 1) fun m =>
      { m with txAn := some (c.u 3 1), exhausted := false }).finishCmd c.index 0 0 []) := by
  have quiet := pnWarn_quiet (s := s.msMod (c.u 0 1) fun m => { m with txAn := some (c.u 3 1), exhausted := false })
    (p := c.u 0 1) (an := c.u 3 1) (a := a) (by rw [msPort_msMod_same]; exact here) (lasts.imp_left And.left)
  refine congrArg _ ((runMacsec_named ready ofOp).trans (runCmd_done ready ?_))
  unfold txSwitch
  dsimp only
  rw [macsec_ok up port (by omega) (by simpa using runs), decide_eq_true an, check_true, here]
  dsimp only
  rw [quiet, if_neg]
  split <;> omega

end

/-! ### Firewall rules (R386, R392, R393) -/

/-- A table of lists that holds no empty one. -/
theorem agetD_putList {α : Type} (l : List (Nat × List α)) (v : List α) [Decidable (v = [])] :
    agetD (if v = [] then adel l n else aset l n v) n [] = v := by
  split
  · next empty => rw [agetD, aget_adel_same, empty]; rfl
  · rw [agetD, aget_aset_same]; rfl

theorem aget_putList_other {α : Type} (l : List (Nat × List α)) (v : List α) [Decidable (v = [])] (h : k ≠ n) :
    aget (if v = [] then adel l n else aset l n v) k = aget l k := by
  split
  · exact aget_adel_other _ h
  · exact aget_aset_other _ _ h

theorem fwPut_rule (s : State) (e n : Nat) (r : List Byte) : agetD (s.fwPut e n r).sec.rules n [] =
    versionSet (agetD s.sec.rules n []) e (if bit (le r 0 1) 0 then some (fwRec r) else none) := agetD_putList ..

theorem fwPut_hit (s : State) (e n : Nat) (r : List Byte) : aget (s.fwPut e n r).sec.hits n = none := aget_adel_same ..

theorem fwPut_other (s : State) (e : Nat) (r : List Byte) (h : k ≠ n) : aget (s.fwPut e n r).sec.rules k = aget s.sec.rules k ∧
    aget (s.fwPut e n r).sec.hits k = aget s.sec.hits k :=
  ⟨aget_putList_other _ _ h, aget_adel_other _ h⟩

theorem fwPut_epoch (s : State) (e n : Nat) (r : List Byte) : (s.fwPut e n r).epoch = s.epoch :=
  epoch_of_only (Only.fwPut0 ..) rfl

/-- Records become rules from the current epoch on, the first one at number `n + i`. -/
def fwLoad (n : Nat) (recs : List (List Byte)) (i : Nat) (s : State) : State :=
  (recs.zipIdx i).foldl (fun s (r, i) => s.fwPut s.epoch (n + i) r) s

theorem fwLoad_cons (r : List Byte) (recs : List (List Byte)) (i : Nat) :
    fwLoad n (r :: recs) i s = fwLoad n recs (i + 1) (s.fwPut s.epoch (n + i) r) := rfl

theorem fwLoad_only (n : Nat) (recs : List (List Byte)) (i : Nat) (s : State) : Only Group.sec s (fwLoad n recs i s) := by
  induction recs generalizing i s with
  | nil => exact .refl ..
  | cons r recs ih => exact (Only.fwPut0 ..).trans (ih ..)

theorem fwLoad_other (recs : List (List Byte)) (i : Nat) (s : State) (h : k < n + i ∨ n + i + recs.length ≤ k) :
    aget (fwLoad n recs i s).sec.rules k = aget s.sec.rules k ∧ aget (fwLoad n recs i s).sec.hits k = aget s.sec.hits k := by
  induction recs generalizing i s with
  | nil => exact ⟨rfl, rfl⟩
  | cons r recs ih =>
    rw [List.length_cons] at h
    obtain ⟨rule, hit⟩ := ih (i + 1) (s.fwPut s.epoch (n + i) r) (by omega)
    obtain ⟨rule', hit'⟩ := fwPut_other s s.epoch r (show k ≠ n + i by omega)
    rw [fwLoad_cons]
    exact ⟨rule.trans rule', hit.trans hit'⟩

theorem fwLoad_rule {r : List Byte} (recs : List (List Byte)) (i j : Nat) (s : State) (h : recs[j]? = some r) :
    agetD (fwLoad n recs i s).sec.rules (n + i + j) [] = versionSet (agetD s.sec.rules (n + i + j) []) s.epoch
      (if bit (le r 0 1) 0 then some (fwRec r) else none) ∧ aget (fwLoad n recs i s).sec.hits (n + i + j) = none := by
  induction recs generalizing i j s with
  | nil => cases h
  | cons r' recs ih =>
    rw [fwLoad_cons]
    cases j with
    | zero =>
      obtain rfl : r' = r := by simpa using h
      obtain ⟨rule, hit⟩ := fwLoad_other (n := n) (k := n + i) recs (i + 1) (s.fwPut s.epoch (n + i) r') (.inl (by omega))
      exact ⟨(congrArg (·.getD []) rule).trans (fwPut_rule ..), hit.trans (fwPut_hit ..)⟩
    | succ j =>
      obtain ⟨rule, hit⟩ := ih (i + 1) j (s.fwPut s.epoch (n + i) r') (by simpa using h)
      rw [show n + (i + 1) + j = n + i + (j + 1) by omega, fwPut_epoch] at rule
      rw [show n + (i + 1) + j = n + i + (j + 1) by omega] at hit
      refine ⟨rule.trans ?_, hit⟩
      obtain ⟨same, _⟩ := fwPut_other (k := n + i + (j + 1)) (n := n + i) s s.epoch r' (by omega)
      rw [agetD, same]
      rfl

section
variable {dma : List Byte} {recs : List (List Byte)} (up : s.datapathUp = true) (security : s.quenched Dom.security = false)
  (pipe0 : s.quenched Dom.pipe0 = false) (pipe1 : s.quenched Dom.pipe1 = false) (some_ : 1 ≤ c.u 2 2)
  (fits : c.u 0 2 + c.u 2 2 ≤ 16384) (aligned : c.u 8 8 % 8 = 0)
  (hr : recs = (List.range (c.u 2 2)).map fun i => fit 144 (dma.drop (144 * i)))
include up security pipe0 pipe1 some_ fits aligned hr

theorem secFwRule_eq : secFwRule dma c s = Exec.check (!s.epochLimit) s 0x0702
    (match recs.findIdx? fun b => !fwRecOk b with
    | some i => .done s 0x0701 i []
    | none => .done (fwLoad (c.u 0 2) recs 0 s.advanceEpoch) St.ok s.advanceEpoch.epoch []) := by
  have legal : (decide (1 ≤ c.u 2 2) && decide (c.u 2 2 ≤ 16384) && decide (c.u 0 2 + c.u 2 2 ≤ 16384) &&
      c.u 8 8 % 8 == 0) = true := by
    simp [some_, fits, aligned]
    omega
  subst hr
  unfold secFwRule
  dsimp only
  rw [datapath_ok up, need_ok (by simp [security, pipe0, pipe1]), legal, check_true]
  rfl

end

/-! ### Freshness entries (R414) -/

theorem exec_secFvWrite {tag : Nat} {v : Word} {r : RegRow} (h : s.Reached) (w : s.Writable host Reg.secFvWrite r) :
    exec (.secFvWrite host tag v) s = .next
      (if v.toNat % 2 = 1 then (s.rset Reg.secFvWrite (s.rget Reg.secFvWrite)).freshnessSet
        else s.rset Reg.secFvWrite (s.rget Reg.secFvWrite)) := by
  show Host.Outcome.next (s.postReg host tag Reg.secFvWrite v) = _
  rw [postReg_goRow h w (by decide +kernel), afterWrite, if_neg (by decide), if_pos rfl]

theorem freshnessSet_fvLast (s : State) (e : Nat) : s.freshnessSet.fvLast e =
    if e = s.rfld Reg.secFvSel 0 10 then s.rget64 Reg.secFvWriteLo else s.fvLast e := by
  unfold freshnessSet fvLast
  rw [setSec_sec, agetD]
  split
  · next same => rw [same, aget_aset_same]; rfl
  · next other => rw [aget_aset_other _ _ other]; rfl

end State

open State in
/-- Settles O49. -/
theorem macsecCommands : Obligations.MacsecCommands := by
  refine ⟨fun s host q c p an tx ready up hp port han htx => ?macsec, fun s host q c dma recs ready up security pipe0 pipe1
    some_ fits aligned hr => ?rules, fun s host tag v r reached writable => ?freshness⟩
  case macsec =>
    subst hp han htx
    refine ⟨exec_portConfig ready up port, fun old ofOp runs named offset hold => ?config,
      fun ofOp runs keys named an slot pnMin pnMax => ?install, fun ofOp runs named an => ?delete,
      fun ofOp runs an => ⟨exec_txSwitch_none ready up port ofOp runs an,
        fun a here lasts => exec_txSwitch ready up port ofOp runs an here lasts⟩⟩
    case config =>
      subst hold
      refine ⟨_, scConfigured c (scOf (s.msPort (c.u 0 1)) c), exec_scConfig ready up port ofOp runs named offset,
        Only.msMod0 .., ?_, ?_⟩
      · rw [msPort_msMod_same, scOf_portConfigured]
      · rw [scConfigured_eq]
        refine ⟨rfl, rfl, rfl, rfl, rfl, rfl, rfl, rfl, rfl, rfl, fun renewed => ?_, fun k other => msPort_msMod_other other⟩
        obtain ⟨tx, changed⟩ := renewed
        rw [msPort_msMod_same, portConfigured]
        have renewed : scRenewed c (scOf (s.msPort (c.u 0 1)) c) = true := by
          rw [← Bool.not_eq_false, scRenewed_eq_false]
          exact not_and_or.2 changed
        rw [if_pos ⟨renewed, by simpa using tx⟩]
    case install =>
      have eq := exec_saInstall ready up port ofOp runs keys named an slot pnMin pnMax
      refine ⟨fun refused => by rw [eq, if_pos refused], fun k key => ?_⟩
      rw [if_neg (by rw [key]; simp)] at eq
      refine ⟨fun active => by rw [eq, if_pos active], fun free disabled => ?_, fun free enabled => ?_⟩
      · rw [eq, if_neg (by rw [free]; decide), if_pos disabled]
      · rw [if_neg (by rw [free]; decide), if_neg (by rw [enabled]; decide)] at eq
        obtain ⟨w, installed⟩ := saInstalled_port s c
        refine ⟨_, { saDescribed c with warned := w }, eq, ?_, rfl, rfl, rfl, rfl, rfl, ?_, fun b other => ?_⟩ <;>
          rw [installed]
        · rw [scOf_portInstalled]
          exact aget_aset_same ..
        · exact portInstalled_txAn
        · rw [scOf_portInstalled]
          exact aget_aset_other _ _ other
    case delete =>
      have eq := exec_saDelete ready up port ofOp runs named an
      refine ⟨fun active => by rw [eq, if_neg (by rw [active]; decide)], fun free => ?_⟩
      rw [if_pos free] at eq
      refine ⟨_, eq, Only.msMod0 .., ?_, fun b other => ?_⟩ <;> rw [msPort_msMod_same, scOf_portDeleted]
      · exact aget_adel_same ..
      · exact aget_adel_other _ other
  case rules =>
    have eq := secFwRule_eq up security pipe0 pipe1 some_ fits aligned hr
    refine ⟨fun limit => congrArg _ (runDma_fail ready (by rw [eq, limit]; rfl) (by decide)),
      fun i b below here bad good => congrArg _ (runCmd_done ready ?_), fun below good => ?_⟩
    · have first : recs.findIdx? (fun b => !fwRecOk b) = some i := by
        obtain ⟨inside, rfl⟩ := List.getElem?_eq_some_iff.1 here
        refine List.findIdx?_eq_some_iff_getElem.2 ⟨inside, by rw [bad]; rfl, fun j hj => ?_⟩
        rw [good j _ hj (List.getElem?_eq_getElem (by omega))]
        decide
      rw [eq, below, Bool.not_false, check_true, first]
      rfl
    · have none : recs.findIdx? (fun b => !fwRecOk b) = none := by
        rw [List.findIdx?_eq_none_iff]
        simpa using good
      rw [below, Bool.not_false, check_true, none] at eq
      have loaded : Only Group.sec s.advanceEpoch (fwLoad (c.u 0 2) recs 0 s.advanceEpoch) := fwLoad_only ..
      have read : Only 0 (fwLoad (c.u 0 2) recs 0 s.advanceEpoch) (if c.host = 0 then
          (fwLoad (c.u 0 2) recs 0 s.advanceEpoch).hostIn (c.u 8 8) (144 * c.u 2 2)
        else fwLoad (c.u 0 2) recs 0 s.advanceEpoch) := .ite (Only.hostIn0 ..) (.refl ..)
      have epoch := (epoch_of_only read rfl).trans (epoch_of_only loaded rfl)
      have length : recs.length = c.u 2 2 := by rw [hr, List.length_map, List.length_range]
      refine ⟨_, ?_, epoch, loaded.trans (read.mono rfl), fun i b here => ?_, fun n out => ?_⟩
      · rw [epoch]
        exact congrArg _ (runDma_done ready eq)
      · rw [read.sec rfl, epoch]
        exact fwLoad_rule recs 0 i s.advanceEpoch here
      · rw [read.sec rfl]
        exact fwLoad_other recs 0 s.advanceEpoch (by omega)
  case freshness =>
    have only : Only Group.regs s (s.rset Reg.secFvWrite (s.rget Reg.secFvWrite)) := Only.rset (by decide) (.refl ..)
    have sel : (s.rset Reg.secFvWrite (s.rget Reg.secFvWrite)).rfld Reg.secFvSel 0 10 = s.rfld Reg.secFvSel 0 10 :=
      rfld_of_rget (rget_rset_rget ..) ..
    refine ⟨_, exec_secFvWrite reached writable, fun k _ => ?_, fun even => ?_, fun odd => ?_⟩
    · refine Eq.trans ?_ (rget_rset_rget s Reg.secFvWrite k)
      split <;> rfl
    · rw [if_neg (by omega)]
      rfl
    · rw [if_pos odd]
      refine ⟨?_, fun e other => ?_, only.mono rfl |>.trans ((Only.freshnessSet0 ..).mono rfl)⟩
      · rw [freshnessSet_fvLast, if_pos sel.symm, rget64, rget64, rget_rset_rget, rget_rset_rget]
      · rw [freshnessSet_fvLast, if_neg (by rw [sel]; exact other)]
        rfl

end Sys2Proof.Machine
end

section
/-! The cipher pool (R402, R404, R405, R408, R412, R413): what a request comes to at its dispatch, and what is counted when it
completes. -/

namespace Sys2Proof.Machine

namespace State

variable {s t : State} {r : CipherReq} {e : CipherEnd} {key : List Byte} {n p entry v o : Nat}

/-! ### Dispatch (R404) -/

theorem cipherJudge_refused (unfit : s.keyFor r.keySlot 8 4 = none) : s.cipherJudge r = (.refused, s) := by
  rw [cipherJudge, unfit]

theorem cipherJudge_unfit (fit : s.keyFor r.keySlot 8 4 = some key)
    (unfit : (s.eaProf r.profile).enable = false ∨ (s.eaProf r.profile).plain r.msg = none) :
    s.cipherJudge r = (.unfit, s) := by
  have none : ((s.eaProf r.profile).plain r.msg).filter (fun _ => (s.eaProf r.profile).enable) = none := by
    obtain off | long := unfit
    · rw [off]
      cases (s.eaProf r.profile).plain r.msg <;> rfl
    · rw [long]
      rfl
  rw [cipherJudge, fit]
  dsimp only
  rw [none]

theorem fvAccept_plain {x : EaProf} (stateless : x.kind = 0) (carried : Nat) : s.fvAccept x carried = (some 0, s) := by
  rw [fvAccept, stateless]
  rfl

/-- A MAC without freshness is compared. -/
theorem cipherJudge_plain (fit : s.keyFor r.keySlot 8 4 = some key) (on : (s.eaProf r.profile).enable = true)
    (plain : (s.eaProf r.profile).plain r.msg = some p) (stateless : (s.eaProf r.profile).kind = 0) : s.cipherJudge r =
      (if (s.eaProf r.profile).mac key (r.msg.take p) 0 = r.msg.drop (p + (s.eaProf r.profile).fvBytes) then .pass none
        else .mismatch, s) := by
  rw [cipherJudge, fit]
  dsimp only
  rw [plain, on, Option.filter_some, if_pos rfl]
  dsimp only
  rw [fvAccept_plain stateless]
  dsimp only
  rw [if_neg (show ¬ (s.eaProf r.profile).kind = 1 by rw [stateless]; decide)]
  split <;> rfl

/-- The oldest waiting request takes its end. -/
def fated (s : State) (r : CipherReq) : State :=
  (s.cipherJudge r).2.setSec { (s.cipherJudge r).2.sec with queue := (s.cipherJudge r).2.sec.queue.map fun q =>
    if q.ticket == r.ticket then { q with fate := some (s.cipherJudge r).1 } else q }

theorem exec_cipherDispatch (up : s.datapathUp = true) (runs : s.quenched Dom.security = false) (free : s.cpBusy < 128)
    (oldest : (s.sec.queue.find? (·.fate.isNone)) = some r) : exec .cipherDispatch s = .next (s.fated r) := by
  show Host.Outcome.next s.doCipherDispatch = _
  unfold doCipherDispatch
  rw [if_neg (by simp [up, runs, free]), oldest]
  rfl

theorem exec_cipherDispatch_idle (idle : ∀ r ∈ s.sec.queue, r.fate ≠ none) : exec .cipherDispatch s = .next s := by
  have none : s.sec.queue.find? (·.fate.isNone) = none := by
    rw [List.find?_eq_none]
    simpa using idle
  show Host.Outcome.next s.doCipherDispatch = _
  unfold doCipherDispatch
  rw [none]
  exact congrArg _ (ite_self s)

theorem fated_sec : (s.fated r).sec = { s.sec with queue := s.sec.queue.map fun q =>
    if q.ticket == r.ticket then { q with fate := some (s.cipherJudge r).1 } else q } := by
  rw [fated, setSec_sec, (Only.cipherJudge0 s r).sec rfl]

theorem fated_only : Only Group.sec s (s.fated r) :=
  Only.setSec rfl ((Only.cipherJudge0 s r).mono rfl)

/-! ### Completion (R405, R412, R413) -/

/-- A request leaves the queue. -/
def requestTaken (s : State) (r : CipherReq) : State :=
  s.setSec { s.sec with queue := s.sec.queue.filter (·.ticket ≠ r.ticket) }

section
variable (up : s.datapathUp = true) (runs : s.quenched Dom.security = false) (here : s.sec.queue[n]? = some r)
include here

theorem exec_cipherRequestComplete_waits
    (waits : r.fate = none ∨ (s.sec.queue.take n).any (·.source == r.source) = true) :
    exec (.cipherRequestComplete n) s = .next s := by
  show Host.Outcome.next (s.doCipherRequestComplete n) = _
  unfold doCipherRequestComplete
  rw [here]
  dsimp only
  refine congrArg _ ?_
  split
  · rfl
  · obtain undone | older := waits
    · rw [undone]
    · cases r.fate with
      | none => rfl
      | some e => exact if_pos older

include up runs

theorem exec_cipherRequestComplete (done : r.fate = some e) (first : ∀ x ∈ s.sec.queue.take n, x.source ≠ r.source) :
    exec (.cipherRequestComplete n) s = .next
      (((s.requestTaken r).cipherEnds r e).2.cipherDeliver r.ticket ((s.requestTaken r).cipherEnds r e).1) := by
  have oldest : (s.sec.queue.take n).any (·.source == r.source) = false := by
    rw [List.any_eq_false]
    simpa using first
  show Host.Outcome.next (s.doCipherRequestComplete n) = _
  unfold doCipherRequestComplete
  rw [if_neg (by simp [up, runs]), here]
  dsimp only
  rw [done]
  dsimp only
  rw [if_neg (by rw [oldest]; decide)]
  rfl

end

/-- A counter of the pool runs with the security domain. -/
theorem poolCounter_runs (runs : s.quenched Dom.security = false) (ho : 0x48000 ≤ o ∧ o < 0x4C000) : s.stopped o = false := by
  have window : o / 0x8000 = 9 := by omega
  unfold stopped ownerOf
  rw [window]
  simpa [show o < 0x4C000 from ho.2] using runs

theorem cipherEnds_passes (fresh : s.fvLast entry < v) : (s.cipherEnds r (.pass (some (entry, v)))).1 = true ∧
    (s.cipherEnds r (.pass (some (entry, v)))).2.fvLast entry = v := by
  have counted : (s.bump Reg.secCpReqCnt).fvLast entry = s.fvLast entry := by
    rw [fvLast, (Only.bump0 ..).sec rfl]
    rfl
  unfold cipherEnds
  dsimp only
  rw [if_neg (by omega)]
  refine ⟨rfl, ?_⟩
  have taken (u : State) : (u.fvSet entry v).fvLast entry = v := by
    rw [fvSet, fvLast, setSec_sec]
    dsimp only
    exact agetD_put_same 0 v _ entry
  dsimp only
  split
  · exact taken _
  · exact taken _

/-- A MAC that does not match, counted and recorded. -/
def mismatchNoted (s : State) (r : CipherReq) : State :=
  ((s.bump Reg.secCpReqCnt).bump Reg.secEaMacFailCnt).rset Reg.secEaLastFail (BitVec.ofNat 32 (r.profile + 2 ^ 16 * r.source))

theorem cipherEnds_mismatch (s : State) (r : CipherReq) : (s.cipherEnds r .mismatch).1 = false ∧
    (s.mismatchNoted r).KeepsRegs (s.cipherEnds r .mismatch).2 := by
  have raised := raiseLimited_keepsRegs (s.mismatchNoted r) (aget (s.mismatchNoted r).sec.authAt r.profile) 100000000 0x9005
    r.profile
  refine ⟨rfl, fun o ho => Eq.trans ?_ (raised o ho)⟩
  unfold cipherEnds
  dsimp only
  split <;> rfl

/-- After the request's own count, its end touches no count but those of its end. -/
theorem cipherEnds_requests (runs : s.quenched Dom.security = false) (r : CipherReq) (e : CipherEnd) :
    (s.cipherEnds r e).2.rget Reg.secCpReqCnt = s.rget Reg.secCpReqCnt + 1 := by
  have counted : (s.bump Reg.secCpReqCnt).rget Reg.secCpReqCnt = s.rget Reg.secCpReqCnt + 1 := by
    rw [bump_rget s _ (by decide) (by decide) (poolCounter_runs runs (by decide)), if_pos rfl]
  have other (o : Nat) (ho : Reg.secCpReqCnt ≠ o) :
      ((s.bump Reg.secCpReqCnt).bump o).rget Reg.secCpReqCnt = s.rget Reg.secCpReqCnt + 1 :=
    (bump_other _ o _ (by decide) ho).trans counted
  cases e with
  | pass fv =>
    cases fv with
    | none => exact other Reg.secEaPassCnt (by decide)
    | some x =>
      obtain ⟨entry, v⟩ := x
      have set := (rget_of_only (Only.fvSet0 ((s.bump Reg.secCpReqCnt).bump Reg.secEaPassCnt) entry v) rfl
        Reg.secCpReqCnt).trans (other Reg.secEaPassCnt (by decide))
      unfold cipherEnds
      dsimp only
      split
      · exact counted
      · dsimp only
        split <;> exact set
  | unfit => exact counted
  | stale => exact other Reg.secEaFvFailCnt (by decide)
  | mismatch =>
    rw [(cipherEnds_mismatch s r).2 _ (by decide), mismatchNoted, rget_rset_other _ _ (by decide)]
    exact other Reg.secEaMacFailCnt (by decide)
  | refused => exact other Reg.secCpKeyRefusedCnt (by decide)
  | erased => exact counted

end State

open State in
/-- Settles O50. -/
theorem cipherPool : Obligations.CipherPool := by
  intro s up runs
  refine ⟨fun fated => exec_cipherDispatch_idle fated, fun r free oldest => ?dispatch,
    fun n r e here done first => ?complete, fun n r here waits => exec_cipherRequestComplete_waits here waits⟩
  case dispatch =>
    refine ⟨_, (s.cipherJudge r).1, exec_cipherDispatch up runs free oldest, fated_only, by rw [fated_sec], by rw [fated_sec],
      fun none => by rw [cipherJudge_refused none], fun key fit => ⟨fun unfit => by rw [cipherJudge_unfit fit unfit],
        fun p on plain stateless => by rw [cipherJudge_plain fit on plain stateless]⟩⟩
  case complete =>
    have still : (s.requestTaken r).quenched Dom.security = false := runs
    refine ⟨_, _, rfl, exec_cipherRequestComplete up runs here done first, fun passed => ?_, fun failed => ?_,
      fun entry v passed fresh => ?_, cipherEnds_requests still r e, fun mismatch => ?_, fun refused => ?_⟩
    · rw [passed]
      rfl
    · obtain rfl | rfl | rfl | rfl | rfl := failed <;> rfl
    · rw [passed]
      exact cipherEnds_passes (s := s.requestTaken r) fresh
    · rw [mismatch]
      refine ((cipherEnds_mismatch (s.requestTaken r) r).2 _ (by decide)).trans ?_
      exact rget_rset_same ..
    · rw [refused]
      show (((s.requestTaken r).bump Reg.secCpReqCnt).bump Reg.secCpKeyRefusedCnt).rget Reg.secCpKeyRefusedCnt = _
      rw [bump_rget _ _ (by decide) (by decide) (poolCounter_runs (by rw [bump_quenched]; exact still) (by decide)),
        if_pos rfl, bump_other _ _ _ (by decide) (by decide)]
      rfl

end Sys2Proof.Machine
end

section
/-! The key store (R422 to R437): the checks of a target slot, what enters a slot and what leaves it, alarms, and the
transitions of the life cycle. -/

namespace Sys2Proof.Machine

namespace State

variable {s t : State} {host q slot n k st lvl : Nat} {c : Cmd} {par other : Option Nat} {replace : Bool} {rest : Exec}
  {key : List Byte} {x : KeySlot}

/-! ### Slots -/

theorem keySlot_of_key (same : t.key = s.key) (n : Nat) : t.keySlot n = s.keySlot n := by rw [keySlot, same]; rfl

/-- Without an alarm a loaded key enters its slot as it is. -/
theorem slotPut_slots (quiet : s.key.asserted = 0) (loaded : x.state = .loaded) :
    (s.slotPut slot x).key.slots = aset s.key.slots slot x := by
  have filled : x ≠ {} := fun empty => by rw [empty] at loaded; cases loaded
  unfold slotPut
  rw [setKey_key]
  simp only [quiet, ne_eq, not_true_eq_false, false_and, if_false, if_neg filled]

theorem slotPut_same (quiet : s.key.asserted = 0) (loaded : x.state = .loaded) : (s.slotPut slot x).keySlot slot = x := by
  rw [keySlot, slotPut_slots quiet loaded, agetD, aget_aset_same]
  rfl

theorem slotPut_other (quiet : s.key.asserted = 0) (loaded : x.state = .loaded) (h : n ≠ slot) :
    (s.slotPut slot x).keySlot n = s.keySlot n := by
  rw [keySlot, slotPut_slots quiet loaded, agetD, aget_aset_other _ _ h]
  rfl

/-! ### The target of a key (R430) -/

theorem keyTarget_alarm (alarm : s.key.asserted ≠ 0) : Exec.keyTarget s slot other replace rest = Exec.fail s 0x0786 := by
  rw [Exec.keyTarget, beq_false_of_ne alarm, check_false]

theorem keyTarget_firmware (quiet : s.key.asserted = 0) (firmware : (decide (slot < 1008) && other.all (· < 1008)) = false) :
    Exec.keyTarget s slot other replace rest = Exec.fail s 0x0781 := by
  rw [Exec.keyTarget, beq_iff_eq.2 quiet, check_true, firmware, check_false]

section
variable (quiet : s.key.asserted = 0) (host_ : (decide (slot < 1008) && other.all (· < 1008)) = true)
include quiet host_

theorem keyTarget_used (used : (s.keySlot slot).state ≠ .empty) (kept : replace = false) :
    Exec.keyTarget s slot other replace rest = Exec.fail s 0x0780 := by
  rw [Exec.keyTarget, beq_iff_eq.2 quiet, check_true, host_, check_true, beq_false_of_ne used, kept, Bool.or_self,
    check_false]

theorem keyTarget_parent (replaced : replace = true) (child : s.hasChild slot = true) :
    Exec.keyTarget s slot other replace rest = Exec.fail s 0x0784 := by
  rw [Exec.keyTarget, beq_iff_eq.2 quiet, check_true, host_, check_true, replaced, Bool.or_true, check_true, child]
  rfl

theorem keyTarget_ok (free : (s.keySlot slot).state = .empty ∧ replace = false ∨ replace = true ∧ s.hasChild slot = false) :
    Exec.keyTarget s slot other replace rest = rest := by
  rw [Exec.keyTarget, beq_iff_eq.2 quiet, check_true, host_, check_true]
  obtain ⟨empty, kept⟩ | ⟨replaced, childless⟩ := free
  · rw [empty, kept]
    rfl
  · rw [replaced, childless, Bool.or_true]
    rfl

end

/-! ### `KEY_DERIVE` (R428 to R430) -/

/-- The slot that a derivation from a parent key loads. -/
def derivedSlot (s : State) (c : Cmd) (par : Option Nat) (pk : List Byte) : KeySlot :=
  { state := .loaded
    key := kdf pk (c.bytes 16 (c.u 9 1)) (s.levelBelow par) (c.u 4 1) (c.u 5 1) (c.bytes 48 16) (c.u 6 2)
    bits := c.u 6 2, usage := c.u 4 1, dest := c.u 5 1, level := s.levelBelow par, parent := par
    recipe := .derive (c.bytes 16 (c.u 9 1)) (c.bytes 48 16) }

/-- The state in which it is loaded. -/
def derived (s : State) (c : Cmd) (par : Option Nat) (pk : List Byte) : State :=
  (s.bumpBy Reg.secCpReqCnt (kdfSteps par (c.u 6 2))).slotPut (c.u 0 2) (s.derivedSlot c par pk)

/-- A derivation whose target passes. -/
def deriveFrom (s : State) (c : Cmd) (par : Option Nat) : Exec :=
  Exec.check (par.isSome || s.rootUsable) s 0x0785 <|
  match (s.deriveKey par).filter fun _ => s.levelBelow par ≤ 8 with
  | none => Exec.fail s 0x0782
  | some pk =>
    Exec.check ((c.u 6 2 == 128 || c.u 6 2 == 256) && c.u 4 1 &&& (s.attrMask par).1 == c.u 4 1 &&
      c.u 5 1 &&& (s.attrMask par).2 == c.u 5 1 && !bit (c.u 5 1) 6) s 0x0783 <|
    .done (s.derived c par pk) St.ok (keyResult (c.u 0 2) (s.levelBelow par) (s.derivedSlot c par pk).key) []

theorem runDerive_named {rebuild : Bool} {f : Cmd → State → Exec} (ready : s.Ready host q 0x0702 c)
    (named : isRebuild c = rebuild) : s.runDerive host q rebuild f = s.runCmd host q 0x0702 f := by
  unfold runDerive
  rw [ready.head]
  exact if_pos (by simp [named])

theorem keyDerive_eq (keys : s.quenched Dom.keyStore = false) (security : s.quenched Dom.security = false)
    (hslot : c.u 0 2 < 1024) (hpar : par = if c.u 2 2 = 0xFFFF then none else some (c.u 2 2))
    (parent : par = none ∨ c.u 2 2 < 1024) (labelMin : 1 ≤ c.u 9 1) (labelMax : c.u 9 1 ≤ 32) :
    keyDerive c s = Exec.keyTarget s (c.u 0 2) par (bit (c.u 8 1) 0) (s.deriveFrom c par) := by
  have legal : (decide (c.u 0 2 < 1024) && par.all (· < 1024) && decide (1 ≤ c.u 9 1) && decide (c.u 9 1 ≤ 32)) = true := by
    simp only [hslot, labelMin, labelMax, decide_true, Bool.and_true, Bool.true_and]
    obtain root | below := parent
    · rw [root]
      rfl
    · rw [hpar]
      split
      · rfl
      · simpa using below
  subst hpar
  unfold keyDerive
  dsimp only
  rw [need_ok (by simp [keys, security]), legal, check_true]
  rfl

theorem deriveFrom_noRoot (root : par = none) (unusable : s.rootUsable = false) :
    s.deriveFrom c par = Exec.fail s 0x0785 := by
  rw [deriveFrom, root, unusable]
  rfl

theorem deriveFrom_refused (root : par ≠ none ∨ s.rootUsable = true) (refused : s.deriveKey par = none ∨ 8 < s.levelBelow par) :
    s.deriveFrom c par = Exec.fail s 0x0782 := by
  have usable : (par.isSome || s.rootUsable) = true := by
    simpa [Option.isSome_iff_ne_none] using root
  have none : (s.deriveKey par).filter (fun _ => s.levelBelow par ≤ 8) = none := by
    obtain noKey | deep := refused
    · rw [noKey]
      rfl
    · rw [decide_eq_false (Nat.not_le.2 deep)]
      cases s.deriveKey par <;> rfl
  rw [deriveFrom, usable, check_true, none]

theorem deriveFrom_loads (given : s.deriveKey par = some key) (level : s.levelBelow par ≤ 8)
    (bits : c.u 6 2 = 128 ∨ c.u 6 2 = 256) (usage : c.u 4 1 &&& (s.attrMask par).1 = c.u 4 1)
    (dest : c.u 5 1 &&& (s.attrMask par).2 = c.u 5 1) (free : bit (c.u 5 1) 6 = false) :
    s.deriveFrom c par = .done (s.derived c par key) St.ok
      (keyResult (c.u 0 2) (s.levelBelow par) (s.derivedSlot c par key).key) [] := by
  have usable : (par.isSome || s.rootUsable) = true := by
    cases par with
    | some p => rfl
    | none =>
      rw [Option.isSome_none, Bool.false_or]
      by_contra unusable
      rw [deriveKey, if_neg unusable] at given
      cases given
  have attributes : ((c.u 6 2 == 128 || c.u 6 2 == 256) && c.u 4 1 &&& (s.attrMask par).1 == c.u 4 1 &&
      c.u 5 1 &&& (s.attrMask par).2 == c.u 5 1 && !bit (c.u 5 1) 6) = true := by
    rw [usage, dest, free]
    simpa using bits
  rw [deriveFrom, usable, check_true, given, decide_eq_true level, Option.filter_some, if_pos rfl]
  dsimp only
  rw [attributes, check_true]

theorem derived_slots (quiet : s.key.asserted = 0) (c : Cmd) (par : Option Nat) (pk : List Byte) :
    (s.derived c par pk).keySlot (c.u 0 2) = s.derivedSlot c par pk ∧
      ∀ n, n ≠ c.u 0 2 → (s.derived c par pk).keySlot n = s.keySlot n := by
  have same := (Only.bumpBy0 s Reg.secCpReqCnt (kdfSteps par (c.u 6 2))).key rfl
  exact ⟨slotPut_same (by rw [same]; exact quiet) rfl,
    fun n h => (slotPut_other (by rw [same]; exact quiet) rfl h).trans (keySlot_of_key same n)⟩

/-! ### `KEY_UNWRAP` (R431, R432) -/

/-- The slot that a sound blob loads. -/
def unwrappedSlot (s : State) (c : Cmd) (usage dest : Nat) (key : List Byte) : KeySlot :=
  { state := .loaded, key := key, bits := 8 * key.length, usage := usage, dest := dest, level := s.levelBelow (some (c.u 2 2)),
    parent := some (c.u 2 2), recipe := .blob (c.u 4 1) (c.bytes 8 (c.u 6 2)) }

/-- An unwrapping whose target and wrapping key pass. -/
def unwrapWith (s : State) (c : Cmd) (wk : List Byte) : Exec :=
  match unwrapBlob wk (c.u 4 1) (c.bytes 8 (c.u 6 2)) with
  | none => .done (s.bump Reg.secCpReqCnt) 0x0787 0 []
  | some (usage, dest, key) =>
    Exec.check (usage &&& (s.attrMask (some (c.u 2 2))).1 == usage && dest &&& (s.attrMask (some (c.u 2 2))).2 == dest &&
      !bit dest 6) (s.bump Reg.secCpReqCnt) 0x0783 <|
    .done ((s.bump Reg.secCpReqCnt).slotPut (c.u 0 2) (s.unwrappedSlot c usage dest key)) St.ok
      (keyResult (c.u 0 2) (s.levelBelow (some (c.u 2 2))) key) []

theorem keyUnwrap_eq {wk : List Byte} (keys : s.quenched Dom.keyStore = false) (security : s.quenched Dom.security = false)
    (hslot : c.u 0 2 < 1008) (wrap : c.u 2 2 < 1008) (method : c.u 4 1 ≤ 1) (length : c.u 6 2 = 32 ∨ c.u 6 2 = 48)
    (quiet : s.key.asserted = 0) (free : (s.keySlot (c.u 0 2)).state = .empty ∧ bit (c.u 5 1) 0 = false ∨
      bit (c.u 5 1) 0 = true ∧ s.hasChild (c.u 0 2) = false)
    (given : s.keyFor (c.u 2 2) 0x10 2 = some wk) (level : (s.keySlot (c.u 2 2)).level < 8) :
    keyUnwrap c s = s.unwrapWith c wk := by
  have legal : (decide (c.u 0 2 < 1024) && decide (c.u 2 2 < 1024) && decide (c.u 4 1 ≤ 1) &&
      (c.u 6 2 == 32 || c.u 6 2 == 48)) = true := by
    rw [decide_eq_true (show c.u 0 2 < 1024 by omega), decide_eq_true (show c.u 2 2 < 1024 by omega),
      decide_eq_true method]
    simpa using length
  have below : s.levelBelow (some (c.u 2 2)) ≤ 8 := level
  unfold keyUnwrap
  dsimp only
  rw [need_ok (by simp [keys, security]), legal, check_true,
    keyTarget_ok quiet (by simp [hslot, wrap]) free, given, decide_eq_true below, Option.filter_some, if_pos rfl]
  rfl

theorem unwrapWith_loads {wk : List Byte} {usage dest : Nat}
    (sound : unwrapBlob wk (c.u 4 1) (c.bytes 8 (c.u 6 2)) = some (usage, dest, key))
    (husage : usage &&& (s.attrMask (some (c.u 2 2))).1 = usage) (hdest : dest &&& (s.attrMask (some (c.u 2 2))).2 = dest)
    (free : bit dest 6 = false) : s.unwrapWith c wk =
      .done ((s.bump Reg.secCpReqCnt).slotPut (c.u 0 2) (s.unwrappedSlot c usage dest key)) St.ok
        (keyResult (c.u 0 2) (s.levelBelow (some (c.u 2 2))) key) [] := by
  rw [unwrapWith, sound]
  dsimp only
  rw [husage, hdest, free, beq_self_eq_true, beq_self_eq_true]
  rfl

/-! ### `KEY_ERASE` and `KEY_DERIVE` with REBUILD (R433, R436) -/

/-- A request that names an erased slot is refused, or ends without a result when an engine has it (R415). -/
def requestLost (gone : List Nat) (r : CipherReq) : CipherReq :=
  if gone.contains r.keySlot then { r with fate := some (if r.fate.isNone then .refused else .erased) } else r

theorem keysLost_queue (s : State) (gone : List Nat) : (s.keysLost gone).sec.queue = s.sec.queue.map (requestLost gone) := by
  cases gone with
  | nil => exact (List.map_id s.sec.queue).symm
  | cons n r => rw [keysLost, if_neg (by simp), (Only.raise0 ..).sec rfl]; rfl

theorem requestLost_ticket (gone : List Nat) (r : CipherReq) : (requestLost gone r).ticket = r.ticket := by
  unfold requestLost
  split <;> rfl

theorem requestLost_slot (gone : List Nat) (r : CipherReq) : (requestLost gone r).keySlot = r.keySlot := by
  unfold requestLost
  split <;> rfl

theorem requestLost_fate {gone : List Nat} {r : CipherReq} (erased : r.keySlot ∈ gone) :
    (requestLost gone r).fate = some .refused ∨ (requestLost gone r).fate = some .erased := by
  unfold requestLost
  rw [if_pos (by simpa using erased)]
  cases r.fate with
  | none => exact .inl rfl
  | some e => exact .inr rfl

/-- The slots that an erase names, with their subtrees. -/
def erasedFrom (s : State) (first count : Nat) : List Nat :=
  s.subtree 8 ((s.key.slots.filter fun x => first ≤ x.1 && x.1 < first + count && x.2.state != .empty).map (·.1))

/-- The state without these slots. -/
def slotsErased (s : State) (gone : List Nat) : State :=
  (s.setKey { s.key with slots := s.key.slots.filter fun x => !gone.contains x.1 }).keysLost gone

theorem slotsErased_slots (s : State) (gone : List Nat) :
    (s.slotsErased gone).key.slots = s.key.slots.filter fun x => !gone.contains x.1 := by
  rw [slotsErased, (Only.keysLost0 ..).key rfl]
  rfl

theorem aget_eq_none {α : Type} {l : List (Nat × α)} (h : ∀ x ∈ l, x.1 ≠ n) : aget l n = none := by
  induction l with
  | nil => rfl
  | cons x r ih =>
    rw [aget, if_neg (h x List.mem_cons_self)]
    exact ih fun y hy => h y (List.mem_cons_of_mem _ hy)

theorem slotsErased_gone {gone : List Nat} (erased : n ∈ gone) : (s.slotsErased gone).keySlot n = {} := by
  rw [keySlot, slotsErased_slots, agetD, aget_eq_none]
  · rfl
  · intro x hx named
    have kept := (List.mem_filter.1 hx).2
    rw [named] at kept
    simp [erased] at kept

theorem keyErase_eq {first count : Nat} (keys : s.quenched Dom.keyStore = false)
    (hfirst : first = if bit (c.u 4 1) 0 then 0 else c.u 0 2) (hcount : count = if bit (c.u 4 1) 0 then 1008 else c.u 2 2)
    (some_ : 1 ≤ count) (most : count ≤ 1008) (host_ : first + count ≤ 1008) : keyErase c s =
      .done (s.slotsErased (s.erasedFrom first count)) St.ok (s.erasedFrom first count).length [] := by
  subst hfirst hcount
  unfold keyErase
  dsimp only
  rw [need_ok (by simpa using keys), decide_eq_true some_, decide_eq_true most,
    decide_eq_true (le_trans host_ (by decide)), Bool.and_self, Bool.and_self, check_true, decide_eq_true host_, check_true]
  rfl

theorem keyRebuild_eq (keys : s.quenched Dom.keyStore = false) (security : s.quenched Dom.security = false)
    (flags : c.u 8 1 = 2) (zero : ∀ b ∈ c.body.set 8 0, b = 0) (quiet : s.key.asserted = 0) (root : s.rootUsable = true)
    {ok bad : Nat} {u : State} (rebuilt : s.erasedSlots.foldl rebuildOne (0, 0, s) = (ok, bad, u)) :
    keyRebuild c s = .done (u.raise 0x9103 (ok + 2 ^ 16 * bad)) St.ok (ok + 2 ^ 16 * bad) [] := by
  have legal : ((c.body.set 8 0).all (· == 0) && c.u 8 1 == 2) = true := by
    rw [flags, beq_self_eq_true, Bool.and_true, List.all_eq_true]
    exact fun b hb => beq_iff_eq.2 (zero b hb)
  unfold keyRebuild
  rw [need_ok (by simp [keys, security]), legal, check_true, beq_iff_eq.2 quiet, check_true, root, check_true, rebuilt]

/-! ### Alarms (R434, R435, R437) -/

theorem bit_mod_16 {src i : Nat} (h : i < 4) : bit (src % 16) i = bit src i := by
  rw [bit_eq_testBit, bit_eq_testBit, show 16 = 2 ^ 4 from rfl, Nat.testBit_mod_two_pow, decide_eq_true h, Bool.true_and]

/-- A slot as an alarm leaves it. -/
def slotAlarmed (x : KeySlot) : KeySlot := if x.state = .loaded then { x with state := .erased, key := [] } else x

/-- The slots that an alarm erases. -/
def loadedSlots (s : State) : List Nat := (s.key.slots.filter fun x => x.2.state == .loaded).map (·.1)

/-- The key store that an alarm leaves. -/
def keyAlarmed (s : State) (src : Nat) : Key :=
  let root := bit src 1 || bit src 3
  { s.key with
    slots := s.key.slots.map fun x => (x.1, slotAlarmed x.2), asserted := s.key.asserted ||| src
    root := if root then none else s.key.root, rootLost := root || s.key.rootLost }

theorem doKeyAlarm_up (up : s.forgeUp = true) {sources : Nat} (ember : Bool) (some_ : sources % 16 ≠ 0) :
    s.doKeyAlarm sources ember = ((((s.setKey (s.keyAlarmed (sources % 16))).rsetF Reg.keyAlarmStatus 8 5
      (sources % 16 + 16 * b2n ember)).keysLost s.loadedSlots).bump Reg.keyAlarmCnt).raise 0x9101
        (sources % 16 + 16 * b2n (bit (sources % 16) 1 || bit (sources % 16) 3) + 256 * b2n ember) := by
  unfold doKeyAlarm
  dsimp only
  rw [if_neg some_, if_neg (by simp [up])]
  rfl

theorem doKeyAlarm_down (down : s.forgeUp = false) (sources : Nat) (ember : Bool) : s.doKeyAlarm sources ember =
    if sources % 16 ≠ 0 ∧ ember = true ∧ s.pwr.state ≠ .off then s.setKey { s.key with
      asserted := s.key.asserted ||| sources % 16
      sealNonce := if s.pwr.state = .banked then none else s.key.sealNonce }
    else s := by
  unfold doKeyAlarm
  dsimp only
  by_cases none : sources % 16 = 0
  · rw [if_pos none, if_neg (by simp [none])]
  · rw [if_neg none, if_pos (by simp [down])]
    simp [none]

theorem keySlot_alarmed (same : t.key = s.keyAlarmed k) (n : Nat) : t.keySlot n = slotAlarmed (s.keySlot n) := by
  rw [keySlot, same, keyAlarmed]
  dsimp only
  rw [agetD, aget_map_snd, keySlot, agetD]
  cases aget s.key.slots n <;> rfl

theorem mem_of_aget {α : Type} {l : List (Nat × α)} {v : α} (h : aget l n = some v) : (n, v) ∈ l := by
  induction l with
  | nil => cases h
  | cons x r ih =>
    rw [aget] at h
    split at h
    · next same =>
      obtain rfl := Option.some.inj h
      rw [← same]
      exact List.mem_cons_self
    · exact List.mem_cons_of_mem _ (ih h)

theorem mem_loadedSlots (loaded : (s.keySlot n).state = .loaded) : n ∈ s.loadedSlots := by
  unfold keySlot agetD at loaded
  cases here : aget s.key.slots n with
  | none =>
    rw [here] at loaded
    cases loaded
  | some x =>
    rw [here] at loaded
    exact List.mem_map.2 ⟨(n, x), List.mem_filter.2 ⟨mem_of_aget here, beq_iff_eq.2 loaded⟩, rfl⟩

/-! ### The life cycle (R419, R422, R423) -/

/-- A transition is programmed: every slot and the root are erased, and the service session ends. -/
def lcAdvanced (s : State) (b : LifeCycle) : State :=
  ((((s.lcProgram b).setKey { (s.lcProgram b).key with
    slots := [], root := none, lcPending := true, sealNonce := none }).keysLost (s.lcProgram b).loadedSlots).raise 0x9102
      (lcCode b)).sessionEnd

theorem lcAdvanced_key (s : State) (b : LifeCycle) : (s.lcAdvanced b).key =
    { (s.lcProgram b).key with slots := [], root := none, lcPending := true, sealNonce := none } := by
  rw [lcAdvanced, (Only.sessionEnd0 ..).key rfl, (Only.raise0 ..).key rfl, (Only.keysLost0 ..).key rfl, setKey_key]

section
variable {rb : Option Nat} {b : LifeCycle} (keys : s.quenched Dom.keyStore = false) (ember : s.quenched Dom.ember = false)
include keys ember

theorem lcAdvance_alarm (alarm : s.key.asserted ≠ 0) : lcAdvance rb c s = Exec.fail s 0x0786 := by
  rw [lcAdvance, need_ok (by simp [keys, ember]), beq_false_of_ne alarm, check_false]

/-- A transition that is listed, with a body that agrees, goes on to the limit of SERVICE entries and the read-back. -/
theorem lcAdvance_listed (quiet : s.key.asserted = 0) (named : lcOf (c.u 1 1) = some b)
    (listed : lcStep s.key.inForce b = true) : lcAdvance rb c s =
      Exec.check (c.u 0 1 == lcCode s.key.inForce && c.u 2 1 == 255 - c.u 1 1 && !s.key.lcPending) s 0x0788 (
      Exec.check (!(b == .service && 32 ≤ s.key.serviceEntries)) s 0x0789 (
      if (rb.bind lcOf).getD b ≠ b then
        .done (s.setKey { s.key with burned := (rb.bind lcOf).getD b }) 0x078A (lcCode ((rb.bind lcOf).getD b)) []
      else .done (s.lcAdvanced b) St.ok (lcCode b) [])) := by
  rw [lcAdvance, need_ok (by simp [keys, ember]), beq_iff_eq.2 quiet, check_true, named, Option.filter_some, if_pos listed]
  rfl

theorem lcAdvance_refused (quiet : s.key.asserted = 0) (refused : (∀ b, lcOf (c.u 1 1) = some b → lcStep s.key.inForce b = false) ∨
    c.u 0 1 ≠ lcCode s.key.inForce ∨ c.u 2 1 ≠ 255 - c.u 1 1 ∨ s.key.lcPending = true) :
    lcAdvance rb c s = Exec.fail s 0x0788 := by
  cases next : (lcOf (c.u 1 1)).filter fun b => lcStep s.key.inForce b with
  | none => rw [lcAdvance, need_ok (by simp [keys, ember]), beq_iff_eq.2 quiet, check_true, next]
  | some b =>
    obtain ⟨named, listed⟩ := Option.filter_eq_some_iff.1 next
    have disagrees : (c.u 0 1 == lcCode s.key.inForce && c.u 2 1 == 255 - c.u 1 1 && !s.key.lcPending) = false := by
      obtain unlisted | other | complement | pending := refused
      · rw [unlisted b named] at listed
        cases listed
      · rw [beq_false_of_ne other]
        rfl
      · rw [beq_false_of_ne complement, Bool.and_false]
        rfl
      · rw [pending, Bool.not_true, Bool.and_false]
    rw [lcAdvance_listed keys ember quiet named listed, disagrees, check_false]

end

/-- The key store after a transition. -/
theorem lcProgram_key (s : State) (b : LifeCycle) : (s.lcProgram b).key.burned = b ∧
    (s.lcProgram b).key.inForce = s.key.inForce ∧
    (s.lcProgram b).key.serviceEntries = s.key.serviceEntries + if b = .service then 1 else 0 := by
  unfold lcProgram
  cases b <;> exact ⟨rfl, rfl, rfl⟩

end State

open State in
/-- Settles O51. -/
theorem keyStore : Obligations.KeyStore := by
  refine ⟨fun s host q c slot par keys security hslot bound hpar => ?_, fun s src => ?_⟩
  · subst hslot
    refine ⟨fun key lvl ready named parent labelMin labelMax hlvl => ?derive,
      fun wk ready slot wrap method length quiet free given level => ?unwrap,
      fun first count gone ready hfirst hcount some_ most host_ hgone => ?erase,
      fun ready flags zero quiet root => ?rebuild⟩
    case derive =>
      subst hlvl
      have eq := keyDerive_eq keys security bound hpar parent labelMin labelMax
      have fails {st : Nat} (h : keyDerive c s = Exec.fail s st) :
          exec (.keyDerive host q) s = .next (s.failCmd c.index st) :=
        congrArg _ ((runDerive_named ready named).trans (runCmd_fail ready h))
      refine ⟨fun alarm => fails (by rw [eq, keyTarget_alarm alarm]), fun quiet firmware => fails ?_,
        fun quiet slot wrap => ?_⟩
      · rw [eq, keyTarget_firmware quiet]
        obtain slot | ⟨named, wrap⟩ := firmware
        · rw [decide_eq_false (Nat.not_lt.2 slot), Bool.false_and]
        · rw [hpar, if_neg named, Option.all_some, decide_eq_false (Nat.not_lt.2 wrap), Bool.and_false]
      · have host_ : (decide (c.u 0 2 < 1008) && par.all (· < 1008)) = true := by
          rw [decide_eq_true slot, Bool.true_and]
          obtain root | below := wrap
          · rw [root]
            rfl
          · rw [hpar]
            split
            · rfl
            · simpa using below
        refine ⟨fun used kept => fails (by rw [eq, keyTarget_used quiet host_ used kept]),
          fun replaced child => fails (by rw [eq, keyTarget_parent quiet host_ replaced child]), fun free => ?_⟩
        rw [keyTarget_ok quiet host_ free] at eq
        refine ⟨fun root unusable => fails (by rw [eq, deriveFrom_noRoot root unusable]),
          fun root refused => fails (by rw [eq, deriveFrom_refused root refused]),
          fun given level bits usage dest free => ?_⟩
        obtain ⟨same, others⟩ := derived_slots quiet c par key
        exact ⟨_, s.derivedSlot c par key, congrArg _ ((runDerive_named ready named).trans (runCmd_done ready
          (eq.trans (deriveFrom_loads given level bits usage dest free)))), same, rfl, rfl, rfl, rfl, rfl, rfl, rfl, rfl, others⟩
    case unwrap =>
      have eq := keyUnwrap_eq keys security slot wrap method length quiet free given level
      refine ⟨fun bad => congrArg _ (runCmd_done ready (by rw [eq, unwrapWith, bad])),
        fun usage dest key sound husage hdest free => ?_⟩
      have still : (s.bump Reg.secCpReqCnt).key = s.key := (Only.bump0 ..).key rfl
      refine ⟨_, s.unwrappedSlot c usage dest key,
        congrArg _ (runCmd_done ready (eq.trans (unwrapWith_loads sound husage hdest free))),
        slotPut_same (by rw [still]; exact quiet) rfl, rfl, rfl, rfl, rfl, rfl, rfl, rfl, fun n other => ?_⟩
      exact (slotPut_other (by rw [still]; exact quiet) rfl other).trans (keySlot_of_key still n)
    case erase =>
      refine ⟨s.slotsErased gone, ?_, slotsErased_slots .., fun n erased => slotsErased_gone erased, keysLost_queue ..⟩
      rw [hgone]
      exact congrArg _ (runCmd_done ready (keyErase_eq keys hfirst hcount some_ most host_))
    case rebuild =>
      refine ⟨_, _, _, rfl, congrArg _ ((runDerive_named ready (by rw [isRebuild, flags]; rfl)).trans
        (runCmd_done ready (keyRebuild_eq keys security flags zero quiet root rfl)))⟩
  · refine ⟨fun ember up some_ => ?alarm, rfl, fun down on some_ => ?_, fun down => ?_, rfl,
      fun host q c rb ready keys ember => ⟨fun alarm => ?_, fun quiet refused => ?_,
        fun b quiet named listed code complement idle => ?advance⟩⟩
    case alarm =>
      refine ⟨_, congrArg Host.Outcome.next (doKeyAlarm_up up ember some_), ?_⟩
      generalize hu : (s.setKey (s.keyAlarmed (src % 16))).rsetF Reg.keyAlarmStatus 8 5 (src % 16 + 16 * b2n ember) = u
      have key : ((((u.keysLost s.loadedSlots).bump Reg.keyAlarmCnt).raise 0x9101 (src % 16 +
          16 * b2n (bit (src % 16) 1 || bit (src % 16) 3) + 256 * b2n ember))).key = s.keyAlarmed (src % 16) := by
        rw [(Only.raise0 ..).key rfl, (Only.bump0 ..).key rfl, (Only.keysLost0 ..).key rfl, ← hu]
        rfl
      have queue : ((((u.keysLost s.loadedSlots).bump Reg.keyAlarmCnt).raise 0x9101 (src % 16 +
          16 * b2n (bit (src % 16) 1 || bit (src % 16) 3) + 256 * b2n ember))).sec.queue =
          s.sec.queue.map (requestLost s.loadedSlots) := by
        rw [(Only.raise0 ..).sec rfl, (Only.bump0 ..).sec rfl, keysLost_queue, ← hu]
        rfl
      refine ⟨fun n loaded => ?_, fun n other => ?_, ?_, ?_, ?_, ?_, ?_, fun r hr loaded => ?_⟩
      · rw [keySlot_alarmed key, slotAlarmed, if_pos loaded]
      · rw [keySlot_alarmed key, slotAlarmed, if_neg other]
      · rw [key]
        rfl
      · rw [key, keyAlarmed, bit_mod_16 (by decide), bit_mod_16 (by decide)]
      · rw [key]
        rfl
      · rw [key]
        rfl
      · rw [queue, List.map_map]
        exact List.map_congr_left fun r _ => requestLost_ticket ..
      · rw [queue] at hr
        obtain ⟨x, _, rfl⟩ := List.mem_map.1 hr
        rw [requestLost_slot] at loaded
        exact requestLost_fate (mem_loadedSlots loaded)
    · exact congrArg _ ((doKeyAlarm_down down src true).trans (if_pos ⟨some_, rfl, on⟩))
    · exact congrArg _ ((doKeyAlarm_down down src false).trans (if_neg (by simp)))
    · exact congrArg _ (runCmd_fail ready (lcAdvance_alarm keys ember alarm))
    · exact congrArg _ (runCmd_fail ready (lcAdvance_refused keys ember quiet refused))
    case advance =>
      have eq := lcAdvance_listed (rb := rb) keys ember quiet named listed
      rw [code, complement, idle, beq_self_eq_true, beq_self_eq_true, Bool.not_false, Bool.and_self, Bool.and_self,
        check_true] at eq
      refine ⟨fun service full => ?_, fun room => ?_⟩
      · rw [service, decide_eq_true full] at eq
        exact congrArg _ (runCmd_fail ready eq)
      · have fits : (!(b == .service && decide (32 ≤ s.key.serviceEntries))) = true := by
          rw [Bool.not_eq_true', Bool.and_eq_false_iff, decide_eq_false_iff_not, Nat.not_le, beq_eq_false_iff_ne,
            ← imp_iff_not_or]
          exact room
        rw [fits, check_true] at eq
        refine ⟨fun seen shown other => ?_, fun unread => ?_⟩
        · rw [shown, Option.getD_some, if_pos other] at eq
          exact congrArg _ (runCmd_done ready eq)
        · subst unread
          rw [Option.bind_none, Option.getD_none, if_neg (by simp)] at eq
          obtain ⟨burned, inForce, entries⟩ := lcProgram_key s b
          have key := lcAdvanced_key s b
          exact ⟨s.lcAdvanced b, congrArg Host.Outcome.next (runCmd_done ready eq), by rw [key]; exact burned,
            by rw [key]; exact inForce, by rw [key], by rw [key], by rw [key], rfl, by rw [key]; exact entries⟩

end Sys2Proof.Machine
end

section
/-! The power states of Bellows: how the Forge die is started, fails and is lost (R462 to R464, R482 to R485, R571), the
start of the boot ROM (R420 to R422, R486, R546, R549) and the decay of what is kept (R463). -/

namespace Sys2Proof.Machine

open State

theorem aget_filter {α : Type} {k : Nat} {l : List (Nat × α)} {p : Nat → Bool} (h : p k = true) :
    aget (l.filter fun x => p x.1) k = aget l k := by
  induction l with
  | nil => rfl
  | cons x r ih =>
    rw [List.filter_cons]
    by_cases same : x.1 = k
    · rw [if_pos (same ▸ h), aget, aget, if_pos same, if_pos same]
    · cases hp : p x.1
      · rw [if_neg (by simp), ih, aget, if_neg same]
      · rw [if_pos rfl, aget, aget, if_neg same, if_neg same, ih]

theorem bit_or_pow {v : Word} {b : Nat} (hb : b < 32) : bit (v ||| BitVec.ofNat 32 (2 ^ b)).toNat b = true := by
  rw [bit_eq_testBit, BitVec.toNat_or, Nat.testBit_or, BitVec.toNat_ofNat, Nat.mod_eq_of_lt (Nat.pow_lt_pow_right (by decide) hb),
    Nat.testBit_two_pow_self, Bool.or_true]

namespace State

variable {s t : State} {o : Nat}

@[simp] theorem pwrMod_rget (s : State) (f : Pwr → Pwr) (o : Nat) : (s.pwrMod f).rget o = s.rget o := rfl

@[simp] theorem waitUntil_rget (s : State) (t o : Nat) : (s.waitUntil t).rget o = s.rget o := tick_rget ..

/-- A counter of Bellows, or of network management, stands still with the Ember die alone. -/
theorem emberCounter_runs (runs : s.quenched Dom.ember = false) (window : o / 0x8000 = 11) : s.stopped o = false := by
  unfold stopped ownerOf
  rw [window]
  exact runs

/-! ### What is left of the device without the Forge die (R463) -/

theorem forgeLost_rget (window : o / 0x8000 = 11) : s.forgeLost.rget o = s.rget o := by
  have regs : s.forgeLost.regs = s.regs.filter fun r => r.1 / 0x8000 == 11 :=
    congrArg (List.filter _) ((Only.updAbandon0 s).regs rfl)
  unfold rget agetD
  rw [regs, aget_filter (p := fun x => x / 0x8000 == 11) (by simpa using window)]

theorem forgeLost_clk (s : State) : s.forgeLost.clk = s.clk := (Only.updAbandon0 s).clk rfl

theorem forgeLost_pwr (s : State) : s.forgeLost.pwr =
    { s.pwr with
      fwReady := false
      released := false
      booted := false
      dieLinkFailed := false } := by
  rw [← (Only.updAbandon0 s).pwr rfl]
  rfl

theorem forgeLost_key (s : State) : s.forgeLost.key =
    { burned := s.key.burned
      inForce := s.key.inForce
      rootP := s.key.rootP
      rootF := s.key.rootF
      rootS := s.key.rootS
      rootFault := s.key.rootFault
      rootUsed := s.key.rootUsed
      lcPending := s.key.lcPending
      serviceEntries := s.key.serviceEntries
      asserted := s.key.asserted
      sealNonce := s.key.sealNonce } := by
  rw [← (Only.updAbandon0 s).key rfl]
  rfl

theorem forgeLost_mbx (s : State) : s.forgeLost.mbx =
    { retention := s.mbx.retention, sectors := s.mbx.sectors, erased := s.mbx.erased } := by
  rw [← (Only.updAbandon0 s).mbx rfl]
  rfl

theorem updAbandon_boot (s : State) : s.updAbandon.boot.desc = s.boot.desc ∧ s.updAbandon.boot.rollback = s.boot.rollback := by
  unfold updAbandon
  split <;> exact ⟨rfl, rfl⟩

theorem forgeLost_boot (s : State) : s.forgeLost.boot.desc = s.boot.desc ∧ s.forgeLost.boot.rollback = s.boot.rollback :=
  s.updAbandon_boot

/-! ### Starts of the Forge die, and their failures (R482, R483) -/

theorem startKindle_pwr (s : State) (warm : Bool) : (s.startKindle warm).pwr =
    { s.pwr with
      state := .kindle
      since := s.clk
      kindleAt := s.clk
      warm := warm
      retryAt := none
      wakeWaits := false
      oscOn := false
      decoding := []
      pwrEn := true
      pwrGood := false
      enAt := (s.startKindle warm).clk } := by
  unfold startKindle
  simp [pwrMod, enterPower]

theorem startKindle_rget (s : State) (warm : Bool) (o : Nat) : (s.startKindle warm).rget o = s.rget o :=
  rget_of_only (Only.startKindle0 s warm) rfl o

theorem wakeStart_waits (held : s.pwr.minOff = true ∨ s.pwr.vbatLow = true) :
    s.wakeStart = s.pwrMod fun p => { p with wakeWaits := true } := if_pos held

theorem wakeStart_starts (off : s.pwr.minOff = false) (low : s.pwr.vbatLow = false) :
    s.wakeStart = s.startKindle (s.pwr.state == .banked) := if_neg (by simp [off, low])

/-- A start records its reason, which no counter touches. -/
theorem wakeRecord_reason (s : State) (reason first src : Nat) :
    (s.wakeRecord reason first src).rget Reg.pwrWakeReason = BitVec.ofNat 32 reason := by
  unfold wakeRecord
  rw [bump_other _ _ _ (by decide) (by decide)]
  split <;> simp [rget_rset]

theorem kindleFail_pwr (s : State) : s.kindleFail.pwr =
    { s.pwr with
      state := .kindle
      since := s.clk
      fwReady := false
      released := false
      booted := false
      dieLinkFailed := false
      pwrEn := false
      pwrGood := false
      failures := s.pwr.failures + 1
      pmicEvent := s.pwr.failures + 1
      minOff := true
      offAt := s.clk
      retryAt := some (s.clk + 10000000)
      warm := false } := by
  have bumped : (s.bump Reg.pwrKindleFailCnt).pwr = s.pwr := (Only.bump0 ..).pwr rfl
  unfold kindleFail
  dsimp only
  split <;> simp [pwrMod, enterPower, forgeLost_pwr, forgeLost_clk, bumped]

theorem kindleFail_kept (s : State) : s.kindleFail.key.slots = [] ∧ s.kindleFail.mbx.retention = s.mbx.retention := by
  have bumped : (s.bump Reg.pwrKindleFailCnt).mbx.retention = s.mbx.retention := by rw [(Only.bump0 ..).mbx rfl]
  unfold kindleFail
  dsimp only
  split <;> simp [pwrMod, enterPower, forgeLost_key, forgeLost_mbx, bumped]

theorem kindleFail_counted (runs : s.quenched Dom.ember = false) :
    s.kindleFail.rget Reg.pwrKindleFailCnt = s.rget Reg.pwrKindleFailCnt + 1 := by
  have lost : (s.bump Reg.pwrKindleFailCnt).forgeLost.rget Reg.pwrKindleFailCnt = s.rget Reg.pwrKindleFailCnt + 1 := by
    rw [forgeLost_rget (by decide), bump_rget_add (emberCounter_runs runs (by decide)) (by decide) (by decide), if_pos rfl]
  unfold kindleFail
  dsimp only
  split
  · rw [pwrMod_rget, rget_rset_other _ _ (by decide), rget_rset_other _ _ (by decide)]
    exact lost
  · exact lost

theorem exec_kindleFail {i : Instr} (h : (i = .pwrGoodRise ∧ t = s ∧ s.pwr.state = .kindle ∧ s.pwr.pwrEn = true ∧
      s.pwr.pwrGood = false ∧ s.pwr.enAt + s.pgNs < s.clk) ∨
    (i = .pgTimeout ∧ t = s.waitUntil (s.pwr.enAt + s.pgNs) ∧ s.pwr.state = .kindle ∧ s.pwr.pwrEn = true ∧
      s.pwr.pwrGood = false) ∨
    ((i = .pwrGoodFall ∨ i = .junctionOvertemp) ∧ t = s ∧ (s.pwr.state = .kindle ∨ s.pwr.state = .run) ∧
      s.pwr.pwrGood = true) ∨
    (i = .kindleTimeout ∧ t = s.waitUntil (s.pwr.kindleAt + 250000000) ∧ s.pwr.state = .kindle ∧ s.pwr.retryAt = none)) :
    exec i s = .next t.kindleFail := by
  obtain ⟨rfl, rfl, kindle, on, bad, late⟩ | ⟨rfl, rfl, kindle, on, bad⟩ | ⟨rfl | rfl, rfl, up, good⟩ |
    ⟨rfl, rfl, kindle, none⟩ := h
  · show Host.Outcome.next t.doPwrGoodRise = _
    rw [doPwrGoodRise, if_neg (by simp [kindle, on, bad]), if_pos late]
  · show Host.Outcome.next s.doPgTimeout = _
    rw [doPgTimeout, if_neg (by simp [kindle, on, bad])]
  · show Host.Outcome.next t.doPwrGoodFall = _
    rw [doPwrGoodFall, if_pos ⟨up, good⟩]
  · show Host.Outcome.next t.doPwrGoodFall = _
    rw [doPwrGoodFall, if_pos ⟨up, good⟩]
  · show Host.Outcome.next s.doKindleTimeout = _
    rw [doKindleTimeout, if_neg (by simp [kindle, none])]

/-! ### The retry, and the end of the minimum off time (R482, R483) -/

/-- Bellows when the retry of a failed start is due. -/
def retryDue (s : State) (at_ : Nat) : State := (s.waitUntil at_).pwrMod fun p =>
  { p with
    retryAt := none
    minOff := false }

theorem exec_kindleRetry {at_ : Nat} (due : s.pwr.retryAt = some at_) : exec .kindleRetry s = .next (
    if 3 ≤ s.pwr.failures then
      ((s.retryDue at_).enterPower .ember).pwrMod fun p =>
        { p with
          pmicFault := true
          failures := 0
          sleepAt := ((s.retryDue at_).enterPower .ember).clk }
    else if s.pwr.vbatLow = true then ((s.retryDue at_).reasonAdd 8).pwrMod fun p => { p with wakeWaits := true }
    else ((s.retryDue at_).reasonAdd 8).startKindle false) := by
  have same : (s.retryDue at_).pwr.failures = s.pwr.failures ∧ ((s.retryDue at_).reasonAdd 8).pwr.vbatLow = s.pwr.vbatLow := by
    simp [retryDue, reasonAdd, pwrMod]
  rw [← same.1, ← same.2]
  show Host.Outcome.next s.doKindleRetry = _
  unfold doKindleRetry
  rw [due]
  rfl

/-- Bellows when PWR_EN may rise again. -/
def offEnded (s : State) : State := (s.waitUntil (s.pwr.offAt + 1000000)).pwrMod fun p => { p with minOff := false }

theorem offEnded_pwr (s : State) : s.offEnded.pwr = { s.pwr with minOff := false } := by simp [offEnded, pwrMod]

theorem exec_minimumOffTimeEnd (asleep : s.sleeping = true) (off : s.pwr.minOff = true) :
    exec .minimumOffTimeEnd s = .next (if s.pwr.wakeWaits = true then s.offEnded.wakeStart
      else match s.pwr.lateFirst with
        | none => s.offEnded
        | some (b, src) => s.offEnded.lateWake b src) := by
  have same : s.offEnded.pwr.wakeWaits = s.pwr.wakeWaits ∧ s.offEnded.pwr.lateFirst = s.pwr.lateFirst := by
    rw [offEnded_pwr]
    exact ⟨rfl, rfl⟩
  rw [← same.1, ← same.2]
  show Host.Outcome.next s.doMinimumOffTimeEnd = _
  rw [doMinimumOffTimeEnd, if_neg (by simp [asleep, off])]
  rfl

/-- What a latched wake has recorded when it starts. -/
def lateRecorded (s : State) (b src : Nat) : State := (s.wakeRecord s.pwr.lateLatch b src).bump Reg.pwrLateWakeCnt

theorem lateRecorded_only (s : State) (b src : Nat) : Only 0xB s (s.lateRecorded b src) :=
  (Only.wakeRecord0 ..).trans (Only.bump0 ..)

theorem lateRecorded_reason (s : State) (b src : Nat) :
    (s.lateRecorded b src).rget Reg.pwrWakeReason = BitVec.ofNat 32 s.pwr.lateLatch := by
  rw [lateRecorded, bump_other _ _ _ (by decide) (by decide), wakeRecord_reason]

theorem lateWake_starts {b src : Nat} (off : s.pwr.minOff = false) (low : s.pwr.vbatLow = false) :
    s.lateWake b src = (s.lateRecorded b src).startKindle (s.pwr.state == .banked) := by
  rw [← (s.lateRecorded_only b src).pwr rfl] at off low ⊢
  exact wakeStart_starts off low

theorem lateWake_waits {b src : Nat} (held : s.pwr.minOff = true ∨ s.pwr.vbatLow = true) :
    s.lateWake b src = (s.lateRecorded b src).pwrMod fun p => { p with wakeWaits := true } := by
  rw [← (s.lateRecorded_only b src).pwr rfl] at held
  exact wakeStart_waits held

/-! ### The start of the boot ROM (R420 to R422, R486, R546, R549) -/

/-- Bellows stands as it did, but for the fallbacks that it has to report. -/
def SamePwr (s t : State) : Prop := ∃ f, t.pwr = { s.pwr with fallbacks := f }

theorem SamePwr.refl (s : State) : s.SamePwr s := ⟨s.pwr.fallbacks, rfl⟩

theorem SamePwr.of_eq (h : t.pwr = s.pwr) : s.SamePwr t := ⟨s.pwr.fallbacks, h⟩

theorem SamePwr.trans {u : State} (h : s.SamePwr t) (h' : t.SamePwr u) : s.SamePwr u := by
  obtain ⟨f, eq⟩ := h
  obtain ⟨f', eq'⟩ := h'
  exact ⟨f', by rw [eq', eq]⟩

theorem SamePwr.setBoot (h : s.SamePwr t) (b : Boot) : s.SamePwr (t.setBoot b) := h

theorem SamePwr.recoveryMode (h : s.SamePwr t) (cause : Nat) : s.SamePwr (t.recoveryMode cause) := h.setBoot _

theorem SamePwr.bootSlot (h : s.SamePwr t) (slot mode : Nat) : s.SamePwr (t.bootSlot slot mode) := h.setBoot _

theorem SamePwr.descWrite (h : s.SamePwr t) (f : Descriptor → Descriptor) : s.SamePwr (t.descWrite f) := h.setBoot _

theorem SamePwr.slotVerify (h : s.SamePwr t) (slot : Nat) : s.SamePwr (t.slotVerify slot).2 :=
  h.trans (.of_eq ((Only.slotVerify0 t slot).pwr rfl))

theorem SamePwr.fallback (h : s.SamePwr t) (cause : Nat) : s.SamePwr (t.fallback cause) := by
  have bumped : (t.bump Reg.bootFallbackCnt).pwr = t.pwr := (Only.bump0 ..).pwr rfl
  exact h.trans ⟨t.pwr.fallbacks ++ [cause], by simp [State.fallback, pwrMod, bumped]⟩

theorem SamePwr.bootActive (h : s.SamePwr t) : s.SamePwr t.bootActive := by
  unfold State.bootActive
  dsimp only
  split
  · exact (h.slotVerify _).bootSlot _ _
  · split
    · exact ((((h.slotVerify _).slotVerify _).descWrite _).fallback _).bootSlot _ _
    · exact ((h.slotVerify _).slotVerify _).recoveryMode _

theorem SamePwr.slotChoice (h : s.SamePwr t) : s.SamePwr t.slotChoice := by
  unfold State.slotChoice
  dsimp only
  split
  · have tried := (h.descWrite fun d => { d with trialLeft := d.trialLeft - 1 }).slotVerify (bits t.boot.desc.trial 1 1)
    split
    · exact tried.bootSlot _ _
    · split
      · exact ((tried.descWrite _).fallback _).bootActive
      · exact tried.bootActive
  · rw [if_neg Bool.false_ne_true]
    split
    · exact ((h.descWrite _).fallback _).bootActive
    · exact h.bootActive

/-- The boot ROM before it chooses a slot. -/
def coldStrapped (s : State) : State :=
  let s := s.setBoot { s.boot with strapRole := Config.strapSmith, strapRecovery := Config.strapRecovery }
  let s := s.setPair { s.pair with strapSmith := Config.strapSmith }
  (s.pwrMod fun p => { p with warm := false, booted := true }).rebuildJournal false

theorem coldStrapped_pwr (s : State) : s.coldStrapped.pwr =
    { s.pwr with
      warm := false
      booted := true } := (Only.rebuildJournal0 _ false).pwr rfl

theorem coldStrapped_key (s : State) : s.coldStrapped.key = s.key := (Only.rebuildJournal0 _ false).key rfl

theorem coldRest_eq (s : State) : s.coldRest =
    if s.coldStrapped.key.inForce = .retired then s.coldStrapped.recoveryMode 4
    else if s.coldStrapped.boot.strapRecovery = true then s.coldStrapped.recoveryMode 2
    else if Config.flashMib.toNat < 64 ∨ 256 < Config.flashMib.toNat then s.coldStrapped.recoveryMode 3
    else s.coldStrapped.slotChoice.readSigners := rfl

theorem coldRest_pwr (s : State) : ∃ f, s.coldRest.pwr =
    { s.pwr with
      warm := false
      booted := true
      fallbacks := f } := by
  have begun := SamePwr.refl s.coldStrapped
  have rest : s.coldStrapped.SamePwr s.coldRest := by
    rw [coldRest_eq]
    split
    · exact begun.recoveryMode _
    · split
      · exact begun.recoveryMode _
      · split
        · exact begun.recoveryMode _
        · exact begun.slotChoice.trans (.of_eq ((Only.readSigners0 _).pwr rfl))
  obtain ⟨f, eq⟩ := rest
  exact ⟨f, by rw [eq, coldStrapped_pwr]⟩

theorem coldRest_key (s : State) : s.coldRest.key = s.key := (Only.coldRest0 s).key rfl

theorem coldRest_retired (h : s.key.inForce = .retired) : s.coldRest.boot.mode = 2 ∧ s.coldRest.boot.recoveryCause = 4 := by
  rw [coldRest_eq, if_pos (by rw [coldStrapped_key, h])]
  exact ⟨rfl, rfl⟩

theorem rootTransfer_key (s : State) : s.rootTransfer.key =
    { s.key with
      inForce := s.key.burned
      lcPending := false
      root := rootOf s.key s.key.burned
      rootLost := false } := rfl

theorem otpRetry_none (h : s.boot.otpGoal = none) : s.otpRetry = s := by
  unfold otpRetry
  rw [h]

theorem clockSupply_pwr (s : State) : s.clockSupply.pwr = s.pwr := (Only.clockSupply0 s).pwr rfl

theorem clockSupply_key (s : State) : s.clockSupply.key = s.key := (Only.clockSupply0 s).key rfl

theorem clockSupply_boot (s : State) : s.clockSupply.boot = s.boot := (Only.clockSupply0 s).boot rfl

/-- Reset is released: the boot ROM begins. -/
def romBegins (s : State) : State :=
  ((s.waitUntil (s.pwr.goodAt + 20000)).clockSupply).pwrMod fun p => { p with released := true }

theorem romBegins_pwr (s : State) : s.romBegins.pwr = { s.pwr with released := true } := by
  unfold romBegins pwrMod
  rw [setPwr_pwr, clockSupply_pwr, waitUntil_pwr]

theorem romBegins_key (s : State) : s.romBegins.key = s.key := by
  unfold romBegins pwrMod
  rw [setPwr_key, clockSupply_key, waitUntil_key]

theorem romBegins_boot (s : State) : s.romBegins.boot = s.boot := by
  unfold romBegins pwrMod
  rw [setPwr_boot, clockSupply_boot, waitUntil_boot]

theorem exec_forgeResetRelease {ok : Bool} (kindle : s.pwr.state = .kindle) (good : s.pwr.pwrGood = true)
    (held : s.pwr.released = false) : exec (.forgeResetRelease ok) s =
      .next (if s.pwr.warm = true then s.romBegins.warmBoot ok else s.romBegins.coldBoot) := by
  have same : s.romBegins.pwr.warm = s.pwr.warm := by rw [romBegins_pwr]
  rw [← same]
  show Host.Outcome.next (s.doForgeResetRelease ok) = _
  rw [doForgeResetRelease, if_neg (by simp [kindle, good, held])]
  rfl

/-- The boot ROM with the root of the state that is burned. -/
def coldRoot (s : State) : State := s.otpRetry.rootGenerate.rootTransfer

theorem coldRoot_pwr (s : State) : s.coldRoot.pwr = s.pwr :=
  ((Only.rootTransfer0 _).pwr rfl).trans (((Only.rootGenerate0 _).pwr rfl).trans ((Only.otpRetry0 s).pwr rfl))

theorem coldRoot_root (h : s.key.burned = .field) : s.coldRoot.key.root = some s.key.rootF := by
  have retried : s.otpRetry.key = s.key := (Only.otpRetry0 s).key rfl
  have kept : s.otpRetry.rootGenerate = s.otpRetry := if_pos (by simp [retried, h])
  rw [coldRoot, kept, rootTransfer_key, retried]
  simp [h, rootOf]

theorem coldBoot_pwr (s : State) : ∃ f, s.coldBoot.pwr =
    { s.pwr with
      warm := false
      booted := true
      fallbacks := f } := s.coldRoot_pwr ▸ s.coldRoot.coldRest_pwr

theorem coldBoot_key (s : State) : s.coldBoot.key = s.coldRoot.key := coldRest_key _

/-- The warm start with its root and its restore part. -/
def warmStrapped (s : State) : State :=
  let s := s.setPair { s.pair with strapSmith := Config.strapSmith }
  let s := s.setBoot { s.boot with strapRole := Config.strapSmith, strapRecovery := Config.strapRecovery }
  s.pwrMod fun p => { p with booted := true }

theorem warmStrapped_pwr (s : State) : s.warmStrapped.pwr = { s.pwr with booted := true } := rfl

theorem warmStrapped_key (s : State) : s.warmStrapped.key = s.key := rfl

/-- What is left for the cold start that a warm one becomes. -/
def sealLost (s : State) : State :=
  ((s.forgeLost.bump Reg.pwrColdCnt).setKey { (s.forgeLost.bump Reg.pwrColdCnt).key with root := s.key.root }).pwrMod fun p =>
    { p with
      released := true
      warmFail := some 1 }

theorem sealLost_pwr (s : State) : s.sealLost.pwr =
    { s.pwr with
      fwReady := false
      released := true
      booted := false
      dieLinkFailed := false
      warmFail := some 1 } := by
  simp [sealLost, pwrMod, (Only.bump0 ..).pwr rfl, forgeLost_pwr]

theorem sealLost_key (s : State) : s.sealLost.key = { s.forgeLost.key with root := s.key.root } := by
  simp [sealLost, pwrMod, (Only.bump0 ..).key rfl]

theorem warmBoot_eq (s : State) (ok : Bool) : s.warmBoot ok =
    if (s.otpRetry.rootTransfer.key.sealNonce.isSome && s.otpRetry.rootTransfer.key.root.isSome && ok) = true
    then s.otpRetry.rootTransfer.warmStrapped else s.otpRetry.rootTransfer.sealLost.coldRest := rfl

theorem warmRoot_pwr (s : State) : s.otpRetry.rootTransfer.pwr = s.pwr :=
  ((Only.rootTransfer0 _).pwr rfl).trans ((Only.otpRetry0 s).pwr rfl)

theorem warmBoot_sealed (goal : s.boot.otpGoal = none) (field : s.key.burned = .field) (nonce : s.key.sealNonce ≠ none) :
    s.warmBoot true = s.rootTransfer.warmStrapped := by
  rw [warmBoot_eq, otpRetry_none goal, if_pos]
  simp [rootTransfer_key, field, rootOf, Option.isSome_iff_ne_none, nonce]

theorem warmBoot_unsealed {ok : Bool} (goal : s.boot.otpGoal = none) (h : s.key.sealNonce = none ∨ ok = false) :
    s.warmBoot ok = s.rootTransfer.sealLost.coldRest := by
  rw [warmBoot_eq, otpRetry_none goal, if_neg]
  obtain h | h := h <;> simp [rootTransfer_key, h]

/-- What a start of the boot ROM leaves, warm or cold. -/
def Booted (s t : State) : Prop :=
  t.pwr.state = s.pwr.state ∧ t.pwr.released = true ∧ t.pwr.booted = true ∧ t.key.inForce = t.key.burned ∧
    t.key.lcPending = false

theorem coldBoot_booted (h : s.pwr.released = true) : s.Booted s.coldBoot := by
  obtain ⟨f, pwr⟩ := s.coldBoot_pwr
  rw [Booted, pwr, coldBoot_key, coldRoot, rootTransfer_key]
  exact ⟨rfl, h, rfl, rfl, rfl⟩

theorem sealLost_booted (s : State) : s.Booted s.rootTransfer.sealLost.coldRest := by
  obtain ⟨f, pwr⟩ := s.rootTransfer.sealLost.coldRest_pwr
  have root : s.rootTransfer.pwr = s.pwr := rfl
  rw [Booted, pwr, coldRest_key, sealLost_pwr, sealLost_key, forgeLost_key, rootTransfer_key, root]
  exact ⟨rfl, rfl, rfl, rfl, rfl⟩

theorem warmBoot_booted (ok : Bool) (h : s.pwr.released = true) : s.Booted (s.warmBoot ok) := by
  have retried : s.otpRetry.pwr = s.pwr := (Only.otpRetry0 s).pwr rfl
  rw [warmBoot_eq]
  split
  · rw [Booted, warmStrapped_pwr, warmStrapped_key, warmRoot_pwr, rootTransfer_key]
    exact ⟨rfl, h, rfl, rfl, rfl⟩
  · have lost := s.otpRetry.sealLost_booted
    rwa [Booted, retried] at lost

theorem coldBoot_cold (s : State) : s.coldBoot.pwr.warm = false ∧
    (s.coldBoot.key.inForce = .retired → s.coldBoot.boot.mode = 2 ∧ s.coldBoot.boot.recoveryCause = 4) ∧
    (s.key.burned = .field → s.coldBoot.key.root = some s.key.rootF) := by
  obtain ⟨f, pwr⟩ := s.coldBoot_pwr
  refine ⟨by rw [pwr], fun retired => ?_, fun field => ?_⟩
  · rw [coldBoot_key] at retired
    exact coldRest_retired retired
  · rw [coldBoot_key, coldRoot_root field]

theorem sealLost_cold (s : State) : s.rootTransfer.sealLost.coldRest.pwr.warm = false ∧
    s.rootTransfer.sealLost.coldRest.pwr.warmFail = some 1 ∧ s.rootTransfer.sealLost.coldRest.key.slots = [] := by
  obtain ⟨f, pwr⟩ := s.rootTransfer.sealLost.coldRest_pwr
  rw [pwr, coldRest_key, sealLost_pwr, sealLost_key, forgeLost_key]
  exact ⟨rfl, rfl, rfl⟩

/-! ### Network management enters a state (R468) -/

theorem pnApply_nm (s : State) : ∃ l, s.pnApply.nm = { s.nm with pnLast := l } := by
  unfold pnApply
  split
  · exact ⟨_, rfl⟩
  · dsimp only
    refine List.foldlRecOn (motive := fun t : State => ∃ l, t.nm = { s.nm with pnLast := l }) _ _ ⟨_, rfl⟩ fun t h ch _ => ?_
    split
    · exact h
    · obtain ⟨l, eq⟩ := h
      rw [(Only.xcvrOrder0 ..).nm rfl, nmMod, setNm_nm, eq]
      exact ⟨_, rfl⟩

theorem logUpdateAll_nm (s : State) : ∃ l, s.logUpdateAll.nm = { s.nm with log := l } := by
  refine List.foldlRecOn (motive := fun t : State => ∃ l, t.nm = { s.nm with log := l }) _ _ ⟨_, rfl⟩ fun t h r _ => ?_
  obtain ⟨l, eq⟩ := h
  unfold logUpdate
  split
  · exact ⟨l, eq⟩
  · rw [nmMod, setNm_nm, eq]
    exact ⟨_, rfl⟩

/-- Network management as it enters another state, with a log and with partial networks. -/
def nmEntered (s : State) (st : NmState) (log : Tbl AwakeEntry) (pns : Tbl Bool) : Nm :=
  { s.nm with
    state := st
    enteredAt := s.clk
    txAt := if st = .repeat_ ∨ s.nm.state ≠ .repeat_ then s.clk else s.nm.txAt
    forced := s.nm.forced && (st == .prepare || st == .committed)
    askAbort := s.nm.askAbort && st == .repeat_
    activeWake := s.nm.activeWake && st == .repeat_
    records := if st = .readySleep then s.nm.records.map (fun r => { r with logged := none }) else s.nm.records
    log := log
    pnLast := pns }

theorem nmEnter_same {st : NmState} (h : s.nm.state = st) : s.nmEnter st = s := if_pos h

/-- What network management keeps of the state before. -/
def nmBefore (s : State) : State := if s.nm.state = .readySleep then s.logUpdateAll else s

theorem nmBefore_kept (s : State) : ∃ l, s.nmBefore.nm = { s.nm with log := l } ∧ s.nmBefore.clk = s.clk := by
  unfold nmBefore
  split
  · obtain ⟨l, eq⟩ := s.logUpdateAll_nm
    exact ⟨l, eq, (Only.logUpdateAll0 s).clk rfl⟩
  · exact ⟨s.nm.log, rfl, rfl⟩

/-- What is told of a change of state, and sent for it. -/
def nmTold (s : State) (st : NmState) : State :=
  if st = .prepare then (s.raise 0xB005 (nmCode st)).linGoToSleep else s.raise 0xB005 (nmCode st)

theorem nmTold_nm (s : State) (st : NmState) : (s.nmTold st).nm = s.nm := by
  have raised : (s.raise 0xB005 (nmCode st)).nm = s.nm := (Only.raise0 ..).nm rfl
  unfold nmTold
  split
  · rw [(Only.linGoToSleep0 _).nm rfl, raised]
  · exact raised

theorem nmEnter_nm {st : NmState} (h : s.nm.state ≠ st) : ∃ log pns, (s.nmEnter st).nm = s.nmEntered st log pns := by
  obtain ⟨log, nm, clk⟩ := s.nmBefore_kept
  obtain ⟨pns, applied⟩ := ((s.nmBefore.nmMod fun _ => s.nmEntered st s.nmBefore.nm.log s.nmBefore.nm.pnLast).nmTold st).pnApply_nm
  refine ⟨s.nmBefore.nm.log, pns, ?_⟩
  have entered : s.nmEnter st =
      (((s.nmBefore.nmMod fun _ => s.nmEntered st s.nmBefore.nm.log s.nmBefore.nm.pnLast).nmTold st).pnApply).nmMirror := by
    unfold nmEnter
    dsimp only
    rw [if_neg h, show (if s.nm.state = .readySleep then s.logUpdateAll else s) = s.nmBefore from rfl, clk]
    change ((nmTold (nmMod s.nmBefore _) st).pnApply).nmMirror = _
    congr 3
    unfold nmMod nmEntered
    rw [nm]
  rw [entered, (Only.nmMirror0 _).nm rfl, applied, nmTold_nm]
  rfl

/-! ### KINDLE ends in RUN (R463, R484, R485) -/

/-- The device as it enters RUN, its start reported. -/
def runEntered (s : State) : State :=
  let t := (s.enterPower .run).pwrMod fun p => { p with fwReady := true, runAt := s.clk, pmicFault := false, failures := 0 }
  ((t.rset Reg.bootStartUs (BitVec.ofNat 32 ((t.clk - t.pwr.kindleAt) / 1000))).startEvents).pwrMod fun p =>
    { p with
      warmFail := none
      pmicEvent := 0
      fallbacks := []
      lateLatch := 0
      lateFirst := none }

theorem runEntered_only (s : State) : Only 0x2000B s s.runEntered := by
  unfold runEntered
  exact .pwrMod (by decide) (.startEvents (by decide) (.rset (by decide) (.pwrMod (by decide) (.enterPower (by decide)
    (.refl 0x2000B s)))))

theorem runEntered_pwr (s : State) : s.runEntered.pwr =
    { s.pwr with
      state := .run
      since := s.clk
      fwReady := true
      runAt := s.clk
      pmicFault := false
      failures := 0
      warmFail := none
      pmicEvent := 0
      fallbacks := []
      lateLatch := 0
      lateFirst := none } := by
  unfold runEntered pwrMod
  dsimp only
  rw [setPwr_pwr, (Only.startEvents0 _).pwr rfl]
  rfl

/-- The limp calendar, and after a warm start what DRAM and the edges had kept, are in place. -/
def restored (s : State) (warm : Bool) : State :=
  let s := s.limpStart
  if warm then
    let s := (s.timeWake (s.clk - s.pwr.sleepAt)).calResume
    (s.setMbx { s.mbx with residentWait := true }).edgeWake
  else s

theorem restored_kept (s : State) (warm : Bool) : (s.restored warm).pwr = s.pwr ∧ (s.restored warm).nm = s.nm := by
  have limp := Only.limpStart0 s
  unfold restored
  dsimp only
  split
  · constructor
    · rw [(Only.edgeWake0 _).pwr rfl, setMbx_pwr, (Only.calResume0 _).pwr rfl, (Only.timeWake0 ..).pwr rfl, limp.pwr rfl]
    · rw [(Only.edgeWake0 _).nm rfl, setMbx_nm, (Only.calResume0 _).nm rfl, (Only.timeWake0 ..).nm rfl, limp.nm rfl]
  · exact ⟨limp.pwr rfl, limp.nm rfl⟩

/-- Network management begins. -/
def nmBegun (s : State) : State :=
  let reason := (s.rget Reg.pwrWakeReason).toNat
  let s := s.nmMod fun n =>
    { n with
      state := .busSleep
      released := 0
      records := []
      clusterAt := []
      committed := false
      forced := false
      activeWake := bit reason 1 || bit reason 4 || bit reason 5 }
  s.nmEnter (if s.nm.en then .repeat_ else .normal)

theorem nmBegun_nm (s : State) : s.nmBegun.nm.released = 0 ∧ s.nmBegun.nm.records = [] ∧
    s.nmBegun.nm.state = if s.nm.en then .repeat_ else .normal := by
  unfold nmBegun
  extract_lets reason u
  have asleep : u.nm.state ≠ (if u.nm.en then .repeat_ else .normal) := by
    show NmState.busSleep ≠ _
    split <;> decide
  obtain ⟨log, pns, entered⟩ := nmEnter_nm asleep
  rw [entered]
  refine ⟨rfl, ?_, rfl⟩
  unfold nmEntered
  split <;> rfl

theorem nmBegun_pwr (s : State) : s.nmBegun.pwr = s.pwr := (Only.nmEnter0 _ _).pwr rfl

theorem exec_firmwareReady (kindle : s.pwr.state = .kindle) (released : s.pwr.released = true)
    (fresh : s.pwr.fwReady = false) (booted : s.pwr.booted = true) : exec .firmwareReady s = .next (
      if s.boot.mode = 2 then s.runEntered else (s.runEntered.restored s.pwr.warm).nmBegun) := by
  rw [← s.runEntered_only.boot rfl]
  show Host.Outcome.next s.doFirmwareReady = _
  unfold doFirmwareReady
  rw [if_neg (by simp [kindle, released, fresh])]
  dsimp only
  rw [if_pos booted]
  rfl

/-! ### Decay, and VBAT (R463, R571) -/

/-- Outside RUN the local clock alone goes on. -/
theorem waitUntil_only (asleep : s.pwr.state ≠ .run) (due : Nat) : Only 0x4 s (s.waitUntil due) := by
  unfold waitUntil tick
  rw [if_neg asleep]
  split
  · exact .refl _ s
  · exact .putClk (by decide) (.refl _ s)

theorem exec_bankedDecay (banked : s.pwr.state = .banked) (h : s.rfld Reg.pwrDecay 0 16 ≠ 0) : exec .bankedDecay s =
    .next (((s.waitUntil (s.pwr.since + hoursNs (s.rfld Reg.pwrDecay 0 16))).forgeLost).enterPower .ember) := by
  show Host.Outcome.next s.doBankedDecay = _
  rw [doBankedDecay, if_neg (by simp [banked, h])]

theorem exec_emberDecay (ember : s.pwr.state = .ember) (h : s.rfld Reg.pwrDecay 16 16 ≠ 0) : exec .emberDecay s =
    .next (((s.waitUntil (s.pwr.since + hoursNs (s.rfld Reg.pwrDecay 16 16))).pwrMod fun p =>
      { p with
        oscOn := false
        decoding := [] }).enterPower .dormant) := by
  show Host.Outcome.next s.doEmberDecay = _
  rw [doEmberDecay, if_neg (by simp [ember, h])]

theorem exec_vbatRise (above : Bool) (off : s.pwr.state = .off) :
    exec (.vbatRise above) s = .next (s.pwrMod fun p =>
      { p with
        vbatOk := true
        vbatLow := !above }).powerOn := by
  show Host.Outcome.next (s.doVbatRise above) = _
  rw [doVbatRise, if_neg (by simp [off])]

theorem exec_vbatAboveOperatingMin (s : State) : exec .vbatAboveOperatingMin s = .next (if s.pwr.vbatLow = false then s
    else if s.pwr.wakeWaits = true ∧ s.pwr.minOff = false then
      (s.pwrMod fun p => { p with vbatLow := false }).startKindle (s.pwr.state == .banked)
    else s.pwrMod fun p => { p with vbatLow := false }) := by
  show Host.Outcome.next s.doVbatAboveOperatingMin = _
  unfold doVbatAboveOperatingMin
  cases low : s.pwr.vbatLow
  · rfl
  · cases off : s.pwr.minOff <;> simp [pwrMod, off]

end State

/-- Settles O52: each command is the transition of its own case; the failures of a start are one transition, and the
boot ROM's outcomes are those of its cold start and of its warm start with or without the seal. -/
theorem powerStates : Obligations.PowerStates := by
  intro s
  refine ⟨?risen, ?fails, ?retry, ?minOff, ?release, ?ready, ?banked, ?ember, ?rise, ?fall, s.exec_vbatAboveOperatingMin⟩
  case risen =>
    intro kindle on bad soon
    show Host.Outcome.next s.doPwrGoodRise = _
    rw [State.doPwrGoodRise, if_neg (by simp [kindle, on, bad]), if_neg (Nat.not_lt.2 soon)]
  case fails =>
    intro i u h
    have kept : u.pwr = s.pwr ∧ u.mbx = s.mbx ∧ u.quenched Dom.ember = s.quenched Dom.ember ∧
        u.rget Reg.pwrKindleFailCnt = s.rget Reg.pwrKindleFailCnt := by
      obtain ⟨_, rfl, _⟩ | ⟨_, rfl, _⟩ | ⟨_, rfl, _⟩ | ⟨_, rfl, _⟩ := h
      · exact ⟨rfl, rfl, rfl, rfl⟩
      · simp [State.waitUntil]
      · exact ⟨rfl, rfl, rfl, rfl⟩
      · simp [State.waitUntil]
    obtain ⟨pwr, mbx, quenched, count⟩ := kept
    obtain ⟨slots, retention⟩ := u.kindleFail_kept
    refine ⟨_, State.exec_kindleFail h, ?_⟩
    rw [State.kindleFail_pwr, pwr]
    refine ⟨rfl, rfl, rfl, rfl, rfl, rfl, rfl, rfl, rfl, slots, by rw [retention, mbx], fun runs => ?_⟩
    rw [State.kindleFail_counted (quenched ▸ runs), count]
  case retry =>
    intro at_ kindle due
    have dueAt : (s.retryDue at_).pwr =
        { s.pwr with
          retryAt := none
          minOff := false } := by simp [State.retryDue, State.pwrMod]
    have again : ((s.retryDue at_).reasonAdd 8).pwr = (s.retryDue at_).pwr := rfl
    refine ⟨_, State.exec_kindleRetry due, ?_⟩
    by_cases many : 3 ≤ s.pwr.failures
    · rw [if_pos many]
      refine ⟨?_, ?_, fun _ => ⟨rfl, rfl, rfl⟩, fun few => absurd many (Nat.not_le.2 few),
        fun few => absurd many (Nat.not_le.2 few)⟩
      · exact congrArg Pwr.minOff dueAt
      · exact congrArg Pwr.retryAt dueAt
    · rw [if_neg many]
      cases low : s.pwr.vbatLow
      · rw [if_neg Bool.false_ne_true, State.startKindle_pwr, again, dueAt]
        refine ⟨rfl, rfl, fun h => absurd h many, fun _ h => absurd h Bool.false_ne_true, fun _ _ => ⟨rfl, rfl, rfl, rfl, ?_⟩⟩
        rw [State.startKindle_rget, State.reasonAdd, rget_rset_same]
        exact bit_or_pow (by decide)
      · rw [if_pos rfl, State.pwrMod, State.setPwr_pwr, again, dueAt]
        exact ⟨rfl, rfl, fun h => absurd h many, fun _ _ => ⟨rfl, kindle, rfl⟩, fun _ h => absurd h.symm Bool.false_ne_true⟩
  case minOff =>
    intro asleep off low
    have ended := s.offEnded_pwr
    have free : s.offEnded.pwr.minOff = false ∧ s.offEnded.pwr.vbatLow = false ∧ s.offEnded.pwr.state = s.pwr.state := by
      rw [ended]
      exact ⟨rfl, low, rfl⟩
    obtain ⟨free, high, state⟩ := free
    refine ⟨_, State.exec_minimumOffTimeEnd asleep off, ?_⟩
    cases waits : s.pwr.wakeWaits
    · rw [if_neg Bool.false_ne_true]
      cases late : s.pwr.lateFirst with
      | none =>
        dsimp only
        exact ⟨free, fun h => absurd h Bool.false_ne_true, fun _ _ => state, fun _ _ _ => nofun⟩
      | some x =>
        obtain ⟨b, src⟩ := x
        dsimp only
        rw [State.lateWake_starts free high, State.startKindle_pwr, State.startKindle_rget, State.lateRecorded_reason,
          (s.offEnded.lateRecorded_only b src).pwr rfl, ended]
        refine ⟨rfl, fun h => absurd h Bool.false_ne_true, fun _ => nofun, fun b' src' _ same => ?_⟩
        exact ⟨rfl, rfl, rfl⟩
    · rw [if_pos rfl, State.wakeStart_starts free high, State.startKindle_pwr, state, ended]
      exact ⟨rfl, fun _ => ⟨rfl, rfl, rfl⟩, fun h => absurd h.symm Bool.false_ne_true,
        fun _ _ h => absurd h.symm Bool.false_ne_true⟩
  case release =>
    intro ok kindle good held
    refine ⟨_, State.exec_forgeResetRelease kindle good held, ?_⟩
    obtain ⟨u, begun⟩ : ∃ u, s.romBegins = u := ⟨_, rfl⟩
    have pwr := s.romBegins_pwr
    rw [← s.romBegins_key, ← s.romBegins_boot, begun]
    rw [begun] at pwr
    clear begun
    have released : u.pwr.released = true := by rw [pwr]
    have state : u.pwr.state = .kindle := by rw [pwr, kindle]
    cases warm : s.pwr.warm
    · rw [if_neg Bool.false_ne_true]
      obtain ⟨same, up, booted, inForce, pending⟩ := State.coldBoot_booted released
      exact ⟨same.trans state, up, booted, inForce, pending, fun _ => u.coldBoot_cold, fun h => absurd h Bool.false_ne_true⟩
    · rw [if_pos rfl]
      obtain ⟨same, up, booted, inForce, pending⟩ := State.warmBoot_booted ok released
      refine ⟨same.trans state, up, booted, inForce, pending, (absurd ·.symm Bool.false_ne_true), fun _ goal field => ⟨?_, ?_⟩⟩
      · rintro nonce rfl
        rw [State.warmBoot_sealed goal field nonce, State.warmStrapped_pwr, State.warmStrapped_key, State.rootTransfer_key, field]
        refine ⟨?_, rfl, rfl⟩
        exact (congrArg Pwr.warm pwr).trans warm
      · intro lost
        rw [State.warmBoot_unsealed goal lost]
        exact u.sealLost_cold
  case ready =>
    intro kindle released fresh booted
    refine ⟨_, State.exec_firmwareReady kindle released fresh booted, ?_⟩
    by_cases recovery : s.boot.mode = 2
    · rw [if_pos recovery, State.runEntered_pwr]
      exact ⟨rfl, rfl, rfl, rfl, rfl, rfl, fun _ => ⟨s.runEntered_only.nm rfl, s.runEntered_only.cal rfl⟩, (absurd recovery ·)⟩
    · obtain ⟨pwr, nm⟩ := s.runEntered.restored_kept s.pwr.warm
      have begun := (s.runEntered.restored s.pwr.warm).nmBegun_nm
      rw [if_neg recovery, State.nmBegun_pwr, pwr, State.runEntered_pwr]
      rw [nm, s.runEntered_only.nm rfl] at begun
      exact ⟨rfl, rfl, rfl, rfl, rfl, rfl, (absurd · recovery), fun _ => begun⟩
  case banked =>
    intro banked hours
    obtain ⟨late, -, -⟩ := State.waitUntil_clk s (s.pwr.since + State.hoursNs (s.rfld Reg.pwrDecay 0 16))
      (by rw [banked]; decide) (by rw [banked]; decide)
    refine ⟨_, State.exec_bankedDecay banked hours, rfl, ?_⟩
    generalize s.pwr.since + State.hoursNs (s.rfld Reg.pwrDecay 0 16) = due at late ⊢
    refine ⟨?_, ?_, ?_, ?_, ?_⟩
    · exact congrArg Key.slots (State.forgeLost_key _)
    · exact congrArg Mbx.dram (State.forgeLost_mbx _)
    · refine (congrArg Mbx.retention (State.forgeLost_mbx _)).trans ?_
      rw [waitUntil_mbx]
    · refine (State.forgeLost_boot _).1.trans ?_
      exact congrArg Boot.desc (State.waitUntil_boot s due)
    · exact (State.forgeLost_clk _).symm ▸ late
  case ember =>
    intro ember hours
    obtain ⟨late, -, -⟩ := State.waitUntil_clk s (s.pwr.since + State.hoursNs (s.rfld Reg.pwrDecay 16 16))
      (by rw [ember]; decide) (by rw [ember]; decide)
    refine ⟨_, State.exec_emberDecay ember hours, rfl, rfl, rfl, ?_, late⟩
    exact .enterPower (by decide) (.pwrMod (by decide) ((State.waitUntil_only (by rw [ember]; decide) _).mono (by decide)))
  case rise =>
    intro above off minOff
    refine ⟨_, State.exec_vbatRise above off, ?_⟩
    obtain ⟨u, risen⟩ : ∃ u, s.pwrMod (fun p =>
      { p with
        vbatOk := true
        vbatLow := !above }) = u := ⟨_, rfl⟩
    have pwr : u.pwr =
        { s.pwr with
          vbatOk := true
          vbatLow := !above } := risen ▸ rfl
    rw [risen]
    clear risen
    have recorded : (u.wakeRecord 1 0 0).pwr = u.pwr := (Only.wakeRecord0 ..).pwr rfl
    rw [pwr] at recorded
    have reason : (u.wakeRecord 1 0 0).rget Reg.pwrWakeReason = 1 := u.wakeRecord_reason 1 0 0
    unfold State.powerOn
    cases above
    · rw [State.wakeStart_waits (.inr (by rw [recorded]; rfl)), State.pwrMod_rget, State.pwrMod, State.setPwr_pwr, recorded]
      exact ⟨reason, rfl, fun h => absurd h Bool.false_ne_true, fun _ => ⟨off, rfl, rfl⟩⟩
    · rw [State.wakeStart_starts (by rw [recorded]; exact minOff) (by rw [recorded]; rfl), State.startKindle_rget,
        State.startKindle_pwr, recorded]
      exact ⟨reason, rfl, fun _ => ⟨rfl, rfl, by rw [off]; rfl⟩, fun h => absurd h.symm Bool.false_ne_true⟩
  case fall =>
    exact ⟨_, rfl, rfl, rfl, rfl, rfl, rfl, rfl, rfl, rfl, rfl, rfl, (congrArg Key.burned s.forgeLost_key :), rfl, s.forgeLost_boot⟩

end Sys2Proof.Machine
end

section
/-! Waking and falling asleep: what a wake source does in each power state (R473, R478 to R481), selective wake (R480),
sleep entry (R476, R477), the resident part of the warm image (R486) and a failing die link (R17). -/

namespace Sys2Proof.Machine

open State

namespace State

variable {s u : State} {b b0 src src0 ch : Nat} {f : CanFrame}

/-! ### A wake source that fires (R473, R481) -/

theorem wakeRecord_first (s : State) (reason first src : Nat) : (s.wakeRecord reason first src).rget Reg.pwrWakeFirst =
    BitVec.ofNat 32 (first + 2 ^ 8 * src + 2 ^ 16 * pwrCode s.pwr.state) := by
  unfold wakeRecord
  rw [bump_other _ _ _ (by decide) (by decide)]
  split <;> simp [rget_rset]

theorem wakeRecord_pwr (s : State) (reason first src : Nat) : (s.wakeRecord reason first src).pwr = s.pwr :=
  (Only.wakeRecord0 ..).pwr rfl

theorem lateHeld_some (h : s.lateHeld = some (b0, src0)) :
    s.sleeping = true ∧ s.pwr.minOff = true ∧ s.pwr.wakeWaits = false := by
  unfold lateHeld at h
  split at h
  · next held => simpa [and_assoc] using held
  · exact absurd h (by simp)

theorem not_kindle_of_sleeping (h : s.sleeping = true) : s.pwr.state ≠ .kindle := by
  intro kindle
  rw [sleeping, kindle] at h
  exact absurd h (by decide)

theorem not_run_of_sleeping (h : s.sleeping = true) : s.pwr.state ≠ .run := by
  intro run
  rw [sleeping, run] at h
  exact absurd h (by decide)

theorem wakeFire_late (h : s.lateHeld = some (b0, src0)) : s.wakeFire b src = (s.lateWake b0 src0).reasonAdd b := by
  obtain ⟨asleep, -, free⟩ := lateHeld_some h
  unfold wakeFire
  rw [if_neg (by simp [not_kindle_of_sleeping asleep, free]), h]

theorem wakeFire_asleep (asleep : s.sleeping = true) (free : s.pwr.wakeWaits = false) (fresh : s.lateHeld = none) :
    s.wakeFire b src = (s.wakeRecord (2 ^ b) b src).wakeStart := by
  unfold wakeFire
  rw [if_neg (by simp [not_kindle_of_sleeping asleep, free]), fresh]
  exact if_pos asleep

theorem wakeFire_kindle (kindle : s.pwr.state = .kindle) : s.wakeFire b src = s.reasonAdd b := if_pos (.inl kindle)

theorem wakeFire_committed (run : s.pwr.state = .run) (committed : s.nm.state = .committed) :
    s.wakeFire b src = s.latch (some b) src := by
  have awake : s.sleeping = false := by rw [sleeping, run]; rfl
  have none : s.lateHeld = none := by rw [lateHeld, awake]; rfl
  unfold wakeFire
  rw [if_neg (by simp [run, awake]), none]
  dsimp only
  rw [if_neg (by simp [awake]), if_pos committed]

/-- Bellows stands as it did for a wake: selective wake alone has counted, and time has passed. -/
def WakesAs (s u : State) : Prop := ∃ t f, u.pwr =
  { s.pwr with
    swAt := t
    fec := f }

theorem WakesAs.sleeping (h : s.WakesAs u) : u.sleeping = s.sleeping := by
  obtain ⟨t, f, pwr⟩ := h
  rw [State.sleeping, pwr, State.sleeping]

theorem WakesAs.lateHeld (h : s.WakesAs u) : u.lateHeld = s.lateHeld := by
  have asleep := h.sleeping
  obtain ⟨t, f, pwr⟩ := h
  rw [State.lateHeld, asleep, pwr, State.lateHeld]

theorem WakesAs.fields (h : s.WakesAs u) : u.pwr.state = s.pwr.state ∧ u.pwr.minOff = s.pwr.minOff ∧
    u.pwr.vbatLow = s.pwr.vbatLow ∧ u.pwr.wakeWaits = s.pwr.wakeWaits ∧ u.pwr.lateLatch = s.pwr.lateLatch := by
  obtain ⟨t, f, pwr⟩ := h
  rw [pwr]
  exact ⟨rfl, rfl, rfl, rfl, rfl⟩

/-- What a wake starts that a source latched before it. -/
theorem WakesAs.late (h : s.WakesAs u) (held : s.lateHeld = some (b0, src0)) :
    (u.wakeFire b src).pwr.wakeWaits = true ∧ (u.wakeFire b src).pwr.state = s.pwr.state ∧
      (u.wakeFire b src).rget Reg.pwrWakeReason = BitVec.ofNat 32 s.pwr.lateLatch ||| BitVec.ofNat 32 (2 ^ b) ∧
      (u.wakeFire b src).rget Reg.pwrWakeFirst = BitVec.ofNat 32 (b0 + 2 ^ 8 * src0 + 2 ^ 16 * pwrCode s.pwr.state) := by
  obtain ⟨state, off, -, -, latch⟩ := h.fields
  obtain ⟨-, heldOff, -⟩ := lateHeld_some held
  rw [wakeFire_late (h.lateHeld.trans held), lateWake_waits (.inl (off.trans heldOff))]
  refine ⟨rfl, ?_, ?_, ?_⟩
  · exact (congrArg Pwr.state ((u.lateRecorded_only b0 src0).pwr rfl)).trans state
  · rw [reasonAdd, rget_rset_same, pwrMod_rget, lateRecorded_reason, latch]
  · rw [reasonAdd, rget_rset_other _ _ (by decide), pwrMod_rget, lateRecorded, bump_other _ _ _ (by decide) (by decide),
      wakeRecord_first, state]

/-- What a source starts in sleep. -/
theorem WakesAs.asleep (h : s.WakesAs u) (asleep : s.sleeping = true) (free : s.pwr.wakeWaits = false)
    (fresh : s.lateHeld = none) : (u.wakeFire b src).rget Reg.pwrWakeReason = BitVec.ofNat 32 (2 ^ b) ∧
      (u.wakeFire b src).rget Reg.pwrWakeFirst = BitVec.ofNat 32 (b + 2 ^ 8 * src + 2 ^ 16 * pwrCode s.pwr.state) ∧
      (s.pwr.minOff = false → s.pwr.vbatLow = false → (u.wakeFire b src).pwr.state = .kindle ∧
        (u.wakeFire b src).pwr.pwrEn = true ∧ (u.wakeFire b src).pwr.pwrGood = false ∧
        (u.wakeFire b src).pwr.warm = (s.pwr.state == .banked)) ∧
      ((s.pwr.minOff = true ∨ s.pwr.vbatLow = true) → (u.wakeFire b src).pwr.state = s.pwr.state ∧
        (u.wakeFire b src).pwr.wakeWaits = true) := by
  obtain ⟨state, off, low, waits, -⟩ := h.fields
  have reason := u.wakeRecord_reason (2 ^ b) b src
  have first := u.wakeRecord_first (2 ^ b) b src
  have same := u.wakeRecord_pwr (2 ^ b) b src
  rw [wakeFire_asleep (h.sleeping.trans asleep) (waits.trans free) (h.lateHeld.trans fresh)]
  generalize u.wakeRecord (2 ^ b) b src = t at *
  rw [state] at first
  rw [← same] at state off low
  rw [← off, ← low]
  by_cases held : t.pwr.minOff = true ∨ t.pwr.vbatLow = true
  · rw [wakeStart_waits held]
    refine ⟨reason, first, fun up high => ?_, fun _ => ⟨state, rfl⟩⟩
    simp [up, high] at held
  · have free : t.pwr.minOff = false ∧ t.pwr.vbatLow = false := by simpa using held
    rw [wakeStart_starts free.1 free.2, startKindle_rget, startKindle_rget, startKindle_pwr, state]
    exact ⟨reason, first, fun _ _ => ⟨rfl, rfl, rfl, rfl⟩, fun h => absurd h held⟩

/-- A source that is armed, as the command that brings it, with its reason bit and its index. -/
def WakeSource (s : State) (i : Instr) (b src : Nat) (rising : Bool) (f : CanFrame) : Prop :=
  (i = .wakePin src rising ∧ b = 1 ∧ src < 8 ∧ bit (le s.pwr.pins (4 * src) 1) 0 = true ∧
    bit (le s.pwr.pins (4 * src) 1) (if rising then 1 else 2) = true) ∨
  (i = .canWakePattern src ∧ b = 2 ∧ src < 64 ∧ bit s.pwr.wup src = true) ∨
  (i = .selectiveWakeFrame src f ∧ b = 3 ∧ s.swDecodes src = true ∧ f.format ≠ .fd ∧ f.format ≠ .xl ∧
    (s.pwr.wakeFilters.any fun x => wakeHits x src f) = true) ∨
  (∃ ch, i = .linWake ch ∧ b = 4 ∧ src = 64 + ch ∧ ch < 32 ∧ bit s.pwr.linWake ch = true) ∨
  (i = .swDecodeError src true ∧ b = 6 ∧ s.swDecodes src = true ∧ s.pwr.fecLimit ≤ agetD s.pwr.fec src 0 + 1) ∨
  (i = .wakeTimer ∧ b = 5 ∧ src = 0 ∧ s.pwr.timerS ≠ 0 ∧ s.swState = true)

theorem exec_wakePin {rising : Bool} (named : src < 8) (armed : bit (le s.pwr.pins (4 * src) 1) 0 = true)
    (edge : bit (le s.pwr.pins (4 * src) 1) (if rising then 1 else 2) = true) : exec (.wakePin src rising) s =
      .next (if s.pwr.state = .run then s.nmEvent 3 (some 1) src else s.wakeFire 1 src) := by
  show Host.Outcome.next (s.doWakePin src rising) = _
  unfold doWakePin
  dsimp only
  rw [if_neg (by simp [armed, edge, named])]

theorem exec_canWakePattern (named : ch < 64) (armed : bit s.pwr.wup ch = true) :
    exec (.canWakePattern ch) s = .next (s.wakeFire 2 ch) := by
  show Host.Outcome.next (s.doCanWakePattern ch) = _
  rw [doCanWakePattern, if_neg (by simp [armed, named])]

theorem exec_linWake (named : ch < 32) (armed : bit s.pwr.linWake ch = true) :
    exec (.linWake ch) s = .next (s.wakeFire 4 (64 + ch)) := by
  show Host.Outcome.next (s.doLinWake ch) = _
  rw [doLinWake, if_neg (by simp [armed, named])]

theorem exec_wakeTimer (armed : s.pwr.timerS ≠ 0) (keeps : s.swState = true) :
    exec .wakeTimer s = .next ((s.waitUntil (s.pwr.sleepAt + 10 ^ 9 * s.pwr.timerS)).wakeFire 5 0) := by
  show Host.Outcome.next s.doWakeTimer = _
  rw [doWakeTimer, if_neg (by simp [armed, keeps])]

/-! ### Selective wake (R480) -/

/-- A decode error counts against its channel. -/
def swBad (s : State) (ch : Nat) : State :=
  s.pwrMod fun p => { p with swAt := s.clk, fec := amod p.fec ch 0 (· + 1) }

theorem exec_selectiveWakeFrame (decodes : s.swDecodes ch = true) (fd : f.format ≠ .fd) (xl : f.format ≠ .xl) :
    exec (.selectiveWakeFrame ch f) s =
      .next (if s.pwr.wakeFilters.any (fun x => wakeHits x ch f) then (s.swGood ch).wakeFire 3 ch else s.swGood ch) := by
  show Host.Outcome.next (s.doSelectiveWakeFrame ch f) = _
  unfold doSelectiveWakeFrame
  rw [if_neg (by simp [decodes])]
  cases format : f.format
  case fd => exact absurd format fd
  case xl => exact absurd format xl
  all_goals rfl

theorem exec_swDecodeError (decodes : s.swDecodes ch = true) (e : Bool) : exec (.swDecodeError ch e) s =
    .next (if e = true then
      if s.pwr.fecLimit ≤ agetD s.pwr.fec ch 0 + 1 then (s.swBad ch).wakeFire 6 ch else s.swBad ch
    else s.swGood ch) := by
  have counted : agetD (s.swBad ch).pwr.fec ch 0 = agetD s.pwr.fec ch 0 + 1 := by
    unfold swBad pwrMod amod agetD
    rw [setPwr_pwr, aget_aset_same]
    rfl
  rw [← counted]
  show Host.Outcome.next (s.doSwDecodeError ch e) = _
  unfold doSwDecodeError
  rw [if_neg (by simp [decodes])]
  cases e <;> rfl

theorem swState_asleep (h : s.swState = true) : s.pwr.state = .ember ∨ s.pwr.state = .banked := by
  simpa [swState] using h

theorem swDecodes_swState (h : s.swDecodes ch = true) : s.swState = true := by
  simp only [swDecodes, Bool.and_eq_true] at h
  exact h.1.1

/-- An armed source fires in sleep. -/
theorem WakeSource.fires {i : Instr} {rising : Bool} (h : s.WakeSource i b src rising f) (notRun : s.pwr.state ≠ .run) :
    ∃ u, s.WakesAs u ∧ exec i s = .next (u.wakeFire b src) := by
  obtain ⟨rfl, rfl, named, armed, edge⟩ | ⟨rfl, rfl, named, armed⟩ | ⟨rfl, rfl, decodes, fd, xl, hit⟩ |
    ⟨ch, rfl, rfl, rfl, named, armed⟩ | ⟨rfl, rfl, decodes, limit⟩ | ⟨rfl, rfl, rfl, armed, keeps⟩ := h
  · exact ⟨s, ⟨_, _, rfl⟩, by rw [exec_wakePin named armed edge, if_neg notRun]⟩
  · exact ⟨s, ⟨_, _, rfl⟩, exec_canWakePattern named armed⟩
  · exact ⟨s.swGood src, ⟨_, _, rfl⟩, by rw [exec_selectiveWakeFrame decodes fd xl, if_pos hit]⟩
  · exact ⟨s, ⟨_, _, rfl⟩, exec_linWake named armed⟩
  · exact ⟨s.swBad src, ⟨_, _, rfl⟩, by rw [exec_swDecodeError decodes, if_pos rfl, if_pos limit]⟩
  · exact ⟨_, ⟨_, _, waitUntil_pwr ..⟩, exec_wakeTimer armed keeps⟩

/-- An armed source fires while the Forge die is awake, where nothing is decoded. -/
theorem WakeSource.fires_awake {i : Instr} {rising : Bool} (h : s.WakeSource i b src rising f)
    (awake : s.pwr.state = .kindle ∨ s.pwr.state = .run ∧ s.nm.state = .committed) : exec i s = .next (s.wakeFire b src) := by
  have none : s.swState ≠ true := by
    unfold swState
    obtain kindle | ⟨run, -⟩ := awake
    · rw [kindle]; decide
    · rw [run]; decide
  obtain ⟨rfl, rfl, named, armed, edge⟩ | ⟨rfl, rfl, named, armed⟩ | ⟨rfl, rfl, decodes, fd, xl, hit⟩ |
    ⟨ch, rfl, rfl, rfl, named, armed⟩ | ⟨rfl, rfl, decodes, limit⟩ | ⟨rfl, rfl, rfl, armed, keeps⟩ := h
  · rw [exec_wakePin named armed edge]
    obtain kindle | ⟨run, committed⟩ := awake
    · rw [if_neg (by rw [kindle]; decide)]
    · rw [if_pos run, wakeFire_committed run committed, nmEvent, committed]
  · exact exec_canWakePattern named armed
  · exact absurd (swDecodes_swState decodes) none
  · exact exec_linWake named armed
  · exact absurd (swDecodes_swState decodes) none
  · exact absurd keeps none

theorem exec_swIdleTimeout (keeps : s.swState = true) (on : s.pwr.oscOn = true) : exec .swIdleTimeout s =
    .next ((s.waitUntil (s.pwr.swAt + 1000000 * s.pwr.swIdle)).pwrMod fun p =>
      { p with
        oscOn := false
        decoding := [] }) := by
  show Host.Outcome.next s.doSwIdleTimeout = _
  rw [doSwIdleTimeout, if_neg (by simp [keeps, on])]

/-! ### Sleep entry (R476, R477) -/

/-- Everything that waits for sleep has been done. -/
def sleepReady (s : State) : State := ((s.waitUntil (s.nm.commitAt.getD s.clk + 2000000)).xcvrForceAll).logUpdateAll

theorem sleepReady_kept (s : State) : s.sleepReady.pwr = s.pwr ∧ s.sleepReady.key = s.key ∧ s.sleepReady.fnc = s.fnc :=
  ⟨((Only.logUpdateAll0 _).pwr rfl).trans (((Only.xcvrForceAll0 _).pwr rfl).trans (waitUntil_pwr ..)),
    ((Only.logUpdateAll0 _).key rfl).trans (((Only.xcvrForceAll0 _).key rfl).trans (waitUntil_key ..)),
    ((Only.logUpdateAll0 _).fnc rfl).trans (((Only.xcvrForceAll0 _).fnc rfl).trans (waitUntil_fnc ..))⟩

/-- Whether BANKED cannot be kept. -/
def demotes (s : State) (restoreMib : Nat) : Bool := s.pwr.target == .banked && (64 < restoreMib || s.quenched Dom.memory)

/-- The warm image is sealed with a nonce of its own. -/
def sealedWith (s : State) (mib : Nat) : State :=
  let s := s.draw.2.setKey { s.key with sealNonce := some s.draw.1 }
  s.waitUntil (s.clk + (200000 + 26000 * mib) + 200000)

theorem sealedWith_kept (s : State) (mib : Nat) :
    (s.sealedWith mib).key = { s.key with sealNonce := some s.draw.1 } ∧ (s.sealedWith mib).pwr = s.pwr :=
  ⟨waitUntil_key .., waitUntil_pwr ..⟩

/-- The Forge die is off, in a sleep state. -/
def asleepIn (s : State) (target : PwrState) (demoted : Bool) (at_ : Nat) : State :=
  ((s.pwrMod fun p =>
    { p with
      pwrEn := false
      pwrGood := false
      offAt := at_
      sleepAt := at_
      minOff := true
      demoted := demoted
      oscOn := false
      decoding := []
      fec := [] }).waitUntil (at_ + 1000000)).enterPower target

theorem asleepIn_kept (s : State) (target : PwrState) (demoted : Bool) (at_ : Nat) :
    (s.asleepIn target demoted at_).key = s.key ∧ (s.asleepIn target demoted at_).nm = s.nm ∧
    ∃ since, (s.asleepIn target demoted at_).pwr =
      { s.pwr with
        state := target
        since := since
        pwrEn := false
        pwrGood := false
        offAt := at_
        sleepAt := at_
        minOff := true
        demoted := demoted
        oscOn := false
        decoding := []
        fec := [] } := by
  unfold asleepIn
  generalize at_ + 1000000 = due
  simp only [enterPower, pwrMod, setPwr_key, setPwr_nm, setPwr_pwr, waitUntil_key, waitUntil_nm, waitUntil_pwr]
  exact ⟨trivial, trivial, _, rfl⟩

theorem bankedImage_kept (s : State) : s.bankedImage.pwr = s.forgeLost.pwr ∧ s.bankedImage.nm = s.forgeLost.nm ∧
    s.bankedImage.key = { s.forgeLost.key with slots := s.key.slots } :=
  ⟨(Only.emFreed0 _).pwr rfl, (Only.emFreed0 _).nm rfl, (Only.emFreed0 _).key rfl⟩

theorem forgeLost_nm_state (s : State) : s.forgeLost.nm.state = .busSleep := rfl

/-- The Forge die is lost for a sleep state, the warm image sealed for BANKED alone. -/
def sleepFrom (s : State) (target : PwrState) (demoted : Bool) (mib : Nat) : State :=
  let sealNs := if target = .banked then 200000 + 26000 * mib else 0
  let (n, s) := if target = .banked then s.draw else (0, s)
  let s := if target = .banked then s.setKey { s.key with sealNonce := some n } else s
  let s := s.waitUntil (s.clk + sealNs + 200000)
  (if target = .banked then s.bankedImage else s.forgeLost).asleepIn target demoted s.clk

theorem sleepFrom_banked (s : State) (demoted : Bool) (mib : Nat) : s.sleepFrom .banked demoted mib =
    (s.sealedWith mib).bankedImage.asleepIn .banked demoted (s.sealedWith mib).clk := rfl

theorem sleepFrom_other {target : PwrState} (other : target ≠ .banked) (demoted : Bool) (mib : Nat) :
    s.sleepFrom target demoted mib =
      (s.waitUntil (s.clk + 0 + 200000)).forgeLost.asleepIn target demoted (s.waitUntil (s.clk + 0 + 200000)).clk := by
  unfold sleepFrom
  simp only [if_neg other]

theorem exec_sleepEntry (committed : s.nm.state = .committed) (runs : s.nmRuns = true) (ember : s.emberDown = false)
    (restore resident : Nat) : exec (.sleepEntry restore resident) s = .next (s.sleepReady.sleepFrom
      (if s.demotes restore = true then .ember else s.pwr.target) (s.demotes restore) (restore + resident)) := by
  obtain ⟨pwr, key, fnc⟩ := s.sleepReady_kept
  have same : s.sleepReady.demotes restore = s.demotes restore := by
    rw [demotes, pwr, quenched_of_fnc fnc, demotes]
  rw [← same, ← pwr]
  show Host.Outcome.next (s.doSleepEntry restore resident) = _
  unfold doSleepEntry
  rw [if_neg (by simp [committed, runs, ember])]
  extract_lets u demoted target sealNs
  change _ = Host.Outcome.next (u.sleepFrom target demoted (restore + resident))
  unfold sleepFrom
  clear_value u demoted target
  rfl

/-- What every sleep state leaves of the device, and whether the key slots stay. -/
theorem sleepFrom_kept (s : State) (target : PwrState) (demoted : Bool) (mib : Nat) :
    (s.sleepFrom target demoted mib).pwr.pwrEn = false ∧ (s.sleepFrom target demoted mib).pwr.minOff = true ∧
    (s.sleepFrom target demoted mib).pwr.fwReady = false ∧ (s.sleepFrom target demoted mib).pwr.released = false ∧
    (s.sleepFrom target demoted mib).nm.state = .busSleep ∧ (s.sleepFrom target demoted mib).key.root = none ∧
    (s.sleepFrom target demoted mib).pwr.state = target ∧ (s.sleepFrom target demoted mib).pwr.demoted = demoted ∧
    (s.sleepFrom target demoted mib).key.slots = (if target = .banked then s.key.slots else []) ∧
    (target = .banked → (s.sleepFrom target demoted mib).key.sealNonce ≠ none) := by
  by_cases banked : target = .banked
  · rw [banked, sleepFrom_banked]
    obtain ⟨sealedKey, sealedPwr⟩ := s.sealedWith_kept mib
    generalize s.sealedWith mib = u at *
    obtain ⟨pwr, nm, key⟩ := u.bankedImage_kept
    obtain ⟨key', nm', since, pwr'⟩ := u.bankedImage.asleepIn_kept .banked demoted u.clk
    rw [key', nm', pwr', pwr, nm, key, forgeLost_pwr, forgeLost_key, forgeLost_nm_state, sealedKey]
    exact ⟨rfl, rfl, rfl, rfl, rfl, rfl, rfl, rfl, rfl, fun _ => nofun⟩
  · rw [sleepFrom_other banked]
    generalize s.waitUntil (s.clk + 0 + 200000) = u
    obtain ⟨key', nm', since, pwr'⟩ := u.forgeLost.asleepIn_kept target demoted u.clk
    rw [key', nm', pwr', forgeLost_pwr, forgeLost_key, forgeLost_nm_state, if_neg banked]
    exact ⟨rfl, rfl, rfl, rfl, rfl, rfl, rfl, rfl, rfl, (absurd · banked)⟩

/-! ### The resident part, and the die link (R17, R486) -/

theorem exec_residentVerifyDone (waits : s.mbx.residentWait = true) (ok : Bool) : exec (.residentVerifyDone ok) s = .next (
    if ok = true then s.setMbx { s.mbx with residentWait := false }
    else ((s.setMbx
      { s.mbx with
        residentWait := false
        dram := []
        bodies := [] }).rebuildJournal true).handlesRecover.raise 0xB006 2) := by
  show Host.Outcome.next (s.doResidentVerifyDone ok) = _
  unfold doResidentVerifyDone
  rw [if_neg (by simp [waits])]
  rfl

/-- Handles in force alone are left. -/
theorem handlesRecover_handles (s : State) : ∀ x ∈ s.handlesRecover.cal.handles, x.2.state = .active ∨ x.2.state = .draining := by
  intro x left
  simpa using (List.mem_filter.1 left).2

/-- A sleep that the Ember die breaks off forgets what it had latched. -/
theorem emberLost_pwr (s : State) : ∃ m x, s.emberLost.pwr =
    { s.pwr with
      lateLatch := m
      lateFirst := x } := by
  unfold emberLost
  split
  · exact ⟨_, _, rfl⟩
  · refine ⟨0, none, ?_⟩
    rw [(Only.nmEnter0 _ _).pwr rfl, (Only.raise0 ..).pwr rfl, setEdg_pwr]
    refine List.foldlRecOn (motive := fun t : State => t.pwr = _) _ _ rfl fun t same x _ => ?_
    rw [(Only.xcvrOrder0 ..).pwr rfl, same]

theorem exec_dieLinkFailure (awake : s.pwr.state = .kindle ∨ s.pwr.state = .run) : exec .dieLinkFailure s =
    .next ((((s.pwrMod fun p =>
      { p with
        dieLinkCount := s.pwr.dieLinkCount + 1
        dieLinkFailed := true }).raise 0xB007 (s.pwr.dieLinkCount + 1)).report Dom.ember 9).emberLost) := by
  show Host.Outcome.next s.doDieLinkFailure = _
  rw [doDieLinkFailure, if_neg]
  simpa [imp_iff_not_or] using awake

end State

/-- Settles O53: an armed source is one command of `WakeSource`, and what it starts is `wakeFire`; sleep entry is what
`sleepFrom` leaves for the target that can be kept. -/
theorem wakeAndSleep : Obligations.WakeAndSleep := by
  intro s
  refine ⟨?sources, ?pin, ?can, ?lin, ?timer, ?oscillator, ?idle, ?fd, ?decode, ?timeout, ?entry, ?resident, ?link⟩
  case sources =>
    intro i b src rising f (source : s.WakeSource i b src rising f)
    refine ⟨fun b0 src0 held => ?_, fun asleep free fresh => ?_, fun kindle => ?_, fun run committed => ?_⟩
    · obtain ⟨u, as, done⟩ := source.fires (State.not_run_of_sleeping (State.lateHeld_some held).1)
      exact ⟨_, done, as.late held⟩
    · obtain ⟨u, as, done⟩ := source.fires (State.not_run_of_sleeping asleep)
      exact ⟨_, done, as.asleep asleep free fresh⟩
    · rw [source.fires_awake (.inl kindle), State.wakeFire_kindle kindle]
    · rw [source.fires_awake (.inr ⟨run, committed⟩), State.wakeFire_committed run committed]
  case pin =>
    intro pin rising unarmed
    refine congrArg Host.Outcome.next (if_pos ?_)
    exact unarmed.imp id fun clear => .inl (by rw [clear]; rfl)
  case can => exact fun ch clear => congrArg Host.Outcome.next (if_pos (.inr (by rw [clear]; rfl)))
  case lin => exact fun ch clear => congrArg Host.Outcome.next (if_pos (.inr (by rw [clear]; rfl)))
  case timer => exact fun clear => congrArg Host.Outcome.next (if_pos (.inl clear))
  case oscillator =>
    intro ch named armed keeps
    exact congrArg Host.Outcome.next (if_neg (by simp [named, armed, keeps]))
  case idle =>
    intro ch idle
    exact ⟨fun f => congrArg Host.Outcome.next (if_pos (by rw [idle]; rfl)),
      fun e => congrArg Host.Outcome.next (if_pos (by rw [idle]; rfl))⟩
  case fd =>
    intro ch f decodes other
    show Host.Outcome.next (s.doSelectiveWakeFrame ch f) = _
    unfold State.doSelectiveWakeFrame
    rw [if_neg (by simp [decodes])]
    obtain fd | xl := other
    · rw [fd]
    · rw [xl]
  case decode =>
    intro ch e decodes few
    refine ⟨_, State.exec_swDecodeError decodes e, ?_⟩
    cases e
    · rw [if_neg Bool.false_ne_true]
      exact ⟨Only.pwrMod0 _ _, rfl, congrArg (Option.getD · 0) (aget_aset_same ..)⟩
    · rw [if_pos rfl, if_neg (Nat.not_le.2 (few rfl))]
      exact ⟨Only.pwrMod0 _ _, rfl, congrArg (Option.getD · 0) (aget_aset_same ..)⟩
  case timeout =>
    intro keeps on
    have state := State.swState_asleep keeps
    have asleep : s.pwr.state ≠ .off ∧ s.pwr.state ≠ .dormant ∧ s.pwr.state ≠ .run := by
      obtain state | state := state <;> rw [state] <;> decide
    obtain ⟨notOff, notDormant, notRun⟩ := asleep
    refine ⟨_, State.exec_swIdleTimeout keeps on, rfl, rfl, ?_, (s.waitUntil_clk _ notOff notDormant).1⟩
    exact .pwrMod (by decide) ((State.waitUntil_only notRun _).mono (by decide))
  case entry =>
    intro restore resident committed runs ember
    refine ⟨_, State.exec_sleepEntry committed runs ember restore resident, ?_⟩
    obtain ⟨en, off, ready, released, nm, root, state, demoted, slots, nonce⟩ := s.sleepReady.sleepFrom_kept
      (if s.demotes restore = true then .ember else s.pwr.target) (s.demotes restore) (restore + resident)
    rw [s.sleepReady_kept.2.1] at slots
    refine ⟨en, off, ready, released, nm, root, fun shallow => ?_, fun banked small powered => ?_, fun banked lost => ?_⟩
    · have keeps : s.demotes restore = false := by
        unfold State.demotes
        obtain ember | dormant := shallow
        · rw [ember]; rfl
        · rw [dormant]; rfl
      have other : s.pwr.target ≠ .banked := by obtain h | h := shallow <;> rw [h] <;> decide
      rw [state, slots, demoted, keeps, if_neg Bool.false_ne_true, if_neg other]
      exact ⟨rfl, rfl, rfl⟩
    · have keeps : s.demotes restore = false := by simp [State.demotes, small, powered]
      have target : (if s.demotes restore = true then .ember else s.pwr.target) = PwrState.banked := by
        rw [keeps, if_neg Bool.false_ne_true, banked]
      exact ⟨state.trans target, by rw [slots, if_pos target], nonce target, demoted.trans keeps⟩
    · have demotes : s.demotes restore = true := by
        rw [State.demotes, banked]
        simpa using lost
      rw [state, slots, demoted, demotes]
      exact ⟨rfl, rfl, rfl⟩
  case resident =>
    intro ok waits
    constructor
    · rintro rfl
      exact State.exec_residentVerifyDone waits true
    · rintro rfl
      refine ⟨_, State.exec_residentVerifyDone waits false, ?_⟩
      rw [if_neg Bool.false_ne_true, (Only.raise0 ..).mbx rfl, (Only.handlesRecover0 _).mbx rfl, (Only.rebuildJournal0 ..).mbx rfl,
        (Only.raise0 ..).cal rfl]
      exact ⟨rfl, rfl, rfl, State.handlesRecover_handles _⟩
  case link =>
    intro awake
    refine ⟨_, State.exec_dieLinkFailure awake, ?_⟩
    obtain ⟨m, x, lost⟩ := State.emberLost_pwr (((s.pwrMod fun p =>
      { p with
        dieLinkCount := s.pwr.dieLinkCount + 1
        dieLinkFailed := true }).raise 0xB007 (s.pwr.dieLinkCount + 1)).report Dom.ember 9)
    rw [lost, (Only.report0 ..).pwr rfl, (Only.raise0 ..).pwr rfl]
    exact ⟨rfl, rfl⟩

end Sys2Proof.Machine
end

section
/-! `NM_CONFIG` without a table of partial networks (R489): the PN_MASK words are then 0, whatever bytes the command's DMA
brings. -/

namespace Sys2Proof.Machine

open State

namespace State

variable {s : State} {c : Cmd} {dma : List Byte}

theorem nmEnter_pnMask (s : State) (st : NmState) : (s.nmEnter st).nm.pnMask = s.nm.pnMask := by
  by_cases same : s.nm.state = st
  · rw [nmEnter_same same]
  · obtain ⟨log, pns, entered⟩ := nmEnter_nm same
    rw [entered]
    rfl

theorem nmEval_pnMask (s : State) : s.nmEval.nm.pnMask = s.nm.pnMask := by
  have mirrored : s.nmMirror.nm.pnMask = s.nm.pnMask := by rw [(Only.nmMirror0 s).nm rfl]
  unfold nmEval
  split
  · split
    · exact mirrored
    · exact s.nmEnter_pnMask _
  · split
    · exact s.nmEnter_pnMask _
    · exact mirrored
  · exact mirrored

theorem pnApply_pnMask (s : State) : s.pnApply.nm.pnMask = s.nm.pnMask := by
  obtain ⟨l, applied⟩ := s.pnApply_nm
  rw [applied]

theorem nmConfig_noTable (legal : nmConfigOk c s = true) (none : c.u 56 8 = 0) :
    ∃ u, nmConfig dma c s = .done u St.ok 0 [] ∧ u.nm.pnMask = pnMasks [] := by
  unfold nmConfig
  rw [none, legal, if_pos (rfl : 0 = 0)]
  refine ⟨_, rfl, ?_⟩
  rw [pnApply_pnMask, nmEval_pnMask]
  split
  · exact nmEnter_pnMask ..
  · rfl

end State

/-- An `NM_CONFIG` without a table: node 1, all times in range. -/
def tablelessCmd : Cmd :=
  { index := 0, host := 0, queue := 0, slot := 0, seq := 1, opcode := 0x0901, flags := 0, tag := 0, hostTime := 0
    expectEpoch := 0, session := 0
    body := body [(1, 0), (1, 1), (2, 0), (2, 1000), (2, 1000), (2, 1000), (2, 100), (2, 30), (58, 0)]
    acceptTime := 0, phase := .accepted }

/-- The device in RUN with that command at the head of the main host's first queue. -/
def tablelessConfig : State :=
  { State.reset with
    pwr := { state := .run, fwReady := true, booted := true }
    nm := { state := .normal }
    mbx := { cmds := [tablelessCmd] } }

theorem tablelessConfig_ready : tablelessConfig.Ready 0 0 0x0901 tablelessCmd where
  head := by decide
  opcode := rfl
  begins := by decide
  epoch := by decide
  flash := by decide

/-- Refutes O54: an `NM_CONFIG` whose table address is 0 has no table, and its PN_MASK words are 0 although the DMA holds
a word that is not. -/
theorem not_networkManagement : ¬ Obligations.NetworkManagement := by
  intro h
  have legal : nmConfigOk tablelessCmd tablelessConfig = true := by decide
  obtain ⟨-, -, -, -, -, -, -, -, -, config, -⟩ := h tablelessConfig (by decide)
  obtain ⟨u, done, fields⟩ := (config 0 0 tablelessCmd [1] tablelessConfig_ready (by decide)).2 legal
  obtain ⟨-, -, -, -, -, -, -, -, -, -, -, -, masks⟩ := fields
  obtain ⟨v, eq, none⟩ := nmConfig_noTable (dma := [1]) legal (by decide)
  have ran : exec (.nmConfig 0 0 [1]) tablelessConfig = .next (v.finishCmd 0 0 0 []) :=
    congrArg Host.Outcome.next ((runDma_noTable tablelessConfig_ready (by decide)).trans (runCmd_done tablelessConfig_ready eq))
  have same := congrArg State.nm (Host.Outcome.next.inj (done.symm.trans ran))
  rw [(Only.finishCmd0 ..).nm rfl, (Only.finishCmd0 ..).nm rfl] at same
  rw [same, none] at masks
  exact absurd masks (by decide)

end Sys2Proof.Machine
end

section
/-! The Tongs link and what it carries: keying by hello units (R493, R495, R497), the mirrored state (R500 to R502) and the
blocks that rebuild a joining device (R512). -/

namespace Sys2Proof.Machine

open State

namespace State

variable {s t u : State} {o lane : Nat} {h : Hello}

/-! ### Registers that a port's copies and transceiver modes leave alone -/

/-- Registers between the receive and time-stamp queues and the port counters, but for a path's loss and the event
queues' counts. -/
def Aside (o : Nat) : Prop := 0xB080 ≤ o ∧ o < 0x78000 ∧ eventReg o = false ∧ o ≠ Reg.calPathLostCnt

theorem discardCopy_aside (far : Aside o) (c : Copy) : (s.discardCopy c).rget o = s.rget o := by
  obtain ⟨low, -, event, -⟩ := far
  have taken := rget_of_only (Only.takeCopy0 s c.fid c.port) rfl o
  have queue {u : State} {g id port flags ns sec : Nat} (hg : g ≤ 3) : (u.tsqPut g id port flags ns sec).rget o = u.rget o :=
    tsqPut_rget (by unfold Reg.hifTsqProd; omega) (by unfold Reg.hifTsqLostCnt; omega) event ..
  unfold discardCopy tsDiscard
  split
  · exact taken
  · split
    · exact taken
    · split
      · exact (queue (by split <;> [omega; split <;> [omega; split <;> omega]])).trans taken
      · exact taken

theorem flowOne_aside (far : Aside o) (p pri : Nat) : (s.flowOne p pri).rget o = s.rget o := by
  obtain ⟨-, high, event, -⟩ := far
  have sent (u : State) (quanta : Nat) : (u.sendPause p pri quanta).rget o = u.rget o := by
    unfold sendPause stat
    split
    · exact bump_other _ _ o event (by unfold Reg.stat; omega)
    · rfl
  unfold flowOne
  extract_lets n xoff xon on
  split
  · exact sent _ _
  · split
    · exact sent _ _
    · rfl

theorem flowCheck_aside (far : Aside o) (p : Nat) : (s.flowCheck p).rget o = s.rget o := by
  unfold flowCheck
  split
  · rfl
  · split
    · exact flowOne_aside far ..
    · refine List.foldlRecOn (motive := fun t : State => t.rget o = s.rget o) _ _ rfl fun t same i _ => ?_
      exact (flowOne_aside far p i).trans same
    · rfl

theorem freeCells_aside (far : Aside o) : s.freeCells.rget o = s.rget o := by
  unfold freeCells
  dsimp only
  split
  · rfl
  · refine List.foldlRecOn (motive := fun t : State => t.rget o = s.rget o) _ _ ?_ fun t same f _ => ?_
    · exact rget_of_only (Only.spillUpdate0 _) rfl o
    · exact (flowCheck_aside far f.src).trans same

theorem gc_aside (far : Aside o) : s.gc.rget o = s.rget o := by
  have freed : s.freeEnded.freeCells.rget o = s.rget o :=
    (freeCells_aside far).trans (rget_of_only (Only.freeEnded0 s) rfl o)
  unfold gc
  dsimp only
  split
  · exact freed
  · exact (rget_of_only (m := 0xA0) (.drainGone rfl (.owedGone rfl (.setFr rfl (.refl _ _)))) rfl o).trans freed

theorem portResume_aside (far : Aside o) (count : o ≠ Reg.bufHoldDiscardCnt) (p : Nat) :
    (s.portResume p).rget o = s.rget o := by
  have ⟨_, _, event, path⟩ := far
  unfold portResume
  dsimp only
  refine (gc_aside far).trans ?_
  refine List.foldlRecOn (motive := fun t : State => t.rget o = s.rget o) _ _ rfl fun t same c _ => ?_
  rw [pathLost_rget path event, bump_other _ _ _ event count, discardCopy_aside far, same]

theorem canEnter_rget (event : eventReg o = false) (count : ∀ c, o ≠ Reg.edgCanBusOffCnt c) (ch : Nat) (st : CanState) :
    (s.canEnter ch st).rget o = s.rget o := by
  unfold canEnter
  dsimp only
  split
  · rfl
  · refine (raiseLimited_keepsRegs _ _ _ _ _ o event).trans ?_
    split
    · exact bump_other _ _ o event (count ch)
    · rfl

theorem canRuns_rget (event : eventReg o = false) (count : ∀ c, o ≠ Reg.edgCanBusOffCnt c) (ch : Nat) :
    (s.canRuns ch).rget o = s.rget o := by
  unfold canRuns
  dsimp only
  split
  · exact canEnter_rget event count ..
  · split
    · exact canEnter_rget event count ..
    · rfl

theorem canMode_rget (event : eventReg o = false) (count : ∀ c, o ≠ Reg.edgCanBusOffCnt c) (ch : Nat) (m : XcvrMode)
    (pn : Bool) : (s.canMode ch m pn).rget o = s.rget o := by
  unfold canMode
  exact canRuns_rget event count ch

theorem xcvrOrder_rget (event : eventReg o = false) (count : ∀ c, o ≠ Reg.edgCanBusOffCnt c) (ch : Nat) (m : XcvrMode)
    (pn : Bool) (within : Nat) : (s.xcvrOrder ch m pn within).rget o = s.rget o := by
  unfold xcvrOrder
  dsimp only
  split
  · split
    · exact canMode_rget event count ..
    · rfl
  · split <;> rfl

theorem roleModes_rget (event : eventReg o = false) (count : ∀ c, o ≠ Reg.edgCanBusOffCnt c) :
    s.roleModes.rget o = s.rget o := by
  unfold roleModes
  dsimp only
  refine List.foldlRecOn (motive := fun t : State => t.rget o = s.rget o) _ _ ?_ fun t same ch _ => ?_
  · refine List.foldlRecOn (motive := fun t : State => t.rget o = s.rget o) _ _ rfl fun t same ch _ => ?_
    split
    · exact same
    · exact (xcvrOrder_rget event count ..).trans same
  · split
    · exact same
    · exact (xcvrOrder_rget event count ..).trans same

theorem pairMod_rget (s : State) (f : Pair → Pair) (o : Nat) : (s.pairMod f).rget o = s.rget o := rfl

/-! ### Keying (R493, R495, R497) -/

theorem pairUp_of (paired : s.pair.role ≠ .single) (up : s.datapathUp = true) : s.pairUp = true := by
  simp [pairUp, paired, up]

theorem datapathUp_run (up : s.datapathUp = true) : s.pwr.state = .run := by
  simp only [datapathUp, Bool.and_eq_true, beq_iff_eq] at up
  exact up.1

/-- While the datapath is up, waiting brings the clock to the time waited for. -/
theorem le_waitUntil_up (up : s.datapathUp = true) (due : Nat) : due ≤ (s.waitUntil due).clk :=
  (s.waitUntil_clk due (by rw [datapathUp_run up]; decide) (by rw [datapathUp_run up]; decide)).1

theorem helloSend_sends (s : State) : s.helloSend.pair =
    { s.pair with
      helloNonce := s.draw.1
      helloAt := s.clk
      helloFailed := false } ∧ s.helloSend.clk = s.clk ∧ ∃ b, Output.tongsUnit 5 b ∈ s.helloSend.out :=
  ⟨rfl, rfl, _, List.mem_append_right _ (List.mem_singleton.2 rfl)⟩

/-- The link as its keying begins. -/
def linkBegun (s : State) : State :=
  s.pairMod fun p =>
    { p with
      linkState := 1
      linkKey := le p.cfg 2 2
      syncSent := false
      syncActive := none
      syncPending := none
      joining := false
      syncFailed := false }

theorem linkStart_starts (up : s.pairUp = true) (down : s.pair.linkState = 0) (lanes : s.pair.lanes = 15)
    (port : s.quenched (portUnit 64) = false) : s.linkStart = s.linkBegun.helloSend := by
  unfold linkStart
  rw [if_neg (by simp [up, down, lanes, port])]
  rfl

theorem exec_tongsLinkUp (up : s.datapathUp = true) (port : s.quenched (portUnit 64) = false) :
    exec .tongsLinkUp s = .next (s.pairMod fun p => { p with lanes := 15 }).linkStart := by
  show Host.Outcome.next s.doTongsLinkUp = _
  rw [doTongsLinkUp, if_neg (by simp [up, port])]

theorem mirrorOff_pair (s : State) : s.mirrorOff.pair = s.pair := (Only.mirrorOff0 s).pair rfl

theorem linkStop_pair (s : State) : s.linkStop.pair =
    { s.pair with
      linkState := 0
      handover := none
      joining := false
      syncActive := none
      syncPending := none } := by
  unfold linkStop
  dsimp only
  split
  · rw [pairMod, setPair_pair, mirrorOff_pair]
  · rw [(Only.portStop0 ..).pair rfl, (Only.cutArriving0 ..).pair rfl, pairMod, setPair_pair, mirrorOff_pair]

theorem sessionKey_pair (derived : s.sessionKey h = some u) : u.pair = s.pair := (Only.sessionKey0 s h derived).pair rfl

/-- The link of a partner whose hello has been verified. -/
def helloAccepted (s : State) (h : Hello) : State :=
  (((s.rset Reg.pairPartnerId (BitVec.ofNat 32 h.forgeId)).pairMod fun p =>
    { p with
      linkState := 2
      partnerFw := h.fwVersion
      partnerStrap := h.strapSmith
      helloFailed := false
      missAt := s.clk
      tongsAt := 0 }).portResume 64).settle h

theorem exec_helloUnitReceived (up : s.pairUp = true) (keying : s.pair.linkState = 1) : exec (.helloUnitReceived h) s =
    .next (match s.sessionKey h with
      | none => s.keyingFail
      | some t => if h.verified = false then t.keyingFail else t.helloAccepted h) := by
  show Host.Outcome.next (s.doHelloUnitReceived h) = _
  unfold doHelloUnitReceived
  rw [if_neg (by simp [up, keying])]
  cases s.sessionKey h with
  | none => rfl
  | some t => cases h.verified <;> rfl

/-- The role that a hello settles (R493). -/
def settledRole (s : State) (h : Hello) : Role :=
  if s.pair.settled = true ∧ s.pair.role = .smith then .smith else if h.claims = 1 then .striker
  else if s.pair.strapSmith ≠ h.strapSmith then s.strapRole else if Config.forgeId.toNat < h.forgeId then .smith else .striker

theorem settle_pair (s : State) (h : Hello) : (s.settle h).pair.role = s.settledRole h ∧ (s.settle h).pair.settled = true ∧
    (s.settle h).pair.linkState = s.pair.linkState ∧ (s.settle h).pair.partnerFw = s.pair.partnerFw := by
  have roles : (s.settle h).pair = _ := (Only.roleModes0 _).pair rfl
  rw [roles]
  refine ⟨?_, rfl, rfl, rfl⟩
  unfold settledRole
  dsimp only [pairMod, setPair_pair]
  by_cases own : s.pair.settled = true ∧ s.pair.role = .smith
  · rw [if_pos own, if_pos (by simpa using own)]
  · rw [if_neg own, if_neg (by simpa using own)]
    have notOwn : (s.pair.settled && s.pair.role == .smith) = false := by simpa using own
    by_cases claims : h.claims = 1
    · rw [if_pos claims, if_pos (by simpa using claims)]
    · rw [if_neg claims, if_neg (by simpa using claims)]
      exact if_congr (by simp [notOwn, claims]) rfl rfl

theorem helloAccepted_rget (s : State) (h : Hello) :
    (s.helloAccepted h).rget Reg.pairPartnerId = BitVec.ofNat 32 h.forgeId := by
  have aside : Aside Reg.pairPartnerId := by unfold Aside; decide
  unfold helloAccepted settle
  dsimp only
  rw [roleModes_rget (by decide) (by intro c; unfold Reg.pairPartnerId Reg.edgCanBusOffCnt; omega), pairMod_rget,
    portResume_aside aside (by decide), pairMod_rget, rget_rset_same]

theorem helloAccepted_kept (s : State) (h : Hello) : (s.helloAccepted h).pair.linkState = 2 ∧
    (s.helloAccepted h).pair.partnerFw = h.fwVersion ∧ (s.helloAccepted h).pair.settled = true ∧
    (s.helloAccepted h).key = s.key ∧ (s.helloAccepted h).pair.role = s.settledRole h := by
  unfold helloAccepted
  obtain ⟨u, begun⟩ : ∃ u, (s.rset Reg.pairPartnerId (BitVec.ofNat 32 h.forgeId)).pairMod (fun p =>
    { p with
      linkState := 2
      partnerFw := h.fwVersion
      partnerStrap := h.strapSmith
      helloFailed := false
      missAt := s.clk
      tongsAt := 0 }) = u := ⟨_, rfl⟩
  have pair : (u.portResume 64).pair = u.pair := (Only.portResume0 ..).pair rfl
  have key : (u.portResume 64).key = u.key := (Only.portResume0 ..).key rfl
  obtain ⟨role, settled, link, fw⟩ := (u.portResume 64).settle_pair h
  rw [begun, link, fw, settled, role, (Only.settle0 ..).key rfl, key, settledRole, strapRole, pair, ← begun]
  exact ⟨rfl, rfl, rfl, rfl, rfl⟩

/-! ### The mirrored state (R500 to R502) -/

theorem fvLast_fvSet_same (s : State) (e v : Nat) : (s.fvSet e v).fvLast e = v := by
  unfold fvSet fvLast agetD
  dsimp only [setSec_sec]
  split
  · next zero => rw [aget_adel_same, zero]; rfl
  · rw [aget_aset_same]; rfl

theorem fvLast_fvSet_other {e k : Nat} (v : Nat) (other : k ≠ e) : (s.fvSet e v).fvLast k = s.fvLast k := by
  unfold fvSet fvLast agetD
  dsimp only [setSec_sec]
  split
  · rw [aget_adel_other _ other]
  · rw [aget_aset_other _ _ other]

theorem exec_mirrorMessageReceived (m : MirrorMsg) (tag : Bool) (up : s.pairUp = true) (keyed : 2 ≤ s.pair.linkState)
    (port : s.quenched (portUnit 64) = false) : exec (.mirrorMessageReceived m tag) s = .next (
      if tag = false then s.bump Reg.pairUnitErrCnt else if s.pair.linkState = 4 then s.applyMirror m else s) := by
  show Host.Outcome.next (s.doMirrorMessageReceived m tag) = _
  unfold doMirrorMessageReceived
  rw [if_neg (by simp [up, port]; omega)]
  cases tag <;> rfl

theorem mem_out_emit (s : State) (x : Output) : x ∈ (s.emit x).out := List.mem_append_right _ (List.mem_singleton.2 rfl)

/-- What every change of network management leaves of the partner's request. -/
theorem nmEnter_partnerReq (s : State) (st : NmState) : (s.nmEnter st).nm.partnerReq = s.nm.partnerReq := by
  by_cases same : s.nm.state = st
  · rw [nmEnter_same same]
  · obtain ⟨log, pns, entered⟩ := nmEnter_nm same
    rw [entered]
    rfl

theorem nmEval_partnerReq (s : State) : s.nmEval.nm.partnerReq = s.nm.partnerReq := by
  have mirrored : s.nmMirror.nm.partnerReq = s.nm.partnerReq := by rw [(Only.nmMirror0 s).nm rfl]
  unfold nmEval
  split
  · split
    · exact mirrored
    · exact s.nmEnter_partnerReq _
  · split
    · exact s.nmEnter_partnerReq _
    · exact mirrored
  · exact mirrored

theorem nmEvent_partnerReq (s : State) (cause : Nat) (b : Option Nat) (src : Nat) :
    (s.nmEvent cause b src).nm.partnerReq = s.nm.partnerReq := by
  unfold nmEvent
  split
  · split
    · rfl
    · unfold sleepAbort
      dsimp only
      rw [nmEnter_partnerReq, (Only.raise0 ..).nm rfl, (Only.bump0 ..).nm rfl]
      rfl
  · rfl
  · rfl

/-- The partner's network state is taken, and acted on. -/
theorem applyMirror_nm (s : State) (st pn : Nat) (req : Bool) : (s.applyMirror (.nm st pn req)).pair.partnerNm = st ∧
    (s.applyMirror (.nm st pn req)).nm.partnerReq = req := by
  unfold applyMirror
  dsimp only
  split
  · rw [(Only.nmEvent0 ..).pair rfl, nmEvent_partnerReq]
    exact ⟨rfl, rfl⟩
  · rw [(Only.nmEval0 _).pair rfl, nmEval_partnerReq]
    exact ⟨rfl, rfl⟩

theorem applyMirror_journal (b : List Byte) (memory : s.quenched Dom.memory = false) :
    (le b 0 4, b) ∈ (s.applyMirror (.journal b)).pair.partnerRing ∧
      Output.tongsUnit 4 (leBytes 4 (le b 0 4)) ∈ (s.applyMirror (.journal b)).out := by
  show _ ∈ (s.partnerEntry b).pair.partnerRing ∧ _ ∈ (s.partnerEntry b).out
  unfold partnerEntry
  rw [if_neg (by simp [memory])]
  exact ⟨List.mem_cons_self, mem_out_emit _ _⟩

/-! ### Blocks for a joining device (R512) -/

theorem exec_syncBlockReceived (i : SyncItem) (up : s.pairUp = true) (port : s.quenched (portUnit 64) = false) :
    exec (.syncBlockReceived i) s = .next (
      if s.pair.linkState ≠ 3 then
        (match i with
        | .finish _ => if (s.pair.linkState = 2 ∧ s.pair.role = .smith) ∨ s.pair.linkState = 4 then s.syncDone else s
        | .request => if s.pair.linkState = 4 then s.syncBlocks else s
        | _ => s)
      else if (s.pair.syncFailed || s.pair.joining) = true then s
      else match i with
        | .handle h st t b => s.syncHandle h st t b
        | .mirror m => s.applyMirror m
        | .finish t => s.syncFinish t
        | .request => s) := by
  show Host.Outcome.next (s.doSyncBlockReceived i) = _
  unfold doSyncBlockReceived
  refine congrArg Host.Outcome.next ((if_neg ?_).trans rfl)
  simp [up, port]

/-- At LINK_STATE 3 every item is applied until the resynchronisation has failed. -/
theorem exec_syncBlockReceived_joining (i : SyncItem) (up : s.pairUp = true) (port : s.quenched (portUnit 64) = false)
    (link : s.pair.linkState = 3) (good : s.pair.syncFailed = false) (free : s.pair.joining = false) :
    exec (.syncBlockReceived i) s = .next (match i with
      | .handle h st t b => s.syncHandle h st t b
      | .mirror m => s.applyMirror m
      | .finish t => s.syncFinish t
      | .request => s) := by
  rw [exec_syncBlockReceived i up port, if_neg (by simp [link]), if_neg (by simp [good, free])]

theorem syncFail_fails (link : s.pair.linkState = 3) (good : s.pair.syncFailed = false) :
    s.syncFail.pair.syncFailed = true ∧ s.syncFail.cal = s.cal := by
  unfold syncFail
  rw [if_neg (by simp [link, good]), (Only.raise0 ..).pair rfl, (Only.raise0 ..).cal rfl]
  exact ⟨rfl, rfl⟩

theorem syncHandle_fails {n st x : Nat} {b : List Byte} (bad : loadChecks b b.length ≠ none ∨ 3 < n)
    (idle : (s.handle n).state ≠ .active) : s.syncHandle n st x b = s.syncFail := by
  unfold syncHandle
  extract_lets same live
  have other : same = false := by simp [same, idle]
  rw [other, if_neg (by simp)]
  split
  · rfl
  · next fit =>
    have checked : loadChecks b b.length ≠ none := bad.resolve_right fun high => fit (by simp [high])
    split
    · rfl
    · contradiction

theorem syncHandle_loads {n x : Nat} {b : List Byte} (named : n ≤ 3)
    (free : (s.handle n).state = .empty ∨ (s.handle n).state = .loaded ∨ (s.handle n).state = .admitted)
    (memory : s.quenched Dom.memory = false) (checked : loadChecks b b.length = none) :
    s.syncHandle n 1 x b = s.setHandle n { state := .loaded, img := some (parseImage b) } := by
  unfold syncHandle
  extract_lets same live
  have dead : live = false := by
    obtain h | h | h := free <;> simp [live, h]
  rw [if_neg (by simp), if_neg (by simp [dead, memory, named]), checked]
  rfl

end State

/-- Settles O55: each command is the one transition of its state of the link; what a hello settles is `settledRole`, and
what a mirrored item does is `applyMirror`. -/
theorem pairLinkAndMirror : Obligations.PairLinkAndMirror := by
  intro s up
  refine ⟨fun port => ⟨?single, ?starts⟩, ?down, fun paired keying => ⟨?timeout, ?retry, fun h => ⟨?noKey, ?bad, ?good⟩⟩,
    fun m paired keyed port => ⟨?tag, ?off, ?mirror⟩, fun paired port => ⟨?still, ?noRequest, ?request, ?finish, ?joining⟩⟩
  case single =>
    intro single
    rw [State.exec_tongsLinkUp up port]
    exact congrArg Host.Outcome.next (if_pos (by simp [State.pairUp, State.pairMod, single]))
  case starts =>
    intro paired off
    refine ⟨_, State.exec_tongsLinkUp up port, ?_⟩
    have started := State.linkStart_starts (s := s.pairMod fun p => { p with lanes := 15 }) (State.pairUp_of paired up) off rfl port
    rw [started]
    obtain ⟨pair, -, sent⟩ := (s.pairMod fun p => { p with lanes := 15 }).linkBegun.helloSend_sends
    rw [pair]
    exact ⟨rfl, rfl, rfl, rfl, rfl, sent⟩
  case down =>
    intro lane
    refine ⟨s.doTongsLinkDown lane, rfl, ?_⟩
    unfold State.doTongsLinkDown
    dsimp only
    split
    · rw [(Only.raise0 ..).pair rfl, State.linkStop_pair]
      exact ⟨rfl, rfl, rfl, fun _ => ⟨rfl, rfl⟩⟩
    · next none =>
      have zero : s.pair.linkState = 0 := by simpa using none
      exact ⟨rfl, rfl, zero, fun up => absurd zero up⟩
  case timeout =>
    intro waiting
    exact congrArg Host.Outcome.next (if_neg (by simp [State.pairUp_of paired up, keying, waiting]))
  case retry =>
    intro failed
    have again : exec .keyingRetry s = .next (s.waitUntil (s.pair.helloAt + 100000000)).helloSend :=
      congrArg Host.Outcome.next (if_neg (by simp [State.pairUp_of paired up, keying, failed]))
    have late := State.le_waitUntil_up up (s.pair.helloAt + 100000000)
    have same : (s.waitUntil (s.pair.helloAt + 100000000)).pair = s.pair := waitUntil_pair ..
    refine ⟨_, again, ?_⟩
    generalize s.waitUntil (s.pair.helloAt + 100000000) = u at *
    obtain ⟨pair, clk, sent⟩ := u.helloSend_sends
    rw [pair, clk]
    exact ⟨rfl, rfl, late, (congrArg Pair.linkState same).trans keying, sent⟩
  case noKey =>
    intro none
    rw [State.exec_helloUnitReceived (State.pairUp_of paired up) keying, none]
  case bad =>
    intro u derived unverified
    rw [State.exec_helloUnitReceived (State.pairUp_of paired up) keying, derived]
    exact congrArg Host.Outcome.next (if_pos unverified)
  case good =>
    intro u derived verified
    refine ⟨u.helloAccepted h, ?_, ?_⟩
    · rw [State.exec_helloUnitReceived (State.pairUp_of paired up) keying, derived]
      exact congrArg Host.Outcome.next (if_neg (by simp [verified]))
    · obtain ⟨link, fw, settled, key, role⟩ := u.helloAccepted_kept h
      rw [State.settledRole, State.strapRole, State.sessionKey_pair derived] at role
      exact ⟨link, u.helloAccepted_rget h, fw, settled, State.keySlot_of_key key 1015, role⟩
  case tag => exact State.exec_mirrorMessageReceived m false (State.pairUp_of paired up) keyed port
  case off =>
    intro partial_
    rw [State.exec_mirrorMessageReceived m true (State.pairUp_of paired up) keyed port]
    exact congrArg Host.Outcome.next (if_neg partial_)
  case mirror =>
    intro full
    refine ⟨s.applyMirror m, ?_, ?_, ?_, ?_, ?_, ?_, ?_, ?_⟩
    · rw [State.exec_mirrorMessageReceived m true (State.pairUp_of paired up) keyed port]
      exact congrArg Host.Outcome.next (if_pos full)
    · rintro e v rfl
      exact ⟨State.fvLast_fvSet_same .., State.mem_out_emit _ _, fun k other => State.fvLast_fvSet_other _ other⟩
    · rintro fn n rfl
      exact ⟨aget_aset_same .., State.mem_out_emit _ _⟩
    · rintro b rfl memory
      exact State.applyMirror_journal b memory
    · rintro n rfl
      rfl
    · rintro st pn req rfl
      exact s.applyMirror_nm st pn req
    · rintro op b img rfl
      rfl
    · rintro fn seqs rfl
      rfl
  case still =>
    intro i other notFinish notRequest
    rw [State.exec_syncBlockReceived i (State.pairUp_of paired up) port, if_pos other]
    cases i with
    | finish t => exact absurd rfl (notFinish t)
    | request => exact absurd rfl notRequest
    | _ => rfl
  case noRequest =>
    intro partial_
    rw [State.exec_syncBlockReceived _ (State.pairUp_of paired up) port]
    dsimp only
    rw [if_neg partial_]
    split
    · rfl
    · split <;> rfl
  case request =>
    intro full
    rw [State.exec_syncBlockReceived _ (State.pairUp_of paired up) port, if_pos (by simp [full])]
    exact congrArg Host.Outcome.next (if_pos full)
  case finish =>
    intro x ended
    have notJoining : s.pair.linkState ≠ 3 := by omega
    rw [State.exec_syncBlockReceived _ (State.pairUp_of paired up) port, if_pos notJoining]
    exact congrArg Host.Outcome.next (if_pos ended)
  case joining =>
    intro link good free
    have applied (i : SyncItem) := State.exec_syncBlockReceived_joining i (State.pairUp_of paired up) port link good free
    refine ⟨fun m => applied _, fun n st x b bad idle => ?_, fun n x b named free memory checked => ?_, fun x none => ?_⟩
    · refine ⟨s.syncFail, ?_, State.syncFail_fails link good⟩
      rw [applied]
      exact congrArg Host.Outcome.next (State.syncHandle_fails bad idle)
    · rw [applied]
      exact congrArg Host.Outcome.next (State.syncHandle_loads named free memory checked)
    · rw [applied]
      refine congrArg Host.Outcome.next ?_
      unfold State.syncFinish
      rw [none]

end Sys2Proof.Machine
end

section
/-! Roles and the loss of the partner: heartbeats (R503 to R508), domain following (R507), votes and clashes (R509, R510) and
the commands of the pair (R513 to R517). -/

namespace Sys2Proof.Machine

open State

namespace State

variable {s t u : State}

/-! ### What a heartbeat has told, and the link -/

/-- The partner that was heard, when, and with which strap, stand. -/
structure HeardAs (s t : State) : Prop where
  partner : t.rget Reg.pairPartnerId = s.rget Reg.pairPartnerId
  alive : t.pair.alive = s.pair.alive
  lastBeat : t.pair.lastBeat = s.pair.lastBeat
  strap : t.pair.partnerStrap = s.pair.partnerStrap

/-- The role and the state of the link stand besides. -/
structure LinkedAs (s t : State) : Prop extends HeardAs s t where
  role : t.pair.role = s.pair.role
  link : t.pair.linkState = s.pair.linkState

namespace HeardAs

theorem refl (s : State) : s.HeardAs s := ⟨rfl, rfl, rfl, rfl⟩

theorem trans (h : s.HeardAs t) (k : t.HeardAs u) : s.HeardAs u :=
  ⟨k.partner.trans h.partner, k.alive.trans h.alive, k.lastBeat.trans h.lastBeat, k.strap.trans h.strap⟩

theorem foldl {α : Type} {f : State → α → State} (h : ∀ (s : State) x, s.HeardAs (f s x)) (l : List α) (s : State) :
    s.HeardAs (l.foldl f s) :=
  List.foldlRecOn (motive := fun t : State => s.HeardAs t) l f (refl s) fun t heard x _ => heard.trans (h t x)

/-- An operation that leaves the pair. -/
theorem of_pair (pair : t.pair = s.pair) (partner : t.rget Reg.pairPartnerId = s.rget Reg.pairPartnerId) : s.HeardAs t :=
  ⟨partner, by rw [pair], by rw [pair], by rw [pair]⟩

end HeardAs

namespace LinkedAs

theorem refl (s : State) : s.LinkedAs s := ⟨.refl s, rfl, rfl⟩

theorem trans (h : s.LinkedAs t) (k : t.LinkedAs u) : s.LinkedAs u :=
  ⟨h.toHeardAs.trans k.toHeardAs, k.role.trans h.role, k.link.trans h.link⟩

theorem foldl {α : Type} {f : State → α → State} (h : ∀ (s : State) x, s.LinkedAs (f s x)) (l : List α) (s : State) :
    s.LinkedAs (l.foldl f s) :=
  List.foldlRecOn (motive := fun t : State => s.LinkedAs t) l f (refl s) fun t linked x _ => linked.trans (h t x)

theorem of_pair (pair : t.pair = s.pair) (partner : t.rget Reg.pairPartnerId = s.rget Reg.pairPartnerId) : s.LinkedAs t :=
  ⟨.of_pair pair partner, by rw [pair], by rw [pair]⟩

/-- An operation that leaves the pair and the registers. -/
theorem of_only {m : Nat} (h : Only m s t) (pair : m.testBit 19 = false) (regs : m.testBit 0 = false) : s.LinkedAs t :=
  of_pair (h.pair pair) (rget_of_only h regs _)

theorem rset {o : Nat} (v : Word) (other : o ≠ Reg.pairPartnerId) : s.LinkedAs (s.rset o v) :=
  of_pair rfl (rget_rset_other _ _ other.symm)

theorem setFr (s : State) (x : Frames) : s.LinkedAs (s.setFr x) := of_pair rfl rfl

theorem setCal (s : State) (x : Cal) : s.LinkedAs (s.setCal x) := of_pair rfl rfl

theorem raise (code arg : Nat) : s.LinkedAs (s.raise code arg) :=
  of_pair ((Only.raise0 ..).pair rfl) (raise_keepsRegs _ _ _ _ rfl)

theorem bumpBy {o : Nat} (n : Nat) (other : o ≠ Reg.pairPartnerId) : s.LinkedAs (s.bumpBy o n) :=
  of_pair ((Only.bumpBy0 ..).pair rfl) (bumpBy_other _ _ _ _ rfl other.symm)

theorem bump {o : Nat} (other : o ≠ Reg.pairPartnerId) : s.LinkedAs (s.bump o) := bumpBy 1 other

end LinkedAs

/-! ### Domain following (R507) -/

theorem wheelTo_linked (s : State) (pipe c : Nat) : s.LinkedAs (s.wheelTo pipe c).2 := by
  have slipped (t : State) (n : Nat) : t.LinkedAs (if n = 0 then t else t.bumpBy Reg.calSlotSlipCnt n) := by
    split
    · exact .refl t
    · exact .bumpBy n (by decide)
  unfold wheelTo
  extract_lets next
  split
  · exact .refl s
  · split
    · exact .setFr s _
    · exact (LinkedAs.setFr s _).trans (slipped _ _)

theorem wheelsNow_linked (s : State) : s.LinkedAs s.wheelsNow := (wheelTo_linked ..).trans (wheelTo_linked ..)

/-- The end of an overlap moves with the domain of its image. -/
def overlapRephased (s : State) (d : Nat) : State :=
  match s.drainingImage with
  | none => s
  | some i =>
    if i.domain ≠ d ∨ s.cal.oldEnd.any (s.drainingHeld i) then s
    else s.setCal { s.cal with oldEnd := some (s.clk + i.hyper - cyclePos (s.domNs d) (imageBase i) i.hyper) }

/-- The running image resumes at a boundary of its own. -/
def imageRephased (s : State) (i : Image) (d : Nat) : State :=
  if s.cal.rephase then s
  else s.setCal { s.cal with
    rephase := true, rephaseAt := s.clk
    cycleEnd := s.clk + i.hyper - cyclePos (s.domNs d) (imageBase i) i.hyper }

theorem rephaseNow_eq (s : State) (d : Nat) : s.rephaseNow d = match ((s.listsRephase d).overlapRephased d).runningImage with
    | none => (s.listsRephase d).overlapRephased d
    | some i => if i.domain ≠ d then (s.listsRephase d).overlapRephased d
      else ((((s.listsRephase d).overlapRephased d).wheelsNow).imageRephased i d).raise 0x3006 d := rfl

theorem rephaseNow_linked (s : State) (d : Nat) : s.LinkedAs (s.rephaseNow d) := by
  have lists : s.LinkedAs (s.listsRephase d) := .of_only (Only.listsRephase0 s d) rfl rfl
  have overlap (t : State) : t.LinkedAs (t.overlapRephased d) := by
    unfold overlapRephased
    split
    · exact .refl t
    · split
      · exact .refl t
      · exact .setCal t _
  have image (t : State) (i : Image) : t.LinkedAs (t.imageRephased i d) := by
    unfold imageRephased
    split
    · exact .refl t
    · exact .setCal t _
  have begun := lists.trans (overlap _)
  rw [rephaseNow_eq]
  split
  · exact begun
  · split
    · exact begun
    · exact ((begun.trans (wheelsNow_linked _)).trans (image ..)).trans (.raise ..)

theorem syncFail_linked (s : State) : s.LinkedAs s.syncFail := by
  unfold syncFail
  split
  · exact .refl s
  · exact LinkedAs.trans (t := s.setPair { s.pair with syncFailed := true, joining := false })
      ⟨⟨rfl, rfl, rfl, rfl⟩, rfl, rfl⟩ (.raise ..)

theorem pendingDrop_linked (s : State) : s.LinkedAs s.pendingDrop := by
  have regs (t : State) (id due : Nat) : t.LinkedAs (t.pendingRegs id due) :=
    (((LinkedAs.rset _ (by decide)).trans (.rset _ (by decide))).trans (.rset _ (by decide))).trans (.rset _ (by decide))
  unfold pendingDrop
  refine (LinkedAs.trans ?_ (LinkedAs.setCal _ _)).trans (regs _ 0 0)
  split
  · exact ((LinkedAs.setCal s _).trans (.setFr _ _)).trans (.setCal _ _)
  · exact .refl s

theorem activationMissed_linked (s : State) : s.LinkedAs s.activationMissed := by
  unfold activationMissed
  split
  · exact .refl s
  · next h i _ =>
    have back : s.LinkedAs (s.setHandle h { state := .admitted, img := some i }) := .setCal s _
    exact ((back.trans (pendingDrop_linked _)).trans (.raise ..)).trans (syncFail_linked _)

theorem timeStepped_linked (s : State) (d : Nat) (step : Int) : s.LinkedAs (s.timeStepped d step) := by
  have missed (t : State) : t.LinkedAs (match t.pendingImage with
      | none => t
      | some (_, i) => if i.domain = d ∧ t.cal.pendingT < t.domNs d then t.activationMissed else t) := by
    split
    · exact .refl t
    · split
      · exact activationMissed_linked t
      · exact .refl t
  unfold timeStepped
  refine LinkedAs.trans ?_ (missed _)
  split
  · split
    · exact .setCal s _
    · exact .refl s
  · exact .refl s

theorem domMod_linked (s : State) (i : Nat) (f : Domain → Domain) : s.LinkedAs (s.domMod i f) :=
  .of_only (Only.domMod0 s i f) rfl rfl

theorem stepDomain_linked (s : State) (i : Nat) (o : Int) (cause : Nat) : s.LinkedAs (s.stepDomain i o cause) :=
  (((LinkedAs.raise _ _).trans (rephaseNow_linked _ i)).trans (domMod_linked _ i _)).trans (timeStepped_linked _ i o)

theorem refuseStep_linked (s : State) (i : Nat) (o : Int) : s.LinkedAs (s.refuseStep i o) := by
  have limited (t : State) (last : Option Nat) (period code arg : Nat) : t.LinkedAs (t.raiseLimited last period code arg).1 :=
    .of_pair ((Only.raiseLimited0 ..).pair rfl) (raiseLimited_keepsRegs _ _ _ _ _ _ rfl)
  unfold refuseStep
  refine (LinkedAs.trans (.bump ?_) (limited _ _ _ _ _)).trans (domMod_linked _ i _)
  unfold Reg.timDomJumpRefusedCnt Reg.pairPartnerId
  omega

theorem correct_linked (s : State) (i : Nat) (o : Int) : s.LinkedAs (s.correct i o).2 := by
  unfold correct
  dsimp only
  refine (domMod_linked s i fun d => { d with offset := o, newSource := false, resumed := false }).trans ?_
  split
  · exact stepDomain_linked ..
  · split
    · exact stepDomain_linked ..
    · split
      · exact stepDomain_linked ..
      · split
        · exact domMod_linked ..
        · exact refuseStep_linked ..

theorem follow_linked (s : State) (offs : List Int) : s.LinkedAs (s.follow offs) := by
  unfold follow
  refine .foldl (fun t i => ?_) _ s
  split
  · exact .refl t
  · split
    · exact .refl t
    · exact LinkedAs.trans (t := t.pairMod fun p => { p with followAt := aset p.followAt i t.clk })
        ⟨⟨rfl, rfl, rfl, rfl⟩, rfl, rfl⟩ ((domMod_linked ..).trans (correct_linked ..))

/-! ### Completions -/

theorem writeCompletion_linked (s : State) (c : Cmd) : s.LinkedAs (s.writeCompletion c) := by
  refine .of_pair ((Only.writeCompletion0 s c).pair rfl) ?_
  have other : Reg.pairPartnerId ≠ sqReg (Reg.mbxCqProd 0) c.host c.queue := by
    unfold Reg.pairPartnerId sqReg Reg.mbxCqProd
    split <;> omega
  unfold writeCompletion
  split
  · exact rget_of_only (Only.svcSend0 ..) rfl _
  · dsimp only
    split
    · split
      · rw [signal_rget, hostMem_rget, rget_rset_other _ _ other, mwrite_rget]
      · rw [hostMem_rget, rget_rset_other _ _ other, mwrite_rget]
    · rw [mwrite_rget, rget_rset_other _ _ other, mwrite_rget]

theorem sessionRestart_linked (s : State) (c : Cmd) : s.LinkedAs (s.sessionRestart c) := by
  unfold sessionRestart
  split
  · refine LinkedAs.trans (.rset _ ?_) (.rset _ ?_)
    · unfold Reg.mbxHostSession Reg.pairPartnerId
      omega
    · unfold Reg.mbxHostSeq Reg.pairPartnerId
      omega
  · exact .refl s

theorem postLoop_linked (sel : Cmd → Bool) (n : Nat) (s : State) : s.LinkedAs (postLoop sel n s) := by
  induction n generalizing s with
  | zero => exact .refl s
  | succ n ih =>
    rw [postLoop]
    split
    · exact .refl s
    · next c _ =>
      have written : s.LinkedAs (if s.canPost c.host = true then s.writeCompletion c else s) := by
        split
        · exact writeCompletion_linked s c
        · exact .refl s
      have retired (t : State) : t.LinkedAs (t.retire c) := .of_only (Only.retire0 t c) rfl rfl
      have due (t : State) (b : Boot) : t.LinkedAs (t.setBoot b) := .of_pair rfl rfl
      exact (((written.trans (retired _)).trans (sessionRestart_linked _ c)).trans (due _ _)).trans (ih _)

theorem finishCmd_linked (s : State) (i st r : Nat) (d : List Byte) : s.LinkedAs (s.finishCmd i st r d) := by
  cases found : s.cmdOf i with
  | none =>
    rw [finishCmd, found]
    exact .refl s
  | some c =>
    rw [finishCmd_eq found]
    refine LinkedAs.trans ?_ (postLoop_linked _ _ _)
    have epoch : s.LinkedAs (s.epochEnd c.opcode st) := by
      unfold epochEnd
      split
      · exact .rset _ (by decide)
      · exact .refl s
    have stored (t : State) (x : Cmd) : t.LinkedAs (t.endStore i x) := .of_pair rfl rfl
    have mirrored (t : State) (x : Cmd) : t.LinkedAs (t.endMirror x) := by
      unfold endMirror
      split
      · exact .of_pair rfl rfl
      · exact .refl t
    have alone (t : State) (x : Cmd) : t.LinkedAs (t.endAlone x) := by
      unfold endAlone
      split
      · exact .bump (by decide)
      · exact .refl t
    have stalled (t : State) (x : Cmd) : t.LinkedAs (t.endStall i x) := by
      unfold endStall
      split
      · exact LinkedAs.trans (.bump (by decide)) (.raise ..)
      · exact .refl t
    exact (((epoch.trans (stored ..)).trans (mirrored ..)).trans (alone ..)).trans (stalled ..)

theorem roleDone_linked (s : State) : s.LinkedAs s.roleDone := .foldl (fun t i => finishCmd_linked t i ..) _ s

/-! ### Roles change hands (R506, R515) -/

theorem roleModes_linked (s : State) : s.LinkedAs s.roleModes :=
  .of_pair ((Only.roleModes0 s).pair rfl)
    (roleModes_rget rfl (by intro c; unfold Reg.pairPartnerId Reg.edgCanBusOffCnt; omega))

theorem skipAhead_pair (s : State) : s.skipAhead.pair = s.pair := (Only.skipAhead0 s).pair rfl

theorem skipAhead_linked (s : State) : s.LinkedAs s.skipAhead := .of_only (Only.skipAhead0 s) rfl rfl

theorem takeover_pair (s : State) (cause : Nat) : (s.takeover cause).pair =
    { s.pair with
      role := .smith
      settled := true
      acting := true
      handover := none } := by
  unfold takeover
  dsimp only
  rw [(Only.raise0 ..).pair rfl, (Only.bump0 ..).pair rfl, (Only.roleModes0 _).pair rfl, skipAhead_pair]
  rfl

theorem takeover_heard (s : State) (cause : Nat) : s.HeardAs (s.takeover cause) := by
  have begun : s.HeardAs (s.pairMod fun p => { p with role := .smith, settled := true, acting := true, handover := none }) :=
    ⟨rfl, rfl, rfl, rfl⟩
  exact begun.trans ((((skipAhead_linked _).trans (roleModes_linked _)).trans (.bump (by decide))).trans (.raise ..)).toHeardAs

theorem changeRole_pair (s : State) (r : Role) : (s.changeRole r).pair =
    { s.pair with
      role := r
      settled := true
      acting := false } := by
  unfold changeRole
  dsimp only
  rw [(Only.roleModes0 _).pair rfl]
  split
  · exact skipAhead_pair _
  · rfl

theorem changeRole_heard (s : State) (r : Role) : s.HeardAs (s.changeRole r) := by
  have begun : s.HeardAs (s.pairMod fun p => { p with role := r, settled := true, acting := false }) := ⟨rfl, rfl, rfl, rfl⟩
  refine begun.trans (LinkedAs.trans ?_ (roleModes_linked _)).toHeardAs
  split
  · exact skipAhead_linked _
  · exact .refl _

/-! ### What a heartbeat brings (R503 to R508, R512) -/

theorem missCount_linked (s : State) : s.LinkedAs s.missCount := by
  unfold missCount
  split
  · exact .refl s
  · exact LinkedAs.trans (.bumpBy _ (by decide)) ⟨⟨rfl, rfl, rfl, rfl⟩, rfl, rfl⟩

theorem beatCommit_linked (s : State) (h : Heartbeat) : s.LinkedAs (s.beatCommit h) :=
  .of_only (Only.beatCommit0 s h) rfl rfl

theorem emit_linked (s : State) (x : Output) : s.LinkedAs (s.emit x) := .of_pair rfl rfl

theorem emits_linked {α : Type} (f : State → α → Output) (l : List α) (s : State) :
    s.LinkedAs (l.foldl (fun s x => s.emit (f s x)) s) := .foldl (fun t x => emit_linked t (f t x)) l s

theorem syncBlocks_linked (s : State) : s.LinkedAs s.syncBlocks := by
  have told (t : State) : t.LinkedAs (t.pairMod fun p => { p with syncSent := true }) := ⟨⟨rfl, rfl, rfl, rfl⟩, rfl, rfl⟩
  have gap (t : State) (n : Nat) : t.LinkedAs (if 0 < n then t.emit (.mirror (.journalGap n)) else t) := by
    split
    · exact emit_linked ..
    · exact .refl t
  unfold syncBlocks
  refine LinkedAs.trans ?_ (told _)
  refine LinkedAs.trans ?_ (emits_linked (fun _ (e : JEntry) => .mirror (.journal e.bytes)) _ _)
  refine LinkedAs.trans ?_ (gap _ _)
  refine LinkedAs.trans ?_ (emit_linked _ _)
  refine LinkedAs.trans ?_ (emits_linked (fun _ (x : Nat × Frer) => .mirror (.generation x.1 x.2.next)) _ _)
  refine LinkedAs.trans ?_ (emits_linked (fun _ (x : Nat × Frer) => .mirror (.recovery x.1 x.2.seen.reverse)) _ _)
  refine LinkedAs.trans ?_ (emits_linked (fun _ (x : Nat × Nat) => .mirror (.freshness x.1 x.2)) _ _)
  exact emits_linked (fun s (h : Nat × Handle) => .tongsUnit 6 (leBytes 1 h.1 ++ leBytes 1 (handleCode h.2.state) ++
    leBytes 8 s.cal.pendingT ++ (h.2.img.map (·.bytes)).getD [])) _ s

theorem beatRole_heard (s : State) (role : Nat) : s.HeardAs (s.beatRole role) := by
  have ended (t : State) : t.HeardAs (t.pairMod fun p => { p with handover := none }) := ⟨rfl, rfl, rfl, rfl⟩
  unfold beatRole
  dsimp only
  split
  · split
    · exact ⟨rfl, rfl, rfl, rfl⟩
    · split
      · exact (syncBlocks_linked s).toHeardAs
      · exact .refl s
  · split
    · split
      · split
        · exact .refl s
        · exact ((changeRole_heard s _).trans (ended _)).trans (roleDone_linked _).toHeardAs
      · split
        · exact ended s
        · exact .refl s
    · exact .refl s

/-- A striker on a keyed link joins a smith. -/
theorem beatRole_joins {role : Nat} (keyed : s.pair.linkState = 2) (striker : s.pair.role = .striker) (smith : role = 1) :
    (s.beatRole role).pair.linkState = 3 ∧ (s.beatRole role).pair.role = .striker := by
  have joined : s.beatRole role = s.pairMod fun p => { p with linkState := 3 } := by
    unfold beatRole
    dsimp only
    rw [if_pos keyed, if_pos (by rw [striker]; exact ⟨rfl, smith⟩)]
  rw [joined]
  exact ⟨rfl, striker⟩

/-- A Tongs heartbeat before what it says of the role. -/
def beatTaken (s : State) (h : Heartbeat) : State :=
  let s := s.missCount
  let offs := (List.range 4).map fun i => if (s.domain i).state = .disabled then 0 else h.offsets.getD i 0
  let s := s.pairMod fun p => { p with missAt := s.clk, partnerNm := h.nmState, offsets := offs.map (satSigned 32) }
  (s.follow offs).beatCommit h

theorem tongsBeatIn_eq (s : State) (h : Heartbeat) : s.tongsBeatIn h = (s.beatTaken h).beatRole h.role := rfl

theorem beatTaken_linked (s : State) (h : Heartbeat) : s.LinkedAs (s.beatTaken h) := by
  unfold beatTaken
  refine LinkedAs.trans (LinkedAs.trans ?_ (follow_linked _ _)) (beatCommit_linked _ h)
  exact (missCount_linked s).trans ⟨⟨rfl, rfl, rfl, rfl⟩, rfl, rfl⟩

/-- The partner has been heard. -/
def heard (s : State) (h : Heartbeat) : State :=
  let s := s.rset Reg.pairPartnerId (BitVec.ofNat 32 h.forgeId)
  s.pairMod fun p => { p with alive := true, lastBeat := s.clk, linkAtBeat := p.linkState, partnerStrap := h.strapped }

theorem heard_kept (s : State) (h : Heartbeat) : (s.heard h).rget Reg.pairPartnerId = BitVec.ofNat 32 h.forgeId ∧
    (s.heard h).pair.lastBeat = s.clk ∧ (s.heard h).pair.partnerStrap = h.strapped ∧ (s.heard h).pair.alive = true ∧
    (s.heard h).pair.role = s.pair.role ∧ (s.heard h).pair.linkState = s.pair.linkState :=
  ⟨rget_rset_same .., rfl, rfl, rfl, rfl, rfl⟩

/-- What a heartbeat carries on its path. -/
def beatCarried (s : State) (h : Heartbeat) : State := if h.tongs then s.tongsBeatIn h else s

theorem beatCarried_heard (s : State) (h : Heartbeat) : s.HeardAs (s.beatCarried h) := by
  unfold beatCarried
  split
  · rw [tongsBeatIn_eq]
    exact (beatTaken_linked s h).toHeardAs.trans (beatRole_heard _ _)
  · exact .refl s

/-- A striker takes over at once at the yield of its smith. -/
def beatYield (s : State) (h : Heartbeat) : State :=
  if h.yields && h.role == 1 && s.pair.role == .striker then (s.takeover 3).roleDone else s

theorem beatYield_heard (s : State) (h : Heartbeat) : s.HeardAs (s.beatYield h) := by
  unfold beatYield
  split
  · exact (takeover_heard s 3).trans (roleDone_linked _).toHeardAs
  · exact .refl s

theorem roleDone_pair (s : State) : s.roleDone.pair = s.pair := (Only.roleDone0 s).pair rfl

theorem beatYield_takes {h : Heartbeat} (yields : h.yields = true) (smith : h.role = 1) (striker : s.pair.role = .striker) :
    (s.beatYield h).pair.role = .smith ∧ (s.beatYield h).pair.acting = true := by
  unfold beatYield
  rw [if_pos (by simp [yields, smith, striker]), roleDone_pair, takeover_pair]
  exact ⟨rfl, rfl⟩

theorem exec_heartbeatReceived (h : Heartbeat) (up : s.pairUp = true) (other : h.forgeId ≠ Config.forgeId.toNat)
    (partner : s.partnerId = 0 ∨ s.partnerId = h.forgeId)
    (path : h.tongs = true → 2 ≤ s.pair.linkState ∧ s.quenched (portUnit 64) = false) :
    exec (.heartbeatReceived h) s = .next (((s.heard h).beatCarried h).beatYield h) := by
  have known : (s.partnerId != 0 && s.partnerId != h.forgeId) = false := by
    obtain none | same := partner
    · simp [none]
    · simp [same]
  have open_ : (h.tongs && (decide (s.pair.linkState < 2) || s.quenched (portUnit 64))) = false := by
    cases tongs : h.tongs
    · rfl
    · obtain ⟨keyed, port⟩ := path tongs
      simp [port, Nat.not_lt.2 keyed]
  show Host.Outcome.next (s.doHeartbeatReceived h) = _
  unfold doHeartbeatReceived
  rw [if_neg (by rw [known, open_]; simp [up, other])]
  rfl

/-! ### Heartbeats that go out -/

theorem missCount_kept (s : State) : s.missCount.clk = s.clk ∧ ∃ m, s.missCount.pair = { s.pair with missAt := m } := by
  unfold missCount
  split
  · exact ⟨rfl, _, rfl⟩
  · refine ⟨(Only.bumpBy0 ..).clk rfl, s.pair.missAt + 10000 * ((s.clk - 1 - s.pair.missAt) / 10000), ?_⟩
    rw [pairMod, setPair_pair, (Only.bumpBy0 ..).pair rfl]

theorem pairUp_datapath (up : s.pairUp = true) : s.datapathUp = true := by
  simp only [pairUp, Bool.and_eq_true] at up
  exact up.2

theorem exec_tongsHeartbeatSend (up : s.pairUp = true) (keyed : 2 ≤ s.pair.linkState)
    (port : s.quenched (portUnit 64) = false) (hu : u = (s.waitUntil (s.pair.tongsAt + 10000)).missCount) :
    exec .tongsHeartbeatSend s = .next (match u.pair.handover with
      | some (n + 1) => (((u.changeRole (if n = 0 then .smith else .striker)).pairMod fun p =>
          { p with handover := some 0 }).tongsSend false).roleDone
      | _ => u.tongsSend false) := by
  subst hu
  show Host.Outcome.next s.doTongsHeartbeatSend = _
  unfold doTongsHeartbeatSend
  refine congrArg Host.Outcome.next ((if_neg ?_).trans rfl)
  simp [up, port]
  omega

theorem tongsSend_kept (s : State) : Output.tongsUnit 3 (s.tongsBeat false) ∈ (s.tongsSend false).out ∧
    (s.tongsSend false).pair =
      { s.pair with
        hbCount := (s.pair.hbCount + 1) % 2 ^ 32
        tongsAt := s.clk } := ⟨mem_out_emit s _, rfl⟩

theorem emits_only {α : Type} (f : State → α → Output) (l : List α) (s : State) :
    Only 0 s (l.foldl (fun s x => s.emit (f s x)) s) :=
  .foldl (fun _ _ only => .emit rfl only) (.refl 0 s)

/-- What is sent for each of several, where nothing that it tells of changes on the way. -/
theorem mem_out_emits {α : Type} {f : State → α → Output} {l : List α} {x : α} (named : x ∈ l)
    (same : ∀ (t : State) y, f (t.emit y) = f t) (s : State) : f s x ∈ (l.foldl (fun s x => s.emit (f s x)) s).out := by
  induction l generalizing s with
  | nil => exact absurd named List.not_mem_nil
  | cons y r ih =>
    rw [List.foldl_cons]
    obtain rfl | later := List.mem_cons.1 named
    · exact (emits_only f r _).out.subset (mem_out_emit s _)
    · have sent := ih later (s.emit (f s y))
      rwa [same] at sent

theorem backboneSend_kept (s : State) : (s.backboneSend false).clk = s.clk ∧
    (s.backboneSend false).pair =
      { s.pair with
        hbCount := (s.pair.hbCount + 1) % 2 ^ 32
        backboneAt := s.clk } ∧
    ∀ p, p < 8 → bit (le s.pair.cfg 32 8) p = true → s.portDown p = false →
      Output.heartbeat p (s.backboneBeat false) ∈ (s.backboneSend false).out := by
  have only := emits_only (fun (s : State) p => Output.heartbeat p (s.backboneBeat false))
    ((List.range 8).filter fun p => bit (le s.pair.cfg 32 8) p && !s.portDown p) s
  refine ⟨only.clk rfl, ?_, fun p named sends open_ => ?_⟩
  · unfold backboneSend pairMod
    dsimp only
    rw [setPair_pair, only.pair rfl, only.clk rfl]
  · refine mem_out_emits (f := fun (s : State) p => Output.heartbeat p (s.backboneBeat false)) ?_ (fun t y => rfl) s
    exact List.mem_filter.2 ⟨List.mem_range.2 named, by simp [sends, open_]⟩

/-! ### The partner is lost (R504 to R506) -/

/-- The loss has been noted and reported, and the smith's commit instant forgotten. -/
def lossNoted (s : State) : State :=
  let s := (s.waitUntil (s.pair.lastBeat + 150000)).missCount
  let s := (s.pairMod fun p => { p with alive := false, handover := none }).raise 0xC002 s.partnerId
  if s.pair.role = .striker then s.nmMod fun n => { n with commitAt := if n.state = .prepare then none else n.commitAt } else s

theorem lossNoted_kept (s : State) : s.lossNoted.clk = (s.waitUntil (s.pair.lastBeat + 150000)).clk ∧
    s.lossNoted.rget Reg.pairCtrl = s.rget Reg.pairCtrl ∧ ∃ m, s.lossNoted.pair =
      { s.pair with
        missAt := m
        alive := false
        handover := none } := by
  obtain ⟨clk, m, pair⟩ := (s.waitUntil (s.pair.lastBeat + 150000)).missCount_kept
  have ctrl : (s.waitUntil (s.pair.lastBeat + 150000)).missCount.rget Reg.pairCtrl = s.rget Reg.pairCtrl := by
    unfold missCount
    split
    · exact waitUntil_rget ..
    · exact (bumpBy_other _ _ _ _ rfl (by decide)).trans (waitUntil_rget ..)
  rw [waitUntil_pair] at pair
  unfold lossNoted
  dsimp only
  generalize (s.waitUntil (s.pair.lastBeat + 150000)).missCount = u at *
  have noted : ((u.pairMod fun p => { p with alive := false, handover := none }).raise 0xC002 u.partnerId).pair =
      { s.pair with
        missAt := m
        alive := false
        handover := none } := by
    rw [(Only.raise0 ..).pair rfl, pairMod, setPair_pair, pair]
  have reg : ((u.pairMod fun p => { p with alive := false, handover := none }).raise 0xC002 u.partnerId).rget Reg.pairCtrl =
      s.rget Reg.pairCtrl := (raise_keepsRegs _ _ _ _ rfl).trans ctrl
  have time : ((u.pairMod fun p => { p with alive := false, handover := none }).raise 0xC002 u.partnerId).clk = u.clk :=
    (Only.raise0 ..).clk rfl
  split
  · exact ⟨time.trans clk, reg, m, noted⟩
  · exact ⟨time.trans clk, reg, m, noted⟩

theorem exec_partnerLoss (up : s.pairUp = true) (alive : s.pair.alive = true) : exec .partnerLoss s =
    .next (if s.pair.role ≠ .striker then s.lossNoted
      else if s.pair.linkAtBeat ≠ 4 then s.lossNoted.raise 0xC003 4
      else if s.rfld Reg.pairCtrl 0 1 = 1 then s.lossNoted.takeover 1
      else s.lossNoted).roleDone := by
  obtain ⟨-, ctrl, m, pair⟩ := s.lossNoted_kept
  have same : s.lossNoted.pair.role = s.pair.role ∧ s.lossNoted.pair.linkAtBeat = s.pair.linkAtBeat := by
    rw [pair]
    exact ⟨rfl, rfl⟩
  rw [← same.1, ← same.2, ← rfld_of_rget ctrl]
  show Host.Outcome.next s.doPartnerLoss = _
  unfold doPartnerLoss
  rw [if_neg (by simp [up, alive])]
  simp only [ne_eq, ← bne_iff_ne]
  rfl

/-! ### A clash (R509, R510) -/

theorem exec_clashComparison {v : State} (up : s.pairUp = true) (hu : u = s.waitUntil (s.pair.clashAt + 100000))
    (hv : v = u.pairMod (fun p => { p with clashAt := u.clk, clashes := if u.clashNow then s.pair.clashes + 1 else 0 })) :
    exec .clashComparison s = .next (
      if u.clashNow = false then if s.pair.clashes = 1 then v.clashReport false else v
      else if s.pair.clashes ≠ 1 then v
      else if v.keepsSmith = true then v.clashReport false
      else (((v.clashReport true).pairMod fun p =>
        { p with
          role := .striker
          acting := false
          clashes := 0
          handover := none }).roleModes).roleDone) := by
  have count : u.pair.clashes = s.pair.clashes := by rw [hu, waitUntil_pair]
  have now : v.clashNow = u.clashNow := by rw [hv]; rfl
  rw [← count] at hv ⊢
  show Host.Outcome.next s.doClashComparison = _
  unfold doClashComparison
  rw [if_neg (by simp [up]), ← hu]
  dsimp only
  rw [← hv, now]
  cases u.clashNow <;> rfl

/-! ### The commands of the pair (R513 to R517) -/

section
variable {host q : Nat} {c : Cmd}

/-- The pair with a new configuration. -/
def configured (s : State) (c : Cmd) : State := s.pairMod fun p => { p with cfg := pairCfgOf c }

/-- What a `PAIR_CONFIG` does once its checks have passed. -/
def pairConfigured (s : State) (c : Cmd) : State :=
  if bit (c.u 0 1) 0 = (s.pair.role != .single) then (s.configured c).roleModes
  else if bit (c.u 0 1) 0 = true then
    (((s.configured c).pairMod fun p =>
      { p with
        role := s.strapRole
        settled := false
        acting := false
        tongsAt := 0
        backboneAt := 0 }).roleModes).linkStart
  else ((s.configured c).linkStop.pairMod fun p =>
      { p with
        role := .single
        settled := false
        acting := false
        alive := false
        strapConflict := false
        clashes := 0
        zoneVotes := [] }).roleModes

theorem pairConfig_eq (ok : pairCfgOk c = true) : pairConfig c s =
    Exec.check (bit (c.u 0 1) 0 == (s.pair.role != .single) || s.liveImages.all fun i => bit i.flags 1 == bit (c.u 0 1) 0) s
      0x0A05 (Exec.check (s.pairKey (c.u 2 2)).isSome s 0x0A04 (.done (s.pairConfigured c) St.ok 0 [])) := by
  unfold pairConfig pairConfigured
  rw [ok]
  dsimp only [check_true]
  congr 2
  simp only [beq_iff_eq]
  split
  · rfl
  · split
    · rfl
    · rfl

theorem linkStart_kept (s : State) : s.linkStart.pair.role = s.pair.role ∧ s.linkStart.pair.settled = s.pair.settled ∧
    s.linkStart.pair.cfg = s.pair.cfg := by
  unfold linkStart
  split <;> exact ⟨rfl, rfl, rfl⟩

theorem roleModes_pair (s : State) : s.roleModes.pair = s.pair := (Only.roleModes0 s).pair rfl

theorem pairConfigured_kept (s : State) (c : Cmd) : (s.pairConfigured c).pair.cfg = pairCfgOf c ∧
    (bit (c.u 0 1) 0 = false → (s.pairConfigured c).pair.role = .single) ∧
    (bit (c.u 0 1) 0 = true → s.pair.role ≠ .single → (s.pairConfigured c).pair.role = s.pair.role) ∧
    (bit (c.u 0 1) 0 = true → s.pair.role = .single → (s.pairConfigured c).pair.role = s.strapRole ∧
      (s.pairConfigured c).pair.settled = false) := by
  unfold pairConfigured
  split
  · next same =>
    rw [roleModes_pair]
    refine ⟨rfl, fun off => ?_, fun _ _ => rfl, fun on single => ?_⟩
    · have single : s.pair.role = .single := by simpa [off] using same.symm
      exact single
    · simp [on, single] at same
  · next other =>
    split
    · next on =>
      obtain ⟨role, settled, cfg⟩ := linkStart_kept (((s.configured c).pairMod fun p =>
        { p with
          role := s.strapRole
          settled := false
          acting := false
          tongsAt := 0
          backboneAt := 0 }).roleModes)
      rw [role, settled, cfg, roleModes_pair]
      refine ⟨rfl, fun off => ?_, fun _ paired => ?_, fun _ _ => ⟨rfl, rfl⟩⟩
      · simp [on] at off
      · simp [on, paired] at other
    · next off =>
      rw [roleModes_pair]
      refine ⟨?_, fun _ => rfl, (absurd · off), (absurd · off)⟩
      exact congrArg Pair.cfg (linkStop_pair _)

theorem pairRole_single (single : s.pair.role = .single) : pairRole c s = Exec.fail s 0x0A01 := by
  unfold pairRole
  rw [single]
  rfl

/-- `PAIR_ROLE` in a pair, once its target is a role. -/
theorem pairRole_eq (paired : s.pair.role ≠ .single) (named : c.u 0 1 = 1 ∨ c.u 0 1 = 2) : pairRole c s =
    if roleCode s.pair.role = c.u 0 1 then .done s St.ok (c.u 0 1) []
    else if bit (c.u 1 1) 0 = false then
      Exec.check (s.pair.linkState == 4) s 0x0A06
        (.run (s.pairMod fun p => { p with handover := some (c.u 0 1) }) (s.clk + 1000000))
    else Exec.check (!s.pair.alive) s 0x0A06
      (if c.u 0 1 = 1 then .done (s.takeover 2) St.ok 1 [] else .done (s.changeRole .striker) St.ok 2 []) := by
  have inPair : (s.pair.role != .single) = true := by simpa using paired
  have role : (c.u 0 1 == 1 || c.u 0 1 == 2) = true := by simpa using named
  unfold pairRole
  dsimp only
  rw [inPair, role, check_true, check_true]
  cases bit (c.u 1 1) 0 <;> rfl

theorem pairStatus_eq (c : Cmd) (s : State) (mode : c.u 0 1 = 0) :
    pairStatus c s = Exec.check (s.pair.role != .single) s 0x0A01 (.done s St.ok 0 s.pairStatusBytes) := by
  unfold pairStatus
  rw [mode]
  rfl

end

end State

/-- Settles O56: heartbeats are followed through `beatCarried` and `beatYield`, a loss and a clash are decided in one step
each, and the commands are their checks and then one change of the pair. -/
theorem pairRolesAndLoss : Obligations.PairRolesAndLoss := by
  intro s
  refine ⟨?tongs, ?backbone, fun h up => ⟨?strange, ?beat⟩, ?loss, ?vote, ?clash, ?config, ?role, ?status⟩
  case tongs =>
    intro up keyed port
    have datapath := State.pairUp_datapath up
    obtain ⟨clk, m, pair⟩ := (s.waitUntil (s.pair.tongsAt + 10000)).missCount_kept
    rw [waitUntil_pair] at pair
    refine ⟨_, rfl, clk ▸ State.le_waitUntil_up datapath _, fun still => ?_, fun n planned => ?_⟩
    · refine ⟨_, State.exec_tongsHeartbeatSend up keyed port rfl, ?_⟩
      generalize (s.waitUntil (s.pair.tongsAt + 10000)).missCount = u at *
      obtain ⟨sent, kept⟩ := u.tongsSend_kept
      have handover : u.pair.handover = none ∨ u.pair.handover = some 0 := by rwa [pair]
      obtain none | zero := handover
      · rw [none]
        refine ⟨sent, ?_⟩
        rw [kept, pair]
        exact ⟨rfl, rfl, rfl⟩
      · rw [zero]
        refine ⟨sent, ?_⟩
        rw [kept, pair]
        exact ⟨rfl, rfl, rfl⟩
    · refine ⟨_, State.exec_tongsHeartbeatSend up keyed port rfl, ?_⟩
      generalize (s.waitUntil (s.pair.tongsAt + 10000)).missCount = u at *
      have handover : u.pair.handover = some (n + 1) := by rw [pair, planned]
      rw [handover]
      dsimp only
      rw [State.roleDone_pair, (State.tongsSend_kept _).2, State.pairMod, setPair_pair, State.changeRole_pair, pair]
      exact ⟨rfl, rfl, rfl, rfl⟩
  case backbone =>
    intro up
    have sent : exec .backboneHeartbeatSend s = .next ((s.waitUntil (s.pair.backboneAt + 100000)).backboneSend false) :=
      congrArg Host.Outcome.next (if_neg (by simp [up]))
    have late := State.le_waitUntil_up (State.pairUp_datapath up) (s.pair.backboneAt + 100000)
    have same : (s.waitUntil (s.pair.backboneAt + 100000)).pair = s.pair := waitUntil_pair ..
    have down (p : Nat) : (s.waitUntil (s.pair.backboneAt + 100000)).portDown p = s.portDown p := by
      simp only [State.portDown, State.bport, waitUntil_buf, waitUntil_pair, State.waitUntil, tick_quenched, tick_buf, tick_pair]
    have beat : (s.waitUntil (s.pair.backboneAt + 100000)).backboneBeat false = s.backboneBeat false := by
      unfold State.backboneBeat State.beatFields
      rw [same]
    obtain ⟨clk, pair, beats⟩ := (s.waitUntil (s.pair.backboneAt + 100000)).backboneSend_kept
    refine ⟨_, sent, ?_⟩
    generalize s.waitUntil (s.pair.backboneAt + 100000) = u at *
    rw [same] at pair beats
    rw [pair, clk]
    exact ⟨rfl, rfl, late, fun p named sends open_ => beat ▸ beats p named sends ((down p).trans open_)⟩
  case strange =>
    intro strange
    refine congrArg Host.Outcome.next (if_pos ?_)
    obtain own | ⟨known, other⟩ := strange
    · simp [own]
    · simp [known, other]
  case beat =>
    intro other partner path
    refine ⟨_, State.exec_heartbeatReceived h up other partner path, ?_⟩
    obtain ⟨id, beat, strap, alive, role, link⟩ := s.heard_kept h
    generalize s.heard h = u at *
    have heard := (u.beatCarried_heard h).trans (State.beatYield_heard _ h)
    refine ⟨heard.partner.trans id, heard.lastBeat.trans beat, heard.strap.trans strap, heard.alive.trans alive, ?_, ?_, ?_⟩
    · intro tongs stays keyed striker smith
      have linked := u.beatTaken_linked h
      have joined := State.beatRole_joins ((linked.link.trans link).trans keyed) ((linked.role.trans role).trans striker) smith
      rw [State.beatYield, if_neg (by simp [stays]), State.beatCarried, if_pos tongs, State.tongsBeatIn_eq]
      exact joined.1
    · intro backbone yields smith striker
      have carried : u.beatCarried h = u := if_neg (by simp [backbone])
      rw [carried]
      exact State.beatYield_takes yields smith (role.trans striker)
    · intro backbone stays
      have carried : u.beatCarried h = u := if_neg (by simp [backbone])
      rw [State.beatYield, if_neg (by simp [stays]), carried]
      exact ⟨role, link⟩
  case loss =>
    intro up alive
    obtain ⟨clk, -, m, pair⟩ := s.lossNoted_kept
    have late := State.le_waitUntil_up (State.pairUp_datapath up) (s.pair.lastBeat + 150000)
    rw [← clk] at late
    refine ⟨_, State.exec_partnerLoss up alive, ?_⟩
    rw [State.roleDone_pair, (Only.roleDone0 _).clk rfl]
    by_cases striker : s.pair.role = .striker
    · rw [if_neg (not_not.2 striker)]
      by_cases full : s.pair.linkAtBeat = 4
      · rw [if_neg (not_not.2 full)]
        by_cases enabled : s.rfld Reg.pairCtrl 0 1 = 1
        · rw [if_pos enabled, State.takeover_pair, (Only.takeover0 ..).clk rfl, pair]
          exact ⟨rfl, rfl, late, fun _ _ _ => ⟨rfl, rfl⟩, fun none => absurd none (by simp [striker, full, enabled])⟩
        · rw [if_neg enabled, pair]
          exact ⟨rfl, rfl, late, fun _ _ set => absurd set enabled, fun _ => rfl⟩
      · rw [if_pos full, (Only.raise0 ..).pair rfl, (Only.raise0 ..).clk rfl, pair]
        exact ⟨rfl, rfl, late, fun _ at_ => absurd at_ full, fun _ => rfl⟩
    · rw [if_pos striker, pair]
      exact ⟨rfl, rfl, late, (absurd · striker), fun _ => rfl⟩
  case vote =>
    intro v up
    refine ⟨fun named => congrArg Host.Outcome.next (if_neg (by simp [up, named])),
      fun unnamed => congrArg Host.Outcome.next (if_pos (by simp [unnamed]))⟩
  case clash =>
    intro u v up hu hv
    have decided := State.exec_clashComparison up hu hv
    refine ⟨fun ended count => ?_, fun ended count => ?_, fun now count => ?_, fun now count keeps => ?_, fun now count loses => ?_⟩
    · rw [decided, if_pos ended, if_neg count]
    · rw [decided, if_pos ended, if_pos count]
    · rw [decided, if_neg (by simp [now]), if_pos count]
    · rw [decided, if_neg (by simp [now]), if_neg (by simp [count]), if_pos keeps]
    · refine ⟨_, decided, ?_⟩
      rw [if_neg (by simp [now]), if_neg (by simp [count]), if_neg (by simp [loses]), State.roleDone_pair, State.roleModes_pair]
      exact ⟨rfl, rfl, rfl⟩
  case config =>
    intro host q c en ready ok hen
    subst hen
    have eq := State.pairConfig_eq (s := s) ok
    refine ⟨fun changes stranger => ?_, fun allowed => ?_⟩
    · have differs : (bit (c.u 0 1) 0 == (s.pair.role != .single)) = false := by
        cases on : bit (c.u 0 1) 0 <;> simpa [on] using changes
      have refused : (s.liveImages.all fun i => bit i.flags 1 == bit (c.u 0 1) 0) = false := by
        rw [List.all_eq_not_any_not]
        simpa only [bne, Bool.not_eq_false'] using stranger
      rw [differs, refused, Bool.or_false, check_false] at eq
      exact congrArg Host.Outcome.next (runCmd_fail ready eq)
    · have passes : (bit (c.u 0 1) 0 == (s.pair.role != .single) ||
          s.liveImages.all fun i => bit i.flags 1 == bit (c.u 0 1) 0) = true := by
        obtain same | all := allowed
        · cases on : bit (c.u 0 1) 0 <;> exact Bool.or_eq_true_iff.2 (.inl (by simpa [on] using same))
        · rw [all, Bool.or_true]
      rw [passes, check_true] at eq
      refine ⟨fun none => ?_, fun k key => ⟨s.pairConfigured c, ?_, s.pairConfigured_kept c⟩⟩
      · rw [none] at eq
        exact congrArg Host.Outcome.next (runCmd_fail ready eq)
      · rw [key] at eq
        exact congrArg Host.Outcome.next (runCmd_done ready eq)
  case role =>
    intro host q c target ready htarget
    subst htarget
    refine ⟨fun single => congrArg Host.Outcome.next (runCmd_fail ready (State.pairRole_single single)),
      fun paired named => ?_⟩
    have eq := State.pairRole_eq (s := s) paired named
    refine ⟨fun same => ?_, fun other planned => ?_, fun other force alive => ?_, fun other force lost => ?_⟩
    · rw [if_pos same] at eq
      exact congrArg Host.Outcome.next (runCmd_done ready eq)
    · rw [if_neg other, if_pos planned] at eq
      split
      · next full =>
        rw [beq_iff_eq.2 full] at eq
        exact congrArg Host.Outcome.next (runCmd_run ready eq)
      · next partial_ =>
        rw [beq_eq_false_iff_ne.2 partial_] at eq
        exact congrArg Host.Outcome.next (runCmd_fail ready eq)
    · rw [if_neg other, if_neg (by simp [force]), alive] at eq
      exact congrArg Host.Outcome.next (runCmd_fail ready eq)
    · rw [if_neg other, if_neg (by simp [force]), lost] at eq
      obtain smith | striker := named
      · rw [if_pos smith] at eq
        refine ⟨s.takeover 2, ?_, ?_⟩
        · rw [smith]
          exact congrArg Host.Outcome.next (runCmd_done ready eq)
        · rw [State.takeover_pair, smith]
          exact ⟨rfl, fun _ => rfl⟩
      · rw [if_neg (by omega)] at eq
        refine ⟨s.changeRole .striker, ?_, ?_⟩
        · rw [striker]
          exact congrArg Host.Outcome.next (runCmd_done ready eq)
        · rw [State.changeRole_pair, striker]
          exact ⟨rfl, nofun⟩
  case status =>
    intro host q c ready
    refine ⟨fun single => ?_, fun paired mode => ?_⟩
    · refine congrArg Host.Outcome.next (runCmd_fail ready ?_)
      unfold State.pairStatus
      rw [single]
      exact check_false
    · refine congrArg Host.Outcome.next (runCmd_done ready ((State.pairStatus_eq c s mode).trans ?_))
      rw [bne_iff_ne.2 paired]
      exact check_true

end Sys2Proof.Machine
end

section
/-! The escalation count of R528 and the service counts of the receive rings (R283). A frame that commits counts each of its
copies in the TRF_ window at a word that its queue number selects. The statement leaves queue numbers free, and that of one
number is the word of `FNC_ESCALATE_CNT`: an escalation whose quench lets a frame with such a copy commit counts twice. -/

namespace Sys2Proof.Machine

open State

/-- A cold restart leaves no fault domain behind. -/
theorem State.coldRestart_doms (s : State) : s.coldRestart.fnc.doms = [] := by
  unfold State.coldRestart
  rw [(Only.startKindle0 ..).fnc rfl, (Only.waitUntil0 ..).fnc rfl, (Only.pwrMod0 ..).fnc rfl]
  rfl

/-- Port 0 receives a decided frame. -/
def cutFrame : Frame :=
  { fid := 1, src := 0, tIn := 0, start := 0, bytes := List.replicate 64 0, complete := false, decided := true
    eff := { recovery := some (0, 5) } }

/-- A duplicate of that frame, whole and held back behind it. -/
def heldFrame : Frame := { cutFrame with fid := 2, src := 1, complete := true, heldDup := true }

/-- The receive ring whose frame count stands at the offset of `FNC_ESCALATE_CNT`. -/
def clashingQueue : Nat := 53642

theorem clashingQueue_counts : (queueIndex 67 clashingQueue).map Reg.trfQFrames = some Reg.fncEscalateCnt := by decide

/-- The recovery of port 0 is under way, and the held duplicate goes into the clashing ring. -/
def clashingCopy : State :=
  { State.reset with
    fnc := { doms := [(portUnit 0, { state := .recovering })] }
    fr := { frames := [cutFrame, heldFrame], copies := [{ fid := 2, port := 67, queue := clashingQueue, onLane := true }] } }

/-- What follows when the budget of that recovery runs out: port group 20 is quenched, the frame at port 0 is cut off, and
its duplicate commits. -/
def clashingEscalation : State := clashingCopy.doRecoveryBudgetExpiry (portUnit 0)

theorem clashingEscalation_counts : clashingEscalation.rget Reg.fncEscalateCnt = 2 := by decide +kernel

theorem clashingEscalation_stays : clashingEscalation.restartIfDue = clashingEscalation := by
  have due : clashingEscalation.boot.restartDue = false := by decide +kernel
  rw [State.restartIfDue, due, if_neg Bool.false_ne_true]

/-- Refutes O57: the recovery budget of port 0 runs out and its port group is quenched as the escalation, yet the count of
escalations advances by 2, since a committing copy of ring 53642 counts in the same word. -/
theorem not_faultContainment : ¬ Obligations.FaultContainment := by
  intro h
  obtain ⟨-, -, -, escalation, -⟩ := h clashingCopy (portUnit 0)
  obtain ⟨t, ran, -, -, -, -, counted⟩ := escalation (.recoveryBudgetExpiry (portUnit 0)) _ 20 (by decide) (by decide)
    (.inr ⟨rfl, by decide, rfl⟩)
  have ended : clashingEscalation = t.restartIfDue :=
    clashingEscalation_stays.symm.trans (Host.Outcome.next.inj ran)
  by_cases due : t.boot.restartDue = true
  · have cold : clashingEscalation.fnc.doms = [] := by
      rw [ended, State.restartIfDue, if_pos due, State.coldRestart_doms]
    exact absurd cold (by decide +kernel)
  · rw [State.restartIfDue, if_neg due] at ended
    rw [← ended, clashingEscalation_counts] at counted
    exact absurd counted (by decide)

end Sys2Proof.Machine
end

section
/-! The service session on S0 (R551 to R555): the CHALLENGE that answers a HELLO, the two ends of the PROOF exchange, the
frames that a session takes in, and its end. -/

namespace Sys2Proof.Machine

open State

namespace State

variable {s : State} {x : Session} {type id seq slot : Nat} {body tag nonce key : List Byte}

/-! ### The end of a session, and its frames -/

theorem updAbandon_bootEq (s : State) : ∃ images, s.updAbandon.boot = { s.boot with images := images, update := none } := by
  unfold updAbandon
  cases h : s.boot.update with
  | none => exact ⟨s.boot.images, congrArg (fun u => { s.boot with update := u }) h⟩
  | some u => exact ⟨_, rfl⟩

theorem sessionEnd_boot (s : State) :
    ∃ images, s.sessionEnd.boot = { s.boot with images := images, update := none, session := none } := by
  obtain ⟨images, abandoned⟩ := s.updAbandon_bootEq
  exact ⟨images, congrArg (fun b : Boot => { b with session := none }) abandoned⟩

theorem sessionEnd_svc (s : State) : s.sessionEnd.mbx.svc = [] := rfl

theorem sessionEnd_ends (s : State) :
    s.sessionEnd.boot.session = none ∧ s.sessionEnd.boot.update = none ∧ s.sessionEnd.mbx.svc = [] := by
  obtain ⟨images, ended⟩ := s.sessionEnd_boot
  exact ⟨congrArg Boot.session ended, congrArg Boot.update ended, s.sessionEnd_svc⟩

/-- A frame before the first tagged type goes out whatever has become of the MAC key. -/
theorem svcSend_untagged (sess : s.boot.session = some x) (early : type < 4) : ∃ frame, s.svcSend type body =
    (s.emit (.s0 frame)).setBoot { s.boot with session := some { x with txSeq := x.txSeq + 1 } } := by
  have plain : (x.secured && decide (4 ≤ type)) = false := by rw [decide_eq_false (by omega), Bool.and_false]
  unfold svcSend
  rw [sess]
  simp only [plain]
  exact ⟨_, rfl⟩

theorem sessMod_some (sess : s.boot.session = some x) (f : Session → Session) :
    s.sessMod f = s.setBoot { s.boot with session := some (f x) } := by rw [sessMod, sess]; rfl

/-! ### HELLO (R551, R552) -/

/-- The session that a HELLO opens. -/
def helloSession (s : State) (nonce nonceD : List Byte) : Session :=
  { id := s.boot.sessionNext, nonceT := fit 16 nonce, nonceD := nonceD
    open_ := s.key.inForce == .blank || s.key.inForce == .provision
    secured := false, rxSeq := 0, txSeq := 0, lastAt := s.clk, data := [] }

/-- A state as a new session begins: nothing waits in its slots. -/
def greeted (s : State) (x : Session) : State :=
  (s.setBoot { s.boot with session := some x, sessionNext := x.id % (2 ^ 32 - 1) + 1 }).setMbx
    { s.mbx with svc := [], faults := s.mbx.faults.filter (· ≠ 32) }

/-- In RETIRED the CHALLENGE is all that a HELLO gets. -/
def retiredEnds (s : State) : State := if s.key.inForce = .retired then s.sessionEnd else s

theorem doSvcHello_refused
    (refused : s.boot.session.any (·.open_) = true ∨ ∃ t, s.boot.lockoutAt = some t ∧ s.clk < t) : s.doSvcHello nonce = s := by
  refine if_pos ?_
  obtain opened | ⟨t, lockout, running⟩ := refused
  · simp [opened]
  · simp [lockout, running]

theorem doSvcHello_answers (up : s.s0Up = true) (idle : s.boot.session = none) (unlocked : s.boot.lockoutAt = none) :
    ∃ u nonceD frame, Only 0 s u ∧
      s.doSvcHello nonce = ((u.greeted (u.helloSession nonce nonceD)).emit (.s0 frame)).retiredEnds := by
  have taken : ¬ (!s.s0Up || s.boot.lockoutAt.any (fun (t : Nat) => decide (s.clk < t)) ||
      s.boot.session.any (·.open_)) = true := by simp [up, idle, unlocked]
  have drawn := (Only.nonce160 s).trans (Only.svcLevel0 s.nonce16.2)
  unfold doSvcHello
  rw [if_neg taken]
  generalize s.nonce16 = n at drawn ⊢
  obtain ⟨nonceD, v⟩ := n
  dsimp only at drawn ⊢
  generalize v.svcLevel = l at drawn ⊢
  obtain ⟨level, u⟩ := l
  obtain ⟨frame, sent⟩ := svcSend_untagged (s := u.greeted (u.helloSession nonce nonceD)) (type := 2)
    (body := nonceD ++ leBytes 4 Config.forgeId.toNat ++ leBytes 1 (lcCode u.key.inForce) ++ leBytes 1 level ++ leBytes 2 0)
    rfl (by decide)
  exact ⟨u, nonceD, frame, drawn, Eq.trans (by rfl)
    (congrArg (fun t : State => (t.sessMod fun x => { x with txSeq := 0 }).retiredEnds) sent)⟩

/-! ### PROOF (R552 to R554) -/

/-- While S0 is served the counts of the BOOT_ window run. -/
theorem bootCounter_runs {o : Nat} (up : s.s0Up = true) (window : o / 0x8000 = 14) : s.stopped o = false := by
  simp only [s0Up, Bool.and_eq_true, Bool.not_eq_true'] at up
  obtain ⟨-, runs⟩ := up
  simpa [stopped, ownerOf, window] using runs

theorem proofFail_boot (s : State) : ∃ images, s.proofFail.boot = { s.boot with
    images := images, update := none, session := none, authFails := s.boot.authFails + 1
    lockoutAt := if 3 ≤ s.boot.authFails + 1 then some (s.clk + 60 * 10 ^ 9) else s.boot.lockoutAt } := by
  obtain ⟨images, ended⟩ := (s.bump Reg.bootSvcAuthFailCnt).sessionEnd_boot
  have clk : (s.bump Reg.bootSvcAuthFailCnt).sessionEnd.clk = s.clk := by
    rw [(Only.sessionEnd0 _).clk rfl, (Only.bump0 ..).clk rfl]
  rw [(Only.bump0 ..).boot rfl] at ended
  refine ⟨images, ?_⟩
  unfold proofFail
  rw [(Only.raise0 ..).boot rfl, setBoot_boot, clk, ended]

theorem proofFail_count (up : s.s0Up = true) :
    s.proofFail.rget Reg.bootSvcAuthFailCnt = s.rget Reg.bootSvcAuthFailCnt + 1 := by
  unfold proofFail
  rw [raise_keepsRegs _ _ _ _ (by decide), rget_of_only (Only.setBoot0 ..) rfl, rget_of_only (Only.sessionEnd0 _) rfl,
    bump_rget _ _ (by decide) (by decide) (bootCounter_runs up (by decide)), if_pos rfl]

/-- The session that a PROOF opens. -/
def provenSession (s : State) (x : Session) (secured : Bool) : Session :=
  { x with open_ := true, secured := secured, rxSeq := 0, txSeq := 0, lastAt := s.clk, data := [] }

theorem proofDone_boot (sess : s.boot.session = some x) (secured : Bool) :
    (s.proofDone secured body).boot = { s.boot with authFails := 0, session := some (s.provenSession x secured) } := by
  obtain ⟨frame, sent⟩ := svcSend_untagged (s := s.setBoot { s.boot with authFails := 0 }) (type := 3) (body := body) sess
    (by decide)
  unfold proofDone
  dsimp only
  rw [sent]
  rfl

theorem sessionKeys_boot (s : State) (slot : Nat) (key ctx : List Byte) : (s.sessionKeys slot key ctx).boot = s.boot :=
  (Only.sessionKeys0 ..).boot rfl

/-- The key of the tags of a session, in the slot that the device keeps for it. -/
theorem sessionKeys_tagKey (quiet : s.key.asserted = 0) (slot : Nat) (key ctx : List Byte) :
    ((s.sessionKeys slot key ctx).keySlot 1009).state = .loaded ∧
    ((s.sessionKeys slot key ctx).keySlot 1009).key = kdf key txtMac (s.levelBelow (some slot)) 0x0C 0x08 ctx 256 := by
  have still : (s.bumpBy Reg.secCpReqCnt 4).key.asserted = 0 := by rw [(Only.bumpBy0 ..).key rfl, quiet]
  unfold sessionKeys
  dsimp only
  rw [slotPut_other (s := State.slotPut _ 1009 _) still rfl (by decide), slotPut_same still rfl]
  exact ⟨rfl, rfl⟩

theorem doSvcProof_fails (up : s.s0Up = true) (sess : s.boot.session = some x) (named : x.id = id) (unproven : x.open_ = false)
    (normal : s.boot.mode ≠ 2) (unfit : s.svcKey = none) : s.doSvcProof id body = s.proofFail := by
  have asked : (s.boot.session.filter fun x => x.id == id && !x.open_ && s.s0Up) = some x := by
    simp [sess, named, unproven, up]
  unfold doSvcProof
  rw [asked]
  dsimp only
  rw [if_neg normal, unfit]
  rfl

theorem doSvcProof_holds (up : s.s0Up = true) (sess : s.boot.session = some x) (named : x.id = id) (unproven : x.open_ = false)
    (normal : s.boot.mode ≠ 2) (store : s.quenched Dom.keyStore = false) (pool : s.quenched Dom.security = false)
    (fit : s.svcKey = some (slot, key))
    (right : body = Crypto.cmac key (txtTool ++ x.nonceD ++ x.nonceT ++ leBytes 4 Config.forgeId.toNat)) :
    ∃ answer, s.doSvcProof id body = (s.sessionKeys slot key (x.nonceT ++ x.nonceD)).proofDone true answer := by
  have asked : (s.boot.session.filter fun x => x.id == id && !x.open_ && s.s0Up) = some x := by
    simp [sess, named, unproven, up]
  have usable : (s.svcKey.filter fun _ => !s.quenched Dom.keyStore && !s.quenched Dom.security) = some (slot, key) := by
    simp [fit, store, pool]
  unfold doSvcProof
  rw [asked]
  dsimp only
  rw [if_neg normal, usable]
  exact ⟨_, if_neg (not_not_intro right)⟩

theorem doSvcProof_alone (idle : s.boot.session = none) : s.doSvcProof id body = s := by
  unfold doSvcProof
  rw [idle]
  rfl

/-! ### The frames of a session (R554) -/

/-- A session after a valid frame. -/
def heardSession (s : State) (x : Session) : Session := { x with rxSeq := (x.rxSeq + 1) % 2 ^ 32, lastAt := s.clk }

variable {flags : Nat} {f : Session → State → State}

theorem svcFrame_discarded (up : s.s0Up = true) (sess : s.boot.session = some x)
    (bad : s.svcFrameOk x type flags id seq body tag = false) :
    s.svcFrame type flags id seq body tag f = s.bump Reg.bootSvcBadCnt := by
  have served : (s.boot.session.filter fun _ => s.s0Up) = some x := by simp [sess, up]
  unfold svcFrame
  rw [served]
  dsimp only
  rw [bad]
  rfl

theorem svcFrame_taken (up : s.s0Up = true) (sess : s.boot.session = some x)
    (ok : s.svcFrameOk x type flags id seq body tag = true) : s.svcFrame type flags id seq body tag f =
      f x (s.setBoot { s.boot with session := some (s.heardSession x) }) := by
  have served : (s.boot.session.filter fun _ => s.s0Up) = some x := by simp [sess, up]
  unfold svcFrame
  rw [served]
  dsimp only
  rw [ok, sessMod_some sess]
  rfl

theorem doSvcCommand_queued (up : s.s0Up = true) (sess : s.boot.session = some x)
    (ok : s.svcFrameOk x 4 0 id seq body tag = true) (long : 32 ≤ body.length) (short : body.length ≤ 256)
    (sound : 32 ∉ s.mbx.faults) (room : s.mbx.svc.length + (s.mbx.svcAccept - s.mbx.svcPosted) < 32) :
    s.doSvcCommand id seq body tag =
      (s.setBoot { s.boot with session := some (s.heardSession x) }).setMbx { s.mbx with svc := s.mbx.svc ++ [body] } := by
  refine (svcFrame_taken up sess ok).trans ((if_neg ?_).trans (if_neg (Nat.not_le.2 room)))
  simpa [long, short] using sound

theorem doSvcData_plain (up : s.s0Up = true) (sess : s.boot.session = some x)
    (ok : s.svcFrameOk x 6 0 id seq body tag = true) (long : 4 ≤ body.length) :
    s.doSvcData id seq false body tag = s.setBoot { s.boot with
      session := some { s.heardSession x with data := x.data ++ [(le body 0 4, body.drop 4)] } } :=
  (svcFrame_taken up sess ok).trans (if_neg (Nat.not_lt.2 long))

theorem doSvcData_undeciphered (up : s.s0Up = true) (sess : s.boot.session = some x)
    (ok : s.svcFrameOk x 6 1 id seq body tag = true) (undone : s.dataPlain x seq true body = none) :
    s.doSvcData id seq true body tag = s.bump Reg.bootSvcBadCnt := by
  refine (svcFrame_taken up sess ok).trans ?_
  dsimp only
  rw [undone]

theorem doSvcData_deciphered {p : List Byte} (up : s.s0Up = true) (sess : s.boot.session = some x)
    (ok : s.svcFrameOk x 6 1 id seq body tag = true) (done : s.dataPlain x seq true body = some p) (long : 4 ≤ p.length) :
    s.doSvcData id seq true body tag =
      ((s.setBoot { s.boot with session := some (s.heardSession x) }).bump Reg.secCpReqCnt).sessMod fun x =>
        { x with data := x.data ++ [(le p 0 4, p.drop 4)] } := by
  refine (svcFrame_taken up sess ok).trans ?_
  dsimp only
  rw [done]
  exact if_neg (Nat.not_lt.2 long)

/-- A frame is decrypted while the security domain runs. -/
theorem dataPlain_runs {p : List Byte} (done : s.dataPlain x seq true body = some p) : s.quenched Dom.security = false := by
  unfold dataPlain at done
  by_contra down
  simp [Bool.eq_true_of_not_eq_false down] at done

end State

open State

variable {s : State} {x : Session} {id seq slot : Nat} {body tag nonce key : List Byte}

/-! ### The clauses -/

theorem svcHello_opens (up : s.s0Up = true) (bc : Bool) (idle : s.boot.session = none) (unlocked : s.boot.lockoutAt = none)
    (live : s.key.inForce ≠ .retired) :
    ∃ t x, exec (.svcHello nonce bc) s = .next t ∧ t.boot.session = some x ∧ x.id = s.boot.sessionNext ∧ x.nonceT = fit 16 nonce ∧
      x.secured = false ∧ x.rxSeq = 0 ∧ x.lastAt = s.clk ∧ x.data = [] ∧
      x.open_ = (s.key.inForce == .blank || s.key.inForce == .provision) ∧
      t.boot.sessionNext = s.boot.sessionNext % (2 ^ 32 - 1) + 1 ∧ t.mbx.svc = [] ∧ s.out.length < t.out.length := by
  obtain ⟨u, nonceD, frame, drawn, answered⟩ := doSvcHello_answers (nonce := nonce) up idle unlocked
  have key := drawn.key rfl
  have boot := drawn.boot rfl
  have stays : ((u.greeted (u.helloSession nonce nonceD)).emit (.s0 frame)).retiredEnds =
      (u.greeted (u.helloSession nonce nonceD)).emit (.s0 frame) := if_neg (key ▸ live)
  refine ⟨_, _, congrArg Host.Outcome.next (answered.trans stays), rfl, congrArg Boot.sessionNext boot, rfl, rfl, rfl, drawn.clk rfl,
    rfl, by rw [← key]; rfl, by rw [← boot]; rfl, rfl, ?_⟩
  exact Nat.lt_of_le_of_lt drawn.out.length_le (by simp [State.emit, State.greeted])

theorem svcHello_retired (up : s.s0Up = true) (bc : Bool) (idle : s.boot.session = none) (unlocked : s.boot.lockoutAt = none)
    (retired : s.key.inForce = .retired) :
    ∃ t, exec (.svcHello nonce bc) s = .next t ∧ t.boot.session = none ∧ s.out.length < t.out.length := by
  obtain ⟨u, nonceD, frame, drawn, answered⟩ := doSvcHello_answers (nonce := nonce) up idle unlocked
  have ends : ((u.greeted (u.helloSession nonce nonceD)).emit (.s0 frame)).retiredEnds =
      ((u.greeted (u.helloSession nonce nonceD)).emit (.s0 frame)).sessionEnd := if_pos (drawn.key rfl ▸ retired)
  obtain ⟨ended, -, -⟩ := ((u.greeted (u.helloSession nonce nonceD)).emit (.s0 frame)).sessionEnd_ends
  refine ⟨_, congrArg Host.Outcome.next (answered.trans ends), ended, ?_⟩
  refine Nat.lt_of_lt_of_le ?_ (Only.sessionEnd0 _).out.length_le
  exact Nat.lt_of_le_of_lt drawn.out.length_le (by simp [State.emit, State.greeted])

theorem svcProof_unfit (up : s.s0Up = true) (sess : s.boot.session = some x) (named : x.id = id) (unproven : x.open_ = false)
    (normal : s.boot.mode ≠ 2) (unfit : s.svcKey = none) :
    ∃ t, exec (.svcProof id body) s = .next t ∧ t.boot.session = none ∧ t.boot.authFails = s.boot.authFails + 1 ∧
      t.rget Reg.bootSvcAuthFailCnt = s.rget Reg.bootSvcAuthFailCnt + 1 ∧
      t.boot.lockoutAt = (if 3 ≤ s.boot.authFails + 1 then some (s.clk + 60 * 10 ^ 9) else s.boot.lockoutAt) := by
  obtain ⟨images, failed⟩ := s.proofFail_boot
  exact ⟨_, congrArg Host.Outcome.next (doSvcProof_fails up sess named unproven normal unfit), congrArg Boot.session failed,
    congrArg Boot.authFails failed, proofFail_count up, congrArg Boot.lockoutAt failed⟩

theorem svcProof_right (up : s.s0Up = true) (sess : s.boot.session = some x) (named : x.id = id) (unproven : x.open_ = false)
    (normal : s.boot.mode ≠ 2) (quiet : s.key.asserted = 0) (store : s.quenched Dom.keyStore = false)
    (pool : s.quenched Dom.security = false) (fit : s.svcKey = some (slot, key))
    (right : body = Crypto.cmac key (txtTool ++ x.nonceD ++ x.nonceT ++ leBytes 4 Config.forgeId.toNat)) :
    ∃ t y, exec (.svcProof id body) s = .next t ∧ t.boot.session = some y ∧ y.open_ = true ∧ y.secured = true ∧ y.rxSeq = 0 ∧
      y.txSeq = 0 ∧ t.boot.authFails = 0 ∧ (t.keySlot 1009).state = .loaded ∧
      (t.keySlot 1009).key = kdf key txtMac (s.levelBelow (some slot)) 0x0C 0x08 (x.nonceT ++ x.nonceD) 256 := by
  obtain ⟨answer, proven⟩ := doSvcProof_holds up sess named unproven normal store pool fit right
  have kept := congrArg Boot.session (s.sessionKeys_boot slot key (x.nonceT ++ x.nonceD))
  have boot := proofDone_boot (body := answer) (kept.trans sess) true
  have tagKey := sessionKeys_tagKey quiet slot key (x.nonceT ++ x.nonceD)
  rw [← keySlot_of_key ((Only.proofDone0 _ true answer).key rfl)] at tagKey
  exact ⟨_, _, congrArg Host.Outcome.next proven, congrArg Boot.session boot, rfl, rfl, rfl, rfl, congrArg Boot.authFails boot,
    tagKey.1, tagKey.2⟩

theorem svcFrame_bad (up : s.s0Up = true) (sess : s.boot.session = some x) {i : Instr} {type fl : Nat} {b : List Byte}
    (frame : (i = .svcCommand id seq body tag ∧ type = 4 ∧ fl = 0 ∧ b = body) ∨
      (i = .svcClose id seq tag ∧ type = 7 ∧ fl = 0 ∧ b = []) ∨
      ∃ enc, i = .svcData id seq enc body tag ∧ type = 6 ∧ fl = b2n enc ∧ b = body)
    (bad : s.svcFrameOk x type fl id seq b tag = false) : exec i s = .next (s.bump Reg.bootSvcBadCnt) := by
  obtain ⟨rfl, rfl, rfl, rfl⟩ | ⟨rfl, rfl, rfl, rfl⟩ | ⟨enc, rfl, rfl, rfl, rfl⟩ := frame
  · exact congrArg Host.Outcome.next (svcFrame_discarded up sess bad)
  · exact congrArg Host.Outcome.next (svcFrame_discarded up sess bad)
  · exact congrArg Host.Outcome.next (svcFrame_discarded up sess bad)

theorem svcData_deciphered {p : List Byte} (up : s.s0Up = true) (sess : s.boot.session = some x)
    (ok : s.svcFrameOk x 6 1 id seq body tag = true) (done : s.dataPlain x seq true body = some p) (long : 4 ≤ p.length) :
    ∃ t, exec (.svcData id seq true body tag) s = .next t ∧ t.rget Reg.secCpReqCnt = s.rget Reg.secCpReqCnt + 1 ∧
      t.boot.session = some { x with
        rxSeq := (x.rxSeq + 1) % 2 ^ 32, lastAt := s.clk, data := x.data ++ [(le p 0 4, p.drop 4)] } := by
  refine ⟨_, congrArg Host.Outcome.next (doSvcData_deciphered up sess ok done long), ?_, ?_⟩
  · rw [rget_of_only (Only.sessMod0 ..) rfl, bump_rget _ _ (by decide) (by decide) ?_, if_pos rfl]
    · rfl
    · exact poolCounter_runs (dataPlain_runs done) (by decide)
  · rw [sessMod_some (x := s.heardSession x) (by rw [(Only.bump0 ..).boot rfl]; rfl)]
    rfl

theorem svcClose_ends (up : s.s0Up = true) (sess : s.boot.session = some x) (ok : s.svcFrameOk x 7 0 id seq [] tag = true) :
    ∃ t, exec (.svcClose id seq tag) s = .next t ∧ t.boot.session = none ∧ t.boot.update = none ∧ t.mbx.svc = [] :=
  ⟨_, congrArg Host.Outcome.next (svcFrame_taken up sess ok), sessionEnd_ends _⟩

/-- While S0 is served time passes. -/
theorem s0Up_passes (up : s.s0Up = true) (t : Nat) : t ≤ (s.waitUntil t).clk := by
  simp only [s0Up, Bool.and_eq_true, beq_iff_eq] at up
  obtain ⟨⟨run, -⟩, -⟩ := up
  exact (waitUntil_clk s t (by rw [run]; decide) (by rw [run]; decide)).1

theorem svcSessionTimeout_ends (up : s.s0Up = true) (sess : s.boot.session = some x) :
    ∃ t, exec .svcSessionTimeout s = .next t ∧ t.boot.session = none ∧ t.boot.update = none ∧ t.mbx.svc = [] ∧
      x.lastAt + 30 * 10 ^ 9 ≤ t.clk := by
  have silent : s.doSvcSessionTimeout = (s.waitUntil (x.lastAt + 30 * 10 ^ 9)).sessionEnd := by
    unfold doSvcSessionTimeout
    rw [sess]
  obtain ⟨ended, closed, emptied⟩ := (s.waitUntil (x.lastAt + 30 * 10 ^ 9)).sessionEnd_ends
  refine ⟨_, congrArg Host.Outcome.next silent, ended, closed, emptied, ?_⟩
  rw [(Only.sessionEnd0 _).clk rfl]
  exact s0Up_passes up _

theorem svcLockoutEnd_ends {t : Nat} (up : s.s0Up = true) (lockout : s.boot.lockoutAt = some t) :
    ∃ u, exec .svcLockoutEnd s = .next u ∧ u.boot.lockoutAt = none ∧ u.boot.authFails = s.boot.authFails ∧ t ≤ u.clk := by
  have lifted : s.doSvcLockoutEnd = (s.waitUntil t).setBoot { (s.waitUntil t).boot with lockoutAt := none } := by
    unfold doSvcLockoutEnd
    rw [lockout]
  exact ⟨_, congrArg Host.Outcome.next lifted, rfl, (congrArg Boot.authFails (waitUntil_boot s t) :), s0Up_passes up t⟩

/-- Settles O58: a HELLO is answered unless a session or the lockout stands, a PROOF opens the session or is counted, frames
are taken in or counted, and a session ends by CLOSE, by a failed PROOF or by its timeout. -/
theorem serviceSession : Obligations.ServiceSession := by
  unfold Obligations.ServiceSession
  intro s up
  refine ⟨fun nonce bc refused => congrArg Host.Outcome.next (doSvcHello_refused refused),
    fun nonce bc => svcHello_opens up bc, fun nonce bc => svcHello_retired up bc, ?proof,
    fun id body idle => congrArg Host.Outcome.next (doSvcProof_alone idle), ?frames, fun t => svcLockoutEnd_ends up⟩
  case proof =>
    intro id body x sess named unproven
    exact ⟨svcProof_unfit up sess named unproven, fun slot key normal quiet store pool =>
      svcProof_right up sess named unproven normal quiet store pool⟩
  case frames =>
    intro id seq body tag x sess
    refine ⟨fun i type fl b => svcFrame_bad up sess, ?command, ?plain, ?encrypted, svcClose_ends up sess,
      svcSessionTimeout_ends up sess⟩
    case command =>
      intro ok long short sound room
      exact ⟨_, congrArg Host.Outcome.next (doSvcCommand_queued up sess ok long short sound room), rfl, rfl,
        .setMbx rfl (.setBoot rfl (.refl _ _))⟩
    case plain =>
      intro ok long
      exact ⟨_, congrArg Host.Outcome.next (doSvcData_plain up sess ok long), Only.setBoot0 .., rfl⟩
    case encrypted =>
      intro ok
      exact ⟨fun undone => congrArg Host.Outcome.next (doSvcData_undeciphered up sess ok undone),
        fun p done long => svcData_deciphered up sess ok done long⟩

end Sys2Proof.Machine
end
